-- ==== Sys2Proof/Word.lean ====
section
/-!
DEFINITION. Word.lean: the byte and the 32-bit word, and the plainest arithmetic on them: bit fields of a
natural number, little-endian byte strings (R6), and the truncation of a value to a width. -/

namespace Sys2Proof

/-- One byte of memory, of a frame or of an argument. -/
abbrev Byte := BitVec 8

/-- One 32-bit register or descriptor word (R11). -/
abbrev Word := BitVec 32

/-- Bits `[lo + w - 1 : lo]` of `n` (R6). -/
def bits (n lo w : Nat) : Nat := n / 2 ^ lo % 2 ^ w

/-- Bit `i` of `n`. -/
def bit (n i : Nat) : Bool := n / 2 ^ i % 2 == 1

/-- A Boolean as a bit. -/
def b2n (b : Bool) : Nat := if b then 1 else 0

/-- The little-endian value of a byte string (R6). -/
def leNat : List Byte → Nat
  | [] => 0
  | b :: r => b.toNat + 256 * leNat r

/-- `n` little-endian bytes of `v` (R6). -/
def leBytes : Nat → Nat → List Byte
  | 0, _ => []
  | k + 1, v => BitVec.ofNat 8 v :: leBytes k (v / 256)

/-- Round `n` up to a multiple of `k`. -/
def roundUp (n k : Nat) : Nat := (n + k - 1) / k * k

/-- Ceiling of `a / b`. -/
def ceilDiv (a b : Nat) : Nat := (a + b - 1) / b

end Sys2Proof
end

