-- ==== Sys2Proof/Syntax.lean ====
section
/-!
DEFINITION. Syntax.lean: the commands of the block, one constructor of `Instr` per row of the spec's opcode table,
in the table's order, and the structures their operands are made of: messages, descriptors and the parts of a
billet. A command's operands are what the outside gives it: a frame's fields, a descriptor's words, the result of
a check that only the outside world's secrets decide (a signature, a tag), a measured time. -/

namespace Sys2Proof

/-- The Cadence message of Table 2-1. -/
structure CadMsg where
  type : Nat
  flags : Nat
  source : Nat
  angle : Nat
  attempt : Nat
  reason : Nat
  seq : Nat
  deriving DecidableEq, Repr

/-- A valid entry of the Strike table (Table 2-3). -/
structure Strike where
  stroke : Nat
  kind : Nat
  gate : Bool
  target : Nat
  every : Nat
  phase : Nat
  arg : Nat
  deriving DecidableEq, Repr

/-- A gang (Table 7-1): `progTable` is the Hearth address of its program header addresses. -/
structure Gang where
  gang : Nat
  stage : Nat
  die : Nat
  row0 : Nat
  col0 : Nat
  rows : Nat
  cols : Nat
  progTable : Nat
  deriving DecidableEq, Repr

/-- A segment descriptor (Table 7-2): `gang` indexes the gang table. -/
structure SegDesc where
  gang : Nat
  pass : Nat
  segment : Nat
  inCh : List Nat
  deriving DecidableEq, Repr

/-- A hand-over channel descriptor (Table 7-3). -/
structure Channel where
  prodDev : Nat
  prodGang : Nat
  consDev : Nat
  consGang : Nat
  slots : Nat
  chunks : Nat
  mem : Nat
  slotBytes : Nat
  slotAddr : Nat
  deriving DecidableEq, Repr

/-- A Swage set (Table 7-4): `ch`, `kh` are the counts, `dv` and `sv` 1 or 2. -/
structure SwageSet where
  srcAddr : Nat
  planeStride : Nat
  rowStride : Nat
  fmt : Nat
  wIn : Nat
  ch : Nat
  kh : Nat
  dv : Nat
  sv : Nat
  depth : Nat
  seq : Nat
  h : Nat
  row0 : Nat
  n : Nat
  lbOffset : Nat
  haloMode : Nat
  haloSlots : Nat
  edgeUp : Nat
  edgeDn : Nat
  haloAddr : Nat
  outAddr : Nat
  outPlane : Nat
  outRow : Nat
  deriving DecidableEq, Repr

/-- A segment of a core's program: how many commands it holds, how many of them are issues, and its Swage table with its
Hearth address (R186). -/
structure SegProg where
  commands : Nat
  issues : Nat
  swageAddr : Nat
  swage : List SwageSet
  deriving DecidableEq, Repr

/-- The program header of one core: its segments and its slag-mask table (R137). -/
structure Prog where
  core : Nat
  segs : List SegProg
  slagAddr : Nat
  slagCount : Nat
  /-- the SLAG_IDs that its issues name -/
  slagUsed : List Nat
  deriving DecidableEq, Repr

/-- What the check of a granule that a command reads finds (R29): corrected, or uncorrectable. -/
structure EccRes where
  granule : Nat
  ue : Bool
  deriving DecidableEq, Repr

/-- An entry of the replay's capture list (R388). -/
structure CapEntry where
  opid : Nat
  core : Nat
  occur : Nat
  addr : Nat
  len : Nat
  deriving DecidableEq, Repr

/-! ## The fabric (chapters 11 and 12) -/

/-- A port in a discovery record (R314): its number, the peer's digest and port, and its two widths. -/
structure LinkPort where
  port : Nat
  digest : Nat
  peerPort : Nat
  rxWidth : Nat
  txWidth : Nat
  deriving DecidableEq, Repr

/-- A discovery record (R314). -/
structure LinkRec where
  origin : Nat
  version : Nat
  ports : List LinkPort
  deriving DecidableEq, Repr

/-- An attestation report as its reader uses it (Table 15-2), with the certificate's digest and the amendments that a
REPORT message carries. -/
structure Report where
  state : Nat
  addr : Nat
  assigned : Bool
  serialDigest : Nat
  exception : Bool
  debug : Bool
  scrubOk : Bool
  seedHeld : Bool
  nonce : Nat
  meas : Nat
  logCount : Nat
  owner : Nat
  billet : Nat
  jobId : Nat
  amendSeq : Nat
  jobCheck : Nat
  kemEk : Nat
  deriving DecidableEq, Repr

/-- An amendment of the roster (R412). -/
structure Amendment where
  /-- both owner signatures verify (R406) -/
  good : Bool
  jobId : Nat
  billet : Nat
  seq : Nat
  addr : Nat
  oldDigest : Nat
  newDigest : Nat
  /-- SHA-384 of the 128-byte body -/
  digest : Nat
  deriving DecidableEq, Repr

/-- What Crucible holds of a firmware image (Table 15-1): KIND, VERSION, SVN, FLAGS.RETIRE, the signing slots, the
payload's digest, the digest of the whole object, the manifest as (KIND, VERSION or stepping code), and whether every
check of R396 other than those of the slots' revocation and of SVN passes. -/
structure FwImage where
  kind : Nat
  version : Nat
  svn : Nat
  retire : Bool
  rsaSlot : Nat
  slhSlot : Nat
  payload : Nat
  digest : Nat
  manifest : List (Nat × Nat)
  good : Bool
  deriving DecidableEq, Repr

/-- An exception token (R401): the signing slots, its SERIAL, its four entries (KIND, VERSION,
PAYLOAD_DIGEST), its digest, and whether MAGIC, FORMAT, keys and both signatures verify. -/
structure Token where
  rsaSlot : Nat
  slhSlot : Nat
  serial : Nat
  entries : List (Nat × Nat × Nat)
  digest : Nat
  good : Bool
  deriving DecidableEq, Repr

/-- A Hjeliz frame as it arrives (Table 16-1), with whether MAGIC, VERSION and TYPE are right and whether its tag
verifies. -/
structure HjFrame where
  good : Bool
  session : Nat
  nonce : Nat
  tagOk : Bool
  tag : Nat
  opcode : Nat
  slot : Nat
  offset : Nat
  total : Nat
  len : Nat
  payload : List Byte
  deriving DecidableEq, Repr

/-- The credential of an AUTH (R429): the level asked for, whether every signature in it verifies, the owner whose keys
sign, the grant's OWNER_DIGEST, LEVEL and GRANT_SERIAL (levels 1 and 2), and the ID of R430. -/
structure Cred where
  level : Nat
  sigOk : Bool
  owner : Nat
  grantOwner : Nat
  grantLevel : Nat
  serial : Nat
  who : Nat
  deriving DecidableEq, Repr

/-- A release (R408): the keys' owner digest, whether the owner signs it or the vendor, and whether both signatures
verify over the right string. `serialDigest` is that of the SERIAL it is bound to. -/
structure ReleaseObj where
  vendor : Bool
  owner : Nat
  rsaSlot : Nat
  slhSlot : Nat
  serialDigest : Nat
  sigOk : Bool
  deriving DecidableEq, Repr

/-- A revocation or an unlock token (R445): whether MAGIC, FORMAT and the zero fields are right and both signatures
verify, its signer (0 vendor, 1 owner), its signing slots, its SERIAL, the algorithm and slot that a
revocation names, and the body's digest. -/
structure VendorObj where
  good : Bool
  signer : Nat
  rsaSlot : Nat
  slhSlot : Nat
  serial : Nat
  alg : Nat
  slot : Nat
  digest : Nat
  deriving DecidableEq, Repr

/-- An import object (R445): whether its form and the owner's signatures are right, its JOB_ID, the HELLO bytes it is
bound to, and the seed that its ciphertext opens to, if it opens. -/
structure ImportObj where
  good : Bool
  jobId : Nat
  hello : Nat
  seed : Option Nat
  deriving DecidableEq, Repr

/-- The attestation messages of R413. `seed` carries the KEM ciphertext and the sealed seed. -/
inductive AttMsg where
  | req (nonce : Nat)
  | report (r : Report) (amends : List Amendment)
  | seed (ct : Nat) (sealedSeed : Nat)
  | done
  | refuse
  deriving DecidableEq, Repr

/-- The payload of a fabric packet (Table 12-2). -/
inductive Payload where
  | nothing
  | bytes (l : List Byte)
  | cad (m : CadMsg)
  | fault (word0 word1 sender : Nat)
  | link (r : LinkRec)
  | hello (random : Nat)
  | attest (m : AttMsg) (frag count : Nat)
  | audit (seq : Nat) (rcvd freed : List Nat)
  | reset (reach : Nat)
  | sums (values : List Nat) (mask : Nat)
  | credit (vc cls count : Nat)
  deriving DecidableEq, Repr

/-- A fabric packet (Table 12-1). `hops`, `sealed` and `nonce` belong to the hop; `inverted` tells that its tag is the
bitwise inverse of the correct one (R306). -/
structure Packet where
  type : Nat
  vc : Nat
  sealed : Bool
  inverted : Bool
  loc : Bool
  hops : Nat
  dst : Nat
  src : Nat
  stream : Nat
  attempt : Nat
  nonce : Nat
  arg : Nat
  body : Payload
  deriving DecidableEq, Repr

/-- A lane frame that arrives (R283): the physical lane, and the positions of the symbols in error. -/
structure LaneErr where
  lane : Nat
  errors : List Nat
  deriving DecidableEq, Repr

/-- What the headers of the lane frames of a port frame have in common (Table 11-2). -/
structure FrameHead where
  kind : Nat
  nak : Bool
  seq : Nat
  ack : Nat
  mask : Nat
  deriving DecidableEq, Repr

/-- A packet that ends in a received frame: the packet, whether its tag verifies, and the pool whose credits the
transmitter took for it, 0 for the shared one (R304). -/
structure RxPacket where
  packet : Packet
  tagOk : Bool
  cls : Nat
  deriving DecidableEq, Repr

/-- What training finds of a physical receive lane (R289 to R291, Table 11-4): signal, lock of its clock recovery, the SYNC it
reads, what the lane's TRAIN frames carry, the logical lane on which the peer sends, the eye margin, and whether equalisation
passed. -/
structure TrainLane where
  lane : Nat
  signal : Bool
  locked : Bool
  sync : Nat
  usable : Nat
  eqReq : Nat
  digest : Nat
  dev : Nat
  addressed : Bool
  port : Nat
  txLane : Nat
  margin : Nat
  passed : Bool
  deriving DecidableEq, Repr

/-- A member of the roster (R312): KIND 0 is a TRZ-2080, 1 a storage feeder. -/
structure Member where
  addr : Nat
  kind : Nat
  digest : Nat
  deriving DecidableEq, Repr

/-- An entry of the stream plan (R322): the receiving device, the stream ID, its holder's kind (0 hand-over channel, 1 bucket, 2
all-reduce) and the channel, bucket or group it serves. -/
structure StreamUse where
  dev : Nat
  id : Nat
  kind : Nat
  index : Nat
  deriving DecidableEq, Repr

/-! ## Bloom (chapter 13) -/

/-- A Bloom frame as it arrives (Table 13-2), with whether its tag verifies (Ethernet). -/
structure BloomFrame where
  version : Nat
  stream : Nat
  index : Nat
  offset : Nat
  total : Nat
  nonce : Nat
  tagOk : Bool
  deriving DecidableEq, Repr

/-- What the header of a coded sample declares (R346): whether it lies within the first 65,536 bytes and within a
profile of Table 13-4, and its pictures' width, height and number. -/
structure CodedHead where
  supported : Bool
  width : Nat
  height : Nat
  frames : Nat
  deriving DecidableEq, Repr

/-- A frame at an Ethernet interface, as the filters of R296 see it. -/
structure EthFrame where
  fcsOk : Bool
  pause : Bool
  toMac : Bool
  toGroup : Bool
  etherType : Nat
  extension : Bool
  fragment : Bool
  nextHeader : Nat
  udpPort : Nat
  solicitsUs : Bool
  deriving DecidableEq, Repr

/-! ## Ingots (chapter 14) -/

/-- A substitution (R339): the step, microbatch and slot it fills, the replaced index, the spare's index, the reason
(Table 16-8) and the ATTEMPT in which it was made. -/
structure Subst where
  step : Nat
  mb : Nat
  slot : Nat
  index : Nat
  spare : Nat
  reason : Nat
  attempt : Nat
  deriving DecidableEq, Repr

/-- A stream's cursor (R339). -/
structure Cursor where
  base : Nat
  next : Nat
  reserve : List Nat
  late : Nat
  skip : Nat
  pending : List Subst
  deriving DecidableEq, Repr

/-- A journal entry (Table 16-7): bytes 32 to 63 are `record`. -/
structure JEntry where
  seq : Nat
  angle : Nat
  origin : Nat
  opcode : Nat
  result : Nat
  tag : Nat
  who : Nat
  record : List Byte
  deriving DecidableEq, Repr

/-- What an ingot holds (R362, Table 14-3): its BILLET_DIGEST, SHARD_STEP, the array sections (KIND, group entry and raw
bytes), and the journal with its next SEQ and the cursors by STREAM (R363). -/
structure IngotImage where
  digest : Nat
  shardStep : Nat
  arrays : List (Nat × Nat × List Byte)
  head : Nat
  journal : List JEntry
  cursors : List (Nat × Cursor)
  deriving DecidableEq, Repr

/-- A generation on a cartridge: its job, roster address, GEN and step, whether it is complete by R367 so far as this
cartridge shows it, whether PAIR splits it between two bays, whether it is a replay's captures, its first zone and its
zones, its records, and what it holds. -/
structure Gen where
  job : Nat
  addr : Nat
  gen : Nat
  step : Nat
  complete : Bool
  pair : Bool
  capture : Bool
  first : Nat
  zones : Nat
  records : Nat
  image : Option IngotImage
  deriving DecidableEq, Repr

/-- The LABEL record of a cartridge (R378), and whether its tag verifies under the job key. -/
structure CartLabel where
  job : Nat
  addr : Nat
  tagOk : Bool
  deriving DecidableEq, Repr

/-- A cartridge as the device reads it (R375 to R378): its link's width and speed, the verdicts on its identity and on its
life report, WRITTEN and RATED, its zones Z and their capacity in blocks of 4,096 bytes, its label, its generations,
oldest first, and the last zone of the newest one. -/
structure Cart where
  width : Nat
  speed : Nat
  idOk : Bool
  lifeOk : Bool
  written : Nat
  rated : Nat
  zones : Nat
  cap : Nat
  label : Option CartLabel
  gens : List Gen
  last : Nat
  deriving DecidableEq, Repr

/-- What passes between the devices of a restore and their master (R383, R384): a device's shards, as (step, address);
a step that it cannot use; and the step announced, none when no step meets the requirement. -/
inductive RestoreMsg where
  | report (dev : Nat) (shards : List (Nat × Nat))
  | unusable (dev step : Nat)
  | announce (step : Option Nat)
  deriving DecidableEq, Repr

/-- A tensor of a stash region (Table 9-2). -/
structure StashTensor where
  raw : Nat
  mode : Nat
  srcFmt : Nat
  offset : Nat
  deriving DecidableEq, Repr

/-- A stash region (Table 9-1): `gang` is the gang's number, `tierMap` holds the target tier by microbatch, `tlist` is the
Hearth address of the tensor list. -/
structure StashRegion where
  gang : Nat
  bwdDesc : Nat
  fbuf : Nat
  tlist : Nat
  fetchAddr : Nat
  fbufBytes : Nat
  hearthAddr : Nat
  hearthSlots : Nat
  hbmAddr : Nat
  hbmSlots : Nat
  tierMap : List Nat
  tensors : List StashTensor
  deriving DecidableEq, Repr

/-- The stash plan of section 0x05 (R227). -/
structure StashPlan where
  slotLog2 : Nat
  stockBase : Nat
  stockSlots : Nat
  regions : List StashRegion
  deriving DecidableEq, Repr

/-- A region of the memory plan (R532): its memory (0 and 1 Hearth of a die, 2 HBM4, 3 Stock), its extent, and
whether core transfers may use it (R246). -/
structure PlanRegion where
  mem : Nat
  base : Nat
  len : Nat
  xfer : Bool
  deriving DecidableEq, Repr

/-- A segment of a bucket (Table 12-6). -/
structure BucketSeg where
  owner : Nat
  ofmt : Nat
  offset : Nat
  len : Nat
  dest : Nat
  deriving DecidableEq, Repr

/-- A gradient bucket (Table 12-5) with its segments. -/
structure Bucket where
  group : Nat
  ifmt : Nat
  wire : Nat
  auto : Bool
  bytes : Nat
  fill : Nat
  addr : Nat
  stage : Nat
  segs : List BucketSeg
  deriving DecidableEq, Repr

/-- A parameter group of Temper's table (Table 10-1). -/
structure TmpGroup where
  group : Nat
  rule : Nat
  flags : Nat
  gfmt : Nat
  lrCurve : Nat
  wdCurve : Nat
  count : Nat
  w : Nat
  m : Nat
  v : Nat
  g : Nat
  freeze : Nat
  stats : Nat
  beta1 : Nat
  beta2 : Nat
  eps : Nat
  damp : Nat
  mrows : Nat
  mcols : Nat
  blk : Nat
  niter : Nat
  period : Nat
  statEvery : Nat
  prog : Nat
  deriving DecidableEq, Repr

/-- A segment of a curve (R263). -/
structure CurveSeg where
  start : Nat
  span : Nat
  kind : Nat
  v0 : Nat
  v1 : Nat
  deriving DecidableEq, Repr

/-- A push descriptor (Table 10-3). -/
structure Push where
  group : Nat
  wfmt : Nat
  mx : Bool
  dest : Nat
  die : Nat
  rowLen : Nat
  first : Nat
  count : Nat
  dst : Nat
  stride : Nat
  cs : Nat
  img : Nat
  deriving DecidableEq, Repr

/-- Section 0x07 (Table 15-4): Temper's tables and settings. Ranges are (first, count). -/
structure TemperPlan where
  groups : List TmpGroup
  updRanges : List (Nat × Nat)
  curves : List (List CurveSeg)
  pushes : List Push
  pushRanges : List (Nat × Nat)
  programs : List (List (List Word))
  normGroup : Nat
  prepass : Bool
  clipEn : Bool
  skipNonfinite : Bool
  infTrap : Bool
  clipNorm : Nat
  gtable : Nat
  curveBase : Nat
  /-- Stock addresses of the update range, push and push range tables (R256) -/
  updAddr : Nat
  pushAddr : Nat
  pushRangeAddr : Nat
  deriving DecidableEq, Repr

/-- A Bloom stream descriptor (Table 13-1): `feeder` is an entry of the feeder table. -/
structure BloomStream where
  stream : Nat
  kind : Nat
  ethernet : Bool
  die : Nat
  mem : Nat
  feeder : Nat
  iface : Nat
  ofmt : Nat
  ch3 : Bool
  colour : Nat
  full : Bool
  outW : Nat
  outH : Nat
  outF : Nat
  b : Nat
  mbs : Nat
  mean : List Nat
  scale : List Nat
  maxCoded : Nat
  maxRatio : Nat
  lead : Nat
  reserve : Nat
  nbuf : Nat
  consDesc : Nat
  window : Nat
  bufAddr : Nat
  resAddr : Nat
  ringAddr : Nat
  deriving DecidableEq, Repr

/-- The FAB settings of section 0x08: NET_CTRL, and the ports in Ethernet mode (R295, R333). -/
structure FabSet where
  sealing : Bool
  w2 : Nat
  w3 : Nat
  tokens : Nat
  ethernet : List Nat
  deriving DecidableEq, Repr

/-- The CAD settings of section 0x02 with the Strike table's valid entries, the job's COMMIT stroke as every 0x02 section
of the billet gives it, and the devices for which the billet sets CTRL.CANDIDATE (R41, R43, R55, R56). -/
structure CadSet where
  period : Nat
  lead : Nat
  holdLimit : Nat
  abortLimit : Nat
  candidate : Bool
  external : Bool
  fallback : Bool
  outEn : Bool
  strike : List Strike
  commits : List Nat
  candidates : List Nat
  deriving DecidableEq, Repr

/-- Section 0x06: the pool's page form (E2M1 or E4M3), its dh of 128 or 64, its pages, the addresses of the page array and
of the metadata array in HBM4 (R208), whether the billet has the section, and the core that the serving descriptor names as
OWNER (R220). -/
structure KvPlan where
  present : Bool
  small : Bool
  wide : Bool
  pages : Nat
  base : Nat
  metaBase : Nat
  owner : Nat
  deriving DecidableEq, Repr

/-- Bytes that the billet places in a memory (0 and 1 Hearth of a die, 2 HBM4, 3 Stock): programs, tables, masks. -/
structure PlanImage where
  mem : Nat
  addr : Nat
  data : List Byte
  deriving DecidableEq, Repr

/-- The device's part of a billet, as `LOAD_BILLET` checks and holds it (R411, Table 15-4). -/
structure Billet where
  /-- JOB_ID, BILLET_DIGEST and OWNER_DIGEST (Table 15-3, R409) -/
  jobId : Nat
  digest : Nat
  owner : Nat
  /-- FW_ALLOW, and whether the billet has an ESCROW section (Table 15-4) -/
  fwAllow : List Nat
  escrow : Bool
  addr : Nat
  cad : CadSet
  kv : KvPlan
  gangs : List Gang
  segDescs : List SegDesc
  channels : List Channel
  progs : List Prog
  /-- OPIDs of the activation commands whose sites declare input form (R134), and the sites as (function code, FP32 α,
  input form) -/
  actInput : List Nat
  sites : List (Nat × Nat × Bool)
  /-- NUMCTRL (section 0x04), and RST.CTRL.REMOTE_EN (R495) -/
  nanAction : Bool
  infTrap : Bool
  remoteEn : Bool
  /-- Stock base and bytes of the ingot staging buffer (R364), and what the billet writes into the memories -/
  stagingBase : Nat
  stagingLen : Nat
  images : List PlanImage
  plan : List PlanRegion
  stash : StashPlan
  buckets : List Bucket
  /-- the roster, the rank lists of the collective groups (R324), the stream plan of every device (R322), and the FAB
  settings -/
  roster : List Member
  groups : List (List Nat)
  streams : List StreamUse
  fab : FabSet
  /-- Stock base address of Temper's bucket window (Table 12-6) -/
  bucketWindow : Nat
  temper : TemperPlan
  /-- section 0x09: Bloom's streams, the roster addresses of the feeder table, and the UDP port (R343) -/
  bloom : List BloomStream
  feeders : List Nat
  bloomPort : Nat
  deriving DecidableEq, Repr

/-- The tables of a billet's sections for this device, as the bytes that their layouts give: Tables 2-3, 7-1 to 7-3, 9-1, 9-2
(per region), 10-1, the ranges of R260 and R273, the curves of R263, Tables 10-3, 12-5, 12-6 and 13-1, the roster of R312, and
the Swage table of a segment of a core (core, segment and Table 7-4). -/
structure BilletTables where
  strike : List Byte
  gangs : List Byte
  segDescs : List Byte
  channels : List Byte
  regions : List Byte
  tensors : List (List Byte)
  groups : List Byte
  updRanges : List Byte
  curves : List Byte
  pushes : List Byte
  pushRanges : List Byte
  buckets : List Byte
  bucketSegs : List Byte
  bloom : List Byte
  roster : List Byte
  swage : List (Nat × Nat × List Byte)
  deriving DecidableEq, Repr

/-- No table has an entry. -/
def BilletTables.empty : BilletTables :=
  { strike := [], gangs := [], segDescs := [], channels := [], regions := [], tensors := [], groups := [], updRanges := [], curves := []
    pushes := [], pushRanges := [], buckets := [], bucketSegs := [], bloom := [], roster := [], swage := [] }

/-- The commands, one constructor per row of spec/opcode_table.json. -/
inductive Instr where
  /-- HELLO (R428): A caller's HELLO opens a new session, and the device answers with a REPORT that carries a fresh KEM_EK and the new SESSION. -/
  | hello (frame : HjFrame) (bytes : Nat)
  /-- KEM (R428): The caller's ML-KEM ciphertext arrives, and both sides derive the session keys and SALTs. -/
  | kem (frame : HjFrame)
  /-- AUTH (R429): A credential raises the session to level 1, 2 or 3, or the device closes the session and counts AUTH_FAIL. -/
  | auth (frame : HjFrame) (cred : Cred)
  /-- COMMAND (R432): A COMMAND frame adds argument bytes; when the last byte lands, the device checks the command and accepts it into a PENDING slot or refuses it. -/
  | command (frame : HjFrame)
  /-- READ (R437): A READ asks for result bytes of a slot, and the device answers with a RESULT according to the slot's state. -/
  | read (frame : HjFrame)
  /-- ACK (R437): An ACK whose TAG matches frees a READY slot; otherwise the device answers NOT_READY or NO_SLOT. -/
  | ack (frame : HjFrame)
  /-- LIST (R438): The device returns one record for each slot of the caller's ID, or of every ID at level 3. -/
  | list (frame : HjFrame)
  /-- CLOSE (R431): A CLOSE from the caller ends the session, dropping any incomplete argument and freeing level-0 slots. -/
  | close (frame : HjFrame)
  /-- PING (R431): A PING keeps the session open. -/
  | ping (frame : HjFrame)
  /-- SESSION_IDLE_TIMEOUT (R431): No valid frame arrives for MBX.IDLE_S seconds, so the device sends CLOSE, closes the session and counts TIMEOUTS. -/
  | sessionIdleTimeout (session : Nat)
  /-- SERVICE_ICMPV6 (R425): The service port answers an ICMPv6 Neighbor Solicitation or Echo Request, and drops every other non-Hjeliz frame. -/
  | serviceIcmpv6 (kind : Nat)
  /-- IDENTIFY (R443): The command returns the serial, stepping, image versions, state, address and MAC. -/
  | identify (slot : Nat)
  /-- ATTEST (R443): The command returns the certificate and a signed report over the caller's nonce, with KEM_EK zero. -/
  | attest (slot : Nat)
  /-- STATUS (R444): The command returns the 128-byte status summary. -/
  | status (slot : Nat)
  /-- CLAIM (R407): In Blank, the device verifies the owner's keys and signatures, writes the owner record, extends MEAS and enters Claimed. -/
  | claim (slot : Nat) (nonce : Nat) (rsaOk : Bool) (slhOk : Bool)
  /-- RELEASE (R408): An owner or vendor release erases the wrapped seed and owner record, scrubs the memories and returns the device to Blank. -/
  | release (slot : Nat) (object : ReleaseObj)
  /-- LOAD_BILLET (R411): The device checks the signed billet and its amendments section by section, with a seed erase and scrub when the JOB_ID changes, and accepts or refuses it. -/
  | loadBillet (slot : Nat) (body : Billet) (sigOk : Bool) (amends : List Bool) (tables : BilletTables := .empty)
  /-- ARM (R440): The device runs discovery, builds routes, attests its peers, obtains the job key and seals its links, then moves from Claimed to Armed. -/
  | arm (slot : Nat)
  /-- DISARM (R440): The device moves from Armed to Claimed and keeps the billet. -/
  | disarm (slot : Nat)
  /-- RUN (R440): The device moves from Armed to Running, starts the master election and begins at 0:0x0000 or at the stroke-0 angle where the job stopped. -/
  | run (slot : Nat)
  /-- HALT (R442): The device raises a HOLD with reason HALT at the STEP_END gate, so that the job stops at (s+1):0x0000 and enters Armed. -/
  | halt (slot : Nat)
  /-- RESTORE (R383): The devices elect a master, choose the newest or the named step that every address holds complete, and load its ingot. -/
  | restore (slot : Nat)
  /-- RESET (R483): The command asserts a core or system reset for 10 µs once it takes effect, ahead of queued commands. -/
  | reset (slot : Nat)
  /-- SERVE_OPEN (R220): The command opens a serving KV stream, empty or forked, at the next s:0x0000. -/
  | serveOpen (slot : Nat)
  /-- SERVE_CLOSE (R220): The command closes a serving KV stream at the next s:0x0000. -/
  | serveClose (slot : Nat)
  /-- REPLAY_STEP (R387): The device restores step s from an ingot and runs it with the recorded substitutions and no deadlines, captures the listed ranges and stops at STOP. -/
  | replayStep (slot : Nat)
  /-- FAULT_READ (R443): The command returns FLT.FIRST, its angle, the status flags and the per-source counters. -/
  | faultRead (slot : Nat)
  /-- JOURNAL_READ (R530): The command returns journal entries forward or backward, filtered to the caller's own entries on request. -/
  | journalRead (slot : Nat)
  /-- INGOT_LIST (R443): The command lists the ingot generations found on the selected bays. -/
  | ingotList (slot : Nat)
  /-- CRS_READ (R447): The command reads control register words at the session's level, in ascending address order. -/
  | crsRead (slot : Nat) (ecc : List EccRes)
  /-- CRS_WRITE (R447): The command writes control register words at the session's level, with refused words ignored, and is journalled. -/
  | crsWrite (slot : Nat)
  /-- JOB_ESCROW_READ (R417): The command returns the escrow ciphertext and the sealed seed. -/
  | jobEscrowRead (slot : Nat)
  /-- FW_WRITE (R402): The command writes an image into the slot that ACTIVE does not name. -/
  | fwWrite (slot : Nat) (verified : Bool)
  /-- FW_COMMIT (R402): The command verifies the written images and flips ACTIVE atomically when the resulting set is tested. -/
  | fwCommit (slot : Nat)
  /-- EXCEPTION_LOAD (R401): The command stores an exception token bound to SERIAL, replacing any earlier token. -/
  | exceptionLoad (slot : Nat) (verified : Bool)
  /-- REVOKE (R393): A dual-signed vendor revocation burns a key slot's revocation fuse, effective at the next boot. -/
  | revoke (slot : Nat) (verified : Bool)
  /-- DEBUG_UNLOCK (R419): A dual-signed unlock token enables debug access, extends MEAS and sets the DEBUG flag until power-on. -/
  | debugUnlock (slot : Nat) (verified : Bool)
  /-- JOB_KEY_IMPORT (R417): The device decapsulates an owner-signed import object bound to the session's report and takes the job seed. -/
  | jobKeyImport (slot : Nat) (verified : Bool) (opened : Option Nat := none)
  /-- BEAT_ISSUE (R40): When the period has elapsed and the last hold at the angle has released, the master issues the next BEAT. -/
  | beatIssue
  /-- BEAT (R50): A device receives a beat, fires that stroke's Strike entries (first any missed strokes), evaluates gates GATE_LEAD ahead and drives CAD_OUT. -/
  | beat (msg : CadMsg)
  /-- KEEP_SEND (R46): The master has issued no beat for 8 × CAD.PERIOD_NS, so it sends a KEEP. -/
  | keepSend
  /-- KEEP (R46): A device receives a KEEP and restarts its master-loss timing, with no other effect. -/
  | keep (msg : CadMsg)
  /-- HOLD (R59): The master receives a HOLD, counts it or discards it by ATTEMPT, and aborts or stops according to its reason. -/
  | hold (msg : CadMsg)
  /-- HOLD_RELEASE (R63): The master accepts a RELEASE that matches a standing hold, or discards it. -/
  | holdRelease (msg : CadMsg)
  /-- ABORT (R64): A device receives an ABORT and either rolls step s back to s:0x0000 or stops at the given angle and enters Armed. -/
  | abort (msg : CadMsg)
  /-- CANDIDATE (R43): A device keeps a CANDIDATE message and confirms the lowest-addressed candidate it has heard. -/
  | candidate (msg : CadMsg)
  /-- CONFIRM (R43): A candidate counts a confirmation and becomes master once every device has confirmed, then issues the start beat. -/
  | confirm (msg : CadMsg)
  /-- ELECTION_TIMEOUT (R44): No master is confirmed within 100 ms, or no candidate remains, so each device raises CAD no master. -/
  | electionTimeout
  /-- MASTER_LOST (R45): No BEAT, KEEP or ABORT arrives for 32 periods; the device raises CAD master lost, cancels its holds and runs a new election. -/
  | masterLost
  /-- GATE_STALL (R61): A hold has been timed beyond CAD.HOLD_LIMIT_MS; the master raises CAD gate stall and aborts, or stops the job with cause 3 after COMMIT. -/
  | gateStall (dev : Nat) (angle : Nat)
  /-- GATE_READY (R58): A held gate's condition becomes met, so the device sends one RELEASE for it. -/
  | gateReady (entry : Nat)
  /-- ROLLBACK_COMPLETE (R64): A device finishes its rollback, sends RELEASE for s:0x0000 with the new ATTEMPT, and raises any pending HALT again. -/
  | rollbackComplete
  /-- RESUME_RELEASE (R385): After a core reset, the device has reloaded its billet image, run its pushes and refilled Bloom, so it releases its RESET hold. -/
  | resumeRelease
  /-- CAD_IN_EDGE (R51): A CAD_IN pulse ends; a valid one counts towards IN_LOCK and, on the master, turns the angle unless it is dropped as a slip. -/
  | cadInEdge (high : Nat) (gap : Nat) (sinceBeat : Nat)
  /-- CAD_IN_LOST (R53): No valid CAD_IN edge arrives for 32 periods; IN_LOCK drops, and the master raises CAD_IN lost and falls back or stands. -/
  | cadInLost
  /-- MATMUL (R106): The sequencer checks a MATMUL issue and accepts it, holding its slots and region, or refuses it, or waits. -/
  | matmul (core : Nat) (words : List Word)
  /-- ISSUE_ACCEPT_AFTER_WAIT (R115): A waiting issue's slots or region become available, and the re-run check accepts it. -/
  | issueAcceptAfterWait (core : Nat) (ecc : List EccRes := [])
  /-- ISSUE_COMPLETE (R114): An issue finishes streaming, and its slots move to DRAIN or KEPT. -/
  | issueComplete (core : Nat)
  /-- DRAIN_COMPLETE (R114): A slot's last row has been converted and written to C, and the slot becomes FREE. -/
  | drainComplete (core : Nat)
  /-- UNDEFINED_OP (R148): A program command's OP belongs to no class, so it is refused with ISSUE illegal and the program stops. -/
  | undefinedOp (core : Nat) (words : List Word)
  /-- EW (R153): The vector engine runs an element-wise function over the extent. -/
  | ew (core : Nat) (words : List Word)
  /-- FN (R154): The vector engine computes a correctly rounded function over the extent. -/
  | fn (core : Nat) (words : List Word)
  /-- ACT (R155): The vector engine computes an activation y = f(h). -/
  | act (core : Nat) (words : List Word)
  /-- DACT (R155): The vector engine computes an activation derivative dh from dy and the saved y or h. -/
  | dact (core : Nat) (words : List Word)
  /-- REDUCE (R163): The vector engine reduces rows, columns or the whole tile by the fixed tree. -/
  | reduce (core : Nat) (words : List Word)
  /-- PERM (R157): The vector engine writes each DST word from the word that an index tile names. -/
  | perm (core : Nat) (words : List Word)
  /-- TRANS (R158): The vector engine transposes a register group. -/
  | trans (core : Nat) (words : List Word)
  /-- SHUF (R159): The vector engine rearranges the elements within each row. -/
  | shuf (core : Nat) (words : List Word)
  /-- PACK (R160): The vector engine converts FP32 rows into packed codes, as MX blocks or plain elements. -/
  | pack (core : Nat) (words : List Word)
  /-- UNPACK (R161): The vector engine converts packed codes back to FP32. -/
  | unpack (core : Nat) (words : List Word)
  /-- LD (R151): The vector engine loads register rows from Hearth. -/
  | ld (core : Nat) (words : List Word)
  /-- ST (R149): The vector engine stores register rows to Hearth, completing when the last byte lands. -/
  | st (core : Nat) (words : List Word)
  /-- SETSHAPE (R162): The vector engine writes CORE.SHAPE[j] from register values. -/
  | setshape (core : Nat) (words : List Word)
  /-- DWCONV (R166): The vector engine computes one output row of a grouped convolution from Swage line buffers. -/
  | dwconv (core : Nat) (words : List Word)
  /-- DWCONV_COMPLETE (R189): A DWCONV finishes; an edge row is then sent to the neighbour stripe, spending a halo credit. -/
  | dwconvComplete (core : Nat)
  /-- TERMWALK (R167): The vector engine starts re-evaluating one array output element term by term. -/
  | termwalk (core : Nat) (words : List Word)
  /-- TERMWALK_COMPLETE (R168): A term-walk finishes and writes its 64-byte record whole. -/
  | termwalkComplete (core : Nat)
  /-- ATTN_FORWARD (R199): An ATTN with FUNC 0 appends tokens if asked and computes masked online-softmax attention block by block. -/
  | attnForward (core : Nat) (words : List Word) (ecc : List EccRes := [])
  /-- ATTN_BACKWARD (R206): An ATTN with FUNC 1 computes dQ, dK and dV in fixed block order. -/
  | attnBackward (core : Nat) (words : List Word)
  /-- ATTN_PREPASS (R205): An ATTN with FUNC 2 computes D for each query row. -/
  | attnPrepass (core : Nat) (words : List Word)
  /-- ATTN_COMPLETE (R196): An ATTN completes, unpins its epoch and clears T0 to T31. -/
  | attnComplete (core : Nat)
  /-- KVOP_OPEN (R213): A KVOP opens a KV training stream with its level-1 table. -/
  | kvopOpen (core : Nat) (words : List Word)
  /-- KVOP_FORK (R213): A KVOP forks a stream by copying its tables and adding 1 to each data page's COUNT. -/
  | kvopFork (core : Nat) (words : List Word)
  /-- KVOP_CLOSE (R213): A KVOP closes a stream, decrements its pages' COUNT and retires its table pages. -/
  | kvopClose (core : Nat) (words : List Word)
  /-- KV_AUDIT_START (R221): A write of 1 to KVP.AUDIT.START starts the walk of every table against page counts. -/
  | kvAuditStart
  /-- KV_AUDIT_DONE (R221): The audit walk finishes and sets AUDIT.DONE and PASS, or raises KV ledger. -/
  | kvAuditDone
  /-- XFER (R245): A transfer command moves data between Hearth and HBM4 or Stock through Flux in its mode. -/
  | xfer (core : Nat) (words : List Word)
  /-- XFER_COMPLETE (R245): A transfer completes and writes its coded length to RESULT when asked. -/
  | xferComplete (core : Nat) (ecc : List EccRes)
  /-- BUCKET_FILLED (R328): A bucket's landed fill count reaches FILL_BYTES, so it launches if AUTO is set or its launch entry has fired. -/
  | bucketFilled (bucket : Nat) (ecc : List EccRes := [])
  /-- SEND (R178): A SEND spends a hand-over credit and sends a chunk into the consumer's next slot, stalling while no credit is held. -/
  | send (core : Nat) (words : List Word)
  /-- STASH (R228): A STASH checks its window, places the entry in a tier and starts encoding the tensor into slots. -/
  | stash (core : Nat) (words : List Word)
  /-- STASH_LANDED (R228): A STASH's coded bytes and any MX write-back have landed, so the STASH completes. -/
  | stashLanded (core : Nat)
  /-- FETCH_COMPLETE (R233): Every tensor of (r, j) has been decoded into its fetch buffer, so the FETCH condition is met. -/
  | fetchComplete (region : Nat) (mb : Nat) (ecc : List EccRes)
  /-- CHUNK_LANDED (R179): A hand-over chunk lands in a consumer slot, and its tag is checked. -/
  | chunkLanded (channel : Nat) (mb : Nat) (chunk : Nat) (attempt : Nat) (data : List Byte)
  /-- HO_CREDIT (R180): A returned hand-over credit reaches the producer, and a stalled SEND proceeds. -/
  | hoCredit (channel : Nat)
  /-- HALO_ROW_LANDED (R190): A halo row lands in a slot, and its tag is checked; a window waiting on it is presented. -/
  | haloRowLanded (core : Nat) (up : Bool)
  /-- HALO_CREDIT_RETURN (R191): A halo credit returns to its producer, and a stalled Swage send proceeds. -/
  | haloCreditReturn (core : Nat) (up : Bool)
  /-- NORM_RESULT (R266): The norm collective returns the job sum and flag, so Temper sets clipf or skips the step and runs the update. -/
  | normResult (ecc : List EccRes := [])
  /-- UPDATE_RANGE_DONE (R260): Temper finishes every group of a range with its push images, so the UPDATE condition is met. -/
  | updateRangeDone (range : Nat) (ecc : List EccRes)
  /-- WEIGHT_PUSH_DONE (R274): Every byte of a push has landed, so the WEIGHT_PUSH condition is met. -/
  | weightPushDone (range : Nat) (ecc : List EccRes)
  /-- PORT_TRAIN_START (R289): A port begins training on all eight lanes after reset release or loss of lock on every lane. -/
  | portTrainStart (port : Nat)
  /-- FAB_RETRAIN (R289): A write of 1 to FAB[p].CTRL.RETRAIN starts training of the port. -/
  | fabRetrain (port : Nat)
  /-- PORT_UP (R289): Training ends and the port comes up at its width, or goes down with FAB port down. -/
  | portUp (port : Nat) (lanes : List TrainLane) (eqReq : Nat)
  /-- PORT_DOWN_RETRY (R289): 100 ms have passed on a down port, so it trains again. -/
  | portDownRetry (port : Nat)
  /-- LANE_FRAME (R286): A port frame is received and decoded; a bad one is discarded and a replay is requested by NAK. -/
  | laneFrame (port : Nat) (lanes : List LaneErr) (headers : List Nat) (packets : List RxPacket)
  /-- NAK (R287): A received NAK makes the transmitter resend every frame from ACK + 1. -/
  | nak (port : Nat) (acked : Nat)
  /-- SCHEDULED_IDLE (R285): After every 8,191 frames, the transmitter sends one scheduled IDLE port frame. -/
  | scheduledIdle (port : Nat)
  /-- LANE_DROP (R293): A lane loses lock or passes its error limits in a 1 ms window, so it is dropped through a DEGRADE exchange. -/
  | laneDrop (port : Nat) (lane : Nat) (lost : Bool) (corrected : Nat := 0) (uncorr : Nat := 0)
  /-- DEGRADE (R293): A DEGRADE frame makes the transmitter clear or add a lane and stripe at the new width. -/
  | degrade (port : Nat) (mask : Nat)
  /-- LANE_READMIT (R294): A dropped lane passes retraining alone and joins again by DEGRADE. -/
  | laneReadmit (port : Nat) (lane : Nat) (margin : Nat)
  /-- CREDIT (R304): Credits returned in a CREDIT packet, or in a packet header, are added to the transmitter's pool or class. -/
  | credit (port : Nat) (vc : Nat) (cls : Nat) (count : Nat)
  /-- PACKET_FORWARD (R306): A transit device forwards a packet cut-through on its route, resealing it, or discards it for hop limit or no route. -/
  | packetForward (port : Nat) (tagOk : Bool)
  /-- AUDIT_SEND (R308): After every 1,024 port frames, a receiver sends an AUDIT packet with its credit counts. -/
  | auditSend (port : Nat)
  /-- AUDIT (R308): A transmitter checks a received AUDIT against its spent and returned credits. -/
  | audit (port : Nat) (seq : Nat) (rcvd : List Nat) (freed : List Nat)
  /-- LINK_STATE (R314): A device stores and forwards a discovery record newer by VERSION. -/
  | linkState (port : Nat) (record : LinkRec) (isSealed : Bool)
  /-- DISCOVERY_COMPLETE (R315): A device holds a record from every roster member over a connected graph, and computes its routes. -/
  | discoveryComplete
  /-- DISCOVERY_TIMEOUT (R315): Discovery is not complete within 2 s of ARM, so FAB discovery is raised and ARM is refused. -/
  | discoveryTimeout
  /-- SEAL_HELLO (R310): A SEAL_HELLO delivers the peer's random bytes, and both ends derive the link keys per direction. -/
  | sealHello (port : Nat) (random : Nat)
  /-- ATTEST_REQ (R414): A peer's attestation request arrives, and the device answers with a REPORT over the peer's nonce. -/
  | attestReq (port : Nat) (nonce : Nat)
  /-- ATTEST_REPORT (R414): A device checks a peer's certificate, report and amendments and accepts or refuses the peer. -/
  | attestReport (port : Nat) (report : Report) (amends : List Amendment) (verified : Bool)
  /-- ATTEST_SEED (R415): A child decapsulates the seed from its parent, derives the job key and confirms it against JOB_CHECK. -/
  | attestSeed (port : Nat) (seed : Nat) (opened : Bool)
  /-- ATTEST_DONE (R413): A peer signals that its attestation exchange is done. -/
  | attestDone (port : Nat)
  /-- ATTEST_REFUSE (R414): A peer refuses the device's attestation. -/
  | attestRefuse (port : Nat)
  /-- REMOTE_RESET (R488): A sealed REMOTE_RESET from a roster member is accepted and asserts a core or system reset, or it is discarded. -/
  | remoteReset (port : Nat) (src : Nat) (target : Nat) (reach : Nat) (tagOk : Bool)
  /-- COLLECTIVE (R325): Child data of an all-reduce lands, and the node combines it and sends it to its parent or delivers it. -/
  | collective (group : Nat) (src : Nat) (attempt : Nat) (values : List Nat) (mask : Nat)
  /-- ADOPT (R321): A neighbour announces that this device is now its Cadence parent. -/
  | adopt (port : Nat)
  /-- BUCKET (R330): Bucket data lands in STAGE and is combined once the node has launched, then sent on or delivered to Temper. -/
  | bucket (stream : Nat) (attempt : Nat) (seg : Nat) (child : Nat) (off : Nat) (data : List Byte) (ecc : List EccRes := [])
  /-- BUCKET_COMPLETE (R331): All of a bucket's sends have landed and its owned segments are in Stock, so its token returns. -/
  | bucketComplete (bucket : Nat) (ecc : List EccRes := [])
  /-- QUENCH_NOTICE (R467): A peer's Quench notice arrives; the device raises FAB peer quench, stops with cause 6 and enters Armed. -/
  | quenchNotice (src : Nat)
  /-- ETH_FRAME (R296): An Ethernet-mode interface filters a received frame, answers Neighbor Solicitations and passes Bloom UDP. -/
  | ethFrame (port : Nat) (iface : Nat) (frame : EthFrame)
  /-- BLOOM_HELLO (R344): A feeder's HELLO completes the ML-KEM exchange, and the feeder link keys are derived. -/
  | bloomHello (feeder : Nat) (random : Nat)
  /-- REQUEST (R340): Bloom requests samples by index once the coded ring has room for them. -/
  | request (entry : Nat)
  /-- DATA (R346): A DATA frame lands sample bytes; the first frame's header checks can skip the sample as malformed. -/
  | data (frame : BloomFrame) (data : List Byte) (head : CodedHead)
  /-- ABSENT (R354): A feeder declares a sample ABSENT, and Bloom skips it. -/
  | absent (frame : BloomFrame)
  /-- REREQUEST (R345): An Ethernet sample receives no DATA for 200 µs, so Bloom re-requests it from the first missing offset. -/
  | rerequest (entry : Nat) (index : Nat)
  /-- DECODE_COMPLETE (R347): A decoder finishes or fails a sample, frees its engine and takes the next landed sample. -/
  | decodeComplete (entry : Nat) (index : Nat) (poisoned : Bool) (ecc : List EccRes := [])
  /-- SPARE_COPY (R353): A spare completes, and Bloom copies it into the slot waiting on it. -/
  | spareCopy (entry : Nat) (index : Nat) (ecc : List EccRes := [])
  /-- ZONE_APPEND_COMPLETE (R373): A Zone Append lands, and the zone is finished when it held the generation's last record there. -/
  | zoneAppendComplete (bay : Nat) (seq : Nat) (ecc : List EccRes := [])
  /-- FLUSH_COMPLETE (R369): Every Flush of a generation completes, so ING.LAST_STEP and LAST_GEN are set and the COMMIT hold is released. -/
  | flushComplete (bay : Nat) (ms : Nat) (written : Nat) (lifeOk : Bool)
  /-- GENERATION_FAIL (R371): A write or Flush fails or a bay is removed, so the generation fails and the COMMIT hold is released. -/
  | generationFail (bay : Nat)
  /-- CARTRIDGE_INSERT (R381): Presence has stayed asserted for 100 ms, so the bay is powered. -/
  | cartridgeInsert (bay : Nat)
  /-- PERST_RELEASE (R381): 100 ms after power, PERST is released and link training starts. -/
  | perstRelease (bay : Nat)
  /-- CONTROLLER_READY (R381): The cartridge controller is ready, so the device reads identity, life and label. -/
  | controllerReady (bay : Nat) (cart : Cart)
  /-- CARTRIDGE_REMOVE (R381): Presence is lost, commands fail, and any generation on the bay fails. -/
  | cartridgeRemove (bay : Nat)
  /-- BAY_OVERLOAD (R380): A 12 V overload lasts beyond 1 ms, so the bay is switched off in POWER_FAULT. -/
  | bayOverload (bay : Nat)
  /-- EJECT (R382): A write of 1 to BAY.CTRL.EJECT stops new generations on the bay. -/
  | eject (bay : Nat)
  /-- EJECT_COMPLETE (R382): The generation in progress and the open zone finish, so the bay is switched off in EJECTED. -/
  | ejectComplete (bay : Nat)
  /-- WIPE (R379): A write of 1 to BAY.CTRL.WIPE resets every zone of a FOREIGN or READ_ONLY cartridge and runs adoption again. -/
  | wipe (bay : Nat)
  /-- INGOT_LOAD_COMPLETE (R384): The chosen ingot has been read and decoded into Stock, so pushes run and the angle is set to s:0x0000. -/
  | ingotLoadComplete (failed : List Nat) (ecc : List EccRes := [])
  /-- SCRUB_START (R421): A write of 1 to CRU.SCRUB.START outside Running starts the scrub. -/
  | scrubStart
  /-- SCRUB_COMPLETE (R422): The scrub's read-back ends, and SCRUB_OK is set or CRU scrub is raised. -/
  | scrubComplete (bad : Nat)
  /-- ENTROPY_FAIL (R423): The random source fails its health tests, so CRU entropy is raised and the device enters Quench. -/
  | entropyFail
  /-- FAULT_MESSAGE_ACCEPT (R458): The collector accepts a message, counts it, latches FIRST or FIRST_F and escalates it by class. -/
  | faultMessageAccept (sources : List Nat)
  /-- QUENCH_STOCK_SELF_REFRESH (R464): The appends in flight have fetched their data, or 2 ms have passed, so Stock enters self-refresh. -/
  | quenchStockSelfRefresh
  /-- COLLECTOR_PARITY (R468): A parity error in the collector writes COLLECTOR parity into FIRST_F and enters Quench. -/
  | collectorParity (offset : Nat)
  /-- FAULT_PULSE_END (R462): The 10 µs to 12 µs FAULT_OUT_N pulse ends, and the pin then follows PIN_DRIVE. -/
  | faultPulseEnd
  /-- SRC_CFG_FORCE (R461): A write to SRC_CFG[x] sets FORCE with a listed kind, making the source raise one forced message. -/
  | srcCfgForce (source : Nat) (mask : Bool) (kind : Nat)
  /-- FLT_VALID_CLEAR (R458): A write of 1 to FLT.STATUS.VALID clears and re-arms the FIRST record, unless a message arrives in that cycle. -/
  | fltValidClear (sources : List Nat)
  /-- TRAP_CLEAR (R96): A write of 1 to CORE.TRAP_STATUS.VALID clears and re-arms a core's trap record. -/
  | trapClear (core : Nat) (event : Bool := false)
  /-- TMP_TRAP_CLEAR (R276): A write of 1 to TMP.TRAP_STATUS.VALID clears and re-arms Temper's trap record. -/
  | tmpTrapClear (event : Bool := false)
  /-- LEGACY_FAULT (R470): A legacy pair reads fault on 3 consecutive samples and raises LEGACY fault, or leaves fault after 3 normal samples. -/
  | legacyFault (pair : Nat) (fault : Bool)
  /-- LEGACY_WIRE (R471): A legacy pair reads equal for 101 consecutive samples and raises LEGACY wire, or clears WIRE after 3 unequal samples. -/
  | legacyWire (pair : Nat) (equal : Bool)
  /-- LEGACY_WINDOW_END (R472): 100 ms after power-on, the device swaps reversed pairs and raises any deferred legacy messages. -/
  | legacyWindowEnd (reversed : List Nat)
  /-- POWER_INPUT_RISE (R492): The 48 V input rises through 38 V, and the rails start. -/
  | powerInputRise (vin : Nat)
  /-- POWER_INPUT_BAND (R503): The input enters 38–40 V or 60–62 V, and PWR input is raised once. -/
  | powerInputBand (vin : Nat)
  /-- POWER_INPUT_HIGH (R503): The input passes 62 V, and the rails turn off within 10 µs. -/
  | powerInputHigh
  /-- POWER_INPUT_LOW (R503): The input stays below 36 V beyond 50 µs, and the rails turn off. -/
  | powerInputLow
  /-- PWR_OK_LOW (R492): PWR_OK is held low for 10 µs or more, which asserts power-on reset and ends Quench. -/
  | pwrOkLow
  /-- POWER_ON_RELEASE (R492): Every rail is good and PWR_OK is high, so power-on reset releases and the power-up sequence runs. -/
  | powerOnRelease (legacyEn : Bool) (smbAddr : Nat)
  /-- SYS_RESET_N (R490): A filtered low on SYS_RESET_N asserts system reset until the pin reads high for 1 µs. -/
  | sysResetN
  /-- CORE_RESET_N (R490): A filtered low on CORE_RESET_N asserts core reset until the pin reads high for 1 µs. -/
  | coreResetN
  /-- RESET_PIN_RELEASE (R490): A reset pin has read high for 1 µs, so its source deasserts. -/
  | resetPinRelease (sys : Bool)
  /-- DOMAIN_RELEASE (R485): No asserted source covers a domain and its clock-good is high, so the domain leaves reset in order. -/
  | domainRelease (domain : Nat) (ecc : List EccRes := [])
  /-- CLOCK_LOSS (R480): A released domain's clock-good falls; reset is asserted over its reach and CLK loss is raised. -/
  | clockLoss (domain : Nat) (refclk : Bool)
  /-- CLOCK_GOOD (R479): A domain's PLL has held lock for 4,096 reference cycles, so its clock-good rises. -/
  | clockGood (domain : Nat)
  /-- WATCHDOG_EXPIRY (R489): The watchdog count expires; SMITH watchdog is raised and, once accepted, the selected reset is asserted. -/
  | watchdogExpiry (ms : Nat)
  /-- WDT_KICK (R489): A write of 1 to RST.WDT_KICK restarts the watchdog count. -/
  | wdtKick
  /-- THERMAL_WARNING (R37): A sensor reaches its warning threshold and raises THERM warning. -/
  | thermalWarning (sensor : Nat) (temp : Nat)
  /-- THERMAL_TRIP (R37): A sensor reaches its trip threshold; THERM trip is raised and a system reset is asserted once it is accepted. -/
  | thermalTrip (sensor : Nat) (temp : Nat)
  /-- THERMAL_TRIP_END (R483): Every sensor reads below its warning threshold, so the thermal-trip source deasserts. -/
  | thermalTripEnd (temps : List Nat)
  /-- PATROL_READ (R30): The patrol reader reads its next granule and treats it as a demand read. -/
  | patrolRead (stack : Nat) (ecc : List EccRes) (written : Bool := false)
  /-- SUMMARY_UPDATE (R502): Every 10 µs, the Summary channel refreshes the service side's state and pin levels. -/
  | summaryUpdate (vin : Nat) (iin : Nat) (pin : Nat) (temps : List Nat)
  /-- STATE (R506): An SMBus Read Byte returns the lifecycle state. -/
  | state
  /-- VIN (R506): An SMBus Read Word returns the input voltage. -/
  | vin
  /-- IIN (R506): An SMBus Read Word returns the input current. -/
  | iin
  /-- PIN (R506): An SMBus Read Word returns the input power. -/
  | pin
  /-- TEMPS (R506): An SMBus Block Read returns the 14 sensor temperatures. -/
  | temps
  /-- FAULT (R506): An SMBus Block Read returns FLT.STATUS and the FIRST message. -/
  | fault
  /-- CAUSE (R506): An SMBus Block Read returns RST.CAUSE. -/
  | cause
  /-- IDENT (R506): An SMBus Block Read returns the serial digest, stepping and Smith version. -/
  | ident
  /-- ANGLE (R506): An SMBus Block Read returns the angle and ATTEMPT. -/
  | angle
  /-- TOTALS (R506): An SMBus Block Read returns the fault class totals without clearing them. -/
  | totals
  /-- SMBUS_UNDEFINED_CODE (R506): An SMBus transaction with an undefined code, or with write data, is NACKed and discarded. -/
  | smbusUndefinedCode (code : Nat) (write : Bool)
  /-- SMBUS_BUS_RELEASE (R505): A bus line held low by another party makes the device release SMB_CLK and SMB_DAT within 35 ms. -/
  | smbusBusRelease
  /-- CRSACC (R522): After the debug unlock, a JTAG Update-DR starts one control register access at the debug level. -/
  | crsacc (data : Nat) (address : Nat) (write : Bool) (ecc : List EccRes)
  /-- BYPASS (R508): The TAP's BYPASS instruction selects the one-bit bypass register. -/
  | bypass
  /-- IDCODE (R525): The TAP's IDCODE instruction shifts out the IDCODE. -/
  | idcode
  /-- SAMPLE_PRELOAD (R508): The TAP samples or preloads the boundary-scan register. -/
  | samplePreload (pins : Nat) (preload : Nat)
  /-- EXTEST (R508): The TAP drives pins from boundary scan, or is taken as BYPASS in Running and Quench. -/
  | extest
  /-- CLAMP (R508): The TAP clamps pins, or is taken as BYPASS in Running and Quench. -/
  | clamp
  /-- TAP_RESET (R508): TRST_N low holds the TAP in Test-Logic-Reset. -/
  | tapReset
  /-- MEMWIN_SNAPSHOT (R526): A read of ID.MEMWIN.DATA[0] takes a 64-byte granule snapshot into the reading bank. -/
  | memwinSnapshot (path : Nat) (ecc : List EccRes)
  /-- LO_READ_LATCH (R11): A permitted read of a _LO register latches the matching _HI half in the path's bank. -/
  | loReadLatch (path : Nat) (address : Nat)
  /-- RC_READ (R12): A permitted read of an RC field returns its value and clears it. -/
  | rcRead (path : Nat) (address : Nat)
  /-- REGISTER_WRITE (R12): A write to a register with no row of its own acts by its access codes, level and locks, holding _LO writes until _HI arrives. -/
  | registerWrite (path : Nat) (address : Nat) (data : Nat) (events : Nat := 0)
  /-- RESTORE_STEP_ANNOUNCE (R383): Each device's report of the steps of its complete generations reaches the elected master, and the master's announcement of the chosen step, or a re-choice after a device reports a step unusable, reaches every device. -/
  | restoreStepAnnounce (msg : RestoreMsg)
  deriving DecidableEq, Repr

end Sys2Proof
end

