-- ==== Sys2Proof/Decode.lean ====
section
/-!
DEFINITION. Decode.lean: the command that a word spells by the bits of spec/opcode_table.json. No row of that table gives
bits (its `fields` are empty: a command is an event, a frame or a register access, not a word), so no word spells one. -/

namespace Sys2Proof

/-- The command that a table word spells: none. -/
def decodeTableWord (_nbits _w : Nat) : Option Instr := none

end Sys2Proof
end

