-- ==== Sys2Proof/Machine/Fp.lean ====
section
/-!
DEFINITION. Machine/Fp.lean: the number formats of chapter 03: the codes of Tables 3-1 and 3-2, exact values,
the two rounding modes of R88, overflow by R89 and R90, binary32 arithmetic (R82, R93), the exact group sums of
R82 to R86 and the MX blocks of R76 to R79. Arithmetic is exact on integers and rounded once, at the end. -/

namespace Sys2Proof.Machine

/-- The element formats of Table 3-1 and R80. -/
inductive Fmt where
  | fp32 | bf16 | fp16 | e4m3 | e5m2 | e2m3 | e3m2 | e2m1 | s8 | u8 | s4 | u4
  deriving DecidableEq, Repr

/-- An exact value: NaN, an infinity, or (−1)^neg × m × 2^e. -/
inductive Val where
  | nan
  | inf (neg : Bool)
  | fin (neg : Bool) (m : Nat) (e : Int)
  deriving DecidableEq, Repr

/-- The watched causes of R94. -/
inductive Cause where
  | invalid | nanOperand | overflow
  deriving DecidableEq, Repr

/-- The code of a cause in TRAP_STATUS.CAUSE (Table 3-7). -/
def Cause.code : Cause → Nat
  | .invalid => 0
  | .nanOperand => 1
  | .overflow => 2

namespace Fmt

/-- Bits of one element (Table 3-1, R80). -/
def width : Fmt → Nat
  | .fp32 => 32
  | .bf16 | .fp16 => 16
  | .e4m3 | .e5m2 | .s8 | .u8 => 8
  | .e2m3 | .e3m2 => 6
  | .e2m1 | .s4 | .u4 => 4

/-- Mantissa bits (Table 3-1). -/
def man : Fmt → Nat
  | .fp32 => 23
  | .bf16 => 7
  | .fp16 => 10
  | .e4m3 | .e2m3 => 3
  | .e5m2 | .e3m2 => 2
  | .e2m1 => 1
  | .s8 | .u8 | .s4 | .u4 => 0

/-- Exponent bias (Table 3-1). -/
def bias : Fmt → Nat
  | .fp32 | .bf16 => 127
  | .fp16 | .e5m2 => 15
  | .e4m3 => 7
  | .e2m3 | .e2m1 => 1
  | .e3m2 => 3
  | .s8 | .u8 | .s4 | .u4 => 0

/-- The code of the largest finite positive value (Table 3-2). -/
def maxCode : Fmt → Nat
  | .fp32 => 0x7F7FFFFF
  | .bf16 => 0x7F7F
  | .fp16 => 0x7BFF
  | .e4m3 => 0x7E
  | .e5m2 => 0x7B
  | .e2m3 | .e3m2 => 0x1F
  | .e2m1 => 0x7
  | .s8 => 127
  | .u8 => 255
  | .s4 => 7
  | .u4 => 15

/-- Whether the format has infinities (Table 3-1). -/
def hasInf : Fmt → Bool
  | .fp32 | .bf16 | .fp16 | .e5m2 => true
  | _ => false

/-- The canonical NaN code (Table 3-2, R73); zero where the format has none. -/
def nanCode : Fmt → Nat
  | .fp32 => 0x7FC00000
  | .bf16 => 0x7FC0
  | .fp16 => 0x7E00
  | .e4m3 => 0x7F
  | .e5m2 => 0x7E
  | _ => 0

/-- An integer format (R80). -/
def isInt : Fmt → Bool
  | .s8 | .u8 | .s4 | .u4 => true
  | _ => false

/-- A signed integer format. -/
def signed : Fmt → Bool
  | .s8 | .s4 => true
  | _ => false

/-- An FP6 or FP4 format, which always carries block scales (R77). -/
def mxOnly : Fmt → Bool
  | .e2m3 | .e3m2 | .e2m1 => true
  | _ => false

/-- The exponent of the largest finite value, `e_max` of R79. -/
def emax : Fmt → Int
  | .e4m3 => 8
  | .e5m2 => 15
  | .e2m3 => 2
  | .e3m2 => 4
  | .e2m1 => 2
  | .fp32 | .bf16 => 127
  | .fp16 => 15
  | _ => 0

/-- The exponent of the unit of the smallest subnormal: 1 − bias − mantissa bits (R71). -/
def qmin (f : Fmt) : Int := 1 - (f.bias : Int) - (f.man : Int)

/-- The sign bit's weight. -/
def signBit (f : Fmt) : Nat := 2 ^ (f.width - 1)

end Fmt

/-- The exact value of a code (R71, R72, R80). -/
def decodeFmt (f : Fmt) (c : Nat) : Val :=
  if f.isInt then
    let n := c % 2 ^ f.width
    if f.signed && f.signBit ≤ n then .fin true (2 ^ f.width - n) 0 else .fin false n 0
  else
    let neg := f.signBit ≤ c % 2 ^ f.width
    let mag := c % f.signBit
    if f.maxCode < mag then
      if f.hasInf && mag % 2 ^ f.man == 0 then .inf neg else .nan
    else
      let ex := mag / 2 ^ f.man
      let fr := mag % 2 ^ f.man
      if ex = 0 then .fin neg fr f.qmin
      else .fin neg (fr + 2 ^ f.man) (f.qmin + (ex : Int) - 1)

/-- 2^k times m, for k possibly negative (floored). -/
def shiftNat (m : Nat) (k : Int) : Nat :=
  if 0 ≤ k then m * 2 ^ k.toNat else m / 2 ^ (-k).toNat

/-- Round m × 2^e to a multiple of 2^q: to nearest with ties to even, or toward zero when `rz` (R88).
Answers the multiple. -/
def roundQ (rz : Bool) (m : Nat) (e q : Int) : Nat :=
  if q ≤ e then m * 2 ^ (e - q).toNat
  else
    let d := (q - e).toNat
    let n := m / 2 ^ d
    let r := m % 2 ^ d
    let h := 2 ^ (d - 1)
    if rz then n
    else if h < r then n + 1
    else if r = h && n % 2 = 1 then n + 1
    else n

/-- The magnitude code of m × 2^e in format `f` with no upper limit on the exponent (R71, R88). -/
def magCode (f : Fmt) (rz : Bool) (m : Nat) (e : Int) : Nat :=
  if m = 0 then 0
  else
    let top := (Nat.log2 m : Int) + e
    let q := max f.qmin (top - f.man)
    ((q - f.qmin).toNat) * 2 ^ f.man + roundQ rz m e q

/-- m × 2^e ≥ n × 2^k. -/
def geq (m : Nat) (e : Int) (n : Nat) (k : Int) : Bool :=
  if k ≤ e then decide (n ≤ m * 2 ^ (e - k).toNat) else decide (n * 2 ^ (k - e).toNat ≤ m)

/-- Whether a finite magnitude overflows the format: at or above the rounding boundary of R89 to nearest, above
the largest finite value toward zero. -/
def overflows (f : Fmt) (rz : Bool) (m : Nat) (e : Int) : Bool :=
  match decodeFmt f f.maxCode with
  | .fin _ mm me =>
    if rz then geq m e mm me && !(geq mm me m e)
    else geq m e (2 * mm + 1) (me - 1)
  | _ => false

/-- The code with its sign. -/
def withSign (f : Fmt) (neg : Bool) (c : Nat) : Nat := if neg then c + f.signBit else c

/-- Round to an integer and clamp to the range of an integer format (R90): the end of the range of the sign. -/
def toIntFmt (f : Fmt) (rz : Bool) : Val → Nat
  | .nan => 0
  | .inf neg => if neg then (if f.signed then f.signBit else 0) else f.maxCode
  | .fin neg m e =>
    let n := roundQ rz m e 0
    if neg then
      if f.signed then (if f.signBit ≤ n then f.signBit else (2 ^ f.width - n) % 2 ^ f.width) else 0
    else min n f.maxCode

/-- A conversion's code, with the watched event of R94 it makes. -/
structure Conv where
  code : Nat
  ev : Option Cause
  deriving DecidableEq, Repr

/-- The conversion of a value to a format under a rounding mode and an overflow flag (R88 to R90). -/
def convert (f : Fmt) (rz special : Bool) (v : Val) : Conv :=
  if f.isInt then ⟨toIntFmt f rz v, none⟩
  else match v with
  | .nan => ⟨f.nanCode, none⟩
  | .inf neg =>
    if f.hasInf then ⟨withSign f neg (f.maxCode + 1), none⟩
    else if f = .e4m3 && special then ⟨f.nanCode, some .invalid⟩
    else ⟨withSign f neg f.maxCode, none⟩
  | .fin neg m e =>
    if overflows f rz m e then
      if rz then ⟨withSign f neg f.maxCode, none⟩
      else if f = .fp32 then ⟨withSign f neg (f.maxCode + 1), some .overflow⟩
      else if special then
        if f.hasInf then ⟨withSign f neg (f.maxCode + 1), some .overflow⟩
        else if f = .e4m3 then ⟨f.nanCode, some .invalid⟩
        else ⟨withSign f neg f.maxCode, none⟩
      else ⟨withSign f neg f.maxCode, none⟩
    else ⟨withSign f neg (magCode f rz m e), none⟩

/-- Round a value once to binary32 (R82): beyond the range, an infinity to nearest and the largest finite value
toward zero. -/
def roundF32 (rz : Bool) (v : Val) : Val :=
  match v with
  | .fin neg m e =>
    if overflows .fp32 rz m e then
      if rz then decodeFmt .fp32 (withSign .fp32 neg 0x7F7FFFFF) else .inf neg
    else decodeFmt .fp32 (withSign .fp32 neg (magCode .fp32 rz m e))
  | w => w

/-- The binary32 code of a value that is rounded once (R93): a NaN is the canonical code (R73). -/
def toF32 (rz : Bool) (v : Val) : Nat := (convert .fp32 rz false v).code

namespace Val

/-- A NaN. -/
def isNan : Val → Bool
  | .nan => true
  | _ => false

/-- An infinity. -/
def isInf : Val → Bool
  | .inf _ => true
  | _ => false

/-- A zero of either sign. -/
def isZero : Val → Bool
  | .fin _ 0 _ => true
  | _ => false

/-- The sign. -/
def neg? : Val → Bool
  | .nan => false
  | .inf n => n
  | .fin n _ _ => n

/-- The value with its sign flipped. -/
def negate : Val → Val
  | .nan => .nan
  | .inf n => .inf (!n)
  | .fin n m e => .fin (!n) m e

/-- The magnitude. -/
def abs : Val → Val
  | .nan => .nan
  | .inf _ => .inf false
  | .fin _ m e => .fin false m e

/-- Exact product; 0 × ∞ is NaN (R83). -/
def mul : Val → Val → Val
  | .nan, _ => .nan
  | _, .nan => .nan
  | .inf a, .inf b => .inf (a != b)
  | .inf a, .fin b m _ => if m = 0 then .nan else .inf (a != b)
  | .fin a m _, .inf b => if m = 0 then .nan else .inf (a != b)
  | .fin a m e, .fin b n k => .fin (a != b) (m * n) (e + k)

/-- The signed integer m × 2^(e − q), for q ≤ e. -/
def scaled (neg : Bool) (m : Nat) (e q : Int) : Int :=
  let n : Int := ((m * 2 ^ (e - q).toNat : Nat) : Int)
  if neg then -n else n

/-- Exact sum; +∞ + −∞ is NaN; an exact zero of values that are not both −0 is +0 (IEEE 754, both modes). -/
def add : Val → Val → Val
  | .nan, _ => .nan
  | _, .nan => .nan
  | .inf a, .inf b => if a = b then .inf a else .nan
  | .inf a, .fin _ _ _ => .inf a
  | .fin _ _ _, .inf b => .inf b
  | .fin a m e, .fin b n k =>
    let q := min e k
    let s := scaled a m e q + scaled b n k q
    if s = 0 then .fin (a && b) 0 q
    else .fin (decide (s < 0)) s.natAbs q

/-- x < y, for values that are no NaN. -/
def lt : Val → Val → Bool
  | .nan, _ => false
  | _, .nan => false
  | .inf a, .inf b => a && !b
  | .inf a, .fin _ _ _ => a
  | .fin _ _ _, .inf b => !b
  | .fin a m e, .fin b n k =>
    let q := min e k
    decide (scaled a m e q < scaled b n k q)

/-- x = y as numbers. -/
def eqv : Val → Val → Bool
  | .nan, _ => false
  | _, .nan => false
  | .inf a, .inf b => a == b
  | .inf _, .fin _ _ _ => false
  | .fin _ _ _, .inf _ => false
  | .fin a m e, .fin b n k =>
    let q := min e k
    decide (scaled a m e q = scaled b n k q)

/-- +0. -/
def zero : Val := .fin false 0 0

/-- 1. -/
def one : Val := .fin false 1 0

/-- Times a power of two. -/
def scale2 : Val → Int → Val
  | .fin n m e, k => .fin n m (e + k)
  | v, _ => v

/-- The value of a binary32 code. -/
def ofF32 (c : Nat) : Val := decodeFmt .fp32 c

end Val

/-- A binary32 result with the watched event it makes. -/
structure Res where
  code : Nat
  ev : Option Cause
  deriving DecidableEq, Repr

/-- The event of an operation whose operands are `ops` and whose exact result is `v` (R94): a NaN operand; a NaN
made of values that are none; an infinity made of finite operands, by overflow or at a pole (R154). -/
def eventOf (ops : List Val) (v : Val) (rounded : Val) : Option Cause :=
  if ops.any Val.isNan then some .nanOperand
  else if v.isNan then some .invalid
  else if rounded.isInf && !(ops.any Val.isInf) then some .overflow
  else none

/-- One binary32 operation: the exact result rounded once, with its event. -/
def resOf (rz : Bool) (ops : List Val) (v : Val) : Res :=
  let r := roundF32 rz v
  ⟨toF32 rz v, eventOf ops v r⟩

/-! The group sums of the matrix array (R82 to R86). -/

/-- One term of a group: the two operand values. -/
structure Term where
  a : Val
  b : Val
  deriving DecidableEq, Repr

/-- The exact sum of finite products. -/
def exactSum : List Term → Val
  | [] => .zero
  | t :: r =>
    match t.a.mul t.b, exactSum r with
    | .fin n m e, .fin n' m' e' =>
      match Val.add (.fin n m e) (.fin n' m' e') with
      | .fin s k q => .fin s k q
      | v => v
    | _, v => v

/-- The group's value before its rounding, with the precedence of R83. An exact zero is +0 (R84). -/
def groupExact (ts : List Term) : Val :=
  if ts.any (fun t => t.a.isNan || t.b.isNan) then .nan
  else
    let ps := ts.map (fun t => t.a.mul t.b)
    if ps.any Val.isNan then .nan
    else if ps.any (fun p => p == .inf false) && ps.any (fun p => p == .inf true) then .nan
    else if ps.any (fun p => p == .inf false) then .inf false
    else if ps.any (fun p => p == .inf true) then .inf true
    else match exactSum ts with
      | .fin n m e => if m = 0 then .zero else .fin n m e
      | v => v

/-- The events of one group and of its addition to the accumulator, in order (R94): a group whose sum overflows may make
∞ − ∞ in its addition too (Table 3-8). -/
def groupEvents (ts : List Term) (gs acc sum : Val) : List Cause :=
  if ts.any (fun t => t.a.isNan || t.b.isNan) then [.nanOperand]
  else if gs.isNan then [.invalid]
  else
    (if gs.isInf && !(ts.any (fun t => t.a.isInf || t.b.isInf)) then [.overflow] else []) ++
    (if sum.isNan && !acc.isNan then [.invalid]
     else if sum.isInf && !acc.isInf && !gs.isInf then [.overflow] else [])

/-- The terms of `ts` in consecutive groups of 32 (R82). -/
def groupsOf : Nat → List (Option Term) → List (List (Option Term))
  | 0, _ => []
  | _, [] => []
  | k + 1, l => l.take 32 :: groupsOf k (l.drop 32)

/-- Accumulate the groups in rising order from group index `g` (R82): the accumulator's binary32 code and the
events, each with its group index. A `none` term is masked: it is not read. -/
def accumulate (rz : Bool) : Nat → Nat → List (List (Option Term)) → Nat × List (Nat × Cause)
  | acc, _, [] => (acc, [])
  | acc, g, grp :: r =>
    let ts := grp.filterMap id
    let gs := roundF32 rz (groupExact ts)
    let a := Val.ofF32 acc
    let s := Val.add a gs
    let sr := roundF32 rz s
    let acc' := toF32 rz s
    let rest := accumulate rz acc' (g + 1) r
    (rest.1, (groupEvents ts gs a sr).map (fun c => (g, c)) ++ rest.2)

/-! MX blocks (R76 to R79). -/

/-- The value of an element under a scale byte (R78). -/
def mxValue (f : Fmt) (scale code : Nat) : Val :=
  if scale = 255 then .nan else (decodeFmt f code).scale2 ((scale : Int) - 127)

/-- floor(log2 |v|) of a finite nonzero value. -/
def floorLog2 : Val → Int
  | .fin _ m e => (Nat.log2 m : Int) + e
  | _ => 0

/-- The largest exponent among the finite nonzero magnitudes: floor(log2(amax)), none when amax is zero. -/
def amaxLog2 : List Val → Option Int
  | [] => none
  | v :: r =>
    match v with
    | .fin _ m _ =>
      if m = 0 then amaxLog2 r
      else match amaxLog2 r with
        | none => some (floorLog2 v)
        | some k => some (max (floorLog2 v) k)
    | _ => amaxLog2 r

/-- An MX block as packed by R79: its scale byte, its element codes, and the events of the conversions. -/
structure MxBlock where
  scale : Nat
  codes : List Nat
  evs : List (Option Cause)
  deriving DecidableEq, Repr

/-- Pack 32 values (R79). -/
def mxPack (f : Fmt) (rz special : Bool) (vs : List Val) : MxBlock :=
  if vs.any Val.isNan then ⟨255, vs.map (fun _ => 0), vs.map (fun _ => none)⟩
  else
    let x : Int := match amaxLog2 vs with
      | none => -127
      | some k => max (-127) (min 127 (k - f.emax))
    let cs := vs.map (fun v => convert f rz special (v.scale2 (-x)))
    ⟨(x + 127).toNat, cs.map Conv.code, cs.map Conv.ev⟩

/-! Packed elements in memory (R75): one bit string, lowest element first. -/

/-- Element `i` of width `w` in a byte string read by `rd`. -/
def elemAt (rd : Nat → Byte) (base w i : Nat) : Nat :=
  let bo := i * w
  let a := base + bo / 8
  let v := (rd a).toNat + (if bo % 8 + w ≤ 8 then 0 else 256 * (rd (a + 1)).toNat +
    (if bo % 8 + w ≤ 16 then 0 else 65536 * (rd (a + 2)).toNat + 16777216 * (rd (a + 3)).toNat))
  v / 2 ^ (bo % 8) % 2 ^ w

/-- Bytes of `n` elements of width `w`. -/
def elemBytes (n w : Nat) : Nat := ceilDiv (n * w) 8

/-- The bit string of a list of element codes, lowest first. -/
def packCodes (w : Nat) : List Nat → Nat
  | [] => 0
  | c :: r => c % 2 ^ w + 2 ^ w * packCodes w r

end Sys2Proof.Machine
end

