-- ==== Sys2Proof/Machine/Assoc.lean ====
section
/-!
DEFINITION. Machine/Assoc.lean: sparse tables keyed by a natural number, the one form in which the model holds
registers, memories and every array of the machine: a list of pairs whose keys rise strictly and which lists no
entry equal to what an unlisted key reads as. -/

namespace Sys2Proof.Machine

namespace Assoc

variable {α : Type}

/-- The value under key `k`, `d` where the key is not listed. -/
def get (d : α) : List (Nat × α) → Nat → α
  | [], _ => d
  | (j, v) :: r, k => if j = k then v else get d r k

/-- The value under key `k`, if listed. -/
def find? : List (Nat × α) → Nat → Option α
  | [], _ => none
  | (j, v) :: r, k => if j = k then some v else find? r k

/-- Drop key `k`. -/
def del (l : List (Nat × α)) (k : Nat) : List (Nat × α) := l.filter (fun p => p.1 != k)

/-- List `v` under key `k`, in its place in the order of keys. -/
def put : List (Nat × α) → Nat → α → List (Nat × α)
  | [], k, v => [(k, v)]
  | (j, w) :: r, k, v =>
    if k < j then (k, v) :: (j, w) :: r
    else if k = j then (k, v) :: r
    else (j, w) :: put r k v

/-- Write `v` under key `k`, where unlisted keys read `d`: writing `d` removes the entry. -/
def set [DecidableEq α] (d : α) (l : List (Nat × α)) (k : Nat) (v : α) : List (Nat × α) :=
  if v = d then del l k else put l k v

/-- Strictly rising keys. -/
def rising : List (Nat × α) → Bool
  | [] => true
  | [_] => true
  | (j, _) :: (k, w) :: r => decide (j < k) && rising ((k, w) :: r)

/-- The canonical form: keys rise strictly and no entry equals the value of an unlisted key. -/
def wf [DecidableEq α] (d : α) (l : List (Nat × α)) : Bool :=
  rising l && l.all (fun p => p.2 != d)

end Assoc

/-- A memory: its written bytes by address (R6, R26), and the addresses of its poisoned bytes, rising (R29, R243).
An unlisted byte reads zero (notes/assumptions/5). A write of a byte ends its poison (notes/assumptions/6). -/
structure Memory where
  cells : List Host.Cell
  bad : List Nat
  deriving DecidableEq, Repr

/-- Put a number in its place in a rising list. -/
def insertNat (a : Nat) : List Nat → List Nat
  | [] => [a]
  | b :: r => if a < b then a :: b :: r else if a = b then b :: r else b :: insertNat a r

/-- Strictly rising numbers. -/
def risingNat : List Nat → Bool
  | [] => true
  | [_] => true
  | a :: b :: r => decide (a < b) && risingNat (b :: r)

namespace Memory

/-- Nothing written. -/
def empty : Memory := { cells := [], bad := [] }

/-- One byte of memory. -/
def read (m : Memory) (a : Nat) : Byte := Assoc.get 0#8 m.cells a

/-- Write one byte. -/
def write (m : Memory) (a : Nat) (b : Byte) : Memory :=
  { cells := Assoc.set 0#8 m.cells a b, bad := m.bad.filter (fun x => x != a) }

/-- `n` bytes from address `a`, lowest first. -/
def readBytes (m : Memory) (a : Nat) : Nat → List Byte
  | 0 => []
  | k + 1 => m.read a :: readBytes m (a + 1) k

/-- Write a byte string from address `a`. -/
def writeBytes (m : Memory) (a : Nat) : List Byte → Memory
  | [] => m
  | b :: r => writeBytes (m.write a b) (a + 1) r

/-- Zero `len` bytes from `a`: they are no longer listed. -/
def clear (m : Memory) (a len : Nat) : Memory :=
  { cells := m.cells.filter (fun p => !(decide (a ≤ p.1) && decide (p.1 < a + len)))
    bad := m.bad.filter (fun x => !(decide (a ≤ x) && decide (x < a + len))) }

/-- Little-endian value of `n` bytes at `a` (R6). -/
def readLE (m : Memory) (a n : Nat) : Nat := leNat (m.readBytes a n)

/-- Write `n` little-endian bytes of `v` at `a` (R6). -/
def writeLE (m : Memory) (a n v : Nat) : Memory := m.writeBytes a (leBytes n v)

/-- Poison `len` bytes from `a` (R243). -/
def poison (m : Memory) (a : Nat) : Nat → Memory
  | 0 => m
  | k + 1 => poison { m with bad := insertNat a m.bad } (a + 1) k

/-- One of `len` bytes from `a` is poisoned (R29). -/
def isBad (m : Memory) (a len : Nat) : Bool := m.bad.any (fun x => decide (a ≤ x) && decide (x < a + len))

/-- Copy `len` bytes of `h` from `src`, with their poison, to `dst`. -/
def copyFrom (m : Memory) (dst : Nat) (h : Memory) (src len : Nat) : Memory :=
  (h.bad.filter (fun x => decide (src ≤ x) && decide (x < src + len))).foldl (fun t x => t.poison (x - src + dst) 1)
    (m.writeBytes dst (h.readBytes src len))

/-- The canonical form of a memory. -/
def wf (m : Memory) : Bool := Assoc.wf 0#8 m.cells && risingNat m.bad

end Memory

end Sys2Proof.Machine
end

