-- ==== Sys2Proof/Config.lean ====
section
/-!
DEFINITION. Config.lean: what an implementation fixes and what the spec leaves open. Every constant here is
opaque: nothing can evaluate it, so a statement about the model holds whatever it is. -/

namespace Sys2Proof

/-- A decoded sample (R347, R348): bit depth, one luma plane only, chroma subsampling (0 4:4:4, 1 4:2:2, 2 4:2:0), the
matrix code and range of the bitstream, and the frames' planes Y, Cb and Cr, row by row. -/
structure Picture where
  depth : Nat
  mono : Bool
  sub : Nat
  matrix : Option Nat
  full : Bool
  frames : List (List Nat × List Nat × List Nat)
  deriving DecidableEq, Repr

end Sys2Proof

namespace Sys2Proof.Config

/-- CRU.STEPPING as fused (Table 15-7): base revision in bits [7:4], metal revision in [3:0]. -/
opaque stepping : Nat

/-- Byte words of SERIAL as fused (Table 15-7), word `i` of 0 to 3. -/
opaque serialWord : Nat → Nat

/-- IDCODE as R525 composes it from the metal revision. -/
def idcode : Nat := stepping % 16 * 2 ^ 28 + 0x2080 * 2 ^ 12 + 0x3A5 * 2 + 1

/-- SHA-384 (Table 15-1) of a byte string, as a number of 384 bits in little-endian byte order. -/
opaque sha384 : List Byte → Nat

/-- The 16 bytes of SERIAL, bytes 0 to 3 first (Table 15-7). -/
def serialBytes : List Byte := (List.range 4).flatMap (fun i => leBytes 4 (serialWord i))

/-- SERIAL as a number of 16 bytes. -/
def serial : Nat := leNat serialBytes

/-- SERIAL_DIGEST: the first 8 bytes of SHA-384 of SERIAL (R392). -/
def serialDigest : Nat := sha384 serialBytes % 2 ^ 64

/-- The service MAC: 0x02, then bytes 0 to 4 of SERIAL_DIGEST (R425); byte 0 is the lowest. -/
def mac : Nat := 2 + serialDigest % 2 ^ 40 * 2 ^ 8

/-- HKDF-SHA-384 with an empty salt (Table 15-1): the input key material, the info and the length of its output in bytes. -/
opaque hkdf : Nat → List Byte → Nat → List Byte

/-- The bytes of an ASCII string. -/
def ascii (t : String) : List Byte := t.toList.map (fun c => BitVec.ofNat 8 c.toNat)

/-- The job key of a seed, a JOB_ID and a BILLET_DIGEST (R415). -/
def jobKey (seed job digest : Nat) : Nat := leNat (hkdf seed (ascii "TRZ-2080 job" ++ leBytes 16 job ++ leBytes 48 digest) 32)

/-- JOB_CHECK of a job key (R415). -/
def jobCheck (key : Nat) : Nat := leNat (hkdf key (ascii "TRZ-2080 check") 16)

/-- The secret of an encapsulation to a feeder's ML-KEM-768 key (R344): the feeder table's entry and the randomness. -/
opaque kemSecret : Nat → Nat → Nat

/-- The secret that a device's encapsulation key, known by its number, opens from a ciphertext (R428). -/
opaque kemOpen : Nat → List Byte → Nat

/-- The tag of AES-256-GCM (Table 15-1): key, nonce, additional authenticated data and plaintext. -/
opaque gcmTag : List Byte → List Byte → List Byte → List Byte → Nat

/-- A seed sealed under a wrap key (R415, R417): the seed and the randomness of the encapsulation. -/
opaque sealSeed : Nat → Nat → Nat

/-- Byte `i` of the signed identity certificate in the boot store, 8,752 bytes (R404). -/
opaque certByte : Nat → Byte

/-- CERT_DIGEST: SHA-384 of the certificate's 512-byte body (Table 15-2). -/
def certDigest : Nat := sha384 ((List.range 512).map certByte)

/-- SHA-384 of the boot ROM, the first measurement (R403). -/
opaque romDigest : Nat

/-- The decoders of Table 13-4 (1 AV1, 2 HEVC, 3 JPEG) on a coded sample; none for a bitstream error or a profile
outside the table. The standards fix AV1 and HEVC output, Bloom's own IDCT that of JPEG (R348). -/
opaque decode : Nat → List Byte → Option Picture

/-- A fresh value of the device's random source or of any result the spec leaves open: the `n`-th drawn. -/
opaque freeValue : Nat → Nat

end Sys2Proof.Config
end

