-- ==== Sys2Proof/Machine/Regs.lean ====
section
/-!
DEFINITION. Machine/Regs.lean: every field of the control register space, one definition per row of the
spec's register tables (the tables named beside each block), and the fields that stand at one word address.
A field is its word address, its lowest bit, its width, its access code (Table 0-2), its value after power-on
reset (the Reset column, R15) and the lowest levels that may read and write it (Table 20-2). -/

namespace Sys2Proof.Machine

/-- The access codes of Table 0-2 (R12). -/
inductive Acc where
  | ro | rw | w1c | w1s | rc | wo
  deriving DecidableEq, Repr

/-- The three ordered access levels of R515, with their numbers in ID.ACCESSOR.LEVEL. -/
inductive Level where
  | owner | debug | firmware
  deriving DecidableEq, Repr

/-- The rank of a level: each level holds every right of the levels below it (R515). -/
def Level.rank : Level → Nat
  | .owner => 1
  | .debug => 2
  | .firmware => 3

/-- One field of a register. -/
structure Fld where
  addr : Nat
  lo : Nat
  w : Nat
  acc : Acc
  rst : Nat
  rd : Level
  wr : Level
  deriving DecidableEq, Repr

/-- The key under which a field's value is held: its word address and its lowest bit. -/
def Fld.key (f : Fld) : Nat := f.addr * 32 + f.lo

/-- Field at `base + off`. -/
def fld (addr lo w : Nat) (acc : Acc) (rst : Nat) (rd : Level := .owner) (wr : Level := .owner) : Fld :=
  { addr := addr, lo := lo, w := w, acc := acc, rst := rst, rd := rd, wr := wr }

namespace Reg

/-! Table 20-4 (R524, chapter 20). -/

/-- IDCODE: JTAG IDCODE, by R525. -/
def idIdcode : Fld := fld 0x000 0 32 .ro Config.idcode
/-- PART.NUMBER: Part number. -/
def idPartNumber : Fld := fld 0x004 0 16 .ro 0x2080
/-- PART.MAP: Version of this register map. -/
def idPartMap : Fld := fld 0x004 16 8 .ro 0x01
/-- STEPPING.METAL: Metal-layer revision; equals CRU.STEPPING[3:0]. -/
def idSteppingMetal : Fld := fld 0x008 0 4 .ro (Config.stepping % 16)
/-- STEPPING.BASE: Base-layer revision: 0 for A, 1 for B and onward; equals CRU.STEPPING[7:4]. -/
def idSteppingBase : Fld := fld 0x008 4 4 .ro (Config.stepping / 16 % 16)
/-- SERIAL_DIGEST_LO: SERIAL_DIGEST bytes 0–3. -/
def idSerialDigestLo : Fld := fld 0x00C 0 32 .ro (Config.serialDigest % 4294967296)
/-- SERIAL_DIGEST_HI: SERIAL_DIGEST bytes 4–7. -/
def idSerialDigestHi : Fld := fld 0x010 0 32 .ro (Config.serialDigest / 4294967296)
/-- CONFIG.CORES: Cores, 192. -/
def idConfigCores : Fld := fld 0x014 0 8 .ro 0xC0
/-- CONFIG.PORTS: Fabric ports, 12. -/
def idConfigPorts : Fld := fld 0x014 8 4 .ro 0xC
/-- CONFIG.STACKS: HBM4 stacks, 8. -/
def idConfigStacks : Fld := fld 0x014 12 4 .ro 0x8
/-- CONFIG.BAYS: Cartridge bays, 2. -/
def idConfigBays : Fld := fld 0x014 16 2 .ro 0b10
/-- STATE: Lifecycle state, coded as CRU.STATUS.STATE. -/
def idState : Fld := fld 0x018 0 3 .ro 0b000
/-- ACCESSOR.LEVEL: Level of the reading access: 0b01 owner, 0b10 debug, 0b11 firmware. -/
def idAccessorLevel : Fld := fld 0x01C 0 2 .ro 0b00
/-- ACCESSOR.PATH: Path of the reading access: 0x0 firmware, 0x1 JTAG, 0x8 + s session s. -/
def idAccessorPath : Fld := fld 0x01C 4 4 .ro 0x0
/-- SCRATCH[i]: Free words for operator software, i = 0 to 3. -/
def idScratch (i : Nat) : Fld := fld (0x020 + 4 * i) 0 32 .rw 0x00000000
/-- REFUSED: Accesses refused by R517, all paths. -/
def idRefused : Fld := fld 0x030 0 32 .rc 0x00000000 .firmware .owner
/-- MEMWIN.CTRL.SPACE: 0b000 Hearth of die 0, 0b001 Hearth of die 1, 0b010 HBM4, 0b011 Stock; other values are out of range. -/
def idMemwinCtrlSpace : Fld := fld 0x040 0 3 .rw 0b000 .debug .debug
/-- MEMWIN.CTRL.POISON: 1: the snapshot's granule read as poisoned. -/
def idMemwinCtrlPoison : Fld := fld 0x040 8 1 .ro 0 .debug .debug
/-- MEMWIN.CTRL.RANGE_ERR: 1: the snapshot's address lay outside its space. -/
def idMemwinCtrlRangeErr : Fld := fld 0x040 9 1 .ro 0 .debug .debug
/-- MEMWIN_ADDR_LO: Byte address [31:0]. -/
def idMemwinAddrLo : Fld := fld 0x044 0 32 .rw 0x00000000 .debug .debug
/-- MEMWIN_ADDR_HI: Byte address [39:32]. -/
def idMemwinAddrHi : Fld := fld 0x048 0 8 .rw 0x00 .debug .debug
/-- MEMWIN.DATA[i]: Word i of the snapshot, i = 0 to 15. -/
def idMemwinData (i : Nat) : Fld := fld (0x080 + 4 * i) 0 32 .ro 0x00000000 .debug .debug
/-! Table 18-8 (R495, chapter 18). -/

/-- CAUSE.POWER: Power-on by the input rising. -/
def rstCausePower : Fld := fld (0x10000 + 0x000) 0 1 .w1c 0
/-- CAUSE.PWR_OK: Power-on by PWR_OK. -/
def rstCausePwrOk : Fld := fld (0x10000 + 0x000) 1 1 .w1c 0
/-- CAUSE.SYS_PIN: SYS_RESET_N taken. -/
def rstCauseSysPin : Fld := fld (0x10000 + 0x000) 2 1 .w1c 0
/-- CAUSE.CORE_PIN: CORE_RESET_N taken. -/
def rstCauseCorePin : Fld := fld (0x10000 + 0x000) 3 1 .w1c 0
/-- CAUSE.MBX: `RESET` command. -/
def rstCauseMbx : Fld := fld (0x10000 + 0x000) 4 1 .w1c 0
/-- CAUSE.REMOTE: REMOTE_RESET accepted. -/
def rstCauseRemote : Fld := fld (0x10000 + 0x000) 5 1 .w1c 0
/-- CAUSE.WDT: Watchdog expiry. -/
def rstCauseWdt : Fld := fld (0x10000 + 0x000) 6 1 .w1c 0
/-- CAUSE.THERM: Thermal trip. -/
def rstCauseTherm : Fld := fld (0x10000 + 0x000) 7 1 .w1c 0
/-- CAUSE.CLKLOSS: Clock loss, by R480. -/
def rstCauseClkloss : Fld := fld (0x10000 + 0x000) 8 1 .w1c 0
/-- CAUSE.QUENCH_EXIT: Power-on ended Quench, by R487. -/
def rstCauseQuenchExit : Fld := fld (0x10000 + 0x000) 9 1 .w1c 0
/-- CAUSE.LAST_REACH: Widest reach since last written: 0b00 none, 0b01 core, 0b10 system, 0b11 power-on. -/
def rstCauseLastReach : Fld := fld (0x10000 + 0x000) 16 2 .rw 0b11
/-- ASSERTED: Sources asserted now, in the bit layout of CAUSE. -/
def rstAsserted : Fld := fld (0x10000 + 0x004) 0 10 .ro 0x000
/-- HELD: Domains held in reset now, bit d for domain d. -/
def rstHeld : Fld := fld (0x10000 + 0x008) 0 28 .ro 0x0000000
/-- CTRL.REMOTE_EN: 1: REMOTE_RESET accepted by R488. -/
def rstCtrlRemoteEn : Fld := fld (0x10000 + 0x00C) 0 1 .ro 0
/-- CTRL.WDT_EN: 1: watchdog runs. -/
def rstCtrlWdtEn : Fld := fld (0x10000 + 0x00C) 1 1 .rw 1 .owner .firmware
/-- CTRL.WDT_REACH: 0 core, 1 system. -/
def rstCtrlWdtReach : Fld := fld (0x10000 + 0x00C) 2 1 .rw 1 .owner .firmware
/-- WDT_PERIOD_MS: Watchdog period in ms, 100 to 60,000; other values are taken as 2,000. -/
def rstWdtPeriodMs : Fld := fld (0x10000 + 0x010) 0 16 .rw 0x07D0 .owner .firmware
/-- WDT_KICK: 1: restart the watchdog count. -/
def rstWdtKick : Fld := fld (0x10000 + 0x014) 0 1 .wo 0 .owner .firmware
/-- CORE_COUNT: Core resets since the last system reset. -/
def rstCoreCount : Fld := fld (0x10000 + 0x018) 0 32 .rc 0x00000000
/-- REMOTE_LAST.SRC: Sender of the last REMOTE_RESET accepted. -/
def rstRemoteLastSrc : Fld := fld (0x10000 + 0x01C) 0 14 .ro 0x0000
/-- REMOTE_LAST.REACH: Its REACH. -/
def rstRemoteLastReach : Fld := fld (0x10000 + 0x01C) 16 2 .ro 0b00
/-- REMOTE_REFUSED: REMOTE_RESET packets discarded by R488. -/
def rstRemoteRefused : Fld := fld (0x10000 + 0x020) 0 32 .rc 0x00000000
/-- STRAP.LEGACY_EN: LEGACY_EN as sampled by R486. -/
def rstStrapLegacyEn : Fld := fld (0x10000 + 0x024) 0 1 .ro 0
/-! Table 18-9 (R495, chapter 18). -/

/-- GOOD: Clock-good of domain d in bit d. -/
def clkGood : Fld := fld (0x10800 + 0x000) 0 28 .ro 0x0000000
/-- LOSS: Bit d set by a clock loss in domain d. -/
def clkLoss : Fld := fld (0x10800 + 0x004) 0 28 .w1c 0x0000000
/-- LOSS_COUNT: Clock losses, all domains. -/
def clkLossCount : Fld := fld (0x10800 + 0x008) 0 32 .rc 0x00000000
/-- REFCLK.PRESENT: 1: REFCLK detected at the mezzanine input. -/
def clkRefclkPresent : Fld := fld (0x10800 + 0x00C) 0 1 .ro 0
/-- DOM[d].LOCK: 1: the PLL of domain d is locked, d = 0 to 27. -/
def clkDomLock (d : Nat) : Fld := fld (0x10800 + 0x010 + 4 * d) 0 1 .ro 0
/-- DOM[d].GOOD: 1: clock-good by R479. -/
def clkDomGood (d : Nat) : Fld := fld (0x10800 + 0x010 + 4 * d) 1 1 .ro 0
/-- DOM[d].HELD: 1: the domain is held in reset. -/
def clkDomHeld (d : Nat) : Fld := fld (0x10800 + 0x010 + 4 * d) 2 1 .ro 0
/-- DOM[d].LOSSES: Clock losses of the domain, saturating at 0xFFFF. -/
def clkDomLosses (d : Nat) : Fld := fld (0x10800 + 0x010 + 4 * d) 16 16 .ro 0x0000
/-! Table 17-7 (R477, chapter 17). -/

/-- CTRL.U_FATAL: 1: unmasked class U escalates by R463; written only outside Running. -/
def fltCtrlUFatal : Fld := fld (0x20000 + 0x000) 0 1 .rw 0
/-- CTRL.PIN_DRIVE: 1: drive FAULT_OUT_N low after a pulse (R462). -/
def fltCtrlPinDrive : Fld := fld (0x20000 + 0x000) 1 1 .rw 0
/-- CTRL.LEGACY_ABORT: 1: legacy messages hold the next gate with ABORT (R473). -/
def fltCtrlLegacyAbort : Fld := fld (0x20000 + 0x000) 2 1 .rw 0
/-- STATUS.VALID: 1: FIRST holds a record; write 1 to clear and re-arm. -/
def fltStatusValid : Fld := fld (0x20000 + 0x004) 0 1 .w1c 0
/-- STATUS.OVF: 1: a message arrived while VALID was 1, or was dropped. -/
def fltStatusOvf : Fld := fld (0x20000 + 0x004) 1 1 .w1c 0
/-- STATUS.F_VALID: 1: FIRST_F holds a record. -/
def fltStatusFValid : Fld := fld (0x20000 + 0x004) 2 1 .ro 0
/-- STATUS.QUENCH: 1: the device is in Quench. -/
def fltStatusQuench : Fld := fld (0x20000 + 0x004) 3 1 .ro 0
/-- STATUS.PULSE: 1: a FAULT_OUT_N pulse is running. -/
def fltStatusPulse : Fld := fld (0x20000 + 0x004) 4 1 .ro 0
/-- STATUS.SELF: 1: collector parity error, R468. -/
def fltStatusSelf : Fld := fld (0x20000 + 0x004) 5 1 .ro 0
/-- FIRST_LO: FIRST word 0 [31:0]. -/
def fltFirstLo : Fld := fld (0x20000 + 0x008) 0 32 .ro 0x00000000
/-- FIRST_HI: FIRST word 0 [63:32]. -/
def fltFirstHi : Fld := fld (0x20000 + 0x00C) 0 32 .ro 0x00000000
/-- FIRST_ANGLE_LO: FIRST word 1 [31:0]. -/
def fltFirstAngleLo : Fld := fld (0x20000 + 0x010) 0 32 .ro 0x00000000
/-- FIRST_ANGLE_HI: FIRST word 1 [63:32]: angle [47:32], ATTEMPT. -/
def fltFirstAngleHi : Fld := fld (0x20000 + 0x014) 0 32 .ro 0x00000000
/-- FIRST_F_LO: FIRST_F word 0 [31:0]. -/
def fltFirstFLo : Fld := fld (0x20000 + 0x018) 0 32 .ro 0x00000000
/-- FIRST_F_HI: FIRST_F word 0 [63:32]. -/
def fltFirstFHi : Fld := fld (0x20000 + 0x01C) 0 32 .ro 0x00000000
/-- FIRST_F_ANGLE_LO: FIRST_F word 1 [31:0]. -/
def fltFirstFAngleLo : Fld := fld (0x20000 + 0x020) 0 32 .ro 0x00000000
/-- FIRST_F_ANGLE_HI: FIRST_F word 1 [63:32]. -/
def fltFirstFAngleHi : Fld := fld (0x20000 + 0x024) 0 32 .ro 0x00000000
/-- TOTAL_C: Class C messages accepted. -/
def fltTotalC : Fld := fld (0x20000 + 0x028) 0 32 .rc 0x00000000
/-- TOTAL_U: Class U messages accepted. -/
def fltTotalU : Fld := fld (0x20000 + 0x02C) 0 32 .rc 0x00000000
/-- TOTAL_F: Class F messages accepted. -/
def fltTotalF : Fld := fld (0x20000 + 0x030) 0 32 .rc 0x00000000
/-- DROPPED: Messages dropped by R457. -/
def fltDropped : Fld := fld (0x20000 + 0x034) 0 32 .rc 0x00000000
/-- LEGACY.EN: LEGACY_EN as sampled at power-on. -/
def fltLegacyEn : Fld := fld (0x20000 + 0x038) 0 1 .ro 0
/-- LEGACY.SWAPPED: Pairs reversed by R472, bit k for pair k. -/
def fltLegacySwapped : Fld := fld (0x20000 + 0x038) 4 4 .ro 0x0
/-- LEGACY.STATE: Pairs in fault. -/
def fltLegacyState : Fld := fld (0x20000 + 0x038) 8 4 .ro 0x0
/-- LEGACY.WIRE: Pairs with a wire fault. -/
def fltLegacyWire : Fld := fld (0x20000 + 0x038) 12 4 .ro 0x0
/-- LEGACY.FORCED: Pairs forced by R474. -/
def fltLegacyForced : Fld := fld (0x20000 + 0x038) 16 4 .ro 0x0
/-- LEGACY.OUT: 1: LFLT_OUT signals fault. -/
def fltLegacyOut : Fld := fld (0x20000 + 0x038) 20 1 .ro 0
/-- PEER_QUENCH: Quench notices received. -/
def fltPeerQuench : Fld := fld (0x20000 + 0x03C) 0 32 .rc 0x00000000
/-- PEER_LAST: Address of the last quenched peer. -/
def fltPeerLast : Fld := fld (0x20000 + 0x040) 0 14 .ro 0x0000
/-- COUNT[x]: Messages accepted from source x, x = 0 to 4,095. -/
def fltCount (x : Nat) : Fld := fld (0x20000 + 0x4000 + 4 * x) 0 32 .rc 0x00000000
/-- SRC_CFG[x].FORCE: 1: raise one forced message (R461). For x = 0xF00 to 0xF03 a level, read and written as RW (R474). -/
def fltSrcCfgForce (x : Nat) : Fld := fld (0x20000 + 0x8000 + 4 * x) 0 1 .w1s 0
/-- SRC_CFG[x].MASK: 1: class C and U messages of source x do not latch or escalate (R460). -/
def fltSrcCfgMask (x : Nat) : Fld := fld (0x20000 + 0x8000 + 4 * x) 1 1 .rw 0
/-- SRC_CFG[x].FORCE_KIND: Kind of the forced message. -/
def fltSrcCfgForceKind (x : Nat) : Fld := fld (0x20000 + 0x8000 + 4 * x) 8 8 .rw 0x00
/-! Table 2-8 (R70, chapter 02). -/

/-- CTRL.CANDIDATE: 1: the device stands for master. -/
def cadCtrlCandidate : Fld := fld (0x30000 + 0x000) 0 1 .rw 0
/-- CTRL.EXTERNAL: 1: the master follows CAD_IN. -/
def cadCtrlExternal : Fld := fld (0x30000 + 0x000) 1 1 .rw 0
/-- CTRL.FALLBACK: 1: on loss of CAD_IN, the master turns by its own period. -/
def cadCtrlFallback : Fld := fld (0x30000 + 0x000) 2 1 .rw 0
/-- CTRL.OUT_EN: 1: drive CAD_OUT. -/
def cadCtrlOutEn : Fld := fld (0x30000 + 0x000) 3 1 .rw 0
/-- STATUS.ROLE: 0b00 idle, 0b01 follower, 0b10 master, 0b11 electing. -/
def cadStatusRole : Fld := fld (0x30000 + 0x004) 0 2 .ro 0b00
/-- STATUS.HELD: 1: at least one hold stands at the current angle (on the master: any device's hold; elsewhere: the device's own hold). -/
def cadStatusHeld : Fld := fld (0x30000 + 0x004) 2 1 .ro 0
/-- STATUS.IN_LOCK: 1: CAD_IN valid by R52. -/
def cadStatusInLock : Fld := fld (0x30000 + 0x004) 3 1 .ro 0
/-- STATUS.COMMITTED: 1: the COMMIT stroke of the current step has been passed. -/
def cadStatusCommitted : Fld := fld (0x30000 + 0x004) 4 1 .ro 0
/-- ANGLE_LO: Angle [31:0]: stroke in [15:0], step [15:0] in [31:16]. -/
def cadAngleLo : Fld := fld (0x30000 + 0x008) 0 32 .ro 0x00000000
/-- ANGLE_HI: Angle [47:32]: step [31:16]. -/
def cadAngleHi : Fld := fld (0x30000 + 0x00C) 0 16 .ro 0x0000
/-- MASTER: Address of the current master. -/
def cadMaster : Fld := fld (0x30000 + 0x010) 0 14 .ro 0x0000
/-- PERIOD_NS: Stroke period in ns, from 8,000 to 4,000,000; reset value 150,000. -/
def cadPeriodNs : Fld := fld (0x30000 + 0x014) 0 32 .rw 0x000249F0
/-- GATE_LEAD: Strokes ahead of a gate at which it is evaluated, from 1 to 255. -/
def cadGateLead : Fld := fld (0x30000 + 0x018) 0 8 .rw 0x04
/-- HOLD_LIMIT_MS: Longest hold in ms before a gate stall; reset value 10,000. -/
def cadHoldLimitMs : Fld := fld (0x30000 + 0x01C) 0 32 .rw 0x00002710
/-- HOLDS_OUT: Holds standing: all devices' on the master, the device's own elsewhere. -/
def cadHoldsOut : Fld := fld (0x30000 + 0x020) 0 16 .ro 0x0000
/-- HOLD_RAISED: Holds sent, or received on the master. -/
def cadHoldRaised : Fld := fld (0x30000 + 0x024) 0 32 .ro 0x00000000
/-- HOLD_RELEASED: Releases sent, or accepted on the master. -/
def cadHoldReleased : Fld := fld (0x30000 + 0x028) 0 32 .ro 0x00000000
/-- HOLD_CANCELLED: Holds cancelled by aborts. -/
def cadHoldCancelled : Fld := fld (0x30000 + 0x02C) 0 32 .ro 0x00000000
/-- ABORT_LIMIT: Consecutive aborts of one step before R66 applies, from 1 to 255. -/
def cadAbortLimit : Fld := fld (0x30000 + 0x030) 0 8 .rw 0x03
/-- ABORT_COUNT: Rollbacks by R64 that this device has taken part in, since last read; stops of R533 are not counted. -/
def cadAbortCount : Fld := fld (0x30000 + 0x034) 0 32 .rc 0x00000000
/-- ATTEMPT: ATTEMPT of the current step. -/
def cadAttempt : Fld := fld (0x30000 + 0x038) 0 16 .ro 0x0000
/-- SLIP: CAD_IN edges dropped by R52. -/
def cadSlip : Fld := fld (0x30000 + 0x03C) 0 32 .rc 0x00000000
/-- IN_ERR: Invalid CAD_IN edges. -/
def cadInErr : Fld := fld (0x30000 + 0x040) 0 32 .rc 0x00000000
/-- LATE_HOLD: Holds received after their angle. -/
def cadLateHold : Fld := fld (0x30000 + 0x044) 0 32 .rc 0x00000000
/-- CATCHUP: Beats missed and made up by R50. -/
def cadCatchup : Fld := fld (0x30000 + 0x048) 0 32 .rc 0x00000000
/-- MSG_ERR: Cadence messages discarded by R47. -/
def cadMsgErr : Fld := fld (0x30000 + 0x04C) 0 32 .rc 0x00000000
/-- STRIKE_COUNT: Valid Strike entries, from 0 to 4,096. -/
def cadStrikeCount : Fld := fld (0x30000 + 0x050) 0 13 .ro 0x0000
/-- STRIKE_FIRED: Entries fired since last read. -/
def cadStrikeFired : Fld := fld (0x30000 + 0x054) 0 32 .rc 0x00000000
/-- LAST_GATE.STROKE: Stroke of the last gate passed. -/
def cadLastGateStroke : Fld := fld (0x30000 + 0x058) 0 16 .ro 0x0000
/-- LAST_GATE.HOLDER: Address of the device whose release last let a gate pass. -/
def cadLastGateHolder : Fld := fld (0x30000 + 0x058) 16 14 .ro 0x0000
/-! Table 16-10 (R452, chapter 16). -/

/-- STATUS.SESSIONS: One bit per open session. -/
def mbxStatusSessions : Fld := fld (0x40000 + 0x000) 0 8 .ro 0x00
/-- STATUS.EXEC: 1: a journalled command runs. -/
def mbxStatusExec : Fld := fld (0x40000 + 0x000) 8 1 .ro 0
/-- STATUS.UPLOAD: 1: an argument is incomplete. -/
def mbxStatusUpload : Fld := fld (0x40000 + 0x000) 9 1 .ro 0
/-- SLOTS.FREE: Free slots. -/
def mbxSlotsFree : Fld := fld (0x40000 + 0x004) 0 7 .ro 0x40
/-- SLOTS.PENDING: Pending slots. -/
def mbxSlotsPending : Fld := fld (0x40000 + 0x004) 8 7 .ro 0x00
/-- SLOTS.READY: Ready slots. -/
def mbxSlotsReady : Fld := fld (0x40000 + 0x004) 16 7 .ro 0x00
/-- PORT: UDP port, 49,741. -/
def mbxPort : Fld := fld (0x40000 + 0x008) 0 16 .ro 0xC24D
/-- IDLE_S: Idle timeout in s, 10 to 3,600; other values are taken as 60. -/
def mbxIdleS : Fld := fld (0x40000 + 0x00C) 0 16 .rw 0x003C
/-- GRANT_MIN: Lowest GRANT_SERIAL accepted. -/
def mbxGrantMin : Fld := fld (0x40000 + 0x010) 0 32 .rw 0x00000000
/-- MAC_LO: MAC bytes 0–3. -/
def mbxMacLo : Fld := fld (0x40000 + 0x014) 0 32 .ro (Config.mac % 4294967296)
/-- MAC_HI: MAC bytes 4–5. -/
def mbxMacHi : Fld := fld (0x40000 + 0x018) 0 16 .ro (Config.mac / 4294967296)
/-- CMDS: Commands accepted. -/
def mbxCmds : Fld := fld (0x40000 + 0x01C) 0 32 .rc 0x00000000
/-- REFUSED: Commands refused in a REPLY. -/
def mbxRefused : Fld := fld (0x40000 + 0x020) 0 32 .rc 0x00000000
/-- AUTH_FAIL: AUTH frames refused. -/
def mbxAuthFail : Fld := fld (0x40000 + 0x024) 0 32 .rc 0x00000000
/-- SEAL_FAIL: Frames discarded by R427. -/
def mbxSealFail : Fld := fld (0x40000 + 0x028) 0 32 .rc 0x00000000
/-- DUPLICATE: Duplicates by R433. -/
def mbxDuplicate : Fld := fld (0x40000 + 0x02C) 0 32 .rc 0x00000000
/-- TIMEOUTS: Sessions closed for idleness. -/
def mbxTimeouts : Fld := fld (0x40000 + 0x030) 0 32 .rc 0x00000000
/-- SESSION_REFUSED: HELLO frames ignored by R431. -/
def mbxSessionRefused : Fld := fld (0x40000 + 0x034) 0 32 .rc 0x00000000
/-- ABORTED: Commands completed ABORTED. -/
def mbxAborted : Fld := fld (0x40000 + 0x038) 0 32 .rc 0x00000000
/-! Table 16-11 (R453, chapter 16). -/

/-- HEAD_LO: Next SEQ [31:0]. -/
def jnlHeadLo : Fld := fld (0x50000 + 0x000) 0 32 .ro 0x00000000
/-- HEAD_HI: Next SEQ [63:32]. -/
def jnlHeadHi : Fld := fld (0x50000 + 0x004) 0 32 .ro 0x00000000
/-- OLDEST_LO: Oldest SEQ held [31:0]. -/
def jnlOldestLo : Fld := fld (0x50000 + 0x008) 0 32 .ro 0x00000000
/-- OLDEST_HI: Oldest SEQ held [63:32]. -/
def jnlOldestHi : Fld := fld (0x50000 + 0x00C) 0 32 .ro 0x00000000
/-- COUNT: Entries held, 0 to 65,536. -/
def jnlCount : Fld := fld (0x50000 + 0x010) 0 17 .ro 0x00000
/-- SEL_LO: SEQ shown in WIN [31:0]. -/
def jnlSelLo : Fld := fld (0x50000 + 0x014) 0 32 .rw 0x00000000
/-- SEL_HI: SEQ shown in WIN [63:32]. -/
def jnlSelHi : Fld := fld (0x50000 + 0x018) 0 32 .rw 0x00000000
/-- WIN_VALID: 1: OLDEST ≤ SEL < HEAD. -/
def jnlWinValid : Fld := fld (0x50000 + 0x01C) 0 1 .ro 0
/-- RESUME_ID[i]: RESUME_ID of the last RESTORE entry, bytes 4i to 4i + 3, i = 0 to 3. -/
def jnlResumeId (i : Nat) : Fld := fld (0x50000 + 0x020 + 4 * i) 0 32 .ro 0x00000000
/-- SNAPSHOTS: Snapshots taken by R363. -/
def jnlSnapshots : Fld := fld (0x50000 + 0x030) 0 32 .rc 0x00000000
/-- WIN[i]: Word i of the selected entry, i = 0 to 15. -/
def jnlWin (i : Nat) : Fld := fld (0x50000 + 0x100 + 4 * i) 0 32 .ro 0x00000000
/-! Table 15-7 (R424, chapter 15). -/

/-- STATUS.STATE: 0 Blank, 1 Claimed, 2 Armed, 3 Running, 4 Recovery, 5 Quench. -/
def cruStatusState : Fld := fld (0x60000 + 0x000) 0 3 .ro 0b000
/-- STATUS.EXCEPTION: 1: an exception set runs. -/
def cruStatusException : Fld := fld (0x60000 + 0x000) 3 1 .ro 0
/-- STATUS.DEBUG: 1: debug unlocked by R419. -/
def cruStatusDebug : Fld := fld (0x60000 + 0x000) 4 1 .ro 0
/-- STATUS.SCRUB_OK: By R422. -/
def cruStatusScrubOk : Fld := fld (0x60000 + 0x000) 5 1 .ro 0
/-- STATUS.SEED_HELD: 1: job seed held. -/
def cruStatusSeedHeld : Fld := fld (0x60000 + 0x000) 6 1 .ro 0
/-- BOOT.MASK: Mask m taken by R399. -/
def cruBootMask : Fld := fld (0x60000 + 0x004) 0 4 .ro 0x0
/-- BOOT.ACTIVE: 0: slot A, 1: slot B. -/
def cruBootActive : Fld := fld (0x60000 + 0x004) 4 1 .ro 0
/-- SERIAL[0..3]: SERIAL, bytes 0–3 first. -/
def cruSerial (i : Nat) : Fld := fld (0x60000 + 0x008 + 4 * i) 0 32 .ro (Config.serialWord i)
/-- STEPPING: Stepping code. -/
def cruStepping : Fld := fld (0x60000 + 0x018) 0 32 .ro Config.stepping
/-- FUSE.RSA_REVOKED: Revoked RSA slots. -/
def cruFuseRsaRevoked : Fld := fld (0x60000 + 0x01C) 0 4 .ro 0
/-- FUSE.SLH_REVOKED: Revoked SLH-DSA slots. -/
def cruFuseSlhRevoked : Fld := fld (0x60000 + 0x01C) 4 4 .ro 0
/-- VERSION[k]: VERSION of the running image of kind k, k = 1 to 4. -/
def cruVersion (k : Nat) : Fld := fld (0x60000 + 0x020 + 4 * (k - 1)) 0 32 .ro 0x00000000
/-- SVN_MIN: Minimum SVN of kind k in bits [8k − 1:8k − 8]. -/
def cruSvnMin : Fld := fld (0x60000 + 0x030) 0 32 .ro 0
/-- MEAS_COUNT: Extensions since reset. -/
def cruMeasCount : Fld := fld (0x60000 + 0x034) 0 32 .ro 0x00000000
/-- LOG_LOST: Entries dropped by R403. -/
def cruLogLost : Fld := fld (0x60000 + 0x038) 0 32 .rc 0x00000000
/-- MEAS[i]: Measurement register, bytes 4i to 4i + 3, i = 0 to 11. -/
def cruMeas (i : Nat) : Fld := fld (0x60000 + 0x040 + 4 * i) 0 32 .ro 0x00000000
/-- SCRUB.START: 1: scrub by R421. -/
def cruScrubStart : Fld := fld (0x60000 + 0x070) 0 1 .wo 0
/-- SCRUB.BUSY: 1: a scrub runs. -/
def cruScrubBusy : Fld := fld (0x60000 + 0x070) 1 1 .ro 0
/-- SCRUB_ERR: Granules failing read-back. -/
def cruScrubErr : Fld := fld (0x60000 + 0x074) 0 32 .rc 0x00000000
/-- SIG_FAIL: Objects refused under R391 or R396. -/
def cruSigFail : Fld := fld (0x60000 + 0x078) 0 32 .rc 0x00000000
/-- ATTEST_OK: Peers accepted by R414. -/
def cruAttestOk : Fld := fld (0x60000 + 0x07C) 0 32 .rc 0x00000000
/-- ATTEST_FAIL: Peers refused by R414. -/
def cruAttestFail : Fld := fld (0x60000 + 0x080) 0 32 .rc 0x00000000
/-- ENTROPY_FAIL: Health-test failures of the random source. -/
def cruEntropyFail : Fld := fld (0x60000 + 0x084) 0 32 .rc 0x00000000
/-- AMEND_SEQ: Highest amendment accepted. -/
def cruAmendSeq : Fld := fld (0x60000 + 0x088) 0 32 .ro 0x00000000
/-- SEED_PARENT: Address from which the seed came; own address when drawn here. -/
def cruSeedParent : Fld := fld (0x60000 + 0x08C) 0 14 .ro 0x0000
/-! Table 11-8 (R299, chapter 11). -/

/-- CTRL.EN: 1: the port trains and runs; 0: disabled, faults masked. -/
def fabCtrlEn (p : Nat) : Fld := fld (0x100000 + 0x1000 * p + 0x000) 0 1 .rw 1
/-- CTRL.MODE: 0b00 fabric; 0b01 Ethernet, ports 8–11 only; other values ignored. -/
def fabCtrlMode (p : Nat) : Fld := fld (0x100000 + 0x1000 * p + 0x000) 1 2 .rw 0b00
/-- CTRL.MIN_LANES: Fewest lanes per direction, 1 to 8; 0 is taken as 1. -/
def fabCtrlMinLanes (p : Nat) : Fld := fld (0x100000 + 0x1000 * p + 0x000) 4 4 .rw 0x1
/-- CTRL.READMIT: 1: dropped lanes retrain by R294. -/
def fabCtrlReadmit (p : Nat) : Fld := fld (0x100000 + 0x1000 * p + 0x000) 8 1 .rw 1
/-- CTRL.LOOPBACK: 1: each transmit lane loops to its own receiver inside the module, for test; the port carries no traffic to a peer. -/
def fabCtrlLoopback (p : Nat) : Fld := fld (0x100000 + 0x1000 * p + 0x000) 9 1 .rw 0
/-- CTRL.RETRAIN: 1: retrain by R289. -/
def fabCtrlRetrain (p : Nat) : Fld := fld (0x100000 + 0x1000 * p + 0x000) 10 1 .wo 0
/-- STATUS.STATE: 0b000 off, 0b001 training, 0b010 up, 0b011 degraded, 0b100 down, 0b101 Ethernet up, 0b110 loopback. -/
def fabStatusState (p : Nat) : Fld := fld (0x100000 + 0x1000 * p + 0x004) 0 3 .ro 0b000
/-- STATUS.TX_WIDTH: Active transmit lanes. -/
def fabStatusTxWidth (p : Nat) : Fld := fld (0x100000 + 0x1000 * p + 0x004) 4 4 .ro 0x0
/-- STATUS.RX_WIDTH: Active receive lanes. -/
def fabStatusRxWidth (p : Nat) : Fld := fld (0x100000 + 0x1000 * p + 0x004) 8 4 .ro 0x0
/-- STATUS.TX_LANES: Transmit LANE_MASK. -/
def fabStatusTxLanes (p : Nat) : Fld := fld (0x100000 + 0x1000 * p + 0x004) 16 8 .ro 0x00
/-- STATUS.RX_LANES: Receive LANE_MASK. -/
def fabStatusRxLanes (p : Nat) : Fld := fld (0x100000 + 0x1000 * p + 0x004) 24 8 .ro 0x00
/-- LANE_MAP: Logical lane of physical receive lane l in bits [3l + 2:3l]; the reset value is the identity. -/
def fabLaneMap (p : Nat) : Fld := fld (0x100000 + 0x1000 * p + 0x008) 0 24 .ro 0xFAC688
/-- WIRING.POLARITY: Inverted receive lanes. -/
def fabWiringPolarity (p : Nat) : Fld := fld (0x100000 + 0x1000 * p + 0x00C) 0 8 .ro 0x00
/-- WIRING.FOREIGN: Foreign lanes by R291. -/
def fabWiringForeign (p : Nat) : Fld := fld (0x100000 + 0x1000 * p + 0x00C) 8 8 .ro 0x00
/-- WIRING.NOSIG: Lanes without signal or lock. -/
def fabWiringNosig (p : Nat) : Fld := fld (0x100000 + 0x1000 * p + 0x00C) 16 8 .ro 0x00
/-- PEER.DEV: Peer's device address. -/
def fabPeerDev (p : Nat) : Fld := fld (0x100000 + 0x1000 * p + 0x010) 0 14 .ro 0x0000
/-- PEER.PORT: Peer's port. -/
def fabPeerPort (p : Nat) : Fld := fld (0x100000 + 0x1000 * p + 0x010) 16 4 .ro 0x0
/-- PEER.ADDRESSED: 1: the peer reported an assigned address. -/
def fabPeerAddressed (p : Nat) : Fld := fld (0x100000 + 0x1000 * p + 0x010) 30 1 .ro 0
/-- PEER.VALID: 1: a peer identity is held. -/
def fabPeerValid (p : Nat) : Fld := fld (0x100000 + 0x1000 * p + 0x010) 31 1 .ro 0
/-- PEER_SERIAL_LO: SERIAL_DIGEST bytes 0–3. -/
def fabPeerSerialLo (p : Nat) : Fld := fld (0x100000 + 0x1000 * p + 0x014) 0 32 .ro 0x00000000
/-- PEER_SERIAL_HI: SERIAL_DIGEST bytes 4–7. -/
def fabPeerSerialHi (p : Nat) : Fld := fld (0x100000 + 0x1000 * p + 0x018) 0 32 .ro 0x00000000
/-- REPLAYS: Replays requested by the peer. -/
def fabReplays (p : Nat) : Fld := fld (0x100000 + 0x1000 * p + 0x01C) 0 32 .rc 0x00000000
/-- RETRAINS: Trainings started. -/
def fabRetrains (p : Nat) : Fld := fld (0x100000 + 0x1000 * p + 0x020) 0 32 .rc 0x00000000
/-- DROPS: Lanes dropped by R293. -/
def fabDrops (p : Nat) : Fld := fld (0x100000 + 0x1000 * p + 0x024) 0 32 .rc 0x00000000
/-- READMITS: Lanes readmitted by R294. -/
def fabReadmits (p : Nat) : Fld := fld (0x100000 + 0x1000 * p + 0x028) 0 32 .rc 0x00000000
/-- ETH_DROP: Frames dropped by R296. -/
def fabEthDrop (p : Nat) : Fld := fld (0x100000 + 0x1000 * p + 0x02C) 0 32 .rc 0x00000000
/-- ETH_PAUSE: PAUSE frames dropped. -/
def fabEthPause (p : Nat) : Fld := fld (0x100000 + 0x1000 * p + 0x030) 0 32 .rc 0x00000000
/-- LANE[l].CORR_SYM: Corrected symbols on physical lane l, l = 0 to 7. -/
def fabLaneCorrSym (p l : Nat) : Fld := fld (0x100000 + 0x1000 * p + 0x100 + 0x10 * l) 0 32 .rc 0x00000000
/-- LANE[l].UNCORR: Uncorrectable lane frames. -/
def fabLaneUncorr (p l : Nat) : Fld := fld (0x100000 + 0x1000 * p + 0x104 + 0x10 * l) 0 32 .rc 0x00000000
/-- LANE[l].SIGNAL: 1: signal detected. -/
def fabLaneSignal (p l : Nat) : Fld := fld (0x100000 + 0x1000 * p + 0x108 + 0x10 * l) 0 1 .ro 0
/-- LANE[l].LOCKED: 1: clock recovery locked. -/
def fabLaneLocked (p l : Nat) : Fld := fld (0x100000 + 0x1000 * p + 0x108 + 0x10 * l) 1 1 .ro 0
/-- LANE[l].ACTIVE: 1: carrying frames. -/
def fabLaneActive (p l : Nat) : Fld := fld (0x100000 + 0x1000 * p + 0x108 + 0x10 * l) 2 1 .ro 0
/-- LANE[l].MARGIN: Eye margin after equalisation, in units of 1/256 of the eye. -/
def fabLaneMargin (p l : Nat) : Fld := fld (0x100000 + 0x1000 * p + 0x108 + 0x10 * l) 8 8 .ro 0x00
/-! Table 12-10 (R334, chapter 12). -/

/-- VC[v].TX_CREDITS: Credits held for the peer's VC v, shared and reserved, v = 0 to 3. -/
def fabVcTxCredits (p v : Nat) : Fld := fld (0x100000 + 0x1000 * p + 0x200 + 0x10 * v) 0 12 .ro 0x000
/-- VC[v].RX_USED: Credits occupied in this port's VC v buffer. -/
def fabVcRxUsed (p v : Nat) : Fld := fld (0x100000 + 0x1000 * p + 0x200 + 0x10 * v) 16 12 .ro 0x000
/-- VC[v].TX_PKTS: Packets sent on VC v. -/
def fabVcTxPkts (p v : Nat) : Fld := fld (0x100000 + 0x1000 * p + 0x204 + 0x10 * v) 0 32 .rc 0x00000000
/-- VC[v].RX_PKTS: Packets received on VC v. -/
def fabVcRxPkts (p v : Nat) : Fld := fld (0x100000 + 0x1000 * p + 0x208 + 0x10 * v) 0 32 .rc 0x00000000
/-- SEAL.STATE: 0b00 unsealed, 0b01 hello sent, 0b10 sealed. -/
def fabSealState (p : Nat) : Fld := fld (0x100000 + 0x1000 * p + 0x240) 0 2 .ro 0b00
/-- SEAL_FAIL: Packets discarded by R311. -/
def fabSealFail (p : Nat) : Fld := fld (0x100000 + 0x1000 * p + 0x244) 0 32 .rc 0x00000000
/-- AUDITS: Audits of R308 passed. -/
def fabAudits (p : Nat) : Fld := fld (0x100000 + 0x1000 * p + 0x248) 0 32 .rc 0x00000000
/-! Table 12-9 (R333, chapter 12). -/

/-- NET_CTRL.SEAL: 1: seal job links by R309. -/
def netCtrlSeal : Fld := fld (0x100000 + 0xC000) 0 1 .ro 1
/-- NET_CTRL.W2: VC2 round-robin weight, 1 to 15. -/
def netCtrlW2 : Fld := fld (0x100000 + 0xC000) 8 4 .ro 0x1
/-- NET_CTRL.W3: VC3 round-robin weight, 1 to 15. -/
def netCtrlW3 : Fld := fld (0x100000 + 0xC000) 12 4 .ro 0x1
/-- NET_CTRL.TOKENS: Bucket tokens, 1 to 16. -/
def netCtrlTokens : Fld := fld (0x100000 + 0xC000) 16 5 .ro 0x04
/-- NET_STATUS.ADDR: Own address. -/
def netStatusAddr : Fld := fld (0x100000 + 0xC004) 0 14 .ro 0x0000
/-- NET_STATUS.ASSIGNED: 1: address taken from the roster. -/
def netStatusAssigned : Fld := fld (0x100000 + 0xC004) 15 1 .ro 0
/-- NET_STATUS.STATE: 0b000 none, 0b001 discovering, 0b010 routed, 0b011 attesting, 0b100 sealed. -/
def netStatusState : Fld := fld (0x100000 + 0xC004) 16 3 .ro 0b000
/-- NET_STATUS.DIAMETER: Job diameter. -/
def netStatusDiameter : Fld := fld (0x100000 + 0xC004) 20 4 .ro 0x0
/-- NET_STATUS.TREE_DEPTH: Own depth in the Cadence tree. -/
def netStatusTreeDepth : Fld := fld (0x100000 + 0xC004) 24 4 .ro 0x0
/-- NET_RT_INDEX: Route entry selected. -/
def netRtIndex : Fld := fld (0x100000 + 0xC008) 0 14 .rw 0x0000
/-- NET_RT_DATA: Entry NET_RT_INDEX, Table 12-4. -/
def netRtData : Fld := fld (0x100000 + 0xC00C) 0 32 .ro 0x00000000
/-- NET_CAD_PARENT: Parent in the Cadence tree. -/
def netCadParent : Fld := fld (0x100000 + 0xC010) 0 14 .ro 0x0000
/-- NET_TOKENS.HELD: Bucket tokens held. -/
def netTokensHeld : Fld := fld (0x100000 + 0xC014) 0 5 .ro 0x04
/-- NET_STREAMS: Stream entries held by Bellows. -/
def netStreams : Fld := fld (0x100000 + 0xC018) 0 21 .ro 0x000000
/-- NET_STALE: Packets discarded by R323. -/
def netStale : Fld := fld (0x100000 + 0xC01C) 0 32 .rc 0x00000000
/-- NET_NOROUTE: Packets with no valid port. -/
def netNoroute : Fld := fld (0x100000 + 0xC020) 0 32 .rc 0x00000000
/-- NET_HOPLIMIT: Packets over 12 hops. -/
def netHoplimit : Fld := fld (0x100000 + 0xC024) 0 32 .rc 0x00000000
/-- NET_NOSTREAM: Packets for an unheld stream. -/
def netNostream : Fld := fld (0x100000 + 0xC028) 0 32 .rc 0x00000000
/-- NET_BADTYPE: Packets discarded by R302. -/
def netBadtype : Fld := fld (0x100000 + 0xC02C) 0 32 .rc 0x00000000
/-- NET_ALTROUTE: Packets sent on an alternate. -/
def netAltroute : Fld := fld (0x100000 + 0xC030) 0 32 .rc 0x00000000
/-- NET_BUCKETS: Buckets completed. -/
def netBuckets : Fld := fld (0x100000 + 0xC034) 0 32 .rc 0x00000000
/-! Table 13-6 (R361, chapter 13). -/

/-- STATUS.ACTIVE: 1: streams are configured. -/
def blmStatusActive : Fld := fld (0x200000 + 0x000) 0 1 .ro 0
/-- STATUS.REPLAY: 1: deadlines off, by R358. -/
def blmStatusReplay : Fld := fld (0x200000 + 0x000) 1 1 .ro 0
/-- VIDEO_BUSY: One bit per video engine, die 0 in [15:0]. -/
def blmVideoBusy : Fld := fld (0x200000 + 0x004) 0 32 .ro 0x00000000
/-- JPEG_BUSY: One bit per JPEG engine, die 0 in [3:0]. -/
def blmJpegBusy : Fld := fld (0x200000 + 0x008) 0 8 .ro 0x00
/-- ETH_PORT: UDP port of R343. -/
def blmEthPort : Fld := fld (0x200000 + 0x00C) 0 16 .ro 0xC24C
/-- SAMPLES: Samples and spares completed. -/
def blmSamples : Fld := fld (0x200000 + 0x010) 0 32 .rc 0x00000000
/-- LATE: Samples abandoned by R353. -/
def blmLate : Fld := fld (0x200000 + 0x014) 0 32 .rc 0x00000000
/-- SKIP: Samples skipped by R354. -/
def blmSkip : Fld := fld (0x200000 + 0x018) 0 32 .rc 0x00000000
/-- SKIP_HDR: Skipped by R346. -/
def blmSkipHdr : Fld := fld (0x200000 + 0x01C) 0 32 .rc 0x00000000
/-- SKIP_DECODE: Skipped for a decode error or poison. -/
def blmSkipDecode : Fld := fld (0x200000 + 0x020) 0 32 .rc 0x00000000
/-- SKIP_ABSENT: Skipped for ABSENT. -/
def blmSkipAbsent : Fld := fld (0x200000 + 0x024) 0 32 .rc 0x00000000
/-- NOSPARE: Events of R355. -/
def blmNospare : Fld := fld (0x200000 + 0x028) 0 32 .rc 0x00000000
/-- REREQ: Re-requests by R345. -/
def blmRereq : Fld := fld (0x200000 + 0x02C) 0 32 .rc 0x00000000
/-- BADFRAME: Frames discarded by R341. -/
def blmBadframe : Fld := fld (0x200000 + 0x030) 0 32 .rc 0x00000000
/-- SEAL_FAIL: Frames discarded by R343. -/
def blmSealFail : Fld := fld (0x200000 + 0x034) 0 32 .rc 0x00000000
/-- LAST_SKIP.STREAM: Stream of the last skip. -/
def blmLastSkipStream : Fld := fld (0x200000 + 0x038) 0 20 .ro 0x00000
/-- LAST_SKIP.REASON: 0b00 header, 0b01 decode, 0b10 absent. -/
def blmLastSkipReason : Fld := fld (0x200000 + 0x038) 24 2 .ro 0b00
/-- LAST_SKIP_INDEX_LO: Index [31:0]. -/
def blmLastSkipIndexLo : Fld := fld (0x200000 + 0x03C) 0 32 .ro 0x00000000
/-- LAST_SKIP_INDEX_HI: Index [63:32]. -/
def blmLastSkipIndexHi : Fld := fld (0x200000 + 0x040) 0 32 .ro 0x00000000
/-- CUR_SEL: Stream table entry shown below. -/
def blmCurSel : Fld := fld (0x200000 + 0x044) 0 6 .rw 0x00
/-- CUR_BASE_LO: Committed BASE [31:0]. -/
def blmCurBaseLo : Fld := fld (0x200000 + 0x048) 0 32 .ro 0x00000000
/-- CUR_BASE_HI: Committed BASE [63:32]. -/
def blmCurBaseHi : Fld := fld (0x200000 + 0x04C) 0 32 .ro 0x00000000
/-- CUR_NEXT_LO: Committed NEXT [31:0]. -/
def blmCurNextLo : Fld := fld (0x200000 + 0x050) 0 32 .ro 0x00000000
/-- CUR_NEXT_HI: Committed NEXT [63:32]. -/
def blmCurNextHi : Fld := fld (0x200000 + 0x054) 0 32 .ro 0x00000000
/-- CUR_BUFS.HELD: Buffers held by the stage. -/
def blmCurBufsHeld : Fld := fld (0x200000 + 0x058) 0 5 .ro 0x00
/-- CUR_BUFS.SPARES_READY: Spares decoded. -/
def blmCurBufsSparesReady : Fld := fld (0x200000 + 0x058) 8 7 .ro 0x00
/-- STREAMS: Stream entries held. -/
def blmStreams : Fld := fld (0x200000 + 0x05C) 0 7 .ro 0x00
/-- CODED_LO: Coded bytes received [31:0]. -/
def blmCodedLo : Fld := fld (0x200000 + 0x060) 0 32 .ro 0x00000000
/-- CODED_HI: Coded bytes received [63:32]. -/
def blmCodedHi : Fld := fld (0x200000 + 0x064) 0 32 .ro 0x00000000
/-! Table 9-9 (R248, chapter 09). -/

/-- CFG.SLOT_LOG2: Slot size log2, 16 to 24. -/
def sthCfgSlotLog2 : Fld := fld (0x300000 + 0x000) 0 5 .ro 0x14
/-- STATUS.BUSY: 1: a STASH is being placed or written. -/
def sthStatusBusy : Fld := fld (0x300000 + 0x004) 0 1 .ro 0
/-- STATUS.FETCHING: 1: a fetch is running. -/
def sthStatusFetching : Fld := fld (0x300000 + 0x004) 1 1 .ro 0
/-- STOCK_BASE_LO: Stock byte address [31:0] of the reservation. -/
def sthStockBaseLo : Fld := fld (0x300000 + 0x008) 0 32 .ro 0x00000000
/-- STOCK_BASE_HI: Address [39:32]. -/
def sthStockBaseHi : Fld := fld (0x300000 + 0x00C) 0 8 .ro 0x00
/-- STOCK_SLOTS: Slots of the Stock reservation. -/
def sthStockSlots : Fld := fld (0x300000 + 0x010) 0 24 .ro 0x000000
/-- ENTRIES: Entries held, 0 to 4,096. -/
def sthEntries : Fld := fld (0x300000 + 0x014) 0 13 .ro 0x0000
/-- HELD_HEARTH: Hearth-tier slots held, all regions. -/
def sthHeldHearth : Fld := fld (0x300000 + 0x018) 0 24 .ro 0x000000
/-- HELD_HBM: HBM-tier slots held, all regions. -/
def sthHeldHbm : Fld := fld (0x300000 + 0x01C) 0 24 .ro 0x000000
/-- HELD_STOCK: Stock slots held. -/
def sthHeldStock : Fld := fld (0x300000 + 0x020) 0 24 .ro 0x000000
/-- FALLBACK: Entries placed below their target tier. -/
def sthFallback : Fld := fld (0x300000 + 0x024) 0 32 .rc 0x00000000
/-- PUTS: Entries placed. -/
def sthPuts : Fld := fld (0x300000 + 0x028) 0 32 .rc 0x00000000
/-- FETCHES: Tensors fetched. -/
def sthFetches : Fld := fld (0x300000 + 0x02C) 0 32 .rc 0x00000000
/-- EXHAUST: STASH commands refused by R230. -/
def sthExhaust : Fld := fld (0x300000 + 0x030) 0 32 .rc 0x00000000
/-- LAST_FAULT.REGION: Region of the last stash fault. -/
def sthLastFaultRegion : Fld := fld (0x300000 + 0x034) 0 6 .ro 0x00
/-- LAST_FAULT.TENSOR: Tensor of that fault. -/
def sthLastFaultTensor : Fld := fld (0x300000 + 0x034) 8 5 .ro 0x00
/-- LAST_FAULT.MB: Microbatch of that fault. -/
def sthLastFaultMb : Fld := fld (0x300000 + 0x034) 16 6 .ro 0x00
/-- RAW_BYTES_LO: Raw bytes stashed [31:0]. -/
def sthRawBytesLo : Fld := fld (0x300000 + 0x038) 0 32 .ro 0x00000000
/-- RAW_BYTES_HI: Raw bytes stashed [63:32]. -/
def sthRawBytesHi : Fld := fld (0x300000 + 0x03C) 0 32 .ro 0x00000000
/-- CODED_BYTES_LO: Coded bytes stashed [31:0]. -/
def sthCodedBytesLo : Fld := fld (0x300000 + 0x040) 0 32 .ro 0x00000000
/-- CODED_BYTES_HI: Coded bytes stashed [63:32]. -/
def sthCodedBytesHi : Fld := fld (0x300000 + 0x044) 0 32 .ro 0x00000000
/-! Table 9-10 (R249, chapter 09). -/

/-- STATUS.BUSY: 1: the engine holds a block. -/
def flxStatusBusy (e : Nat) : Fld := fld (0x310000 + 0x40 * e + 0x00) 0 1 .ro 0
/-- STATUS.INGOT: 1: the block belongs to an ingot or restore stream. -/
def flxStatusIngot (e : Nat) : Fld := fld (0x310000 + 0x40 * e + 0x00) 1 1 .ro 0
/-- RAW_LO: Raw bytes processed [31:0]. -/
def flxRawLo (e : Nat) : Fld := fld (0x310000 + 0x40 * e + 0x04) 0 32 .ro 0x00000000
/-- RAW_HI: Raw bytes processed [63:32]. -/
def flxRawHi (e : Nat) : Fld := fld (0x310000 + 0x40 * e + 0x08) 0 32 .ro 0x00000000
/-- CODED_LO: Coded bytes processed [31:0]. -/
def flxCodedLo (e : Nat) : Fld := fld (0x310000 + 0x40 * e + 0x0C) 0 32 .ro 0x00000000
/-- CODED_HI: Coded bytes processed [63:32]. -/
def flxCodedHi (e : Nat) : Fld := fld (0x310000 + 0x40 * e + 0x10) 0 32 .ro 0x00000000
/-- STORED: Lossless blocks coded as STORED. -/
def flxStored (e : Nat) : Fld := fld (0x310000 + 0x40 * e + 0x14) 0 32 .rc 0x00000000
/-- NAN_BLOCKS: MX blocks coded with scale 0xFF. -/
def flxNanBlocks (e : Nat) : Fld := fld (0x310000 + 0x40 * e + 0x18) 0 32 .rc 0x00000000
/-- SAT: MX elements saturated. -/
def flxSat (e : Nat) : Fld := fld (0x310000 + 0x40 * e + 0x1C) 0 32 .rc 0x00000000
/-- DECODE_ERR: Blocks with a decode error by R243. -/
def flxDecodeErr (e : Nat) : Fld := fld (0x310000 + 0x40 * e + 0x20) 0 32 .rc 0x00000000
/-! Table 8-13 (R222, chapter 08). -/

/-- CTRL.EN: 1: a pool is configured. -/
def kvpCtrlEn : Fld := fld (0x400000 + 0x000) 0 1 .ro 0
/-- CTRL.FORM: 0 8-bit, 1 4-bit. -/
def kvpCtrlForm : Fld := fld (0x400000 + 0x000) 1 1 .ro 0
/-- CTRL.HD: 0 dh 64, 1 dh 128. -/
def kvpCtrlHd : Fld := fld (0x400000 + 0x000) 2 1 .ro 0
/-- STATUS.BUSY: 1: a change or gather is in progress. -/
def kvpStatusBusy : Fld := fld (0x400000 + 0x004) 0 1 .ro 0
/-- STATUS.AUDIT_BUSY: 1: an audit walk is running. -/
def kvpStatusAuditBusy : Fld := fld (0x400000 + 0x004) 1 1 .ro 0
/-- POOL_BASE_LO: HBM byte address [31:0] of page 0. -/
def kvpPoolBaseLo : Fld := fld (0x400000 + 0x008) 0 32 .ro 0x00000000
/-- POOL_BASE_HI: Address [39:32]. -/
def kvpPoolBaseHi : Fld := fld (0x400000 + 0x00C) 0 8 .ro 0x00
/-- META_BASE_LO: Metadata array address [31:0]. -/
def kvpMetaBaseLo : Fld := fld (0x400000 + 0x010) 0 32 .ro 0x00000000
/-- META_BASE_HI: Address [39:32]. -/
def kvpMetaBaseHi : Fld := fld (0x400000 + 0x014) 0 8 .ro 0x00
/-- POOL_PAGES: Pages in the pool. -/
def kvpPoolPages : Fld := fld (0x400000 + 0x018) 0 25 .ro 0x0000000
/-- PAGE_BYTES: By Table 8-6. -/
def kvpPageBytes : Fld := fld (0x400000 + 0x01C) 0 16 .ro 0x0000
/-- FREE: Pages free. -/
def kvpFree : Fld := fld (0x400000 + 0x020) 0 25 .ro 0x0000000
/-- DATA: Data pages with COUNT ≥ 1. -/
def kvpData : Fld := fld (0x400000 + 0x024) 0 25 .ro 0x0000000
/-- TABLE: Table pages. -/
def kvpTable : Fld := fld (0x400000 + 0x028) 0 25 .ro 0x0000000
/-- RETIRED: Pages awaiting release. -/
def kvpRetired : Fld := fld (0x400000 + 0x02C) 0 25 .ro 0x0000000
/-- EPOCH: Current epoch E. -/
def kvpEpoch : Fld := fld (0x400000 + 0x030) 0 16 .ro 0x0000
/-- PIN[i]: Pins of epoch E − i, i = 0 to 3. -/
def kvpPin (i : Nat) : Fld := fld (0x400000 + 0x034 + 4 * i) 0 16 .ro 0x0000
/-- STREAMS: KV stream entries held. -/
def kvpStreams : Fld := fld (0x400000 + 0x044) 0 21 .ro 0x000000
/-- UNDO_USED: Undo records of the current step. -/
def kvpUndoUsed : Fld := fld (0x400000 + 0x048) 0 17 .ro 0x00000
/-- COW: Pages copied by R215. -/
def kvpCow : Fld := fld (0x400000 + 0x04C) 0 32 .rc 0x00000000
/-- APPENDS: Tokens appended. -/
def kvpAppends : Fld := fld (0x400000 + 0x050) 0 32 .rc 0x00000000
/-- EXHAUST: Changes refused with KV pool empty. -/
def kvpExhaust : Fld := fld (0x400000 + 0x054) 0 32 .rc 0x00000000
/-- AUDIT.START: 1: start the walk of R221. -/
def kvpAuditStart : Fld := fld (0x400000 + 0x058) 0 1 .wo 0
/-- AUDIT.DONE: 1: the last walk has finished. -/
def kvpAuditDone : Fld := fld (0x400000 + 0x058) 1 1 .ro 0
/-- AUDIT.PASS: 1: the last walk found no mismatch. -/
def kvpAuditPass : Fld := fld (0x400000 + 0x058) 2 1 .ro 0
/-! Table 10-6 (R279, chapter 10). -/

/-- CTRL.PREPASS: 1: run the pre-pass of R265. -/
def tmpCtrlPrepass : Fld := fld (0x500000 + 0x000) 0 1 .ro 0
/-- CTRL.CLIP_EN: 1: clip by R266. -/
def tmpCtrlClipEn : Fld := fld (0x500000 + 0x000) 1 1 .ro 0
/-- CTRL.SKIP_NONFINITE: 1: skip steps by R267. -/
def tmpCtrlSkipNonfinite : Fld := fld (0x500000 + 0x000) 2 1 .ro 0
/-- CTRL.INF_TRAP: 1: overflow to ±∞ is watched. -/
def tmpCtrlInfTrap : Fld := fld (0x500000 + 0x000) 3 1 .ro 0
/-- STATUS.PHASE: 0b000 idle, 0b001 pre-pass, 0b010 collective, 0b011 update, 0b100 push, 0b101 capture, 0b110 restore. -/
def tmpStatusPhase : Fld := fld (0x500000 + 0x004) 0 3 .ro 0b000
/-- STATUS.GROUP: Group entry being worked. -/
def tmpStatusGroup : Fld := fld (0x500000 + 0x004) 16 12 .ro 0x000
/-- CLIP_NORM: FP32 clip threshold. -/
def tmpClipNorm : Fld := fld (0x500000 + 0x008) 0 32 .ro 0x00000000
/-- GROUPS: Group table entries, 0 to 4,096. -/
def tmpGroups : Fld := fld (0x500000 + 0x00C) 0 13 .ro 0x0000
/-- GTABLE_LO: Stock address [31:0] of the group table. -/
def tmpGtableLo : Fld := fld (0x500000 + 0x010) 0 32 .ro 0x00000000
/-- GTABLE_HI: Address [39:32]. -/
def tmpGtableHi : Fld := fld (0x500000 + 0x014) 0 8 .ro 0x00
/-- CURVES_LO: CURVE_BASE [31:0]. -/
def tmpCurvesLo : Fld := fld (0x500000 + 0x018) 0 32 .ro 0x00000000
/-- CURVES_HI: CURVE_BASE [39:32]. -/
def tmpCurvesHi : Fld := fld (0x500000 + 0x01C) 0 8 .ro 0x00
/-- STEP: Shard STEP of R261. -/
def tmpStep : Fld := fld (0x500000 + 0x020) 0 32 .ro 0x00000000
/-- LAST_UPDATED: Step of the last finished update; all ones for none. -/
def tmpLastUpdated : Fld := fld (0x500000 + 0x024) 0 32 .ro 0xFFFFFFFF
/-- SKEW_STORED: STEP found at the last skew. -/
def tmpSkewStored : Fld := fld (0x500000 + 0x028) 0 32 .ro 0x00000000
/-- SKEW_CADENCE: Cadence step at the last skew. -/
def tmpSkewCadence : Fld := fld (0x500000 + 0x02C) 0 32 .ro 0x00000000
/-- SKEW_COUNT: Step skews. -/
def tmpSkewCount : Fld := fld (0x500000 + 0x030) 0 32 .rc 0x00000000
/-- SKIPPED: Steps skipped by R267. -/
def tmpSkipped : Fld := fld (0x500000 + 0x034) 0 32 .rc 0x00000000
/-- CLIPPED: Steps with clipf < 1. -/
def tmpClipped : Fld := fld (0x500000 + 0x038) 0 32 .rc 0x00000000
/-- LAST_NORM: FP32 N of the last step. -/
def tmpLastNorm : Fld := fld (0x500000 + 0x03C) 0 32 .ro 0x00000000
/-- SINGULAR: Roots kept by R272. -/
def tmpSingular : Fld := fld (0x500000 + 0x040) 0 32 .rc 0x00000000
/-- STOCK_CE: Stock granules corrected. -/
def tmpStockCe : Fld := fld (0x500000 + 0x044) 0 32 .rc 0x00000000
/-- STOCK_UE: Uncorrectable Stock reads. -/
def tmpStockUe : Fld := fld (0x500000 + 0x048) 0 32 .rc 0x00000000
/-- STOCK_LAST_UE_LO: Byte address [31:0]. -/
def tmpStockLastUeLo : Fld := fld (0x500000 + 0x04C) 0 32 .ro 0x00000000
/-- STOCK_LAST_UE_HI: Byte address [39:32]. -/
def tmpStockLastUeHi : Fld := fld (0x500000 + 0x050) 0 8 .ro 0x00
/-- STOCK_TEMP_C: Hottest LPDDR6 package, °C. -/
def tmpStockTempC : Fld := fld (0x500000 + 0x054) 0 8 .ro 0x00
/-- TRAP_STATUS.VALID: 1: a record is latched; write 1 to clear. -/
def tmpTrapStatusValid : Fld := fld (0x500000 + 0x058) 0 1 .w1c 0
/-- TRAP_STATUS.CAUSE: 0b00 invalid, 0b01 NaN operand, 0b10 overflow. -/
def tmpTrapStatusCause : Fld := fld (0x500000 + 0x058) 2 2 .ro 0b00
/-- TRAP_STATUS.ENGINE: Engine 0 to 15, or 16 for the solver. -/
def tmpTrapStatusEngine : Fld := fld (0x500000 + 0x058) 8 5 .ro 0x00
/-- TRAP_GROUP: Group entry. -/
def tmpTrapGroup : Fld := fld (0x500000 + 0x05C) 0 12 .ro 0x000
/-- TRAP_INDEX_LO: Element or block index [31:0]. -/
def tmpTrapIndexLo : Fld := fld (0x500000 + 0x060) 0 32 .ro 0x00000000
/-- TRAP_INDEX_HI: Index [39:32]. -/
def tmpTrapIndexHi : Fld := fld (0x500000 + 0x064) 0 8 .ro 0x00
/-- TRAP_ANGLE_LO: Angle [31:0]. -/
def tmpTrapAngleLo : Fld := fld (0x500000 + 0x068) 0 32 .ro 0x00000000
/-- TRAP_ANGLE_HI: Angle [47:32]. -/
def tmpTrapAngleHi : Fld := fld (0x500000 + 0x06C) 0 16 .ro 0x0000
/-- TRAP_COUNT: Events after the latched one. -/
def tmpTrapCount : Fld := fld (0x500000 + 0x070) 0 32 .rc 0x00000000
/-- UPD_CYCLES: Cycles of the last update pass, pre-pass included. -/
def tmpUpdCycles : Fld := fld (0x500000 + 0x074) 0 32 .ro 0x00000000
/-- PUSH_BYTES_LO: Bytes pushed [31:0]. -/
def tmpPushBytesLo : Fld := fld (0x500000 + 0x078) 0 32 .ro 0x00000000
/-- PUSH_BYTES_HI: Bytes pushed [63:32]. -/
def tmpPushBytesHi : Fld := fld (0x500000 + 0x07C) 0 32 .ro 0x00000000
/-! Table 14-10 (R390, chapter 14). -/

/-- STATUS.PHASE: 0b000 idle, 0b001 reclaim, 0b010 writing, 0b011 flushing, 0b100 reading, 0b101 capture. -/
def ingStatusPhase : Fld := fld (0x600000 + 0x000) 0 3 .ro 0b000
/-- STATUS.BAYS: Bays of the generation in progress, bit 0 A. -/
def ingStatusBays : Fld := fld (0x600000 + 0x000) 4 2 .ro 0b00
/-- GEN_LO: Last GEN started [31:0]. -/
def ingGenLo : Fld := fld (0x600000 + 0x004) 0 32 .ro 0x00000000
/-- GEN_HI: GEN [63:32]. -/
def ingGenHi : Fld := fld (0x600000 + 0x008) 0 32 .ro 0x00000000
/-- LAST_STEP: Step of the newest complete generation; all ones for none. -/
def ingLastStep : Fld := fld (0x600000 + 0x00C) 0 32 .ro 0xFFFFFFFF
/-- LAST_GEN_LO: Its GEN [31:0]. -/
def ingLastGenLo : Fld := fld (0x600000 + 0x010) 0 32 .ro 0x00000000
/-- LAST_GEN_HI: Its GEN [63:32]. -/
def ingLastGenHi : Fld := fld (0x600000 + 0x014) 0 32 .ro 0x00000000
/-- KEEP_GEN_LO: Generation kept from reclaim [31:0]; all ones for none. -/
def ingKeepGenLo : Fld := fld (0x600000 + 0x018) 0 32 .rw 0xFFFFFFFF
/-- KEEP_GEN_HI: [63:32]. -/
def ingKeepGenHi : Fld := fld (0x600000 + 0x01C) 0 32 .rw 0xFFFFFFFF
/-- GENS_OK: Generations completed. -/
def ingGensOk : Fld := fld (0x600000 + 0x020) 0 32 .rc 0x00000000
/-- GENS_FAILED: Generations failed by R371. -/
def ingGensFailed : Fld := fld (0x600000 + 0x024) 0 32 .rc 0x00000000
/-- LIFE_REFUSED: Bays refused by R377. -/
def ingLifeRefused : Fld := fld (0x600000 + 0x028) 0 32 .rc 0x00000000
/-- FALLBACK: Events of R370. -/
def ingFallback : Fld := fld (0x600000 + 0x02C) 0 32 .rc 0x00000000
/-- BYTES_LO: Bytes appended [31:0]. -/
def ingBytesLo : Fld := fld (0x600000 + 0x030) 0 32 .ro 0x00000000
/-- BYTES_HI: Bytes appended [63:32]. -/
def ingBytesHi : Fld := fld (0x600000 + 0x034) 0 32 .ro 0x00000000
/-- RESTORES: Restores completed by R384 or R385. -/
def ingRestores : Fld := fld (0x600000 + 0x038) 0 32 .rc 0x00000000
/-- LAST_WRITE_MS: Duration of the last generation, ms. -/
def ingLastWriteMs : Fld := fld (0x600000 + 0x03C) 0 16 .ro 0x0000
/-- CAPTURES_LOST: Replay captures stopped by R388. -/
def ingCapturesLost : Fld := fld (0x600000 + 0x040) 0 32 .rc 0x00000000
/-- BAY.CTRL.EJECT: 1: eject by R382. -/
def ingBayCtrlEject (b : Nat) : Fld := fld (0x600000 + 0x100 + 0x100 * b + 0x00) 0 1 .w1s 0
/-- BAY.CTRL.WIPE: 1: wipe by R379. -/
def ingBayCtrlWipe (b : Nat) : Fld := fld (0x600000 + 0x100 + 0x100 * b + 0x00) 1 1 .wo 0
/-- BAY.STATE.CODE: 0x0 empty, 0x1 powering, 0x2 link, 0x3 ID_FAIL, 0x4 FOREIGN, 0x5 READ_ONLY, 0x6 ADOPTED, 0x7 writing, 0x8 EJECTED, 0x9 POWER_FAULT. -/
def ingBayStateCode (b : Nat) : Fld := fld (0x600000 + 0x100 + 0x100 * b + 0x04) 0 4 .ro 0x0
/-- BAY.STATE.LIFE_LOW: 1: WRITTEN above 95 % of RATED. -/
def ingBayStateLifeLow (b : Nat) : Fld := fld (0x600000 + 0x100 + 0x100 * b + 0x04) 8 1 .ro 0
/-- BAY.STATE.LIFE_BAD: 1: the last life report failed verification. -/
def ingBayStateLifeBad (b : Nat) : Fld := fld (0x600000 + 0x100 + 0x100 * b + 0x04) 9 1 .ro 0
/-- BAY.LINK.WIDTH: Trained lanes. -/
def ingBayLinkWidth (b : Nat) : Fld := fld (0x600000 + 0x100 + 0x100 * b + 0x08) 0 4 .ro 0x0
/-- BAY.LINK.SPEED: PCIe generation trained, 1 to 6. -/
def ingBayLinkSpeed (b : Nat) : Fld := fld (0x600000 + 0x100 + 0x100 * b + 0x08) 4 4 .ro 0x0
/-- BAY.WRITTEN_LO: Life bytes written [31:0]. -/
def ingBayWrittenLo (b : Nat) : Fld := fld (0x600000 + 0x100 + 0x100 * b + 0x0C) 0 32 .ro 0x00000000
/-- BAY.WRITTEN_HI: [63:32]. -/
def ingBayWrittenHi (b : Nat) : Fld := fld (0x600000 + 0x100 + 0x100 * b + 0x10) 0 32 .ro 0x00000000
/-- BAY.RATED_LO: Rated bytes [31:0]. -/
def ingBayRatedLo (b : Nat) : Fld := fld (0x600000 + 0x100 + 0x100 * b + 0x14) 0 32 .ro 0x00000000
/-- BAY.RATED_HI: [63:32]. -/
def ingBayRatedHi (b : Nat) : Fld := fld (0x600000 + 0x100 + 0x100 * b + 0x18) 0 32 .ro 0x00000000
/-- BAY.ZONES.RING: Ring zones, Z − 1. -/
def ingBayZonesRing (b : Nat) : Fld := fld (0x600000 + 0x100 + 0x100 * b + 0x1C) 0 16 .ro 0x0000
/-- BAY.ZONES.FREE: Ring zones free. -/
def ingBayZonesFree (b : Nat) : Fld := fld (0x600000 + 0x100 + 0x100 * b + 0x1C) 16 16 .ro 0x0000
/-- BAY.ZONE_CAP: Zone capacity in 4,096-byte blocks. -/
def ingBayZoneCap (b : Nat) : Fld := fld (0x600000 + 0x100 + 0x100 * b + 0x20) 0 32 .ro 0x00000000
/-- BAY.CMD_ERR: NVMe commands failed. -/
def ingBayCmdErr (b : Nat) : Fld := fld (0x600000 + 0x100 + 0x100 * b + 0x24) 0 32 .rc 0x00000000
/-- BAY.READ_ERR: Unrecovered read errors. -/
def ingBayReadErr (b : Nat) : Fld := fld (0x600000 + 0x100 + 0x100 * b + 0x28) 0 32 .rc 0x00000000
/-- BAY.TAG_FAIL: Records whose tag or CHAIN failed. -/
def ingBayTagFail (b : Nat) : Fld := fld (0x600000 + 0x100 + 0x100 * b + 0x2C) 0 32 .rc 0x00000000
/-- BAY.INSERTS: Insertions detected. -/
def ingBayInserts (b : Nat) : Fld := fld (0x600000 + 0x100 + 0x100 * b + 0x30) 0 32 .rc 0x00000000
/-! Table 1-6 (R32, chapter 01). -/

/-- STATE.MODE: 0b00 off, 0b01 training, 0b10 active, 0b11 self-refresh. -/
def hbmStateMode (s : Nat) : Fld := fld (0x700000 + 0x1000 * s + 0x000) 0 2 .ro 0b00
/-- STATE.TRAINED: 1 once interface training has passed. -/
def hbmStateTrained (s : Nat) : Fld := fld (0x700000 + 0x1000 * s + 0x000) 2 1 .ro 0
/-- STATE.TEMP_C: Stack temperature in °C, unsigned. -/
def hbmStateTempC (s : Nat) : Fld := fld (0x700000 + 0x1000 * s + 0x000) 8 8 .ro 0x00
/-- CE_COUNT: Granules corrected by the module's code. -/
def hbmCeCount (s : Nat) : Fld := fld (0x700000 + 0x1000 * s + 0x004) 0 32 .rc 0x00000000
/-- UE_COUNT: Uncorrectable granule reads. -/
def hbmUeCount (s : Nat) : Fld := fld (0x700000 + 0x1000 * s + 0x008) 0 32 .rc 0x00000000
/-- POISON_COUNT: Granules of the stack currently poisoned. -/
def hbmPoisonCount (s : Nat) : Fld := fld (0x700000 + 0x1000 * s + 0x00C) 0 32 .ro 0x00000000
/-- LAST_UE_LO: Byte address [31:0] of the last uncorrectable granule. -/
def hbmLastUeLo (s : Nat) : Fld := fld (0x700000 + 0x1000 * s + 0x010) 0 32 .ro 0x00000000
/-- LAST_UE_HI: Byte address [39:32]. -/
def hbmLastUeHi (s : Nat) : Fld := fld (0x700000 + 0x1000 * s + 0x014) 0 8 .ro 0x00
/-- PATROL.EN: 1 enables the patrol reader. -/
def hbmPatrolEn (s : Nat) : Fld := fld (0x700000 + 0x1000 * s + 0x018) 0 1 .rw 1
/-- PATROL.PERIOD_H: Patrol period in hours, from 1 to 255; a write of 0 is taken as 1. -/
def hbmPatrolPeriodH (s : Nat) : Fld := fld (0x700000 + 0x1000 * s + 0x018) 8 8 .rw 0x18
/-- PATROL_POS: Index of the next granule the patrol will read. -/
def hbmPatrolPos (s : Nat) : Fld := fld (0x700000 + 0x1000 * s + 0x01C) 0 32 .ro 0x00000000
/-! Table 4-10 (R121, chapter 04). -/

/-- STATUS.STATE: 0b00 idle, 0b01 running a program, 0b10 stopped by a refusal, 0b11 stopped by abort. -/
def coreStatusState (n : Nat) : Fld := fld (0x1000000 + 0x10000 * n + 0x0000) 0 2 .ro 0b00
/-- STATUS.ARRAY_BUSY: 1: an issue is streaming. -/
def coreStatusArrayBusy (n : Nat) : Fld := fld (0x1000000 + 0x10000 * n + 0x0000) 2 1 .ro 0
/-- STATUS.WAITING: 1: an issue is waiting by R115. -/
def coreStatusWaiting (n : Nat) : Fld := fld (0x1000000 + 0x10000 * n + 0x0000) 3 1 .ro 0
/-- CTX.GANG: Gang of the core in the current job. -/
def coreCtxGang (n : Nat) : Fld := fld (0x1000000 + 0x10000 * n + 0x0004) 0 16 .ro 0x0000
/-- CTX.STAGE: Stage owned by the gang. -/
def coreCtxStage (n : Nat) : Fld := fld (0x1000000 + 0x10000 * n + 0x0004) 16 16 .ro 0x0000
/-- ISSUES: Issues accepted. -/
def coreIssues (n : Nat) : Fld := fld (0x1000000 + 0x10000 * n + 0x0008) 0 32 .rc 0x00000000
/-- ZEROSHAPE: Issues and reductions with a zero run-time extent, by R112 and R93. -/
def coreZeroshape (n : Nat) : Fld := fld (0x1000000 + 0x10000 * n + 0x000C) 0 32 .rc 0x00000000
/-- REFUSE.REASON: 0x0 none; 0x1 to 0x7 by Table 4-5. -/
def coreRefuseReason (n : Nat) : Fld := fld (0x1000000 + 0x10000 * n + 0x0010) 0 4 .ro 0x0
/-- REFUSE.VALID: 1: a refusal is recorded; write 1 to clear. -/
def coreRefuseValid (n : Nat) : Fld := fld (0x1000000 + 0x10000 * n + 0x0010) 8 1 .w1c 0
/-- REFUSE_OPID: OPID of the refused issue. -/
def coreRefuseOpid (n : Nat) : Fld := fld (0x1000000 + 0x10000 * n + 0x0014) 0 32 .ro 0x00000000
/-- REFUSE_NEED: Slots (REASON 0x5), bytes (0x6) or run-time extent (0x4) that the issue needed. -/
def coreRefuseNeed (n : Nat) : Fld := fld (0x1000000 + 0x10000 * n + 0x0018) 0 24 .ro 0x000000
/-- REFUSE_HAVE: Slots available from SLOT_BASE, OB_SIZE or planned extent, in the same unit. -/
def coreRefuseHave (n : Nat) : Fld := fld (0x1000000 + 0x10000 * n + 0x001C) 0 24 .ro 0x000000
/-- SLOT_STATE: Two bits per slot, slot j in [2j + 1:2j]: 0b00 FREE, 0b01 BUSY, 0b10 DRAIN, 0b11 KEPT. -/
def coreSlotState (n : Nat) : Fld := fld (0x1000000 + 0x10000 * n + 0x0020) 0 32 .ro 0x00000000
/-- ACC_LEDGER.HELD: Slots held, 0 to 16. -/
def coreAccLedgerHeld (n : Nat) : Fld := fld (0x1000000 + 0x10000 * n + 0x0024) 0 5 .ro 0x00
/-- OB_LEDGER.HELD: Operand-buffer bytes held by accepted issues. -/
def coreObLedgerHeld (n : Nat) : Fld := fld (0x1000000 + 0x10000 * n + 0x0028) 0 22 .ro 0x000000
/-- STALL: Array cycles stalled by R120. -/
def coreStall (n : Nat) : Fld := fld (0x1000000 + 0x10000 * n + 0x002C) 0 32 .rc 0x00000000
/-- BUSY_CYCLES_LO: Array streaming cycles [31:0]. -/
def coreBusyCyclesLo (n : Nat) : Fld := fld (0x1000000 + 0x10000 * n + 0x0030) 0 32 .ro 0x00000000
/-- BUSY_CYCLES_HI: Array streaming cycles [63:32]. -/
def coreBusyCyclesHi (n : Nat) : Fld := fld (0x1000000 + 0x10000 * n + 0x0034) 0 32 .ro 0x00000000
/-- SHAPE[j].M: Run-time M for SHAPE_SEL j, j = 1 to 7. -/
def coreShapeM (n j : Nat) : Fld := fld (0x1000000 + 0x10000 * n + 0x0040 + 8 * (j - 1)) 0 16 .ro 0x0000
/-- SHAPE[j].N: Run-time N. -/
def coreShapeN (n j : Nat) : Fld := fld (0x1000000 + 0x10000 * n + 0x0040 + 8 * (j - 1)) 16 16 .ro 0x0000
/-- SHAPE[j].K: Run-time K. -/
def coreShapeK (n j : Nat) : Fld := fld (0x1000000 + 0x10000 * n + 0x0044 + 8 * (j - 1)) 0 22 .ro 0x000000
/-- NEXT_K[j]: NEXT_K of slot j, j = 0 to 15, by R113. -/
def coreNextK (n j : Nat) : Fld := fld (0x1000000 + 0x10000 * n + 0x0080 + 4 * j) 0 22 .ro 0x000000
/-! Table 3-7 (R98, chapter 03). -/

/-- TRAP_STATUS.VALID: 1: a record is latched; write 1 to clear and re-arm. -/
def coreTrapStatusValid (n : Nat) : Fld := fld (0x1000000 + 0x10000 * n + 0x0200) 0 1 .w1c 0
/-- TRAP_STATUS.SRC: 0 matrix array, 1 vector engine. -/
def coreTrapStatusSrc (n : Nat) : Fld := fld (0x1000000 + 0x10000 * n + 0x0200) 1 1 .ro 0
/-- TRAP_STATUS.CAUSE: 0b00 invalid, 0b01 NaN operand, 0b10 overflow. -/
def coreTrapStatusCause (n : Nat) : Fld := fld (0x1000000 + 0x10000 * n + 0x0200) 2 2 .ro 0b00
/-- TRAP_STATUS.RZ: Rounding mode of the operation: 0 nearest even, 1 toward zero. -/
def coreTrapStatusRz (n : Nat) : Fld := fld (0x1000000 + 0x10000 * n + 0x0200) 4 1 .ro 0
/-- TRAP_STATUS.SPECIAL: Overflow flag of the operation: 0 SAT, 1 SPECIAL. -/
def coreTrapStatusSpecial (n : Nat) : Fld := fld (0x1000000 + 0x10000 * n + 0x0200) 5 1 .ro 0
/-- TRAP_STATUS.CORE: Core number, 0 to 191. -/
def coreTrapStatusCore (n : Nat) : Fld := fld (0x1000000 + 0x10000 * n + 0x0200) 8 8 .ro 0x00
/-- TRAP_OPID: Operation ID from the issue or vector command. -/
def coreTrapOpid (n : Nat) : Fld := fld (0x1000000 + 0x10000 * n + 0x0204) 0 32 .ro 0x00000000
/-- TRAP_OWNER.GANG: Gang number within the job. -/
def coreTrapOwnerGang (n : Nat) : Fld := fld (0x1000000 + 0x10000 * n + 0x0208) 0 16 .ro 0x0000
/-- TRAP_OWNER.STAGE: Stage number within the job. -/
def coreTrapOwnerStage (n : Nat) : Fld := fld (0x1000000 + 0x10000 * n + 0x0208) 16 16 .ro 0x0000
/-- TRAP_TILE.MT: Array: M tile index of the output within the operation. Vector engine: destination tile register. -/
def coreTrapTileMt (n : Nat) : Fld := fld (0x1000000 + 0x10000 * n + 0x020C) 0 16 .ro 0x0000
/-- TRAP_TILE.NT: Array: N tile index of the output. Vector engine: zero. -/
def coreTrapTileNt (n : Nat) : Fld := fld (0x1000000 + 0x10000 * n + 0x020C) 16 16 .ro 0x0000
/-- TRAP_ELEM.ROW: Array: output row in the tile. Vector engine: row in the 32 × 32 tile. -/
def coreTrapElemRow (n : Nat) : Fld := fld (0x1000000 + 0x10000 * n + 0x0210) 0 7 .ro 0x00
/-- TRAP_ELEM.COL: Array: output column in the tile, 0 to 127, with bit 15 zero. Vector engine: lane, 0 to 255. -/
def coreTrapElemCol (n : Nat) : Fld := fld (0x1000000 + 0x10000 * n + 0x0210) 8 8 .ro 0x00
/-- TRAP_ELEM.KBLK: Array: group index g of R82, so the terms k = 32g to 32g + 31. Vector engine: zero. -/
def coreTrapElemKblk (n : Nat) : Fld := fld (0x1000000 + 0x10000 * n + 0x0210) 16 16 .ro 0x0000
/-- TRAP_ANGLE_LO: Angle [31:0] of the last beat fired on the device when the event occurred. -/
def coreTrapAngleLo (n : Nat) : Fld := fld (0x1000000 + 0x10000 * n + 0x0214) 0 32 .ro 0x00000000
/-- TRAP_ANGLE_HI: Angle [47:32]. -/
def coreTrapAngleHi (n : Nat) : Fld := fld (0x1000000 + 0x10000 * n + 0x0218) 0 16 .ro 0x0000
/-- NAN_COUNT: Events after the latched one. -/
def coreNanCount (n : Nat) : Fld := fld (0x1000000 + 0x10000 * n + 0x021C) 0 32 .rc 0x00000000
/-- NUMCTRL.NAN_ACTION: 1: class U and abort; 0: class C and continue. -/
def coreNumctrlNanAction (n : Nat) : Fld := fld (0x1000000 + 0x10000 * n + 0x0220) 0 1 .ro 1
/-- NUMCTRL.INF_TRAP: 1: overflow to ±∞ is watched as CAUSE 0b10. -/
def coreNumctrlInfTrap (n : Nat) : Fld := fld (0x1000000 + 0x10000 * n + 0x0220) 1 1 .ro 0
/-! Table 6-12 (R171, chapter 06). -/

/-- VSTATUS.BUSY: 1: a vector command is running. -/
def coreVstatusBusy (n : Nat) : Fld := fld (0x1000000 + 0x10000 * n + 0x0300) 0 1 .ro 0
/-- VSTATUS.WAITING: 1: the next command waits on an operand or a Hearth range. -/
def coreVstatusWaiting (n : Nat) : Fld := fld (0x1000000 + 0x10000 * n + 0x0300) 1 1 .ro 0
/-- VSTATUS.DWCONV: 1: the depth-wise path is running. -/
def coreVstatusDwconv (n : Nat) : Fld := fld (0x1000000 + 0x10000 * n + 0x0300) 2 1 .ro 0
/-- VCMDS: Vector commands completed. -/
def coreVcmds (n : Nat) : Fld := fld (0x1000000 + 0x10000 * n + 0x0304) 0 32 .rc 0x00000000
/-- VBUSY_CYCLES_LO: Cycles with a command running, [31:0]. -/
def coreVbusyCyclesLo (n : Nat) : Fld := fld (0x1000000 + 0x10000 * n + 0x0308) 0 32 .ro 0x00000000
/-- VBUSY_CYCLES_HI: Cycles with a command running, [63:32]. -/
def coreVbusyCyclesHi (n : Nat) : Fld := fld (0x1000000 + 0x10000 * n + 0x030C) 0 32 .ro 0x00000000
/-- VSTALL: Cycles that LD, ST, DWCONV and TERMWALK stalled on the Hearth port. -/
def coreVstall (n : Nat) : Fld := fld (0x1000000 + 0x10000 * n + 0x0310) 0 32 .rc 0x00000000
/-- TW_COUNT: Term-walks completed. -/
def coreTwCount (n : Nat) : Fld := fld (0x1000000 + 0x10000 * n + 0x0314) 0 32 .rc 0x00000000
/-! Table 7-7 (R194, chapter 07). -/

/-- SWG_STATUS.BUSY: 1: Swage is filling or sending. -/
def coreSwgStatusBusy (n : Nat) : Fld := fld (0x1000000 + 0x10000 * n + 0x0400) 0 1 .ro 0
/-- SWG_STATUS.WAIT_HALO: 1: a window waits for a halo row. -/
def coreSwgStatusWaitHalo (n : Nat) : Fld := fld (0x1000000 + 0x10000 * n + 0x0400) 1 1 .ro 0
/-- SWG_STATUS.STALL_CREDIT: 1: a send waits for a credit. -/
def coreSwgStatusStallCredit (n : Nat) : Fld := fld (0x1000000 + 0x10000 * n + 0x0400) 2 1 .ro 0
/-- SWG_STATUS.SET: Set now presenting rows. -/
def coreSwgStatusSet (n : Nat) : Fld := fld (0x1000000 + 0x10000 * n + 0x0400) 4 4 .ro 0x0
/-- HALO_WAIT: Cycles waited by R190. -/
def coreHaloWait (n : Nat) : Fld := fld (0x1000000 + 0x10000 * n + 0x0404) 0 32 .rc 0x00000000
/-- HALO_STALL: Cycles stalled by R191. -/
def coreHaloStall (n : Nat) : Fld := fld (0x1000000 + 0x10000 * n + 0x0408) 0 32 .rc 0x00000000
/-- HALO_SENT: Halo rows sent. -/
def coreHaloSent (n : Nat) : Fld := fld (0x1000000 + 0x10000 * n + 0x040C) 0 32 .rc 0x00000000
/-- HALO_TAGERR: Rows refused for a wrong tag. -/
def coreHaloTagerr (n : Nat) : Fld := fld (0x1000000 + 0x10000 * n + 0x0410) 0 32 .rc 0x00000000
/-- HALO_CREDIT.UP: Credits held for the stripe above. -/
def coreHaloCreditUp (n : Nat) : Fld := fld (0x1000000 + 0x10000 * n + 0x0414) 0 5 .ro 0x00
/-- HALO_CREDIT.DN: Credits held for the stripe below. -/
def coreHaloCreditDn (n : Nat) : Fld := fld (0x1000000 + 0x10000 * n + 0x0414) 8 5 .ro 0x00
/-- HALO_FULL.UP: Full slots from the stripe above. -/
def coreHaloFullUp (n : Nat) : Fld := fld (0x1000000 + 0x10000 * n + 0x0418) 0 5 .ro 0x00
/-- HALO_FULL.DN: Full slots from the stripe below. -/
def coreHaloFullDn (n : Nat) : Fld := fld (0x1000000 + 0x10000 * n + 0x0418) 8 5 .ro 0x00
/-- LB_BYTES: Line-buffer bytes held by the current segment's sets. -/
def coreLbBytes (n : Nat) : Fld := fld (0x1000000 + 0x10000 * n + 0x041C) 0 20 .ro 0x00000
/-- HO_RX: Chunks received with correct tags. -/
def coreHoRx (n : Nat) : Fld := fld (0x1000000 + 0x10000 * n + 0x0420) 0 32 .rc 0x00000000
/-- HO_STALE: Chunks discarded for a stale ATTEMPT. -/
def coreHoStale (n : Nat) : Fld := fld (0x1000000 + 0x10000 * n + 0x0424) 0 32 .rc 0x00000000
/-- HO_TAGERR: Chunks refused by HANDOVER tag. -/
def coreHoTagerr (n : Nat) : Fld := fld (0x1000000 + 0x10000 * n + 0x0428) 0 32 .rc 0x00000000
/-- HO_LEDGER.CREDITS: Credits held as producer, all channels. -/
def coreHoLedgerCredits (n : Nat) : Fld := fld (0x1000000 + 0x10000 * n + 0x042C) 0 16 .ro 0x0000
/-- HO_LEDGER.FULL: Full slots held as consumer, all channels. -/
def coreHoLedgerFull (n : Nat) : Fld := fld (0x1000000 + 0x10000 * n + 0x042C) 16 16 .ro 0x0000
/-! Table 8-14 (R223, chapter 08). -/

/-- ATT_BLOCKS: Blocks computed, FULL or PARTIAL. -/
def coreAttBlocks (n : Nat) : Fld := fld (0x1000000 + 0x10000 * n + 0x0500) 0 32 .rc 0x00000000
/-- ATT_SKIPPED: Blocks skipped by R203. -/
def coreAttSkipped (n : Nat) : Fld := fld (0x1000000 + 0x10000 * n + 0x0504) 0 32 .rc 0x00000000
/-- ATT_EMPTY: Query rows with lse EMPTY. -/
def coreAttEmpty (n : Nat) : Fld := fld (0x1000000 + 0x10000 * n + 0x0508) 0 32 .rc 0x00000000
/-- ATT_CMDS: ATTN commands completed. -/
def coreAttCmds (n : Nat) : Fld := fld (0x1000000 + 0x10000 * n + 0x050C) 0 32 .rc 0x00000000

end Reg

/-- The fields of the word at offset `o` of the ID block. -/
def Reg.idAt (o : Nat) : List Fld :=
  if o = 0x0 then [Reg.idIdcode]
  else if o = 0x4 then [Reg.idPartNumber, Reg.idPartMap]
  else if o = 0x8 then [Reg.idSteppingMetal, Reg.idSteppingBase]
  else if o = 0xC then [Reg.idSerialDigestLo]
  else if o = 0x10 then [Reg.idSerialDigestHi]
  else if o = 0x14 then [Reg.idConfigCores, Reg.idConfigPorts, Reg.idConfigStacks, Reg.idConfigBays]
  else if o = 0x18 then [Reg.idState]
  else if o = 0x1C then [Reg.idAccessorLevel, Reg.idAccessorPath]
  else if o = 0x30 then [Reg.idRefused]
  else if o = 0x40 then [Reg.idMemwinCtrlSpace, Reg.idMemwinCtrlPoison, Reg.idMemwinCtrlRangeErr]
  else if o = 0x44 then [Reg.idMemwinAddrLo]
  else if o = 0x48 then [Reg.idMemwinAddrHi]
  else if 0x20 ≤ o ∧ o < 0x30 ∧ (o - 0x20) % 4 = 0 then [Reg.idScratch ((o - 0x20) / 4)]
  else if 0x80 ≤ o ∧ o < 0xC0 ∧ (o - 0x80) % 4 = 0 then [Reg.idMemwinData ((o - 0x80) / 4)]
  else []

/-- The fields of the word at offset `o` of the RST block. -/
def Reg.rstAt (o : Nat) : List Fld :=
  if o = 0x0 then [Reg.rstCausePower, Reg.rstCausePwrOk, Reg.rstCauseSysPin, Reg.rstCauseCorePin, Reg.rstCauseMbx, Reg.rstCauseRemote, Reg.rstCauseWdt, Reg.rstCauseTherm, Reg.rstCauseClkloss, Reg.rstCauseQuenchExit, Reg.rstCauseLastReach]
  else if o = 0x4 then [Reg.rstAsserted]
  else if o = 0x8 then [Reg.rstHeld]
  else if o = 0xC then [Reg.rstCtrlRemoteEn, Reg.rstCtrlWdtEn, Reg.rstCtrlWdtReach]
  else if o = 0x10 then [Reg.rstWdtPeriodMs]
  else if o = 0x14 then [Reg.rstWdtKick]
  else if o = 0x18 then [Reg.rstCoreCount]
  else if o = 0x1C then [Reg.rstRemoteLastSrc, Reg.rstRemoteLastReach]
  else if o = 0x20 then [Reg.rstRemoteRefused]
  else if o = 0x24 then [Reg.rstStrapLegacyEn]
  else []

/-- The fields of the word at offset `o` of the CLK block. -/
def Reg.clkAt (o : Nat) : List Fld :=
  if o = 0x0 then [Reg.clkGood]
  else if o = 0x4 then [Reg.clkLoss]
  else if o = 0x8 then [Reg.clkLossCount]
  else if o = 0xC then [Reg.clkRefclkPresent]
  else if 0x10 ≤ o ∧ o < 0x80 ∧ (o - 0x10) % 4 = 0 then [Reg.clkDomLock ((o - 0x10) / 4), Reg.clkDomGood ((o - 0x10) / 4), Reg.clkDomHeld ((o - 0x10) / 4), Reg.clkDomLosses ((o - 0x10) / 4)]
  else []

/-- The fields of the word at offset `o` of the FLT block. -/
def Reg.fltAt (o : Nat) : List Fld :=
  if o = 0x0 then [Reg.fltCtrlUFatal, Reg.fltCtrlPinDrive, Reg.fltCtrlLegacyAbort]
  else if o = 0x4 then [Reg.fltStatusValid, Reg.fltStatusOvf, Reg.fltStatusFValid, Reg.fltStatusQuench, Reg.fltStatusPulse, Reg.fltStatusSelf]
  else if o = 0x8 then [Reg.fltFirstLo]
  else if o = 0xC then [Reg.fltFirstHi]
  else if o = 0x10 then [Reg.fltFirstAngleLo]
  else if o = 0x14 then [Reg.fltFirstAngleHi]
  else if o = 0x18 then [Reg.fltFirstFLo]
  else if o = 0x1C then [Reg.fltFirstFHi]
  else if o = 0x20 then [Reg.fltFirstFAngleLo]
  else if o = 0x24 then [Reg.fltFirstFAngleHi]
  else if o = 0x28 then [Reg.fltTotalC]
  else if o = 0x2C then [Reg.fltTotalU]
  else if o = 0x30 then [Reg.fltTotalF]
  else if o = 0x34 then [Reg.fltDropped]
  else if o = 0x38 then [Reg.fltLegacyEn, Reg.fltLegacySwapped, Reg.fltLegacyState, Reg.fltLegacyWire, Reg.fltLegacyForced, Reg.fltLegacyOut]
  else if o = 0x3C then [Reg.fltPeerQuench]
  else if o = 0x40 then [Reg.fltPeerLast]
  else if 0x4000 ≤ o ∧ o < 0x8000 ∧ (o - 0x4000) % 4 = 0 then [Reg.fltCount ((o - 0x4000) / 4)]
  else if 0x8000 ≤ o ∧ o < 0xC000 ∧ (o - 0x8000) % 4 = 0 then [Reg.fltSrcCfgForce ((o - 0x8000) / 4), Reg.fltSrcCfgMask ((o - 0x8000) / 4), Reg.fltSrcCfgForceKind ((o - 0x8000) / 4)]
  else []

/-- The fields of the word at offset `o` of the CAD block. -/
def Reg.cadAt (o : Nat) : List Fld :=
  if o = 0x0 then [Reg.cadCtrlCandidate, Reg.cadCtrlExternal, Reg.cadCtrlFallback, Reg.cadCtrlOutEn]
  else if o = 0x4 then [Reg.cadStatusRole, Reg.cadStatusHeld, Reg.cadStatusInLock, Reg.cadStatusCommitted]
  else if o = 0x8 then [Reg.cadAngleLo]
  else if o = 0xC then [Reg.cadAngleHi]
  else if o = 0x10 then [Reg.cadMaster]
  else if o = 0x14 then [Reg.cadPeriodNs]
  else if o = 0x18 then [Reg.cadGateLead]
  else if o = 0x1C then [Reg.cadHoldLimitMs]
  else if o = 0x20 then [Reg.cadHoldsOut]
  else if o = 0x24 then [Reg.cadHoldRaised]
  else if o = 0x28 then [Reg.cadHoldReleased]
  else if o = 0x2C then [Reg.cadHoldCancelled]
  else if o = 0x30 then [Reg.cadAbortLimit]
  else if o = 0x34 then [Reg.cadAbortCount]
  else if o = 0x38 then [Reg.cadAttempt]
  else if o = 0x3C then [Reg.cadSlip]
  else if o = 0x40 then [Reg.cadInErr]
  else if o = 0x44 then [Reg.cadLateHold]
  else if o = 0x48 then [Reg.cadCatchup]
  else if o = 0x4C then [Reg.cadMsgErr]
  else if o = 0x50 then [Reg.cadStrikeCount]
  else if o = 0x54 then [Reg.cadStrikeFired]
  else if o = 0x58 then [Reg.cadLastGateStroke, Reg.cadLastGateHolder]
  else []

/-- The fields of the word at offset `o` of the MBX block. -/
def Reg.mbxAt (o : Nat) : List Fld :=
  if o = 0x0 then [Reg.mbxStatusSessions, Reg.mbxStatusExec, Reg.mbxStatusUpload]
  else if o = 0x4 then [Reg.mbxSlotsFree, Reg.mbxSlotsPending, Reg.mbxSlotsReady]
  else if o = 0x8 then [Reg.mbxPort]
  else if o = 0xC then [Reg.mbxIdleS]
  else if o = 0x10 then [Reg.mbxGrantMin]
  else if o = 0x14 then [Reg.mbxMacLo]
  else if o = 0x18 then [Reg.mbxMacHi]
  else if o = 0x1C then [Reg.mbxCmds]
  else if o = 0x20 then [Reg.mbxRefused]
  else if o = 0x24 then [Reg.mbxAuthFail]
  else if o = 0x28 then [Reg.mbxSealFail]
  else if o = 0x2C then [Reg.mbxDuplicate]
  else if o = 0x30 then [Reg.mbxTimeouts]
  else if o = 0x34 then [Reg.mbxSessionRefused]
  else if o = 0x38 then [Reg.mbxAborted]
  else []

/-- The fields of the word at offset `o` of the JNL block. -/
def Reg.jnlAt (o : Nat) : List Fld :=
  if o = 0x0 then [Reg.jnlHeadLo]
  else if o = 0x4 then [Reg.jnlHeadHi]
  else if o = 0x8 then [Reg.jnlOldestLo]
  else if o = 0xC then [Reg.jnlOldestHi]
  else if o = 0x10 then [Reg.jnlCount]
  else if o = 0x14 then [Reg.jnlSelLo]
  else if o = 0x18 then [Reg.jnlSelHi]
  else if o = 0x1C then [Reg.jnlWinValid]
  else if o = 0x30 then [Reg.jnlSnapshots]
  else if 0x20 ≤ o ∧ o < 0x30 ∧ (o - 0x20) % 4 = 0 then [Reg.jnlResumeId ((o - 0x20) / 4)]
  else if 0x100 ≤ o ∧ o < 0x140 ∧ (o - 0x100) % 4 = 0 then [Reg.jnlWin ((o - 0x100) / 4)]
  else []

/-- The fields of the word at offset `o` of the CRU block. -/
def Reg.cruAt (o : Nat) : List Fld :=
  if o = 0x0 then [Reg.cruStatusState, Reg.cruStatusException, Reg.cruStatusDebug, Reg.cruStatusScrubOk, Reg.cruStatusSeedHeld]
  else if o = 0x4 then [Reg.cruBootMask, Reg.cruBootActive]
  else if o = 0x18 then [Reg.cruStepping]
  else if o = 0x1C then [Reg.cruFuseRsaRevoked, Reg.cruFuseSlhRevoked]
  else if o = 0x30 then [Reg.cruSvnMin]
  else if o = 0x34 then [Reg.cruMeasCount]
  else if o = 0x38 then [Reg.cruLogLost]
  else if o = 0x70 then [Reg.cruScrubStart, Reg.cruScrubBusy]
  else if o = 0x74 then [Reg.cruScrubErr]
  else if o = 0x78 then [Reg.cruSigFail]
  else if o = 0x7C then [Reg.cruAttestOk]
  else if o = 0x80 then [Reg.cruAttestFail]
  else if o = 0x84 then [Reg.cruEntropyFail]
  else if o = 0x88 then [Reg.cruAmendSeq]
  else if o = 0x8C then [Reg.cruSeedParent]
  else if 0x8 ≤ o ∧ o < 0x18 ∧ o % 4 = 0 then [Reg.cruSerial ((o - 0x8) / 4)]
  else if 0x20 ≤ o ∧ o < 0x30 ∧ (o - 0x20) % 4 = 0 then [Reg.cruVersion ((o - 0x20) / 4 + 1)]
  else if 0x40 ≤ o ∧ o < 0x70 ∧ (o - 0x40) % 4 = 0 then [Reg.cruMeas ((o - 0x40) / 4)]
  else []

/-- The fields of the word at offset `o` of the FAB[p] block. -/
def Reg.fabAt (p : Nat) (o : Nat) : List Fld :=
  if o = 0x0 then [Reg.fabCtrlEn p, Reg.fabCtrlMode p, Reg.fabCtrlMinLanes p, Reg.fabCtrlReadmit p, Reg.fabCtrlLoopback p, Reg.fabCtrlRetrain p]
  else if o = 0x4 then [Reg.fabStatusState p, Reg.fabStatusTxWidth p, Reg.fabStatusRxWidth p, Reg.fabStatusTxLanes p, Reg.fabStatusRxLanes p]
  else if o = 0x8 then [Reg.fabLaneMap p]
  else if o = 0xC then [Reg.fabWiringPolarity p, Reg.fabWiringForeign p, Reg.fabWiringNosig p]
  else if o = 0x10 then [Reg.fabPeerDev p, Reg.fabPeerPort p, Reg.fabPeerAddressed p, Reg.fabPeerValid p]
  else if o = 0x14 then [Reg.fabPeerSerialLo p]
  else if o = 0x18 then [Reg.fabPeerSerialHi p]
  else if o = 0x1C then [Reg.fabReplays p]
  else if o = 0x20 then [Reg.fabRetrains p]
  else if o = 0x24 then [Reg.fabDrops p]
  else if o = 0x28 then [Reg.fabReadmits p]
  else if o = 0x2C then [Reg.fabEthDrop p]
  else if o = 0x30 then [Reg.fabEthPause p]
  else if o = 0x240 then [Reg.fabSealState p]
  else if o = 0x244 then [Reg.fabSealFail p]
  else if o = 0x248 then [Reg.fabAudits p]
  else if 0x100 ≤ o ∧ o < 0x180 ∧ (o - 0x100) % 16 = 0 then [Reg.fabLaneCorrSym p ((o - 0x100) / 16)]
  else if 0x104 ≤ o ∧ o < 0x184 ∧ (o - 0x104) % 16 = 0 then [Reg.fabLaneUncorr p ((o - 0x104) / 16)]
  else if 0x108 ≤ o ∧ o < 0x188 ∧ (o - 0x108) % 16 = 0 then [Reg.fabLaneSignal p ((o - 0x108) / 16), Reg.fabLaneLocked p ((o - 0x108) / 16), Reg.fabLaneActive p ((o - 0x108) / 16), Reg.fabLaneMargin p ((o - 0x108) / 16)]
  else if 0x200 ≤ o ∧ o < 0x240 ∧ (o - 0x200) % 16 = 0 then [Reg.fabVcTxCredits p ((o - 0x200) / 16), Reg.fabVcRxUsed p ((o - 0x200) / 16)]
  else if 0x204 ≤ o ∧ o < 0x244 ∧ (o - 0x204) % 16 = 0 then [Reg.fabVcTxPkts p ((o - 0x204) / 16)]
  else if 0x208 ≤ o ∧ o < 0x248 ∧ (o - 0x208) % 16 = 0 then [Reg.fabVcRxPkts p ((o - 0x208) / 16)]
  else []

/-- The fields of the word at offset `o` of the FAB block. -/
def Reg.netAt (o : Nat) : List Fld :=
  if o = 0xC000 then [Reg.netCtrlSeal, Reg.netCtrlW2, Reg.netCtrlW3, Reg.netCtrlTokens]
  else if o = 0xC004 then [Reg.netStatusAddr, Reg.netStatusAssigned, Reg.netStatusState, Reg.netStatusDiameter, Reg.netStatusTreeDepth]
  else if o = 0xC008 then [Reg.netRtIndex]
  else if o = 0xC00C then [Reg.netRtData]
  else if o = 0xC010 then [Reg.netCadParent]
  else if o = 0xC014 then [Reg.netTokensHeld]
  else if o = 0xC018 then [Reg.netStreams]
  else if o = 0xC01C then [Reg.netStale]
  else if o = 0xC020 then [Reg.netNoroute]
  else if o = 0xC024 then [Reg.netHoplimit]
  else if o = 0xC028 then [Reg.netNostream]
  else if o = 0xC02C then [Reg.netBadtype]
  else if o = 0xC030 then [Reg.netAltroute]
  else if o = 0xC034 then [Reg.netBuckets]
  else []

/-- The fields of the word at offset `o` of the BLM block. -/
def Reg.blmAt (o : Nat) : List Fld :=
  if o = 0x0 then [Reg.blmStatusActive, Reg.blmStatusReplay]
  else if o = 0x4 then [Reg.blmVideoBusy]
  else if o = 0x8 then [Reg.blmJpegBusy]
  else if o = 0xC then [Reg.blmEthPort]
  else if o = 0x10 then [Reg.blmSamples]
  else if o = 0x14 then [Reg.blmLate]
  else if o = 0x18 then [Reg.blmSkip]
  else if o = 0x1C then [Reg.blmSkipHdr]
  else if o = 0x20 then [Reg.blmSkipDecode]
  else if o = 0x24 then [Reg.blmSkipAbsent]
  else if o = 0x28 then [Reg.blmNospare]
  else if o = 0x2C then [Reg.blmRereq]
  else if o = 0x30 then [Reg.blmBadframe]
  else if o = 0x34 then [Reg.blmSealFail]
  else if o = 0x38 then [Reg.blmLastSkipStream, Reg.blmLastSkipReason]
  else if o = 0x3C then [Reg.blmLastSkipIndexLo]
  else if o = 0x40 then [Reg.blmLastSkipIndexHi]
  else if o = 0x44 then [Reg.blmCurSel]
  else if o = 0x48 then [Reg.blmCurBaseLo]
  else if o = 0x4C then [Reg.blmCurBaseHi]
  else if o = 0x50 then [Reg.blmCurNextLo]
  else if o = 0x54 then [Reg.blmCurNextHi]
  else if o = 0x58 then [Reg.blmCurBufsHeld, Reg.blmCurBufsSparesReady]
  else if o = 0x5C then [Reg.blmStreams]
  else if o = 0x60 then [Reg.blmCodedLo]
  else if o = 0x64 then [Reg.blmCodedHi]
  else []

/-- The fields of the word at offset `o` of the STH block. -/
def Reg.sthAt (o : Nat) : List Fld :=
  if o = 0x0 then [Reg.sthCfgSlotLog2]
  else if o = 0x4 then [Reg.sthStatusBusy, Reg.sthStatusFetching]
  else if o = 0x8 then [Reg.sthStockBaseLo]
  else if o = 0xC then [Reg.sthStockBaseHi]
  else if o = 0x10 then [Reg.sthStockSlots]
  else if o = 0x14 then [Reg.sthEntries]
  else if o = 0x18 then [Reg.sthHeldHearth]
  else if o = 0x1C then [Reg.sthHeldHbm]
  else if o = 0x20 then [Reg.sthHeldStock]
  else if o = 0x24 then [Reg.sthFallback]
  else if o = 0x28 then [Reg.sthPuts]
  else if o = 0x2C then [Reg.sthFetches]
  else if o = 0x30 then [Reg.sthExhaust]
  else if o = 0x34 then [Reg.sthLastFaultRegion, Reg.sthLastFaultTensor, Reg.sthLastFaultMb]
  else if o = 0x38 then [Reg.sthRawBytesLo]
  else if o = 0x3C then [Reg.sthRawBytesHi]
  else if o = 0x40 then [Reg.sthCodedBytesLo]
  else if o = 0x44 then [Reg.sthCodedBytesHi]
  else []

/-- The fields of the word at offset `o` of the FLX[e] block. -/
def Reg.flxAt (e : Nat) (o : Nat) : List Fld :=
  if o = 0x0 then [Reg.flxStatusBusy e, Reg.flxStatusIngot e]
  else if o = 0x4 then [Reg.flxRawLo e]
  else if o = 0x8 then [Reg.flxRawHi e]
  else if o = 0xC then [Reg.flxCodedLo e]
  else if o = 0x10 then [Reg.flxCodedHi e]
  else if o = 0x14 then [Reg.flxStored e]
  else if o = 0x18 then [Reg.flxNanBlocks e]
  else if o = 0x1C then [Reg.flxSat e]
  else if o = 0x20 then [Reg.flxDecodeErr e]
  else []

/-- The fields of the word at offset `o` of the KVP block. -/
def Reg.kvpAt (o : Nat) : List Fld :=
  if o = 0x0 then [Reg.kvpCtrlEn, Reg.kvpCtrlForm, Reg.kvpCtrlHd]
  else if o = 0x4 then [Reg.kvpStatusBusy, Reg.kvpStatusAuditBusy]
  else if o = 0x8 then [Reg.kvpPoolBaseLo]
  else if o = 0xC then [Reg.kvpPoolBaseHi]
  else if o = 0x10 then [Reg.kvpMetaBaseLo]
  else if o = 0x14 then [Reg.kvpMetaBaseHi]
  else if o = 0x18 then [Reg.kvpPoolPages]
  else if o = 0x1C then [Reg.kvpPageBytes]
  else if o = 0x20 then [Reg.kvpFree]
  else if o = 0x24 then [Reg.kvpData]
  else if o = 0x28 then [Reg.kvpTable]
  else if o = 0x2C then [Reg.kvpRetired]
  else if o = 0x30 then [Reg.kvpEpoch]
  else if o = 0x44 then [Reg.kvpStreams]
  else if o = 0x48 then [Reg.kvpUndoUsed]
  else if o = 0x4C then [Reg.kvpCow]
  else if o = 0x50 then [Reg.kvpAppends]
  else if o = 0x54 then [Reg.kvpExhaust]
  else if o = 0x58 then [Reg.kvpAuditStart, Reg.kvpAuditDone, Reg.kvpAuditPass]
  else if 0x34 ≤ o ∧ o < 0x44 ∧ (o - 0x34) % 4 = 0 then [Reg.kvpPin ((o - 0x34) / 4)]
  else []

/-- The fields of the word at offset `o` of the TMP block. -/
def Reg.tmpAt (o : Nat) : List Fld :=
  if o = 0x0 then [Reg.tmpCtrlPrepass, Reg.tmpCtrlClipEn, Reg.tmpCtrlSkipNonfinite, Reg.tmpCtrlInfTrap]
  else if o = 0x4 then [Reg.tmpStatusPhase, Reg.tmpStatusGroup]
  else if o = 0x8 then [Reg.tmpClipNorm]
  else if o = 0xC then [Reg.tmpGroups]
  else if o = 0x10 then [Reg.tmpGtableLo]
  else if o = 0x14 then [Reg.tmpGtableHi]
  else if o = 0x18 then [Reg.tmpCurvesLo]
  else if o = 0x1C then [Reg.tmpCurvesHi]
  else if o = 0x20 then [Reg.tmpStep]
  else if o = 0x24 then [Reg.tmpLastUpdated]
  else if o = 0x28 then [Reg.tmpSkewStored]
  else if o = 0x2C then [Reg.tmpSkewCadence]
  else if o = 0x30 then [Reg.tmpSkewCount]
  else if o = 0x34 then [Reg.tmpSkipped]
  else if o = 0x38 then [Reg.tmpClipped]
  else if o = 0x3C then [Reg.tmpLastNorm]
  else if o = 0x40 then [Reg.tmpSingular]
  else if o = 0x44 then [Reg.tmpStockCe]
  else if o = 0x48 then [Reg.tmpStockUe]
  else if o = 0x4C then [Reg.tmpStockLastUeLo]
  else if o = 0x50 then [Reg.tmpStockLastUeHi]
  else if o = 0x54 then [Reg.tmpStockTempC]
  else if o = 0x58 then [Reg.tmpTrapStatusValid, Reg.tmpTrapStatusCause, Reg.tmpTrapStatusEngine]
  else if o = 0x5C then [Reg.tmpTrapGroup]
  else if o = 0x60 then [Reg.tmpTrapIndexLo]
  else if o = 0x64 then [Reg.tmpTrapIndexHi]
  else if o = 0x68 then [Reg.tmpTrapAngleLo]
  else if o = 0x6C then [Reg.tmpTrapAngleHi]
  else if o = 0x70 then [Reg.tmpTrapCount]
  else if o = 0x74 then [Reg.tmpUpdCycles]
  else if o = 0x78 then [Reg.tmpPushBytesLo]
  else if o = 0x7C then [Reg.tmpPushBytesHi]
  else []

/-- The fields of the word at offset `o` of the ING block. -/
def Reg.ingAt (o : Nat) : List Fld :=
  if o = 0x0 then [Reg.ingStatusPhase, Reg.ingStatusBays]
  else if o = 0x4 then [Reg.ingGenLo]
  else if o = 0x8 then [Reg.ingGenHi]
  else if o = 0xC then [Reg.ingLastStep]
  else if o = 0x10 then [Reg.ingLastGenLo]
  else if o = 0x14 then [Reg.ingLastGenHi]
  else if o = 0x18 then [Reg.ingKeepGenLo]
  else if o = 0x1C then [Reg.ingKeepGenHi]
  else if o = 0x20 then [Reg.ingGensOk]
  else if o = 0x24 then [Reg.ingGensFailed]
  else if o = 0x28 then [Reg.ingLifeRefused]
  else if o = 0x2C then [Reg.ingFallback]
  else if o = 0x30 then [Reg.ingBytesLo]
  else if o = 0x34 then [Reg.ingBytesHi]
  else if o = 0x38 then [Reg.ingRestores]
  else if o = 0x3C then [Reg.ingLastWriteMs]
  else if o = 0x40 then [Reg.ingCapturesLost]
  else if 0x100 ≤ o ∧ o < 0x300 ∧ o % 0x100 = 0x0 then [Reg.ingBayCtrlEject ((o - 0x100) / 0x100), Reg.ingBayCtrlWipe ((o - 0x100) / 0x100)]
  else if 0x100 ≤ o ∧ o < 0x300 ∧ o % 0x100 = 0x4 then [Reg.ingBayStateCode ((o - 0x100) / 0x100), Reg.ingBayStateLifeLow ((o - 0x100) / 0x100), Reg.ingBayStateLifeBad ((o - 0x100) / 0x100)]
  else if 0x100 ≤ o ∧ o < 0x300 ∧ o % 0x100 = 0x8 then [Reg.ingBayLinkWidth ((o - 0x100) / 0x100), Reg.ingBayLinkSpeed ((o - 0x100) / 0x100)]
  else if 0x100 ≤ o ∧ o < 0x300 ∧ o % 0x100 = 0xC then [Reg.ingBayWrittenLo ((o - 0x100) / 0x100)]
  else if 0x100 ≤ o ∧ o < 0x300 ∧ o % 0x100 = 0x10 then [Reg.ingBayWrittenHi ((o - 0x100) / 0x100)]
  else if 0x100 ≤ o ∧ o < 0x300 ∧ o % 0x100 = 0x14 then [Reg.ingBayRatedLo ((o - 0x100) / 0x100)]
  else if 0x100 ≤ o ∧ o < 0x300 ∧ o % 0x100 = 0x18 then [Reg.ingBayRatedHi ((o - 0x100) / 0x100)]
  else if 0x100 ≤ o ∧ o < 0x300 ∧ o % 0x100 = 0x1C then [Reg.ingBayZonesRing ((o - 0x100) / 0x100), Reg.ingBayZonesFree ((o - 0x100) / 0x100)]
  else if 0x100 ≤ o ∧ o < 0x300 ∧ o % 0x100 = 0x20 then [Reg.ingBayZoneCap ((o - 0x100) / 0x100)]
  else if 0x100 ≤ o ∧ o < 0x300 ∧ o % 0x100 = 0x24 then [Reg.ingBayCmdErr ((o - 0x100) / 0x100)]
  else if 0x100 ≤ o ∧ o < 0x300 ∧ o % 0x100 = 0x28 then [Reg.ingBayReadErr ((o - 0x100) / 0x100)]
  else if 0x100 ≤ o ∧ o < 0x300 ∧ o % 0x100 = 0x2C then [Reg.ingBayTagFail ((o - 0x100) / 0x100)]
  else if 0x100 ≤ o ∧ o < 0x300 ∧ o % 0x100 = 0x30 then [Reg.ingBayInserts ((o - 0x100) / 0x100)]
  else []

/-- The fields of the word at offset `o` of the HBM[s] block. -/
def Reg.hbmAt (s : Nat) (o : Nat) : List Fld :=
  if o = 0x0 then [Reg.hbmStateMode s, Reg.hbmStateTrained s, Reg.hbmStateTempC s]
  else if o = 0x4 then [Reg.hbmCeCount s]
  else if o = 0x8 then [Reg.hbmUeCount s]
  else if o = 0xC then [Reg.hbmPoisonCount s]
  else if o = 0x10 then [Reg.hbmLastUeLo s]
  else if o = 0x14 then [Reg.hbmLastUeHi s]
  else if o = 0x18 then [Reg.hbmPatrolEn s, Reg.hbmPatrolPeriodH s]
  else if o = 0x1C then [Reg.hbmPatrolPos s]
  else []

/-- The fields of the word at offset `o` of the CORE[n] block. -/
def Reg.coreAt (n : Nat) (o : Nat) : List Fld :=
  if o = 0x0 then [Reg.coreStatusState n, Reg.coreStatusArrayBusy n, Reg.coreStatusWaiting n]
  else if o = 0x4 then [Reg.coreCtxGang n, Reg.coreCtxStage n]
  else if o = 0x8 then [Reg.coreIssues n]
  else if o = 0xC then [Reg.coreZeroshape n]
  else if o = 0x10 then [Reg.coreRefuseReason n, Reg.coreRefuseValid n]
  else if o = 0x14 then [Reg.coreRefuseOpid n]
  else if o = 0x18 then [Reg.coreRefuseNeed n]
  else if o = 0x1C then [Reg.coreRefuseHave n]
  else if o = 0x20 then [Reg.coreSlotState n]
  else if o = 0x24 then [Reg.coreAccLedgerHeld n]
  else if o = 0x28 then [Reg.coreObLedgerHeld n]
  else if o = 0x2C then [Reg.coreStall n]
  else if o = 0x30 then [Reg.coreBusyCyclesLo n]
  else if o = 0x34 then [Reg.coreBusyCyclesHi n]
  else if o = 0x200 then [Reg.coreTrapStatusValid n, Reg.coreTrapStatusSrc n, Reg.coreTrapStatusCause n, Reg.coreTrapStatusRz n, Reg.coreTrapStatusSpecial n, Reg.coreTrapStatusCore n]
  else if o = 0x204 then [Reg.coreTrapOpid n]
  else if o = 0x208 then [Reg.coreTrapOwnerGang n, Reg.coreTrapOwnerStage n]
  else if o = 0x20C then [Reg.coreTrapTileMt n, Reg.coreTrapTileNt n]
  else if o = 0x210 then [Reg.coreTrapElemRow n, Reg.coreTrapElemCol n, Reg.coreTrapElemKblk n]
  else if o = 0x214 then [Reg.coreTrapAngleLo n]
  else if o = 0x218 then [Reg.coreTrapAngleHi n]
  else if o = 0x21C then [Reg.coreNanCount n]
  else if o = 0x220 then [Reg.coreNumctrlNanAction n, Reg.coreNumctrlInfTrap n]
  else if o = 0x300 then [Reg.coreVstatusBusy n, Reg.coreVstatusWaiting n, Reg.coreVstatusDwconv n]
  else if o = 0x304 then [Reg.coreVcmds n]
  else if o = 0x308 then [Reg.coreVbusyCyclesLo n]
  else if o = 0x30C then [Reg.coreVbusyCyclesHi n]
  else if o = 0x310 then [Reg.coreVstall n]
  else if o = 0x314 then [Reg.coreTwCount n]
  else if o = 0x400 then [Reg.coreSwgStatusBusy n, Reg.coreSwgStatusWaitHalo n, Reg.coreSwgStatusStallCredit n, Reg.coreSwgStatusSet n]
  else if o = 0x404 then [Reg.coreHaloWait n]
  else if o = 0x408 then [Reg.coreHaloStall n]
  else if o = 0x40C then [Reg.coreHaloSent n]
  else if o = 0x410 then [Reg.coreHaloTagerr n]
  else if o = 0x414 then [Reg.coreHaloCreditUp n, Reg.coreHaloCreditDn n]
  else if o = 0x418 then [Reg.coreHaloFullUp n, Reg.coreHaloFullDn n]
  else if o = 0x41C then [Reg.coreLbBytes n]
  else if o = 0x420 then [Reg.coreHoRx n]
  else if o = 0x424 then [Reg.coreHoStale n]
  else if o = 0x428 then [Reg.coreHoTagerr n]
  else if o = 0x42C then [Reg.coreHoLedgerCredits n, Reg.coreHoLedgerFull n]
  else if o = 0x500 then [Reg.coreAttBlocks n]
  else if o = 0x504 then [Reg.coreAttSkipped n]
  else if o = 0x508 then [Reg.coreAttEmpty n]
  else if o = 0x50C then [Reg.coreAttCmds n]
  else if 0x40 ≤ o ∧ o < 0x78 ∧ (o - 0x40) % 8 = 0 then [Reg.coreShapeM n ((o - 0x40) / 8 + 1), Reg.coreShapeN n ((o - 0x40) / 8 + 1)]
  else if 0x44 ≤ o ∧ o < 0x7C ∧ (o - 0x44) % 8 = 0 then [Reg.coreShapeK n ((o - 0x44) / 8 + 1)]
  else if 0x80 ≤ o ∧ o < 0xC0 ∧ (o - 0x80) % 4 = 0 then [Reg.coreNextK n ((o - 0x80) / 4)]
  else []

/-- The fields of the word at a byte address of the control register space, by Table 20-1 (R512): none at a
hole, and none at an address that is no multiple of 4. The Strike table (Table 2-3) is the device's table of
entries and stands apart (see `strikeAddr`). -/
def fieldsAt (a : Nat) : List Fld :=
  if a < 0xC0 then Reg.idAt a
  else if 0x10000 ≤ a ∧ a < 0x10028 then Reg.rstAt (a - 0x10000)
  else if 0x10800 ≤ a ∧ a < 0x10880 then Reg.clkAt (a - 0x10800)
  else if 0x20000 ≤ a ∧ a < 0x2C000 then Reg.fltAt (a - 0x20000)
  else if 0x30000 ≤ a ∧ a < 0x3005C then Reg.cadAt (a - 0x30000)
  else if 0x40000 ≤ a ∧ a < 0x4003C then Reg.mbxAt (a - 0x40000)
  else if 0x50000 ≤ a ∧ a < 0x50140 then Reg.jnlAt (a - 0x50000)
  else if 0x60000 ≤ a ∧ a < 0x60090 then Reg.cruAt (a - 0x60000)
  else if 0x100000 ≤ a ∧ a < 0x10C000 then Reg.fabAt ((a - 0x100000) / 0x1000) ((a - 0x100000) % 0x1000)
  else if 0x10C000 ≤ a ∧ a < 0x10C038 then Reg.netAt (a - 0x100000)
  else if 0x200000 ≤ a ∧ a < 0x200068 then Reg.blmAt (a - 0x200000)
  else if 0x300000 ≤ a ∧ a < 0x300048 then Reg.sthAt (a - 0x300000)
  else if 0x310000 ≤ a ∧ a < 0x310400 then Reg.flxAt ((a - 0x310000) / 0x40) ((a - 0x310000) % 0x40)
  else if 0x400000 ≤ a ∧ a < 0x40005C then Reg.kvpAt (a - 0x400000)
  else if 0x500000 ≤ a ∧ a < 0x500080 then Reg.tmpAt (a - 0x500000)
  else if 0x600000 ≤ a ∧ a < 0x600234 then Reg.ingAt (a - 0x600000)
  else if 0x700000 ≤ a ∧ a < 0x708000 then Reg.hbmAt ((a - 0x700000) / 0x1000) ((a - 0x700000) % 0x1000)
  else if 0x1000000 ≤ a ∧ a < 0x1C00000 then Reg.coreAt ((a - 0x1000000) / 0x10000) ((a - 0x1000000) % 0x10000)
  else []

/-- A word of the Strike table: 0x0003_8000 + 8 × i for entry i, low word first (R55). -/
def strikeAddr (a : Nat) : Bool := 0x38000 ≤ a && a < 0x40000 && a % 4 == 0

end Sys2Proof.Machine
end

