-- ==== Sys2Proof/Machine/State.lean ====
section
/-!
DEFINITION. Machine/State.lean: the state of one TRZ-2080: every register field (in `regs`), every memory, every
queue, table and mode that the spec gives the device, and the queue of the commands that wait. Plain data. -/

namespace Sys2Proof.Machine

/-! ## Faults (chapter 17) -/

/-- A fault message (Table 17-1). -/
structure FaultMsg where
  addr : Nat
  kind : Nat
  cls : Nat
  source : Nat
  forced : Bool
  angle : Nat
  attempt : Nat
  deriving DecidableEq, Repr

/-- Word 0 of a fault message (Table 17-1). -/
def FaultMsg.word0 (m : FaultMsg) : Nat :=
  m.addr % 2 ^ 40 + m.kind % 256 * 2 ^ 40 + m.cls % 4 * 2 ^ 48 + m.source % 4096 * 2 ^ 50 + b2n m.forced * 2 ^ 62

/-- Word 1 of a fault message: the angle in [47:0] and the ATTEMPT in [63:48] (R454). -/
def FaultMsg.word1 (m : FaultMsg) : Nat := m.angle % 2 ^ 48 + m.attempt % 65536 * 2 ^ 48

/-! ## The Cadence (chapter 02) -/

/-- CAD.STATUS.ROLE (Table 2-8). -/
inductive Role where
  | idle | follower | master | electing
  deriving DecidableEq, Repr

/-- The code of a role in CAD.STATUS.ROLE. -/
def Role.code : Role → Nat
  | .idle => 0
  | .follower => 1
  | .master => 2
  | .electing => 3

/-- A hold the device itself has standing (R58): the gate's angle, the ATTEMPT it was sent with, its reason
(Table 2-9), the Strike entry it evaluates where there is one, and whether it stands for a rollback (R64 step 5). -/
structure OwnHold where
  angle : Nat
  attempt : Nat
  reason : Nat
  entry : Option Nat
  rollback : Bool
  deriving DecidableEq, Repr

/-- A hold standing at the master (R59). -/
structure MHold where
  dev : Nat
  angle : Nat
  attempt : Nat
  reason : Nat
  rollback : Bool
  deriving DecidableEq, Repr

/-- The Cadence unit of a device: its own view, its view as master, its election and its CAD_IN checker. -/
structure Cad where
  role : Role
  /-- the angle the device has taken (R39) -/
  angle : Nat
  /-- SEQ of the last beat received (R50) -/
  seq : Nat
  attempt : Nat
  master : Nat
  /-- a job's entries fire and its gates are evaluated -/
  active : Bool
  /-- the next beat is that of a start angle (R58) -/
  start : Bool
  /-- the step whose COMMIT stroke the device has passed (R65) -/
  committed : Option Nat
  /-- the angle of the last beat fired; `ran` tells whether a job has run at all (R454) -/
  lastFired : Nat
  ran : Bool
  /-- strokes whose entries have fired, as the angle of the last gate passed (Table 2-8) -/
  lastGate : Nat
  lastHolder : Nat
  own : List OwnHold
  raised : Nat
  released : Nat
  cancelled : Nat
  /-- a hold with reason ABORT or TMP that waits for its gate (Table 2-5, R65) -/
  want : Option Nat
  /-- a HALT taken and not yet stopped, with the slot of its command (R442) -/
  haltPending : Bool
  /-- the device has rejoined after a core reset and fires nothing before this angle (R385, R534) -/
  resume : Option Nat
  /-- the RESET hold of R534 is still to be sent -/
  resetHold : Bool
  /-- the device's own rollback is still in progress (R64 step 5) -/
  rolling : Bool
  /-- the master's view -/
  mOn : Bool
  mAngle : Nat
  mSeq : Nat
  mAttempt : Nat
  mCommitted : Option Nat
  mHolds : List MHold
  mRaised : Nat
  mReleased : Nat
  mCancelled : Nat
  mRolling : Bool
  /-- the master turns by CAD_IN (R51), not by its own period -/
  mExternal : Bool
  /-- CAD_IN is lost with FALLBACK 0, and the angle stands until the operator acts (R53) -/
  mStand : Bool
  /-- the level of CAD_OUT between its pulses (R54) -/
  outLevel : Bool
  /-- the election (R43): kept CANDIDATE messages, the candidate confirmed, the devices that confirmed this one,
  masters lost since the last RUN or restore, the angle at which the job starts, and whether it follows a loss -/
  cands : List Nat
  chosen : Option Nat
  confirms : List Nat
  lost : List Nat
  startAngle : Nat
  afterLoss : Bool
  /-- the first beat of the run has been taken: beats are counted by SEQ from it (R50) -/
  joined : Bool
  /-- the cause and the angle of the last stop, while the job stands stopped (R440, R533) -/
  stopped : Option (Nat × Nat)
  /-- the CAD_IN checker (R52): consecutive valid edges, and IN_LOCK -/
  inRun : Nat
  inLock : Bool
  /-- the Strike table's valid entries (R55) and the job's COMMIT stroke (R56) -/
  strike : List Strike
  commitStroke : Nat
  deriving DecidableEq, Repr

/-- The Cadence unit after reset: every field of Table 2-8 at its reset value. -/
def Cad.init : Cad :=
  { role := .idle, angle := 0, seq := 0, attempt := 0, master := 0, active := false, start := false,
    committed := none, lastFired := 0, ran := false, lastGate := 0, lastHolder := 0, own := [], raised := 0,
    released := 0, cancelled := 0, want := none, haltPending := false, resume := none, resetHold := false,
    rolling := false, mOn := false, mAngle := 0, mSeq := 0, mAttempt := 0, mCommitted := none, mHolds := [],
    mRaised := 0, mReleased := 0, mCancelled := 0, mRolling := false, mExternal := false, mStand := false, outLevel := false, cands := [],
    chosen := none, confirms := [], lost := [], startAngle := 0, afterLoss := false, joined := false, stopped := none, inRun := 0, inLock := false,
    strike := [], commitStroke := 0 }

/-! ## The cores (chapters 03 to 08) -/

/-- CORE.STATUS.STATE (Table 4-10). -/
inductive CoreRun where
  | idle | running | refused | aborted
  deriving DecidableEq, Repr

/-- The code of CORE.STATUS.STATE. -/
def CoreRun.code : CoreRun → Nat
  | .idle => 0
  | .running => 1
  | .refused => 2
  | .aborted => 3

/-- The states of an accumulator slot (Table 4-7). -/
inductive SlotSt where
  | free | busy | drain | kept
  deriving DecidableEq, Repr

/-- The code of a slot state in CORE.SLOT_STATE (Table 4-10). -/
def SlotSt.code : SlotSt → Nat
  | .free => 0
  | .busy => 1
  | .drain => 2
  | .kept => 3

/-- The tag of a halo row (R188). -/
structure HaloTag where
  stripe : Nat
  row : Nat
  seq : Nat
  mb : Nat
  attempt : Nat
  deriving DecidableEq, Repr

/-- The progress of one Swage set in its segment (R189, R190): output rows presented, rows landed from the stripe above and
below, and the map rows that its line buffer holds (R185), as differences from row 0. -/
structure SwgRun where
  presented : Nat
  landedUp : Nat
  landedDn : Nat
  held : List Int
  deriving DecidableEq, Repr

/-- An edge row to send: its segment, the direction (true: to the stripe above), the set that will read it, its tag, the
Hearth range that its send reads (R191) and its bytes. -/
structure EdgeRow where
  segment : Nat
  up : Bool
  set : Nat
  tag : HaloTag
  src : Nat × Nat
  data : List Byte
  deriving DecidableEq, Repr

/-- A segment of a core's program that has started (R142): its index, the descriptors and microbatches whose
STAGE_START entries started it, how many of its commands there are, are dispatched and are complete, how many of them are
issues and how many issues are complete (R116), and the Swage table with each set's progress (R185, R189). -/
structure SegRun where
  segment : Nat
  descs : List (Nat × Nat)
  total : Nat
  disp : Nat
  done : Nat
  itotal : Nat
  idone : Nat
  swage : List SwageSet
  sets : List SwgRun
  /-- halo credits held for the stripe above and below, and edge rows whose send waits for one (R189, R191) -/
  creditUp : Nat
  creditDn : Nat
  stalled : List EdgeRow
  /-- the full halo slots of each direction in arrival order: the slot, and the set and row that it holds, none for a row
  refused by its tag, which stays in its slot unread (R190) -/
  slotsUp : List (Nat × Option (Nat × Nat))
  slotsDn : List (Nat × Option (Nat × Nat))
  deriving DecidableEq, Repr

/-- An accepted issue: its descriptor words, the run-time shape read at its check (R105), the two slag vectors
that the check read (R138), and the segment it belongs to. -/
structure Issue where
  words : List Nat
  m : Nat
  n : Nat
  k : Nat
  slagRow : List Byte
  slagCol : List Byte
  segment : Nat
  deriving DecidableEq, Repr

/-- An issue whose results are being drained: the slots still to drain, each with its row block and N tile, and
whether the operation has already raised its fault (R95). -/
structure Drain where
  issue : Issue
  slots : List (Nat × Nat × Nat)
  faulted : Bool
  deriving DecidableEq, Repr

/-- An attention command in progress (R196, R216): its OPID, the slots and operand-buffer bytes it holds, the epoch
it pins, its segment, and the cycles it takes (R207). -/
structure AttnRun where
  opid : Nat
  slots : List Nat
  obBase : Nat
  obBytes : Nat
  epoch : Option Nat
  segment : Nat
  /-- cycles in all, and the array's cycles of its computed blocks -/
  cycles : Nat
  array : Nat
  /-- the Hearth ranges that it reads and writes (R141) -/
  reads : List (Nat × Nat)
  writes : List (Nat × Nat)
  deriving DecidableEq, Repr

/-- A transfer command of a core's transfer engine, dispatched and not complete (R245): its fields, its segment, and
the microbatch it carries. -/
structure Xfer where
  opid : Nat
  op : Nat
  mode : Nat
  srcFmt : Nat
  dir : Nat
  haddr : Nat
  len : Nat
  far : Nat
  result : Nat
  channel : Nat
  chunk : Nat
  region : Nat
  tensor : Nat
  mb : Nat
  segment : Nat
  deriving DecidableEq, Repr

/-- One Anvil core (R100). -/
structure Core where
  run : CoreRun
  segs : List SegRun
  /-- the segment of the program whose commands the sequencer dispatches next (R142) -/
  curSeg : Nat
  /-- STAGE_START entries that have fired for a segment that has not yet started: descriptor and microbatch -/
  fired : List (Nat × Nat)
  waiting : Option (List Nat)
  queue : List Issue
  drains : List Drain
  slotSt : List (Nat × SlotSt)
  nextK : List (Nat × Nat)
  /-- accumulator memory: binary32 code of slot × 16,384 + row × 128 + column -/
  acc : List (Nat × Nat)
  accHeld : Nat
  obHeld : Nat
  /-- tile registers: byte 4,096 × T + b -/
  tiles : Memory
  attn : Option AttnRun
  dwconv : Option (List Nat)
  walk : Option (List Nat)
  /-- the Hearth ranges that the running term-walk reads (R141, R167) -/
  walkReads : List (Nat × Nat)
  /-- the next vector command waits on a Hearth range (VSTATUS.WAITING) -/
  vecWait : Bool
  /-- the segment of the depth-wise or term-walk command that runs -/
  vecSeg : Nat
  /-- the operand buffer (R100), the array's weight tile, the two buffers of each Tongs half (R123) and the line buffers
  (R185), as the last issues and windows left them (notes/assumptions/138) -/
  opBuf : Memory
  weights : Memory
  tongsA : Memory
  tongsB : Memory
  lineBuf : Memory
  /-- transfers dispatched and not complete, oldest first (R141, R245) -/
  xfers : List Xfer
  deriving DecidableEq, Repr

/-- A core after reset (R118, R121, R146). -/
def Core.init : Core :=
  { run := .idle, segs := [], curSeg := 0, fired := [], waiting := none, queue := [], drains := [], slotSt := [],
    nextK := [], acc := [], accHeld := 0, obHeld := 0, tiles := .empty, attn := none, dwconv := none, walk := none, walkReads := [],
    vecWait := false, vecSeg := 0, opBuf := .empty, weights := .empty, tongsA := .empty, tongsB := .empty
    lineBuf := .empty, xfers := [] }

/-! ## The key-value store (chapter 08) -/

/-- A KV stream entry (Table 8-7). -/
structure KvStream where
  serving : Bool
  layers : Nat
  groups : Nat
  maxp : Nat
  length : Nat
  l1 : Nat
  owner : Nat
  deriving DecidableEq, Repr

/-- The kinds of a page (R212). -/
inductive PageKind where
  | free | data | table | retired
  deriving DecidableEq, Repr

/-- The metadata of a page (R212), and whether the page was retired in a step that has not passed COMMIT (R216). -/
structure KvPage where
  kind : PageKind
  count : Nat
  epoch : Nat
  uncommitted : Bool
  deriving DecidableEq, Repr

/-- A free page. -/
def KvPage.none : KvPage := { kind := .free, count := 0, epoch := 0, uncommitted := false }

/-- A record of the undo log (R218): the old value of a stream entry, of a table entry (by its HBM address) or of a
page's metadata. -/
inductive KvUndo where
  | stream (id : Nat) (old : Option KvStream)
  | entry (addr : Nat) (old : Nat)
  | page (id : Nat) (old : KvPage)
  deriving DecidableEq, Repr

/-- The KV page manager: its stream entries, page metadata, epoch, the epoch of each pin, and the undo log, newest
record first. -/
structure Kvp where
  streams : List (Nat × KvStream)
  pages : List (Nat × KvPage)
  epoch : Nat
  /-- a page has been retired in the current epoch (R216) -/
  used : Bool
  pins : List Nat
  undo : List KvUndo
  deriving DecidableEq, Repr

/-- The KVP after reset (R222). -/
def Kvp.init : Kvp := { streams := [], pages := [], epoch := 0, used := false, pins := [], undo := [] }

/-! ## The stash, the hand-over channels and the buckets (chapters 07, 09 and 12) -/

/-- A stash entry (R226, R227): its tier (0 Hearth, 1 HBM4, 2 Stock), its slots in chain order and its coded length,
and whether it has landed. -/
structure StashEntry where
  region : Nat
  mb : Nat
  tensor : Nat
  tier : Nat
  slots : List Nat
  coded : Nat
  landed : Bool
  deriving DecidableEq, Repr

/-- A spill window (R231): opened, and closed once its SPILL_CLOSE has fired. -/
structure Spill where
  region : Nat
  mb : Nat
  closed : Bool
  deriving DecidableEq, Repr

/-- A fetch that has started in the step (R233): whether every tensor has landed, and whether its buffer has been released
(R234). -/
structure FetchRun where
  region : Nat
  mb : Nat
  landed : Bool
  released : Bool
  deriving DecidableEq, Repr

/-- A hand-over channel at this device (R178, R181): the producer's credits and chunks sent in the step; the
consumer's chunks landed, its full slots (slot, microbatch, chunk) and the slots that hold a chunk of a wrong tag (R179). Where
both ends are here, `transit` and `flying` are the chunks and the credits on their way; else `transit` is the credits that the
producer here has spent and not had back, and `flying` those that the consumer here has sent back. -/
structure Hand where
  credits : Nat
  sent : Nat
  transit : Nat
  landed : Nat
  full : List (Nat × Nat × Nat)
  bad : Nat
  flying : Nat
  deriving DecidableEq, Repr

/-- A captured range (R388): its list entry, the angle of completion and the bytes. -/
structure Capture where
  entry : CapEntry
  angle : Nat
  data : List Byte
  deriving DecidableEq, Repr

/-! ## The fabric (chapters 11 and 12) -/

/-- A frame of a port's replay buffer (R287): its SEQ, its KIND, and its packet with the offset in it of the frame's first byte; of
a DEGRADE frame, `part` is the receive lanes that it names. -/
structure TxFrame where
  seq : Nat
  kind : Nat
  packet : Option Packet
  part : Nat
  deriving DecidableEq, Repr

/-- A fabric port: what its registers do not show. Credits and counts are listed by virtual channel, the reserved
credits by hop class within it (R303 to R307). -/
structure Port where
  /-- nothing has run since reset or since the port went down: the next up starts afresh -/
  fresh : Bool
  /-- the packet layer treats the port as down for the job (Table 11-7, peer change) -/
  jobDown : Bool
  /-- a power-on or system reset, or a peer change, asks for a new sealing (R311) -/
  reseal : Bool
  txSeq : Nat
  replay : List TxFrame
  rxSeq : Nat
  discarding : Bool
  fails : Nat
  rxFrames : Nat
  shared : List Nat
  classes : List (List Nat)
  spent : List Nat
  got : List Nat
  rcvd : List Nat
  freed : List Nat
  /-- credits spent since the last audit that passed: SEQ of the packet's last frame, channel and credits -/
  spentAt : List (Nat × Nat × Nat)
  /-- frames sent since the last scheduled IDLE, and the SEQ of the last DATA frame (R285) -/
  sinceIdle : Nat
  lastData : Nat
  /-- DEGRADE frames go out in place of every other until an ACK covers one of them (R293) -/
  tell : Bool
  /-- a packet of which only the bytes before the offset have been sent, as the replay buffer was full (R287) -/
  sending : Option (Packet × Nat)
  /-- lanes that have passed readmission and join once the DEGRADE exchange of a drop is over, with their margins (Table 11-7) -/
  readmit : List (Nat × Nat)
  /-- packets in the receive buffer that wait to be forwarded (R306) -/
  transit : List RxPacket
  /-- packets that are ready and not yet sent, in the order they became ready (R305) -/
  ready : List Packet
  /-- packets of VC2 and VC3 sent in the running round of the round robin -/
  round2 : Nat
  round3 : Nat
  /-- the link keys: both ends' random bytes; the sealing counter, and the last NONCE accepted (R310) -/
  myRandom : Option Nat
  peerRandom : Option Nat
  /-- AES-256 key and SALT of each direction (R310) -/
  txKey : List Byte
  rxKey : List Byte
  txNonce : Nat
  rxNonce : Option Nat
  /-- the attestation of the link's peer (R414): the nonce of this end's REQ, the peer's report once accepted, the
  peer's nonce, and whether the peer has accepted this device -/
  attNonce : Option Nat
  attReport : Option Report
  peerNonce : Option Nat
  peerDone : Bool
  /-- this end's last REPORT showed SEED_HELD, and SEED has followed it (R415) -/
  saidSeed : Bool
  sentSeed : Bool
  deriving DecidableEq, Repr

/-- The shared credits of Table 12-3. -/
def sharedCredits : List Nat := [52, 68, 724, 724]

/-- The reserved credits of one hop class (Table 12-3). -/
def classCredits : List Nat := [1, 5, 17, 17]

/-- A port after reset (R299, R334). -/
def Port.init : Port :=
  { fresh := true, jobDown := false, reseal := true, txSeq := 0, replay := [], rxSeq := 0, discarding := false, fails := 0
    rxFrames := 0, shared := [0, 0, 0, 0], classes := [[], [], [], []], spent := [0, 0, 0, 0]
    got := [0, 0, 0, 0], rcvd := [0, 0, 0, 0], freed := [0, 0, 0, 0], spentAt := [], sinceIdle := 0, lastData := 0, tell := false, sending := none
    readmit := [], transit := [], ready := []
    round2 := 0, round3 := 0, myRandom := none, peerRandom := none, txKey := [], rxKey := [], txNonce := 0, rxNonce := none
    attNonce := none, attReport := none, peerNonce := none, peerDone := false, saidSeed := false, sentSeed := false }

/-- A member's part in a collective all-reduce (R326): its own vector and flag mask, its children's, by child position,
and whether it has sent its combined vector up. -/
structure AllReduce where
  group : Nat
  own : Option (List Nat × Nat)
  kids : List (Nat × List Nat × Nat)
  sent : Bool
  result : Option (List Nat × Nat)
  deriving DecidableEq, Repr

/-- Bucket data that a child has landed in STAGE (R330): segment, child position, byte offset, and its codes. -/
structure StageChunk where
  seg : Nat
  child : Nat
  off : Nat
  data : List Byte
  deriving DecidableEq, Repr

/-- A bucket of the step (R328 to R331): its launch entry has fired, it has launched and holds a token, the data in STAGE, the offsets combined so far (segment and offset), and whether it is complete. -/
structure BucketRun where
  fired : Bool
  launched : Bool
  stage : List StageChunk
  combined : List (Nat × Nat)
  complete : Bool
  deriving DecidableEq, Repr

/-- A bucket at the start of a step. -/
def BucketRun.init : BucketRun :=
  { fired := false, launched := false, stage := [], combined := [], complete := false }

/-- The packet layer (chapter 12): the discovery records held, those received sealed (R316), the record's own VERSION,
the route table (Table 12-4), the children in the Cadence tree (R320, R321), the all-reduces, the buckets, and the
buckets whose launch waits for a token, in the order they asked (R329). -/
structure Net where
  records : List LinkRec
  sealedRecs : List LinkRec
  version : Nat
  routes : List (Nat × Nat)
  children : List Nat
  allReduce : List AllReduce
  buckets : List (Nat × BucketRun)
  tokenWait : List Nat
  /-- the bytes received for the stream entries, by stream ID (R322) -/
  received : List (Nat × Nat)
  deriving DecidableEq, Repr

/-- The packet layer after reset (R332). -/
def Net.init : Net :=
  { records := [], sealedRecs := [], version := 0, routes := [], children := [], allReduce := [], buckets := [], tokenWait := [], received := [] }

/-! ## Temper (chapter 10) -/

/-- Temper's step in progress: the step whose first UPDATE entry has fired (R261), whether the norm is known (R266),
clipf, whether the step is skipped (R267), the update ranges fired and not finished, in order, and those finished, an
update fault (R277), and the push ranges fired and finished (R274). -/
structure Tmp where
  step : Option Nat
  ready : Bool
  clipf : Nat
  skip : Bool
  ranges : List Nat
  done : List Nat
  failed : Bool
  pushes : List Nat
  pushed : List Nat
  /-- the work buffer and the solver's matrix storage (R250), as the last tiles and blocks left them (notes/assumptions/153) -/
  work : Memory
  solver : Memory
  deriving DecidableEq, Repr

/-- Temper with no step in progress. -/
def Tmp.init : Tmp :=
  { step := none, ready := false, clipf := 0, skip := false, ranges := [], done := [], failed := false, pushes := []
    pushed := [], work := .empty, solver := .empty }

/-- The record of a step that begins: the buffers stay. -/
def Tmp.begin (t : Tmp) (step : Nat) : Tmp := { Tmp.init with step := some step, work := t.work, solver := t.solver }

/-! ## Bloom (chapter 13) -/

/-- A sample outstanding: given, perhaps requested, landing or decoding. `bytes` are the coded bytes so far, `engine` the
decoder that works on it, `tries` its re-requests (R345). -/
structure Sample where
  index : Nat
  requested : Bool
  bytes : List Byte
  total : Option Nat
  engine : Option Nat
  tries : Nat
  deriving DecidableEq, Repr

/-- A slot of a microbatch's buffer: the index it is to hold, whether it is filled, filled since before the step began
(R357), skipped with its reason (R354), or waiting for a spare (R353). -/
structure Fill where
  step : Nat
  mb : Nat
  slot : Nat
  index : Nat
  done : Bool
  early : Bool
  skipped : Option Nat
  spare : Option Nat
  deriving DecidableEq, Repr

/-- A spare (R338): its index, the spare slot it occupies once one is free, whether it is decoded, and whether a slot
waits for it. -/
structure Spare where
  index : Nat
  place : Option Nat
  done : Bool
  taken : Bool
  deriving DecidableEq, Repr

/-- A Bloom stream of the table: its cursor and committed copy, its slots in order of step, microbatch and slot, its
spares in order of entry, its outstanding samples, and the microbatches whose buffers the stage holds. -/
structure BStream where
  cursor : Cursor
  committed : Cursor
  fills : List Fill
  spares : List Spare
  samples : List Sample
  held : List (Nat × Nat)
  deriving DecidableEq, Repr

/-- A feeder link (R343, R344): the device's HELLO has been sent, with its 8 random bytes, the shared secret, the keys with their
SALTs once they are derived, and its counters. -/
structure FeederLink where
  hello : Bool
  keyed : Bool
  mine : Nat
  secret : Nat
  txKey : List Byte
  rxKey : List Byte
  txNonce : Nat
  rxNonce : Option Nat
  deriving DecidableEq, Repr

/-- A feeder link before its exchange. -/
def FeederLink.init : FeederLink :=
  { hello := false, keyed := false, mine := 0, secret := 0, txKey := [], rxKey := [], txNonce := 0, rxNonce := none }

/-- A substitution of a replay, with the angle at which it was made (R358). -/
structure ReplaySub where
  entry : Nat
  angle : Nat
  sub : Subst
  deriving DecidableEq, Repr

/-- Bloom: its streams by table entry, its feeder links, the start angle of the run (R352), and the substitutions of a
replay still to be made. -/
structure Bloom where
  streams : List (Nat × BStream)
  feeders : List (Nat × FeederLink)
  start : Nat
  replay : List ReplaySub
  deriving DecidableEq, Repr

/-- Bloom after reset (R357). -/
def Bloom.init : Bloom := { streams := [], feeders := [], start := 0, replay := [] }

/-! ## The mailbox and the journal (chapter 16) -/

/-- An argument that is not complete (R432): its bytes so far, by offset, and whether the frame that holds its bytes 0 to 31
has arrived (R434). -/
structure Upload where
  opcode : Nat
  tag : Nat
  total : Nat
  head : Bool
  parts : List (Nat × List Byte)
  deriving DecidableEq, Repr

/-- A session (R428 to R431): its number, SESSION, the HELLO bytes and the KEM_EK of its report, whether its KEM has
been taken, its level and ID, its counters, whether an AUTH or a COMMAND has been taken, and its incomplete
argument. -/
structure Session where
  num : Nat
  sid : Nat
  hello : Nat
  kemEk : Nat
  keyed : Bool
  /-- the 72 bytes of R428: key and SALT from the caller, then to the caller -/
  keys : List Byte
  level : Nat
  who : Nat
  nonceIn : Option Nat
  nonceOut : Nat
  authed : Bool
  commanded : Bool
  upload : Option Upload
  deriving DecidableEq, Repr

/-- A result slot that is not FREE (R436, Table 16-3): who holds it, its command and argument, and its result. `closed`
tells that a level-0 session has closed over it (R437). -/
structure Slot where
  num : Nat
  session : Nat
  level : Nat
  who : Nat
  hello : Nat
  tag : Nat
  opcode : Nat
  arg : List Byte
  ready : Bool
  code : Nat
  result : List Byte
  reads : Nat
  jseq : Option Nat
  closed : Bool
  deriving DecidableEq, Repr

/-- The mailbox: sessions, slots, journalled commands in acceptance order (R435), the one that runs, and the HALT
commands taken (R442). -/
structure Mbx where
  sessions : List Session
  slots : List Slot
  queue : List Nat
  running : Option Nat
  halts : List Nat
  nextSid : Nat
  deriving DecidableEq, Repr

/-- The mailbox after reset (R452). -/
def Mbx.init : Mbx := { sessions := [], slots := [], queue := [], running := none, halts := [], nextSid := 1 }

/-- The journal (R448): the next SEQ, the entries held, oldest first, the RESUME_ID of the last RESTORE entry, and a
RESET record still to be written (R449). -/
structure Jnl where
  head : Nat
  entries : List JEntry
  resumeId : Nat
  resetCause : Option Nat
  deriving DecidableEq, Repr

/-- The empty journal (R450). -/
def Jnl.init : Jnl := { head := 0, entries := [], resumeId := 0, resetCause := none }

/-! ## Crucible (chapter 15) -/

/-- An entry of the measurement log (R403). -/
structure MeasEntry where
  index : Nat
  type : Nat
  kind : Nat
  slot : Nat
  version : Nat
  digest : Nat
  deriving DecidableEq, Repr

/-- Crucible and its boot store: OWNER_DIGEST of the owner record, the wrapped seed with its JOB_ID and BILLET_DIGEST
(R416), MEAS and the log (R403), the images by slot (key 4 × slot + KIND − 1), the exception token, the NONCE of the
most recent report still usable for a claim (R407), the JOB_ID of the last billet accepted since the last scrub (R411),
the amendments accepted (R412), the escrow result (R417), the images of the set that runs, and what a running scrub
was started for (0 a register write, 1 boot, 2 release, 3 a new job's billet). -/
structure Cru where
  owner : Option Nat
  wrapped : Option (Nat × Nat × Nat)
  meas : Nat
  log : List MeasEntry
  images : List (Nat × FwImage)
  token : Option Token
  claimNonce : Option Nat
  lastJob : Option Nat
  amends : List Amendment
  escrow : Option (Nat × Nat)
  running : List FwImage
  scrubFor : Nat
  /-- a scrub of R411 has left SCRUB_OK 0 (R422) -/
  scrubBad : Bool
  /-- the Quench marker of the boot store (R487), and what the last boot chain found no set for: Recovery (R399) -/
  quenchMark : Bool
  recovery : Bool
  /-- CRU.FUSE as the last boot read it: a revocation takes effect at the next boot (R393) -/
  revoked : Nat
  deriving DecidableEq, Repr

/-- Crucible with an empty boot store (notes/assumptions/43). -/
def Cru.init : Cru :=
  { owner := none, wrapped := none, meas := 0, log := [], images := [], token := none, claimNonce := none
    lastJob := none, amends := [], escrow := none, running := [], scrubFor := 0, scrubBad := false
    quenchMark := false, recovery := false, revoked := 0 }

/-! ## Ingots (chapter 14) -/

/-- A record of a generation that is still to be sent or in flight: its bay and zone, SEQ, KIND and payload (R365,
R366). -/
structure IngRec where
  bay : Nat
  zone : Nat
  seq : Nat
  kind : Nat
  payload : List Byte
  deriving DecidableEq, Repr

/-- The generation being written (R369, R388): its GEN, step, POLICY and GSALT, the bays it is written to, whether PAIR
splits it, what it holds, whether it is a CAPTURE generation, the records not yet sent and those in flight, the bays
whose Flush has not completed, and the milliseconds that it had taken when the last Flush so far completed. -/
structure GenRun where
  gen : Nat
  step : Nat
  policy : Nat
  salt : Nat
  bays : List Nat
  pair : Bool
  image : Option IngotImage
  capture : Bool
  todo : List IngRec
  flight : List IngRec
  flushing : List Nat
  ms : Nat := 0
  deriving DecidableEq, Repr

/-- A restore or a replay in progress (R383, R387): the step asked for, if one is named, the reports that have come to
the master, the steps found unusable, the step announced, and whether its ingot has been loaded. -/
structure RestoreRun where
  want : Option Nat
  reports : List (Nat × List (Nat × Nat))
  unusable : List Nat
  chosen : Option Nat
  loaded : Bool
  deriving DecidableEq, Repr

/-- A replay's STOP stroke and the journal image that the command carries (R387). -/
structure ReplayRun where
  step : Nat
  stop : Nat
  image : List JEntry
  gen : Option Nat
  deriving DecidableEq, Repr

/-- Ingots: the cartridges in the bays, the snapshot of R363 (the journal with its next SEQ, and the committed cursors by
STREAM), the generation being written, the restore in progress, and the replay. The staging buffer's areas are held as
these fields (notes/assumptions/52). -/
structure Ing where
  carts : List (Nat × Cart)
  snapHead : Nat
  snapJournal : List JEntry
  snapCursors : List (Nat × Cursor)
  cur : Option GenRun
  restore : Option RestoreRun
  replay : Option ReplayRun
  deriving DecidableEq, Repr

/-- The ingot unit after reset. -/
def Ing.init : Ing :=
  { carts := [], snapHead := 0, snapJournal := [], snapCursors := [], cur := none, restore := none, replay := none }

/-! ## Resets, clocks, power and the service side (chapters 17 to 20) -/

/-- A reset source that is asserted (Table 18-3): its bit of RST.CAUSE, the domain of a clock loss, and its level: 0
domains alone at system depth, 1 core, 2 system. -/
structure ResetSrc where
  bit : Nat
  clock : Option Nat
  level : Nat
  deriving DecidableEq, Repr

/-- One bank of per-path state (R518): the _HI latches and held _LO writes by word address, the selectors, and the
MEMWIN snapshot with its two flags. -/
structure Bank where
  latches : List (Nat × Nat)
  held : List (Nat × Nat)
  curSel : Nat
  rtIndex : Nat
  jnlLo : Nat
  jnlHi : Nat
  memSpace : Nat
  memLo : Nat
  memHi : Nat
  memPoison : Bool
  memRange : Bool
  snap : List Byte
  deriving DecidableEq, Repr

/-- A bank at its reset values. -/
def Bank.init : Bank :=
  { latches := [], held := [], curSel := 0, rtIndex := 0, jnlLo := 0, jnlHi := 0, memSpace := 0, memLo := 0, memHi := 0
    memPoison := false, memRange := false, snap := [] }

/-- The instructions of the TAP (R508, R522). -/
inductive TapInstr where
  | bypass | idcode | samplePreload | extest | clamp | crsacc
  deriving DecidableEq, Repr

/-- The TAP (R508): its instruction, the boundary-scan register, and the last access of CRSACC (R522): write, address
and data, once there has been one. -/
structure Tap where
  instr : TapInstr
  scan : Nat
  last : Option (Bool × Nat × Nat)
  deriving DecidableEq, Repr

/-- One Summary update (Table 19-6), as the service side holds it for the SMBus (Table 19-9). -/
structure Summary where
  state : Nat
  vin : Nat
  iin : Nat
  pin : Nat
  temps : List Nat
  flt : Nat
  first : Nat
  firstAngle : Nat
  cause : Nat
  smith : Nat
  angle : Nat
  attempt : Nat
  totals : List Nat
  deriving DecidableEq, Repr

/-- Resets, clocks, power and the service side. `rails`: the rails are on; `por`: power-on reset is asserted, with the
bit that its release sets in RST.CAUSE. -/
structure Sys where
  rails : Bool
  por : Bool
  porBit : Nat
  /-- the input voltage in 10 mV, and a PWR input message that waits for the collector (R503) -/
  vin : Nat
  bandDue : Bool
  /-- the asserted sources, the domains with clock-good, those held in reset, and those released since power-on -/
  asserted : List ResetSrc
  good : List Nat
  held : List Nat
  wasUp : List Nat
  /-- the boot chain is due at SMITH's next release (R485); the device has reached Blank, Claimed or Recovery -/
  bootDue : Bool
  booted : Bool
  /-- the watchdog's count in ms as last told (R489) -/
  wdt : Nat
  /-- the sensors' temperatures in °C, 255 for no reading (Table 19-9) -/
  temps : List Nat
  /-- Stock is in self-refresh after Quench (R464) -/
  stockSelf : Bool
  /-- the granule of Stock that its patrol reads next (R254) -/
  stockPatrol : Nat
  /-- a FAULT_OUT_N pulse runs; the level to drive (R462); a collector that is held keeps it -/
  pulse : Bool
  faultLow : Bool
  /-- the first 100 ms of the legacy sampler (R472), and the straps as sampled -/
  window : Bool
  smbAddr : Nat
  /-- what the service connector drives (Table 18-5): FAULT_OUT_N low; LFLT_OUT, none while high impedance, else
  whether it signals fault -/
  pinFault : Bool
  pinLegacy : Option Bool
  summary : Option Summary
  tap : Tap
  /-- the banks of R518: 0 firmware, 1 JTAG, 2 + s session s -/
  banks : List (Nat × Bank)
  deriving DecidableEq, Repr

/-- The 28 clock domains (Table 18-1). -/
def allDomains : List Nat := List.range 28

/-- Before the power-up sequence: the 48 V input absent, every domain held. -/
def Sys.init : Sys :=
  { rails := false, por := true, porBit := 0, vin := 0, bandDue := false, asserted := [], good := [], held := allDomains
    wasUp := [], bootDue := true, booted := false, wdt := 0, temps := List.replicate 14 255, stockSelf := false, stockPatrol := 0
    pulse := false, faultLow := false, window := false, smbAddr := 0, pinFault := false, pinLegacy := none
    summary := none, tap := { instr := .idcode, scan := 0, last := none }, banks := [] }

/-- The header of a Hjeliz frame that the device sends (Table 16-1). -/
structure HjHead where
  type : Nat
  session : Nat
  nonce : Nat
  tag : Nat
  opcode : Nat
  slot : Nat
  offset : Nat
  total : Nat
  status : Nat
  reads : Nat
  jseq : Nat
  deriving DecidableEq, Repr

/-! ## The whole device -/

/-- The lifecycle states of chapter 15 (CRU.STATUS.STATE). -/
inductive Life where
  | blank | claimed | armed | running | recovery | quench
  deriving DecidableEq, Repr

/-- The code of CRU.STATUS.STATE (Table 15-7). -/
def Life.code : Life → Nat
  | .blank => 0
  | .claimed => 1
  | .armed => 2
  | .running => 3
  | .recovery => 4
  | .quench => 5

/-- A lane frame sent (R284): the logical lane, the header of Table 11-2, and the offset of its 1,280 bytes in the packet. -/
structure LaneTx where
  lane : Nat
  header : Nat
  off : Nat
  deriving DecidableEq, Repr

/-- A lane's TRAIN frame (R290): the physical lane, the header, and the first 15 bytes of its payload; the rest is zero. -/
structure TrainTx where
  lane : Nat
  header : Nat
  payload : List Byte
  deriving DecidableEq, Repr

/-- What the device sends out: a frame, a message or a level on a pin, in the order sent. -/
inductive Out where
  /-- a Cadence message of the device to itself, when it is its own master or candidate (R47, R59) -/
  | own (msg : CadMsg)
  /-- a hand-over chunk with its tag (R179), to a gang of this device -/
  | chunk (channel mb chunk attempt : Nat) (data : List Byte)
  /-- a port frame (R284): port, KIND, NAK, SEQ, ACK, LANE_MASK, the packet that it carries from byte `part` on (of DEGRADE, the
  lanes that it names), and its lane frames in rank order -/
  | frame (port kind : Nat) (nak : Bool) (seq ack mask : Nat) (packet : Option Packet) (part : Nat) (lanes : List LaneTx)
      (head : List Byte)
  /-- TRAIN frames on the eight lanes of a port (R289, R290) -/
  | train (port : Nat) (lanes : List TrainTx)
  /-- a Bloom frame to a feeder over an Ethernet interface (R343): port, interface and the frame's bytes -/
  | udp (port iface : Nat) (data : List Byte)
  /-- a Neighbor Advertisement of an Ethernet interface (R296) -/
  | advert (port iface : Nat)
  /-- a Zone Append to a bay (R373): the zone, the record's header (Table 14-2), its payload, which is encrypted by R368,
  and its tag; zeros pad it by R365 -/
  | append (bay zone : Nat) (head payload : List Byte) (tag : Nat)
  /-- the LABEL record of an adoption (R378): its bay, JOB_ID and address -/
  | label (bay job addr : Nat)
  /-- Zone Management Send to a bay (R372, R373, R378, R379): the action (0 Reset, 1 Finish, 2 Reset All) and the zone -/
  | zone (bay action zone : Nat)
  /-- Flush to a bay (R369) -/
  | flush (bay : Nat)
  /-- the power switch of a bay, and its PERST (R380, R381) -/
  | bayPower (bay : Nat) (on : Bool)
  | bayPerst (bay : Nat) (asserted : Bool)
  /-- a report or an announcement of a restore, to a device of the job (R383) -/
  | restore (dst : Nat) (msg : RestoreMsg)
  /-- a pulse on CAD_OUT, in nanoseconds (R54) -/
  | cadOut (ns : Nat)
  /-- a Hjeliz frame to a caller (Tables 16-1 and 16-2) -/
  | hjeliz (head : HjHead) (payload : List Byte) (tag : Nat)
  /-- the certificate and the attestation report of a REPORT (R428), with the frame's SESSION -/
  | hjReport (session : Nat) (report : Report)
  /-- an ICMPv6 answer of the service port (R425): 135 to a Neighbor Solicitation, 128 to an Echo Request -/
  | icmpv6 (kind : Nat)
  /-- an SMBus answer: the bytes of a read, a NACK, and the release of the bus (R505, R506) -/
  | smbus (code : Nat) (data : List Byte)
  | smbusNack (code : Nat)
  | smbusFree
  /-- bits shifted out on TDO: how many and their value, and pins driven by boundary scan (R508) -/
  | tdo (width value : Nat)
  | scanPins (value : Nat)
  deriving DecidableEq, Repr

/-- The reasons for which the machine stops. -/
inductive Fault where
  /-- A command names a Hearth byte at or beyond 805,306,368 (R532). Raised by every command that reads or writes
  Hearth. Safe: the spec gives such an access no effect. -/
  | hearthRange
  deriving DecidableEq, Repr

/-- The reasons for which a command has no meaning here. -/
inductive Refusal where
  /-- The command is not modelled yet. Raised by the dispatcher alone. Safe. -/
  | notModelled (mnemonic : String)
  deriving DecidableEq, Repr

/-- The state of the device. -/
structure State where
  /-- register fields that differ from their reset value, by key (see Machine/Regs.lean) -/
  regs : List (Nat × Nat)
  hearth0 : Memory
  hearth1 : Memory
  hbm : Memory
  stock : Memory
  life : Life
  cad : Cad
  cores : List (Nat × Core)
  /-- halo rows on their way, each with the core it goes to, and halo credits on their way, each with its producer,
  segment and direction (R188, R190) -/
  haloRows : List (Nat × EdgeRow)
  haloCredits : List (Nat × Nat × Bool)
  kvp : Kvp
  /-- stream entries held by Bellows and by Bloom (R211, R322, R335) -/
  netStreams : List Nat
  blmStreams : List Nat
  /-- the stash engine: its entries in order of placement, its windows and its fetches -/
  stash : List StashEntry
  spills : List Spill
  fetches : List FetchRun
  /-- the free slots of each stash tier: 3 × region + tier, and 2 for the Stock reservation (R236) -/
  stashFree : List (Nat × Nat)
  /-- hand-over channels that have been used in the step -/
  hands : List (Nat × Hand)
  /-- bytes landed in each bucket's fill (R328) -/
  bucketFill : List (Nat × Nat)
  /-- the capture list of a replay with the occurrences seen, and the captured ranges not yet written (R388) -/
  caps : List (CapEntry × Nat)
  captures : List Capture
  /-- poisoned granules of HBM4 and of Stock, by granule number (R29, R254) -/
  hbmPoison : List Nat
  stockPoison : List Nat
  /-- the fabric ports and the packet layer -/
  ports : List (Nat × Port)
  net : Net
  tmp : Tmp
  blm : Bloom
  /-- the mailbox and the command journal -/
  mbx : Mbx
  jnl : Jnl
  cru : Cru
  /-- the 32-byte job seed while it is held (R415) -/
  seed : Option Nat
  ing : Ing
  /-- fault messages raised and not yet accepted, oldest first (R457) -/
  faultQ : List FaultMsg
  /-- resets, clocks, power, the legacy pairs and the service side -/
  sys : Sys
  /-- the billet held -/
  billet : Option Billet
  /-- everything sent, oldest first -/
  out : List Out
  /-- the number of free values drawn so far: the model's own field -/
  freeCtr : Nat
  /-- commands waiting, first in, first out -/
  pending : List Instr
  deriving DecidableEq, Repr

/-- The device as power is applied: nothing released, every field at the value of its Reset column. -/
def State.reset : State :=
  { regs := [], hearth0 := .empty, hearth1 := .empty, hbm := .empty, stock := .empty, life := .blank, cad := Cad.init, cores := [],
    haloRows := [], haloCredits := [], kvp := Kvp.init,
    netStreams := [], blmStreams := [], stash := [], spills := [], fetches := [], stashFree := [], hands := [], bucketFill := [], caps := [], captures := [], hbmPoison := [], stockPoison := [], ports := [], net := Net.init, tmp := Tmp.init, blm := Bloom.init, mbx := Mbx.init, jnl := Jnl.init, cru := Cru.init, seed := none, ing := Ing.init, faultQ := [], sys := Sys.init, billet := none, out := [], freeCtr := 0, pending := [] }


end Sys2Proof.Machine
end

