-- ==== Sys2Proof/Machine/Ops.lean ====
section
/-!
DEFINITION. Machine/Ops.lean: the named operations every meaning is made of: reading and writing a register field,
counting, a core's record, a die's Hearth, raising a fault message (R457), and sending. -/

namespace Sys2Proof.Machine

/-- A command that has no effect here: the event it tells of has no cause in the state (notes/assumptions/1). -/
def void (s : State) : Host.Outcome State Fault Refusal := .next s

namespace State

/-! Registers. -/

/-- The value of a register field (R12). -/
def get (s : State) (f : Fld) : Nat := Assoc.get f.rst s.regs f.key

/-- Write a register field, cut to its width (R12). -/
def put (s : State) (f : Fld) (v : Nat) : State :=
  { s with regs := Assoc.set f.rst s.regs f.key (v % 2 ^ f.w) }

/-- Add `k` to a counter, which holds at its maximum and does not wrap. -/
def count (s : State) (f : Fld) (k : Nat := 1) : State := s.put f (min (s.get f + k) (2 ^ f.w - 1))

/-- Take `k` from a counter that never falls below zero. -/
def uncount (s : State) (f : Fld) (k : Nat := 1) : State := s.put f (s.get f - k)

/-- A 64-bit value held in a register pair (R11). -/
def get64 (s : State) (lo hi : Fld) : Nat := s.get lo + 2 ^ 32 * s.get hi

/-- Write a register pair (R11). -/
def put64 (s : State) (lo hi : Fld) (v : Nat) : State := (s.put lo (v % 2 ^ 32)).put hi (v / 2 ^ 32)

/-- Add to a 64-bit counter. -/
def count64 (s : State) (lo hi : Fld) (k : Nat) : State := s.put64 lo hi (min (s.get64 lo hi + k) (2 ^ 64 - 1))

/-- A one-bit field as a Boolean. -/
def flag (s : State) (f : Fld) : Bool := s.get f == 1

/-! Cores and memories. -/

/-- Core `n` (R100). -/
def core (s : State) (n : Nat) : Core := Assoc.get Core.init s.cores n

/-- Write core `n`. -/
def setCore (s : State) (n : Nat) (c : Core) : State := { s with cores := Assoc.set Core.init s.cores n c }

/-- The Hearth of a die (R22). -/
def hearth (s : State) (die : Nat) : Memory := if die = 0 then s.hearth0 else s.hearth1

/-- Write the Hearth of a die. -/
def setHearth (s : State) (die : Nat) (m : Memory) : State :=
  if die = 0 then { s with hearth0 := m } else { s with hearth1 := m }

/-- Clock domain `d` has left reset (Table 18-1). -/
def domUp (s : State) (d : Nat) : Bool := !s.sys.held.contains d

/-- Send a frame, a message or a level. -/
def emit (s : State) (o : Out) : State := { s with out := s.out ++ [o] }

/-- The next free value: a value the spec leaves open. -/
def free (s : State) : Nat := Config.freeValue s.freeCtr

/-- Count one free value as drawn. -/
def draw (s : State) (k : Nat := 1) : State := { s with freeCtr := s.freeCtr + k }

end State

/-- Bytes of one die's Hearth, 768 MiB (R26, R532). -/
def hearthBytes : Nat := 805306368

/-- Bytes of the HBM4 stacks together, 640 GB (R26, R532). -/
def hbmBytes : Nat := 640000000000

/-- Bytes of Stock, 1 TiB (R253). -/
def stockBytes : Nat := 2 ^ 40

/-- The die of core `n` (R19). -/
def dieOf (n : Nat) : Nat := n / 96

/-- Angle of a step and a stroke (R9). -/
def angleOf (step stroke : Nat) : Nat := step * 65536 + stroke

/-- The step of an angle (R9). -/
def stepOf (a : Nat) : Nat := a / 65536

/-- The stroke of an angle (R9). -/
def strokeOf (a : Nat) : Nat := a % 65536

/-! Fault sources and classes (Tables 17-1 and 17-2). -/

/-- Class C, corrected. -/
def clsC : Nat := 1
/-- Class U, uncorrected but contained. -/
def clsU : Nat := 2
/-- Class F, fatal. -/
def clsF : Nat := 3

/-- The numeric source of core `n`. -/
def srcNum (n : Nat) : Nat := n
/-- The issue source of core `n`: sequencer, Swage and hand-over. -/
def srcIssue (n : Nat) : Nat := 0x100 + n
/-- The source of HBM stack `k`. -/
def srcHbm (k : Nat) : Nat := 0x200 + k
/-- The source of Flux engine `e`. -/
def srcFlx (e : Nat) : Nat := 0x210 + e
/-- The stash engine. -/
def srcStash : Nat := 0x220
/-- The KV page manager. -/
def srcKvp : Nat := 0x230
/-- Bloom. -/
def srcBloom : Nat := 0x240
/-- The source of fabric port `p`. -/
def srcPort (p : Nat) : Nat := 0x250 + p
/-- The Bellows packet layer. -/
def srcBellows : Nat := 0x25F
/-- The Cadence. -/
def srcCad : Nat := 0x260
/-- Temper. -/
def srcTemper : Nat := 0x270
/-- Ingots and bays. -/
def srcIngot : Nat := 0x280
/-- Crucible. -/
def srcCrucible : Nat := 0x290
/-- Smith. -/
def srcSmith : Nat := 0x2A0
/-- Clocks. -/
def srcClock : Nat := 0x2B0
/-- Temperature sensor `t`. -/
def srcTherm (t : Nat) : Nat := 0x2C0 + t
/-- The power stage. -/
def srcPower : Nat := 0x2D0
/-- Legacy input pair `k`. -/
def srcLegacy (k : Nat) : Nat := 0xF00 + k
/-- The collector itself. -/
def srcCollector : Nat := 0xFFF

namespace State

/-- Messages of a source that wait (R457). -/
def waitingFrom (s : State) (src : Nat) : Nat := (s.faultQ.filter (fun m => m.source == src)).length

/-- A message as its source makes it. Word 1 names the angle of the last beat fired, and is zero while no job has run
(R454). -/
def faultMsg (s : State) (src kind cls addr : Nat) (forced : Bool) : FaultMsg :=
  { addr := addr % 2 ^ 40, kind := kind, cls := cls, source := src, forced := forced
    angle := if s.cad.ran then s.cad.lastFired else 0
    attempt := if s.cad.ran then s.cad.attempt else 0 }

/-- Queue one message, or drop and count it where 16 of its source wait (R457). -/
def raiseMsg (s : State) (src kind cls addr : Nat) (forced : Bool) : State :=
  if 16 ≤ s.waitingFrom src then (s.count Reg.fltDropped).put Reg.fltStatusOvf 1
  else { s with faultQ := s.faultQ ++ [s.faultMsg src kind cls addr forced] }

/-- Raise a fault (R457). -/
def raise (s : State) (src kind cls addr : Nat) : State := s.raiseMsg src kind cls addr false

end State

/-- A core whose memories the scrub has written with zeros (R421). -/
def Core.scrubbed (c : Core) : Core :=
  { c with acc := [], tiles := .empty, opBuf := .empty, tongsA := .empty, tongsB := .empty, lineBuf := .empty }

end Sys2Proof.Machine
end

