-- ==== Sys2Proof/Machine/Packets.lean ====
section
/-!
DEFINITION. Machine/Packets.lean: the packet layer's sending side: packets and their channels (R301, R302), link
credits (R303 to R305, R307), routes (R319), sealing of a hop (R309, R310), and the port frames that carry packets
(R284, R287). Every message that the device sends to another goes through here. -/

namespace Sys2Proof

/-! ## Packets -/

/-- Bytes of a whole attestation message (R413, R405, R412, R415). -/
def AttMsg.bytes : AttMsg → Nat
  | .req _ => 32
  | .report _ amends => 18480 + 8368 * amends.length
  | .seed _ _ => 1088 + 48
  | .done => 0
  | .refuse => 0

/-- LEN of a payload. The lengths of LINK_STATE and AUDIT payloads are the model's (notes/assumptions/41). -/
def Payload.len : Payload → Nat
  | .nothing => 0
  | .bytes l => l.length
  | .cad _ => 32
  | .fault _ _ _ => 24
  | .link r => 8 + 16 * r.ports.length
  | .hello _ => 8
  | .attest m i _ => 8 + min 1016 (m.bytes - 1016 * i)
  | .audit _ _ _ => 40
  | .reset _ => 8
  | .sums v _ => 4 * v.length + 1
  | .credit _ _ _ => 0

/-- Bytes of a packet (R301). -/
def Packet.bytes (p : Packet) : Nat := 32 + p.body.len + 16 * b2n p.sealed

/-- The 32 bytes of a packet's header (Table 12-1), which are the sealing's additional authenticated data (R310). Credits return in
CREDIT packets, so CR_VC and CR_CNT of every other packet are zero (R304). -/
def Packet.head (p : Packet) : List Byte :=
  let cr := match p.body with
    | .credit vc _ n => (vc, n)
    | _ => (0, 0)
  [p.type % 256, p.vc % 4 + 4 * b2n p.sealed + 8 * b2n p.loc + 16 * (p.hops % 16)].flatMap (leBytes 1) ++ leBytes 2 (p.dst % 2 ^ 14) ++
  leBytes 2 (p.src % 2 ^ 14) ++ leBytes 2 (p.body.len % 2 ^ 13) ++ leBytes 3 (p.stream % 2 ^ 20) ++ leBytes 1 0 ++
  leBytes 2 (p.attempt % 2 ^ 16) ++ leBytes 1 (cr.1 % 4) ++ leBytes 1 (cr.2 % 256) ++ leBytes 8 (p.nonce % 2 ^ 64) ++
  leBytes 8 (p.arg % 2 ^ 64)

/-- Credits that a packet occupies (R303); CREDIT takes none (Table 12-2). -/
def Packet.credits (p : Packet) : Nat := if p.type = 1 then 0 else ceilDiv p.bytes 256

end Sys2Proof

namespace Sys2Proof.Machine

/-! ## The lane frame's header (Table 11-2) -/

/-- One byte into a CRC-8 of polynomial 0x07, its most significant bit first. -/
def crcByte (c b : Nat) : Nat :=
  (List.range 8).foldl (fun c _ => if c < 128 then 2 * c else (2 * c % 256) ^^^ 7) (c ^^^ b)

/-- CHECK: the CRC-8 of bits [71:0] of a header, from an initial value of 0.
DESIGN CHOICE (notes/assumptions/160): the bytes go in from the first data byte on, each most significant bit first. -/
def headerCheck (h : Nat) : Nat := (List.range 9).foldl (fun c i => crcByte c (bits h (8 * i) 8)) 0

/-- The header of a lane frame. -/
def laneHeader (lane : Nat) (nak : Bool) (kind seq ack mask : Nat) : Nat :=
  let h := 0xB6 + lane % 8 * 2 ^ 8 + b2n nak * 2 ^ 11 + kind % 16 * 2 ^ 12 + seq % 2 ^ 24 * 2 ^ 16 + ack % 2 ^ 24 * 2 ^ 40 +
    mask % 256 * 2 ^ 64
  h + headerCheck h * 2 ^ 72

/-- What a header says of its port frame. -/
def headOf (h : Nat) : FrameHead :=
  { kind := bits h 12 4, nak := bit h 11, seq := bits h 16 24, ack := bits h 40 24, mask := bits h 64 8 }

/-- SYNC and CHECK are right and KIND is defined (R286). -/
def headerGood (h : Nat) : Bool := bits h 0 8 == 0xB6 && bits h 72 8 == headerCheck (h % 2 ^ 72) && decide (bits h 12 4 ≤ 3)

/-- A lane frame as it is received (R283, R284): the physical lane, the positions of the symbols in error, and the 80 bits of its
header as its data symbols give them. -/
structure LaneRx where
  lane : Nat
  errors : List Nat
  header : Nat
  deriving DecidableEq, Repr

/-- The lane frames of a port frame, each with its header. -/
def laneRxs (lanes : List LaneErr) (headers : List Nat) : List LaneRx :=
  lanes.zipIdx.map (fun (l, i) => { lane := l.lane, errors := l.errors, header := headers.getD i 0 })

/-- The symbol errors of codeword 0 or 1 of a lane frame: even symbol positions belong to codeword 0, odd ones to 1 (R283). -/
def codewordErrors (l : LaneRx) (k : Nat) : Nat := ((List.range 1088).filter (fun i => i % 2 == k && l.errors.contains i)).length

/-- A codeword of RS(544, 516) can be corrected: at most 14 of its symbols are in error (R286). -/
def correctable (l : LaneRx) (k : Nat) : Bool := decide (codewordErrors l k ≤ 14)

/-- A lane frame is uncorrectable (R286). -/
def laneBad (l : LaneRx) : Bool := !(correctable l 0 && correctable l 1 && headerGood l.header)

/-- The symbols that the decoder corrects. -/
def laneCorrected (l : LaneRx) : Nat :=
  (if correctable l 0 then codewordErrors l 0 else 0) + (if correctable l 1 then codewordErrors l 1 else 0)

/-- What a port frame's headers say: those of its first lane frame that is whole. -/
def portHead (lanes : List LaneRx) : Option FrameHead := (lanes.find? (fun l => !laneBad l)).map (fun l => headOf l.header)

/-- Element `i` of a list of numbers changed. -/
def modAt (l : List Nat) (i : Nat) (f : Nat → Nat) : List Nat := l.set i (f (l.getD i 0))

/-- The channel of a listed TYPE (Table 12-2); CREDIT has none and is listed under 0. -/
def vcOfType (t : Nat) : Option Nat :=
  if t = 1 ∨ t = 2 ∨ t = 3 then some 0
  else if 8 ≤ t ∧ t ≤ 15 then some 1
  else if t = 0x10 then some 2
  else if t = 0x18 ∨ t = 0x19 then some 3
  else none

/-- Types that may travel before the link is sealed (Table 12-2). -/
def earlyType (t : Nat) : Bool := t == 1 || t == 8 || t == 9 || t == 10

/-- Types that carry traffic of a step, whose ATTEMPT is checked (R323): hand-over, buckets and collectives. -/
def stepType (t : Nat) : Bool := t == 0x0C || t == 0x0E || t == 0x10 || t == 0x18

namespace State

/-- The device's own address (R312). -/
def addr (s : State) : Nat := s.get Reg.netStatusAddr

/-- ADDR of a fault of the packet layer: the device address and the port (Table 17-1). -/
def fabAddr (s : State) (p : Nat) : Nat := s.addr + p * 2 ^ 16

/-- A hold with reason ABORT is due at the device's next gate; Machine/Holds.lean places it. -/
def wantAbort (s : State) : State := { s with cad := { s.cad with want := some 1 } }

/-! ## Ports -/

/-- Port `p`. -/
def port (s : State) (p : Nat) : Port := Assoc.get Port.init s.ports p

/-- Write port `p`. -/
def setPort (s : State) (p : Nat) (x : Port) : State := { s with ports := Assoc.set Port.init s.ports p x }

/-- Port `p` is up in fabric mode (STATUS.STATE up or degraded). -/
def portUp (s : State) (p : Nat) : Bool :=
  s.get (Reg.fabCtrlMode p) != 1 && (s.get (Reg.fabStatusState p) == 2 || s.get (Reg.fabStatusState p) == 3)

/-- The peer's digest as its training showed it. -/
def peerDigest (s : State) (p : Nat) : Nat := s.get64 (Reg.fabPeerSerialLo p) (Reg.fabPeerSerialHi p)

/-- The roster entry of a digest. -/
def memberOf (s : State) (digest : Nat) : Option Member :=
  match s.billet with
  | some b => b.roster.find? (fun m => m.digest == digest)
  | none => none

/-- The job member at the other end of an up port (R314). -/
def peerAddr (s : State) (p : Nat) : Option Nat :=
  if s.portUp p && !(s.port p).jobDown then (s.memberOf (s.peerDigest p)).map (fun m => m.addr) else none

/-- The link may carry the job's packets: sealed, or the billet turns sealing off (R309). -/
def linkSealed (s : State) (p : Nat) : Bool := !s.flag Reg.netCtrlSeal || s.get (Reg.fabSealState p) == 2

/-- The lowest-numbered job port to a member (R320). -/
def portTo (s : State) (a : Nat) : Option Nat := (List.range 12).find? (fun p => s.peerAddr p == some a)

/-! ## Sending -/

/-- The credits for a packet, from the shared pool where it has enough, else from its hop class (R304). -/
def takeCredits (x : Port) (pk : Packet) : Option Port :=
  let n := pk.credits
  let cl := x.classes.getD pk.vc []
  if pk.type = 1 then some x
  else if n ≤ x.shared.getD pk.vc 0 then
    some { x with shared := modAt x.shared pk.vc (· - n), spent := modAt x.spent pk.vc (· + n) }
  else if n ≤ cl.getD (pk.hops - 1) 0 ∧ 1 ≤ pk.hops then
    some { x with classes := x.classes.set pk.vc (modAt cl (pk.hops - 1) (· - n)), spent := modAt x.spent pk.vc (· + n) }
  else none

/-- Payload bytes of a frame of port `p` at its transmit width (R284). -/
def frameBytes (s : State) (p : Nat) : Nat := 1280 * max 1 (s.get (Reg.fabStatusTxWidth p))

/-- Port frames that a packet takes at the port's transmit width (R284). -/
def framesOf (s : State) (p : Nat) (pk : Packet) : Nat := ceilDiv pk.bytes (s.frameBytes p)

/-- A packet as port `p` transmits it: sealed with the next NONCE where the link is sealed (R301, R310); an AUDIT holds
the counts as it leaves (R308). -/
def hopPacket (s : State) (p : Nat) (pk : Packet) : Packet :=
  let sealed := s.flag Reg.netCtrlSeal && s.get (Reg.fabSealState p) == 2
  let x := s.port p
  { pk with sealed := sealed, nonce := if sealed then x.txNonce else 0
            body := match pk.body with
              | .audit _ _ _ => .audit x.rxSeq x.rcvd x.freed
              | b => b }

/-- The packet may leave port `p` now: the port is up, the link sealed where the type needs it, credits are held, no other packet
is half sent, no DEGRADE waits for its ACK, and the replay buffer has room for a frame (R287, R293, R304, R309). -/
def canGo (s : State) (p : Nat) (pk : Packet) : Bool :=
  let x := s.port p
  let h := s.hopPacket p pk
  s.portUp p && (earlyType pk.type || s.linkSealed p) && (takeCredits x h).isSome && x.sending.isNone && !x.tell &&
  decide (x.replay.length < 256)

/-- A frame as it goes out, its packet's header in the packet's first frame: its lane frames with their headers, the lane of rank k with bytes 1,280k to 1,280k + 1,279 of the
frame's payload (R284). -/
def frameOut (s : State) (p kind : Nat) (nak : Bool) (seq : Nat) (pk : Option Packet) (part : Nat) : Out :=
  let ack := (s.port p).rxSeq
  let mask := s.get (Reg.fabStatusTxLanes p)
  .frame p kind nak seq ack mask pk part ((((List.range 8).filter (fun l => bit mask l)).zipIdx).map (fun x =>
    { lane := x.1, header := laneHeader x.1 nak kind seq ack mask, off := if kind = 0 then part + 1280 * x.2 else 0 }))
    (match pk with
      | some k => if kind = 0 ∧ part = 0 then k.head else []
      | none => [])

/-- Emit one frame of port `p`; the scheduled IDLE goes first where 8,191 frames have gone since the last (R285). -/
def sendFrame (s : State) (p kind : Nat) (nak : Bool) (seq : Nat) (pk : Option Packet) (part : Nat) : State :=
  let x := s.port p
  let due := decide (8191 ≤ x.sinceIdle)
  let s1 := if due then s.emit (s.frameOut p 1 false x.lastData none 0) else s
  let y := { x with sinceIdle := (if due then 0 else x.sinceIdle) + 1, lastData := if kind = 0 then seq else x.lastData }
  (s1.setPort p y).emit (s1.frameOut p kind nak seq pk part)

/-- A packet's frames have gone up to an offset: it is half sent, or done, and its credits then stand with its last SEQ (R308). -/
def endSend (s : State) (p : Nat) (pk : Packet) (off : Nat) : State :=
  let x := s.port p
  s.setPort p (if pk.bytes ≤ off then { x with sending := none, spentAt := x.spentAt ++ [(x.txSeq, pk.vc, pk.credits)] }
    else { x with sending := some (pk, off) })

/-- DATA frames of a packet from an offset, each with the next SEQ, kept for replay, as far as the replay buffer has room for
256 (R287). -/
def sendFrames (s : State) (p : Nat) (pk : Packet) (off : Nat) : Nat → State
  | 0 => s.endSend p pk off
  | k + 1 =>
    let x := s.port p
    if pk.bytes ≤ off ∨ 256 ≤ x.replay.length then s.endSend p pk off
    else
      let seq := (x.txSeq + 1) % 2 ^ 24
      let y := { x with txSeq := seq, replay := x.replay ++ [{ seq := seq, kind := 0, packet := some pk, part := off }] }
      sendFrames ((s.setPort p y).sendFrame p 0 false seq (some pk) off) p pk (off + s.frameBytes p) k

/-- A packet leaves port `p`: credits spent, NONCE counted, packets counted, frames sent. -/
def goOut (s : State) (p : Nat) (pk : Packet) : State :=
  let h := s.hopPacket p pk
  match takeCredits (s.port p) h with
  | none => s
  | some x =>
    ((s.setPort p { x with txNonce := x.txNonce + b2n h.sealed }).count (Reg.fabVcTxPkts p (h.vc % 4))).sendFrames p h 0 256

/-- The next packet that port `p` may send, by R305: CREDIT, VC0, VC1, then VC2 and VC3 in weighted round robin. -/
def nextReady (s : State) (p : Nat) : Option Packet :=
  let x := s.port p
  let head := fun vc => match x.ready.find? (fun k => k.vc == vc && k.type != 1) with
    | some k => if s.canGo p k then some k else none
    | none => none
  let two := head 2
  let three := head 3
  let turn2 := decide (x.round2 < s.get Reg.netCtrlW2) || decide (s.get Reg.netCtrlW3 ≤ x.round3)
  match x.ready.find? (fun k => k.type == 1 && s.canGo p k), head 0, head 1 with
  | some k, _, _ => some k
  | none, some k, _ => some k
  | none, none, some k => some k
  | none, none, none => if turn2 then two.or three else three.or two

/-- The round of R305 after a packet of VC2 or VC3. -/
def stepRound (s : State) (x : Port) (vc : Nat) : Port :=
  let full := decide (s.get Reg.netCtrlW2 ≤ x.round2) && decide (s.get Reg.netCtrlW3 ≤ x.round3)
  let y := if full then { x with round2 := 0, round3 := 0 } else x
  if vc = 2 then { y with round2 := y.round2 + 1 } else if vc = 3 then { y with round3 := y.round3 + 1 } else y

/-- Send what port `p` may send, at most `k` packets. -/
def pumpPort (s : State) (p : Nat) : Nat → State
  | 0 => s
  | k + 1 =>
    match s.nextReady p with
    | none => s
    | some pk =>
      let x := s.port p
      let y := stepRound s { x with ready := x.ready.erase pk } pk.vc
      pumpPort ((s.setPort p y).goOut p pk) p k

/-- Go on with the packet that is half sent (R287). -/
def sendRest (s : State) (p : Nat) : State :=
  match (s.port p).sending with
  | some (pk, off) => if !s.portUp p || (s.port p).tell then s else s.sendFrames p pk off 256
  | none => s

/-- Send what port `p` may send. -/
def pumpAll (s : State) (p : Nat) : State := (s.sendRest p).pumpPort p (s.port p).ready.length

/-- A packet becomes ready at port `p`. -/
def sendOn (s : State) (p : Nat) (pk : Packet) : State :=
  let x := s.port p
  (s.setPort p { x with ready := x.ready ++ [pk] }).pumpAll p

/-! ## Routes -/

/-- The valid ports of a route entry, in order (Table 12-4). -/
def routePorts (e : Nat) : List Nat :=
  (List.range 3).filterMap (fun i => if bit e (12 + i) then some (bits e (4 * i) 4) else none)

/-- The port of R319 for a destination, and whether it is an alternate. -/
def routePort (s : State) (dst : Nat) (early : Bool) : Option (Nat × Bool) :=
  let e := Assoc.get 0 s.net.routes dst
  ((routePorts e).find? (fun p => s.portUp p && !(s.port p).jobDown && (early || s.linkSealed p))).map
    (fun p => (p, !(bit e 12 && p == bits e 0 4)))

/-- No valid port is left (R319). -/
def noRoute (s : State) : State := ((s.count Reg.netNoroute).raise srcBellows 0x45 clsU (s.fabAddr 0)).wantAbort

/-- Send a packet towards its destination (R319). -/
def sendRouted (s : State) (pk : Packet) : State :=
  match s.routePort pk.dst (earlyType pk.type) with
  | some (p, alt) => (if alt then s.count Reg.netAltroute else s).sendOn p pk
  | none => s.noRoute

/-- A packet of this device. -/
def newPacket (s : State) (type : Nat) (loc : Bool) (dst stream arg : Nat) (body : Payload) : Packet :=
  { type := type, vc := (vcOfType type).getD 0, sealed := false, inverted := false, loc := loc, hops := 1, dst := dst
    src := s.addr, stream := stream, attempt := s.cad.attempt, nonce := 0, arg := arg, body := body }

/-- Send a Cadence message to a device, which may be this one (R47). -/
def sendCad (s : State) (dst : Nat) (m : CadMsg) : State :=
  if dst = s.addr then s.emit (.own m) else s.sendRouted (s.newPacket 2 false dst 0 0 (.cad m))

/-- Send a Cadence message, LOCAL, to the children of the broadcast tree, on the lowest-numbered job port to each
(R320). -/
def sendChildren (s : State) (m : CadMsg) : State :=
  s.net.children.foldl (fun t a => match t.portTo a with
    | some p => t.sendOn p (t.newPacket 2 true a 0 0 (.cad m))
    | none => t) s

/-- Return a packet's credits of port `p` to the peer, in a CREDIT packet (R304, R307). -/
def returnCredits (s : State) (p vc cls n : Nat) : State :=
  let x := s.port p
  let y := { x with freed := modAt x.freed vc (· + n) }
  if n = 0 then s
  else (s.setPort p y).sendOn p ((s.setPort p y).newPacket 1 true 0 0 cls (.credit vc cls n))

/-- The stream ID at a receiving device for one of its holders (R322). -/
def streamAt (s : State) (dev kind index : Nat) : Nat :=
  match s.billet with
  | some b => match b.streams.find? (fun u => u.dev == dev && u.kind == kind && u.index == index) with
    | some u => u.id
    | none => 0
  | none => 0

/-- Pieces of at most 4,096 bytes, each with its offset. -/
def pieces (l : List Byte) : List (Nat × List Byte) :=
  if l.isEmpty then [(0, [])]
  else (List.range (ceilDiv l.length 4096)).map (fun i => (4096 * i, (l.drop (4096 * i)).take 4096))

/-- Send a hand-over chunk to a device: HANDOVER packets with the tag of R179 in ARG (notes/assumptions/42). -/
def sendHandover (s : State) (dst channel mb chunk : Nat) (data : List Byte) : State :=
  (pieces data).foldl (fun t pc => t.sendRouted
    (t.newPacket 0x10 false dst (t.streamAt dst 0 channel)
      (channel % 2 ^ 16 + mb % 256 * 2 ^ 16 + chunk % 256 * 2 ^ 24 + pc.1 % 2 ^ 32 * 2 ^ 32) (.bytes pc.2))) s

/-- Return a hand-over credit to a device (R180). -/
def sendHoCredit (s : State) (dst channel : Nat) : State :=
  s.sendRouted (s.newPacket 0x0C false dst 0 channel .nothing)

end State

end Sys2Proof.Machine
end

