-- ==== Sys2Proof/Machine/Holds.lean ====
section
/-!
DEFINITION. Machine/Holds.lean: the gates of the Strike table as a device sees them, and the device's own holds at
them (R58, R59, Table 2-5). -/

namespace Sys2Proof.Machine

/-! ## Gates and the device's own holds -/

/-- Whether a Strike entry fires in a step (Table 2-3, EVERY and PHASE). -/
def firesIn (e : Strike) (step : Nat) : Bool :=
  decide (e.every < 2) || (step % e.every == e.phase)

/-- The entry's index with its gate's angle in a step. -/
def gateAngles (l : List Strike) (step : Nat) : List Nat :=
  (l.filter (fun e => e.gate && firesIn e step)).map (fun e => angleOf step e.stroke)

/-- The device knows a confirmed master (R59). -/
def Role.settled (r : Role) : Bool := r == .follower || r == .master

namespace Cad

/-- A hold of the device stands at angle `a`. -/
def holdsAt (c : Cad) (a : Nat) : Bool := c.own.any (fun h => h.angle == a)

/-- The step `n` is committed: the device has passed its COMMIT stroke (R65). -/
def isCommitted (c : Cad) (step : Nat) : Bool := c.committed == some step

/-- The device's next gate: the first gate that the angle has not passed, in the current step unless it is
committed, else in the next (Table 2-5, R65). -/
def nextGate (c : Cad) : Option Nat :=
  let st := stepOf c.angle
  let ok := fun a => decide (c.angle < a) || (a == c.angle && c.holdsAt a)
  let cur := if c.isCommitted st then [] else (gateAngles c.strike st).filter ok
  match cur with
  | a :: _ => some a
  | [] => (gateAngles c.strike (st + 1)).head?

/-- A Cadence message of the device. -/
def msg (c : Cad) (type self angle attempt reason : Nat) : CadMsg :=
  { type := type, flags := 0, source := self, angle := angle, attempt := attempt, reason := reason, seq := c.seq }

end Cad

/-- The reason codes of Table 2-9. -/
def reasonNotReady : Nat := 0
/-- Reason ABORT. -/
def reasonAbort : Nat := 1
/-- Reason HALT. -/
def reasonHalt : Nat := 2
/-- Reason TMP. -/
def reasonTmp : Nat := 3
/-- Reason RESET. -/
def reasonReset : Nat := 4

namespace State

/-- Send a Cadence message to the confirmed master, which may be the device itself (R59). -/
def sendToMaster (s : State) (m : CadMsg) : State := s.sendCad s.cad.master m

/-- Raise a hold of the device for `angle`, count it and send HOLD (R58, R62, R63). -/
def raiseHold (s : State) (angle reason : Nat) (entry : Option Nat) : State :=
  let c := s.cad
  let h : OwnHold := { angle := angle, attempt := c.attempt, reason := reason, entry := entry, rollback := false }
  ({ s with cad := { c with own := c.own ++ [h], raised := c.raised + 1 } }).sendToMaster
    (c.msg 2 s.addr angle c.attempt reason)

/-- Withdraw one of the device's holds, count it and send RELEASE with the hold's ATTEMPT (R58, R63). -/
def releaseHold (s : State) (h : OwnHold) : State :=
  let c := s.cad
  ({ s with cad := { c with own := c.own.erase h, released := c.released + 1 } }).sendToMaster
    (c.msg 3 s.addr h.angle h.attempt 0)

/-- Place a wanted hold at the device's next gate (Table 2-5, R65). While no job runs, while the device's rollback
is in progress or while no master is confirmed, it waits. -/
def placeWant (s : State) : State :=
  match s.cad.want with
  | none => s
  | some r =>
    if s.cad.active && !s.cad.rolling && s.cad.resume.isNone && s.cad.role.settled then
      match s.cad.nextGate with
      | some a => ({ s with cad := { s.cad with want := none } }).raiseHold a r none
      | none => s
    else s

/-- A contained class U fault in a step-level block: the device holds its next gate with reason ABORT
(Table 2-5, R65). -/
def abortHold (s : State) : State := placeWant { s with cad := { s.cad with want := some reasonAbort } }

/-- The gate at angle `a` is held with reason ABORT (R116, R219, R235): the device sends HOLD for that gate, once for
each gate. Where it cannot hold a gate now, the hold waits as Table 2-5 has it. -/
def abortAt (s : State) (a : Nat) : State :=
  if s.cad.active && !s.cad.rolling && s.cad.role.settled then
    if s.cad.own.any (fun h => h.angle == a && h.reason == reasonAbort) then s else s.raiseHold a reasonAbort none
  else s.abortHold

/-- Cancel every hold the device has standing and count each (R64 step 2, R45, R533). -/
def cancelHolds (s : State) : State :=
  { s with cad := { s.cad with own := [], cancelled := s.cad.cancelled + s.cad.own.length, want := none } }

/-- No block is stopped: the device is not in Quench (R464), and the control region is out of reset (R481). -/
def alive (s : State) : Bool := s.life != .quench && s.domUp 2

/-- The Cadence runs: the device is not in Quench, and the control region and the core reach are out of reset (R70,
R481). -/
def cadUp (s : State) : Bool := s.alive && [1, 4, 5, 8, 9, 10].all (fun d => s.domUp d)

/-- Smith runs: its domain and the control region are out of reset. -/
def smithUp (s : State) : Bool := s.domUp 1 && s.domUp 2

end State

end Sys2Proof.Machine
end

