-- ==== Sys2Proof/Machine/Operands.lean ====
section
/-!
DEFINITION. Machine/Operands.lean: the operand forms: the fields of the issue descriptor (Table 4-3) and of the
vector command descriptor (Table 6-2), the format codes of Table 4-4, packed elements in memory (R75), and the
elements of tile registers in the views of Table 6-1. -/

namespace Sys2Proof.Machine

/-- Word `i` of a descriptor. -/
def wd (ws : List Nat) (i : Nat) : Nat := ws.getD i 0

/-- Bits `[lo + w - 1 : lo]` of word `i` of a descriptor. -/
def wf (ws : List Nat) (i lo w : Nat) : Nat := bits (wd ws i) lo w

/-- The words of a command's operand as numbers. -/
def natWords (ws : List Word) : List Nat := ws.map BitVec.toNat

/-- The format of a code of Table 4-4 with a signedness bit; none for 0xA to 0xF. -/
def fmtOf (code sign : Nat) : Option Fmt :=
  if code = 0 then some .e4m3
  else if code = 1 then some .e5m2
  else if code = 2 then some .e2m3
  else if code = 3 then some .e3m2
  else if code = 4 then some .e2m1
  else if code = 5 then (if sign = 1 then some .s8 else some .u8)
  else if code = 6 then (if sign = 1 then some .s4 else some .u4)
  else if code = 7 then some .bf16
  else if code = 8 then some .fp16
  else if code = 9 then some .fp32
  else none

/-- The issue descriptor (Table 4-3). -/
structure MM where
  opid : Nat
  op : Nat
  slotBase : Nat
  slagId : Nat
  afmt : Nat
  bfmt : Nat
  ofmt : Nat
  asign : Nat
  bsign : Nat
  osign : Nat
  amx : Nat
  bmx : Nat
  omx : Nat
  rz : Bool
  special : Bool
  init : Nat
  keep : Bool
  ta : Bool
  tb : Bool
  shapeSel : Nat
  mp : Nat
  np : Nat
  kp : Nat
  k0 : Nat
  m : Nat
  n : Nat
  k : Nat
  aAddr : Nat
  aStride : Nat
  bAddr : Nat
  bStride : Nat
  cAddr : Nat
  cStride : Nat
  biasAddr : Nat
  asAddr : Nat
  bsAddr : Nat
  csAddr : Nat
  obBase : Nat
  obSize : Nat
  deriving DecidableEq, Repr

/-- The fields of an issue descriptor (Table 4-3). -/
def mmOf (ws : List Nat) : MM :=
  { opid := wd ws 0, op := wf ws 1 0 8, slotBase := wf ws 1 8 4, slagId := wf ws 1 16 8,
    afmt := wf ws 2 0 4, bfmt := wf ws 2 4 4, ofmt := wf ws 2 8 4, asign := wf ws 2 12 1, bsign := wf ws 2 13 1,
    osign := wf ws 2 14 1, amx := wf ws 2 15 1, bmx := wf ws 2 16 1, omx := wf ws 2 17 1,
    rz := wf ws 2 18 1 == 1, special := wf ws 2 19 1 == 1, init := wf ws 2 20 2, keep := wf ws 2 22 1 == 1,
    ta := wf ws 2 23 1 == 1, tb := wf ws 2 24 1 == 1, shapeSel := wf ws 2 25 3,
    mp := wf ws 3 0 16, np := wf ws 3 16 16, kp := wf ws 4 0 22, k0 := wf ws 5 0 22,
    m := wf ws 6 0 16, n := wf ws 6 16 16, k := wf ws 7 0 22,
    aAddr := wf ws 8 0 30, aStride := wf ws 9 0 24, bAddr := wf ws 10 0 30, bStride := wf ws 11 0 24,
    cAddr := wf ws 12 0 30, cStride := wf ws 13 0 24, biasAddr := wf ws 14 0 30, asAddr := wf ws 15 0 30,
    bsAddr := wf ws 16 0 30, csAddr := wf ws 17 0 30, obBase := wf ws 18 0 22, obSize := wf ws 19 0 22 }

/-- The format of operand A, if valid. -/
def MM.fa (d : MM) : Option Fmt := fmtOf d.afmt d.asign
/-- The format of operand B, if valid. -/
def MM.fb (d : MM) : Option Fmt := fmtOf d.bfmt d.bsign
/-- The format of the output, if valid. -/
def MM.fo (d : MM) : Option Fmt := fmtOf d.ofmt d.osign

/-- The vector command descriptor (Table 6-2). -/
structure VC where
  opid : Nat
  op : Nat
  func : Nat
  esize : Nat
  raw : Bool
  rz : Bool
  special : Bool
  acc : Bool
  axis : Nat
  dst : Nat
  sa : Nat
  sb : Nat
  sc : Nat
  ba : Nat
  bb : Nat
  bc : Nat
  imm : Nat
  rows : Nat
  cols : Nat
  drow : Nat
  soff : Nat
  addr : Nat
  stride : Nat
  xarg : Nat
  deriving DecidableEq, Repr

/-- The fields of a vector command descriptor (Table 6-2). -/
def vcOf (ws : List Nat) : VC :=
  { opid := wd ws 0, op := wf ws 1 0 8, func := wf ws 1 8 8, esize := wf ws 1 16 2, raw := wf ws 1 18 1 == 1,
    rz := wf ws 1 19 1 == 1, special := wf ws 1 20 1 == 1, acc := wf ws 1 21 1 == 1, axis := wf ws 1 22 2,
    dst := wf ws 2 0 5, sa := wf ws 2 5 5, sb := wf ws 2 10 5, sc := wf ws 2 15 5,
    ba := wf ws 2 20 2, bb := wf ws 2 22 2, bc := wf ws 2 24 2, imm := wd ws 3,
    rows := wf ws 4 0 6, cols := wf ws 4 8 6, drow := wf ws 4 16 5, soff := wf ws 4 24 7,
    addr := wf ws 5 0 30, stride := wf ws 6 0 24, xarg := wd ws 7 }

/-! Packed elements (R75). -/

namespace Memory

/-- Element `i` of width `w` bits from byte address `base` (R75). -/
def elem (m : Memory) (base w i : Nat) : Nat := elemAt m.read base w i

/-- A byte of element `i` of width `w` bits from byte address `base` is poisoned (R29). -/
def badElem (m : Memory) (base w i : Nat) : Bool := m.isBad (base + i * w / 8) ((i * w % 8 + w + 7) / 8)

/-- The value of element `i` in a format under a scale byte: a poisoned element or scale is a NaN operand (R29, R78,
R94). -/
def mxVal (m : Memory) (f : Fmt) (base i saddr : Nat) : Val :=
  if m.badElem base f.width i || m.isBad saddr 1 then .nan
  else mxValue f (m.read saddr).toNat (m.elem base f.width i)

/-- The value of element `i` in a format: a poisoned element is a NaN operand (R29, R94). -/
def val (m : Memory) (f : Fmt) (base i : Nat) : Val :=
  if m.badElem base f.width i then .nan else decodeFmt f (m.elem base f.width i)

/-- A binary32 word, as the canonical NaN where it is poisoned (R29, R73). -/
def word32 (m : Memory) (a : Nat) : Nat := if m.isBad a 4 then Fmt.fp32.nanCode else m.readLE a 4

/-- Write element `i` of width `w` bits from byte address `base`, leaving every other bit (R75, R110). -/
def writeElem (m : Memory) (base w i code : Nat) : Memory :=
  let bo := i * w
  let a := base + bo / 8
  let sh := bo % 8
  let len := (sh + w + 7) / 8
  let old := m.readLE a len
  let low := old % 2 ^ sh
  let high := old / 2 ^ (sh + w)
  m.writeLE a len (low + (code % 2 ^ w) * 2 ^ sh + high * 2 ^ (sh + w))

end Memory

/-! Tile registers (R144). -/

/-- Bits of an element of an ESIZE view (Table 6-1). -/
def viewBits (esize : Nat) : Nat := 32 / 2 ^ esize

/-- Elements of a row of an ESIZE view (Table 6-1). -/
def viewLen (esize : Nat) : Nat := 32 * 2 ^ esize

/-- Byte address of row `r` of tile register `t`. -/
def tileRow (t r : Nat) : Nat := 4096 * t + 128 * r

/-- Element (r, c) of register `t` in an ESIZE view. -/
def tileElem (m : Memory) (esize t r c : Nat) : Nat := m.elem (tileRow t r) (viewBits esize) c

/-- Write element (r, c) of register `t` in an ESIZE view. -/
def tilePut (m : Memory) (esize t r c v : Nat) : Memory := m.writeElem (tileRow t r) (viewBits esize) c v

/-- The 32-bit word (r, c) of register `t`. -/
def tileWord (m : Memory) (t r c : Nat) : Nat := tileElem m 0 t r c

/-- A source operand of the 32-bit view in its mode (R152): the tile, row 0 repeated, column 0 repeated, or the
immediate. -/
def srcWord (m : Memory) (d : VC) (t mode r c : Nat) : Nat :=
  if mode = 0 then tileWord m t r c
  else if mode = 1 then tileWord m t 0 c
  else if mode = 2 then tileWord m t r 0
  else d.imm

/-- The lane of position (r, c) (R145). -/
def laneOf (r c : Nat) : Nat := 32 * (r % 8) + c

/-- The positions of an extent, row by row. -/
def positions (rows cols : Nat) : List (Nat × Nat) :=
  (List.range rows).flatMap (fun r => (List.range cols).map (fun c => (r, c)))

/-- No byte of the `len` bytes from `a` lies outside a die's Hearth (R532). -/
def inHearth (a len : Nat) : Bool := decide (len = 0) || decide (a + len ≤ hearthBytes)

end Sys2Proof.Machine
end

