-- ==== Sys2Proof/Machine/Hbm.lean ====
section
/-!
DEFINITION. Machine/Hbm.lean: HBM4 and Stock as their consumers see them: the check of a granule that is read,
poison and partial writes (R28 to R30, R254), and byte strings read and written through that check. -/

namespace Sys2Proof.Machine

/-- Bytes of one HBM4 stack, 80 GB (R17). -/
def stackBytes : Nat := 80000000000

/-- The stack that holds an HBM4 byte address: stacks follow one another (notes/assumptions/40). -/
def stackOf (a : Nat) : Nat := a / stackBytes

/-- The granules of a byte range. -/
def granules (a len : Nat) : List Nat := if len = 0 then [] else (List.range ((a + len - 1) / 64 + 1 - a / 64)).map (a / 64 + ·)

namespace State

/-- The stack's POISON_COUNT after a change of the poisoned granules. -/
def countPoison (s : State) (k : Nat) : State :=
  s.put (Reg.hbmPoisonCount k) (s.hbmPoison.filter (fun g => stackOf (64 * g) == k)).length

/-- Granules of HBM4 take a poison pattern (R29). -/
def poisonHbm (s : State) (gs : List Nat) : State :=
  (List.range 8).foldl countPoison { s with hbmPoison := gs.foldl (fun l g => insertNat g l) s.hbmPoison }

/-- The check of one granule of HBM4 that is read (R29): a corrected one is counted, an uncorrectable one is counted,
recorded, raised and poisoned. A granule already poisoned reads as poison.
DESIGN CHOICE (notes/assumptions/137): that later read counts, records and raises nothing again; the spec says only that it
returns poison. -/
def hbmCheck (s : State) (e : EccRes) : State :=
  let a := 64 * e.granule
  let k := stackOf a
  if hbmBytes ≤ a || s.hbmPoison.contains e.granule then s
  else if e.ue then
    let s1 := (s.count (Reg.hbmUeCount k)).put64 (Reg.hbmLastUeLo k) (Reg.hbmLastUeHi k) a
    (({ s1 with hbmPoison := insertNat e.granule s1.hbmPoison }).countPoison k).raise (srcHbm k) 0x19 clsU a
  else (s.count (Reg.hbmCeCount k)).raise (srcHbm k) 0x18 clsC a

/-- The check of one granule of Stock that is read (R254); a poisoned granule as in `hbmCheck` (notes/assumptions/137). -/
def stockCheck (s : State) (e : EccRes) : State :=
  let a := 64 * e.granule
  if stockBytes ≤ a || s.stockPoison.contains e.granule then s
  else if e.ue then
    let s1 := (s.count Reg.tmpStockUe).put64 Reg.tmpStockLastUeLo Reg.tmpStockLastUeHi a
    ({ s1 with stockPoison := insertNat e.granule s1.stockPoison }).raise srcTemper 0x5C clsU a
  else (s.count Reg.tmpStockCe).raise srcTemper 0x5B clsC a

/-- The checks of the granules of a range of HBM4, of those that a command reports. -/
def hbmChecks (s : State) (a len : Nat) (l : List EccRes) : State :=
  (l.filter (fun e => (granules a len).contains e.granule)).foldl hbmCheck s

/-- The checks of the granules of a range of Stock. -/
def stockChecks (s : State) (a len : Nat) (l : List EccRes) : State :=
  (l.filter (fun e => (granules a len).contains e.granule)).foldl stockCheck s

/-- A write of `len` bytes at `a` of HBM4 as the poisoned granules see it (R29): a full granule loses its poison, a
partial one keeps it and is raised again. -/
def hbmTouched (s : State) (a len : Nat) : State :=
  let hit := s.hbmPoison.filter (fun g => decide (a < 64 * g + 64 ∧ 64 * g < a + len))
  let full := hit.filter (fun g => decide (a ≤ 64 * g ∧ 64 * g + 64 ≤ a + len))
  let part := hit.filter (fun g => !(full.contains g))
  if hit.isEmpty then s
  else
    let s1 := { s with hbmPoison := s.hbmPoison.filter (fun g => !(full.contains g)) }
    let s2 := (List.range 8).foldl countPoison s1
    part.foldl (fun t g => t.raise (srcHbm (stackOf (64 * g))) 0x19 clsU (64 * g)) s2

/-- The same of Stock (R254). -/
def stockTouched (s : State) (a len : Nat) : State :=
  let hit := s.stockPoison.filter (fun g => decide (a < 64 * g + 64 ∧ 64 * g < a + len))
  let full := hit.filter (fun g => decide (a ≤ 64 * g ∧ 64 * g + 64 ≤ a + len))
  let part := hit.filter (fun g => !(full.contains g))
  if hit.isEmpty then s
  else part.foldl (fun t g => t.raise srcTemper 0x5C clsU (64 * g))
    { s with stockPoison := s.stockPoison.filter (fun g => !(full.contains g)) }

/-- Write bytes to HBM4. -/
def writeHbm (s : State) (a : Nat) (bs : List Byte) : State :=
  ({ s with hbm := s.hbm.writeBytes a bs }).hbmTouched a bs.length

/-- Write bytes to Stock. -/
def writeStock (s : State) (a : Nat) (bs : List Byte) : State :=
  ({ s with stock := s.stock.writeBytes a bs }).stockTouched a bs.length

/-- Granules of Stock take a poison pattern (R29, R254). -/
def poisonStock (s : State) (gs : List Nat) : State := { s with stockPoison := gs.foldl (fun l g => insertNat g l) s.stockPoison }

/-- A byte range of HBM4 holds a poisoned granule. -/
def hbmBad (s : State) (a len : Nat) : Bool :=
  s.hbmPoison.any (fun g => decide (a < 64 * g + 64 ∧ 64 * g < a + len))

/-- A byte range of Stock holds a poisoned granule. -/
def stockBad (s : State) (a len : Nat) : Bool :=
  s.stockPoison.any (fun g => decide (a < 64 * g + 64 ∧ 64 * g < a + len))

end State

end Sys2Proof.Machine
end

