-- ==== Sys2Proof/Machine/Routes.lean ====
section
/-!
DEFINITION. Machine/Routes.lean: the graph of the job's links as the discovery records give it (R314, R315), hop
counts, routes (R317, R318), and the Cadence broadcast tree with its repair (R320, R321). -/

namespace Sys2Proof.Machine

/-- Put a pair in its place by its first number. -/
def insertPair (a : Nat × Nat) : List (Nat × Nat) → List (Nat × Nat)
  | [] => [a]
  | b :: r => if a.1 ≤ b.1 then a :: b :: r else b :: insertPair a r

/-- Pairs in ascending order of their first number. -/
def sortPairs (l : List (Nat × Nat)) : List (Nat × Nat) := l.foldr insertPair []

/-- The record of a device. -/
def recordOf (recs : List LinkRec) (a : Nat) : Option LinkRec := recs.find? (fun r => r.origin == a)

/-- The job links of a member (R315): each port with the member it reaches, where both records agree. -/
def linksOf (roster : List Member) (recs : List LinkRec) (a : Nat) : List (Nat × Nat) :=
  match recordOf recs a, roster.find? (fun m => m.addr == a) with
  | some r, some me =>
    sortPairs (r.ports.filterMap (fun l =>
      match roster.find? (fun m => m.digest == l.digest) with
      | some m => match recordOf recs m.addr with
        | some r2 =>
          if r2.ports.any (fun k => k.port == l.peerPort && k.peerPort == l.port && k.digest == me.digest) then
            some (l.port, m.addr)
          else none
        | none => none
      | none => none))
  | _, _ => []

/-- A member that packets do not pass through (R313). -/
def isFeeder (roster : List Member) (a : Nat) : Bool := roster.any (fun m => m.addr == a && m.kind == 1)

/-- Breadth-first hop counts over job links, never expanding through a feeder (R318). -/
def bfs (roster : List Member) (recs : List LinkRec) : Nat → List Nat → Nat → List (Nat × Nat) → List (Nat × Nat)
  | 0, _, _, seen => seen
  | k + 1, front, d, seen =>
    let next := ((front.filter (fun a => d == 0 || !isFeeder roster a)).flatMap
      (fun a => (linksOf roster recs a).map (fun l => l.2))).eraseDups.filter (fun a => !(seen.any (fun p => p.1 == a)))
    if next.isEmpty then seen else bfs roster recs k next (d + 1) (seen ++ next.map (fun a => (a, d + 1)))

/-- Hop counts to `d` (R318). -/
def hopsTo (roster : List Member) (recs : List LinkRec) (d : Nat) : List (Nat × Nat) :=
  bfs roster recs roster.length [d] 0 [(d, 0)]

/-- The hop count of one device in a list of hop counts. -/
def hopOf (l : List (Nat × Nat)) (a : Nat) : Option Nat := Assoc.find? l a

/-- Discovery is complete (R315): a record from every member, and every member reached over job links. -/
def discovered (roster : List Member) (recs : List LinkRec) (self : Nat) : Bool :=
  roster.all (fun m => (recordOf recs m.addr).isSome) &&
  roster.all (fun m => (hopOf (hopsTo roster recs self) m.addr).isSome)

/-- The job graph's diameter (R317). -/
def diameter (roster : List Member) (recs : List LinkRec) : Nat :=
  (roster.map (fun m => ((hopsTo roster recs m.addr).map (fun p => p.2)).foldl max 0)).foldl max 0

/-- The route entry of device `x` for destination `d` (R318, Table 12-4). -/
def routeEntry (roster : List Member) (recs : List LinkRec) (x d : Nat) : Nat :=
  if x = d then 2 ^ 15
  else
    let h := hopsTo roster recs d
    match hopOf h x with
    | none => 0
    | some n =>
      let cs := ((linksOf roster recs x).filter (fun l => hopOf h l.2 == some (n - 1))).map (fun l => l.1)
      let c := cs.length
      cs.getD (d % c) 0 + (if 2 ≤ c then cs.getD ((d + 1) % c) 0 * 2 ^ 4 else 0) +
      (if 3 ≤ c then cs.getD ((d + 2) % c) 0 * 2 ^ 8 else 0) +
      (b2n (decide (1 ≤ c)) + 2 * b2n (decide (2 ≤ c)) + 4 * b2n (decide (3 ≤ c))) * 2 ^ 12 + n % 16 * 2 ^ 16

/-- The parent of a device in the broadcast tree (R320): the neighbour of lowest address one hop nearer the master. -/
def treeParent (roster : List Member) (recs : List LinkRec) (master x : Nat) : Option Nat :=
  let h := hopsTo roster recs master
  match hopOf h x with
  | none => none
  | some n => ((linksOf roster recs x).map (fun l => l.2)).foldl (fun best a =>
      if hopOf h a == some (n - 1) && decide (1 ≤ n) then
        match best with
        | some b => some (min a b)
        | none => some a
      else best) none

/-- Device `a` reaches the master through device `x` in the broadcast tree. -/
def descends (roster : List Member) (recs : List LinkRec) (master x : Nat) : Nat → Nat → Bool
  | 0, _ => false
  | k + 1, a => match treeParent roster recs master a with
    | some b => b == x || descends roster recs master x k b
    | none => false

namespace State

/-- The roster of the billet held. -/
def roster (s : State) : List Member :=
  match s.billet with
  | some b => b.roster
  | none => []

/-- The job's TRZ-2080 members (KIND 0). -/
def devices (s : State) : List Nat := (s.roster.filter (fun m => m.kind == 0)).map (fun m => m.addr)

/-- The route table of R318. -/
def buildRoutes (s : State) : State :=
  let r := s.roster
  { s with net := { s.net with
      routes := sortPairs (r.map (fun m => (m.addr, routeEntry r s.net.records s.addr m.addr))) } }

/-- The broadcast tree of an elected master (R320). -/
def buildTree (s : State) (master : Nat) : State :=
  let r := s.roster
  let recs := s.net.records
  let kids := (r.map (fun m => m.addr)).filter (fun a => a != s.addr && !isFeeder r a &&
    treeParent r recs master a == some s.addr)
  let s1 := { s with net := { s.net with children := kids } }
  (s1.put Reg.netCadParent ((treeParent r recs master s.addr).getD s.addr)).put Reg.netStatusTreeDepth
    ((hopOf (hopsTo r recs master) s.addr).getD 0)

/-- The lowest of a list of addresses. -/
def lowest (l : List Nat) : Option Nat :=
  l.foldl (fun b a => match b with
    | some c => some (min a c)
    | none => some a) none

/-- TREE_REPAIR (R321): the parent port is down, so the device takes a new parent and announces it by ADOPT. -/
def repairTree (s : State) : State :=
  let r := s.roster
  let recs := s.net.records
  let h := hopsTo r recs s.cad.master
  let mine := (hopOf h s.addr).getD 0
  let near := (r.map (fun m => m.addr)).filter (fun a => !isFeeder r a && a != s.addr && (s.portTo a).isSome)
  let nearer := near.filter (fun a => match hopOf h a with
    | some n => decide (n < mine)
    | none => false)
  let level := near.filter (fun a => hopOf h a == some mine && !descends r recs s.cad.master s.addr r.length a)
  match (lowest nearer).or (lowest level) with
  | none => s
  | some a =>
    let depth := (hopOf h a).getD 0 + 1
    let s1 := ((s.put Reg.netCadParent a).put Reg.netStatusTreeDepth depth).raise srcBellows 0x46 clsC (s.fabAddr 0)
    match s1.portTo a with
    | some p => s1.sendOn p (s1.newPacket 0x0F true a 0 0 .nothing)
    | none => s1

/-- This device's discovery record (R314). -/
def ownRecord (s : State) : LinkRec :=
  { origin := s.addr, version := s.net.version
    ports := ((List.range 12).filter (fun p => s.portUp p && s.flag (Reg.fabPeerValid p))).map (fun p =>
      { port := p, digest := s.peerDigest p, peerPort := s.get (Reg.fabPeerPort p)
        rxWidth := s.get (Reg.fabStatusRxWidth p), txWidth := s.get (Reg.fabStatusTxWidth p) }) }

/-- A record takes the place of an older one of its origin. -/
def storeRecord (l : List LinkRec) (r : LinkRec) : List LinkRec := l.filter (fun x => x.origin != r.origin) ++ [r]

/-- Send a record, LOCAL, on every up fabric port but one (R314). -/
def flood (s : State) (r : LinkRec) (except : Option Nat) : State :=
  ((List.range 12).filter (fun p => s.portUp p && some p != except)).foldl
    (fun t p => t.sendOn p (t.newPacket 8 true 0 0 0 (.link r))) s

/-- Originate a record, its VERSION increased by one (R314). -/
def originate (s : State) : State :=
  let s1 := { s with net := { s.net with version := (s.net.version + 1) % 65536 } }
  let r := s1.ownRecord
  let s2 := { s1 with net := { s1.net with records := storeRecord s1.net.records r } }
  s2.flood r none

end State

end Sys2Proof.Machine
end

