-- ==== Sys2Proof/Machine/Journal.lean ====
section
/-!
DEFINITION. Machine/Journal.lean: the command table (Tables 16-4 and 16-5), the journal's entries (R448, R449), and
the completion of a command in its slot (R436, R446). -/

namespace Sys2Proof.Machine

/-! ## The commands -/

/-- A row of Table 16-5 with its row of Table 16-4: the level, whether level 0 suffices in Blank and in Recovery,
whether it is journalled, and the states that accept it, as bits Blank, Claimed, Armed, Running, Recovery, Quench. -/
structure CmdInfo where
  opcode : Nat
  level : Nat
  zeroBlank : Bool
  zeroRecovery : Bool
  journalled : Bool
  states : Nat
  deriving DecidableEq, Repr

/-- Tables 16-4 and 16-5. -/
def commands : List CmdInfo :=
  [⟨0x0001, 0, false, false, false, 0x3F⟩, ⟨0x0002, 0, false, false, false, 0x1F⟩, ⟨0x0003, 0, false, false, false, 0x3F⟩,
   ⟨0x0101, 0, false, false, true, 0x01⟩, ⟨0x0102, 0, false, false, true, 0x06⟩, ⟨0x0103, 2, false, false, true, 0x02⟩,
   ⟨0x0104, 2, false, false, true, 0x02⟩, ⟨0x0105, 2, false, false, true, 0x04⟩, ⟨0x0106, 2, false, false, true, 0x04⟩,
   ⟨0x0107, 2, false, false, true, 0x08⟩, ⟨0x0108, 2, false, false, true, 0x04⟩, ⟨0x0109, 2, true, true, true, 0x1F⟩,
   ⟨0x0201, 2, false, false, true, 0x08⟩, ⟨0x0202, 2, false, false, true, 0x08⟩, ⟨0x0203, 2, false, false, true, 0x04⟩,
   ⟨0x0301, 1, true, true, false, 0x3F⟩, ⟨0x0302, 1, true, false, false, 0x2F⟩, ⟨0x0303, 1, false, false, false, 0x0E⟩,
   ⟨0x0304, 1, true, false, false, 0x2F⟩, ⟨0x0305, 2, false, false, true, 0x0E⟩, ⟨0x0306, 1, false, false, false, 0x0C⟩,
   ⟨0x0401, 3, true, true, true, 0x13⟩, ⟨0x0402, 3, true, true, true, 0x13⟩, ⟨0x0403, 0, false, false, true, 0x13⟩,
   ⟨0x0404, 0, false, false, true, 0x17⟩, ⟨0x0405, 0, false, false, true, 0x17⟩, ⟨0x0406, 3, false, false, true, 0x06⟩]

/-- The row of an opcode. -/
def cmdInfo (op : Nat) : Option CmdInfo := commands.find? (fun c => c.opcode == op)

/-- Table 16-4: the state accepts the command. -/
def cmdAccepts (op : Nat) (st : Life) : Bool :=
  match cmdInfo op with
  | some c => bit c.states st.code
  | none => false

/-- The level that a command needs in a state (Table 16-5). `RELEASE` takes 3, or 0 with a vendor release, which the
command itself checks. -/
def cmdLevel (c : CmdInfo) (st : Life) : Nat :=
  if (st = .blank ∧ c.zeroBlank) ∨ (st = .recovery ∧ c.zeroRecovery) then 0 else c.level

/-! Result codes (Table 16-6). -/

/-- OK. -/
def rcOk : Nat := 0
/-- NOT_READY. -/
def rcNotReady : Nat := 1
/-- NO_SLOT. -/
def rcNoSlot : Nat := 2
/-- SLOTS_FULL. -/
def rcSlotsFull : Nat := 3
/-- BAD_OPCODE. -/
def rcBadOpcode : Nat := 4
/-- BAD_ARGS. -/
def rcBadArgs : Nat := 5
/-- WRONG_STATE. -/
def rcWrongState : Nat := 6
/-- LEVEL. -/
def rcLevel : Nat := 7
/-- SIGNATURE. -/
def rcSignature : Nat := 8
/-- REFUSED. -/
def rcRefused : Nat := 9
/-- NO_INGOT. -/
def rcNoIngot : Nat := 10
/-- NO_ESCROW. -/
def rcNoEscrow : Nat := 11
/-- ABORTED. -/
def rcAborted : Nat := 12
/-- DUPLICATE. -/
def rcDuplicate : Nat := 13

namespace State

/-! ## The journal -/

/-- The angle that a journal entry names: zero while no job has run (Table 16-7). -/
def journalAngle (s : State) : Nat := if s.cad.ran then s.cad.angle else 0

/-- Append an entry; the newest overwrites the entry 65,536 older (R448). -/
def journal (s : State) (origin opcode result tag who : Nat) (record : List Byte) : State :=
  let e : JEntry := { seq := s.jnl.head, angle := s.journalAngle, origin := origin, opcode := opcode, result := result
                      tag := tag, who := who, record := record }
  { s with jnl := { s.jnl with
      head := s.jnl.head + 1
      entries := s.jnl.entries.drop (s.jnl.entries.length + 1 - 65536) ++ [e] } }

/-- The 32 bytes of an internal record: its kind in byte 32 and its fields after it (Table 16-8). -/
def record (kind : Nat) (fields : List (Nat × Nat × Nat)) : List Byte :=
  leBytes 32 (kind + (fields.map (fun f => f.2.2 % 2 ^ (8 * f.2.1) * 2 ^ (8 * (f.1 - 32)))).foldl (· + ·) 0)

/-- An internal entry: origin 0 Smith, 1 Bloom, 2 Cadence. Fields are given as (byte, bytes, value). -/
def journalInternal (s : State) (origin kind : Nat) (fields : List (Nat × Nat × Nat)) : State :=
  s.journal origin 0 0 0 0 (record kind fields)

/-- A RESET entry that waits is written at the first beat or command (R449). -/
def flushReset (s : State) : State :=
  match s.jnl.resetCause with
  | none => s
  | some c => ({ s with jnl := { s.jnl with resetCause := none } }).journalInternal 0 5 [(36, 4, c)]

/-- A STOP entry (Table 16-8). -/
def journalStop (s : State) (cause angle : Nat) : State := s.journalInternal 2 3 [(33, 1, cause), (36, 6, angle)]

/-! ## Slots -/

/-- The slot of a number. -/
def slot? (s : State) (n : Nat) : Option Slot := s.mbx.slots.find? (fun x => x.num == n)

/-- Change a slot. -/
def setSlot (s : State) (x : Slot) : State :=
  { s with mbx := { s.mbx with slots := s.mbx.slots.map (fun y => if y.num = x.num then x else y) } }

/-- Free a slot. -/
def freeSlot (s : State) (n : Nat) : State :=
  { s with mbx := { s.mbx with slots := s.mbx.slots.filter (fun y => y.num != n) } }

/-- A command completes (R436, R449): its journal entry where it is journalled, and its slot READY; a level-0 slot whose
session has closed is freed (R437). -/
def finish (s : State) (x : Slot) (code : Nat) (result : List Byte) : State :=
  let j := match cmdInfo x.opcode with
    | some c => c.journalled
    | none => false
  let s0 := if j then s.flushReset else s
  let seq := s0.jnl.head
  let s1 := if j then
      s0.journal (0x4000 + x.session) x.opcode code x.tag (x.who % 2 ^ 64) (leBytes 32 (Config.sha384 x.arg))
    else s
  let y := { x with ready := true, code := code, result := result, jseq := if j then some seq else none }
  let s2 := s1.setSlot y
  let s3 := { s2 with mbx := { s2.mbx with
      queue := s2.mbx.queue.filter (fun n => n != x.num)
      halts := s2.mbx.halts.filter (fun n => n != x.num)
      running := if s2.mbx.running = some x.num then none else s2.mbx.running } }
  let s4 := if code = rcAborted then s3.count Reg.mbxAborted else s3
  if x.closed then s4.freeSlot x.num else s4

/-- The command that runs completes. -/
def finishRunning (s : State) (code : Nat) (result : List Byte) : State :=
  match s.mbx.running with
  | some n => match s.slot? n with
    | some x => s.finish x code result
    | none => s
  | none => s

/-- The opcode of the journalled command that runs. -/
def runningOp (s : State) : Option Nat :=
  match s.mbx.running with
  | some n => (s.slot? n).map (fun x => x.opcode)
  | none => none

/-- A fault message as the first 16 bytes of a result (R446). -/
def msgBytes (m : FaultMsg) : List Byte := leBytes 8 m.word0 ++ leBytes 8 m.word1

/-- A rule of another chapter refuses the command that runs: its fault is raised, and the command completes REFUSED
with the message (R446). -/
def refuseWith (s : State) (src kind cls addr : Nat) : State :=
  (s.raise src kind cls addr).finishRunning rcRefused (msgBytes (s.faultMsg src kind cls addr false))

end State

/-- HALT and RESET take effect ahead of queued commands (R435). -/
def aheadOf (opcode : Nat) : Bool := opcode == 0x0107 || opcode == 0x0109

/-- A pending slot of an opcode whose command may start now: a journalled one when it is the oldest queued and nothing
runs (R435). -/
def startable (s : State) (n opcode : Nat) : Option Slot :=
  match s.slot? n, cmdInfo opcode with
  | some x, some c =>
    if s.smithUp ∧ x.opcode = opcode ∧ x.ready = false ∧ (c.journalled = false ∨ aheadOf opcode ∨
        (s.mbx.queue.head? = some n ∧ s.mbx.running = none)) then some x else none
  | _, _ => none

/-- A command starts: void where no such slot is pending; WRONG_STATE where the lifecycle state does not accept it
(R435, R439); else its effect. -/
def withSlot (s : State) (n opcode : Nat) (f : Slot → Host.Outcome State Fault Refusal) : Host.Outcome State Fault Refusal :=
  match startable s n opcode with
  | none => void s
  | some x => if cmdAccepts opcode s.life then f x else .next (s.finish x rcWrongState [])

/-- A journalled command that takes more than one event: it is marked as running. -/
def State.startRunning (s : State) (x : Slot) : State := { s with mbx := { s.mbx with running := some x.num } }

end Sys2Proof.Machine
end

