-- ==== Sys2Proof/Machine/Bays.lean ====
section
/-!
DEFINITION. Machine/Bays.lean: the bays and their cartridges as registers show them (R376, R377), and the reading of labels
(R378). -/

namespace Sys2Proof.Machine

namespace State

/-! ## Bays and cartridges -/

/-- The cartridge in a bay. -/
def cart? (s : State) (b : Nat) : Option Cart := Assoc.find? s.ing.carts b

/-- BAY.STATE.CODE (Table 14-10). -/
def bayCode (s : State) (b : Nat) : Nat := s.get (Reg.ingBayStateCode b)

/-- ING.GEN. -/
def ingGen (s : State) : Nat := s.get64 Reg.ingGenLo Reg.ingGenHi

/-- A class C fault of the ingot unit: bay and GEN in ADDR (Table 17-2). -/
def ingFault (s : State) (kind bay gen : Nat) : State := s.raise srcIngot kind clsC (bay % 2 + gen % 2 ^ 32 * 2 ^ 8)

/-- The ring zones of a cartridge that hold no generation. -/
def freeZones (c : Cart) : Nat := c.zones - 1 - (c.gens.map Gen.zones).foldl (· + ·) 0

/-- Put a cartridge's data in its bay, and show its free zones. -/
def setCart (s : State) (b : Nat) (c : Cart) : State :=
  ({ s with ing := { s.ing with carts := Assoc.put s.ing.carts b c } }).put (Reg.ingBayZonesFree b) (freeZones c)

/-- BAY.WRITTEN takes a value; above 95 % of RATED, LIFE_LOW sets and ING life low is raised once (R377). -/
def setWritten (s : State) (b w : Nat) : State :=
  let s1 := s.put64 (Reg.ingBayWrittenLo b) (Reg.ingBayWrittenHi b) w
  if 95 * s.get64 (Reg.ingBayRatedLo b) (Reg.ingBayRatedHi b) < 100 * w && !s.flag (Reg.ingBayStateLifeLow b) then
    (s1.put (Reg.ingBayStateLifeLow b) 1).ingFault 0x66 b s.ingGen
  else s1

/-- Bytes appended to a bay: the device adds them to the life counter between reports (R377). -/
def addWritten (s : State) (b n : Nat) : State :=
  (s.setWritten b (s.get64 (Reg.ingBayWrittenLo b) (Reg.ingBayWrittenHi b) + n)).count64 Reg.ingBytesLo Reg.ingBytesHi n

/-- The JOB_ID of the billet held. -/
def jobId (s : State) : Option Nat := s.billet.map (fun b => b.jobId)

/-- A cartridge's label names this job, its tag verifying (R378). -/
def labelOurs (s : State) (c : Cart) : Bool :=
  match c.label with
  | some l => l.tagOk && some l.job == s.jobId
  | none => false

/-- R378 on a bay once the job key exists: the bay's state from its cartridge's zone 0. -/
def readLabel (s : State) (b : Nat) : State :=
  match s.cart? b, s.jobId with
  | some c, some j =>
    if s.seed.isNone then s
    else if !c.idOk then s.put (Reg.ingBayStateCode b) 3
    else match c.label with
      | none =>
        if c.lifeOk then
          (((((s.emit (.zone b 2 0)).emit (.label b j s.addr)).setCart b
            { c with label := some { job := j, addr := s.addr, tagOk := true }, gens := [], last := 0 }).put
            (Reg.ingBayStateCode b) 6)).addWritten b 4096
        else s.put (Reg.ingBayStateCode b) 4
      | some l =>
        s.put (Reg.ingBayStateCode b) (if s.labelOurs c then (if l.addr = s.addr then 6 else 5) else 4)
  | _, _ => s

/-- R378 on both bays: at `ARM` and at restore. A bay that is written to keeps its state. -/
def readLabels (s : State) : State :=
  [0, 1].foldl (fun t b => if decide (2 ≤ t.bayCode b ∧ t.bayCode b ≤ 6) then t.readLabel b else t) s

/-- A restore or a replay is over, or cut short: nothing is read any more (R383, R387). -/
def endRestore (s : State) : State :=
  let s1 := if s.get Reg.ingStatusPhase = 4 then (s.put Reg.ingStatusPhase 0).put Reg.tmpStatusPhase 0 else s
  { s1 with ing := { s1.ing with restore := none, replay := none } }

end State

end Sys2Proof.Machine
end

