-- ==== Sys2Proof/Machine/Ports.lean ====
section
/-!
DEFINITION. Machine/Ports.lean: the fabric ports: training (R289 to R292), frames, error correction and replay
(R283 to R288), lanes dropped and readmitted (R293, R294), link credits and their audit (R303 to R308), and the
forwarding of packets in transit (R306, R319). -/

namespace Sys2Proof.Machine

/-- Logical lanes in a mask. -/
def lanesIn (mask : Nat) : Nat := ((List.range 8).filter (fun l => bit mask l)).length

/-- `b` comes after `a` in SEQ order (mod 2^24). -/
def seqAfter (a b : Nat) : Bool := decide (0 < (b + 2 ^ 24 - a) % 2 ^ 24 ∧ (b + 2 ^ 24 - a) % 2 ^ 24 < 2 ^ 23)

/-- Frames of a packet from an offset to another, at a width in bytes, with SEQs from `n` on. -/
def cutFrames (w : Nat) (pk : Packet) (off stop n : Nat) : Nat → List TxFrame
  | 0 => []
  | k + 1 => if stop ≤ off then [] else
    { seq := n % 2 ^ 24, kind := 0, packet := some pk, part := off } :: cutFrames w pk (off + w) stop (n + 1) k

/-- A replay buffer cut anew: the frames so far, the next SEQ, whether the packet of the run is cut already, where each old SEQ
went, and the packet half sent. -/
structure Recut where
  frames : List TxFrame
  next : Nat
  inRun : Bool
  moved : List (Nat × Nat)
  sending : Option (Packet × Nat)
  deriving DecidableEq, Repr

/-- The frames of a replay buffer, oldest first, cut at `w` bytes a frame (R293): a packet's run is cut as one; the packet half
sent is cut as far as whole frames go. -/
def recut (w : Nat) (c : Recut) : List TxFrame → Recut
  | [] => c
  | f :: r =>
    if f.kind ≠ 0 then
      recut w { c with frames := c.frames ++ [{ f with seq := c.next % 2 ^ 24 }], next := c.next + 1, inRun := false
                       moved := c.moved ++ [(f.seq, c.next % 2 ^ 24)] } r
    else if c.inRun && f.part != 0 then recut w { c with moved := c.moved ++ [(f.seq, (c.next + 2 ^ 24 - 1) % 2 ^ 24)] } r
    else match f.packet with
      | none => recut w c r
      | some pk =>
        let last := r.all (fun g => g.kind != 0 || g.part != 0)
        let half := match c.sending with
          | some (q, off) => if last && q == pk then some off else none
          | none => none
        let stop := match half with
          | some off => f.part + (off - f.part) / w * w
          | none => pk.bytes
        let l := cutFrames w pk f.part stop c.next (ceilDiv stop w)
        recut w { frames := c.frames ++ l, next := c.next + l.length, inRun := true
                  moved := c.moved ++ [(f.seq, (c.next + l.length + 2 ^ 24 - 1) % 2 ^ 24)]
                  sending := match half with
                    | some _ => some (pk, stop)
                    | none => c.sending } r

namespace State

/-- The fewest lanes at which port `p` runs (CTRL.MIN_LANES). -/
def minLanes (s : State) (p : Nat) : Nat := max 1 (s.get (Reg.fabCtrlMinLanes p))

/-- A fault of port `p`, masked while the port is disabled (CTRL.EN). -/
def raisePort (s : State) (p kind cls lane : Nat) : State :=
  if s.flag (Reg.fabCtrlEn p) then s.raise (srcPort p) kind cls (lane % 8) else s

/-- The port's STATE while it is up: up at full width, else degraded. -/
def putUpState (s : State) (p : Nat) : State :=
  s.put (Reg.fabStatusState p)
    (if s.get (Reg.fabStatusTxWidth p) = 8 ∧ s.get (Reg.fabStatusRxWidth p) = 8 then 2 else 3)

/-- The TRAIN frames of port `p` on its eight lanes, with the receive lanes that have passed equalisation (Table 11-4). `eqReq` is
EQ_REQ, which training firmware codes (notes/assumptions/159). -/
def sendTrain (s : State) (p usable eqReq : Nat) : State :=
  let dev := s.get Reg.netStatusAddr + s.get Reg.netStatusAssigned * 2 ^ 15
  s.emit (.train p ((List.range 8).map (fun l =>
    { lane := l, header := laneHeader l false 2 0 0 255
      payload := leBytes 8 Config.serialDigest ++ leBytes 2 dev ++ leBytes 1 p ++ leBytes 1 l ++ leBytes 1 usable ++ leBytes 2 eqReq })))

/-- Port `p` begins training: it sends TRAIN frames on all eight lanes (R289), with an EQ_REQ that is free
(notes/assumptions/159). -/
def trainStart (s : State) (p : Nat) : State :=
  let s1 := (s.put (Reg.fabStatusState p) 1).count (Reg.fabRetrains p)
  if s.get (Reg.fabCtrlMode p) = 1 then s1 else s1.draw.sendTrain p 0 s1.free

/-- Port `p` leads to the parent in the Cadence tree (R320). -/
def leadsToParent (s : State) (p : Nat) : Bool :=
  s.cad.role != .idle && s.get Reg.netCadParent != s.addr && s.peerAddr p == some (s.get Reg.netCadParent)

/-- Port `p` is down: every packet in its buffers is dropped with its counters (R308), packets on a route leave by an
alternate (Table 12-8), and the broadcast tree is repaired where the port led to the parent (R321). -/
def goDown (s : State) (p : Nat) : State :=
  let x := s.port p
  let y := { Port.init with jobDown := x.jobDown, reseal := x.reseal, myRandom := x.myRandom, peerRandom := x.peerRandom, txKey := x.txKey, rxKey := x.rxKey
                            txNonce := x.txNonce, rxNonce := x.rxNonce, attNonce := x.attNonce
                            attReport := x.attReport, peerNonce := x.peerNonce, peerDone := x.peerDone
                            saidSeed := x.saidSeed, sentSeed := x.sentSeed }
  let s1 := ((s.setPort p y).put (Reg.fabStatusState p) 4).raisePort p 0x39 clsU 0
  let s2 := (x.ready.filter (fun k => !k.loc && k.type != 1)).foldl (fun t k => t.sendRouted k) s1
  (if s.leadsToParent p then s2.repairTree else s2).placeWant

/-- The frames that no ACK covers are cut anew at the port's transmit width (R293). -/
def restripe (s : State) (p : Nat) : State :=
  let x := s.port p
  match x.replay with
  | [] => s
  | f :: _ =>
    let c := recut (s.frameBytes p) { frames := [], next := f.seq, inRun := false, moved := [], sending := x.sending } x.replay
    s.setPort p { x with
      replay := c.frames, txSeq := (c.next + 2 ^ 24 - 1) % 2 ^ 24, sending := c.sending
      spentAt := x.spentAt.map (fun e => match c.moved.find? (fun m => m.1 == e.1) with
        | some m => (m.2, e.2)
        | none => e) }

/-- Send every frame of the replay buffer again, in SEQ order (R287). -/
def resend (s : State) (p : Nat) : State :=
  (s.port p).replay.foldl (fun t f => t.sendFrame p f.kind false f.seq f.packet f.part) s

/-- One DEGRADE frame, which names the receive lanes in use and is kept for replay like any frame (R293, Table 11-7). While 256
frames are unacknowledged an IDLE goes in its place (R287). -/
def pushDegrade (s : State) (p : Nat) (nak : Bool) : State :=
  let x := s.port p
  if 256 ≤ x.replay.length then s.sendFrame p 1 nak x.lastData none 0
  else
    let seq := (x.txSeq + 1) % 2 ^ 24
    let mask := s.get (Reg.fabStatusRxLanes p)
    let y := { x with txSeq := seq, replay := x.replay ++ [{ seq := seq, kind := 3, packet := none, part := mask }] }
    (s.setPort p y).sendFrame p 3 nak seq none mask

/-- The frame that goes out where no DATA does: IDLE, or DEGRADE until an ACK covers one (R285, R293).
DESIGN CHOICE (notes/assumptions/158): frames that go out only because time passes are not listed one by one. -/
def sendBare (s : State) (p : Nat) (nak : Bool) : State :=
  if (s.port p).tell then s.pushDegrade p nak else s.sendFrame p 1 nak (s.port p).lastData none 0

/-- A frame with NAK set asks for replay from ACK + 1 (R287). -/
def sendNak (s : State) (p : Nat) : State := s.sendBare p true

/-- The peer is told the receive lanes in use, in every frame until an ACK covers one (R293). -/
def sendDegrade (s : State) (p : Nat) : State := (s.setPort p { s.port p with tell := true }).pushDegrade p false

/-- A lane joins again, by a DEGRADE exchange that adds it (R294). -/
def joinLane (s : State) (p lane margin : Nat) : State :=
  let logical := bits (s.get (Reg.fabLaneMap p)) (3 * lane) 3
  let old := s.get (Reg.fabStatusRxLanes p)
  let mask := if bit old logical then old else old + 2 ^ logical
  let s1 := (((s.put (Reg.fabLaneActive p lane) 1).put (Reg.fabLaneSignal p lane) 1).put (Reg.fabLaneLocked p lane) 1).put
    (Reg.fabLaneMargin p lane) margin
  let s2 := ((s1.put (Reg.fabStatusRxLanes p) mask).put (Reg.fabStatusRxWidth p) (lanesIn mask)).count (Reg.fabReadmits p)
  (s2.putUpState p).sendDegrade p

/-- The DEGRADE exchange of port `p` is over where an ACK covers a frame that names its lanes; a readmission that waited on it
goes next (R293, Table 11-7). -/
def endTell (s : State) (p ack : Nat) (old : List TxFrame) : State :=
  let mask := s.get (Reg.fabStatusRxLanes p)
  let x := s.port p
  if !x.tell then s
  else if old.any (fun f => f.kind == 3 && f.part == mask && !seqAfter ack f.seq) then
    let t := s.setPort p { x with tell := false, readmit := x.readmit.drop 1 }
    match x.readmit with
    | (lane, margin) :: _ => t.joinLane p lane margin
    | [] => t
  else if x.replay.any (fun f => f.kind == 3 && f.part == mask) then s
  else s.pushDegrade p false

/-- An ACK: the frames it covers leave the replay buffer, and waiting frames may go (R287). -/
def takeAck (s : State) (p ack : Nat) : State :=
  let x := s.port p
  ((s.setPort p { x with replay := x.replay.filter (fun f => seqAfter ack f.seq) }).endTell p ack x.replay).pumpAll p

/-- Start the attestation of a link's peer (R414): REQ with 32 fresh random bytes. -/
def sendReq (s : State) (p dst : Nat) : State :=
  let n := s.free % 2 ^ 256
  let s1 := s.draw
  (s1.setPort p { s1.port p with attNonce := some n, attReport := none, peerDone := false }).sendOn p
    (s1.newPacket 0x0A false dst 0 0 (.attest (.req n) 0 1))

/-- Send SEAL_HELLO with 8 random bytes (R310). -/
def sendHello (s : State) (p : Nat) : State :=
  let n := s.free % 2 ^ 64
  let s1 := (s.draw).put (Reg.fabSealState p) 1
  (s1.setPort p { s1.port p with myRandom := some n, peerRandom := none, reseal := false }).sendOn p
    (s1.newPacket 9 true 0 0 0 (.hello n))

end State

/-! ## Training -/

/-- PORT_TRAIN_START: a port begins training (R289); where it led to the Cadence parent, the tree is repaired
(R321). -/
def execPortTrainStart (port : Nat) (s : State) : Host.Outcome State Fault Refusal :=
  if decide (12 ≤ port) || !s.domUp (16 + port) || !s.flag (Reg.fabCtrlEn port) || s.get (Reg.fabStatusState port) == 1 then void s
  else .next (if s.leadsToParent port then (s.trainStart port).repairTree else s.trainStart port)

/-- FAB_RETRAIN: a write of 1 to CTRL.RETRAIN trains the port (R289). -/
def execFabRetrain (port : Nat) (s : State) : Host.Outcome State Fault Refusal :=
  if decide (12 ≤ port) || !s.domUp (16 + port) || !s.flag (Reg.fabCtrlEn port) then void s else .next (s.trainStart port)

/-- A lane shows signal, lock and a SYNC, plain or inverted (Table 11-3). -/
def laneLive (l : TrainLane) : Bool := l.signal && l.locked && (l.sync == 0xB6 || l.sync == 0x1C)

/-- The identity that the majority of the receive lanes report; a tie goes to the one on the lowest lane (R291). -/
def identity (lanes : List TrainLane) : Option TrainLane :=
  let live := lanes.filter laneLive
  let votes := fun (l : TrainLane) => (live.filter (fun k => k.digest == l.digest && k.port == l.port)).length
  live.foldl (fun best l => match best with
    | none => some l
    | some b => if votes b < votes l ∨ (votes b = votes l ∧ l.lane < b.lane) then some l else some b) none

/-- A lane carries another port or another peer (Table 11-5). -/
def foreignLane (who : Option TrainLane) (l : TrainLane) : Bool :=
  match who with
  | some w => laneLive l && (l.digest != w.digest || l.port != w.port)
  | none => false

/-- A lane that training leaves in use. -/
def usedLane (who : Option TrainLane) (l : TrainLane) : Bool := laneLive l && l.passed && !foreignLane who l

/-- A mask of physical lanes. -/
def laneMask (lanes : List TrainLane) (f : TrainLane → Bool) : Nat :=
  ((List.range 8).filter (fun i => lanes.any (fun l => l.lane == i && f l))).foldl (fun m i => m + 2 ^ i) 0

namespace State

/-- What training leaves in the lane and map fields (Tables 11-5 and 11-8). The transmit LANE_MASK is the lanes that the peer
reported usable (Table 11-3; DESIGN CHOICE, notes/assumptions/159). -/
def putLanes (s : State) (p : Nat) (lanes : List TrainLane) : State :=
  let who := identity lanes
  let txLanes := match who with
    | some w => w.usable % 256
    | none => 0
  let used := lanes.filter (usedLane who)
  let rx := ((List.range 8).filter (fun i => used.any (fun l => l.txLane == i))).foldl (fun m i => m + 2 ^ i) 0
  let map := (List.range 8).foldl (fun m i =>
    let old := bits (s.get (Reg.fabLaneMap p)) (3 * i) 3
    m + (match lanes.find? (fun l => l.lane == i && usedLane who l) with
      | some l => l.txLane % 8
      | none => old) * 2 ^ (3 * i)) 0
  let s1 := (((s.put (Reg.fabStatusRxLanes p) rx).put (Reg.fabStatusRxWidth p) used.length).put
    (Reg.fabStatusTxLanes p) txLanes).put (Reg.fabStatusTxWidth p) (lanesIn txLanes)
  let s2 := (((s1.put (Reg.fabLaneMap p) map).put (Reg.fabWiringPolarity p) (laneMask lanes (fun l => l.signal && l.sync == 0x1C))).put
    (Reg.fabWiringForeign p) (laneMask lanes (foreignLane who))).put (Reg.fabWiringNosig p)
    (255 - laneMask lanes (fun l => l.signal && l.locked))
  (List.range 8).foldl (fun t i =>
    let f := fun (g : TrainLane → Bool) => b2n (lanes.any (fun l => l.lane == i && g l))
    (((t.put (Reg.fabLaneSignal p i) (f (fun l => l.signal))).put (Reg.fabLaneLocked p i) (f (fun l => l.locked))).put
      (Reg.fabLaneActive p i) (f (usedLane who))).put (Reg.fabLaneMargin p i)
      (match lanes.find? (fun l => l.lane == i) with
       | some l => l.margin
       | none => 0)) s2

/-- The peer's identity as training shows it (Table 11-8). -/
def putPeer (s : State) (p : Nat) (w : TrainLane) : State :=
  ((((s.put (Reg.fabPeerDev p) w.dev).put (Reg.fabPeerPort p) w.port).put (Reg.fabPeerAddressed p) (b2n w.addressed)).put
    (Reg.fabPeerValid p) 1).put64 (Reg.fabPeerSerialLo p) (Reg.fabPeerSerialHi p) (w.digest % 2 ^ 64)

/-- Port `p` is up: credits in full where it starts afresh (R308, R334), else replay resumes (R288). -/
def portCounters (s : State) (p : Nat) : State :=
  let x := s.port p
  if x.fresh then
    s.setPort p { x with fresh := false, shared := sharedCredits
                         classes := classCredits.map (fun c => List.replicate 12 c) }
  else (((s.setPort p { x with tell := false, readmit := [] }).restripe p).resend p).pumpAll p

/-- The device is Armed or Running. -/
def inJob (s : State) : Bool := s.life == .armed || s.life == .running

/-- What the packet layer does with a port that comes up (R310, R311, R314, R414). -/
def portUpJob (s : State) (p : Nat) (changed : Bool) : State :=
  let s1 := if s.inJob then s.originate else s
  match s1.memberOf (s1.peerDigest p) with
  | none => s1
  | some m =>
    if !s1.inJob then s1
    else if changed then s1.sendReq p m.addr
    else if (s1.port p).reseal && s1.seed.isSome && s1.flag Reg.netCtrlSeal then s1.sendHello p
    else s1

end State

/-- PORT_UP: training ends, the peer having been told the lanes that passed with the firmware's EQ_REQ (Table 11-3); the port
comes up at its width, or is down (R289 to R292, R295). -/
def execPortUp (port : Nat) (lanes : List TrainLane) (eqReq : Nat) (s : State) : Host.Outcome State Fault Refusal :=
  if decide (12 ≤ port) || !s.domUp (16 + port) || s.get (Reg.fabStatusState port) != 1 then void s
  else if s.get (Reg.fabCtrlMode port) == 1 then
    .next ((s.putLanes port lanes).put (Reg.fabStatusState port)
      (if lanes.any (fun l => l.signal && l.locked && l.passed) then 5 else 4))
  else
    let who := identity lanes
    let old := (s.flag (Reg.fabPeerValid port), s.peerDigest port, s.get (Reg.fabPeerPort port))
    let s1 := (s.sendTrain port (laneMask lanes (usedLane who)) eqReq).putLanes port lanes
    let s2 := (lanes.filter (foreignLane who)).foldl (fun t l => t.raisePort port 0x3A clsC l.lane) s1
    if s2.get (Reg.fabStatusRxWidth port) < s2.minLanes port ∨ s2.get (Reg.fabStatusTxWidth port) < s2.minLanes port then
      .next (s2.goDown port)
    else match who with
      | none => .next (s2.goDown port)
      | some w =>
        let s3 := s2.putPeer port w
        if s3.flag (Reg.fabCtrlLoopback port) then .next ((s3.put (Reg.fabStatusState port) 6).portCounters port)
        else
          let changed := s.inJob && old.1 && (old.2.1 != w.digest % 2 ^ 64 || old.2.2 != w.port % 16)
          let s4 := if changed then
              (s3.raisePort port 0x3C clsU 0).setPort port
                { s3.port port with jobDown := true, reseal := true, myRandom := none, peerRandom := none }
            else s3
          let s5 := if changed then s4.put (Reg.fabSealState port) 0 else s4
          .next (((s5.putUpState port).portCounters port).portUpJob port changed)

/-- PORT_DOWN_RETRY: 100 ms have passed on a down port (R289). -/
def execPortDownRetry (port : Nat) (s : State) : Host.Outcome State Fault Refusal :=
  if decide (12 ≤ port) || !s.domUp (16 + port) || !s.flag (Reg.fabCtrlEn port) || s.get (Reg.fabStatusState port) != 4 then void s
  else .next (s.trainStart port)

/-! ## Frames -/

namespace State

/-- A packet discarded by R311. -/
def sealFail (s : State) (p : Nat) : State :=
  ((s.count (Reg.fabSealFail p)).raise srcBellows 0x42 clsU (s.fabAddr p)).wantAbort

/-- The stream entries that Bellows holds (R322). -/
def holdsStream (s : State) (id kind : Nat) : Bool :=
  match s.billet with
  | some b => b.streams.any (fun u => u.dev == s.addr && u.id == id && u.kind == kind)
  | none => false

/-- The holder's kind that a packet TYPE needs of its stream (R322); none for types without one. -/
def streamKind (type : Nat) : Option Nat :=
  if type = 0x10 then some 0 else if type = 0x18 then some 1 else if type = 0x0E then some 2 else none

/-- The bytes that an entry of the stream space expects: of a hand-over channel in a microbatch, of a bucket or of an all-reduce of
one value (R266) in a step (R322). -/
def streamExpected (s : State) (u : StreamUse) : Nat :=
  match s.billet with
  | none => 0
  | some b =>
    let kids := fun (l : List Nat) (o : Nat) =>
      let v := (l.idxOf s.addr + l.length - o % max 1 l.length) % max 1 l.length
      b2n (decide (2 * v + 1 < l.length)) + b2n (decide (2 * v + 2 < l.length))
    match u.kind with
    | 0 => match b.channels[u.index]? with
      | some c => c.chunks * c.slotBytes
      | none => 0
    | 1 => match b.buckets[u.index]? with
      | some k => (k.segs.map (fun g => kids (b.groups.getD k.group []) g.owner * g.len)).foldl (· + ·) 0
      | none => 0
    | _ => let l := b.groups.getD u.index []
      5 * (kids l 0 + b2n (decide (1 ≤ l.idxOf s.addr)))

/-- Bytes received for a stream; a hand-over stream's count begins again where its microbatch is complete (R319, R322).
DESIGN CHOICE (notes/assumptions/161): where the counts of a channel begin again. -/
def countStream (s : State) (id n : Nat) : State :=
  let got := Assoc.get 0 s.net.received id + n
  let use : Option StreamUse := match s.billet with
    | some b => b.streams.find? (fun u => u.dev == s.addr && u.id == id)
    | none => none
  let left := match use with
    | some (u : StreamUse) => if u.kind = 0 ∧ s.streamExpected u ≤ got then got - s.streamExpected u else got
    | none => got
  { s with net := { s.net with received := Assoc.set 0 s.net.received id left } }

/-- The checks of a packet for this device that the packet layer makes before it is read (R322, R323). -/
def checkPacket (s : State) (pk : Packet) : State :=
  if stepType pk.type && pk.attempt != s.cad.attempt then s.count Reg.netStale
  else match streamKind pk.type with
    | some k =>
      if s.holdsStream pk.stream k then s.countStream pk.stream pk.body.len
      else ((s.count Reg.netNostream).raise srcBellows 0x47 clsU (s.fabAddr 0)).wantAbort
    | none => s

/-- A packet that has arrived whole at port `p`: counted, checked, kept in the buffer while in transit, and otherwise
delivered or discarded, its credits returned (R302, R304, R307, R309 to R311). -/
def takePacket (s : State) (p : Nat) (rp : RxPacket) : State :=
  let pk := { rp.packet with vc := rp.packet.vc % 4 }
  let n := pk.credits
  let x := s.port p
  let here := pk.loc || pk.dst == s.addr
  let linked := s.flag Reg.netCtrlSeal && s.get (Reg.fabSealState p) == 2
  let s1 := (s.setPort p { x with rcvd := modAt x.rcvd pk.vc (· + n) }).count (Reg.fabVcRxPkts p (pk.vc % 4))
  let done := fun (t : State) => t.returnCredits p pk.vc rp.cls n
  let stale := match x.rxNonce with
    | some k => decide (pk.nonce ≤ k)
    | none => false
  if vcOfType pk.type != some pk.vc then done ((s1.count Reg.netBadtype).raise srcBellows 0x40 clsC (s.fabAddr p))
  else if linked && !pk.sealed && !earlyType pk.type then done (s1.sealFail p)
  else if linked && pk.sealed && stale then done (s1.sealFail p)
  else if linked && pk.sealed && here && (!rp.tagOk || pk.inverted) then done (s1.sealFail p)
  else
    let s2 := if linked && pk.sealed then s1.setPort p { s1.port p with rxNonce := some pk.nonce } else s1
    if here then done (s2.checkPacket pk)
    else s2.setPort p { s2.port p with transit := (s2.port p).transit ++ [rp] }

/-- The decoder's counts of a port frame's lane frames (R286). -/
def countLanes (s : State) (p : Nat) (lanes : List LaneRx) : State :=
  lanes.foldl (fun t l =>
    let u := t.count (Reg.fabLaneCorrSym p (l.lane % 8)) (laneCorrected l)
    if laneBad l then u.count (Reg.fabLaneUncorr p (l.lane % 8)) else u) s

/-- A DATA frame is acknowledged in the next frame sent: an IDLE, where the port has nothing else to send (R285, R287). -/
def sendAck (s : State) (p : Nat) : State :=
  let x := s.port p
  if x.ready.isEmpty && x.sending.isNone then s.sendBare p false else s

end State

/-- LANE_FRAME: a port frame is received and decoded (R286 to R288, R300). `lanes` are its lane
frames with their symbol errors, `headers` their headers in that order, `packets` those that end in it. -/
def execLaneFrame (port : Nat) (lanes : List LaneErr) (headers : List Nat) (packets : List RxPacket) (s : State) :
    Host.Outcome State Fault Refusal :=
  if decide (12 ≤ port) || !s.portUp port then void s
  else
    let lanes := laneRxs lanes headers
    let s1 := s.countLanes port lanes
    let x := s1.port port
    let x1 := { x with rxFrames := x.rxFrames + 1 }
    let next := (x.rxSeq + 1) % 2 ^ 24
    let head := (portHead lanes).getD { kind := 1, nak := false, seq := x.rxSeq, ack := 0, mask := 0 }
    if lanes.any laneBad then
      let again := x.discarding && head.seq == next
      let fails := if again then x.fails + 1 else x.fails
      let s2 := s1.setPort port { x1 with discarding := true, fails := if fails = 8 then 0 else fails }
      if fails = 8 then .next ((s2.trainStart port).raisePort port 0x38 clsC 0)
      else .next (s2.sendNak port)
    else if head.kind = 2 then .next (s1.setPort port x1)
    else if head.kind = 1 then .next ((s1.setPort port x1).takeAck port head.ack)
    else if head.seq = next then
      let s2 := (s1.setPort port { x1 with rxSeq := next, discarding := false, fails := 0 }).takeAck port head.ack
      .next ((packets.foldl (fun t r => t.takePacket port r) s2).sendAck port).placeWant
    else if x.discarding || !seqAfter x.rxSeq head.seq then .next ((s1.setPort port x1).takeAck port head.ack)
    else .next (((s1.setPort port { x1 with discarding := true }).takeAck port head.ack).sendNak port)

/-- NAK: the transmitter resends every frame from ACK + 1, then goes on with new frames (R287). -/
def execNak (port acked : Nat) (s : State) : Host.Outcome State Fault Refusal :=
  if decide (12 ≤ port) || !s.portUp port then void s
  else
    let x := s.port port
    .next (((((s.setPort port { x with replay := x.replay.filter (fun f => seqAfter acked f.seq) }).count
      (Reg.fabReplays port)).resend port).endTell port acked x.replay).pumpAll port)

/-- SCHEDULED_IDLE: one IDLE port frame after every 8,191 frames, whatever the load (R285); the count begins again. -/
def execScheduledIdle (port : Nat) (s : State) : Host.Outcome State Fault Refusal :=
  if decide (12 ≤ port) || !s.portUp port then void s
  else
    let x := s.port port
    let s1 := (s.setPort port { x with sinceIdle := 0 }).emit (s.frameOut port 1 false x.lastData none 0)
    .next (if x.tell then s1.pushDegrade port false else s1)

/-! ## Lanes -/

/-- A lane is to be dropped (R293): it lost signal or lock, or has in a 1 ms window more than 425,000 corrected symbols or at least
4 uncorrectable lane frames. -/
def laneFails (lost : Bool) (corrected uncorr : Nat) : Bool := lost || decide (425000 < corrected) || decide (4 ≤ uncorr)

/-- LANE_DROP: a lane is dropped and the peer told by DEGRADE, or the port goes down (R293). -/
def execLaneDrop (port lane : Nat) (lost : Bool) (s : State) (corrected : Nat := 0) (uncorr : Nat := 0) : Host.Outcome State Fault Refusal :=
  if decide (12 ≤ port) || decide (8 ≤ lane) || !s.portUp port || !s.flag (Reg.fabLaneActive port lane) ||
     !laneFails lost corrected uncorr then void s
  else
    let logical := bits (s.get (Reg.fabLaneMap port)) (3 * lane) 3
    let old := s.get (Reg.fabStatusRxLanes port)
    let mask := if bit old logical then old - 2 ^ logical else old
    let s1 := ((s.put (Reg.fabLaneActive port lane) 0).put (Reg.fabStatusRxLanes port) mask).put
      (Reg.fabStatusRxWidth port) (lanesIn mask)
    let s2 := if lost then (s1.put (Reg.fabLaneSignal port lane) 0).put (Reg.fabLaneLocked port lane) 0 else s1
    let s3 := (s2.count (Reg.fabDrops port)).raisePort port 0x3B clsC lane
    if lanesIn mask < s3.minLanes port then .next (s3.goDown port)
    else .next ((s3.putUpState port).sendDegrade port)

/-- DEGRADE: the peer names the lanes it receives on; the transmitter stripes over them and resends what is not
acknowledged at the new width (R293, R294). A repeated DEGRADE changes nothing. -/
def execDegrade (port mask : Nat) (s : State) : Host.Outcome State Fault Refusal :=
  if decide (12 ≤ port) || !s.portUp port || mask % 256 == s.get (Reg.fabStatusTxLanes port) then void s
  else
    let s1 := (s.put (Reg.fabStatusTxLanes port) mask).put (Reg.fabStatusTxWidth port) (lanesIn (mask % 256))
    if lanesIn (mask % 256) < s1.minLanes port then .next (s1.goDown port)
    else .next ((((s1.putUpState port).restripe port).resend port).pumpAll port)

/-- LANE_READMIT: a dropped lane has passed retraining alone and joins again (R294), after the exchange of a drop (Table 11-7). -/
def execLaneReadmit (port lane margin : Nat) (s : State) : Host.Outcome State Fault Refusal :=
  if decide (12 ≤ port) || decide (8 ≤ lane) || !s.portUp port || !s.flag (Reg.fabCtrlReadmit port) ||
     s.flag (Reg.fabLaneActive port lane) then void s
  else if (s.port port).tell then .next (s.setPort port { s.port port with readmit := (s.port port).readmit ++ [(lane, margin)] })
  else .next (s.joinLane port lane margin)

/-! ## Credits, audits, transit -/

/-- CREDIT: credits return to the pool or class they came from, and waiting packets may go (R304, R307). -/
def execCredit (port vc cls count : Nat) (s : State) : Host.Outcome State Fault Refusal :=
  if decide (12 ≤ port) || decide (4 ≤ vc) || decide (12 < cls) || !s.portUp port then void s
  else
    let x := s.port port
    let y := if cls = 0 then { x with shared := modAt x.shared vc (· + count) }
      else { x with classes := x.classes.set vc (modAt (x.classes.getD vc []) (cls - 1) (· + count)) }
    .next ((s.setPort port { y with got := modAt y.got vc (· + count) }).pumpAll port)

/-- PACKET_FORWARD: the oldest packet in transit at a port leaves on its route, sealed afresh, or is discarded (R306,
R319). While its link holds no credits for it, it waits. -/
def execPacketForward (port : Nat) (tagOk : Bool) (s : State) : Host.Outcome State Fault Refusal :=
  match (s.port port).transit with
  | [] => void s
  | rp :: rest =>
    let pk := rp.packet
    let left := fun (t : State) =>
      (t.setPort port { t.port port with transit := rest }).returnCredits port pk.vc rp.cls pk.credits
    if !s.alive then void s
    else if 12 ≤ pk.hops then
      .next (left (((s.count Reg.netHoplimit).raise srcBellows 0x45 clsU (s.fabAddr port)).wantAbort)).placeWant
    else match s.routePort pk.dst (earlyType pk.type) with
      | none => .next (left s.noRoute).placeWant
      | some (q, alt) =>
        let linked := pk.sealed && s.flag Reg.netCtrlSeal && s.get (Reg.fabSealState port) == 2
        let good := !linked || (tagOk && !pk.inverted)
        let out := { pk with hops := pk.hops + 1, inverted := !good }
        if !s.canGo q out || (s.port q).ready.any (fun k => k.vc == pk.vc && k.type != 1) then void s
        else
          let s1 := if alt then s.count Reg.netAltroute else s
          let s2 := left (s1.goOut q out)
          .next (if good then s2 else (s2.sealFail port).placeWant)

/-- AUDIT_SEND: after every 1,024 port frames received, the receiver sends its counts (R308). -/
def execAuditSend (port : Nat) (s : State) : Host.Outcome State Fault Refusal :=
  let x := s.port port
  if decide (12 ≤ port) || !s.portUp port || decide (x.rxFrames < 1024) then void s
  else
    let s1 := s.setPort port { x with rxFrames := x.rxFrames - 1024 }
    .next (s1.sendOn port (s1.newPacket 0x0B true 0 0 0 (.audit x.rxSeq x.rcvd x.freed)))

/-- Credits spent on a channel in packets that ended after a SEQ. -/
def spentAfter (x : Port) (seq vc : Nat) : Nat :=
  ((x.spentAt.filter (fun e => e.2.1 == vc && seqAfter seq e.1)).map (fun e => e.2.2)).foldl (· + ·) 0 +
  (match x.sending with
    | some (pk, _) => if pk.vc = vc then pk.credits else 0
    | none => 0)

/-- Both equalities of R308 on every channel. -/
def auditOk (x : Port) (seq : Nat) (rcvd freed : List Nat) : Bool :=
  (List.range 4).all (fun v => x.spent.getD v 0 == rcvd.getD v 0 + spentAfter x seq v && x.got.getD v 0 == freed.getD v 0)

/-- AUDIT: the transmitter checks a received audit (R308). -/
def execAudit (port seq : Nat) (rcvd freed : List Nat) (s : State) : Host.Outcome State Fault Refusal :=
  if decide (12 ≤ port) || !s.portUp port then void s
  else
    let x := s.port port
    if auditOk x seq rcvd freed then
      .next ((s.setPort port { x with spentAt := x.spentAt.filter (fun e => seqAfter seq e.1) }).count (Reg.fabAudits port))
    else .next (s.raise srcBellows 0x41 clsF (s.fabAddr port))

end Sys2Proof.Machine
end

