-- ==== Sys2Proof/Machine/Trust.lean ====
section
/-!
DEFINITION. Machine/Trust.lean: measurements (R403), reports (R405), roster amendments (R412), the mutual attestation
of a link's ends (R413, R414), the job seed (R415, R416), and the end of `ARM` (R316, R440). -/

namespace Sys2Proof.Machine

/-- A log entry's 64 bytes (R403). -/
def entryBytes (e : MeasEntry) : List Byte :=
  leBytes 4 e.index ++ leBytes 4 (e.type % 256 + e.kind % 256 * 2 ^ 8 + e.slot % 256 * 2 ^ 16) ++ leBytes 4 e.version ++
  leBytes 4 0 ++ leBytes 48 e.digest

/-- One extension of MEAS (R403). -/
def extend (meas : Nat) (e : MeasEntry) : Nat :=
  Config.sha384 (leBytes 48 meas ++ leBytes 48 (Config.sha384 (entryBytes e)))

namespace State

/-- Extend MEAS and log the entry; a lost entry counts (R403). -/
def measure (s : State) (type kind slot version digest : Nat) : State :=
  let e : MeasEntry := { index := s.get Reg.cruMeasCount, type := type, kind := kind, slot := slot, version := version
                         digest := digest }
  let s1 := { s with cru := { s.cru with
      meas := extend s.cru.meas e
      log := if s.cru.log.length < 256 then s.cru.log ++ [e] else s.cru.log } }
  (if s.cru.log.length < 256 then s1 else s1.count Reg.cruLogLost).count Reg.cruMeasCount

/-- The job key, once the seed is held with a billet (R415). -/
def jobKey (s : State) : Option Nat :=
  match s.seed, s.billet with
  | some k, some b => some (Config.jobKey k b.jobId b.digest)
  | _, _ => none

/-- JOB_CHECK as a report shows it: zero while no seed is held (Table 15-2). -/
def jobCheck (s : State) : Nat :=
  match s.jobKey with
  | some k => Config.jobCheck k
  | none => 0

/-- The report of R405 over a nonce. -/
def report (s : State) (nonce kemEk : Nat) : Report :=
  { state := s.life.code, addr := s.addr, assigned := s.flag Reg.netStatusAssigned, serialDigest := Config.serialDigest
    exception := s.flag Reg.cruStatusException, debug := s.flag Reg.cruStatusDebug, scrubOk := s.flag Reg.cruStatusScrubOk
    seedHeld := s.seed.isSome, nonce := nonce, meas := s.cru.meas, logCount := s.get Reg.cruMeasCount
    owner := s.cru.owner.getD 0, billet := (s.billet.map (fun b => b.digest)).getD 0
    jobId := (s.billet.map (fun b => b.jobId)).getD 0
    amendSeq := s.get Reg.cruAmendSeq, jobCheck := s.jobCheck, kemEk := kemEk }

/-- The fragments of an attestation message on a port (R413). -/
def sendAttest (s : State) (p dst : Nat) (m : AttMsg) : State :=
  let n := max 1 (ceilDiv m.bytes 1016)
  (List.range n).foldl (fun t i => t.sendOn p (t.newPacket 0x0A false dst 0 0 (.attest m i n))) s

/-- An amendment by R412: its JOB_ID, BILLET_DIGEST, SEQ and digests agree. -/
def amendOk (s : State) (a : Amendment) : Bool :=
  match s.billet with
  | some b => a.good && a.jobId == b.jobId && a.billet == b.digest && a.seq == s.get Reg.cruAmendSeq + 1 &&
      b.roster.any (fun m => m.addr == a.addr && m.digest == a.oldDigest) && !(b.roster.any (fun m => m.digest == a.newDigest))
  | none => false

/-- The digest of one roster entry changes. -/
def amendMember (a : Amendment) (m : Member) : Member := if m.addr = a.addr then { m with digest := a.newDigest } else m

/-- The roster of a billet with an amendment. -/
def amendBillet (a : Amendment) (b : Billet) : Billet := { b with roster := b.roster.map (amendMember a) }

/-- Accept an amendment, or refuse it with CRU amendment (R412). -/
def amend (s : State) (a : Amendment) : State :=
  if s.amendOk a then
    let s1 := { s with
      billet := s.billet.map (amendBillet a)
      cru := { s.cru with amends := s.cru.amends ++ [a] } }
    (s1.put Reg.cruAmendSeq a.seq).measure 7 0 0 a.seq a.digest
  else s.raise srcCrucible 0x6F clsU 0

/-- Apply the amendments that a peer presents beyond this device's AMEND_SEQ (R412). -/
def applyAmends (s : State) (l : List Amendment) : State :=
  l.foldl (fun t a => if t.get Reg.cruAmendSeq < a.seq then t.amend a else t) s

/-- MEAS lies in FW_ALLOW: one of its values, extended by the billet and the amendments, is the report's
(notes/assumptions/44). -/
def measAllowed (b : Billet) (amends : List Amendment) (r : Report) : Bool :=
  b.fwAllow.isEmpty || b.fwAllow.any (fun m =>
    let i := r.logCount - 1 - amends.length
    let first := extend m { index := i, type := 6, kind := 0, slot := 0, version := 0, digest := b.digest }
    (amends.zipIdx.foldl (fun v (a, k) =>
      extend v { index := i + 1 + k, type := 7, kind := 0, slot := 0, version := a.seq, digest := a.digest }) first) == r.meas)

/-- The checks of R414 step 3 on a peer's report, after its amendments. -/
def reportOk (s : State) (nonce : Nat) (r : Report) (amends : List Amendment) : Bool :=
  match s.billet with
  | some b =>
    r.nonce == nonce && ((r.state == 1 && r.billet != 0) || r.state == 2 || r.state == 3) &&
    b.roster.any (fun m => m.addr == r.addr && m.digest == r.serialDigest) &&
    some r.owner == s.cru.owner && r.billet == b.digest && r.jobId == b.jobId && measAllowed b amends r
  | none => false

/-! ## The end of ARM -/

/-- The ports that lead to the job's other TRZ-2080 devices by the records (R315, R414). -/
def jobPorts (s : State) : List (Nat × Nat) :=
  (linksOf s.roster s.net.records s.addr).filter (fun l => s.devices.contains l.2)

/-- `ARM` is refused, with its fault (R315 to R317, R415); seeds that differ refuse a restore too. -/
def refuseArm (s : State) (kind addr : Nat) (src : Nat) : State :=
  if s.runningOp = some 0x0104 then (s.put Reg.netStatusState 0).refuseWith src kind clsU addr
  else if s.runningOp = some 0x0108 ∧ kind = 0x71 then
    ({ s.endRestore with cad := { s.cad with role := .idle, mOn := false, active := false } }).refuseWith src kind clsU addr
  else s.raise src kind clsU addr

/-- `ARM` completes once every device's sealed record has come and agrees (R316, R440); the bays' labels are read (R378). -/
def checkArm (s : State) : State :=
  if s.runningOp = some 0x0104 ∧ s.get Reg.netStatusState = 4 ∧
     s.devices.all (fun a => s.net.sealedRecs.any (fun r => r.origin == a)) then
    (({ s with life := .armed }).readLabels).finishRunning rcOk
      (leBytes 2 s.devices.length ++ leBytes 1 (s.get Reg.netStatusDiameter))
  else s

/-- A link with a peer attested in both directions is sealed by R310. -/
def trySeal (s : State) (p : Nat) : State :=
  let x := s.port p
  if s.seed.isSome && x.attReport.isSome && x.peerDone && s.flag Reg.netCtrlSeal && s.get (Reg.fabSealState p) == 0 then
    s.sendHello p
  else s

/-- Once every job link is attested and sealed, the device sends its record again, sealed (R316). -/
def advanceSeal (s : State) : State :=
  if s.get Reg.netStatusState = 3 ∧ s.seed.isSome ∧
     s.jobPorts.all (fun l => s.linkSealed l.1 && (s.port l.1).attReport.isSome && (s.port l.1).peerDone) then
    let r := match recordOf s.net.records s.addr with
      | some r => r
      | none => s.ownRecord
    let s1 := s.put Reg.netStatusState 4
    let s2 := { s1 with net := { s1.net with sealedRecs := storeRecord s1.net.sealedRecs r } }
    (s2.flood r none).checkArm
  else s

/-! ## The seed -/

/-- The device holds a seed: it is wrapped into the boot store, and reported (R416). -/
def holdSeed (s : State) (k parent : Nat) : State :=
  let s1 := { s with
    seed := some k
    cru := { s.cru with wrapped := match s.billet with
      | some b => some (b.jobId, b.digest, k)
      | none => s.cru.wrapped } }
  (s1.put Reg.cruStatusSeedHeld 1).put Reg.cruSeedParent parent

/-- The reports of the peers attested. -/
def peerReports (s : State) : List Report := (List.range 12).filterMap (fun p => (s.port p).attReport)

/-- The devices that hold the seed, among this one and its neighbours, show one JOB_CHECK (R415). -/
def checksAgree (s : State) : Bool :=
  let cs := (s.peerReports.filter (fun r => r.seedHeld)).map (fun r => r.jobCheck) ++
    (if s.seed.isSome then [s.jobCheck] else [])
  cs.all (fun c => cs.head? == some c)

/-- The seed's holder sends SEED to a neighbour without it, once each has accepted the other (R415). -/
def spreadSeed (s : State) (p : Nat) : State :=
  let x := s.port p
  match s.seed, x.attReport with
  | some k, some r =>
    if !r.seedHeld && x.peerDone && x.saidSeed && !x.sentSeed then
      let n := s.free
      let s1 := s.draw
      (s1.setPort p { x with sentSeed := true }).sendAttest p r.addr (.seed n (Config.sealSeed k n))
    else s
  | _, _ => s

/-- Tell the neighbours without the seed that this device now holds it: DONE (notes/assumptions/45). -/
def tellSeed (s : State) : State :=
  (List.range 12).foldl (fun t p => match (t.port p).attReport with
    | some r => if r.seedHeld then t else t.sendAttest p r.addr .done
    | none => t) s

/-- The device with the lowest address draws the seed when no device reports one (R415, R417). -/
def originSeed (s : State) : State :=
  let ports := s.jobPorts
  if s.get Reg.netStatusState = 3 ∧ s.seed.isNone ∧ lowest s.devices = some s.addr ∧
     ports.all (fun l => (s.port l.1).attReport.isSome) ∧ !(s.peerReports.any (fun r => r.seedHeld)) then
    let k := s.free % 2 ^ 256
    let s1 := (s.draw).holdSeed k s.addr
    let s2 := match s1.billet with
      | some b => if b.escrow then
          let n := s1.free
          { s1.draw with cru := { s1.cru with escrow := some (n, Config.sealSeed k n) } }
        else s1
      | none => s1
    s2.tellSeed
  else s

/-- What follows each step of the attestation: draw the seed if it falls to this device, seal, and go on. -/
def attestStep (s : State) : State :=
  let s1 := s.originSeed
  ((List.range 12).foldl (fun t p => (t.spreadSeed p).trySeal p) s1).advanceSeal

end State

/-- The job member at the other end of a port, by its digest alone. -/
def linkPeer (s : State) (p : Nat) : Option Nat :=
  if s.portUp p then (s.memberOf (s.peerDigest p)).map (fun m => m.addr) else none

/-- ATTEST_REQ: the device answers with a REPORT over the peer's nonce (R405, R414). -/
def execAttestReq (port nonce : Nat) (s : State) : Host.Outcome State Fault Refusal :=
  match linkPeer s port with
  | none => void s
  | some a =>
    if !s.alive then void s
    else
      let ek := s.free
      let s1 := s.draw
      let r := s1.report nonce ek
      let s2 := (s1.setPort port { s1.port port with peerNonce := some nonce, saidSeed := s1.seed.isSome, sentSeed := false }).sendAttest
        port a (.report r s1.cru.amends)
      let s3 := { s2 with cru := { s2.cru with claimNonce := some nonce } }
      let x := s3.port port
      let s4 := if x.attNonce.isNone && x.attReport.isNone && (s3.inJob || s3.get Reg.netStatusState == 3) then
          s3.sendReq port a
        else s3
      .next (s4.spreadSeed port)

/-- ATTEST_REPORT: the device checks the peer's certificate, report and amendments, and accepts or refuses it (R412,
R414, R415). -/
def execAttestReport (port : Nat) (report : Report) (amends : List Amendment) (verified : Bool) (s : State) :
    Host.Outcome State Fault Refusal :=
  match linkPeer s port, (s.port port).attNonce with
  | some a, some n =>
    if !s.alive then void s
    else
      let s1 := if verified then s.applyAmends amends else s
      if verified && s1.reportOk n report amends then
        let s2 := (s1.setPort port { s1.port port with attReport := some report, attNonce := none }).count Reg.cruAttestOk
        let s3 := s2.sendAttest port a .done
        if s3.checksAgree then .next s3.attestStep
        else .next (s3.refuseArm 0x71 0 srcCrucible)
      else
        let s2 := (s1.setPort port { s1.port port with attReport := none, attNonce := none }).count Reg.cruAttestFail
        .next ((s2.sendAttest port a .refuse).refuseArm 0x70 0 srcCrucible)
  | _, _ => void s

/-- ATTEST_SEED: a child takes the seed from its parent and confirms it (R415); else it raises CRU attest and asks
again. -/
def execAttestSeed (port seed : Nat) (opened : Bool) (s : State) : Host.Outcome State Fault Refusal :=
  match linkPeer s port, (s.port port).attReport, s.billet with
  | some a, some r, some b =>
    if !s.alive || s.seed.isSome || !r.seedHeld ||
       s.peerReports.any (fun q => q.seedHeld && decide (q.addr < r.addr)) then void s
    else if opened && Config.jobCheck (Config.jobKey seed b.jobId b.digest) == r.jobCheck then
      .next ((s.holdSeed seed r.addr).tellSeed).attestStep
    else .next ((s.raise srcCrucible 0x70 clsU 0).sendReq port a)
  | _, _, _ => void s

/-- ATTEST_DONE: the peer has accepted this device, or tells that it now holds the seed (R413 to R415). -/
def execAttestDone (port : Nat) (s : State) : Host.Outcome State Fault Refusal :=
  match linkPeer s port with
  | none => void s
  | some a =>
    if !s.alive then void s
    else
      let x := s.port port
      let again := x.peerDone && s.seed.isNone
      let s1 := s.setPort port { x with peerDone := true }
      if again then .next ((s1.sendReq port a).setPort port { (s1.sendReq port a).port port with peerDone := true })
      else .next s1.attestStep

/-- ATTEST_REFUSE: the peer refuses this device (R413, R414); an `ARM` that runs is refused. -/
def execAttestRefuse (port : Nat) (s : State) : Host.Outcome State Fault Refusal :=
  if decide (12 ≤ port) || !s.alive then void s
  else
    let s1 := s.setPort port { s.port port with peerDone := false, attNonce := none }
    if s1.runningOp = some 0x0104 then
      .next ((s1.put Reg.netStatusState 0).finishRunning rcRefused (List.replicate 16 0))
    else .next s1

end Sys2Proof.Machine
end

