-- ==== Sys2Proof/Machine/Net.lean ====
section
/-!
DEFINITION. Machine/Net.lean: discovery (R314 to R317), link sealing (R310), the Cadence tree's adoption (R321),
all-reduces (R324 to R326) and gradient buckets (R327 to R331). -/

namespace Sys2Proof.Machine

/-! ## Discovery and sealing -/

/-- LINK_STATE: a record newer by VERSION is stored and forwarded (R314); one received sealed is compared with the
record of discovery (R316).
DESIGN CHOICE (notes/assumptions/164): newer means a higher VERSION; the spec does not say how VERSIONs compare past 65,535. -/
def execLinkState (port : Nat) (record : LinkRec) (isSealed : Bool) (s : State) : Host.Outcome State Fault Refusal :=
  if !s.portUp port || !s.alive then void s
  else
    let held := recordOf s.net.records record.origin
    let newer := match held with
      | some r => decide (r.version < record.version)
      | none => true
    if newer then
      .next (({ s with net := { s.net with
        records := State.storeRecord s.net.records record
        sealedRecs := if isSealed then State.storeRecord s.net.sealedRecs record else s.net.sealedRecs } }).flood record (some port))
    else if isSealed && !(s.net.sealedRecs.any (fun r => r.origin == record.origin && r.version == record.version)) then
      let s1 := ({ s with net := { s.net with sealedRecs := State.storeRecord s.net.sealedRecs record } }).flood record (some port)
      if held = some record then .next s1.checkArm
      else .next (s1.refuseArm 0x44 (s1.fabAddr port) srcBellows)
    else void s

/-- DISCOVERY_COMPLETE: a record from every member over a connected graph; routes are computed and the attestation of
the job links begins, or `ARM` is refused for a diameter above 12 (R315 to R318). -/
def execDiscoveryComplete (s : State) : Host.Outcome State Fault Refusal :=
  let r := s.roster
  if s.get Reg.netStatusState ≠ 1 ∨ !discovered r s.net.records s.addr then void s
  else
    let d := diameter r s.net.records
    if 12 < d then
      .next ((s.put Reg.netStatusState 0).finishRunning rcRefused (List.replicate 16 0))
    else
      let s1 := ((s.buildRoutes).put Reg.netStatusDiameter d).put Reg.netStatusState 3
      .next ((s1.jobPorts.foldl (fun t l => t.sendReq l.1 l.2) s1).attestStep)

/-- DISCOVERY_TIMEOUT: discovery is not complete within 2 s of `ARM` (R315). -/
def execDiscoveryTimeout (s : State) : Host.Outcome State Fault Refusal :=
  if s.get Reg.netStatusState ≠ 1 then void s else .next (s.refuseArm 0x43 (s.fabAddr 0) srcBellows)

/-- A device that has armed before sends the records it holds over a link newly sealed, so that a device which arms later can
complete the comparison of R316 (R386, notes/assumptions/81). -/
def sendRecords (s : State) (p : Nat) : State :=
  if s.inJob then s.net.records.foldl (fun t r => t.sendOn p (t.newPacket 8 true 0 0 0 (.link r))) s else s

/-- The 36 bytes derived for the direction from a transmitter to a receiver, each an address, a port and its random bytes (R310):
the AES-256 key and then SALT.
DESIGN CHOICE (notes/assumptions/162): in the info an address takes 2 bytes, a port 1 and the random bytes 8, all little-endian. -/
def linkKey (key : Nat) (tx rx : Nat × Nat × Nat) : List Byte :=
  Config.hkdf key (Config.ascii "TRZ-2080 link" ++ leBytes 2 tx.1 ++ leBytes 1 tx.2.1 ++ leBytes 2 rx.1 ++ leBytes 1 rx.2.1 ++ leBytes 8 tx.2.2 ++
    leBytes 8 rx.2.2) 36

/-- The key from which a link's keys are derived: the job key, or on a feeder's link the key agreed with the feeder (R310, R342). -/
def sealKey (s : State) (p : Nat) : Option Nat :=
  match s.billet, s.memberOf (s.peerDigest p) with
  | some b, some m =>
    if m.kind = 1 then
      (Assoc.find? s.blm.feeders (b.feeders.idxOf m.addr)).bind (fun (x : FeederLink) => if x.keyed then some x.secret else none)
    else s.jobKey
  | _, _ => s.jobKey

/-- SEAL_HELLO: the peer's random bytes; with this end's they give the link's keys, and NONCE starts at 0 (R310). -/
def execSealHello (port random : Nat) (s : State) : Host.Outcome State Fault Refusal :=
  if !s.portUp port || (sealKey s port).isNone || !s.alive || !s.flag Reg.netCtrlSeal then void s
  else
    let s1 := if s.get (Reg.fabSealState port) = 1 then s else s.sendHello port
    let x := s1.port port
    let mine := (s1.addr, port, x.myRandom.getD 0)
    let peer := ((linkPeer s1 port).getD 0, s1.get (Reg.fabPeerPort port), random % 2 ^ 64)
    let s2 := (s1.setPort port { x with peerRandom := some (random % 2 ^ 64), txNonce := 0, rxNonce := none
                                        txKey := linkKey ((sealKey s1 port).getD 0) mine peer
                                        rxKey := linkKey ((sealKey s1 port).getD 0) peer mine
                                        jobDown := false }).put (Reg.fabSealState port) 2
    .next ((sendRecords (s2.pumpAll port) port).advanceSeal)

/-- ADOPT: the neighbour takes this device as its Cadence parent (R321). -/
def execAdopt (port : Nat) (s : State) : Host.Outcome State Fault Refusal :=
  match s.peerAddr port with
  | some a =>
    if !s.alive then void s
    else .next { s with net := { s.net with children := if s.net.children.contains a then s.net.children else s.net.children ++ [a] } }
  | none => void s

/-! ## Trees (R324, R325) -/

/-- The members of a collective group, by rank. -/
def groupOf (s : State) (g : Nat) : List Nat :=
  match s.billet with
  | some b => b.groups.getD g []
  | none => []

/-- Relative rank of rank `k` in the tree of root rank `o` over `p` members (R324). -/
def relRank (p o k : Nat) : Nat := (k + p - o % p) % p

/-- The member at a relative rank. -/
def memberAt (l : List Nat) (o v : Nat) : Nat := l.getD ((v + o) % l.length) 0

/-- The child positions of a relative rank that exist. -/
def kidsOf (p v : Nat) : List Nat := (if 2 * v + 1 < p then [1] else []) ++ (if 2 * v + 2 < p then [2] else [])

/-- The child position of a relative rank v ≥ 1 at its parent. -/
def childPos (v : Nat) : Nat := 2 - v % 2

/-- One FP32 addition of a tree node (R88, R325). -/
def treeAdd (a b : Nat) : Nat := toF32 false (Val.add (.ofF32 a) (.ofF32 b))

/-- A node's value of one element: its own, then child 1's, then child 2's (R325). -/
def treeSum (own : Nat) (kids : List Nat) : Nat := kids.foldl treeAdd own

/-! ## All-reduce (R326) -/

namespace State

/-- The all-reduce of a group. -/
def reduceOf (s : State) (g : Nat) : AllReduce :=
  match s.net.allReduce.find? (fun a => a.group == g) with
  | some a => a
  | none => { group := g, own := none, kids := [], sent := false, result := none }

/-- Write the all-reduce of a group. -/
def setReduce (s : State) (a : AllReduce) : State :=
  { s with net := { s.net with allReduce := s.net.allReduce.filter (fun x => x.group != a.group) ++ [a] } }

/-- Send a vector of a group's all-reduce to a member. -/
def sendSums (s : State) (g dst : Nat) (values : List Nat) (mask : Nat) : State :=
  s.sendRouted (s.newPacket 0x0E false dst (s.streamAt dst 2 g) g (.sums values mask))

/-- The result reaches this member, which passes it down the tree (R326). -/
def deliverSums (s : State) (g : Nat) (values : List Nat) (mask : Nat) : State :=
  let l := groupOf s g
  let v := l.idxOf s.addr
  (kidsOf l.length v).foldl (fun t c => t.sendSums g (memberAt l 0 (2 * v + c)) values mask)
    (s.setReduce { s.reduceOf g with result := some (values, mask) })

/-- Combine once this member's own vector and both children's are there, and send it up, or deliver it at the root
(R325, R326). -/
def combineSums (s : State) (g : Nat) : State :=
  let l := groupOf s g
  let v := l.idxOf s.addr
  let a := s.reduceOf g
  let kids := (kidsOf l.length v).filterMap (fun c => a.kids.find? (fun k => k.1 == c))
  match a.own with
  | none => s
  | some (vals, mask) =>
    if a.sent || kids.length != (kidsOf l.length v).length then s
    else
      let sum := vals.zipIdx.map (fun (x, i) => treeSum x (kids.map (fun k => k.2.1.getD i 0)))
      let flags := kids.foldl (fun m k => m ||| k.2.2) mask
      let s1 := s.setReduce { a with sent := true }
      if v = 0 then s1.deliverSums g sum flags else s1.sendSums g (memberAt l 0 ((v - 1) / 2)) sum flags

/-- This member's own vector of an all-reduce (R326). -/
def contribute (s : State) (g : Nat) (values : List Nat) (mask : Nat) : State :=
  (s.setReduce { s.reduceOf g with own := some (values, mask) }).combineSums g

end State

/-- COLLECTIVE: a child's vector lands and is combined, or the parent's result comes down (R325, R326). -/
def execCollective (group src attempt : Nat) (values : List Nat) (mask : Nat) (s : State) :
    Host.Outcome State Fault Refusal :=
  let l := groupOf s group
  let v := l.idxOf s.addr
  let a := s.reduceOf group
  if !s.alive || attempt != s.cad.attempt || !l.contains s.addr || !l.contains src then void s
  else
    let w := l.idxOf src
    if decide (1 ≤ v) && w == (v - 1) / 2 then
      if a.result.isSome then void s else .next (s.deliverSums group values mask).placeWant
    else if decide (1 ≤ w) && (w - 1) / 2 == v && !(a.kids.any (fun k => k.1 == childPos w)) then
      .next ((s.setReduce { a with kids := a.kids ++ [(childPos w, values, mask % 256)] }).combineSums group).placeWant
    else void s

/-! ## Gradient buckets -/

/-- Bucket `i` of the billet. -/
def bucketAt (s : State) (i : Nat) : Option Bucket :=
  match s.billet with
  | some b => b.buckets[i]?
  | none => none

/-- The progress of bucket `i` in the step. -/
def bucketRun (s : State) (i : Nat) : BucketRun :=
  match Assoc.find? s.net.buckets i with
  | some r => r
  | none => BucketRun.init

/-- The bucket is filled (R328). -/
def bucketFilled (s : State) (i : Nat) : Bool :=
  match bucketAt s i with
  | some b => Assoc.get 0 s.bucketFill i == b.fill
  | none => false

/-- A format code of Table 12-5 or 12-6: BF16, FP32 or another float. -/
def wireFmt (code : Nat) : Fmt :=
  match fmtOf code 1 with
  | some f => f
  | none => .fp32

/-- Bytes of one value of a wire format. -/
def wireSize (code : Nat) : Nat := (wireFmt code).width / 8

/-- Elements of a segment. -/
def segElems (b : Bucket) (g : BucketSeg) : Nat := g.len / wireSize b.ifmt

/-- The offsets of a segment's packets, in bytes of its wire data (R330). -/
def segOffsets (b : Bucket) (g : BucketSeg) : List Nat :=
  (List.range (ceilDiv (segElems b g * wireSize b.wire) 4096)).map (4096 * ·)

namespace State

/-- Write a bucket's progress. -/
def setBucket (s : State) (i : Nat) (r : BucketRun) : State :=
  { s with net := { s.net with buckets := Assoc.put s.net.buckets i r } }

/-- Tokens held plus buckets launched and not complete equal TOKENS (R331). -/
def tokensBalanced (s : State) : Bool :=
  s.get Reg.netTokensHeld + (s.net.buckets.filter (fun p => p.2.launched && !p.2.complete)).length == s.get Reg.netCtrlTokens

/-- R331's check. -/
def auditTokens (s : State) : State :=
  if s.tokensBalanced then s else s.raise srcBellows 0x4A clsF (s.fabAddr 0)

/-- The bucket's own value of an element, widened to FP32 (R91); a poisoned granule gives NaN (notes/assumptions/46). -/
def ownValue (s : State) (b : Bucket) (g : BucketSeg) (e : Nat) : Nat :=
  let f := wireFmt b.ifmt
  let a := b.addr + g.offset + e * wireSize b.ifmt
  if s.hbmBad a (wireSize b.ifmt) then Fmt.fp32.nanCode
  else toF32 false (decodeFmt f (s.hbm.readLE a (wireSize b.ifmt)))

/-- The checks of the granules that a packet of a segment reads (R29). -/
def segChecks (s : State) (i seg off : Nat) (ecc : List EccRes) : State :=
  match bucketAt s i with
  | none => s
  | some b => match b.segs[seg]? with
    | none => s
    | some g =>
      let first := off / wireSize b.wire
      s.hbmChecks (b.addr + g.offset + first * wireSize b.ifmt)
        (min (4096 / wireSize b.wire) (segElems b g - first) * wireSize b.ifmt) ecc

/-- The checks of the granules of a bucket's filled bytes (R29). -/
def bucketChecks (s : State) (i : Nat) (ecc : List EccRes) : State :=
  match bucketAt s i with
  | none => s
  | some b => s.hbmChecks b.addr b.fill ecc

/-- Combine the packet of a segment at an offset, once the node has launched and its children's data is there, and send
it to the parent or deliver it at the root (R325, R330). -/
def combineBucket (s : State) (i seg off : Nat) : State :=
  match bucketAt s i with
  | none => s
  | some b => match b.segs[seg]? with
    | none => s
    | some g =>
      let l := groupOf s b.group
      let p := l.length
      let v := relRank p g.owner (l.idxOf s.addr)
      let r := bucketRun s i
      let kids := (kidsOf p v).filterMap (fun c => r.stage.find? (fun k => k.seg == seg && k.child == c && k.off == off))
      if !r.launched || r.combined.contains (seg, off) || kids.length != (kidsOf p v).length then s
      else
        let size := wireSize b.wire
        let first := off / size
        let n := min (4096 / size) (segElems b g - first)
        let vals := (List.range n).map (fun j =>
          treeSum (s.ownValue b g (first + j)) (kids.map (fun k => toF32 false
            (decodeFmt (wireFmt b.wire) (leNat ((k.data.drop (j * size)).take size))))))
        let s1 := s.setBucket i { r with combined := r.combined ++ [(seg, off)]
                                         stage := r.stage.filter (fun k => !(k.seg == seg && k.off == off)) }
        if v = 0 then
          let out := vals.flatMap (fun x => leBytes (wireSize g.ofmt) (convert (wireFmt g.ofmt) false true (.ofF32 x)).code)
          s1.writeStock ((match s.billet with | some b => b.bucketWindow | none => 0) + g.dest + first * wireSize g.ofmt) out
        else
          let out := vals.flatMap (fun x => leBytes size (convert (wireFmt b.wire) false true (.ofF32 x)).code)
          let dst := memberAt l g.owner ((v - 1) / 2)
          s1.sendRouted (s1.newPacket 0x18 false dst (s1.streamAt dst 1 i)
            (seg % 2 ^ 16 + childPos v * 2 ^ 16 + off % 2 ^ 32 * 2 ^ 32) (.bytes out))

/-- A filled bucket launches: it takes a token, or waits for one (R329, R330). -/
def launchBucket (s : State) (i : Nat) : State :=
  match bucketAt s i with
  | none => s
  | some b =>
    let r := bucketRun s i
    if r.launched || r.complete then s
    else if s.get Reg.netTokensHeld = 0 then
      { s with net := { s.net with tokenWait := if s.net.tokenWait.contains i then s.net.tokenWait else s.net.tokenWait ++ [i] } }
    else
      let s1 := ((s.uncount Reg.netTokensHeld).setBucket i { r with launched := true }).auditTokens
      (b.segs.zipIdx).foldl (fun t (g, k) => (segOffsets b g).foldl (fun u off => u.combineBucket i k off) t) s1

/-- A BUCKET_LAUNCH entry fires (R329): the bucket launches now if it has filled, else at its fill. -/
def fireBucket (s : State) (i : Nat) : State :=
  let s1 := s.setBucket i { bucketRun s i with fired := true }
  if bucketFilled s i then s1.launchBucket i else s1

end State

/-- BUCKET_FILLED: the landed count has reached FILL_BYTES; the bucket launches if AUTO is set or its entry has fired
(R328, R329). `ecc`: the checks of the granules that the launch reads. -/
def execBucketFilled (bucket : Nat) (s : State) (ecc : List EccRes := []) : Host.Outcome State Fault Refusal :=
  match bucketAt s bucket with
  | none => void s
  | some b =>
    if !s.alive || !bucketFilled s bucket || !(b.auto || (bucketRun s bucket).fired) then void s
    else .next ((s.bucketChecks bucket ecc).launchBucket bucket).placeWant

/-- BUCKET: a child's data lands in STAGE, and is combined once the node has launched (R330). -/
def execBucket (stream attempt seg child off : Nat) (data : List Byte) (s : State) (ecc : List EccRes := []) : Host.Outcome State Fault Refusal :=
  match s.billet with
  | none => void s
  | some b => match b.streams.find? (fun u => u.dev == s.addr && u.id == stream && u.kind == 1) with
    | none => void s
    | some u =>
      let r := bucketRun s u.index
      if !s.alive || attempt != s.cad.attempt || r.combined.contains (seg, off) ||
         r.stage.any (fun k => k.seg == seg && k.child == child && k.off == off) then void s
      else
        let s1 := s.setBucket u.index { r with stage := r.stage ++ [{ seg := seg, child := child, off := off, data := data }] }
        .next ((s1.segChecks u.index seg off (if r.launched then ecc else [])).combineBucket u.index seg off).placeWant

/-- The stream counts of a completed bucket reset for the next step (R331). -/
def State.zeroStream (s : State) (i : Nat) : State :=
  match s.billet with
  | none => s
  | some b => match b.streams.find? (fun u => u.dev == s.addr && u.kind == 1 && u.index == i) with
    | some u => { s with net := { s.net with received := Assoc.set 0 s.net.received u.id 0 } }
    | none => s

/-- Every packet of a bucket has been combined and sent on or delivered. -/
def bucketSent (s : State) (i : Nat) : Bool :=
  match bucketAt s i with
  | some b => (b.segs.zipIdx).all (fun (g, k) => (segOffsets b g).all (fun off => (bucketRun s i).combined.contains (k, off)))
  | none => false

/-- BUCKET_COMPLETE: all of the bucket's sends have landed and its owned segments are in Stock; its token returns, and
a launch that waits takes it (R329, R331). `ecc`: the checks of the granules read by a launch at its BUCKET_LAUNCH entry, and by the
launch that goes on (notes/assumptions/152). -/
def execBucketComplete (bucket : Nat) (s : State) (ecc : List EccRes := []) : Host.Outcome State Fault Refusal :=
  let r := bucketRun s bucket
  if !s.alive || !r.launched || r.complete || !bucketSent s bucket then void s
  else
    let s1 := (((((s.bucketChecks bucket ecc).zeroStream bucket).setBucket bucket { r with complete := true, stage := [] }).count Reg.netTokensHeld).count
      Reg.netBuckets).auditTokens
    match s1.net.tokenWait with
    | [] => .next s1
    | i :: rest => .next (({ s1 with net := { s1.net with tokenWait := rest } }).bucketChecks i ecc |>.launchBucket i).placeWant

end Sys2Proof.Machine
end

