-- ==== Sys2Proof/Machine/Flux.lean ====
section
/-!
DEFINITION. Machine/Flux.lean: the two coded forms of Flux, bit for bit: the lossless coding of R241 and R242 with
the decode errors of R243, the MX coding of R244, and what each engine counts (R238, Table 9-10), for the transfers that
name a mode and for those that pass through unchanged (R23). -/

namespace Sys2Proof.Machine

namespace Flux

/-- Bytes per element of the lossless planes (Table 9-5). -/
def planeWidth (srcFmt : Nat) : Nat := if srcFmt = 9 then 4 else if srcFmt = 7 ∨ srcFmt = 8 then 2 else 1

/-- Bits needed for a number. -/
def bitLen (n : Nat) : Nat := if n = 0 then 0 else Nat.log2 n + 1

/-- The code of one group of bytes (R242). -/
def groupCode (g : List Nat) : List Nat :=
  match g with
  | [] => []
  | h :: r =>
    let lo := r.foldl min h
    let hi := r.foldl max h
    let k := bitLen (hi - lo)
    let m := g.length
    if lo = hi then [0, lo]
    else if k ≤ 7 ∧ 2 + ceilDiv (m * k) 8 ≤ 1 + m then
      [0x40 + (k - 1), lo] ++ (leBytes (ceilDiv (m * k) 8) (packCodes k (g.map (fun b => b - lo)))).map BitVec.toNat
    else 0x80 :: g

/-- Cut a list into groups of `n`; `fuel` is the list's length. -/
def cut {α : Type} (n : Nat) : Nat → List α → List (List α)
  | 0, _ => []
  | _, [] => []
  | f + 1, l => l.take n :: cut n f (l.drop n)

/-- Byte plane `p` of a block of elements of `w` bytes (R241). -/
def plane (w p : Nat) (raw : List Nat) : List Nat := (List.range (raw.length / w)).map (fun i => raw.getD (i * w + p) 0)

/-- The coded payload of a block (R241, R242). -/
def payload (w : Nat) (raw : List Nat) : List Nat :=
  (List.range w).flatMap (fun p => (cut 64 raw.length (plane w p raw)).flatMap groupCode)

/-- The code of W in a block header. -/
def wCode (w : Nat) : Nat := if w = 1 then 0 else if w = 2 then 1 else 2

/-- A coded block: its bytes, and whether it is STORED (R241, R242). -/
def blockCode (w : Nat) (raw : List Nat) : List Nat × Bool :=
  let p := payload w raw
  let stored := decide (raw.length ≤ p.length)
  let body := if stored then raw else p
  let h := (raw.length - 1) + wCode w * 2 ^ 12 + b2n stored * 2 ^ 14 + body.length * 2 ^ 16
  ((leBytes 4 h).map BitVec.toNat ++ body, stored)

/-- The statistics of one block of up to 4,096 raw bytes: raw and coded bytes, whether it was STORED, MX blocks coded
with scale 0xFF, elements saturated, and whether it met a decode error. -/
structure Stat where
  raw : Nat
  coded : Nat
  stored : Bool
  nan : Nat
  sat : Nat
  err : Bool
  deriving DecidableEq, Repr

/-- A lossless stream with the statistics of its blocks. -/
def lossless (w : Nat) (raw : List Nat) : List Nat × List Stat :=
  let bs := (cut 4096 raw.length raw).map (fun b => (b.length, blockCode w b))
  (bs.flatMap (fun b => b.2.1), bs.map (fun b => ⟨b.1, b.2.1.length, b.2.2, 0, 0, false⟩))

/-- Decode one group of `m` bytes from the head of a list: the bytes and the rest; none for a decode error. The bits of H
that R241 gives as zero are no decode error of R243 and are not read. -/
def groupDecode (m : Nat) (l : List Nat) : Option (List Nat × List Nat) :=
  match l with
  | [] => none
  | h :: r =>
    let kind := h / 64
    if kind = 0 then
      match r with
      | v :: r' => some (List.replicate m v, r')
      | [] => none
    else if kind = 1 then
      match r with
      | b :: r' =>
        let k := h % 8 + 1
        let n := ceilDiv (m * k) 8
        if r'.length < n then none
        else
          let v := leNat ((r'.take n).map (BitVec.ofNat 8))
          some ((List.range m).map (fun i => (b + v / 2 ^ (k * i) % 2 ^ k) % 256), r'.drop n)
      | [] => none
    else if kind = 2 then (if r.length < m then none else some (r.take m, r.drop m))
    else none

/-- Decode the groups of one plane of `n` bytes. -/
def planeDecode : Nat → Nat → List Nat → Option (List Nat × List Nat)
  | 0, _, l => some ([], l)
  | f + 1, n, l =>
    if n = 0 then some ([], l)
    else match groupDecode (min 64 n) l with
      | none => none
      | some (g, l') => match planeDecode f (n - 64) l' with
        | none => none
        | some (r, l'') => some (g ++ r, l'')

/-- Decode `k` planes of `n` bytes. -/
def planesDecode : Nat → Nat → List Nat → Option (List (List Nat) × List Nat)
  | 0, _, l => some ([], l)
  | k + 1, n, l => match planeDecode n n l with
    | none => none
    | some (p, l') => match planesDecode k n l' with
      | none => none
      | some (ps, l'') => some (p :: ps, l'')

/-- The raw bytes of a block of `rawLen` bytes from its payload: the planes put together (R241); none for a decode
error (R243). -/
def payloadDecode (w rawLen : Nat) (l : List Nat) : Option (List Nat) :=
  match planesDecode w (rawLen / w) l with
  | none => none
  | some (ps, rest) =>
    if rest.isEmpty then
      some ((List.range (rawLen / w)).flatMap (fun i => ps.map (fun p => p.getD i 0)))
    else none

/-- A decoded block: the raw bytes it stands for, none where it is to be poisoned, and its statistics. -/
structure Block where
  len : Nat
  data : Option (List Nat)
  stat : Stat
  off : Nat
  deriving DecidableEq, Repr

/-- Decode blocks until `want` raw bytes are reached, from the coded bytes `l` at coded offset `off`; `bad` tells
whether coded bytes are poisoned. A stream that ends too early leaves one block with a decode error (R243).
DESIGN CHOICE (notes/assumptions/145): of a last block whose RAW_LEN passes the transfer's length, the bytes up to that length
are taken; R243 does not name it among the decode errors. -/
def decodeBlocks (bad : Nat → Nat → Bool) : Nat → Nat → Nat → List Nat → List Block
  | 0, _, _, _ => []
  | f + 1, want, off, l =>
    if want = 0 then []
    else if l.length < 4 then [⟨want, none, ⟨want, 0, false, 0, 0, true⟩, off⟩]
    else
      let h := leNat ((l.take 4).map (BitVec.ofNat 8))
      let full := bits h 0 12 + 1
      let rawLen := min want full
      let wc := bits h 12 2
      let w := if wc = 0 then 1 else if wc = 1 then 2 else 4
      let stored := bit h 14
      let coded := bits h 16 16
      let body := (l.drop 4).take coded
      let raw : Option (List Nat) :=
        if wc = 3 ∨ full % w ≠ 0 ∨ (l.drop 4).length < coded then none
        else if stored then (if coded = full then some (body.take rawLen) else none)
        else (payloadDecode w full body).map (fun d => d.take rawLen)
      let poison := bad off (4 + coded)
      let blk : Block :=
        if poison then ⟨rawLen, none, ⟨rawLen, 4 + coded, stored, 0, 0, false⟩, off⟩
        else ⟨rawLen, raw, ⟨rawLen, 4 + coded, stored, 0, 0, raw.isNone⟩, off⟩
      blk :: decodeBlocks bad f (want - rawLen) (off + 4 + coded) (l.drop (4 + coded))

/-- The element format of an MX mode (Table 9-5). -/
def mxFmt (mode : Nat) : Fmt := if mode = 2 then .e4m3 else if mode = 3 then .e5m2 else if mode = 4 then .e2m3 else .e3m2

/-- A mode is MX. -/
def isMx (mode : Nat) : Bool := decide (2 ≤ mode ∧ mode ≤ 5)

/-- Source elements of `len` raw bytes. -/
def elems (srcFmt len : Nat) : Nat := len / planeWidth srcFmt

/-- Coded bytes of the MX form of `n` elements (Table 9-5). -/
def mxBytes (mode n : Nat) : Nat := elemBytes n (mxFmt mode).width + ceilDiv n 32

/-- The most coded bytes that a mode makes of `len` raw bytes (Table 9-5). -/
def worst (mode srcFmt len : Nat) : Nat :=
  if mode = 0 then len else if mode = 1 then len + 4 * ceilDiv len 4096 else mxBytes mode (elems srcFmt len)

/-- A MODE and SRCFMT pair of Table 9-5. -/
def modeOk (mode srcFmt : Nat) : Bool :=
  if mode ≤ 1 then decide (srcFmt ≤ 9) else if mode ≤ 5 then decide (7 ≤ srcFmt ∧ srcFmt ≤ 9) else false

/-- Source block `b` of 32 values. -/
def srcBlock (h : Memory) (f : Fmt) (addr n b : Nat) : List Val :=
  (List.range (min 32 (n - 32 * b))).map (fun i => decodeFmt f (h.elem addr f.width (32 * b + i)))

/-- Elements of a packed block that saturate (R244); an infinity does where the element format has none (Table 3-6). -/
def satCount (f : Fmt) (vs : List Val) (b : MxBlock) : Nat :=
  if b.scale = 255 then 0
  else (vs.filter (fun v => match v.scale2 (127 - (b.scale : Int)) with
    | .fin _ m e => overflows f false m e
    | .inf _ => !f.hasInf
    | .nan => false)).length

/-- The MX stream of `len` raw bytes at `addr` (R244), with statistics per 4,096 raw bytes. -/
def mx (h : Memory) (mode srcFmt addr len : Nat) : List Nat × List Stat :=
  let f := mxFmt mode
  let sf := (fmtOf srcFmt 0).getD .bf16
  let n := elems srcFmt len
  let per := 4096 / planeWidth srcFmt
  let blks := (List.range (ceilDiv n 32)).map (fun b =>
    let vs := srcBlock h sf addr n b
    (vs.length, mxPack f false false vs, vs))
  let codes := blks.flatMap (fun b => b.2.1.codes.take b.1)
  let bytes := (leBytes (elemBytes n f.width) (packCodes f.width codes)).map BitVec.toNat ++ blks.map (fun b => b.2.1.scale)
  let stats := (List.range (ceilDiv len 4096)).map (fun k =>
    let mine := (blks.drop (per / 32 * k)).take (per / 32)
    let cnt := min per (n - per * k)
    (⟨min 4096 (len - 4096 * k), elemBytes cnt f.width + ceilDiv cnt 32, false,
      (mine.filter (fun b => b.2.1.scale == 255)).length,
      (mine.map (fun b => satCount f b.2.2 b.2.1)).foldl (· + ·) 0, false⟩ : Stat))
  (bytes, stats)

/-- A decoded value as SRCFMT holds it, and whether it saturates: a finite product beyond the format's range gives
±largest finite (R91). -/
def saturate (sf : Fmt) (v : Val) : Nat × Bool :=
  match v with
  | .fin neg m e =>
    if overflows sf false m e then (withSign sf neg sf.maxCode, true) else ((convert sf false false v).code, false)
  | w => ((convert sf false false w).code, false)

/-- Element `i` decoded from an MX stream to SRCFMT's code, and whether it saturates (R244, R91). -/
def mxDecode (coded : List Nat) (mode srcFmt n i : Nat) : Nat × Bool :=
  let f := mxFmt mode
  let rd := fun a => BitVec.ofNat 8 (coded.getD a 0)
  let scale := coded.getD (elemBytes n f.width + i / 32) 0
  saturate ((fmtOf srcFmt 0).getD .bf16) (mxValue f scale (elemAt rd 0 f.width i))

/-- The statistics of `len` bytes that pass unchanged: blocks of 4,096 (R23, R238). -/
def passStats (len : Nat) : List Stat :=
  (List.range (ceilDiv len 4096)).map (fun k => ⟨min 4096 (len - 4096 * k), min 4096 (len - 4096 * k), false, 0, 0, false⟩)

/-- The statistics of `n` BF16 elements widened from an MX form of element width `w` (R210, R238). -/
def widenStats (w n : Nat) : List Stat :=
  (List.range (ceilDiv n 2048)).map (fun k =>
    let m := min 2048 (n - 2048 * k)
    ⟨2 * m, elemBytes m w + ceilDiv m 32, false, 0, 0, false⟩)

/-- The coded form of `len` raw bytes at `addr` in a mode. -/
def encode (h : Memory) (mode srcFmt addr len : Nat) : List Nat × List Stat :=
  let raw := (h.readBytes addr len).map BitVec.toNat
  if mode = 0 then (raw, passStats len)
  else if mode = 1 then lossless (planeWidth srcFmt) raw
  else mx h mode srcFmt addr len

/-- The coded length of `len` raw bytes at `addr`. -/
def codedLen (h : Memory) (mode srcFmt addr len : Nat) : Nat := (encode h mode srcFmt addr len).1.length

/-- Decode `len` raw bytes in a mode from coded bytes, with the poison of coded ranges: blocks of up to 4,096 raw
bytes (R243, R244). -/
def decode (bad : Nat → Nat → Bool) (mode srcFmt len : Nat) (coded : List Nat) : List Block :=
  if mode = 1 then decodeBlocks bad (len + 1) len 0 coded
  else
    let ks := List.range (ceilDiv len 4096)
    let n := elems srcFmt len
    let per := 4096 / planeWidth srcFmt
    ks.map (fun k =>
      let ln := min 4096 (len - 4096 * k)
      if mode = 0 then
        ⟨ln, if bad (4096 * k) ln then none else some ((coded.drop (4096 * k)).take ln), ⟨ln, ln, false, 0, 0, false⟩, 4096 * k⟩
      else
        let w := (mxFmt mode).width
        let c0 := per * k * w / 8
        let cnt := min per (n - per * k)
        let s0 := elemBytes n w + per * k / 32
        let poison := bad c0 (elemBytes cnt w) || bad s0 (ceilDiv cnt 32)
        let cs := (List.range cnt).map (fun i => mxDecode coded mode srcFmt n (per * k + i))
        let sw := planeWidth srcFmt
        ⟨ln, if poison then none else some (cs.flatMap (fun c => (leBytes sw c.1).map BitVec.toNat)),
         ⟨ln, elemBytes cnt w + ceilDiv cnt 32, false, 0, if poison then 0 else (cs.filter (fun c => c.2)).length, false⟩, c0⟩)

end Flux

/-- The first engine of the Flux group that a transfer of a core of die `die` in mesh column `col` uses: `mem` 2 is HBM4 and
3 is Stock (R238). -/
def groupBase (die col mem far : Nat) : Nat :=
  8 * die + 4 * (if mem = 2 then stackOf far % 4 / 2 else if col < 6 then 0 else 1)

/-- The first engine of the Flux group that a transfer of core `n` uses (R238). -/
def fluxBase (n mem far : Nat) : Nat := groupBase (dieOf n) (n % 12) mem far

namespace State

/-- Count a transfer's blocks at the four engines of a group, dealt in turn; `base` gives the first engine of the group for a
coded offset (R238, Table 9-10). -/
def fluxCountAt (s : State) (base : Nat → Nat) (l : List Flux.Stat) : State :=
  ((l.zipIdx).foldl (fun (t, off) (b, i) =>
    let e := base off + i % 4
    (((((((t.count64 (Reg.flxRawLo e) (Reg.flxRawHi e) b.raw).count64 (Reg.flxCodedLo e) (Reg.flxCodedHi e) b.coded).count
      (Reg.flxStored e) (b2n b.stored)).count (Reg.flxNanBlocks e) b.nan).count (Reg.flxSat e) b.sat).count
      (Reg.flxDecodeErr e) (b2n b.err)), off + b.coded)) (s, 0)).1

/-- Count the blocks of a transfer of one group. -/
def fluxCount (s : State) (base : Nat) (l : List Flux.Stat) : State := s.fluxCountAt (fun _ => base) l

/-- `len` bytes pass through a group unchanged (R23). -/
def fluxPass (s : State) (base len : Nat) : State := s.fluxCount base (Flux.passStats len)

/-- Write decoded blocks to a die's Hearth from `addr`: a block without data is poisoned; a decode error is raised by
its engine with the far address of the block, which `far` gives for its coded offset (R243). -/
def landBlocks (s : State) (die : Nat) (base : Nat → Nat) (addr : Nat) (far : Nat → Nat) (l : List Flux.Block) : State :=
  ((l.zipIdx).foldl (fun (t, a) (b, i) =>
    let h := t.hearth die
    let t1 := t.setHearth die (match b.data with
      | some d => h.writeBytes a (d.map (BitVec.ofNat 8))
      | none => h.poison a b.len)
    (if b.stat.err then t1.raise (srcFlx (base b.off + i % 4)) 0x1C clsU (far b.off) else t1, a + b.len)) (s, addr)).1.fluxCountAt
    base (l.map Flux.Block.stat)

end State

end Sys2Proof.Machine
end

