-- ==== Sys2Proof/Machine/Fn.lean ====
section
/-!
DEFINITION. Machine/Fn.lean: the functions of Table 6-5 (R154), division and square root, each as an exact value or
as an enclosure that rounds correctly: a value of 640 fraction bits with a last bit set whenever the exact result
is not a multiple of the one before it. The transcendental functions take algebraic values at zero alone and one,
which are handled apart, so their results are never ties. -/

namespace Sys2Proof.Machine.Fn

/-- Fraction bits of the fixed-point working values. -/
def P : Nat := 640

/-- One in fixed point. -/
def one : Nat := 2 ^ P

/-- A positive fixed-point value with a sticky bit, as a value. -/
def ofFix (neg : Bool) (n : Nat) : Val := .fin neg (2 * n + 1) (-(P : Int) - 1)

/-- The greatest r with r² ≤ x, built from bit `k` down. -/
def isqrtFrom (x : Nat) : Nat → Nat → Nat
  | 0, r => if (r + 1) * (r + 1) ≤ x then r + 1 else r
  | k + 1, r =>
    let t := r + 2 ^ (k + 1)
    isqrtFrom x k (if t * t ≤ x then t else r)

/-- Integer square root. -/
def isqrt (x : Nat) : Nat := isqrtFrom x (Nat.log2 x / 2 + 1) 0

/-- The quotient of two finite magnitudes with a sticky bit. -/
def quot (neg : Bool) (m : Nat) (e : Int) (n : Nat) (k : Int) : Val :=
  let sh := Nat.log2 n + 64
  let t := m * 2 ^ sh
  .fin neg (2 * (t / n) + (if t % n = 0 then 0 else 1)) (e - k - (sh : Int) - 1)

/-- a / b (Table 6-4, IEEE 754). -/
def div : Val → Val → Val
  | .nan, _ => .nan
  | _, .nan => .nan
  | .inf _, .inf _ => .nan
  | .inf a, .fin b _ _ => .inf (a != b)
  | .fin a _ _, .inf b => .fin (a != b) 0 0
  | .fin a m e, .fin b n k =>
    if n = 0 then (if m = 0 then .nan else .inf (a != b)) else quot (a != b) m e n k

/-- 1 / a. -/
def rcp (a : Val) : Val := div .one a

/-- The square root of m × 2^e, m > 0, with a sticky bit. -/
def sqrtPos (m : Nat) (e : Int) : Val :=
  let m1 := if e % 2 = 0 then m else 2 * m
  let e1 := if e % 2 = 0 then e else e - 1
  let x := m1 * 2 ^ 128
  let r := isqrt x
  .fin false (2 * r + (if r * r = x then 0 else 1)) (e1 / 2 - 64 - 1)

/-- SQRT. -/
def sqrt : Val → Val
  | .nan => .nan
  | .inf n => if n then .nan else .inf false
  | .fin n m e => if m = 0 then .fin n 0 0 else if n then .nan else sqrtPos m e

/-- RSQRT, 1/√a. -/
def rsqrt : Val → Val
  | .nan => .nan
  | .inf n => if n then .nan else .fin false 0 0
  | .fin n m e =>
    if m = 0 then .inf n
    else if n then .nan
    else
      let m1 := if e % 2 = 0 then m else 2 * m
      let e1 := if e % 2 = 0 then e else e - 1
      let k := Nat.log2 m1 / 2 + 128
      let y := 2 ^ (2 * k) / m1
      let r := isqrt y
      .fin false (2 * r + (if r * r * m1 = 2 ^ (2 * k) then 0 else 1)) (-(e1 / 2) - (k : Int) - 1)

/-- Σ z^(2i+1)/(2i+1) from term `i` on, for fixed-point z < 1: `p` is z^(2i+1), `z2` is z². -/
def atanhSum (z2 : Nat) : Nat → Nat → Nat → Nat
  | 0, _, _ => 0
  | k + 1, p, i => p / (2 * i + 1) + atanhSum z2 k (p * z2 / one) (i + 1)

/-- atanh of a/b for 0 ≤ a/b ≤ 1/3, in fixed point. -/
def atanhQ (a b : Nat) : Nat :=
  let z := a * one / b
  atanhSum (z * z / one) 210 z 0

/-- ln 2. -/
def ln2 : Nat := 2 * atanhQ 1 3

/-- ln of m × 2^e, m > 0, as a signed fixed-point number (floored by at most a few units). -/
def lnFix (m : Nat) (e : Int) : Int :=
  let l := Nat.log2 m
  let k : Int := (l : Int) + e
  k * (ln2 : Int) + ((2 * atanhQ (m - 2 ^ l) (m + 2 ^ l) : Nat) : Int)

/-- Σ r^i / i! from a running term. -/
def expSum (r : Nat) : Nat → Nat → Nat → Nat
  | 0, _, _ => 0
  | k + 1, t, i => t + expSum r k (t * r / one / (i + 1)) (i + 1)

/-- e^x for a fixed-point x with |x| < 2^10: the mantissa in fixed point, in [1, 2], and the power of two. -/
def expFix (x : Int) : Nat × Int :=
  let k := x / (ln2 : Int)
  let r := (x - k * (ln2 : Int)).toNat
  (expSum r 150 one 0, k)

/-- e^x in fixed point. -/
def expAbs (x : Int) : Nat :=
  let (m, k) := expFix x
  shiftNat m k

/-- Fixed point of m × 2^e, exact for e ≥ −640. -/
def fix (m : Nat) (e : Int) : Nat := shiftNat m (e + (P : Int))

/-- |v| > n. -/
def beyond (m : Nat) (e : Int) (n : Nat) : Bool := geq m e n 0

/-- A value that overflows every format. -/
def huge (neg : Bool) : Val := .fin neg 1 2000

/-- A non-zero value below half of every smallest subnormal. -/
def tiny (neg : Bool) : Val := .fin neg 1 (-2000)

/-- One less a value below half a unit in the last place. -/
def nearOne (neg : Bool) : Val := .fin neg (2 ^ 2000 - 1) (-2000)

/-- EXP. -/
def exp : Val → Val
  | .nan => .nan
  | .inf n => if n then .fin false 0 0 else .inf false
  | .fin n m e =>
    if m = 0 then .one
    else if beyond m e 200 then (if n then tiny false else huge false)
    else
      let x : Int := if n then -(fix m e : Int) else (fix m e : Int)
      let (v, k) := expFix x
      match ofFix false v with
      | .fin s mm ee => .fin s mm (ee + k)
      | w => w

/-- |e^x − 1| in fixed point for a signed x, |x| ≤ 200. -/
def expm1Abs (n : Bool) (m : Nat) (e : Int) : Nat :=
  let x : Int := if n then -(fix m e : Int) else (fix m e : Int)
  let v := expAbs x
  if n then one - v else v - one

/-- EXPM1. -/
def expm1 : Val → Val
  | .nan => .nan
  | .inf n => if n then .fin true 1 0 else .inf false
  | .fin n m e =>
    if m = 0 then .fin n 0 0
    else if beyond m e 200 then (if n then nearOne true else huge false)
    else if geq 1 0 (m * 2 ^ 20) e then
      -- |x| below 2^−20: x + x²/2 + x³/6 …, by the series itself
      let f := fix m e
      let rec series : Nat → Nat → Nat → Int
        | 0, _, _ => 0
        | k + 1, t, i =>
          (if n ∧ i % 2 = 1 then -(t : Int) else (t : Int)) + series k (t * f / one / (i + 1)) (i + 1)
      let s := series 40 f 1
      ofFix n s.natAbs
    else ofFix n (expm1Abs n m e)

/-- LOG. -/
def log : Val → Val
  | .nan => .nan
  | .inf n => if n then .nan else .inf false
  | .fin n m e =>
    if m = 0 then .inf true
    else if n then .nan
    else if geq m e 1 0 && geq 1 0 m e then .fin false 0 0
    else
      let l := lnFix m e
      ofFix (decide (l < 0)) l.natAbs

/-- LOG1P, ln(1 + a). -/
def log1p : Val → Val
  | .nan => .nan
  | .inf n => if n then .nan else .inf false
  | .fin n m e =>
    if m = 0 then .fin n 0 0
    else
      match Val.add .one (.fin n m e) with
      | .fin s mm ee =>
        if mm = 0 then .inf true
        else if s then .nan
        else
          -- ln(1 + x) = 2 atanh(x / (2 + x)) keeps every bit of a small x
          if geq 1 0 (m * 4) e then
            let f := fix m e
            let a := if n then atanhQ f (2 * one - f) else atanhQ f (2 * one + f)
            ofFix n (2 * a)
          else
            let l := lnFix mm ee
            ofFix (decide (l < 0)) l.natAbs
      | w => w

/-- SIGMOID, 1/(1 + e^−a). -/
def sigmoid : Val → Val
  | .nan => .nan
  | .inf n => if n then .fin false 0 0 else .one
  | .fin n m e =>
    if m = 0 then .fin false 1 (-1)
    else if beyond m e 200 then (if n then tiny false else nearOne false)
    else
      let v := expAbs (-(fix m e : Int))
      if n then ofFix false (v * one / (one + v)) else ofFix false (one * one / (one + v))

/-- TANH. -/
def tanh : Val → Val
  | .nan => .nan
  | .inf n => .fin n 1 0
  | .fin n m e =>
    if m = 0 then .fin n 0 0
    else if beyond m e 100 then nearOne n
    else
      match expm1 (.fin false m (e + 1)) with
      | .fin _ mm ee =>
        let v := shiftNat mm (ee + (P : Int))
        ofFix n (v * one / (v + 2 * one))
      | w => w

/-- SOFTPLUS, ln(1 + e^a). -/
def softplus : Val → Val
  | .nan => .nan
  | .inf n => if n then .fin false 0 0 else .inf false
  | .fin n m e =>
    if m = 0 then ofFix false ln2
    else if beyond m e 200 then (if n then tiny false else .fin false (2 * (m * 2 ^ 300) + 1) (e - 301))
    else
      let v := expAbs (-(fix m e : Int))
      let l := 2 * atanhQ v (2 * one + v)
      if n then ofFix false l else ofFix false (fix m e + l)

/-- arctan(1/q) in fixed point, by its alternating series. -/
def atanInv (q : Nat) : Nat :=
  let rec go : Nat → Nat → Nat → Int
    | 0, _, _ => 0
    | k + 1, p, i =>
      let t : Int := ((p / (2 * i + 1) : Nat) : Int)
      (if i % 2 = 0 then t else -t) + go k (p / (q * q)) (i + 1)
  (go 150 (one / q) 0).toNat

/-- π by Machin's formula. -/
def pi : Nat := 16 * atanInv 5 - 4 * atanInv 239

/-- √π. -/
def sqrtPi : Nat := isqrt (pi * one)

/-- Σ (−1)^i x^(2i+1)/(i! (2i+1)) from a running term x^(2i+1)/i!. -/
def erfSum (x2 : Nat) : Nat → Nat → Nat → Int
  | 0, _, _ => 0
  | k + 1, t, i =>
    let u : Int := ((t / (2 * i + 1) : Nat) : Int)
    (if i % 2 = 0 then u else -u) + erfSum x2 k (t * x2 / one / (i + 1)) (i + 1)

/-- ERF. -/
def erf : Val → Val
  | .nan => .nan
  | .inf n => .fin n 1 0
  | .fin n m e =>
    if m = 0 then .fin n 0 0
    else if beyond m e 10 then nearOne n
    else
      let x := fix m e
      let s := (erfSum (x * x / one) 520 x 0).toNat
      ofFix n (2 * s * one / sqrtPi)

/-- The function of a FUNC code of Table 6-5. -/
def fnOf (func : Nat) : Option (Val → Val) :=
  if func = 0 then some rcp
  else if func = 1 then some sqrt
  else if func = 2 then some rsqrt
  else if func = 3 then some exp
  else if func = 4 then some expm1
  else if func = 5 then some log
  else if func = 6 then some log1p
  else if func = 7 then some tanh
  else if func = 8 then some sigmoid
  else if func = 9 then some softplus
  else if func = 10 then some erf
  else none

end Sys2Proof.Machine.Fn
end

