-- ==== Sys2Proof/Machine/Flags.lean ====
section
/-!
DEFINITION. Machine/Flags.lean: the status that an operation's results leave: the watched events of R94, the trap
record of R96 and its ordering (R97), the numeric fault of R95, the refusal record of R108, and the pools' audits
of a core (R117). -/

namespace Sys2Proof.Machine

/-- A watched event with the place the trap record names (Table 3-7). -/
structure Event where
  cause : Cause
  mt : Nat
  nt : Nat
  row : Nat
  col : Nat
  kblk : Nat
  deriving DecidableEq, Repr

/-- What the record takes from the operation: its engine (0 array, 1 vector), OPID and flags. -/
structure OpTag where
  core : Nat
  src : Nat
  opid : Nat
  rz : Bool
  special : Bool
  deriving DecidableEq, Repr

/-- The fault kind of a cause: NUM invalid, NUM NaN operand, NUM overflow (R95, Table 17-2). -/
def Cause.kind : Cause → Nat
  | .invalid => 0x01
  | .nanOperand => 0x02
  | .overflow => 0x03

/-- Whether a cause is watched: overflow only when INF_TRAP is 1 (R94). -/
def watched (infTrap : Bool) (c : Cause) : Bool := c != .overflow || infTrap

namespace State

/-- Latch an event into the trap record of a core (R96, Table 3-7). -/
def latchTrap (s : State) (t : OpTag) (e : Event) : State :=
  let n := t.core
  let a := if s.cad.ran then s.cad.lastFired else 0
  (((((((((((((((s.put (Reg.coreTrapStatusValid n) 1).put (Reg.coreTrapStatusSrc n) t.src).put
    (Reg.coreTrapStatusCause n) e.cause.code).put (Reg.coreTrapStatusRz n) (b2n t.rz)).put
    (Reg.coreTrapStatusSpecial n) (b2n t.special)).put (Reg.coreTrapStatusCore n) n).put
    (Reg.coreTrapOpid n) t.opid).put (Reg.coreTrapOwnerGang n) (s.get (Reg.coreCtxGang n))).put
    (Reg.coreTrapOwnerStage n) (s.get (Reg.coreCtxStage n))).put (Reg.coreTrapTileMt n) e.mt).put
    (Reg.coreTrapTileNt n) e.nt).put (Reg.coreTrapElemRow n) e.row).put (Reg.coreTrapElemCol n) e.col).put
    (Reg.coreTrapElemKblk n) e.kblk).put (Reg.coreTrapAngleLo n) (a % 2 ^ 32)).put
    (Reg.coreTrapAngleHi n) (a / 2 ^ 32)

/-- The record takes the first event while it is clear, and every further event counts (R96). -/
def recordEvents (s : State) (t : OpTag) : List Event → State
  | [] => s
  | e :: r =>
    if s.flag (Reg.coreTrapStatusValid t.core) then s.count (Reg.coreNanCount t.core) (r.length + 1)
    else (s.latchTrap t e).count (Reg.coreNanCount t.core) r.length

/-- The one fault of an operation with events (R95): its kind after its first event, its class after NAN_ACTION;
a class U raise holds the stage's next gate with reason ABORT. -/
def raiseNum (s : State) (t : OpTag) (c : Cause) : State :=
  let addr := t.opid % 2 ^ 32 + t.core * 2 ^ 32
  if s.flag (Reg.coreNumctrlNanAction t.core) then (s.raise (srcNum t.core) c.kind clsU addr).abortHold
  else s.raise (srcNum t.core) c.kind clsC addr

/-- The events of one operation, in the order of R97: the unwatched ones drop, the record takes them, and the
operation raises its fault unless it has done so already. -/
def opEvents (s : State) (t : OpTag) (already : Bool) (es : List Event) : State :=
  let w := es.filter (fun e => watched (s.flag (Reg.coreNumctrlInfTrap t.core)) e.cause)
  match w with
  | [] => s
  | e :: _ =>
    let s' := s.recordEvents t w
    if already then s' else s'.raiseNum t e.cause

/-- Whether any of these events is watched on a core. -/
def anyWatched (s : State) (core : Nat) (es : List Event) : Bool :=
  es.any (fun e => watched (s.flag (Reg.coreNumctrlInfTrap core)) e.cause)

/-- CORE.REFUSE keeps the first refusal while VALID is 1 (R108, R121). -/
def recordRefusal (s : State) (n reason opid need have_ : Nat) : State :=
  if s.flag (Reg.coreRefuseValid n) then s
  else ((((s.put (Reg.coreRefuseReason n) reason).put (Reg.coreRefuseValid n) 1).put (Reg.coreRefuseOpid n) opid).put
    (Reg.coreRefuseNeed n) need).put (Reg.coreRefuseHave n) have_

/-- A refused command (R108): one class U fault from the core's issue source, the record, the sequencer stopped,
and the gang's next gate held with reason ABORT. -/
def refuseCmd (s : State) (n kind reason opid need have_ : Nat) : State :=
  let c := s.core n
  (((s.raise (srcIssue n) kind clsU (opid % 2 ^ 32 + n * 2 ^ 32)).recordRefusal n reason opid need have_).setCore n
    { c with run := .refused, waiting := none, vecWait := false }).abortHold

/-- A command of core `n` completes (R388): every entry of the capture list that names it counts an occurrence, and
an entry whose occurrence this is captures its range. -/
def noteDone (s : State) (n opid : Nat) : State :=
  let hit := fun (e : CapEntry × Nat) => e.1.core == n && e.1.opid == opid
  let now := s.caps.filter (fun e => hit e && e.2 + 1 == e.1.occur)
  { s with
    caps := s.caps.map (fun e => if hit e then (e.1, e.2 + 1) else e)
    captures := s.captures ++ now.map (fun e =>
      { entry := e.1, angle := s.cad.lastFired, data := (s.hearth (dieOf n)).readBytes e.1.addr e.1.len }) }

end State

/-- Slots of a core that are not FREE. -/
def Core.slotsHeld (c : Core) : Nat :=
  ((List.range 16).filter (fun j => Assoc.get SlotSt.free c.slotSt j != .free)).length

/-- Operand-buffer bytes of the accepted issues that have not released their regions, and of an attention command
in progress (R117, R196). -/
def Core.obBytes (c : Core) : Nat :=
  ((c.queue.map (fun i => (mmOf i.words).obSize)).foldl (· + ·) 0) + (match c.attn with
    | some a => a.obBytes
    | none => 0)

/-- Both pools of a core agree with their ledgers (R117). -/
def Core.ledgersOk (c : Core) : Bool := c.slotsHeld == c.accHeld && c.obBytes == c.obHeld

/-- R117: a count that differs from its ledger is a class F fault, kind ACC ledger. -/
def State.auditCore (s : State) (n : Nat) : State :=
  if (s.core n).ledgersOk then s else s.raise (srcIssue n) 0x0C clsF (n * 2 ^ 32)

/-- Every field of a core's trap record reads zero until the next event latches (R96). -/
def State.clearTrap (s : State) (n : Nat) : State :=
  ((((((((((((((((s.put (Reg.coreTrapStatusValid n) 0).put (Reg.coreTrapStatusSrc n) 0).put (Reg.coreTrapStatusCause n) 0).put
    (Reg.coreTrapStatusRz n) 0).put (Reg.coreTrapStatusSpecial n) 0).put (Reg.coreTrapStatusCore n) 0).put
    (Reg.coreTrapOpid n) 0).put (Reg.coreTrapOwnerGang n) 0).put (Reg.coreTrapOwnerStage n) 0).put
    (Reg.coreTrapTileMt n) 0).put (Reg.coreTrapTileNt n) 0).put (Reg.coreTrapElemRow n) 0).put
    (Reg.coreTrapElemCol n) 0).put (Reg.coreTrapElemKblk n) 0).put (Reg.coreTrapAngleLo n) 0).put
    (Reg.coreTrapAngleHi n) 0)

/-- TRAP_CLEAR: a write of 1 to CORE.TRAP_STATUS.VALID clears and re-arms a core's trap record (R96).
With `event`, an event of the core arrives in the cycle of the write: it wins (R13), so the write clears nothing, and the
event counts when its own command runs. -/
def execTrapClear (core : Nat) (s : State) (event : Bool := false) : Host.Outcome State Fault Refusal :=
  if 192 ≤ core then void s else if event then .next s else .next (s.clearTrap core)

end Sys2Proof.Machine
end

