-- ==== Sys2Proof/Machine/Matrix.lean ====
section
/-!
DEFINITION. Machine/Matrix.lean: the matrix array of a core (chapters 04 and 05): the issue check, waiting and
refusal (R106 to R108, R113, R115), what an issue computes (R82 to R86, R109, R110, R138, R535), its completion
(R112 to R114), the drain (R111), stranded slots (R116) and commands of no class (R148). -/

namespace Sys2Proof.Machine

/-! ## The sequencer's program (R141, R142) -/

/-- The segment whose commands the sequencer dispatches, if it has started and holds commands not dispatched. -/
def Core.dispatching (c : Core) : Option SegRun :=
  c.segs.find? (fun g => g.segment == c.curSeg && decide (g.disp < g.total))

/-- The first segment from `k` on, at most `f` further, that has not started or has commands left to dispatch. -/
def Core.pastDone (c : Core) : Nat → Nat → Nat
  | 0, k => k
  | f + 1, k => if c.segs.any (fun g => g.segment == k && decide (g.total ≤ g.disp)) then c.pastDone f (k + 1) else k

/-- The sequencer moves past every started segment whose commands are all dispatched (R142). The tile registers are
cleared before the first command of the segment it comes to (R146), once the depth-wise path no longer reads them. -/
def Core.advance (c : Core) : Core :=
  let k := c.pastDone c.segs.length c.curSeg
  if k = c.curSeg then c else { c with curSeg := k, tiles := if c.dwconv.isSome then c.tiles else .empty }

/-- One command of the current segment is dispatched. -/
def Core.dispatch (c : Core) : Core :=
  Core.advance { c with
    vecWait := false
    segs := c.segs.map (fun g => if g.segment = c.curSeg then { g with disp := g.disp + 1 } else g) }

/-- Change the run of segment `k`. -/
def Core.setRun (c : Core) (k : Nat) (f : SegRun → SegRun) : Core :=
  { c with segs := c.segs.map (fun g => if g.segment = k then f g else g) }

/-- One command of segment `k` is complete. -/
def Core.complete (c : Core) (k : Nat) : Core :=
  c.setRun k (fun g => { g with done := g.done + 1 })

namespace State

/-- Core `n` may take the next command of its program: the job runs, the core runs a program that no refusal or
abort has stopped, no issue waits, and a started segment has commands left (R108, R115, R142). -/
def canDispatch (s : State) (n : Nat) : Bool :=
  let c := s.core n
  decide (n < 192) && s.life == .running && c.run == .running && c.waiting.isNone && c.dispatching.isSome

/-- The array and the vector engine of core `n` take the next command: no attention command runs on them (R196). -/
def canCompute (s : State) (n : Nat) : Bool := s.canDispatch n && (s.core n).attn.isNone

/-- The program header of core `n`. -/
def prog (s : State) (n : Nat) : Option Prog :=
  match s.billet with
  | some b => b.progs.find? (fun p => p.core == n)
  | none => none

end State

/-! ## The issue check (R106) -/

/-- Four times the bytes per element of a format code (Table 4-4). -/
def quarterBytes (code : Nat) : Nat :=
  if code = 2 ∨ code = 3 then 3 else if code = 4 ∨ code = 6 then 2 else if code = 7 ∨ code = 8 then 8
  else if code = 9 then 16 else 4

/-- The slots of a plan (R107). -/
def planSlots (mp np : Nat) : Nat := ceilDiv mp 128 * ceilDiv np 128

/-- The operand-buffer bytes of a plan (R107). -/
def planBytes (d : MM) : Nat :=
  roundUp (2 * d.mp * 128 * quarterBytes d.afmt / 4) 256 + roundUp (2 * 128 * 128 * quarterBytes d.bfmt / 4) 256 +
  (if d.amx = 1 then roundUp (2 * 4 * d.mp) 256 else 0) + (if d.bmx = 1 then roundUp (2 * 4 * 128) 256 else 0) +
  (if d.init = 1 then roundUp (4 * d.np) 256 else 0)

/-- A float of 8 bits or fewer. -/
def smallFloat (c : Nat) : Bool := decide (c ≤ 4)

/-- An integer format code. -/
def intCode (c : Nat) : Bool := c == 5 || c == 6

/-- The operand pairs of Table 3-3: INT8 may take an INT4 B operand, INT4 takes INT4 only. -/
def pairOk (a b : Nat) : Bool :=
  (smallFloat a && smallFloat b) || (a == 5 && intCode b) || (a == 6 && b == 6) || (a == 7 && b == 7) ||
  (a == 8 && b == 8)

/-- Test 1 of Table 4-5. -/
def test1 (d : MM) : Bool :=
  d.op == 1 && d.init != 3 && decide (1 ≤ d.mp ∧ d.mp ≤ 2048) && decide (1 ≤ d.np ∧ d.np ≤ 2048) &&
  decide (1 ≤ d.kp ∧ d.kp ≤ 2097152) && decide (d.k0 + d.kp ≤ 2097152) && d.obBase % 256 == 0 &&
  d.obSize % 256 == 0 && decide (d.obBase + d.obSize ≤ 3145728)

/-- Scales as Table 4-5 test 2 demands for an operand. -/
def mxOperandOk (code mx : Nat) : Bool :=
  if code = 2 ∨ code = 3 ∨ code = 4 then mx == 1 else if code = 0 ∨ code = 1 then true else mx == 0

/-- A signedness bit is zero for a float format. -/
def signOk (code sign : Nat) : Bool := intCode code || sign == 0

/-- Test 2 of Table 4-5: formats, pair, scales and signedness. FP6 and FP4 outputs take OMX 1 only (Table 4-4). -/
def test2 (d : MM) : Bool :=
  decide (d.afmt ≤ 8) && decide (d.bfmt ≤ 8) && decide (d.ofmt ≤ 9) && pairOk d.afmt d.bfmt &&
  mxOperandOk d.afmt d.amx && mxOperandOk d.bfmt d.bmx && mxOperandOk d.ofmt d.omx && signOk d.afmt d.asign &&
  signOk d.bfmt d.bsign && signOk d.ofmt d.osign

/-- The run-time shape: words 6 and 7, or CORE.SHAPE[j] (R105). -/
def runShape (s : State) (n : Nat) (d : MM) : Nat × Nat × Nat :=
  if d.shapeSel = 0 then (d.m, d.n, d.k)
  else (s.get (Reg.coreShapeM n d.shapeSel), s.get (Reg.coreShapeN n d.shapeSel), s.get (Reg.coreShapeK n d.shapeSel))

/-- Test 3: K0 on a group boundary (R85), and for KEEP the end too when M and N are both non-zero (R113). -/
def test3 (d : MM) (m n k : Nat) : Bool :=
  d.k0 % 32 == 0 && (!d.keep || m == 0 || n == 0 || (d.k0 + k) % 32 == 0)

/-- The outcome of the issue check. -/
inductive Verdict where
  | accept
  | wait
  | refuse (reason kind need have_ : Nat)
  deriving DecidableEq, Repr

/-- What a slot's state means for an issue (Table 4-7, R113, R115): it may be taken, the issue waits for it, or it
may never be taken as no accepted issue is to change it. -/
def slotVerdict (c : Core) (d : MM) (j : Nat) : Verdict :=
  match Assoc.get SlotSt.free c.slotSt j with
  | .busy | .drain => .wait
  | .free => if d.init = 2 then .refuse 7 0x08 0 0 else .accept
  | .kept => if d.init = 2 ∧ Assoc.get 0 c.nextK j = d.k0 then .accept else .refuse 7 0x08 0 0

/-- The slots of an issue's plan. -/
def planned (d : MM) : List Nat := (List.range (planSlots d.mp d.np)).map (fun i => d.slotBase + i)

/-- Two byte regions of the operand buffer overlap. -/
def regionsMeet (a la b lb : Nat) : Bool := decide (a < b + lb ∧ b < a + la ∧ 0 < la ∧ 0 < lb)

/-- The issue check of Table 4-5, in table order (R106); tests 6 and 7 wait for what an earlier issue still holds
(R115). -/
def issueCheck (s : State) (n : Nat) (d : MM) : Verdict :=
  let c := s.core n
  let (m, nn, k) := runShape s n d
  let vs := (planned d).map (slotVerdict c d)
  if !test1 d then .refuse 1 0x08 0 0
  else if !test2 d then .refuse 2 0x08 0 0
  else if !test3 d m nn k then .refuse 3 0x08 0 0
  else if d.mp < m then .refuse 4 0x09 m d.mp
  else if d.np < nn then .refuse 4 0x09 nn d.np
  else if d.kp < k then .refuse 4 0x09 k d.kp
  else if 16 < d.slotBase + planSlots d.mp d.np then .refuse 5 0x0A (planSlots d.mp d.np) (16 - d.slotBase)
  else if d.obSize < planBytes d then .refuse 6 0x0A (planBytes d) d.obSize
  else if c.queue.any (fun i => regionsMeet d.obBase d.obSize (mmOf i.words).obBase (mmOf i.words).obSize) then .wait
  else if vs.any (fun v => v != .accept && v != .wait) then .refuse 7 0x08 0 0
  else if vs.any (fun v => v == .wait) then .wait
  else .accept

/-! ## The slag mask of an issue (R137, R138) -/

/-- The bytes of a bit vector of `len` bits at `addr`; none where the address is 0. -/
def maskBytes (h : Memory) (addr len : Nat) : List Byte :=
  if addr = 0 then [] else h.readBytes addr (ceilDiv len 8)

/-- Bit `j` of a mask of `len` bits (Table 5-4). -/
def maskBit (l : List Byte) (len j : Nat) : Bool :=
  decide (j < len) && (l.getD (j / 8) 0#8).getLsbD (j % 8)

/-- The two slag vectors that an issue's check reads (R138), cut at their lengths. -/
def slagVectors (s : State) (n : Nat) (d : MM) : List Byte × List Byte :=
  match s.prog n with
  | some p =>
    if d.slagId = 0 ∨ p.slagCount < d.slagId then ([], [])
    else
      let h := s.hearth (dieOf n)
      let e := p.slagAddr + 16 * (d.slagId - 1)
      let ra := h.readLE e 4 % 2 ^ 30
      let ca := h.readLE (e + 4) 4 % 2 ^ 30
      let rl := h.readLE (e + 8) 2 % 2 ^ 12
      let cl := h.readLE (e + 10) 2 % 2 ^ 12
      let cut := fun (l : List Byte) (len : Nat) =>
        (List.range (ceilDiv len 8)).map (fun i =>
          if 8 * i + 8 ≤ len then l.getD i 0#8 else BitVec.ofNat 8 ((l.getD i 0#8).toNat % 2 ^ (len - 8 * i)))
      (cut (maskBytes h ra rl) (if ra = 0 then 0 else rl), cut (maskBytes h ca cl) (if ca = 0 then 0 else cl))
  | none => ([], [])

/-- Output position (m, n) is slag (R138). -/
def Issue.slag (i : Issue) (m n : Nat) : Bool :=
  maskBit i.slagRow (8 * i.slagRow.length) m || maskBit i.slagCol (8 * i.slagCol.length) n

/-! ## Hearth ranges (R141) -/

/-- The Hearth byte past the last of `rows` stored rows of `len` elements of width `w`. -/
def extent (addr stride rows len w : Nat) : Nat :=
  if rows = 0 ∨ len = 0 then 0 else addr + (rows - 1) * stride + elemBytes len w

/-- A byte range of Hearth: address and length. -/
abbrev Rng := Nat × Nat

/-- The range from an address to the byte before `stop`. -/
def upTo (addr stop : Nat) : Rng := (addr, stop - addr)

/-- Two lists of ranges share a byte. -/
def meet (a b : List Rng) : Bool := a.any (fun x => b.any (fun y => regionsMeet x.1 x.2 y.1 y.2))

/-- The width of an optional format. -/
def widthOf (f : Option Fmt) : Nat :=
  match f with
  | some f => f.width
  | none => 0

/-- The ranges that an issue reads (R110, R141). -/
def Issue.reads (i : Issue) : List Rng :=
  let d := mmOf i.words
  let a := if d.ta then extent d.aAddr d.aStride i.k i.m (widthOf d.fa) else extent d.aAddr d.aStride i.m i.k (widthOf d.fa)
  let b := if d.tb then extent d.bAddr d.bStride i.n i.k (widthOf d.fb) else extent d.bAddr d.bStride i.k i.n (widthOf d.fb)
  [upTo d.aAddr a, upTo d.bAddr b] ++ (if d.init = 1 then [(d.biasAddr, 4 * i.n)] else []) ++
  (if d.amx = 1 then [(d.asAddr, i.m * ceilDiv d.kp 32)] else []) ++
  (if d.bmx = 1 then [(d.bsAddr, i.n * ceilDiv d.kp 32)] else [])

/-- The ranges that an issue's drain writes (R111, R141). -/
def Issue.writes (i : Issue) : List Rng :=
  let d := mmOf i.words
  if d.keep then [] else
  [upTo d.cAddr (extent d.cAddr d.cStride i.m i.n (widthOf d.fo))] ++
  (if d.omx = 1 then [(d.csAddr, i.m * ceilDiv d.np 32)] else [])

/-- The run of a segment on a core. -/
def Core.segRun (c : Core) (k : Nat) : Option SegRun := c.segs.find? (fun g => g.segment == k)

/-- The Swage table of a segment that has started on a core. -/
def Core.swageOf (c : Core) (k : Nat) : List SwageSet :=
  match c.segRun k with
  | some g => g.swage
  | none => []

/-- The own rows that a running DWCONV reads, and the output rows that it writes (R141, Tables 6-9 and 7-4). -/
def Core.dwReads (c : Core) : List Rng :=
  match c.dwconv with
  | some ws => match (c.swageOf c.vecSeg)[wf ws 7 16 4]? with
    | some w => [(w.srcAddr, (w.ch - 1) * w.planeStride + w.n * w.rowStride)]
    | none => []
  | none => []

/-- The output rows of a running DWCONV. -/
def Core.dwWrites (c : Core) : List Rng :=
  match c.dwconv with
  | some ws => [(wf ws 5 0 30, wf ws 7 20 8 * wf ws 6 0 24 + wf ws 4 0 16 * quarterBytes (wf ws 7 0 4) / 4)]
  | none => []

/-- The ranges that a transfer reads and writes (R228, R245). -/
def Xfer.reads (x : Xfer) : List Rng :=
  if x.op = 0x60 ∧ x.dir % 2 = 1 then [] else [(x.haddr, x.len)]

/-- The ranges that a transfer writes: a STASH in an MX mode writes its source back (R225, R228). -/
def Xfer.writes (x : Xfer) : List Rng :=
  if x.op = 0x60 then (if x.dir % 2 = 1 then [(x.haddr, x.len)] else if x.result = 0 then [] else [(x.result, 4)])
  else if x.op = 0x62 ∧ 2 ≤ x.mode then [(x.haddr, x.len)] else []

/-- The ranges that Swage's sends without a credit read (R191). -/
def Core.sendReads (c : Core) : List Rng := c.segs.flatMap (fun g => g.stalled.map (fun e => e.src))

/-- The ranges that a running term-walk writes: its record (R168). -/
def Core.walkWrites (c : Core) : List Rng :=
  match c.walk with
  | some ws => [(wf ws 6 0 30, 64)]
  | none => []

/-- The ranges that a running attention command reads (R196). -/
def Core.attnReads (c : Core) : List Rng :=
  match c.attn with
  | some a => a.reads
  | none => []

/-- The ranges that a running attention command writes. -/
def Core.attnWrites (c : Core) : List Rng :=
  match c.attn with
  | some a => a.writes
  | none => []

/-- The ranges that commands dispatched and not complete still read, issues apart. -/
def Core.sideReads (c : Core) : List Rng :=
  c.dwReads ++ c.xfers.flatMap Xfer.reads ++ c.walkReads ++ c.attnReads ++ c.sendReads

/-- The ranges that commands dispatched and not complete still write, issues apart. -/
def Core.sideWrites (c : Core) : List Rng :=
  c.drains.flatMap (fun x => x.issue.writes) ++ c.dwWrites ++ c.xfers.flatMap Xfer.writes ++ c.walkWrites ++ c.attnWrites

/-- The ranges that commands dispatched and not complete still read. -/
def Core.pendReads (c : Core) : List Rng := c.queue.flatMap Issue.reads ++ c.sideReads

/-- The ranges that commands dispatched and not complete still write. -/
def Core.pendWrites (c : Core) : List Rng := c.queue.flatMap Issue.writes ++ c.sideWrites

/-- A command that reads `rs` and writes `ws` must wait for an earlier one (R141). -/
def Core.mustWait (c : Core) (rs ws : List Rng) : Bool :=
  meet c.pendWrites (rs ++ ws) || meet c.pendReads ws

/-- The oldest issue must wait for a drain, a depth-wise row, a term-walk, a transfer or a send that began before it (R141):
one that began after it conflicts with it in nothing, as it was dispatched only once that held. -/
def Core.issueWaits (c : Core) (i : Issue) : Bool :=
  meet c.sideWrites (i.reads ++ i.writes) || meet c.sideReads i.writes

/-! ## Acceptance -/

/-- Set a list of slots to a state. -/
def setSlots (l : List (Nat × SlotSt)) (js : List Nat) (st : SlotSt) : List (Nat × SlotSt) :=
  js.foldl (fun acc j => Assoc.set SlotSt.free acc j st) l

/-- An accepted issue takes its slots and its region (R106, R114, R117). -/
def Core.accept (c : Core) (i : Issue) : Core :=
  let d := mmOf i.words
  let js := planned d
  let fresh := (js.filter (fun j => Assoc.get SlotSt.free c.slotSt j == .free)).length
  { c with
    queue := c.queue ++ [i]
    slotSt := setSlots c.slotSt js .busy
    accHeld := c.accHeld + fresh
    obHeld := c.obHeld + d.obSize
    waiting := none }

/-- Accept an issue: count it, and count a zero run-time shape (R112). -/
def State.acceptIssue (s : State) (n : Nat) (ws : List Nat) : State :=
  let d := mmOf ws
  let (m, nn, k) := runShape s n d
  let (r, cl) := slagVectors s n d
  let c := s.core n
  let i : Issue := { words := ws, m := m, n := nn, k := k, slagRow := r, slagCol := cl, segment := c.curSeg }
  let s1 := (s.setCore n (c.accept i).dispatch).count (Reg.coreIssues n)
  let s2 := if m = 0 ∨ nn = 0 ∨ k = 0 then s1.count (Reg.coreZeroshape n) else s1
  s2.auditCore n

/-- Act on the check's verdict. -/
def State.takeIssue (s : State) (n : Nat) (ws : List Nat) : State :=
  let d := mmOf ws
  match issueCheck s n d with
  | .accept => s.acceptIssue n ws
  | .wait => s.setCore n { s.core n with waiting := some ws }
  | .refuse reason kind need have_ => s.refuseCmd n kind reason d.opid need have_

/-- MATMUL: the sequencer reaches an issue and checks it (R106). -/
def execMatmul (core : Nat) (words : List Word) (s : State) : Host.Outcome State Fault Refusal :=
  if s.canCompute core then .next (s.takeIssue core (natWords words)) else void s

/-! ## What an issue computes -/

/-- The value of A at (m, k0 + kk), by the stored layout and scales (R122, R128, R535). -/
def aVal (h : Memory) (d : MM) (f : Fmt) (m kk : Nat) : Val :=
  let base := if d.ta then d.aAddr + kk * d.aStride else d.aAddr + m * d.aStride
  let i := if d.ta then m else kk
  if d.amx = 1 then h.mxVal f base i (d.asAddr + m * ceilDiv d.kp 32 + kk / 32) else h.val f base i

/-- The value of B at (k0 + kk, n), by the stored layout and scales (R122, R128, R535). -/
def bVal (h : Memory) (d : MM) (f : Fmt) (kk n : Nat) : Val :=
  let base := if d.tb then d.bAddr + n * d.bStride else d.bAddr + kk * d.bStride
  let i := if d.tb then kk else n
  if d.bmx = 1 then h.mxVal f base i (d.bsAddr + n * ceilDiv d.kp 32 + kk / 32) else h.val f base i

/-- The stored code of A at (m, k0 + kk). -/
def aCode (h : Memory) (d : MM) (w m kk : Nat) : Nat :=
  if d.ta then h.elem (d.aAddr + kk * d.aStride) w m else h.elem (d.aAddr + m * d.aStride) w kk

/-- The stored code of B at (k0 + kk, n). -/
def bCode (h : Memory) (d : MM) (w kk n : Nat) : Nat :=
  if d.tb then h.elem (d.bAddr + n * d.bStride) w kk else h.elem (d.bAddr + kk * d.bStride) w n

/-- The scale byte of A's block at (m, kk); 0x7F where A carries none. -/
def aScale (h : Memory) (d : MM) (m kk : Nat) : Nat :=
  if d.amx = 1 then (h.read (d.asAddr + m * ceilDiv d.kp 32 + kk / 32)).toNat else 0x7F

/-- The scale byte of B's block at (kk, n); 0x7F where B carries none. -/
def bScale (h : Memory) (d : MM) (kk n : Nat) : Nat :=
  if d.bmx = 1 then (h.read (d.bsAddr + n * ceilDiv d.kp 32 + kk / 32)).toNat else 0x7F

/-- The term of output (m, n) at k = K0 + kk (R82). -/
def termAt (h : Memory) (d : MM) (fa fb : Fmt) (m n kk : Nat) : Term :=
  { a := aVal h d fa m kk, b := bVal h d fb kk n }

/-- The groups of output (m, n) over the issue's run-time K (R82, R110). -/
def termGroups (h : Memory) (d : MM) (fa fb : Fmt) (k m n : Nat) : List (List (Option Term)) :=
  groupsOf (ceilDiv k 32) ((List.range k).map (fun kk => some (termAt h d fa fb m n kk)))

/-- The slot of row block `i` and N tile `t` (R109). -/
def slotOf (d : MM) (t i : Nat) : Nat := d.slotBase + t * ceilDiv d.mp 128 + i

/-- The key of an accumulator element. -/
def accKey (slot row col : Nat) : Nat := slot * 16384 + row * 128 + col

/-- The accumulator's value before the first group of output (m, n): zero, bias, or the kept sum (R109). -/
def initAcc (h : Memory) (c : Core) (d : MM) (m n : Nat) : Nat :=
  if d.init = 0 then 0
  else if d.init = 1 then h.word32 (d.biasAddr + 4 * n)
  else Assoc.get 0 c.acc (accKey (slotOf d (n / 128) (m / 128)) (m % 128) (n % 128))

/-- One output element of an issue: its accumulator code and its events, each keyed by the order of R109 and R97:
k chunk, N tile, row block, row, column, group.
DESIGN CHOICE (notes/assumptions/139): the event of a NaN bias names the issue's first group, K0 / 32, as the spec names no
group for a bias. -/
def element (h : Memory) (c : Core) (i : Issue) (m n : Nat) : Nat × List (Nat × Event) :=
  let d := mmOf i.words
  let a0 := initAcc h c d m n
  match d.fa, d.fb with
  | some fa, some fb =>
    if i.slag m n then (a0, [])
    else
      let r := accumulate d.rz a0 (d.k0 / 32) (termGroups h d fa fb i.k m n)
      let bias : List (Nat × Cause) :=
        if d.init = 1 ∧ (Val.ofF32 a0).isNan then [(d.k0 / 32, .nanOperand)] else []
      (r.1, (bias ++ r.2).map (fun (g, cause) =>
        let gl := g - d.k0 / 32
        ((((((gl / 4) * 16 + n / 128) * 16 + m / 128) * 128 + m % 128) * 128 + n % 128) * 4 + gl % 4,
         { cause := cause, mt := m / 128, nt := n / 128, row := m % 128, col := n % 128, kblk := g })))
  | _, _ => (a0, [])

/-- A core at the start of a step: every pool is at home (Table 2-6), and what its buffers hold stays, as no command has
written them. -/
def Core.atHome (c : Core) : Core :=
  { Core.init with tiles := c.tiles, opBuf := c.opBuf, weights := c.weights, tongsA := c.tongsA, tongsB := c.tongsB
                   lineBuf := c.lineBuf }

/-- Insert an event in its place. -/
def insertEvent (e : Nat × Event) : List (Nat × Event) → List (Nat × Event)
  | [] => [e]
  | x :: r => if e.1 < x.1 then e :: x :: r else x :: insertEvent e r

/-- The output positions of a run-time shape, row by row. -/
def outputs (m n : Nat) : List (Nat × Nat) := positions m n

/-- The accumulator memory after an issue's sums, and the events in order (R97, R109). A slot taken for a new sum
is initialised whole: its positions outside the run-time shape hold zero, or the bias. -/
def sums (h : Memory) (c : Core) (i : Issue) : List (Nat × Nat) × List Event :=
  let d := mmOf i.words
  let reached := (List.range (ceilDiv i.n 128)).flatMap (fun t =>
    (List.range (ceilDiv i.m 128)).map (fun r => slotOf d t r))
  let base := if d.init = 2 then c.acc else c.acc.filter (fun p => !(reached.contains (p.1 / 16384)))
  let below := if d.init = 1 then
      (positions (roundUp i.m 128 - i.m) i.n).map (fun (r, n) => (i.m + r, n))
    else []
  let base := below.foldl (fun l (m, n) =>
    Assoc.set 0 l (accKey (slotOf d (n / 128) (m / 128)) (m % 128) (n % 128)) (h.word32 (d.biasAddr + 4 * n))) base
  let rs := (outputs i.m i.n).map (fun (m, n) => ((m, n), element h c i m n))
  let acc := rs.foldl (fun l ((m, n), (v, _)) =>
    Assoc.set 0 l (accKey (slotOf d (n / 128) (m / 128)) (m % 128) (n % 128)) v) base
  let evs := rs.foldl (fun l (_, (_, es)) => es.foldl (fun l e => insertEvent e l) l) []
  (acc, evs.map (fun e => e.2))

/-- The cycles for which an issue streams (R119): q is 2 for BF16 and FP16, one half for FP4 and INT4 pairs. -/
def streamCycles (d : MM) (i : Issue) : Nat :=
  let blocks := ceilDiv i.k 128 * ceilDiv i.n 128 * ceilDiv i.m 128
  if d.afmt = 7 ∨ d.afmt = 8 then blocks * 256
  else if (d.afmt = 4 ∧ d.bfmt = 4) ∨ (d.afmt = 6 ∧ d.bfmt = 6) then blocks * 64
  else blocks * 128

/-! ## The core's buffers (R100, R107, R123) -/

/-- Element codes of width `w`, `rows` by `cols`, placed from byte `base` with 128 elements of room a row. -/
def placeBlock (m : Memory) (w base rows cols : Nat) (code : Nat → Nat → Nat) : Memory :=
  (positions rows cols).foldl (fun t (r, q) => t.writeElem (base + r * (16 * w)) w q (code r q)) m

/-- The last two of `n` things loaded in turn, of which the buffer holds both (R107). -/
def lastTwo (n : Nat) : List Nat := (List.range n).drop (n - 2)

/-- Rows or columns of block `b` of `n`. -/
def blockLen (n b : Nat) : Nat := min 128 (n - 128 * b)

/-- The issue's operand-buffer region as it stands when the issue completes: the panels of A and the tiles of B of the last
two loads, their scales, and the bias row, in the order of R107's terms (notes/assumptions/138). A transposed operand lies as
a plain one does (R123). -/
def fillRegion (h : Memory) (d : MM) (i : Issue) (wa wb : Nat) (buf : Memory) : Memory :=
  let nb := ceilDiv i.n 128
  let a0 := d.obBase
  let b0 := a0 + roundUp (2 * d.mp * 128 * quarterBytes d.afmt / 4) 256
  let as0 := b0 + roundUp (2 * 128 * 128 * quarterBytes d.bfmt / 4) 256
  let bs0 := as0 + (if d.amx = 1 then roundUp (2 * 4 * d.mp) 256 else 0)
  let bi0 := bs0 + (if d.bmx = 1 then roundUp (2 * 4 * 128) 256 else 0)
  let m1 := (lastTwo (ceilDiv i.k 128)).foldl (fun t c =>
    let u := placeBlock t wa (a0 + c % 2 * (d.mp * 16 * wa)) i.m (blockLen i.k c) (fun m q => aCode h d wa m (128 * c + q))
    if d.amx = 1 then (positions i.m (ceilDiv (blockLen i.k c) 32)).foldl (fun t (m, g) =>
      t.writeLE (as0 + c % 2 * (4 * d.mp) + 4 * m + g) 1 (aScale h d m (128 * c + 32 * g))) u else u) buf
  let m2 := (lastTwo (ceilDiv i.k 128 * nb)).foldl (fun t j =>
    let c := j / nb
    let n0 := 128 * (j % nb)
    let u := placeBlock t wb (b0 + j % 2 * (2048 * wb)) (blockLen i.k c) (blockLen i.n (j % nb))
      (fun q n => bCode h d wb (128 * c + q) (n0 + n))
    if d.bmx = 1 then (positions (blockLen i.n (j % nb)) (ceilDiv (blockLen i.k c) 32)).foldl (fun t (n, g) =>
      t.writeLE (bs0 + j % 2 * 512 + 4 * n + g) 1 (bScale h d (128 * c + 32 * g) (n0 + n))) u else u) m1
  if d.init = 1 then m2.writeBytes bi0 (h.readBytes d.biasAddr (4 * i.n)) else m2

/-- The weight tile that the array last loaded (R109). -/
def lastTile (h : Memory) (d : MM) (i : Issue) (wb : Nat) : Memory :=
  let c := ceilDiv i.k 128 - 1
  let t := ceilDiv i.n 128 - 1
  placeBlock .empty wb 0 (blockLen i.k c) (blockLen i.n t) (fun q n => bCode h d wb (128 * c + q) (128 * t + n))

/-- The two buffers of a Tongs half after an issue: its last two blocks of 128 × 128 elements, transposed (R123). `nb` is how
many blocks a chunk has; `code` gives the element at (row, column) of the operation from block `b` of chunk `c`. -/
def tongsHalf (w k nb : Nat) (rows cols : Nat → Nat → Nat) (code : Nat → Nat → Nat → Nat → Nat) : Memory :=
  (lastTwo (ceilDiv k 128 * nb)).foldl (fun t j =>
    placeBlock t w (32768 * (j % 2)) (rows (j / nb) (j % nb)) (cols (j / nb) (j % nb)) (code (j / nb) (j % nb))) .empty

/-- The core's buffers after an issue has streamed: an issue with no output reads nothing (R112). -/
def Core.fillBuffers (c : Core) (h : Memory) (i : Issue) : Core :=
  let d := mmOf i.words
  if i.m = 0 ∨ i.n = 0 ∨ i.k = 0 then c
  else
    let wa := widthOf d.fa
    let wb := widthOf d.fb
    { c with
      opBuf := fillRegion h d i wa wb c.opBuf
      weights := lastTile h d i wb
      tongsA := if d.ta then tongsHalf wa i.k (ceilDiv i.m 128) (fun _ b => blockLen i.m b) (fun ch _ => blockLen i.k ch)
        (fun ch b r q => aCode h d wa (128 * b + r) (128 * ch + q)) else c.tongsA
      tongsB := if d.tb then tongsHalf wb i.k (ceilDiv i.n 128) (fun ch _ => blockLen i.k ch) (fun _ b => blockLen i.n b)
        (fun ch b q n => bCode h d wb (128 * ch + q) (128 * b + n)) else c.tongsB }

/-- Every byte an issue reads lies in Hearth (R110, R532). -/
def issueReadsOk (i : Issue) : Bool :=
  let d := mmOf i.words
  if i.m = 0 ∨ i.n = 0 then true
  else
    let wa := match d.fa with | some f => f.width | none => 0
    let wb := match d.fb with | some f => f.width | none => 0
    let a := if d.ta then extent d.aAddr d.aStride i.k i.m wa else extent d.aAddr d.aStride i.m i.k wa
    let b := if d.tb then extent d.bAddr d.bStride i.n i.k wb else extent d.bAddr d.bStride i.k i.n wb
    decide (a ≤ hearthBytes) && decide (b ≤ hearthBytes) &&
    (d.init != 1 || decide (d.biasAddr + 4 * i.n ≤ hearthBytes)) &&
    (d.amx != 1 || i.k == 0 || decide (d.asAddr + i.m * ceilDiv d.kp 32 ≤ hearthBytes)) &&
    (d.bmx != 1 || i.k == 0 || decide (d.bsAddr + i.n * ceilDiv d.kp 32 ≤ hearthBytes))

/-- The slots of a plan with their row block and N tile, in drain order (R109). -/
def planGrid (d : MM) : List (Nat × Nat × Nat) :=
  (List.range (ceilDiv d.np 128)).flatMap (fun t =>
    (List.range (ceilDiv d.mp 128)).map (fun i => (slotOf d t i, i, t)))

/-- A planned slot that the run-time shape reaches (R112). -/
def reaches (i : Issue) (g : Nat × Nat × Nat) : Bool :=
  decide (g.2.1 < ceilDiv i.m 128) && decide (g.2.2 < ceilDiv i.n 128)

/-- A core after an issue completes (R112 to R114): reached slots go to KEPT with NEXT_K or to DRAIN, the others
return to the state they were taken in, and the region is released. -/
def Core.completeIssue (c : Core) (i : Issue) (acc : List (Nat × Nat)) (faulted : Bool) : Core :=
  let d := mmOf i.words
  let hit := (planGrid d).filter (reaches i)
  let miss := (planGrid d).filter (fun g => !(reaches i g))
  let js := hit.map (fun g => g.1)
  let st1 := setSlots c.slotSt js (if d.keep then .kept else .drain)
  let st2 := setSlots st1 (miss.map (fun g => g.1)) (if d.init = 2 then .kept else .free)
  Core.complete
    { c with
      queue := c.queue.tail
      acc := acc
      slotSt := st2
      nextK := if d.keep then js.foldl (fun l j => Assoc.set 0 l j (d.k0 + i.k)) c.nextK else c.nextK
      drains := if d.keep || hit.isEmpty then c.drains
                else c.drains ++ [{ issue := i, slots := hit, faulted := faulted }]
      accHeld := if d.init = 2 then c.accHeld else c.accHeld - miss.length
      obHeld := c.obHeld - d.obSize
      segs := c.segs.map (fun g => if g.segment = i.segment then { g with idone := g.idone + 1 } else g) } i.segment

/-- The hold that stands for a STAGE_END entry of the Strike table whose descriptor and microbatch a segment
carries. -/
def endHold (s : State) (g : SegRun) : Option OwnHold :=
  s.cad.own.find? (fun h => match h.entry with
    | some k => match s.cad.strike[k]? with
      | some e => e.kind == 2 && g.descs.contains (e.target, e.arg)
      | none => false
    | none => false)

/-- Slots still KEPT once every issue of a segment has completed are stranded (R116): each is released and raised, and
the STAGE_END gate at angle `a` is held with reason ABORT. -/
def State.strandedCheck (s : State) (n a : Nat) : State :=
  let c := s.core n
  let js := (List.range 16).filter (fun j => Assoc.get SlotSt.free c.slotSt j == .kept)
  if js.isEmpty || c.run == .refused then s
  else
    let s1 := s.setCore n
      { c with slotSt := setSlots c.slotSt js .free, accHeld := c.accHeld - js.length }
    (js.foldl (fun t j => t.raise (srcIssue n) 0x0B clsU (j + n * 2 ^ 32)) s1).abortAt a

/-- After an issue of segment `k` completes: the stranded check of R116, when it was the segment's last issue and the
gate's hold stands. -/
def State.afterComplete (s : State) (n k : Nat) : State :=
  match (s.core n).segs.find? (fun g => g.segment == k) with
  | some g =>
    if g.itotal ≤ g.idone then
      match endHold s g with
      | some h => s.strandedCheck n h.angle
      | none => s
    else s
  | none => s

/-- The tag of an issue's events. -/
def mmTag (n : Nat) (d : MM) : OpTag := { core := n, src := 0, opid := d.opid, rz := d.rz, special := d.special }

/-- ISSUE_COMPLETE: the oldest accepted issue of a core has streamed its last row (R109, R114). -/
def execIssueComplete (core : Nat) (s : State) : Host.Outcome State Fault Refusal :=
  let c := s.core core
  match c.queue with
  | [] => void s
  | i :: _ =>
    if !s.alive || c.issueWaits i then void s
    else if !issueReadsOk i then .fault .hearthRange
    else
      let d := mmOf i.words
      let (acc, evs) := sums (s.hearth (dieOf core)) c i
      let f := s.anyWatched core evs
      let s1 := s.setCore core ((c.fillBuffers (s.hearth (dieOf core)) i).completeIssue i acc f)
      let s2 := s1.count64 (Reg.coreBusyCyclesLo core) (Reg.coreBusyCyclesHi core) (streamCycles d i)
      let s3 := s2.opEvents (mmTag core d) false evs
      let s3 := if c.drains.length = (s3.core core).drains.length then s3.noteDone core d.opid else s3
      .next ((s3.auditCore core).afterComplete core i.segment)

/-! ## The drain (R111) -/

/-- The last group of the draining issue: ceil((K0 + K) / 32) − 1, or 0 (R94). -/
def lastGroup (d : MM) (i : Issue) : Nat := if d.k0 + i.k = 0 then 0 else ceilDiv (d.k0 + i.k) 32 - 1

/-- The value drained at (m, n): the accumulator, or +0 at a slag position (R138). -/
def drainVal (c : Core) (i : Issue) (m n : Nat) : Val :=
  let d := mmOf i.words
  if i.slag m n then .zero
  else Val.ofF32 (Assoc.get 0 c.acc (accKey (slotOf d (n / 128) (m / 128)) (m % 128) (n % 128)))

/-- Write one slot's rows without MX (R111). -/
def drainPlain (h : Memory) (c : Core) (i : Issue) (f : Fmt) (ib t : Nat) : Memory × List Event :=
  let d := mmOf i.words
  let ps := (positions (min 128 (i.m - 128 * ib)) (min 128 (i.n - 128 * t))).map
    (fun (r, q) => (128 * ib + r, 128 * t + q))
  ps.foldl (fun (h, es) (m, n) =>
    let v := convert f d.rz d.special (drainVal c i m n)
    (h.writeElem (d.cAddr + m * d.cStride) f.width n v.code,
     match v.ev with
     | some e => es ++ [{ cause := e, mt := m / 128, nt := n / 128, row := m % 128, col := n % 128,
                          kblk := lastGroup d i }]
     | none => es)) (h, [])

/-- The block `b` of output row `m`, packed by R79: positions at or beyond N pack as zeros (R78, R111). -/
def drainBlock (c : Core) (i : Issue) (f : Fmt) (m b : Nat) : MxBlock :=
  let d := mmOf i.words
  mxPack f d.rz d.special ((List.range 32).map (fun q =>
    if 32 * b + q < i.n then drainVal c i m (32 * b + q) else .zero))

/-- Write one slot's rows as MX blocks along n (R111). -/
def drainMx (h : Memory) (c : Core) (i : Issue) (f : Fmt) (ib t : Nat) : Memory × List Event :=
  let d := mmOf i.words
  let rows := (List.range (min 128 (i.m - 128 * ib))).map (fun r => 128 * ib + r)
  let blks := (List.range (ceilDiv (min 128 (i.n - 128 * t)) 32)).map (fun b => 4 * t + b)
  let rb := rows.flatMap (fun m => blks.map (fun b => (m, b)))
  rb.foldl (fun (h, es) (m, b) =>
    let blk := drainBlock c i f m b
    let h1 := h.write (d.csAddr + m * ceilDiv d.np 32 + b) (BitVec.ofNat 8 blk.scale)
    let qs := (List.range 32).filter (fun q => decide (32 * b + q < i.n))
    let h2 := qs.foldl (fun h q => h.writeElem (d.cAddr + m * d.cStride) f.width (32 * b + q) (blk.codes.getD q 0)) h1
    let es' := qs.filterMap (fun q => match blk.evs.getD q none with
      | some e => some { cause := e, mt := m / 128, nt := t, row := m % 128, col := (32 * b + q) % 128,
                         kblk := lastGroup d i }
      | none => none)
    (h2, es ++ es')) (h, [])

/-- Every byte of C and of its scales lies in Hearth (R532). -/
def drainOk (i : Issue) : Bool :=
  let d := mmOf i.words
  let w := match d.fo with | some f => f.width | none => 0
  decide (extent d.cAddr d.cStride i.m i.n w ≤ hearthBytes) &&
  (d.omx != 1 || decide (d.csAddr + i.m * ceilDiv d.np 32 ≤ hearthBytes))

/-- DRAIN_COMPLETE: the last row of the slot being drained has been written, and the slot is FREE (R111, R114). -/
def execDrainComplete (core : Nat) (s : State) : Host.Outcome State Fault Refusal :=
  let c := s.core core
  match c.drains with
  | [] => void s
  | dr :: rest =>
    match dr.slots with
    | [] => .next (s.setCore core { c with drains := rest })
    | (slot, ib, t) :: more =>
      let d := mmOf dr.issue.words
      if !s.alive then void s
      else if !drainOk dr.issue then .fault .hearthRange
      else
        let h := s.hearth (dieOf core)
        let (h', evs) := match d.fo with
          | some f => if d.omx = 1 then drainMx h c dr.issue f ib t else drainPlain h c dr.issue f ib t
          | none => (h, [])
        let faulted := dr.faulted || s.anyWatched core evs
        let c' := { c with
          drains := if more.isEmpty then rest else { dr with slots := more, faulted := faulted } :: rest
          slotSt := Assoc.set SlotSt.free c.slotSt slot .free
          accHeld := c.accHeld - 1 }
        let s1 := (s.setHearth (dieOf core) h').setCore core c'
        let s1 := if more.isEmpty then s1.noteDone core d.opid else s1
        .next (s1.opEvents (mmTag core d) dr.faulted evs)

/-! ## Commands of no class (R148) -/

/-- The vector operations of Tables 6-3 and 8-1: the OPs from 0x10 to 0x5F that are defined (R148, R195). -/
def vectorOps : List Nat :=
  [0x10, 0x11, 0x12, 0x13, 0x20, 0x28, 0x29, 0x30, 0x31, 0x32, 0x38, 0x39, 0x40, 0x41, 0x48, 0x50, 0x58]

/-- An OP that belongs to no class: 0x00, 0x02 to 0x0F, and 0x63 to 0xFF (R148). -/
def undefinedOp (op : Nat) : Bool := op == 0 || decide (2 ≤ op ∧ op ≤ 0x0F) || decide (0x63 ≤ op ∧ op ≤ 0xFF)

/-- An OP of the vector class that no table defines: illegal by R150. -/
def undefinedVec (op : Nat) : Bool := decide (0x10 ≤ op ∧ op ≤ 0x5F) && !vectorOps.contains op

/-- UNDEFINED_OP: the sequencer refuses a command whose OP belongs to no class (R148, R108). -/
def execUndefinedOp (core : Nat) (words : List Word) (s : State) : Host.Outcome State Fault Refusal :=
  let ws := natWords words
  if s.canCompute core && undefinedOp (wf ws 1 0 8) then .next (s.refuseCmd core 0x08 1 (wd ws 0) 0 0)
  else if s.canCompute core && undefinedVec (wf ws 1 0 8) then .next (s.refuseCmd core 0x08 8 (wd ws 0) 0 0)
  else void s

end Sys2Proof.Machine
end

