-- ==== Sys2Proof/Machine/Vector.lean ====
section
/-!
DEFINITION. Machine/Vector.lean: the vector engine of a core (chapter 06): the check of R150, element-wise
arithmetic, functions and activations (R153 to R155), moves (R156 to R159), pack and unpack (R160, R161), SETSHAPE
(R162), reductions (R163, R164), LD and ST (R151). A command is checked and has its whole effect in one event:
R149 makes the result that of running the commands one at a time. -/

namespace Sys2Proof.Machine

/-- The vector engine is free: no depth-wise path and no term-walk runs (R149, R166). -/
def Core.vecFree (c : Core) : Bool := c.dwconv.isNone && c.walk.isNone

/-- Core `n` takes a vector command of class `op` next. -/
def State.takesVec (s : State) (n op : Nat) (d : VC) : Bool :=
  s.canCompute n && (s.core n).vecFree && d.op == op

/-- The outcome of a vector command's work: tile registers, Hearth, other register writes, and events in order. -/
structure VecRes where
  tiles : Memory
  events : List Event
  deriving DecidableEq, Repr

/-- The tag of a vector command's events (Table 3-7: SRC 1). -/
def vcTag (n : Nat) (d : VC) : OpTag := { core := n, src := 1, opid := d.opid, rz := d.rz, special := d.special }

namespace State

/-- A vector command refused by R150: kind ISSUE illegal, REASON 0x8. -/
def refuseVec (s : State) (n : Nat) (d : VC) : State := s.refuseCmd n 0x08 8 d.opid 0 0

/-- A vector command of segment `k` has completed: its completion in the program, VCMDS, and the cycles it
occupied the engine (R149, Table 6-12). -/
def endVec (s : State) (n k opid cycles : Nat) : State :=
  (((s.noteDone n opid).setCore n ((s.core n).complete k)).count (Reg.coreVcmds n)).count64 (Reg.coreVbusyCyclesLo n)
    (Reg.coreVbusyCyclesHi n) cycles

/-- A vector command that is dispatched and completes in one event. -/
def finishVec (s : State) (n opid cycles : Nat) : State :=
  (s.setCore n (s.core n).dispatch).endVec n (s.core n).curSeg opid cycles

/-- Write a core's tile registers. -/
def setTiles (s : State) (n : Nat) (m : Memory) : State := s.setCore n { s.core n with tiles := m }

/-- Apply a vector command's result. -/
def applyVec (s : State) (n : Nat) (d : VC) (r : VecRes) (cycles : Nat) : State :=
  ((s.setTiles n r.tiles).opEvents (vcTag n d) false r.events).finishVec n d.opid cycles

end State

/-- Check a command, then refuse it or give it its effect. -/
def vecCmd (n op cycles : Nat) (ok : VC → Bool) (eff : Memory → VC → VecRes) (ws : List Word) (s : State) :
    Host.Outcome State Fault Refusal :=
  let d := vcOf (natWords ws)
  if !s.takesVec n op d then void s
  else if !ok d then .next (s.refuseVec n d)
  else .next (s.applyVec n d (eff (s.core n).tiles d) cycles)

/-- The extent lies within a register, and AXIS is not 0b11 (R150). -/
def extentOk (d : VC) : Bool := decide (d.rows ≤ 32) && decide (d.cols ≤ 32) && d.axis != 3

/-- ESIZE is 32 bits and the extent is right (R150). -/
def base32 (d : VC) : Bool := d.esize == 0 && extentOk d

/-! ## Element-wise work -/

/-- One position's result: the word written, and its events, each with the step at which it arises. -/
structure Elem where
  word : Nat
  evs : List (Nat × Cause)
  deriving DecidableEq, Repr

/-- A function of one position over the extent: words go to DST, events in the order of steps, then of passes and
lanes (R97, R145). -/
def elementwise (m : Memory) (d : VC) (f : Nat → Nat → Elem) : VecRes :=
  let rs := (positions d.rows d.cols).map (fun (r, c) => ((r, c), f r c))
  let tiles := rs.foldl (fun t ((r, c), e) => tilePut t 0 d.dst r c e.word) m
  let evs := rs.foldl (fun l ((r, c), e) => e.evs.foldl (fun l (step, cause) =>
    insertEvent (step * 1024 + 32 * r + c,
      { cause := cause, mt := d.dst, nt := 0, row := r, col := laneOf r c, kblk := 0 }) l) l) []
  ⟨tiles, evs.map (fun e => e.2)⟩

/-- The word of a result, with its event at step 0. -/
def elemOf (r : Res) : Elem := ⟨r.code, r.ev.toList.map (fun c => (0, c))⟩

/-- A moved value: a NaN becomes the canonical code and is a NaN operand (Table 6-4). -/
def moved (w : Nat) : Elem :=
  if (Val.ofF32 w).isNan then ⟨Fmt.fp32.nanCode, [(0, .nanOperand)]⟩ else ⟨w, []⟩

/-- The larger of two values, +0 above −0 (Table 6-4). -/
def maxVal (a b : Val) : Val :=
  if a.isNan || b.isNan then .nan
  else if a.lt b then b else if b.lt a then a else if a.neg? then b else a

/-- The smaller of two values, −0 below +0 (Table 6-4). -/
def minVal (a b : Val) : Val :=
  if a.isNan || b.isNan then .nan
  else if a.lt b then a else if b.lt a then b else if a.neg? then a else b

/-- A comparison's word (Table 6-4). -/
def cmpElem (a b : Val) (t : Bool) : Elem :=
  ⟨if t then 0xFFFFFFFF else 0, if a.isNan || b.isNan then [(0, .nanOperand)] else []⟩

/-- A function of Table 6-4 at one position, from the raw words of its operands. -/
def ewOf (func : Nat) (rz : Bool) (wa wb wc : Nat) : Elem :=
  let a := Val.ofF32 wa
  let b := Val.ofF32 wb
  let c := Val.ofF32 wc
  if func = 0 then elemOf (resOf rz [a, b] (a.add b))
  else if func = 1 then elemOf (resOf rz [a, b] (a.add b.negate))
  else if func = 2 then elemOf (resOf rz [a, b] (a.mul b))
  else if func = 3 then elemOf (resOf rz [a, b, c] ((a.mul b).add c))
  else if func = 4 then elemOf (resOf rz [a, b] (maxVal a b))
  else if func = 5 then elemOf (resOf rz [a, b] (minVal a b))
  else if func = 6 then (if a.isNan then moved wa else ⟨wa % 2 ^ 31, []⟩)
  else if func = 7 then (if a.isNan then moved wa else ⟨(wa + 2 ^ 31) % 2 ^ 32, []⟩)
  else if func = 8 then elemOf (resOf rz [a, b] (Fn.div a b))
  else if func = 9 then (if wc ≠ 0 then moved wa else moved wb)
  else if func = 10 then cmpElem a b (a.eqv b)
  else if func = 11 then cmpElem a b (a.lt b)
  else if func = 12 then cmpElem a b (a.lt b || a.eqv b)
  else if func = 13 then cmpElem a b (!(a.eqv b))
  else moved wa

/-- The element-wise command's result (R151 to R153). -/
def ewEff (m : Memory) (d : VC) : VecRes :=
  elementwise m d (fun r c => ewOf d.func d.rz (srcWord m d d.sa d.ba r c) (srcWord m d d.sb d.bb r c)
    (srcWord m d d.sc d.bc r c))

/-- Cycles of an EW command (Table 6-3). -/
def ewCycles (ws : List Word) : Nat := if (vcOf (natWords ws)).func = 8 then 16 else 4

/-- EW: element-wise arithmetic (R153). -/
def execEw (core : Nat) (words : List Word) (s : State) : Host.Outcome State Fault Refusal :=
  vecCmd core 0x10 (ewCycles words) (fun d => base32 d && decide (d.func ≤ 14)) ewEff words s

/-- The function command's result (R154). -/
def fnEff (m : Memory) (d : VC) : VecRes :=
  elementwise m d (fun r c =>
    let a := Val.ofF32 (srcWord m d d.sa d.ba r c)
    match Fn.fnOf d.func with
    | some f => elemOf (resOf d.rz [a] (f a))
    | none => moved (srcWord m d d.sa d.ba r c))

/-- FN: a correctly rounded function (R154). -/
def execFn (core : Nat) (words : List Word) (s : State) : Host.Outcome State Fault Refusal :=
  vecCmd core 0x11 16 (fun d => base32 d && decide (d.func ≤ 10)) fnEff words s

/-! ## Activations (R133, R155) -/

/-- A running sequence of FP32 steps: the step count and the events so far, each at the step where it arose (R155). -/
structure Seq where
  step : Nat
  evs : List (Nat × Cause)
  deriving DecidableEq, Repr

/-- Before the first step. -/
def Seq.start : Seq := ⟨0, []⟩

/-- A NaN among the command's own operands enters the sequence at its next step: CAUSE NaN operand, once a step. -/
def Seq.enters (q : Seq) (v : Val) : Seq :=
  if v.isNan && !q.evs.contains (q.step, .nanOperand) then { q with evs := q.evs ++ [(q.step, .nanOperand)] } else q

/-- The event that a step makes of values that are no NaN; a NaN that an earlier step made is no operand of the command. -/
def freshEvent : Option Cause → List Cause
  | some .nanOperand => []
  | some c => [c]
  | none => []

/-- One step: its exact result rounded once, its event noted. -/
def Seq.run (q : Seq) (rz : Bool) (ops : List Val) (v : Val) : Val × Seq :=
  let r := resOf rz ops v
  (Val.ofF32 r.code, ⟨q.step + 1, q.evs ++ (freshEvent r.ev).map (fun c => (q.step, c))⟩)

/-- A compare-and-select step, which counts as one FP32 step (R155). -/
def Seq.select (q : Seq) (v : Val) : Val × Seq := (v, ⟨q.step + 1, q.evs⟩)

/-- a × b, rounded. -/
def Seq.mul (q : Seq) (rz : Bool) (a b : Val) : Val × Seq := q.run rz [a, b] (a.mul b)

/-- a × b + c, rounded once. -/
def Seq.fma (q : Seq) (rz : Bool) (a b c : Val) : Val × Seq := q.run rz [a, b, c] ((a.mul b).add c)

/-- a + b, rounded. -/
def Seq.add (q : Seq) (rz : Bool) (a b : Val) : Val × Seq := q.run rz [a, b] (a.add b)

/-- A function of Table 6-5, rounded. -/
def Seq.fn (q : Seq) (rz : Bool) (f : Val → Val) (a : Val) : Val × Seq := q.run rz [a] (f a)

/-- FP32 constants of R155: the values nearest to 1/√2, 1/√(2π), √(2/π), 0.044715 and 0.134145. -/
def c1 : Val := Val.ofF32 0x3F3504F3
/-- 1/√(2π). -/
def c2 : Val := Val.ofF32 0x3ECC422A
/-- √(2/π). -/
def c3 : Val := Val.ofF32 0x3F4C422A
/-- 0.044715. -/
def c4 : Val := Val.ofF32 0x3D372713
/-- 0.134145. -/
def c5 : Val := Val.ofF32 0x3E095D4F
/-- 0.5. -/
def half : Val := Val.ofF32 0x3F000000
/-- −0.5. -/
def minusHalf : Val := Val.ofF32 0xBF000000
/-- 1. -/
def unit : Val := Val.ofF32 0x3F800000

/-- h > 0. -/
def positive (v : Val) : Bool := Val.zero.lt v

/-- ACT of one value (R155, Table 6-6). -/
def actOf (code : Nat) (rz : Bool) (alpha h : Val) (q : Seq) : Val × Seq :=
  if code = 0 then (h, q)
  else if code = 1 then q.select (if h.isNan then .nan else if positive h then h else .zero)
  else if code = 2 then
    let (t, q) := (q.enters alpha).mul rz alpha h
    q.select (if h.isNan then .nan else if positive h then h else t)
  else if code = 3 then q.fn rz Fn.sigmoid h
  else if code = 4 then q.fn rz Fn.tanh h
  else if code = 5 then
    let (e, q) := q.fn rz Fn.expm1 h
    let (t, q) := (q.enters alpha).mul rz alpha e
    q.select (if h.isNan then .nan else if positive h then h else t)
  else if code = 6 then q.fn rz Fn.softplus h
  else if code = 8 then
    let (u, q) := q.mul rz h c1
    let (e, q) := q.fn rz Fn.erf u
    let (phi, q) := q.fma rz half e half
    q.mul rz h phi
  else if code = 9 then
    let (sq, q) := q.mul rz h h
    let (w, q) := q.fma rz c4 sq unit
    let (v, q) := q.mul rz h w
    let (a, q) := q.mul rz c3 v
    let (t, q) := q.fn rz Fn.tanh a
    let (p, q) := q.fma rz half t half
    q.mul rz h p
  else
    let (s, q) := q.fn rz Fn.sigmoid h
    q.mul rz h s

/-- The derivative d from the saved output y (Table 5-3). -/
def dOut (code : Nat) (rz : Bool) (alpha y : Val) (q : Seq) : Val × Seq :=
  if code = 1 then q.select (if y.isNan then .nan else if positive y then unit else .zero)
  else if code = 2 then
    if y.isNan then q.select .nan else if positive y then q.select unit else (q.enters alpha).select alpha
  else if code = 3 then
    let (t, q) := q.add rz unit y.negate
    q.mul rz y t
  else if code = 4 then q.fma rz y.negate y unit
  else if code = 5 then
    let (t, q) := (q.enters alpha).add rz y alpha
    q.select (if y.isNan then .nan else if positive y then unit else t)
  else
    let (e, q) := q.fn rz Fn.exp y.negate
    q.add rz unit e.negate

/-- The derivative d from h, for the codes that y does not determine (Table 6-6). -/
def dIn (code : Nat) (rz : Bool) (h : Val) (q : Seq) : Val × Seq :=
  if code = 8 then
    let (u, q) := q.mul rz h c1
    let (e, q) := q.fn rz Fn.erf u
    let (phi, q) := q.fma rz half e half
    let (sq, q) := q.mul rz h h
    let (r, q) := q.mul rz sq minusHalf
    let (g, q) := q.fn rz Fn.exp r
    let (ph, q) := q.mul rz g c2
    q.fma rz h ph phi
  else if code = 9 then
    let (sq, q) := q.mul rz h h
    let (w, q) := q.fma rz c4 sq unit
    let (v, q) := q.mul rz h w
    let (a, q) := q.mul rz c3 v
    let (t, q) := q.fn rz Fn.tanh a
    let (p, q) := q.fma rz half t half
    let (s, q) := q.fma rz t.negate t unit
    let (w2, q) := q.fma rz c5 sq unit
    let (m, q) := q.mul rz c3 w2
    let (n, q) := q.mul rz half h
    let (z, q) := q.mul rz n s
    let (z2, q) := q.mul rz z m
    q.add rz p z2
  else
    let (s, q) := q.fn rz Fn.sigmoid h
    let (t, q) := q.add rz unit s.negate
    let (u, q) := q.fma rz h t unit
    q.mul rz s u

/-- DACT of one position (R133, R136, R155): `inForm` says that SB holds h. A NaN that is saved enters at the first step, one
in dy at the last. -/
def dactOf (code : Nat) (rz inForm : Bool) (alpha dy sv : Val) : Val × Seq :=
  let q := Seq.start.enters sv
  if code = 0 then (if sv.isNan then .nan else dy, q.enters dy)
  else
    let (d, q) :=
      if 8 ≤ code then dIn code rz sv q
      else if inForm then
        let (y, q) := actOf code rz alpha sv q
        dOut code rz alpha y q
      else dOut code rz alpha sv q
    (q.enters dy).mul rz dy d

/-- The word and events of a sequence's result. -/
def seqElem (rz : Bool) (v : Val) (q : Seq) : Elem := ⟨toF32 rz v, q.evs⟩

/-- The codes of Table 5-3. -/
def actCode (c : Nat) : Bool := decide (c ≤ 6) || c == 8 || c == 9 || c == 10

/-- The cycles of ACT (Table 6-6). -/
def actCycles (c : Nat) : Nat :=
  if c = 0 ∨ c = 1 then 4 else if c = 2 then 8 else if c = 3 ∨ c = 4 ∨ c = 6 then 16 else if c = 5 then 24
  else if c = 8 then 28 else if c = 9 then 40 else 20

/-- The cycles of DACT (Table 6-6). -/
def dactCycles (inForm : Bool) (c : Nat) : Nat :=
  if c = 8 then 60 else if c = 9 then 68 else if c = 10 then 32
  else
    let o := if c = 0 then 4 else if c = 1 ∨ c = 2 ∨ c = 4 then 8 else if c = 3 ∨ c = 5 then 12 else 24
    if inForm ∧ c ≠ 0 then o + actCycles c else o

/-- The activation's result. -/
def actEff (m : Memory) (d : VC) : VecRes :=
  elementwise m d (fun r c =>
    let h := Val.ofF32 (srcWord m d d.sa d.ba r c)
    let (v, q) := actOf d.func d.rz (Val.ofF32 d.imm) h (Seq.start.enters h)
    seqElem d.rz v q)

/-- The site of an ACT or DACT declares input form (R134).
DESIGN CHOICE (notes/assumptions/140): the spec gives no field that ties a command to its activation site; the billet's
`actInput` lists the OPIDs of the commands whose sites declare input form. -/
def inputForm (s : State) (opid : Nat) : Bool :=
  match s.billet with
  | some b => b.actInput.contains opid
  | none => false

/-- The code and α of an ACT or DACT under R134 (R150): codes 0x8 to 0xA at input-form sites alone, and α above zero for codes
0x2 and 0x5 at output-form sites. -/
def actOk (inForm : Bool) (d : VC) : Bool :=
  base32 d && actCode d.func &&
  (inForm || (decide (d.func ≤ 6) && (!(d.func == 2 || d.func == 5) || positive (Val.ofF32 d.imm))))

/-- ACT: an activation (R155). -/
def execAct (core : Nat) (words : List Word) (s : State) : Host.Outcome State Fault Refusal :=
  let d := vcOf (natWords words)
  vecCmd core 0x12 (actCycles d.func) (actOk (inputForm s d.opid)) actEff words s

/-- The derivative's result. -/
def dactEff (inForm : Bool) (m : Memory) (d : VC) : VecRes :=
  elementwise m d (fun r c =>
    let dy := Val.ofF32 (srcWord m d d.sa d.ba r c)
    let sv := Val.ofF32 (srcWord m d d.sb d.bb r c)
    let (v, q) := dactOf d.func d.rz inForm (Val.ofF32 d.imm) dy sv
    seqElem d.rz v q)

/-- DACT: an activation's derivative (R133, R155). -/
def execDact (core : Nat) (words : List Word) (s : State) : Host.Outcome State Fault Refusal :=
  let d := vcOf (natWords words)
  let f := inputForm s d.opid
  vecCmd core 0x13 (dactCycles f d.func) (actOk f) (dactEff f) words s

/-! ## Reductions (R163, R164) -/

/-- The identity of a reduction's function (R93). -/
def redIdentity (func : Nat) : Nat :=
  if func = 0 then 0 else if func = 1 then 0xFF800000 else if func = 2 then 0x7F800000 else 0x3F800000

/-- One combination of a reduction. -/
def redOp (func : Nat) (rz : Bool) (x y : Nat) : Res :=
  let a := Val.ofF32 x
  let b := Val.ofF32 y
  if func = 0 then resOf rz [a, b] (a.add b)
  else if func = 1 then resOf rz [a, b] (maxVal a b)
  else if func = 2 then resOf rz [a, b] (minVal a b)
  else resOf rz [a, b] (a.mul b)

/-- One level of the tree: neighbours combine. -/
def treeLevel (func : Nat) (rz : Bool) : List Nat → List Res
  | a :: b :: r => redOp func rz a b :: treeLevel func rz r
  | _ => []

/-- The tree of R164 over `2 ^ k` values from level `lvl`: the result and the events with their levels. A NaN
operand counts where it enters, at the first level. -/
def tree (func : Nat) (rz : Bool) : Nat → Nat → List Nat → Nat × List (Nat × Cause)
  | 0, _, vs => (vs.headD 0, [])
  | k + 1, lvl, vs =>
    let rs := treeLevel func rz vs
    let rest := tree func rz k (lvl + 1) (rs.map Res.code)
    (rest.1, (rs.filterMap (fun r => match r.ev with
      | some .nanOperand => if lvl = 1 then some (lvl, Cause.nanOperand) else none
      | some c => some (lvl, c)
      | none => none)) ++ rest.2)

/-- One range's result: where it goes, its value unless the range is empty, and its events with their levels. -/
structure RedOut where
  row : Nat
  col : Nat
  empty : Bool
  value : Nat
  evs : List (Nat × Cause)
  deriving DecidableEq, Repr

/-- A source word of a reduction, or the identity outside the extent (R164). -/
def redWord (m : Memory) (d : VC) (r c : Nat) : Nat :=
  if r < d.rows ∧ c < d.cols then srcWord m d d.sa d.ba r c else redIdentity d.func

/-- The results of a reduction before ACC (R163, R164). -/
def redOuts (m : Memory) (d : VC) : List RedOut :=
  let row := fun r => tree d.func d.rz 5 1 ((List.range 32).map (fun c => redWord m d r c))
  if d.axis = 0 then (List.range d.rows).map (fun r =>
    let t := row r
    ⟨r, 0, d.cols == 0, t.1, t.2⟩)
  else if d.axis = 1 then (List.range d.cols).map (fun c =>
    let t := tree d.func d.rz 5 1 ((List.range 32).map (fun r => redWord m d r c))
    ⟨0, c, d.rows == 0, t.1, t.2⟩)
  else
    let rs := (List.range 32).map row
    let t := tree d.func d.rz 5 6 (rs.map (fun x => x.1))
    [⟨0, 0, d.rows == 0 || d.cols == 0, t.1, rs.flatMap (fun x => x.2) ++ t.2⟩]

/-- A result combined into DST by ACC (R163): an empty range leaves DST unchanged. -/
def redAcc (m : Memory) (d : VC) (o : RedOut) : Nat × List (Nat × Cause) :=
  let old := tileWord m d.dst o.row o.col
  if !d.acc then (if o.empty then redIdentity d.func else o.value, o.evs)
  else if o.empty then (old, [])
  else
    let r := redOp d.func d.rz old o.value
    (r.code, o.evs ++ (match r.ev with
      | some .nanOperand => if (Val.ofF32 old).isNan then [(11, .nanOperand)] else []
      | some c => [(11, c)]
      | none => []))

/-- The reduction's result. Its events come level by level of the tree, and in a level by the place of the result (R97).
DESIGN CHOICE (notes/assumptions/141): the spec gives no time order of the nodes of different ranges; the model puts all
nodes of one level before those of the next. -/
def redEff (m : Memory) (d : VC) : VecRes :=
  let os := (redOuts m d).map (fun o => (o, redAcc m d o))
  let tiles := os.foldl (fun t (o, (v, _)) => tilePut t 0 d.dst o.row o.col v) m
  let evs := os.foldl (fun l (o, (_, es)) => es.foldl (fun l (lvl, cause) =>
    insertEvent (lvl * 1024 + 32 * o.row + o.col,
      { cause := cause, mt := d.dst, nt := 0, row := o.row, col := laneOf o.row o.col, kblk := 0 }) l) l) []
  ⟨tiles, evs.map (fun e => e.2)⟩

/-- The command combines an empty range: it counts once in ZEROSHAPE (R163). -/
def redEmpty (d : VC) : Bool :=
  if d.axis = 0 then d.cols == 0 && d.rows != 0
  else if d.axis = 1 then d.rows == 0 && d.cols != 0
  else d.rows == 0 || d.cols == 0

/-- REDUCE: rows, columns or the whole tile (R163, R164). -/
def execReduce (core : Nat) (words : List Word) (s : State) : Host.Outcome State Fault Refusal :=
  let d := vcOf (natWords words)
  let ok := fun (d : VC) => base32 d && decide (d.func ≤ 3)
  let s' := if s.takesVec core 0x20 d && ok d && redEmpty d then s.count (Reg.coreZeroshape core) else s
  vecCmd core 0x20 (if d.axis = 2 then 8 else 4) ok redEff words s'

/-! ## Moves (R156 to R159) -/

/-- A moved element: with RAW 0 a 32-bit NaN becomes canonical (R156). -/
def moveWord (d : VC) (w : Nat) : Nat :=
  if d.raw || d.esize != 0 then w else if (Val.ofF32 w).isNan then Fmt.fp32.nanCode else w

/-- The source word of PERM for an index (R157). -/
def permWord (m : Memory) (d : VC) (i : Nat) : Nat :=
  if i < 1024 then tileWord m d.sa (i / 32) (i % 32)
  else if i < 2048 then tileWord m d.sc ((i - 1024) / 32) ((i - 1024) % 32)
  else 0

/-- The permute's result. -/
def permEff (m : Memory) (d : VC) : VecRes :=
  ⟨(positions d.rows d.cols).foldl (fun t (r, c) =>
    tilePut t 0 d.dst r c (moveWord d (permWord m d (tileWord m d.sb r c)))) m, []⟩

/-- PERM: words by index (R157). -/
def execPerm (core : Nat) (words : List Word) (s : State) : Host.Outcome State Fault Refusal :=
  vecCmd core 0x30 8 (fun d => base32 d && d.func == 0) permEff words s

/-- Registers of a TRANS group (R158). -/
def groupRegs (esize : Nat) : Nat := 2 ^ esize

/-- The transpose's result: element (j, i) of the DST group from element (i, j) of the SA group (R158). -/
def transEff (m : Memory) (d : VC) : VecRes :=
  let n := viewLen d.esize
  ⟨(positions n n).foldl (fun t (i, j) =>
    tilePut t d.esize (d.dst + j / 32) (j % 32) i
      (moveWord d (tileElem m d.esize (d.sa + i / 32) (i % 32) j))) m, []⟩

/-- TRANS: transpose a square block (R158). -/
def execTrans (core : Nat) (words : List Word) (s : State) : Host.Outcome State Fault Refusal :=
  let g := groupRegs (vcOf (natWords words)).esize
  vecCmd core 0x31 (8 * g) (fun d => extentOk d && d.func == 0 &&
    d.sa % g == 0 && d.dst % g == 0) transEff words s

/-- The source element of SHUF (Table 6-7). -/
def shufElem (m : Memory) (d : VC) (r c : Nat) : Nat :=
  let n := viewLen d.esize
  let s := d.imm % n
  let a := fun k => tileElem m d.esize d.sa r k
  let b := fun k => tileElem m d.esize d.sb r k
  if d.func = 0 then a ((c + s) % n)
  else if d.func = 1 then a (n - 1 - c)
  else if d.func = 2 then (if c % 2 = 0 then a (c / 2) else b ((c - 1) / 2))
  else if d.func = 3 then (if c % 2 = 0 then a (n / 2 + c / 2) else b (n / 2 + (c - 1) / 2))
  else if d.func = 4 then (if c < n / 2 then a (2 * c) else b (2 * c - n))
  else if d.func = 5 then (if c < n / 2 then a (2 * c + 1) else b (2 * c - n + 1))
  else a s

/-- Columns that SHUF writes: those of the extent in the 32-bit view (R151), else whole rows of the view (R159); a COLS of 0
writes nothing. -/
def shufCols (d : VC) : Nat := if d.cols = 0 then 0 else if d.esize = 0 then d.cols else viewLen d.esize

/-- The shuffle's result: rows below ROWS (R159). -/
def shufEff (m : Memory) (d : VC) : VecRes :=
  ⟨(positions d.rows (shufCols d)).foldl (fun t (r, c) =>
    tilePut t d.esize d.dst r c (moveWord d (shufElem m d r c))) m, []⟩

/-- SHUF: rearrange each row (R159). -/
def execShuf (core : Nat) (words : List Word) (s : State) : Host.Outcome State Fault Refusal :=
  vecCmd core 0x32 4 (fun d => extentOk d && decide (d.func ≤ 6)) shufEff words s

/-! ## Pack and unpack (R160, R161) -/

/-- XARG of PACK and UNPACK: format code, MX, SIGN. -/
def packFmt (d : VC) : Nat := bits d.xarg 0 4
/-- The MX bit. -/
def packMx (d : VC) : Bool := bit d.xarg 4
/-- The SIGN bit. -/
def packSign (d : VC) : Nat := bits d.xarg 5 1

/-- The combinations that the check accepts, and the room for a full pack (R160, Table 6-8). -/
def packOk (d : VC) : Bool :=
  let f := packFmt d
  base32 d && d.func == 0 &&
  (if packMx d then decide (f ≤ 4) else f == 0 || f == 1 || f == 5 || f == 6 || f == 7 || f == 8) &&
  decide (d.drow + 2 * quarterBytes f ≤ 32)

/-- Byte of the packed codes of row `r` in register `t` (R160). -/
def packBase (d : VC) (t r : Nat) : Nat := 4096 * t + 128 * d.drow + 8 * quarterBytes (packFmt d) * r

/-- A pack event at (r, c). -/
def packEvent (d : VC) (r c : Nat) (cause : Cause) : Event :=
  { cause := cause, mt := d.dst, nt := 0, row := r, col := laneOf r c, kblk := 0 }

/-- One row packed without MX: the codes of columns below COLS alone (R160). -/
def packRow (m src : Memory) (d : VC) (f : Fmt) (r : Nat) : Memory × List Event :=
  (List.range d.cols).foldl (fun (t, es) c =>
    let v := Val.ofF32 (srcWord src d d.sa d.ba r c)
    let k := convert f d.rz d.special v
    (t.writeElem (packBase d d.dst r) f.width c k.code,
     es ++ (if v.isNan then [packEvent d r c .nanOperand] else match k.ev with
       | some e => [packEvent d r c e]
       | none => []))) (m, [])

/-- One row packed as an MX block: positions at or beyond COLS pack as zero (R160). -/
def packRowMx (m src : Memory) (d : VC) (f : Fmt) (r : Nat) : Memory × List Event :=
  let vs := (List.range 32).map (fun c =>
    if c < d.cols then Val.ofF32 (srcWord src d d.sa d.ba r c) else Val.zero)
  let b := mxPack f d.rz d.special vs
  let m1 := (List.range 32).foldl (fun t c => t.writeElem (packBase d d.dst r) f.width c (b.codes.getD c 0)) m
  let m2 := m1.write (4096 * d.sc + 32 * d.soff + r) (BitVec.ofNat 8 b.scale)
  (m2, (List.range d.cols).flatMap (fun c =>
    if (vs.getD c .zero).isNan then [packEvent d r c .nanOperand] else match b.evs.getD c none with
      | some e => [packEvent d r c e]
      | none => []))

/-- The pack's result. A command with COLS 0 writes nothing (R151). -/
def packEff (m : Memory) (d : VC) : VecRes :=
  match fmtOf (packFmt d) (packSign d) with
  | none => ⟨m, []⟩
  | some f =>
    if d.cols = 0 then ⟨m, []⟩
    else
      let r := (List.range d.rows).foldl (fun (t, es) r =>
        let (t', es') := if packMx d then packRowMx t m d f r else packRow t m d f r
        (t', es ++ es')) (m, [])
      ⟨r.1, r.2⟩

/-- PACK: convert FP32 rows to packed codes (R160). -/
def execPack (core : Nat) (words : List Word) (s : State) : Host.Outcome State Fault Refusal :=
  vecCmd core 0x38 8 packOk packEff words s

/-- The element that UNPACK writes at (r, c), with its event (R161, R91). A block under scale 0xFF raises one event,
at its first column. -/
def unpackElem (m : Memory) (d : VC) (f : Fmt) (r c : Nat) : Elem :=
  let code := m.elem (packBase d d.sa r) f.width c
  let scale := (m.read (4096 * d.sc + 32 * d.soff + r)).toNat
  if packMx d then
    if scale = 255 then ⟨Fmt.fp32.nanCode, if c = 0 then [(0, .nanOperand)] else []⟩
    else
      let v := mxValue f scale code
      if v.isNan then ⟨Fmt.fp32.nanCode, [(0, .nanOperand)]⟩
      else
        let k := convert .fp32 d.rz false v
        ⟨k.code, k.ev.toList.map (fun e => (0, e))⟩
  else
    let v := decodeFmt f code
    if v.isNan then ⟨Fmt.fp32.nanCode, [(0, .nanOperand)]⟩ else ⟨toF32 d.rz v, []⟩

/-- The unpack's result. -/
def unpackEff (m : Memory) (d : VC) : VecRes :=
  match fmtOf (packFmt d) (packSign d) with
  | none => ⟨m, []⟩
  | some f => elementwise m d (fun r c => unpackElem m d f r c)

/-- UNPACK: packed codes to FP32 (R161). -/
def execUnpack (core : Nat) (words : List Word) (s : State) : Host.Outcome State Fault Refusal :=
  vecCmd core 0x39 4 packOk unpackEff words s

/-! ## LD, ST, SETSHAPE -/

/-- The Hearth bytes that LD and ST name lie in Hearth (R532). -/
def lsOk (d : VC) : Bool :=
  decide (d.rows = 0) || decide (d.cols = 0) || inHearth (d.addr + (d.rows - 1) * d.stride) (4 * d.cols)

/-- The check of LD and ST (R150). -/
def lsCheck (d : VC) : Bool := extentOk d && d.func == 0

/-- The next vector command waits on a Hearth range (R141, VSTATUS.WAITING). -/
def State.vecWaits (s : State) (n : Nat) : State := s.setCore n { s.core n with vecWait := true }

/-- The Hearth range that LD or ST names (R141). -/
def lsRange (d : VC) : Rng :=
  if d.rows = 0 ∨ d.cols = 0 then (0, 0) else (d.addr, (d.rows - 1) * d.stride + 4 * d.cols)

/-- LD: words of Hearth to register rows (R151). A word of a poisoned granule is a NaN operand (R29). It waits for
an earlier command that writes its range (R141). -/
def execLd (core : Nat) (words : List Word) (s : State) : Host.Outcome State Fault Refusal :=
  let d := vcOf (natWords words)
  if !s.takesVec core 0x40 d then void s
  else if !lsCheck d then .next (s.refuseVec core d)
  else if (s.core core).mustWait [lsRange d] [] then .next (s.vecWaits core)
  else if !lsOk d then .fault .hearthRange
  else
    let h := s.hearth (dieOf core)
    let at_ := fun (r c : Nat) => d.addr + r * d.stride + 4 * c
    let ps := positions d.rows d.cols
    let t := ps.foldl (fun t (r, c) => tilePut t 0 d.dst r c (h.word32 (at_ r c))) (s.core core).tiles
    let evs := (ps.filter (fun (r, c) => h.isBad (at_ r c) 4)).map (fun (r, c) =>
      ({ cause := .nanOperand, mt := d.dst, nt := 0, row := r, col := laneOf r c, kblk := 0 } : Event))
    .next (((s.setTiles core t).opEvents (vcTag core d) false evs).finishVec core d.opid 16)

/-- ST: register rows to words of Hearth (R151). -/
def execSt (core : Nat) (words : List Word) (s : State) : Host.Outcome State Fault Refusal :=
  let d := vcOf (natWords words)
  if !s.takesVec core 0x41 d then void s
  else if !lsCheck d then .next (s.refuseVec core d)
  else if (s.core core).mustWait [] [lsRange d] then .next (s.vecWaits core)
  else if !lsOk d then .fault .hearthRange
  else
    let t := (s.core core).tiles
    let h := (List.range d.rows).foldl (fun h r =>
      h.writeBytes (d.addr + r * d.stride) (t.readBytes (tileRow d.sa r) (4 * d.cols))) (s.hearth (dieOf core))
    .next ((s.setHearth (dieOf core) h).finishVec core d.opid 16)

/-- SETSHAPE's conversion: toward zero, negative to 0, above the maximum or NaN to the maximum (R162). -/
def shapeVal (w top : Nat) : Nat :=
  match Val.ofF32 w with
  | .nan => top
  | .inf n => if n then 0 else top
  | .fin n m e => if n then 0 else min top (roundQ true m e 0)

/-- SETSHAPE: write CORE.SHAPE[j] (R162). -/
def execSetshape (core : Nat) (words : List Word) (s : State) : Host.Outcome State Fault Refusal :=
  let d := vcOf (natWords words)
  if !s.takesVec core 0x48 d then void s
  else if !(base32 d && decide (1 ≤ d.func ∧ d.func ≤ 7)) then .next (s.refuseVec core d)
  else
    let t := (s.core core).tiles
    let w := fun c => srcWord t d d.sa d.ba 0 c
    .next ((((s.put (Reg.coreShapeM core d.func) (shapeVal (w 0) 65535)).put (Reg.coreShapeN core d.func)
      (shapeVal (w 1) 65535)).put (Reg.coreShapeK core d.func) (shapeVal (w 2) 4194303)).finishVec core d.opid 2)

end Sys2Proof.Machine
end

