-- ==== Sys2Proof/Machine/Swage.lean ====
section
/-!
DEFINITION. Machine/Swage.lean: Swage's stripes and halo exchange (R182 to R193), the depth-wise convolution it
feeds (R165, R166), and the term-walk (R167 to R169). -/

namespace Sys2Proof.Machine

/-! ## Gangs and ranks (R172, R173) -/

/-- The core at row offset `a`, column offset `b` of a gang's rectangle (R19, R172). -/
def gangCore (g : Gang) (a b : Nat) : Nat := 96 * g.die + 12 * (g.row0 + a) + (g.col0 + b)

/-- The core of rank `k`, in snake order (R173). -/
def coreOfRank (g : Gang) (k : Nat) : Nat :=
  let a := k / g.cols
  let b := k % g.cols
  gangCore g a (if a % 2 = 0 then b else g.cols - 1 - b)

/-- The cores of a gang in rank order. -/
def gangCores (g : Gang) : List Nat := (List.range (g.rows * g.cols)).map (coreOfRank g)

/-- The gang that holds a core. -/
def gangOf (b : Billet) (n : Nat) : Option Gang := b.gangs.find? (fun g => (gangCores g).contains n)

/-- The rank of a core in its gang. -/
def rankOf (g : Gang) (n : Nat) : Nat := (gangCores g).idxOf n

/-- The neighbour of core `n` above (rank − 1) or below (rank + 1) in its gang. -/
def neighbour (s : State) (n : Nat) (up : Bool) : Option Nat :=
  match s.billet with
  | none => none
  | some b => match gangOf b n with
    | none => none
    | some g =>
      let k := rankOf g n
      if up then (if k = 0 then none else some (coreOfRank g (k - 1)))
      else if k + 1 < g.rows * g.cols then some (coreOfRank g (k + 1)) else none

/-! ## Stripes (R184) -/

/-- Rows of padding above, PT (R184). -/
def padTop (w : SwageSet) : Nat := (w.kh - 1) * w.dv / 2

/-- HB of a set that is not the last stripe's (R184). -/
def haloBottom (w : SwageSet) : Nat := (w.kh - 1) * w.dv - padTop w - (w.sv - 1)

/-- Halo rows that a set takes from the stripe above: none where it begins the map (R184). -/
def upRows (w : SwageSet) : Nat := if w.row0 = 0 then 0 else padTop w

/-- Halo rows that a set takes from the stripe below: none where it ends the map. -/
def dnRows (w : SwageSet) : Nat := if w.h ≤ w.row0 + w.n then 0 else haloBottom w

/-- Output rows of a set's stripe. -/
def outRows (w : SwageSet) : Nat := w.n / w.sv

/-- The stripe's output row that is presented `p`-th, in edge-first order (R189). -/
def edgeFirst (w : SwageSet) (p : Nat) : Nat :=
  let o := outRows w
  if p < w.edgeUp then p
  else if p < w.edgeUp + w.edgeDn then o - w.edgeDn + (p - w.edgeUp)
  else p - w.edgeDn

/-- The input rows of the map that output row `o` of the stripe reads, as differences from −PT (R184). -/
def windowRows (w : SwageSet) (o : Nat) : List Int :=
  let y := w.row0 / w.sv + o
  (List.range w.kh).map (fun i => ((y * w.sv + i * w.dv : Nat) : Int) - (padTop w : Int))

/-- Where an input row comes from. -/
inductive RowSrc where
  | zero | own (r : Nat) | above (j : Nat) | below (j : Nat)
  deriving DecidableEq, Repr

/-- The source of a map row for a set (R184, R187): outside the map zero, in the stripe the own row, else a halo
row, numbered in the order in which the neighbour sends it. -/
def rowSrc (w : SwageSet) (r : Int) : RowSrc :=
  if r < 0 then .zero
  else
    let r := r.toNat
    if w.h ≤ r then .zero
    else if r < w.row0 then .above (r + upRows w - w.row0)
    else if r < w.row0 + w.n then .own (r - w.row0)
    else .below (r - (w.row0 + w.n))

/-- Bytes of one halo slot (R188). -/
def slotBytes (w : SwageSet) : Nat := roundUp (w.ch * w.wIn * quarterBytes w.fmt / 4) 256

/-- Set `k` of a segment that has started on a core, and its progress. -/
def setAt (c : Core) (seg k : Nat) : Option (SwageSet × SwgRun) :=
  match c.segRun seg with
  | none => none
  | some g => match g.swage[k]?, g.sets[k]? with
    | some w, some r => some (w, r)
    | _, _ => none

/-- The full halo slots of a direction. -/
def haloFull (g : SegRun) (up : Bool) : List (Nat × Option (Nat × Nat)) := if up then g.slotsUp else g.slotsDn

/-- The slot that holds halo row `j` of set `k` (R190). -/
def slotWith (g : SegRun) (up : Bool) (k j : Nat) : Option Nat :=
  ((haloFull g up).find? (fun x => x.2 == some (k, j))).map (fun x => x.1)

/-- A row of set `k` can be read: it is no halo row, or its slot holds it (R190). -/
def rowHere (g : SegRun) (k : Nat) (w : SwageSet) (y : Int) : Bool :=
  w.haloMode != 1 || (match rowSrc w y with
    | .above j => (slotWith g true k j).isSome
    | .below j => (slotWith g false k j).isSome
    | _ => true)

/-- A halo row of a window, which the line buffer does not hold, has not landed (R190). -/
def missing (g : SegRun) (k : Nat) (w : SwageSet) (held : List Int) (o : Nat) : Bool :=
  (windowRows w o).any (fun y => !held.contains y && !rowHere g k w y)

/-- Halo row `j` of a direction is read by the `p`-th window of a set or a later one (R190). -/
def needed (w : SwageSet) (p : Nat) (up : Bool) (j : Nat) : Bool :=
  (List.range (outRows w)).any (fun q => decide (p ≤ q) && (windowRows w (edgeFirst w q)).any (fun y =>
    match rowSrc w y with
    | .above i => up && i == j
    | .below i => !up && i == j
    | _ => false))

/-- The Swage table of a segment of a core's program. -/
def swageTable (s : State) (n seg : Nat) : List SwageSet :=
  match s.prog n with
  | some p => match p.segs[seg]? with
    | some x => x.swage
    | none => []
  | none => []

/-- Halo slots of each direction of a core in a segment (R188).
DESIGN CHOICE (notes/assumptions/142): the spec gives a core HALO_SLOTS slots of each direction and every set its own field;
the model takes the largest of the segment's sets in slot mode. -/
def haloCap (l : List SwageSet) : Nat := l.foldl (fun k w => if w.haloMode = 1 then max k w.haloSlots else k) 0

/-- The credits that a core holds for a direction at the start of a segment: the slots of the neighbour's core (R189). -/
def haloCredit0 (s : State) (n seg : Nat) (up : Bool) : Nat :=
  match neighbour s n up with
  | some m => haloCap (swageTable s m seg)
  | none => 0

/-! ## DWCONV (R165, R166) -/

/-- The fields of Table 6-9. -/
structure DW where
  wOut : Nat
  ofmt : Nat
  kh : Nat
  kw : Nat
  st : Nat
  dil : Nat
  g : Nat
  bias : Bool
  lb : Nat
  cCnt : Nat
  deriving DecidableEq, Repr

/-- The DWCONV fields of a descriptor (Table 6-9). -/
def dwOf (ws : List Nat) : DW :=
  { wOut := wf ws 4 0 16, ofmt := wf ws 7 0 4, kh := wf ws 7 4 3 + 1, kw := wf ws 7 7 3 + 1,
    st := wf ws 7 10 1 + 1, dil := wf ws 7 11 1 + 1, g := wf ws 7 12 3 + 1, bias := wf ws 7 15 1 == 1,
    lb := wf ws 7 16 4, cCnt := wf ws 7 20 8 + 1 }

/-- A planar element format: FP32, BF16, FP16, E4M3 or E5M2. -/
def planarFmt (c : Nat) : Bool := c == 0 || c == 1 || c == 7 || c == 8 || c == 9

/-- The ranges of Table 6-9 (R150, R165), and a set of the running segment. -/
def dwOk (c : Core) (d : VC) (w : DW) : Bool :=
  d.func == 0 && d.esize == 0 && decide (w.wOut ≤ 4096) && decide (w.kh ≤ 7) && decide (w.kw ≤ 7) &&
  d.axis != 3 && planarFmt w.ofmt && decide (w.cCnt * w.g * w.kh * w.kw ≤ (32 - d.sa) * 1024) &&
  (setAt c c.curSeg w.lb).isSome

/-- DWCONV: the depth-wise path starts (R165). The vector engine runs no other command until it completes. -/
def execDwconv (core : Nat) (words : List Word) (s : State) : Host.Outcome State Fault Refusal :=
  let ws := natWords words
  let d := vcOf ws
  if !s.takesVec core 0x50 d then void s
  else if !dwOk (s.core core) d (dwOf ws) then .next (s.refuseVec core d)
  else
    let c := { s.core core with dwconv := some ws, vecSeg := (s.core core).curSeg }
    if (s.core core).mustWait c.dwReads c.dwWrites then .next (s.vecWaits core)
    else .next (s.setCore core c.dispatch)

/-- Bytes of one row of one channel. -/
def rowBytes1 (w : SwageSet) : Nat := w.wIn * quarterBytes w.fmt / 4

/-- The Hearth address of channel `ch` of an input row for set `k` of a segment: own rows, a neighbour's rows in direct
mode, or a halo slot (R182, R186 to R188). None where the row reads as zero. -/
def rowAddr (s : State) (n : Nat) (g : SegRun) (k : Nat) (w : SwageSet) (src : RowSrc) (ch : Nat) : Option Nat :=
  let direct := fun (up : Bool) (row : Nat) => match neighbour s n up with
    | some m => match (swageTable s m g.segment)[k]? with
      | some v => some (v.srcAddr + (row - v.row0) * v.rowStride + ch * v.planeStride)
      | none => none
    | none => none
  match src with
  | .zero => none
  | .own r => some (w.srcAddr + r * w.rowStride + ch * w.planeStride)
  | .above j =>
    if w.haloMode = 2 then direct true (w.row0 - upRows w + j)
    else if w.haloMode = 1 then (slotWith g true k j).map (fun i => w.haloAddr + i * slotBytes w + ch * rowBytes1 w)
    else none
  | .below j =>
    if w.haloMode = 2 then direct false (w.row0 + w.n + j)
    else if w.haloMode = 1 then
      (slotWith g false k j).map (fun i => w.haloAddr + (w.haloSlots + i) * slotBytes w + ch * rowBytes1 w)
    else none

/-! ## Line buffers (R185, R189) -/

/-- The line-buffer address of a map row of a channel: DEPTH rows a channel, one after another in turn. -/
def lineAddr (w : SwageSet) (ch : Nat) (y : Int) : Nat :=
  w.lbOffset + (ch * w.depth + (y + (padTop w : Int)).toNat % w.depth) * rowBytes1 w

/-- Fill one row of every channel (R189). -/
def fillRow (s : State) (n : Nat) (g : SegRun) (k : Nat) (w : SwageSet) (m : Memory) (y : Int) : Memory :=
  (List.range w.ch).foldl (fun t ch =>
    let u := t.clear (lineAddr w ch y) (rowBytes1 w)
    match rowAddr s n g k w (rowSrc w y) ch with
    | some a => u.copyFrom (lineAddr w ch y) (s.hearth (dieOf n)) a (rowBytes1 w)
    | none => u) m

/-- The map rows of a window's span (R185). -/
def spanRows (w : SwageSet) (o : Nat) : List Int :=
  (List.range ((w.kh - 1) * w.dv + 1)).map (fun i => (((w.row0 / w.sv + o) * w.sv + i : Nat) : Int) - (padTop w : Int))

/-- The `p`-th window of a set does not continue the one before: it begins one of the three runs (R189). -/
def startsRun (w : SwageSet) (p : Nat) : Bool := p == 0 || p == w.edgeUp || p == w.edgeUp + w.edgeDn

/-- The rows of the line buffer that the `p`-th window finds there (R189). -/
def heldFor (w : SwageSet) (r : SwgRun) : List Int := if startsRun w r.presented then [] else r.held

/-- The `p`-th window is presented: the rows of its span that the line buffer does not hold and that can be read are filled,
all of them at the start of a run, else the new ones (R189). Answers the line buffers and the rows then held. -/
def fillWindow (s : State) (n : Nat) (g : SegRun) (k : Nat) (w : SwageSet) (r : SwgRun) : Memory × List Int :=
  let held := heldFor w r
  let span := spanRows w (edgeFirst w r.presented)
  let fresh := span.filter (fun y => !held.contains y && rowHere g k w y)
  (fresh.foldl (fillRow s n g k w) (s.core n).lineBuf, span.filter (fun y => held.contains y || fresh.contains y))

/-- One FP32 step of the convolution's sum under the command's rounding mode (R88, R166), with its events (R94): a NaN weight or
element, or what the step makes of values that are no NaN. -/
def dwStep (rz : Bool) (acc : Nat × List Cause) (wv xv : Val) : Nat × List Cause :=
  let a := Val.ofF32 acc.1
  let r := resOf rz [wv, xv, a] ((wv.mul xv).add a)
  (r.code, acc.2 ++ (if wv.isNan || xv.isNan then [Cause.nanOperand] else freshEvent r.ev))

/-- The sum of one output element over the rows that the line buffer holds (R166). -/
def dwSum (lb tiles : Memory) (d : VC) (w : DW) (set : SwageSet) (o c x : Nat) : Nat × List Cause :=
  let rows := windowRows set o
  let p : Int := (((w.kw - 1) * w.dil / 2 : Nat) : Int)
  let word := fun (reg i : Nat) => Val.ofF32 (tileWord tiles (reg + i / 1024) (i / 32 % 32) (i % 32))
  let init := if w.bias then tileWord tiles (d.sb + c / 1024) (c / 32 % 32) (c % 32) else 0
  let start : Nat × List Cause := (init, if (Val.ofF32 init).isNan then [.nanOperand] else [])
  let f := (fmtOf set.fmt 0).getD .fp32
  let taps := (List.range w.g).flatMap (fun g => (List.range w.kh).flatMap (fun i =>
    (List.range w.kw).map (fun j => (g, i, j))))
  taps.foldl (fun acc (g, i, j) =>
    let col : Int := ((x * w.st + j * w.dil : Nat) : Int) - p
    let xv := if col < 0 ∨ (set.wIn : Int) ≤ col then Val.zero
      else lb.val f (lineAddr set (w.g * (c / w.g) + g) (rows.getD i 0)) col.toNat
    dwStep d.rz acc (word d.sa (((c * w.g + g) * w.kh + i) * w.kw + j)) xv) start

/-- The output row of a DWCONV: Hearth and events. The row of an event is the channel mod 32 (R166).
DESIGN CHOICE (notes/assumptions/143): TRAP_TILE.MT is 0, as the command has no destination register; the lane of the sum of
output x of channel c is (c × W_OUT + x) mod 256; and the events come output by output, channel by channel. -/
def dwRow (h lb tiles : Memory) (d : VC) (w : DW) (set : SwageSet) (o : Nat) : Memory × List Event :=
  let f := (fmtOf w.ofmt 0).getD .fp32
  (positions w.cCnt w.wOut).foldl (fun (h, es) (c, x) =>
    let r := dwSum lb tiles d w set o c x
    let k := convert f d.rz d.special (Val.ofF32 r.1)
    let ev := r.2 ++ (if (Val.ofF32 r.1).isNan then [] else k.ev.toList)
    (h.writeElem (d.addr + c * d.stride) f.width x k.code, es ++ ev.map (fun e =>
      { cause := e, mt := 0, nt := 0, row := c % 32, col := (c * w.wOut + x) % 256, kblk := 0 }))) (h, [])

/-- The cycles of the depth-wise path (R166). -/
def dwCycles (w : DW) : Nat := ceilDiv (w.wOut * w.kh * w.kw * w.g * w.cCnt) 256 + 8

/-- Bytes of one channel's output row. -/
def outBytes (w : DW) : Nat := w.wOut * quarterBytes w.ofmt / 4

/-- The bytes of an output row, all channels, channel by channel (R189). -/
def edgeData (h : Memory) (d : VC) (w : DW) : List Byte :=
  (List.range w.cCnt).flatMap (fun c => h.readBytes (d.addr + c * d.stride) (outBytes w))

/-! ## Sending and returning (R189 to R191) -/

namespace State

/-- Change a core's run of a segment. -/
def setRun (s : State) (n seg : Nat) (f : SegRun → SegRun) : State := s.setCore n ((s.core n).setRun seg f)

/-- Send an edge row for a credit of its direction, or stall it behind those that wait (R189, R191). -/
def sendEdge (s : State) (n : Nat) (e : EdgeRow) : State :=
  match neighbour s n e.up, (s.core n).segRun e.segment with
  | some m, some g =>
    let cr := if e.up then g.creditUp else g.creditDn
    if cr = 0 ∨ g.stalled.any (fun x => x.up == e.up) then
      s.setRun n e.segment (fun g => { g with stalled := g.stalled ++ [e] })
    else
      let t := s.setRun n e.segment (fun g =>
        if e.up then { g with creditUp := g.creditUp - 1 } else { g with creditDn := g.creditDn - 1 })
      ({ t with haloRows := t.haloRows ++ [(m, e)] }).count (Reg.coreHaloSent n)
  | _, _ => s

/-- Return `k` credits of a segment to the producer above or below (R190). -/
def returnHalo (s : State) (n seg : Nat) (up : Bool) (k : Nat) : State :=
  match neighbour s n up with
  | some m => { s with haloCredits := s.haloCredits ++ List.replicate k (m, seg, !up) }
  | none => s

/-- The slots whose row of set `k` no window from the `p`-th on reads are empty again, and their credits return (R190).
DESIGN CHOICE (notes/assumptions/142): the credit of a row that no window reads at all returns as soon as it has landed. -/
def releaseRows (s : State) (n seg k : Nat) (w : SwageSet) (p : Nat) : State :=
  [true, false].foldl (fun t up =>
    match (t.core n).segRun seg with
    | none => t
    | some g =>
      let done := fun (x : Nat × Option (Nat × Nat)) => match x.2 with
        | some (i, j) => i == k && !needed w p up j
        | none => false
      let gone := (haloFull g up).filter done
      let rest := (haloFull g up).filter (fun x => !done x)
      (t.setRun n seg (fun g => if up then { g with slotsUp := rest } else { g with slotsDn := rest })).returnHalo n seg up
        gone.length) s

end State

/-- The rank of a core in its gang. -/
def stripeOf (s : State) (n : Nat) : Nat :=
  match s.billet with
  | some b => match gangOf b n with
    | some g => rankOf g n
    | none => 0
  | none => 0

/-- The microbatch that a segment's halo rows carry: that of its first descriptor. -/
def runMb (g : SegRun) : Nat :=
  match g.descs with
  | x :: _ => x.2
  | [] => 0

/-- The edge rows that an output row makes (R188, R189): up in the first EDGE_UP, down in the last EDGE_DN. -/
def edgeRows (s : State) (n : Nat) (g : SegRun) (d : VC) (w : DW) (set : SwageSet) (o : Nat) : List EdgeRow :=
  match g.swage[w.lb + 1]? with
  | none => []
  | some nx =>
    let tag : HaloTag := { stripe := stripeOf s n, row := set.row0 / set.sv + o, seq := nx.seq, mb := runMb g,
                           attempt := s.cad.attempt }
    let row := fun (up : Bool) => ({ segment := g.segment, up := up, set := w.lb + 1, tag := tag
                                     src := (d.addr, (w.cCnt - 1) * d.stride + outBytes w)
                                     data := edgeData (s.hearth (dieOf n)) d w } : EdgeRow)
    (if o < set.edgeUp then [row true] else []) ++
    (if outRows set ≤ o + set.edgeDn ∧ set.edgeDn ≠ 0 then [row false] else [])

/-- The tiles once the depth-wise path is done: cleared where the sequencer has come to another segment (R146). -/
def Core.endDw (c : Core) : Core := { c with dwconv := none, tiles := if c.curSeg = c.vecSeg then c.tiles else .empty }

/-- DWCONV_COMPLETE: Swage presents the next row of the set (R189), the row of the running depth-wise command is written
(R166), an edge row is sent, and the credits of halo rows that no later window reads return (R190). While a halo row of
the window has not landed, the command waits. -/
def execDwconvComplete (core : Nat) (s : State) : Host.Outcome State Fault Refusal :=
  let c := s.core core
  match c.dwconv, c.segRun c.vecSeg with
  | some ws, some g =>
    let d := vcOf ws
    let w := dwOf ws
    match setAt c c.vecSeg w.lb with
    | none => void s
    | some (set, r) =>
      let o := edgeFirst set r.presented
      if !s.alive || decide (outRows set ≤ r.presented) || missing g w.lb set (heldFor set r) o then void s
      else if decide (w.wOut ≠ 0) && !inHearth (d.addr + (w.cCnt - 1) * d.stride) (outBytes w) then
        .fault .hearthRange
      else
        let f := fillWindow s core g w.lb set r
        let out := dwRow (s.hearth (dieOf core)) f.1 c.tiles d w set o
        let s1 := (s.setHearth (dieOf core) out.1).setCore core
          (Core.endDw ({ c with lineBuf := f.1 }.setRun c.vecSeg (fun g =>
            { g with sets := g.sets.set w.lb { r with presented := r.presented + 1, held := f.2 } })))
        let s2 := (edgeRows s1 core g d w set o).foldl (fun t e => t.sendEdge core e) s1
        let s3 := s2.releaseRows core c.vecSeg w.lb set (r.presented + 1)
        .next ((s3.opEvents (vcTag core d) false out.2).endVec core c.vecSeg d.opid (dwCycles w))
  | _, _ => void s

/-! ## Landing rows and credits -/

/-- The set and row that a segment expects next from above or below (R190): the first set in slot mode that has not
received all its rows of that direction. -/
def expectRow (g : SegRun) (up : Bool) : Option (Nat × SwageSet × Nat) :=
  ((List.range g.swage.length).filterMap (fun k => match g.swage[k]?, g.sets[k]? with
    | some w, some r =>
      if w.haloMode = 1 then
        (if up then (if r.landedUp < upRows w then some (k, w, r.landedUp) else none)
         else (if r.landedDn < dnRows w then some (k, w, r.landedDn) else none))
      else none
    | _, _ => none)).head?

/-- The tag that a core expects on its next row of a direction (R190). -/
def expectTag (s : State) (n : Nat) (g : SegRun) (up : Bool) (w : SwageSet) (j : Nat) : HaloTag :=
  { stripe := if up then stripeOf s n - 1 else stripeOf s n + 1
    row := if up then w.row0 - upRows w + j else w.row0 + w.n + j
    seq := w.seq, mb := runMb g, attempt := s.cad.attempt }

/-- The slot that a landing row takes: the lowest that is empty (notes/assumptions/142). -/
def emptySlot (g : SegRun) (up : Bool) : Nat :=
  ((List.range ((haloFull g up).length + 1)).find? (fun i => !(haloFull g up).any (fun x => x.1 == i))).getD 0

/-- A row fills a slot of a segment. -/
def SegRun.fill (g : SegRun) (up : Bool) (slot : Nat) (x : Option (Nat × Nat)) : SegRun :=
  if up then { g with slotsUp := g.slotsUp ++ [(slot, x)] } else { g with slotsDn := g.slotsDn ++ [(slot, x)] }

/-- One more row of set `k` has landed. -/
def SegRun.landed (g : SegRun) (up : Bool) (k : Nat) : SegRun :=
  { g with sets := g.sets.modify k (fun r =>
      if up then { r with landedUp := r.landedUp + 1 } else { r with landedDn := r.landedDn + 1 }) }

/-- A row refused for its tag stays in its slot unread (R190). -/
def State.refuseRow (s : State) (n seg : Nat) (up : Bool) : State :=
  (((s.setRun n seg (fun g => g.fill up (emptySlot g up) none)).count (Reg.coreHaloTagerr n)).raise (srcIssue n) 0x0F clsU
    (n * 2 ^ 32)).abortHold

/-- HALO_ROW_LANDED: the oldest halo row on its way to a core from the stripe above (`up`) or below lands in a
slot, or is discarded, or is refused for its tag (R190). -/
def execHaloRowLanded (core : Nat) (up : Bool) (s : State) : Host.Outcome State Fault Refusal :=
  match s.haloRows.find? (fun x => x.1 == core && x.2.up == !up) with
  | none => void s
  | some x =>
    let e := x.2
    let s1 := { s with haloRows := s.haloRows.erase x }
    if !s.alive then void s
    else if e.tag.attempt ≠ s.cad.attempt then .next s1
    else match (s.core core).segRun e.segment with
      | none => .next s1
      | some g => match expectRow g up with
        | none => .next (s1.refuseRow core e.segment up)
        | some (k, w, j) =>
          if e.tag = expectTag s core g up w j then
            let i := emptySlot g up
            let a := w.haloAddr + (if up then i else w.haloSlots + i) * slotBytes w
            if !inHearth a e.data.length then .fault .hearthRange
            else
              let s2 := (s1.setHearth (dieOf core) ((s.hearth (dieOf core)).writeBytes a e.data)).setRun core e.segment
                (fun g => (g.landed up k).fill up i (some (k, j)))
              .next (s2.releaseRows core e.segment k w ((g.sets.getD k ⟨0, 0, 0, []⟩).presented))
          else .next (s1.refuseRow core e.segment up)

/-- HALO_CREDIT_RETURN: a halo credit on its way reaches its producer (R190); a send that waits for it goes
(R191, R193). -/
def execHaloCreditReturn (core : Nat) (up : Bool) (s : State) : Host.Outcome State Fault Refusal :=
  match s.haloCredits.find? (fun x => x.1 == core && x.2.2 == up) with
  | none => void s
  | some x =>
    if !s.alive then void s
    else
      let s1 := { s with haloCredits := s.haloCredits.erase x }
      let s2 := s1.setRun core x.2.1 (fun g =>
        if up then { g with creditUp := g.creditUp + 1 } else { g with creditDn := g.creditDn + 1 })
      match (s2.core core).segRun x.2.1 with
      | none => .next s2
      | some g => match g.stalled.find? (fun e => e.up == up) with
        | none => .next s2
        | some e =>
          -- the later rows of this direction stay stalled behind the one that goes
          let rest := g.stalled.erase e
          let s3 := s2.setRun core x.2.1 (fun g => { g with stalled := rest.filter (fun y => y.up != up) })
          .next ((s3.sendEdge core e).setRun core x.2.1 (fun g => { g with stalled := rest }))

/-! ## The halo ledger (R192) -/

/-- The sender's credits, the receiver's full slots, and the rows and credits in flight add up to HALO_SLOTS, for the
pair of core `n` and its neighbour of a direction in a segment (R192). -/
def haloBalanced (s : State) (n : Nat) (g : SegRun) (up : Bool) : Bool :=
  match neighbour s n up with
  | none => true
  | some m =>
    let cr := if up then g.creditUp else g.creditDn
    let full := match (s.core m).segRun g.segment with
      | some x => (haloFull x (!up)).length
      | none => 0
    let rows := (s.haloRows.filter (fun x => x.1 == m && x.2.up == up && x.2.segment == g.segment &&
      x.2.tag.attempt == s.cad.attempt)).length
    let back := (s.haloCredits.filter (fun x => x == (n, g.segment, up))).length
    cr + full + rows + back == haloCredit0 s n g.segment up

/-- The halo slots of a core's segment are empty, its sends have gone and its credits are home (R67, R192). -/
def haloHome (s : State) (n : Nat) (g : SegRun) : Bool :=
  g.slotsUp.isEmpty && g.slotsDn.isEmpty && g.stalled.isEmpty && g.creditUp == haloCredit0 s n g.segment true &&
  g.creditDn == haloCredit0 s n g.segment false

/-- R192's condition of STAGE_END on one core for a segment: every set has presented all its rows, every halo slot is empty
and every credit is home. -/
def swageDone (s : State) (n : Nat) (g : SegRun) : Bool :=
  (List.range g.swage.length).all (fun k => match g.swage[k]?, g.sets[k]? with
    | some w, some r => decide (outRows w ≤ r.presented)
    | _, _ => true) && haloHome s n g

/-! ## Term-walk (R167 to R169) -/

/-- The issue descriptor that a TERMWALK names in Hearth. -/
def walkIssue (s : State) (n : Nat) (ws : List Nat) : List Nat :=
  let a := wf ws 5 0 30
  (List.range 20).map (fun i => (s.hearth (dieOf n)).readLE (a + 4 * i) 4)

/-- The walked issue with its run-time shape and slag vectors, as the issue check reads them (R167). -/
def walkedIssue (s : State) (n : Nat) (ws : List Nat) : Issue :=
  let iw := walkIssue s n ws
  let d := mmOf iw
  let (m, nn, k) := runShape s n d
  let (sr, sc) := slagVectors s n d
  { words := iw, m := m, n := nn, k := k, slagRow := sr, slagCol := sc, segment := 0 }

/-- The Hearth ranges of the slag entry that an issue names, and of its vectors (R137, R138). -/
def slagReads (s : State) (n : Nat) (d : MM) : List Rng :=
  match s.prog n with
  | some p =>
    if d.slagId = 0 ∨ p.slagCount < d.slagId then []
    else
      let h := s.hearth (dieOf n)
      let e := p.slagAddr + 16 * (d.slagId - 1)
      [(e, 16), (h.readLE e 4 % 2 ^ 30, ceilDiv (h.readLE (e + 8) 2 % 2 ^ 12) 8),
       (h.readLE (e + 4) 4 % 2 ^ 30, ceilDiv (h.readLE (e + 10) 2 % 2 ^ 12) 8)]
  | none => []

/-- The Hearth ranges that a term-walk reads: the descriptor, and what the walked issue reads (R141, R167). -/
def walkRanges (s : State) (n : Nat) (ws : List Nat) : List Rng :=
  let i := walkedIssue s n ws
  (wf ws 5 0 30, 80) :: i.reads ++ slagReads s n (mmOf i.words)

/-- TERMWALK: the walk of a recorded issue starts; the check refuses a descriptor that is no MATMUL issue (R150,
R167). -/
def execTermwalk (core : Nat) (words : List Word) (s : State) : Host.Outcome State Fault Refusal :=
  let ws := natWords words
  let d := vcOf ws
  if !s.takesVec core 0x58 d then void s
  else if !inHearth (wf ws 5 0 30) 80 then .fault .hearthRange
  else if !(base32 d && decide (d.func ≤ 1) && (mmOf (walkIssue s core ws)).op == 1) then
    .next (s.refuseVec core d)
  else if (s.core core).mustWait (walkRanges s core ws) [(wf ws 6 0 30, 64)] then .next (s.vecWaits core)
  else .next (s.setCore core (Core.dispatch { s.core core with
    walk := some ws, walkReads := walkRanges s core ws, vecSeg := (s.core core).curSeg }))

/-- What a group's terms show (R83, R168): the first offending term's index in the group, the earlier infinite
term where infinities of both signs meet, and the flag bits 0 to 3. -/
def walkFind : Nat → Option (Nat × Bool) → List Term → Option (Nat × Option Nat × Nat)
  | _, _, [] => none
  | i, inf, t :: r =>
    if t.a.isNan then some (i, none, 4)
    else if t.b.isNan then some (i, none, 4 + 8)
    else
      let p := t.a.mul t.b
      if p.isNan then some (i, none, 1 + (if t.a.isInf then 0 else 8))
      else match p, inf with
        | .inf n, some (j, m) => if n = m then walkFind (i + 1) inf r
                                 else some (i, some j, 2 + (if t.a.isInf then 0 else 8))
        | .inf n, none => walkFind (i + 1) (some (i, n)) r
        | _, _ => walkFind (i + 1) inf r

/-- One walked group's record (Table 6-10): gs, acc before and after. -/
structure WalkGroup where
  g : Nat
  gs : Nat
  accIn : Nat
  accOut : Nat
  find : Option (Nat × Option Nat × Nat)
  deriving DecidableEq, Repr

/-- Every group of the element in order, with its sums (R82). -/
def walkGroups (rz : Bool) : Nat → Nat → List (List (Option Term)) → List WalkGroup
  | _, _, [] => []
  | acc, g, grp :: r =>
    let ts := grp.filterMap id
    let gv := roundF32 rz (groupExact ts)
    let out := toF32 rz (Val.add (Val.ofF32 acc) gv)
    { g := g, gs := toF32 rz gv, accIn := acc, accOut := out, find := walkFind 0 none ts } :: walkGroups rz out (g + 1) r

/-- The output row and column that a term-walk names (R167). -/
def walkTarget (ws : List Nat) : Nat × Nat :=
  (wf ws 2 0 16 * 128 + wf ws 3 0 7, wf ws 2 16 16 * 128 + wf ws 3 8 7)

/-- The target lies outside the run-time shape or is slag: MASKED, and nothing is walked (R168). -/
def walkMasked (i : Issue) (ws : List Nat) : Bool :=
  let d := mmOf i.words
  let t := walkTarget ws
  let kblk := wf ws 3 16 16
  decide (i.m ≤ t.1) || decide (i.n ≤ t.2) || i.slag t.1 t.2 || decide (kblk < d.k0 / 32) ||
  decide (d.k0 / 32 + ceilDiv i.k 32 ≤ kblk)

/-- How many groups a walk evaluates: none where it is masked, group KBLK alone, or every group up to it (R167, R168). -/
def walkCount (i : Issue) (ws : List Nat) : Nat :=
  if walkMasked i ws then 0 else if wf ws 1 8 8 = 0 then 1 else wf ws 3 16 16 - (mmOf i.words).k0 / 32 + 1

/-- The 64 bytes of a term-walk record (Table 6-10), from the state and the walk's words. A field that names a term
that was not found, or a sum that was not walked, holds a free value; the scale of an operand that is not MX is 0x7F. -/
def walkRecord (s : State) (n : Nat) (ws : List Nat) : List Byte :=
  let h := s.hearth (dieOf n)
  let i := walkedIssue s n ws
  let d := mmOf i.words
  let rk := i.k
  let m := (walkTarget ws).1
  let nn := (walkTarget ws).2
  let kblk := wf ws 3 16 16
  let fv := fun (k w : Nat) => Config.freeValue (s.freeCtr + k) % 2 ^ w
  let masked := walkMasked i ws
  let noScales := leBytes 1 (if d.amx = 1 then fv 2 8 else 0x7F) ++ leBytes 1 (if d.bmx = 1 then fv 3 8 else 0x7F)
  let rec32 := fun (v : Nat) => leBytes 4 v
  match d.fa, d.fb with
  | some fa, some fb =>
    if masked then
      leBytes 4 d.opid ++ rec32 0xFFFFFFFF ++ rec32 0xFFFFFFFF ++ leBytes 2 (fv 0 16) ++ leBytes 2 (fv 1 16) ++
      noScales ++ leBytes 1 0x20 ++ leBytes 1 0 ++ rec32 (fv 4 32) ++
      rec32 (fv 5 32) ++ rec32 (fv 6 32) ++ rec32 (fv 7 32) ++ rec32 (fv 8 32) ++ leBytes 24 0
    else
      let init := initAcc h (s.core n) d m nn
      let all := walkGroups d.rz init (d.k0 / 32) (termGroups h d fa fb rk m nn)
      let one := (wf ws 1 8 8) == 0
      let walked := all.filter (fun w => if one then w.g == kblk else decide (w.g ≤ kblk))
      let last := (all.find? (fun w => w.g == kblk)).getD ⟨0, 0, 0, 0, none⟩
      let hit := walked.find? (fun w => w.find.isSome)
      let infg := walked.find? (fun w => (Val.ofF32 w.gs).isInf ||
        ((Val.ofF32 w.accOut).isInf && !(Val.ofF32 w.accIn).isInf))
      let infFlag := if infg.isSome then 16 else 0
      let infVal := match infg with | some w => w.g | none => fv 4 32
      let tail := rec32 infVal ++ rec32 init ++ rec32 last.gs ++ rec32 last.accIn ++ rec32 last.accOut ++ leBytes 24 0
      match hit with
      | some w => match w.find with
        | some (j, prior, fl) =>
          let kk := 32 * w.g + j - d.k0
          leBytes 4 d.opid ++ rec32 (32 * w.g + j) ++
          rec32 (match prior with | some p => 32 * w.g + p | none => 0xFFFFFFFF) ++
          leBytes 2 (aCode h d fa.width m kk) ++ leBytes 2 (bCode h d fb.width kk nn) ++
          leBytes 1 (aScale h d m kk) ++ leBytes 1 (bScale h d kk nn) ++ leBytes 1 (fl + infFlag) ++ leBytes 1 0 ++ tail
        | none => []
      | none =>
        leBytes 4 d.opid ++ rec32 0xFFFFFFFF ++ rec32 0xFFFFFFFF ++ leBytes 2 (fv 0 16) ++ leBytes 2 (fv 1 16) ++
        noScales ++ leBytes 1 infFlag ++ leBytes 1 0 ++ tail
  | _, _ => leBytes 64 0

/-- TERMWALK_COMPLETE: the walk ends and writes its record whole (R168). It raises no event (R169). -/
def execTermwalkComplete (core : Nat) (s : State) : Host.Outcome State Fault Refusal :=
  let c := s.core core
  match c.walk with
  | none => void s
  | some ws =>
    let a := wf ws 6 0 30
    if !s.alive then void s
    else if !inHearth a 64 then .fault .hearthRange
    else
      let h := (s.hearth (dieOf core)).writeBytes a (walkRecord s core ws)
      let groups := walkCount (walkedIssue s core ws) ws
      .next ((((s.setHearth (dieOf core) h).setCore core { c with walk := none, walkReads := [] }).count (Reg.coreTwCount core)).draw 9
        |>.endVec core c.vecSeg (wd ws 0) (64 + 32 * groups))

end Sys2Proof.Machine
end

