-- ==== Sys2Proof/Machine/Kv.lean ====
section
/-!
DEFINITION. Machine/Kv.lean: the paged key-value store (chapter 08): pages and their metadata (R208, R212, R215),
epochs and pins (R216), the undo log (R218), KVOP (R213, R214), appends (R209), stranded streams (R219) and the
audits (R221). Table pages and data pages lie in HBM4, as the spec lays them out (Tables 8-6 and 8-8). -/

namespace Sys2Proof.Machine

namespace State

/-- The device's stream space: an entry is free when none of its three holders holds it (R211). -/
def streamFree (s : State) (id : Nat) : Bool :=
  decide (id < 2 ^ 20) && (Assoc.find? s.kvp.streams id).isNone && !s.netStreams.contains id && !s.blmStreams.contains id

/-- The HBM4 address of a page (R208). -/
def pageAddr (s : State) (id : Nat) : Nat :=
  s.get64 Reg.kvpPoolBaseLo Reg.kvpPoolBaseHi + id * s.get Reg.kvpPageBytes

/-- The metadata of a page. -/
def page (s : State) (id : Nat) : KvPage := Assoc.get KvPage.none s.kvp.pages id

/-- The register that counts pages of a kind (Table 8-13). -/
def kindReg : PageKind → Fld
  | .free => Reg.kvpFree
  | .data => Reg.kvpData
  | .table => Reg.kvpTable
  | .retired => Reg.kvpRetired

/-- Write a page's metadata, with the counts by kind. -/
def putPage (s : State) (id : Nat) (p : KvPage) : State :=
  let s1 := (s.uncount (kindReg (s.page id).kind)).count (kindReg p.kind)
  { s1 with kvp := { s.kvp with pages := Assoc.set KvPage.none s.kvp.pages id p } }

/-- Write a stream entry; none frees it. STREAMS counts the entries that the KVP holds (Table 8-13). -/
def putStream (s : State) (id : Nat) (e : Option KvStream) : State :=
  let l := match e with
    | some v => Assoc.put (Assoc.del s.kvp.streams id) id v
    | none => Assoc.del s.kvp.streams id
  ({ s with kvp := { s.kvp with streams := l } }).put Reg.kvpStreams l.length

/-- One undo record (R218). -/
def kvLog (s : State) (u : KvUndo) : State := { s with kvp := { s.kvp with undo := u :: s.kvp.undo } }

/-- A logged change of a page's metadata. -/
def setPage (s : State) (id : Nat) (p : KvPage) : State := (s.putPage id p).kvLog (.page id (s.page id))

/-- A logged change of a stream entry. -/
def setStream (s : State) (id : Nat) (e : Option KvStream) : State :=
  (s.putStream id e).kvLog (.stream id (Assoc.find? s.kvp.streams id))

/-- A table entry by its HBM4 address (Table 8-8). -/
def entryAt (s : State) (a : Nat) : Nat := s.hbm.readLE a 8

/-- A logged change of a table entry. -/
def setEntry (s : State) (a v : Nat) : State :=
  (({ s with hbm := s.hbm.writeLE a 8 v }).hbmTouched a 8).kvLog (.entry a (s.entryAt a))

end State

/-- PAGE_ID of a table entry (Table 8-8). -/
def entryPage (v : Nat) : Nat := bits v 0 32
/-- FILL of a table entry. -/
def entryFill (v : Nat) : Nat := bits v 32 7
/-- VALID of a table entry. -/
def entryValid (v : Nat) : Bool := bit v 39
/-- A valid table entry. -/
def mkEntry (page fill : Nat) : Nat := page + fill * 2 ^ 32 + 2 ^ 39

/-- The `k`-th free page, given the pages in use in rising order. -/
def kthFree : List Nat → Nat → Nat
  | [], k => k
  | p :: r, k => if p ≤ k then kthFree r (k + 1) else k

/-- A refusal of a change to a stream: the fault kind (Table 17-2). -/
def kvStreamKind : Nat := 0x28
/-- KV pool empty. -/
def kvEmpty : Nat := 0x29
/-- KV count limit. -/
def kvCount : Nat := 0x2A
/-- KV position. -/
def kvPosition : Nat := 0x2B
/-- KV owner. -/
def kvOwner : Nat := 0x2C
/-- KV undo full. -/
def kvUndoFull : Nat := 0x2D
/-- KV stranded. -/
def kvStranded : Nat := 0x2E
/-- KV ledger. -/
def kvLedger : Nat := 0x2F

/-- The outcome of a change: the new state, or the kind of the refusal. A change is applied whole or refused whole
(R213). -/
inductive KvRes where
  | ok (s : State)
  | no (kind : Nat)

namespace State

/-- Take a page from the free list, with COUNT 1 (R215). Which free page is taken is left open by R217: it is a free
value. A table page begins with no valid entry. -/
def allocPage (s : State) (kind : PageKind) : Option (Nat × State) :=
  let n := s.get Reg.kvpFree
  if n = 0 then none
  else
    let id := kthFree (s.kvp.pages.map (fun p => p.1)) (s.free % n)
    let s1 := (s.draw).setPage id { kind := kind, count := 1, epoch := 0, uncommitted := false }
    some (id, if kind = .table then { s1 with hbm := s1.hbm.clear (s1.pageAddr id) 4096 } else s1)

/-- Retire a page at the current epoch (R215, R216). -/
def retirePage (s : State) (id : Nat) : State :=
  let t := s.setPage id { kind := .retired, count := 0, epoch := s.kvp.epoch, uncommitted := true }
  { t with kvp := { t.kvp with used := true } }

/-- The epoch advances when a page has been retired in it and the epoch three before holds no pin and no retired page
(R216). -/
def advanceEpoch (s : State) : State :=
  let e := s.kvp.epoch
  let old := decide (3 ≤ e) && (s.kvp.pins.contains (e - 3) ||
    s.kvp.pages.any (fun p => p.2.kind == .retired && p.2.epoch == e - 3))
  if s.kvp.used && !old then { s with kvp := { s.kvp with epoch := e + 1, used := false } } else s

/-- Release every retired page whose step has passed COMMIT and whose epoch no pin up to it guards (R216). -/
def releasePages (s : State) : State :=
  let go := s.kvp.pages.filter (fun p => p.2.kind == .retired && !p.2.uncommitted &&
    !(s.kvp.pins.any (fun e => decide (e ≤ p.2.epoch))))
  go.foldl (fun t p => t.putPage p.1 KvPage.none) s

/-- Subtract one from a data page's COUNT; at zero the page retires (R215). -/
def dropData (s : State) (id : Nat) : State :=
  let p := s.page id
  if p.count ≤ 1 then s.retirePage id else s.setPage id { p with count := p.count - 1 }

/-- The valid level-2 tables of a stream: index in the level-1 table and page. -/
def l2Tables (s : State) (st : KvStream) : List (Nat × Nat) :=
  (List.range 512).filterMap (fun i =>
    let v := s.entryAt (s.pageAddr st.l1 + 8 * i)
    if entryValid v then some (i, entryPage v) else none)

/-- The valid entries of a level-2 table: index and entry. -/
def l2Entries (s : State) (table : Nat) : List (Nat × Nat) :=
  (List.range 512).filterMap (fun i =>
    let v := s.entryAt (s.pageAddr table + 8 * i)
    if entryValid v then some (i, v) else none)

/-- Open a stream with a geometry (R213): one level-1 table, LENGTH 0. -/
def openStream (s : State) (id layers groups maxp owner : Nat) (serving : Bool) : KvRes :=
  if !s.streamFree id || decide (512 * 512 < layers * groups * 2 ^ maxp) then .no kvStreamKind
  else match s.allocPage .table with
    | none => .no kvEmpty
    | some (l1, s1) =>
      .ok (s1.setStream id (some { serving := serving, layers := layers, groups := groups, maxp := maxp, length := 0,
                                   l1 := l1, owner := owner }))

/-- Copy one level-2 table for a fork: a new table page with the same entries, each data page counted once more. -/
def forkTable (s : State) (l1 i table : Nat) : KvRes :=
  match s.allocPage .table with
  | none => .no kvEmpty
  | some (t2, s1) =>
    let es := s.l2Entries table
    if es.any (fun e => decide (65535 ≤ (s.page (entryPage e.2)).count)) then .no kvCount
    else
      let s2 := es.foldl (fun t (j, v) =>
        let p := t.page (entryPage v)
        (t.setEntry (t.pageAddr t2 + 8 * j) v).setPage (entryPage v) { p with count := p.count + 1 }) s1
      .ok (s2.setEntry (s2.pageAddr l1 + 8 * i) (mkEntry t2 0))

/-- FORK (R211, R213): the new stream, a training or a serving one, with the source's geometry and LENGTH and its tables
copied. -/
def forkStream (s : State) (id src owner : Nat) (serving : Bool) : KvRes :=
  match Assoc.find? s.kvp.streams src with
  | none => .no kvStreamKind
  | some st =>
    if !s.streamFree id then .no kvStreamKind
    else match s.allocPage .table with
      | none => .no kvEmpty
      | some (l1, s1) =>
        let r := (s.l2Tables st).foldl (fun r (i, t) => match r with
          | .ok u => u.forkTable l1 i t
          | .no k => .no k) (KvRes.ok s1)
        match r with
        | .ok u => .ok (u.setStream id (some { st with serving := serving, l1 := l1, owner := owner }))
        | .no k => .no k

/-- CLOSE (R213, R215): every data page counted down, the table pages retired, the entry freed. -/
def closeStream (s : State) (id : Nat) : KvRes :=
  match Assoc.find? s.kvp.streams id with
  | none => .no kvStreamKind
  | some st =>
    let s1 := (s.l2Tables st).foldl (fun t (_, tab) =>
      ((s.l2Entries tab).foldl (fun u (_, v) => u.dropData (entryPage v)) t).retirePage tab) s
    .ok (((s1.retirePage st.l1).setStream id none).advanceEpoch)

/-- KV ledger fault where the pages by kind do not add up to the pool (R221). -/
def auditPages (s : State) : State :=
  if s.get Reg.kvpFree + s.get Reg.kvpData + s.get Reg.kvpTable + s.get Reg.kvpRetired = s.get Reg.kvpPoolPages then s
  else s.raise srcKvp kvLedger clsF 0

/-- A change is kept when its undo records fit the log (R218). -/
def keepChange (r : KvRes) : KvRes :=
  match r with
  | .ok u => if 65536 < u.kvp.undo.length then .no kvUndoFull else .ok u
  | .no k => .no k

/-- A refused change of core `n` to stream `id` (R213): the KVP's fault, a count of exhaustion, and R108. -/
def refuseKv (s : State) (n opid id kind : Nat) : State :=
  let c := s.core n
  let s1 := if kind = kvEmpty then s.count Reg.kvpExhaust else s
  (((s1.raise srcKvp kind clsU (id % 2 ^ 20 + n * 2 ^ 20)).recordRefusal n 8 opid 0 0).setCore n
    { c with run := .refused, waiting := none, vecWait := false }).abortHold

end State

/-! ## KVOP (R213, R214) -/

/-- The fields of Table 6-2 that a KVOP leaves zero (R195): all but OPID, FUNC, RZ, SPECIAL, XARG, and IMM where FUNC takes
it. -/
def kvFieldsOk (d : VC) : Bool :=
  d.esize == 0 && !d.raw && !d.acc && d.axis == 0 && d.dst == 0 && d.sa == 0 && d.sb == 0 && d.sc == 0 && d.ba == 0 &&
  d.bb == 0 && d.bc == 0 && d.rows == 0 && d.cols == 0 && d.drow == 0 && d.soff == 0 && d.addr == 0 && d.stride == 0 &&
  (d.func != 2 || d.imm == 0)

/-- A KVOP of a core, with its change. A FUNC of no row of Table 8-9, or a field that must be zero, is refused by R150. -/
def kvopCmd (core func : Nat) (words : List Word) (chg : State → VC → KvRes) (s : State) :
    Host.Outcome State Fault Refusal :=
  let d := vcOf (natWords words)
  let id := d.xarg % 2 ^ 20
  if !s.takesVec core 0x29 d then void s
  else if 2 < d.func then .next (s.refuseVec core d)
  else if d.func != func then void s
  else if !kvFieldsOk d then .next (s.refuseVec core d)
  else match State.keepChange (chg s d) with
    | .ok u => .next (u.auditPages.finishVec core d.opid 4)
    | .no kind => .next (s.refuseKv core d.opid id kind)

/-- The stream's owner is the core, where the stream exists (R214). -/
def ownerOk (s : State) (id core : Nat) : Bool :=
  match Assoc.find? s.kvp.streams id with
  | some st => st.owner == core
  | none => true

/-- KVOP_OPEN: take a free entry as a training stream; geometry from IMM (Table 8-9). -/
def execKvopOpen (core : Nat) (words : List Word) (s : State) : Host.Outcome State Fault Refusal :=
  kvopCmd core 0 words (fun s d =>
    if !s.flag Reg.kvpCtrlEn then .no kvStreamKind
    else s.openStream (d.xarg % 2 ^ 20) (bits d.imm 0 8 + 1) (bits d.imm 8 8 + 1) (bits d.imm 16 4) core false) s

/-- KVOP_FORK: a new stream over the source's pages (Table 8-9). -/
def execKvopFork (core : Nat) (words : List Word) (s : State) : Host.Outcome State Fault Refusal :=
  kvopCmd core 1 words (fun s d =>
    if !ownerOk s (d.imm % 2 ^ 20) core then .no kvOwner
    else s.forkStream (d.xarg % 2 ^ 20) (d.imm % 2 ^ 20) core false) s

/-- KVOP_CLOSE: count the pages down and free the entry (Table 8-9). -/
def execKvopClose (core : Nat) (words : List Word) (s : State) : Host.Outcome State Fault Refusal :=
  kvopCmd core 2 words (fun s d =>
    if !ownerOk s (d.xarg % 2 ^ 20) core then .no kvOwner else s.closeStream (d.xarg % 2 ^ 20)) s

/-! ## Appends and lookups -/

/-- The head dimension of the pool. -/
def poolDh (s : State) : Nat := if s.flag Reg.kvpCtrlHd then 128 else 64

/-- The element format of the pool's pages: E4M3 or E2M1 (R208). -/
def poolFmt (s : State) : Fmt := if s.flag Reg.kvpCtrlForm then .e2m1 else .e4m3

/-- Bytes of one token's codes in a page. -/
def rowBytes (s : State) : Nat := poolDh s * (poolFmt s).width / 8

/-- Offsets within a page (Table 8-6): K scales, V codes, V scales. -/
def offKs (s : State) : Nat := 64 * rowBytes s
/-- V codes. -/
def offV (s : State) : Nat := offKs s + 2 * poolDh s
/-- V scales. -/
def offVs (s : State) : Nat := offV s + 64 * rowBytes s

/-- The logical page number of a token (R212). -/
def lpn (st : KvStream) (layer group t : Nat) : Nat := (layer * st.groups + group) * 2 ^ st.maxp + t / 64

namespace State

/-- The level-2 entry's address for a logical page, if its table exists. -/
def l2Addr (s : State) (st : KvStream) (l : Nat) : Option Nat :=
  let v := s.entryAt (s.pageAddr st.l1 + 8 * (l / 512))
  if entryValid v then some (s.pageAddr (entryPage v) + 8 * (l % 512)) else none

/-- The data page of a token (R212). -/
def dataPage (s : State) (st : KvStream) (layer group t : Nat) : Option Nat :=
  match s.l2Addr st (lpn st layer group t) with
  | some a => if entryValid (s.entryAt a) then some (entryPage (s.entryAt a)) else none
  | none => none

/-- Write one packed row (codes, then scales) of `dh` values at a slot of a page (R209). -/
def writeRow (s : State) (page slot codesOff scalesOff : Nat) (vs : List Val) : State :=
  let f := poolFmt s
  let dh := poolDh s
  let a := s.pageAddr page
  let blks := (List.range (dh / 32)).map (fun b => mxPack f false false ((vs.drop (32 * b)).take 32))
  let m1 := (blks.zipIdx).foldl (fun m (blk, b) =>
    (blk.codes.zipIdx).foldl (fun m (c, i) => m.writeElem (a + codesOff + slot * rowBytes s) f.width (32 * b + i) c) m)
    s.hbm
  let m2 := (blks.zipIdx).foldl (fun m (blk, b) =>
    m.write (a + scalesOff + slot * (dh / 32) + b) (BitVec.ofNat 8 blk.scale)) m1
  (({ s with hbm := m2 }).hbmTouched (a + codesOff + slot * rowBytes s) (rowBytes s)).hbmTouched
    (a + scalesOff + slot * (dh / 32)) (dh / 32)

/-- Copy a page's FILL tokens, codes and scales, to another page (R215); what a poisoned granule gives is poisoned (R29). -/
def copyFill (s : State) (src dst fill : Nat) : State :=
  let rb := rowBytes s
  let sb := poolDh s / 32
  let cp := fun (m : Memory) (off len : Nat) =>
    m.writeBytes (s.pageAddr dst + off) (m.readBytes (s.pageAddr src + off) len)
  let tgt := s.pageAddr dst
  let m := cp (cp (cp (cp s.hbm 0 (fill * rb)) (offKs s) (fill * sb)) (offV s) (fill * rb)) (offVs s) (fill * sb)
  let parts := [(0, fill * rb), (offKs s, fill * sb), (offV s, fill * rb), (offVs s, fill * sb)]
  let bad := (parts.filter (fun p => s.hbmBad (s.pageAddr src + p.1) p.2)).flatMap (fun p => granules (tgt + p.1) p.2)
  ((((({ s with hbm := m }).hbmTouched tgt (fill * rb)).hbmTouched (tgt + offKs s) (fill * sb)).hbmTouched (tgt + offV s)
    (fill * rb)).hbmTouched (tgt + offVs s) (fill * sb)).poisonHbm bad

/-- Append one token of a layer and group (Table 8-9, R209, R215). -/
def appendToken (s : State) (st : KvStream) (layer group t : Nat) (k v : List Val) : KvRes :=
  let l := lpn st layer group t
  let withTable : KvRes := match s.l2Addr st l with
    | some _ => .ok s
    | none => match s.allocPage .table with
      | none => .no kvEmpty
      | some (t2, s1) => .ok (s1.setEntry (s1.pageAddr st.l1 + 8 * (l / 512)) (mkEntry t2 0))
  match withTable with
  | .no e => .no e
  | .ok s1 => match s1.l2Addr st l with
    | none => .no kvStreamKind
    | some a =>
      let e := s1.entryAt a
      let put := fun (u : State) (pg : Nat) =>
        ((u.writeRow pg (t % 64) 0 (offKs u) k).writeRow pg (t % 64) (offV u) (offVs u) v).setEntry a
          (mkEntry pg (t % 64 + 1))
      if !entryValid e then
        match s1.allocPage .data with
        | none => .no kvEmpty
        | some (pg, s2) => .ok (put s2 pg)
      else
        let pg := entryPage e
        if (s1.page pg).count ≤ 1 then .ok (put s1 pg)
        else match s1.allocPage .data with
          | none => .no kvEmpty
          | some (pg', s2) =>
            .ok (put (((s2.copyFill pg pg' (entryFill e)).dropData pg).count Reg.kvpCow) pg')

/-- Append tokens `t0` onward, each with its K and V rows (R213). -/
def appendTokens (s : State) (st : KvStream) (layer group : Nat) : Nat → List (List Val × List Val) → KvRes
  | _, [] => .ok s
  | t, (k, v) :: r => match s.appendToken st layer group t k v with
    | .ok u => appendTokens u st layer group (t + 1) r
    | .no e => .no e

/-- Tokens that a layer and group of a stream holds: the FILLs of its valid entries (Table 8-8). -/
def heldTokens (s : State) (st : KvStream) (layer group : Nat) : Nat :=
  ((List.range (2 ^ st.maxp)).map (fun p =>
    match s.l2Addr st ((layer * st.groups + group) * 2 ^ st.maxp + p) with
    | some a => if entryValid (s.entryAt a) then entryFill (s.entryAt a) else 0
    | none => 0)).foldl (· + ·) 0

/-- The tokens that every layer and group holds: LENGTH (Table 8-7). -/
def heldByAll (s : State) (st : KvStream) : Nat :=
  match (positions st.layers st.groups).map (fun (l, g) => s.heldTokens st l g) with
  | [] => 0
  | h :: r => r.foldl min h

/-- A packed token passes a Flux engine on its way to its page (R23, R209). -/
def passToken (s : State) (core : Nat) (st : KvStream) (layer group t : Nat) : State :=
  match s.dataPage st layer group t with
  | some p => s.fluxPass (fluxBase core 2 (s.pageAddr p)) (2 * (rowBytes s + poolDh s / 32))
  | none => s

/-- The append of an ATTN (R209, R213, R214): the owner alone, at position LENGTH of the stream and of its layer and
group, within the stream's room. LENGTH rises when every layer and group holds the tokens. -/
def appendAll (s : State) (id core layer group pos : Nat) (rows : List (List Val × List Val)) : KvRes :=
  match Assoc.find? s.kvp.streams id with
  | none => .no kvStreamKind
  | some st =>
    if st.owner ≠ core then .no kvOwner
    else if pos ≠ st.length ∨ s.heldTokens st layer group ≠ pos ∨ 64 * 2 ^ st.maxp < pos + rows.length then .no kvPosition
    else if rows.isEmpty then .ok s
    else match s.appendTokens st layer group pos rows with
      | .no k => .no k
      | .ok u =>
        let u1 := (List.range rows.length).foldl (fun t i => t.passToken core st layer group (pos + i)) u
        .ok ((u1.setStream id (some { st with length := u.heldByAll st })).count Reg.kvpAppends rows.length)

/-- A granule of the bytes of a page is poisoned (R29, Table 8-12). -/
def pagePoisoned (s : State) (page : Nat) : Bool :=
  s.hbmPoison.any (fun g => decide (s.pageAddr page ≤ 64 * g + 63 ∧ 64 * g < s.pageAddr page + s.get Reg.kvpPageBytes))

/-- An ATTN unpins its epoch (R216). -/
def unpin (s : State) (e : Nat) : State :=
  ({ s with kvp := { s.kvp with pins := s.kvp.pins.erase e } }).releasePages.advanceEpoch

/-- The undo of an abort (R218): the log in reverse, and every pin dropped, which releases what only they guarded (R216). -/
def kvAbort (s : State) : State :=
  let s1 := s.kvp.undo.foldl (fun t u => match u with
    | .stream id old => t.putStream id old
    | .entry a old => { t with hbm := t.hbm.writeLE a 8 old }
    | .page id old => t.putPage id old) s
  ({ s1 with kvp := { s1.kvp with undo := [], pins := [] } }).releasePages.advanceEpoch

/-- The step passes COMMIT (R218, R216): the log empties, and pages it retired may be released. -/
def kvCommit (s : State) : State :=
  let ps := s.kvp.pages.map (fun p => (p.1, { p.2 with uncommitted := false }))
  (({ s with kvp := { s.kvp with undo := [], pages := ps } }).releasePages).advanceEpoch

/-- Training streams still open when the COMMIT gate at angle `a` is evaluated are stranded (R219): closed, raised, and
that gate held with reason ABORT. -/
def kvStrandedCheck (s : State) (a : Nat) : State :=
  let ids := (s.kvp.streams.filter (fun p => !p.2.serving)).map (fun p => p.1)
  if ids.isEmpty then s
  else
    (ids.foldl (fun t id => match t.closeStream id with
      | .ok u => u.raise srcKvp kvStranded clsU id
      | .no _ => t) s).abortAt a

/-- The audits of the KVP at COMMIT (R221): pages, pins and stream entries. -/
def kvAudit (s : State) : State :=
  let attns := (s.cores.filter (fun p => match p.2.attn with
    | some a => a.epoch.isSome
    | none => false)).length
  let s1 := s.auditPages
  let s2 := if s.kvp.pins.length = attns then s1 else s1.raise srcKvp kvLedger clsF 0
  if s.get Reg.kvpStreams = s.kvp.streams.length then s2 else s2.raise srcKvp kvLedger clsF 0

/-- The walk of R221: each data page's COUNT equals the entries that name it. -/
def walkPasses (s : State) : Bool :=
  let named := s.kvp.streams.flatMap (fun p => (s.l2Tables p.2).flatMap (fun t =>
    (s.l2Entries t.2).map (fun e => entryPage e.2)))
  (s.kvp.pages.filter (fun p => p.2.kind == .data)).all (fun p =>
    (named.filter (fun x => x == p.1)).length == p.2.count) &&
  named.all (fun x => (s.page x).kind == .data)

end State

/-- KV_AUDIT_START: a write of 1 to KVP.AUDIT.START starts the walk (R221). -/
def execKvAuditStart (s : State) : Host.Outcome State Fault Refusal :=
  if s.alive && !s.flag Reg.kvpStatusAuditBusy then
    .next (((s.put Reg.kvpStatusAuditBusy 1).put Reg.kvpAuditDone 0).put Reg.kvpAuditPass 0)
  else void s

/-- KV_AUDIT_DONE: the walk has finished (R221). -/
def execKvAuditDone (s : State) : Host.Outcome State Fault Refusal :=
  if s.alive && s.flag Reg.kvpStatusAuditBusy then
    let s1 := (s.put Reg.kvpStatusAuditBusy 0).put Reg.kvpAuditDone 1
    .next (if s.walkPasses then s1.put Reg.kvpAuditPass 1 else s1.raise srcKvp kvLedger clsF 0)
  else void s

end Sys2Proof.Machine
end

