-- ==== Sys2Proof/Machine/Attention.lean ====
section
/-!
DEFINITION. Machine/Attention.lean: the ATTN command (chapter 08): its descriptor (Table 8-1), its check (R197,
R198), masks and block classes (R202, R203), the forward, pre-pass and backward dataflows (R199, R200, R205, R206),
the edges (R204), the gather (R210), its events (R201) and its cycles (R207). The command is checked, appends, pins
and computes in one event, and completes in a second (R149, R196). One that must wait is held, and its check runs again
(R115, R197). -/

namespace Sys2Proof.Machine

/-- The fields of an attention descriptor (Table 8-1). -/
structure At where
  w : List Nat
  deriving DecidableEq, Repr

namespace At

/-- A 30-bit address word. -/
def a30 (d : At) (i : Nat) : Nat := wf d.w i 0 30
/-- G. -/
def g (d : At) : Nat := wf d.w 14 0 20 + 1
/-- Planned query rows. -/
def nq (d : At) : Nat := wf d.w 17 0 20 + 1
/-- Planned keys. -/
def nk (d : At) : Nat := wf d.w 18 0 20 + 1
/-- STREAM. -/
def stream (d : At) : Nat := wf d.w 19 0 20
/-- LAYER. -/
def layer (d : At) : Nat := wf d.w 20 0 16
/-- GROUP. -/
def group (d : At) : Nat := wf d.w 20 16 16
/-- QFMT. -/
def qf (d : At) : Nat := wf d.w 21 0 4
/-- QMX. -/
def qmx (d : At) : Nat := wf d.w 21 4 1
/-- KFMT. -/
def kf (d : At) : Nat := wf d.w 21 8 4
/-- KMX. -/
def kmx (d : At) : Nat := wf d.w 21 12 1
/-- VFMT. -/
def vf (d : At) : Nat := wf d.w 21 16 4
/-- OFMT. -/
def of (d : At) : Nat := wf d.w 21 24 4
/-- DOFMT. -/
def dof (d : At) : Nat := wf d.w 21 28 4
/-- The head dimension. -/
def dh (d : At) : Nat := if wf d.w 22 0 1 = 1 then 128 else 64
/-- SRC 1: keys in a stream. -/
def paged (d : At) : Bool := wf d.w 22 1 1 == 1
/-- APPEND. -/
def append (d : At) : Bool := wf d.w 22 2 1 == 1
/-- SHAPE_SEL. -/
def shapeSel (d : At) : Nat := wf d.w 22 4 3
/-- MASK. -/
def mask (d : At) : Nat := wf d.w 22 8 2
/-- Query rows per position. -/
def hg (d : At) : Nat := wf d.w 22 12 4 + 1
/-- SLOT_BASE. -/
def slotBase (d : At) : Nat := wf d.w 22 16 4
/-- OB_BASE. -/
def obBase (d : At) : Nat := wf d.w 23 0 22
/-- OB_SIZE. -/
def obSize (d : At) : Nat := wf d.w 24 0 22
/-- SCALE. -/
def scale (d : At) : Val := Val.ofF32 (wd d.w 16)

end At

/-- The descriptor that a command names, read from its core's Hearth (R195). -/
def atOf (s : State) (n : Nat) (v : VC) : At :=
  { w := (List.range 32).map (fun i => (s.hearth (dieOf n)).readLE (v.addr + 4 * i) 4) }

/-- The page form's format code (R208). -/
def pageCode (s : State) : Nat := if s.flag Reg.kvpCtrlForm then 4 else 0

/-! ## The check (R150, R195, R197, R198) -/

/-- The format code of P in Table 8-2; none where the combination is in no row. -/
def pCode (s : State) (func : Nat) (d : At) : Option Nat :=
  if d.paged then
    if func = 0 ∧ smallFloat d.qf = true ∧ mxOperandOk d.qf d.qmx = true ∧
       (d.append = false ∨ (7 ≤ d.kf ∧ d.kf ≤ 9 ∧ d.kmx = 0 ∧ 7 ≤ d.vf ∧ d.vf ≤ 9)) ∧
       d.dh = poolDh s then some 7 else none
  else if d.append then none
  else if d.qf = 7 ∧ d.kf = 7 ∧ d.vf = 7 ∧ d.qmx = 0 ∧ d.kmx = 0 then some 7
  else if d.qf = 8 ∧ d.kf = 8 ∧ d.vf = 8 ∧ d.qmx = 0 ∧ d.kmx = 0 then some 8
  else if d.qf ≤ 1 ∧ d.kf ≤ 1 ∧ d.vf ≤ 1 ∧ (func = 0 ∨ (d.qmx = 0 ∧ d.kmx = 0)) then some 0
  else none

/-- DOFMT as FUNC 1 and 2 take it: the products with dO and dS are pairs of Table 3-3 (R198). -/
def doOk (func : Nat) (d : At) (p : Nat) : Bool :=
  if func = 0 then true
  else if func = 2 then d.dof == 0 || d.dof == 1 || d.dof == 7 || d.dof == 8 || d.dof == 9
  else !(d.dof == 2 || d.dof == 3 || d.dof == 4) && !intCode d.dof && pairOk p d.dof && pairOk d.dof d.vf &&
    pairOk d.dof d.qf && pairOk d.dof d.kf

/-- SCALE is finite and greater than zero. -/
def scaleOk (v : Val) : Bool :=
  match v with
  | .fin n m _ => !n && m != 0
  | _ => false

/-- The fields of Table 6-2 that an ATTN leaves zero (R195). -/
def plainVector (v : VC) : Bool :=
  v.esize == 0 && !v.raw && !v.acc && v.axis == 0 && v.dst == 0 && v.sa == 0 && v.sb == 0 && v.sc == 0 && v.ba == 0 &&
  v.bb == 0 && v.bc == 0 && v.imm == 0 && v.rows == 0 && v.cols == 0 && v.drow == 0 && v.soff == 0 && v.stride == 0 &&
  v.xarg == 0

/-- Every field lies in its range and the formats are those of Table 8-2 (R197). -/
def atFieldsOk (s : State) (func : Nat) (v : VC) (d : At) : Bool :=
  plainVector v && d.mask != 3 && (d.mask != 2 || wd d.w 15 != 0) && scaleOk d.scale && d.nq % d.hg == 0 &&
  (d.of == 9 || d.of == 7 || d.of == 8 || d.of == 0 || d.of == 1) && wd d.w 30 == 0 && wd d.w 31 == 0 &&
  d.obBase % 256 == 0 && d.obSize % 256 == 0 && decide (d.obBase + d.obSize ≤ 3145728) &&
  (match pCode s func d with
   | some p => doOk func d p
   | none => false)

/-- Slots of a command (R197). -/
def atSlots (func : Nat) : Nat := if func = 0 then 3 else if func = 1 then 5 else 0

/-- r256 of n elements of a format code. -/
def r256 (n code : Nat) : Nat := roundUp (n * quarterBytes code / 4) 256

/-- bytes(attn) (R197). -/
def atBytes (s : State) (func : Nat) (d : At) : Nat :=
  if func = 2 then 0
  else
    let p := (pCode s func d).getD 7
    let kc := if d.paged then pageCode s else d.kf
    let vc := if d.paged then 7 else d.vf
    2 * (r256 (128 * d.dh) d.qf + r256 (128 * d.dh) kc + r256 (128 * d.dh) vc + r256 (128 * 128) p) +
    (if d.qmx = 1 then roundUp (2 * 128 * d.dh / 32) 256 else 0) +
    (if d.paged || d.kmx == 1 then roundUp (2 * 128 * d.dh / 32) 256 else 0) +
    (if func = 1 then 2 * (r256 (128 * d.dh) d.dof + r256 (128 * 128) d.dof) else 0)

/-- Run-time query rows. -/
def atRows (s : State) (n : Nat) (d : At) : Nat := if d.shapeSel = 0 then d.nq else s.get (Reg.coreShapeM n d.shapeSel)

/-- The run-time keys that words or shape registers give, where they give any. -/
def atKeys (s : State) (n : Nat) (d : At) : Option Nat :=
  if d.shapeSel = 0 then (if d.paged then none else some d.nk) else some (s.get (Reg.coreShapeN n d.shapeSel))

/-- The check's verdict before the stream's own tests: refuse, wait, or go on. -/
def attnCheck (s : State) (n func : Nat) (v : VC) (d : At) : Verdict :=
  let c := s.core n
  let js := (List.range (atSlots func)).map (fun i => d.slotBase + i)
  let st := js.map (fun j => Assoc.get SlotSt.free c.slotSt j)
  if !atFieldsOk s func v d then .refuse 8 0x08 0 0
  else if d.nq < atRows s n d then .refuse 4 0x09 (atRows s n d) d.nq
  else if !d.paged && decide (d.nk < (atKeys s n d).getD 0) then .refuse 4 0x09 ((atKeys s n d).getD 0) d.nk
  else if 16 < d.slotBase + atSlots func then .refuse 5 0x0A (atSlots func) (16 - d.slotBase)
  else if d.obSize < atBytes s func d then .refuse 6 0x0A (atBytes s func d) d.obSize
  else if st.any (fun x => x == .kept) then .refuse 7 0x08 0 0
  else if st.any (fun x => x != .free) || !c.queue.isEmpty then .wait
  else .accept

/-! ## Sources -/

/-- The value of a plain element. -/
def plainAt (h : Memory) (code addr stride r c : Nat) : Val :=
  match fmtOf code 0 with
  | some f => h.val f (addr + r * stride) c
  | none => .nan

/-- The value of an element under a scale byte per row and block of 32. -/
def mxAt (h : Memory) (code addr stride saddr dh r c : Nat) : Val :=
  match fmtOf code 0 with
  | some f => h.mxVal f (addr + r * stride) c (saddr + r * (dh / 32) + c / 32)
  | none => .nan

/-- An FP32 word of a row. -/
def f32At (h : Memory) (addr r : Nat) : Val := Val.ofF32 (h.word32 (addr + 4 * r))

/-- Where a token of a stream lies: its page, and whether none is found or it is poisoned. -/
structure Tok where
  page : Nat
  slot : Nat
  bad : Bool
  deriving DecidableEq, Repr

/-- The page and slot of a token, with the poison of its page (R212, Table 8-12). -/
def tokAt (s : State) (st : KvStream) (d : At) (t : Nat) : Tok :=
  match s.dataPage st d.layer d.group t with
  | some p => { page := p, slot := t % 64, bad := s.pagePoisoned p }
  | none => { page := 0, slot := 0, bad := true }

/-- The gathered blocks of 128 keys that a poisoned granule of a page poisons whole (R210, Table 8-12). -/
def badBlocks (s : State) (st : KvStream) (d : At) (nk : Nat) : List Nat :=
  (List.range (ceilDiv nk 128)).filter (fun kb =>
    (tokAt s st d (128 * kb)).bad || (decide (128 * kb + 64 < nk) && (tokAt s st d (128 * kb + 64)).bad))

/-- An element of a token's K or V row in its page. -/
def pageElem (s : State) (k : Tok) (codes scales c : Nat) : Val :=
  let f := poolFmt s
  let a := s.pageAddr k.page
  mxValue f (s.hbm.read (a + scales + k.slot * (poolDh s / 32) + c / 32)).toNat
    (s.hbm.elem (a + codes + k.slot * rowBytes s) f.width c)

/-- The V code of a token widened to BF16 (R210). -/
def widened (s : State) (k : Tok) (c : Nat) : Nat := (convert .bf16 false false (pageElem s k (offV s) (offVs s) c)).code

/-- The values that a command multiplies: Q, K and V by row and column, and its run-time counts. -/
structure Src where
  q : Nat → Nat → Val
  k : Nat → Nat → Val
  v : Nat → Nat → Val
  nq : Nat
  nk : Nat

/-- The sources of a command (R196, R210). -/
def srcOf (s : State) (n : Nat) (d : At) (st : Option KvStream) (nq nk : Nat) : Src :=
  let h := s.hearth (dieOf n)
  let q := if d.qmx = 1 then mxAt h d.qf (d.a30 0) (wf d.w 1 0 24) (d.a30 2) d.dh
           else plainAt h d.qf (d.a30 0) (wf d.w 1 0 24)
  match st with
  | some e =>
    let bad := badBlocks s e d nk
    { q := q, nq := nq, nk := nk
      k := fun j c => if bad.contains (j / 128) then .nan else pageElem s (tokAt s e d j) 0 (offKs s) c
      v := fun j c => if bad.contains (j / 128) then .nan else decodeFmt .bf16 (widened s (tokAt s e d j) c) }
  | none =>
    { q := q, nq := nq, nk := nk
      k := if d.kmx = 1 then mxAt h d.kf (d.a30 3) (wf d.w 4 0 24) (d.a30 5) d.dh
           else plainAt h d.kf (d.a30 3) (wf d.w 4 0 24)
      v := plainAt h d.vf (d.a30 6) (wf d.w 7 0 24) }

/-! ## Masks and classes (R202, R203) -/

/-- The position of query row r. -/
def qPos (d : At) (r : Nat) : Nat := wd d.w 12 + r / d.hg

/-- The position of key j. -/
def kPos (d : At) (j : Nat) : Nat := if d.paged then j else wd d.w 13 + j

/-- Table 8-3. -/
def allowed (d : At) (r j : Nat) : Bool :=
  let q := qPos d r / d.g
  let k := kPos d j / d.g
  if d.mask = 0 then true
  else if d.mask = 1 then decide (k ≤ q)
  else decide (k ≤ q ∧ q - k < wd d.w 15)

/-- The classes of a block. -/
inductive Block where
  | skipped | full | part
  deriving DecidableEq, Repr

/-- The valid indices of a block. -/
def blockIdx (b n : Nat) : List Nat := (List.range (min 128 (n - 128 * b))).map (fun i => 128 * b + i)

/-- The class of block (qb, kb) (R203). -/
def classOf (d : At) (nq nk qb kb : Nat) : Block :=
  let rs := blockIdx qb nq
  let js := blockIdx kb nk
  match rs.head?, rs.getLast?, js.head?, js.getLast? with
  | some r0, some r1, some j0, some j1 =>
    let qlo := qPos d r0 / d.g
    let qhi := qPos d r1 / d.g
    let klo := kPos d j0 / d.g
    let khi := kPos d j1 / d.g
    if d.mask != 0 && decide (qhi < klo) then .skipped
    else if d.mask = 2 ∧ khi ≤ qlo ∧ wd d.w 15 ≤ qlo - khi then .skipped
    else if rs.length = 128 ∧ js.length = 128 ∧ rs.all (fun r => js.all (allowed d r)) = true then .full
    else .part
  | _, _, _, _ => .skipped

/-! ## Arithmetic -/

/-- An event of an ATTN: its engine (0 array, 1 vector), and its place. -/
structure AEv where
  src : Nat
  ev : Event
  deriving DecidableEq, Repr

/-- A step of vector work that keeps a new event: a NaN that came in is no new event. -/
def newEv (r : Res) : Option Cause :=
  match r.ev with
  | some .nanOperand => none
  | e => e

/-- A tree of R164 over the four column ranges (R200): (t0 ∘ t1) ∘ (t2 ∘ t3), with the events it makes. -/
def tree4 (func : Nat) (rz : Bool) (vs : List Nat) : Nat × List Cause :=
  let t := (List.range 4).map (fun i => tree func rz 5 1 ((vs.drop (32 * i)).take 32))
  let g := fun i => (t.getD i (0, [])).1
  let a := redOp func rz (g 0) (g 1)
  let b := redOp func rz (g 2) (g 3)
  let c := redOp func rz a.code b.code
  (c.code, (t.flatMap (fun x => x.2)).filterMap (fun e => if e.2 = .nanOperand then none else some e.2) ++
    [a, b, c].filterMap newEv)

/-- One array product over a list of terms, from an accumulator: groups of 32, with the events (R82, R94). Only a
NaN read from memory (`mem`) is a NaN operand. -/
def product (rz : Bool) (acc g0 : Nat) (ts : List Term) (mem : Term → Bool) : Nat × List (Nat × Cause) :=
  let r := accumulate rz acc g0 (groupsOf (ceilDiv ts.length 32) (ts.map some))
  (r.1, r.2.filter (fun (g, c) => c != .nanOperand || ((ts.drop (32 * (g - g0))).take 32).any mem))

/-- Both operands come from memory. -/
def memBoth (t : Term) : Bool := t.a.isNan || t.b.isNan
/-- The second operand comes from memory. -/
def memB (t : Term) : Bool := t.b.isNan

/-- Array events at output (row, col) of the block. -/
def arrayEvs (qb kb row col : Nat) (es : List (Nat × Cause)) : List AEv :=
  es.map (fun (g, c) => ⟨0, { cause := c, mt := qb, nt := kb, row := row, col := col, kblk := g }⟩)

/-- A vector event at row r and column c of a block; `mt` is a free value.
DESIGN CHOICE (notes/assumptions/146): ROW and COL are those of the 32 × 32 tile of the block in which the element lies, as
chapter 08 names no place for a vector event of an ATTN. -/
def vecEv (mt r c : Nat) (cause : Cause) : AEv :=
  ⟨1, { cause := cause, mt := mt, nt := 0, row := r % 32, col := laneOf (r % 32) (c % 32), kblk := 0 }⟩

/-- An event list of an optional cause. -/
def vecEvs (mt r c : Nat) (o : Option Cause) : List AEv :=
  match o with
  | some e => [vecEv mt r c e]
  | none => []

/-- −∞ as a binary32 code; EMPTY of R199. -/
def negInf : Nat := 0xFF800000

/-- The scaled scores of one row of a block: binary32 codes of 128 columns, with events of the array and of the
scaling. A column that is masked or past the keys holds −∞ (R199, R201). -/
def scoreRow (d : At) (x : Src) (rz : Bool) (mt qb kb r : Nat) : List Nat × List AEv × List AEv :=
  let cols := (List.range 128).map (fun c =>
    let j := 128 * kb + c
    if x.nk ≤ j then (negInf, ([] : List AEv), ([] : List AEv))
    else
      let ts := (List.range d.dh).map (fun e => (⟨x.q r e, x.k j e⟩ : Term))
      let p := product rz 0 0 ts memBoth
      let z := Val.ofF32 p.1
      let sc := resOf rz [z, d.scale] (z.mul d.scale)
      (if allowed d r j then sc.code else negInf, arrayEvs qb kb (r % 128) c p.2, vecEvs mt r c (newEv sc)))
  (cols.map (fun t => t.1), cols.flatMap (fun t => t.2.1), cols.flatMap (fun t => t.2.2))

/-- The running state of one query row: m, l and o as binary32 codes. -/
structure Row where
  m : Nat
  l : Nat
  o : List Nat
  deriving DecidableEq, Repr

/-- A row before its first block (R199). -/
def Row.init (dh : Nat) : Row := { m := negInf, l := 0, o := List.replicate dh 0 }

/-- What one row of a computed block leaves: its state, and the events of each line of R199: S, the vector work up to P, PV,
and the rescaling of o. -/
structure RowRes where
  row : Row
  sEvs : List AEv
  pEvs : List AEv
  pvEvs : List AEv
  oEvs : List AEv
  deriving DecidableEq, Repr

/-- One row of one computed block (R199). -/
def forwardRow (d : At) (x : Src) (rz special : Bool) (pf : Fmt) (mt qb kb r : Nat) (w : Row) : RowRes :=
  let (sc, ae, ve) := scoreRow d x rz mt qb kb r
  let mx := tree4 1 rz sc
  let mn := redOp 1 rz w.m mx.1
  let mnv := Val.ofF32 mn.code
  let un := fun (v : Val) =>
    let e := v.add mnv.negate
    resOf rz [v, mnv] (Fn.exp e)
  let low := mnv == .inf true
  let a : Res := if low then ⟨0x3F800000, none⟩ else un (Val.ofF32 w.m)
  let ps : List Res := sc.map (fun c => if low then ⟨0, none⟩ else un (Val.ofF32 c))
  let sum := tree4 0 rz (ps.map Res.code)
  let av := Val.ofF32 a.code
  let lv := Val.ofF32 w.l
  let sv := Val.ofF32 sum.1
  let l := resOf rz [lv, av, sv] ((lv.mul av).add sv)
  let pc := ps.map (fun p => convert pf rz special (Val.ofF32 p.code))
  let pv := (List.range d.dh).map (fun n =>
    let ts := (List.range (min 128 (x.nk - 128 * kb))).map (fun c =>
      (⟨decodeFmt pf (pc.getD c ⟨0, none⟩).code, x.v (128 * kb + c) n⟩ : Term))
    product rz 0 0 ts memB)
  let o := (pv.zipIdx).map (fun (p, n) =>
    let ov := Val.ofF32 (w.o.getD n 0)
    let pvv := Val.ofF32 p.1
    resOf rz [ov, av, pvv] ((ov.mul av).add pvv))
  { row := { m := mn.code, l := l.code, o := o.map Res.code }
    sEvs := ae
    pEvs := ve ++ vecEvs mt r 0 (newEv a) ++ (ps.zipIdx).flatMap (fun (p, c) => vecEvs mt r c (newEv p)) ++
      sum.2.map (vecEv mt r 0) ++ vecEvs mt r 0 (newEv l) ++ (pc.zipIdx).flatMap (fun (p, c) => vecEvs mt r c p.ev)
    pvEvs := (pv.zipIdx).flatMap (fun (p, n) => arrayEvs qb kb (r % 128) n p.2)
    oEvs := (o.zipIdx).flatMap (fun (p, n) => vecEvs mt r n (newEv p)) }

/-- What a command does: Hearth, events in order, and the counts of Table 8-14 and of R207. -/
structure AttnRes where
  h : Memory
  evs : List AEv
  blocks : Nat
  skipped : Nat
  empty : Nat
  cycles : Nat
  array : Nat
  deriving DecidableEq, Repr

/-- Cycles of a product of rate q/2 (R207). -/
def prodCycles (a b : Nat) : Nat :=
  if a = 7 ∨ a = 8 then 256 else if a = 4 ∧ b = 4 then 64 else 128

/-- The array's cycles of a computed block (Table 8-5). -/
def blockArray (s : State) (func : Nat) (d : At) (p : Nat) : Nat :=
  let kc := if d.paged then pageCode s else d.kf
  let vc := if d.paged then 7 else d.vf
  if func = 0 then prodCycles d.qf kc + prodCycles p vc
  else prodCycles d.qf kc + prodCycles p d.dof + prodCycles d.dof vc + prodCycles d.dof d.qf + prodCycles d.dof kc

/-- The cycles of a computed block (Table 8-5). -/
def blockCycles (func array : Nat) (b : Block) : Nat :=
  max array (match b, func with
    | .full, 0 => 672
    | .full, _ => 960
    | _, 0 => 736
    | _, _ => 1024)

/-- The K and V of a key block as the gather stages them: a poisoned block is staged as poison (R210, Table 8-12). -/
def stage (s : State) (d : At) (st : KvStream) (nk kb : Nat) (h : Memory) : Memory :=
  let rb := rowBytes s
  let dh := poolDh s
  let size := 128 * rb + 4 * dh + 256 * dh
  let base := d.a30 11 + (kb % 2) * size
  if (badBlocks s st d nk).contains kb then h.poison base size
  else (blockIdx kb nk).foldl (fun h j =>
    let k := tokAt s st d j
    let i := j % 128
    let a := s.pageAddr k.page
    let h1 := h.writeBytes (base + i * rb) (s.hbm.readBytes (a + k.slot * rb) rb)
    let h2 := h1.writeBytes (base + 128 * rb + i * (dh / 32)) (s.hbm.readBytes (a + offKs s + k.slot * (dh / 32)) (dh / 32))
    (List.range dh).foldl (fun h c => h.writeLE (base + 128 * rb + 4 * dh + 2 * (i * dh + c)) 2 (widened s k c)) h2) h

/-- One key block for a whole query block of the forward command.
DESIGN CHOICE (notes/assumptions/146): the events of a block are in the order of the lines of R199, each line's over the rows of
the block, as R207 gives the engines' cycles per block and not per line. -/
def forwardBlock (s : State) (d : At) (x : Src) (v : VC) (pf : Fmt) (p mt qb kb : Nat) (st : Option KvStream)
    (acc : List Row × AttnRes) : List Row × AttnRes :=
  let (rows, r) := acc
  match classOf d x.nq x.nk qb kb with
  | .skipped => (rows, { r with skipped := r.skipped + 1, cycles := r.cycles + 4 })
  | b =>
    let out := ((blockIdx qb x.nq).zip rows).map (fun (i, w) => forwardRow d x v.rz v.special pf mt qb kb i w)
    let arr := blockArray s 0 d p
    (out.map RowRes.row,
     { r with
       h := match st with
         | some e => stage s d e x.nk kb r.h
         | none => r.h
       evs := r.evs ++ out.flatMap RowRes.sEvs ++ out.flatMap RowRes.pEvs ++ out.flatMap RowRes.pvEvs ++
         out.flatMap RowRes.oEvs
       blocks := r.blocks + 1
       cycles := r.cycles + blockCycles 0 arr b
       array := r.array + arr })

/-- The end of a query row: its output row and its lse, with the events (R199, R204). -/
def finishRow (d : At) (v : VC) (fo : Fmt) (mt r : Nat) (w : Row) (h : Memory) : Memory × List AEv × Bool :=
  let lv := Val.ofF32 w.l
  let addr := d.a30 8 + r * wf d.w 9 0 24
  if lv.isZero && !lv.neg? then
    ((List.range d.dh).foldl (fun h n => h.writeElem addr fo.width n 0) (h.writeLE (d.a30 10 + 4 * r) 4 negInf), [], true)
  else
    let mv := Val.ofF32 w.m
    let lse := resOf v.rz [mv, lv] (mv.add (Fn.log lv))
    let outs := (w.o.zipIdx).map (fun (o, n) =>
      let ov := Val.ofF32 o
      let q := Fn.div ov lv
      let k := convert fo v.rz v.special q
      (n, k.code, if ov.isNan || lv.isNan then none else if q.isNan then some Cause.invalid else k.ev))
    (outs.foldl (fun h (n, c, _) => h.writeElem addr fo.width n c) (h.writeLE (d.a30 10 + 4 * r) 4 lse.code),
     outs.flatMap (fun (n, _, e) => vecEvs mt r n e) ++ vecEvs mt r 0 (newEv lse), false)

/-- FUNC 0 (R199). -/
def forward (s : State) (n : Nat) (v : VC) (d : At) (st : Option KvStream) (nq nk : Nat) : AttnRes :=
  let x := srcOf s n d st nq nk
  let p := (pCode s 0 d).getD 7
  let pf := (fmtOf p 0).getD .bf16
  let fo := (fmtOf d.of 0).getD .fp32
  let mt := s.free % 65536
  let r0 : AttnRes := ⟨s.hearth (dieOf n), [], 0, 0, 0, 280, 0⟩
  (List.range (ceilDiv nq 128)).foldl (fun r qb =>
    let rows := (blockIdx qb nq).map (fun _ => Row.init d.dh)
    let (rows, r) := (List.range (ceilDiv nk 128)).foldl (fun a kb => forwardBlock s d x v pf p mt qb kb st a) (rows, r)
    let r := { r with cycles := r.cycles + 320 }
    ((blockIdx qb nq).zip rows).foldl (fun r (i, w) =>
      let (h, es, e) := finishRow d v fo mt i w r.h
      { r with h := h, evs := r.evs ++ es, empty := r.empty + b2n e }) r) r0

/-- FUNC 2 (R205). -/
def prepass (s : State) (n : Nat) (v : VC) (d : At) (nq : Nat) : AttnRes :=
  let mt := s.free % 65536
  let h0 := s.hearth (dieOf n)
  let r0 : AttnRes := ⟨h0, [], 0, 0, 0, 8 + 160 * ceilDiv nq 128, 0⟩
  (List.range nq).foldl (fun r i =>
    if h0.word32 (d.a30 10 + 4 * i) = negInf then
      { r with h := r.h.writeLE (d.a30 29 + 4 * i) 4 0, empty := r.empty + 1 }
    else
      let ps := (List.range 128).map (fun c =>
        if c < d.dh then
          let a := plainAt h0 d.dof (d.a30 25) (wf d.w 9 0 24) i c
          let b := plainAt h0 d.of (d.a30 8) (wf d.w 9 0 24) i c
          resOf v.rz [a, b] (a.mul b)
        else ⟨0, none⟩)
      let t := tree4 0 v.rz (ps.map Res.code)
      { r with h := r.h.writeLE (d.a30 29 + 4 * i) 4 t.1
               evs := r.evs ++ (ps.zipIdx).flatMap (fun (p, c) => vecEvs mt i c p.ev) ++ t.2.map (vecEv mt i 0) }) r0

/-- What one row of a computed backward block leaves: p and dS as operand values, and the events of each line of R206: S, p,
dP and dS. -/
structure BackRes where
  p : List Val
  ds : List Val
  sEvs : List AEv
  pEvs : List AEv
  dpEvs : List AEv
  dsEvs : List AEv

/-- One row of a computed backward block (R206). -/
def backRow (h0 : Memory) (d : At) (x : Src) (v : VC) (pf df : Fmt) (mt qb kb r : Nat) : BackRes :=
  let (sc, ae, ve) := scoreRow d x v.rz mt qb kb r
  let lc := h0.word32 (d.a30 10 + 4 * r)
  let lse := Val.ofF32 lc
  let dv := f32At h0 (d.a30 29) r
  let ps : List Res := sc.map (fun c =>
    let z := Val.ofF32 c
    if lc = negInf ∨ c = negInf then ⟨0, none⟩ else resOf v.rz [z, lse] (Fn.exp (z.add lse.negate)))
  let pc := ps.map (fun p => convert pf v.rz v.special (Val.ofF32 p.code))
  let js := blockIdx kb x.nk
  let dps := js.map (fun j =>
    let ts := (List.range d.dh).map (fun e =>
      (⟨plainAt h0 d.dof (d.a30 25) (wf d.w 9 0 24) r e, x.v j e⟩ : Term))
    product v.rz 0 0 ts memBoth)
  let ds := (dps.zipIdx).map (fun (dp, c) =>
    let a := Val.ofF32 dp.1
    let t := resOf v.rz [a, dv] (a.add dv.negate)
    let pvv := Val.ofF32 (ps.getD c ⟨0, none⟩).code
    let tv := Val.ofF32 t.code
    let u := resOf v.rz [pvv, tv] (pvv.mul tv)
    let uv := Val.ofF32 u.code
    let k := convert df v.rz v.special (uv.mul d.scale)
    (k.code, [newEv t, newEv u, k.ev]))
  let memNan := fun (w : Val) => if w.isNan then [vecEv mt r 0 .nanOperand] else []
  { p := (pc.take js.length).map (fun p => decodeFmt pf p.code)
    ds := ds.map (fun t => decodeFmt df t.1)
    sEvs := ae
    pEvs := ve ++ memNan lse ++ (ps.zipIdx).flatMap (fun (p, c) => vecEvs mt r c (newEv p)) ++
      (pc.zipIdx).flatMap (fun (p, c) => vecEvs mt r c p.ev)
    dpEvs := (dps.zipIdx).flatMap (fun (p, c) => arrayEvs qb kb (r % 128) c p.2)
    dsEvs := memNan dv ++ (ds.zipIdx).flatMap (fun (t, c) => t.2.flatMap (vecEvs mt r c)) }

/-- One computed backward block: the accumulators of dK and dV (binary32 codes, by key and column), and Hearth with
dQ added (R206). The events are in the order of its lines (notes/assumptions/146). -/
def backBlock (s : State) (h0 : Memory) (d : At) (x : Src) (v : VC) (pf df : Fmt) (p mt qb kb : Nat)
    (acc : (List (List Nat) × List (List Nat)) × AttnRes) : (List (List Nat) × List (List Nat)) × AttnRes :=
  let ((dk, dv), r) := acc
  match classOf d x.nq x.nk qb kb with
  | .skipped => ((dk, dv), { r with skipped := r.skipped + 1, cycles := r.cycles + 4 })
  | b =>
    let rs := blockIdx qb x.nq
    let js := blockIdx kb x.nk
    let rows := rs.map (fun i => backRow h0 d x v pf df mt qb kb i)
    let at_ := fun (f : BackRes → List Val) (i c : Nat) => match rows[i]? with
      | some t => (f t).getD c .zero
      | none => .zero
    let pAt := at_ BackRes.p
    let sAt := at_ BackRes.ds
    let dO := fun (i e : Nat) => plainAt h0 d.dof (d.a30 25) (wf d.w 9 0 24) (128 * qb + i) e
    let one := fun (m : List (List Nat)) (f : Nat → Nat → Val) (g : Nat → Nat → Val) =>
      (m.zipIdx).map (fun (l, c) => (l.zipIdx).map (fun (a, e) =>
        product v.rz a (4 * qb) ((List.range rs.length).map (fun i => (⟨f i c, g i e⟩ : Term))) memB))
    let dv2 := one dv pAt dO
    let dk2 := one dk sAt (fun i e => x.q (128 * qb + i) e)
    let dq := (rs.zipIdx).map (fun (r, i) => (List.range d.dh).map (fun e =>
      (r, i, e, product v.rz 0 0 ((js.zipIdx).map (fun (j, c) => (⟨sAt i c, x.k j e⟩ : Term))) memB)))
    let adds := dq.flatten.map (fun (r', i, e, q) =>
      let a := d.a30 26 + r' * 4 * d.dh + 4 * e
      let old := Val.ofF32 (r.h.readLE a 4)
      let q' := Val.ofF32 q.1
      (a, i, e, q.2, resOf v.rz [old, q'] (old.add q')))
    let mevs := fun (m : List (List (Nat × List (Nat × Cause)))) =>
      (m.zipIdx).flatMap (fun (l, c) => (l.zipIdx).flatMap (fun (t, e) => arrayEvs qb kb c e t.2))
    let arr := blockArray s 1 d p
    ((dk2.map (fun l => l.map (fun t => t.1)), dv2.map (fun l => l.map (fun t => t.1))),
     { r with
       h := adds.foldl (fun h (a, _, _, _, z) => h.writeLE a 4 z.code) r.h
       evs := r.evs ++ rows.flatMap BackRes.sEvs ++ rows.flatMap BackRes.pEvs ++ mevs dv2 ++
         rows.flatMap BackRes.dpEvs ++ rows.flatMap BackRes.dsEvs ++ mevs dk2 ++
         adds.flatMap (fun (_, i, e, es, _) => arrayEvs qb kb i e es) ++
         adds.flatMap (fun (_, i, e, _, z) => vecEvs mt i e (newEv z))
       blocks := r.blocks + 1
       cycles := r.cycles + blockCycles 1 arr b
       array := r.array + arr })

/-- FUNC 1 (R206). -/
def backward (s : State) (n : Nat) (v : VC) (d : At) (nq nk : Nat) : AttnRes :=
  let x := srcOf s n d none nq nk
  let h0 := s.hearth (dieOf n)
  let p := (pCode s 1 d).getD 7
  let pf := (fmtOf p 0).getD .bf16
  let df := (fmtOf d.dof 0).getD .bf16
  let mt := s.free % 65536
  let hz := (positions nq d.dh).foldl (fun h (r, e) => h.writeLE (d.a30 26 + r * 4 * d.dh + 4 * e) 4 0) h0
  let r0 : AttnRes := ⟨hz, [], 0, 0, ((List.range nq).filter (fun i => h0.word32 (d.a30 10 + 4 * i) == negInf)).length,
    416, 0⟩
  (List.range (ceilDiv nk 128)).foldl (fun r kb =>
    let js := blockIdx kb nk
    let z := js.map (fun _ => List.replicate d.dh 0)
    let ((dk, dv), r) := (List.range (ceilDiv nq 128)).foldl (fun a qb => backBlock s h0 d x v pf df p mt qb kb a) ((z, z), r)
    let wr := fun (h : Memory) (base : Nat) (m : List (List Nat)) =>
      ((js.zip m).foldl (fun h (j, l) => (l.zipIdx).foldl (fun h (c, e) => h.writeLE (base + j * 4 * d.dh + 4 * e) 4 c) h) h)
    { r with h := wr (wr r.h (d.a30 27) dk) (d.a30 28) dv, cycles := r.cycles + 1024 }) r0

/-! ## The command -/

/-- The rows of a plain operand lie in Hearth (R532). -/
def rowsIn (code addr stride rows dh : Nat) : Bool :=
  match fmtOf code 0 with
  | some f => decide (extent addr stride rows dh f.width ≤ hearthBytes)
  | none => true

/-- Every Hearth byte that a command reads or writes exists (R196, R532). -/
def atHearthOk (s : State) (func : Nat) (d : At) (nq nk : Nat) : Bool :=
  let tok := if d.append then nq / d.hg else if d.paged then 0 else nk
  let os := wf d.w 9 0 24
  let f32s := fun i (rows : Nat) => decide (rows = 0) || decide (d.a30 i + 4 * rows ≤ hearthBytes)
  let f32m := fun i (rows : Nat) => decide (rows = 0) || decide (d.a30 i + 4 * d.dh * rows ≤ hearthBytes)
  rowsIn d.of (d.a30 8) os nq d.dh && f32s 10 nq &&
  (func = 2 || (rowsIn d.qf (d.a30 0) (wf d.w 1 0 24) nq d.dh && rowsIn d.kf (d.a30 3) (wf d.w 4 0 24) tok d.dh &&
    rowsIn d.vf (d.a30 6) (wf d.w 7 0 24) tok d.dh &&
    (d.qmx = 0 || decide (d.a30 2 + nq * (d.dh / 32) ≤ hearthBytes)) &&
    (d.kmx = 0 || decide (d.a30 5 + tok * (d.dh / 32) ≤ hearthBytes)) &&
    (!d.paged || nk = 0 || decide (d.a30 11 + 2 * (128 * rowBytes s + 260 * d.dh) ≤ hearthBytes)))) &&
  (func = 0 || (rowsIn d.dof (d.a30 25) os nq d.dh && f32s 29 nq)) &&
  (func != 1 || (f32m 26 nq && f32m 27 nk && f32m 28 nk))

/-- The Hearth ranges that a command reads and writes (R196). -/
def atRanges (s : State) (func : Nat) (d : At) (nq nk : Nat) : List Rng × List Rng :=
  let tok := if d.append then nq / d.hg else if d.paged then 0 else nk
  let ext := fun (code addr stride rows : Nat) => upTo addr (extent addr stride rows d.dh (widthOf (fmtOf code 0)))
  let os := wf d.w 9 0 24
  let out := ext d.of (d.a30 8) os nq
  let lse := (d.a30 10, 4 * nq)
  let dD := (d.a30 29, 4 * nq)
  let dO := ext d.dof (d.a30 25) os nq
  let qkv := [ext d.qf (d.a30 0) (wf d.w 1 0 24) nq, ext d.kf (d.a30 3) (wf d.w 4 0 24) tok,
    ext d.vf (d.a30 6) (wf d.w 7 0 24) tok] ++ (if d.qmx = 1 then [(d.a30 2, nq * (d.dh / 32))] else []) ++
    (if d.kmx = 1 then [(d.a30 5, tok * (d.dh / 32))] else [])
  let st := if d.paged then [(d.a30 11, 2 * (128 * rowBytes s + 260 * d.dh))] else []
  if func = 0 then (qkv ++ st, [out, lse] ++ st)
  else if func = 1 then (qkv ++ [out, lse, dD, dO], [(d.a30 26, 4 * d.dh * nq), (d.a30 27, 4 * d.dh * nk), (d.a30 28, 4 * d.dh * nk)])
  else ([out, lse, dO], [dD])

/-- The K and V rows that an append packs (R209). -/
def appendRows (s : State) (n : Nat) (d : At) (nq : Nat) : List (List Val × List Val) :=
  let h := s.hearth (dieOf n)
  if d.append then
    (List.range (nq / d.hg)).map (fun i =>
      ((List.range d.dh).map (plainAt h d.kf (d.a30 3) (wf d.w 4 0 24) i),
       (List.range d.dh).map (plainAt h d.vf (d.a30 6) (wf d.w 7 0 24) i)))
  else []

namespace State

/-- The events of an ATTN (R201, R95 to R97): each latched or counted, and one fault after the first. -/
def attnEvents (s : State) (n : Nat) (v : VC) (es : List AEv) : State :=
  let w := es.filter (fun e => watched (s.flag (Reg.coreNumctrlInfTrap n)) e.ev.cause)
  match w with
  | [] => s
  | e :: _ =>
    let tag := fun src => ({ core := n, src := src, opid := v.opid, rz := v.rz, special := v.special } : OpTag)
    (w.foldl (fun t x => t.recordEvents (tag x.src) [x.ev]) s).raiseNum (tag e.src) e.ev.cause

/-- The stream's part: the test of R213 and the append, then the entry a paged command reads. -/
def attnStream (s : State) (n func : Nat) (d : At) (nq : Nat) : KvRes :=
  if !d.paged || func != 0 then .ok s
  else match Assoc.find? s.kvp.streams d.stream with
    | none => .no kvStreamKind
    | some st =>
      if st.layers ≤ d.layer ∨ st.groups ≤ d.group then .no kvStreamKind
      else if d.append then keepChange (s.appendAll d.stream n d.layer d.group (wd d.w 12) (appendRows s n d nq))
      else .ok s

/-- Run-time keys: the words or the shape registers, and for a stream no more than LENGTH as it stands when the command pins
(R210, R214), with the tokens that the command itself has appended to its layer and group. -/
def attnKeys (s : State) (n : Nat) (d : At) : Nat :=
  if d.paged then
    match Assoc.find? s.kvp.streams d.stream with
    | some st =>
      let held := if d.append then s.heldTokens st d.layer d.group else st.length
      match atKeys s n d with
      | some k => min k held
      | none => held
    | none => 0
  else (atKeys s n d).getD 0

/-- The pages that the gather of a command reads, each as often as a computed block reads it, with its tokens there (R203,
R210). -/
def gathered (s : State) (st : KvStream) (d : At) (nq nk : Nat) : List (Nat × Nat) :=
  (positions (ceilDiv nq 128) (ceilDiv nk 128)).flatMap (fun (qb, kb) =>
    if classOf d nq nk qb kb == .skipped then []
    else [128 * kb, 128 * kb + 64].filterMap (fun t =>
      if t < nk then (s.dataPage st d.layer d.group t).map (fun p => (p, min 64 (nk - t))) else none))

/-- The granule checks of the pages that a gather reads, and its passage through Flux, which widens V (R23, R29, R210). -/
def gather (s : State) (n : Nat) (st : KvStream) (d : At) (nq nk : Nat) (ecc : List EccRes) : State :=
  let ps := s.gathered st d nq nk
  let len := s.get Reg.kvpPageBytes
  let s1 := (ps.map (fun p => p.1)).eraseDups.foldl (fun t p => t.hbmChecks (s.pageAddr p) len ecc) s
  ps.foldl (fun t (p, k) =>
    let base := fluxBase n 2 (s.pageAddr p)
    (t.fluxPass base (k * (rowBytes s + poolDh s / 32))).fluxCount base (Flux.widenStats (poolFmt s).width (k * poolDh s))) s1

/-- The granule checks of an append that copies the last page of its layer and group (R29, R215). -/
def appendChecks (s : State) (d : At) (ecc : List EccRes) : State :=
  match Assoc.find? s.kvp.streams d.stream with
  | some st =>
    let t := wd d.w 12
    match if d.append && t % 64 != 0 then s.dataPage st d.layer d.group t else none with
    | some p => if 1 < (s.page p).count then s.hbmChecks (s.pageAddr p) (s.get Reg.kvpPageBytes) ecc else s
    | none => s
  | none => s

/-- The whole effect of an accepted command (R196, R199 to R206). -/
def runAttn (s : State) (n func : Nat) (v : VC) (d : At) (nq : Nat) (ecc : List EccRes) : Host.Outcome State Fault Refusal :=
  let nk := s.attnKeys n d
  let st := if d.paged then Assoc.find? s.kvp.streams d.stream else none
  if !atHearthOk s func d nq nk then .fault .hearthRange
  else
    let s := match st with
      | some e => s.gather n e d nq nk ecc
      | none => s
    let rw := atRanges s func d nq nk
    let r : AttnRes :=
      if nq = 0 then ⟨s.hearth (dieOf n), [], 0, 0, 0, 0, 0⟩
      else if func = 0 then forward s n v d st nq nk
      else if func = 1 then backward s n v d nq nk
      else prepass s n v d nq
    let c := s.core n
    let js := (List.range (atSlots func)).map (fun i => d.slotBase + i)
    let size := if func = 2 then 0 else d.obSize
    let run : AttnRun := { opid := v.opid, slots := js, obBase := d.obBase, obBytes := size
                           epoch := if d.paged then some s.kvp.epoch else none
                           segment := c.curSeg, cycles := r.cycles, array := r.array, reads := rw.1, writes := rw.2 }
    let c1 := (Core.dispatch { c with attn := some run, waiting := none, slotSt := setSlots c.slotSt js .busy
                                      accHeld := c.accHeld + js.length, obHeld := c.obHeld + size })
    let s1 := (s.setHearth (dieOf n) r.h).setCore n c1
    let s2 := if d.paged then { s1 with kvp := { s1.kvp with pins := s1.kvp.epoch :: s1.kvp.pins } } else s1
    let s3 := ((s2.count (Reg.coreAttBlocks n) r.blocks).count (Reg.coreAttSkipped n) r.skipped).count
      (Reg.coreAttEmpty n) r.empty
    let s4 := if nq = 0 ∨ nk = 0 then s3.count (Reg.coreZeroshape n) else s3
    .next ((s4.attnEvents n v r.evs).draw)

/-- An ATTN that must wait for slots, the array, the region or a Hearth range is held (R115, R141, R197). -/
def holdAttn (s : State) (n : Nat) (ws : List Nat) : State := s.setCore n { s.core n with waiting := some ws }

/-- An ATTN at the front of its core's program: it is checked, waits, is refused, or runs (R196, R197). -/
def takeAttn (s : State) (n : Nat) (ws : List Nat) (ecc : List EccRes) : Host.Outcome State Fault Refusal :=
  let v := vcOf ws
  if !inHearth v.addr 128 then .fault .hearthRange
  else
    let d := atOf s n v
    match attnCheck s n v.func v d with
    | .wait => .next (s.holdAttn n ws)
    | .refuse reason kind need have_ => .next (s.refuseCmd n kind reason v.opid need have_)
    | .accept =>
      let nq := atRows s n d
      let rw := atRanges s v.func d nq ((atKeys s n d).getD d.nk)
      if (s.core n).mustWait rw.1 rw.2 then .next (s.holdAttn n ws)
      else match (s.appendChecks d ecc).attnStream n v.func d nq with
      | .no kind => .next (s.refuseKv n v.opid d.stream kind)
      | .ok u => u.auditPages.runAttn n v.func v d nq ecc

end State

/-- An ATTN reaches the front of its core's program. A FUNC that R195 does not define is refused by R150. -/
def attnCmd (n func : Nat) (words : List Word) (ecc : List EccRes) (s : State) : Host.Outcome State Fault Refusal :=
  let v := vcOf (natWords words)
  if !s.takesVec n 0x28 v then void s
  else if 2 < v.func then .next (s.refuseVec n v)
  else if v.func != func then void s
  else s.takeAttn n (natWords words) ecc

/-- ATTN_FORWARD: FUNC 0 (R199). `ecc` are the checks of the granules of the pages that it reads (R29). -/
def execAttnForward (core : Nat) (words : List Word) (s : State) (ecc : List EccRes := []) : Host.Outcome State Fault Refusal :=
  attnCmd core 0 words ecc s

/-- ATTN_BACKWARD: FUNC 1 (R206). -/
def execAttnBackward (core : Nat) (words : List Word) (s : State) : Host.Outcome State Fault Refusal :=
  attnCmd core 1 words [] s

/-- ATTN_PREPASS: FUNC 2 (R205). -/
def execAttnPrepass (core : Nat) (words : List Word) (s : State) : Host.Outcome State Fault Refusal :=
  attnCmd core 2 words [] s

/-- ISSUE_ACCEPT_AFTER_WAIT: the check of a waiting issue, or of a waiting ATTN, runs again (R115, R197). -/
def execIssueAcceptAfterWait (core : Nat) (s : State) (ecc : List EccRes := []) : Host.Outcome State Fault Refusal :=
  let c := s.core core
  match c.waiting with
  | some ws =>
    if s.life == .running && c.run == .running then
      if wf ws 1 0 8 = 0x28 then s.takeAttn core ws ecc
      else match issueCheck s core (mmOf ws) with
        | .wait => void s
        | _ => .next (s.takeIssue core ws)
    else void s
  | none => void s

/-- ATTN_COMPLETE: T0 to T31 are zero, the slots and the region are free, the pin is dropped (R196, R216). -/
def execAttnComplete (core : Nat) (s : State) : Host.Outcome State Fault Refusal :=
  let c := s.core core
  match c.attn with
  | none => void s
  | some a =>
    if !s.alive then void s
    else
      let c1 := { c with attn := none, tiles := .empty, slotSt := setSlots c.slotSt a.slots .free
                         accHeld := c.accHeld - a.slots.length, obHeld := c.obHeld - a.obBytes }
      let s1 := s.setCore core c1
      let s2 := match a.epoch with
        | some e => s1.unpin e
        | none => s1
      let s3 := (s2.count (Reg.coreAttCmds core)).count64 (Reg.coreBusyCyclesLo core) (Reg.coreBusyCyclesHi core) a.array
      .next ((s3.endVec core a.segment a.opid a.cycles).auditCore core)

end Sys2Proof.Machine
end

