-- ==== Sys2Proof/Machine/Transfer.lean ====
section
/-!
DEFINITION. Machine/Transfer.lean: a core's transfer engine (R141, R245, R246), XFER through Flux, the hand-over
channels (R176 to R181), and the stash engine (R225 to R237). -/

namespace Sys2Proof.Machine

/-! ## Fields -/

/-- The segment whose commands a core dispatches. -/
def Core.curRun (c : Core) : Option SegRun := c.segs.find? (fun g => g.segment == c.curSeg)

/-- The microbatch that a segment carries for a pass: that of its first descriptor of the pass, else of its first
descriptor (Tables 7-2 and 9-6). -/
def segMb (s : State) (c : Core) (pass : Nat) : Nat :=
  match c.curRun, s.billet with
  | some g, some b =>
    match g.descs.find? (fun d => match b.segDescs[d.1]? with
      | some x => x.pass == pass
      | none => false) with
    | some d => d.2
    | none => match g.descs with
      | d :: _ => d.2
      | [] => 0
  | _, _ => 0

/-- The fields of a transfer command (Table 9-6). -/
def xferOf (s : State) (n : Nat) (ws : List Nat) : Xfer :=
  let c := s.core n
  let op := wf ws 1 0 8
  { opid := wd ws 0, op := op, mode := wf ws 1 8 4, srcFmt := wf ws 1 12 4, dir := wf ws 1 16 2, haddr := wf ws 2 0 30,
    len := wf ws 3 0 31, far := wd ws 4 + 2 ^ 32 * wf ws 5 0 8, result := wf ws 6 0 30, channel := wf ws 4 0 16,
    chunk := wf ws 4 16 8, region := wf ws 4 0 6, tensor := wf ws 4 8 5
    mb := segMb s c (if op = 0x61 then wf ws 5 0 1 else 0), segment := c.curSeg }

/-- The number of a core's gang (Table 7-1), as channels and stash regions name gangs. -/
def gangNo (b : Billet) (n : Nat) : Option Nat := (b.gangs.find? (fun g => (gangCores g).contains n)).map Gang.gang

/-- The gang of a number. -/
def gangBy (b : Billet) (k : Nat) : Option Gang := b.gangs.find? (fun g => g.gang == k)

/-- A far range of a memory lies within one region of the plan that is open to core transfers (R246). -/
def planOpen (b : Billet) (mem a len : Nat) : Bool :=
  b.plan.any (fun r => r.mem == mem && r.xfer && decide (r.base ≤ a ∧ a + len ≤ r.base + r.len))

/-- Channel `k` of the billet. -/
def channelAt (s : State) (k : Nat) : Option Channel :=
  match s.billet with
  | some b => b.channels[k]?
  | none => none

/-- Stash region `r` of the billet. -/
def regionAt (s : State) (r : Nat) : Option StashRegion :=
  match s.billet with
  | some b => b.stash.regions[r]?
  | none => none

/-- The check of R246 with Tables 9-5 and 9-6: what a command does not use is zero (R245). -/
def xferOk (s : State) (n : Nat) (ws : List Nat) : Bool :=
  let x := xferOf s n ws
  match s.billet with
  | none => false
  | some b =>
    wd ws 7 == 0 && decide (wd ws 1 < 2 ^ 18) && decide (wd ws 2 < 2 ^ 30) && decide (wd ws 3 < 2 ^ 31) &&
    decide (wd ws 6 < 2 ^ 30) &&
    (if x.op = 0x60 then
      decide (wd ws 5 < 2 ^ 8) &&
      Flux.modeOk x.mode x.srcFmt && x.len % 256 == 0 && decide (256 ≤ x.len ∧ x.len ≤ 2 ^ 30) &&
      (x.dir % 2 == 0 || x.result == 0) && planOpen b (if x.dir < 2 then 2 else 3) x.far (Flux.worst x.mode x.srcFmt x.len)
    else if x.op = 0x61 then
      x.mode == 0 && x.srcFmt == 0 && x.dir == 0 && x.result == 0 && decide (wd ws 5 < 2) && decide (wd ws 4 < 2 ^ 24) &&
      (match b.channels[x.channel]? with
       | some ch => ch.prodDev == s.addr && gangNo b n == some ch.prodGang && decide (x.chunk < ch.chunks) &&
                    decide (x.len ≤ ch.slotBytes)
       | none => false)
    else
      x.mode == 0 && x.srcFmt == 0 && x.dir == 0 && x.result == 0 && wd ws 5 == 0 &&
      wd ws 4 == x.region + 2 ^ 8 * x.tensor &&
      (match b.stash.regions[x.region]? with
       | some r => gangNo b n == some r.gang && decide (x.tensor < r.tensors.length)
       | none => false))

/-- The address of the slot that the `k`-th chunk of a step takes (Table 7-3, R178). -/
def chunkAddr (ch : Channel) (k : Nat) : Nat := ch.slotAddr + k % ch.slots * ch.slotBytes

/-- A fetch's buffer is released. -/
def markReleased (region mb : Nat) (f : FetchRun) : FetchRun :=
  if f.region = region ∧ f.mb = mb then { f with released := true } else f

/-- Core `n` takes a transfer command of an OP next. -/
def takesXfer (s : State) (n op : Nat) (ws : List Nat) : Bool := s.canDispatch n && wf ws 1 0 8 == op

namespace State

/-- A transfer refused by R246: kind ISSUE illegal, REASON 0x9. -/
def refuseXfer (s : State) (n opid : Nat) : State := s.refuseCmd n 0x08 9 opid 0 0

/-- A transfer is dispatched to the transfer engine. -/
def putXfer (s : State) (n : Nat) (x : Xfer) : State :=
  s.setCore n (Core.dispatch { s.core n with xfers := (s.core n).xfers ++ [x] })

/-! ## Hand-over (R178 to R181) -/

/-- The state of channel `k`: after a reset and before a step has begun, no credit is held (Table 7-7). -/
def hand (s : State) (k : Nat) : Hand :=
  match Assoc.find? s.hands k with
  | some h => h
  | none => { credits := 0, sent := 0, transit := 0, landed := 0, full := [], bad := 0, flying := 0 }

/-- Every channel at the start of a step: every slot is empty and the producer holds SLOTS credits (R178, R181). -/
def homeHands (s : State) : List (Nat × Hand) :=
  match s.billet with
  | some b => b.channels.zipIdx.map (fun (ch, k) =>
      (k, { credits := ch.slots, sent := 0, transit := 0, landed := 0, full := [], bad := 0, flying := 0 }))
  | none => []

/-- Write the state of channel `k`. -/
def setHand (s : State) (k : Nat) (h : Hand) : State := { s with hands := Assoc.put s.hands k h }

/-- A chunk goes out for a credit (R178, R179); one bound for HBM4 of this device passes its core's Flux group (R23, R238). -/
def sendChunk (s : State) (n : Nat) (x : Xfer) : State :=
  match channelAt s x.channel with
  | none => s
  | some ch =>
    let h := s.hand x.channel
    let here := ch.consDev == s.addr
    let data := (s.hearth (dieOf n)).readBytes x.haddr x.len
    let s1 := s.setHand x.channel { h with credits := h.credits - 1, sent := h.sent + 1, transit := h.transit + 1 }
    let s1 := if here && ch.mem == 1 then s1.fluxPass (fluxBase n 2 (chunkAddr ch h.sent)) x.len else s1
    if here then s1.emit (.chunk x.channel x.mb x.chunk s.cad.attempt data)
    else s1.sendHandover ch.consDev x.channel x.mb x.chunk data

/-- The head transfer of a core is complete (R142, R388). -/
def popXfer (s : State) (n : Nat) : State :=
  let c := s.core n
  match c.xfers with
  | [] => s
  | x :: r =>
    (s.setCore n (Core.complete { c with xfers := r } x.segment)).noteDone n x.opid

/-- SENDs at the head of a core's transfer engine go while they have credits. -/
def pumpSends (s : State) (n : Nat) : Nat → State
  | 0 => s
  | k + 1 =>
    match (s.core n).xfers with
    | x :: _ =>
      if x.op = 0x61 ∧ 0 < (s.hand x.channel).credits then ((s.sendChunk n x).popXfer n).pumpSends n k else s
    | [] => s

/-- The SENDs that may go now. -/
def pump (s : State) (n : Nat) : State := s.pumpSends n (s.core n).xfers.length

/-- The rank-0 core of the gang of a number. -/
def rank0 (s : State) (gang : Nat) : Nat :=
  match s.billet with
  | some b => match gangBy b gang with
    | some g => coreOfRank g 0
    | none => 0
  | none => 0

/-- Return the credits of a channel's slots that hold a microbatch (R180). -/
def returnChannel (s : State) (k mb : Nat) : State :=
  match channelAt s k with
  | none => s
  | some ch =>
    let h := s.hand k
    let mine := (h.full.filter (fun f => f.2.1 == mb)).length
    let h1 := { h with full := h.full.filter (fun f => f.2.1 != mb) }
    let s1 := s.setHand k { h1 with flying := h.flying + mine }
    if mine = 0 then s
    else if ch.prodDev = s.addr then s1
    else (List.range mine).foldl (fun t _ => t.sendHoCredit ch.prodDev k) s1

end State

/-- The microbatches whose chunks a channel carries in a step, in the order of the consumer's STAGE_START entries
(R180). -/
def channelOrder (s : State) (k : Nat) : List Nat :=
  match s.billet with
  | none => []
  | some b =>
    (s.cad.strike.filter (fun e => e.kind == 1 && firesIn e (stepOf s.cad.angle) && (match b.segDescs[e.target]? with
      | some d => d.inCh.contains k
      | none => false))).map (fun e => e.arg)

/-- Where a chunk lands: Hearth of the consumer's die, or HBM4 (Table 7-3). -/
def slotDie (s : State) (ch : Channel) : Nat := dieOf (s.rank0 ch.consGang)

/-- Every chunk of a channel's microbatch has landed with a correct tag (R180). -/
def channelHolds (s : State) (k mb : Nat) : Bool :=
  match channelAt s k with
  | some ch => ((s.hand k).full.filter (fun f => f.2.1 == mb)).length == ch.chunks
  | none => false

/-- The pool of a channel adds up, for each end that this device holds (R181): credits, chunks and credits on their way and
full slots make SLOTS; of a channel of two devices, the producer's credits and those it has spent do, and the consumer's
slots are those landed and not given back.
DESIGN CHOICE (notes/assumptions/148): each device checks its own end of such a channel, as no message of the spec carries the
other end's share. -/
def handBalanced (s : State) (k : Nat) : Bool :=
  match channelAt s k with
  | none => true
  | some ch =>
    let h := s.hand k
    let held := h.full.length + h.bad
    if ch.prodDev = s.addr ∧ ch.consDev = s.addr then h.credits + h.transit + held + h.flying == ch.slots
    else (ch.prodDev != s.addr || h.credits + h.transit == ch.slots) &&
      (ch.consDev != s.addr || (held + h.flying == h.landed && decide (held ≤ ch.slots)))

/-- R181's audit of every channel. -/
def State.auditHands (s : State) : State :=
  s.hands.foldl (fun t p => if handBalanced t p.1 then t
    else match channelAt t p.1 with
      | some ch => t.raise (srcIssue (t.rank0 ch.consGang)) 0x0E clsF (p.1 % 2 ^ 16)
      | none => t) s

/-- SEND: a credit is spent and a chunk goes to the consumer's next slot; without a credit the transfer engine stalls
(R178). -/
def execSend (core : Nat) (words : List Word) (s : State) : Host.Outcome State Fault Refusal :=
  let ws := natWords words
  let x := xferOf s core ws
  if !takesXfer s core 0x61 ws then void s
  else if !xferOk s core ws then .next (s.refuseXfer core x.opid)
  else if (s.core core).mustWait x.reads [] then void s
  else if !inHearth x.haddr x.len then .fault .hearthRange
  else .next ((s.putXfer core x).pump core)

/-- CHUNK_LANDED: a chunk reaches a consumer slot on this device and its tag is checked (R179). A chunk of a wrong tag fills
its slot, which is not read. -/
def execChunkLanded (channel mb chunk attempt : Nat) (data : List Byte) (s : State) : Host.Outcome State Fault Refusal :=
  match channelAt s channel with
  | none => void s
  | some ch =>
    let h := s.hand channel
    let r0 := s.rank0 ch.consGang
    let here := ch.prodDev == s.addr
    if !s.alive || ch.consDev != s.addr then void s
    else if attempt ≠ s.cad.attempt then .next (s.count (Reg.coreHoStale r0))
    else if here && h.transit == 0 then void s
    else
      let h1 := { h with transit := if here then h.transit - 1 else h.transit }
      let expect := (channelOrder s channel)[h.landed / ch.chunks]?
      if expect = some mb ∧ chunk = h.landed % ch.chunks ∧ h.full.length + h.bad < ch.slots then
        let slot := h.landed % ch.slots
        let a := chunkAddr ch h.landed
        let bs := data.take ch.slotBytes
        if ch.mem = 0 ∧ inHearth a bs.length = false then .fault .hearthRange
        else
          let s1 := s.setHand channel { h1 with landed := h.landed + 1, full := h.full ++ [(slot, mb, chunk)] }
          let s2 := if ch.mem = 0 then s1.setHearth (slotDie s ch) ((s1.hearth (slotDie s ch)).writeBytes a bs)
                    else (if here then s1 else s1.fluxPass (groupBase (slotDie s ch) 0 2 a) bs.length).writeHbm a bs
          .next (s2.count (Reg.coreHoRx r0))
      else
        let s1 := s.setHand channel { h1 with landed := h.landed + 1, bad := h.bad + 1 }
        .next (((s1.count (Reg.coreHoTagerr r0)).raise (srcIssue r0) 0x0D clsU (channel % 2 ^ 16 + r0 * 2 ^ 32)).abortHold)

/-- HO_CREDIT: a credit reaches the producer, and a stalled SEND proceeds (R178, R180). -/
def execHoCredit (channel : Nat) (s : State) : Host.Outcome State Fault Refusal :=
  match channelAt s channel with
  | none => void s
  | some ch =>
    let h := s.hand channel
    let here := ch.consDev == s.addr
    if !s.alive || ch.prodDev != s.addr || (here && h.flying == 0) || decide (ch.slots ≤ h.credits) then void s
    else
      let s1 := s.setHand channel
        (if here then { h with credits := h.credits + 1, flying := h.flying - 1 }
         else { h with credits := h.credits + 1, transit := h.transit - 1 })
      let cs := match s.billet with
        | some b => match gangBy b ch.prodGang with
          | some g => (List.range 192).filter (fun n => (gangCores g).contains n)
          | none => []
        | none => []
      .next (cs.foldl State.pump s1)

/-! ## XFER -/

/-- XFER: the command is checked and goes to the transfer engine (R245, R246). -/
def execXfer (core : Nat) (words : List Word) (s : State) : Host.Outcome State Fault Refusal :=
  let ws := natWords words
  let x := xferOf s core ws
  if !takesXfer s core 0x60 ws then void s
  else if !xferOk s core ws then .next (s.refuseXfer core x.opid)
  else if (s.core core).mustWait x.reads x.writes then void s
  else .next ((s.putXfer core x).pump core)

namespace State

/-- Bytes of a write to HBM4 that land in a bucket's fill count there; a count above FILL_BYTES is raised and the
next gate held (R328). -/
def fillBuckets (s : State) (a len : Nat) : State :=
  match s.billet with
  | none => s
  | some b =>
    (b.buckets.zipIdx).foldl (fun t (k, i) =>
      let lo := max a k.addr
      let hi := min (a + len) (k.addr + k.fill)
      let new := hi - lo
      let old := Assoc.get 0 t.bucketFill i
      if new = 0 then t
      else if k.fill < old + new then (t.raise srcBellows 0x49 clsU (t.addr % 2 ^ 14)).abortHold
      else { t with bucketFill := Assoc.set 0 t.bucketFill i (old + new) }) s

/-- The whole move of an XFER, in its direction and mode (R238 to R245). -/
def moveXfer (s : State) (n : Nat) (x : Xfer) (ecc : List EccRes) : State :=
  let mem := if x.dir < 2 then 2 else 3
  let base := fluxBase n mem x.far
  let die := dieOf n
  if x.dir % 2 = 0 then
    let (bs, st) := Flux.encode (s.hearth die) x.mode x.srcFmt x.haddr x.len
    let bytes := bs.map (BitVec.ofNat 8)
    let s1 := if mem = 2 then (s.writeHbm x.far bytes).fillBuckets x.far bytes.length else s.writeStock x.far bytes
    let s2 := s1.fluxCount base st
    if x.result = 0 then s2
    else s2.setHearth die ((s2.hearth die).writeLE x.result 4 bytes.length)
  else
    let room := Flux.worst x.mode x.srcFmt x.len
    let s1 := if mem = 2 then s.hbmChecks x.far room ecc else s.stockChecks x.far room ecc
    let m := if mem = 2 then s1.hbm else s1.stock
    let bad := fun off len => if mem = 2 then s1.hbmBad (x.far + off) len else s1.stockBad (x.far + off) len
    let blks := Flux.decode bad x.mode x.srcFmt x.len ((m.readBytes x.far room).map BitVec.toNat)
    s1.landBlocks die (fun _ => base) x.haddr (fun off => x.far + off) blks

end State

/-- XFER_COMPLETE: the transfer at the head of a core's transfer engine has moved its data, and its coded length is
at RESULT (R245); `ecc` are the results of the granule checks of its reads (R29). -/
def execXferComplete (core : Nat) (ecc : List EccRes) (s : State) : Host.Outcome State Fault Refusal :=
  match (s.core core).xfers with
  | [] => void s
  | x :: _ =>
    if !s.alive || x.op != 0x60 then void s
    else if !inHearth x.haddr x.len || (x.result != 0 && !inHearth x.result 4) then .fault .hearthRange
    else .next (((s.moveXfer core x ecc).popXfer core).pump core)

/-! ## The stash (R225 to R237) -/

/-- Bytes of a stash slot (R227). -/
def stashSlot (s : State) : Nat := 2 ^ s.get Reg.sthCfgSlotLog2

/-- Slots of a region's tier: Hearth, HBM4, or the shared Stock reservation (R227). -/
def tierSlots (s : State) (r : StashRegion) (tier : Nat) : Nat :=
  if tier = 0 then r.hearthSlots else if tier = 1 then r.hbmSlots else s.get Reg.sthStockSlots

/-- Address of slot 0 of a tier. -/
def tierBase (s : State) (r : StashRegion) (tier : Nat) : Nat :=
  if tier = 0 then r.hearthAddr else if tier = 1 then r.hbmAddr else s.get64 Reg.sthStockBaseLo Reg.sthStockBaseHi

/-- The slots held of a tier, rising: those of the region, or of all regions for Stock. -/
def heldOf (s : State) (region tier : Nat) : List Nat :=
  ((s.stash.filter (fun e => e.tier == tier && (tier == 2 || e.region == region))).flatMap (fun e => e.slots)).foldl
    (fun l a => insertNat a l) []

/-- The die of a region: its gang's die (Table 9-1). -/
def regionDie (s : State) (r : StashRegion) : Nat := dieOf (s.rank0 r.gang)

namespace State

/-- Every tier's free slots when no entry is held (R227, R237). -/
def homeFree (s : State) : List (Nat × Nat) :=
  match s.billet with
  | some b => b.stash.regions.zipIdx.flatMap (fun (r, i) => [(3 * i, r.hearthSlots), (3 * i + 1, r.hbmSlots)]) ++
      [(2, s.get Reg.sthStockSlots)]
  | none => []

/-- The free slots of a tier of a region (R236). -/
def freeSlots (s : State) (region tier : Nat) : Nat :=
  Assoc.get 0 s.stashFree (if tier = 2 then 2 else 3 * region + tier)

/-- Change the free slots of a tier. -/
def setFree (s : State) (region tier v : Nat) : State :=
  { s with stashFree := Assoc.put s.stashFree (if tier = 2 then 2 else 3 * region + tier) v }

/-- The register of a tier's held slots (Table 9-9). -/
def heldReg (tier : Nat) : Fld := if tier = 0 then Reg.sthHeldHearth else if tier = 1 then Reg.sthHeldHbm else Reg.sthHeldStock

/-- An entry is placed: it takes its slots (R229). -/
def placeEntry (s : State) (e : StashEntry) : State :=
  let k := e.slots.length
  let s1 := ({ s with stash := s.stash ++ [e] }).setFree e.region e.tier (s.freeSlots e.region e.tier - k)
  (s1.put Reg.sthEntries (s1.get Reg.sthEntries + 1)).put (heldReg e.tier) (s1.get (heldReg e.tier) + k)

/-- An entry is released: its slots are free (R234). -/
def freeEntry (s : State) (e : StashEntry) : State :=
  let k := e.slots.length
  let s1 := ({ s with stash := s.stash.erase e }).setFree e.region e.tier (s.freeSlots e.region e.tier + k)
  (s1.put Reg.sthEntries (s1.get Reg.sthEntries - 1)).put (heldReg e.tier) (s1.get (heldReg e.tier) - k)

/-- Pick `k` free slots of a tier of `total` slots: which ones is left open by R227, so each is a free value. -/
def pickSlots (s : State) (total : Nat) : Nat → List Nat → State × List Nat
  | 0, _ => (s, [])
  | k + 1, held =>
    let n := total - held.length
    let id := kthFree held (s.free % n)
    let r := pickSlots s.draw total k (insertNat id held)
    (r.1, id :: r.2)

/-- A fault of the stash engine, recorded in LAST_FAULT (R230). -/
def stashRaise (s : State) (kind cls r t mb : Nat) : State :=
  (((s.put Reg.sthLastFaultRegion r).put Reg.sthLastFaultTensor t).put Reg.sthLastFaultMb mb).raise srcStash kind cls
    (r % 64 + t % 32 * 2 ^ 8 + mb % 64 * 2 ^ 16)

/-- A class U fault of the stash engine, with the gang's next gate held (R230 to R232). -/
def stashFault (s : State) (kind r t mb : Nat) : State := (s.stashRaise kind clsU r t mb).abortHold

/-- A tier's pool adds up: its free slots and its held slots are its slots (R236). -/
def tierOk (s : State) (region tier slots : Nat) : Bool := s.freeSlots region tier + (heldOf s region tier).length == slots

/-- The pools of R236: free and held slots of every tier, the slots of the entries, and the entries. -/
def stashBalanced (s : State) : Bool :=
  let held := fun tier => ((s.stash.filter (fun e => e.tier == tier)).map (fun e => e.slots.length)).foldl (· + ·) 0
  s.get Reg.sthEntries == s.stash.length && s.get Reg.sthHeldHearth == held 0 && s.get Reg.sthHeldHbm == held 1 &&
  s.get Reg.sthHeldStock == held 2 &&
  (match s.billet with
   | some b => b.stash.regions.isEmpty || (s.tierOk 0 2 (s.get Reg.sthStockSlots) &&
       b.stash.regions.zipIdx.all (fun (r, i) => s.tierOk i 0 r.hearthSlots && s.tierOk i 1 r.hbmSlots))
   | none => s.stash.isEmpty)

/-- R236's check, after a placement or release of a tensor.
DESIGN CHOICE (notes/assumptions/147): where no one entry is concerned (an abort, a core reset, COMMIT), its address is zero. -/
def auditStash (s : State) (r t mb : Nat) : State := if s.stashBalanced then s else s.stashRaise 0x24 clsF r t mb

/-- Stash entries and the fetch buffer of a region's microbatch are released (R234). -/
def releaseStash (s : State) (r mb : Nat) : State :=
  let s1 := (s.stash.filter (fun e => e.region == r && e.mb == mb)).foldl freeEntry s
  ({ s1 with fetches := s1.fetches.map (markReleased r mb) }).auditStash
    r 0 mb

/-- An abort, core reset or a new step returns every tier, buffer and window home (R235, R237). -/
def clearStash (s : State) : State :=
  let s1 := { s with stash := [], fetches := [], spills := [], stashFree := s.homeFree }
  ((((s1.put Reg.sthEntries 0).put Reg.sthHeldHearth 0).put Reg.sthHeldHbm 0).put Reg.sthHeldStock 0).auditStash 0 0 0

/-- The first tier from the target down with room for `need` slots (R229). -/
def placeTier (s : State) (region need target : Nat) : Option Nat :=
  (List.range 3).find? (fun t => decide (target ≤ t) && decide (need ≤ s.freeSlots region t))

end State

/-- The window of (r, j) is open: its SPILL_OPEN has fired and its SPILL_CLOSE has not (R231). -/
def windowOpen (s : State) (r mb : Nat) : Bool := s.spills.any (fun w => w.region == r && w.mb == mb && !w.closed)

/-- Tensor `t` of (r, j) is stashed. -/
def stashed (s : State) (r mb t : Nat) : Bool := s.stash.any (fun e => e.region == r && e.mb == mb && e.tensor == t)

/-- STASH: the window is checked, the entry is placed and the encoding starts (R228 to R231). It begins when the
core's transfer engine is free. -/
def execStash (core : Nat) (words : List Word) (s : State) : Host.Outcome State Fault Refusal :=
  let ws := natWords words
  let x := xferOf s core ws
  let stop := fun (t : State) => t.setCore core { t.core core with run := .refused, waiting := none, vecWait := false }
  if !takesXfer s core 0x62 ws then void s
  else if !xferOk s core ws then .next (s.refuseXfer core x.opid)
  else match regionAt s x.region with
    | none => .next (s.refuseXfer core x.opid)
    | some r => match r.tensors[x.tensor]? with
      | none => .next (s.refuseXfer core x.opid)
      | some t =>
        let x := { x with mode := t.mode, srcFmt := t.srcFmt }
        if !(s.core core).xfers.isEmpty || (s.core core).mustWait x.reads x.writes then void s
        else if !windowOpen s x.region x.mb || stashed s x.region x.mb x.tensor || x.len != t.raw then
          .next (stop (s.stashFault 0x21 x.region x.tensor x.mb))
        else if !inHearth x.haddr x.len then .fault .hearthRange
        else
          let coded := Flux.codedLen (s.hearth (dieOf core)) t.mode t.srcFmt x.haddr x.len
          let need := ceilDiv coded (stashSlot s)
          let target := r.tierMap.getD x.mb 0
          match (if 4096 ≤ s.stash.length then none else s.placeTier x.region need target) with
          | none => .next (stop ((s.stashFault 0x20 x.region x.tensor x.mb).count Reg.sthExhaust))
          | some tier =>
            let (s1, slots) := s.pickSlots (tierSlots s r tier) need (heldOf s x.region tier)
            let e : StashEntry := { region := x.region, mb := x.mb, tensor := x.tensor, tier := tier, slots := slots
                                    coded := coded, landed := false }
            let s2 := (s1.placeEntry e).auditStash x.region x.tensor x.mb
            let s3 := (if tier = target then s2 else s2.count Reg.sthFallback).count Reg.sthPuts
            let s4 := (s3.count64 Reg.sthRawBytesLo Reg.sthRawBytesHi x.len).count64 Reg.sthCodedBytesLo Reg.sthCodedBytesHi coded
            .next (s4.putXfer core x)

namespace State

/-- Write coded bytes into an entry's slots, in chain order. -/
def writeSlots (s : State) (r : StashRegion) (e : StashEntry) (bs : List Byte) : State :=
  let size := stashSlot s
  (e.slots.zipIdx).foldl (fun t (slot, i) =>
    let part := (bs.drop (i * size)).take size
    let a := tierBase t r e.tier + slot * size
    if e.tier = 0 then t.setHearth (regionDie t r) ((t.hearth (regionDie t r)).writeBytes a part)
    else if e.tier = 1 then t.writeHbm a part
    else t.writeStock a part) s

end State

/-- The coded bytes of an entry, read through its slots. -/
def readSlots (s : State) (r : StashRegion) (e : StashEntry) : List Nat :=
  let size := stashSlot s
  ((e.slots.zipIdx).flatMap (fun (slot, i) =>
    let a := tierBase s r e.tier + slot * size
    let n := min size (e.coded - i * size)
    (if e.tier = 0 then (s.hearth (regionDie s r)).readBytes a n
     else if e.tier = 1 then s.hbm.readBytes a n else s.stock.readBytes a n))).map BitVec.toNat

/-- A coded range of an entry holds poison. -/
def slotsBad (s : State) (r : StashRegion) (e : StashEntry) (off len : Nat) : Bool :=
  let size := stashSlot s
  (e.slots.zipIdx).any (fun (slot, i) =>
    let lo := max off (i * size)
    let hi := min (off + len) (i * size + size)
    let a := tierBase s r e.tier + slot * size + (lo - i * size)
    decide (lo < hi) && (if e.tier = 0 then (s.hearth (regionDie s r)).isBad a (hi - lo)
      else if e.tier = 1 then s.hbmBad a (hi - lo) else s.stockBad a (hi - lo)))

/-- The address of a coded byte of an entry, through its slots. -/
def codedAddr (s : State) (r : StashRegion) (e : StashEntry) (off : Nat) : Nat :=
  tierBase s r e.tier + e.slots.getD (off / stashSlot s) 0 * stashSlot s + off % stashSlot s

/-- The first engine of the Flux group that moves the coded bytes at `off` of an entry for core `n` (R238).
DESIGN CHOICE (notes/assumptions/145): a fetch, which no core runs, is taken as the rank-0 core's of the region's gang. -/
def stashBase (s : State) (n : Nat) (r : StashRegion) (e : StashEntry) (off : Nat) : Nat :=
  if e.tier = 0 then 8 * dieOf n else fluxBase n (if e.tier = 1 then 2 else 3) (codedAddr s r e off)

/-- The decoded values of an MX stash, as the write-back of R225 leaves them in Hearth. -/
def writeBack (h : Memory) (mode srcFmt addr len : Nat) (coded : List Nat) : Memory :=
  (Flux.decode (fun _ _ => false) mode srcFmt len coded).foldl (fun (p : Memory × Nat) b =>
    (match b.data with
     | some d => p.1.writeBytes p.2 (d.map (BitVec.ofNat 8))
     | none => p.1, p.2 + b.len)) (h, addr) |>.1

/-- An entry is marked as landed. -/
def markLanded (e y : StashEntry) : StashEntry := if y = e then { y with landed := true } else y

/-- STASH_LANDED: the coded bytes have landed in the slots, and an MX mode's decoded values in the source range: the
STASH completes (R225, R228). -/
def execStashLanded (core : Nat) (s : State) : Host.Outcome State Fault Refusal :=
  match (s.core core).xfers with
  | [] => void s
  | x :: _ =>
    if !s.alive || x.op != 0x62 then void s
    else match regionAt s x.region, s.stash.find? (fun e => e.region == x.region && e.mb == x.mb && e.tensor == x.tensor) with
      | some r, some e =>
        let die := dieOf core
        let (bs, st) := Flux.encode (s.hearth die) x.mode x.srcFmt x.haddr x.len
        let s1 := (s.writeSlots r e (bs.map (BitVec.ofNat 8))).fluxCountAt (stashBase s core r e) st
        let s2 := if Flux.isMx x.mode then s1.setHearth die (writeBack (s1.hearth die) x.mode x.srcFmt x.haddr x.len bs) else s1
        let s3 := { s2 with stash := s2.stash.map (markLanded e) }
        .next ((s3.popXfer core).pump core)
      | _, _ => void s

/-! ## Fetch -/

/-- All tensors of (r, j) have landed (R232). -/
def allLanded (s : State) (region mb : Nat) : Bool :=
  match regionAt s region with
  | some r => (List.range r.tensors.length).all (fun t =>
      s.stash.any (fun e => e.region == region && e.mb == mb && e.tensor == t && e.landed))
  | none => false

/-- The buffer that a fetch needs is held by the fetch of a lower microbatch of the same buffer that has not been released
(R233). -/
def bufferHeld (s : State) (r : StashRegion) (region mb : Nat) : Bool :=
  s.fetches.any (fun f => f.region == region && !f.released && decide (f.mb < mb) && f.mb % r.fbuf == mb % r.fbuf)

/-- A FETCH starts (R233): once, and only after the window has closed. -/
def State.startFetch (s : State) (region mb : Nat) : State :=
  if s.fetches.any (fun f => f.region == region && f.mb == mb) then s
  else if s.spills.any (fun w => w.region == region && w.mb == mb && w.closed) then
    { s with fetches := s.fetches ++ [{ region := region, mb := mb, landed := false, released := false }] }
  else s.stashFault 0x22 region 0 mb

/-- A fetch is marked as landed. -/
def markFetched (region mb : Nat) (f : FetchRun) : FetchRun :=
  if f.region = region ∧ f.mb = mb then { f with landed := true } else f

/-- FETCH_COMPLETE: every tensor of (r, j) is decoded into its fetch buffer (R233). -/
def execFetchComplete (region mb : Nat) (ecc : List EccRes) (s : State) : Host.Outcome State Fault Refusal :=
  match regionAt s region with
  | none => void s
  | some r =>
    if !s.alive || !(s.fetches.any (fun f => f.region == region && f.mb == mb && !f.landed && !f.released)) ||
       !allLanded s region mb || bufferHeld s r region mb then void s
    else if !inHearth (r.fetchAddr + mb % r.fbuf * r.fbufBytes) r.fbufBytes then .fault .hearthRange
    else
      let size := stashSlot s
      let s1 := (r.tensors.zipIdx).foldl (fun t (w, i) =>
        match t.stash.find? (fun e => e.region == region && e.mb == mb && e.tensor == i) with
        | some e =>
          let t1 := e.slots.foldl (fun u slot =>
            let a := tierBase u r e.tier + slot * size
            if e.tier = 1 then u.hbmChecks a size ecc else if e.tier = 2 then u.stockChecks a size ecc else u) t
          let blks := Flux.decode (slotsBad t1 r e) w.mode w.srcFmt w.raw (readSlots t1 r e)
          (t1.landBlocks (regionDie t1 r) (stashBase t1 (t1.rank0 r.gang) r e)
            (r.fetchAddr + mb % r.fbuf * r.fbufBytes + w.offset) (codedAddr t1 r e) blks).count Reg.sthFetches
        | none => t) s
      .next { s1 with fetches := s1.fetches.map (markFetched region mb) }

end Sys2Proof.Machine
end

