-- ==== Sys2Proof/Machine/Temper.lean ====
section
/-!
DEFINITION. Machine/Temper.lean: the update of a device's shard (chapter 10): the step number and its skew (R261), the
scalars (R262 to R264), the pre-pass and the norm (R265 to R267), the rules (R268 to R270), freezing (R271), roots
(R272), push images and pushes (R273 to R275), trap records (R276) and update faults (R277). -/

namespace Sys2Proof.Machine

/-! ## Straight lines of FP32 operations -/

/-- A running line count with the events of the lines so far (R94, R276). -/
structure TSeq where
  line : Nat
  evs : List (Nat × Cause)
  deriving DecidableEq, Repr

/-- One line: an exact result rounded once to nearest even (R268). -/
def TSeq.op (q : TSeq) (ops : List Val) (v : Val) : Val × TSeq :=
  let r := resOf false ops v
  (Val.ofF32 r.code, ⟨q.line + 1, match r.ev with
    | some c => q.evs ++ [(q.line, c)]
    | none => q.evs⟩)

/-- fma(a, b, c), rounded once. -/
def TSeq.fma (q : TSeq) (a b c : Val) : Val × TSeq := q.op [a, b, c] ((a.mul b).add c)

/-- a × b, rounded. -/
def TSeq.mul (q : TSeq) (a b : Val) : Val × TSeq := q.op [a, b] (a.mul b)

/-- One rounded FP32 operation without an event record. -/
def f32 (v : Val) : Val := Val.ofF32 (toF32 false v)

/-- fma without an event record. -/
def fmaV (a b c : Val) : Val := f32 ((a.mul b).add c)

/-- A natural number as FP32, rounded once. -/
def f32n (n : Nat) : Val := f32 (.fin false n 0)

/-! ## Curves (R264) -/

/-- The last segment that has started. -/
def curveSeg (c : List CurveSeg) (s : Nat) : Option CurveSeg :=
  (c.filter (fun g => g.span != 0 && decide (g.start ≤ s))).getLast?

/-- The lines of a curve's value at step `s`. -/
def curveRun (q : TSeq) (c : List CurveSeg) (s : Nat) : Val × TSeq :=
  match curveSeg c s with
  | none => (.zero, q)
  | some g =>
    let x := min (s - g.start) g.span
    let xf := f32n x
    let sf := f32n g.span
    let v0 := Val.ofF32 g.v0
    let v1 := Val.ofF32 g.v1
    let (f, q) := q.op [xf, sf] (Fn.div xf sf)
    if g.kind = 0 then (v0, q)
    else if g.kind = 1 then
      let (d, q) := q.op [v1, v0] (v1.add v0.negate)
      q.fma f d v0
    else if g.kind = 2 then
      let (r, q) := q.op [v1, v0] (Fn.div v1 v0)
      let (l, q) := q.op [r] (Fn.log r)
      let (e, q) := q.mul f l
      let (y, q) := q.op [e] (Fn.exp e)
      q.mul v0 y
    else
      let y := f32n (x + 1)
      let (r, q) := q.op [y] (Fn.rsqrt y)
      q.mul v0 r

/-- The value of a curve at step `s`. -/
def curveAt (c : List CurveSeg) (s : Nat) : Val := (curveRun ⟨0, []⟩ c s).1

/-! ## Scalars (R262) -/

/-- The scalars of a group and step. -/
structure Scalars where
  tf : Val
  beta1 : Val
  beta2 : Val
  rb1 : Val
  rb2 : Val
  ob1 : Val
  ob2 : Val
  lr : Val
  wd : Val
  clipf : Val
  eps : Val
  deriving DecidableEq, Repr

/-- 1 / (1 − EXP(tf × LOG(β))), each operation rounded once. A β of 0 makes no event (R262). -/
def biasRun (q : TSeq) (tf beta : Val) : Val × TSeq :=
  let (l, q1) := q.op [beta] (Fn.log beta)
  let (m, q1) := q1.mul tf l
  let (e, q1) := q1.op [m] (Fn.exp m)
  let (b, q1) := q1.op [.one, e] (Val.one.add e.negate)
  let (r, q1) := q1.op [.one, b] (Fn.div .one b)
  (r, if beta.isZero then { q1 with evs := q.evs } else q1)

/-- The scalars of R262 for step `s`, with the events of their lines. -/
def scalarRun (p : TemperPlan) (g : TmpGroup) (clipf s : Nat) : Scalars × TSeq :=
  let tf := f32n (s + 1)
  let b1 := Val.ofF32 g.beta1
  let b2 := Val.ofF32 g.beta2
  let (rb1, q) := biasRun ⟨0, []⟩ tf b1
  let (rb2, q) := biasRun q tf b2
  let (ob1, q) := q.op [.one, b1] (Val.one.add b1.negate)
  let (ob2, q) := q.op [.one, b2] (Val.one.add b2.negate)
  let (lr, q) := curveRun q (p.curves.getD g.lrCurve []) s
  let (wd, q) := curveRun q (p.curves.getD g.wdCurve []) s
  ({ tf := tf, beta1 := b1, beta2 := b2, rb1 := rb1, rb2 := rb2, ob1 := ob1, ob2 := ob2, lr := lr, wd := wd
     clipf := Val.ofF32 clipf, eps := Val.ofF32 g.eps }, q)

/-- The scalars of a group and step. -/
def scalarsOf (p : TemperPlan) (g : TmpGroup) (clipf s : Nat) : Scalars := (scalarRun p g clipf s).1

/-! ## The rules (R268) -/

/-- W, M and V of an element. -/
structure WMV where
  w : Val
  m : Val
  v : Val
  deriving DecidableEq, Repr

/-- SGD (R268). -/
def ruleSgd (flags : Nat) (k : Scalars) (x : WMV) (g0 : Val) : WMV × TSeq :=
  let (g, q) := (⟨0, []⟩ : TSeq).mul g0 k.clipf
  let (g, q) := if bit flags 0 then q.fma k.wd x.w g else (g, q)
  let (m, q) := q.fma k.beta1 x.m g
  let (d, q) := if bit flags 1 then q.fma k.beta1 m g else (m, q)
  let (d, q) := if bit flags 0 then (d, q) else q.fma k.wd x.w d
  let (w, q) := q.fma k.lr.negate d x.w
  (⟨w, m, x.v⟩, q)

/-- ADAMW (R268). -/
def ruleAdamw (flags : Nat) (k : Scalars) (x : WMV) (g0 : Val) : WMV × TSeq :=
  let (g, q) := (⟨0, []⟩ : TSeq).mul g0 k.clipf
  let (g, q) := if bit flags 0 then q.fma k.wd x.w g else (g, q)
  let (t1, q) := q.mul k.ob1 g
  let (m, q) := q.fma k.beta1 x.m t1
  let (t2, q) := q.mul g g
  let (t3, q) := q.mul k.ob2 t2
  let (v, q) := q.fma k.beta2 x.v t3
  let (mh, q) := q.mul m k.rb1
  let (vh, q) := q.mul v k.rb2
  let (d, q) :=
    if bit flags 2 then
      let (a, q) := q.op [vh, k.eps] (vh.add k.eps)
      q.op [a] (Fn.sqrt a)
    else
      let (a, q) := q.op [vh] (Fn.sqrt vh)
      q.op [a, k.eps] (a.add k.eps)
  let (u, q) := q.op [mh, d] (Fn.div mh d)
  let (u, q) := if bit flags 0 then (u, q) else q.fma k.wd x.w u
  let (w, q) := q.fma k.lr.negate u x.w
  (⟨w, m, v⟩, q)

/-- SIGN (R268). -/
def ruleSign (k : Scalars) (x : WMV) (g0 : Val) : WMV × TSeq :=
  let (g, q) := (⟨0, []⟩ : TSeq).mul g0 k.clipf
  let (t1, q) := q.mul k.ob1 g
  let (c, q) := q.fma k.beta1 x.m t1
  let (u, q) := q.op [c] (if Val.zero.lt c then .one else if c.lt .zero then Val.one.negate else .zero)
  let (u, q) := q.fma k.wd x.w u
  let (w, q) := q.fma k.lr.negate u x.w
  let (t2, q) := q.mul k.ob2 g
  let (m, q) := q.fma k.beta2 x.m t2
  (⟨w, m, x.v⟩, q)

/-- The element-wise rules by code: SGD, ADAMW, SIGN. -/
def ruleOf (g : TmpGroup) (k : Scalars) (x : WMV) (g0 : Val) : WMV × TSeq :=
  if g.rule = 0 then ruleSgd g.flags k x g0
  else if g.rule = 1 then ruleAdamw g.flags k x g0
  else ruleSign k x g0

/-! ## Arrays in Stock -/

/-- The group keeps a second moment (Table 10-1). -/
def hasV (g : TmpGroup) : Bool := g.rule == 1 || g.rule == 7

/-- Bytes of a gradient element. -/
def gBytes (g : TmpGroup) : Nat := if g.gfmt = 0 then 2 else 4

/-- The whole slice is frozen. -/
def groupFrozen (g : TmpGroup) : Bool := bit g.flags 4

/-- An FP32 value of Stock. -/
def stockVal (s : State) (a : Nat) : Val := Val.ofF32 (s.stock.readLE a 4)

/-- The gradient of element `j`, widened exactly. -/
def gradVal (s : State) (g : TmpGroup) (j : Nat) : Val :=
  decodeFmt (if g.gfmt = 0 then .bf16 else .fp32) (s.stock.readLE (g.g + gBytes g * j) (gBytes g))

/-- Element `j` is frozen (R271). -/
def frozenAt (s : State) (g : TmpGroup) (j : Nat) : Bool :=
  groupFrozen g || (g.freeze != 0 && bit (s.stock.read (g.freeze + j / 8)).toNat (j % 8))

/-- The elements of tile `i`. -/
def tileElems (g : TmpGroup) (i : Nat) : List Nat := (List.range (min 1024 (g.count - 1024 * i))).map (1024 * i + ·)

/-- Tiles of a group. -/
def tilesOf (g : TmpGroup) : Nat := ceilDiv g.count 1024

/-- The bytes of the freeze vector for a run of elements. -/
def freezeRange (g : TmpGroup) (first n : Nat) : List (Nat × Nat) :=
  if g.freeze = 0 ∨ n = 0 then [] else [(g.freeze + first / 8, (first + n - 1) / 8 + 1 - first / 8)]

/-- The Stock byte ranges that a run of elements reads. -/
def elemRanges (g : TmpGroup) (first n : Nat) : List (Nat × Nat) :=
  [(g.w + 4 * first, 4 * n), (g.m + 4 * first, 4 * n), (g.g + gBytes g * first, gBytes g * n)] ++
  (if hasV g then [(g.v + 4 * first, 4 * n)] else []) ++ freezeRange g first n

/-! ## Trap records (R276) -/

/-- An event of Temper: its cause, its engine (16 for the solver), the group entry and the element or block index.
DESIGN CHOICE (notes/assumptions/150): a result that belongs to no one element has the index of the first element it covers, and 0
where it covers a whole group or the job. -/
structure TmpEv where
  cause : Cause
  engine : Nat
  entry : Nat
  index : Nat
  deriving DecidableEq, Repr

namespace State

/-- Latch an event, or count it. -/
def tmpTrap (s : State) (cause : Cause) (engine entry index : Nat) : State :=
  if cause = .overflow ∧ !s.flag Reg.tmpCtrlInfTrap then s
  else if s.flag Reg.tmpTrapStatusValid then s.count Reg.tmpTrapCount
  else
    let a := if s.cad.ran then s.cad.lastFired else 0
    (((((((s.put Reg.tmpTrapStatusValid 1).put Reg.tmpTrapStatusCause cause.code).put Reg.tmpTrapStatusEngine engine).put
      Reg.tmpTrapGroup entry).put64 Reg.tmpTrapIndexLo Reg.tmpTrapIndexHi index).put Reg.tmpTrapAngleLo (a % 2 ^ 32)).put
      Reg.tmpTrapAngleHi (a / 2 ^ 32))

/-- Events in order. -/
def tmpTraps (s : State) (l : List TmpEv) : State := l.foldl (fun t e => t.tmpTrap e.cause e.engine e.entry e.index) s

/-- The events of a tile: line by line, each in element order. -/
def tmpEvents (s : State) (engine entry : Nat) (l : List (Nat × List (Nat × Cause))) : State :=
  (List.range 20).foldl (fun t line => l.foldl (fun t (j, es) => es.foldl (fun t (k, c) =>
    if k = line then t.tmpTrap c engine entry j else t) t) t) s

/-! ## Update faults (R277) -/

/-- An update fault: Temper stops, STEP stays, and the current UPDATE gate is held with reason TMP. -/
def updFault (s : State) (range : Nat) : State :=
  let s1 := { s with tmp := { s.tmp with failed := true } }
  let st := stepOf s.cad.angle
  match s.cad.strike.find? (fun e => e.kind == 0xB && e.target == range && e.gate && firesIn e st) with
  | some e =>
    if s.cad.active then s1.raiseHold (angleOf st e.stroke) reasonTmp none
    else { s1 with cad := { s1.cad with want := some reasonTmp } }
  | none => ({ s1 with cad := { s1.cad with want := some reasonTmp } }).placeWant

/-- The checks of the granules of some ranges of Stock (R29, R254): the state, and whether one is not usable. -/
def tmpRead (s : State) (rs : List (Nat × Nat)) (ecc : List EccRes) : State × Bool :=
  match rs.find? (fun r => s.stockBad r.1 r.2) with
  | some r => (s.raise srcTemper 0x5C clsU (r.1 / 64 * 64), true)
  | none =>
    let s1 := rs.foldl (fun t r => t.stockChecks r.1 r.2 ecc) s
    (s1, rs.any (fun r => s1.stockBad r.1 r.2))

/-- Write an FP32 value to Stock. -/
def putVal (s : State) (a : Nat) (v : Val) : State := s.writeStock a (leBytes 4 (toF32 false v))

/-- An engine's share of the work buffer holds the tile it works on: W, M, V and the gradient as FP32, one after another.
DESIGN CHOICE (notes/assumptions/153). -/
def workTile (s : State) (engine : Nat) (l : List (List Val)) : State :=
  { s with tmp := { s.tmp with work := (l.zipIdx).foldl (fun m (vs, k) =>
      m.writeBytes (4194304 * engine + 4096 * k) (vs.flatMap (fun v => leBytes 4 (toF32 false v)))) s.tmp.work } }

/-- Clear the gradient of a run of elements (R259). -/
def clearG (s : State) (g : TmpGroup) (first n : Nat) : State :=
  s.writeStock (g.g + gBytes g * first) (List.replicate (gBytes g * n) 0)

end State

/-- A value that is NaN or infinite. -/
def nonfinite (v : Val) : Bool := v.isNan || v.isInf

/-! ## One tile of the element-wise rules -/

/-- The results of a tile: each element that is not frozen, with its new values and events. -/
def tileResults (s : State) (g : TmpGroup) (k : Scalars) (i : Nat) : List (Nat × WMV × TSeq) :=
  ((tileElems g i).filter (fun j => !frozenAt s g j)).map (fun j =>
    let x : WMV := ⟨stockVal s (g.w + 4 * j), stockVal s (g.m + 4 * j), if hasV g then stockVal s (g.v + 4 * j) else .zero⟩
    (j, ruleOf g k x (gradVal s g j)))

namespace State

/-- Write an element's W, M and V. -/
def putElem (s : State) (g : TmpGroup) (j : Nat) (x : WMV) : State :=
  let s1 := (s.putVal (g.w + 4 * j) x.w).putVal (g.m + 4 * j) x.m
  if hasV g then s1.putVal (g.v + 4 * j) x.v else s1

/-- Whether a written element is not finite. -/
def elemBad (g : TmpGroup) (x : WMV) : Bool := nonfinite x.w || nonfinite x.m || (hasV g && nonfinite x.v)

/-- A result that is not finite: TMP nonfinite, once per group, and an update fault (R277). -/
def tmpNonfinite (s : State) (range entry : Nat) (bad : Bool) : State :=
  if bad then (s.raise srcTemper 0x5D clsU entry).updFault range else s

/-- Tile `i` of a group by SGD, ADAMW or SIGN (R268, R271). -/
def runTile (s : State) (range entry : Nat) (g : TmpGroup) (k : Scalars) (ecc : List EccRes) (i : Nat) : State :=
  if s.tmp.failed then s
  else
    let n := (tileElems g i).length
    let (s1, bad) := s.tmpRead (elemRanges g (1024 * i) n) ecc
    if bad then s1.updFault range
    else
      let rs := tileResults s1 g k i
      let es := tileElems g i
      let s2 := (rs.foldl (fun t (j, x, _) => t.putElem g j x) s1).workTile (i % 16)
        [es.map (fun j => stockVal s1 (g.w + 4 * j)), es.map (fun j => stockVal s1 (g.m + 4 * j)),
         if hasV g then es.map (fun j => stockVal s1 (g.v + 4 * j)) else [], es.map (gradVal s1 g)]
      let s3 := (s2.clearG g (1024 * i) n).tmpEvents (i % 16) entry (rs.map (fun (j, _, q) => (j, q.evs)))
      s3.tmpNonfinite range entry (rs.any (fun (_, x, _) => elemBad g x))

end State

/-! ## PROGRAM (R270) -/

/-- One command of a Temper program on a tile register file: the classes of R147, rounded to nearest even with SAT. -/
def tmpCommand (m : Memory) (ws : List Word) : VecRes :=
  let d := { vcOf (natWords ws) with rz := false, special := false }
  if d.op = 0x10 then ewEff m d
  else if d.op = 0x11 then fnEff m d
  else if d.op = 0x12 then actEff m d
  else if d.op = 0x13 then dactEff false m d
  else if d.op = 0x20 then redEff m d
  else if d.op = 0x30 then permEff m d
  else if d.op = 0x31 then transEff m d
  else if d.op = 0x32 then shufEff m d
  else if d.op = 0x38 then packEff m d
  else if d.op = 0x39 then unpackEff m d
  else ⟨m, []⟩

/-- A register's word `j` of a tile: row j div 32, column j mod 32. -/
def putTileWord (m : Memory) (t j : Nat) (v : Val) : Memory := tilePut m 0 t (j / 32) (j % 32) (toF32 false v)

/-- The gradient that a PROGRAM tile loads for an element, G × clipf with its event (R270). A frozen element loads +0, so that it
makes no event (Table 10-4; DEDUCED, notes/assumptions/151). -/
def programGrad (s : State) (g : TmpGroup) (k : Scalars) (e : Nat) : Res :=
  if frozenAt s g e then ⟨0, none⟩ else resOf false [gradVal s g e, k.clipf] ((gradVal s g e).mul k.clipf)

/-- The registers before a run: T0 to T3 and row 0 of T4 (R270). -/
def programTiles (s : State) (g : TmpGroup) (k : Scalars) (i : Nat) : Memory :=
  let m1 := ((tileElems g i).zipIdx).foldl (fun m (e, j) =>
    putTileWord (putTileWord (putTileWord (putTileWord m 0 j (stockVal s (g.w + 4 * e))) 1 j (stockVal s (g.m + 4 * e)))
      2 j (stockVal s (g.v + 4 * e))) 3 j (Val.ofF32 (programGrad s g k e).code)) Memory.empty
  ([k.lr, k.wd, k.rb1, k.rb2, k.clipf, k.tf, k.beta1, k.beta2, k.eps].zipIdx).foldl (fun m (v, c) => putTileWord m 4 c v) m1

namespace State

/-- Tile `i` of a PROGRAM group (R270, R271). -/
def runProgramTile (s : State) (range entry : Nat) (g : TmpGroup) (k : Scalars) (prog : List (List Word))
    (ecc : List EccRes) (i : Nat) : State :=
  if s.tmp.failed then s
  else
    let n := (tileElems g i).length
    let (s1, bad) := s.tmpRead (elemRanges g (1024 * i) n) ecc
    if bad then s1.updFault range
    else
      let r := prog.foldl (fun (a : VecRes) ws =>
        let b := tmpCommand a.tiles ws
        ⟨b.tiles, a.events ++ b.events⟩) ⟨programTiles s1 g k i, []⟩
      let live := (tileElems g i).filter (fun j => !frozenAt s1 g j)
      let out := fun (t j : Nat) => Val.ofF32 (tileWord r.tiles t ((j - 1024 * i) / 32) ((j - 1024 * i) % 32))
      let xs := live.map (fun j => (j, (⟨out 0 j, out 1 j, out 2 j⟩ : WMV)))
      let s2 := (xs.foldl (fun t (j, x) => t.putElem g j x) s1).clearG g (1024 * i) n
      let loads := (tileElems g i).filterMap (fun j => (programGrad s1 g k j).ev.map (fun c => (⟨c, i % 16, entry, j⟩ : TmpEv)))
      let runs := r.events.map (fun e => (⟨e.cause, i % 16, entry, 1024 * i + 32 * e.row + e.col % 32⟩ : TmpEv))
      let s3 := (s2.workTile (i % 16) (((List.range 4).map (fun t => (tileElems g i).map (fun j =>
        Val.ofF32 (tileWord r.tiles t ((j - 1024 * i) / 32) ((j - 1024 * i) % 32))))))).tmpTraps
        (loads ++ runs.filter (fun e => !frozenAt s1 g e.index))
      s3.tmpNonfinite range entry (xs.any (fun (_, x) => elemBad g x))

end State

/-! ## BLOCK (R252, R269, R272) -/

/-- A matrix by rows. -/
abbrev Mat := List (List Val)

/-- Element (i, j). -/
def mAt (a : Mat) (i j : Nat) : Val := (a.getD i []).getD j .zero

/-- Build a matrix. -/
def mat (r c : Nat) (f : Nat → Nat → Val) : Mat := (List.range r).map (fun i => (List.range c).map (fun j => f i j))

/-- The product of an r × k matrix by a k × c matrix: a chain of FMAs in increasing k from +0 (R252). -/
def mMul (r k c : Nat) (a b : Mat) : Mat :=
  mat r c (fun i j => (List.range k).foldl (fun acc x => fmaV (mAt a i x) (mAt b x j) acc) .zero)

/-- The transpose of an r × c matrix. -/
def mT (r c : Nat) (a : Mat) : Mat := mat c r (fun i j => mAt a j i)

/-- The Cholesky pivots' test (R272): every pivot is above +0 and finite. -/
def choleskyOk (n : Nat) (a : Mat) : Bool :=
  let r := (List.range n).foldl (fun (st : Bool × Mat) j =>
    if !st.1 then st
    else
      let l := st.2
      let piv := (List.range j).foldl (fun acc k => fmaV (mAt l j k).negate (mAt l j k) acc) (mAt a j j)
      if !(Val.zero.lt piv) || nonfinite piv then (false, l)
      else
        let d := f32 (Fn.sqrt piv)
        (true, mat n n (fun i k =>
          if k = j then
            (if i = j then d
             else if j < i then
               f32 (Fn.div ((List.range j).foldl (fun acc x => fmaV (mAt l i x).negate (mAt l j x) acc) (mAt a i j)) d)
             else mAt l i k)
          else mAt l i k))) (true, mat n n (fun _ _ => .zero))
  r.1

/-- 2.5 as FP32. -/
def v2p5 : Val := .fin false 5 (-1)
/-- −0.25 as FP32. -/
def vMinusQuarter : Val := .fin true 1 (-2)
/-- 1.25 as FP32. -/
def v1p25 : Val := .fin false 5 (-2)

/-- root(X, P) of R272 for n × n matrices: none where P is kept. -/
def rootOf (n niter damp : Nat) (x : Mat) : Option Mat :=
  let a := mat n n (fun i j => if i = j then f32 ((mAt x i j).add (Val.ofF32 damp)) else mAt x i j)
  if !choleskyOk n a then none
  else
    let nrm := f32 (Fn.sqrt ((positions n n).foldl (fun acc (i, j) => fmaV (mAt a i j) (mAt a i j) acc) .zero))
    let cp := f32 (v2p5.mul nrm)
    let x0 := f32 (Fn.exp (f32 ((f32 (Fn.log cp)).mul vMinusQuarter)))
    let start : Mat × Mat := (mat n n (fun i j => if i = j then x0 else .zero), mat n n (fun i j => f32 (Fn.div (mAt a i j) cp)))
    let r := (List.range niter).foldl (fun (p : Mat × Mat) _ =>
      let t := mat n n (fun i j => fmaV vMinusQuarter (mAt p.2 i j) (if i = j then v1p25 else .zero))
      (mMul n n n p.1 t, mMul n n n t (mMul n n n t (mMul n n n t (mMul n n n t p.2))))) start
    if r.1.all (fun row => row.all (fun v => !nonfinite v)) then some r.1 else none

/-- A block of a BLOCK group: its number, its first row and column, its rows and columns, and the Stock address of its
statistics. -/
structure Blk where
  num : Nat
  row0 : Nat
  col0 : Nat
  r : Nat
  c : Nat
  stats : Nat
  deriving DecidableEq, Repr

/-- The blocks of a group, in row-major block order, with their statistics one after another (notes/assumptions/47). -/
def blocksOf (g : TmpGroup) : List Blk :=
  let b := 32 * (g.blk + 1)
  let nr := ceilDiv g.mrows b
  let nc := ceilDiv g.mcols b
  ((List.range (nr * nc)).foldl (fun (l : List Blk × Nat) i =>
    let r := min b (g.mrows - i / nc * b)
    let c := min b (g.mcols - i % nc * b)
    (l.1 ++ [{ num := i, row0 := i / nc * b, col0 := i % nc * b, r := r, c := c, stats := l.2 }],
     l.2 + 8 * (r * r + c * c))) ([], g.stats)).1

/-- The Stock addresses of L, R, PL and PR of a block. -/
def statAddr (b : Blk) (k : Nat) : Nat :=
  b.stats + 4 * (if k = 0 then 0 else if k = 1 then b.r * b.r else if k = 2 then b.r * b.r + b.c * b.c
    else 2 * (b.r * b.r) + b.c * b.c)

/-- A matrix read from Stock. -/
def readMat (s : State) (a n : Nat) : Mat := mat n n (fun i j => stockVal s (a + 4 * (i * n + j)))

/-- The element index of position (i, j) of a block. -/
def blkElem (g : TmpGroup) (b : Blk) (i j : Nat) : Nat := (b.row0 + i) * g.mcols + b.col0 + j

/-- The events of a product's FMA chains, element by element (R94, R276): a NaN operand counts where an element of a factor is
NaN, and a NaN that the chain itself made is no operand of the product. -/
def mulEvents (r k c : Nat) (a b : Mat) : List Cause :=
  (positions r c).flatMap (fun (i, j) =>
    ((List.range k).foldl (fun (st : Val × List Cause) x =>
      let u := mAt a i x
      let v := mAt b x j
      let res := resOf false [u, v, st.1] ((u.mul v).add st.1)
      let ev := match res.ev with
        | some .nanOperand => if u.isNan || v.isNan then [Cause.nanOperand] else []
        | some e => [e]
        | none => []
      (Val.ofF32 res.code, st.2 ++ ev)) (Val.zero, [])).2)

/-- The events of element-wise FMAs over a matrix. -/
def fmaEvents (n : Nat) (a : Val) (b c : Mat) : List Cause :=
  (positions n n).filterMap (fun (i, j) =>
    (resOf false [a, mAt b i j, mAt c i j] ((a.mul (mAt b i j)).add (mAt c i j))).ev)

namespace State

/-- The solver's storage holds matrices of a block in its eight places of 256 × 256, from place `k` on (notes/assumptions/153). -/
def solverPut (s : State) (k : Nat) (l : List Mat) : State :=
  { s with tmp := { s.tmp with solver := (l.zipIdx).foldl (fun m (x, i) =>
      m.writeBytes (262144 * (k + i)) (x.flatMap (fun row => row.flatMap (fun v => leBytes 4 (toF32 false v))))) s.tmp.solver } }

/-- Write a matrix to Stock. -/
def putMat (s : State) (a n : Nat) (m : Mat) : State :=
  (positions n n).foldl (fun t (i, j) => t.putVal (a + 4 * (i * n + j)) (mAt m i j)) s

/-- One root: replaced, or kept, counted and raised (R272). -/
def runRoot (s : State) (entry : Nat) (g : TmpGroup) (b : Blk) (isR : Bool) : State :=
  let n := if isR then b.c else b.r
  match rootOf n g.niter g.damp (readMat s (statAddr b (if isR then 1 else 0)) n) with
  | some m => s.putMat (statAddr b (if isR then 3 else 2)) n m
  | none => (s.count Reg.tmpSingular).raise srcTemper 0x5A clsC (entry + b.num * 2 ^ 12 + b2n isR * 2 ^ 36)

/-- One block of a BLOCK group at step `st` (R269, R271). -/
def runBlock (s : State) (range entry st : Nat) (g : TmpGroup) (k : Scalars) (ecc : List EccRes) (b : Blk) : State :=
  if s.tmp.failed then s
  else
    let ranges := (List.range b.r).flatMap (fun i => elemRanges g (blkElem g b i 0) b.c) ++ [(b.stats, 8 * (b.r * b.r + b.c * b.c))]
    let (s1, bad) := s.tmpRead ranges ecc
    let clear := fun (t : State) => (List.range b.r).foldl (fun t i => t.clearG g (blkElem g b i 0) b.c) t
    if bad then s1.updFault range
    else if frozenAt s1 g (blkElem g b 0 0) then clear s1
    else
      let gq := fun i j => (⟨0, []⟩ : TSeq).mul (gradVal s1 g (blkElem g b i j)) k.clipf
      let gb := mat b.r b.c (fun i j => (gq i j).1)
      let solver := fun (t : State) (l : List Cause) => l.foldl (fun t c => t.tmpTrap c 16 entry b.num) t
      let s2 := if st % g.statEvery ≠ 0 then s1
        else
          let gt := mT b.r b.c gb
          let gg := mMul b.r b.c b.r gb gt
          let hh := mMul b.c b.r b.c gt gb
          let l := readMat s1 (statAddr b 0) b.r
          let r := readMat s1 (statAddr b 1) b.c
          let l' := mat b.r b.r (fun i j => fmaV k.beta2 (mAt l i j) (mAt gg i j))
          let r' := mat b.c b.c (fun i j => fmaV k.beta2 (mAt r i j) (mAt hh i j))
          solver (((s1.putMat (statAddr b 0) b.r l').putMat (statAddr b 1) b.c r').solverPut 1 [l', r'])
            (mulEvents b.r b.c b.r gb gt ++ mulEvents b.c b.r b.c gt gb ++ fmaEvents b.r k.beta2 l gg ++ fmaEvents b.c k.beta2 r hh)
      let s3 := if (st + b.num) % g.period ≠ 0 then s2 else (s2.runRoot entry g b false).runRoot entry g b true
      let mq := fun i j =>
        let (t1, q) := (gq i j).2.mul k.ob1 (mAt gb i j)
        q.fma k.beta1 (stockVal s3 (g.m + 4 * blkElem g b i j)) t1
      let m' := mat b.r b.c (fun i j => (mq i j).1)
      let pl := readMat s3 (statAddr b 2) b.r
      let pr := readMat s3 (statAddr b 3) b.c
      let pm := mMul b.r b.r b.c pl m'
      let u := mMul b.r b.c b.c pm pr
      let xs := (positions b.r b.c).map (fun (i, j) =>
        let e := blkElem g b i j
        let w := stockVal s3 (g.w + 4 * e)
        let (u1, q) := (mq i j).2.fma k.wd w (mAt u i j)
        let (w', q) := q.fma k.lr.negate u1 w
        (e, (⟨w', mAt m' i j, .zero⟩ : WMV), q))
      let s4 := clear (xs.foldl (fun t (e, x, _) => t.putElem g e x) s3)
      let s5 := solver ((s4.solverPut 0 [gb]).solverPut 3 [pl, pr, m', pm, u]) (mulEvents b.r b.r b.c pl m' ++ mulEvents b.r b.c b.c pm pr)
      let s6 := (List.range 5).foldl (fun t line => xs.foldl (fun t (e, _, q) => q.evs.foldl (fun t (n, c) =>
        if n = line then t.tmpTrap c (e / 1024 % 16) entry e else t) t) t) s5
      s6.tmpNonfinite range entry (xs.any (fun (_, x, _) => elemBad g x))

end State

/-! ## Push images and pushes (R273 to R275) -/

/-- Bytes of a push's row of codes. -/
def pushRow (f : Fmt) (p : Push) : Nat := elemBytes p.rowLen f.width

/-- Rows of a push. -/
def pushRows (p : Push) : Nat := p.count / p.rowLen

/-- The format of a push. -/
def pushFmt (p : Push) : Fmt :=
  match fmtOf p.wfmt 1 with
  | some f => f
  | none => .bf16

/-- One row of a push: its codes and its scales (R79, R88 to R90, under nearest even and SAT). -/
def rowImage (s : State) (g : TmpGroup) (p : Push) (r : Nat) : List Byte × List Byte :=
  let f := pushFmt p
  let vs := (List.range p.rowLen).map (fun j => stockVal s (g.w + 4 * (p.first + r * p.rowLen + j)))
  if p.mx then
    let bs := (List.range (p.rowLen / 32)).map (fun i => mxPack f false false ((vs.drop (32 * i)).take 32))
    (leBytes (pushRow f p) (packCodes f.width (bs.flatMap MxBlock.codes)), bs.map (fun b => BitVec.ofNat 8 b.scale))
  else (leBytes (pushRow f p) (packCodes f.width (vs.map (fun v => (convert f false false v).code))), [])

/-- Where the scales of a push lie in its image: after its rows (notes/assumptions/48). -/
def imgScales (p : Push) : Nat := p.img + pushRows p * p.stride

namespace State

/-- Write the image of a push from W (R274). The row of a granule of W that is poisoned is poisoned (R29). -/
def buildImage (s : State) (g : TmpGroup) (p : Push) : State :=
  (List.range (pushRows p)).foldl (fun t r =>
    let (codes, scales) := rowImage t g p r
    let a := p.img + r * p.stride
    let b := imgScales p + r * (p.rowLen / 32)
    let u := (t.writeStock a codes).writeStock b scales
    if t.stockBad (g.w + 4 * (p.first + r * p.rowLen)) (4 * p.rowLen) then
      u.poisonStock (granules a codes.length ++ granules b scales.length)
    else u) s

/-- Write the images of every push of a group. -/
def buildImages (s : State) (plan : TemperPlan) (g : TmpGroup) : State :=
  (plan.pushes.filter (fun p => p.group == g.group)).foldl (fun t p => t.buildImage g p) s

/-- Copy `n` bytes of an image to a push's destination, through a Flux engine of the die unchanged (R23, R274). A poisoned
granule arrives as poison. -/
def pushBytes (s : State) (p : Push) (src dst n : Nat) : State :=
  let bs := s.stock.readBytes src n
  let bad := s.stockBad src n
  let s1 := s.count64 Reg.tmpPushBytesLo Reg.tmpPushBytesHi n
  if p.dest = 0 then
    let s2 := (s1.writeHbm dst bs).fluxPass (groupBase (stackOf dst / 4) 0 2 dst) n
    if bad then s2.poisonHbm (granules dst n) else s2
  else
    let h := (s1.hearth p.die).writeBytes dst bs
    (s1.setHearth p.die (if bad then h.poison dst n else h)).fluxPass (groupBase p.die 0 3 src) n

/-- Run one push: its rows, then its scales (R274). -/
def runPush (s : State) (p : Push) : State :=
  let f := pushFmt p
  let s1 := (List.range (pushRows p)).foldl (fun t r => t.pushBytes p (p.img + r * p.stride) (p.dst + r * p.stride) (pushRow f p)) s
  if p.mx then s1.pushBytes p (imgScales p) p.cs (pushRows p * (p.rowLen / 32)) else s1

end State

/-- The entries of a range (R260, R273). -/
def rangeEntries (r : Nat × Nat) : List Nat := (List.range r.2).map (r.1 + ·)

/-- Temper's plan of the billet held. -/
def tmpPlan (s : State) : Option TemperPlan := s.billet.map (fun b => b.temper)

/-! ## The pre-pass (R265) -/

/-- A sum with the events that it makes. -/
abbrev TSum := Nat × List TmpEv

/-- One FP32 addition of codes, with its event at an engine. -/
def TSum.add (a : TSum) (b : Nat) (engine entry index : Nat) : TSum :=
  let r := redOp 0 false a.1 b
  (r.code, a.2 ++ (match r.ev with
    | some c => [⟨c, engine, entry, index⟩]
    | none => []))

/-- A tree of R164 over `2 ^ k` codes, with its events at an engine. -/
def sumTree (k lvl : Nat) (vs : List Nat) (engine entry index : Nat) : TSum :=
  let t := tree 0 false k lvl vs
  (t.1, t.2.map (fun e => ⟨e.2, engine, entry, index⟩))

/-- The sum of squares of a tile by the whole-tile tree; frozen and padding positions count as +0. -/
def tileSquares (s : State) (entry : Nat) (g : TmpGroup) (i : Nat) : TSum :=
  let sq := (List.range 1024).map (fun k =>
    let j := 1024 * i + k
    if g.count ≤ j ∨ frozenAt s g j then (⟨0, none⟩ : Res)
    else resOf false [gradVal s g j, gradVal s g j] ((gradVal s g j).mul (gradVal s g j)))
  let rows := (List.range 32).map (fun r => sumTree 5 1 (((sq.drop (32 * r)).take 32).map Res.code) (i % 16) entry (1024 * i + 32 * r))
  let all := sumTree 5 6 (rows.map (fun x => x.1)) (i % 16) entry (1024 * i)
  (all.1, (sq.zipIdx).filterMap (fun x => x.1.ev.map (fun c => (⟨c, i % 16, entry, 1024 * i + x.2⟩ : TmpEv))) ++
    rows.flatMap (fun x => x.2) ++ all.2)

/-- The sum of a group: each engine adds its tiles in order, and the 16 sums combine by four levels of the tree. -/
def groupSquares (s : State) (entry : Nat) (g : TmpGroup) : TSum :=
  let eng := (List.range 16).map (fun e =>
    ((List.range (tilesOf g)).filter (fun i => i % 16 == e)).foldl (fun (acc : TSum) i =>
      let t := tileSquares s entry g i
      TSum.add (acc.1, acc.2 ++ t.2) t.1 e entry (1024 * i)) (0, []))
  let all := sumTree 4 1 (eng.map (fun x => x.1)) 0 entry 0
  (all.1, eng.flatMap (fun x => x.2) ++ all.2)

/-- S_dev (R265), with the events of the pre-pass. -/
def devSquares (s : State) (p : TemperPlan) : TSum :=
  ((p.groups.zipIdx).filter (fun x => bit x.1.flags 3)).foldl (fun (acc : TSum) x =>
    let t := groupSquares s x.2 x.1
    TSum.add (acc.1, acc.2 ++ t.2) t.1 0 x.2 0) (0, [])

/-- The Stock ranges that the pre-pass reads: the gradients of the groups that are not frozen whole, and their masks. -/
def preRanges (p : TemperPlan) : List (Nat × Nat) :=
  (p.groups.filter (fun g => !groupFrozen g)).flatMap (fun g => (g.g, gBytes g * g.count) :: freezeRange g 0 g.count)

/-- A gradient that is not frozen is NaN or infinite. -/
def devNonfinite (s : State) (p : TemperPlan) : Bool :=
  p.groups.any (fun g => (List.range g.count).any (fun j => !frozenAt s g j && nonfinite (gradVal s g j)))

namespace State

/-- The step is skipped (R267). -/
def skipStep (s : State) (p : TemperPlan) : State :=
  let s1 := p.groups.foldl (fun t g => t.clearG g 0 g.count) { s with tmp := { s.tmp with skip := true } }
  (s1.count Reg.tmpSkipped).raise srcTemper 0x59 clsC 0

/-- The norm is known: clipf stands, and the step is skipped where the flag asks for it (R266, R267). -/
def normReady (s : State) (p : TemperPlan) (clipf : Nat) (bad : Bool) : State :=
  let s1 := ({ s with tmp := { s.tmp with ready := true, clipf := clipf } }).put Reg.tmpStatusPhase 3
  if bad && s.flag Reg.tmpCtrlSkipNonfinite then s1.skipStep p else s1

/-- The pre-pass runs in this step (R265). -/
def prepasses (s : State) : Bool := s.flag Reg.tmpCtrlPrepass || s.flag Reg.tmpCtrlClipEn

/-- STATUS.PHASE (Table 10-6): the pre-pass, the collective or the update while a range waits, then a push. -/
def tmpPhase (s : State) : State :=
  s.put Reg.tmpStatusPhase (
    if !s.tmp.ranges.isEmpty then (if s.tmp.ready then 3 else if s.flag Reg.tmpCtrlClipEn then 2 else 1)
    else if !s.tmp.pushes.isEmpty then 4 else 0)

/-- The first UPDATE entry of step `st` (R261, R265, R266). The pre-pass of a device that does not clip ends as its first range
does; with CLIP_EN the device's sum is contributed at once, unless a granule of G is poisoned (R277). -/
def beginUpdate (s : State) (range st : Nat) : State :=
  match tmpPlan s with
  | none => s
  | some p =>
    let s1 := { s with tmp := s.tmp.begin st }
    let s2 := if s.get Reg.tmpStep = st % 2 ^ 32 then s1
      else ((((s1.put Reg.tmpSkewStored (s.get Reg.tmpStep)).put Reg.tmpSkewCadence st).count Reg.tmpSkewCount).put
        Reg.tmpStep st).raise srcTemper 0x58 clsC 0
    if !s2.prepasses then s2.normReady p 0x3F800000 false
    else if s2.flag Reg.tmpCtrlClipEn then
      let (s3, bad) := s2.tmpRead (preRanges p) []
      if bad then s3.updFault range
      else
        let d := devSquares s3 p
        (s3.tmpTraps d.2).contribute p.normGroup [d.1] (b2n (devNonfinite s3 p))
    else s2

/-- The pre-pass of a device that does not clip ends: its reads are checked, its events trapped, and clipf is 1 (R265, R266).
DESIGN CHOICE (notes/assumptions/152): the commands give the checks of its reads with the range that follows it. -/
def endPrepass (s : State) (p : TemperPlan) (ecc : List EccRes) : State :=
  if s.tmp.ready || s.flag Reg.tmpCtrlClipEn then s
  else
    let (s1, bad) := s.tmpRead (preRanges p) ecc
    if bad then s1.updFault (s.tmp.ranges.headD 0)
    else (s1.tmpTraps (devSquares s1 p).2).normReady p 0x3F800000 (devNonfinite s1 p)

/-- An UPDATE entry fires (R260): its range waits, unless an earlier entry of the step has named it (DEDUCED,
notes/assumptions/155). -/
def fireUpdate (s : State) (range : Nat) : State :=
  let st := stepOf s.cad.angle
  let s1 := if s.tmp.step = some st then s else s.beginUpdate range st
  if s1.tmp.ranges.contains range || s1.tmp.done.contains range then s1
  else { s1 with tmp := { s1.tmp with ranges := s1.tmp.ranges ++ [range] } }.tmpPhase

/-- A WEIGHT_PUSH entry fires (R274). -/
def firePush (s : State) (range : Nat) : State := { s with tmp := { s.tmp with pushes := s.tmp.pushes ++ [range] } }.tmpPhase

/-- One group's update with its push images (R268 to R274). -/
def runGroup (s : State) (p : TemperPlan) (range entry st : Nat) (g : TmpGroup) (ecc : List EccRes) : State :=
  if s.tmp.failed then s
  else
    let k := scalarsOf p g s.tmp.clipf st
    let evs := (scalarRun p g s.tmp.clipf st).2.evs.map (fun e => (⟨e.2, 0, entry, 0⟩ : TmpEv))
    let s0 := (s.put Reg.tmpStatusGroup entry).tmpTraps (if groupFrozen g then [] else evs)
    let s1 :=
      if groupFrozen g then
        let (t, bad) := s0.tmpRead (if p.pushes.any (fun x => x.group == g.group) then [(g.w, 4 * g.count)] else []) ecc
        if bad then t.updFault range else t.clearG g 0 g.count
      else if g.rule = 3 then (blocksOf g).foldl (fun t b => t.runBlock range entry st g k ecc b) s0
      else if g.rule = 7 then
        (List.range (tilesOf g)).foldl (fun t i => t.runProgramTile range entry g k (p.programs.getD g.prog []) ecc i) s0
      else (List.range (tilesOf g)).foldl (fun t i => t.runTile range entry g k ecc i) s0
    if s1.tmp.failed then s1 else s1.buildImages p g

/-- Every update range that fires in the step has finished: STEP advances (R261, R278). -/
def endUpdate (s : State) (st : Nat) : State :=
  let all := (s.cad.strike.filter (fun e => e.kind == 0xB && firesIn e st)).map (fun e => e.target)
  if all.all (fun r => s.tmp.done.contains r) then
    ((s.put Reg.tmpStep (st + 1)).put Reg.tmpLastUpdated st).put Reg.tmpUpdCycles s.free |>.draw
  else s

/-- One range's update (R260, R267). -/
def runRange (s : State) (p : TemperPlan) (range st : Nat) (ecc : List EccRes) : State :=
  let s1 := if s.tmp.skip then s
    else (rangeEntries (p.updRanges.getD range (0, 0))).foldl (fun t e => match p.groups[e]? with
      | some g => t.runGroup p range e st g ecc
      | none => t) s
  if s1.tmp.failed then s1
  else ({ s1 with tmp := { s1.tmp with ranges := s1.tmp.ranges.filter (fun r => r != range), done := s1.tmp.done ++ [range] } }).endUpdate st |>.tmpPhase

/-- A core reset after COMMIT: Temper finishes every remaining range of the step (R278). Where the norm has not come, clipf
is a free value (notes/assumptions/49). -/
def finishUpdates (s : State) (st : Nat) : State :=
  match tmpPlan s with
  | none => s
  | some p =>
    let all := (s.cad.strike.filter (fun e => e.kind == 0xB && firesIn e st)).map (fun e => e.target)
    let s0 := if s.tmp.step = some st then s else s.beginUpdate (all.headD 0) st
    let s1 := s0.endPrepass p []
    let s2 := if s1.tmp.ready || s1.tmp.failed then s1 else (s1.normReady p (s1.free % 2 ^ 32) false).draw
    (all.filter (fun r => !s2.tmp.done.contains r)).foldl (fun t r => t.runRange p r st []) s2

/-- Restore: every image is rebuilt from W and every push runs (R275). `ecc`: the checks of the granules of W that are read
(R254). -/
def rebuildPushes (s : State) (ecc : List EccRes) : State :=
  match tmpPlan s with
  | none => s
  | some p =>
    let s0 := p.groups.foldl (fun t g => if p.pushes.any (fun x => x.group == g.group) then t.stockChecks g.w (4 * g.count) ecc else t) s
    let s1 := p.groups.foldl (fun t g => t.buildImages p g) s0
    p.pushes.foldl (fun t x => t.runPush x) s1

/-- The start state of a new job: no update is applied, L and R are zero, and PL and PR the identity (R261, R269). -/
def startShard (s : State) : State :=
  match tmpPlan s with
  | none => s
  | some p =>
    let ident := fun (n : Nat) => mat n n (fun i j => if i = j then Val.one else .zero)
    let zero := fun (n : Nat) => mat n n (fun _ _ => Val.zero)
    ((p.groups.filter (fun g => g.rule == 3)).foldl (fun t g => (blocksOf g).foldl (fun u b =>
      (((u.putMat (statAddr b 0) b.r (zero b.r)).putMat (statAddr b 1) b.c (zero b.c)).putMat (statAddr b 2) b.r (ident b.r)).putMat
        (statAddr b 3) b.c (ident b.c)) t) s).put Reg.tmpStep 0

end State

/-- NORM_RESULT: the norm collective returns the job sum and flag (R266, R267). `ecc`: the checks of the granules that the
pre-pass read (notes/assumptions/152). -/
def execNormResult (s : State) (ecc : List EccRes := []) : Host.Outcome State Fault Refusal :=
  match tmpPlan s with
  | none => void s
  | some p => match (s.reduceOf p.normGroup).result with
    | none => void s
    | some (vals, mask) =>
      if !s.alive || s.tmp.step.isNone || s.tmp.ready then void s
      else
        let sum := Val.ofF32 (vals.getD 0 0)
        let (n, q) := (⟨0, []⟩ : TSeq).op [sum] (Fn.sqrt sum)
        let limit := Val.ofF32 (s.get Reg.tmpClipNorm)
        let (clipf, q) := if n.lt limit || n.eqv limit then (Val.one, q) else q.op [limit, n] (Fn.div limit n)
        let (s0, bad) := s.tmpRead (preRanges p) ecc
        if bad then .next (s0.updFault (s.tmp.ranges.headD 0))
        else
          let s1 := (s0.tmpTraps (q.evs.map (fun e => ⟨e.2, 0, 0, 0⟩))).put Reg.tmpLastNorm (toF32 false n)
          let s2 := if clipf.lt .one then s1.count Reg.tmpClipped else s1
          .next (s2.normReady p (toF32 false clipf) (bit mask 0)).tmpPhase

/-- UPDATE_RANGE_DONE: Temper finishes every group of the oldest range with its push images, or stops on an update fault
(R260, R277). -/
def execUpdateRangeDone (range : Nat) (ecc : List EccRes) (s : State) : Host.Outcome State Fault Refusal :=
  match tmpPlan s, s.tmp.step with
  | some p, some st =>
    if !s.alive || s.tmp.ranges.head? != some range || (!s.tmp.ready && s.flag Reg.tmpCtrlClipEn) || s.tmp.failed then void s
    else
      let s1 := s.endPrepass p ecc
      .next (if s1.tmp.failed then s1 else s1.runRange p range st ecc)
  | _, _ => void s

/-- Every group that a push range reads has finished its update in the step (R274). -/
def pushReady (s : State) (p : TemperPlan) (range : Nat) : Bool :=
  (rangeEntries (p.pushRanges.getD range (0, 0))).all (fun i => match p.pushes[i]? with
    | some x => s.tmp.done.any (fun r => (rangeEntries (p.updRanges.getD r (0, 0))).any (fun e =>
        match p.groups[e]? with
        | some g => g.group == x.group
        | none => false))
    | none => true)

/-- WEIGHT_PUSH_DONE: every byte of a push range has landed (R274). -/
def execWeightPushDone (range : Nat) (ecc : List EccRes) (s : State) : Host.Outcome State Fault Refusal :=
  match tmpPlan s with
  | none => void s
  | some p =>
    if !s.alive || !s.tmp.pushes.contains range || !pushReady s p range then void s
    else
      let s1 := (rangeEntries (p.pushRanges.getD range (0, 0))).foldl (fun t i => match p.pushes[i]? with
        | some x => (((List.range (pushRows x)).foldl (fun t r => t.stockChecks (x.img + r * x.stride) (pushRow (pushFmt x) x) ecc) t).stockChecks
            (imgScales x) (if x.mx then pushRows x * (x.rowLen / 32) else 0) ecc).runPush x
        | none => t) s
      .next { s1 with tmp := { s1.tmp with pushes := s1.tmp.pushes.filter (fun r => r != range), pushed := s1.tmp.pushed ++ [range] } }.tmpPhase

/-- TMP_TRAP_CLEAR: a write of 1 to TMP.TRAP_STATUS.VALID clears and re-arms the record (R276), unless
an event of Temper arrives in the cycle of the write, which wins (R13, R96). -/
def execTmpTrapClear (s : State) (event : Bool := false) : Host.Outcome State Fault Refusal :=
  if event then .next s
  else .next ((((((((s.put Reg.tmpTrapStatusValid 0).put Reg.tmpTrapStatusCause 0).put Reg.tmpTrapStatusEngine 0).put
    Reg.tmpTrapGroup 0).put Reg.tmpTrapIndexLo 0).put Reg.tmpTrapIndexHi 0).put Reg.tmpTrapAngleLo 0).put Reg.tmpTrapAngleHi 0)

end Sys2Proof.Machine
end

