-- ==== Sys2Proof/Machine/Bloom.lean ====
section
/-!
DEFINITION. Machine/Bloom.lean: sample ingest (chapter 13): indices and cursors (R337 to R339), framing (R340 to R345),
header checks (R346), decode (R347, R348), colour and normalisation (R349, R350), deadlines, spares and skips (R351 to
R355), aborts (R357), replay (R358), and the pools (R359). -/

namespace Sys2Proof.Machine

/-! ## Layout (R336) -/

/-- Channels of a stream. -/
def channelsOf (d : BloomStream) : Nat := if d.ch3 then 3 else 1

/-- The output format of a stream. -/
def bloomFmt (d : BloomStream) : Fmt := if d.ofmt = 0 then .bf16 else if d.ofmt = 1 then .e4m3 else .e5m2

/-- Bytes of one element. -/
def bloomSize (d : BloomStream) : Nat := (bloomFmt d).width / 8

/-- ROW_STRIDE. -/
def rowStride (d : BloomStream) : Nat := roundUp (d.outW * bloomSize d) 128

/-- FRAME_STRIDE. -/
def frameStride (d : BloomStream) : Nat := d.outH * rowStride d

/-- PLANE_STRIDE. -/
def planeStride (d : BloomStream) : Nat := d.outF * frameStride d

/-- SAMPLE_BYTES. -/
def sampleBytes (d : BloomStream) : Nat := channelsOf d * planeStride d

/-- Slot `k` of microbatch `mb`'s buffer. -/
def slotAddr (d : BloomStream) (mb k : Nat) : Nat := d.bufAddr + (mb % d.nbuf * d.b + k) * sampleBytes d

/-- Spare slot `e`. -/
def spareAddr (d : BloomStream) (e : Nat) : Nat := d.resAddr + e * sampleBytes d

/-! ## Colour and normalisation (R349, R350) -/

/-- The FP32 value nearest to p / q. -/
def ratio (neg : Bool) (p q : Nat) : Val := f32 (Fn.div (.fin neg p 0) (.fin false q 0))

/-- An integer difference as FP32. -/
def f32diff (a b : Nat) : Val := if b ≤ a then f32n (a - b) else (f32n (b - a)).negate

/-- Kr and Kb of a matrix (1 BT.601, 2 BT.709, 3 BT.2020), in ten-thousandths. -/
def krKb (colour : Nat) : Nat × Nat := if colour = 1 then (2990, 1140) else if colour = 2 then (2126, 722) else (2627, 593)

/-- R, G and B of a pixel, or luma three times, clamped to [0, 1] (R349). -/
def pixel (colour n : Nat) (full ch3 mono : Bool) (yy cb cr : Nat) : List Val :=
  let oY := if full then 0 else 16 * 2 ^ (n - 8)
  let sY := if full then ratio false 1 (2 ^ n - 1) else ratio false 1 (219 * 2 ^ (n - 8))
  let oC := if full then 2 ^ (n - 1) else 128 * 2 ^ (n - 8)
  let sC := if full then ratio false 1 (2 ^ n - 1) else ratio false 1 (224 * 2 ^ (n - 8))
  let y := f32 ((f32diff yy oY).mul sY)
  let b := if mono then Val.zero else f32 ((f32diff cb oC).mul sC)
  let r := if mono then Val.zero else f32 ((f32diff cr oC).mul sC)
  let (kr, kb) := krKb colour
  let kg := 10000 - kr - kb
  let clamp := fun v => maxVal (minVal v .one) .zero
  if ch3 then
    let rr := fmaV (ratio false (2 * (10000 - kr)) 10000) r y
    let gg := fmaV (ratio true (2 * kb * (10000 - kb)) (kg * 10000)) b
      (fmaV (ratio true (2 * kr * (10000 - kr)) (kg * 10000)) r y)
    let bb := fmaV (ratio false (2 * (10000 - kb)) 10000) b y
    [clamp rr, clamp gg, clamp bb]
  else [clamp y]

/-- The code of a normalised channel value (R350). -/
def normCode (d : BloomStream) (c : Nat) (v : Val) : Nat :=
  let a := f32 (v.add (Val.ofF32 (d.mean.getD c 0)).negate)
  (convert (bloomFmt d) false false (f32 (a.mul (Val.ofF32 (d.scale.getD c 0))))).code

/-- The matrix and range of a picture: those of the stream, or of the bitstream where COLOUR is 0; JPEG is BT.601 and
full range; none for a matrix code that is not accepted (R349). -/
def colourOf (d : BloomStream) (p : Picture) : Option (Nat × Bool) :=
  if d.kind = 3 then some (1, true)
  else if d.colour ≠ 0 then some (d.colour, d.full)
  else match p.matrix with
    | none => some (2, p.full)
    | some m => if m = 1 then some (2, p.full) else if m = 5 ∨ m = 6 then some (1, p.full)
      else if m = 9 then some (3, p.full) else none

/-- The rows of a sample's tensor, channel-major, from its coded bytes: none where it is malformed (R347 to R350). -/
def sampleRows (d : BloomStream) (coded : List Byte) : Option (List (List Byte)) :=
  let rowBytes := d.outW * bloomSize d
  let rows := channelsOf d * d.outF * d.outH
  if d.kind = 0 then
    if coded.length = rows * rowBytes then some ((List.range rows).map (fun i => (coded.drop (i * rowBytes)).take rowBytes))
    else none
  else match Config.decode d.kind coded with
    | none => none
    | some p => match colourOf d p with
      | none => none
      | some (colour, full) =>
        if p.frames.length ≠ d.outF then none
        else
          let cw := if p.sub = 0 then d.outW else (d.outW + 1) / 2
          some ((List.range rows).map (fun i =>
            let c := i / (d.outF * d.outH)
            let f := i / d.outH % d.outF
            let y := i % d.outH
            let (ys, cbs, crs) := p.frames.getD f ([], [], [])
            (List.range d.outW).flatMap (fun x =>
              let ci := (if p.sub = 2 then y / 2 else y) * cw + (if p.sub = 0 then x else x / 2)
              let vs := pixel colour p.depth full d.ch3 p.mono (ys.getD (y * d.outW + x) 0) (cbs.getD ci 0) (crs.getD ci 0)
              leBytes (bloomSize d) (normCode d c (vs.getD c .zero)))))

/-! ## Streams -/

/-- The descriptor of a table entry. -/
def bloomAt (s : State) (e : Nat) : Option BloomStream :=
  match s.billet with
  | some b => b.bloom[e]?
  | none => none

/-- The cursor before a job (R337). -/
def Cursor.zero : Cursor := { base := 0, next := 0, reserve := [], late := 0, skip := 0, pending := [] }

/-- A stream before a job. -/
def BStream.init : BStream := { cursor := Cursor.zero, committed := Cursor.zero, fills := [], spares := [], samples := [], held := [] }

/-- A sample that has just been given. -/
def newSample (i : Nat) : Sample := { index := i, requested := false, bytes := [], total := none, engine := none, tries := 0 }

/-- A slot that has just been given an index. -/
def newFill (step mb slot index : Nat) : Fill :=
  { step := step, mb := mb, slot := slot, index := index, done := false, early := false, skipped := none, spare := none }

/-- A sample's coded bytes have all landed. -/
def Sample.landed (x : Sample) : Bool := x.total == some x.bytes.length

/-- Engines of a kind on a die: 16 for video, 4 for JPEG (R347); RAW needs none. -/
def enginesOf (kind : Nat) : Nat := if kind = 3 then 4 else if kind = 0 then 0 else 16

namespace State

/-- A stream of the table. -/
def bstream (s : State) (e : Nat) : BStream := Assoc.get BStream.init s.blm.streams e

/-- Write a stream. -/
def setBstream (s : State) (e : Nat) (x : BStream) : State :=
  { s with blm := { s.blm with streams := Assoc.put s.blm.streams e x } }

/-- The table's entries. -/
def bloomEntries (s : State) : List Nat :=
  match s.billet with
  | some b => List.range b.bloom.length
  | none => []

/-- The busy bits of a kind of engine. -/
def busyField (kind : Nat) : Fld := if kind = 3 then Reg.blmJpegBusy else Reg.blmVideoBusy

/-- The lowest free engine of a kind on a die, as a bit of its busy register (notes/assumptions/50). -/
def freeEngine (s : State) (kind die : Nat) : Option Nat :=
  (List.range (enginesOf kind)).find? (fun i => !bit (s.get (busyField kind)) (die * enginesOf kind + i)) |>.map
    (fun i => die * enginesOf kind + i)

/-- Free an engine. -/
def freeBusy (s : State) (kind : Nat) (x : Sample) : State :=
  match x.engine with
  | some i => if bit (s.get (busyField kind)) i then s.put (busyField kind) (s.get (busyField kind) - 2 ^ i) else s
  | none => s

/-- The landed samples that wait for an engine of a kind and die, with their streams. -/
def waitingSamples (s : State) (kind die : Nat) : List (Nat × Sample) :=
  s.bloomEntries.flatMap (fun e => match bloomAt s e with
    | some d =>
      if d.die = die ∧ (if kind = 3 then d.kind = 3 else d.kind = 1 ∨ d.kind = 2) then
        ((s.bstream e).samples.filter (fun x => x.landed && x.engine.isNone)).map (fun x => (e, x))
      else []
    | none => [])

/-- The pair of the lowest index; of equal indices the earlier stream's. -/
def lowestSample (l : List (Nat × Sample)) : Option (Nat × Sample) :=
  l.foldl (fun b x => match b with
    | none => some x
    | some y => if x.2.index < y.2.index then some x else some y) none

/-- A sample of a stream changes. -/
def setSample (s : State) (e : Nat) (x : Sample) : State :=
  let b := s.bstream e
  s.setBstream e { b with samples := b.samples.map (fun y => if y.index = x.index then x else y) }

/-- Free engines of a kind and die take the lowest landed samples (R347). -/
def assignEngines (s : State) (kind die : Nat) : Nat → State
  | 0 => s
  | k + 1 =>
    match s.freeEngine kind die, lowestSample (s.waitingSamples kind die) with
    | some i, some (e, x) =>
      ((s.setSample e { x with engine := some i }).put (busyField kind) (s.get (busyField kind) + 2 ^ i)).assignEngines kind die k
    | _, _ => s

/-- Every free engine takes work. -/
def assignAll (s : State) : State :=
  (((s.assignEngines 1 0 16).assignEngines 1 1 16).assignEngines 3 0 4).assignEngines 3 1 4

/-- An outstanding sample is gone: its engine and ring space are free (R340). -/
def dropSample (s : State) (e index : Nat) : State :=
  match bloomAt s e, (s.bstream e).samples.find? (fun x => x.index == index) with
  | some d, some x =>
    let b := s.bstream e
    (s.freeBusy d.kind x).setBstream e { b with samples := b.samples.filter (fun y => y.index != index) }
  | _, _ => s

/-- The first spare slot that no spare occupies. -/
def freePlace (d : BloomStream) (l : List Spare) : Option Nat :=
  (List.range d.reserve).find? (fun k => !(l.any (fun x => x.place == some k)))

/-- Spares without a slot take the free ones, in order of entry. -/
def placeSpares (d : BloomStream) (l : List Spare) : List Spare :=
  l.foldl (fun acc x =>
    let rest := l.drop acc.length
    if x.place.isSome then acc ++ [x] else acc ++ [{ x with place := freePlace d (acc ++ rest) }]) []

/-- The index NEXT enters the reserve, and NEXT rises by one (R338). -/
def appendReserve (s : State) (e : Nat) : State :=
  match bloomAt s e with
  | none => s
  | some d =>
    let b := s.bstream e
    let n := b.cursor.next
    let sp : Spare := { index := n, place := none, done := false, taken := false }
    s.setBstream e { b with
      cursor := { b.cursor with next := n + 1, reserve := b.cursor.reserve ++ [n] }
      spares := placeSpares d (b.spares ++ [sp])
      samples := b.samples ++ [newSample n] }

/-- Copy a decoded spare into a slot: into Hearth through a Flux engine unchanged (R23). A poisoned granule arrives as poison
(R29). -/
def copySpare (s : State) (d : BloomStream) (place mb slot : Nat) : State :=
  let src := spareAddr d place
  let dst := slotAddr d mb slot
  let n := sampleBytes d
  let bs := s.hbm.readBytes src n
  let bad := s.hbmBad src n
  if d.mem = 1 then
    let t := s.writeHbm dst bs
    if bad then t.poisonHbm (granules dst n) else t
  else
    let h := (s.hearth d.die).writeBytes dst bs
    (s.setHearth d.die (if bad then h.poison dst n else h)).fluxPass (groupBase d.die 0 2 src) n

/-- A fill is replaced in a stream. -/
def setFill (s : State) (e : Nat) (f : Fill) : State :=
  let b := s.bstream e
  s.setBstream e { b with fills := b.fills.map (fun g => if g.step = f.step ∧ g.mb = f.mb ∧ g.slot = f.slot then f else g) }

/-- A slot waits for a spare: it is copied at once where it is decoded (R353). -/
def giveSpare (s : State) (e : Nat) (f : Fill) (index : Nat) : State :=
  match bloomAt s e, (s.bstream e).spares.find? (fun x => x.index == index) with
  | some d, some x =>
    match x.done, x.place with
    | true, some k =>
      let s1 := (s.copySpare d k f.mb f.slot).setFill e { f with spare := some index, done := true }
      let b := s1.bstream e
      s1.setBstream e { b with spares := placeSpares d (b.spares.filter (fun y => y.index != index)) }
    | _, _ =>
      let s1 := s.setFill e { f with spare := some index }
      let b := s1.bstream e
      s1.setBstream e { b with spares := b.spares.map (fun y => if y.index = index then { y with taken := true } else y) }
  | _, _ => s

/-- A substitution's journal entry and its place in the cursor (R339, Table 16-8). -/
def recordSubst (s : State) (e stream : Nat) (u : Subst) : State :=
  let b := s.bstream e
  (s.setBstream e { b with cursor := { b.cursor with pending := b.cursor.pending ++ [u] } }).journalInternal 1 2
    [(33, 1, u.reason), (34, 1, u.mb), (35, 1, u.slot), (36, 4, stream), (40, 8, u.index), (48, 8, u.spare), (56, 4, u.step),
     (60, 2, u.attempt)]

/-- A substitution: the oldest spare fills the slot, and NEXT enters the reserve (R338, R353); with RESERVE at 0 the
slot takes NEXT itself (R355). -/
def substitute (s : State) (e : Nat) (f : Fill) (reason : Nat) : State :=
  match bloomAt s e with
  | none => s
  | some d =>
    let b := s.bstream e
    match b.cursor.reserve with
    | [] =>
      let n := b.cursor.next
      let u : Subst := { step := f.step, mb := f.mb, slot := f.slot, index := f.index, spare := n, reason := reason
                         attempt := s.cad.attempt }
      let s1 := (s.setBstream e { b with cursor := { b.cursor with next := n + 1 }, samples := b.samples ++ [newSample n] }).setFill e
        { f with index := n, skipped := none }
      (s1.count Reg.blmNospare).recordSubst e d.stream u
    | i :: rest =>
      let u : Subst := { step := f.step, mb := f.mb, slot := f.slot, index := f.index, spare := i, reason := reason
                         attempt := s.cad.attempt }
      let s1 := s.setBstream e { b with cursor := { b.cursor with reserve := rest } }
      ((s1.giveSpare e { f with skipped := none } i).appendReserve e).recordSubst e d.stream u

/-- A sample is skipped (R354): reason 0 header, 1 decode, 2 absent. A spare leaves the reserve; where a slot waits for
it, the next oldest serves. -/
def skipSample (s : State) (e index reason : Nat) : State :=
  match bloomAt s e with
  | none => s
  | some d =>
    let s1 := (((((s.dropSample e index).count Reg.blmSkip).count
      (if reason = 0 then Reg.blmSkipHdr else if reason = 1 then Reg.blmSkipDecode else Reg.blmSkipAbsent)).put
      Reg.blmLastSkipStream d.stream).put Reg.blmLastSkipReason reason).put64 Reg.blmLastSkipIndexLo Reg.blmLastSkipIndexHi index
    let b := s1.bstream e
    let b1 := { b with cursor := { b.cursor with skip := b.cursor.skip + 1 } }
    match b1.spares.find? (fun x => x.index == index) with
    | some x =>
      let s2 := s1.setBstream e { b1 with
        spares := placeSpares d (b1.spares.filter (fun y => y.index != index))
        cursor := { b1.cursor with reserve := b1.cursor.reserve.filter (fun i => i != index) } }
      let s3 := if x.taken then
          match (s2.bstream e).fills.find? (fun f => f.spare == some index && !f.done), (s2.bstream e).cursor.reserve with
          | some f, i :: rest =>
            let b2 := s2.bstream e
            (s2.setBstream e { b2 with cursor := { b2.cursor with reserve := rest } }).giveSpare e f i
          | _, _ => s2
        else s2
      s3.appendReserve e
    | none =>
      s1.setBstream e { b1 with fills := b1.fills.map (fun f =>
        if f.index = index ∧ f.spare = none ∧ f.done = false then { f with skipped := some reason } else f) }

/-- Deadlines are not applied to a microbatch whose deadline lies before the run's start angle, nor in a replay (R352,
R358). -/
def noDeadline (s : State) (d : BloomStream) (openAngle : Nat) : Bool :=
  decide (openAngle < s.blm.start + d.lead) || s.flag Reg.blmStatusReplay

/-- The slots of a microbatch, in slot order. -/
def fillsOf (s : State) (e step mb : Nat) : List Fill := (s.bstream e).fills.filter (fun f => f.step == step && f.mb == mb)

/-- BLOOM_DEADLINE of one microbatch (R353 to R355). -/
def deadline (s : State) (e step mb : Nat) : State :=
  match bloomAt s e with
  | none => s
  | some d =>
    (s.fillsOf e step mb).foldl (fun t f =>
      if f.done || f.spare.isSome then t
      else match f.skipped with
        | some r => t.substitute e f (r + 1)
        | none =>
          if d.reserve = 0 then t.count Reg.blmNospare
          else
            let t1 := (t.dropSample e f.index).count Reg.blmLate
            let b := t1.bstream e
            (t1.setBstream e { b with cursor := { b.cursor with late := b.cursor.late + 1 } }).substitute e f 0) s

/-- Fill the skipped slots of a microbatch whose deadline is not applied, as its gate is evaluated (R352). -/
def fillSkipped (s : State) (e step mb : Nat) : State :=
  if s.flag Reg.blmStatusReplay then s
  else (s.fillsOf e step mb).foldl (fun t f => match f.skipped with
    | some r => t.substitute e f (r + 1)
    | none => t) s

/-- The deadlines that fall at angle `a`, by stream, microbatch and slot (R338, R351). -/
def deadlinesAt (s : State) (a : Nat) : State :=
  s.bloomEntries.foldl (fun t e => match bloomAt t e with
    | none => t
    | some d =>
      let o := a + d.lead
      if t.noDeadline d o then t
      else
        let mbs := (t.cad.strike.filter (fun x => x.kind == 3 && x.target == e && x.stroke == strokeOf o && firesIn x (stepOf o))).map
          (fun x => x.arg)
        (List.range d.mbs).foldl (fun u j => if mbs.contains j then u.deadline e (stepOf o) j else u) t) s

/-- The slots and samples of a step's run of indices (R337). -/
def giveStep (s : State) (e step : Nat) : State :=
  match bloomAt s e with
  | none => s
  | some d =>
    let b := s.bstream e
    let fs := (positions d.mbs d.b).map (fun (j, k) => newFill step j k (b.cursor.base + j * d.b + k))
    s.setBstream e { b with fills := b.fills ++ fs, samples := b.samples ++ fs.map (fun f => newSample f.index) }

/-- The start of a new job's cursor (R337). -/
def startStream (s : State) (e : Nat) : State :=
  match bloomAt s e with
  | none => s
  | some d =>
    let res := List.range d.reserve
    let c : Cursor := { base := d.reserve, next := d.reserve + d.mbs * d.b, reserve := res, late := 0, skip := 0, pending := [] }
    let sp := placeSpares d (res.map (fun i => { index := i, place := none, done := false, taken := false }))
    (s.setBstream e { BStream.init with cursor := c, committed := c, spares := sp, samples := res.map newSample }).giveStep e 0

/-- INTAKE_CLOSE of a stream in a step (R337). -/
def intakeClose (s : State) (e step : Nat) : State :=
  match bloomAt s e with
  | none => s
  | some d =>
    let b := s.bstream e
    let n := b.cursor.next
    (s.setBstream e { b with cursor := { b.cursor with base := n, next := n + d.mbs * d.b, pending := [] } }).giveStep e (step + 1)

/-- Every slot of a microbatch is filled: the INTAKE_OPEN condition (R355, Table 2-4). -/
def intakeReady (s : State) (e step mb : Nat) : Bool :=
  !(s.fillsOf e step mb).isEmpty && (s.fillsOf e step mb).all (fun f => f.done)

/-- The pools of R359. -/
def bloomBalanced (s : State) : Bool :=
  let pop := fun (n : Nat) => ((List.range 32).filter (fun i => bit n i)).length
  s.get Reg.blmStreams == s.blmStreams.length &&
  (s.bloomEntries.all (fun e => match bloomAt s e with
    | some d =>
      let b := s.bstream e
      decide (b.held.length ≤ d.nbuf) && (b.cursor.reserve.length == d.reserve || s.blm.streams.isEmpty) &&
      decide ((b.samples.filter (fun x => x.requested)).length * d.maxCoded ≤ d.window)
    | none => true)) &&
  pop (s.get Reg.blmVideoBusy) + pop (s.get Reg.blmJpegBusy) ==
    (s.bloomEntries.map (fun e => ((s.bstream e).samples.filter (fun x => x.engine.isSome)).length)).foldl (· + ·) 0

/-- R359's check. -/
def auditBloom (s : State) : State :=
  if s.bloomBalanced then s
  else s.raise srcBloom 0x34 clsF ((s.bloomEntries.find? (fun e => match bloomAt s e with
    | some d => (s.bstream e).cursor.reserve.length != d.reserve
    | none => false)).getD 0)

/-- INTAKE_OPEN fires: the stage may read the microbatch's buffer (R356). -/
def intakeOpen (s : State) (e step mb : Nat) : State :=
  let b := s.bstream e
  (s.setBstream e { b with held := b.held ++ [(step, mb)] }).auditBloom

/-- STAGE_END of CONS_DESC with ARG `mb` releases the buffer (R356). -/
def releaseBuffers (s : State) (desc step mb : Nat) : State :=
  s.bloomEntries.foldl (fun t e => match bloomAt t e with
    | some d =>
      if d.consDesc = desc then
        let b := t.bstream e
        t.setBstream e { b with held := b.held.filter (fun h => h != (step, mb))
                                fills := b.fills.filter (fun f => !(f.step == step && f.mb == mb)) }
      else t
    | none => t) s

/-- At s:0x0000 every cursor is copied (R339), and what is filled counts as filled before the step (R357). -/
def commitCursors (s : State) : State :=
  s.bloomEntries.foldl (fun t e =>
    let b := t.bstream e
    t.setBstream e { b with committed := b.cursor, fills := b.fills.map (fun f => { f with early := f.done }) }) s

/-- A pending substitution of a cursor is made again (R352): the slot takes the spare's place in the run. -/
def applyPending (s : State) (e : Nat) (u : Subst) : State :=
  match (s.bstream e).fills.find? (fun f => f.step == u.step && f.mb == u.mb && f.slot == u.slot) with
  | some f =>
    let b := s.bstream e
    s.setBstream e { b with
      fills := b.fills.map (fun g => if g = f then { f with index := u.spare } else g)
      samples := (b.samples.filter (fun x => x.index != f.index)) ++ [newSample u.spare] }
  | none => s

/-- Rebuild a stream from a cursor for a step (R352, R357): what it still holds is kept, the rest is asked for again. -/
def rebuildStream (s : State) (e step : Nat) (c : Cursor) : State :=
  match bloomAt s e with
  | none => s
  | some d =>
    let b := s.bstream e
    let s1 := b.samples.foldl (fun t x => t.freeBusy d.kind x) s
    let kept := b.spares.filter (fun x => x.done && !x.taken && c.reserve.contains x.index)
    let sp := c.reserve.map (fun i => match kept.find? (fun x => x.index == i) with
      | some x => x
      | none => { index := i, place := none, done := false, taken := false })
    let old := b.fills.filter (fun f => f.step == step && f.done && f.early)
    let s2 := s1.setBstream e { BStream.init with
      cursor := c, committed := c, spares := placeSpares d sp, samples := ((sp.filter (fun x => !x.done)).map (fun x => newSample x.index)) }
    let s3 := c.pending.foldl (fun t u => t.applyPending e u) (s2.giveStep e step)
    let b3 := s3.bstream e
    let has := fun (f : Fill) => old.any (fun g => g.mb == f.mb && g.slot == f.slot && g.spare.getD g.index == f.index)
    s3.setBstream e { b3 with
      fills := b3.fills.map (fun f => if has f then { f with done := true, early := true } else f)
      samples := b3.samples.filter (fun x => !(b3.fills.any (fun f => f.index == x.index && has f))) }

/-- An abort of R64, or a core reset: every cursor returns to its committed copy (R357). -/
def abortBloom (s : State) (step : Nat) : State :=
  let s1 := s.bloomEntries.foldl (fun t e => t.rebuildStream e step (t.bstream e).committed) s
  { s1 with blm := { s1.blm with start := angleOf step 0 } }

/-- A new job starts at step 0 (R337). -/
def startBloom (s : State) : State :=
  let s1 := s.bloomEntries.foldl (fun t e => t.startStream e) s
  { s1 with blm := { s1.blm with start := 0 } }

/-- The substitutions of a replay that were made at angle `a` are made again, in their order (R358). -/
def replayAt (s : State) (a : Nat) : State :=
  let now := s.blm.replay.filter (fun r => r.angle == a)
  let s1 := { s with blm := { s.blm with replay := s.blm.replay.filter (fun r => r.angle != a) } }
  now.foldl (fun t r =>
    match (t.bstream r.entry).fills.find? (fun f => f.step == r.sub.step && f.mb == r.sub.mb && f.slot == r.sub.slot) with
    | some f => (t.dropSample r.entry f.index).substitute r.entry f r.sub.reason
    | none => t) s1

/-! ## Frames -/

/-- The header of a Bloom frame (Table 13-2). -/
def bloomHeader (type len stream index offset total nonce : Nat) : List Byte :=
  leBytes 4 (type % 256 + 2 ^ 8 + len % 2 ^ 14 * 2 ^ 16) ++ leBytes 4 (stream % 2 ^ 20) ++ leBytes 8 index ++ leBytes 4 offset ++
  leBytes 4 total ++ leBytes 8 nonce

/-- A feeder's link. -/
def feeder (s : State) (k : Nat) : FeederLink :=
  Assoc.get FeederLink.init s.blm.feeders k

/-- Write a feeder's link. -/
def setFeeder (s : State) (k : Nat) (x : FeederLink) : State :=
  { s with blm := { s.blm with feeders := Assoc.put s.blm.feeders k x } }

/-- Send a Bloom frame of a stream to its feeder (R342, R343). -/
def sendBloom (s : State) (d : BloomStream) (type index offset total : Nat) : State :=
  if d.ethernet then
    let x := s.feeder d.feeder
    let h := bloomHeader type 0 d.stream index offset total x.txNonce
    (s.setFeeder d.feeder { x with txNonce := x.txNonce + 1 }).emit (.udp (8 + d.iface % 4) (d.iface / 4)
      (h ++ leBytes 16 (Config.gcmTag (x.txKey.take 32) (x.txKey.drop 32 ++ leBytes 8 x.txNonce) h [])))
  else
    let dst := match s.billet with
      | some b => b.feeders.getD d.feeder 0
      | none => 0
    s.sendRouted (s.newPacket 0x19 false dst d.stream 0 (.bytes (bloomHeader type 0 d.stream index offset total 0)))

/-- At `ARM` and restore, Bloom encapsulates to every feeder's key and sends HELLO (R344): over Ethernet in a HELLO
frame, over the fabric in ATTEST packets. -/
def helloFeeders (s : State) : State :=
  match s.billet with
  | none => s
  | some b =>
    (b.feeders.zipIdx).foldl (fun t (a, k) =>
      match b.bloom.find? (fun d => d.feeder == k) with
      | none => t
      | some d =>
        let n := t.free
        let t1 := (t.draw).setFeeder k { FeederLink.init with
          hello := true, mine := n / 2 ^ (8 * 1088) % 2 ^ 64, secret := Config.kemSecret k n }
        if d.ethernet then
          t1.emit (.udp (8 + d.iface % 4) (d.iface / 4) (bloomHeader 1 1096 0 0 0 0 0 ++ leBytes 1096 n))
        else t1.sendRouted (t1.newPacket 0x0A false a 0 0 (.bytes (leBytes 1016 n)))) s

end State

/-- The table entry that holds a stream ID. -/
def entryOf (s : State) (stream : Nat) : Option (Nat × BloomStream) :=
  s.bloomEntries.findSome? (fun e => match bloomAt s e with
    | some d => if d.stream = stream ∧ s.blmStreams.contains stream then some (e, d) else none
    | none => none)

/-- A frame of Ethernet whose tag fails or whose NONCE is not above the last (R343). -/
def frameStale (s : State) (d : BloomStream) (f : BloomFrame) : Bool :=
  d.ethernet && (!f.tagOk || !(s.feeder d.feeder).keyed || (match (s.feeder d.feeder).rxNonce with
    | some n => decide (f.nonce ≤ n)
    | none => false))

/-- The NONCE of an accepted frame is the last one. -/
def State.takeNonce (s : State) (d : BloomStream) (f : BloomFrame) : State :=
  if d.ethernet then s.setFeeder d.feeder { s.feeder d.feeder with rxNonce := some f.nonce } else s

/-- The checks of R346 on a sample's first DATA frame. -/
def headerOk (d : BloomStream) (f : BloomFrame) (h : CodedHead) : Bool :=
  decide (f.total ≤ d.maxCoded) &&
  (if d.kind = 0 then f.total == channelsOf d * d.outF * d.outH * d.outW * bloomSize d
   else h.supported && (if d.kind = 3 then decide (h.width ≤ 8192 ∧ h.height ≤ 8192) else decide (h.width ≤ 4096 ∧ h.height ≤ 2304)) &&
     h.width == d.outW && h.height == d.outH && h.frames == d.outF &&
     decide (d.outW * d.outH * d.outF ≤ d.maxRatio * f.total))

/-- ETH_FRAME: the filters of R296; a valid solicitation is answered, everything else that is not Bloom's is dropped and
counted (R295). -/
def execEthFrame (port iface : Nat) (frame : EthFrame) (s : State) : Host.Outcome State Fault Refusal :=
  if s.get (Reg.fabCtrlMode port) ≠ 1 ∨ port < 8 ∨ 12 ≤ port ∨ s.get (Reg.fabStatusState port) ≠ 5 then void s
  else if frame.fcsOk && frame.pause then .next (s.count (Reg.fabEthPause port))
  else
    let pass := frame.fcsOk && (frame.toMac || frame.toGroup) && frame.etherType == 0x86DD && !frame.extension && !frame.fragment
    if pass && frame.nextHeader == 17 && frame.udpPort == s.get Reg.blmEthPort then .next s
    else if pass && frame.nextHeader == 58 && frame.solicitsUs then .next (s.emit (.advert port iface))
    else .next (s.count (Reg.fabEthDrop port))

/-- The 36 bytes of one direction of a feeder link (R344), from the secret, the feeder table's entry, and both ends' random bytes.
DESIGN CHOICE (notes/assumptions/162): the two directions are told apart by a last byte, 0 from the device and 1 to it. -/
def feederKey (secret entry mine peer dir : Nat) : List Byte :=
  Config.hkdf secret (Config.ascii "TRZ-2080 feeder" ++ leBytes 8 Config.serialDigest ++ leBytes 2 entry ++ leBytes 8 mine ++ leBytes 8 peer ++ leBytes 1 dir) 36

namespace State

/-- The port of a fabric feeder that is this device's neighbour seals with the key of R344 (R313, R342). -/
def sealFeeder (s : State) (k : Nat) : State :=
  match s.billet with
  | none => s
  | some b =>
    if !(b.bloom.any (fun d => d.feeder == k && !d.ethernet)) || !s.flag Reg.netCtrlSeal then s
    else match s.portTo (b.feeders.getD k 0) with
      | some p => if s.get (Reg.fabSealState p) = 0 then s.sendHello p else s
      | none => s

end State

/-- BLOOM_HELLO: the feeder's random bytes complete the exchange, and the link's keys are derived (R344). -/
def execBloomHello (feeder random : Nat) (s : State) : Host.Outcome State Fault Refusal :=
  let x := s.feeder feeder
  if !s.alive || !x.hello then void s
  else .next ((s.setFeeder feeder { x with
    keyed := true, txNonce := 0, rxNonce := none, txKey := feederKey x.secret feeder x.mine (random % 2 ^ 64) 0
    rxKey := feederKey x.secret feeder x.mine (random % 2 ^ 64) 1 }).sealFeeder feeder)

/-- The indices of a stream given and not requested, ascending. -/
def unrequested (b : BStream) : List Nat :=
  ((b.samples.filter (fun x => !x.requested)).map (fun x => x.index)).foldl (fun l i => insertNat i l) []

/-- The leading run of consecutive numbers of a list, at most `k`. -/
def leadingRun : Nat → List Nat → List Nat
  | 0, _ => []
  | _, [] => []
  | _, [a] => [a]
  | k + 1, a :: b :: r => if b = a + 1 then a :: leadingRun k (b :: r) else [a]

/-- REQUEST: the lowest indices not yet requested are asked for, as far as the coded ring has room (R340). -/
def execRequest (entry : Nat) (s : State) : Host.Outcome State Fault Refusal :=
  match bloomAt s entry with
  | none => void s
  | some d =>
    let b := s.bstream entry
    let room := d.window / d.maxCoded - (b.samples.filter (fun x => x.requested)).length
    let run := leadingRun (min 256 room) (unrequested b)
    if !s.alive || run.isEmpty || (d.ethernet && !(s.feeder d.feeder).keyed) then void s
    else
      let s1 := s.setBstream entry { b with samples := b.samples.map (fun x =>
        if run.contains x.index then { x with requested := true } else x) }
      .next (s1.sendBloom d 2 (run.headD 0) 0 run.length).placeWant

/-- DATA: coded bytes of a requested sample land; the first frame's header is checked (R341, R343, R345, R346). -/
def execData (frame : BloomFrame) (data : List Byte) (head : CodedHead) (s : State) : Host.Outcome State Fault Refusal :=
  match entryOf s frame.stream with
  | none => .next (s.count Reg.blmBadframe)
  | some (e, d) =>
    if !s.alive then void s
    else if frameStale s d frame then .next (s.count Reg.blmSealFail)
    else
      let s1 := s.takeNonce d frame
      match (s1.bstream e).samples.find? (fun x => x.index == frame.index && x.requested) with
      | none => .next (s1.count Reg.blmBadframe)
      | some x =>
        if frame.version ≠ 1 then .next (s1.count Reg.blmBadframe)
        else if frame.offset ≠ x.bytes.length ∨ x.landed then .next s1
        else if x.total = none ∧ !headerOk d frame head then .next (s1.skipSample e x.index 0).assignAll
        else
          let y := { x with bytes := x.bytes ++ data, total := some frame.total }
          .next (((s1.count64 Reg.blmCodedLo Reg.blmCodedHi data.length).setSample e y).assignAll)

/-- ABSENT: the feeder cannot supply a sample, which is skipped (R354). -/
def execAbsent (frame : BloomFrame) (s : State) : Host.Outcome State Fault Refusal :=
  match entryOf s frame.stream with
  | none => .next (s.count Reg.blmBadframe)
  | some (e, d) =>
    if !s.alive then void s
    else if frameStale s d frame then .next (s.count Reg.blmSealFail)
    else
      let s1 := s.takeNonce d frame
      if frame.version == 1 && (s1.bstream e).samples.any (fun x => x.index == frame.index && x.requested) then
        .next (s1.skipSample e frame.index 2).assignAll
      else .next (s1.count Reg.blmBadframe)

/-- REREQUEST: an Ethernet sample has received no DATA for 200 µs (R345). -/
def execRerequest (entry index : Nat) (s : State) : Host.Outcome State Fault Refusal :=
  match bloomAt s entry, (s.bstream entry).samples.find? (fun x => x.index == index && x.requested) with
  | some d, some x =>
    if !s.alive || !d.ethernet || x.landed || decide (3 ≤ x.tries) then void s
    else
      let s1 := (s.setSample entry { x with tries := x.tries + 1 }).count Reg.blmRereq
      .next (s1.sendBloom d 2 index x.bytes.length 1)
  | _, _ => void s

namespace State

/-- Write a sample's rows at an address of Hearth or HBM4 (R336, R350). -/
def writeRows (s : State) (d : BloomStream) (hearth : Bool) (base : Nat) (rows : List (List Byte)) : State :=
  (rows.zipIdx).foldl (fun t (r, i) =>
    let c := i / (d.outF * d.outH)
    let a := base + c * planeStride d + i / d.outH % d.outF * frameStride d + i % d.outH * rowStride d
    if hearth then t.setHearth d.die ((t.hearth d.die).writeBytes a r) else t.writeHbm a r) s

/-- The buffer of a fill is free for it: no earlier microbatch still owns it (R356). -/
def ownsBuffer (s : State) (d : BloomStream) (e : Nat) (f : Fill) : Bool :=
  match (s.bstream e).fills.find? (fun g => g.mb % d.nbuf == f.mb % d.nbuf) with
  | some g => g.step == f.step && g.mb == f.mb
  | none => true

end State

/-- A sample's decode can complete: it has landed and, unless it is RAW, has an engine (R347). -/
def decodes (s : State) (d : BloomStream) (x : Sample) : Bool :=
  s.alive && s.domUp (14 + d.die % 2) && x.landed && (d.kind == 0 || x.engine.isSome)

/-- A granule of a stream's coded ring. -/
def ringHas (d : BloomStream) (r : EccRes) : Bool := (granules d.ringAddr d.window).contains r.granule

/-- The checks of the coded ring's granules that a decode read (R29). -/
def decodeChecks (s : State) (entry index : Nat) (ecc : List EccRes) : State :=
  match bloomAt s entry, (s.bstream entry).samples.find? (fun x => x.index == index) with
  | some d, some x => if decodes s d x then s.hbmChecks d.ringAddr d.window ecc else s
  | _, _ => s

/-- DECODE_COMPLETE: a decoder finishes or fails a sample, its engine is freed, and the next landed sample is taken
(R347 to R350, R354). A sample waits for its buffer or spare slot. `ecc`: the checks of the granules of the coded ring that were
read (R29); one that is uncorrectable, or was poisoned before (`poisoned`), skips the sample (Table 13-6). -/
def execDecodeComplete (entry index : Nat) (poisoned : Bool) (s0 : State) (ecc : List EccRes := []) : Host.Outcome State Fault Refusal :=
  let s := decodeChecks s0 entry index ecc
  match bloomAt s entry, (s.bstream entry).samples.find? (fun x => x.index == index) with
  | some d, some x =>
    let b := s.bstream entry
    if !decodes s d x then void s0
    else match (if poisoned || ecc.any (fun r => r.ue && ringHas d r) then none else sampleRows d x.bytes) with
      | none => .next (s.skipSample entry index 1).assignAll
      | some rows =>
        match b.spares.find? (fun p => p.index == index), b.fills.find? (fun f => f.index == index && f.spare.isNone) with
        | some p, _ => match p.place with
          | none => void s0
          | some k =>
            let s1 := ((s.writeRows d false (spareAddr d k) rows).dropSample entry index).count Reg.blmSamples
            let b1 := s1.bstream entry
            .next (s1.setBstream entry { b1 with spares := b1.spares.map (fun y => if y.index = index then { y with done := true } else y) }).assignAll
        | none, some f =>
          if !s.ownsBuffer d entry f then void s0
          else
            let s1 := ((s.writeRows d (d.mem == 0) (slotAddr d f.mb f.slot) rows).dropSample entry index).count Reg.blmSamples
            .next (s1.setFill entry { f with done := true }).assignAll
        | none, none => .next (s.dropSample entry index).assignAll
  | _, _ => void s0

/-- SPARE_COPY: a spare has completed, and Bloom copies it into the slot waiting on it (R353). `ecc`: the checks of the spare's
granules (R29). -/
def execSpareCopy (entry index : Nat) (s : State) (ecc : List EccRes := []) : Host.Outcome State Fault Refusal :=
  match bloomAt s entry, (s.bstream entry).spares.find? (fun x => x.index == index),
      (s.bstream entry).fills.find? (fun f => f.spare == some index && !f.done) with
  | some d, some x, some f =>
    if !s.alive || !x.done || !s.ownsBuffer d entry f then void s
    else .next ((match x.place with
      | some k => s.hbmChecks (spareAddr d k) (sampleBytes d) ecc
      | none => s).giveSpare entry f index)
  | _, _, _ => void s

end Sys2Proof.Machine
end

