-- ==== Sys2Proof/Machine/Gates.lean ====
section
/-!
DEFINITION. Machine/Gates.lean: the segments that STAGE_START entries start (R142), the conditions of Table 2-4, and
what a device does when it evaluates a gate (R58, R116, R117, R181, R192, R219, R233, R235). -/

namespace Sys2Proof.Machine

/-! ## Segments -/

/-- The gang and the segment that a STAGE_START or STAGE_END entry names (R175). -/
def entrySeg (s : State) (e : Strike) : Option (Nat × Nat) :=
  match s.billet with
  | some b => (b.segDescs[e.target]?).map (fun d => (d.gang, d.segment))
  | none => none

/-- The cores of a gang of the table. -/
def coresOfGang (s : State) (g : Nat) : List Nat :=
  match s.billet with
  | some b => match b.gangs[g]? with
    | some x => gangCores x
    | none => []
  | none => []

/-- Among the entries after index `i` that fire in the step and start or end the same segment, the next is a
STAGE_START: the run of the segment still waits for it (R142, notes/assumptions/51). -/
def startPending (s : State) (i : Nat) (gs : Nat × Nat) (step : Nat) : Bool :=
  match ((s.cad.strike.drop (i + 1)).filter (fun e =>
    (e.kind == 1 || e.kind == 2) && firesIn e step && entrySeg s e == some gs)).head? with
  | some e => e.kind == 1
  | none => false

namespace State

/-- Segment `k` of core `n` starts for the descriptors and microbatches given (R142, R146, R185). -/
def startSegment (s : State) (n k : Nat) (descs : List (Nat × Nat)) : State :=
  match s.prog n with
  | none => s
  | some p =>
    match p.segs[k]? with
    | none => s
    | some sp =>
      let c := s.core n
      let run : SegRun :=
        { segment := k, descs := descs, total := sp.commands, disp := 0, done := 0, itotal := sp.issues, idone := 0
          swage := sp.swage
          sets := sp.swage.map (fun _ => { presented := 0, landedUp := 0, landedDn := 0, held := [] })
          creditUp := haloCredit0 s n k true, creditDn := haloCredit0 s n k false, stalled := [], slotsUp := [], slotsDn := [] }
      let again := c.segs.any (fun g => g.segment == k)
      let segs := if again then c.segs.map (fun g => if g.segment = k then run else g) else c.segs ++ [run]
      let cur := if again then min c.curSeg k else c.curSeg
      let c1 := { c with
        segs := segs, curSeg := cur, tiles := if cur = k && c.dwconv.isNone then .empty else c.tiles
        run := if c.run = CoreRun.refused then CoreRun.refused else CoreRun.running }
      s.setCore n c1.advance

/-- A STAGE_START entry fires (R142): it is noted on each core of the gang, and the segment starts once no entry that
names it is still to fire. -/
def fireStageStart (s : State) (i : Nat) (e : Strike) (step : Nat) : State :=
  match entrySeg s e with
  | none => s
  | some gs =>
    (coresOfGang s gs.1).foldl (fun t n =>
      let c := t.core n
      let fired := c.fired ++ [(e.target, e.arg)]
      let mine := fired.filter (fun f => match t.billet with
        | some b => match b.segDescs[f.1]? with
          | some d => d.segment == gs.2
          | none => false
        | none => false)
      if startPending t i gs step then t.setCore n { c with fired := fired }
      else (t.setCore n { c with fired := fired.filter (fun f => !mine.contains f) }).startSegment n gs.2 mine) s

end State

/-- Every command of the segment run that a STAGE_END entry ends is complete on a core, and its pools are at home
(Table 2-4, R116, R192). -/
def coreEnded (s : State) (n : Nat) (e : Strike) : Bool :=
  let c := s.core n
  (match c.segs.find? (fun g => g.descs.contains (e.target, e.arg)) with
    | some g => decide (g.total ≤ g.done) && swageDone s n g
    | none => false) &&
  c.slotsHeld == 0 && c.drains.isEmpty

/-! ## The conditions of Table 2-4 -/

/-- A core holds no slot, no operand-buffer byte, no halo slot and no work, and its halo credits are home. -/
def coreHome (s : State) (n : Nat) (c : Core) : Bool :=
  c.slotsHeld == 0 && c.obBytes == 0 && c.queue.isEmpty && c.drains.isEmpty && c.attn.isNone && c.xfers.isEmpty &&
  c.segs.all (haloHome s n)

/-- The fabric credits of a port's job traffic are home: those of VC2 and VC3 (Table 12-3), on a port that is up for the job.
DESIGN CHOICE (notes/assumptions/144): VC0 and VC1 carry the Cadence, faults and control at every moment, the gate's own HOLD
and RELEASE among them, and are no pool that a step must bring home. -/
def creditsHome (s : State) (p : Nat) (x : Port) : Bool :=
  s.get (Reg.fabStatusState p) != 2 || x.jobDown || [2, 3].all (fun v =>
    x.shared.getD v 0 == sharedCredits.getD v 0 && (x.classes.getD v []).all (fun k => k == classCredits.getD v 0))

/-- A hand-over channel is at home: the producer holds every credit and no slot is full (R181). -/
def handHome (s : State) (k : Nat) (h : Hand) : Bool :=
  match channelAt s k with
  | some ch => h.full.isEmpty && h.flying == 0 && (ch.prodDev != s.addr || h.credits == ch.slots)
  | none => true

/-- Every pool of the last row of Table 2-6 is at home. -/
def poolsHome (s : State) : Bool :=
  s.cores.all (fun p => coreHome s p.1 p.2) && s.ports.all (fun p => creditsHome s p.1 p.2) && s.stash.isEmpty && s.fetches.all (fun f => f.released) &&
  s.hands.all (fun p => handHome s p.1 p.2) && s.haloRows.isEmpty && s.haloCredits.isEmpty &&
  s.net.buckets.all (fun p => !p.2.launched || p.2.complete) && s.net.tokenWait.isEmpty &&
  s.kvp.pins.isEmpty && s.kvp.streams.all (fun p => p.2.serving)

/-- The generation of an ingot, not of a replay's captures, is being written (R68). -/
def capturing (s : State) : Bool :=
  match s.ing.cur with
  | some g => !g.capture
  | none => false

/-- The condition of a gate in a step (Table 2-4). -/
def gateReady (s : State) (e : Strike) (step : Nat) : Bool :=
  match e.kind with
  | 0x1 => match s.billet with
    | some b => match b.segDescs[e.target]? with
      | some d => d.inCh.all (fun k => channelHolds s k e.arg)
      | none => true
    | none => true
  | 0x2 => match entrySeg s e with
    | some gs => (coresOfGang s gs.1).all (fun n => coreEnded s n e)
    | none => true
  | 0x3 => s.intakeReady e.target step e.arg
  | 0x5 => bucketFilled s e.target
  | 0x6 => (bucketRun s e.target).complete
  | 0x8 => allLanded s e.target e.arg
  | 0x9 => s.fetches.any (fun f => f.region == e.target && f.mb == e.arg && f.landed)
  | 0xA => poolsHome s && !capturing s
  | 0xB => s.tmp.step == some step && s.tmp.done.contains e.target
  | 0xC => s.tmp.pushed.contains e.target
  | 0xF => !s.tmp.failed && s.cad.strike.all (fun x =>
      !firesIn x step || ((x.kind != 0xB || (s.tmp.step == some step && s.tmp.done.contains x.target)) &&
        (x.kind != 0xC || s.tmp.pushed.contains x.target)))
  | _ => true

namespace State

/-- The halo ledger of a core, in both directions of every segment (R192). -/
def auditHalo (s : State) (n : Nat) : State :=
  (s.core n).segs.foldl (fun t g => [true, false].foldl (fun t up =>
    if haloBalanced t n g up then t else t.raise (srcIssue n) 0x10 clsF (n * 2 ^ 32)) t) s

/-- What the evaluation of a STAGE_END gate at angle `a` checks on a core (R116, R117, R192). -/
def endChecks (s : State) (n : Nat) (e : Strike) (a : Nat) : State :=
  let s1 := (s.auditCore n).auditHalo n
  match (s1.core n).segs.find? (fun g => g.descs.contains (e.target, e.arg)) with
  | some g => if g.itotal ≤ g.idone then s1.strandedCheck n a else s1
  | none => s1

/-- Stash entries still held when the COMMIT gate at angle `a` is evaluated are stranded (R235): one fault for each, and
that gate is held with reason ABORT. -/
def stashStranded (s : State) (a : Nat) : State :=
  let s1 := s.stash.foldl (fun t e => t.stashRaise 0x23 clsU e.region e.tensor e.mb) s
  if s.stash.isEmpty then s else s1.clearStash.abortAt a

/-- What the evaluation of a gate does before its condition is judged. -/
def gateChecks (s : State) (e : Strike) (step : Nat) : State :=
  match e.kind with
  | 0x2 => match entrySeg s e with
    | some gs => ((coresOfGang s gs.1).foldl (fun t n => t.endChecks n e (angleOf step e.stroke)) s).auditHands
    | none => s
  | 0x3 => match bloomAt s e.target with
    | some d => if s.noDeadline d (angleOf step e.stroke) then s.fillSkipped e.target step e.arg else s
    | none => s
  | 0x9 => s.startFetch e.target e.arg
  | 0xA => (s.stashStranded (angleOf step e.stroke)).kvStrandedCheck (angleOf step e.stroke)
  | _ => s

/-- Evaluate the gate of entry `i` at its angle (R58): an unmet condition sends one HOLD. -/
def evalGate (s : State) (i : Nat) (e : Strike) (step : Nat) : State :=
  let s1 := s.gateChecks e step
  if gateReady s1 e step then s1 else s1.raiseHold (angleOf step e.stroke) reasonNotReady (some i)

/-- Evaluate every gate at angle `a`, in index order. -/
def evalAt (s : State) (a : Nat) : State :=
  (s.cad.strike.zipIdx).foldl (fun t (e, i) =>
    if e.gate && e.stroke == strokeOf a && firesIn e (stepOf a) && stepOf a < 2 ^ 32 then t.evalGate i e (stepOf a) else t) s

/-- Release the hold of a gate whose condition is now met (R58). -/
def releaseIfReady (s : State) (h : OwnHold) : State :=
  match h.entry with
  | none => s
  | some i => match s.cad.strike[i]? with
    | none => s
    | some e => if gateReady s e (stepOf h.angle) then s.releaseHold h else s

/-- The hold of the COMMIT gate is released as soon as its condition is met (R68, R371). -/
def releaseCommit (s : State) : State :=
  (s.cad.own.filter (fun h => match h.entry with
    | some i => match s.cad.strike[i]? with
      | some e => e.kind == 0xA
      | none => false
    | none => false)).foldl (fun t h => t.releaseIfReady h) s

end State

end Sys2Proof.Machine
end

