-- ==== Sys2Proof/Machine/Ingots.lean ====
section
/-!
DEFINITION. Machine/Ingots.lean: the ingot's layout and records, generations on the cartridges, the bays, and the load of
an ingot (chapter 14). -/

namespace Sys2Proof.Machine

/-! ## Layout (R362 to R367) -/

/-- An array section of an ingot: its KIND (Table 14-1), group entry, Stock address and raw bytes. -/
structure ArraySec where
  kind : Nat
  group : Nat
  addr : Nat
  len : Nat
  deriving DecidableEq, Repr

/-- The array sections of a group, in Table 14-1's order. -/
def groupSecs (g : TmpGroup) (i : Nat) : List ArraySec :=
  [⟨1, i, g.w, 4 * g.count⟩, ⟨2, i, g.m, 4 * g.count⟩] ++ (if hasV g then [⟨3, i, g.v, 4 * g.count⟩] else []) ++
  [⟨4, i, g.g, gBytes g * g.count⟩] ++
  (if g.rule = 3 then [⟨5, i, g.stats, ((blocksOf g).map (fun b => 8 * (b.r * b.r + b.c * b.c))).foldl (· + ·) 0⟩] else [])

/-- The array sections of a plan. -/
def arraySecs (p : TemperPlan) : List ArraySec := (p.groups.zipIdx).flatMap (fun (g, i) => groupSecs g i)

/-- A journal entry's 64 bytes (Table 16-7). -/
def JEntry.bytes (e : JEntry) : List Byte :=
  leBytes 8 e.seq ++ leBytes 6 e.angle ++ leBytes 2 e.origin ++ leBytes 2 e.opcode ++ leBytes 2 e.result ++
  leBytes 4 e.tag ++ leBytes 8 e.who ++ (e.record ++ List.replicate (32 - e.record.length) 0#8).take 32

/-- The journal ring of 4,194,304 bytes: entry SEQ n at index n mod 65,536 (R448). -/
def ringBytes (l : List JEntry) : List Byte :=
  (List.range 65536).flatMap (fun i => match l.find? (fun e => e.seq % 65536 == i) with
    | some e => JEntry.bytes e
    | none => List.replicate 64 0#8)

/-- A cursor record's 576 bytes (R363). -/
def cursorBytes (stream : Nat) (c : Cursor) : List Byte :=
  leBytes 4 stream ++ leBytes 4 c.reserve.length ++ leBytes 8 c.base ++ leBytes 8 c.next ++ leBytes 4 c.late ++
  leBytes 4 c.skip ++ List.replicate 32 0#8 ++ ((c.reserve.flatMap (leBytes 8)) ++ List.replicate 512 0#8).take 512

/-- Raw bytes padded to a multiple of 4 and coded by Flux lossless with W = 4 (R362). -/
def codeSec (raw : List Byte) : List Nat × List Flux.Stat :=
  Flux.lossless 4 ((raw ++ List.replicate (roundUp raw.length 4 - raw.length) 0#8).map BitVec.toNat)

/-- A section of an ingot: KIND, group entry, raw length, coded bytes and the statistics of its blocks. -/
structure Section where
  kind : Nat
  group : Nat
  raw : Nat
  coded : List Nat
  stats : List Flux.Stat
  deriving DecidableEq, Repr

/-- A section from its raw bytes. -/
def mkSection (kind group : Nat) (raw : List Byte) : Section :=
  let c := codeSec raw
  { kind := kind, group := group, raw := raw.length, coded := c.1, stats := c.2 }

/-- The sections of an image, in order (R362). -/
def imageSections (m : IngotImage) : List Section :=
  m.arrays.map (fun a => mkSection a.1 a.2.1 a.2.2) ++ [mkSection 8 0 (ringBytes m.journal)] ++
  (if m.cursors.isEmpty then [] else [mkSection 9 0 (m.cursors.flatMap (fun c => cursorBytes c.1 c.2))])

/-- The ingot header (Table 14-3). -/
def ingotHeader (m : IngotImage) (step n : Nat) (l : List Section) : List Byte :=
  let entries := l.foldl (fun (p : List Byte × Nat) x =>
    (p.1 ++ leBytes 1 x.kind ++ leBytes 1 0 ++ leBytes 2 x.group ++ leBytes 4 0 ++ leBytes 8 x.raw ++
      leBytes 8 x.coded.length ++ leBytes 8 p.2, p.2 + x.coded.length)) ([], 0)
  leBytes 48 m.digest ++ leBytes 6 (angleOf step 0) ++ leBytes 2 0 ++ leBytes 4 m.shardStep ++ leBytes 2 l.length ++
  leBytes 2 0 ++ leBytes 8 entries.2 ++ leBytes 8 ((l.map Section.raw).foldl (· + ·) 0) ++ leBytes 8 n ++ leBytes 40 0 ++ entries.1

/-- Payload bytes of a full record (R365). -/
def fullPayload : Nat := 262064

/-- A byte string cut into record payloads. -/
def cutPayload (l : List Byte) : List (List Byte) :=
  (List.range (ceilDiv l.length fullPayload)).map (fun i => (l.drop (fullPayload * i)).take fullPayload)

/-- Bytes of a record once padded (R365). -/
def paddedLen (payload : List Byte) : Nat := roundUp (64 + payload.length + 16) 4096

/-! ## Worst case (R374) -/

/-- The coded bytes of a section of zeros: CONST planes. -/
def constCoded (raw : Nat) : Nat :=
  let r := roundUp raw 4
  132 * (r / 4096) + (if r % 4096 = 0 then 0 else 4 + 8 * ceilDiv (r % 4096 / 4) 64)

/-- The worst-case body of a plan with so many Bloom streams. -/
def worstBody (p : TemperPlan) (streams : Nat) : Nat :=
  let w := fun r => r + 4 * ceilDiv r 4096
  ((arraySecs p).map (fun a => if a.kind = 4 then constCoded a.len else w a.len)).foldl (· + ·) 0 + w 4194304 +
  (if streams = 0 then 0 else w (576 * streams))

/-- HEADER records of a plan (R366). -/
def headRecords (p : TemperPlan) (streams : Nat) : Nat :=
  ceilDiv (128 + 32 * ((arraySecs p).length + 1 + b2n (streams != 0))) fullPayload

/-- Body records in the worst case. -/
def worstRecords (p : TemperPlan) (streams : Nat) : Nat := ceilDiv (worstBody p streams) fullPayload

/-- The bays that a policy names for a GEN (Table 14-4). -/
def policyBays (policy gen : Nat) : List Nat :=
  if policy = 1 then [gen % 2] else if policy = 3 then [0] else if policy = 4 then [1] else [0, 1]

/-- Whether a record of KIND and SEQ goes to a bay when PAIR splits the body (Table 14-4). -/
def pairTakes (gen bay kind seq : Nat) : Bool := kind != 2 || (seq + gen) % 2 == bay

/-- Records that a bay takes, of `h` HEADER and `n` BODY records and the TRAILER. -/
def bayRecords (pair : Bool) (gen bay h n : Nat) : Nat :=
  if pair then h + 1 + ((List.range n).filter (fun i => pairTakes gen bay 2 (h + i))).length else h + n + 1

namespace State

/-- A bay that restore and replay may read (R378, R383): ADOPTED, also while it is written, READ_ONLY, or ID_FAIL with
this job's label. -/
def bayReadable (s : State) (b : Nat) : Bool :=
  s.bayCode b == 6 || s.bayCode b == 7 || s.bayCode b == 5 ||
  (s.bayCode b == 3 && (match s.cart? b with
    | some c => s.labelOurs c
    | none => false))

/-- The generations of a bay that restore may read: this job's, complete by R367, under the loaded billet. -/
def usableGens (s : State) (b : Nat) : List Gen :=
  match s.cart? b, s.billet with
  | some c, some bl =>
    if s.bayReadable b then
      c.gens.filter (fun g => g.job == bl.jobId && g.complete && !g.capture && (match g.image with
        | some m => m.digest == bl.digest
        | none => false) &&
        (!g.pair || (s.bayReadable (1 - b) && (match s.cart? (1 - b) with
          | some d => d.gens.any (fun x => x.job == g.job && x.addr == g.addr && x.gen == g.gen && x.complete)
          | none => false))))
    else []
  | _, _ => []

/-- The shards that the device reports: steps with their roster addresses (R383). -/
def shards (s : State) : List (Nat × Nat) :=
  ((s.usableGens 0 ++ s.usableGens 1).map (fun g => (g.step, g.addr))).eraseDups

/-- The copies of a step's generation that the device may load, with their bays, the one of higher GEN first (Table 14-9); a
generation that PAIR splits is one copy, in both bays. -/
def copies (s : State) (step : Nat) : List (Nat × Gen) :=
  let of := fun (b : Nat) => ((s.usableGens b).filter (fun g => g.step == step && g.addr == s.addr)).map (fun g => (b, g))
  let one := of 0 ++ (of 1).filter (fun p => !(p.2.pair && (of 0).any (fun q => q.2.gen == p.2.gen)))
  let best := (one.map (fun p => p.2.gen)).foldl max 0
  one.filter (fun p => p.2.gen == best) ++ one.filter (fun p => p.2.gen != best)

/-! ## Reclaim and choice of bays (R370 to R372) -/

/-- The `n` ring zones from the one after `last`. -/
def zoneRun (c : Cart) (n : Nat) : List Nat :=
  (List.range n).map (fun i => (c.last + i) % (c.zones - 1) + 1)

/-- The zones of a generation. -/
def genZones (c : Cart) (g : Gen) : List Nat := (List.range g.zones).map (fun i => (g.first - 1 + i) % (c.zones - 1) + 1)

/-- The newest complete generation of a cartridge. -/
def newestComplete (c : Cart) : Option Nat :=
  (c.gens.filter Gen.complete).foldl (fun o g => some (max (o.getD 0) g.gen)) none

/-- The generations that reclaim may reset, in R372's order. -/
def reclaimable (c : Cart) (keep : Nat) : List Gen :=
  let ok := fun (g : Gen) => g.gen != keep && newestComplete c != some g.gen
  (c.gens.filter (fun g => !g.complete && ok g)) ++ (c.gens.filter (fun g => g.complete && ok g))

/-- Reset whole generations until the zones of a new one are free (R372, notes/assumptions/53). -/
def reclaim (c : Cart) (zones : List Nat) : List Gen → Cart × List Nat
  | [] => (c, [])
  | g :: r =>
    if c.gens.all (fun x => (genZones c x).all (fun z => !zones.contains z)) then (c, [])
    else
      let p := reclaim { c with gens := c.gens.filter (fun x => x != g) } zones r
      (p.1, genZones c g ++ p.2)

/-- ING.KEEP_GEN. -/
def keepGen (s : State) : Nat := s.get64 Reg.ingKeepGenLo Reg.ingKeepGenHi

/-- Check a bay for `n` records of a generation (R370, R372, R377), and make room on it. -/
def takeBay (s : State) (b n gen : Nat) : State × Bool :=
  match s.cart? b with
  | none => (s, false)
  | some c =>
    if s.bayCode b ≠ 6 ∨ s.flag (Reg.ingBayCtrlEject b) ∨ s.flag (Reg.ingBayStateLifeBad b) then (s, false)
    else if s.get64 (Reg.ingBayRatedLo b) (Reg.ingBayRatedHi b) <
        s.get64 (Reg.ingBayWrittenLo b) (Reg.ingBayWrittenHi b) + 262144 * n then
      ((s.count Reg.ingLifeRefused).ingFault 0x65 b gen, false)
    else
      let per := max 1 (c.cap * 4096 / 262144)
      let zones := zoneRun c (ceilDiv n per)
      let p := reclaim c zones (reclaimable c s.keepGen)
      let s1 := (p.2.foldl (fun t z => t.emit (.zone b 0 z)) s).setCart b p.1
      if ceilDiv n per ≤ c.zones - 1 ∧ p.1.gens.all (fun x => (genZones c x).all (fun z => !zones.contains z)) then (s1, true)
      else (s1.ingFault 0x63 b gen, false)

/-- Choose the bays of a generation (R369 to R372): the bays, and whether PAIR splits the body between them; none where no
bay is available. -/
def chooseBays (s : State) (policy gen h n : Nat) : State × Option (List Nat × Bool) :=
  let named := policyBays policy gen
  let split := policy == 0
  let (s1, good) := named.foldl (fun (p : State × List Nat) b =>
    let (t, ok) := p.1.takeBay b (bayRecords split gen b h n) gen
    (t, if ok then p.2 ++ [b] else p.2)) (s, [])
  let noBay := fun (t : State) => (((t.count Reg.ingFallback).ingFault 0x61 0 gen), (none : Option (List Nat × Bool)))
  if good = named then (s1, some (named, split))
  else if 2 < policy then noBay s1
  else
    let bad := (named.filter (fun b => !good.contains b)).headD 0
    if named.length = 2 ∧ good.isEmpty then noBay s1
    else
      let (s2, ok) := s1.takeBay (1 - bad) (h + n + 1) gen
      if ok then (((s2.count Reg.ingFallback).ingFault 0x60 bad gen), some ([1 - bad], false)) else noBay s2

/-! ## Writing a generation (R365, R369, R373) -/

/-- The 64-byte record header (Table 14-2). -/
def recHead (s : State) (g : GenRun) (r : IngRec) : List Byte :=
  leBytes 4 0x1A0D7A49 ++ leBytes 1 1 ++ leBytes 1 r.kind ++ leBytes 2 s.addr ++ leBytes 8 g.gen ++ leBytes 4 g.step ++
  leBytes 4 r.seq ++ leBytes 4 r.payload.length ++ leBytes 1 r.bay ++ leBytes 1 g.policy ++ leBytes 2 0 ++
  leBytes 16 g.salt ++ leBytes 16 (s.jobId.getD 0)

/-- The key and SALT of a generation (R368). -/
def genKey (s : State) (g : GenRun) : List Byte :=
  Config.hkdf (s.jobKey.getD 0) (Config.ascii "TRZ-2080 ingot" ++ leBytes 16 (s.jobId.getD 0) ++ leBytes 2 s.addr ++ leBytes 8 g.gen ++ leBytes 16 g.salt) 36

/-- The tag of a record (R365, R368). -/
def recTag (s : State) (g : GenRun) (r : IngRec) : Nat :=
  let k := s.genKey g
  Config.gcmTag (k.take 32) (k.drop 32 ++ leBytes 4 r.bay ++ leBytes 4 r.seq) (s.recHead g r) r.payload

/-- Give a bay's records their zones, one zone after another (R373). -/
def placeRecs (c : Cart) (l : List IngRec) : List IngRec :=
  let cap := c.cap * 4096
  (l.foldl (fun (p : List IngRec × Nat × Nat) r =>
    let n := paddedLen r.payload
    let next := p.2.2 + n > cap
    let k := if next then p.2.1 + 1 else p.2.1
    (p.1 ++ [{ r with zone := (c.last + k) % (c.zones - 1) + 1 }], k, if next then n else p.2.2 + n)) ([], 0, 0)).1

/-- Note that a record of the generation goes to its zone: the generation covers it from now on. -/
def noteZone (s : State) (g : GenRun) (r : IngRec) : State :=
  match s.cart? r.bay with
  | none => s
  | some c => s.setCart r.bay { c with
      last := r.zone
      gens := c.gens.map (fun x => if x.gen = g.gen ∧ x.zones ≤ (r.zone + (c.zones - 1) - x.first) % (c.zones - 1) then
        { x with zones := (r.zone + (c.zones - 1) - x.first) % (c.zones - 1) + 1 } else x) }

/-- Write the generation in progress. -/
def setCur (s : State) (g : Option GenRun) : State := { s with ing := { s.ing with cur := g } }

/-- Send appends of a bay while fewer than 64 are in flight (R373). -/
def pumpBay (s : State) (b : Nat) : Nat → State
  | 0 => s
  | k + 1 =>
    match s.ing.cur with
    | none => s
    | some g =>
      if 64 ≤ (g.flight.filter (fun r => r.bay == b)).length then s
      else match g.todo.find? (fun r => r.bay == b) with
        | none => s
        | some r =>
          (((s.setCur (some { g with todo := g.todo.erase r, flight := g.flight ++ [r] })).noteZone g r).emit
            (.append b r.zone (s.recHead g r) r.payload (s.recTag g r))).pumpBay b k

/-- Both bays. -/
def pumpBays (s : State) : State := (s.pumpBay 0 64).pumpBay 1 64

/-- A generation starts with its records (R369, R388): it is listed on its cartridges, and the first appends go. -/
def startGen (s : State) (g : GenRun) (recs : List IngRec) : State :=
  let placed := g.bays.flatMap (fun b => match s.cart? b with
    | some c => placeRecs c (recs.filter (fun r => r.bay == b))
    | none => [])
  let s1 := g.bays.foldl (fun t b => match t.cart? b with
    | some c => (t.setCart b { c with gens := c.gens ++
        [{ job := t.jobId.getD 0, addr := t.addr, gen := g.gen, step := g.step, complete := false, pair := g.pair
           capture := g.capture, first := c.last % (c.zones - 1) + 1, zones := 0
           records := (recs.filter (fun r => r.bay == b)).length, image := none }] }).put (Reg.ingBayStateCode b) 7
    | none => t) s
  let s2 := (((s1.put64 Reg.ingGenLo Reg.ingGenHi g.gen).put Reg.ingStatusPhase (if g.capture then 5 else 2)).put
    Reg.ingStatusBays ((g.bays.map (fun b => 2 ^ b)).foldl (· + ·) 0)).put Reg.tmpStatusPhase 5
  (s2.setCur (some { g with todo := placed })).pumpBays

/-- The CHAIN of a bay's TRAILER (R367): the tags of the HEADER and BODY records in SEQ order, each from this bay where
it holds the record, else from the other (notes/assumptions/54). -/
def chain (s : State) (g : GenRun) (b : Nat) (recs : List IngRec) (count : Nat) : Nat :=
  Config.sha384 ((List.range count).flatMap (fun q =>
    let l := recs.filter (fun r => r.seq == q)
    match (l.filter (fun r => r.bay == b)) ++ l with
    | r :: _ => leBytes 16 (s.recTag g r)
    | [] => []))

/-- The snapshot of R363. -/
def snapshot (s : State) : State :=
  ({ s with ing := { s.ing with
      snapHead := s.jnl.head
      snapJournal := s.jnl.entries
      snapCursors := s.bloomEntries.filterMap (fun e => (bloomAt s e).map (fun (d : BloomStream) => (d.stream, (s.bstream e).committed))) } }).count
    Reg.jnlSnapshots

/-- What the ingot of the step holds (R362): the live arrays with G as zeros, and the snapshot. -/
def ingotImage (s : State) (b : Billet) : IngotImage :=
  { digest := b.digest, shardStep := s.get Reg.tmpStep
    arrays := (arraySecs b.temper).map (fun a =>
      (a.kind, a.group, if a.kind = 4 then List.replicate a.len 0#8 else s.stock.readBytes a.addr a.len))
    head := s.ing.snapHead, journal := s.ing.snapJournal, cursors := s.ing.snapCursors }

/-- The statistics of an ingot's coded blocks that pass through bay `bay`'s Flux group (R239): under PAIR those of the records
that the bay takes, from header count `h` on; else all. -/
def bayStats (pair : Bool) (gen bay h : Nat) (l : List Flux.Stat) : List Flux.Stat :=
  if pair then ((l.foldl (fun (acc : List Flux.Stat × Nat) b =>
    (if pairTakes gen bay 2 (h + acc.2 / fullPayload) then acc.1 ++ [b] else acc.1, acc.2 + b.coded)) ([], 0)).1)
  else l

/-- An INGOT_CAPTURE entry fires (R369): a new generation, or no bay. -/
def fireCapture (s : State) (policy : Nat) : State :=
  match s.billet with
  | none => s
  | some b =>
    if s.ing.replay.isSome || s.ing.cur.isSome then s
    else
      let gen := s.ingGen + 1
      let streams := b.bloom.length
      let (s1, got) := s.chooseBays policy gen (headRecords b.temper streams) (worstRecords b.temper streams)
      match got with
      | none => s1
      | some (bays, pair) =>
        let m := s1.ingotImage b
        let secs := imageSections m
        let body := (secs.flatMap Section.coded).map (BitVec.ofNat 8)
        let parts := cutPayload body
        let heads := cutPayload (ingotHeader m (stepOf s.cad.angle) parts.length secs)
        let h := heads.length
        let g : GenRun := { gen := gen, step := stepOf s.cad.angle, policy := policy, salt := s1.free % 2 ^ 128, bays := bays
                            pair := pair, image := some m, capture := false, todo := [], flight := [], flushing := [] }
        let mk := fun bay => ((heads.zipIdx).map (fun (p, i) => (⟨bay, 0, i, 1, p⟩ : IngRec))) ++
          ((parts.zipIdx).map (fun (p, i) => (⟨bay, 0, h + i, 2, p⟩ : IngRec)))
        let recs := bays.flatMap (fun bay => (mk bay).filter (fun r => !pair || pairTakes gen bay r.kind r.seq))
        let s2 := s1.draw
        let trailers := bays.map (fun bay => (⟨bay, 0, h + parts.length, 3, leBytes 8 (h + parts.length + 1) ++
          leBytes 48 (s2.chain g bay recs (h + parts.length)) ++ leBytes 8 0⟩ : IngRec))
        (bays.foldl (fun t bay => t.fluxCount (4 + 8 * bay) (bayStats pair gen bay h (secs.flatMap Section.stats))) s2).startGen g
          (recs ++ trailers)

/-- The CAPTURE records of a captured range (R388): each payload begins with the list entry and the angle
(notes/assumptions/55). -/
def captureParts (c : Capture) : List (List Byte) × List Flux.Stat :=
  let coded := codeSec c.data
  let head := leBytes 4 c.entry.opid ++ leBytes 1 c.entry.core ++ leBytes 1 0 ++ leBytes 2 c.entry.occur ++
    leBytes 4 c.entry.addr ++ leBytes 4 c.entry.len ++ leBytes 8 c.angle
  let l := coded.1.map (BitVec.ofNat 8)
  let k := fullPayload - 24
  ((List.range (max 1 (ceilDiv l.length k))).map (fun i => head ++ (l.drop (k * i)).take k), coded.2)

/-- The captured ranges of a replay are written as one CAPTURE generation (R388): without room they stop, counted. -/
def writeCaptures (s : State) : State :=
  if s.captures.isEmpty || s.ing.cur.isSome then s
  else
    let parts := s.captures.flatMap (fun c => (captureParts c).1)
    let gen := s.ingGen + 1
    let (s1, bay) := [0, 1].foldl (fun (p : State × Option Nat) b => match p.2 with
      | some _ => p
      | none =>
        let (t, ok) := p.1.takeBay b parts.length gen
        (t, if ok then some b else none)) (s, none)
    let s2 := { s1 with captures := [] }
    match bay with
    | none => s2.count Reg.ingCapturesLost s.captures.length
    | some b =>
      let g : GenRun := { gen := gen, step := stepOf s.cad.angle, policy := 3 + b, salt := s2.free % 2 ^ 128, bays := [b]
                          pair := false, image := none, capture := true, todo := [], flight := [], flushing := [] }
      let full := fun (p : List Byte) (i : Nat) =>
        if i + 1 = parts.length then p else p ++ List.replicate (fullPayload - p.length) 0#8
      ((s2.draw).fluxCount (4 + 8 * b) (s.captures.flatMap (fun c => (captureParts c).2))).startGen g
        ((parts.zipIdx).map (fun (p, i) => ⟨b, 0, i, 4, full p i⟩))

/-- The bays of a generation are free again. -/
def endGen (s : State) (g : GenRun) : State :=
  let s1 := ([0, 1].filter (fun b => g.bays.contains b)).foldl (fun t b =>
    if t.bayCode b = 7 then t.put (Reg.ingBayStateCode b) 6 else t) s
  (((s1.setCur none).put Reg.ingStatusPhase 0).put Reg.ingStatusBays 0).tmpPhase

/-- A generation fails (R371): counted and raised, and the COMMIT hold is released at once. -/
def failGen (s : State) (b : Nat) (g : GenRun) : State :=
  (((s.endGen g).count Reg.ingGensFailed).ingFault 0x62 b g.gen).releaseCommit

/-- Once the last record has landed, Flush goes to every bay written (R369). -/
def flushGen (s : State) : State :=
  match s.ing.cur with
  | none => s
  | some g =>
    if g.todo.isEmpty && g.flight.isEmpty && g.flushing.isEmpty then
      let s1 := g.bays.foldl (fun t b => t.emit (.flush b)) s
      (s1.setCur (some { g with flushing := g.bays })).put Reg.ingStatusPhase 3
    else s

/-- A generation is complete on its cartridges. -/
def completeOn (g : GenRun) (c : Cart) : Cart :=
  { c with gens := c.gens.map (fun x => if x.gen = g.gen ∧ !x.complete then { x with complete := !g.capture, image := g.image } else x) }

/-- Every Flush of a generation has completed, the last after `ms` milliseconds (R369): it is complete, its bays are free, and a step's
generation is the newest; its COMMIT hold is released. -/
def finishGen (s : State) (g : GenRun) (ms : Nat) : State :=
  let s1 := ([0, 1].filter (fun b => g.bays.contains b)).foldl (fun t b => match t.cart? b with
    | some c => t.setCart b (completeOn g c)
    | none => t) s
  let s2 := (s1.endGen g).put Reg.ingLastWriteMs (min ms 65535)
  if g.capture then s2
  else (((s2.put Reg.ingLastStep g.step).put64 Reg.ingLastGenLo Reg.ingLastGenHi g.gen).count Reg.ingGensOk).releaseCommit

/-- A bay that a generation uses is gone or off: its commands fail, and the generation with them; under MIRROR it goes
on, on the other bay alone, and is complete where the other bay's Flush has completed (R371, R381). -/
def dropBay (s : State) (b : Nat) : State :=
  match s.ing.cur with
  | none => s
  | some g =>
    if !g.bays.contains b then s
    else
      let s1 := s.count (Reg.ingBayCmdErr b) ((g.flight.filter (fun r => r.bay == b)).length + b2n (g.flushing.contains b))
      if g.policy = 2 ∧ g.bays.length = 2 then
        let f := g.flushing.filter (fun x => x != b)
        let g1 := { g with bays := [1 - b], todo := g.todo.filter (fun r => r.bay != b)
                           flight := g.flight.filter (fun r => r.bay != b), flushing := f }
        let s2 := (s1.setCur (some g1)).put Reg.ingStatusBays (2 ^ (1 - b))
        if g.flushing.isEmpty then s2.flushGen else if f.isEmpty then s2.finishGen g1 g1.ms else s2
      else s1.failGen b g

/-- The bay is empty of its cartridge: its registers show none. -/
def clearBay (s : State) (b code : Nat) : State :=
  let s1 := { s with ing := { s.ing with carts := Assoc.del s.ing.carts b } }
  [Reg.ingBayStateLifeLow b, Reg.ingBayStateLifeBad b, Reg.ingBayLinkWidth b, Reg.ingBayLinkSpeed b, Reg.ingBayWrittenLo b,
   Reg.ingBayWrittenHi b, Reg.ingBayRatedLo b, Reg.ingBayRatedHi b, Reg.ingBayZonesRing b, Reg.ingBayZonesFree b,
   Reg.ingBayZoneCap b].foldl (fun t f => t.put f f.rst) (s1.put (Reg.ingBayStateCode b) code)

/-- A write of 1 to BAY.CTRL.EJECT (R382): it stays set until presence is lost.
DESIGN CHOICE: in an empty bay, of which no rule speaks, the bit stays 0, as after a presence that has been lost. -/
def ejectBay (s : State) (b : Nat) : State := if s.bayCode b = 0 then s else s.put (Reg.ingBayCtrlEject b) 1

/-- A write of 1 to BAY.CTRL.WIPE (R379): every zone is reset, and R378 runs afresh. Ignored in any other state. -/
def wipeBay (s : State) (b : Nat) : State :=
  match s.cart? b with
  | some c =>
    if (s.bayCode b = 4 ∨ s.bayCode b = 5) ∧ s.life ≠ .running ∧ s.alive then
      (((s.emit (.zone b 2 0)).setCart b { c with label := none, gens := [], last := 0 }).put (Reg.ingBayStateCode b) 2).readLabel b
    else s
  | none => s

/-! ## Load (R384) -/

/-- Read copies in turn until one is whole (R384). `failed` holds, for every record whose tag or CHAIN fails, its bay, and for
every record that a read error loses, its bay plus 2 (Table 14-9). Each copy that fails raises ING bad ingot. -/
def readCopies (s : State) (failed : List Nat) : List (Nat × Gen) → State × Option (Nat × Gen)
  | [] => (s, none)
  | (b, g) :: r =>
    let bad := [0, 1].filter (fun x => (failed.contains x || failed.contains (x + 2)) && (g.pair || x == b))
    if bad.isEmpty then (s, some (b, g))
    else (bad.foldl (fun t x => ((t.count (Reg.ingBayTagFail x) (failed.count x)).count (Reg.ingBayReadErr x)
      (failed.count (x + 2))).ingFault 0x68 x g.gen) s).readCopies failed r

/-- The Stock address of an image's array. -/
def arrayAddr (p : TemperPlan) (kind group : Nat) : Option Nat :=
  ((arraySecs p).find? (fun a => a.kind == kind && a.group == group)).map (fun a => a.addr)

/-- Write an image's arrays to Stock, and G as +0 (R384). -/
def loadArrays (s : State) (p : TemperPlan) (m : IngotImage) : State :=
  let s1 := m.arrays.foldl (fun t (kind, group, raw) => if kind = 4 then t
    else match arrayAddr p kind group with
      | some a => t.writeStock a raw
      | none => t) s
  p.groups.foldl (fun t g => ({ t with stock := t.stock.clear g.g (gBytes g * g.count) }).stockTouched g.g (gBytes g * g.count)) s1

/-- The largest GEN on the device's ADOPTED bays. -/
def largestGen (s : State) : Nat :=
  ([0, 1].flatMap (fun b => if s.bayCode b = 6 then (match s.cart? b with
    | some c => c.gens.map Gen.gen
    | none => []) else [])).foldl max 0

/-- A RESTORE entry with a fresh RESUME_ID (R450, Table 16-8): kind 0 ingot, 1 core reset. -/
def journalRestore (s : State) (kind step gen : Nat) : State :=
  let id := s.free % 2 ^ 128
  let s1 := (s.draw).journalInternal 0 4 [(33, 1, kind), (36, 4, step), (40, 8, gen), (48, 16, id)]
  { s1 with jnl := { s1.jnl with resumeId := id } }

/-- The restore stream of an image passes through Flux (R239, R384). -/
def restoreFlux (s : State) (bay : Nat) (g : Gen) (m : IngotImage) (step : Nat) : State :=
  let secs := imageSections m
  let stats := secs.flatMap Section.stats
  let body := (secs.map (fun x => x.coded.length)).foldl (· + ·) 0
  let h := (cutPayload (ingotHeader m step (ceilDiv body fullPayload) secs)).length
  (if g.pair then [0, 1] else [bay]).foldl (fun t b => t.fluxCount (4 + 8 * b) (bayStats g.pair g.gen b h stats)) s

/-- The journal after a restore (R450): the snapshot, a RESTORE entry, and copies of the entries written since the
system reset. -/
def loadJournal (s : State) (m : IngotImage) (step gen : Nat) : State :=
  let old := s.jnl.entries
  let s1 := ({ s with jnl := { s.jnl with head := m.head, entries := m.journal } }).journalRestore 0 step gen
  old.foldl (fun t e => { t with jnl := { t.jnl with
    head := t.jnl.head + 1
    entries := t.jnl.entries.drop (t.jnl.entries.length + 1 - 65536) ++ [{ e with seq := t.jnl.head }] } }) s1

end State

/-- A SUBST record of the journal (Table 16-8), with its stream. -/
def substOf (e : JEntry) : Option (Nat × Subst) :=
  if e.opcode = 0 ∧ e.origin = 1 ∧ e.record.head? = some 2#8 then
    let f := fun (o n : Nat) => leNat ((e.record.drop (o - 32)).take n)
    some (f 36 4, { step := f 56 4, mb := f 34 1, slot := f 35 1, index := f 40 8, spare := f 48 8, reason := f 33 1, attempt := f 60 2 })
  else none

/-- The COMMIT record of a step in the journal (Table 16-8): its SEQ and its ATTEMPT. -/
def commitRecord (l : List JEntry) (step : Nat) : Option (Nat × Nat) :=
  (l.filter (fun e => e.opcode == 0 && e.record.head? == some 6#8 &&
    leNat ((e.record.drop 4).take 4) == step)).getLast?.map (fun e => (e.seq, leNat ((e.record.drop 8).take 2)))

/-- The valid records for a stream's microbatches of a step (R339): those of the ATTEMPT with which the step in which each
was made committed, and those that follow that step's COMMIT record. -/
def validSubsts (l : List JEntry) (stream step : Nat) : List (JEntry × Subst) :=
  l.filterMap (fun e => match substOf e with
    | some (st, u) =>
      let ok : Bool := match commitRecord l (stepOf e.angle) with
        | some (seq, att) => u.attempt == att || decide (seq < e.seq)
        | none => false
      if st = stream ∧ u.step = step ∧ ok then some (e, u) else none
    | none => none)

namespace State

/-- The Bloom cursors of an image, with their pending substitutions (R339, R384), at a step. -/
def loadCursors (s : State) (m : IngotImage) (step : Nat) : State :=
  let s1 := s.bloomEntries.foldl (fun t e => match bloomAt t e with
    | some d => match Assoc.find? m.cursors d.stream with
      | some c => t.rebuildStream e step { c with pending := (validSubsts m.journal d.stream step).map (fun p => p.2) }
      | none => t
    | none => t) s
  { s1 with blm := { s1.blm with start := angleOf step 0 } }

end State

/-! ## Commands -/

/-- The arrays of Stock that a capture reads (R362). -/
def captureRanges (s : State) : List (Nat × Nat) :=
  match s.billet with
  | some b => ((arraySecs b.temper).filter (fun a => a.kind != 4)).map (fun a => (a.addr, a.len))
  | none => []

/-- The checks of the granules that a capture read (R29, R254). -/
def State.captureChecks (s : State) (ecc : List EccRes) : State :=
  (captureRanges s).foldl (fun t r => t.stockChecks r.1 r.2 ecc) s

/-- A step's generation reads a poisoned granule, whose contents may not be used (R29).
DESIGN CHOICE (notes/assumptions/157): the spec does not say what becomes of it; it fails as by R371. -/
def State.captureBad (s : State) (g : GenRun) : Bool := !g.capture && (captureRanges s).any (fun r => s.stockBad r.1 r.2)

/-- ZONE_APPEND_COMPLETE: an append lands; the zone is finished with its last record, and the next goes (R373). `ecc`: the checks of
the granules of Stock that the generation read. -/
def execZoneAppendComplete (bay seq : Nat) (s : State) (ecc : List EccRes := []) : Host.Outcome State Fault Refusal :=
  match s.ing.cur with
  | none => void s
  | some g =>
    match g.flight.find? (fun r => r.bay == bay && r.seq == seq) with
    | none => void s
    | some r =>
      let g1 := { g with flight := g.flight.erase r }
      let s1 := ((s.captureChecks ecc).setCur (some g1)).addWritten bay (paddedLen r.payload)
      if !s.alive then .next s1
      else if s1.captureBad g then .next (s1.failGen bay g)
      else
        let last := !((g1.todo ++ g1.flight).any (fun x => x.bay == bay && x.zone == r.zone))
        let s2 := if last then s1.emit (.zone bay 1 r.zone) else s1
        .next ((s2.pumpBay bay 64).flushGen)

/-- FLUSH_COMPLETE: a bay's Flush completes and its life report is read again; with the last one the generation is
complete (R369, R377). -/
def execFlushComplete (bay ms written : Nat) (lifeOk : Bool) (s : State) : Host.Outcome State Fault Refusal :=
  match s.ing.cur with
  | none => void s
  | some g =>
    if !s.alive || !g.flushing.contains bay then void s
    else
      let s1 := (s.setWritten bay written).put (Reg.ingBayStateLifeBad bay) (b2n !lifeOk)
      let rest := g.flushing.filter (fun x => x != bay)
      .next (if rest.isEmpty then s1.finishGen g ms else s1.setCur (some { g with flushing := rest, ms := ms }))

/-- GENERATION_FAIL: a write or Flush on a bay fails (R371). -/
def execGenerationFail (bay : Nat) (s : State) : Host.Outcome State Fault Refusal :=
  match s.ing.cur with
  | none => void s
  | some g =>
    if !s.alive || !g.bays.contains bay then void s
    else .next ((s.count (Reg.ingBayCmdErr bay)).failGen bay g)

/-- CARTRIDGE_INSERT: presence has stayed asserted, and the bay is powered (R381). -/
def execCartridgeInsert (bay : Nat) (s : State) : Host.Outcome State Fault Refusal :=
  if 2 ≤ bay ∨ !s.domUp 13 ∨ s.bayCode bay ≠ 0 then void s
  else .next (((s.emit (.bayPower bay true)).put (Reg.ingBayStateCode bay) 1).count (Reg.ingBayInserts bay))

/-- PERST_RELEASE: link training starts (R381). -/
def execPerstRelease (bay : Nat) (s : State) : Host.Outcome State Fault Refusal :=
  if 2 ≤ bay ∨ !s.domUp 13 ∨ s.bayCode bay ≠ 1 then void s
  else .next ((s.emit (.bayPerst bay false)).put (Reg.ingBayStateCode bay) 2)

/-- CONTROLLER_READY: identity, life and label are read (R376 to R378). -/
def execControllerReady (bay : Nat) (cart : Cart) (s : State) : Host.Outcome State Fault Refusal :=
  if 2 ≤ bay ∨ !s.domUp 13 ∨ s.bayCode bay ≠ 2 ∨ (s.cart? bay).isSome then void s
  else
    let s1 := ((((s.put (Reg.ingBayLinkWidth bay) cart.width).put (Reg.ingBayLinkSpeed bay) cart.speed).put64
      (Reg.ingBayRatedLo bay) (Reg.ingBayRatedHi bay) cart.rated).put (Reg.ingBayZonesRing bay) (cart.zones - 1)).put
      (Reg.ingBayZoneCap bay) cart.cap
    let s2 := (s1.setCart bay cart).setWritten bay cart.written
    let s3 := s2.put (Reg.ingBayStateLifeBad bay) (b2n !cart.lifeOk)
    let s4 := if cart.idOk then s3 else (s3.put (Reg.ingBayStateCode bay) 3).ingFault 0x64 bay s.ingGen
    .next (s4.readLabel bay)

/-- CARTRIDGE_REMOVE: presence is lost (R381, R382). -/
def execCartridgeRemove (bay : Nat) (s : State) : Host.Outcome State Fault Refusal :=
  if 2 ≤ bay ∨ s.bayCode bay = 0 then void s
  else .next (((s.dropBay bay).clearBay bay 0).put (Reg.ingBayCtrlEject bay) 0)

/-- BAY_OVERLOAD: the bay is switched off (R380). -/
def execBayOverload (bay : Nat) (s : State) : Host.Outcome State Fault Refusal :=
  if 2 ≤ bay ∨ s.bayCode bay = 0 ∨ 8 ≤ s.bayCode bay then void s
  else .next ((((s.dropBay bay).clearBay bay 9).emit (.bayPower bay false)).ingFault 0x67 bay s.ingGen)

/-- EJECT (R382). -/
def execEject (bay : Nat) (s : State) : Host.Outcome State Fault Refusal :=
  if 2 ≤ bay then void s else .next (s.ejectBay bay)

/-- EJECT_COMPLETE: no generation uses the bay any more, its open zone is finished, and the bay is switched off (R382). -/
def execEjectComplete (bay : Nat) (s : State) : Host.Outcome State Fault Refusal :=
  let used : Bool := match s.ing.cur with
    | some g => g.bays.contains bay
    | none => false
  if 2 ≤ bay ∨ !s.flag (Reg.ingBayCtrlEject bay) ∨ s.bayCode bay = 0 ∨ 8 ≤ s.bayCode bay ∨ used ∨ !s.alive then void s
  else .next ((s.clearBay bay 8).emit (.bayPower bay false))

/-- WIPE (R379). -/
def execWipe (bay : Nat) (s : State) : Host.Outcome State Fault Refusal :=
  if 2 ≤ bay then void s else .next (s.wipeBay bay)

end Sys2Proof.Machine
end

