-- ==== Sys2Proof/Machine/Cadence.lean ====
section
/-!
DEFINITION. Machine/Cadence.lean: the Cadence (chapter 02): elections (R43 to R46), the master's beats, holds and
aborts (R40, R59 to R66, R533, R534), and what a device does at a beat (R50, R57, R58), with the serving streams that
open and close at s:0x0000 (R220) and the stops of R533. -/

namespace Sys2Proof.Machine

/-! ## Serving streams at s:0x0000 (R220) -/

/-- A free stream ID for a new serving stream, as it is found from `start` on (notes/assumptions/58). -/
def findStream (s : State) : Nat → Nat → Option Nat
  | 0, _ => none
  | k + 1, i => if s.streamFree (i % 2 ^ 20) then some (i % 2 ^ 20) else findStream s k (i + 1)

namespace State

/-- A serving change as R213 makes it, kept out of the undo log: it belongs to s:0x0000, not to the step
(notes/assumptions/58). -/
def serveDone (x : Slot) (result : List Byte) (u : State) : State :=
  ({ u with kvp := { u.kvp with undo := [] } }).auditPages.finish x rcOk result

/-- A serving change refused by R213: its KV fault, and REFUSED. -/
def serveRefused (s : State) (x : Slot) (kind id : Nat) : State :=
  let s1 := if kind = kvEmpty then s.count Reg.kvpExhaust else s
  (s1.raise srcKvp kind clsU (id % 2 ^ 20)).finish x rcRefused (msgBytes (s1.faultMsg srcKvp kind clsU (id % 2 ^ 20) false))

/-- A serving command takes effect (R220, Table 16-5). -/
def serveApply (s : State) (x : Slot) : State :=
  let id := leNat (x.arg.take 4)
  if x.opcode = 0x0202 then
    match Assoc.find? s.kvp.streams id with
    | some st =>
      if st.serving then
        match s.closeStream id with
        | .ok u => u.serveDone x []
        | .no k => s.serveRefused x k id
      else s.serveRefused x kvStreamKind id
    | none => s.serveRefused x kvStreamKind id
  else
    let imm := leNat ((x.arg.drop 4).take 4)
    let s1 := s.draw
    let owner := match s.billet with
      | some b => b.kv.owner
      | none => 0
    match findStream s 1048576 (s.free % 2 ^ 20) with
    | none => s1.serveRefused x kvStreamKind 0
    | some new =>
      let r : KvRes :=
        if !s.flag Reg.kvpCtrlEn then .no kvStreamKind
        else if id = 0xFFFFFFFF then
          s1.openStream new (bits imm 0 8 + 1) (bits imm 8 8 + 1) (bits imm 16 4) owner true
        else match Assoc.find? s1.kvp.streams id with
          | some st => if st.serving then s1.forkStream new id owner true else .no kvStreamKind
          | none => .no kvStreamKind
      match keepChange r with
      | .ok u => u.serveDone x (leBytes 4 new)
      | .no k => s1.serveRefused x k new

/-- SERVE_APPLY: the serving commands at the head of the queue, in acceptance order (R220). -/
def servesDue (s : State) : Nat → State
  | 0 => s
  | k + 1 =>
    match s.mbx.queue.head? with
    | none => s
    | some n => match s.slot? n with
      | some x =>
        if (x.opcode = 0x0201 ∨ x.opcode = 0x0202) ∧ (s.mbx.running = none ∨ s.mbx.running = some n) then
          (s.serveApply x).servesDue k
        else s
      | none => s

/-! ## The master's messages and holds -/

/-- A hold stands at the master at an angle. -/
def mHeld (s : State) (a : Nat) : Bool := s.cad.mHolds.any (fun h => h.angle == a)

/-- The master has passed the COMMIT stroke of its current step (R65). -/
def mIsCommitted (s : State) : Bool := s.cad.mCommitted == some (stepOf s.cad.mAngle)

/-- The device is the master and issues beats. -/
def masters (s : State) : Bool := s.cad.role == .master && s.cad.mOn

/-- A message of the master (Table 2-1). -/
def mMsg (s : State) (type angle attempt reason : Nat) (gate : Bool) : CadMsg :=
  { type := type, flags := b2n s.cad.mExternal + 2 * b2n gate, source := s.addr, angle := angle, attempt := attempt
    reason := reason, seq := s.cad.mSeq }

/-- The master broadcasts down the tree, and takes its own message like any other device (R59, R320). -/
def broadcast (s : State) (m : CadMsg) : State := (s.sendChildren m).emit (.own m)

/-- Every hold at the master is cancelled and counted (R62, R64). -/
def mCancel (s : State) : State :=
  { s with cad := { s.cad with mHolds := [], mCancelled := s.cad.mCancelled + s.cad.mHolds.length } }

/-- The master stops the job with a stop cause at an angle (R533): no further beat, and an ABORT that conveys the stop. -/
def mStop (s : State) (cause angle : Nat) : State :=
  let s1 := s.mCancel
  let s2 := { s1 with cad := { s1.cad with mOn := false, mRolling := false, mAttempt := s1.cad.mAttempt + 1 } }
  s2.broadcast (s2.mMsg 4 angle s2.cad.mAttempt (0x8000 + cause) false)

/-- The master aborts its current step (R64), or stops the job once the step has been aborted ABORT_LIMIT times in a row
(R66). Every device counts as holding s:0x0000. -/
def mAbort (s : State) (reason : Nat) : State :=
  let a := angleOf (stepOf s.cad.mAngle) 0
  let att := s.cad.mAttempt + 1
  if s.get Reg.cadAbortLimit ≤ att then
    let s1 := s.raise srcCad 0x56 clsU (s.addr % 2 ^ 14)
    ({ s1 with cad := { s1.cad with mAngle := a } }).mStop 4 a
  else
    let s1 := s.mCancel
    let devs := s.devices.filter (fun d => !s.cad.lost.contains d)
    let hs := devs.map (fun d => ({ dev := d, angle := a, attempt := att, reason := 0, rollback := true } : MHold))
    let s2 := { s1 with cad := { s1.cad with
      mAngle := a, mAttempt := att, mRolling := true, mHolds := hs, mRaised := s1.cad.mRaised + hs.length } }
    s2.broadcast (s2.mMsg 4 a att reason false)

/-- A stroke carries a gate that fires in a step, as this device's table tells (notes/assumptions/57). -/
def gateAt (s : State) (a : Nat) : Bool :=
  s.cad.strike.any (fun e => e.gate && e.stroke == strokeOf a && firesIn e (stepOf a))

/-- A hold with reason ABORT stands for a gate of the master's current step. -/
def mWantsAbort (s : State) : Bool :=
  s.cad.mHolds.any (fun h => h.reason == reasonAbort && !h.rollback && decide (stepOf h.angle ≤ stepOf s.cad.mAngle))

/-- The angle 4294967295:0xFFFF. -/
def lastAngle : Nat := 2 ^ 48 - 1

/-- The angle has reached the last one: CAD angle end, and the job stops there with cause 2 (R42). -/
def mEnd (s : State) : State := (s.raise srcCad 0x50 clsU (s.addr % 2 ^ 14 + 0xFFFF * 2 ^ 16)).mStop 2 lastAngle

/-- The master issues the beat of an angle (R40): SEQ counts on; the beat after the COMMIT stroke commits the step and
returns ATTEMPT to 0 (R65, R66); a hold with reason ABORT carried into the step aborts it (R65). -/
def mBeat (s : State) (a : Nat) : State :=
  let c := s.cad
  let commits := decide (1 ≤ a) && strokeOf (a - 1) == c.commitStroke && !c.mRolling && a == c.mAngle + 1
  let c1 := { c with mSeq := c.mSeq + 1, mAngle := a, mRolling := false
                     mCommitted := if commits then some (stepOf (a - 1)) else c.mCommitted
                     mAttempt := if commits then 0 else c.mAttempt }
  let s1 := { s with cad := c1 }
  let s2 := s1.broadcast (s1.mMsg 1 a c1.mAttempt 0 (s1.gateAt a))
  if a = lastAngle then s2.mEnd else if s2.mWantsAbort && !s2.mIsCommitted then s2.mAbort 0 else s2

/-- The master turns the angle by one stroke, and never past the last one (R39, R42). -/
def mTurn (s : State) : State := if s.cad.mAngle = lastAngle then s else s.mBeat (s.cad.mAngle + 1)

/-! ## The device's own view -/

/-- The STEP_END gate that a HALT holds (R442). -/
def haltGate (s : State) : Nat :=
  let st := stepOf s.cad.angle
  if strokeOf s.cad.angle + s.get Reg.cadGateLead < 0xFFFF then angleOf st 0xFFFF else angleOf (st + 1) 0xFFFF

/-- A pending HALT raises its hold, unless one stands (R64, R442). -/
def placeHalt (s : State) : State :=
  let c := s.cad
  if c.haltPending && c.active && !c.rolling && c.resume.isNone && c.role.settled && !c.start &&
     !(c.own.any (fun h => h.reason == reasonHalt)) then s.raiseHold s.haltGate reasonHalt none
  else s

/-- A core drops its step work (R118, R146, R192). -/
def abortCore (c : Core) : Core := { Core.init with run := if c.run = .idle then .idle else .aborted }

/-- A packet of an aborted attempt that has not been sent is dropped (R332). -/
def dropStale (s : State) (p : Nat) : State :=
  let x := s.port p
  s.setPort p { x with ready := x.ready.filter (fun k => !(stepType k.type && k.attempt == s.cad.attempt)) }

/-- Step work is dropped and every pool returns home (R64 step 3, R118, R192, R218, R237, R332), and Bloom's cursors return
to their committed copies (R357). -/
def dropStep (s : State) (step : Nat) : State :=
  let s1 := (List.range 12).foldl (fun t p => t.dropStale p) s
  let s2 := ({ s1 with
      cores := s1.cores.map (fun (p : Nat × Core) => (p.1, abortCore p.2)), haloRows := [], haloCredits := [], hands := s1.homeHands
      bucketFill := [], caps := s1.caps.map (fun (p : CapEntry × Nat) => (p.1, 0)), captures := [], tmp := Tmp.init
      net := { s1.net with buckets := [], tokenWait := [], allReduce := [], received := [] } }).put Reg.netTokensHeld
    (s1.get Reg.netCtrlTokens)
  s2.clearStash.kvAbort.abortBloom step

/-- The pending HALT commands complete with the stop angle (R442). -/
def finishHalts (s : State) (angle : Nat) : Nat → State
  | 0 => s
  | k + 1 =>
    match s.mbx.halts with
    | [] => s
    | n :: rest =>
      let s1 := { s with mbx := { s.mbx with halts := rest } }
      (match s1.slot? n with
        | some x => s1.finish x rcOk (leBytes 6 angle)
        | none => s1).finishHalts angle k

/-- The device stops the job (R533, R44, R467): it takes the angle without firing, cancels its holds, writes the STOP
entry and enters Armed. A RUN, RESTORE or REPLAY_STEP that the stop cuts short completes ABORTED (notes/assumptions/65). -/
def stopJob (s : State) (cause angle : Nat) : State :=
  let s1 := s.cancelHolds
  let s2 := { s1 with life := .armed, cad := { s1.cad with
    role := .idle, angle := angle, active := false, start := false, haltPending := false, resume := none
    resetHold := false, rolling := false, mOn := false, mHolds := [], mRolling := false, cands := [], chosen := none, confirms := []
    stopped := some (cause, angle) } }
  let s3 := (s2.flushReset).journalStop cause angle
  let s4 := s3.endRestore
  let s5 := (if cause = 4 then s4.dropStep (stepOf angle) else s4).finishHalts angle s4.mbx.halts.length
  if s5.runningOp = some 0x0106 ∨ s5.runningOp = some 0x0108 ∨ s5.runningOp = some 0x0203 then s5.finishRunning rcAborted []
  else s5

/-- The device takes a master as confirmed: the kept CANDIDATE messages go, and the broadcast tree stands (R43, R320). -/
def settle (s : State) (master : Nat) : State :=
  ({ s with cad := { s.cad with
    role := if master = s.addr then .master else .follower, master := master, cands := [], chosen := none, confirms := [] } }).buildTree
    master

/-! ## Elections -/

/-- The device stands for election (R43): the billet sets CANDIDATE for it, and in external mode CAD_IN is in lock. -/
def isCandidate (s : State) : Bool :=
  s.flag Reg.cadCtrlCandidate && (!s.flag Reg.cadCtrlExternal || s.cad.inLock) && !s.cad.lost.contains s.addr

/-- Candidates remain as the billet tells (R44). -/
def candidatesRemain (s : State) : Bool :=
  match s.billet with
  | some b => b.cad.candidates.any (fun a => !s.cad.lost.contains a)
  | none => false

/-- The election fails (R44): CAD no master. After RUN or a restore the job stays Armed; after master loss it stops with
cause 7. -/
def electionFail (s : State) : State :=
  let addr := s.addr % 2 ^ 14
  if s.cad.afterLoss then (s.raise srcCad 0x51 clsU addr).stopJob 7 s.cad.angle
  else
    let s1 := { s.endRestore with life := .armed
                                  cad := { s.cad with role := .idle, active := false, start := false, haltPending := false
                                                      chosen := none, confirms := [] } }
    (match s1.mbx.running with
      | some _ => s1.refuseWith srcCad 0x51 clsU addr
      | none => s1.raise srcCad 0x51 clsU addr).finishHalts s.cad.angle s.mbx.halts.length

/-- The device confirms the lowest candidate it has heard, and again where a lower one is heard (R43). In a restore it
reports its shards to the candidate it confirms (R383). -/
def confirmLowest (s : State) : State :=
  match lowest (s.cad.cands.filter (fun a => !s.cad.lost.contains a)) with
  | none => s
  | some a =>
    if s.cad.chosen = some a then s
    else
      let s1 := { s with cad := { s.cad with chosen := some a } }
      let s2 := s1.sendCad a (s1.cad.msg 6 s.addr s.cad.angle s.cad.attempt 0)
      if s2.ing.restore.isSome && s2.ing.replay.isNone && !s2.cad.active then s2.emit (.restore a (.report s.addr s2.shards)) else s2

/-- An election starts (R43 to R45). -/
def startElection (s : State) : State :=
  let s1 := { s with cad := { s.cad with role := .electing, mOn := false, mHolds := [], chosen := none, confirms := [] } }
  if !s1.candidatesRemain then s1.electionFail
  else
    let s2 := if s1.isCandidate then
        s1.devices.foldl (fun t d => t.sendCad d (t.cad.msg 5 t.addr t.cad.angle t.cad.attempt 0)) s1
      else s1
    s2.confirmLowest

/-- The job's run begins at an angle, when its first beat comes (R43): the device's own counts of the run start afresh. -/
def beginRun (s : State) (angle : Nat) : State :=
  let s1 := s.cancelHolds
  { s1 with cad := { s1.cad with
    angle := angle, attempt := 0, active := true, start := true, joined := false, startAngle := angle, rolling := false
    committed := none, resume := none, resetHold := false, want := none } }

/-- The steps that some device reports for a roster address. -/
def stepsFor (r : RestoreRun) (addr : Nat) : List Nat :=
  (r.reports.flatMap (fun (p : Nat × List (Nat × Nat)) => p.2)).filterMap (fun (p : Nat × Nat) => if p.2 = addr then some p.1 else none)

/-- The step of a restore (R383): the newest, or the one that `RESTORE` names, of which every roster address has a shard
reported, and which no device has found unusable. -/
def chooseStep (s : State) (r : RestoreRun) : Option Nat :=
  let first := match s.devices with
    | a :: _ => stepsFor r a
    | [] => []
  let ok := first.filter (fun n => !r.unusable.contains n && s.devices.all (fun a => (stepsFor r a).contains n) &&
    (match r.want with
      | some w => n == w
      | none => true))
  ok.foldl (fun (o : Option Nat) n => some (max n (o.getD 0))) none

/-- Once every device of the job has reported, the master announces the step to each (R383). -/
def announceStep (s : State) : State :=
  match s.ing.restore with
  | none => s
  | some r =>
    if s.masters && r.chosen.isNone && s.ing.replay.isNone && s.devices.all (fun d => r.reports.any (fun p => p.1 == d)) then
      s.devices.foldl (fun t d => t.emit (.restore d (.announce (s.chooseStep r)))) s
    else s

/-- The elected candidate becomes master (R43 step 4): of a new run or a restore, with the start beat where the job is
loaded; after master loss, with the abort of R45. DEDUCED (notes/assumptions/131): where the step is committed R64 allows no
abort, and the new master goes on with the next beat as that of a start angle. -/
def becomeMaster (s : State) : State :=
  let s1 := s.settle s.addr
  let c := s1.cad
  let s2 := { s1 with cad := { c with
    mOn := true, mAngle := c.angle, mSeq := c.seq, mAttempt := c.attempt, mCommitted := c.committed, mHolds := []
    mRaised := 0, mReleased := 0, mCancelled := 0, mRolling := false, mExternal := s1.flag Reg.cadCtrlExternal, mStand := false } }
  if s.cad.afterLoss && s2.cad.active then
    let s3 := { s2 with cad := { s2.cad with start := true } }
    if s3.mIsCommitted then s3 else s3.mAbort srcCad
  else if s2.cad.active then s2.mBeat s2.cad.startAngle
  else s2.announceStep

/-! ## The beat -/

/-- A STAGE_END entry fires (R142, R180, R234, R356): credits return, stash entries, fetch buffers and Bloom buffers are
released, and a core with no segment left to finish is idle. -/
def fireStageEnd (s : State) (e : Strike) (step : Nat) : State :=
  match s.billet with
  | none => s
  | some b => match b.segDescs[e.target]? with
    | none => s
    | some d =>
      let s1 := d.inCh.foldl (fun t k => t.returnChannel k e.arg) s
      let s2 := (b.stash.regions.zipIdx).foldl (fun t (r, i) =>
        if r.bwdDesc = e.target then t.releaseStash i e.arg else t) s1
      let s3 := s2.releaseBuffers e.target step e.arg
      (coresOfGang s3 d.gang).foldl (fun t n =>
        let c := t.core n
        if c.run = .running ∧ c.segs.all (fun g => decide (g.total ≤ g.done)) then t.setCore n { c with run := .idle } else t) s3

/-- SPILL_CLOSE fires (R232): a tensor never stashed is STASH missing; the window closes. -/
def fireSpillClose (s : State) (region mb : Nat) : State :=
  let n := match regionAt s region with
    | some r => r.tensors.length
    | none => 0
  let s1 := (List.range n).foldl (fun t k => if stashed t region mb k then t else t.stashFault 0x22 region k mb) s
  { s1 with spills := s1.spills.map (fun w => if w.region = region ∧ w.mb = mb then { w with closed := true } else w) }

/-- A Strike entry fires (R57, Table 2-4). -/
def fireEntry (s : State) (i : Nat) (e : Strike) (step : Nat) : State :=
  let s1 := s.count Reg.cadStrikeFired
  match e.kind with
  | 0x1 => s1.fireStageStart i e step
  | 0x2 => s1.fireStageEnd e step
  | 0x3 => s1.intakeOpen e.target step e.arg
  | 0x4 => s1.intakeClose e.target step
  | 0x5 => s1.fireBucket e.target
  | 0x7 => { s1 with spills := s1.spills ++ [{ region := e.target, mb := e.arg, closed := false }] }
  | 0x8 => s1.fireSpillClose e.target e.arg
  | 0x9 => s1.startFetch e.target e.arg
  | 0xB => s1.fireUpdate e.target
  | 0xC => s1.firePush e.target
  | 0xD => s1.fireCapture e.arg
  | 0xE => s1.journalInternal 2 1 [(33, 1, e.arg)]
  | _ => s1

/-- The entries of a stroke fire in ascending index order (R57). -/
def fireStroke (s : State) (a : Nat) : State :=
  (s.cad.strike.zipIdx).foldl (fun t (e, i) =>
    if e.stroke == strokeOf a && firesIn e (stepOf a) then t.fireEntry i e (stepOf a) else t) s

/-- Entries held in the stream space (R211, R456): Bellows', the KVP's and Bloom's are of distinct IDs below 2^20. -/
def streamsBalanced (s : State) : Bool :=
  let l := s.netStreams ++ s.blmStreams ++ s.kvp.streams.map (fun p => p.1)
  decide l.Nodup && l.all (fun i => decide (i < 2 ^ 20)) && s.get Reg.netStreams == s.netStreams.length

/-- The audits of COMMIT (Table 17-3): hand-over, stash, KV, buckets, Bellows' and Bloom's entries, the stream space. -/
def commitAudits (s : State) : State :=
  let s1 := (s.auditHands.auditStash 0 0 0).kvAudit.auditTokens.auditBloom
  let s2 := if s1.get Reg.netStreams = s1.netStreams.length then s1 else s1.raise srcBellows 0x48 clsF (s1.fabAddr 0)
  if s2.streamsBalanced then s2 else s2.raise srcSmith 0x79 clsF 0

/-- The beat after the COMMIT stroke (R65, R66, R216, R218, R449): the step is committed, with its COMMIT record. -/
def commitStep (s : State) (step : Nat) : State :=
  let s1 := s.journalInternal 0 6 [(36, 4, step), (40, 2, s.cad.attempt)]
  (({ s1 with cad := { s1.cad with committed := some step, attempt := 0 } }).kvCommit).commitAudits

/-- The angle s:0x0000 begins a step: the programs start again, and every per-step pool is at home (R67, R146).
NEXT_K[j] of a slot that is no longer KEPT reads its last value until then, or until an abort: Table 4-10 names no value
(DESIGN CHOICE). -/
def beginStep (s : State) : State :=
  let s1 := { s with
    cores := s.cores.map (fun (p : Nat × Core) => (p.1, p.2.atHome)), haloRows := [], haloCredits := [], hands := s.homeHands
    bucketFill := [], tmp := { Tmp.init with work := s.tmp.work, solver := s.tmp.solver }, caps := s.caps.map (fun (p : CapEntry × Nat) => (p.1, 0))
    net := { s.net with buckets := [], tokenWait := [], allReduce := [], received := [] } }
  (s1.put Reg.netTokensHeld (s1.get Reg.netCtrlTokens)).clearStash.commitCursors.snapshot

/-- The gate at the angle before has been passed (Table 2-8). -/
def passGate (s : State) (a : Nat) : State :=
  if decide (1 ≤ a) && s.gateAt (a - 1) then { s with cad := { s.cad with lastGate := strokeOf (a - 1) } } else s

/-- A capture that begins once the COMMIT gate of the step has been found ready holds that gate (R68). -/
def holdCapture (s : State) (before : Bool) (a lead : Nat) : State :=
  if before || !capturing s then s
  else (s.cad.strike.zipIdx).foldl (fun t (e, i) =>
    if e.kind == 0xA && decide (strokeOf a ≤ e.stroke ∧ e.stroke < strokeOf a + lead) && firesIn e (stepOf a) &&
       !(t.cad.own.any (fun h => h.entry == some i)) then t.raiseHold (angleOf (stepOf a) e.stroke) reasonNotReady (some i)
    else t) s

/-- One stroke of a device: the snapshot at s:0x0000, the COMMIT record, the entries, Bloom's deadlines or a replay's
substitutions, the serving commands, and the gates that lie GATE_LEAD ahead, or at a start angle the gates up to there
(R58, R363, R449). Before its resume angle a device fires nothing (R385). -/
def stroke (s : State) (a attempt : Nat) : State :=
  let c := s.cad
  let quiet := match c.resume with
    | some r => decide (a < r)
    | none => false
  let first := c.start && !quiet || c.resume == some a
  let at0 := strokeOf a == 0
  let commits := decide (1 ≤ a) && strokeOf (a - 1) == c.commitStroke && !(first && at0) && !c.isCommitted (stepOf (a - 1))
  let s0 := if first && at0 then s else s.passGate a
  let s1 := { s0 with cad := { s0.cad with angle := a, lastFired := a, ran := true, start := if quiet then c.start else false
                                           resume := if quiet then c.resume else none } }
  if quiet then { s1 with cad := { s1.cad with attempt := attempt } }
  else
    let s2 := s1.flushReset
    let s3 := if at0 then s2.beginStep else s2
    let s4 := if commits then s3.commitStep (stepOf (a - 1)) else s3
    let s5 := ({ s4 with cad := { s4.cad with attempt := if commits then 0 else attempt } }).fireStroke a
    let s6 := if s5.ing.replay.isSome then s5.replayAt a else s5.deadlinesAt a
    let s7 := if at0 then s6.servesDue s6.mbx.queue.length else s6
    let lead := s7.get Reg.cadGateLead
    let s8 := if first then (List.range lead).foldl (fun t i => t.evalAt (a + i)) s7 else s7
    (s8.evalAt (a + lead)).holdCapture (capturing s) a lead

/-- The strokes missed before angle `a` (R50). -/
def catchUp (s : State) (a : Nat) : Nat → State
  | 0 => s
  | k + 1 => ((s.stroke (a - (k + 1)) s.cad.attempt).count Reg.cadCatchup).catchUp a k

/-- The hold ledgers of the device, and at the master of all holds received (R62). -/
def auditHolds (s : State) : State :=
  let c := s.cad
  let bad := c.raised != c.released + c.cancelled + c.own.length ||
    (s.masters && c.mRaised != c.mReleased + c.mCancelled + c.mHolds.length)
  if bad && s.alive then s.raise srcCad 0x57 clsF (s.addr % 2 ^ 14 + strokeOf c.angle * 2 ^ 16) else s

/-- A replay has reached its STOP stroke (R387, R388): the captures are written, the device returns to Armed, and the
command completes with the capture GEN and the stop angle (notes/assumptions/59). -/
def endReplay (s : State) (r : ReplayRun) : State :=
  let g0 := s.ingGen
  let s1 := s.writeCaptures
  let gen := if s1.ingGen = g0 then s1.free % 2 ^ 64 else s1.ingGen
  let s2 := (if s1.ingGen = g0 then s1.draw else s1).cancelHolds
  let a := angleOf r.step r.stop
  let s3 := { s2 with life := .armed, ing := { s2.ing with replay := none }, caps := [], blm := { s2.blm with replay := [] }
                      cad := { s2.cad with role := .idle, active := false, mOn := false, mHolds := [], haltPending := false
                                           stopped := some (0, a) } }
  ((s3.put Reg.blmStatusReplay 0).finishRunning rcOk (leBytes 8 gen ++ leBytes 6 a)).finishHalts a s3.mbx.halts.length

/-- The CAD_OUT pulse of a beat (R54): the pin rises, stays high for the pulse's length and is low again before the next
command (notes/assumptions/132). -/
def pulseOut (s : State) (a : Nat) : State :=
  if s.flag Reg.cadCtrlOutEn then
    { s with cad := { s.cad with outLevel := false } }.emit (.cadOut (if strokeOf a = 0 then 400 else 100))
  else s

/-- A device back from a core reset learns the master from a BEAT or KEEP, and sends its RESET hold first (R534). -/
def rejoin (s : State) (m : CadMsg) : State :=
  match s.cad.resume with
  | some r =>
    if s.cad.resetHold && !s.cad.role.settled then
      let s1 := s.settle m.source
      let c := { s1.cad with resetHold := false, attempt := m.attempt, active := true, seq := m.seq - 1, joined := true }
      ({ s1 with cad := c }).raiseHold r reasonReset none
    else s
  | none => s

/-- The device is back from a core reset and does not know the master (R534). -/
def waitsMaster (s : State) : Bool := s.cad.resume.isSome && s.cad.resetHold && !s.cad.role.settled

/-- A message comes from the confirmed master, or from the candidate this device has confirmed, which is master now
(R43). -/
def fromMaster (s : State) (m : CadMsg) : Bool :=
  (s.cad.role.settled && s.cad.master == m.source) || (s.cad.role == .electing && s.cad.chosen == some m.source)

/-- The sender of a BEAT, KEEP or ABORT is taken as master where an election was still open (R43). -/
def meet (s : State) (m : CadMsg) : State :=
  if s.cad.role == .electing then s.settle m.source else s

/-- A message of the master goes on to the children of the tree (R320). -/
def passOn (s : State) (m : CadMsg) : State := if m.source = s.addr then s else s.sendChildren m

/-- The RUN command completes at the first beat of its run (R440). -/
def runDone (s : State) : State :=
  if s.runningOp = some 0x0106 ∧ s.life = .running then s.finishRunning rcOk (leBytes 6 s.cad.startAngle) else s

/-- A BEAT takes effect (R50). -/
def takeBeat (s : State) (m : CadMsg) : State :=
  let c := s.cad
  let miss := if c.joined then m.seq - c.seq - 1 else m.angle - c.startAngle
  let n := min miss m.angle
  let s1 := { s with cad := { c with seq := m.seq, joined := true, stopped := none } }
  let s2 := (s1.catchUp m.angle n).stroke m.angle m.attempt
  let s3 := ((s2.pulseOut m.angle).auditHolds.runDone.placeWant).placeHalt
  match s3.ing.replay with
  | some r => if m.angle = angleOf r.step r.stop then s3.endReplay r else s3
  | none => s3

end State

/-! ## The commands -/

/-- A message of a TYPE that Table 2-2 does not list is discarded and counted (R47). -/
def badType (m : CadMsg) : Bool := m.type == 0 || decide (7 < m.type)

/-- BEAT_ISSUE: the period has elapsed and the last hold at the angle has released (R40). A gate that only HALT holds
stops the job in place of the next beat (R442); once every device has rolled back, the step begins again (R64). -/
def execBeatIssue (s : State) : Host.Outcome State Fault Refusal :=
  let c := s.cad
  let here := c.mHolds.filter (fun h => h.angle == c.mAngle)
  if !s.masters || !s.cadUp || !c.active then void s
  else if c.mRolling then
    if c.mHolds.any (fun h => h.rollback) then void s else .next (s.mBeat c.mAngle)
  else if !here.isEmpty then
    if here.all (fun h => h.reason == reasonHalt && !h.rollback) then .next (s.mStop 1 (angleOf (stepOf c.mAngle + 1) 0)) else void s
  else if c.mExternal then void s
  else .next s.mTurn

/-- BEAT: a device receives a beat (R50). -/
def execBeat (msg : CadMsg) (s : State) : Host.Outcome State Fault Refusal :=
  if badType msg then .next (s.count Reg.cadMsgErr)
  else if msg.type != 1 || !s.cadUp then void s
  else
    let s1 := s.rejoin msg
    if !s1.fromMaster msg || !s1.cad.active || (s1.cad.joined && decide (msg.seq ≤ s1.cad.seq)) then .next s1
    else .next (((s1.meet msg).passOn msg).takeBeat msg)

/-- KEEP_SEND: the master has issued no beat for eight periods, whatever the reason: also while its stop of R533 is in progress
(R46). -/
def execKeepSend (s : State) : Host.Outcome State Fault Refusal :=
  if s.cad.role != .master || !s.cadUp then void s
  else .next (s.sendChildren (s.mMsg 7 s.cad.mAngle s.cad.mAttempt 0 false))

/-- KEEP: the master is alive (R46). -/
def execKeep (msg : CadMsg) (s : State) : Host.Outcome State Fault Refusal :=
  if badType msg then .next (s.count Reg.cadMsgErr)
  else if msg.type != 7 || !s.cadUp then void s
  else
    let s1 := s.rejoin { msg with seq := msg.seq + 1 }
    if s1.fromMaster msg then .next ((s1.meet msg).passOn msg) else .next s1

namespace State

/-- The master counts a hold as raised and standing (R59, R62). -/
def mCount (s : State) (m : CadMsg) : State :=
  let h : MHold := { dev := m.source, angle := m.angle, attempt := m.attempt, reason := m.reason, rollback := false }
  { s with cad := { s.cad with mHolds := s.cad.mHolds ++ [h], mRaised := s.cad.mRaised + 1 } }

/-- A RESET hold (R534): every other hold of the device is cancelled; then the step is aborted, or the hold stands for the
next step. DEDUCED (notes/assumptions/133): the REASON of this rollback is zero. -/
def mReset (s : State) (m : CadMsg) : State :=
  let mine := s.cad.mHolds.filter (fun h => h.dev == m.source)
  let s1 := ({ s with cad := { s.cad with
    mHolds := s.cad.mHolds.filter (fun h => h.dev != m.source)
    mCancelled := s.cad.mCancelled + mine.length } }).mCount m
  if m.angle = angleOf (stepOf s.cad.mAngle) 0 ∧ s.mIsCommitted = false then s1.mAbort 0 else s1

end State

/-- HOLD: the master counts or discards it, and acts by its reason (R59, R60, R63, R533, R534). -/
def execHold (msg : CadMsg) (s : State) : Host.Outcome State Fault Refusal :=
  if badType msg then .next (s.count Reg.cadMsgErr)
  else if msg.type != 2 || !s.cadUp then void s
  else if !s.masters then .next (s.count Reg.cadMsgErr)
  else if !s.mIsCommitted && msg.attempt != s.cad.mAttempt then void s
  else if msg.reason = reasonReset then .next (s.mReset msg)
  else
    let s1 := s.mCount msg
    if msg.reason = reasonTmp then .next (s1.mStop 5 s1.cad.mAngle)
    else if msg.angle < s.cad.mAngle then
      let s2 := (s1.count Reg.cadLateHold).raise srcCad 0x54 clsU (msg.source % 2 ^ 14 + strokeOf msg.angle * 2 ^ 16)
      .next (if s2.mIsCommitted then s2 else s2.mAbort srcCad)
    else if msg.reason = reasonAbort ∧ s1.mIsCommitted = false then .next (s1.mAbort 0)
    else .next s1

/-- The standing hold that a RELEASE withdraws: same sender, angle and ATTEMPT (R63). -/
def matchHold (s : State) (m : CadMsg) : Option MHold :=
  s.cad.mHolds.find? (fun h => h.dev == m.source && h.angle == m.angle && h.attempt == m.attempt)

/-- HOLD_RELEASE: the master accepts a RELEASE that matches a standing hold, and discards any other (R63). -/
def execHoldRelease (msg : CadMsg) (s : State) : Host.Outcome State Fault Refusal :=
  if badType msg then .next (s.count Reg.cadMsgErr)
  else if msg.type != 3 || !s.cadUp then void s
  else if !s.masters then .next (s.count Reg.cadMsgErr)
  else match matchHold s msg with
    | none => void s
    | some h =>
      let l := s.cad.mHolds.erase h
      let last := !(l.any (fun x => x.angle == h.angle)) && !h.rollback && h.reason != reasonReset
      .next { s with cad := { s.cad with
        mHolds := l, mReleased := s.cad.mReleased + 1
        lastHolder := if last then msg.source % 2 ^ 14 else s.cad.lastHolder } }

namespace State

/-- A rollback by R64: the device cancels its holds, drops its step work, and counts itself as holding s:0x0000 until its
rollback is complete. -/
def rollBack (s : State) (m : CadMsg) : State :=
  let s1 := (s.cancelHolds.count Reg.cadAbortCount).dropStep (stepOf m.angle)
  let h : OwnHold := { angle := m.angle, attempt := m.attempt, reason := 0, entry := none, rollback := true }
  { s1 with cad := { s1.cad with
    angle := m.angle, attempt := m.attempt, seq := m.seq, joined := true, start := true, rolling := true, own := [h]
    raised := s1.cad.raised + 1 } }

end State

/-- What an ABORT does to a device back from a core reset that has not rejoined (R533, R534): a stop is taken and passed on like
by any other device; a rollback by the candidate that it has confirmed shows that one to be master, and the device answers
with its RESET hold (notes/assumptions/134). -/
def State.abortBack (s : State) (m : CadMsg) : State :=
  if bit m.reason 15 then
    let s1 := (s.settle m.source).passOn m
    { s1 with cad := { s1.cad with attempt := m.attempt, seq := m.seq } }.stopJob (m.reason % 2 ^ 15) m.angle
  else if s.fromMaster m then (s.rejoin { m with seq := m.seq + 1 }).passOn m
  else s

/-- ABORT: a device rolls the step back, or stops the job at the angle given (R64, R533). A copy of an ABORT already
taken has no effect. -/
def execAbort (msg : CadMsg) (s : State) : Host.Outcome State Fault Refusal :=
  if badType msg then .next (s.count Reg.cadMsgErr)
  else if msg.type = 4 ∧ s.cadUp = true ∧ s.waitsMaster = true then .next (s.abortBack msg)
  else if msg.type != 4 || !s.cadUp || !s.fromMaster msg || !s.cad.active then void s
  else if s.cad.start && s.cad.joined && s.cad.attempt == msg.attempt && s.cad.angle == msg.angle then void s
  else
    let s1 := (s.meet msg).passOn msg
    if bit msg.reason 15 then
      .next (({ s1 with cad := { s1.cad with attempt := msg.attempt, seq := msg.seq } }).stopJob (msg.reason % 2 ^ 15) msg.angle)
    else .next (s1.rollBack msg)

/-- CANDIDATE: kept, and the lowest candidate heard is confirmed while an election runs (R43). A device back from a core reset
that does not know the master takes part by confirming (R534, notes/assumptions/134). -/
def execCandidate (msg : CadMsg) (s : State) : Host.Outcome State Fault Refusal :=
  if msg.type != 5 || !s.cadUp then void s
  else
    let l := if s.cad.cands.contains msg.source then s.cad.cands else s.cad.cands ++ [msg.source]
    let s1 := { s with cad := { s.cad with cands := l } }
    if s1.cad.role == .electing then .next s1.confirmLowest
    else if s1.waitsMaster then .next { s1 with cad := { s1.cad with role := .electing, chosen := none } }.confirmLowest
    else .next s1

/-- CONFIRM: the candidate counts it, and becomes master once every device of the job has confirmed (R43, R45). -/
def execConfirm (msg : CadMsg) (s : State) : Host.Outcome State Fault Refusal :=
  if msg.type != 6 || !s.cadUp || s.cad.role != .electing || !s.isCandidate then void s
  else
    let l := if s.cad.confirms.contains msg.source then s.cad.confirms else s.cad.confirms ++ [msg.source]
    let s1 := { s with cad := { s.cad with confirms := l } }
    .next (if (s1.devices.filter (fun d => !s1.cad.lost.contains d)).all (fun d => l.contains d) then s1.becomeMaster else s1)

/-- ELECTION_TIMEOUT: no candidate has been confirmed by every device within 100 ms (R44). -/
def execElectionTimeout (s : State) : Host.Outcome State Fault Refusal :=
  if s.cad.role != .electing || !s.cadUp then void s else .next s.electionFail

/-- MASTER_LOST: no BEAT, KEEP or ABORT for 32 periods (R45), before the first beat of a restore as well as after it. -/
def execMasterLost (s : State) : Host.Outcome State Fault Refusal :=
  if s.cad.role != .follower || !s.cadUp then void s
  else
    let c := s.cad
    let s1 := s.raise srcCad 0x52 clsU (c.master % 2 ^ 14 + strokeOf c.angle * 2 ^ 16)
    let s2 := s1.cancelHolds
    .next ({ s2 with cad := { s2.cad with
      want := c.want, lost := c.lost ++ [c.master], afterLoss := true, start := c.start || c.active } }).startElection

/-- GATE_STALL: a hold has been timed beyond HOLD_LIMIT_MS (R61): the step is aborted, or the job stops with cause 3 after
COMMIT. A HALT hold is not timed, nor one at an angle not reached. -/
def execGateStall (dev angle : Nat) (s : State) : Host.Outcome State Fault Refusal :=
  if !s.masters || !s.cadUp || angle != s.cad.mAngle ||
     !(s.cad.mHolds.any (fun h => h.dev == dev && h.angle == angle && (h.reason != reasonHalt || h.rollback))) then void s
  else
    let s1 := s.raise srcCad 0x55 clsU (dev % 2 ^ 14 + strokeOf angle * 2 ^ 16)
    .next (if s1.mIsCommitted then s1.mStop 3 s1.cad.mAngle else s1.mAbort srcCad)

/-- GATE_READY: the condition of a held gate is met, and its hold is released (R58). -/
def execGateReady (entry : Nat) (s : State) : Host.Outcome State Fault Refusal :=
  match s.cad.own.find? (fun h => h.entry == some entry), s.cad.strike[entry]? with
  | some h, some e => if s.cadUp && gateReady s e (stepOf h.angle) then .next (s.releaseHold h) else void s
  | _, _ => void s

/-- ROLLBACK_COMPLETE: the device releases s:0x0000 with the new ATTEMPT, and raises a pending HALT again (R64). -/
def execRollbackComplete (s : State) : Host.Outcome State Fault Refusal :=
  match s.cad.own.find? (fun h => h.rollback) with
  | some h =>
    if s.cad.rolling && s.cad.resume.isNone && s.cadUp then
      let s1 := s.releaseHold h
      let s2 := { s1 with cad := { s1.cad with rolling := false } }
      let s3 := if s2.cad.haltPending then s2.raiseHold s2.haltGate reasonHalt none else s2
      .next s3.placeWant
    else void s
  | none => void s

/-- Bloom's buffers and spares are refilled from the committed cursors (R385). -/
def bloomRefilled (s : State) (step : Nat) : Bool :=
  s.bloomEntries.all (fun e => match bloomAt s e with
    | some d => (s.bstream e).fills.all (fun f => f.step != step || decide (d.nbuf ≤ f.mb) || f.done || f.skipped.isSome) &&
        (s.bstream e).spares.all (fun x => x.done || x.place.isNone)
    | none => true)

/-- RESUME_RELEASE: after a core reset the device has reloaded, run its pushes and refilled Bloom, and releases its hold
for the resume angle (R385, R534). -/
def execResumeRelease (s : State) : Host.Outcome State Fault Refusal :=
  match s.cad.resume with
  | none => void s
  | some r => match s.cad.own.find? (fun h => h.angle == r) with
    | none => void s
    | some h =>
      if s.cadUp && s.billet.isSome && bloomRefilled s (stepOf r) then
        let s1 := (s.releaseHold h).count Reg.ingRestores
        .next { s1 with cad := { s1.cad with rolling := false } }
      else void s

/-- CAD_IN_EDGE: a CAD_IN pulse has ended, `high` ns long, its rising edge `gap` ns after that of the previous valid edge,
`sinceBeat` ns after the last beat (R51, R52). -/
def execCadInEdge (high gap sinceBeat : Nat) (s : State) : Host.Outcome State Fault Refusal :=
  if !s.flag Reg.cadCtrlExternal || !s.alive then void s
  else if high < 80 ∨ 2000 < high ∨ gap < 4000 then
    .next ({ s with cad := { s.cad with inRun := 0 } }.count Reg.cadInErr)
  else
    let n := min (s.cad.inRun + 1) 16
    let s1 := { s with cad := { s.cad with inRun := n, inLock := s.cad.inLock || decide (16 ≤ n) } }
    if !s1.masters || !s1.cad.mExternal || !s1.cad.active then .next s1
    else if s1.mHeld s1.cad.mAngle ∨ sinceBeat < s1.get Reg.cadPeriodNs then .next (s1.count Reg.cadSlip)
    else if s1.cad.mRolling || s1.cad.mStand then .next s1
    else .next s1.mTurn

/-- CAD_IN_LOST: no valid edge for 32 periods (R52, R53): with FALLBACK the master turns by its own period from then on, and
without it the angle stands until the operator acts (notes/assumptions/135). -/
def execCadInLost (s : State) : Host.Outcome State Fault Refusal :=
  if !s.flag Reg.cadCtrlExternal || !s.alive then void s
  else
    let s1 := { s with cad := { s.cad with inLock := false, inRun := 0 } }
    let addr := s.addr % 2 ^ 14 + strokeOf s.cad.mAngle * 2 ^ 16
    if !s1.masters || !s1.cad.mExternal then .next s1
    else if s1.flag Reg.cadCtrlFallback then
      .next (({ s1 with cad := { s1.cad with mExternal := false } }).raise srcCad 0x53 clsC addr)
    else if s1.cad.mStand then .next s1
    else .next ({ s1 with cad := { s1.cad with mStand := true } }.raise srcCad 0x53 clsU addr)

end Sys2Proof.Machine
end

