-- ==== Sys2Proof/Machine/Power.lean ====
section
/-!
DEFINITION. Machine/Power.lean: clock domains and their reaches (Table 18-1), the three reset levels (Table 18-2), the
reset sources (R480, R483, R484), and the power input (R492, R503). -/

namespace Sys2Proof.Machine

/-! ## Reaches -/

/-- The domains of core reset (R481). -/
def coreReach : List Nat := [1, 4, 5, 8, 9, 10]

/-- The domains of system reset: every one but DBG (R481). -/
def sysReach : List Nat := allDomains.filter (fun d => d != 3)

/-- The FAB domains of a die's NET domain: ports 0 to 5 lie on die 0 (R20). -/
def fabOf (net : Nat) : List Nat := (List.range 6).map (fun i => 16 + 6 * (net - 6) + i)

/-- The level of a clock loss's reach (Table 18-1): 0 domains alone at system depth, 1 core, 2 system. -/
def lossLevel (d : Nat) : Nat :=
  if d = 2 ∨ d = 11 ∨ d = 12 then 2 else if coreReach.contains d ∨ d = 14 ∨ d = 15 then 1 else 0

/-- The domains that a clock loss in `d` names besides its level's (Table 18-1). -/
def lossDomains (d : Nat) : List Nat := if d = 6 ∨ d = 7 then d :: fabOf d else [d]

/-- The domains that a source covers while it is asserted (Table 18-3). -/
def ResetSrc.domains (x : ResetSrc) : List Nat :=
  let own := match x.clock with
    | some d => lossDomains d
    | none => []
  if x.level = 2 then sysReach else if x.level = 1 then coreReach ++ own else own

/-- The bit of RST.CAUSE of a source (Table 18-3). -/
def causeFld (b : Nat) : Fld :=
  [Reg.rstCausePower, Reg.rstCausePwrOk, Reg.rstCauseSysPin, Reg.rstCauseCorePin, Reg.rstCauseMbx, Reg.rstCauseRemote,
   Reg.rstCauseWdt, Reg.rstCauseTherm, Reg.rstCauseClkloss].getD b Reg.rstCauseQuenchExit

/-- A source that stays asserted for 10 µs: RESET, REMOTE_RESET and the watchdog (Table 18-3). -/
def ResetSrc.timed (x : ResetSrc) : Bool := x.bit == 4 || x.bit == 5 || x.bit == 6

/-- The word address of a stored field's key. -/
def keyAddr (k : Nat) : Nat := k / 32

namespace State

/-- RST.CAUSE as a word (Table 18-8). -/
def causeWord (s : State) : Nat :=
  ((List.range 10).map (fun b => s.get (causeFld b) * 2 ^ b)).foldl (· + ·) 0 + s.get Reg.rstCauseLastReach * 2 ^ 16

/-- The level at which FAULT_OUT_N is driven outside power-on (R462): low in Quench, during a pulse, and with PIN_DRIVE.
A collector that is held keeps the level. -/
def drivePin (s : State) : State :=
  if s.domUp 2 then
    { s with sys := { s.sys with faultLow := s.life == .quench || s.sys.pulse || s.flag Reg.fltCtrlPinDrive } }
  else s

/-! ## Core reset -/

/-- Registers that core reset returns to their reset values (Table 20-3): CAD but for its settings, STH, FLX and KVP, and
the core registers but for the trap record and its fellows of Table 3-7. -/
def coreCleared (a : Nat) : Bool :=
  (0x30000 ≤ a && a < 0x3005C && a != 0x30000 && a != 0x30014 && a != 0x30018 && a != 0x3001C && a != 0x30030) ||
  (0x300000 ≤ a && a < 0x300048) || (0x310000 ≤ a && a < 0x310400) || (0x400000 ≤ a && a < 0x40005C) ||
  (0x1000000 ≤ a && a < 0x1C00000 && !(0x200 ≤ a % 0x10000 && a % 0x10000 ≤ 0x220))

/-- Sources in the core reach, whose waiting messages a core reset loses (R531, notes/assumptions/62). The watchdog counts
in COLL. -/
def coreSource (m : FaultMsg) : Bool :=
  m.source < 0x208 || (0x210 ≤ m.source && m.source < 0x231) || m.source == 0x260 || m.source == 0x290 ||
  (m.source == 0x2A0 && m.kind != 0x78)

/-- Commands that a reset or Quench interrupts complete ABORTED: the one that runs, and the HALT commands taken (R435). -/
def abortHalts (s : State) : Nat → State
  | 0 => s
  | k + 1 =>
    match s.mbx.halts with
    | [] => s
    | n :: rest =>
      let s1 := { s with mbx := { s.mbx with halts := rest } }
      (match s1.slot? n with
        | some x => s1.finish x rcAborted []
        | none => s1).abortHalts k

/-- The running command and the HALT commands complete ABORTED (R435). -/
def abortRunning (s : State) : State := (s.abortHalts s.mbx.halts.length).finishRunning rcAborted []

/-- Uploads are discarded (Table 16-9). -/
def dropUploads (s : State) : State :=
  { s with mbx := { s.mbx with sessions := s.mbx.sessions.map (fun (x : Session) => { x with upload := none }) } }

/-- The angle at which a core-reset device resumes (R278, R385): (s+1):0x0000 once step s is committed, else s:0x0000. A
replay is not resumed (notes/assumptions/63). -/
def resumeAngle (s : State) : Option Nat :=
  if s.cad.active && s.life == .running && s.ing.replay.isNone then
    let st := stepOf s.cad.angle
    some (angleOf (if s.cad.isCommitted st then st + 1 else st) 0)
  else none

/-- The Cadence through a core reset (R70, R534): the settings, the Strike table and the CAD_IN checker stay. -/
def resetCad (s : State) (resume : Option Nat) : State :=
  let c := s.cad
  { s with cad := { Cad.init with
    strike := c.strike, commitStroke := c.commitStroke, inRun := c.inRun, inLock := c.inLock, lastFired := c.lastFired, outLevel := c.outLevel
    ran := c.ran, resume := resume, resetHold := resume.isSome, rolling := resume.isSome, start := resume.isSome
    stopped := if resume.isSome then none else c.stopped } }

/-- The pools and the step work of the core reach, and Bellows' and Bloom's job state (R118, R146, R222, R237, R332,
R357). -/
def clearCores (s : State) (step : Nat) : State :=
  let s1 := { s with
    regs := s.regs.filter (fun (p : Nat × Nat) => !coreCleared (keyAddr p.1))
    cores := [], haloRows := [], haloCredits := [], kvp := Kvp.init, stash := [], spills := [], fetches := [], stashFree := [], hands := []
    bucketFill := [], caps := [], captures := [], tmp := Tmp.init
    net := { s.net with buckets := [], tokenWait := [], allReduce := [], received := [] }
    faultQ := s.faultQ.filter (fun (m : FaultMsg) => !coreSource m) }
  ((List.range 12).foldl (fun t p => t.dropStale p) s1).abortBloom step |>.put Reg.netTokensHeld (s.get Reg.netCtrlTokens)

/-- Core reset (R481, Table 18-2): Temper first finishes the update of a committed step (R278); every HBM4 stack enters
self-refresh (R482). -/
def coreReset (s : State) : State :=
  let resume := s.resumeAngle
  let st := stepOf s.cad.angle
  let s1 := if s.cad.active && s.cad.isCommitted st && s.ing.replay.isNone then s.finishUpdates st else s
  let s2 := s1.abortRunning.dropUploads
  let s3 := (s2.clearCores (stepOf (resume.getD s.cad.angle))).resetCad resume
  let s4 := { s3 with
    life := if s3.life = Life.running ∧ resume.isNone then Life.armed else s3.life
    blm := { s3.blm with replay := [] }
    sys := { s3.sys with banks := Assoc.del s3.sys.banks 0 } }
  let s5 := (List.range 8).foldl (fun t k => if t.get (Reg.hbmStateMode k) = 2 then t.put (Reg.hbmStateMode k) 3 else t) s4
  let s6 := (s5.endRestore.put Reg.blmStatusReplay 0).count Reg.rstCoreCount
  { s6 with jnl := { s6.jnl with resetCause := some s6.causeWord } }

/-! ## System reset and power-on -/

/-- Registers that system reset keeps (Table 20-3): RST.CAUSE, the strap, REFCLK, the records and the live legacy fields of
FLT, the HBM error counts, ID.SCRATCH, and what CRU holds in fuses and boot store. The debug unlock stands until power-on
(R419). -/
def sysKept (k : Nat) : Bool :=
  let a := keyAddr k
  a == 0x10000 || a == 0x10024 || a == 0x1080C || (0x20008 ≤ a && a < 0x20028) ||
  k == Reg.fltStatusValid.key || k == Reg.fltStatusFValid.key ||
  (a == 0x20038 && k != Reg.fltLegacyForced.key) ||
  (0x700000 ≤ a && a < 0x708000 && (a % 0x1000 == 4 || a % 0x1000 == 8 || a % 0x1000 == 0x10 || a % 0x1000 == 0x14)) ||
  (0x20 ≤ a && a < 0x30) || k == Reg.cruStatusDebug.key || k == Reg.cruBootActive.key || a == 0x6001C || a == 0x60030

/-- Registers that survive power-off: fuses and ACTIVE (R394, R495). -/
def storeKept (k : Nat) : Bool := k == Reg.cruBootActive.key || keyAddr k == 0x6001C || keyAddr k == 0x60030

/-- The boot store's part of Crucible (R394, R487). -/
def bootStore (c : Cru) : Cru :=
  { Cru.init with owner := c.owner, wrapped := c.wrapped, images := c.images, token := c.token, quenchMark := c.quenchMark }

/-- A bay through a system reset (R493): it keeps its power and runs steps 2 to 5 of R381 again; PERST is asserted. A bay
that is switched off stays off. -/
def resetBay (old s : State) (b : Nat) : State :=
  let c := old.bayCode b
  if c = 0 then s
  else if 8 ≤ c then s.put (Reg.ingBayStateCode b) c
  else (s.emit (.bayPerst b true)).put (Reg.ingBayStateCode b) 1

/-- System reset (R481, Table 18-2): every block but DBG returns to its reset state; what is kept is named in `sysKept`. -/
def sysReset (s : State) : State :=
  let s1 := { State.reset with
    regs := s.regs.filter (fun (p : Nat × Nat) => sysKept p.1), cru := bootStore s.cru
    sys := { s.sys with bootDue := true, booted := false, wdt := 0, summary := none, stockSelf := false, stockPatrol := 0
                        banks := s.sys.banks.filter (fun (p : Nat × Bank) => p.1 == 1) }
    cad := { Cad.init with outLevel := s.cad.outLevel }
    out := s.out, freeCtr := s.freeCtr, pending := s.pending, hearth0 := s.hearth0, hearth1 := s.hearth1, hbm := s.hbm
    stock := s.stock, hbmPoison := s.hbmPoison, stockPoison := s.stockPoison
    faultQ := s.faultQ.filter (fun (m : FaultMsg) => m.source == srcClock && !m.forced) }
  let s2 := [0, 1].foldl (fun t b => resetBay s t b) s1
  { s2 with jnl := { s2.jnl with resetCause := some s2.causeWord } }

/-- Power-on reset, or the loss of the rails: everything but the boot store and the fuses is lost (R4, R394); the sources
that pins assert stay (R490). -/
def powerOff (s : State) (rails : Bool) (porBit : Nat) : State :=
  { State.reset with
    regs := s.regs.filter (fun (p : Nat × Nat) => storeKept p.1), cru := bootStore s.cru, out := s.out
    freeCtr := s.freeCtr, pending := s.pending
    sys := { Sys.init with rails := rails, porBit := porBit, vin := if rails then s.sys.vin else 0
                           asserted := s.sys.asserted.filter (fun x => x.bit == 2 || x.bit == 3) } }

/-! ## Domains alone -/

/-- SVC alone, at system depth: sessions and result slots are lost (R431, R438), with the commands in them. -/
def resetSvc (s : State) : State :=
  { s with mbx := Mbx.init
           sys := { s.sys with summary := none, banks := s.sys.banks.filter (fun (p : Nat × Bank) => decide (p.1 < 2)) } }

/-- DBG alone: the TAP is in Test-Logic-Reset and the JTAG bank at its reset values. -/
def resetDbg (s : State) : State := { s with sys := { s.sys with tap := Sys.init.tap, banks := Assoc.del s.sys.banks 1 } }

/-- BAY alone (R480): every generation in progress fails by R371, and each bay runs steps 2 to 5 of R381 again. -/
def resetBays (s : State) : State :=
  let s1 := match s.ing.cur with
    | some g => s.failGen (g.bays.headD 0) g
    | none => s
  [0, 1].foldl (fun t b =>
    if t.bayCode b = 0 ∨ 8 ≤ t.bayCode b then t else (t.clearBay b 1).emit (.bayPerst b true)) s1

/-- A FAB domain alone (R480): the port goes down by R289, and will be sealed again (R311). -/
def resetFab (s : State) (p : Nat) : State :=
  let s1 := s.setPort p { s.port p with reseal := true }
  if s1.portUp p then s1.goDown p else s1.put (Reg.fabStatusState p) 4

/-- What a clock loss does to a domain at system depth, outside core and system reset. -/
def resetDomain (s : State) (d : Nat) : State :=
  if d = 0 then s.resetSvc else if d = 3 then s.resetDbg else if d = 13 then s.resetBays
  else if 16 ≤ d ∧ d < 28 then s.resetFab (d - 16) else s

/-! ## Sources -/

/-- A domain is covered by an asserted source (R484). -/
def covered (s : State) (d : Nat) : Bool := s.sys.asserted.any (fun x => x.domains.contains d)

/-- LAST_REACH keeps the widest level taken (R484); a domain alone is no level (notes/assumptions/64). -/
def noteReach (s : State) (level : Nat) : State :=
  if s.get Reg.rstCauseLastReach < level then s.put Reg.rstCauseLastReach level else s

/-- A source asserts (R483, R484): its cause bit is set, its reach joins the union, and what was released and is now covered
is reset. In Quench only the cause bit is set (R465, R487); during power-on reset it waits for the release (R490). -/
def assertSource (s : State) (x : ResetSrc) : State :=
  let s1 := s.put (causeFld x.bit) 1
  if s.life = .quench then s1
  else if s.sys.por then
    if s.sys.asserted.contains x then s else { s with sys := { s.sys with asserted := s.sys.asserted ++ [x] } }
  else
    let had := s.sys.asserted
    let fresh := x.domains.filter (fun d => s.domUp d)
    let s2 := { s1 with sys := { s1.sys with
      asserted := if had.contains x then had else had ++ [x]
      held := allDomains.filter (fun d => s.sys.held.contains d || x.domains.contains d) } }
    let s3 := if x.level = 2 then (if had.any (fun y => y.level == 2) then s2 else s2.sysReset)
      else if x.level = 1 then (if fresh.any (fun d => coreReach.contains d) then s2.coreReset else s2) else s2
    let s4 := if x.level = 2 then s3 else fresh.foldl resetDomain s3
    s4.noteReach x.level

/-- A source deasserts; its domains wait for their release (R484, R485). -/
def dropSource (s : State) (p : ResetSrc → Bool) : State :=
  { s with sys := { s.sys with asserted := s.sys.asserted.filter (fun x => !p x) } }

end State

/-! ## The commands of pins, clocks and power -/

/-- The power is on and power-on reset has released. -/
def running (s : State) : Bool := s.sys.rails && !s.sys.por

/-- SYS_RESET_N: a filtered low asserts system reset (R490). -/
def execSysResetN (s : State) : Host.Outcome State Fault Refusal :=
  if !s.sys.rails then void s else .next (s.assertSource { bit := 2, clock := none, level := 2 })

/-- CORE_RESET_N: a filtered low asserts core reset (R490). -/
def execCoreResetN (s : State) : Host.Outcome State Fault Refusal :=
  if !s.sys.rails then void s else .next (s.assertSource { bit := 3, clock := none, level := 1 })

/-- RESET_PIN_RELEASE: the pin has read high for 1 µs (R490). -/
def execResetPinRelease (sys : Bool) (s : State) : Host.Outcome State Fault Refusal :=
  .next (s.dropSource (fun x => x.bit == (if sys then 2 else 3)))

/-- A domain's clock-good falls (R480). A domain not released since power-on only waits longer. -/
def State.loseClock (s : State) (d : Nat) : State :=
  if !s.sys.good.contains d then s
  else
    let s1 := { s with sys := { s.sys with good := s.sys.good.filter (fun x => x != d) } }
    if !s.sys.wasUp.contains d then s1
    else
      let s2 := s1.assertSource { bit := 8, clock := some d, level := lossLevel d }
      let s3 := ((s2.put Reg.clkLoss (s2.get Reg.clkLoss ||| 2 ^ d)).count Reg.clkLossCount).count (Reg.clkDomLosses d)
      s3.raise srcClock 0x7A clsU d

/-- The twelve FAB domains (Table 18-1). -/
def fabDomains : List Nat := (List.range 12).map (16 + ·)

/-- CLOCK_LOSS: a domain's clock-good falls (R480). `refclk`: REFCLK is present; the loss of REFCLK drops the clock-good of
every fabric PLL together (R282). -/
def execClockLoss (domain : Nat) (refclk : Bool) (s : State) : Host.Outcome State Fault Refusal :=
  if !running s || !s.sys.good.contains domain then void s
  else if domain < 16 then .next (s.loseClock domain)
  else .next ((if refclk then [domain] else fabDomains).foldl State.loseClock (s.put Reg.clkRefclkPresent (b2n refclk)))

/-- CLOCK_GOOD: the PLL has held lock for 4,096 reference cycles (R479); a clock loss of the domain ends. -/
def execClockGood (domain : Nat) (s : State) : Host.Outcome State Fault Refusal :=
  if !running s || decide (28 ≤ domain) || s.sys.good.contains domain then void s
  else
    let s1 := { s with sys := { s.sys with good := insertNat domain s.sys.good } }
    let s2 := s1.dropSource (fun x => x.clock == some domain)
    .next (if 16 ≤ domain then s2.put Reg.clkRefclkPresent 1 else s2)

/-- The input lies in a band in which PWR input is raised (Table 19-7), in units of 10 mV. -/
def inBand (vin : Nat) : Bool := (3800 ≤ vin && vin ≤ 4000) || (6000 ≤ vin && vin ≤ 6200)

/-- POWER_INPUT_RISE: the input rises through 38 V, and the rails start (R492, R503). -/
def execPowerInputRise (vin : Nat) (s : State) : Host.Outcome State Fault Refusal :=
  if s.sys.rails || decide (vin < 3800) || decide (6200 < vin) then void s
  else
    let t := s.powerOff true 0
    .next { t with sys := { t.sys with vin := vin, bandDue := inBand vin } }

/-- POWER_INPUT_BAND: the input enters 38 to 40 V or 60 to 62 V; PWR input is raised once, at once or when the collector
first accepts messages (Table 19-7). -/
def execPowerInputBand (vin : Nat) (s : State) : Host.Outcome State Fault Refusal :=
  if !s.sys.rails || !inBand vin then void s
  else
    let s1 := { s with sys := { s.sys with vin := vin } }
    if s.domUp 2 then .next (s1.raise srcPower 0x7E clsC (vin % 65536))
    else .next { s1 with sys := { s1.sys with bandDue := true } }

/-- POWER_INPUT_HIGH: above 62 V the rails turn off (Table 19-7). -/
def execPowerInputHigh (s : State) : Host.Outcome State Fault Refusal :=
  if !s.sys.rails then void s else .next (s.powerOff false 0)

/-- POWER_INPUT_LOW: below 36 V beyond 50 µs the rails turn off (Table 19-7). -/
def execPowerInputLow (s : State) : Host.Outcome State Fault Refusal :=
  if !s.sys.rails then void s else .next (s.powerOff false 0)

/-- PWR_OK_LOW: PWR_OK low for 10 µs resets the module without removing its rails (R492). -/
def execPwrOkLow (s : State) : Host.Outcome State Fault Refusal :=
  if !s.sys.rails then void s else .next (s.powerOff true (if s.sys.por then s.sys.porBit else 1))

/-- POWER_ON_RELEASE: every rail is good and PWR_OK high (R486, R492): RST.CAUSE takes its cause, the straps are sampled,
the service-connector outputs take their levels (Table 18-5), and the legacy window starts (R472). -/
def execPowerOnRelease (legacyEn : Bool) (smbAddr : Nat) (s : State) : Host.Outcome State Fault Refusal :=
  if !s.sys.rails || !s.sys.por then void s
  else
    let s1 := s.put (causeFld s.sys.porBit) 1
    let s2 := s.sys.asserted.foldl (fun t x => t.put (causeFld x.bit) 1) s1
    let s3 := (s2.put Reg.rstStrapLegacyEn (b2n legacyEn)).put Reg.fltLegacyEn (b2n legacyEn)
    .next { s3 with
      sys := { s3.sys with por := false, window := legacyEn, smbAddr := smbAddr % 8, pinFault := false
                           pinLegacy := if legacyEn then some false else none }
      jnl := { s3.jnl with resetCause := some s3.causeWord } }

/-! ## Temperatures and the watchdog -/

/-- The warning and trip thresholds of a sensor (R37): dies, then stacks and packages. -/
def warnAt (sensor : Nat) : Nat := if sensor < 5 then 95 else 88
/-- The trip threshold. -/
def tripAt (sensor : Nat) : Nat := if sensor < 5 then 105 else 95

namespace State

/-- A sensor's reading, none where it reads 0xFF (Table 19-9). -/
def tempOf (s : State) (k : Nat) : Nat := if s.sys.temps.getD k 255 = 255 then 0 else s.sys.temps.getD k 255

/-- A sensor reads a temperature: sensors 5 to 12 are those of the HBM stacks, 13 that of Stock (Table 17-2). -/
def setTemp (s : State) (k t : Nat) : State :=
  let s1 := { s with sys := { s.sys with temps := s.sys.temps.set k (t % 256) } }
  if 5 ≤ k ∧ k < 13 then s1.put (Reg.hbmStateTempC (k - 5)) (if t % 256 = 255 then 0 else t)
  else if k = 13 then s1.put Reg.tmpStockTempC (if t % 256 = 255 then 0 else t) else s1

/-- All sensors read. -/
def setTemps (s : State) (l : List Nat) : State := (l.take 14).zipIdx.foldl (fun u (t, k) => u.setTemp k t) s

/-- The watchdog's period in ms (Table 18-8). -/
def wdtPeriod (s : State) : Nat :=
  let p := s.get Reg.rstWdtPeriodMs
  if 100 ≤ p ∧ p ≤ 60000 then p else 2000

/-- A write of 1 to WDT_KICK restarts the count (R489). -/
def kick (s : State) : State := { s with sys := { s.sys with wdt := 0 } }

end State

/-- THERMAL_WARNING: a sensor reaches its warning threshold (R37). -/
def execThermalWarning (sensor temp : Nat) (s : State) : Host.Outcome State Fault Refusal :=
  if !running s || decide (14 ≤ sensor) || decide (temp < warnAt sensor) || decide (warnAt sensor ≤ s.tempOf sensor) then void s
  else .next ((s.setTemp sensor temp).raise (srcTherm sensor) 0x7C clsC (temp % 256))

/-- THERMAL_TRIP: a sensor reaches its trip threshold; a warning that is due with it comes first (R37). The reset follows
the acceptance of the message (R531). -/
def execThermalTrip (sensor temp : Nat) (s : State) : Host.Outcome State Fault Refusal :=
  if !running s || decide (14 ≤ sensor) || decide (temp < tripAt sensor) || decide (tripAt sensor ≤ s.tempOf sensor) then void s
  else
    let s1 := if s.tempOf sensor < warnAt sensor then s.raise (srcTherm sensor) 0x7C clsC (temp % 256) else s
    .next ((s1.setTemp sensor temp).raise (srcTherm sensor) 0x7D clsU (temp % 256))

/-- THERMAL_TRIP_END: every sensor reads below its warning threshold (Table 18-3). -/
def execThermalTripEnd (temps : List Nat) (s : State) : Host.Outcome State Fault Refusal :=
  let t := s.setTemps temps
  if (List.range 14).all (fun k => decide (t.tempOf k < warnAt k)) then .next (t.dropSource (fun x => x.bit == 7)) else void s

/-- WATCHDOG_EXPIRY: the count has reached the period (R489): SMITH watchdog is raised, and the reset follows its
acceptance (R531). -/
def execWatchdogExpiry (ms : Nat) (s : State) : Host.Outcome State Fault Refusal :=
  if !running s || !s.smithUp || !s.flag Reg.rstCtrlWdtEn || decide (ms < s.wdtPeriod) then void s
  else .next (({ s with sys := { s.sys with wdt := ms } }).raise srcSmith 0x78 clsU 0)

/-- WDT_KICK: Smith restarts the count (R489). -/
def execWdtKick (s : State) : Host.Outcome State Fault Refusal :=
  if s.smithUp then .next s.kick else void s

end Sys2Proof.Machine
end

