-- ==== Sys2Proof/Machine/Faults.lean ====
section
/-!
DEFINITION. Machine/Faults.lean: the fault collector (R457 to R463), entry to Quench (R464 to R468), forced messages
(R461) and the legacy pairs (R469 to R475). -/

namespace Sys2Proof.Machine

/-! ## Sources and kinds (Table 17-2) -/

/-- Kinds in a range, all of one class but the last. -/
def kindIn (kind lo hi cls last : Nat) : Option Nat :=
  if kind = hi then some last else if lo ≤ kind ∧ kind < hi then some cls else none

/-- The class that Table 17-2 gives a kind at a source; none where it lists no such kind there (R455). -/
def kindClass (s : State) (src kind : Nat) : Option Nat :=
  if src < 192 then (if 1 ≤ kind ∧ kind ≤ 3 then some (if s.flag (Reg.coreNumctrlNanAction src) then clsU else clsC) else none)
  else if 0x100 ≤ src ∧ src < 0x100 + 192 then
    if kind = 0x0C ∨ kind = 0x0E ∨ kind = 0x10 then some clsF else if 8 ≤ kind ∧ kind ≤ 0x0F then some clsU else none
  else if 0x200 ≤ src ∧ src < 0x208 then kindIn kind 0x18 0x19 clsC clsU
  else if 0x210 ≤ src ∧ src < 0x220 then (if kind = 0x1C then some clsU else none)
  else if src = 0x220 then kindIn kind 0x20 0x24 clsU clsF
  else if src = 0x230 then kindIn kind 0x28 0x2F clsU clsF
  else if src = 0x240 then (if kind = 0x34 then some clsF else none)
  else if 0x250 ≤ src ∧ src < 0x25C then
    if kind = 0x39 ∨ kind = 0x3C then some clsU else if 0x38 ≤ kind ∧ kind ≤ 0x3B then some clsC else none
  else if src = 0x25F then
    if kind = 0x40 ∨ kind = 0x46 then some clsC
    else if kind = 0x41 ∨ kind = 0x48 ∨ kind = 0x4A then some clsF
    else if 0x42 ≤ kind ∧ kind ≤ 0x4B then some clsU else none
  else if src = 0x260 then
    if kind = 0x53 then some (if s.flag Reg.cadCtrlFallback then clsC else clsU) else kindIn kind 0x50 0x57 clsU clsF
  else if src = 0x270 then
    if 0x58 ≤ kind ∧ kind ≤ 0x5B then some clsC else if kind = 0x5C ∨ kind = 0x5D then some clsU else none
  else if src = 0x280 then (if 0x60 ≤ kind ∧ kind ≤ 0x68 then some clsC else none)
  else if src = 0x290 then (if kind = 0x6C then some clsC else kindIn kind 0x6D 0x73 clsU clsF)
  else if src = 0x2A0 then kindIn kind 0x78 0x79 clsU clsF
  else if src = 0x2B0 then (if kind = 0x7A then some clsU else none)
  else if 0x2C0 ≤ src ∧ src < 0x2CE then kindIn kind 0x7C 0x7D clsC clsU
  else if src = 0x2D0 then (if kind = 0x7E then some clsC else none)
  else if 0xF00 ≤ src ∧ src < 0xF04 then (if kind = 0xE0 ∨ kind = 0xE1 then some clsU else none)
  else if src = 0xFFF then (if kind = 0xFF then some clsF else none)
  else none

/-- A legacy source. -/
def legacySource (src : Nat) : Bool := 0xF00 ≤ src && src < 0xF04

namespace State

/-! ## Quench (R464 to R468) -/

/-- The Quench notice goes to every other job member to which a route stands (R466). -/
def sendNotices (s : State) (m : FaultMsg) : State :=
  (s.devices.filter (fun a => a != s.addr && (s.routePort a false).isSome)).foldl
    (fun t a => t.sendRouted (t.newPacket 3 false a 0 0 (.fault m.word0 m.word1 t.addr))) s

/-- A port drops its job packets and loses its link keys (Table 17-5). -/
def eraseLink (s : State) (p : Nat) : State :=
  let x := s.port p
  (s.setPort p { x with ready := [], transit := [], sending := none, myRandom := none, peerRandom := none, txKey := [], rxKey := [], txNonce := 0, rxNonce := none
                        attNonce := none, attReport := none, peerNonce := none, peerDone := false, reseal := true }).put
    (Reg.fabSealState p) 0

/-- Every queued command completes ABORTED (R435, R464). -/
def abortQueue (s : State) : Nat → State
  | 0 => s
  | k + 1 =>
    match s.mbx.queue with
    | [] => s
    | n :: rest =>
      let s1 := { s with mbx := { s.mbx with queue := rest } }
      (match s1.slot? n with
        | some x => s1.finish x rcAborted []
        | none => s1).abortQueue k

/-- The TAP takes EXTEST and CLAMP as BYPASS from the moment the device enters Running, and in Quench (R508, Table 19-11). -/
def barScan (s : State) : State :=
  if s.sys.tap.instr = .extest ∨ s.sys.tap.instr = .clamp then
    { s with sys := { s.sys with tap := { s.sys.tap with instr := .bypass } } }
  else s

/-- The device enters Quench on a message (R464, Table 17-5); the marker goes into the boot store (R487). CAD_OUT goes low. -/
def quench (s : State) (m : FaultMsg) : State :=
  if s.life = .quench then s
  else
    let s1 := if s.inJob then s.sendNotices m else s
    let s2 := (List.range 12).foldl eraseLink s1
    let s3 := (s2.abortRunning).abortQueue s2.mbx.queue.length
    let s4 := { s3 with
      life := .quench, seed := none, cru := { s3.cru with quenchMark := true }
      cad := { s3.cad with mOn := false, active := false, outLevel := false }, ing := { s3.ing with restore := none, replay := none } }
    let s5 := (List.range 8).foldl (fun t k => if t.get (Reg.hbmStateMode k) = 2 then t.put (Reg.hbmStateMode k) 3 else t) s4
    ((((s5.put Reg.cruStatusSeedHeld 0).put Reg.cruScrubBusy 0).put Reg.fltStatusQuench 1).put Reg.fltLegacyOut
      (s5.get Reg.fltLegacyEn)).drivePin.barScan

/-- The first class F message accepted is kept in FIRST_F (R459). -/
def latchF (s : State) (m : FaultMsg) : State :=
  if s.flag Reg.fltStatusFValid then s
  else ((s.put64 Reg.fltFirstFLo Reg.fltFirstFHi m.word0).put64 Reg.fltFirstFAngleLo Reg.fltFirstFAngleHi m.word1).put
    Reg.fltStatusFValid 1

/-! ## Collection (R457, R458) -/

/-- The message is masked (R460): MASK has no effect on class F. -/
def masked (s : State) (m : FaultMsg) : Bool := s.flag (Reg.fltSrcCfgMask m.source) && m.cls != clsF

/-- The class total of a message. -/
def totalFld (cls : Nat) : Fld := if cls = clsF then Reg.fltTotalF else if cls = clsU then Reg.fltTotalU else Reg.fltTotalC

/-- FIRST latches, and the pulse starts (R458, R462); a record that stands sets OVF instead. -/
def latchFirst (s : State) (m : FaultMsg) : State :=
  if s.flag Reg.fltStatusValid then s.put Reg.fltStatusOvf 1
  else
    let s1 := ((s.put64 Reg.fltFirstLo Reg.fltFirstHi m.word0).put64 Reg.fltFirstAngleLo Reg.fltFirstAngleHi m.word1).put
      Reg.fltStatusValid 1
    ({ s1 with sys := { s1.sys with pulse := true } }).drivePin

/-- FORCE of a source after one of its messages is accepted (R461): a forced one clears it; a source whose forced message
was dropped raises it again now that its queue has room. -/
def reforce (s : State) (m : FaultMsg) : State :=
  let x := m.source
  if m.forced then s.put (Reg.fltSrcCfgForce x) 0
  else if s.flag (Reg.fltSrcCfgForce x) && !legacySource x && !(s.faultQ.any (fun k => k.source == x && k.forced)) then
    let k := s.get (Reg.fltSrcCfgForceKind x)
    match kindClass s x k with
    | some c => s.raiseMsg x k c 0 true
    | none => s
  else s

/-- What follows the acceptance of a message by its class (R463) and by its cause: the resets that wait for their message
(R531), which in Quench set their cause bit alone (R465), and the hold of R473. -/
def escalate (s : State) (m : FaultMsg) : State :=
  let s := if m.cls = clsF ∨ (m.cls = clsU ∧ s.flag Reg.fltCtrlUFatal ∧ s.masked m = false) then (s.latchF m).quench m else s
  if !m.forced && m.kind == 0x7D then s.assertSource { bit := 7, clock := none, level := 2 }
  else if !m.forced && m.kind == 0x78 then
    s.kick.assertSource { bit := 6, clock := none, level := 1 + s.get Reg.rstCtrlWdtReach }
  else if legacySource m.source && s.flag Reg.fltCtrlLegacyAbort && !s.masked m && s.life == .running then s.abortHold
  else s

/-- The collector accepts a message (R458): it is counted, latched where it is not masked, and escalated. -/
def accept (s : State) (m : FaultMsg) : State :=
  let s1 := ((({ s with faultQ := s.faultQ.erase m }).count (Reg.fltCount m.source)).count (totalFld m.cls))
  let s2 := if s1.masked m then s1 else s1.latchFirst m
  (s2.reforce m).escalate m

/-- The oldest waiting message of a source. -/
def headOf (s : State) (src : Nat) : Option FaultMsg := s.faultQ.find? (fun m => m.source == src)

/-- The message that the collector accepts of those which several sources bring in one cycle: by descending class, then
ascending source (R457). -/
def nextMsg (s : State) (sources : List Nat) : Option FaultMsg :=
  (sources.filterMap s.headOf).foldl (fun (o : Option FaultMsg) m => match o with
    | none => some m
    | some x => if x.cls < m.cls ∨ (x.cls = m.cls ∧ m.source < x.source) then some m else some x) none

/-- A write of 1 to FLT.STATUS.VALID in a cycle with no message: the record clears and is re-armed (R458). -/
def clearFirst (s : State) : State :=
  ((s.put64 Reg.fltFirstLo Reg.fltFirstHi 0).put64 Reg.fltFirstAngleLo Reg.fltFirstAngleHi 0).put Reg.fltStatusValid 0

/-! ## Forced messages (R461, R474) -/

/-- A write of a SRC_CFG word: with FORCE set it raises one forced message, or is ignored as a whole where the kind is not
listed; of the legacy sources FORCE is a level (R461, R474), ignored while LEGACY_EN reads low (R469). -/
def writeSrcCfg (s : State) (x : Nat) (force mask : Bool) (kind : Nat) : State :=
  let set := fun (t : State) => (t.put (Reg.fltSrcCfgMask x) (b2n mask)).put (Reg.fltSrcCfgForceKind x) kind
  if legacySource x then
    if s.flag Reg.fltLegacyEn then
      let k := x - 0xF00
      let f := s.get Reg.fltLegacyForced
      ((set s).put (Reg.fltSrcCfgForce x) (b2n force)).put Reg.fltLegacyForced
        (if force then f ||| 2 ^ k else f - (if bit f k then 2 ^ k else 0))
    else set s
  else if force then
    match kindClass s x (kind % 256) with
    | none => s
    | some c => ((set s).put (Reg.fltSrcCfgForce x) 1).raiseMsg x (kind % 256) c 0 true
  else set s

/-! ## Legacy pairs (R469 to R475) -/

/-- Set or clear bit `k` of a field. -/
def putBit (s : State) (f : Fld) (k : Nat) (b : Bool) : State :=
  s.put f (if b then s.get f ||| 2 ^ k else s.get f - (if bit (s.get f) k then 2 ^ k else 0))

/-- A legacy message, always class U (R473). -/
def raiseLegacy (s : State) (k kind : Nat) : State := s.raise (srcLegacy k) kind clsU 0

end State

/-! ## The commands -/

/-- FAULT_MESSAGE_ACCEPT: the collector accepts one of the messages that the sources named bring in this cycle (R457,
R458). -/
def execFaultMessageAccept (sources : List Nat) (s : State) : Host.Outcome State Fault Refusal :=
  match s.nextMsg sources with
  | some m => if s.domUp 2 then .next (s.accept m) else void s
  | none => void s

/-- QUENCH_STOCK_SELF_REFRESH: the appends have fetched their data, or 2 ms have passed (Table 17-5). -/
def execQuenchStockSelfRefresh (s : State) : Host.Outcome State Fault Refusal :=
  if s.life = .quench then .next { s with sys := { s.sys with stockSelf := true } } else void s

/-- COLLECTOR_PARITY: straight to Quench, with the message in FIRST_F only; in Quench only SELF is set (R468). -/
def execCollectorParity (offset : Nat) (s : State) : Host.Outcome State Fault Refusal :=
  if !s.domUp 2 then void s
  else
    let s1 := s.put Reg.fltStatusSelf 1
    if s.life = .quench then .next s1
    else
      let m := s.faultMsg srcCollector 0xFF clsF (offset % 65536) false
      let s2 := ((s1.put64 Reg.fltFirstFLo Reg.fltFirstFHi m.word0).put64 Reg.fltFirstFAngleLo Reg.fltFirstFAngleHi m.word1).put
        Reg.fltStatusFValid 1
      .next (s2.quench m)

/-- FAULT_PULSE_END: the pulse is over, and the pin follows PIN_DRIVE (R462). -/
def execFaultPulseEnd (s : State) : Host.Outcome State Fault Refusal :=
  if s.sys.pulse then
    .next { s with sys := { s.sys with pulse := false, faultLow := s.life == .quench || s.flag Reg.fltCtrlPinDrive } }
  else void s

/-- SRC_CFG_FORCE: a write that sets FORCE (R461, R474). -/
def execSrcCfgForce (source : Nat) (mask : Bool) (kind : Nat) (s : State) : Host.Outcome State Fault Refusal :=
  if decide (4096 ≤ source) || !s.domUp 2 then void s else .next (s.writeSrcCfg source true mask kind)

/-- FLT_VALID_CLEAR: a write of 1 to VALID. A message accepted in the same cycle wins: the record is kept and OVF is set
(Table 17-6). -/
def execFltValidClear (sources : List Nat) (s : State) : Host.Outcome State Fault Refusal :=
  if !s.domUp 2 then void s
  else match s.nextMsg sources with
    | none => .next s.clearFirst
    | some m => if s.masked m then .next (s.clearFirst.accept m) else .next (s.accept m)

/-- LEGACY_FAULT: a pair enters fault, with one message, or leaves it (R470). In the first 100 ms no message is raised
(R472); a pair with a wire fault does not read as fault (R471); a forced pair reads fault (R474). -/
def execLegacyFault (pair : Nat) (fault : Bool) (s : State) : Host.Outcome State Fault Refusal :=
  let st := bit (s.get Reg.fltLegacyState) pair
  if decide (4 ≤ pair) || !s.flag Reg.fltLegacyEn || st == fault then void s
  else if fault then
    if bit (s.get Reg.fltLegacyWire) pair then void s
    else
      let s1 := s.putBit Reg.fltLegacyState pair true
      .next (if s.sys.window then s1 else s1.raiseLegacy pair 0xE0)
  else if bit (s.get Reg.fltLegacyForced) pair then void s
  else .next (s.putBit Reg.fltLegacyState pair false)

/-- LEGACY_WIRE: 101 equal samples set WIRE, with one message, and take the pair out of fault; 3 unequal ones clear it
(R471, R472). A forced pair does not read its pins (R474). -/
def execLegacyWire (pair : Nat) (equal : Bool) (s : State) : Host.Outcome State Fault Refusal :=
  let w := bit (s.get Reg.fltLegacyWire) pair
  if decide (4 ≤ pair) || !s.flag Reg.fltLegacyEn || w == equal then void s
  else if equal then
    if bit (s.get Reg.fltLegacyForced) pair then void s
    else
      let s1 := (s.putBit Reg.fltLegacyWire pair true).putBit Reg.fltLegacyState pair false
      .next (if s.sys.window then s1 else s1.raiseLegacy pair 0xE1)
  else .next (s.putBit Reg.fltLegacyWire pair false)

/-- LEGACY_WINDOW_END: the pairs that read fault throughout are swapped; the messages deferred by the first 100 ms are
raised for the others, where the fault still stands (R472). -/
def execLegacyWindowEnd (reversed : List Nat) (s : State) : Host.Outcome State Fault Refusal :=
  if !s.sys.window then void s
  else
    let s1 := { s with sys := { s.sys with window := false } }
    .next ((List.range 4).foldl (fun t k =>
      if reversed.contains k then t.putBit Reg.fltLegacySwapped k true
      else if bit (t.get Reg.fltLegacyState) k then t.raiseLegacy k 0xE0
      else if bit (t.get Reg.fltLegacyWire) k then t.raiseLegacy k 0xE1 else t) s1)

/-- QUENCH_NOTICE: a job member has quenched (R467): FAB peer quench, and the job stops with cause 6. -/
def execQuenchNotice (src : Nat) (s : State) : Host.Outcome State Fault Refusal :=
  if !s.alive || !s.inJob || !(s.roster.any (fun m => m.addr == src)) then void s
  else
    let s1 := ((s.count Reg.fltPeerQuench).put Reg.fltPeerLast src).raise srcBellows 0x4B clsU (src % 2 ^ 14)
    .next (if s1.life = .running then s1.stopJob 6 s1.cad.angle else s1)

namespace State

/-- The collector accepts every waiting message of a source, in order. -/
def acceptAll (s : State) (src : Nat) : Nat → State
  | 0 => s
  | k + 1 => match s.headOf src with
    | some m => (s.accept m).acceptAll src k
    | none => s

end State

/-- ENTROPY_FAIL: the random source fails its health tests (Table 15-6): CRU entropy is raised and accepted, after what
Crucible has raised before, and the device enters Quench. -/
def execEntropyFail (s : State) : Host.Outcome State Fault Refusal :=
  if !s.alive || !s.smithUp then void s
  else
    let s1 := (s.count Reg.cruEntropyFail).acceptAll srcCrucible 16
    if s1.life = .quench then .next s1
    else .next ((s1.raise srcCrucible 0x73 clsF 0).acceptAll srcCrucible 16)

end Sys2Proof.Machine
end

