-- ==== Sys2Proof/Machine/Boot.lean ====
section
/-!
DEFINITION. Machine/Boot.lean: firmware images and tested sets (R396 to R399, R401), the boot chain, and the scrub (R421,
R422). -/

namespace Sys2Proof.Machine

/-! ## Images and sets -/

namespace State

/-- The fused minimum SVN of a kind (Table 15-7). -/
def svnMin (s : State) (kind : Nat) : Nat := bits (s.get Reg.cruSvnMin) (8 * (kind - 1)) 8

/-- A vendor key slot was revoked when the device booted (R392, R393). -/
def rsaRevoked (s : State) (slot : Nat) : Bool := bit (s.cru.revoked % 16) slot
/-- The same of SLH-DSA. -/
def slhRevoked (s : State) (slot : Nat) : Bool := bit (s.cru.revoked / 16) slot

/-- Crucible accepts an image (R396). -/
def imageOk (s : State) (x : FwImage) : Bool :=
  x.good && 1 ≤ x.kind && x.kind ≤ 4 && !s.rsaRevoked x.rsaSlot && !s.slhRevoked x.slhSlot && s.svnMin x.kind ≤ x.svn

/-- ACTIVE: 0 slot A, 1 slot B (R394). -/
def activeSlot (s : State) : Nat := s.get Reg.cruBootActive

/-- The image in a slot. -/
def imageAt (s : State) (slot kind : Nat) : Option FwImage := Assoc.find? s.cru.images (4 * slot + kind - 1)

/-- The accepted image of a kind in a slot. -/
def acceptedAt (s : State) (slot kind : Nat) : Option FwImage :=
  match s.imageAt slot kind with
  | some x => if s.imageOk x ∧ x.kind = kind then some x else none
  | none => none

end State

/-- A manifest lists a KIND and VERSION (Table 15-1). -/
def fwLists (x : FwImage) (kind version : Nat) : Bool := x.manifest.contains (kind, version)

/-- A set of one image of each kind is tested (R398). -/
def tested (l : List FwImage) : Bool :=
  l.length == 4 && l.all (fun x => fwLists x 0 Config.stepping && l.all (fun y => x.kind == y.kind || fwLists x y.kind y.version))

/-- The candidate masks in the order in which the ROM tries them (R399). -/
def bootMasks : List Nat := [0, 1, 2, 4, 8, 3, 5, 6, 9, 10, 12, 7, 11, 13, 14, 15]

namespace State

/-- The slot of a kind under a mask: the one that ACTIVE does not name where its bit is set (R399). -/
def maskSlot (s : State) (m kind : Nat) : Nat := if bit m (kind - 1) then 1 - s.activeSlot else s.activeSlot

/-- The accepted images of a candidate. -/
def candidate (s : State) (m : Nat) : List FwImage := [1, 2, 3, 4].filterMap (fun k => s.acceptedAt (s.maskSlot m k) k)

/-- The first mask whose set is accepted and tested (R399). -/
def bootMask (s : State) : Option Nat := bootMasks.find? (fun m => tested (s.candidate m))

/-- A token is valid here (R401). -/
def tokenOk (s : State) (t : Token) : Bool :=
  t.good && t.serial == Config.serial && !s.rsaRevoked t.rsaSlot && !s.slhRevoked t.slhSlot

/-- An image is one that a token's entries name. -/
def tokenNames (t : Token) (x : FwImage) : Bool := t.entries.contains (x.kind, x.version, x.payload)

/-- The mask of the set that the exception token names (R401): of each kind the image in the slot that ACTIVE names where it
matches, else the other. -/
def tokenMask (s : State) : Option Nat :=
  match s.cru.token with
  | none => none
  | some t => bootMasks.find? (fun m => s.tokenOk t && (s.candidate m).length == 4 && (s.candidate m).all (tokenNames t))

/-- The kind that a fallback message names: the one kind taken from the other slot, else zero (Table 17-2). -/
def fallbackKind (m : Nat) : Nat := if m = 1 then 1 else if m = 2 then 2 else if m = 4 then 3 else if m = 8 then 4 else 0

/-- Images present and refused count in SIG_FAIL (R396). -/
def countRefused (s : State) : State :=
  s.count Reg.cruSigFail ((s.cru.images.filter (fun (p : Nat × FwImage) => !s.imageOk p.2)).length)

/-- The minimum SVN of a kind rises with a RETIRE image of the tested set that boots (R397). -/
def retire (s : State) (x : FwImage) : State :=
  if x.retire ∧ s.svnMin x.kind < x.svn then
    s.put Reg.cruSvnMin (s.get Reg.cruSvnMin + (x.svn - s.svnMin x.kind) * 2 ^ (8 * (x.kind - 1)))
  else s

/-- A set is taken (R399, R403): fallback, measurements in kind order, VERSION and BOOT.MASK. -/
def takeSet (s : State) (m : Nat) (exception : Bool) : State :=
  let l := s.candidate m
  let s1 := if m = 0 then s else s.raise srcCrucible 0x6C clsC (fallbackKind m)
  let s2 := l.foldl (fun t x => (t.measure 2 x.kind (s.maskSlot m x.kind) x.version x.digest).put (Reg.cruVersion x.kind) x.version) s1
  let s3 := match exception, s.cru.token with
    | true, some t => (s2.measure 3 0 0 0 t.digest).put Reg.cruStatusException 1
    | _, _ => l.foldl retire s2
  ({ s3 with cru := { s3.cru with running := l, recovery := false } }).put Reg.cruBootMask m

/-- A scrub starts (R421): SCRUB_OK is 0 until every read-back has passed (R422). `why`: 0 a register write, 1 boot, 2
release, 3 a billet of another job. -/
def startScrub (s : State) (why : Nat) : State :=
  ({ s with cru := { s.cru with scrubFor := why } }.put Reg.cruScrubBusy 1).put Reg.cruStatusScrubOk 0

/-- The boot ROM finds the Quench marker and erases it (R487). -/
def takeMarker (s : State) : State :=
  if s.cru.quenchMark then
    let s1 := s.put Reg.rstCauseQuenchExit 1
    { s1 with cru := { s1.cru with quenchMark := false }
              jnl := { s1.jnl with resetCause := s1.jnl.resetCause.map (fun _ => s1.causeWord) } }
  else s

/-- CRU.FUSE as a word (Table 15-7). -/
def fuseWord (s : State) : Nat := s.get Reg.cruFuseRsaRevoked + 16 * s.get Reg.cruFuseSlhRevoked

/-- The boot chain of R399, at SMITH's first release after a power-on or system reset (R485): the set is chosen and
measured (R403), or the device is bound for Recovery (R400); then the scrub starts (R421). -/
def bootChain (s : State) : State :=
  let s0 := ({ s with sys := { s.sys with bootDue := false }
                      cru := { s.cru with meas := 0, log := [], revoked := s.fuseWord } }.put Reg.cruMeasCount 0).takeMarker
  let s1 := s0.countRefused.measure 1 0 0 0 Config.romDigest
  let s2 := match s1.bootMask, s1.tokenMask with
    | some m, _ => s1.takeSet m false
    | none, some m => s1.takeSet m true
    | none, none => { s1.raise srcCrucible 0x6D clsU 0 with cru := { s1.cru with running := [], recovery := true } }
  let s3 := match s2.cru.owner with
    | some o => s2.measure 5 0 0 0 o
    | none => s2
  s3.startScrub 1

/-! ## Scrub (R421, R422) -/

/-- Every byte of the memories and of the cores' storage is zero, and no granule is poisoned. A stopped job's Stock state is
not kept (R440). -/
def wipe (s : State) : State :=
  let s1 := { s with
    hearth0 := .empty, hearth1 := .empty, hbm := .empty, stock := .empty, hbmPoison := [], stockPoison := []
    cores := s.cores.map (fun (p : Nat × Core) => (p.1, p.2.scrubbed))
    tmp := { s.tmp with work := .empty, solver := .empty }
    cad := { s.cad with stopped := s.cad.stopped.map (fun p => (0, p.2)) }
    cru := { s.cru with lastJob := none } }
  ((List.range 8).foldl countPoison s1).put Reg.tmpStep 0

/-- The scrub writes zeros over a port's packet buffer: its packets are discarded there, and their credits go back to the
peer (R304; notes/assumptions/115). -/
def clearBuffer (s : State) (p : Nat) : State :=
  (s.port p).transit.foldl (fun t rp => t.returnCredits p rp.packet.vc rp.cls rp.packet.credits)
    (s.setPort p { s.port p with transit := [] })

/-- The packet buffers of the twelve ports. -/
def clearBuffers (s : State) : State := (List.range 12).foldl clearBuffer s

/-- The domains that the scrub needs. -/
def scrubUp (s : State) : Bool := [1, 2, 4, 5, 8, 9, 11, 12].all (fun d => s.domUp d)

/-- The state that the device reaches after its boot (R399, Table 18-6). -/
def bootLife (s : State) : Life := if s.cru.recovery then .recovery else if s.cru.owner.isSome then .claimed else .blank

/-- What the end of a scrub lets go on. -/
def afterScrub (s : State) (why : Nat) : State :=
  if why = 1 then { s with life := s.bootLife, sys := { s.sys with booted := true } }
  else if why = 2 then
    let s1 := { s with life := .blank }
    if s1.runningOp = some 0x0102 then s1.finishRunning rcOk [] else s1
  else s

end State

/-- SCRUB_START: a write of 1 to CRU.SCRUB.START outside Running (R421, R424). -/
def execScrubStart (s : State) : Host.Outcome State Fault Refusal :=
  if s.life = .running || !s.alive || !s.sys.booted || s.flag Reg.cruScrubBusy then void s else .next (s.startScrub 0)

/-- SCRUB_COMPLETE: the read-back ends with `bad` granules failing (R422). -/
def execScrubComplete (bad : Nat) (s : State) : Host.Outcome State Fault Refusal :=
  if !s.flag Reg.cruScrubBusy || !s.scrubUp || !s.alive then void s
  else
    let why := s.cru.scrubFor
    let s1 := ((s.wipe.clearBuffers.put Reg.cruScrubBusy 0).put Reg.cruStatusScrubOk (b2n (bad == 0))).count Reg.cruScrubErr bad
    let s2 := (List.range bad).foldl (fun t _ => t.raise srcCrucible 0x72 clsU 0) s1
    let s3 := { s2 with cru := { s2.cru with scrubBad := bad != 0 && (s2.cru.scrubBad || why == 3) } }
    .next (s3.afterScrub why)

end Sys2Proof.Machine
end

