-- ==== Sys2Proof/Machine/Plans.lean ====
section
/-!
DEFINITION. Machine/Plans.lean: the checks of R411 on a billet: its header (Table 15-3), and the rules by which each
chapter refuses a section. -/

namespace Sys2Proof.Machine

/-! ## Ranges of memory -/

/-- A range of a memory (0 and 1 Hearth of a die, 2 HBM4, 3 Stock). -/
structure Range where
  mem : Nat
  base : Nat
  len : Nat
  deriving DecidableEq, Repr

/-- Bytes of a memory (R532). -/
def memBytes (mem : Nat) : Nat := if mem < 2 then hearthBytes else if mem = 2 then hbmBytes else stockBytes

/-- The range lies in its memory (R532). -/
def Range.inside (r : Range) : Bool := decide (r.mem ≤ 3) && decide (r.base + r.len ≤ memBytes r.mem)

/-- Two ranges share no byte. -/
def Range.apart (a b : Range) : Bool :=
  a.mem != b.mem || a.len == 0 || b.len == 0 || decide (a.base + a.len ≤ b.base) || decide (b.base + b.len ≤ a.base)

/-- No two ranges of a list share a byte. -/
def allApart : List Range → Bool
  | [] => true
  | a :: r => r.all (fun b => Range.apart a b) && allApart r

/-- No range of one list shares a byte with one of another. -/
def apartFrom (l m : List Range) : Bool := l.all (fun a => m.all (fun b => Range.apart a b))

/-- Numbers without a repeat. -/
def distinct : List Nat → Bool
  | [] => true
  | a :: r => !r.contains a && distinct r

/-- Numbers that never fall. -/
def nonDecreasing : List Nat → Bool
  | a :: b :: r => decide (a ≤ b) && nonDecreasing (b :: r)
  | _ => true

/-- Numbers that rise strictly. -/
def ascending : List Nat → Bool
  | a :: b :: r => decide (a < b) && ascending (b :: r)
  | _ => true

/-- An FP32 code is finite and not negative. -/
def finNonneg (c : Nat) : Bool := decide (c < 0x7F800000) || c == 0x80000000

/-! ## The header (R409, R410) -/

/-- `n` little-endian bytes at offset `o`. -/
def fieldAt (l : List Byte) (o n : Nat) : Nat := leNat ((l.drop o).take n)

/-- A section entry (Table 15-3). -/
structure SecEntry where
  kind : Nat
  addr : Nat
  off : Nat
  len : Nat
  zero : Bool
  deriving DecidableEq, Repr

/-- Section entry `i` of a billet. -/
def secEntry (l : List Byte) (i : Nat) : SecEntry :=
  let o := 128 + 32 * i
  { kind := fieldAt l o 2, addr := fieldAt l (o + 2) 2, off := fieldAt l (o + 8) 8, len := fieldAt l (o + 16) 8
    zero := fieldAt l (o + 4) 4 == 0 && fieldAt l (o + 24) 8 == 0 }

/-- The section entries of a billet. -/
def secEntries (l : List Byte) : List SecEntry := (List.range (fieldAt l 32 4)).map (secEntry l)

/-- Two sections do not overlap. -/
def secApart (a b : SecEntry) : Bool := Range.apart ⟨3, a.off, a.len⟩ ⟨3, b.off, b.len⟩

/-- No two sections overlap. -/
def secsApart : List SecEntry → Bool
  | [] => true
  | a :: r => r.all (secApart a) && secsApart r

/-- LENGTH of a billet. -/
def billetLength (l : List Byte) : Nat := fieldAt l 24 8

/-- Check 1 of R411 on the bytes of a signed billet. -/
def billetHeaderOk (l : List Byte) : Bool :=
  let n := billetLength l
  fieldAt l 0 4 == 0x5A2B1CB1 && fieldAt l 4 1 == 1 && fieldAt l 5 3 == 0 && decide (n ≤ 2147483648) &&
  l.length == n + 384 + 7856 && decide (1 ≤ fieldAt l 32 4 ∧ fieldAt l 32 4 ≤ 4096) && decide (128 + 32 * fieldAt l 32 4 ≤ n) &&
  fieldAt l 36 4 == 0 && fieldAt l 88 40 == 0 &&
  (secEntries l).all (fun e => decide (1 ≤ e.kind ∧ e.kind ≤ 0xB) && decide (e.addr < 2 ^ 14 ∨ 2 ^ 15 ≤ e.addr) && e.zero &&
    e.off % 256 == 0 && decide (e.off + e.len ≤ n)) && secsApart (secEntries l)

/-- The kinds of the sections that a device uses (R410). -/
def ownKinds (l : List Byte) (addr : Nat) : List Nat :=
  ((secEntries l).filter (fun e => e.addr == addr || decide (2 ^ 15 ≤ e.addr))).map SecEntry.kind

/-! ## Section 0x02 (R41, R56) -/

/-- Kinds of Table 2-4 on which GATE may be set. -/
def gateable (k : Nat) : Bool := [1, 2, 3, 5, 6, 8, 9, 0xA, 0xB, 0xC, 0xF].contains k

/-- Entries of the descriptor table that TARGET indexes (Table 2-4). -/
def targetBound (b : Billet) (k : Nat) : Nat :=
  if k = 1 ∨ k = 2 then b.segDescs.length else if k = 3 ∨ k = 4 then b.bloom.length
  else if k = 5 ∨ k = 6 then b.buckets.length else if 7 ≤ k ∧ k ≤ 9 then b.stash.regions.length
  else if k = 0xB then b.temper.updRanges.length else if k = 0xC then b.temper.pushRanges.length else 1

/-- One entry of the Strike table (R56). -/
def strikeOk (b : Billet) (e : Strike) : Bool :=
  let c := b.cad.commits.headD 0
  decide (1 ≤ e.kind ∧ e.kind ≤ 0xF) && decide (e.stroke < 65536) && (!e.gate || gateable e.kind) &&
  (if 2 ≤ e.every then decide (e.phase < e.every) else e.phase == 0) && decide (e.target < targetBound b e.kind) &&
  (decide (9 < e.kind) || decide (e.stroke < c)) &&
  ((e.kind != 0xB && e.kind != 0xC) || decide (c < e.stroke)) && (!(decide (7 ≤ e.kind ∧ e.kind ≤ 9)) || decide (e.arg < 64)) &&
  (e.kind != 0xD || decide (e.arg ≤ 4))

/-- The CAD settings and the Strike table. -/
def cadOk (b : Billet) : Bool :=
  let x := b.cad
  let c := x.commits.headD 0
  decide (8000 ≤ x.period ∧ x.period ≤ 4000000) && decide (1 ≤ x.lead ∧ x.lead ≤ 255) &&
  decide (1 ≤ x.holdLimit ∧ x.holdLimit < 2 ^ 32) && decide (1 ≤ x.abortLimit ∧ x.abortLimit ≤ 255) &&
  decide (16000 ≤ x.lead * x.period) && !x.commits.isEmpty && x.commits.all (fun k => k == c) && decide (c < 65536) &&
  decide (x.strike.length ≤ 4096) && nonDecreasing (x.strike.map Strike.stroke) && x.strike.all (strikeOk b) &&
  (match x.strike.filter (fun e => e.kind == 0xA) with
    | [e] => e.gate && e.stroke == c
    | _ => false) &&
  (match x.strike.filter (fun e => e.kind == 0xF) with
    | [e] => e.gate && e.stroke == 0xFFFF
    | _ => false)

/-! ## Sections 0x01 and 0x03 -/

/-- Activation sites (R134): code, FP32 α, input form. -/
def siteOk (x : Nat × Nat × Bool) : Bool :=
  let (code, alpha, input) := x
  [0, 1, 2, 3, 4, 5, 6, 8, 9, 0xA].contains code && (input || decide (code < 8)) &&
  (input || !(code == 2 || code == 5) || decide (0 < alpha ∧ alpha ≤ 0x7F800000))

/-- Slag tables (R137). -/
def slagOk (p : Prog) : Bool := decide (p.slagCount ≤ 255) && p.slagUsed.all (fun j => decide (j ≤ p.slagCount))

/-- The Hearth ranges that the program headers and the gang table name: slag tables, Swage tables and program tables (R532). -/
def progRanges (b : Billet) : List Range :=
  b.progs.flatMap (fun p => (⟨dieOf p.core, p.slagAddr, 16 * p.slagCount⟩ : Range) ::
    p.segs.map (fun g => ⟨dieOf p.core, g.swageAddr, 48 * g.swage.length⟩)) ++
  b.gangs.map (fun g => ⟨g.die, g.progTable, 4 * (g.rows * g.cols)⟩)

/-- The gang table (R172, R174). -/
def gangsOk (b : Billet) : Bool :=
  b.gangs.all (fun g => decide (g.die ≤ 1 ∧ 1 ≤ g.rows ∧ 1 ≤ g.cols ∧ g.rows * g.cols ≤ 16 ∧ g.row0 + g.rows ≤ 8 ∧ g.col0 + g.cols ≤ 12)) &&
  distinct (b.gangs.flatMap gangCores) && distinct (b.gangs.map Gang.gang) && distinct (b.gangs.map Gang.stage)

/-- The program of a core. -/
def progOf (b : Billet) (n : Nat) : Option Prog := b.progs.find? (fun p => p.core == n)

/-- A segment descriptor (R175). -/
def segOk (b : Billet) (d : SegDesc) : Bool :=
  match b.gangs[d.gang]? with
  | some g => decide (d.pass ≤ 2 ∧ d.inCh.length ≤ 4) && (gangCores g).all (fun n => match progOf b n with
      | some p => decide (d.segment < p.segs.length)
      | none => false)
  | none => false

/-- The slots of a channel that this device consumes: those of another device's consumer are none here (R177).
DESIGN CHOICE (notes/assumptions/149): a section 0x03 is one device's, and its gang table names no device, so the gang of the end
that lies here is looked up in it, and that of the other end is not. -/
def channelRange (b : Billet) (own : Nat) (c : Channel) : List Range :=
  if c.consDev = own then
    match b.gangs.find? (fun g => g.gang == c.consGang) with
    | some g => [⟨if c.mem = 0 then g.die else 2, c.slotAddr, c.slots * c.slotBytes⟩]
    | none => []
  else []

/-- A channel's own fields, and its gangs on this device (R177). -/
def channelOk (b : Billet) (own : Nat) (c : Channel) : Bool :=
  decide (1 ≤ c.slots ∧ c.slots ≤ 64 ∧ 1 ≤ c.chunks ∧ c.chunks ≤ 64 ∧ c.chunks ≤ c.slots ∧ c.mem ≤ 1) &&
  c.slotBytes % 256 == 0 && decide (c.slotBytes ≤ 268435456) &&
  (c.prodDev != own || b.gangs.any (fun g => g.gang == c.prodGang)) &&
  (c.consDev != own || b.gangs.any (fun g => g.gang == c.consGang))

/-- The slots of every channel consumed here. -/
def channelRanges (b : Billet) (own : Nat) : List Range := b.channels.flatMap (channelRange b own)

/-- The stripe of rank `k` of `S` in a map of `h` rows: its first row and its rows (R183). -/
def stripeRows (h S k : Nat) : Nat × Nat := (k * (h / S) + min k (h % S), h / S + (if k < h % S then 1 else 0))

/-- A Swage set of rank `k` of a gang of `S` cores (Table 7-4, R182 to R188); `first`: it is its segment's first. -/
def setOk (S k : Nat) (first : Bool) (w : SwageSet) : Bool :=
  planarFmt w.fmt && decide (1 ≤ w.wIn ∧ w.wIn ≤ 4096 ∧ 1 ≤ w.ch ∧ w.ch ≤ 256 ∧ 1 ≤ w.kh ∧ w.kh ≤ 7 ∧ 1 ≤ w.dv ∧ w.dv ≤ 2) &&
  decide (1 ≤ w.sv ∧ w.sv ≤ 2 ∧ 2 ≤ w.depth ∧ w.depth ≤ 15 ∧ 1 ≤ w.haloSlots ∧ w.haloSlots ≤ 16 ∧ w.edgeUp ≤ 15 ∧ w.edgeDn ≤ 15) &&
  w.lbOffset % 256 == 0 && decide (w.haloMode ≤ 2) && decide ((w.kh - 1) * w.dv + 1 + w.sv ≤ w.depth) &&
  w.rowStride % 128 == 0 && w.outRow % 128 == 0 && decide (roundUp (w.wIn * quarterBytes w.fmt / 4) 128 ≤ w.rowStride) &&
  (w.row0, w.n) == stripeRows w.h S k &&
  decide (padTop w ≤ outRows w ∧ haloBottom w ≤ outRows w ∧ w.edgeUp + w.edgeDn ≤ outRows w) &&
  (w.sv == 1 || (w.row0 % 2 == 0 && w.n % 2 == 0)) && (w.haloMode != 2 || first) &&
  (w.haloMode != 0 || S == 1 || (padTop w == 0 && haloBottom w == 0)) && decide (padTop w ≤ w.haloSlots) &&
  decide (haloBottom w ≤ w.haloSlots)

/-- The Hearth ranges that a set names: its stripe's rows, its halo slots, and its output rows as far as the table gives their
extent (R532). -/
def setRanges (die : Nat) (w : SwageSet) : List Range :=
  [⟨die, w.srcAddr, if w.n = 0 then 0 else (w.ch - 1) * w.planeStride + (w.n - 1) * w.rowStride + w.wIn * quarterBytes w.fmt / 4⟩,
   ⟨die, w.haloAddr, if w.haloMode = 1 then 2 * w.haloSlots * slotBytes w else 0⟩,
   ⟨die, w.outAddr, if outRows w = 0 then 0 else (outRows w - 1) * w.outRow + 1⟩]

/-- Bytes of a set's line buffer (R185). -/
def setBytes (w : SwageSet) : Nat := roundUp (w.ch * w.depth * w.wIn * quarterBytes w.fmt / 4) 256

/-- The sets of a segment of the program of rank `k` of a gang of `S` cores. -/
def swageOk (S k die : Nat) (l : List SwageSet) : Bool :=
  decide (l.length ≤ 16) && decide ((l.map setBytes).foldl (· + ·) 0 ≤ 524288) &&
  (l.zipIdx).all (fun (w, i) => setOk S k (i == 0) w) && (l.flatMap (setRanges die)).all Range.inside

/-- The Swage tables of a gang's programs. -/
def gangSwageOk (b : Billet) (g : Gang) : Bool :=
  (List.range (g.rows * g.cols)).all (fun k => match progOf b (coreOfRank g k) with
    | some p => p.segs.all (fun x => swageOk (g.rows * g.cols) k g.die x.swage)
    | none => true)

/-- The edge rows of neighbouring stripes agree (R188): set `i` of one stripe sends what set `i + 1` of the other takes. -/
def edgesOk (up dn : List SwageSet) : Bool :=
  (List.range up.length).all (fun i =>
    (match up[i]?, dn[i + 1]? with
      | some a, some b => a.edgeDn == upRows b
      | _, _ => true) &&
    (match dn[i]?, up[i + 1]? with
      | some a, some b => a.edgeUp == dnRows b
      | _, _ => true))

/-- The edge rows of a gang, stripe by stripe, in every segment. -/
def gangEdgesOk (b : Billet) (g : Gang) : Bool :=
  (List.range (g.rows * g.cols - 1)).all (fun k => match progOf b (coreOfRank g k), progOf b (coreOfRank g (k + 1)) with
    | some p, some q => (List.range (min p.segs.length q.segs.length)).all (fun i => match p.segs[i]?, q.segs[i]? with
        | some x, some y => edgesOk x.swage y.swage
        | _, _ => true)
    | _, _ => true)

/-- Sections 0x01 and 0x03. -/
def stagesOk (b : Billet) (own : Nat) : Bool :=
  b.sites.all siteOk && b.progs.all slagOk && gangsOk b && b.segDescs.all (segOk b) && b.channels.all (channelOk b own) &&
  (channelRanges b own).all Range.inside && allApart (channelRanges b own) &&
  b.gangs.all (gangSwageOk b) && b.gangs.all (gangEdgesOk b) && (progRanges b).all Range.inside

/-! ## Section 0x05 (R226, R227) -/

/-- The die of a stash region: that of its gang. -/
def stashDie (b : Billet) (r : StashRegion) : Nat :=
  match gangBy b r.gang with
  | some g => g.die
  | none => 0

/-- The tiers of a region. -/
def tierRanges (b : Billet) (r : StashRegion) : List Range :=
  let slot := 2 ^ b.stash.slotLog2
  [⟨stashDie b r, r.hearthAddr, r.hearthSlots * slot⟩, ⟨2, r.hbmAddr, r.hbmSlots * slot⟩]

/-- The fetch buffers of a region. -/
def fetchRange (b : Billet) (r : StashRegion) : Range := ⟨stashDie b r, r.fetchAddr, r.fbuf * r.fbufBytes⟩

/-- The tensor list of a region. -/
def tlistRange (b : Billet) (r : StashRegion) : Range := ⟨stashDie b r, r.tlist, 16 * r.tensors.length⟩

/-- The tiers and the fetch buffers of a region. -/
def stashRanges (b : Billet) (r : StashRegion) : List Range := tierRanges b r ++ [fetchRange b r]

/-- Slots of the tier that a code of TIER_MAP names. -/
def tierCount (b : Billet) (r : StashRegion) (tier : Nat) : Nat :=
  if tier = 0 then r.hearthSlots else if tier = 1 then r.hbmSlots else if tier = 2 then b.stash.stockSlots else 0

/-- A tensor of a region (Table 9-2). -/
def tensorOk (r : StashRegion) (t : StashTensor) : Bool :=
  t.raw % 256 == 0 && decide (256 ≤ t.raw ∧ t.raw ≤ 1073741824) && Flux.modeOk t.mode t.srcFmt && t.offset % 256 == 0 &&
  decide (t.offset + t.raw ≤ r.fbufBytes)

/-- A stash region (Table 9-1). -/
def regionOk (b : Billet) (r : StashRegion) : Bool :=
  (gangBy b r.gang).isSome && decide (r.bwdDesc < b.segDescs.length) &&
  decide (1 ≤ r.tensors.length ∧ r.tensors.length ≤ 32 ∧ 1 ≤ r.fbuf ∧ r.fbuf ≤ 16) && r.fbufBytes % 256 == 0 &&
  r.tensors.all (tensorOk r) && r.tierMap.length == 64 && r.tierMap.all (fun t => decide (t ≤ 2 ∧ 1 ≤ tierCount b r t))

/-- Section 0x05: two tiers, two regions' fetch buffers, or any of them and a channel do not overlap (R227). A tier and a fetch
buffer may: no rule names that pair (R532). -/
def stashOk (b : Billet) (own : Nat) : Bool :=
  let l := b.stash.regions.flatMap (stashRanges b)
  decide (b.stash.regions.length ≤ 64) &&
  (b.stash.regions.isEmpty || decide (16 ≤ b.stash.slotLog2 ∧ b.stash.slotLog2 ≤ 24)) && b.stash.regions.all (regionOk b) &&
  l.all Range.inside && (b.stash.regions.map (tlistRange b)).all Range.inside &&
  allApart (b.stash.regions.flatMap (tierRanges b)) && allApart (b.stash.regions.map (fetchRange b)) &&
  apartFrom l (channelRanges b own)

/-! ## Section 0x06 (R208) -/

/-- Bytes of a page (Table 8-6). -/
def kvPageBytes (k : KvPlan) : Nat :=
  let dh := if k.wide then 128 else 64
  (if k.small then 64 * dh else 128 * dh) + 4 * dh

/-- The page array and the metadata array. -/
def kvRanges (b : Billet) : List Range :=
  if b.kv.present then [⟨2, b.kv.base, b.kv.pages * kvPageBytes b.kv⟩, ⟨2, b.kv.metaBase, 8 * b.kv.pages⟩] else []

/-- Section 0x06. -/
def kvOk (b : Billet) : Bool :=
  !b.kv.present || (decide (1 ≤ b.kv.pages ∧ b.kv.pages ≤ 2 ^ 24 ∧ b.kv.owner < 192) && (kvRanges b).all Range.inside && allApart (kvRanges b))

/-! ## Section 0x07 (R257, R260, R263, R270, R271, R273) -/

/-- A group's ranges in Stock: its arrays and its freeze vector. -/
def groupRanges (g : TmpGroup) (i : Nat) : List Range :=
  (groupSecs g i).map (fun a => ⟨3, a.addr, a.len⟩) ++ (if g.freeze = 0 then [] else [⟨3, g.freeze, ceilDiv g.count 8⟩])

/-- A group's fields (Table 10-1). -/
def groupOk (p : TemperPlan) (g : TmpGroup) : Bool :=
  [0, 1, 2, 3, 7].contains g.rule && decide (g.flags < 32 ∧ g.gfmt ≤ 1 ∧ g.lrCurve < p.curves.length ∧ g.wdCurve < p.curves.length) &&
  decide (1 ≤ g.count ∧ g.count ≤ 2 ^ 36 ∧ g.group < 65536) && (if hasV g then g.v != 0 else g.v == 0) &&
  (if g.rule = 3 then g.stats != 0 else g.stats == 0) && finNonneg g.eps && finNonneg g.damp &&
  finNonneg g.beta1 && finNonneg g.beta2 && (decide (g.beta1 < 0x3F800000) || g.beta1 == 0x80000000) &&
  (decide (g.beta2 < 0x3F800000) || g.beta2 == 0x80000000) &&
  (g.rule != 3 || (g.mrows * g.mcols == g.count && decide (g.blk ≤ 7 ∧ 1 ≤ g.niter ∧ g.niter ≤ 32 ∧ 1 ≤ g.period ∧ g.period ≤ 65535) &&
    decide (1 ≤ g.statEvery ∧ g.statEvery ≤ 65535))) &&
  (g.rule != 7 || decide (g.prog < p.programs.length))

/-- A curve (R263): its segment slots up to the one whose SPAN ends it. -/
def curveOk (c : List CurveSeg) : Bool :=
  decide (c.length ≤ 32) && (match c.head? with
    | some x => x.start == 0 && x.span != 0
    | none => false) &&
  ascending (c.map CurveSeg.start) && c.all (fun x => decide (x.span < 2 ^ 24 ∧ x.kind ≤ 3) && finNonneg x.v0 && finNonneg x.v1 &&
    (x.kind != 2 || (x.v0 % 2 ^ 31 != 0 && x.v1 % 2 ^ 31 != 0)))

/-- Operations that a Temper program may hold (R147, R195, R270): OP is word 1 [7:0]. -/
def programOk (p : List (List Word)) : Bool :=
  p.all (fun c => [0x10, 0x11, 0x12, 0x13, 0x20, 0x30, 0x31, 0x32, 0x38, 0x39].contains ((c.getD 1 0#32).toNat % 256))

/-- The entries of ranges of groups or pushes. -/
def rangesHold (l : List (Nat × Nat)) : List Nat := l.flatMap rangeEntries

/-- The destinations of a push: its rows, and its scales. -/
def pushDests (p : Push) : List Range :=
  let mem := if p.dest = 0 then 2 else p.die
  (List.range (pushRows p)).map (fun r => ⟨mem, p.dst + r * p.stride, pushRow (pushFmt p) p⟩) ++
  (if p.mx then [⟨mem, p.cs, pushRows p * (p.rowLen / 32)⟩] else [])

/-- The image of a push in Stock. -/
def pushImage (p : Push) : Range := ⟨3, p.img, pushRows p * p.stride + (if p.mx then pushRows p * (p.rowLen / 32) else 0)⟩

/-- A push descriptor (R273, Table 10-3). -/
def pushOk (p : TemperPlan) (x : Push) : Bool :=
  [0, 1, 2, 3, 4, 7, 8].contains x.wfmt && decide (x.dest ≤ 1 ∧ x.die ≤ 1 ∧ 1 ≤ x.rowLen) &&
  (match p.groups.find? (fun g => g.group == x.group) with
    | some g => decide (x.first + x.count ≤ g.count)
    | none => false) && x.count % x.rowLen == 0 &&
  (x.mx || decide (x.wfmt ≠ 2 ∧ x.wfmt ≠ 3 ∧ x.wfmt ≠ 4)) && (!x.mx || x.rowLen % 32 == 0)

/-- Section 0x07, but for what its freeze vectors hold. -/
def temperOk (p : TemperPlan) : Bool :=
  let n := p.groups.length
  decide (n ≤ 4096 ∧ p.curves.length ≤ 256) && ascending (p.groups.map TmpGroup.group) && p.groups.all (groupOk p) && p.curves.all curveOk &&
  distinct (rangesHold p.updRanges) && (rangesHold p.updRanges).all (fun i => decide (i < n)) &&
  (List.range n).all (fun i => (rangesHold p.updRanges).contains i) && p.programs.all programOk && p.pushes.all (pushOk p) &&
  (rangesHold p.pushRanges).all (fun i => decide (i < p.pushes.length)) && (p.pushes.flatMap pushDests).all Range.inside &&
  allApart (p.pushes.flatMap pushDests)

/-- A byte that the billet places in Stock. -/
def imageByte (b : Billet) (mem a : Nat) : Byte :=
  b.images.foldl (fun v x => if x.mem = mem ∧ x.addr ≤ a ∧ a < x.addr + x.data.length then x.data.getD (a - x.addr) 0#8 else v) 0#8

/-- Bit `j` of a group's freeze vector, as the billet gives it. -/
def freezeBit (b : Billet) (g : TmpGroup) (j : Nat) : Bool := g.freeze != 0 && bit (imageByte b 3 (g.freeze + j / 8)).toNat (j % 8)

/-- A BLOCK group's freeze vector is uniform within each block (R271). -/
def freezeOk (b : Billet) (g : TmpGroup) : Bool :=
  g.rule != 3 || g.freeze == 0 || (blocksOf g).all (fun x =>
    (List.range x.r).all (fun i => (List.range x.c).all (fun j => freezeBit b g (blkElem g x i j) == freezeBit b g (blkElem g x 0 0))))

/-! ## Section 0x04 (R256, R364, R532) -/

/-- Bytes of the ingot staging buffer's four areas (R364). -/
def stagingNeed (length : Nat) : Nat := roundUp length 256 + 4194304 + 36864 + 1048576

/-- The Stock ranges of R256. -/
def stockRanges (b : Billet) : List Range :=
  let p := b.temper
  (p.groups.zipIdx).flatMap (fun (g, i) => groupRanges g i) ++ p.pushes.map pushImage ++
  [⟨3, p.gtable, 128 * p.groups.length⟩, ⟨3, p.curveBase, 512 * p.curves.length⟩,
   ⟨3, p.updAddr, 4 * p.updRanges.length⟩, ⟨3, p.pushAddr, 64 * p.pushes.length⟩, ⟨3, p.pushRangeAddr, 4 * p.pushRanges.length⟩,
   ⟨3, b.stash.stockBase, b.stash.stockSlots * 2 ^ b.stash.slotLog2⟩, ⟨3, b.stagingBase, b.stagingLen⟩]

/-- Section 0x04: every region lies in its memory, and Stock's regions are apart and aligned. -/
def planOk (b : Billet) (length : Nat) : Bool :=
  let l := b.plan.map (fun x => (⟨x.mem, x.base, x.len⟩ : Range))
  let st := l.filter (fun r => r.mem == 3)
  l.all Range.inside && allApart st && st.all (fun r => r.base % 256 == 0) && (stockRanges b).all Range.inside && allApart (stockRanges b) &&
  (stockRanges b).all (fun r => r.len == 0 || r.base % 256 == 0) && decide (stagingNeed length ≤ b.stagingLen)

/-! ## Section 0x08 (R259, R312, R322, R324, R327) -/

/-- The roster (R312). -/
def rosterOk (b : Billet) : Bool :=
  decide (b.roster.length ≤ 16384) && distinct (b.roster.map Member.addr) && distinct (b.roster.map Member.digest) &&
  b.roster.all (fun m => decide (m.addr < 2 ^ 14 ∧ m.kind ≤ 1))

/-- Formats BF16 and FP32 by Table 4-4. -/
def sumFmt (c : Nat) : Bool := c == 7 || c == 9

/-- The segments of a bucket that this device owns, as ranges of Stock with the format delivered. -/
def ownedSegs (b : Billet) (own : Nat) (k : Bucket) : List (Range × Nat) :=
  (k.segs.filter (fun g => ((b.groups.getD k.group []).getD g.owner 0) == own && decide (g.owner < (b.groups.getD k.group []).length))).map
    (fun g => (⟨3, b.bucketWindow + g.dest, segElems k g * wireSize g.ofmt⟩, g.ofmt))

/-- A bucket (R327). -/
def bucketOk (b : Billet) (k : Bucket) : Bool :=
  decide (k.group < b.groups.length) && sumFmt k.ifmt && sumFmt k.wire && decide (4194304 ≤ k.bytes ∧ k.bytes ≤ 268435456 ∧ k.fill ≤ k.bytes) &&
  decide (1 ≤ k.segs.length ∧ k.segs.length ≤ 16384) && allApart (k.segs.map (fun g => ⟨2, g.offset, g.len⟩)) &&
  k.segs.all (fun g => decide (g.offset + g.len ≤ k.fill) && decide (g.owner < (b.groups.getD k.group []).length) && sumFmt g.ofmt) &&
  (Range.inside ⟨2, k.addr, k.bytes⟩) && (Range.inside ⟨2, k.stage, 2 * k.bytes⟩)

/-- Every parameter of the shard is delivered once in a step (R259). -/
def deliveryOk (b : Billet) (own : Nat) : Bool :=
  let l := b.buckets.flatMap (ownedSegs b own)
  let inG := fun (g : TmpGroup) (x : Range × Nat) => decide (g.g ≤ x.1.base ∧ x.1.base + x.1.len ≤ g.g + gBytes g * g.count) && wireSize x.2 == gBytes g
  allApart (l.map (fun x => x.1)) && l.all (fun x => b.temper.groups.any (fun g => inG g x)) &&
  b.temper.groups.all (fun g => ((l.filter (inG g)).map (fun x => x.1.len)).foldl (· + ·) 0 == gBytes g * g.count)

/-- The stream IDs that the billet gives holders on this device (R322, R335). -/
def ownStreams (b : Billet) (own : Nat) : List Nat :=
  (b.streams.filter (fun x => x.dev == own)).map StreamUse.id ++ b.bloom.map BloomStream.stream

/-- Section 0x08. -/
def fabricOk (b : Billet) (own : Nat) : Bool :=
  b.groups.all (fun g => decide (1 ≤ g.length ∧ g.length ≤ 16384)) && b.buckets.all (bucketOk b) && deliveryOk b own &&
  distinct (ownStreams b own) && (ownStreams b own).all (fun i => decide (i < 2 ^ 20)) &&
  decide (1 ≤ b.fab.w2 ∧ b.fab.w2 ≤ 15 ∧ 1 ≤ b.fab.w3 ∧ b.fab.w3 ≤ 15 ∧ 1 ≤ b.fab.tokens ∧ b.fab.tokens ≤ 16)

/-! ## Section 0x09 (R335, R351) -/

/-- The buffers, spares and ring of a stream. -/
def bloomRanges (d : BloomStream) : List Range :=
  [⟨if d.mem = 0 then d.die else 2, d.bufAddr, d.nbuf * d.b * sampleBytes d⟩, ⟨2, d.resAddr, d.reserve * sampleBytes d⟩, ⟨2, d.ringAddr, d.window⟩]

/-- A stream's fields (Table 13-1). -/
def bloomFields (b : Billet) (d : BloomStream) : Bool :=
  decide (d.stream < 2 ^ 20 ∧ d.kind ≤ 3 ∧ d.die ≤ 1 ∧ d.mem ≤ 1 ∧ d.iface < 8 ∧ d.ofmt ≤ 2 ∧ d.colour ≤ 3) && (!d.ethernet || d.die == 1) &&
  decide (d.feeder < b.feeders.length ∧ d.consDesc < b.segDescs.length) &&
  decide (1 ≤ d.outW ∧ d.outW ≤ 8192 ∧ 1 ≤ d.outH ∧ d.outH ≤ 8192 ∧ 1 ≤ d.outF ∧ d.outF ≤ 1024) && (d.kind != 3 || d.outF == 1) &&
  decide (1 ≤ d.b ∧ d.b ≤ 64 ∧ 1 ≤ d.mbs ∧ d.mbs ≤ 64 ∧ d.reserve ≤ 64 ∧ 1 ≤ d.nbuf ∧ d.nbuf ≤ 16) &&
  d.scale.all (fun v => decide (v % 2 ^ 31 < 0x7F800000)) && decide (256 ≤ d.maxCoded ∧ d.maxCoded ≤ 2 ^ 31 ∧ 1 ≤ d.maxRatio ∧ d.maxRatio ≤ 65535) &&
  decide (2 * d.maxCoded ≤ d.window)

/-- The Strike entries of a stream: one gated INTAKE_OPEN per microbatch, one INTAKE_CLOSE after them, and the deadlines'
limits (R335, R351). -/
def intakesOk (b : Billet) (i : Nat) (d : BloomStream) : Bool :=
  let l := b.cad.strike.filter (fun e => e.target == i)
  let opens := l.filter (fun e => e.kind == 3)
  match l.filter (fun e => e.kind == 4) with
  | [c] =>
    (List.range d.mbs).all (fun j => (opens.filter (fun e => e.arg == j)).length == 1) && opens.length == d.mbs && opens.all (fun e => e.gate) &&
    ((b.cad.strike.reverse.dropWhile (fun e => e != c)).filter (fun e => e.kind == 3 && e.target == i)).length == d.mbs &&
    decide (b.cad.lead < d.lead) && opens.all (fun e => decide (c.stroke + d.lead < e.stroke + 65536))
  | _ => false

/-- Section 0x09. -/
def bloomOk (b : Billet) (own : Nat) : Bool :=
  let l := b.bloom.flatMap bloomRanges
  let others := channelRanges b own ++ b.stash.regions.flatMap (stashRanges b) ++ kvRanges b ++
    b.buckets.flatMap (fun k => [(⟨2, k.addr, k.bytes⟩ : Range), ⟨2, k.stage, 2 * k.bytes⟩]) ++ b.temper.pushes.flatMap pushDests
  decide (b.bloom.length ≤ 64) && b.bloom.all (bloomFields b) && l.all Range.inside && allApart l && apartFrom l others &&
  (b.bloom.zipIdx).all (fun (d, i) => intakesOk b i d)

/-! ## The whole check -/

/-- The own address that the roster gives (R312). -/
def ownMember (b : Billet) : Option Member := b.roster.find? (fun m => m.digest == Config.serialDigest)

/-- Check 5 of R411, with the signed billet's bytes. -/
def sectionsOk (b : Billet) (own : Nat) (l : List Byte) : Bool :=
  let kinds := ownKinds l own
  distinct kinds && kinds.contains 2 && rosterOk b && cadOk b && stagesOk b own && stashOk b own && kvOk b && temperOk b.temper &&
  b.temper.groups.all (freezeOk b) && planOk b (billetLength l) && fabricOk b own && bloomOk b own && decide (b.fwAllow.length ≤ 64) &&
  b.images.all (fun x => Range.inside ⟨x.mem, x.addr, x.data.length⟩)

end Sys2Proof.Machine
end

