-- ==== Sys2Proof/Machine/Layouts.lean ====
section
/-!
DEFINITION. Machine/Layouts.lean: the byte layouts of a billet's tables (Tables 2-3, 7-1 to 7-4, 9-1, 9-2, 10-1, 10-3, 12-5, 12-6
and 13-1, and R260, R263, R273 and R312): each entry read from its bytes, and refused where bytes that its table calls zero are
not. Bits of a field's bytes that its table does not list are not read (DEDUCED, notes/assumptions/119). -/

namespace Sys2Proof.Machine

/-! ## Reading entries -/

/-- The entries of `n` bytes of a table. -/
def entriesOf (n : Nat) (l : List Byte) : List (List Byte) := (List.range (l.length / n)).map (fun i => (l.drop (n * i)).take n)

/-- Every value of a list, or none where one is missing. -/
def allSome {α : Type} : List (Option α) → Option (List α)
  | [] => some []
  | none :: _ => none
  | some a :: r => (allSome r).map (fun m => a :: m)

/-- A table of entries of `n` bytes. -/
def tableOf {α : Type} (n : Nat) (read : List Byte → Option α) (l : List Byte) : Option (List α) :=
  if l.length % n = 0 then allSome ((entriesOf n l).map read) else none

/-- The low `w` bits of the `n` bytes at `o`. -/
def bitsAt (e : List Byte) (o n w : Nat) : Nat := fieldAt e o n % 2 ^ w

/-- Bit `i` of byte `o`. -/
def flagAt (e : List Byte) (o i : Nat) : Bool := bit (fieldAt e o 1) i

/-- The bytes of these places (offset, number) are zero. -/
def zerosAt (e : List Byte) (l : List (Nat × Nat)) : Bool := l.all (fun x => fieldAt e x.1 x.2 == 0)

/-! ## Section 0x02 -/

/-- A Strike-table entry (Table 2-3): whether it is VALID, and its fields. -/
def strikeEntry (e : List Byte) : Bool × Strike :=
  (flagAt e 3 1,
   { stroke := fieldAt e 0 2, kind := fieldAt e 2 1, gate := flagAt e 3 0, target := bitsAt e 3 2 16 / 16
     every := fieldAt e 5 1, phase := fieldAt e 6 1, arg := fieldAt e 7 1 })

/-- The Strike table: its valid entries have no gap before them (R56). -/
def strikeTable (l : List Byte) : Option (List Strike) :=
  let es := (entriesOf 8 l).map strikeEntry
  let valid := es.takeWhile Prod.fst
  if l.length % 8 = 0 ∧ (es.drop valid.length).all (fun x => !x.1) then some (valid.map Prod.snd) else none

/-! ## Section 0x03 -/

/-- A gang (Table 7-1). -/
def gangEntry (e : List Byte) : Option Gang :=
  if zerosAt e [(9, 3)] then
    some { gang := fieldAt e 0 2, stage := fieldAt e 2 2, die := bitsAt e 4 1 1, row0 := bitsAt e 5 1 3, col0 := bitsAt e 6 1 4
           rows := bitsAt e 7 1 4, cols := bitsAt e 8 1 4, progTable := bitsAt e 12 4 30 }
  else none

/-- A segment descriptor (Table 7-2): the channel entries beyond IN_COUNT are zero. -/
def segDescEntry (e : List Byte) : Option SegDesc :=
  let n := bitsAt e 3 1 3
  let ch := (List.range 4).map (fun i => fieldAt e (8 + 2 * i) 2)
  if n ≤ 4 ∧ (ch.drop n).all (fun c => c == 0) then
    some { gang := fieldAt e 0 2, pass := bitsAt e 2 1 2, segment := bitsAt e 4 4 16, inCh := ch.take n }
  else none

/-- A hand-over channel (Table 7-3). -/
def channelEntry (e : List Byte) : Option Channel :=
  if zerosAt e [(11, 1), (21, 11)] then
    some { prodDev := bitsAt e 0 2 14, prodGang := fieldAt e 2 2, consDev := bitsAt e 4 2 14, consGang := fieldAt e 6 2
           slots := bitsAt e 8 1 7, chunks := bitsAt e 9 1 7, mem := bitsAt e 10 1 1, slotBytes := fieldAt e 12 4
           slotAddr := fieldAt e 16 5 }
  else none

/-- A Swage set (Table 7-4). -/
def swageEntry (e : List Byte) : Option SwageSet :=
  if zerosAt e [(30, 2)] then
    some { srcAddr := bitsAt e 0 4 30, planeStride := bitsAt e 4 4 30, rowStride := fieldAt e 8 3, fmt := bitsAt e 11 1 4
           wIn := bitsAt e 12 2 13, ch := fieldAt e 14 1 + 1, kh := bitsAt e 15 1 3 + 1, dv := 1 + b2n (flagAt e 15 3)
           sv := 1 + b2n (flagAt e 15 4), depth := bitsAt e 16 1 4, seq := fieldAt e 17 1, h := fieldAt e 18 2
           row0 := fieldAt e 20 2, n := fieldAt e 22 2, lbOffset := bitsAt e 24 3 19, haloMode := bitsAt e 27 1 2
           haloSlots := bitsAt e 28 1 5, edgeUp := bitsAt e 29 1 4, edgeDn := fieldAt e 29 1 / 16, haloAddr := bitsAt e 32 4 30
           outAddr := bitsAt e 36 4 30, outPlane := bitsAt e 40 4 30, outRow := bitsAt e 44 4 24 }
  else none

/-! ## Section 0x05 -/

/-- A stash tensor (Table 9-2). -/
def tensorEntry (e : List Byte) : Option StashTensor :=
  if zerosAt e [(6, 2), (12, 4)] then
    some { raw := bitsAt e 0 4 31, mode := bitsAt e 4 1 4, srcFmt := bitsAt e 5 1 4, offset := bitsAt e 8 4 30 }
  else none

/-- A stash region (Table 9-1) with its tensor list, which has TENSORS entries. -/
def regionEntry (e tensors : List Byte) : Option StashRegion :=
  if zerosAt e [(6, 2), (33, 3), (56, 8)] then
    (tableOf 16 tensorEntry tensors).bind (fun ts =>
      if ts.length = bitsAt e 4 1 6 then
        some { gang := fieldAt e 0 2, bwdDesc := fieldAt e 2 2, fbuf := bitsAt e 5 1 5, tlist := bitsAt e 8 4 30
               fetchAddr := bitsAt e 12 4 30, fbufBytes := bitsAt e 16 4 30, hearthAddr := bitsAt e 20 4 30
               hearthSlots := bitsAt e 24 4 24, hbmAddr := fieldAt e 28 5, hbmSlots := bitsAt e 36 4 24
               tierMap := (List.range 64).map (fun j => fieldAt e (40 + j / 4) 1 / 4 ^ (j % 4) % 4), tensors := ts }
      else none)
  else none

/-- The region table. -/
def regionTable (l : List Byte) (tensors : List (List Byte)) : Option (List StashRegion) :=
  if l.length % 64 = 0 then allSome (((entriesOf 64 l).zipIdx).map (fun x => regionEntry x.1 (tensors.getD x.2 []))) else none

/-! ## Section 0x07 -/

/-- A parameter group (Table 10-1). -/
def groupEntry (e : List Byte) : Option TmpGroup :=
  if zerosAt e [(7, 1), (13, 3), (21, 3), (29, 3), (37, 3), (45, 3), (53, 3), (61, 3), (96, 32)] then
    some { group := fieldAt e 0 2, rule := bitsAt e 2 1 4, flags := bitsAt e 3 1 5, gfmt := bitsAt e 4 1 1, lrCurve := fieldAt e 5 1
           wdCurve := fieldAt e 6 1, count := fieldAt e 8 5, w := fieldAt e 16 5, m := fieldAt e 24 5, v := fieldAt e 32 5
           g := fieldAt e 40 5, freeze := fieldAt e 48 5, stats := fieldAt e 56 5, beta1 := fieldAt e 64 4, beta2 := fieldAt e 68 4
           eps := fieldAt e 72 4, damp := fieldAt e 76 4, mrows := fieldAt e 80 4, mcols := fieldAt e 84 4, blk := bitsAt e 88 1 3
           niter := bitsAt e 89 1 6, period := fieldAt e 90 2, statEvery := fieldAt e 92 2, prog := fieldAt e 94 2 }
  else none

/-- A range (R260, R273): its first entry and its number of entries. -/
def rangeEntry (e : List Byte) : Option (Nat × Nat) := some (fieldAt e 0 2, fieldAt e 2 2)

/-- A segment of a curve (R263). -/
def curveSegEntry (e : List Byte) : CurveSeg :=
  { start := fieldAt e 0 4, span := fieldAt e 4 3, kind := fieldAt e 7 1, v0 := fieldAt e 8 4, v1 := fieldAt e 12 4 }

/-- A curve (R263): its segments up to a SPAN of 0. -/
def curveEntry (e : List Byte) : Option (List CurveSeg) :=
  some (((entriesOf 16 e).map curveSegEntry).takeWhile (fun x => x.span != 0))

/-- A push descriptor (Table 10-3): a Hearth destination has 30 bits. -/
def pushEntry (e : List Byte) : Option Push :=
  let dest := b2n (flagAt e 2 5)
  if zerosAt e [(3, 1), (13, 3), (21, 3), (29, 3), (35, 1), (41, 7), (53, 11)] then
    some { group := fieldAt e 0 2, wfmt := bitsAt e 2 1 4, mx := flagAt e 2 4, dest := dest, die := b2n (flagAt e 2 6)
           rowLen := fieldAt e 4 3, first := fieldAt e 8 5, count := fieldAt e 16 5
           dst := if dest = 1 then bitsAt e 24 5 30 else fieldAt e 24 5, stride := fieldAt e 32 3, cs := fieldAt e 36 5
           img := fieldAt e 48 5 }
  else none

/-! ## Section 0x08 -/

/-- A bucket segment (Table 12-6). -/
def bucketSegEntry (e : List Byte) : Option BucketSeg :=
  if zerosAt e [(3, 1)] then
    some { owner := fieldAt e 0 2, ofmt := bitsAt e 2 1 4, offset := bitsAt e 4 4 29, len := bitsAt e 8 4 29, dest := fieldAt e 12 4 }
  else none

/-- A bucket (Table 12-5) with its segments, which lie in the segment table from FIRST_SEG on. -/
def bucketEntry (segs : List BucketSeg) (e : List Byte) : Option Bucket :=
  let n := fieldAt e 28 2
  let first := fieldAt e 32 4
  if zerosAt e [(17, 3), (25, 3), (30, 2), (36, 12)] && decide (first + n ≤ segs.length) then
    some { group := fieldAt e 0 2, ifmt := bitsAt e 2 1 4, wire := fieldAt e 2 1 / 16, auto := flagAt e 3 0
           bytes := bitsAt e 4 4 29, fill := bitsAt e 8 4 29, addr := fieldAt e 12 5, stage := fieldAt e 20 5
           segs := (segs.drop first).take n }
  else none

/-- A roster entry (R312). -/
def rosterEntry (e : List Byte) : Option Member :=
  if zerosAt e [(3, 5), (16, 16)] then some { addr := bitsAt e 0 2 14, kind := fieldAt e 2 1, digest := fieldAt e 8 8 } else none

/-! ## Section 0x09 -/

/-- A Bloom stream (Table 13-1). OUT_W and OUT_H of 8,192 and OUT_F of 1,024 have no code in the bits that the table gives them,
so they are never read (DEDUCED, notes/assumptions/119). -/
def bloomEntry (e : List Byte) : Option BloomStream :=
  if zerosAt e [(61, 3), (69, 3), (77, 19)] then
    some { stream := bitsAt e 0 3 20, kind := bitsAt e 3 1 2, ethernet := flagAt e 3 2, die := b2n (flagAt e 3 3)
           mem := b2n (flagAt e 3 4), feeder := fieldAt e 4 2, iface := bitsAt e 6 1 3, ofmt := bitsAt e 7 1 2, ch3 := flagAt e 7 2
           colour := fieldAt e 7 1 / 8 % 8, full := flagAt e 7 6, outW := bitsAt e 8 2 13
           outH := bitsAt e 10 2 13, outF := bitsAt e 12 2 10, b := bitsAt e 14 1 7, mbs := bitsAt e 15 1 7
           mean := (List.range 3).map (fun i => fieldAt e (16 + 4 * i) 4), scale := (List.range 3).map (fun i => fieldAt e (28 + 4 * i) 4)
           maxCoded := fieldAt e 40 4, maxRatio := fieldAt e 44 2, lead := fieldAt e 46 2, reserve := bitsAt e 48 1 7
           nbuf := bitsAt e 49 1 5, consDesc := fieldAt e 50 2, window := fieldAt e 52 4, bufAddr := fieldAt e 56 5
           resAddr := fieldAt e 64 5, ringAddr := fieldAt e 72 5 }
  else none

/-! ## The whole billet -/

/-- The Swage tables of the billet's core programs, each read from the bytes given for its core and segment. -/
def fillProgs (l : List (Nat × Nat × List Byte)) (ps : List Prog) : Option (List Prog) :=
  allSome (ps.map (fun p =>
    (allSome ((p.segs.zipIdx).map (fun x =>
      let bytes := match l.find? (fun y => y.1 == p.core && y.2.1 == x.2) with
        | some y => y.2.2
        | none => []
      (tableOf 48 swageEntry bytes).map (fun w => { x.1 with swage := w })))).map (fun segs => { p with segs := segs })))

/-- The bytes that the tables put into the memories: in Stock those of R256, in Hearth the tensor lists of R226 and the Swage
tables of R186. -/
def tableImages (b : Billet) (t : BilletTables) : List PlanImage :=
  let p := b.temper
  [⟨3, p.gtable, t.groups⟩, ⟨3, p.curveBase, t.curves⟩, ⟨3, p.updAddr, t.updRanges⟩, ⟨3, p.pushAddr, t.pushes⟩,
   ⟨3, p.pushRangeAddr, t.pushRanges⟩] ++
  (b.stash.regions.zipIdx).map (fun x => ⟨stashDie b x.1, x.1.tlist, t.tensors.getD x.2 []⟩) ++
  t.swage.filterMap (fun y => ((progOf b y.1).bind (fun p => p.segs[y.2.1]?)).map (fun g => ⟨dieOf y.1, g.swageAddr, y.2.2⟩))

/-- The billet with every table read from its bytes; none where a table breaks its layout. What a table gives, the body does
not. -/
def readTables (b : Billet) (t : BilletTables) : Option Billet := do
  let strike ← strikeTable t.strike
  let gangs ← tableOf 16 gangEntry t.gangs
  let descs ← tableOf 16 segDescEntry t.segDescs
  let channels ← tableOf 32 channelEntry t.channels
  let regions ← regionTable t.regions t.tensors
  let groups ← tableOf 128 groupEntry t.groups
  let upd ← tableOf 4 rangeEntry t.updRanges
  let curves ← tableOf 512 curveEntry t.curves
  let pushes ← tableOf 64 pushEntry t.pushes
  let pushRanges ← tableOf 4 rangeEntry t.pushRanges
  let segs ← tableOf 16 bucketSegEntry t.bucketSegs
  let buckets ← tableOf 48 (bucketEntry segs) t.buckets
  let bloom ← tableOf 96 bloomEntry t.bloom
  let roster ← tableOf 32 rosterEntry t.roster
  let progs ← fillProgs t.swage b.progs
  let r := { b with
    cad := { b.cad with strike := strike }, gangs := gangs, segDescs := descs, channels := channels, progs := progs
    stash := { b.stash with regions := regions }, buckets := buckets, roster := roster, bloom := bloom
    temper := { b.temper with groups := groups, updRanges := upd, curves := curves, pushes := pushes, pushRanges := pushRanges } }
  return { r with images := r.images ++ tableImages r t }

end Sys2Proof.Machine
end

