-- ==== Sys2Proof/Machine/Objects.lean ====
section
/-!
DEFINITION. Machine/Objects.lean: the signed objects that a mailbox argument carries, read from its bytes: firmware images
(Table 15-1), exception tokens (R401), the keys of a claim (R407), roster amendments (R412), and revocations, unlock tokens and
objects to import (R445). Whether their signatures verify is an operand of the command (notes/assumptions/4). -/

namespace Sys2Proof.Machine

/-- The signing slots of byte `o` (Table 15-1): RSA in [1:0], SLH-DSA in [3:2]. -/
def slotsAt (l : List Byte) (o : Nat) : Nat × Nat := (bitsAt l o 1 2, bitsAt l o 1 4 / 4)

/-! ## Firmware images (Table 15-1) -/

/-- A manifest entry: KIND, and VERSION or the stepping code. -/
def manifestEntry (l : List Byte) (i : Nat) : Nat × Nat := (fieldAt l (1024 + 16 * i) 1, fieldAt l (1028 + 16 * i) 4)

/-- The fields of Table 15-1 are in range, its zero fields are zero, and the image has the length that PAYLOAD_LEN gives (R395,
R396). -/
def imageForm (l : List Byte) : Bool :=
  let n := fieldAt l 16 8
  let m := fieldAt l 72 2
  fieldAt l 0 4 == 0x5A2B1C0D && fieldAt l 4 1 == 1 && decide (1 ≤ fieldAt l 5 1 ∧ fieldAt l 5 1 ≤ 4) && decide (fieldAt l 6 1 < 16) &&
  decide (fieldAt l 7 1 < 2) && decide (fieldAt l 12 1 ≤ 64) && decide (1 ≤ n ∧ n ≤ 16760832) && decide (1 ≤ m ∧ m ≤ 192) &&
  zerosAt l [(13, 3), (74, 6), (496, 528)] &&
  (List.range m).all (fun i => zerosAt l [(1025 + 16 * i, 3), (1032 + 16 * i, 8)]) && l.length == 4096 + n + 384 + 7856

/-- What Crucible holds of an image; `verified`: both keys' digests are those of the fused slots, both signatures verify, and the
payload hashes to PAYLOAD_DIGEST (R396). -/
def imageOf (l : List Byte) (verified : Bool) : FwImage :=
  { kind := fieldAt l 5 1, version := fieldAt l 8 4, svn := fieldAt l 12 1, retire := flagAt l 7 0, rsaSlot := (slotsAt l 6).1
    slhSlot := (slotsAt l 6).2, payload := fieldAt l 24 48, digest := Config.sha384 l
    manifest := (List.range (min 192 (fieldAt l 72 2))).map (manifestEntry l), good := verified && imageForm l }

/-! ## Tokens (R401, R445) -/

/-- An exception token. -/
def tokenOf (l : List Byte) (verified : Bool) : Token :=
  { rsaSlot := (slotsAt l 6).1, slhSlot := (slotsAt l 6).2, serial := fieldAt l 16 16
    entries := (List.range 4).map (fun i => (fieldAt l (32 + 56 * i) 1, fieldAt l (36 + 56 * i) 4, fieldAt l (40 + 56 * i) 48))
    digest := Config.sha384 (l.take 256), good := verified && fieldAt l 0 4 == 0x5A2B1CE0 && fieldAt l 4 1 == 1 }

/-- A revocation: the vendor signs it. -/
def revocationOf (l : List Byte) (verified : Bool) : VendorObj :=
  { good := verified && fieldAt l 0 4 == 0x5A2B1CDE && fieldAt l 4 1 == 1, signer := 0, rsaSlot := (slotsAt l 6).1
    slhSlot := (slotsAt l 6).2, serial := fieldAt l 16 16, alg := fieldAt l 7 1, slot := fieldAt l 8 1
    digest := Config.sha384 (l.take 64) }

/-- An unlock token. -/
def unlockOf (l : List Byte) (verified : Bool) : VendorObj :=
  { good := verified && fieldAt l 0 4 == 0x5A2B1CDB && fieldAt l 4 1 == 1, signer := fieldAt l 5 1, rsaSlot := (slotsAt l 6).1
    slhSlot := (slotsAt l 6).2, serial := fieldAt l 16 16, alg := 0, slot := 0, digest := Config.sha384 (l.take 64) }

/-- An import object; `opened` is the seed that its ciphertext and its seal give, if they open. -/
def importOf (l : List Byte) (verified : Bool) (opened : Option Nat) : ImportObj :=
  { good := verified && fieldAt l 0 4 == 0x5A2B1C1E && fieldAt l 4 1 == 1, jobId := fieldAt l 8 16, hello := fieldAt l 24 32
    seed := opened }

/-! ## Owners and amendments -/

/-- OWNER_DIGEST of an RSA modulus of 384 bytes, big-endian, and an SLH-DSA public key of 32 bytes (R392, R407). -/
def ownerDigest (modulus key : List Byte) : Nat :=
  Config.sha384 (leBytes 48 (Config.sha384 (modulus ++ [0#8, 1#8, 0#8, 1#8])) ++ leBytes 48 (Config.sha384 key))

/-- The owner that a claim enrols: its keys lie in the order in which R407 names them. -/
def claimOwner (l : List Byte) : Nat := ownerDigest (l.take 384) ((l.drop 384).take 32)

/-- A roster amendment from its body of 128 bytes (R412). -/
def amendmentOf (l : List Byte) (verified : Bool) : Amendment :=
  { good := verified && fieldAt l 0 4 == 0x5A2B1CA3 && fieldAt l 4 1 == 1 && zerosAt l [(5, 3), (78, 2), (96, 32)]
    jobId := fieldAt l 8 16, billet := fieldAt l 24 48, seq := fieldAt l 72 4, addr := fieldAt l 76 2, oldDigest := fieldAt l 80 8
    newDigest := fieldAt l 88 8, digest := Config.sha384 (l.take 128) }

/-- The amendments of a `LOAD_BILLET` argument (Table 16-5), 8,368 bytes each after the signed billet; `verified` tells of each
whether both owner signatures verify. -/
def amendmentsOf (l : List Byte) (verified : List Bool) : List Amendment :=
  (List.range (fieldAt l 4 2)).map (fun i => amendmentOf ((l.drop (8 + fieldAt l 0 4 + 8368 * i)).take 128) (verified.getD i false))

end Sys2Proof.Machine
end

