-- ==== Sys2Proof/Machine/Billets.lean ====
section
/-!
DEFINITION. Machine/Billets.lean: `LOAD_BILLET` (R411, R441): the erasure and the scrub that another job calls for, the check,
and what Smith writes when a billet is accepted. -/

namespace Sys2Proof.Machine

namespace State

/-! ## Another job (R411, R441) -/

/-- The previous JOB_ID (R411): of the last billet accepted since the last scrub, else of the wrapped seed. -/
def prevJob (s : State) : Option Nat := s.cru.lastJob.or (s.cru.wrapped.map (fun w => w.1))

/-- A billet of this JOB_ID is of another job than the previous one. -/
def jobDiffers (s : State) (job : Nat) : Bool :=
  match s.prevJob with
  | some p => p != job
  | none => false

/-- The seed is erased, wrapped and volatile (R411, R416). -/
def dropSeed (s : State) : State :=
  { s with seed := none, cru := { s.cru with wrapped := none, escrow := none } }.put Reg.cruStatusSeedHeld 0

/-- A billet of another job: the seed goes, and the scrub of R421 starts where a billet has been accepted since the last one
(R411, R441). -/
def leaveJob (s : State) (job : Nat) : State :=
  if s.jobDiffers job then
    let s1 := s.dropSeed
    if s.cru.lastJob.isSome then s1.startScrub 3 else s1
  else s

/-! ## What Smith writes -/

/-- Place bytes in a memory. -/
def placeImage (s : State) (x : PlanImage) : State :=
  if x.mem < 2 then s.setHearth x.mem ((s.hearth x.mem).writeBytes x.addr x.data)
  else if x.mem = 2 then s.writeHbm x.addr x.data else s.writeStock x.addr x.data

/-- The CAD settings and the Strike table (R41, R55). -/
def putCad (s : State) (x : CadSet) : State :=
  let s1 := (((s.put Reg.cadCtrlCandidate (b2n x.candidate)).put Reg.cadCtrlExternal (b2n x.external)).put Reg.cadCtrlFallback
    (b2n x.fallback)).put Reg.cadCtrlOutEn (b2n x.outEn)
  let s2 := (((s1.put Reg.cadPeriodNs x.period).put Reg.cadGateLead x.lead).put Reg.cadHoldLimitMs x.holdLimit).put Reg.cadAbortLimit
    x.abortLimit
  { s2 with cad := { s2.cad with strike := x.strike, commitStroke := x.commits.headD 0 } }.put Reg.cadStrikeCount x.strike.length

/-- The cores' gang and stage numbers (R174). CTX of a core in no gang of the billet keeps its value (DESIGN CHOICE: R121 gives it
none). -/
def putGangs (s : State) (l : List Gang) : State :=
  l.foldl (fun t g => (gangCores g).foldl (fun u n => (u.put (Reg.coreCtxGang n) g.gang).put (Reg.coreCtxStage n) g.stage) t) s

/-- NUMCTRL of every core (R98). -/
def putNumctrl (s : State) (b : Billet) : State :=
  (List.range 192).foldl (fun t n => (t.put (Reg.coreNumctrlNanAction n) (b2n b.nanAction)).put (Reg.coreNumctrlInfTrap n) (b2n b.infTrap)) s

/-- KVP (R208): its pool is empty and holds no stream; the registers of a billet without a pool take their reset values
(R222). -/
def putKv (s : State) (k : KvPlan) : State :=
  let on := fun (v : Nat) => if k.present then v else 0
  let s1 := ({ s with kvp := Kvp.init }).put Reg.kvpStreams 0
  let s2 := ((s1.put Reg.kvpCtrlEn (on 1)).put Reg.kvpCtrlForm (on (b2n k.small))).put Reg.kvpCtrlHd (on (b2n k.wide))
  let s3 := (s2.put64 Reg.kvpPoolBaseLo Reg.kvpPoolBaseHi (on k.base)).put64 Reg.kvpMetaBaseLo Reg.kvpMetaBaseHi
    (on k.metaBase)
  (((((s3.put Reg.kvpPoolPages (on k.pages)).put Reg.kvpPageBytes (on (kvPageBytes k))).put Reg.kvpFree (on k.pages)).put
    Reg.kvpData 0).put Reg.kvpTable 0).put Reg.kvpRetired 0

/-- STH (R248): a billet without a stash plan leaves the reset values. -/
def putStash (s : State) (p : StashPlan) : State :=
  if p.regions.isEmpty then
    ((s.put Reg.sthCfgSlotLog2 20).put64 Reg.sthStockBaseLo Reg.sthStockBaseHi 0).put Reg.sthStockSlots 0
  else ((s.put Reg.sthCfgSlotLog2 p.slotLog2).put64 Reg.sthStockBaseLo Reg.sthStockBaseHi p.stockBase).put Reg.sthStockSlots p.stockSlots

/-- TMP (R279). -/
def putTemper (s : State) (p : TemperPlan) : State :=
  let s1 := (((s.put Reg.tmpCtrlPrepass (b2n p.prepass)).put Reg.tmpCtrlClipEn (b2n p.clipEn)).put Reg.tmpCtrlSkipNonfinite
    (b2n p.skipNonfinite)).put Reg.tmpCtrlInfTrap (b2n p.infTrap)
  (((s1.put Reg.tmpClipNorm p.clipNorm).put Reg.tmpGroups p.groups.length).put64 Reg.tmpGtableLo Reg.tmpGtableHi p.gtable).put64
    Reg.tmpCurvesLo Reg.tmpCurvesHi p.curveBase

/-- MODE of the ports 8 to 11 (R295): a port whose mode changes trains again. -/
def putModes (s : State) (l : List Nat) : State :=
  [8, 9, 10, 11].foldl (fun t p =>
    let m := b2n (l.contains p)
    if t.get (Reg.fabCtrlMode p) = m then t
    else
      let u := t.put (Reg.fabCtrlMode p) m
      if u.domUp (16 + p) then u.trainStart p else u) s

/-- The network registers, the address and the stream entries (R312, R322, R333, R335). -/
def putNet (s : State) (b : Billet) (own : Nat) : State :=
  let f := b.fab
  let ids := (b.streams.filter (fun x => x.dev == own)).map StreamUse.id
  let bl := b.bloom.map BloomStream.stream
  let s1 := (((s.put Reg.netCtrlSeal (b2n f.sealing)).put Reg.netCtrlW2 f.w2).put Reg.netCtrlW3 f.w3).put Reg.netCtrlTokens f.tokens
  let s2 := ((s1.put Reg.netTokensHeld f.tokens).put Reg.netStatusAddr own).put Reg.netStatusAssigned 1
  let s3 := ((s2.put Reg.netStreams ids.length).put Reg.blmStreams bl.length).put Reg.blmEthPort b.bloomPort
  ({ s3 with netStreams := ids, blmStreams := bl }.put Reg.netStatusState 0).putModes f.ethernet

/-- What a core reset clears and Smith writes again from the billet image (R385, Table 18-2). -/
def putCoreReach (s : State) (b : Billet) : State :=
  let s1 := ((s.putGangs b.gangs).putKv b.kv).putStash b.stash
  (b.images.filter (fun x => x.mem != 3)).foldl placeImage s1

/-- Another billet than the one held: the state of the old job goes, but for what the same job keeps (R440). -/
def newBillet (s : State) (b : Billet) : State :=
  match s.billet with
  | some o =>
    if o.jobId = b.jobId ∧ o.digest = b.digest then s
    else
      let s1 := (List.range 12).foldl (fun t p =>
        let x := t.port p
        (t.setPort p { x with attNonce := none, attReport := none, peerNonce := none, peerDone := false, saidSeed := false
                              sentSeed := false, myRandom := none, peerRandom := none, txKey := [], rxKey := [], reseal := true }).put (Reg.fabSealState p) 0) s
      { s1 with
        net := { Net.init with version := s1.net.version }, blm := Bloom.init, cru := { s1.cru with escrow := none }
        cad := if o.jobId = b.jobId then s1.cad else { s1.cad with stopped := none } }
  | none => s

/-- The Bloom cursors of the streams that the same job keeps under another billet, at the step where it stands. -/
def keepCursors (s : State) (old : List (Nat × Cursor)) : State :=
  match s.cad.stopped with
  | some (_, a) => s.bloomEntries.foldl (fun t e => match bloomAt t e with
    | some d => match Assoc.find? old d.stream with
      | some c => t.rebuildStream e (stepOf a) c
      | none => t
    | none => t) s
  | none => s

/-- The committed cursors by STREAM. -/
def cursorsByStream (s : State) : List (Nat × Cursor) :=
  s.bloomEntries.filterMap (fun e => (bloomAt s e).map (fun d => (d.stream, (s.bstream e).committed)))

/-- The seed under the billet held: the volatile one where the billet is the same, else the wrapped one that Crucible unwraps
(R416). -/
def takeSeed (s : State) (b : Billet) (same : Bool) : State :=
  let k := if same ∧ s.seed.isSome then s.seed else match s.cru.wrapped with
    | some (j, d, k) => if j = b.jobId ∧ d = b.digest then some k else none
    | none => none
  { s with seed := k }.put Reg.cruStatusSeedHeld (b2n k.isSome)

/-- A billet is accepted (R411): it is measured, copied to the staging area (R364, R441), and takes effect. -/
def acceptBillet (s : State) (b : Billet) (own : Nat) (image : List Byte) (amends : List Amendment) : State :=
  let same := match s.billet with
    | some o => o.jobId == b.jobId && o.digest == b.digest
    | none => false
  let old := s.cursorsByStream
  let s1 := (s.newBillet b).measure 6 0 0 0 b.digest
  let s2 := { s1 with billet := some b, cru := { s1.cru with lastJob := some b.jobId, amends := [] } }.put Reg.cruAmendSeq 0
  let s3 := ((((s2.takeSeed b same).putCad b.cad).putNumctrl b).putTemper b.temper).putNet b own
  let s4 := (s3.put Reg.rstCtrlRemoteEn (b2n b.remoteEn)).writeStock b.stagingBase image
  let s5 := ((b.images.filter (fun x => x.mem == 3)).foldl placeImage s4).putCoreReach b
  let s6 := if same then s5 else s5.keepCursors old
  amends.foldl amend s6

/-- The own address by a billet's roster, once the amendments that come with it are applied (R312, R411, R412). -/
def addressIn (s : State) (b : Billet) (amends : List Amendment) : Option Nat :=
  let u := amends.foldl amend ({ s with billet := some b }.put Reg.cruAmendSeq 0)
  match u.billet with
  | some x => (ownMember x).map Member.addr
  | none => none

end State

/-- The billet as the signed bytes give its JOB_ID, BILLET_DIGEST and OWNER_DIGEST (Table 15-3, R409). -/
def billetOf (l : List Byte) (b : Billet) : Billet :=
  { b with jobId := fieldAt l 8 16, digest := Config.sha384 (l.take (billetLength l)), owner := fieldAt l 40 48 }

/-- The signed billet in a `LOAD_BILLET` argument (Table 16-5). -/
def signedBillet (arg : List Byte) : List Byte := (arg.drop 8).take (fieldAt arg 0 4)

/-- LOAD_BILLET: the check waits for a running scrub (R423) and for the one that another job calls for (R411); SCRUB_OK 0
refuses it (R422); the first check that fails refuses it with CRU billet. `tables` are the bytes of the sections' tables for this
device, and `body` is what the sections hold beside them; `sigOk`: both signatures verify under the owner's keys, and `amends`: those of
each amendment. -/
def execLoadBillet (slot : Nat) (body : Billet) (sigOk : Bool) (amends : List Bool) (s : State) (tables : BilletTables := .empty) :
    Host.Outcome State Fault Refusal :=
  withSlot s slot 0x0103 (fun x =>
    let l := signedBillet x.arg
    let b0 := billetOf l body
    let roster := amendmentsOf x.arg amends
    let s1 := s.leaveJob b0.jobId
    if s.flag Reg.cruScrubBusy then void s
    else if s1.flag Reg.cruScrubBusy then .next s1
    else if !s1.flag Reg.cruStatusScrubOk then .next (s1.finish x rcRefused (List.replicate 16 0))
    else if !billetHeaderOk l || some b0.owner != s1.cru.owner then .next ((s1.startRunning x).refuseWith srcCrucible 0x6E clsU 0)
    else if !sigOk then .next (((s1.count Reg.cruSigFail).raise srcCrucible 0x6E clsU 0).finish x rcSignature [])
    else match readTables b0 tables with
    | none => .next ((s1.startRunning x).refuseWith srcCrucible 0x6E clsU 0)
    | some b => match s1.addressIn b roster with
      | some own =>
        if sectionsOk b own l then .next ((s1.acceptBillet b own (l.take (billetLength l)) roster).finish x rcOk [])
        else .next ((s1.startRunning x).refuseWith srcCrucible 0x6E clsU 0)
      | none => .next ((s1.startRunning x).refuseWith srcCrucible 0x6E clsU 0))

end Sys2Proof.Machine
end

