-- ==== Sys2Proof/Machine/Startup.lean ====
section
/-!
DEFINITION. Machine/Startup.lean: domains leaving reset (R484, R485), and what each release starts: the boot chain (R399), the
memories (R482), and the reload after a core reset (R385). -/

namespace Sys2Proof.Machine

/-- The groups of R485, in order. -/
def releaseGroups : List (List Nat) :=
  [[2, 3], [0, 1], [11, 12], [8, 9], [4, 5, 10], [6, 7], [13], [14, 15], (List.range 12).map (16 + ·)]

/-- The domains of the groups before that of domain `d`. -/
def earlierDomains (d : Nat) : List Nat := (releaseGroups.takeWhile (fun g => !g.contains d)).flatten

namespace State

/-- A domain is covered by a source that has not run out: a timed source runs out by itself (Table 18-3). -/
def coveredStill (s : State) (d : Nat) : Bool := s.sys.asserted.any (fun x => !x.timed && x.domains.contains d)

/-- A domain waits for every earlier one that the same release covers (R485). -/
def earlierReleased (s : State) (d : Nat) : Bool := (earlierDomains d).all (fun e => s.domUp e || s.coveredStill e)

/-- Domain `d` may leave reset (R484, R485). -/
def canRelease (s : State) (d : Nat) : Bool :=
  running s && s.sys.held.contains d && s.sys.good.contains d && !s.coveredStill d && s.earlierReleased d

/-- Every domain of the core reach is up. -/
def coreUp (s : State) : Bool := coreReach.all (fun d => s.domUp d)

/-- After a core reset Smith writes again from the billet image what the reset cleared, and the pushes run; a job that
resumes gets its RESTORE entry (R385, R450). -/
def reload (s : State) (ecc : List EccRes) : State :=
  match s.billet with
  | none => s
  | some b =>
    let s1 := (s.putCoreReach b).rebuildPushes ecc
    match s1.cad.resume with
    | some a => s1.journalRestore 1 (stepOf a) s1.ingGen
    | none => s1

/-- The HBM4 stacks of a domain run (R482; training at the first release, Table 18-6, notes/assumptions/80). -/
def startStacks (s : State) (d : Nat) : State :=
  (List.range 4).foldl (fun t i =>
    let k := 4 * (d - 8) + i
    (t.put (Reg.hbmStateMode k) 2).put (Reg.hbmStateTrained k) 1) s

/-- What the release of a domain starts. -/
def onRelease (s : State) (d : Nat) : State :=
  if d = 2 then
    let t := s.drivePin
    if t.sys.bandDue then { t with sys := { t.sys with bandDue := false } }.raise srcPower 0x7E clsC (t.sys.vin % 65536) else t
  else if d = 1 then (if s.sys.bootDue then s.kick.bootChain else s.kick)
  else if d = 8 ∨ d = 9 then s.startStacks d
  else s

/-- Domain `d` leaves reset. -/
def release (s : State) (d : Nat) (ecc : List EccRes) : State :=
  let s1 := s.dropSource (fun x => x.timed && x.domains.contains d)
  let s2 := ({ s1 with sys := { s1.sys with held := s1.sys.held.erase d, wasUp := insertNat d s1.sys.wasUp } }).onRelease d
  if coreReach.contains d && s2.coreUp && s2.sys.booted then s2.reload ecc else s2

end State

/-- DOMAIN_RELEASE: no asserted source covers the domain, its clock-good is high, and its turn has come (R484, R485). `ecc`: the checks of the granules
of W that the pushes after a core reset read. -/
def execDomainRelease (domain : Nat) (s : State) (ecc : List EccRes := []) : Host.Outcome State Fault Refusal :=
  if s.canRelease domain then .next (s.release domain ecc) else void s

end Sys2Proof.Machine
end

