-- ==== Sys2Proof/Machine/Views.lean ====
section
/-!
DEFINITION. Machine/Views.lean: what a read of a register field returns (R12, R513, R518): the live views of the device's
state, each reading bank's own selectors and windows, and the stored value of every other field. -/

namespace Sys2Proof.Machine

/-- Two fields are the same place of the register space. -/
def Fld.same (f g : Fld) : Bool := f.key == g.key

/-- Bits set at the listed places. -/
def maskOf (l : List Nat) : Nat := (l.map (2 ^ ·)).foldl (· + ·) 0

/-- Word `i` of a value, 32 bits. -/
def wordOf (v i : Nat) : Nat := v / 2 ^ (32 * i) % 2 ^ 32

/-- A running DWCONV's window waits for a halo row (R190). -/
def waitsHalo (c : Core) : Bool :=
  match c.dwconv with
  | some ws => match setAt c c.vecSeg (dwOf ws).lb, c.segRun c.vecSeg with
    | some (w, r), some g => missing g (dwOf ws).lb w (heldFor w r) (edgeFirst w r.presented)
    | _, _ => false
  | none => false

/-- An edge row of the core waits for a credit (R191). -/
def stalls (c : Core) : Bool := c.segs.any (fun g => !g.stalled.isEmpty)

/-- The segment whose sets Table 7-7 shows: the one whose commands are dispatched, else the last that started. -/
def Core.shownRun (c : Core) : Option SegRun :=
  match c.segRun c.curSeg with
  | some g => some g
  | none => c.segs.getLast?

/-- A number of the shown segment, zero where none has started. -/
def Core.shown (c : Core) (f : SegRun → Nat) : Nat :=
  match c.shownRun with
  | some g => f g
  | none => 0

namespace State

/-- A bank of per-path state (R518): 0 firmware, 1 JTAG, 2 + s session s. -/
def bank (s : State) (k : Nat) : Bank := Assoc.get Bank.init s.sys.banks k

/-- Write a bank. -/
def setBank (s : State) (k : Nat) (b : Bank) : State := { s with sys := { s.sys with banks := Assoc.set Bank.init s.sys.banks k b } }

/-! ## Windows -/

/-- JNL.SEL of a bank. -/
def jnlSel (s : State) (k : Nat) : Nat := (s.bank k).jnlLo + 2 ^ 32 * (s.bank k).jnlHi

/-- The oldest SEQ held (Table 16-11). -/
def jnlOldest (s : State) : Nat := s.jnl.head - s.jnl.entries.length

/-- The entry that a bank's window shows, if it is held (R453). -/
def jnlEntry (s : State) (k : Nat) : Option JEntry := s.jnl.entries.find? (fun e => e.seq == s.jnlSel k)

/-- The committed cursor that CUR_SEL of a bank names (Table 13-6). -/
def curStream (s : State) (k : Nat) : BStream := s.bstream (s.bank k).curSel

/-! ## Blocks -/

/-- ID (Table 20-4). -/
def idView (s : State) (k : Nat) (lv : Level) (f : Fld) : Option Nat :=
  let b := s.bank k
  if f.addr < 0x18 then some f.rst
  else if f.same Reg.idState then some s.life.code
  else if f.same Reg.idAccessorLevel then some lv.rank
  else if f.same Reg.idAccessorPath then some (if k < 2 then k else 6 + k)
  else if f.same Reg.idMemwinCtrlSpace then some b.memSpace
  else if f.same Reg.idMemwinCtrlPoison then some (b2n b.memPoison)
  else if f.same Reg.idMemwinCtrlRangeErr then some (b2n b.memRange)
  else if f.same Reg.idMemwinAddrLo then some b.memLo
  else if f.same Reg.idMemwinAddrHi then some b.memHi
  else if 0x80 ≤ f.addr ∧ f.addr < 0xC0 then some (leNat ((b.snap.drop (f.addr - 0x80)).take 4))
  else none

/-- RST and CLK (Tables 18-8 and 18-9). -/
def rstView (s : State) (f : Fld) : Option Nat :=
  if f.same Reg.rstAsserted then some (maskOf ((s.sys.asserted.map ResetSrc.bit).eraseDups))
  else if f.same Reg.rstHeld then some (maskOf s.sys.held)
  else if f.same Reg.clkGood then some (maskOf s.sys.good)
  else if 0x10810 ≤ f.addr ∧ f.addr < 0x10880 then
    let d := (f.addr - 0x10810) / 4
    if f.lo = 0 ∨ f.lo = 1 then some (b2n (s.sys.good.contains d)) else if f.lo = 2 then some (b2n (!s.domUp d)) else none
  else none

/-- FLT (Table 17-7). -/
def fltView (s : State) (f : Fld) : Option Nat :=
  if f.same Reg.fltStatusPulse then some (b2n s.sys.pulse) else none

/-- CAD (Table 2-8): on the master the holds of all devices, elsewhere the device's own. -/
def cadView (s : State) (f : Fld) : Option Nat :=
  let c := s.cad
  let m := c.role == .master
  if f.same Reg.cadStatusRole then some c.role.code
  else if f.same Reg.cadStatusHeld then
    some (b2n (if m then c.mHolds.any (fun h => h.angle == c.mAngle) else c.own.any (fun h => h.angle == c.angle)))
  else if f.same Reg.cadStatusInLock then some (b2n c.inLock)
  else if f.same Reg.cadStatusCommitted then some (b2n (c.isCommitted (stepOf c.angle)))
  else if f.same Reg.cadAngleLo then some (c.angle % 2 ^ 32)
  else if f.same Reg.cadAngleHi then some (c.angle / 2 ^ 32)
  else if f.same Reg.cadMaster then some c.master
  else if f.same Reg.cadHoldsOut then some (if m then c.mHolds.length else c.own.length)
  else if f.same Reg.cadHoldRaised then some (min (if m then c.mRaised else c.raised) (2 ^ 32 - 1))
  else if f.same Reg.cadHoldReleased then some (min (if m then c.mReleased else c.released) (2 ^ 32 - 1))
  else if f.same Reg.cadHoldCancelled then some (min (if m then c.mCancelled else c.cancelled) (2 ^ 32 - 1))
  else if f.same Reg.cadAttempt then some c.attempt
  else if f.same Reg.cadLastGateStroke then some c.lastGate
  else if f.same Reg.cadLastGateHolder then some c.lastHolder
  else none

/-- MBX (Table 16-10). -/
def mbxView (s : State) (f : Fld) : Option Nat :=
  let m := s.mbx
  if f.same Reg.mbxStatusSessions then some (maskOf (m.sessions.map Session.num))
  else if f.same Reg.mbxStatusExec then some (b2n (m.running.isSome || !m.halts.isEmpty))
  else if f.same Reg.mbxStatusUpload then some (b2n (m.sessions.any (fun x => x.upload.isSome)))
  else if f.same Reg.mbxSlotsFree then some (64 - m.slots.length)
  else if f.same Reg.mbxSlotsPending then some (m.slots.filter (fun x => !x.ready)).length
  else if f.same Reg.mbxSlotsReady then some (m.slots.filter (fun x => x.ready)).length
  else none

/-- JNL (Table 16-11). -/
def jnlView (s : State) (k : Nat) (f : Fld) : Option Nat :=
  if f.same Reg.jnlHeadLo then some (wordOf s.jnl.head 0)
  else if f.same Reg.jnlHeadHi then some (wordOf s.jnl.head 1)
  else if f.same Reg.jnlOldestLo then some (wordOf s.jnlOldest 0)
  else if f.same Reg.jnlOldestHi then some (wordOf s.jnlOldest 1)
  else if f.same Reg.jnlCount then some s.jnl.entries.length
  else if f.same Reg.jnlSelLo then some (s.bank k).jnlLo
  else if f.same Reg.jnlSelHi then some (s.bank k).jnlHi
  else if f.same Reg.jnlWinValid then some (b2n (decide (s.jnlOldest ≤ s.jnlSel k) && decide (s.jnlSel k < s.jnl.head)))
  else if 0x50020 ≤ f.addr ∧ f.addr < 0x50030 then some (wordOf s.jnl.resumeId ((f.addr - 0x50020) / 4))
  else if 0x50100 ≤ f.addr ∧ f.addr < 0x50140 then some (match s.jnlEntry k with
    | some e => leNat (((JEntry.bytes e).drop (f.addr - 0x50100)).take 4)
    | none => 0)
  else none

/-- CRU (Table 15-7). -/
def cruView (s : State) (f : Fld) : Option Nat :=
  if f.same Reg.cruStatusState then some s.life.code
  else if 0x60040 ≤ f.addr ∧ f.addr < 0x60070 then some (wordOf s.cru.meas ((f.addr - 0x60040) / 4))
  else none

/-- The FAB credit fields (Table 12-10). -/
def fabView (s : State) (f : Fld) : Option Nat :=
  let o := (f.addr - 0x100000) % 0x1000
  let x := s.port ((f.addr - 0x100000) / 0x1000)
  if 0x200 ≤ o ∧ o < 0x240 ∧ o % 16 = 0 then
    let v := (o - 0x200) / 16
    if f.lo = 0 then some (x.shared.getD v 0 + (x.classes.getD v []).foldl (· + ·) 0)
    else some (x.rcvd.getD v 0 - x.freed.getD v 0)
  else none

/-- BLM (Table 13-6). -/
def blmView (s : State) (k : Nat) (f : Fld) : Option Nat :=
  let e := s.curStream k
  if f.same Reg.blmStatusActive then some (b2n (!s.bloomEntries.isEmpty))
  else if f.same Reg.blmCurSel then some (s.bank k).curSel
  else if f.same Reg.blmCurBaseLo then some (wordOf e.committed.base 0)
  else if f.same Reg.blmCurBaseHi then some (wordOf e.committed.base 1)
  else if f.same Reg.blmCurNextLo then some (wordOf e.committed.next 0)
  else if f.same Reg.blmCurNextHi then some (wordOf e.committed.next 1)
  else if f.same Reg.blmCurBufsHeld then some e.held.length
  else if f.same Reg.blmCurBufsSparesReady then some (e.spares.filter (fun x => x.done)).length
  else none

/-- The first engines of the Flux groups that hold a block of a core's transfer or of a fetch (R249).
DESIGN CHOICE (notes/assumptions/156): a group's four engines are busy from the start of a transfer to its end. -/
def fluxGroups (s : State) : List Nat :=
  s.cores.filterMap (fun (n, c) => match c.xfers.head? with
    | some x =>
      if x.op = 0x60 then some (fluxBase n (if x.dir < 2 then 2 else 3) x.far)
      else if x.op = 0x62 then (match regionAt s x.region, s.stash.find? (fun e => e.region == x.region && e.mb == x.mb && e.tensor == x.tensor) with
        | some r, some e => some (stashBase s n r e 0)
        | _, _ => none)
      else none
    | none => none) ++
  s.fetches.filterMap (fun f => match regionAt s f.region, s.stash.find? (fun e => e.region == f.region && e.mb == f.mb) with
    | some r, some e => if f.landed || f.released then none else some (stashBase s (s.rank0 r.gang) r e 0)
    | _, _ => none)

/-- The first engines of the groups that an ingot or a restore stream uses (R239). -/
def ingotGroups (s : State) : List Nat :=
  (match s.ing.cur with
    | some g => g.bays
    | none => []).map (fun b => 4 + 8 * b) ++
  (match s.ing.restore with
    | some r => match r.chosen with
      | some step => if r.loaded then [] else match s.copies step with
        | (b, g) :: _ => (if g.pair then [0, 1] else [b]).map (fun x => 4 + 8 * x)
        | [] => []
      | none => []
    | none => [])

/-- The live fields of STH, KVP and FLX (Tables 9-9, 8-13 and 9-10). -/
def poolView (s : State) (f : Fld) : Option Nat :=
  if f.same Reg.sthStatusBusy then some (b2n (s.stash.any (fun e => !e.landed)))
  else if f.same Reg.sthStatusFetching then some (b2n (s.fetches.any (fun x => !x.landed && !x.released)))
  else if f.same Reg.kvpEpoch then some s.kvp.epoch
  else if 0x400034 ≤ f.addr ∧ f.addr < 0x400044 then
    let i := (f.addr - 0x400034) / 4
    some (if s.kvp.epoch < i then 0 else s.kvp.pins.count (s.kvp.epoch - i))
  else if f.same Reg.kvpUndoUsed then some s.kvp.undo.length
  else if 0x310000 ≤ f.addr ∧ f.addr < 0x310400 ∧ (f.addr - 0x310000) % 0x40 = 0 then
    let base := (f.addr - 0x310000) / 0x40 / 4 * 4
    some (b2n (s.ingotGroups.contains base || (f.lo == 0 && s.fluxGroups.contains base)))
  else none

/-- Credits that a core's gang holds as producer, over the channels of which the core is rank 0 (Table 7-7, R181). -/
def hoCredits (s : State) (n : Nat) : Nat :=
  match s.billet with
  | none => 0
  | some b => (b.channels.zipIdx.map (fun (c, k) =>
      if c.prodDev = s.addr ∧ s.rank0 c.prodGang = n then (s.hand k).credits else 0)).foldl (· + ·) 0

/-- Full slots that it holds as consumer. -/
def hoFull (s : State) (n : Nat) : Nat :=
  match s.billet with
  | none => 0
  | some b => (b.channels.zipIdx.map (fun (c, k) =>
      if c.consDev = s.addr ∧ s.rank0 c.consGang = n then (s.hand k).full.length + (s.hand k).bad else 0)).foldl (· + ·) 0

/-- CORE (Tables 4-10, 6-12 and 7-7). -/
def coreView (s : State) (f : Fld) : Option Nat :=
  let n := (f.addr - 0x1000000) / 0x10000
  let o := (f.addr - 0x1000000) % 0x10000
  let c := s.core n
  if o = 0 then some (if f.lo = 0 then c.run.code else if f.lo = 2 then b2n (!c.queue.isEmpty) else b2n c.waiting.isSome)
  else if o = 0x20 then some ((c.slotSt.map (fun (p : Nat × SlotSt) => p.2.code * 4 ^ p.1)).foldl (· + ·) 0)
  else if o = 0x24 then some c.accHeld
  else if o = 0x28 then some c.obHeld
  else if 0x80 ≤ o ∧ o < 0xC0 then some (Assoc.get 0 c.nextK ((o - 0x80) / 4))
  else if o = 0x300 ∧ f.lo = 0 then some (b2n (c.dwconv.isSome || c.walk.isSome || c.attn.isSome))
  else if o = 0x300 ∧ f.lo = 1 then some (b2n c.vecWait)
  else if o = 0x300 ∧ f.lo = 2 then some (b2n c.dwconv.isSome)
  else if o = 0x400 then some (
    if f.lo = 0 then b2n (c.dwconv.isSome || stalls c)
    else if f.lo = 1 then b2n (waitsHalo c)
    else if f.lo = 2 then b2n (stalls c)
    else match c.dwconv with
      | some ws => (dwOf ws).lb
      | none => 0)
  else if o = 0x414 then some (c.shown (fun g => if f.lo = 0 then g.creditUp else g.creditDn))
  else if o = 0x418 then some (c.shown (fun g => (haloFull g (f.lo == 0)).length))
  else if o = 0x41C then some (c.shown (fun g => (g.swage.map setBytes).foldl (· + ·) 0))
  else if o = 0x42C then some (if f.lo = 0 then s.hoCredits n else s.hoFull n)
  else none

/-- What a permitted read of a field returns to bank `k` at a level: a live view where the field shows other state of the
device, else its stored value. A WO field reads zero (R517). -/
def view (s : State) (k : Nat) (lv : Level) (f : Fld) : Nat :=
  let a := f.addr
  let live := if f.acc = .wo then some 0
    else if a < 0x10000 then s.idView k lv f
    else if a < 0x20000 then s.rstView f
    else if a < 0x30000 then s.fltView f
    else if a < 0x40000 then s.cadView f
    else if a < 0x50000 then s.mbxView f
    else if a < 0x60000 then s.jnlView k f
    else if a < 0x100000 then s.cruView f
    else if a < 0x10C000 then s.fabView f
    else if a < 0x200000 then (
      if f.same Reg.netRtIndex then some (s.bank k).rtIndex
      else if f.same Reg.netRtData then some (Assoc.get 0 s.net.routes (s.bank k).rtIndex) else none)
    else if a < 0x300000 then s.blmView k f
    else if a < 0x500000 then s.poolView f
    else if 0x1000000 ≤ a then s.coreView f
    else none
  (match live with
    | some v => v
    | none => s.get f) % 2 ^ f.w

/-- A word as a permitted read returns it: the sum of its fields. -/
def wordView (s : State) (k : Nat) (lv : Level) (a : Nat) : Nat :=
  ((fieldsAt a).map (fun f => s.view k lv f * 2 ^ f.lo)).foldl (· + ·) 0

end State

/-- A valid entry of the Strike table as 64 bits (Table 2-3). -/
def Strike.bits (e : Strike) : Nat :=
  e.stroke % 2 ^ 16 + e.kind % 2 ^ 8 * 2 ^ 16 + b2n e.gate * 2 ^ 24 + 2 ^ 25 + e.target % 2 ^ 12 * 2 ^ 28 +
  e.every % 2 ^ 8 * 2 ^ 40 + e.phase % 2 ^ 8 * 2 ^ 48 + e.arg % 2 ^ 8 * 2 ^ 56

/-- The word of the Strike table at an address (R55). -/
def State.strikeWord (s : State) (a : Nat) : Nat :=
  match s.cad.strike[(a - 0x38000) / 8]? with
  | some e => wordOf (Strike.bits e) (if (a - 0x38000) % 8 = 0 then 0 else 1)
  | none => 0

end Sys2Proof.Machine
end

