-- ==== Sys2Proof/Machine/Restore.lean ====
section
/-!
DEFINITION. Machine/Restore.lean: `RESTORE` and `REPLAY_STEP` (R383, R384, R387, R388): the reports and the announcement of the
step, and the load of its ingot. -/

namespace Sys2Proof.Machine

/-! ## The arguments of REPLAY_STEP (Table 16-5, R388) -/

/-- An entry of the capture list (R388). -/
def capEntry (l : List Byte) : CapEntry :=
  { opid := fieldAt l 0 4, core := fieldAt l 4 1, occur := fieldAt l 6 2, addr := fieldAt l 8 4, len := fieldAt l 12 4 }

/-- A journal entry from its 64 bytes (Table 16-7). -/
def journalEntryOf (l : List Byte) : JEntry :=
  { seq := fieldAt l 0 8, angle := fieldAt l 8 6, origin := fieldAt l 14 2, opcode := fieldAt l 16 2, result := fieldAt l 18 2
    tag := fieldAt l 20 4, who := fieldAt l 24 8, record := (l.drop 32).take 32 }

/-- The entries of a journal image, oldest first (R448): an entry stands at its own ring index, and holds a command or a
record. -/
def imageEntries (l : List Byte) : List JEntry :=
  let all := (List.range (l.length / 64)).filterMap (fun i =>
    let e := journalEntryOf ((l.drop (64 * i)).take 64)
    if e.seq % 65536 = i ∧ (e.opcode ≠ 0 ∨ e.record.head? ≠ some 0#8) then some e else none)
  let newest := (all.map JEntry.seq).foldl max 0 % 65536
  all.filter (fun e => decide (newest < e.seq % 65536)) ++ all.filter (fun e => decide (e.seq % 65536 ≤ newest))

/-- The capture list of an argument. -/
def capList (arg : List Byte) : List CapEntry :=
  (List.range (fieldAt arg 6 2)).map (fun i => capEntry ((arg.drop (12 + 16 * i)).take 16))

namespace State

/-! ## Load (R384) -/

/-- The substitutions of a replay (R358, R387): those made in the step, from the journal of the ingot of the next step where
one is complete, else from the image that the command carries. -/
def replaySubs (s : State) (r : ReplayRun) : List ReplaySub :=
  let l := match s.copies (r.step + 1) with
    | (_, g) :: _ => (match g.image with
      | some m => m.journal
      | none => r.image)
    | [] => r.image
  s.bloomEntries.flatMap (fun e => match bloomAt s e with
    | some d => ((validSubsts l d.stream r.step).filter (fun p => decide (angleOf r.step 0 ≤ p.1.angle))).map
        (fun p => { entry := e, angle := p.1.angle, sub := p.2 })
    | none => [])

/-- The keys of every job link are made anew (R310). -/
def resealLinks (s : State) : State :=
  if s.flag Reg.netCtrlSeal then s.jobPorts.foldl (fun t l => t.sendHello l.1) s else s

/-- The device holds the state of s:0x0000 and runs (R384 steps 2 to 8); Smith writes the cores' images and the registers of the
billet again (R121, R222, R248, R279). -/
def loadIngot (s : State) (b : Billet) (bay : Nat) (g : Gen) (m : IngotImage) (step : Nat) (ecc : List EccRes) : State :=
  let s1 := ((s.restoreFlux bay g m step).loadArrays b.temper m).put Reg.tmpStep m.shardStep
  let s2 := (s1.put64 Reg.ingGenLo Reg.ingGenHi s1.largestGen).loadJournal m step g.gen
  let s3 := ((s2.loadCursors m step).helloFeeders.putCoreReach b).putTemper b.temper
  let s4 := ((s3.rebuildPushes ecc).buildRoutes.resealLinks.barScan).beginRun (angleOf step 0)
  let s5 := { s4 with
    life := .running
    cad := { s4.cad with stopped := none, mAngle := angleOf step 0, mAttempt := 0, mCommitted := none, mHolds := [] } }
  ((s5.put Reg.ingStatusPhase 0).put Reg.tmpStatusPhase 0).count Reg.ingRestores

/-- The step of a restore is set, and its ingot is read next. -/
def startLoad (s : State) (r : RestoreRun) : State :=
  { s with ing := { s.ing with restore := some r } }.put Reg.ingStatusPhase 4 |>.put Reg.tmpStatusPhase 6

/-- The device gives up its part in an election and a run: the job stays Armed (R383). -/
def leaveRun (s : State) : State :=
  let s1 := s.endRestore
  ({ s1 with life := .armed, cad := { s1.cad with
    role := .idle, active := false, start := false, mOn := false, mHolds := [], mRolling := false, haltPending := false
    cands := [], chosen := none, confirms := [] } }).finishHalts s1.cad.angle s1.mbx.halts.length

end State

/-! ## The commands -/

/-- RESTORE: the links attest again (R414), the labels are read (R378), and a master is elected (R383). -/
def execRestore (slot : Nat) (s : State) : Host.Outcome State Fault Refusal :=
  withSlot s slot 0x0108 (fun x =>
    let w := leNat (x.arg.take 4)
    let s1 := (s.startRunning x).readLabels
    let r : RestoreRun := { want := if w = 0xFFFFFFFF then none else some w, reports := [], unusable := [], chosen := none, loaded := false }
    let s2 := { s1 with ing := { s1.ing with restore := some r }, cad := { s1.cad with lost := [], afterLoss := false, active := false } }
    .next (s2.jobPorts.foldl (fun t l => t.sendReq l.1 l.2) s2).startElection)

/-- RESTORE_STEP_ANNOUNCE: a report or an unusable step reaches the master, which announces a step once every device has
reported; an announcement reaches a device, which loads that step's ingot, or stays Armed (R383, R384). -/
def execRestoreStepAnnounce (msg : RestoreMsg) (s : State) : Host.Outcome State Fault Refusal :=
  match s.ing.restore with
  | none => void s
  | some r =>
    if !s.cadUp || s.ing.replay.isSome then void s
    else match msg with
      | .report dev l =>
        let r1 := { r with reports := r.reports.filter (fun p => p.1 != dev) ++ [(dev, l)] }
        .next { s with ing := { s.ing with restore := some r1 } }.announceStep
      | .unusable _ step =>
        if !s.masters || r.unusable.contains step then void s
        else
          let r1 := { r with unusable := step :: r.unusable, chosen := none, loaded := false }
          .next { s with ing := { s.ing with restore := some r1 }, cad := { s.cad with active := false } }.announceStep
      | .announce none =>
        .next (if s.runningOp = some 0x0108 then (s.finishRunning rcNoIngot []).leaveRun else s.leaveRun)
      | .announce (some step) =>
        if r.chosen = some step then void s
        else .next ({ s with life := .armed, cad := { s.cad with active := false } }.startLoad { r with chosen := some step, loaded := false })

/-- INGOT_LOAD_COMPLETE: the chosen step's ingot has been read, once no generation is being written any more (Table 14-9): a
whole copy is loaded and the job runs from s:0x0000, with the start beat where this device is the master; without one the
step is reported unusable (R384), and a replay finds no ingot. `ecc`: the checks of the granules of W that the pushes read. -/
def execIngotLoadComplete (failed : List Nat) (s : State) (ecc : List EccRes := []) : Host.Outcome State Fault Refusal :=
  match s.ing.restore, s.billet with
  | some r, some b => match r.chosen with
    | none => void s
    | some step =>
      if r.loaded || s.ing.cur.isSome || !s.cadUp || s.seed.isNone then void s
      else
        let (s1, got) := s.readCopies failed (s.copies step)
        match got.bind (fun p => p.2.image.map (fun m => (p.1, p.2, m))) with
        | none =>
          if s1.ing.replay.isSome then .next ((s1.finishRunning rcNoIngot []).leaveRun)
          else
            let s2 := (s1.put Reg.ingStatusPhase 0).put Reg.tmpStatusPhase 0
            .next ({ s2 with ing := { s2.ing with restore := some { r with chosen := none } } }.emit
              (.restore s2.cad.master (.unusable s2.addr step)))
        | some (bay, g, m) =>
          let s2 := s1.loadIngot b bay g m step ecc
          let s3 := match s1.ing.replay with
            | some q => { s2 with ing := { s2.ing with restore := none }
                                  blm := { s2.blm with replay := s1.replaySubs q } }.put Reg.blmStatusReplay 1
            | none =>
              let t := { s2 with ing := { s2.ing with restore := some { r with loaded := true } } }
              if t.runningOp = some 0x0108 then t.finishRunning rcOk (leBytes 4 step ++ leBytes 8 g.gen) else t
          .next (if s3.masters then s3.mBeat s3.cad.startAngle else s3)
  | _, _ => void s

/-- REPLAY_STEP: the step's own ingot is read while a master is elected; without one it is NO_INGOT (R387). -/
def execReplayStep (slot : Nat) (s : State) : Host.Outcome State Fault Refusal :=
  withSlot s slot 0x0203 (fun x =>
    let step := fieldAt x.arg 0 4
    let s1 := (s.startRunning x).readLabels
    if (s1.copies step).isEmpty then .next (s1.finishRunning rcNoIngot [])
    else
      let q : ReplayRun := { step := step, stop := fieldAt x.arg 4 2, image := imageEntries (x.arg.drop (12 + 16 * fieldAt x.arg 6 2)), gen := none }
      let r : RestoreRun := { want := some step, reports := [], unusable := [], chosen := some step, loaded := false }
      let s2 := { s1 with
        ing := { s1.ing with replay := some q }, caps := (capList x.arg).map (fun c => (c, 0))
        cad := { s1.cad with lost := [], afterLoss := false, active := false } }.startLoad r
      .next (s2.jobPorts.foldl (fun t l => t.sendReq l.1 l.2) s2).startElection)

end Sys2Proof.Machine
end

