-- ==== Sys2Proof/Machine/Smith.lean ====
section
/-!
DEFINITION. Machine/Smith.lean: the commands that Smith runs (Tables 16-4 and 16-5) but for those of Billets.lean,
Restore.lean and Access.lean: information, ownership, the lifecycle (R440, R442), serving, reading, firmware and keys. -/

namespace Sys2Proof.Machine

/-- The 16 zero bytes of a REFUSED result for which no fault is raised (notes/assumptions/82). -/
def noMessage : List Byte := List.replicate 16 0#8

/-! ## Information -/

/-- The 1,488-byte body of an attestation report (Table 15-2). -/
def Report.body (r : Report) : List Byte :=
  leBytes 4 0x5A2B1CA7 ++ leBytes 1 1 ++ leBytes 1 r.state ++ leBytes 2 (r.addr % 2 ^ 14 + b2n r.assigned * 2 ^ 15) ++
  Config.serialBytes ++ leBytes 4 Config.stepping ++
  leBytes 4 (b2n r.exception + 2 * b2n r.debug + 4 * b2n r.scrubOk + 8 * b2n r.seedHeld) ++
  leBytes 32 r.nonce ++ leBytes 48 r.meas ++ leBytes 4 r.logCount ++ leBytes 4 0 ++ leBytes 48 r.owner ++ leBytes 48 r.billet ++
  leBytes 16 r.jobId ++ leBytes 4 r.amendSeq ++ leBytes 16 r.jobCheck ++ leBytes 4 0 ++ leBytes 1184 r.kemEk ++
  leBytes 48 Config.certDigest

/-- The signed identity certificate (R404). -/
def certBytes : List Byte := (List.range 8752).map Config.certByte

namespace State

/-- The result of IDENTIFY (Table 16-5). -/
def identity (s : State) : List Byte :=
  Config.serialBytes ++ leBytes 4 Config.stepping ++ ([1, 2, 3, 4].flatMap (fun k => leBytes 4 (s.get (Reg.cruVersion k)))) ++
  leBytes 1 s.life.code ++ leBytes 1 0 ++ leBytes 2 s.addr ++ leBytes 6 Config.mac ++ leBytes 18 0

/-- The job stands stopped at a stroke-0 angle with its Stock state kept (R440): by HALT, or by the abort limit. -/
def stoppedAt0 (s : State) : Option Nat :=
  match s.cad.stopped with
  | some (c, a) => if c = 1 ∨ c = 4 then some a else none
  | none => none

/-- The 128-byte summary of STATUS (R444). -/
def statusBytes (s : State) : List Byte :=
  leBytes 1 s.life.code ++
  leBytes 1 (s.get Reg.cruStatusException + 2 * s.get Reg.cruStatusDebug + 4 * s.get Reg.cruStatusScrubOk +
    8 * s.get Reg.cruStatusSeedHeld + 16 * b2n s.billet.isSome + 32 * b2n (s.stoppedAt0.isSome && s.life != .running)) ++
  leBytes 2 s.cad.attempt ++ leBytes 4 0 ++ leBytes 6 s.cad.angle ++ leBytes 2 0 ++ leBytes 2 s.cad.master ++ leBytes 2 0 ++
  leBytes 4 (s.wordView 0 .firmware 0x30004) ++ leBytes 8 (s.get64 Reg.fltFirstLo Reg.fltFirstHi) ++
  leBytes 8 (s.get64 Reg.fltFirstAngleLo Reg.fltFirstAngleHi) ++ leBytes 4 (s.get Reg.ingLastStep) ++
  leBytes 4 (s.get Reg.tmpLastUpdated) ++ leBytes 8 (s.get64 Reg.ingLastGenLo Reg.ingLastGenHi) ++ leBytes 8 s.jnl.head ++
  leBytes 4 s.causeWord ++ leBytes 1 (64 - s.mbx.slots.length) ++ leBytes 1 (s.mbx.slots.filter (fun x => !x.ready)).length ++
  leBytes 1 (s.mbx.slots.filter (fun x => x.ready)).length ++ leBytes 9 0 ++
  leBytes 48 ((s.billet.map (fun b => b.digest)).getD 0)

/-- A signed object is refused (R391, R396): it counts, and the command completes SIGNATURE. -/
def badSignature (s : State) (x : Slot) : State := (s.count Reg.cruSigFail).finish x rcSignature []

end State

/-- IDENTIFY (R443). -/
def execIdentify (slot : Nat) (s : State) : Host.Outcome State Fault Refusal :=
  withSlot s slot 0x0001 (fun x => .next (s.finish x rcOk s.identity))

/-- ATTEST: the certificate and a signed report over the caller's nonce, with KEM_EK zero (R405, R443). Its nonce serves a
claim (R407). -/
def execAttest (slot : Nat) (s : State) : Host.Outcome State Fault Refusal :=
  withSlot s slot 0x0002 (fun x =>
    let n := leNat (x.arg.take 32)
    let sig := leBytes 8240 s.free
    let s1 := { s.draw with cru := { s.cru with claimNonce := some n } }
    .next (s1.finish x rcOk (certBytes ++ Report.body (s.report n 0) ++ sig)))

/-- STATUS (R444). -/
def execStatus (slot : Nat) (s : State) : Host.Outcome State Fault Refusal :=
  withSlot s slot 0x0003 (fun x => .next (s.finish x rcOk s.statusBytes))

/-! ## Ownership -/

/-- CLAIM: the keys' owner digest is enrolled where both signatures (`rsaOk`, `slhOk`) verify over a text whose nonce `nonce` is
that of the most recent report, which serves this one attempt (R407). -/
def execClaim (slot nonce : Nat) (rsaOk slhOk : Bool) (s : State) : Host.Outcome State Fault Refusal :=
  withSlot s slot 0x0101 (fun x =>
    let s1 := { s with cru := { s.cru with claimNonce := none } }
    let owner := claimOwner x.arg
    if rsaOk && slhOk && s.cru.claimNonce == some nonce then
      let s2 := { s1 with cru := { s1.cru with owner := some owner }, life := .claimed }
      .next ((s2.measure 5 0 0 0 owner).finish x rcOk [])
    else .next (s1.badSignature x))

/-- A release is accepted (R408): of the enrolled owner over the most recent report's nonce, or of the vendor, bound to
SERIAL. -/
def releaseOk (s : State) (r : ReleaseObj) : Bool :=
  r.sigOk && r.serialDigest == Config.serialDigest &&
  (if r.vendor then !s.rsaRevoked r.rsaSlot && !s.slhRevoked r.slhSlot
   else some r.owner == s.cru.owner && s.cru.claimNonce.isSome)

namespace State

/-- The owner, the seed and the job of the device are gone (R408; the billet with them, notes/assumptions/83). -/
def dropOwner (s : State) : State :=
  let s1 := (List.range 12).foldl eraseLink s.dropSeed
  let s2 := { s1 with
    billet := none, netStreams := [], blmStreams := [], blm := Bloom.init, net := { Net.init with version := s1.net.version }
    cad := { Cad.init with inRun := s1.cad.inRun, inLock := s1.cad.inLock, ran := s1.cad.ran, lastFired := s1.cad.lastFired }
    cru := { s1.cru with owner := none, amends := [], lastJob := none } }
  ([Reg.cruAmendSeq, Reg.cadStrikeCount, Reg.netStatusAddr, Reg.netStatusAssigned, Reg.netStatusState, Reg.netStreams,
    Reg.blmStreams].foldl (fun t f => t.put f 0) s2)

end State

/-- RELEASE: the wrapped seed and the owner record are erased and the scrub runs; the command completes with it, in Blank
(R408). A release of the owner needs level 3 (Table 16-5). -/
def execRelease (slot : Nat) (object : ReleaseObj) (s : State) : Host.Outcome State Fault Refusal :=
  withSlot s slot 0x0102 (fun x =>
    if !object.vendor && decide (x.level < 3) then .next (s.finish x rcLevel [])
    else if releaseOk s object then .next ((s.startRunning x).dropOwner.startScrub 2)
    else .next (s.badSignature x))

/-! ## The lifecycle (R440) -/

/-- ARM: discovery begins (R314), and Bloom's feeders are told (R344); refused without a billet, and after a scrub of R411
that failed (R422). -/
def execArm (slot : Nat) (s : State) : Host.Outcome State Fault Refusal :=
  withSlot s slot 0x0104 (fun x =>
    let scrubbed := s.flag Reg.cruStatusScrubOk ||
      !(s.cru.scrubBad || (s.flag Reg.cruScrubBusy && s.cru.scrubFor == 3))
    if s.billet.isNone || !scrubbed then .next (s.finish x rcRefused noMessage)
    else
      let s1 := (s.startRunning x).put Reg.netStatusState 1
      .next ({ s1 with net := { s1.net with sealedRecs := [] } }.originate.helloFeeders))

/-- DISARM: to Claimed, the billet kept. -/
def execDisarm (slot : Nat) (s : State) : Host.Outcome State Fault Refusal :=
  withSlot s slot 0x0105 (fun x => .next ({ s with life := .claimed }.finish x rcOk []))

/-- RUN: to Running, with the election (R43); the job starts at 0:0x0000, or at the stroke-0 angle where it stopped. It
completes at the first beat (Cadence.lean). -/
def execRun (slot : Nat) (s : State) : Host.Outcome State Fault Refusal :=
  withSlot s slot 0x0106 (fun x =>
    let start := match s.cad.stopped with
      | none => some 0
      | some _ => s.stoppedAt0
    match start with
    | none => .next (s.finish x rcWrongState [])
    | some a =>
      let s1 := if s.cad.stopped.isSome then { s with blm := { s.blm with start := a } } else s.startShard.startBloom
      let s2 := (s1.startRunning x).barScan.beginRun a
      .next { s2 with life := .running, cad := { s2.cad with lost := [], afterLoss := false, haltPending := false } }.startElection)

/-- HALT: it is held at the STEP_END gate, and completes with the stop (R442). -/
def execHalt (slot : Nat) (s : State) : Host.Outcome State Fault Refusal :=
  withSlot s slot 0x0107 (fun x =>
    if s.mbx.halts.contains x.num then void s
    else .next { s with mbx := { s.mbx with halts := s.mbx.halts ++ [x.num] }, cad := { s.cad with haltPending := true } }.placeHalt)

/-- RESET: it completes, and a core or system reset is asserted for 10 µs (R483). -/
def execReset (slot : Nat) (s : State) : Host.Outcome State Fault Refusal :=
  withSlot s slot 0x0109 (fun x =>
    .next ((s.finish x rcOk []).assertSource { bit := 4, clock := none, level := fieldAt x.arg 0 1 }))

/-- SERVE_OPEN: it waits for the next s:0x0000 (R220). -/
def execServeOpen (slot : Nat) (s : State) : Host.Outcome State Fault Refusal :=
  withSlot s slot 0x0201 (fun x => .next (s.startRunning x))

/-- SERVE_CLOSE: it waits for the next s:0x0000 (R220). -/
def execServeClose (slot : Nat) (s : State) : Host.Outcome State Fault Refusal :=
  withSlot s slot 0x0202 (fun x => .next (s.startRunning x))

/-! ## Reading -/

/-- FAULT_READ: FIRST, FLT.STATUS and the counters, which it does not clear (Table 16-5). -/
def execFaultRead (slot : Nat) (s : State) : Host.Outcome State Fault Refusal :=
  withSlot s slot 0x0301 (fun x =>
    .next (s.finish x rcOk (leBytes 8 (s.get64 Reg.fltFirstLo Reg.fltFirstHi) ++
      leBytes 8 (s.get64 Reg.fltFirstAngleLo Reg.fltFirstAngleHi) ++ leBytes 4 (s.wordView 0 .firmware 0x20004) ++
      (List.range (fieldAt x.arg 2 2)).flatMap (fun i => leBytes 4 (s.get (Reg.fltCount (fieldAt x.arg 0 2 + i)))))))

/-- The entries that JOURNAL_READ returns (R530): `own` is the caller's WHO where the filter is set. -/
def State.journalRead (s : State) (start count : Nat) (back : Bool) (own : Option Nat) : List JEntry :=
  let l := s.jnl.entries
  let walk :=
    if back then (if s.jnl.head ≤ start then l else l.filter (fun e => decide (e.seq ≤ start))).reverse
    else if s.jnl.head ≤ start then [] else l.filter (fun e => decide (start ≤ e.seq))
  (walk.filter (fun e => match own with
    | some w => e.who != 0 && e.who == w
    | none => true)).take count

/-- JOURNAL_READ (R530). -/
def execJournalRead (slot : Nat) (s : State) : Host.Outcome State Fault Refusal :=
  withSlot s slot 0x0302 (fun x =>
    let own := if bit (fieldAt x.arg 11 1) 0 then some (x.who % 2 ^ 64) else none
    let l := s.journalRead (fieldAt x.arg 0 8) (fieldAt x.arg 8 2) (fieldAt x.arg 10 1 == 1) own
    .next (s.finish x rcOk (leBytes 8 s.jnl.head ++ leBytes 8 s.jnlOldest ++ leBytes 4 l.length ++ leBytes 4 0 ++
      leBytes 16 s.jnl.resumeId ++ l.flatMap JEntry.bytes)))

/-- A record of INGOT_LIST; the places of its fields are the model's (notes/assumptions/84). -/
def genRecord (bay : Nat) (g : Gen) : List Byte :=
  leBytes 1 bay ++ leBytes 1 (b2n g.complete) ++ leBytes 2 0 ++ leBytes 4 g.step ++ leBytes 8 g.gen ++ leBytes 2 g.addr ++
  leBytes 2 0 ++ leBytes 4 g.records ++ leBytes 8 0

/-- INGOT_LIST: the generations found on the selected bays (Table 16-5). The header's content is stated nowhere: a free
value. -/
def execIngotList (slot : Nat) (s : State) : Host.Outcome State Fault Refusal :=
  withSlot s slot 0x0303 (fun x =>
    let l := [0, 1].flatMap (fun b => if bit (fieldAt x.arg 0 1) b && s.bayReadable b then (match s.cart? b with
      | some c => c.gens.map (genRecord b)
      | none => []) else [])
    .next (s.draw.finish x rcOk (leBytes 32 s.free ++ (l.take 4000).flatten)))

/-- JOB_ESCROW_READ: the ciphertext and the sealed seed of R417, or NO_ESCROW. -/
def execJobEscrowRead (slot : Nat) (s : State) : Host.Outcome State Fault Refusal :=
  withSlot s slot 0x0306 (fun x => match s.cru.escrow with
    | some (ct, k) => .next (s.finish x rcOk (leBytes 1088 ct ++ leBytes 48 k))
    | none => .next (s.finish x rcNoEscrow []))

/-! ## Firmware (R393, R401, R402) -/

/-- FW_WRITE: an image goes into the slot that ACTIVE does not name. -/
def execFwWrite (slot : Nat) (verified : Bool) (s : State) : Host.Outcome State Fault Refusal :=
  withSlot s slot 0x0401 (fun x =>
    let image := imageOf x.arg verified
    let to1 := 1 - s.activeSlot
    .next ({ s with cru := { s.cru with images := Assoc.put s.cru.images (4 * to1 + image.kind - 1) image } }.finish x rcOk
      (leBytes 1 to1)))

/-- FW_COMMIT: the written images are verified, and ACTIVE flips where they form a tested set with the active images of the
other kinds. -/
def execFwCommit (slot : Nat) (s : State) : Host.Outcome State Fault Refusal :=
  withSlot s slot 0x0402 (fun x =>
    let m := fieldAt x.arg 0 1 % 16
    let bad := ([1, 2, 3, 4].filter (fun k => bit m (k - 1) && (s.acceptedAt (1 - s.activeSlot) k).isNone)).length
    if bad ≠ 0 then .next ((s.count Reg.cruSigFail bad).finish x rcSignature [])
    else if tested (s.candidate m) then
      let s1 := s.put Reg.cruBootActive (1 - s.activeSlot)
      .next (s1.finish x rcOk (leBytes 1 s1.activeSlot))
    else .next (s.finish x rcRefused noMessage))

/-- EXCEPTION_LOAD: a valid token replaces the one before (R401). -/
def execExceptionLoad (slot : Nat) (verified : Bool) (s : State) : Host.Outcome State Fault Refusal :=
  withSlot s slot 0x0403 (fun x =>
    let token := tokenOf x.arg verified
    if s.tokenOk token then .next ({ s with cru := { s.cru with token := some token } }.finish x rcOk [])
    else .next (s.badSignature x))

/-- An object signed by vendor keys and bound to SERIAL (R393, R445). -/
def vendorSigned (s : State) (v : VendorObj) : Bool :=
  v.good && v.signer == 0 && v.serial == Config.serial && !s.rsaRevoked v.rsaSlot && !s.slhRevoked v.slhSlot

/-- An object signed by the enrolled owner's keys and bound to SERIAL (R419, R445). -/
def ownerSigned (s : State) (v : VendorObj) : Bool :=
  v.good && v.signer == 1 && v.serial == Config.serial && s.cru.owner.isSome

/-- REVOKE: the slot's fuse is burnt, for the next boot; refused where no unrevoked slot of the algorithm would be left
(R393). -/
def execRevoke (slot : Nat) (verified : Bool) (s : State) : Host.Outcome State Fault Refusal :=
  withSlot s slot 0x0404 (fun x =>
    let object := revocationOf x.arg verified
    let f := if object.alg = 0 then Reg.cruFuseRsaRevoked else Reg.cruFuseSlhRevoked
    if !vendorSigned s object then .next (s.badSignature x)
    else if decide (1 < object.alg) || decide (3 < object.slot) then .next (s.finish x rcBadArgs [])
    else
      let v := s.get f ||| 2 ^ object.slot
      if v = 15 then .next (s.finish x rcRefused noMessage) else .next ((s.put f v).finish x rcOk []))

/-- DEBUG_UNLOCK: by the owner in Claimed and Armed, by the vendor in Blank and Recovery (R419). -/
def execDebugUnlock (slot : Nat) (verified : Bool) (s : State) : Host.Outcome State Fault Refusal :=
  withSlot s slot 0x0405 (fun x =>
    let object := unlockOf x.arg verified
    let ok := if s.life = .claimed ∨ s.life = .armed then ownerSigned s object else vendorSigned s object
    if ok then .next (((s.measure 4 0 0 0 object.digest).put Reg.cruStatusDebug 1).finish x rcOk [])
    else .next (s.badSignature x))

/-- JOB_KEY_IMPORT: the seed of an import object that is bound to the session's report and to the billet's job is taken
(R417, R445). -/
def execJobKeyImport (slot : Nat) (verified : Bool) (s : State) (opened : Option Nat := none) : Host.Outcome State Fault Refusal :=
  withSlot s slot 0x0406 (fun x =>
    let object := importOf x.arg verified opened
    match object.seed with
    | some k =>
      if !object.good || object.hello != x.hello then .next (s.badSignature x)
      else if s.jobId = some object.jobId then .next ((s.holdSeed k s.addr).finish x rcOk (leBytes 1 1))
      else .next (s.finish x rcOk (leBytes 1 0))
    | none => .next (s.badSignature x))

/-! ## A reset from the fabric -/

/-- REMOTE_RESET (R488): a core or system reset, recorded, or a packet discarded and counted. In Quench it sets its cause bit
alone (R465). -/
def execRemoteReset (port src target reach : Nat) (tagOk : Bool) (s : State) : Host.Outcome State Fault Refusal :=
  if !s.domUp 2 || !s.portUp port then void s
  else
    let q := s.life == .quench
    let ok := tagOk && (q || (s.get (Reg.fabSealState port) == 2 && s.inJob)) && s.roster.any (fun m => m.addr == src) &&
      target == s.addr && (reach == 1 || reach == 2) && s.flag Reg.rstCtrlRemoteEn
    if !ok then .next (s.count Reg.rstRemoteRefused)
    else
      let s1 := if q then s else (s.put Reg.rstRemoteLastSrc src).put Reg.rstRemoteLastReach reach
      .next (s1.assertSource { bit := 5, clock := none, level := reach })

end Sys2Proof.Machine
end

