-- ==== Sys2Proof/Machine/Access.lean ====
section
/-!
DEFINITION. Machine/Access.lean: accesses to the control register space (chapter 20, R11 to R15): levels, locks and refusals,
the banks and their pairs, the MEMWIN snapshot, CRS_READ and CRS_WRITE (R447), and the TAP (R508, R522). -/

namespace Sys2Proof.Machine

/-- The _LO registers (R11), each followed by its _HI 4 bytes on. -/
def isLo (a : Nat) : Bool :=
  [0x00C, 0x044, 0x20008, 0x20010, 0x20018, 0x20020, 0x30008, 0x40014, 0x50000, 0x50008, 0x50014, 0x20003C, 0x200048, 0x200050,
   0x200060, 0x300008, 0x300038, 0x300040, 0x400008, 0x400010, 0x500010, 0x500018, 0x50004C, 0x500060, 0x500068, 0x500078,
   0x600004, 0x600010, 0x600018, 0x600030, 0x60010C, 0x600114, 0x60020C, 0x600214].contains a ||
  (0x100000 ≤ a && a < 0x10C000 && (a - 0x100000) % 0x1000 == 0x14) ||
  (0x310000 ≤ a && a < 0x310400 && ((a - 0x310000) % 0x40 == 0x04 || (a - 0x310000) % 0x40 == 0x0C)) ||
  (0x700000 ≤ a && a < 0x708000 && (a - 0x700000) % 0x1000 == 0x10) ||
  (0x1000000 ≤ a && a < 0x1C00000 && [0x30, 0x214, 0x308].contains ((a - 0x1000000) % 0x10000))

/-- The _LO registers whose pair is written (R11): MEMWIN_ADDR, JNL.SEL and ING.KEEP_GEN. -/
def isRwLo (a : Nat) : Bool := a == 0x044 || a == 0x50014 || a == 0x600018

/-- A field that writes act on (Table 0-2). -/
def Fld.writable (f : Fld) : Bool := f.acc == .rw || f.acc == .w1c || f.acc == .w1s || f.acc == .wo

/-- What a meaning leaves where it goes on. -/
def State.after (s : State) (o : Host.Outcome State Fault Refusal) : State :=
  match o with
  | .next t => t
  | _ => s

namespace State

/-! ## Refusal (R515 to R517) -/

/-- One refused access is counted. -/
def refuseAccess (s : State) : State := s.count Reg.idRefused

/-- R516: fields that the owner and debug levels do not write while a billet is held, or while Running. -/
def locked (s : State) (lv : Level) (f : Fld) : Bool :=
  let fab := 0x100000 ≤ f.addr && f.addr < 0x10C000 && (f.addr - 0x100000) % 0x1000 == 0
  lv != .firmware &&
  ((s.billet.isSome && ([0x30000, 0x30014, 0x30018, 0x3001C, 0x30030].contains f.addr || (fab && f.lo == 1))) ||
   (s.life == .running && fab && (f.lo == 0 || f.lo == 4 || f.lo == 9)))

/-- R521: a reset holds the domain of a register that this reset returns to its reset value: those of a port in its FAB
domain, and those that core reset clears in SMITH or the core's ARR domain (notes/assumptions/90). -/
def heldField (s : State) (f : Fld) : Bool :=
  let a := f.addr
  if 0x100000 ≤ a ∧ a < 0x10C000 then !s.domUp (16 + (a - 0x100000) / 0x1000)
  else coreCleared a && !f.same Reg.cadStatusInLock &&
    !s.domUp (if a < 0x100000 then 1
      else if 0x1000000 ≤ a then 4 + (a - 0x1000000) / 0x10000 / 96
      else if 0x310000 ≤ a ∧ a < 0x310400 then 4 + (a - 0x310000) / 0x40 / 8 else 4)

/-! ## Reads -/

/-- The MEMWIN snapshot of a bank (R526). HBM4 and Stock granules are read as a demand read (R29). -/
def takeSnapshot (s : State) (k : Nat) (ecc : List EccRes) : State :=
  let b := s.bank k
  let a := (b.memLo + 2 ^ 32 * b.memHi) / 64 * 64
  let take := fun (t : State) (bad : Bool) (l : List Byte) =>
    t.setBank k { b with memPoison := bad, memRange := false, snap := if bad then [] else l }
  if b.memSpace = 0 ∨ b.memSpace = 1 then
    if a < hearthBytes then take s ((s.hearth b.memSpace).isBad a 64) ((s.hearth b.memSpace).readBytes a 64)
    else s.setBank k { b with memPoison := false, memRange := true, snap := [] }
  else if b.memSpace = 2 ∧ a < hbmBytes then
    let t := s.hbmChecks a 64 ecc
    take t (t.hbmBad a 64) (t.hbm.readBytes a 64)
  else if b.memSpace = 3 then
    let t := s.stockChecks a 64 ecc
    take t (t.stockBad a 64) (t.stock.readBytes a 64)
  else s.setBank k { b with memPoison := false, memRange := true, snap := [] }

/-- What a field reads as (R12, R521). -/
def readField (s : State) (k : Nat) (lv : Level) (f : Fld) : Nat := if s.heldField f then f.rst else s.view k lv f

/-- A permitted read clears an RC field (R12). -/
def clearRc (s : State) (f : Fld) : State := if f.acc = .rc && !s.heldField f then s.put f 0 else s

/-- A read of the _LO word latches the _HI word in the bank, or discards the latch where it is refused (R11). -/
def latchHi (s : State) (k : Nat) (lv : Level) (a : Nat) (ok : Bool) : State :=
  if isLo a then
    let b := s.bank k
    let rest := Assoc.del b.latches (a + 4)
    s.setBank k { b with latches := if ok then Assoc.put rest (a + 4) (s.wordView k lv (a + 4)) else rest }
  else s

/-- Read a word through a bank at a level (R11, R12, R517). -/
def readWord (s : State) (k : Nat) (lv : Level) (a : Nat) (ecc : List EccRes) : State × Nat :=
  if strikeAddr a then (s, s.strikeWord a)
  else if (fieldsAt a).isEmpty then (s.refuseAccess, 0)
  else if (fieldsAt a).any (fun f => decide (lv.rank < f.rd.rank)) then ((s.latchHi k lv a false).refuseAccess, 0)
  else
    let s1 := if a = 0x80 then s.takeSnapshot k ecc else s
    let v := match Assoc.find? (s1.bank k).latches a with
      | some x => x
      | none => ((fieldsAt a).map (fun f => s1.readField k lv f * 2 ^ f.lo)).foldl (· + ·) 0
    (((fieldsAt a).foldl clearRc s1).latchHi k lv a true, v)

/-! ## Writes -/

/-- A FAB port is enabled or disabled (Table 11-8): it trains, or goes off with its faults masked. -/
def writePortEn (s : State) (p v : Nat) : State :=
  if s.get (Reg.fabCtrlEn p) = v then s
  else
    let s1 := s.put (Reg.fabCtrlEn p) v
    if v = 1 then s1.trainStart p else (s1.goDown p).put (Reg.fabStatusState p) 0

/-- A port's MODE (Table 11-8): fabric, or Ethernet on ports 8 to 11; other values are ignored. A port whose mode changes
trains again. -/
def writePortMode (s : State) (p v : Nat) : State :=
  if s.get (Reg.fabCtrlMode p) = v ∨ 1 < v ∨ (v = 1 ∧ p < 8) then s else (s.put (Reg.fabCtrlMode p) v).trainStart p

/-- A write of CAD.CTRL is the operator's act that ends the stand of R53: the master turns on by CAD_IN, or by its own period where
EXTERNAL is 0 or FALLBACK 1 (notes/assumptions/135). -/
def operatorActs (s : State) : State :=
  if s.cad.mStand then
    { s with cad := { s.cad with mStand := false, mExternal := s.flag Reg.cadCtrlExternal && !s.flag Reg.cadCtrlFallback } }
  else s

/-- The effect of a permitted write on one field (R12), with what the field's own chapter adds. A bit of `e` tells that a
hardware event acts on that bit of the field in the same cycle: the event wins, and the write does not clear the bit
(R13). -/
def writeField (s : State) (k : Nat) (f : Fld) (v e : Nat) : State :=
  let on := v % 2 == 1
  let port := (f.addr - 0x100000) / 0x1000
  let bay := (f.addr - 0x600100) / 0x100
  if f.same Reg.idMemwinCtrlSpace then s.setBank k { s.bank k with memSpace := v }
  else if f.same Reg.idMemwinAddrHi then s.setBank k { s.bank k with memHi := v }
  else if f.same Reg.jnlSelHi then s.setBank k { s.bank k with jnlHi := v }
  else if f.same Reg.blmCurSel then s.setBank k { s.bank k with curSel := v }
  else if f.same Reg.netRtIndex then s.setBank k { s.bank k with rtIndex := v }
  else if f.same Reg.fltStatusValid then (if on && e % 2 == 0 then s.after (execFltValidClear [] s) else s)
  else if f.same Reg.fltCtrlPinDrive then (s.put f v).drivePin
  else if f.same Reg.fltCtrlUFatal then (if s.life = .running then s else s.put f v)
  else if f.addr = 0x30000 then (s.put f v).operatorActs
  else if f.same Reg.rstWdtKick then (if on then s.after (execWdtKick s) else s)
  else if f.same Reg.cruScrubStart then (if on then s.after (execScrubStart s) else s)
  else if f.same Reg.kvpAuditStart then (if on then s.after (execKvAuditStart s) else s)
  else if f.same Reg.tmpTrapStatusValid then (if on then s.after (execTmpTrapClear s (e % 2 == 1)) else s)
  else if f.addr < 0x100000 ∨ 0x1000000 ≤ f.addr ∧ f.addr % 0x10000 ≠ 0x200 then (match f.acc with
    | .rw => s.put f v
    | .w1c => s.put f (s.get f - ((s.get f &&& v) - (s.get f &&& v &&& e)))
    | .w1s => s.put f (s.get f ||| v)
    | _ => s)
  else if 0x1000000 ≤ f.addr then (if on then s.after (execTrapClear ((f.addr - 0x1000000) / 0x10000) s (e % 2 == 1)) else s)
  else if f.addr < 0x10C000 then (
    if f.lo = 0 then s.writePortEn port v
    else if f.lo = 1 then s.writePortMode port v
    else if f.lo = 10 then (if on then s.after (execFabRetrain port s) else s)
    else s.put f v)
  else if 0x700000 ≤ f.addr ∧ f.lo = 8 then s.put f (max 1 v)
  else if 0x600100 ≤ f.addr ∧ f.addr < 0x700000 then (
    if !on then s else if f.lo = 0 then s.after (execEject bay s) else s.after (execWipe bay s))
  else s.put f v

/-- A held _LO write takes effect with its _HI write (R11). -/
def writeHeld (s : State) (k a : Nat) : State :=
  let b := s.bank k
  match Assoc.find? b.held a with
  | none => s
  | some v =>
    let c := { b with held := Assoc.del b.held a }
    if a = 0x48 then s.setBank k { c with memLo := v }
    else if a = 0x50018 then s.setBank k { c with jnlLo := v }
    else (s.setBank k c).put Reg.ingKeepGenLo v

/-- A field that a write at a level reaches (R516, R517, R521). -/
def reaches (s : State) (lv : Level) (f : Fld) : Bool :=
  f.writable && decide (f.wr.rank ≤ lv.rank) && !s.locked lv f && !s.heldField f

/-- A write is refused in part or whole (R517): a level too low, a locked field, or a 1 written to a reserved bit. -/
def refusesWrite (s : State) (lv : Level) (a v : Nat) : Bool :=
  (fieldsAt a).any (fun f => decide (lv.rank < f.wr.rank) || (f.writable && s.locked lv f)) ||
  (List.range 32).any (fun i => bit v i && !(fieldsAt a).any (fun f => decide (f.lo ≤ i) && decide (i < f.lo + f.w)))

/-- Write a word through a bank at a level (R11, R12, R517). `e` are the bits of the word on which a hardware event acts in
the same cycle (R13). -/
def writeWord (s : State) (k : Nat) (lv : Level) (a v e : Nat) : State :=
  if strikeAddr a then s
  else if (fieldsAt a).isEmpty then s.refuseAccess
  else
    let s1 := if s.refusesWrite lv a v then s.refuseAccess else s
    let l := (fieldsAt a).filter (fun f => s.reaches lv f)
    if l.isEmpty then s1
    else if isRwLo a then s1.setBank k { s1.bank k with held := Assoc.put (s1.bank k).held (a + 4) (v % 2 ^ 32) }
    else if 0x28000 ≤ a ∧ a < 0x2C000 then s1.writeSrcCfg ((a - 0x28000) / 4) (bit v 0) (bit v 1) (bits v 8 8)
    else
      let s2 := if isRwLo (a - 4) then s1.writeHeld k a else s1
      l.foldl (fun t f => t.writeField k f (bits v f.lo f.w) (bits e f.lo f.w)) s2

/-! ## Several words (R447, R520) -/

/-- Read words in ascending address order. -/
def readWords (s : State) (k : Nat) (lv : Level) (ecc : List EccRes) (a : Nat) : Nat → State × List Nat
  | 0 => (s, [])
  | n + 1 =>
    let r := s.readWord k lv a ecc
    let q := r.1.readWords k lv ecc (a + 4) n
    (q.1, r.2 :: q.2)

/-- Write words in ascending address order. -/
def writeWords (s : State) (k : Nat) (lv : Level) (a : Nat) : List Nat → State
  | [] => s
  | v :: r => (s.writeWord k lv a v 0).writeWords k lv (a + 4) r

/-- The level of a session's accesses (R447). -/
def sessionLevel (s : State) (level : Nat) : Level := if 2 ≤ level ∧ s.flag Reg.cruStatusDebug then .debug else .owner

/-- A range that is misaligned or crosses the end of the space (R447, R520). -/
def badRange (a words : Nat) : Bool := a % 4 != 0 || decide (2 ^ 32 < a + 4 * words)

/-! ## Paths (R514) -/

/-- The level at which a path, by bank number, may access the space: firmware while Smith runs, JTAG after the unlock, a session
that is open. -/
def pathLevel (s : State) (path : Nat) (write : Bool) : Option Level :=
  if !s.domUp 2 then none
  else if path = 0 then (if s.smithUp && s.life != .quench then some .firmware else none)
  else if path = 1 then (if s.domUp 3 && s.flag Reg.cruStatusDebug then some .debug else none)
  else match s.mbx.sessions.find? (fun x => x.num + 2 == path) with
    | some x =>
      if x.level < 2 ∧ write then none
      else if x.level = 0 ∧ s.life ≠ .blank then none else some (s.sessionLevel x.level)
    | none => none

end State

/-- An access on a path, where the path may make it. -/
def onPath (s : State) (path : Nat) (write : Bool) (f : Level → State) : Host.Outcome State Fault Refusal :=
  match s.pathLevel path write with
  | some lv => .next (f lv)
  | none => void s

/-- CRS_READ: the words, in ascending address order (R447). -/
def execCrsRead (slot : Nat) (ecc : List EccRes) (s : State) : Host.Outcome State Fault Refusal :=
  withSlot s slot 0x0304 (fun x =>
    let a := fieldAt x.arg 0 4
    let n := fieldAt x.arg 4 2
    if State.badRange a n then .next (s.finish x rcBadArgs [])
    else
      let r := s.readWords (2 + x.session) (s.sessionLevel x.level) ecc a n
      .next (r.1.finish x rcOk (r.2.flatMap (leBytes 4))))

/-- CRS_WRITE: the words, in ascending address order; OK in every case (R447). -/
def execCrsWrite (slot : Nat) (s : State) : Host.Outcome State Fault Refusal :=
  withSlot s slot 0x0305 (fun x =>
    let a := fieldAt x.arg 0 4
    let n := fieldAt x.arg 4 2
    if State.badRange a n then .next (s.finish x rcBadArgs [])
    else
      let l := (List.range n).map (fun i => fieldAt x.arg (8 + 4 * i) 4)
      .next ((s.writeWords (2 + x.session) (s.sessionLevel x.level) a l).finish x rcOk []))

/-- MEMWIN_SNAPSHOT: a read of MEMWIN.DATA[0] (R526). -/
def execMemwinSnapshot (path : Nat) (ecc : List EccRes) (s : State) : Host.Outcome State Fault Refusal :=
  onPath s path false (fun lv => (s.readWord path lv 0x80 ecc).1)

/-- LO_READ_LATCH: a read of a _LO register (R11). -/
def execLoReadLatch (path address : Nat) (s : State) : Host.Outcome State Fault Refusal :=
  if isLo address then onPath s path false (fun lv => (s.readWord path lv address []).1) else void s

/-- RC_READ: a read of a register with RC fields (R12). -/
def execRcRead (path address : Nat) (s : State) : Host.Outcome State Fault Refusal :=
  if (fieldsAt address).any (fun f => f.acc == .rc) then onPath s path false (fun lv => (s.readWord path lv address []).1)
  else void s

/-- REGISTER_WRITE: a write of one word (R11, R12, R517), with the bits of the word on which a hardware event acts in the
same cycle (R13). -/
def execRegisterWrite (path address data : Nat) (s : State) (events : Nat := 0) : Host.Outcome State Fault Refusal :=
  onPath s path true (fun lv => s.writeWord path lv address data events)

/-! ## The TAP (R508, R522) -/

namespace State

/-- The TAP selects an instruction. -/
def selectTap (s : State) (i : TapInstr) : State := { s with sys := { s.sys with tap := { s.sys.tap with instr := i } } }

/-- BYPASS: the one-bit register, which captures 0. -/
def tapBypass (s : State) : State := (s.selectTap .bypass).emit (.tdo 1 0)

/-- EXTEST and CLAMP are taken as BYPASS in Running and Quench (R508). -/
def scanBarred (s : State) : Bool := s.life == .running || s.life == .quench

/-- The 66 bits that CRSACC captures (R522). -/
def crsCapture (s : State) : Nat :=
  let last := s.sys.tap.last.getD (false, 0, 0)
  if !s.domUp 2 then 2 ^ 65 + b2n last.1 * 2 ^ 64 + 0xFFFFFFFF * 2 ^ 32
  else if s.sys.tap.last.isNone then 0
  else 2 ^ 65 + b2n last.1 * 2 ^ 64 + last.2.1 % 2 ^ 32 * 2 ^ 32 + last.2.2 % 2 ^ 32

/-- The last access of CRSACC. -/
def noteAccess (s : State) (write : Bool) (a v : Nat) : State :=
  { s with sys := { s.sys with tap := { s.sys.tap with instr := .crsacc, last := some (write, a, v) } } }

end State

/-- Cells of the boundary-scan register: 22 service pins and the two presence lines (R508, notes/assumptions/88). -/
def scanCells : Nat := 24

/-- CRSACC: one scan shifts out the capture of the last access and starts the next one (R522). -/
def execCrsacc (data address : Nat) (write : Bool) (ecc : List EccRes) (s : State) : Host.Outcome State Fault Refusal :=
  if !s.domUp 3 then void s
  else if !s.flag Reg.cruStatusDebug then .next s.tapBypass
  else
    let a := address % 2 ^ 32
    let d := data % 2 ^ 32
    let s1 := s.emit (.tdo 66 s.crsCapture)
    if !s.domUp 2 then .next (s1.noteAccess write 0xFFFFFFFF 0)
    else if write then .next ((s1.writeWord 1 .debug a d 0).noteAccess true a d)
    else
      let r := s1.readWord 1 .debug a ecc
      .next (r.1.noteAccess false a r.2)

/-- BYPASS (R508). -/
def execBypass (s : State) : Host.Outcome State Fault Refusal := if s.domUp 3 then .next s.tapBypass else void s

/-- IDCODE (R525). -/
def execIdcode (s : State) : Host.Outcome State Fault Refusal :=
  if s.domUp 3 then .next ((s.selectTap .idcode).emit (.tdo 32 Config.idcode)) else void s

/-- SAMPLE/PRELOAD: the pins are sampled, and the boundary-scan register loaded (R508). -/
def execSamplePreload (pins preload : Nat) (s : State) : Host.Outcome State Fault Refusal :=
  if s.domUp 3 then
    let s1 := s.selectTap .samplePreload
    .next ({ s1 with sys := { s1.sys with tap := { s1.sys.tap with scan := preload % 2 ^ scanCells } } }.emit
      (.tdo scanCells (pins % 2 ^ scanCells)))
  else void s

/-- EXTEST: the boundary-scan register drives the pins (R508). -/
def execExtest (s : State) : Host.Outcome State Fault Refusal :=
  if !s.domUp 3 then void s
  else if s.scanBarred then .next s.tapBypass
  else .next ((s.selectTap .extest).emit (.scanPins s.sys.tap.scan))

/-- CLAMP: the pins are held by the boundary-scan register, with the bypass register selected (R508). -/
def execClamp (s : State) : Host.Outcome State Fault Refusal :=
  if !s.domUp 3 then void s
  else if s.scanBarred then .next s.tapBypass
  else .next (((s.selectTap .clamp).emit (.scanPins s.sys.tap.scan)).emit (.tdo 1 0))

/-- TRST_N low: Test-Logic-Reset, in which IDCODE is selected (R508). -/
def execTapReset (s : State) : Host.Outcome State Fault Refusal := if s.domUp 3 then .next (s.selectTap .idcode) else void s

end Sys2Proof.Machine
end

