-- ==== Sys2Proof/Machine/Mailbox.lean ====
section
/-!
DEFINITION. Machine/Mailbox.lean: the frames of the Hjeliz mailbox (chapter 16): sessions (R427 to R431), arguments and their
acceptance (R432 to R435), and result slots (R436 to R438). -/

namespace Sys2Proof.Machine

/-- SLOT for none. -/
def noSlot : Nat := 0xFFFF

/-- JSEQ for none. -/
def noSeq : Nat := 2 ^ 64 - 1

/-! ## Arguments -/

/-- Lay bytes over the parts of an argument held, which stay disjoint and in order. -/
def overlay (parts : List (Nat × List Byte)) (off : Nat) (l : List Byte) : List (Nat × List Byte) :=
  if l.isEmpty then parts
  else
    let cut := parts.flatMap (fun (p : Nat × List Byte) =>
      (if p.1 < off then [(p.1, p.2.take (off - p.1))] else []) ++
      (if off + l.length < p.1 + p.2.length then [(max p.1 (off + l.length), p.2.drop (off + l.length - p.1))] else []))
    cut.filter (fun p => decide (p.1 < off)) ++ [(off, l)] ++ cut.filter (fun p => !decide (p.1 < off))

/-- Bytes of an argument held. -/
def partBytes (parts : List (Nat × List Byte)) : Nat := (parts.map (fun p => p.2.length)).foldl (· + ·) 0

/-- The largest argument that the command buffer holds (R434). -/
def bufferBytes : Nat := 8388608

/-- The states that accept larger arguments (R434). -/
def takesLarge (st : Life) : Bool := st == .blank || st == .claimed || st == .recovery

/-- The length and the fields of an argument by Table 16-5 and R445. -/
def argsOk (op : Nat) (l : List Byte) : Bool :=
  let n := l.length
  match op with
  | 0x0002 => n == 32
  | 0x0101 => n == 8656
  | 0x0102 => true
  | 0x0103 => decide (8 ≤ n) && fieldAt l 6 2 == 0 && n == 8 + fieldAt l 0 4 + 8368 * fieldAt l 4 2
  | 0x0108 => n == 4
  | 0x0109 => n == 1 && (fieldAt l 0 1 == 1 || fieldAt l 0 1 == 2)
  | 0x0201 => n == 8
  | 0x0202 => n == 4
  | 0x0203 => decide (12 ≤ n) && decide (fieldAt l 6 2 ≤ 256) && (fieldAt l 8 4 == 0 || fieldAt l 8 4 == 4194304) &&
      n == 12 + 16 * fieldAt l 6 2 + fieldAt l 8 4
  | 0x0301 => n == 4 && decide (fieldAt l 2 2 ≤ 1024) && decide (fieldAt l 0 2 + fieldAt l 2 2 ≤ 4096)
  | 0x0302 => n == 12 && decide (fieldAt l 8 2 ≤ 1024) && decide (fieldAt l 10 1 ≤ 1)
  | 0x0303 => n == 1
  | 0x0304 => n == 6 && decide (fieldAt l 4 2 ≤ 2048)
  | 0x0305 => decide (8 ≤ n) && fieldAt l 6 2 == 0 && n == 8 + 4 * fieldAt l 4 2
  | 0x0401 => decide (12337 ≤ n) && decide (n ≤ 16773168) && decide (1 ≤ fieldAt l 5 1) && decide (fieldAt l 5 1 ≤ 4)
  | 0x0402 => n == 1 && decide (fieldAt l 0 1 ≤ 15)
  | 0x0403 => n == 8496
  | 0x0404 => n == 8304
  | 0x0405 => n == 8304
  | 0x0406 => n == 9440
  | _ => n == 0

namespace State

/-! ## Sessions -/

end State

/-- The 48 bytes of a frame's header (Table 16-1), for a payload of `len` bytes. -/
def HjHead.bytes (h : HjHead) (len : Nat) : List Byte :=
  leBytes 2 0x4A48 ++ leBytes 1 1 ++ leBytes 1 h.type ++ leBytes 4 h.session ++ leBytes 8 h.nonce ++ leBytes 4 h.tag ++
  leBytes 2 h.opcode ++ leBytes 2 h.slot ++ leBytes 4 h.offset ++ leBytes 4 h.total ++ leBytes 2 len ++ leBytes 2 h.status ++
  leBytes 2 h.reads ++ leBytes 2 0 ++ leBytes 8 h.jseq

/-- The tag of a frame to a session's caller: the nonce is the direction's SALT and NONCE, and the header is the additional data
(R428). -/
def sealTag (x : Session) (h : HjHead) (payload : List Byte) : Nat :=
  Config.gcmTag ((x.keys.drop 36).take 32) ((x.keys.drop 68).take 4 ++ leBytes 8 h.nonce) (HjHead.bytes h payload.length) payload

/-- The keys of a session from a KEM's payload: the ciphertext of 1,088 bytes, then 32 random bytes (R428). -/
def sessionKeys (x : Session) (payload : List Byte) : List Byte :=
  Config.hkdf (Config.kemOpen x.kemEk (payload.take 1088)) (Config.ascii "TRZ-2080 hjeliz" ++ leBytes 8 Config.serialDigest ++
    leBytes 32 x.hello ++ (payload.drop 1088).take 32 ++ leBytes 4 x.sid) 72

namespace State

/-- The service controller runs. -/
def svcUp (s : State) : Bool := s.domUp 0

/-- The session of a SESSION. -/
def session? (s : State) (sid : Nat) : Option Session := s.mbx.sessions.find? (fun x => x.sid == sid)

/-- Change a session. -/
def setSession (s : State) (x : Session) : State :=
  { s with mbx := { s.mbx with sessions := s.mbx.sessions.map (fun y => if y.num = x.num then x else y) } }

/-- Send a sealed frame to a session's caller, with its tag: the device's NONCE rises by one (R427, R428). -/
def sendSealed (s : State) (x : Session) (h : HjHead) (payload : List Byte) : State :=
  match s.session? x.sid with
  | some y =>
    let g := { h with session := y.sid, nonce := y.nonceOut }
    (s.setSession { y with nonceOut := y.nonceOut + 1 }).emit (.hjeliz g payload (sealTag y g payload))
  | none => s

/-- A REPLY (Table 16-2). -/
def reply (s : State) (x : Session) (tag opcode slot status jseq : Nat) : State :=
  s.sendSealed x { type := 6, session := 0, nonce := 0, tag := tag, opcode := opcode, slot := slot, offset := 0, total := 0
                   status := status, reads := 0, jseq := jseq } []

/-- A command is refused in a REPLY, and counted (R432, Table 16-10). -/
def refuseCommand (s : State) (x : Session) (tag opcode status jseq : Nat) : State :=
  (s.count Reg.mbxRefused).reply x tag opcode noSlot status jseq

/-- A session closes (R431): its argument goes, its bank returns to its reset values (R518), and its level-0 slots are freed,
those still PENDING once READY (R437). -/
def closeSession (s : State) (x : Session) : State :=
  let mine := fun (y : Slot) => y.level == 0 && y.session == x.num
  { s with
    mbx := { s.mbx with
      sessions := s.mbx.sessions.filter (fun y => y.num != x.num)
      slots := (s.mbx.slots.filter (fun y => !(mine y && y.ready))).map (fun y => if mine y then { y with closed := true } else y) }
    sys := { s.sys with banks := Assoc.del s.sys.banks (2 + x.num) } }

/-- The device closes a session, with a sealed CLOSE frame where the session has its keys (R429, R431). -/
def dropSession (s : State) (x : Session) : State :=
  (if x.keyed then s.sendSealed x { type := 11, session := 0, nonce := 0, tag := 0, opcode := 0, slot := noSlot, offset := 0, total := 0
                                    status := rcOk, reads := 0, jseq := noSeq } [] else s).closeSession x

/-- A frame is discarded and counted (R427). -/
def discardFrame (s : State) : State := s.count Reg.mbxSealFail

end State

/-- A sealed frame is taken (R427): its session, with its NONCE noted. -/
def takeFrame (s : State) (f : HjFrame) (k : State → Session → Host.Outcome State Fault Refusal) :
    Host.Outcome State Fault Refusal :=
  if !s.svcUp then void s
  else match s.session? f.session with
    | none => .next s.discardFrame
    | some x =>
      let fresh := match x.nonceIn with
        | some n => decide (n < f.nonce)
        | none => true
      if f.good && x.keyed && f.tagOk && fresh then
        let y := { x with nonceIn := some f.nonce }
        k (s.setSession y) y
      else .next s.discardFrame

/-- HELLO: a session opens, and the device answers with a REPORT over the HELLO's bytes with a fresh KEM_EK (R428). -/
def execHello (frame : HjFrame) (bytes : Nat) (s : State) : Host.Outcome State Fault Refusal :=
  if !s.svcUp then void s
  else if !frame.good || frame.session != 0 then .next s.discardFrame
  else if !s.smithUp || !s.sys.booted || s.life == .quench then void s
  else match (List.range 8).find? (fun n => !(s.mbx.sessions.any (fun x => x.num == n))) with
    | none => .next (s.count Reg.mbxSessionRefused)
    | some n =>
      let ek := s.free
      let sid := s.mbx.nextSid
      let x : Session := { num := n, sid := sid, hello := bytes, kemEk := ek, keyed := false, keys := [], level := 0, who := 0, nonceIn := none
                           nonceOut := 0, authed := false, commanded := false, upload := none }
      let s1 := { s.draw with
        mbx := { s.mbx with sessions := s.mbx.sessions ++ [x], nextSid := sid + 1 }, cru := { s.cru with claimNonce := some bytes } }
      .next (s1.emit (.hjReport sid (s1.report bytes ek)))

/-- KEM: the session's keys are derived (R428). -/
def execKem (frame : HjFrame) (s : State) : Host.Outcome State Fault Refusal :=
  if !s.svcUp then void s
  else match s.session? frame.session with
    | some x => if frame.good && !x.keyed then .next (s.setSession { x with keyed := true, keys := sessionKeys x frame.payload }) else .next s.discardFrame
    | none => .next s.discardFrame

/-- A credential is accepted (R429). -/
def credOk (s : State) (x : Session) (c : Cred) : Bool :=
  !x.authed && !x.commanded && s.life != .blank && s.life != .recovery && c.sigOk && decide (1 ≤ c.level) && decide (c.level ≤ 3) &&
  some c.owner == s.cru.owner &&
  (c.level == 3 || (c.grantOwner == c.owner && c.grantLevel == c.level && decide (s.get Reg.mbxGrantMin ≤ c.serial)))

/-- AUTH: the session takes its level and ID (R429, R430), or is closed. -/
def execAuth (frame : HjFrame) (cred : Cred) (s : State) : Host.Outcome State Fault Refusal :=
  takeFrame s frame (fun t x =>
    if credOk t x cred then
      .next (t.setSession { x with authed := true, level := cred.level, who := if cred.level = 3 then cred.owner else cred.who })
    else .next ((t.count Reg.mbxAuthFail).dropSession x))

/-! ## Commands -/

namespace State

/-- A COMMAND of this ID and TAG was given before (R433): a slot held, or one of the newest 4,096 journal entries. -/
def duplicateOf (s : State) (x : Session) (tag : Nat) : Option (Slot ⊕ JEntry) :=
  match s.mbx.slots.find? (fun y => y.who == x.who && y.tag == tag) with
  | some y => some (.inl y)
  | none =>
    ((s.jnl.entries.drop (s.jnl.entries.length - 4096)).find? (fun e =>
      e.opcode != 0 && e.who == x.who % 2 ^ 64 && e.tag == tag)).map (fun e => .inr e)

/-- A duplicate is answered with its slot's REPLY again, or with DUPLICATE (R433). -/
def answerDuplicate (s : State) (x : Session) (tag opcode : Nat) : Slot ⊕ JEntry → State
  | .inl y => (s.count Reg.mbxDuplicate).reply x y.tag y.opcode y.num rcOk noSeq
  | .inr e => (s.count Reg.mbxDuplicate).refuseCommand x tag opcode rcDuplicate e.seq

/-- The whole argument has come (R432): the command is accepted into the lowest free slot, or refused. -/
def landCommand (s : State) (x : Session) (opcode tag : Nat) (arg : List Byte) : State :=
  match s.duplicateOf x tag with
  | some d => s.answerDuplicate x tag opcode d
  | none => match cmdInfo opcode with
    | none => s.refuseCommand x tag opcode rcBadOpcode noSeq
    | some c =>
      if !argsOk opcode arg then s.refuseCommand x tag opcode rcBadArgs noSeq
      else if x.level < cmdLevel c s.life then s.refuseCommand x tag opcode rcLevel noSeq
      else match (List.range 64).find? (fun n => (s.slot? n).isNone) with
        | none => s.refuseCommand x tag opcode rcSlotsFull noSeq
        | some n =>
          let y : Slot := { num := n, session := x.num, level := x.level, who := x.who, hello := x.hello, tag := tag, opcode := opcode
                            arg := arg, ready := false, code := 0, result := [], reads := 0, jseq := none, closed := false }
          let s1 := { s with mbx := { s.mbx with
            slots := s.mbx.slots ++ [y]
            queue := if c.journalled && !aheadOf opcode then s.mbx.queue ++ [n] else s.mbx.queue } }
          (s1.count Reg.mbxCmds).reply x tag opcode n rcOk noSeq

/-- R441 at the frame that holds argument bytes 0 to 31: a `LOAD_BILLET` of another job erases the seed and starts the scrub
that R411 calls for. -/
def headerSeen (s : State) (x : Session) (opcode : Nat) (l : List Byte) : State :=
  if opcode = 0x0103 ∧ s.life = .claimed ∧ 2 ≤ x.level then s.leaveJob (fieldAt l 16 16) else s

/-- A scrub that a billet's header calls for runs (R434, R441). -/
def headerScrub (s : State) : Bool := s.flag Reg.cruScrubBusy && s.cru.scrubFor == 3

/-- A frame of an argument that its fields agree with lands, or is discarded without a reply (R434). -/
def landPart (s : State) (x : Session) (u : Upload) (off : Nat) (l : List Byte) : State :=
  let head := off == 0 && decide (min 32 u.total ≤ l.length)
  let s1 := if head && !u.head then s.headerSeen x u.opcode l else s
  let v := { u with head := u.head || head }
  let large := decide (bufferBytes < u.total)
  if large && (!v.head || s1.headerScrub) then s1.setSession { x with upload := if v.head then some v else none }
  else
    let s2 := if large then s1.writeStock off l else s1
    let parts := overlay v.parts off l
    if partBytes parts = u.total then
      (s2.setSession { x with upload := none }).landCommand x u.opcode u.tag (parts.flatMap (fun p => p.2))
    else s2.setSession { x with upload := some { v with parts := parts } }

end State

/-- COMMAND: argument bytes arrive (R432 to R434). -/
def execCommand (frame : HjFrame) (s : State) : Host.Outcome State Fault Refusal :=
  takeFrame s frame (fun t y =>
    let x := { y with commanded := true }
    let s1 := t.setSession x
    let beyond := decide (frame.total < frame.offset + frame.payload.length) ||
      (decide (bufferBytes < frame.total) && !takesLarge s1.life)
    let bad := fun (u : State) => u.refuseCommand x frame.tag frame.opcode rcBadArgs noSeq
    match x.upload with
    | some u =>
      if u.opcode ≠ frame.opcode ∨ u.tag ≠ frame.tag then .next (bad s1)
      else if u.total ≠ frame.total ∨ beyond then .next (bad (s1.setSession { x with upload := none }))
      else .next (s1.landPart x u frame.offset frame.payload)
    | none =>
      match s1.duplicateOf x frame.tag with
      | some d => .next (s1.answerDuplicate x frame.tag frame.opcode d)
      | none =>
        if beyond then .next (bad s1)
        else .next (s1.landPart x { opcode := frame.opcode, tag := frame.tag, total := frame.total, head := false, parts := [] }
          frame.offset frame.payload))

/-! ## Slots -/

/-- The slot that a caller may read and free (R437): its own ID's, or at level 3 any. -/
def callerSlot (s : State) (x : Session) (n : Nat) : Option Slot :=
  match s.slot? n with
  | some y => if x.level = 3 ∨ y.who = x.who then some y else none
  | none => none

/-- READ: the result's bytes, zeros while the command is PENDING, or NO_SLOT (R437, Table 16-3). -/
def execRead (frame : HjFrame) (s : State) : Host.Outcome State Fault Refusal :=
  takeFrame s frame (fun t x =>
    let h : HjHead := { type := 8, session := 0, nonce := 0, tag := frame.tag, opcode := 0, slot := frame.slot, offset := frame.offset
                        total := 0, status := rcNoSlot, reads := 0, jseq := noSeq }
    match callerSlot t x frame.slot with
    | none => .next (t.sendSealed x h [])
    | some y =>
      let h1 := { h with tag := y.tag, opcode := y.opcode, status := rcNotReady }
      if y.ready then
        let z := if frame.offset = 0 then { y with reads := min (y.reads + 1) 65535 } else y
        .next ((t.setSlot z).sendSealed x { h1 with total := y.result.length, status := y.code, reads := z.reads, jseq := y.jseq.getD noSeq }
          ((y.result.drop frame.offset).take (min frame.len 8192)))
      else .next (t.sendSealed x h1 (List.replicate (min frame.len 8192) 0#8)))

/-- ACK: a READY slot whose TAG it names is freed (R437). -/
def execAck (frame : HjFrame) (s : State) : Host.Outcome State Fault Refusal :=
  takeFrame s frame (fun t x =>
    let answer := fun (u : State) (status : Nat) => u.reply x frame.tag 0 frame.slot status noSeq
    match callerSlot t x frame.slot with
    | none => .next (answer t rcNoSlot)
    | some y =>
      if y.tag ≠ frame.tag then .next (answer t rcNoSlot)
      else if y.ready then .next (answer (t.freeSlot y.num) rcOk)
      else .next (answer t rcNotReady))

/-- A record of LIST (R438). -/
def slotRecord (y : Slot) : List Byte :=
  leBytes 2 y.num ++ leBytes 1 (if y.ready then 2 else 1) ++ leBytes 1 0 ++ leBytes 4 y.tag ++ leBytes 2 y.opcode ++
  leBytes 2 y.reads ++ leBytes 2 (if y.ready then y.code else 0) ++ leBytes 2 0

/-- LIST: one record for each slot of the caller's ID, or of any at level 3, by slot number (R438). -/
def execList (frame : HjFrame) (s : State) : Host.Outcome State Fault Refusal :=
  takeFrame s frame (fun t x =>
    let l := ((List.range 64).filterMap (callerSlot t x)).flatMap slotRecord
    .next (t.sendSealed x { type := 8, session := 0, nonce := 0, tag := frame.tag, opcode := 0, slot := noSlot, offset := 0
                            total := l.length, status := rcOk, reads := 0, jseq := noSeq } l))

/-- CLOSE: the session ends, without an answer (R431). -/
def execClose (frame : HjFrame) (s : State) : Host.Outcome State Fault Refusal :=
  takeFrame s frame (fun t x => .next (t.closeSession x))

/-- PING: the session stays open, and a REPLY answers (R431, Table 16-2). -/
def execPing (frame : HjFrame) (s : State) : Host.Outcome State Fault Refusal :=
  takeFrame s frame (fun t x => .next (t.reply x frame.tag 0 noSlot rcOk noSeq))

/-- SESSION_IDLE_TIMEOUT: no valid frame for IDLE_S (R431). -/
def execSessionIdleTimeout (session : Nat) (s : State) : Host.Outcome State Fault Refusal :=
  match s.mbx.sessions.find? (fun x => x.num == session) with
  | some x => if s.svcUp then .next ((s.count Reg.mbxTimeouts).dropSession x) else void s
  | none => void s

/-- SERVICE_ICMPV6: a Neighbor Solicitation (135) or an Echo Request (128) is answered; every other frame is dropped (R425). -/
def execServiceIcmpv6 (kind : Nat) (s : State) : Host.Outcome State Fault Refusal :=
  if s.svcUp && (kind == 135 || kind == 128) then .next (s.emit (.icmpv6 kind)) else void s

end Sys2Proof.Machine
end

