-- ==== Sys2Proof/Machine/Service.lean ====
section
/-!
DEFINITION. Machine/Service.lean: the service side (chapter 19): the Summary channel (R502), the SMBus target (R505, R506), and
the patrol reader of the HBM stacks (R30). -/

namespace Sys2Proof.Machine

/-- The grade of a sensor's reading: 0 below its warning threshold, 1 from there, 2 from its trip threshold (R37). -/
def grade (sensor t : Nat) : Nat := if t = 255 ∨ t < warnAt sensor then 0 else if t < tripAt sensor then 1 else 2

/-- Granules of one HBM4 stack (R17, R30). -/
def stackGranules : Nat := stackBytes / 64

namespace State

/-- The readings of a Summary update become the sensors' readings. One that rises to a threshold waits for its own command
(notes/assumptions/92). -/
def noteTemps (s : State) (l : List Nat) : State :=
  (l.take 14).zipIdx.foldl (fun t (v, k) => if grade k (v % 256) ≤ grade k (t.sys.temps.getD k 255) then t.setTemp k v else t) s

/-- The Summary of the device's state with the measured input (Tables 19-6 and 19-9). -/
def summarize (s : State) (vin iin pin : Nat) (temps : List Nat) : Summary :=
  { state := s.life.code, vin := vin, iin := iin, pin := pin
    temps := (List.range 14).map (fun k => temps.getD k 255 % 256)
    flt := s.wordView 0 .firmware 0x20004 % 256, first := s.get64 Reg.fltFirstLo Reg.fltFirstHi
    firstAngle := s.get64 Reg.fltFirstAngleLo Reg.fltFirstAngleHi, cause := s.causeWord, smith := s.get (Reg.cruVersion 1)
    angle := s.cad.angle, attempt := s.cad.attempt
    totals := [s.get Reg.fltTotalC, s.get Reg.fltTotalU, s.get Reg.fltTotalF] }

/-- The service controller answers on SMBus once SVC has left reset (R505). -/
def smbusUp (s : State) : Bool := s.sys.rails && s.domUp 0

/-- An SMBus read of `n` bytes (R506): from the last Summary update, all ones before the first. -/
def smbusRead (s : State) (code n : Nat) (f : Summary → List Byte) : Host.Outcome State Fault Refusal :=
  if !s.smbusUp then void s
  else .next (s.emit (.smbus code (match s.sys.summary with
    | some x => f x
    | none => List.replicate n 255#8)))

end State

/-- SUMMARY_UPDATE: the service side takes the module side's values, and drives FAULT_OUT_N and LFLT_OUT (R502, R469, R475).
While SMITH or COLL is held, the values stand (R506). -/
def execSummaryUpdate (vin iin pin : Nat) (temps : List Nat) (s : State) : Host.Outcome State Fault Refusal :=
  if !s.smbusUp || !s.domUp 1 || !s.domUp 2 then void s
  else
    let s1 := s.noteTemps temps
    .next { s1 with sys := { s1.sys with
      summary := some (s1.summarize vin iin pin temps)
      pinFault := s1.sys.faultLow
      pinLegacy := if s1.flag Reg.fltLegacyEn then some (s1.flag Reg.fltLegacyOut) else none } }

/-- STATE (0x01): in Recovery and Quench 4 or 5 (R506). -/
def execState (s : State) : Host.Outcome State Fault Refusal :=
  s.smbusRead 0x01 1 (fun x => leBytes 1 (if s.life = .recovery ∨ s.life = .quench then s.life.code else x.state))

/-- VIN (0x02), in units of 10 mV. -/
def execVin (s : State) : Host.Outcome State Fault Refusal := s.smbusRead 0x02 2 (fun x => leBytes 2 x.vin)

/-- IIN (0x03), in units of 10 mA. -/
def execIin (s : State) : Host.Outcome State Fault Refusal := s.smbusRead 0x03 2 (fun x => leBytes 2 x.iin)

/-- PIN (0x04), in W. -/
def execPin (s : State) : Host.Outcome State Fault Refusal := s.smbusRead 0x04 2 (fun x => leBytes 2 x.pin)

/-- TEMPS (0x05): the sensors of sources 0x2C0 to 0x2CD. -/
def execTemps (s : State) : Host.Outcome State Fault Refusal := s.smbusRead 0x05 14 (fun x => x.temps.flatMap (leBytes 1))

/-- FAULT (0x06): FLT.STATUS, three zero bytes and the FIRST message. -/
def execFault (s : State) : Host.Outcome State Fault Refusal :=
  s.smbusRead 0x06 20 (fun x => leBytes 4 x.flt ++ leBytes 8 x.first ++ leBytes 8 x.firstAngle)

/-- CAUSE (0x07): RST.CAUSE. -/
def execCause (s : State) : Host.Outcome State Fault Refusal := s.smbusRead 0x07 4 (fun x => leBytes 4 x.cause)

/-- IDENT (0x08): SERIAL_DIGEST, STEPPING and the VERSION of the running Smith image. -/
def execIdent (s : State) : Host.Outcome State Fault Refusal :=
  s.smbusRead 0x08 16 (fun x => leBytes 8 Config.serialDigest ++ leBytes 4 Config.stepping ++ leBytes 4 x.smith)

/-- ANGLE (0x09): the angle and ATTEMPT. -/
def execAngle (s : State) : Host.Outcome State Fault Refusal :=
  s.smbusRead 0x09 8 (fun x => leBytes 6 x.angle ++ leBytes 2 x.attempt)

/-- TOTALS (0x0A): the class totals, not cleared. -/
def execTotals (s : State) : Host.Outcome State Fault Refusal := s.smbusRead 0x0A 12 (fun x => x.totals.flatMap (leBytes 4))

/-- SMBUS_UNDEFINED_CODE: another code, or a write with data, is NACKed and discarded (R506). -/
def execSmbusUndefinedCode (code : Nat) (write : Bool) (s : State) : Host.Outcome State Fault Refusal :=
  if !s.smbusUp || (decide (1 ≤ code) && decide (code ≤ 10) && !write) then void s else .next (s.emit (.smbusNack (code % 256)))

/-- SMBUS_BUS_RELEASE: the device releases SMB_CLK and SMB_DAT (R505). -/
def execSmbusBusRelease (s : State) : Host.Outcome State Fault Refusal := if s.smbusUp then .next (s.emit .smbusFree) else void s

/-- Granules of Stock (R253). -/
def stockGranules : Nat := stockBytes / 64

/-- The patrol of Stock reads its next granule by the rules of R30 (R254): `stack` 8 of PATROL_READ
(notes/assumptions/129). It pauses while Stock is in self-refresh. -/
def State.patrolStock (s : State) (ecc : List EccRes) (written : Bool) : State :=
  let p := s.sys.stockPatrol
  let t := s.stockChecks (64 * p) 64 ecc
  let u := if written && !s.stockPoison.contains p then { t with stockPoison := t.stockPoison.filter (fun g => g != p) } else t
  { u with sys := { u.sys with stockPatrol := (p + 1) % stockGranules } }

/-- PATROL_READ: the patrol reads its next granule as a demand read, while it is enabled and its stack is active (R30). With
`written`, a job's write to the granule falls in the cycle of the write-back: the write-back is discarded, so the patrol
leaves no poison. -/
def execPatrolRead (stack : Nat) (ecc : List EccRes) (s : State) (written : Bool := false) : Host.Outcome State Fault Refusal :=
  if stack = 8 then (if !s.domUp 12 || s.sys.stockSelf then void s else .next (s.patrolStock ecc written))
  else if decide (8 ≤ stack) || !s.domUp (8 + stack / 4) || !s.flag (Reg.hbmPatrolEn stack) || s.get (Reg.hbmStateMode stack) != 2 then void s
  else
    let p := s.get (Reg.hbmPatrolPos stack)
    let g := stack * stackGranules + p
    let t := s.hbmChecks (64 * g) 64 ecc
    let u := if written && !s.hbmPoison.contains g then
        ({ t with hbmPoison := t.hbmPoison.filter (fun x => x != g) }).countPoison stack
      else t
    .next (u.put (Reg.hbmPatrolPos stack) ((p + 1) % stackGranules))

end Sys2Proof.Machine
end

