-- ==== Sys2Proof/Machine/Dispatch.lean ====
section
/-!
DEFINITION. Machine/Dispatch.lean: what each command does, one arm per constructor of Instr, each a direct call of
the command's meaning. -/

namespace Sys2Proof.Machine

def exec (i : Instr) (s : State) : Host.Outcome State Fault Refusal :=
  match i with
  | .hello frame bytes => Sys2Proof.Machine.execHello frame bytes s
  | .kem frame => Sys2Proof.Machine.execKem frame s
  | .auth frame cred => Sys2Proof.Machine.execAuth frame cred s
  | .command frame => Sys2Proof.Machine.execCommand frame s
  | .read frame => Sys2Proof.Machine.execRead frame s
  | .ack frame => Sys2Proof.Machine.execAck frame s
  | .list frame => Sys2Proof.Machine.execList frame s
  | .close frame => Sys2Proof.Machine.execClose frame s
  | .ping frame => Sys2Proof.Machine.execPing frame s
  | .sessionIdleTimeout session => Sys2Proof.Machine.execSessionIdleTimeout session s
  | .serviceIcmpv6 kind => Sys2Proof.Machine.execServiceIcmpv6 kind s
  | .identify slot => Sys2Proof.Machine.execIdentify slot s
  | .attest slot => Sys2Proof.Machine.execAttest slot s
  | .status slot => Sys2Proof.Machine.execStatus slot s
  | .claim slot nonce rsaOk slhOk => Sys2Proof.Machine.execClaim slot nonce rsaOk slhOk s
  | .release slot object => Sys2Proof.Machine.execRelease slot object s
  | .loadBillet slot body sigOk amends tables => Sys2Proof.Machine.execLoadBillet slot body sigOk amends s tables
  | .arm slot => Sys2Proof.Machine.execArm slot s
  | .disarm slot => Sys2Proof.Machine.execDisarm slot s
  | .run slot => Sys2Proof.Machine.execRun slot s
  | .halt slot => Sys2Proof.Machine.execHalt slot s
  | .restore slot => Sys2Proof.Machine.execRestore slot s
  | .reset slot => Sys2Proof.Machine.execReset slot s
  | .serveOpen slot => Sys2Proof.Machine.execServeOpen slot s
  | .serveClose slot => Sys2Proof.Machine.execServeClose slot s
  | .replayStep slot => Sys2Proof.Machine.execReplayStep slot s
  | .faultRead slot => Sys2Proof.Machine.execFaultRead slot s
  | .journalRead slot => Sys2Proof.Machine.execJournalRead slot s
  | .ingotList slot => Sys2Proof.Machine.execIngotList slot s
  | .crsRead slot ecc => Sys2Proof.Machine.execCrsRead slot ecc s
  | .crsWrite slot => Sys2Proof.Machine.execCrsWrite slot s
  | .jobEscrowRead slot => Sys2Proof.Machine.execJobEscrowRead slot s
  | .fwWrite slot verified => Sys2Proof.Machine.execFwWrite slot verified s
  | .fwCommit slot => Sys2Proof.Machine.execFwCommit slot s
  | .exceptionLoad slot verified => Sys2Proof.Machine.execExceptionLoad slot verified s
  | .revoke slot verified => Sys2Proof.Machine.execRevoke slot verified s
  | .debugUnlock slot verified => Sys2Proof.Machine.execDebugUnlock slot verified s
  | .jobKeyImport slot verified opened => Sys2Proof.Machine.execJobKeyImport slot verified s opened
  | .beatIssue => Sys2Proof.Machine.execBeatIssue s
  | .beat msg => Sys2Proof.Machine.execBeat msg s
  | .keepSend => Sys2Proof.Machine.execKeepSend s
  | .keep msg => Sys2Proof.Machine.execKeep msg s
  | .hold msg => Sys2Proof.Machine.execHold msg s
  | .holdRelease msg => Sys2Proof.Machine.execHoldRelease msg s
  | .abort msg => Sys2Proof.Machine.execAbort msg s
  | .candidate msg => Sys2Proof.Machine.execCandidate msg s
  | .confirm msg => Sys2Proof.Machine.execConfirm msg s
  | .electionTimeout => Sys2Proof.Machine.execElectionTimeout s
  | .masterLost => Sys2Proof.Machine.execMasterLost s
  | .gateStall dev angle => Sys2Proof.Machine.execGateStall dev angle s
  | .gateReady entry => Sys2Proof.Machine.execGateReady entry s
  | .rollbackComplete => Sys2Proof.Machine.execRollbackComplete s
  | .resumeRelease => Sys2Proof.Machine.execResumeRelease s
  | .cadInEdge high gap sinceBeat => Sys2Proof.Machine.execCadInEdge high gap sinceBeat s
  | .cadInLost => Sys2Proof.Machine.execCadInLost s
  | .matmul core words => Sys2Proof.Machine.execMatmul core words s
  | .issueAcceptAfterWait core ecc => Sys2Proof.Machine.execIssueAcceptAfterWait core s ecc
  | .issueComplete core => Sys2Proof.Machine.execIssueComplete core s
  | .drainComplete core => Sys2Proof.Machine.execDrainComplete core s
  | .undefinedOp core words => Sys2Proof.Machine.execUndefinedOp core words s
  | .ew core words => Sys2Proof.Machine.execEw core words s
  | .fn core words => Sys2Proof.Machine.execFn core words s
  | .act core words => Sys2Proof.Machine.execAct core words s
  | .dact core words => Sys2Proof.Machine.execDact core words s
  | .reduce core words => Sys2Proof.Machine.execReduce core words s
  | .perm core words => Sys2Proof.Machine.execPerm core words s
  | .trans core words => Sys2Proof.Machine.execTrans core words s
  | .shuf core words => Sys2Proof.Machine.execShuf core words s
  | .pack core words => Sys2Proof.Machine.execPack core words s
  | .unpack core words => Sys2Proof.Machine.execUnpack core words s
  | .ld core words => Sys2Proof.Machine.execLd core words s
  | .st core words => Sys2Proof.Machine.execSt core words s
  | .setshape core words => Sys2Proof.Machine.execSetshape core words s
  | .dwconv core words => Sys2Proof.Machine.execDwconv core words s
  | .dwconvComplete core => Sys2Proof.Machine.execDwconvComplete core s
  | .termwalk core words => Sys2Proof.Machine.execTermwalk core words s
  | .termwalkComplete core => Sys2Proof.Machine.execTermwalkComplete core s
  | .attnForward core words ecc => Sys2Proof.Machine.execAttnForward core words s ecc
  | .attnBackward core words => Sys2Proof.Machine.execAttnBackward core words s
  | .attnPrepass core words => Sys2Proof.Machine.execAttnPrepass core words s
  | .attnComplete core => Sys2Proof.Machine.execAttnComplete core s
  | .kvopOpen core words => Sys2Proof.Machine.execKvopOpen core words s
  | .kvopFork core words => Sys2Proof.Machine.execKvopFork core words s
  | .kvopClose core words => Sys2Proof.Machine.execKvopClose core words s
  | .kvAuditStart => Sys2Proof.Machine.execKvAuditStart s
  | .kvAuditDone => Sys2Proof.Machine.execKvAuditDone s
  | .xfer core words => Sys2Proof.Machine.execXfer core words s
  | .xferComplete core ecc => Sys2Proof.Machine.execXferComplete core ecc s
  | .bucketFilled bucket ecc => Sys2Proof.Machine.execBucketFilled bucket s ecc
  | .send core words => Sys2Proof.Machine.execSend core words s
  | .stash core words => Sys2Proof.Machine.execStash core words s
  | .stashLanded core => Sys2Proof.Machine.execStashLanded core s
  | .fetchComplete region mb ecc => Sys2Proof.Machine.execFetchComplete region mb ecc s
  | .chunkLanded channel mb chunk attempt data => Sys2Proof.Machine.execChunkLanded channel mb chunk attempt data s
  | .hoCredit channel => Sys2Proof.Machine.execHoCredit channel s
  | .haloRowLanded core up => Sys2Proof.Machine.execHaloRowLanded core up s
  | .haloCreditReturn core up => Sys2Proof.Machine.execHaloCreditReturn core up s
  | .normResult ecc => Sys2Proof.Machine.execNormResult s ecc
  | .updateRangeDone range ecc => Sys2Proof.Machine.execUpdateRangeDone range ecc s
  | .weightPushDone range ecc => Sys2Proof.Machine.execWeightPushDone range ecc s
  | .portTrainStart port => Sys2Proof.Machine.execPortTrainStart port s
  | .fabRetrain port => Sys2Proof.Machine.execFabRetrain port s
  | .portUp port lanes eqReq => Sys2Proof.Machine.execPortUp port lanes eqReq s
  | .portDownRetry port => Sys2Proof.Machine.execPortDownRetry port s
  | .laneFrame port lanes headers packets => Sys2Proof.Machine.execLaneFrame port lanes headers packets s
  | .nak port acked => Sys2Proof.Machine.execNak port acked s
  | .scheduledIdle port => Sys2Proof.Machine.execScheduledIdle port s
  | .laneDrop port lane lost corrected uncorr => Sys2Proof.Machine.execLaneDrop port lane lost s corrected uncorr
  | .degrade port mask => Sys2Proof.Machine.execDegrade port mask s
  | .laneReadmit port lane margin => Sys2Proof.Machine.execLaneReadmit port lane margin s
  | .credit port vc cls count => Sys2Proof.Machine.execCredit port vc cls count s
  | .packetForward port tagOk => Sys2Proof.Machine.execPacketForward port tagOk s
  | .auditSend port => Sys2Proof.Machine.execAuditSend port s
  | .audit port seq rcvd freed => Sys2Proof.Machine.execAudit port seq rcvd freed s
  | .linkState port record isSealed => Sys2Proof.Machine.execLinkState port record isSealed s
  | .discoveryComplete => Sys2Proof.Machine.execDiscoveryComplete s
  | .discoveryTimeout => Sys2Proof.Machine.execDiscoveryTimeout s
  | .sealHello port random => Sys2Proof.Machine.execSealHello port random s
  | .attestReq port nonce => Sys2Proof.Machine.execAttestReq port nonce s
  | .attestReport port report amends verified => Sys2Proof.Machine.execAttestReport port report amends verified s
  | .attestSeed port seed opened => Sys2Proof.Machine.execAttestSeed port seed opened s
  | .attestDone port => Sys2Proof.Machine.execAttestDone port s
  | .attestRefuse port => Sys2Proof.Machine.execAttestRefuse port s
  | .remoteReset port src target reach tagOk => Sys2Proof.Machine.execRemoteReset port src target reach tagOk s
  | .collective group src attempt values mask => Sys2Proof.Machine.execCollective group src attempt values mask s
  | .adopt port => Sys2Proof.Machine.execAdopt port s
  | .bucket stream attempt seg child off data ecc => Sys2Proof.Machine.execBucket stream attempt seg child off data s ecc
  | .bucketComplete bucket ecc => Sys2Proof.Machine.execBucketComplete bucket s ecc
  | .quenchNotice src => Sys2Proof.Machine.execQuenchNotice src s
  | .ethFrame port iface frame => Sys2Proof.Machine.execEthFrame port iface frame s
  | .bloomHello feeder random => Sys2Proof.Machine.execBloomHello feeder random s
  | .request entry => Sys2Proof.Machine.execRequest entry s
  | .data frame data head => Sys2Proof.Machine.execData frame data head s
  | .absent frame => Sys2Proof.Machine.execAbsent frame s
  | .rerequest entry index => Sys2Proof.Machine.execRerequest entry index s
  | .decodeComplete entry index poisoned ecc => Sys2Proof.Machine.execDecodeComplete entry index poisoned s ecc
  | .spareCopy entry index ecc => Sys2Proof.Machine.execSpareCopy entry index s ecc
  | .zoneAppendComplete bay seq ecc => Sys2Proof.Machine.execZoneAppendComplete bay seq s ecc
  | .flushComplete bay ms written lifeOk => Sys2Proof.Machine.execFlushComplete bay ms written lifeOk s
  | .generationFail bay => Sys2Proof.Machine.execGenerationFail bay s
  | .cartridgeInsert bay => Sys2Proof.Machine.execCartridgeInsert bay s
  | .perstRelease bay => Sys2Proof.Machine.execPerstRelease bay s
  | .controllerReady bay cart => Sys2Proof.Machine.execControllerReady bay cart s
  | .cartridgeRemove bay => Sys2Proof.Machine.execCartridgeRemove bay s
  | .bayOverload bay => Sys2Proof.Machine.execBayOverload bay s
  | .eject bay => Sys2Proof.Machine.execEject bay s
  | .ejectComplete bay => Sys2Proof.Machine.execEjectComplete bay s
  | .wipe bay => Sys2Proof.Machine.execWipe bay s
  | .ingotLoadComplete failed ecc => Sys2Proof.Machine.execIngotLoadComplete failed s ecc
  | .scrubStart => Sys2Proof.Machine.execScrubStart s
  | .scrubComplete bad => Sys2Proof.Machine.execScrubComplete bad s
  | .entropyFail => Sys2Proof.Machine.execEntropyFail s
  | .faultMessageAccept sources => Sys2Proof.Machine.execFaultMessageAccept sources s
  | .quenchStockSelfRefresh => Sys2Proof.Machine.execQuenchStockSelfRefresh s
  | .collectorParity offset => Sys2Proof.Machine.execCollectorParity offset s
  | .faultPulseEnd => Sys2Proof.Machine.execFaultPulseEnd s
  | .srcCfgForce source mask kind => Sys2Proof.Machine.execSrcCfgForce source mask kind s
  | .fltValidClear sources => Sys2Proof.Machine.execFltValidClear sources s
  | .trapClear core event => Sys2Proof.Machine.execTrapClear core s event
  | .tmpTrapClear event => Sys2Proof.Machine.execTmpTrapClear s event
  | .legacyFault pair fault => Sys2Proof.Machine.execLegacyFault pair fault s
  | .legacyWire pair equal => Sys2Proof.Machine.execLegacyWire pair equal s
  | .legacyWindowEnd reversed => Sys2Proof.Machine.execLegacyWindowEnd reversed s
  | .powerInputRise vin => Sys2Proof.Machine.execPowerInputRise vin s
  | .powerInputBand vin => Sys2Proof.Machine.execPowerInputBand vin s
  | .powerInputHigh => Sys2Proof.Machine.execPowerInputHigh s
  | .powerInputLow => Sys2Proof.Machine.execPowerInputLow s
  | .pwrOkLow => Sys2Proof.Machine.execPwrOkLow s
  | .powerOnRelease legacyEn smbAddr => Sys2Proof.Machine.execPowerOnRelease legacyEn smbAddr s
  | .sysResetN => Sys2Proof.Machine.execSysResetN s
  | .coreResetN => Sys2Proof.Machine.execCoreResetN s
  | .resetPinRelease sys => Sys2Proof.Machine.execResetPinRelease sys s
  | .domainRelease domain ecc => Sys2Proof.Machine.execDomainRelease domain s ecc
  | .clockLoss domain refclk => Sys2Proof.Machine.execClockLoss domain refclk s
  | .clockGood domain => Sys2Proof.Machine.execClockGood domain s
  | .watchdogExpiry ms => Sys2Proof.Machine.execWatchdogExpiry ms s
  | .wdtKick => Sys2Proof.Machine.execWdtKick s
  | .thermalWarning sensor temp => Sys2Proof.Machine.execThermalWarning sensor temp s
  | .thermalTrip sensor temp => Sys2Proof.Machine.execThermalTrip sensor temp s
  | .thermalTripEnd temps => Sys2Proof.Machine.execThermalTripEnd temps s
  | .patrolRead stack ecc written => Sys2Proof.Machine.execPatrolRead stack ecc s written
  | .summaryUpdate vin iin pin temps => Sys2Proof.Machine.execSummaryUpdate vin iin pin temps s
  | .state => Sys2Proof.Machine.execState s
  | .vin => Sys2Proof.Machine.execVin s
  | .iin => Sys2Proof.Machine.execIin s
  | .pin => Sys2Proof.Machine.execPin s
  | .temps => Sys2Proof.Machine.execTemps s
  | .fault => Sys2Proof.Machine.execFault s
  | .cause => Sys2Proof.Machine.execCause s
  | .ident => Sys2Proof.Machine.execIdent s
  | .angle => Sys2Proof.Machine.execAngle s
  | .totals => Sys2Proof.Machine.execTotals s
  | .smbusUndefinedCode code write => Sys2Proof.Machine.execSmbusUndefinedCode code write s
  | .smbusBusRelease => Sys2Proof.Machine.execSmbusBusRelease s
  | .crsacc data address write ecc => Sys2Proof.Machine.execCrsacc data address write ecc s
  | .bypass => Sys2Proof.Machine.execBypass s
  | .idcode => Sys2Proof.Machine.execIdcode s
  | .samplePreload pins preload => Sys2Proof.Machine.execSamplePreload pins preload s
  | .extest => Sys2Proof.Machine.execExtest s
  | .clamp => Sys2Proof.Machine.execClamp s
  | .tapReset => Sys2Proof.Machine.execTapReset s
  | .memwinSnapshot path ecc => Sys2Proof.Machine.execMemwinSnapshot path ecc s
  | .loReadLatch path address => Sys2Proof.Machine.execLoReadLatch path address s
  | .rcRead path address => Sys2Proof.Machine.execRcRead path address s
  | .registerWrite path address data events => Sys2Proof.Machine.execRegisterWrite path address data s events
  | .restoreStepAnnounce msg => Sys2Proof.Machine.execRestoreStepAnnounce msg s

end Sys2Proof.Machine
end

