-- ==== Sys2Proof/Safety.lean ====
section
/-!
DEFINITION. Safety.lean: the terms in which statements are made about a run: what is the same in two states, the canonical form
of the device's memories, and when a frame, a command or an access has its own effect. -/

namespace Sys2Proof.Machine

/-! ## Frames -/

/-- A command goes on. -/
def Completes (i : Instr) (s : State) : Prop := ∃ t, exec i s = .next t

/-- Every byte of Hearth, HBM4 and Stock reads the same. -/
def SameBytes (s t : State) : Prop :=
  ∀ a, t.hearth0.read a = s.hearth0.read a ∧ t.hearth1.read a = s.hearth1.read a ∧ t.hbm.read a = s.hbm.read a ∧
    t.stock.read a = s.stock.read a

/-- Every register field but those listed holds the same value. -/
def SameRegsBut (l : List Fld) (s t : State) : Prop := ∀ f : Fld, (∀ g ∈ l, f.key ≠ g.key) → t.get f = s.get f

/-- The four memories are in their canonical form. -/
def State.memOk (s : State) : Bool := s.hearth0.wf && s.hearth1.wf && s.hbm.wf && s.stock.wf

/-- Everything but the registers is the same. -/
def SameButRegs (s t : State) : Prop := { t with regs := s.regs } = s

/-! ## The mailbox -/

/-- A sealed frame of session `x` is valid (R427). -/
abbrev ValidFrame (s : State) (f : HjFrame) (x : Session) : Prop :=
  s.svcUp = true ∧ s.session? f.session = some x ∧ f.good = true ∧ x.keyed = true ∧ f.tagOk = true ∧
    ∀ n ∈ x.nonceIn, n < f.nonce

/-- The sessions with one of them changed. -/
def withSession (l : List Session) (x : Session) : List Session := l.map (fun y => if y.num = x.num then x else y)

/-- The header of a REPLY (Table 16-2). -/
def replyHead (x : Session) (tag opcode slot status : Nat) : HjHead :=
  { type := 6, session := x.sid, nonce := x.nonceOut, tag := tag, opcode := opcode, slot := slot, offset := 0, total := 0
    status := status, reads := 0, jseq := noSeq }

/-- What has been sent once a sealed frame of session `x` has gone to its caller, with its tag (R428). -/
abbrev answered (s : State) (x : Session) (h : HjHead) (l : List Byte) : List Out := s.out ++ [.hjeliz h l (sealTag x h l)]

/-- The header of a RESULT of session `x` (Table 16-2): what every RESULT of it has alike, before its slot's fields. -/
def resultHead (x : Session) (tag slot offset : Nat) : HjHead :=
  { type := 8, session := x.sid, nonce := x.nonceOut, tag := tag, opcode := 0, slot := slot, offset := offset, total := 0
    status := 0, reads := 0, jseq := noSeq }

/-- The header of a CLOSE from the device (R431). -/
def closeHead (x : Session) : HjHead :=
  { type := 11, session := x.sid, nonce := x.nonceOut, tag := 0, opcode := 0, slot := noSlot, offset := 0, total := 0
    status := 0, reads := 0, jseq := noSeq }

/-- A counter has counted one, and holds at its maximum. -/
abbrev Counted (s t : State) (c : Fld) : Prop := t.get c = min (s.get c + 1) (2 ^ c.w - 1)

/-- A command in slot `n` may start, and the lifecycle state accepts it (R435, R439). -/
abbrev Starts (s : State) (n op : Nat) (x : Slot) : Prop := startable s n op = some x ∧ cmdAccepts op s.life = true

/-- Whether a command is journalled (Table 16-5). -/
def journalled (op : Nat) : Bool :=
  match cmdInfo op with
  | some c => c.journalled
  | none => false

/-- The SEQ that a command's entry takes: a RESET entry that waits comes before it (R449). -/
def nextSeq (s : State) : Nat := s.jnl.head + (if s.jnl.resetCause.isSome then 1 else 0)

/-- The command of slot `x`, started in `s`, has completed in `t` (R436, R449): its slot is READY with the code, the result and
the SEQ of its journal entry, or free where its level-0 session has closed (R437); it has left the queue, and the other slots and
the sessions are as they were. Where it is journalled, the newest entry of the journal is the one of Table 16-7 that tells of it,
and the head follows it; else the journal is as it was. -/
def Finished (s t : State) (x : Slot) (code : Nat) (result : List Byte) : Prop :=
  (t.slot? x.num = if x.closed then none else some { x with
    ready := true, code := code, result := result, jseq := if journalled x.opcode then some (nextSeq s) else none }) ∧
  t.mbx.sessions = s.mbx.sessions ∧ t.mbx.nextSid = s.mbx.nextSid ∧
  t.mbx.slots.filter (fun y => y.num != x.num) = s.mbx.slots.filter (fun y => y.num != x.num) ∧
  t.mbx.queue = s.mbx.queue.filter (fun m => m != x.num) ∧
  (if journalled x.opcode then
    t.jnl.head = nextSeq s + 1 ∧
    t.jnl.entries.getLast?.map (fun e => (e.seq, e.origin, e.opcode, e.result, e.tag, e.who, e.record)) =
      some (nextSeq s, 0x4000 + x.session, x.opcode, code, x.tag, x.who % 2 ^ 64, leBytes 32 (Config.sha384 x.arg))
  else t.jnl = s.jnl)

/-- The command of slot `x` runs in `t`: its slot is as it was, and it is the one that runs (R435). -/
abbrev Runs (s t : State) (x : Slot) : Prop := t.mbx = { s.mbx with running := some x.num }

/-- What a report or a claim leaves of a signature that fails (R391): the count, and nothing of the device. -/
abbrev SigFailed (s t : State) : Prop :=
  t.get Reg.cruSigFail = min (s.get Reg.cruSigFail + 1) (2 ^ Reg.cruSigFail.w - 1) ∧ SameRegsBut [Reg.cruSigFail] s t

/-! ## Faults and holds -/

/-- The registers that tell of a dropped fault message (R457). -/
def dropRegs : List Fld := [Reg.fltDropped, Reg.fltStatusOvf]

/-- Every register outside the fabric block, whose counters move as messages leave, but those listed and those that tell of a
dropped fault message, holds the same value. -/
def SameRegsOut (l : List Fld) (s t : State) : Prop :=
  ∀ f : Fld, (f.key < 0x100000 * 32 ∨ 0x110000 * 32 ≤ f.key) → (∀ g ∈ dropRegs ++ l, f.key ≠ g.key) → t.get f = s.get f

/-- The fault is raised first of all that are raised, unless 16 of its source wait (R457). -/
def Raised (s t : State) (src kind cls addr : Nat) : Prop :=
  s.waitingFrom src < 16 → s.faultQ ++ [s.faultMsg src kind cls addr false] <+: t.faultQ

/-- The device holds its next gate for a reason (Table 2-5, R59): the hold stands and is counted as raised, or waits until the
device has a gate to hold. What the Cadence wants next may have been set by a send that found no route (R319). -/
def HoldsNext (s t : State) (reason : Nat) : Prop :=
  match (if s.cad.active && !s.cad.rolling && s.cad.resume.isNone && s.cad.role.settled then s.cad.nextGate else none) with
  | some a => { t.cad with want := s.cad.want } = { s.cad with
      own := s.cad.own ++ [{ angle := a, attempt := s.cad.attempt, reason := reason, entry := none, rollback := false }]
      raised := s.cad.raised + 1 }
  | none => t.cad = { s.cad with want := some reason }

/-! ## The Cadence -/

/-- Of the device only its Cadence, the messages on their way and the faults it has raised may differ, and of the registers outside
the fabric block those listed. -/
def OnlyCad (l : List Fld) (s t : State) : Prop :=
  SameRegsOut l s t ∧ { t with regs := s.regs, cad := s.cad, ports := s.ports, faultQ := s.faultQ, out := s.out } = s

/-- An ABORT of the master (Table 2-1). -/
abbrev abortMsg (s : State) (seq angle attempt reason : Nat) : CadMsg :=
  { type := 4, flags := b2n s.cad.mExternal, source := s.addr, angle := angle, attempt := attempt, reason := reason, seq := seq }

/-- The Cadence `c` of a master once it has aborted its step: every device of the job counts as holding s:0x0000 (R62, R64). -/
def abortedCad (s : State) (c : Cad) : Cad :=
  let a := angleOf (stepOf c.mAngle) 0
  let hs := (s.devices.filter (fun d => !c.lost.contains d)).map
    (fun d => ({ dev := d, angle := a, attempt := c.mAttempt + 1, reason := 0, rollback := true } : MHold))
  { c with mAngle := a, mAttempt := c.mAttempt + 1, mRolling := true, mHolds := hs, mRaised := c.mRaised + hs.length
           mCancelled := c.mCancelled + c.mHolds.length }

/-- The Cadence `c` of a master once it has stopped the job (R533). -/
def stoppedCad (c : Cad) : Cad :=
  { c with mHolds := [], mCancelled := c.mCancelled + c.mHolds.length, mOn := false, mRolling := false, mAttempt := c.mAttempt + 1 }

/-- The master of Cadence `c` has aborted its step with a REASON, or has stopped the job with cause 4 at s:0x0000 where this was
the last abort that ABORT_LIMIT allows (R64, R66), and takes its own message. -/
def StepAborts (s t : State) (c : Cad) (reason : Nat) : Prop :=
  let a := angleOf (stepOf c.mAngle) 0
  if s.get Reg.cadAbortLimit ≤ c.mAttempt + 1 then
    t.cad = stoppedCad { c with mAngle := a } ∧ t.out.getLast? = some (.own (abortMsg s c.mSeq a (c.mAttempt + 1) 0x8004))
  else t.cad = abortedCad s c ∧ t.out.getLast? = some (.own (abortMsg s c.mSeq a (c.mAttempt + 1) reason))

/-! ## Cores -/

/-- The fields of a core's REFUSE record (R108). -/
def refuseRegs (n : Nat) : List Fld :=
  [Reg.coreRefuseReason n, Reg.coreRefuseValid n, Reg.coreRefuseOpid n, Reg.coreRefuseNeed n, Reg.coreRefuseHave n]

/-- Core `n` has refused a command (R108): one fault of class U, the record where it held none, the sequencer stopped, and the next
gate held with reason ABORT. Nothing else of the device has changed. -/
def RefusedCmd (s t : State) (n kind reason opid need have_ : Nat) : Prop :=
  t.core n = { s.core n with run := .refused, waiting := none, vecWait := false } ∧ (∀ k, k ≠ n → t.core k = s.core k) ∧
  Raised s t (srcIssue n) kind clsU (opid % 2 ^ 32 + n * 2 ^ 32) ∧ HoldsNext s t reasonAbort ∧
  (s.flag (Reg.coreRefuseValid n) = true → SameRegsOut [] s t) ∧
  (s.flag (Reg.coreRefuseValid n) = false → SameRegsOut (refuseRegs n) s t ∧ t.get (Reg.coreRefuseValid n) = 1 ∧
    t.get (Reg.coreRefuseReason n) = reason % 16 ∧ t.get (Reg.coreRefuseOpid n) = opid % 2 ^ 32 ∧
    t.get (Reg.coreRefuseNeed n) = need % 2 ^ 24 ∧ t.get (Reg.coreRefuseHave n) = have_ % 2 ^ 24) ∧
  { t with regs := s.regs, cad := s.cad, cores := s.cores, ports := s.ports, faultQ := s.faultQ, out := s.out } = s

/-- The fields of a core's trap record (Table 3-7). -/
def trapRegs (n : Nat) : List Fld :=
  [Reg.coreTrapStatusValid n, Reg.coreTrapStatusSrc n, Reg.coreTrapStatusCause n, Reg.coreTrapStatusRz n, Reg.coreTrapStatusSpecial n,
   Reg.coreTrapStatusCore n, Reg.coreTrapOpid n, Reg.coreTrapOwnerGang n, Reg.coreTrapOwnerStage n, Reg.coreTrapTileMt n,
   Reg.coreTrapTileNt n, Reg.coreTrapElemRow n, Reg.coreTrapElemCol n, Reg.coreTrapElemKblk n, Reg.coreTrapAngleLo n,
   Reg.coreTrapAngleHi n]

/-- The watched events of an operation are recorded (R94 to R96): without one, the registers but those listed are as before; the
first is latched into a clear record, with the core's gang and stage and the angle, every other one counts, and the operation raises
one fault: of class U where NAN_ACTION holds the next gate, else of class C, which leaves the Cadence as it was. -/
def EventsLatched (s t : State) (o : OpTag) (es : List Event) (l : List Fld) : Prop :=
  match es.filter (fun e => watched (s.flag (Reg.coreNumctrlInfTrap o.core)) e.cause) with
  | [] => SameRegsOut l s t ∧ t.cad = s.cad
  | e :: r =>
    (s.flag (Reg.coreTrapStatusValid o.core) = true → SameRegsOut (Reg.coreNanCount o.core :: l) s t ∧
      t.get (Reg.coreNanCount o.core) = min (s.get (Reg.coreNanCount o.core) + (r.length + 1)) (2 ^ 32 - 1)) ∧
    (s.flag (Reg.coreTrapStatusValid o.core) = false → SameRegsOut (Reg.coreNanCount o.core :: trapRegs o.core ++ l) s t ∧
      t.get (Reg.coreNanCount o.core) = min (s.get (Reg.coreNanCount o.core) + r.length) (2 ^ 32 - 1) ∧
      t.get (Reg.coreTrapStatusValid o.core) = 1 ∧ t.get (Reg.coreTrapStatusSrc o.core) = o.src % 2 ∧
      t.get (Reg.coreTrapStatusCause o.core) = e.cause.code ∧ t.get (Reg.coreTrapStatusRz o.core) = b2n o.rz ∧
      t.get (Reg.coreTrapStatusSpecial o.core) = b2n o.special ∧ t.get (Reg.coreTrapStatusCore o.core) = o.core % 256 ∧
      t.get (Reg.coreTrapOpid o.core) = o.opid % 2 ^ 32 ∧ t.get (Reg.coreTrapTileMt o.core) = e.mt % 2 ^ 16 ∧
      t.get (Reg.coreTrapTileNt o.core) = e.nt % 2 ^ 16 ∧ t.get (Reg.coreTrapElemRow o.core) = e.row % 128 ∧
      t.get (Reg.coreTrapElemCol o.core) = e.col % 256 ∧ t.get (Reg.coreTrapElemKblk o.core) = e.kblk % 2 ^ 16 ∧
      t.get (Reg.coreTrapOwnerGang o.core) = s.get (Reg.coreCtxGang o.core) % 2 ^ (Reg.coreTrapOwnerGang o.core).w ∧
      t.get (Reg.coreTrapOwnerStage o.core) = s.get (Reg.coreCtxStage o.core) % 2 ^ (Reg.coreTrapOwnerStage o.core).w ∧
      t.get (Reg.coreTrapAngleLo o.core) + 2 ^ 32 * t.get (Reg.coreTrapAngleHi o.core) =
        (if s.cad.ran then s.cad.lastFired % 2 ^ 48 else 0)) ∧
    Raised s t (srcNum o.core) e.cause.kind (if s.flag (Reg.coreNumctrlNanAction o.core) then clsU else clsC)
      (o.opid % 2 ^ 32 + o.core * 2 ^ 32) ∧
    (s.flag (Reg.coreNumctrlNanAction o.core) = true → HoldsNext s t reasonAbort) ∧
    (s.flag (Reg.coreNumctrlNanAction o.core) = false → t.cad = s.cad)

/-- The counters of a core's vector engine (Table 6-12). -/
def vecRegs (n : Nat) : List Fld := [Reg.coreVcmds n, Reg.coreVbusyCyclesLo n, Reg.coreVbusyCyclesHi n]

/-- What a completed vector command leaves of its core: the command dispatched and done in its segment and VCMDS one higher. The
tile registers are those of the result, until the next segment begins with clear ones (R146). Nothing else of the core, and no
other core, has changed. -/
def VecEnds (s t : State) (n : Nat) (tiles : Memory) : Prop :=
  (t.core n).segs = (s.core n).segs.map (fun g => if g.segment = (s.core n).curSeg then { g with disp := g.disp + 1, done := g.done + 1 } else g) ∧
  ((t.core n).curSeg = (s.core n).curSeg → (t.core n).tiles = tiles) ∧
  ((t.core n).curSeg ≠ (s.core n).curSeg → (t.core n).tiles = .empty) ∧
  { t.core n with segs := (s.core n).segs, curSeg := (s.core n).curSeg, tiles := (s.core n).tiles } = { s.core n with vecWait := false } ∧
  (∀ k, k ≠ n → t.core k = s.core k) ∧ t.get (Reg.coreVcmds n) = min (s.get (Reg.coreVcmds n) + 1) (2 ^ 32 - 1)

/-- A vector command has had its effect: its events are recorded, and it has ended with its tile registers. -/
def VecDone (s t : State) (n : Nat) (d : VC) (r : VecRes) : Prop :=
  VecEnds s t n r.tiles ∧ EventsLatched s t (vcTag n d) r.events (vecRegs n) ∧
  { t with regs := s.regs, cad := s.cad, cores := s.cores, caps := s.caps, captures := s.captures, ports := s.ports
           faultQ := s.faultQ, out := s.out } = s

/-- Core `n` may take a vector command: it may dispatch, and no attention command and no long-running vector command holds the
engine. -/
abbrev TakesVec (s : State) (n : Nat) : Prop := s.canCompute n = true ∧ (s.core n).vecFree = true

/-- A memory by its number: 0 and 1 the Hearths, 2 HBM4, 3 Stock. -/
def State.memOf (s : State) (k : Nat) : Memory := if k = 0 then s.hearth0 else if k = 1 then s.hearth1 else if k = 2 then s.hbm else s.stock

/-- Every byte of the four memories reads the same but those of a set of (memory, address). -/
def SameBytesBut (stored : Nat → Nat → Prop) (s t : State) : Prop := ∀ k a, k < 4 → ¬ stored k a → (t.memOf k).read a = (s.memOf k).read a

/-- The memory number of a core's or a gang's Hearth. -/
def hearthNo (die : Nat) : Nat := if die = 0 then 0 else 1

/-- Address `a` lies in `len` bytes from `base`. -/
abbrev Within (a base len : Nat) : Prop := base ≤ a ∧ a < base + len

/-- Core `n` has been refused a change of KV stream `id` (R213): the KVP's fault, the record with REASON 8 where it held none, the
sequencer stopped and the next gate held; an exhausted pool is counted. Nothing else of the device has changed. -/
def KvRefused (s t : State) (n opid id kind : Nat) : Prop :=
  t.core n = { s.core n with run := .refused, waiting := none, vecWait := false } ∧ (∀ k, k ≠ n → t.core k = s.core k) ∧
  Raised s t srcKvp kind clsU (id % 2 ^ 20 + n * 2 ^ 20) ∧ HoldsNext s t reasonAbort ∧
  SameRegsOut (Reg.kvpExhaust :: refuseRegs n) s t ∧
  t.get Reg.kvpExhaust = (if kind = kvEmpty then min (s.get Reg.kvpExhaust + 1) (2 ^ Reg.kvpExhaust.w - 1) else s.get Reg.kvpExhaust) ∧
  (s.flag (Reg.coreRefuseValid n) = false → t.get (Reg.coreRefuseValid n) = 1 ∧ t.get (Reg.coreRefuseReason n) = 8 ∧
    t.get (Reg.coreRefuseOpid n) = opid % 2 ^ 32) ∧
  { t with regs := s.regs, cad := s.cad, cores := s.cores, ports := s.ports, faultQ := s.faultQ, out := s.out } = s

/-! ## Temper -/

/-- The registers that Temper writes in a step (Table 10-6), but for those of the push. -/
def tmpRegs : List Fld :=
  [Reg.tmpStatusPhase, Reg.tmpStatusGroup, Reg.tmpStep, Reg.tmpLastUpdated, Reg.tmpSkipped, Reg.tmpClipped, Reg.tmpLastNorm, Reg.tmpSingular,
   Reg.tmpStockCe, Reg.tmpStockUe, Reg.tmpStockLastUeLo, Reg.tmpStockLastUeHi, Reg.tmpTrapStatusValid, Reg.tmpTrapStatusCause,
   Reg.tmpTrapStatusEngine, Reg.tmpTrapGroup, Reg.tmpTrapIndexLo, Reg.tmpTrapIndexHi, Reg.tmpTrapAngleLo, Reg.tmpTrapAngleHi,
   Reg.tmpTrapCount, Reg.tmpUpdCycles]

/-- The current gate of an update range is held with reason TMP (R277): the hold stands and is counted as raised, or waits where no
job runs. A range that no gate entry of the step names holds the device's next gate. -/
def HoldsUpdate (s t : State) (range : Nat) : Prop :=
  let st := stepOf s.cad.angle
  match s.cad.strike.find? (fun e => e.kind == 0xB && e.target == range && e.gate && firesIn e st) with
  | some e =>
    if s.cad.active then
      { t.cad with want := s.cad.want } = { s.cad with
        own := s.cad.own ++ [{ angle := angleOf st e.stroke, attempt := s.cad.attempt, reason := reasonTmp, entry := none, rollback := false }]
        raised := s.cad.raised + 1 }
    else t.cad = { s.cad with want := some reasonTmp }
  | none => HoldsNext s t reasonTmp

/-- What an update by SGD, ADAMW or SIGN makes of element `j` of a group at step `st` (R262, R268). -/
def elemResult (s : State) (p : TemperPlan) (g : TmpGroup) (clipf st j : Nat) : WMV :=
  (ruleOf g (scalarsOf p g clipf st) ⟨stockVal s (g.w + 4 * j), stockVal s (g.m + 4 * j), if hasV g then stockVal s (g.v + 4 * j) else .zero⟩
    (gradVal s g j)).1

/-- The bytes of Stock that a push image's rows and scales take (R274). -/
def imageWrites (x : Push) : List Range :=
  (List.range (pushRows x)).map (fun r => ⟨3, x.img + r * x.stride, pushRow (pushFmt x) x⟩) ++
  (if x.mx then [⟨3, imgScales x, pushRows x * (x.rowLen / 32)⟩] else [])

/-- The arrays and freeze masks of a plan's groups and the images of its pushes share no byte (R256), and no two groups share a
number (R257). -/
abbrev PlanApart (p : TemperPlan) : Prop :=
  allApart ((p.groups.zipIdx).flatMap (fun (g, i) => groupRanges g i) ++ p.pushes.flatMap imageWrites) = true ∧
  distinct (p.groups.map TmpGroup.group) = true

/-! ## Links -/

/-- The frames that go out with a frame of port `p`: the scheduled IDLE goes first where 8,191 have gone since the last (R285). -/
def withIdle (s : State) (p : Nat) (o : Out) : List Out :=
  (if 8191 ≤ (s.port p).sinceIdle then [s.frameOut p 1 false (s.port p).lastData none 0] else []) ++ [o]

/-- The frames since the last scheduled IDLE, once one more has gone. -/
def nextSince (x : Port) : Nat := if 8191 ≤ x.sinceIdle then 1 else x.sinceIdle + 1

/-- Port `p` of `u` has sent a frame without packets, with NAK or without: an IDLE, whose SEQ is that of the last DATA frame (R285),
or, while a change of its lanes waits for its ACK, a DEGRADE that names them and is kept for replay (R293). While 256 frames are
unacknowledged it is an IDLE in every case (R287). -/
def SendsBare (u t : State) (p : Nat) (nak : Bool) : Prop :=
  let x := u.port p
  let seq := (x.txSeq + 1) % 2 ^ 24
  let mask := u.get (Reg.fabStatusRxLanes p)
  (x.tell = false ∨ 256 ≤ x.replay.length → t.out = u.out ++ withIdle u p (u.frameOut p 1 nak x.lastData none 0) ∧
    t.port p = { x with sinceIdle := nextSince x }) ∧
  (x.tell = true → x.replay.length < 256 → t.out = u.out ++ withIdle u p (u.frameOut p 3 nak seq none mask) ∧
    t.port p = { x with txSeq := seq, replay := x.replay ++ [{ seq := seq, kind := 3, packet := none, part := mask }], sinceIdle := nextSince x })

/-- The TRAIN frames of port `p` on its eight lanes (R289, R290, Table 11-4), with an EQ_REQ. -/
def trainOut (s : State) (p usable eq : Nat) : Out :=
  .train p ((List.range 8).map (fun l =>
    { lane := l, header := laneHeader l false 2 0 0 255
      payload := leBytes 8 Config.serialDigest ++ leBytes 2 (s.get Reg.netStatusAddr + s.get Reg.netStatusAssigned * 2 ^ 15) ++ leBytes 1 p ++
        leBytes 1 l ++ leBytes 1 usable ++ leBytes 2 eq }))

/-- Port `p` has begun to train (R289): STATE, the count, and TRAIN frames on all eight lanes, which an Ethernet port does not send;
nothing else of the device has changed. EQ_REQ is coded by training firmware, and open. -/
def Trains (s t : State) (p : Nat) : Prop :=
  t.get (Reg.fabStatusState p) = 1 ∧ t.get (Reg.fabRetrains p) = min (s.get (Reg.fabRetrains p) + 1) (2 ^ (Reg.fabRetrains p).w - 1) ∧
  SameRegsBut [Reg.fabStatusState p, Reg.fabRetrains p] s t ∧ { t with regs := s.regs, out := s.out, freeCtr := s.freeCtr } = s ∧
  (s.get (Reg.fabCtrlMode p) = 1 → t.out = s.out) ∧ (s.get (Reg.fabCtrlMode p) ≠ 1 → ∃ eq, t.out = s.out ++ [trainOut s p 0 eq])

/-- The faults of port `p` (kind, class, ADDR), in this order, are raised before any other, where the port is enabled and 16 of them
do not wait (R457). -/
def RaisesPort (s t : State) (p : Nat) (l : List (Nat × Nat × Nat)) : Prop :=
  s.get (Reg.fabCtrlEn p) = 1 → s.waitingFrom (srcPort p) + l.length ≤ 16 →
    s.faultQ ++ l.map (fun m => s.faultMsg (srcPort p) m.1 m.2.1 m.2.2 false) <+: t.faultQ

/-- Port `p` is down (R308): STATE, and every packet in its buffers is dropped with the port's counters; what the sealing and the
attestation of its link hold stays. -/
def PortDown (s t : State) (p : Nat) : Prop :=
  let x := s.port p
  t.get (Reg.fabStatusState p) = 4 ∧
  t.port p = { Port.init with
    jobDown := x.jobDown, reseal := x.reseal, myRandom := x.myRandom, peerRandom := x.peerRandom, txKey := x.txKey, rxKey := x.rxKey
    txNonce := x.txNonce, rxNonce := x.rxNonce, attNonce := x.attNonce, attReport := x.attReport, peerNonce := x.peerNonce
    peerDone := x.peerDone, saidSeed := x.saidSeed, sentSeed := x.sentSeed }

/-- Of the device only its ports, its fabric, the messages on their way, the faults it raises and the hold it wants may differ. -/
def OnlyFabric (s t : State) : Prop :=
  SameRegsOut [] s t ∧
  { t with regs := s.regs, ports := s.ports, net := s.net, cad := s.cad, faultQ := s.faultQ, out := s.out, freeCtr := s.freeCtr } = s

/-- The frames of a list of outputs that are not IDLE. -/
def notIdle (l : List Out) : List Out :=
  l.filter (fun o => match o with
    | .frame _ k _ _ _ _ _ _ _ _ => k != 1
    | _ => true)

/-- Port `p` has taken a packet with a body to send: it waits at the port, or frames have carried it out. -/
def Sends (s t : State) (p : Nat) (body : Payload) : Prop :=
  ∃ k : Packet, k.body = body ∧ (k ∈ (t.port p).ready ∨
    ∃ seq ack mask part ls hd, Out.frame p 0 false seq ack mask (some k) part ls hd ∈ t.out.drop s.out.length)

/-- Slot `x` holds the journalled command that runs. -/
abbrev RunningCmd (s : State) (x : Slot) : Prop := s.mbx.running = some x.num ∧ s.slot? x.num = some x

/-! ## Bloom -/

/-- A sample of a stream has been skipped (R354): counted, with its cause and in the last-skip registers. Where no spare has the index,
the cursor counts it, the slot that was to hold it is marked, and the sample is no longer outstanding; a spare that no slot waits
for leaves the reserve, and NEXT enters it. No byte changes but those of a slot that waited for the spare, which the next may serve. -/
def SkippedSample (s t : State) (e : Nat) (d : BloomStream) (index reason : Nat) : Prop :=
  let why := if reason = 0 then Reg.blmSkipHdr else if reason = 1 then Reg.blmSkipDecode else Reg.blmSkipAbsent
  let b := s.bstream e
  t.get Reg.blmSkip = min (s.get Reg.blmSkip + 1) (2 ^ Reg.blmSkip.w - 1) ∧ t.get why = min (s.get why + 1) (2 ^ why.w - 1) ∧
  t.get Reg.blmLastSkipStream = d.stream % 2 ^ Reg.blmLastSkipStream.w ∧ t.get Reg.blmLastSkipReason = reason ∧
  t.get64 Reg.blmLastSkipIndexLo Reg.blmLastSkipIndexHi = index % 2 ^ 64 ∧
  SameBytesBut (fun m a => m = (if d.mem = 1 then 2 else hearthNo d.die) ∧
    ∃ f ∈ b.fills, f.spare = some index ∧ f.done = false ∧ Within a (slotAddr d f.mb f.slot) (sampleBytes d)) s t ∧
  ((∀ x ∈ b.spares, x.index ≠ index) → (t.bstream e).cursor = { b.cursor with skip := b.cursor.skip + 1 } ∧
    (t.bstream e).fills = b.fills.map (fun f => if f.index = index ∧ f.spare = none ∧ f.done = false then { f with skipped := some reason } else f) ∧
    ∀ x ∈ (t.bstream e).samples, x.index ≠ index) ∧
  (∀ x, b.spares.find? (fun x => x.index == index) = some x → x.taken = false →
    (t.bstream e).cursor = { b.cursor with
      skip := b.cursor.skip + 1, next := b.cursor.next + 1, reserve := b.cursor.reserve.filter (fun i => i != index) ++ [b.cursor.next] } ∧
    (t.bstream e).fills = b.fills)

/-! ## Ingots -/

/-- Of the device only its ingot unit, the faults it has raised and what has gone out of it may differ, and of the registers those
listed and those that tell of a dropped fault message. -/
def OnlyIngots (l : List Fld) (s t : State) : Prop :=
  SameRegsBut (dropRegs ++ l) s t ∧ { t with regs := s.regs, ing := s.ing, faultQ := s.faultQ, out := s.out } = s

/-- The registers of a generation that ends (R369): the phase, the bays and their codes. -/
def endRegs : List Fld :=
  [Reg.ingStatusPhase, Reg.ingStatusBays, Reg.tmpStatusPhase, Reg.ingBayStateCode 0, Reg.ingBayStateCode 1]

/-- Generation `g` has ended (R369): none is written, the registers say so, and the bays it was written to are ADOPTED again. -/
def GenEnded (s t : State) (g : GenRun) : Prop :=
  t.ing = { s.ing with cur := none, carts := t.ing.carts } ∧ t.get Reg.ingStatusPhase = 0 ∧ t.get Reg.ingStatusBays = 0 ∧
  t.get Reg.tmpStatusPhase = s.tmpPhase.get Reg.tmpStatusPhase ∧
  ∀ b, b < 2 → t.bayCode b = if b ∈ g.bays ∧ s.bayCode b = 7 then 6 else s.bayCode b

/-- Generation `g` has failed on bay `b` (R371): it has ended, and is counted and raised. The cartridges, LAST_STEP and LAST_GEN are as
they were. -/
def GenFailed (s t : State) (g : GenRun) (b : Nat) : Prop :=
  GenEnded s t g ∧ t.ing.carts = s.ing.carts ∧ t.out = s.out ∧ OnlyIngots (Reg.ingGensFailed :: endRegs) s t ∧
  Counted s t Reg.ingGensFailed ∧ Raised s t srcIngot 0x62 clsC (b + g.gen % 2 ^ 32 * 2 ^ 8)

/-- Generation `g` is complete after `ms` milliseconds (R369): it has ended, its cartridges hold it complete, and its time is shown. A
step's generation is the newest and is counted, and the COMMIT hold goes when its condition is met; a capture generation is neither. -/
def GenComplete (s t : State) (g : GenRun) (ms : Nat) : Prop :=
  ∃ v : State, t = (if g.capture then v else v.releaseCommit) ∧ GenEnded s v g ∧ v.out = s.out ∧ v.faultQ = s.faultQ ∧
    v.get Reg.ingLastWriteMs = min ms 65535 ∧
    (∀ b, v.cart? b = if b < 2 ∧ b ∈ g.bays then (s.cart? b).map (State.completeOn g) else s.cart? b) ∧
    OnlyIngots (endRegs ++ [Reg.ingLastWriteMs, Reg.ingBayZonesFree 0, Reg.ingBayZonesFree 1] ++
      (if g.capture then [] else [Reg.ingLastStep, Reg.ingLastGenLo, Reg.ingLastGenHi, Reg.ingGensOk])) s v ∧
    (g.capture = false → v.get Reg.ingLastStep = g.step % 2 ^ 32 ∧ v.get64 Reg.ingLastGenLo Reg.ingLastGenHi = g.gen % 2 ^ 64 ∧
      Counted s v Reg.ingGensOk)

/-- The appends among what has gone out. -/
def appendsOf (l : List Out) : List Out :=
  l.filter (fun o => match o with
    | .append _ _ _ _ _ => true
    | _ => false)

/-- The registers that show a bay's cartridge (Table 14-11). -/
def cartRegs (b : Nat) : List Fld :=
  [Reg.ingBayStateLifeLow b, Reg.ingBayStateLifeBad b, Reg.ingBayLinkWidth b, Reg.ingBayLinkSpeed b, Reg.ingBayWrittenLo b,
   Reg.ingBayWrittenHi b, Reg.ingBayRatedLo b, Reg.ingBayRatedHi b, Reg.ingBayZonesRing b, Reg.ingBayZonesFree b, Reg.ingBayZoneCap b]

/-- A bay shows no cartridge: its CODE, every register of it at its reset value, and nothing else of the device changed. -/
def BayOff (s t : State) (b code : Nat) : Prop :=
  t.bayCode b = code ∧ (∀ f ∈ cartRegs b, t.get f = f.rst) ∧ t.cart? b = none ∧ (∀ k, k ≠ b → t.cart? k = s.cart? k) ∧
  { t.ing with carts := s.ing.carts } = s.ing ∧ { t with regs := s.regs, ing := s.ing, faultQ := s.faultQ, out := s.out } = s

/-- A generation that uses bay `b` loses it (R371, R381): the commands outstanding on it are counted as errors, and the generation
fails; under MIRROR it goes on alone on the other bay, where Flush goes once its last append has landed, and it is complete where the
other bay's Flush has completed. A generation that does not use the bay is as it was. -/
def BayLost (s t : State) (b : Nat) : Prop :=
  ((∀ g, s.ing.cur = some g → b ∉ g.bays) → t = s) ∧
  ∀ g, s.ing.cur = some g → b ∈ g.bays →
    let n := (g.flight.filter (fun r => r.bay == b)).length + (if b ∈ g.flushing then 1 else 0)
    let u := s.put (Reg.ingBayCmdErr b) (min (s.get (Reg.ingBayCmdErr b) + n) (2 ^ (Reg.ingBayCmdErr b).w - 1))
    (¬ (g.policy = 2 ∧ g.bays.length = 2) → ∃ v, t = v.releaseCommit ∧ GenFailed u v g b) ∧
    (g.policy = 2 → g.bays.length = 2 →
      let h := { g with
        bays := [1 - b], todo := g.todo.filter (fun r => r.bay != b), flight := g.flight.filter (fun r => r.bay != b)
        flushing := g.flushing.filter (fun x => x != b) }
      let w := { u.put Reg.ingStatusBays (2 ^ (1 - b)) with ing := { s.ing with cur := some h } }
      (g.flushing ≠ [] → h.flushing = [] → GenComplete w t h g.ms) ∧
      (g.flushing = [] ∨ h.flushing ≠ [] →
        let flush := g.flushing = [] ∧ h.todo = [] ∧ h.flight = []
        (flush → t = { w.put Reg.ingStatusPhase 3 with
          ing := { s.ing with cur := some { h with flushing := [1 - b] } }, out := s.out ++ [.flush (1 - b)] }) ∧
        (¬ flush → t = w)))

end Sys2Proof.Machine
end

