-- ==== Sys2Proof/Certificates/Slice0/Obligations.lean ====
section
/-!
DEFINITION. Certificates/Slice0/Obligations.lean: the statements for the provers. -/

open Sys2Proof Sys2Proof.Machine

/-! ## Sessions and slots (chapter 16) -/

/-- R428, R431: a HELLO opens the session of the lowest number that is free, at level 0 and without keys, and the device answers with a
report whose NONCE is the HELLO's bytes and whose KEM_EK is the one the session keeps; those bytes are then the nonce that a claim
may use. Nothing else changes but the count of free values. A HELLO that finds all eight in use is counted in SESSION_REFUSED, with
no other effect. -/
def Obligations.HelloOpensSession : Prop :=
  ∀ (s : State) (f : HjFrame) (bytes : Nat), s.svcUp = true → f.good = true → f.session = 0 → s.smithUp = true →
    s.sys.booted = true → s.life ≠ .quench →
    (∀ n < 8, (∀ m < n, ∃ x ∈ s.mbx.sessions, x.num = m) → (∀ x ∈ s.mbx.sessions, x.num ≠ n) →
      ∃ t r, exec (.hello f bytes) s = .next t ∧ r.nonce = bytes ∧
        t.mbx = { s.mbx with
          sessions := s.mbx.sessions ++ [{ num := n, sid := s.mbx.nextSid, hello := bytes, kemEk := r.kemEk, keyed := false, keys := []
                                           level := 0, who := 0, nonceIn := none, nonceOut := 0, authed := false
                                           commanded := false, upload := none }]
          nextSid := s.mbx.nextSid + 1 } ∧
        t.cru = { s.cru with claimNonce := some bytes } ∧ t.out = s.out ++ [.hjReport s.mbx.nextSid r] ∧
        { t with mbx := s.mbx, cru := s.cru, out := s.out, freeCtr := s.freeCtr } = s) ∧
    ((∀ n < 8, ∃ x ∈ s.mbx.sessions, x.num = n) → exec (.hello f bytes) s = .next (s.count Reg.mbxSessionRefused))

/-- R427: frames are handled one at a time, in arrival order, as every command is. A sealed frame that names no session with keys, one whose tag fails, one whose NONCE is not greater than the last accepted
of its session, and a frame whose MAGIC, VERSION or TYPE is wrong, is counted in SEAL_FAIL and has no other effect and no answer; so
is a KEM that names no session awaiting one, and a HELLO with a SESSION. The device's own NONCE of a session starts at 0, and rises
by one with each sealed frame that it sends, which carries it. -/
def Obligations.BadFramesChangeNothing : Prop :=
  ∀ (s : State) (f : HjFrame) (c : Cred), s.svcUp = true →
    (∀ (i : Instr) (rest : List Instr), step { s with pending := i :: rest } = exec i { s with pending := rest }) ∧
    let discards := fun i : Instr => exec i s = .next (s.count Reg.mbxSealFail)
    (f.good = false ∨ (∀ x, s.session? f.session = some x → x.keyed = false ∨ f.tagOk = false ∨ ∃ n, x.nonceIn = some n ∧ f.nonce ≤ n) →
      discards (.auth f c) ∧ discards (.command f) ∧ discards (.read f) ∧ discards (.ack f) ∧ discards (.list f) ∧ discards (.close f) ∧
      discards (.ping f)) ∧
    (f.good = false ∨ (∀ x, s.session? f.session = some x → x.keyed = true) → discards (.kem f)) ∧
    (∀ bytes, f.good = false ∨ f.session ≠ 0 → discards (.hello f bytes)) ∧
    (∀ bytes, f.good = true → f.session = 0 → s.smithUp = true → s.sys.booted = true → s.life ≠ .quench → s.mbx.sessions = [] →
      ∃ t, exec (.hello f bytes) s = .next t ∧ t.mbx.sessions.map (fun y => y.nonceOut) = [0]) ∧
    (∀ (x : Session) (h : HjHead) (l : List Byte), s.session? x.sid = some x →
      (s.sendSealed x h l).out = answered s x { h with session := x.sid, nonce := x.nonceOut } l ∧
      (s.sendSealed x h l).session? x.sid = some { x with nonceOut := x.nonceOut + 1 }) ∧
    (∀ x, ValidFrame s f x → ∃ t, exec (.ping f) s = .next t ∧ t.out = answered s x (replyHead x f.tag 0 0xFFFF 0) [] ∧
      (t.session? f.session).map (fun y => y.nonceOut) = some (x.nonceOut + 1))

/-- R428 to R431: KEM gives a session that awaits one its keys; an AUTH before any COMMAND, outside Blank and Recovery, whose
signatures verify, raises the session: that of the enrolled owner to level 3, with the owner's digest as its ID, and an operator's with
a grant of the owner for its level 1 or 2 and of no revoked serial to that level, with the operator's digest; any other AUTH closes the
session and counts AUTH_FAIL. PING is answered with a REPLY; CLOSE ends its session without an answer: its bank of the register space
returns to reset, its READY level-0 slots are freed, and its PENDING ones are freed once READY. -/
def Obligations.SessionFramesAct : Prop :=
  ∀ (s : State) (f : HjFrame) (x : Session),
    (s.svcUp = true → s.session? f.session = some x → f.good = true → x.keyed = false →
      exec (.kem f) s = .next { s with mbx := { s.mbx with
        sessions := withSession s.mbx.sessions { x with keyed := true, keys := sessionKeys x f.payload } } }) ∧
    (ValidFrame s f x →
      (∀ c : Cred,
        let first := x.authed = false ∧ x.commanded = false ∧ s.life ≠ .blank ∧ s.life ≠ .recovery
        let granted := c.grantOwner = c.owner ∧ c.grantLevel = c.level ∧ s.get Reg.mbxGrantMin ≤ c.serial
        let good := first ∧ c.sigOk = true ∧ s.cru.owner = some c.owner ∧ (c.level = 3 ∨ ((c.level = 1 ∨ c.level = 2) ∧ granted))
        (good → exec (.auth f c) s = .next { s with mbx := { s.mbx with
          sessions := withSession s.mbx.sessions { x with
            nonceIn := some f.nonce, authed := true, level := c.level, who := if c.level = 3 then c.owner else c.who } } }) ∧
        (¬ good → ∃ t, exec (.auth f c) s = .next t ∧ t.mbx.sessions = s.mbx.sessions.filter (fun y => y.num != x.num) ∧
          Counted s t Reg.mbxAuthFail ∧ SameRegsBut [Reg.mbxAuthFail] s t ∧
          { t with mbx := s.mbx, sys := s.sys, regs := s.regs, out := s.out } = s)) ∧
      exec (.ping f) s = .next { s with
        mbx := { s.mbx with sessions := withSession s.mbx.sessions { x with nonceIn := some f.nonce, nonceOut := x.nonceOut + 1 } }
        out := answered s x (replyHead x f.tag 0 0xFFFF 0) [] } ∧
      ∃ t, exec (.close f) s = .next t ∧ t.mbx.sessions = s.mbx.sessions.filter (fun y => y.num != x.num) ∧
        t.bank (2 + x.num) = Bank.init ∧ (∀ k, k ≠ 2 + x.num → t.bank k = s.bank k) ∧
        (∀ y ∈ s.mbx.slots, y.level ≠ 0 ∨ y.session ≠ x.num → y ∈ t.mbx.slots) ∧
        (∀ y ∈ t.mbx.slots, y.level = 0 → y.session = x.num → y.ready = false ∧ y.closed = true) ∧
        { t with mbx := { t.mbx with sessions := s.mbx.sessions, slots := s.mbx.slots }, sys := { t.sys with banks := s.sys.banks } } = s)

/-- R432 to R435, R438: a COMMAND that brings the whole of a legal argument in one frame is accepted into the lowest slot that is free,
PENDING, counted, and answered OK, and a journalled one other than HALT and RESET joins the queue last. One that brings a part of its
argument is kept without an answer. A whole one is refused in its REPLY, and counted, with BAD_OPCODE, with BAD_ARGS, with LEVEL below
the level of Table 16-5, and with SLOTS_FULL while all 64 slots are held; a part beyond TOTAL is refused with BAD_ARGS. A duplicate is
counted and answered with the REPLY of its slot again. (A LOAD_BILLET of another job erases the seed at its header: it is not meant here.) -/
def Obligations.CommandTakesSlot : Prop :=
  ∀ (s : State) (f : HjFrame) (x : Session), ValidFrame s f x → x.upload = none → f.total ≤ 8388608 →
    (f.opcode = 0x0103 → s.jobDiffers (fieldAt f.payload 16 16) = false) →
    let y : Session := { x with nonceIn := some f.nonce, commanded := true }
    let now : Mbx := { s.mbx with sessions := withSession s.mbx.sessions { y with nonceOut := x.nonceOut + 1 } }
    let refused := fun (status : Nat) => ∃ t, exec (.command f) s = .next t ∧ t.mbx = now ∧
      t.out = answered s x (replyHead x f.tag f.opcode 0xFFFF status) [] ∧ Counted s t Reg.mbxRefused ∧ SameRegsBut [Reg.mbxRefused] s t ∧
      { t with mbx := s.mbx, out := s.out, regs := s.regs } = s
    (∀ z, s.mbx.slots.find? (fun z => z.who == x.who && z.tag == f.tag) = some z → ∃ t, exec (.command f) s = .next t ∧ t.mbx = now ∧
      t.out = answered s x (replyHead x z.tag z.opcode z.num 0) [] ∧ Counted s t Reg.mbxDuplicate ∧ SameRegsBut [Reg.mbxDuplicate] s t ∧
      { t with mbx := s.mbx, out := s.out, regs := s.regs } = s) ∧
    (s.duplicateOf x f.tag = none →
      (f.total < f.offset + f.payload.length → refused 5) ∧
      (f.offset + f.payload.length ≤ f.total → f.payload ≠ [] → f.payload.length < f.total →
        exec (.command f) s = .next { s with mbx := { s.mbx with sessions := withSession s.mbx.sessions { y with
          upload := some { opcode := f.opcode, tag := f.tag, total := f.total
                           head := f.offset == 0 && decide (min 32 f.total ≤ f.payload.length), parts := [(f.offset, f.payload)] } } } }) ∧
      (f.offset = 0 → f.total = f.payload.length →
        (cmdInfo f.opcode = none → refused 4) ∧
        ∀ c, cmdInfo f.opcode = some c →
          (argsOk f.opcode f.payload = false → refused 5) ∧
          (argsOk f.opcode f.payload = true → x.level < cmdLevel c s.life → refused 7) ∧
          (argsOk f.opcode f.payload = true → cmdLevel c s.life ≤ x.level →
            ((∀ n < 64, s.slot? n ≠ none) → refused 3) ∧
            ∀ n < 64, s.slot? n = none → (∀ m < n, s.slot? m ≠ none) → ∃ t, exec (.command f) s = .next t ∧
              t.mbx = { now with
                slots := s.mbx.slots ++ [{ num := n, session := x.num, level := x.level, who := x.who, hello := x.hello, tag := f.tag
                                           opcode := f.opcode, arg := f.payload, ready := false, code := 0, result := [], reads := 0
                                           jseq := none, closed := false }]
                queue := if c.journalled ∧ f.opcode ≠ 0x0107 ∧ f.opcode ≠ 0x0109 then s.mbx.queue ++ [n] else s.mbx.queue } ∧
              t.out = answered s x (replyHead x f.tag f.opcode n 0) [] ∧ Counted s t Reg.mbxCmds ∧ SameRegsBut [Reg.mbxCmds] s t ∧
              { t with mbx := s.mbx, out := s.out, regs := s.regs } = s)))

/-- R436 to R438: a READ of a READY slot of the caller's ID, or of any at level 3, returns its code and its result from OFFSET, at most
8,192 bytes, and READS counts the READ at OFFSET 0; one of a PENDING slot returns NOT_READY; an ACK of a slot's TAG frees a READY slot
and leaves a PENDING one, which it answers NOT_READY. A READ or an ACK of a free slot, of another ID's below level 3, and an ACK of
another TAG are answered NO_SLOT. LIST returns one record of 16 bytes for each slot of the caller's ID, or of any at level 3, in order. -/
def Obligations.SlotsAreReadAndFreed : Prop :=
  ∀ (s : State) (f : HjFrame) (x : Session), ValidFrame s f x →
    let now := withSession s.mbx.sessions { x with nonceIn := some f.nonce, nonceOut := x.nonceOut + 1 }
    let sent := fun (i : Instr) (l : List Slot) (h : HjHead) (p : List Byte) =>
      exec i s = .next { s with mbx := { s.mbx with sessions := now, slots := l }, out := answered s x h p }
    (∀ y, s.slot? f.slot = some y → x.level = 3 ∨ y.who = x.who →
      (y.ready = true → y.reads < 65535 →
        let z := if f.offset = 0 then { y with reads := y.reads + 1 } else y
        sent (.read f) (s.mbx.slots.map (fun w => if w.num = z.num then z else w))
          { resultHead x y.tag f.slot f.offset with
            opcode := y.opcode, total := y.result.length, status := y.code, reads := z.reads, jseq := y.jseq.getD (2 ^ 64 - 1) }
          ((y.result.drop f.offset).take (min f.len 8192))) ∧
      (y.ready = false → sent (.read f) s.mbx.slots { resultHead x y.tag f.slot f.offset with opcode := y.opcode, status := 1 }
        (List.replicate (min f.len 8192) 0#8)) ∧
      (y.tag = f.tag → y.ready = true → sent (.ack f) (s.mbx.slots.filter (fun z => z.num != f.slot)) (replyHead x f.tag 0 f.slot 0) []) ∧
      (y.tag = f.tag → y.ready = false → sent (.ack f) s.mbx.slots (replyHead x f.tag 0 f.slot 1) []) ∧
      (y.tag ≠ f.tag → sent (.ack f) s.mbx.slots (replyHead x f.tag 0 f.slot 2) [])) ∧
    ((∀ y, s.slot? f.slot = some y → x.level ≠ 3 ∧ y.who ≠ x.who) →
      sent (.read f) s.mbx.slots { resultHead x f.tag f.slot f.offset with status := 2 } [] ∧
      sent (.ack f) s.mbx.slots (replyHead x f.tag 0 f.slot 2) []) ∧
    (let l := ((List.range 64).filterMap (fun n => (s.slot? n).filter (fun y => x.level == 3 || y.who == x.who))).flatMap slotRecord
     sent (.list f) s.mbx.slots { resultHead x f.tag 0xFFFF 0 with total := l.length } l)

/-- R425, R431, R296: a session that stays idle is closed and counted, after one sealed CLOSE where it has its keys; a Neighbor
Solicitation and an Echo Request on the service port are answered. An interface in Ethernet mode that is up counts a good PAUSE frame,
takes the UDP frames of the Bloom port that pass its filters, answers a solicitation for its address, and drops and counts every
other frame. -/
def Obligations.ServiceAndEthernetAnswer : Prop :=
  ∀ (s : State),
    (s.svcUp = true →
      (∀ (n : Nat) (x : Session), s.mbx.sessions.find? (fun y => y.num == n) = some x →
        ∃ t, exec (.sessionIdleTimeout n) s = .next t ∧ (∀ y ∈ t.mbx.sessions, y.num ≠ n) ∧
          Counted s t Reg.mbxTimeouts ∧ SameRegsBut [Reg.mbxTimeouts] s t ∧
          (x.keyed = true → s.session? x.sid = some x → t.out = answered s x (closeHead x) []) ∧
          { t with mbx := s.mbx, sys := s.sys, out := s.out, regs := s.regs } = s) ∧
      exec (.serviceIcmpv6 135) s = .next { s with out := s.out ++ [.icmpv6 135] } ∧
      exec (.serviceIcmpv6 128) s = .next { s with out := s.out ++ [.icmpv6 128] }) ∧
    (∀ (p iface : Nat) (f : EthFrame), 8 ≤ p → p < 12 → s.get (Reg.fabCtrlMode p) = 1 → s.get (Reg.fabStatusState p) = 5 →
      let passes := f.fcsOk = true ∧ (f.toMac = true ∨ f.toGroup = true) ∧ f.etherType = 0x86DD ∧ f.extension = false ∧ f.fragment = false
      let counts := fun (c : Fld) => exec (.ethFrame p iface f) s = .next (s.put c (min (s.get c + 1) (2 ^ c.w - 1)))
      let wanted := (f.nextHeader = 17 ∧ f.udpPort = s.get Reg.blmEthPort) ∨ (f.nextHeader = 58 ∧ f.solicitsUs = true)
      (f.fcsOk = true → f.pause = true → counts (Reg.fabEthPause p)) ∧
      (f.pause = false → passes → f.nextHeader = 17 → f.udpPort = s.get Reg.blmEthPort → exec (.ethFrame p iface f) s = .next s) ∧
      (f.pause = false → passes → f.nextHeader = 58 → f.solicitsUs = true →
        exec (.ethFrame p iface f) s = .next { s with out := s.out ++ [.advert p iface] }) ∧
      (¬ (f.fcsOk = true ∧ f.pause = true) → ¬ (passes ∧ wanted) → counts (Reg.fabEthDrop p)))

/-! ## Smith (chapters 15 and 16) -/

/-- R405, R407, R443, R444, R530: the reading commands complete OK with their results of Table 16-5. IDENTIFY, STATUS, FAULT_READ and
JOURNAL_READ, which are not journalled, change nothing but their slots: IDENTIFY gives the fields of its 64 bytes, STATUS those of
R444, FAULT_READ FIRST and its angle, the flags of FLT.STATUS and a counter for each of COUNT sources, and JOURNAL_READ the head, the
oldest SEQ, N, RESUME_ID and the first COUNT entries of its walk that its filter passes. JOB_ESCROW_READ gives the escrow's two parts, or
completes NO_ESCROW. ATTEST completes with the certificate, a report body over its nonce and a signature of 8,240 bytes, and its nonce
is the one that a claim may use next. INGOT_LIST completes with a header of 32 bytes and a record of 32 bytes for each generation of
the bays it selects that the device can read, the first 4,000 of them. -/
def Obligations.ReadingCommandsComplete : Prop :=
  ∀ (s : State) (n : Nat) (x : Slot),
    (Starts s n 0x0001 x → ∃ t r, exec (.identify n) s = .next t ∧ Finished s t x 0 r ∧ { t with mbx := s.mbx } = s ∧
      r.length = 64 ∧ r.take 16 = Config.serialBytes ∧ fieldAt r 16 4 = Config.stepping % 2 ^ 32 ∧
      (∀ k, 1 ≤ k → k ≤ 4 → fieldAt r (16 + 4 * k) 4 = s.get (Reg.cruVersion k) % 2 ^ 32) ∧
      fieldAt r 36 1 = s.life.code ∧ fieldAt r 38 2 = s.addr % 2 ^ 16 ∧ fieldAt r 40 6 = Config.mac % 2 ^ 48) ∧
    (Starts s n 0x0003 x → ∃ t r, exec (.status n) s = .next t ∧ Finished s t x 0 r ∧ { t with mbx := s.mbx } = s ∧
      r.length = 128 ∧ fieldAt r 0 1 = s.life.code ∧ fieldAt r 2 2 = s.cad.attempt % 2 ^ 16 ∧ fieldAt r 8 6 = s.cad.angle % 2 ^ 48 ∧
      fieldAt r 16 2 = s.cad.master % 2 ^ 16 ∧ fieldAt r 24 8 = s.get64 Reg.fltFirstLo Reg.fltFirstHi % 2 ^ 64 ∧
      fieldAt r 32 8 = s.get64 Reg.fltFirstAngleLo Reg.fltFirstAngleHi % 2 ^ 64 ∧ fieldAt r 40 4 = s.get Reg.ingLastStep % 2 ^ 32 ∧
      fieldAt r 44 4 = s.get Reg.tmpLastUpdated % 2 ^ 32 ∧ fieldAt r 48 8 = s.get64 Reg.ingLastGenLo Reg.ingLastGenHi % 2 ^ 64 ∧
      fieldAt r 56 8 = s.jnl.head % 2 ^ 64 ∧ fieldAt r 64 4 = s.causeWord % 2 ^ 32 ∧
      (∀ b, s.billet = some b → fieldAt r 80 48 = b.digest % 2 ^ 384)) ∧
    (Starts s n 0x0301 x → ∃ t, exec (.faultRead n) s = .next t ∧ { t with mbx := s.mbx } = s ∧
      Finished s t x 0 (leBytes 8 (s.get64 Reg.fltFirstLo Reg.fltFirstHi) ++ leBytes 8 (s.get64 Reg.fltFirstAngleLo Reg.fltFirstAngleHi) ++
        leBytes 4 (s.wordView 0 .firmware 0x20004) ++
        (List.range (fieldAt x.arg 2 2)).flatMap (fun i => leBytes 4 (s.get (Reg.fltCount (fieldAt x.arg 0 2 + i)))))) ∧
    (Starts s n 0x0302 x →
      let start := fieldAt x.arg 0 8
      let held := if fieldAt x.arg 10 1 = 1 then (s.jnl.entries.filter (fun e => decide (e.seq ≤ start) || decide (s.jnl.head ≤ start))).reverse
        else s.jnl.entries.filter (fun e => decide (start ≤ e.seq) && decide (start < s.jnl.head))
      let l := (held.filter (fun e => !bit (fieldAt x.arg 11 1) 0 || (e.who != 0 && e.who == x.who % 2 ^ 64))).take (fieldAt x.arg 8 2)
      ∃ t, exec (.journalRead n) s = .next t ∧ { t with mbx := s.mbx } = s ∧
        Finished s t x 0 (leBytes 8 s.jnl.head ++ leBytes 8 (s.jnl.head - s.jnl.entries.length) ++ leBytes 4 l.length ++ leBytes 4 0 ++
          leBytes 16 s.jnl.resumeId ++ l.flatMap JEntry.bytes)) ∧
    (Starts s n 0x0306 x → ∃ t, exec (.jobEscrowRead n) s = .next t ∧ { t with mbx := s.mbx } = s ∧
      (s.cru.escrow = none → Finished s t x 11 []) ∧
      (∀ ct k, s.cru.escrow = some (ct, k) → Finished s t x 0 (leBytes 1088 ct ++ leBytes 48 k))) ∧
    (Starts s n 0x0002 x → ∃ t sig, exec (.attest n) s = .next t ∧ t.cru = { s.cru with claimNonce := some (leNat (x.arg.take 32)) } ∧
      Finished s t x 0 (certBytes ++ Report.body (s.report (leNat (x.arg.take 32)) 0) ++ sig) ∧ sig.length = 8240 ∧
      { t with mbx := s.mbx, cru := s.cru, freeCtr := s.freeCtr } = s) ∧
    (Starts s n 0x0303 x →
      let gens := fun b => match s.cart? b with
        | some c => if bit (fieldAt x.arg 0 1) b && s.bayReadable b then c.gens.map (genRecord b) else []
        | none => []
      ∃ t h, exec (.ingotList n) s = .next t ∧ h.length = 32 ∧ Finished s t x 0 (h ++ ((gens 0 ++ gens 1).take 4000).flatten) ∧
        { t with mbx := s.mbx, freeCtr := s.freeCtr } = s)

/-- R407, R408: CLAIM of keys whose two signatures verify over the nonce of the newest report enrols their owner digest, brings the
device to Claimed and extends MEAS; over another nonce, or with a bad signature, it completes SIGNATURE; in both the nonce is spent. RELEASE by the
owner at level 3, over a report's nonce, or by the vendor with keys that are not revoked, bound to SERIAL, erases the owner record and
the wrapped seed, and with them the seed held and the billet, starts the scrub with SCRUB_OK 0, and runs on; a release that neither
signs completes SIGNATURE, and one of the owner below level 3 LEVEL. -/
def Obligations.OwnershipChanges : Prop :=
  ∀ (s : State) (n : Nat) (x : Slot),
    (∀ (nonce : Nat) (rsaOk slhOk : Bool), Starts s n 0x0101 x →
      let good := rsaOk = true ∧ slhOk = true ∧ s.cru.claimNonce = some nonce
      (good → ∃ t, exec (.claim n nonce rsaOk slhOk) s = .next t ∧ Finished s t x 0 [] ∧
        t.cru.owner = some (claimOwner x.arg) ∧ t.life = .claimed ∧ t.cru.claimNonce = none ∧
        t.cru.meas = extend s.cru.meas { index := s.get Reg.cruMeasCount, type := 5, kind := 0, slot := 0, version := 0, digest := claimOwner x.arg } ∧
        { t.cru with owner := s.cru.owner, claimNonce := s.cru.claimNonce, meas := s.cru.meas, log := s.cru.log } = s.cru ∧
        SameRegsBut [Reg.cruMeasCount, Reg.cruLogLost] s t ∧
        { t with mbx := s.mbx, jnl := s.jnl, cru := s.cru, life := s.life, regs := s.regs } = s) ∧
      (¬ good → ∃ t, exec (.claim n nonce rsaOk slhOk) s = .next t ∧ Finished s t x 8 [] ∧
        SigFailed s t ∧ t.cru = { s.cru with claimNonce := none } ∧ { t with mbx := s.mbx, jnl := s.jnl, cru := s.cru, regs := s.regs } = s)) ∧
    (∀ r : ReleaseObj, Starts s n 0x0102 x →
      let signed := r.sigOk = true ∧ r.serialDigest = Config.serialDigest ∧
        (if r.vendor then s.rsaRevoked r.rsaSlot = false ∧ s.slhRevoked r.slhSlot = false
         else s.cru.owner = some r.owner ∧ s.cru.claimNonce.isSome = true)
      (r.vendor = true ∨ 3 ≤ x.level → signed →
        ∃ t, exec (.release n r) s = .next t ∧ Runs s t x ∧ t.cru.owner = none ∧ t.cru.wrapped = none ∧ t.seed = none ∧
          t.billet = none ∧ t.get Reg.cruScrubBusy = 1 ∧ t.get Reg.cruStatusScrubOk = 0 ∧ t.get Reg.cruStatusSeedHeld = 0 ∧
          t.jnl = s.jnl ∧ t.life = s.life ∧ SameBytes s t) ∧
      (r.vendor = true ∨ 3 ≤ x.level → ¬ signed →
        ∃ t, exec (.release n r) s = .next t ∧ Finished s t x 8 [] ∧ SigFailed s t ∧ { t with mbx := s.mbx, jnl := s.jnl, regs := s.regs } = s) ∧
      (r.vendor = false → x.level < 3 →
        ∃ t, exec (.release n r) s = .next t ∧ Finished s t x 7 [] ∧ { t with mbx := s.mbx, jnl := s.jnl } = s))

/-- R440, R442, R483: ARM without a billet is REFUSED, and with one and SCRUB_OK 1 it runs, with discovery begun; DISARM
brings the device to Claimed; RUN brings it to Running with an election begun, where the billet names a candidate, its slot still PENDING and nothing stored outside Stock, and is turned away where the job stands
stopped for another cause than HALT and the abort limit; HALT is taken and waits for the stop; RESET completes and asserts a
core or a system reset. Each of the mailbox's commands (R435, R439) has no effect where its slot holds none that may start, and completes
WRONG_STATE, with nothing else changed, in a lifecycle state that does not accept it. -/
def Obligations.LifecycleCommandsAct : Prop :=
  (∀ (s : State) (n nonce : Nat) (v w : Bool) (r : ReleaseObj) (body : Billet) (tables : BilletTables) (amends : List Bool) (opened : Option Nat)
      (ecc : List EccRes),
    ∀ p ∈ [(0x0001, Instr.identify n), (0x0002, .attest n), (0x0003, .status n), (0x0101, .claim n nonce v w), (0x0102, .release n r),
        (0x0103, .loadBillet n body v amends tables), (0x0104, .arm n), (0x0105, .disarm n), (0x0106, .run n), (0x0107, .halt n),
        (0x0108, .restore n), (0x0109, .reset n), (0x0201, .serveOpen n), (0x0202, .serveClose n), (0x0203, .replayStep n),
        (0x0301, .faultRead n), (0x0302, .journalRead n), (0x0303, .ingotList n), (0x0304, .crsRead n ecc), (0x0305, .crsWrite n),
        (0x0306, .jobEscrowRead n), (0x0401, .fwWrite n v), (0x0402, .fwCommit n), (0x0403, .exceptionLoad n v), (0x0404, .revoke n v),
        (0x0405, .debugUnlock n v), (0x0406, .jobKeyImport n v opened)],
      (startable s n p.1 = none → exec p.2 s = .next s) ∧
      (∀ x, startable s n p.1 = some x → cmdAccepts p.1 s.life = false →
        ∃ t, exec p.2 s = .next t ∧ Finished s t x 6 [] ∧ { t with mbx := s.mbx, jnl := s.jnl } = s)) ∧
  ∀ (s : State) (n : Nat) (x : Slot),
    (Starts s n 0x0104 x →
      (s.billet = none → ∃ t, exec (.arm n) s = .next t ∧ Finished s t x 9 (List.replicate 16 0#8) ∧ { t with mbx := s.mbx, jnl := s.jnl } = s) ∧
      (s.billet.isSome = true → s.get Reg.cruStatusScrubOk = 1 → ∃ t, exec (.arm n) s = .next t ∧ t.mbx.running = some x.num ∧
        t.slot? n = some x ∧ t.get Reg.netStatusState = 1 ∧ t.net.sealedRecs = [] ∧ t.life = s.life ∧ t.jnl = s.jnl ∧ SameBytes s t)) ∧
    (Starts s n 0x0105 x → ∃ t, exec (.disarm n) s = .next t ∧ Finished s t x 0 [] ∧ t.life = .claimed ∧
      { t with mbx := s.mbx, jnl := s.jnl, life := s.life } = s) ∧
    (Starts s n 0x0106 x →
      (∀ b, s.billet = some b → b.cad.candidates ≠ [] → s.cad.stopped = none → ∃ t, exec (.run n) s = .next t ∧ t.life = .running ∧
        t.cad.role = .electing ∧ t.cad.active = true ∧ t.cad.angle = 0 ∧ t.slot? n = some x ∧ t.mbx.running = some n ∧ t.jnl = s.jnl ∧
        SameBytesBut (fun k _ => k = 3) s t) ∧
      (∀ c a, s.cad.stopped = some (c, a) → c ≠ 1 → c ≠ 4 → ∃ t, exec (.run n) s = .next t ∧ Finished s t x 6 [] ∧
        { t with mbx := s.mbx, jnl := s.jnl } = s)) ∧
    (Starts s n 0x0107 x → n ∉ s.mbx.halts → ∃ t, exec (.halt n) s = .next t ∧ t.slot? n = some x ∧ t.mbx.halts = s.mbx.halts ++ [n] ∧
      t.cad.haltPending = true ∧ t.life = s.life ∧ t.jnl = s.jnl ∧ SameBytes s t) ∧
    (Starts s n 0x0109 x → x.closed = false → s.sys.asserted = [] → (fieldAt x.arg 0 1 = 1 ∨ fieldAt x.arg 0 1 = 2) →
      ∃ t, exec (.reset n) s = .next t ∧ t.sys.asserted = [{ bit := 4, clock := none, level := fieldAt x.arg 0 1 }] ∧
        t.get Reg.rstCauseMbx = 1 ∧ (∀ d ∈ coreReach, t.domUp d = false) ∧
        (fieldAt x.arg 0 1 = 1 → ∃ y, t.slot? n = some y ∧ y.ready = true ∧ y.code = 0) ∧
        (fieldAt x.arg 0 1 = 2 → t.mbx.slots = [] ∧ t.mbx.sessions = []))

/-- R220, R383, R387: SERVE_OPEN and SERVE_CLOSE run, and wait for the next s:0x0000 with nothing else changed; RESTORE of a billet
that names a candidate begins a restore with the step it asks for; REPLAY_STEP without an ingot of the step completes NO_INGOT, and with
one, and a candidate, begins a replay of that step up to its STOP stroke. -/
def Obligations.ServingAndRestoreBegin : Prop :=
  ∀ (s : State) (n : Nat) (x : Slot),
    (Starts s n 0x0201 x → exec (.serveOpen n) s = .next { s with mbx := { s.mbx with running := some n } }) ∧
    (Starts s n 0x0202 x → exec (.serveClose n) s = .next { s with mbx := { s.mbx with running := some n } }) ∧
    (∀ b, Starts s n 0x0108 x → s.billet = some b → b.cad.candidates ≠ [] → ∃ t, exec (.restore n) s = .next t ∧ ∃ r, t.ing.restore = some r ∧ t.mbx.slots = s.mbx.slots ∧
      r.want = (if leNat (x.arg.take 4) = 0xFFFFFFFF then none else some (leNat (x.arg.take 4))) ∧ r.loaded = false ∧ r.reports = [] ∧
      t.mbx.running = some n ∧ t.life = s.life ∧ SameBytes s t) ∧
    (Starts s n 0x0203 x →
      ((s.startRunning x).readLabels.copies (fieldAt x.arg 0 4) = [] → ∃ t, exec (.replayStep n) s = .next t ∧ Finished s t x 10 [] ∧ t.ing.replay = s.ing.replay ∧
        t.life = s.life ∧ SameBytes s t) ∧
      (∀ b, (s.startRunning x).readLabels.copies (fieldAt x.arg 0 4) ≠ [] → s.billet = some b → b.cad.candidates ≠ [] → ∃ t, exec (.replayStep n) s = .next t ∧ ∃ q,
        t.ing.replay = some q ∧ q.step = fieldAt x.arg 0 4 ∧ q.stop = fieldAt x.arg 4 2 ∧ t.slot? n = some x ∧ t.mbx.running = some n))

/-- R393, R401, R402, R419, R417, R445: FW_WRITE puts the image of its argument into the slot that ACTIVE does not name; FW_COMMIT of a
mask whose written images are all accepted flips ACTIVE where they form a tested set with the active images of the other kinds, and is
REFUSED where they do not; with one that is not accepted it is SIGNATURE. EXCEPTION_LOAD holds a valid token; REVOKE burns the fuse
of a slot, and is REFUSED where it would leave no slot of the algorithm; DEBUG_UNLOCK by its signer sets DEBUG and extends MEAS;
JOB_KEY_IMPORT of the billet's job holds the seed, and of another job answers 0 and holds nothing. An object that does not verify, or
an import object bound to another session, is SIGNATURE, and the device keeps what it had. -/
def Obligations.FirmwareAndKeysChange : Prop :=
  ∀ (s : State) (n : Nat) (x : Slot) (v : Bool),
    let badSig := fun (i : Instr) => ∃ t, exec i s = .next t ∧ Finished s t x 8 [] ∧ SigFailed s t ∧ { t with mbx := s.mbx, jnl := s.jnl, regs := s.regs } = s
    (Starts s n 0x0401 x → let img := imageOf x.arg v
      ∃ t, exec (.fwWrite n v) s = .next t ∧ Finished s t x 0 (leBytes 1 (1 - s.activeSlot)) ∧
        t.cru = { s.cru with images := Assoc.put s.cru.images (4 * (1 - s.activeSlot) + img.kind - 1) img } ∧
        { t with mbx := s.mbx, jnl := s.jnl, cru := s.cru } = s) ∧
    (Starts s n 0x0402 x → s.activeSlot ≤ 1 →
      let m := fieldAt x.arg 0 1 % 16
      ((∀ k, 1 ≤ k → k ≤ 4 → bit m (k - 1) = true → (s.acceptedAt (1 - s.activeSlot) k).isSome = true) →
        (tested (s.candidate m) = true → ∃ t, exec (.fwCommit n) s = .next t ∧ t.activeSlot = 1 - s.activeSlot ∧
          Finished s t x 0 (leBytes 1 (1 - s.activeSlot)) ∧ SameRegsBut [Reg.cruBootActive] s t ∧
          { t with mbx := s.mbx, jnl := s.jnl, regs := s.regs } = s) ∧
        (tested (s.candidate m) = false → ∃ t, exec (.fwCommit n) s = .next t ∧ Finished s t x 9 (List.replicate 16 0#8) ∧
          { t with mbx := s.mbx, jnl := s.jnl } = s)) ∧
      (∀ k, 1 ≤ k → k ≤ 4 → bit m (k - 1) = true → s.acceptedAt (1 - s.activeSlot) k = none → ∃ t, exec (.fwCommit n) s = .next t ∧
        Finished s t x 8 [] ∧ SameRegsBut [Reg.cruSigFail] s t ∧ { t with mbx := s.mbx, jnl := s.jnl, regs := s.regs } = s)) ∧
    (Starts s n 0x0403 x → let tok := tokenOf x.arg v
      (s.tokenOk tok = true → ∃ t, exec (.exceptionLoad n v) s = .next t ∧ Finished s t x 0 [] ∧
        { t with mbx := s.mbx, jnl := s.jnl } = { s with cru := { s.cru with token := some tok } }) ∧
      (s.tokenOk tok = false → badSig (.exceptionLoad n v))) ∧
    (Starts s n 0x0404 x → let o := revocationOf x.arg v
      let f := if o.alg = 0 then Reg.cruFuseRsaRevoked else Reg.cruFuseSlhRevoked
      (vendorSigned s o = true → o.alg ≤ 1 → o.slot ≤ 3 →
        (s.get f ||| 2 ^ o.slot = 15 → ∃ t, exec (.revoke n v) s = .next t ∧ Finished s t x 9 (List.replicate 16 0#8) ∧
          { t with mbx := s.mbx, jnl := s.jnl } = s) ∧
        (s.get f < 16 → s.get f ||| 2 ^ o.slot ≠ 15 → ∃ t, exec (.revoke n v) s = .next t ∧ Finished s t x 0 [] ∧
          t.get f = s.get f ||| 2 ^ o.slot ∧ SameRegsBut [f] s t ∧ { t with mbx := s.mbx, jnl := s.jnl, regs := s.regs } = s)) ∧
      (vendorSigned s o = false → badSig (.revoke n v))) ∧
    (Starts s n 0x0405 x → let o := unlockOf x.arg v
      let signed := if s.life = .claimed ∨ s.life = .armed then ownerSigned s o else vendorSigned s o
      (signed = true → ∃ t, exec (.debugUnlock n v) s = .next t ∧ Finished s t x 0 [] ∧ t.get Reg.cruStatusDebug = 1 ∧
        t.cru.meas = extend s.cru.meas { index := s.get Reg.cruMeasCount, type := 4, kind := 0, slot := 0, version := 0, digest := o.digest } ∧
        { t.cru with meas := s.cru.meas, log := s.cru.log } = s.cru ∧
        SameRegsBut [Reg.cruStatusDebug, Reg.cruMeasCount, Reg.cruLogLost] s t ∧
        { t with mbx := s.mbx, jnl := s.jnl, cru := s.cru, regs := s.regs } = s) ∧
      (signed = false → badSig (.debugUnlock n v))) ∧
    (∀ opened, Starts s n 0x0406 x → let o := importOf x.arg v opened
      (∀ k, opened = some k → o.good = true → o.hello = x.hello →
        (∀ b, s.billet = some b → o.jobId = b.jobId → ∃ t, exec (.jobKeyImport n v opened) s = .next t ∧ Finished s t x 0 [1#8] ∧
          t.seed = some k ∧ t.cru = { s.cru with wrapped := some (b.jobId, b.digest, k) } ∧ t.get Reg.cruStatusSeedHeld = 1 ∧
          SameRegsBut [Reg.cruStatusSeedHeld, Reg.cruSeedParent] s t ∧
          { t with mbx := s.mbx, jnl := s.jnl, cru := s.cru, seed := s.seed, regs := s.regs } = s) ∧
        ((∀ b, s.billet = some b → o.jobId ≠ b.jobId) → ∃ t, exec (.jobKeyImport n v opened) s = .next t ∧ Finished s t x 0 [0#8] ∧
          { t with mbx := s.mbx, jnl := s.jnl } = s)) ∧
      (opened = none ∨ o.good = false ∨ o.hello ≠ x.hello → badSig (.jobKeyImport n v opened)))

/-- R411, R412, R440, R441: while no scrub runs and SCRUB_OK is 1, LOAD_BILLET of a billet of no other job that passes every check
completes OK: the device holds it, with the tables of its bytes, under its own address; the Strike table and the settings of the Cadence are
the billet's; without amendments MEAS is extended by its digest; and the signed bytes lie at the staging base in Stock where no image of
the billet lies over them. One whose header or owner is wrong, whose tables or sections break a rule, or whose roster lacks the device, is
REFUSED with CRU billet, and one whose signatures fail is SIGNATURE with CRU billet; the billet held is kept. A billet of
another job erases the seed, held and wrapped, and starts the scrub that is due; while SCRUB_OK is 0 the command is REFUSED. -/
def Obligations.LoadBilletTakesEffect : Prop :=
  ∀ (s : State) (n : Nat) (x : Slot) (body : Billet) (tables : BilletTables) (sigOk : Bool) (amends : List Bool), Starts s n 0x0103 x →
    s.get Reg.cruScrubBusy = 0 →
    let i : Instr := .loadBillet n body sigOk amends tables
    let l := signedBillet x.arg
    let b0 := billetOf l body
    let roster := amendmentsOf x.arg amends
    let refused := fun (u : State) (code : Nat) (r : List Byte) => ∃ t, exec i s = .next t ∧ Finished s t x code r ∧ t.billet = s.billet ∧ SameBytes s t ∧
      (s.waitingFrom srcCrucible < 16 → t.faultQ = s.faultQ ++ [s.faultMsg srcCrucible 0x6E clsU 0 false] ∧
        { t with mbx := s.mbx, jnl := s.jnl, faultQ := s.faultQ } = u)
    let fault := State.msgBytes (s.faultMsg srcCrucible 0x6E clsU 0 false)
    (s.jobDiffers b0.jobId = false → s.get Reg.cruStatusScrubOk = 1 →
      (billetHeaderOk l = true → s.cru.owner = some b0.owner →
        (sigOk = true → ∀ b, readTables b0 tables = some b →
          (∀ own, s.addressIn b roster = some own → sectionsOk b own l = true →
            ∃ t, exec i s = .next t ∧ Finished s t x 0 [] ∧ t.billet.map (fun c => (c.jobId, c.digest)) = some (b.jobId, b.digest) ∧
              t.get Reg.netStatusAddr = own % 2 ^ Reg.netStatusAddr.w ∧ t.get Reg.netStatusAssigned = 1 ∧
              t.get Reg.netStatusState = 0 ∧ t.cad.strike = b.cad.strike ∧ t.cru.lastJob = some b.jobId ∧ t.life = s.life ∧
              (∀ p ∈ [(Reg.cadPeriodNs, b.cad.period), (Reg.cadGateLead, b.cad.lead), (Reg.cadHoldLimitMs, b.cad.holdLimit),
                  (Reg.cadAbortLimit, b.cad.abortLimit), (Reg.cadStrikeCount, b.cad.strike.length), (Reg.cadCtrlCandidate, b2n b.cad.candidate),
                  (Reg.cadCtrlExternal, b2n b.cad.external), (Reg.cadCtrlFallback, b2n b.cad.fallback), (Reg.cadCtrlOutEn, b2n b.cad.outEn)],
                t.get p.1 = p.2 % 2 ^ p.1.w) ∧
              (fieldAt x.arg 4 2 = 0 → t.billet = some b ∧ t.get Reg.cruAmendSeq = 0 ∧
                t.cru.meas = extend s.cru.meas { index := s.get Reg.cruMeasCount, type := 6, kind := 0, slot := 0, version := 0, digest := b.digest }) ∧
              ∀ i < billetLength l, (∀ g ∈ b.images, 3 ≤ g.mem → ¬ Within (b.stagingBase + i) g.addr g.data.length) →
                t.stock.read (b.stagingBase + i) = l.getD i 0#8) ∧
          (∀ own, s.addressIn b roster = some own → sectionsOk b own l = false → refused s 9 fault) ∧
          (s.addressIn b roster = none → refused s 9 fault)) ∧
        (sigOk = true → readTables b0 tables = none → refused s 9 fault) ∧
        (sigOk = false → refused (s.count Reg.cruSigFail) 8 [])) ∧
      (billetHeaderOk l = false ∨ s.cru.owner ≠ some b0.owner → refused s 9 fault)) ∧
    (s.jobDiffers b0.jobId = true → s.cru.lastJob.isSome = true → ∃ t, exec i s = .next t ∧ t.mbx = s.mbx ∧ t.seed = none ∧ t.cru.wrapped = none ∧
      t.get Reg.cruScrubBusy = 1 ∧ t.get Reg.cruStatusScrubOk = 0 ∧ t.billet = s.billet ∧ SameBytes s t) ∧
    (s.jobDiffers b0.jobId = false → s.get Reg.cruStatusScrubOk = 0 → ∃ t, exec i s = .next t ∧ Finished s t x 9 (List.replicate 16 0#8) ∧
      { t with mbx := s.mbx, jnl := s.jnl } = s)

/-! ## The Cadence (chapter 02) -/

/-- R39, R40, R46, R64, R442: once its period has elapsed and no hold stands at its angle, the master issues the beat of the next
stroke, with SEQ one higher, and takes it itself; while a hold that is no HALT stands there it issues none; where HALT alone stands
there it stops the job with cause 1 at the next step's start; after a rollback it issues the beat of s:0x0000 once every device has
released, and none before. A KEEP carries the angle, the ATTEMPT and the SEQ to the tree's children, and changes nothing of the
Cadence, whether or not the master issues beats. -/
def Obligations.MasterTurnsTheAngle : Prop :=
  ∀ s : State, s.cadUp = true →
    (s.masters = true → s.cad.active = true → s.cad.mRolling = false →
      ((∀ h ∈ s.cad.mHolds, h.angle ≠ s.cad.mAngle ∧ (h.reason = 1 → stepOf (s.cad.mAngle + 1) < stepOf h.angle)) →
        s.cad.mExternal = false → s.cad.mAngle + 1 < 2 ^ 48 - 1 →
        let last := strokeOf s.cad.mAngle = s.cad.commitStroke
        let c := { s.cad with
          mAngle := s.cad.mAngle + 1, mSeq := s.cad.mSeq + 1, mAttempt := if last then 0 else s.cad.mAttempt
          mCommitted := if last then some (stepOf s.cad.mAngle) else s.cad.mCommitted }
        let m : CadMsg := { type := 1, flags := 2 * b2n (s.gateAt (s.cad.mAngle + 1)), source := s.addr, angle := s.cad.mAngle + 1
                            attempt := if last then 0 else s.cad.mAttempt, reason := 0, seq := s.cad.mSeq + 1 }
        ∃ t, exec .beatIssue s = .next t ∧ t = ({ s with cad := c }).broadcast m ∧ t.cad = c ∧
          t.out.getLast? = some (.own m) ∧ OnlyCad [] s t) ∧
      ((∃ h ∈ s.cad.mHolds, h.angle = s.cad.mAngle ∧ (h.reason ≠ 2 ∨ h.rollback = true)) → exec .beatIssue s = .next s) ∧
      ((∃ h ∈ s.cad.mHolds, h.angle = s.cad.mAngle) →
        (∀ h ∈ s.cad.mHolds, h.angle = s.cad.mAngle → h.reason = 2 ∧ h.rollback = false) →
        ∃ t, exec .beatIssue s = .next t ∧ t.cad = stoppedCad s.cad ∧ OnlyCad [] s t ∧
          t.out.getLast? = some (.own (abortMsg s s.cad.mSeq (angleOf (stepOf s.cad.mAngle + 1) 0) (s.cad.mAttempt + 1) 0x8001)))) ∧
    (s.masters = true → s.cad.active = true → s.cad.mRolling = true →
      ((∃ h ∈ s.cad.mHolds, h.rollback = true) → exec .beatIssue s = .next s) ∧
      ((∀ h ∈ s.cad.mHolds, h.rollback = false ∧ h.reason ≠ 1) → s.cad.mAngle ≠ 2 ^ 48 - 1 →
        let c := { s.cad with mSeq := s.cad.mSeq + 1, mRolling := false }
        ∃ t, exec .beatIssue s = .next t ∧ t.cad = c ∧ OnlyCad [] s t ∧
          t.out.getLast? = some (.own { type := 1, flags := b2n s.cad.mExternal + 2 * b2n (s.gateAt s.cad.mAngle), source := s.addr
                                        angle := s.cad.mAngle, attempt := s.cad.mAttempt, reason := 0, seq := s.cad.mSeq + 1 }))) ∧
    (s.cad.role = .master → ∃ t, exec .keepSend s = .next t ∧ t.cad = s.cad ∧ OnlyCad [] s t ∧
      t = s.sendChildren { type := 7, flags := b2n s.cad.mExternal, source := s.addr, angle := s.cad.mAngle, attempt := s.cad.mAttempt
                           reason := 0, seq := s.cad.mSeq })

/-- R42: when its angle reaches 4294967295:0xFFFF, by its own period or by CAD_IN, the master raises CAD angle end of class U and
stops the job at that angle by R533, with stop cause 2; from there it turns no further. -/
def Obligations.AngleEndStopsTheJob : Prop :=
  ∀ (s : State) (gap since : Nat), s.masters = true → s.cadUp = true → s.cad.active = true → s.cad.mRolling = false →
    (∀ h ∈ s.cad.mHolds, h.angle ≠ s.cad.mAngle) →
    (s.cad.mAngle + 1 = 2 ^ 48 - 1 → s.waitingFrom srcCad < 16 →
      let stops := fun t : State => t.cad.mAngle = 2 ^ 48 - 1 ∧ t.cad.mSeq = s.cad.mSeq + 1 ∧ t.cad.mOn = false ∧ t.cad.mHolds = [] ∧
        t.faultQ = s.faultQ ++ [s.faultMsg srcCad 0x50 2 (s.addr % 2 ^ 14 + 0xFFFF * 2 ^ 16) false] ∧
        t.out.getLast? = some (.own (abortMsg s (s.cad.mSeq + 1) (2 ^ 48 - 1) t.cad.mAttempt 0x8002))
      (s.cad.mExternal = false → ∃ t, exec .beatIssue s = .next t ∧ stops t ∧ OnlyCad [] s t) ∧
      (s.cad.mExternal = true → s.cad.mStand = false → s.flag Reg.cadCtrlExternal = true → 4000 ≤ gap → s.get Reg.cadPeriodNs ≤ since →
        ∃ t, exec (.cadInEdge 100 gap since) s = .next t ∧ stops t ∧ OnlyCad [] s t)) ∧
    (s.cad.mAngle = 2 ^ 48 - 1 → exec .beatIssue s = .next s ∧
      (∀ high, ∃ t, exec (.cadInEdge high gap since) s = .next t ∧ t.cad.mAngle = 2 ^ 48 - 1 ∧ t.cad.mSeq = s.cad.mSeq))

/-- R46, R47, R50, R534: a device takes the beat of its master: it stands at the beat's angle, which is the last that it has fired,
with the beat's SEQ and ATTEMPT, or ATTEMPT 0 where that beat commits the step; a beat of no higher SEQ, and one of another device,
change nothing. A KEEP of the master moves nothing and goes on to the device's children. A device back from a core reset takes the
sender of a BEAT or KEEP as its master and holds its resume angle with reason RESET. A message of a TYPE outside Table 2-2 is
counted in CAD.MSG_ERR and has no other effect. -/
def Obligations.BeatsAndKeepsAreTaken : Prop :=
  ∀ (s : State) (m : CadMsg),
    (s.cadUp = true → m.type = 1 → s.cad.role = .follower → s.cad.resume = none → m.source ≠ s.addr →
      (s.cad.master = m.source → s.cad.active = true → s.cad.joined = true → s.cad.seq < m.seq →
        ∃ t, exec (.beat m) s = .next t ∧ t.cad.angle = m.angle ∧ t.cad.seq = m.seq ∧ t.cad.lastFired = m.angle ∧ t.cad.ran = true ∧
          (t.cad.attempt = m.attempt ∨ t.cad.attempt = 0)) ∧
      (s.cad.master ≠ m.source ∨ s.cad.joined = true ∧ m.seq ≤ s.cad.seq → exec (.beat m) s = .next s)) ∧
    (s.cadUp = true → m.type = 7 → s.cad.role = .follower → s.cad.resume = none → m.source ≠ s.addr →
      (s.cad.master = m.source → exec (.keep m) s = .next (s.sendChildren m)) ∧
      (s.cad.master ≠ m.source → exec (.keep m) s = .next s)) ∧
    (∀ r, s.cadUp = true → m.type = 7 → s.cad.resume = some r → s.cad.resetHold = true → s.cad.role = .idle → m.source ≠ s.addr →
      ∃ t, exec (.keep m) s = .next t ∧ t.cad.role = .follower ∧ t.cad.master = m.source ∧ t.cad.resetHold = false ∧
        t.cad.active = true ∧ t.cad.attempt = m.attempt ∧ t.cad.seq = m.seq ∧ t.cad.raised = s.cad.raised + 1 ∧
        t.cad.own = s.cad.own ++ [{ angle := r, attempt := m.attempt, reason := 4, entry := none, rollback := false }] ∧
        t.life = s.life ∧ t.jnl = s.jnl ∧ SameBytes s t) ∧
    (m.type = 0 ∨ 7 < m.type →
      exec (.beat m) s = .next (s.count Reg.cadMsgErr) ∧ exec (.keep m) s = .next (s.count Reg.cadMsgErr) ∧
      exec (.hold m) s = .next (s.count Reg.cadMsgErr) ∧ exec (.holdRelease m) s = .next (s.count Reg.cadMsgErr) ∧
      exec (.abort m) s = .next (s.count Reg.cadMsgErr))

/-- R59, R62, R63, R65, R533: the master counts a HOLD of the current ATTEMPT, or of any after COMMIT, as raised and standing; one
with reason ABORT before COMMIT aborts the step, and one with reason TMP stops the job with cause 5; it discards one of an old
ATTEMPT before COMMIT; a RELEASE that matches a standing hold withdraws it and is counted, its sender the last holder where no other
hold of that angle stands, and any other is discarded; a device that is not master counts both in CAD.MSG_ERR, with no other
effect. -/
def Obligations.HoldsAreConserved : Prop :=
  ∀ (s : State) (m : CadMsg), s.cadUp = true →
    (s.masters = true →
      (m.type = 2 → (m.attempt = s.cad.mAttempt ∨ s.mIsCommitted = true) →
        let c := { s.cad with
          mHolds := s.cad.mHolds ++ [{ dev := m.source, angle := m.angle, attempt := m.attempt, reason := m.reason, rollback := false }]
          mRaised := s.cad.mRaised + 1 }
        (s.cad.mAngle ≤ m.angle → (m.reason = 0 ∨ m.reason = 2 ∨ m.reason = 1 ∧ s.mIsCommitted = true) →
          exec (.hold m) s = .next { s with cad := c }) ∧
        (s.cad.mAngle ≤ m.angle → m.reason = 1 → s.mIsCommitted = false → s.waitingFrom srcCad < 16 →
          ∃ t, exec (.hold m) s = .next t ∧ StepAborts s t c 0 ∧ OnlyCad [] s t) ∧
        (m.reason = 3 → ∃ t, exec (.hold m) s = .next t ∧ t.cad = stoppedCad c ∧ OnlyCad [] s t ∧
          t.out.getLast? = some (.own (abortMsg s s.cad.mSeq s.cad.mAngle (s.cad.mAttempt + 1) 0x8005)))) ∧
      (m.type = 2 → m.attempt ≠ s.cad.mAttempt → s.mIsCommitted = false → exec (.hold m) s = .next s) ∧
      (m.type = 3 →
        (∀ h, matchHold s m = some h → exec (.holdRelease m) s = .next { s with cad := { s.cad with
          mHolds := s.cad.mHolds.erase h, mReleased := s.cad.mReleased + 1
          lastHolder := if (∀ k ∈ s.cad.mHolds.erase h, k.angle ≠ h.angle) ∧ h.rollback = false ∧ h.reason ≠ 4 then m.source % 2 ^ 14
            else s.cad.lastHolder } }) ∧
        (matchHold s m = none → exec (.holdRelease m) s = .next s))) ∧
    (s.masters = false →
      (m.type = 2 → exec (.hold m) s = .next (s.count Reg.cadMsgErr)) ∧
      (m.type = 3 → exec (.holdRelease m) s = .next (s.count Reg.cadMsgErr)))

/-- R60: a HOLD for an angle the master has passed is counted in CAD.LATE_HOLD, raises CAD late hold of class U, and aborts the
step where the angle is before the COMMIT stroke, as R64 broadcasts it; the abort that reaches ABORT_LIMIT stops the job (R66). A hold
with reason TMP or RESET acts by its own rule (R533), and before COMMIT one of an old ATTEMPT is discarded (R63). -/
def Obligations.LateHoldAborts : Prop :=
  ∀ (s : State) (m : CadMsg), s.cadUp = true → s.masters = true → m.type = 2 → m.reason ≤ 2 → m.angle < s.cad.mAngle →
    (m.attempt = s.cad.mAttempt ∨ s.mIsCommitted = true) → s.waitingFrom srcCad < 15 →
    let late := s.faultQ ++ [s.faultMsg srcCad 0x54 2 (m.source % 2 ^ 14 + strokeOf m.angle * 2 ^ 16) false]
    let c := { s.cad with
      mHolds := s.cad.mHolds ++ [{ dev := m.source, angle := m.angle, attempt := m.attempt, reason := m.reason, rollback := false }]
      mRaised := s.cad.mRaised + 1 }
    ∃ t, exec (.hold m) s = .next t ∧ Counted s t Reg.cadLateHold ∧ OnlyCad [Reg.cadLateHold] s t ∧
      (s.mIsCommitted = true → t.faultQ = late ∧ t.cad = c ∧ t.out = s.out) ∧
      (s.mIsCommitted = false → StepAborts s t c 0x260) ∧
      (s.mIsCommitted = false → s.cad.mAttempt + 1 < s.get Reg.cadAbortLimit → t.faultQ = late) ∧
      (s.mIsCommitted = false → s.get Reg.cadAbortLimit ≤ s.cad.mAttempt + 1 →
        t.faultQ = late ++ [s.faultMsg srcCad 0x56 2 (s.addr % 2 ^ 14) false])

/-- R64, R533: an ABORT of the master rolls the device back to the ABORT's angle: its holds are cancelled and one rollback hold
stands, the work of the step is dropped in every pool, and CAD.ABORT_COUNT counts one; the same ABORT again has no effect. One whose
REASON has bit 15 set stops the job at its angle, also at a device back from a core reset that does not know the master: the device
enters Armed with the stop noted and written to the journal. -/
def Obligations.AbortRollsBackOrStops : Prop :=
  ∀ (s : State) (m : CadMsg), s.cadUp = true → m.type = 4 → m.source ≠ s.addr →
    (s.cad.role = .follower → s.cad.master = m.source → s.cad.active = true →
      (s.cad.start = false → bit m.reason 15 = false → ∃ t, exec (.abort m) s = .next t ∧ t.cad.angle = m.angle ∧
        t.cad.attempt = m.attempt ∧ t.cad.seq = m.seq ∧ t.cad.rolling = true ∧ t.cad.start = true ∧ t.cad.want = none ∧
        t.cad.own = [{ angle := m.angle, attempt := m.attempt, reason := 0, entry := none, rollback := true }] ∧
        t.cad.cancelled = s.cad.cancelled + s.cad.own.length ∧ t.cad.raised = s.cad.raised + 1 ∧ Counted s t Reg.cadAbortCount ∧
        t.stash = [] ∧ t.fetches = [] ∧ t.spills = [] ∧ t.hands = s.homeHands ∧ t.haloRows = [] ∧ t.haloCredits = [] ∧
        t.bucketFill = [] ∧ t.tmp = Tmp.init ∧ t.captures = [] ∧ t.kvp.undo = [] ∧ t.kvp.pins = [] ∧ t.net.buckets = [] ∧
        t.net.tokenWait = [] ∧ t.net.allReduce = [] ∧ t.net.received = [] ∧
        (∀ n, (t.core n).accHeld = 0 ∧ (t.core n).obHeld = 0 ∧ (t.core n).segs = []) ∧
        t.life = s.life ∧ t.jnl = s.jnl ∧ t.mbx = s.mbx ∧ t.cru = s.cru ∧ t.billet = s.billet ∧ t.sys = s.sys ∧
        t.stock = s.stock ∧ t.hearth0 = s.hearth0 ∧ t.hearth1 = s.hearth1) ∧
      (s.cad.start = true → s.cad.joined = true → s.cad.attempt = m.attempt → s.cad.angle = m.angle → exec (.abort m) s = .next s)) ∧
    (bit m.reason 15 = true → m.reason % 2 ^ 15 ≠ 4 →
      (s.cad.role = .follower ∧ s.cad.master = m.source ∧ s.cad.active = true ∧ s.cad.start = false) ∨ s.waitsMaster = true →
      ∃ t, exec (.abort m) s = .next t ∧ t.life = .armed ∧ t.cad.role = .idle ∧ t.cad.angle = m.angle ∧ t.cad.active = false ∧
        t.cad.own = [] ∧ t.cad.cancelled = s.cad.cancelled + s.cad.own.length ∧
        t.cad.stopped = some (m.reason % 2 ^ 15, m.angle) ∧ s.jnl.head < t.jnl.head ∧ t.billet = s.billet ∧ SameBytes s t)

/-- R58, R61, R64, R385: a hold that stalls at the master's angle aborts the step before COMMIT, and after it stops the job with
cause 3, with CAD gate stall of class U naming its device; a HALT hold is not timed. A gate's condition that is met, a rollback that
is complete and a resume that is ready each release their hold, which is counted. -/
def Obligations.StalledAndReadyHolds : Prop :=
  ∀ (s : State), s.cadUp = true →
    (∀ d, s.masters = true → s.waitingFrom srcCad < 16 →
      ((∃ h ∈ s.cad.mHolds, h.dev = d ∧ h.angle = s.cad.mAngle ∧ (h.reason ≠ 2 ∨ h.rollback = true)) →
        ∃ t, exec (.gateStall d s.cad.mAngle) s = .next t ∧ OnlyCad [] s t ∧
          s.faultQ ++ [s.faultMsg srcCad 0x55 2 (d % 2 ^ 14 + strokeOf s.cad.mAngle * 2 ^ 16) false] <+: t.faultQ ∧
          (s.mIsCommitted = true → t.cad = stoppedCad s.cad ∧
            t.out.getLast? = some (.own (abortMsg s s.cad.mSeq s.cad.mAngle (s.cad.mAttempt + 1) 0x8003))) ∧
          (s.mIsCommitted = false → StepAborts s t s.cad 0x260)) ∧
      ((∀ h ∈ s.cad.mHolds, h.dev = d → h.angle = s.cad.mAngle → h.reason = 2 ∧ h.rollback = false) →
        exec (.gateStall d s.cad.mAngle) s = .next s)) ∧
    (∀ i e h, s.cad.own.find? (fun k => k.entry == some i) = some h → s.cad.strike[i]? = some e →
      (gateReady s e (stepOf h.angle) = true → ∃ t, exec (.gateReady i) s = .next t ∧ OnlyCad [] s t ∧
        { t.cad with want := s.cad.want } = { s.cad with own := s.cad.own.erase h, released := s.cad.released + 1 }) ∧
      (gateReady s e (stepOf h.angle) = false → exec (.gateReady i) s = .next s)) ∧
    (∀ h, s.cad.own = [h] → h.rollback = true → s.cad.rolling = true → s.cad.resume = none → s.cad.haltPending = false → s.cad.want = none →
      ∃ t, exec .rollbackComplete s = .next t ∧ (∀ k ∈ t.cad.own, k.rollback = false) ∧ t.cad.rolling = false ∧
        t.cad.released = s.cad.released + 1 ∧ OnlyCad [] s t) ∧
    (∀ r h, s.cad.resume = some r → s.cad.own.find? (fun k => k.angle == r) = some h → s.billet.isSome = true →
      (bloomRefilled s (stepOf r) = true → ∃ t, exec .resumeRelease s = .next t ∧ Counted s t Reg.ingRestores ∧ OnlyCad [Reg.ingRestores] s t ∧
        { t.cad with want := s.cad.want } =
          { s.cad with own := s.cad.own.erase h, released := s.cad.released + 1, rolling := false }) ∧
      (bloomRefilled s (stepOf r) = false → exec .resumeRelease s = .next s))

/-- R43 to R45: a CANDIDATE is kept until a master is confirmed, and the lowest candidate heard is confirmed; the last CONFIRM makes
the candidate the master; without one in 100 ms the election fails: CAD no master is raised and the job stays Armed; a lost master is
not a candidate again, the device's holds are cancelled and the election runs among the others. -/
def Obligations.ElectionsRun : Prop :=
  ∀ (s : State) (m : CadMsg), s.cadUp = true →
    (m.type = 5 → s.cad.role ≠ .electing → s.waitsMaster = false →
      exec (.candidate m) s = .next { s with cad := { s.cad with
        cands := if m.source ∈ s.cad.cands then s.cad.cands else s.cad.cands ++ [m.source] } }) ∧
    (m.type = 5 → s.cad.role = .electing → m.source ∉ s.cad.cands → m.source ∉ s.cad.lost → s.cad.chosen ≠ some m.source →
      (∀ a ∈ s.cad.cands, m.source < a) → s.ing.restore = none →
      ∃ t, exec (.candidate m) s = .next t ∧ OnlyCad [] s t ∧
        { t.cad with want := s.cad.want } = { s.cad with cands := s.cad.cands ++ [m.source], chosen := some m.source }) ∧
    (m.type = 6 → s.cad.role = .electing → s.isCandidate = true →
      ((∀ d ∈ s.devices, d = m.source ∨ d ∈ s.cad.confirms ∨ d ∈ s.cad.lost) → s.cad.active = false →
        ∃ t, exec (.confirm m) s = .next t ∧ t.cad.role = .master ∧ t.cad.master = s.addr ∧ t.cad.cands = [] ∧ t.cad.mOn = true ∧
          t.cad.mAngle = s.cad.angle ∧ t.cad.mHolds = [] ∧ t.cad.mRaised = 0 ∧ t.life = s.life ∧ t.jnl = s.jnl ∧ SameBytes s t) ∧
      ((∀ d ∈ s.devices, d = m.source ∨ d ∈ s.cad.confirms ∨ d ∈ s.cad.lost) → s.cad.active = true → s.cad.afterLoss = false →
        s.cad.startAngle + 1 < 2 ^ 48 - 1 →
        ∃ t, exec (.confirm m) s = .next t ∧ t.cad.role = .master ∧ t.cad.master = s.addr ∧ t.cad.cands = [] ∧ t.cad.mOn = true ∧
          t.cad.mAngle = s.cad.startAngle ∧ t.cad.mSeq = s.cad.seq + 1 ∧ t.life = s.life ∧ t.jnl = s.jnl ∧ SameBytes s t) ∧
      ((∃ d ∈ s.devices, d ≠ m.source ∧ d ∉ s.cad.confirms ∧ d ∉ s.cad.lost) →
        exec (.confirm m) s = .next { s with cad := { s.cad with
          confirms := if m.source ∈ s.cad.confirms then s.cad.confirms else s.cad.confirms ++ [m.source] } })) ∧
    (s.cad.role = .electing → s.cad.afterLoss = false → s.waitingFrom srcCad < 16 → s.mbx.running = none →
      ∃ t, exec .electionTimeout s = .next t ∧ t.life = .armed ∧ t.cad.role = .idle ∧ t.cad.active = false ∧
        t.faultQ = s.faultQ ++ [s.faultMsg srcCad 0x51 2 (s.addr % 2 ^ 14) false] ∧ SameBytes s t) ∧
    (∀ b, s.cad.role = .follower → s.billet = some b →
      (∃ a ∈ b.cad.candidates, a ≠ s.cad.master ∧ a ∉ s.cad.lost) → s.waitingFrom srcCad < 16 →
      ∃ t, exec .masterLost s = .next t ∧ t.cad.role = .electing ∧ t.cad.lost = s.cad.lost ++ [s.cad.master] ∧ t.cad.afterLoss = true ∧
        t.cad.own = [] ∧ t.cad.cancelled = s.cad.cancelled + s.cad.own.length ∧ t.life = s.life ∧
        s.faultMsg srcCad 0x52 2 (s.cad.master % 2 ^ 14 + strokeOf s.cad.angle * 2 ^ 16) false ∈ t.faultQ ∧ SameBytes s t)

/-- R51 to R53: with CTRL.EXTERNAL an edge with a high time outside 80 to 2,000 ns or less than 4,000 ns after the one before is
invalid: it is counted and the run of valid edges begins again, with IN_LOCK as it was; the sixteenth valid edge in a row sets
IN_LOCK; a valid edge at a held angle or before the period has elapsed turns nothing and is counted in CAD.SLIP; without a valid
edge for 32 periods IN_LOCK falls, and at a master in external mode CAD_IN lost is raised, of class C with FALLBACK, which ends the
external mode, and of class U without, once, and then no edge turns the angle. -/
def Obligations.CadInIsChecked : Prop :=
  ∀ (s : State) (high gap since : Nat), s.flag Reg.cadCtrlExternal = true → s.alive = true →
    (high < 80 ∨ 2000 < high ∨ gap < 4000 → exec (.cadInEdge high gap since) s =
      .next ({ s with cad := { s.cad with inRun := 0 } }.count Reg.cadInErr)) ∧
    (80 ≤ high → high ≤ 2000 → 4000 ≤ gap →
      let u := { s with cad := { s.cad with inRun := min (s.cad.inRun + 1) 16, inLock := s.cad.inLock || decide (15 ≤ s.cad.inRun) } }
      (s.masters = false ∨ s.cad.mExternal = false ∨ s.cad.active = false → exec (.cadInEdge high gap since) s = .next u) ∧
      (s.masters = true → s.cad.mExternal = true → s.cad.active = true →
        (s.mHeld s.cad.mAngle = true ∨ since < s.get Reg.cadPeriodNs → exec (.cadInEdge high gap since) s = .next (u.count Reg.cadSlip)) ∧
        (s.mHeld s.cad.mAngle = false → s.get Reg.cadPeriodNs ≤ since →
          (s.cad.mStand = true → exec (.cadInEdge high gap since) s = .next u) ∧
          (s.cad.mStand = false → s.cad.mRolling = false → s.cad.mAngle + 1 < 2 ^ 48 - 1 → (∀ h ∈ s.cad.mHolds, h.reason ≠ 1) →
            ∃ t, exec (.cadInEdge high gap since) s = .next t ∧ t.cad.mAngle = s.cad.mAngle + 1 ∧ t.cad.mSeq = s.cad.mSeq + 1 ∧
              t.cad.inRun = u.cad.inRun ∧ t.cad.inLock = u.cad.inLock ∧ OnlyCad [] s t)))) ∧
    (s.masters = false ∨ s.cad.mExternal = false → exec .cadInLost s =
      .next { s with cad := { s.cad with inLock := false, inRun := 0 } }) ∧
    (s.masters = true → s.cad.mExternal = true → s.waitingFrom srcCad < 16 →
      let f := fun cls => s.faultQ ++ [s.faultMsg srcCad 0x53 cls (s.addr % 2 ^ 14 + strokeOf s.cad.mAngle * 2 ^ 16) false]
      (s.flag Reg.cadCtrlFallback = true → exec .cadInLost s = .next { s with
        cad := { s.cad with inLock := false, inRun := 0, mExternal := false }, faultQ := f 1 }) ∧
      (s.flag Reg.cadCtrlFallback = false → s.cad.mStand = false → exec .cadInLost s = .next { s with
        cad := { s.cad with inLock := false, inRun := 0, mStand := true }, faultQ := f 2 }) ∧
      (s.flag Reg.cadCtrlFallback = false → s.cad.mStand = true → exec .cadInLost s = .next { s with
        cad := { s.cad with inLock := false, inRun := 0 } }))

/-! ## The matrix array and the vector engine (chapters 04 to 06) -/

/-- R106, R108, R115: the sequencer checks an issue in the order of Table 4-5: it is accepted, waits, or is refused. An accepted
issue takes every slot of its plan and its operand-buffer region, is dispatched in its segment and is counted; a waiting one is
checked again when its wait may end; a refused one and a command of no class (R148, R150) stop the sequencer with the record of the
refusal. Nothing else of the core or of the device changes, but that the audit of R117 may raise a fault. -/
def Obligations.IssuesAreChecked : Prop :=
  ∀ (s : State) (n : Nat) (words : List Word) (ecc : List EccRes),
    let ws := natWords words
    let d := mmOf ws
    let c := s.core n
    let accepts := fun t : State =>
      (∃ i, (t.core n).queue = c.queue ++ [i] ∧ i.words = ws ∧ (i.m, i.n, i.k) = runShape s n d ∧
        (i.slagRow, i.slagCol) = slagVectors s n d ∧ i.segment = c.curSeg) ∧
      (∀ j, Assoc.get SlotSt.free (t.core n).slotSt j = if j ∈ planned d then .busy else Assoc.get SlotSt.free c.slotSt j) ∧
      (t.core n).accHeld = c.accHeld + (if d.init = 2 then 0 else planSlots d.mp d.np) ∧ (t.core n).obHeld = c.obHeld + d.obSize ∧
      (t.core n).waiting = none ∧ (t.core n).vecWait = false ∧
      (t.core n).segs = c.segs.map (fun g => if g.segment = c.curSeg then { g with disp := g.disp + 1 } else g) ∧
      { t.core n with queue := c.queue, slotSt := c.slotSt, accHeld := c.accHeld, obHeld := c.obHeld, waiting := c.waiting
                      vecWait := c.vecWait, segs := c.segs, curSeg := c.curSeg, tiles := c.tiles } = c ∧
      (∀ k, k ≠ n → t.core k = s.core k) ∧
      t.get (Reg.coreIssues n) = min (s.get (Reg.coreIssues n) + 1) (2 ^ 32 - 1) ∧
      t.get (Reg.coreZeroshape n) = (if (runShape s n d).1 = 0 ∨ (runShape s n d).2.1 = 0 ∨ (runShape s n d).2.2 = 0
        then min (s.get (Reg.coreZeroshape n) + 1) (2 ^ 32 - 1) else s.get (Reg.coreZeroshape n)) ∧
      SameRegsOut [Reg.coreIssues n, Reg.coreZeroshape n] s t ∧
      { t with regs := s.regs, cores := s.cores, faultQ := s.faultQ } = s
    (s.canCompute n = true →
      (issueCheck s n d = .accept → ∃ t, exec (.matmul n words) s = .next t ∧ accepts t) ∧
      (issueCheck s n d = .wait → exec (.matmul n words) s = .next (s.setCore n { c with waiting := some ws })) ∧
      (∀ reason kind need have_, issueCheck s n d = .refuse reason kind need have_ →
        ∃ t, exec (.matmul n words) s = .next t ∧ RefusedCmd s t n kind reason d.opid need have_) ∧
      (wf ws 1 0 8 = 0 ∨ (2 ≤ wf ws 1 0 8 ∧ wf ws 1 0 8 ≤ 0x0F) ∨ 0x63 ≤ wf ws 1 0 8 →
        ∃ t, exec (.undefinedOp n words) s = .next t ∧ RefusedCmd s t n 0x08 1 (wd ws 0) 0 0) ∧
      (undefinedVec (wf ws 1 0 8) = true → ∃ t, exec (.undefinedOp n words) s = .next t ∧ RefusedCmd s t n 0x08 8 (wd ws 0) 0 0)) ∧
    (n < 192 → s.life = .running → c.run = .running → c.waiting = some ws → wf ws 1 0 8 ≠ 0x28 →
      (issueCheck s n d = .accept → ∃ t, exec (.issueAcceptAfterWait n ecc) s = .next t ∧ accepts t) ∧
      (issueCheck s n d = .wait → exec (.issueAcceptAfterWait n ecc) s = .next s) ∧
      (∀ reason kind need have_, issueCheck s n d = .refuse reason kind need have_ →
        ∃ t, exec (.issueAcceptAfterWait n ecc) s = .next t ∧ RefusedCmd s t n kind reason d.opid need have_))

/-- R94 to R96, R112 to R114, R119: while the device holds no gate, the oldest issue completes with the sums of R109 in its
accumulator slots: a slot that the run-time shape reaches is KEPT, with the K at which it continues, or drains; one that it does not
reach goes back as it was taken; the operand-buffer region is released, the issue is done in its segment, its busy cycles count and
its events are recorded. The buffers of the core hold what it streamed; nothing else of the core, no other core and no memory
changes. -/
def Obligations.IssueCompletes : Prop :=
  ∀ (s : State) (n : Nat) (i : Issue) (rest : List Issue), (s.core n).queue = i :: rest → n < 192 → s.alive = true →
    (s.core n).issueWaits i = false → issueReadsOk i = true → s.cad.own = [] →
    let c := s.core n
    let d := mmOf i.words
    let r := sums (s.hearth (dieOf n)) c i
    ∃ t, exec (.issueComplete n) s = .next t ∧ (t.core n).queue = rest ∧ (t.core n).acc = r.1 ∧
      (t.core n).obHeld = c.obHeld - d.obSize ∧
      (t.core n).accHeld = (if d.init = 2 then c.accHeld else c.accHeld - ((planGrid d).filter (fun g => !reaches i g)).length) ∧
      (t.core n).segs = c.segs.map (fun g => if g.segment = i.segment then { g with done := g.done + 1, idone := g.idone + 1 } else g) ∧
      { t.core n with queue := c.queue, acc := c.acc, obHeld := c.obHeld, accHeld := c.accHeld, segs := c.segs, slotSt := c.slotSt
                      nextK := c.nextK, drains := c.drains, opBuf := c.opBuf, weights := c.weights, tongsA := c.tongsA
                      tongsB := c.tongsB } = c ∧
      (∀ g ∈ planGrid d, Assoc.get SlotSt.free (t.core n).slotSt g.1 =
        if reaches i g then (if d.keep then .kept else .drain) else (if d.init = 2 then .kept else .free)) ∧
      (∀ j, (∀ g ∈ planGrid d, g.1 ≠ j) → Assoc.get SlotSt.free (t.core n).slotSt j = Assoc.get SlotSt.free c.slotSt j) ∧
      (d.keep = true → (∀ g ∈ planGrid d, reaches i g = true → Assoc.get 0 (t.core n).nextK g.1 = d.k0 + i.k) ∧
        (t.core n).drains = c.drains) ∧
      (d.keep = false → (planGrid d).filter (reaches i) ≠ [] → ∃ f, (t.core n).drains =
        c.drains ++ [{ issue := i, slots := (planGrid d).filter (reaches i), faulted := f }]) ∧
      t.get64 (Reg.coreBusyCyclesLo n) (Reg.coreBusyCyclesHi n) =
        min (s.get64 (Reg.coreBusyCyclesLo n) (Reg.coreBusyCyclesHi n) + streamCycles d i) (2 ^ 64 - 1) ∧
      EventsLatched s t (mmTag n d) r.2 [Reg.coreBusyCyclesLo n, Reg.coreBusyCyclesHi n] ∧
      (∀ k, k ≠ n → t.core k = s.core k) ∧
      { t with regs := s.regs, cad := s.cad, cores := s.cores, caps := s.caps, captures := s.captures, ports := s.ports
               faultQ := s.faultQ, out := s.out } = s

/-- R94 to R96, R111, R114: a slot drains to the rows of C and of its scales that it covers, and to no other byte; it is then FREE,
with one accumulator slot fewer held; the events of the conversion are recorded, and raise a fault unless the drain has raised one
before. Nothing else of the core or of the device changes, but a replay's captures. -/
def Obligations.DrainWritesItsRows : Prop :=
  ∀ (s : State) (n slot ib tl : Nat) (dr : Drain) (rest : List Drain) (more : List (Nat × Nat × Nat)) (f : Fmt),
    (s.core n).drains = dr :: rest → dr.slots = (slot, ib, tl) :: more → s.alive = true → drainOk dr.issue = true →
    (mmOf dr.issue.words).fo = some f → n < 192 →
    let c := s.core n
    let i := dr.issue
    let d := mmOf i.words
    let rows := min 128 (i.m - 128 * ib)
    let cols := min 128 (i.n - 128 * tl)
    let r := if d.omx = 1 then drainMx (s.hearth (dieOf n)) c i f ib tl else drainPlain (s.hearth (dieOf n)) c i f ib tl
    let inC := fun a : Nat => ∃ m, m < rows ∧ d.cAddr + (128 * ib + m) * d.cStride + 16 * f.width * tl ≤ a ∧
      a < d.cAddr + (128 * ib + m) * d.cStride + ceilDiv ((128 * tl + cols) * f.width) 8
    let inScales := fun a : Nat => d.omx = 1 ∧ ∃ m b, m < rows ∧ b < ceilDiv cols 32 ∧
      a = d.csAddr + (128 * ib + m) * ceilDiv d.np 32 + (4 * tl + b)
    ∃ t, exec (.drainComplete n) s = .next t ∧ t.hearth (dieOf n) = r.1 ∧
      (∀ a, ¬ inC a → ¬ inScales a → (t.hearth (dieOf n)).read a = (s.hearth (dieOf n)).read a) ∧
      t.hearth (1 - dieOf n) = s.hearth (1 - dieOf n) ∧ t.hbm = s.hbm ∧ t.stock = s.stock ∧
      Assoc.get SlotSt.free (t.core n).slotSt slot = .free ∧ (t.core n).accHeld = c.accHeld - 1 ∧
      (∀ j, j ≠ slot → Assoc.get SlotSt.free (t.core n).slotSt j = Assoc.get SlotSt.free c.slotSt j) ∧
      ((t.core n).drains = if more = [] then rest else { dr with slots := more, faulted := dr.faulted || s.anyWatched n r.2 } :: rest) ∧
      { t.core n with slotSt := c.slotSt, accHeld := c.accHeld, drains := c.drains } = c ∧ (∀ k, k ≠ n → t.core k = s.core k) ∧
      (dr.faulted = false → EventsLatched s t (mmTag n d) r.2 []) ∧ (dr.faulted = true → t.faultQ = s.faultQ ∧ t.cad = s.cad) ∧
      { t with regs := s.regs, cad := s.cad, cores := s.cores, hearth0 := s.hearth0, hearth1 := s.hearth1, caps := s.caps
               captures := s.captures, ports := s.ports, faultQ := s.faultQ, out := s.out } = s

/-- R94 to R96, R144, R149 to R164: an element-wise, function, activation, reduction of no empty range, move, pack or unpack command
that the check of R150 passes writes its result to the tile registers and records its events; one that it does not pass is refused
with REASON 8. -/
def Obligations.VectorCommandsAct : Prop :=
  ∀ (s : State) (n : Nat) (words : List Word), TakesVec s n →
    let d := vcOf (natWords words)
    let m := (s.core n).tiles
    let ends := fun (op : Nat) (i : Instr) (ok : Bool) (r : VecRes) => d.op = op →
      (ok = true → ∃ t, exec i s = .next t ∧ VecDone s t n d r) ∧
      (ok = false → ∃ t, exec i s = .next t ∧ RefusedCmd s t n 0x08 8 d.opid 0 0)
    let small := decide (d.rows ≤ 32) && decide (d.cols ≤ 32) && d.axis != 3
    let word := small && d.esize == 0
    let act := word && actCode d.func &&
      (inputForm s d.opid || d.func ≤ 6 && ((d.func != 2 && d.func != 5) || positive (Val.ofF32 d.imm)))
    ends 0x10 (.ew n words) (word && decide (d.func ≤ 14)) (ewEff m d) ∧
    ends 0x11 (.fn n words) (word && decide (d.func ≤ 10)) (fnEff m d) ∧
    ends 0x12 (.act n words) act (actEff m d) ∧
    ends 0x13 (.dact n words) act (dactEff (inputForm s d.opid) m d) ∧
    (redEmpty d = false → ends 0x20 (.reduce n words) (word && decide (d.func ≤ 3)) (redEff m d)) ∧
    ends 0x30 (.perm n words) (word && d.func == 0) (permEff m d) ∧
    ends 0x31 (.trans n words) (small && d.func == 0 && d.sa % 2 ^ d.esize == 0 && d.dst % 2 ^ d.esize == 0) (transEff m d) ∧
    ends 0x32 (.shuf n words) (small && decide (d.func ≤ 6)) (shufEff m d) ∧
    ends 0x38 (.pack n words) (packOk d) (packEff m d) ∧
    ends 0x39 (.unpack n words) (packOk d) (unpackEff m d)

/-- R144, R151 to R154, R156, R157, R161: position by position: an element-wise command, a function, a permute and an unpack write,
at each position of their extent, the value of their rule; every other position of the tile registers is as before. -/
def Obligations.ExtentIsWritten : Prop :=
  ∀ (s : State) (n : Nat) (words : List Word), TakesVec s n →
    let d := vcOf (natWords words)
    let m := (s.core n).tiles
    let a := fun r c => srcWord m d d.sa d.ba r c
    let writes := fun (i : Instr) (f : Nat → Nat → Nat) => ∃ t, exec i s = .next t ∧ ((t.core n).curSeg = (s.core n).curSeg →
      (∀ r c, r < d.rows → c < d.cols → tileWord (t.core n).tiles d.dst r c = f r c % 2 ^ 32) ∧
      (∀ b, (∀ r c, r < d.rows → c < d.cols → b / 4 ≠ (tileRow d.dst r) / 4 + c) → (t.core n).tiles.read b = m.read b))
    d.esize = 0 → d.rows ≤ 32 → d.cols ≤ 32 → d.axis ≠ 3 →
    (d.op = 0x10 → d.func = 0 → writes (.ew n words) (fun r c =>
      let x := Val.ofF32 (a r c)
      let y := Val.ofF32 (srcWord m d d.sb d.bb r c)
      (resOf d.rz [x, y] (x.add y)).code)) ∧
    (d.op = 0x10 → d.func ≤ 14 → writes (.ew n words) (fun r c =>
      (ewOf d.func d.rz (a r c) (srcWord m d d.sb d.bb r c) (srcWord m d d.sc d.bc r c)).word)) ∧
    (d.op = 0x11 → ∀ f, Fn.fnOf d.func = some f → d.func ≤ 10 → writes (.fn n words) (fun r c =>
      (resOf d.rz [Val.ofF32 (a r c)] (f (Val.ofF32 (a r c)))).code)) ∧
    (d.op = 0x30 → d.func = 0 → writes (.perm n words) (fun r c =>
      moveWord d (permWord m d (tileWord m d.sb r c)))) ∧
    (d.op = 0x39 → packOk d = true → ∀ f, fmtOf (packFmt d) (packSign d) = some f → writes (.unpack n words) (fun r c =>
      (unpackElem m d f r c).word))

/-- R29, R141, R150, R151, R162, R163: LD brings words of Hearth to rows of a register, and ST takes rows of a register to Hearth, and no
other byte; each waits while an earlier command still writes its range, or, for ST, reads it; SETSHAPE writes CORE.SHAPE[j]; a
reduction with an empty range is counted and writes its result. One that the check of R150 does not pass is refused with REASON 8. -/
def Obligations.LoadsStoresAndShapes : Prop :=
  ∀ (s : State) (n : Nat) (words : List Word), TakesVec s n →
    let d := vcOf (natWords words)
    let m := (s.core n).tiles
    let h := s.hearth (dieOf n)
    let small := d.rows ≤ 32 ∧ d.cols ≤ 32 ∧ d.axis ≠ 3
    let waits := s.setCore n { s.core n with vecWait := true }
    let refused := fun (i : Instr) => ∃ t, exec i s = .next t ∧ RefusedCmd s t n 0x08 8 d.opid 0 0
    (d.op = 0x40 → (¬ (small ∧ d.func = 0) → refused (.ld n words)) ∧
      (small ∧ d.func = 0 → (s.core n).mustWait [lsRange d] [] = true → exec (.ld n words) s = .next waits) ∧
      (small ∧ d.func = 0 → (s.core n).mustWait [lsRange d] [] = false → lsOk d = true →
        ∃ t, exec (.ld n words) s = .next t ∧ VecEnds s t n (t.core n).tiles ∧
        EventsLatched s t (vcTag n d) (((positions d.rows d.cols).filter (fun p => h.isBad (d.addr + p.1 * d.stride + 4 * p.2) 4)).map
          (fun p => { cause := .nanOperand, mt := d.dst, nt := 0, row := p.1, col := laneOf p.1 p.2, kblk := 0 })) (vecRegs n) ∧
        ((t.core n).curSeg = (s.core n).curSeg →
          (∀ r c, r < d.rows → c < d.cols → tileWord (t.core n).tiles d.dst r c = h.word32 (d.addr + r * d.stride + 4 * c)) ∧
          (∀ b, (∀ r c, r < d.rows → c < d.cols → b / 4 ≠ (tileRow d.dst r) / 4 + c) → (t.core n).tiles.read b = m.read b)) ∧
        { t with regs := s.regs, cad := s.cad, cores := s.cores, caps := s.caps, captures := s.captures, ports := s.ports
                 faultQ := s.faultQ, out := s.out } = s)) ∧
    (d.op = 0x41 → (¬ (small ∧ d.func = 0) → refused (.st n words)) ∧
      (small ∧ d.func = 0 → (s.core n).mustWait [] [lsRange d] = true → exec (.st n words) s = .next waits) ∧
      (small ∧ d.func = 0 → (s.core n).mustWait [] [lsRange d] = false → lsOk d = true →
        ∃ t, exec (.st n words) s = .next t ∧ VecEnds s t n m ∧
        (4 * d.cols ≤ d.stride → ∀ r k, r < d.rows → k < 4 * d.cols →
          (t.hearth (dieOf n)).read (d.addr + r * d.stride + k) = m.read (tileRow d.sa r + k)) ∧
        (∀ a, (∀ r k, r < d.rows → k < 4 * d.cols → a ≠ d.addr + r * d.stride + k) →
          (t.hearth (dieOf n)).read a = h.read a) ∧
        t.hearth (1 - dieOf n) = s.hearth (1 - dieOf n) ∧ SameRegsOut (vecRegs n) s t ∧
        { t with regs := s.regs, cores := s.cores, hearth0 := s.hearth0, hearth1 := s.hearth1, caps := s.caps
                 captures := s.captures } = s)) ∧
    (d.op = 0x48 → (¬ (small ∧ d.esize = 0 ∧ 1 ≤ d.func ∧ d.func ≤ 7) → refused (.setshape n words)) ∧
      (small ∧ d.esize = 0 ∧ 1 ≤ d.func ∧ d.func ≤ 7 →
        let w := fun c => srcWord m d d.sa d.ba 0 c
        ∃ t, exec (.setshape n words) s = .next t ∧ VecEnds s t n m ∧
          t.get (Reg.coreShapeM n d.func) = shapeVal (w 0) 65535 ∧ t.get (Reg.coreShapeN n d.func) = shapeVal (w 1) 65535 ∧
          t.get (Reg.coreShapeK n d.func) = shapeVal (w 2) 4194303 ∧
          SameRegsOut (Reg.coreShapeM n d.func :: Reg.coreShapeN n d.func :: Reg.coreShapeK n d.func :: vecRegs n) s t ∧
          { t with regs := s.regs, cores := s.cores, caps := s.caps, captures := s.captures } = s)) ∧
    (d.op = 0x20 → small → d.esize = 0 → d.func ≤ 3 → redEmpty d = true →
      ∃ t, exec (.reduce n words) s = .next t ∧ VecEnds s t n (redEff m d).tiles ∧
        t.get (Reg.coreZeroshape n) = min (s.get (Reg.coreZeroshape n) + 1) (2 ^ 32 - 1) ∧
        EventsLatched s t (vcTag n d) (redEff m d).events (Reg.coreZeroshape n :: vecRegs n) ∧
        { t with regs := s.regs, cad := s.cad, cores := s.cores, caps := s.caps, captures := s.captures, ports := s.ports
                 faultQ := s.faultQ, out := s.out } = s)

/-! ## Swage and the term-walk (chapters 06 and 07) -/

/-- R150, R165, R166, R185, R189: a depth-wise command that the check passes starts and holds the engine, or waits while an earlier
command uses its ranges; one that it does not pass is refused with REASON 8. When its row is complete the line buffers hold the
window's rows and the output row is in Hearth, and no other byte; Swage presents the next row of its set, each edge row goes to the
neighbour or waits for a credit, the engine is free, and the events are recorded. -/
def Obligations.DepthwiseRows : Prop :=
  ∀ (s : State) (n : Nat) (words : List Word), n < 192 →
    let ws := natWords words
    let d := vcOf ws
    let w := dwOf ws
    let c := s.core n
    let c' := { c with dwconv := some ws, vecSeg := c.curSeg }
    (TakesVec s n → d.op = 0x50 →
      (dwOk c d w = true → c.mustWait c'.dwReads c'.dwWrites = false →
        ∃ t, exec (.dwconv n words) s = .next t ∧ t.core n = c'.dispatch ∧ (t.core n).dwconv = some ws ∧
          (t.core n).vecSeg = c.curSeg ∧ (t.core n).vecFree = false ∧ (∀ k, k ≠ n → t.core k = s.core k) ∧
          { t with cores := s.cores } = s) ∧
      (dwOk c d w = true → c.mustWait c'.dwReads c'.dwWrites = true →
        exec (.dwconv n words) s = .next (s.setCore n { c with vecWait := true })) ∧
      (dwOk c d w = false → ∃ t, exec (.dwconv n words) s = .next t ∧ RefusedCmd s t n 0x08 8 d.opid 0 0)) ∧
    (∀ g set r f, c.dwconv = some ws → c.segRun c.vecSeg = some g → setAt c c.vecSeg w.lb = some (set, r) → s.alive = true →
      r.presented < outRows set → missing g w.lb set (heldFor set r) (edgeFirst set r.presented) = false →
      fmtOf w.ofmt 0 = some f → inHearth (d.addr + (w.cCnt - 1) * d.stride) (outBytes w) = true →
      let win := fillWindow s n g w.lb set r
      let row := dwRow (s.hearth (dieOf n)) win.1 c.tiles d w set (edgeFirst set r.presented)
      ∃ t, exec (.dwconvComplete n) s = .next t ∧ (t.core n).dwconv = none ∧ (t.core n).lineBuf = win.1 ∧
        (t.core n).tiles = (if c.curSeg = c.vecSeg then c.tiles else .empty) ∧ t.hearth (dieOf n) = row.1 ∧
        (∀ a, (∀ k, k < w.cCnt → a < d.addr + k * d.stride ∨ d.addr + k * d.stride + ceilDiv (w.wOut * f.width) 8 ≤ a) →
          (t.hearth (dieOf n)).read a = (s.hearth (dieOf n)).read a) ∧
        t.hearth (1 - dieOf n) = s.hearth (1 - dieOf n) ∧
        (∃ r', setAt (t.core n) c.vecSeg w.lb = some (set, r') ∧ r'.presented = r.presented + 1 ∧ r'.held = win.2 ∧
          r'.landedUp = r.landedUp ∧ r'.landedDn = r.landedDn) ∧
        (∀ e ∈ edgeRows t n g d w set (edgeFirst set r.presented), ∀ m, neighbour s n e.up = some m →
          (m, e) ∈ t.haloRows ∨ ∃ g', (t.core n).segRun c.vecSeg = some g' ∧ e ∈ g'.stalled) ∧
        { t.core n with dwconv := c.dwconv, lineBuf := c.lineBuf, tiles := c.tiles, segs := c.segs } = c ∧
        (∀ k, k ≠ n → t.core k = s.core k) ∧ t.get (Reg.coreVcmds n) = min (s.get (Reg.coreVcmds n) + 1) (2 ^ 32 - 1) ∧
        EventsLatched s t (vcTag n d) row.2 (Reg.coreHaloSent n :: vecRegs n) ∧
        { t with regs := s.regs, cad := s.cad, cores := s.cores, hearth0 := s.hearth0, hearth1 := s.hearth1, haloRows := s.haloRows
                 haloCredits := s.haloCredits, caps := s.caps, captures := s.captures, ports := s.ports, faultQ := s.faultQ
                 out := s.out } = s)

/-- R188, R190, R191: a halo row with the tag that its core expects lands in the lowest empty slot of its direction, and in no other
byte; its slot stays full while a window still reads it. A row of an old ATTEMPT is discarded. One with another tag is counted,
raises HALO tag of class U, holds the gate, and keeps its slot unread. A credit that returns is its producer's again, and sends the
oldest row that waits for it. -/
def Obligations.HaloRowsLand : Prop :=
  ∀ (s : State) (n : Nat) (up : Bool), n < 192 → s.alive = true →
    let c := s.core n
    (∀ x, s.haloRows.find? (fun x => x.1 == n && x.2.up == !up) = some x →
      let rest := s.haloRows.erase x
      (x.2.tag.attempt ≠ s.cad.attempt → exec (.haloRowLanded n up) s = .next { s with haloRows := rest }) ∧
      (∀ g, c.segRun x.2.segment = some g → x.2.tag.attempt = s.cad.attempt →
        ((∀ k w j, expectRow g up = some (k, w, j) → x.2.tag ≠ expectTag s n g up w j) →
          ∃ t, exec (.haloRowLanded n up) s = .next t ∧ t.haloRows = rest ∧
            t.core n = c.setRun x.2.segment (fun g => g.fill up (emptySlot g up) none) ∧ (∀ k, k ≠ n → t.core k = s.core k) ∧
            Counted s t (Reg.coreHaloTagerr n) ∧ Raised s t (srcIssue n) 0x0F clsU (n * 2 ^ 32) ∧ HoldsNext s t reasonAbort ∧
            SameRegsOut [Reg.coreHaloTagerr n] s t ∧
            { t with regs := s.regs, cad := s.cad, cores := s.cores, haloRows := s.haloRows, ports := s.ports, faultQ := s.faultQ
                     out := s.out } = s) ∧
        (∀ k w j, expectRow g up = some (k, w, j) → x.2.tag = expectTag s n g up w j →
          let i := emptySlot g up
          let a := w.haloAddr + (if up then i else w.haloSlots + i) * slotBytes w
          inHearth a x.2.data.length = true → ∃ t, exec (.haloRowLanded n up) s = .next t ∧ t.haloRows = rest ∧
            (t.hearth (dieOf n)).readBytes a x.2.data.length = x.2.data ∧
            (∀ b, b < a ∨ a + x.2.data.length ≤ b → (t.hearth (dieOf n)).read b = (s.hearth (dieOf n)).read b) ∧
            t.hearth (1 - dieOf n) = s.hearth (1 - dieOf n) ∧
            (∃ g', (t.core n).segRun x.2.segment = some g' ∧ g'.sets = (g.landed up k).sets ∧
              (needed w ((g.sets.getD k ⟨0, 0, 0, []⟩).presented) up j = true → (i, some (k, j)) ∈ haloFull g' up)) ∧
            { t.core n with segs := c.segs } = c ∧ (∀ k, k ≠ n → t.core k = s.core k) ∧
            { t with cores := s.cores, haloRows := s.haloRows, haloCredits := s.haloCredits, hearth0 := s.hearth0
                     hearth1 := s.hearth1 } = s))) ∧
    (∀ seg g, s.haloCredits.find? (fun x => x.1 == n && x.2.2 == up) = some (n, seg, up) → c.segRun seg = some g →
      let cr := fun x : SegRun => if up then x.creditUp else x.creditDn
      ((∀ e ∈ g.stalled, e.up ≠ up) → ∃ t, exec (.haloCreditReturn n up) s = .next t ∧
        (t.core n).segRun seg = some (if up then { g with creditUp := g.creditUp + 1 } else { g with creditDn := g.creditDn + 1 }) ∧
        { t.core n with segs := c.segs } = c ∧ (∀ k, k ≠ n → t.core k = s.core k) ∧
        t.haloCredits = s.haloCredits.erase (n, seg, up) ∧ { t with cores := s.cores, haloCredits := s.haloCredits } = s) ∧
      (∀ e m, g.stalled.find? (fun e => e.up == up) = some e → e.segment = seg → neighbour s n up = some m →
        ∃ t, exec (.haloCreditReturn n up) s = .next t ∧ t.haloRows = s.haloRows ++ [(m, e)] ∧
          (∃ g', (t.core n).segRun seg = some g' ∧ cr g' = cr g ∧ g'.stalled = g.stalled.erase e) ∧
          { t.core n with segs := c.segs } = c ∧ (∀ k, k ≠ n → t.core k = s.core k) ∧
          t.haloCredits = s.haloCredits.erase (n, seg, up) ∧ Counted s t (Reg.coreHaloSent n) ∧
          SameRegsBut [Reg.coreHaloSent n] s t ∧
          { t with regs := s.regs, cores := s.cores, haloRows := s.haloRows, haloCredits := s.haloCredits } = s))

/-- R141, R150, R167 to R169: a TERMWALK of a recorded issue starts and holds the engine, or waits while an earlier command writes what
it reads; one that the check does not pass is refused with REASON 8. When it ends its record of 64 bytes is in Hearth, and no other
byte; it is counted, with its cycles, and raises no event. -/
def Obligations.TermwalkWritesItsRecord : Prop :=
  ∀ (s : State) (n : Nat) (words : List Word), n < 192 →
    let ws := natWords words
    let d := vcOf ws
    let c := s.core n
    let a := wf ws 6 0 30
    let ok := d.esize = 0 ∧ d.rows ≤ 32 ∧ d.cols ≤ 32 ∧ d.axis ≠ 3 ∧ d.func ≤ 1 ∧ (mmOf (walkIssue s n ws)).op = 1
    (TakesVec s n → d.op = 0x58 → inHearth (wf ws 5 0 30) 80 = true →
      (ok → c.mustWait (walkRanges s n ws) [(a, 64)] = false →
        ∃ t, exec (.termwalk n words) s = .next t ∧ (t.core n).walk = some ws ∧ (t.core n).walkReads = walkRanges s n ws ∧
          (t.core n).vecFree = false ∧ (t.core n).vecSeg = c.curSeg ∧ (∀ k, k ≠ n → t.core k = s.core k) ∧
          { t with cores := s.cores } = s) ∧
      (ok → c.mustWait (walkRanges s n ws) [(a, 64)] = true →
        exec (.termwalk n words) s = .next (s.setCore n { c with vecWait := true })) ∧
      (¬ ok → ∃ t, exec (.termwalk n words) s = .next t ∧ RefusedCmd s t n 0x08 8 d.opid 0 0)) ∧
    (c.walk = some ws → s.alive = true → inHearth a 64 = true → ∃ t, exec (.termwalkComplete n) s = .next t ∧
      (walkRecord s n ws).length = 64 ∧ (t.hearth (dieOf n)).readBytes a 64 = walkRecord s n ws ∧
      (∀ b, b < a ∨ a + 64 ≤ b → (t.hearth (dieOf n)).read b = (s.hearth (dieOf n)).read b) ∧
      t.hearth (1 - dieOf n) = s.hearth (1 - dieOf n) ∧ (t.core n).walk = none ∧ (t.core n).walkReads = [] ∧
      (t.core n).segs = c.segs.map (fun g => if g.segment = c.vecSeg then { g with done := g.done + 1 } else g) ∧
      { t.core n with walk := c.walk, walkReads := c.walkReads, segs := c.segs } = c ∧ (∀ k, k ≠ n → t.core k = s.core k) ∧
      t.get (Reg.coreTwCount n) = min (s.get (Reg.coreTwCount n) + 1) (2 ^ 32 - 1) ∧
      t.get64 (Reg.coreVbusyCyclesLo n) (Reg.coreVbusyCyclesHi n) =
        min (s.get64 (Reg.coreVbusyCyclesLo n) (Reg.coreVbusyCyclesHi n) + (64 + 32 * walkCount (walkedIssue s n ws) ws)) (2 ^ 64 - 1) ∧
      SameRegsBut (Reg.coreTwCount n :: vecRegs n) s t ∧
      { t with regs := s.regs, cores := s.cores, hearth0 := s.hearth0, hearth1 := s.hearth1, caps := s.caps, captures := s.captures
               freeCtr := s.freeCtr } = s)

/-! ## Attention, the key-value store, transfers and the stash (chapters 07 to 09) -/

/-- R29, R115, R196, R197, R199, R205, R206, R213: an attention command that its check passes appends, has its whole effect on Hearth
and holds the array, its slots and its buffer until it completes; then T0 to T31 are zero and all that it held is free. One that
must wait, for its slots, the array or a range that an earlier command uses, is held, and is checked again when its wait may end; one
that the check or the stream's test does not pass is refused. The events of the command are recorded as it runs. -/
def Obligations.AttentionRunsAndEnds : Prop :=
  ∀ (s : State) (n : Nat) (words : List Word), n < 192 →
    let v := vcOf (natWords words)
    let d := atOf s n v
    let nq := atRows s n d
    let c := s.core n
    let func := v.func
    let held := s.setCore n { c with waiting := some (natWords words) }
    let acts := fun (ecc : List EccRes) (o : Host.Outcome State Fault Refusal) =>
      (∀ reason kind need have_, attnCheck s n func v d = .refuse reason kind need have_ →
        ∃ t, o = .next t ∧ RefusedCmd s t n kind reason v.opid need have_) ∧
      (attnCheck s n func v d = .wait → o = .next held) ∧
      (attnCheck s n func v d = .accept →
        let rw := atRanges s func d nq ((atKeys s n d).getD d.nk)
        (c.mustWait rw.1 rw.2 = true → o = .next held) ∧
        (c.mustWait rw.1 rw.2 = false →
          let s0 := s.appendChecks d ecc
          (∀ kind, s0.attnStream n func d nq = .no kind → ∃ t, o = .next t ∧ KvRefused s0 t n v.opid d.stream kind) ∧
          (∀ u, s0.attnStream n func d nq = .ok u → atHearthOk u.auditPages func d nq (u.auditPages.attnKeys n d) = true →
            let nk := u.auditPages.attnKeys n d
            let st := if d.paged then Assoc.find? u.auditPages.kvp.streams d.stream else none
            let w := match st with
              | some e => u.auditPages.gather n e d nq nk ecc
              | none => u.auditPages
            let r : AttnRes := if nq = 0 then ⟨w.hearth (dieOf n), [], 0, 0, 0, 0, 0⟩
              else if func = 0 then forward w n v d st nq nk else if func = 1 then backward w n v d nq nk else prepass w n v d nq
            let js := (List.range (atSlots func)).map (fun k => d.slotBase + k)
            let size := if func = 2 then 0 else d.obSize
            ∃ t, o = .next t ∧ t.hearth (dieOf n) = r.h ∧ t.hbm = u.hbm ∧ t.hearth (1 - dieOf n) = s.hearth (1 - dieOf n) ∧
              t.stock = s.stock ∧ t.canCompute n = false ∧
              (∃ a, (t.core n).attn = some a ∧ a.opid = v.opid ∧ a.slots = js ∧ a.obBytes = size ∧ a.segment = c.curSeg ∧
                (a.reads, a.writes) = atRanges w func d nq nk ∧ a.epoch = if d.paged then some w.kvp.epoch else none) ∧
              t.kvp = (if d.paged then { w.kvp with pins := w.kvp.epoch :: w.kvp.pins } else w.kvp) ∧
              (∀ j, Assoc.get SlotSt.free (t.core n).slotSt j = if d.slotBase ≤ j ∧ j < d.slotBase + atSlots func then .busy
                else Assoc.get SlotSt.free c.slotSt j) ∧
              (t.core n).accHeld = c.accHeld + atSlots func ∧ (t.core n).obHeld = c.obHeld + size ∧ (t.core n).waiting = none ∧
              { t.core n with attn := c.attn, slotSt := c.slotSt, accHeld := c.accHeld, obHeld := c.obHeld, waiting := c.waiting
                              vecWait := c.vecWait, segs := c.segs, curSeg := c.curSeg, tiles := c.tiles } = c ∧
              (∀ k, k ≠ n → t.core k = s.core k) ∧
              t.get (Reg.coreAttBlocks n) = min (s.get (Reg.coreAttBlocks n) + r.blocks) (2 ^ 32 - 1) ∧
              t.get (Reg.coreAttSkipped n) = min (s.get (Reg.coreAttSkipped n) + r.skipped) (2 ^ 32 - 1) ∧
              t.get (Reg.coreAttEmpty n) = min (s.get (Reg.coreAttEmpty n) + r.empty) (2 ^ 32 - 1) ∧
              t.get (Reg.coreZeroshape n) = min (s.get (Reg.coreZeroshape n) + b2n (nq == 0 || nk == 0)) (2 ^ 32 - 1) ∧
              (∀ e es, r.evs.filter (fun x => watched (s.flag (Reg.coreNumctrlInfTrap n)) x.ev.cause) = e :: es →
                t.get (Reg.coreTrapStatusValid n) = 1 ∧
                s0.faultQ <+: t.faultQ ∧ (s.flag (Reg.coreTrapStatusValid n) = false →
                  t.get (Reg.coreTrapOpid n) = v.opid % 2 ^ 32 ∧ t.get (Reg.coreTrapStatusCause n) = e.ev.cause.code ∧
                  t.get (Reg.coreNanCount n) = min (s.get (Reg.coreNanCount n) + es.length) (2 ^ 32 - 1))) ∧
              t.life = s.life ∧ t.mbx = s.mbx ∧ t.jnl = s.jnl ∧ t.stash = s.stash ∧ t.hands = s.hands ∧ t.net = s.net ∧ t.tmp = s.tmp ∧
              t.blm = s.blm ∧ t.ing = s.ing ∧ t.sys = s.sys ∧ t.cru = s.cru ∧ t.billet = s.billet)))
    (∀ ecc, TakesVec s n → v.op = 0x28 → inHearth v.addr 128 = true →
      (func = 0 → acts ecc (exec (.attnForward n words ecc) s)) ∧ (func = 1 → acts [] (exec (.attnBackward n words) s)) ∧
      (func = 2 → acts [] (exec (.attnPrepass n words) s)) ∧
      (2 < func → ∃ t, exec (.attnForward n words ecc) s = .next t ∧ RefusedCmd s t n 0x08 8 v.opid 0 0)) ∧
    (∀ ecc, s.life = .running → c.run = .running → c.waiting = some (natWords words) → wf (natWords words) 1 0 8 = 0x28 →
      inHearth v.addr 128 = true → func ≤ 2 → acts ecc (exec (.issueAcceptAfterWait n ecc) s)) ∧
    (∀ a, c.attn = some a → s.alive = true → ∃ t, exec (.attnComplete n) s = .next t ∧ (t.core n).attn = none ∧
      (t.core n).tiles = .empty ∧
      (∀ j, Assoc.get SlotSt.free (t.core n).slotSt j = if j ∈ a.slots then .free else Assoc.get SlotSt.free c.slotSt j) ∧
      (t.core n).accHeld = c.accHeld - a.slots.length ∧ (t.core n).obHeld = c.obHeld - a.obBytes ∧
      (t.core n).segs = c.segs.map (fun g => if g.segment = a.segment then { g with done := g.done + 1 } else g) ∧
      { t.core n with attn := c.attn, tiles := c.tiles, slotSt := c.slotSt, accHeld := c.accHeld, obHeld := c.obHeld, segs := c.segs } = c ∧
      (a.epoch = none → t.kvp = s.kvp) ∧ (∀ e, a.epoch = some e → t.kvp.pins = s.kvp.pins.erase e) ∧
      t.get (Reg.coreAttCmds n) = min (s.get (Reg.coreAttCmds n) + 1) (2 ^ 32 - 1) ∧
      t.get (Reg.coreVcmds n) = min (s.get (Reg.coreVcmds n) + 1) (2 ^ 32 - 1) ∧ (∀ k, k ≠ n → t.core k = s.core k) ∧ SameBytes s t ∧
      { t with regs := s.regs, cores := s.cores, kvp := s.kvp, caps := s.caps, captures := s.captures, faultQ := s.faultQ } = s)

/-- R195, R213, R214: OPEN takes a free entry as an empty training stream of the core; FORK makes a training stream with the source's
geometry and length; CLOSE frees the entry, for its owner alone. A change that cannot be made is refused and leaves the store as it
was; a KVOP of an undefined FUNC, or with a field set that it does not use, is refused with REASON 8. -/
def Obligations.KvStreamsChange : Prop :=
  ∀ (s : State) (n : Nat) (words : List Word), TakesVec s n →
    let d := vcOf (natWords words)
    let id := d.xarg % 2 ^ 20
    let src := d.imm % 2 ^ 20
    let m := (s.core n).tiles
    let changes := fun (i : Instr) (r : KvRes) (done : State → Prop) =>
      (∀ kind, r = .no kind → ∃ t, exec i s = .next t ∧ KvRefused s t n d.opid id kind) ∧
      (∀ u, r = .ok u → ∃ t, exec i s = .next t ∧ VecEnds s t n m ∧ t.kvp = u.kvp ∧ t.hbm = u.hbm ∧ done t ∧
        { t with regs := s.regs, cores := s.cores, kvp := s.kvp, hbm := s.hbm, freeCtr := s.freeCtr, faultQ := s.faultQ, caps := s.caps
                 captures := s.captures } = s)
    let refused := fun i => ∃ t, exec i s = .next t ∧ RefusedCmd s t n 0x08 8 d.opid 0 0
    d.op = 0x29 →
    (2 < d.func → refused (.kvopOpen n words) ∧ refused (.kvopFork n words) ∧ refused (.kvopClose n words)) ∧
    (d.func = 0 →
      (kvFieldsOk d = false → refused (.kvopOpen n words)) ∧
      (kvFieldsOk d = true → s.flag Reg.kvpCtrlEn = false →
        ∃ t, exec (.kvopOpen n words) s = .next t ∧ KvRefused s t n d.opid id kvStreamKind) ∧
      (kvFieldsOk d = true → s.flag Reg.kvpCtrlEn = true →
        changes (.kvopOpen n words) (State.keepChange (s.openStream id (bits d.imm 0 8 + 1) (bits d.imm 8 8 + 1) (bits d.imm 16 4) n false))
          (fun t => Assoc.find? s.kvp.streams id = none ∧ ∃ l1, Assoc.find? t.kvp.streams id =
            some { serving := false, layers := bits d.imm 0 8 + 1, groups := bits d.imm 8 8 + 1, maxp := bits d.imm 16 4, length := 0
                   l1 := l1, owner := n }))) ∧
    (d.func = 1 →
      (kvFieldsOk d = false → refused (.kvopFork n words)) ∧
      (kvFieldsOk d = true → ownerOk s src n = false →
        ∃ t, exec (.kvopFork n words) s = .next t ∧ KvRefused s t n d.opid id kvOwner) ∧
      (kvFieldsOk d = true → ownerOk s src n = true →
        changes (.kvopFork n words) (State.keepChange (s.forkStream id src n false)) (fun t =>
          ∃ st l1, Assoc.find? s.kvp.streams src = some st ∧
            Assoc.find? t.kvp.streams id = some { st with serving := false, l1 := l1, owner := n }))) ∧
    (d.func = 2 →
      (kvFieldsOk d = false → refused (.kvopClose n words)) ∧
      (kvFieldsOk d = true → ownerOk s id n = false →
        ∃ t, exec (.kvopClose n words) s = .next t ∧ KvRefused s t n d.opid id kvOwner) ∧
      (kvFieldsOk d = true → ownerOk s id n = true →
        changes (.kvopClose n words) (State.keepChange (s.closeStream id)) (fun t =>
          Assoc.find? t.kvp.streams id = none ∧ ∀ k, k ≠ id → Assoc.find? t.kvp.streams k = Assoc.find? s.kvp.streams k)))

/-- R221: a write of 1 to KVP.AUDIT.START starts the walk; when it has finished, DONE is set and PASS tells whether every data
page's COUNT is the number of entries that name it, and every page so named is a data page; where it does not pass, KV ledger of class
F is raised. While a walk runs another start does nothing, and while none runs none finishes. -/
def Obligations.KvAuditWalks : Prop :=
  ∀ s : State, s.alive = true →
    (s.get Reg.kvpStatusAuditBusy = 0 → ∃ t, exec .kvAuditStart s = .next t ∧ t.get Reg.kvpStatusAuditBusy = 1 ∧ t.get Reg.kvpAuditDone = 0 ∧
      t.get Reg.kvpAuditPass = 0 ∧ SameRegsBut [Reg.kvpStatusAuditBusy, Reg.kvpAuditDone, Reg.kvpAuditPass] s t ∧ SameButRegs s t) ∧
    (s.get Reg.kvpStatusAuditBusy = 1 → exec .kvAuditStart s = .next s) ∧
    (s.get Reg.kvpStatusAuditBusy = 0 → exec .kvAuditDone s = .next s) ∧
    (s.get Reg.kvpStatusAuditBusy = 1 → ∃ t, exec .kvAuditDone s = .next t ∧ t.get Reg.kvpStatusAuditBusy = 0 ∧ t.get Reg.kvpAuditDone = 1 ∧
      (s.walkPasses = true → t.get Reg.kvpAuditPass = 1 ∧ t.faultQ = s.faultQ) ∧
      (s.walkPasses = false → t.get Reg.kvpAuditPass = s.get Reg.kvpAuditPass ∧ Raised s t srcKvp kvLedger clsF 0) ∧
      SameRegsOut [Reg.kvpStatusAuditBusy, Reg.kvpAuditDone, Reg.kvpAuditPass] s t ∧ { t with regs := s.regs, faultQ := s.faultQ } = s)

/-- R141, R178 to R180, R246: a SEND at the head of its engine spends a credit and its chunk goes out, or waits for one; one that R246
does not allow is refused with REASON 9. A chunk with the tag that its channel expects lands in the next slot, and in no other byte;
one of an old ATTEMPT is counted and discarded; one with another tag fills its slot unread, is counted, raises Hand-over tag of class
U and holds the gate. A credit that comes back is the producer's again, and lets a waiting SEND go. -/
def Obligations.HandoverMovesChunks : Prop :=
  ∀ (s : State),
    (∀ n words, n < 192 →
      let ws := natWords words
      let x := xferOf s n ws
      let c := s.core n
      takesXfer s n 0x61 ws = true →
      (xferOk s n ws = false → ∃ t, exec (.send n words) s = .next t ∧ RefusedCmd s t n 0x08 9 x.opid 0 0) ∧
      (xferOk s n ws = true → c.mustWait x.reads [] = true → exec (.send n words) s = .next s) ∧
      (∀ ch, xferOk s n ws = true → c.mustWait x.reads [] = false → inHearth x.haddr x.len = true → c.xfers = [] →
        channelAt s x.channel = some ch →
        ((s.hand x.channel).credits = 0 → ∃ t, exec (.send n words) s = .next t ∧ (t.core n).xfers = [x] ∧
          (∀ k, k ≠ n → t.core k = s.core k) ∧ { t with cores := s.cores } = s) ∧
        (0 < (s.hand x.channel).credits → ∃ t, exec (.send n words) s = .next t ∧ (t.core n).xfers = [] ∧ SameBytes s t ∧
          t.hand x.channel = { s.hand x.channel with
            credits := (s.hand x.channel).credits - 1, sent := (s.hand x.channel).sent + 1, transit := (s.hand x.channel).transit + 1 } ∧
          (∀ j, j ≠ x.channel → t.hand j = s.hand j) ∧ (∀ k, k ≠ n → t.core k = s.core k) ∧
          (ch.consDev = s.addr →
            t.out = s.out ++ [.chunk x.channel x.mb x.chunk s.cad.attempt ((s.hearth (dieOf n)).readBytes x.haddr x.len)]) ∧
          { t with regs := s.regs, cad := s.cad, cores := s.cores, hands := s.hands, caps := s.caps, captures := s.captures
                   ports := s.ports, faultQ := s.faultQ, out := s.out } = s))) ∧
    (∀ k mb chunk attempt data ch, channelAt s k = some ch → s.alive = true → ch.consDev = s.addr →
      let h := s.hand k
      let r0 := s.rank0 ch.consGang
      let slot := h.landed % ch.slots
      let a := ch.slotAddr + slot * ch.slotBytes
      let bs := data.take ch.slotBytes
      let mem := if ch.mem = 0 then hearthNo (slotDie s ch) else 2
      let transit := if ch.prodDev = s.addr then h.transit - 1 else h.transit
      let right := (channelOrder s k)[h.landed / ch.chunks]? = some mb ∧ chunk = h.landed % ch.chunks ∧ h.full.length + h.bad < ch.slots
      (attempt ≠ s.cad.attempt → exec (.chunkLanded k mb chunk attempt data) s = .next (s.count (Reg.coreHoStale r0))) ∧
      (attempt = s.cad.attempt → (ch.prodDev = s.addr → h.transit ≠ 0) →
        (right → (ch.mem = 0 → inHearth a bs.length = true) →
          ∃ t, exec (.chunkLanded k mb chunk attempt data) s = .next t ∧
            t.hand k = { h with landed := h.landed + 1, full := h.full ++ [(slot, mb, chunk)], transit := transit } ∧
            (∀ j, j ≠ k → t.hand j = s.hand j) ∧ (t.memOf mem).readBytes a bs.length = bs ∧
            SameBytesBut (fun m x => m = mem ∧ Within x a bs.length) s t ∧ Counted s t (Reg.coreHoRx r0) ∧
            { t with regs := s.regs, hands := s.hands, hearth0 := s.hearth0, hearth1 := s.hearth1, hbm := s.hbm
                     hbmPoison := s.hbmPoison, faultQ := s.faultQ } = s) ∧
        (¬ right →
          ∃ t, exec (.chunkLanded k mb chunk attempt data) s = .next t ∧
            t.hand k = { h with landed := h.landed + 1, bad := h.bad + 1, transit := transit } ∧ (∀ j, j ≠ k → t.hand j = s.hand j) ∧
            Counted s t (Reg.coreHoTagerr r0) ∧ Raised s t (srcIssue r0) 0x0D clsU (k % 2 ^ 16 + r0 * 2 ^ 32) ∧
            HoldsNext s t reasonAbort ∧ SameRegsOut [Reg.coreHoTagerr r0] s t ∧
            { t with regs := s.regs, cad := s.cad, hands := s.hands, ports := s.ports, faultQ := s.faultQ, out := s.out } = s))) ∧
    (∀ k ch, channelAt s k = some ch → s.alive = true → ch.prodDev = s.addr → (ch.consDev = s.addr → (s.hand k).flying ≠ 0) →
      (s.hand k).credits < ch.slots →
      let h := s.hand k
      let back := if ch.consDev = s.addr then { h with credits := h.credits + 1, flying := h.flying - 1 }
        else { h with credits := h.credits + 1, transit := h.transit - 1 }
      ((∀ n, (s.core n).xfers = []) → ∃ t, exec (.hoCredit k) s = .next t ∧ t.hand k = back ∧ (∀ j, j ≠ k → t.hand j = s.hand j) ∧
        { t with hands := s.hands } = s) ∧
      (∀ b g n x, s.billet = some b → gangBy b ch.prodGang = some g → n ∈ gangCores g → n < 192 → (s.core n).xfers = [x] → x.op = 0x61 →
        x.channel = k → h.credits = 0 → (∀ m, m ≠ n → (s.core m).xfers = []) →
        ∃ t, exec (.hoCredit k) s = .next t ∧ (t.core n).xfers = [] ∧
          t.hand k = { back with credits := 0, sent := h.sent + 1, transit := back.transit + 1 } ∧ SameBytes s t))

/-- R141, R238 to R246: an XFER goes to its core's transfer engine, or waits while an earlier command uses its ranges; one that R246
does not allow is refused with REASON 9. When it is complete the coded bytes of an encode are at its destination and their length at
RESULT, or the bytes of a decode are in Hearth, which for PASS are those of the source; and no other byte of any memory has changed. -/
def Obligations.TransfersMoveData : Prop :=
  ∀ (s : State) (n : Nat), n < 192 →
    (∀ words, let ws := natWords words
      let x := xferOf s n ws
      takesXfer s n 0x60 ws = true →
        (xferOk s n ws = true → (s.core n).mustWait x.reads x.writes = true → exec (.xfer n words) s = .next s) ∧
        (xferOk s n ws = true → (s.core n).mustWait x.reads x.writes = false → (s.core n).xfers = [] →
          ∃ t, exec (.xfer n words) s = .next t ∧ (t.core n).xfers = [x] ∧ (∀ k, k ≠ n → t.core k = s.core k) ∧ { t with cores := s.cores } = s) ∧
        (xferOk s n ws = false → ∃ t, exec (.xfer n words) s = .next t ∧ RefusedCmd s t n 0x08 9 x.opid 0 0)) ∧
    (∀ x ecc, (s.core n).xfers = [x] → x.op = 0x60 → s.alive = true → inHearth x.haddr x.len = true →
      (x.result ≠ 0 → inHearth x.result 4 = true) →
      let die := hearthNo (dieOf n)
      let mem := if x.dir < 2 then 2 else 3
      let coded := ((Flux.encode (s.hearth (dieOf n)) x.mode x.srcFmt x.haddr x.len).1).map (BitVec.ofNat 8)
      let rest := fun t : State => (∀ k, k ≠ n → t.core k = s.core k) ∧
        { t with regs := s.regs, cad := s.cad, cores := s.cores, hearth0 := s.hearth0, hearth1 := s.hearth1, hbm := s.hbm
                 stock := s.stock, hbmPoison := s.hbmPoison, stockPoison := s.stockPoison, bucketFill := s.bucketFill
                 caps := s.caps, captures := s.captures, ports := s.ports, faultQ := s.faultQ, out := s.out } = s
      (x.dir % 2 = 0 → ∃ t, exec (.xferComplete n ecc) s = .next t ∧ (t.core n).xfers = [] ∧
        (t.memOf mem).readBytes x.far coded.length = coded ∧
        (x.result ≠ 0 → (t.memOf die).readLE x.result 4 = coded.length % 2 ^ 32) ∧
        SameBytesBut (fun m a => (m = mem ∧ Within a x.far coded.length) ∨ (m = die ∧ x.result ≠ 0 ∧ Within a x.result 4)) s t ∧ rest t) ∧
      (x.dir % 2 = 1 → ∃ t, exec (.xferComplete n ecc) s = .next t ∧ (t.core n).xfers = [] ∧
        (x.mode = 0 → ecc = [] → (if x.dir < 2 then s.hbmBad x.far x.len else s.stockBad x.far x.len) = false →
          (t.memOf die).readBytes x.haddr x.len = (s.memOf mem).readBytes x.far x.len) ∧
        SameBytesBut (fun m a => m = die ∧ Within a x.haddr x.len) s t ∧ rest t))

/-- R227 to R234: a STASH in its open window takes free slots of the first tier with room from its target down, and is counted; with
the window closed, or with no room, it is refused, its fault of class U is raised and the next gate held. Its coded bytes land in its
slots alone (and, in an MX mode, the decoded values in its source); a fetch writes the tensors' ranges of its buffer, and nothing
anywhere else; a tensor kept in PASS comes back as its slots hold it. -/
def Obligations.StashHoldsTensors : Prop :=
  ∀ (s : State),
    (∀ n words r w, n < 192 →
      let ws := natWords words
      let x := xferOf s n ws
      let c := s.core n
      let x' := { x with mode := w.mode, srcFmt := w.srcFmt }
      takesXfer s n 0x62 ws = true → xferOk s n ws = true → c.xfers = [] → c.mustWait x'.reads x'.writes = false →
      regionAt s x.region = some r → r.tensors[x.tensor]? = some w →
      let need := ceilDiv (Flux.codedLen (s.hearth (dieOf n)) w.mode w.srcFmt x.haddr x.len) (stashSlot s)
      let ok := windowOpen s x.region x.mb && !stashed s x.region x.mb x.tensor && x.len == w.raw
      let place := if 4096 ≤ s.stash.length then none else s.placeTier x.region need (r.tierMap.getD x.mb 0)
      let lastFault := [Reg.sthLastFaultRegion, Reg.sthLastFaultTensor, Reg.sthLastFaultMb]
      let stops := fun (t : State) (kind : Nat) (l : List Fld) =>
        t.core n = { c with run := .refused, waiting := none, vecWait := false } ∧ (∀ k, k ≠ n → t.core k = s.core k) ∧
        HoldsNext s t reasonAbort ∧
        Raised s t srcStash kind clsU (x.region % 64 + x.tensor % 32 * 2 ^ 8 + x.mb % 64 * 2 ^ 16) ∧
        t.get Reg.sthLastFaultRegion = x.region % 2 ^ Reg.sthLastFaultRegion.w ∧
        t.get Reg.sthLastFaultTensor = x.tensor % 2 ^ Reg.sthLastFaultTensor.w ∧
        t.get Reg.sthLastFaultMb = x.mb % 2 ^ Reg.sthLastFaultMb.w ∧ SameRegsOut (l ++ lastFault) s t ∧
        { t with regs := s.regs, cad := s.cad, cores := s.cores, ports := s.ports, faultQ := s.faultQ, out := s.out } = s
      (ok = false → ∃ t, exec (.stash n words) s = .next t ∧ stops t 0x21 []) ∧
      (inHearth x.haddr x.len = true → ok = true → place = none → ∃ t, exec (.stash n words) s = .next t ∧ stops t 0x20 [Reg.sthExhaust] ∧
        Counted s t Reg.sthExhaust) ∧
      (inHearth x.haddr x.len = true → ok = true → ∀ tier, place = some tier → ∃ t, exec (.stash n words) s = .next t ∧ SameBytes s t ∧
        (t.core n).xfers = [x'] ∧ Counted s t Reg.sthPuts ∧ t.freeSlots x.region tier = s.freeSlots x.region tier - need ∧
        (∀ k, k ≠ n → t.core k = s.core k) ∧
        (∃ e, t.stash = s.stash ++ [e] ∧ (e.region, e.mb, e.tensor, e.tier, e.landed) = (x.region, x.mb, x.tensor, tier, false) ∧
          e.slots.length = need ∧ ((heldOf s x.region tier).length + need ≤ tierSlots s r tier →
            e.slots.Nodup ∧ ∀ k ∈ e.slots, k < tierSlots s r tier ∧ k ∉ heldOf s x.region tier)) ∧
        { t with regs := s.regs, cores := s.cores, stash := s.stash, stashFree := s.stashFree, freeCtr := s.freeCtr
                 faultQ := s.faultQ } = s)) ∧
    (∀ n x r e, n < 192 → (s.core n).xfers = [x] → x.op = 0x62 → s.alive = true → regionAt s x.region = some r →
      s.stash.find? (fun e => e.region == x.region && e.mb == x.mb && e.tensor == x.tensor) = some e →
      let mem := if e.tier = 0 then hearthNo (regionDie s r) else if e.tier = 1 then 2 else 3
      ∃ t, exec (.stashLanded n) s = .next t ∧ (t.core n).xfers = [] ∧ t.stash = s.stash.map (markLanded e) ∧
        SameBytesBut (fun m a => (m = mem ∧ ∃ k ∈ e.slots, Within a (tierBase s r e.tier + k * stashSlot s) (stashSlot s)) ∨
          (Flux.isMx x.mode = true ∧ m = hearthNo (dieOf n) ∧ Within a x.haddr x.len)) s t) ∧
    (∀ region mb ecc r, regionAt s region = some r → s.alive = true →
      s.fetches.any (fun f => f.region == region && f.mb == mb && !f.landed && !f.released) = true → allLanded s region mb = true →
      bufferHeld s r region mb = false →
      let buf := r.fetchAddr + mb % r.fbuf * r.fbufBytes
      let die := hearthNo (regionDie s r)
      inHearth buf r.fbufBytes = true →
      ∃ t, exec (.fetchComplete region mb ecc) s = .next t ∧ t.fetches = s.fetches.map (markFetched region mb) ∧
        t.stash = s.stash ∧
        (∀ w e, r.tensors = [w] → w.mode = 0 → ecc = [] → e.coded = w.raw → w.raw ≤ e.slots.length * stashSlot s →
          s.stash.find? (fun e => e.region == region && e.mb == mb && e.tensor == 0) = some e → slotsBad s r e 0 w.raw = false →
          ((t.memOf die).readBytes (buf + w.offset) w.raw).map BitVec.toNat = readSlots s r e) ∧
        SameBytesBut (fun m a => m = die ∧ ∃ w ∈ r.tensors, Within a (buf + w.offset) w.raw) s t)


/-! ## Temper (chapter 10) -/

/-- R260 to R262, R265 to R268, R271, R274, R277: the norm's sum gives LAST_NORM and clipf, and skips the step where a gradient was not
finite and the flag asks for it. A range whose update ends is done, and STEP advances with the last one of the step: each element of
its groups by SGD, ADAMW and SIGN that is not frozen has become what its rule makes of it, every gradient is clear, every push image
holds its group's weights as its format, and no other byte of Stock has changed; in a skipped step the gradients alone are cleared. A
read of Stock that is not usable, or a result that is not finite, is an update fault: the gate is held, and the range and STEP stay.
A push whose groups have finished copies its images to its destinations, and writes no other byte. A command that comes before its
time does nothing. -/
def Obligations.TemperUpdatesWeights : Prop :=
  ∀ (s : State) (p : TemperPlan), tmpPlan s = some p → s.alive = true →
    ((s.reduceOf p.normGroup).result = none → ∀ ecc, exec (.normResult ecc) s = .next s) ∧
    (∀ vals mask ecc, (s.reduceOf p.normGroup).result = some (vals, mask) →
      (s.tmp.step = none ∨ s.tmp.ready = true → exec (.normResult ecc) s = .next s) ∧
      (s.tmp.step.isSome = true → s.tmp.ready = false →
        let bad := (s.tmpRead (preRanges p) ecc).2
        let n := f32 (Fn.sqrt (Val.ofF32 (vals.getD 0 0)))
        let limit := Val.ofF32 (s.get Reg.tmpClipNorm)
        let clipf := if n.lt limit || n.eqv limit then Val.one else f32 (Fn.div limit n)
        let skips := bit mask 0 && s.flag Reg.tmpCtrlSkipNonfinite
        ∃ t, exec (.normResult ecc) s = .next t ∧ SameRegsOut tmpRegs s t ∧
          { t with regs := s.regs, cad := s.cad, tmp := s.tmp, stock := s.stock, stockPoison := s.stockPoison, ports := s.ports
                   faultQ := s.faultQ, out := s.out } = s ∧
          (bad = true → t.tmp = { s.tmp with failed := true } ∧ t.stock = s.stock ∧ HoldsUpdate s t (s.tmp.ranges.headD 0)) ∧
          (bad = false → t.cad = s.cad ∧
            t.tmp = { s.tmp with ready := true, clipf := toF32 false clipf, skip := s.tmp.skip || skips } ∧
            t.get Reg.tmpLastNorm = toF32 false n % 2 ^ 32 ∧
            t.get Reg.tmpClipped = (if clipf.lt .one then min (s.get Reg.tmpClipped + 1) (2 ^ Reg.tmpClipped.w - 1) else s.get Reg.tmpClipped) ∧
            (skips = false → t.stock = s.stock ∧ t.get Reg.tmpSkipped = s.get Reg.tmpSkipped) ∧
            (skips = true → t.get Reg.tmpSkipped = min (s.get Reg.tmpSkipped + 1) (2 ^ Reg.tmpSkipped.w - 1) ∧
              (∀ g ∈ p.groups, ∀ a, Within a g.g (gBytes g * g.count) → t.stock.read a = 0#8) ∧
              SameBytesBut (fun m a => m = 3 ∧ ∃ g ∈ p.groups, Within a g.g (gBytes g * g.count)) s t)))) ∧
    (∀ range ecc, s.tmp.ranges.head? ≠ some range ∨ s.tmp.failed = true ∨ (s.tmp.ready = false ∧ s.flag Reg.tmpCtrlClipEn = true) →
      exec (.updateRangeDone range ecc) s = .next s) ∧
    (∀ range st ecc, s.tmp.step = some st → s.tmp.ranges.head? = some range → s.tmp.failed = false →
      s.tmp.ready = true ∨ s.flag Reg.tmpCtrlClipEn = false →
      let now := !s.tmp.ready && devNonfinite s p && s.flag Reg.tmpCtrlSkipNonfinite
      let skip := s.tmp.skip || now
      let clipf := if s.tmp.ready then s.tmp.clipf else 0x3F800000
      let gs := (rangeEntries (p.updRanges.getD range (0, 0))).filterMap (fun e => p.groups[e]?)
      let live := fun (g : TmpGroup) j => decide (j < g.count) && !frozenAt s g j
      let res := fun (g : TmpGroup) j => elemResult s p g clipf st j
      let images := p.pushes.filter (fun x => gs.any (fun g => g.group == x.group))
      ∃ t, exec (.updateRangeDone range ecc) s = .next t ∧ SameRegsOut tmpRegs s t ∧
        { t with regs := s.regs, cad := s.cad, tmp := s.tmp, stock := s.stock, stockPoison := s.stockPoison, ports := s.ports
                 faultQ := s.faultQ, out := s.out, freeCtr := s.freeCtr } = s ∧
        (t.tmp.failed = true → t.tmp.ranges = s.tmp.ranges ∧ t.tmp.done = s.tmp.done ∧ t.get Reg.tmpStep = s.get Reg.tmpStep ∧
          t.get Reg.tmpLastUpdated = s.get Reg.tmpLastUpdated ∧ HoldsUpdate s t range) ∧
        (t.tmp.failed = false → t.cad = s.cad ∧ t.tmp.skip = skip ∧ t.tmp.clipf = clipf ∧ t.tmp.ready = true ∧
          t.tmp.ranges = s.tmp.ranges.filter (fun r => r != range) ∧ t.tmp.done = s.tmp.done ++ [range] ∧
          ((s.cad.strike.filter (fun e => e.kind == 0xB && firesIn e st)).all (fun e => (s.tmp.done ++ [range]).contains e.target) = true →
            t.get Reg.tmpStep = (st + 1) % 2 ^ 32 ∧ t.get Reg.tmpLastUpdated = st % 2 ^ 32) ∧
          ((s.cad.strike.filter (fun e => e.kind == 0xB && firesIn e st)).all (fun e => (s.tmp.done ++ [range]).contains e.target) = false →
            t.get Reg.tmpStep = s.get Reg.tmpStep ∧ t.get Reg.tmpLastUpdated = s.get Reg.tmpLastUpdated) ∧
          (skip = true → now = false → t.stock = s.stock) ∧
          (now = true → (∀ g ∈ p.groups, ∀ a, Within a g.g (gBytes g * g.count) → t.stock.read a = 0#8) ∧
            SameBytesBut (fun m a => m = 3 ∧ ∃ g ∈ p.groups, Within a g.g (gBytes g * g.count)) s t)) ∧
        (skip = false → (∀ g ∈ gs, g.rule ≤ 2) → PlanApart p →
          (ecc = [] → s.stockPoison = [] → (t.tmp.failed = true ↔ ∃ g ∈ gs, ∃ j, live g j = true ∧ State.elemBad g (res g j) = true)) ∧
          (t.tmp.failed = false →
            (∀ g ∈ gs, ∀ j, j < g.count → t.stock.readLE (g.g + gBytes g * j) (gBytes g) = 0) ∧
            (∀ g ∈ gs, ∀ j, live g j = true → t.stock.readLE (g.w + 4 * j) 4 = toF32 false (res g j).w % 2 ^ 32 ∧
              t.stock.readLE (g.m + 4 * j) 4 = toF32 false (res g j).m % 2 ^ 32 ∧
              (hasV g = true → t.stock.readLE (g.v + 4 * j) 4 = toF32 false (res g j).v % 2 ^ 32)) ∧
            (∀ g ∈ gs, ∀ x ∈ p.pushes, x.group = g.group → ∀ r, r < pushRows x →
              t.stock.readBytes (x.img + r * x.stride) (rowImage t g x r).1.length = (rowImage t g x r).1 ∧
              t.stock.readBytes (imgScales x + r * (x.rowLen / 32)) (rowImage t g x r).2.length = (rowImage t g x r).2) ∧
            SameBytesBut (fun m a => m = 3 ∧
              ((∃ g ∈ gs, Within a g.g (gBytes g * g.count) ∨ (∃ j, live g j = true ∧ (Within a (g.w + 4 * j) 4 ∨ Within a (g.m + 4 * j) 4 ∨
                (hasV g = true ∧ Within a (g.v + 4 * j) 4)))) ∨
               ∃ x ∈ images, ∃ r ∈ imageWrites x, Within a r.base r.len)) s t))) ∧
    (∀ range ecc, s.tmp.pushes.contains range = false ∨ pushReady s p range = false → exec (.weightPushDone range ecc) s = .next s) ∧
    (∀ range ecc, s.tmp.pushes.contains range = true → pushReady s p range = true →
      let l := (rangeEntries (p.pushRanges.getD range (0, 0))).filterMap (fun i => p.pushes[i]?)
      let mem := fun x : Push => if x.dest = 0 then 2 else hearthNo x.die
      ∃ t, exec (.weightPushDone range ecc) s = .next t ∧
        t.tmp = { s.tmp with pushes := s.tmp.pushes.filter (fun r => r != range), pushed := s.tmp.pushed ++ [range] } ∧
        { t with regs := s.regs, tmp := s.tmp, hearth0 := s.hearth0, hearth1 := s.hearth1, hbm := s.hbm, hbmPoison := s.hbmPoison
                 stockPoison := s.stockPoison, faultQ := s.faultQ } = s ∧
        (allApart (l.flatMap (fun x => (pushDests x).map (fun r => { r with mem := mem x }))) = true → ∀ x ∈ l,
          (∀ r, r < pushRows x → (t.memOf (mem x)).readBytes (x.dst + r * x.stride) (pushRow (pushFmt x) x) =
            s.stock.readBytes (x.img + r * x.stride) (pushRow (pushFmt x) x)) ∧
          (x.mx = true → (t.memOf (mem x)).readBytes x.cs (pushRows x * (x.rowLen / 32)) =
            s.stock.readBytes (imgScales x) (pushRows x * (x.rowLen / 32)))) ∧
        SameBytesBut (fun m a => ∃ x ∈ l, m = mem x ∧ ((∃ r, r < pushRows x ∧ Within a (x.dst + r * x.stride) (pushRow (pushFmt x) x)) ∨
          (x.mx = true ∧ Within a x.cs (pushRows x * (x.rowLen / 32))))) s t)


/-! ## The fabric (chapters 11 and 12) -/

/-- R289 to R292, R295: a port that is enabled begins to train by itself, by RETRAIN, or 100 ms after it went down, and sends TRAIN
frames on all eight lanes; a port that is disabled, or that trains already, does not. Of a port that led to the Cadence parent only
the start of its training is stated. When training ends the lanes, the widths, the wiring faults and the peer are as the lanes
showed them, and the port is up at full width, degraded, up in loopback or in Ethernet mode, or down with Port down raised. A peer
that has changed within a job is raised, and its link is down for the job and unsealed. -/
def Obligations.PortsTrain : Prop :=
  ∀ (s : State) (p : Nat), p < 12 → s.domUp (16 + p) = true →
    (s.get (Reg.fabCtrlEn p) ≠ 1 → exec (.portTrainStart p) s = .next s ∧ exec (.fabRetrain p) s = .next s ∧
      exec (.portDownRetry p) s = .next s) ∧
    (s.get (Reg.fabStatusState p) = 1 → exec (.portTrainStart p) s = .next s) ∧
    (s.get (Reg.fabStatusState p) ≠ 4 → exec (.portDownRetry p) s = .next s) ∧
    (s.get (Reg.fabCtrlEn p) = 1 →
      (s.get (Reg.fabStatusState p) ≠ 1 → s.leadsToParent p = false → ∃ t, exec (.portTrainStart p) s = .next t ∧ Trains s t p) ∧
      (s.get (Reg.fabStatusState p) ≠ 1 → s.leadsToParent p = true → ∃ t, exec (.portTrainStart p) s = .next t ∧
        t.get (Reg.fabStatusState p) = 1 ∧ t.get (Reg.fabRetrains p) = min (s.get (Reg.fabRetrains p) + 1) (2 ^ (Reg.fabRetrains p).w - 1) ∧
        OnlyFabric s t) ∧
      (∃ t, exec (.fabRetrain p) s = .next t ∧ Trains s t p) ∧
      (s.get (Reg.fabStatusState p) = 4 → ∃ t, exec (.portDownRetry p) s = .next t ∧ Trains s t p)) ∧
    (∀ lanes eqReq, s.get (Reg.fabStatusState p) ≠ 1 → exec (.portUp p lanes eqReq) s = .next s) ∧
    (∀ lanes eqReq, s.get (Reg.fabStatusState p) = 1 →
      let who := identity lanes
      let used := lanes.filter (usedLane who)
      let foreign := lanes.filter (foreignLane who)
      let fs := foreign.map (fun l => (0x3A, clsC, l.lane % 8))
      let rx := used.length % 16
      let txMask := (who.map TrainLane.usable).getD 0 % 256
      let tx := lanesIn txMask
      let shown := fun t : State => t.get (Reg.fabStatusRxWidth p) = rx ∧ t.get (Reg.fabStatusTxWidth p) = tx ∧
        t.get (Reg.fabStatusTxLanes p) = txMask ∧ (∀ l, l < 8 → bit (t.get (Reg.fabStatusRxLanes p)) l = used.any (fun x => x.txLane == l)) ∧
        (∀ i, i < 8 → t.get (Reg.fabLaneActive p i) = b2n (used.any (fun l => l.lane == i)) ∧
          t.get (Reg.fabLaneSignal p i) = b2n (lanes.any (fun l => l.lane == i && l.signal)) ∧
          bit (t.get (Reg.fabWiringForeign p)) i = foreign.any (fun l => l.lane == i) ∧
          bit (t.get (Reg.fabWiringPolarity p)) i = lanes.any (fun l => l.lane == i && (l.signal && l.sync == 0x1C)) ∧
          bit (t.get (Reg.fabWiringNosig p)) i = !lanes.any (fun l => l.lane == i && (l.signal && l.locked)))
      (s.get (Reg.fabCtrlMode p) = 1 → ∃ t, exec (.portUp p lanes eqReq) s = .next t ∧ shown t ∧ SameButRegs s t ∧ SameRegsOut [] s t ∧
        t.get (Reg.fabStatusState p) = if lanes.any (fun l => l.signal && l.locked && l.passed) then 5 else 4) ∧
      (s.get (Reg.fabCtrlMode p) ≠ 1 → ∃ t, exec (.portUp p lanes eqReq) s = .next t ∧ shown t ∧ OnlyFabric s t ∧ RaisesPort s t p fs ∧
        (rx < s.minLanes p ∨ tx < s.minLanes p → PortDown s t p ∧ RaisesPort s t p (fs ++ [(0x39, clsU, 0)])) ∧
        (∀ w, who = some w → s.minLanes p ≤ rx → s.minLanes p ≤ tx →
          t.get (Reg.fabPeerValid p) = 1 ∧ t.get (Reg.fabPeerPort p) = w.port % 16 ∧ t.peerDigest p = w.digest % 2 ^ 64 ∧
          (t.port p).fresh = false ∧ (t.port p).rxSeq = (s.port p).rxSeq ∧
          (let changed := s.inJob && s.flag (Reg.fabPeerValid p) && (s.peerDigest p != w.digest % 2 ^ 64 || s.get (Reg.fabPeerPort p) != w.port % 16)
           let loop := s.flag (Reg.fabCtrlLoopback p)
           t.get (Reg.fabStatusState p) = (if loop then 6 else if rx = 8 ∧ tx = 8 then 2 else 3) ∧
           (loop = true ∨ s.inJob = false → t.cad = s.cad ∧ t.net = s.net ∧
             ((s.port p).fresh = true → (t.port p).shared = sharedCredits ∧ (t.port p).classes = classCredits.map (fun c => List.replicate 12 c))) ∧
           (loop = false → changed = true → RaisesPort s t p (fs ++ [(0x3C, clsU, 0)]) ∧ (t.port p).jobDown = true ∧ t.get (Reg.fabSealState p) = 0) ∧
           (loop = true ∨ changed = false → (t.port p).jobDown = (s.port p).jobDown)))))

/-- R293, R294: a lane that loses signal or lock, or has more than 425,000 corrected symbols or at least 4 uncorrectable frames in a
window, is dropped: it leaves the receive lanes, is counted and raised, and the peer is told by a DEGRADE frame, which goes out again
until an ACK covers one; below MIN_LANES the port goes down. A lane that passes readmission joins again in the same way, after the
exchange of a drop. A DEGRADE of the peer sets the transmit lanes, and what is not acknowledged goes out again, cut at the new width. -/
def Obligations.LanesChange : Prop :=
  ∀ (s : State) (p lane : Nat), p < 12 → lane < 8 → s.portUp p = true →
    let logical := bits (s.get (Reg.fabLaneMap p)) (3 * lane) 3
    let old := s.get (Reg.fabStatusRxLanes p)
    let x := s.port p
    let up := fun (t : State) => t.get (Reg.fabStatusState p) =
      if t.get (Reg.fabStatusTxWidth p) = 8 ∧ t.get (Reg.fabStatusRxWidth p) = 8 then 2 else 3
    let tells := fun (t : State) => SendsBare (({ s with regs := t.regs }).setPort p { x with tell := true }) t p false
    (∀ lost corrected uncorr, s.get (Reg.fabLaneActive p lane) ≠ 1 ∨ (lost = false ∧ corrected ≤ 425000 ∧ uncorr < 4) →
      exec (.laneDrop p lane lost corrected uncorr) s = .next s) ∧
    (∀ lost corrected uncorr, s.get (Reg.fabLaneActive p lane) = 1 → lost = true ∨ 425000 < corrected ∨ 4 ≤ uncorr →
      let mask := if bit old logical then old - 2 ^ logical else old
      ∃ t, exec (.laneDrop p lane lost corrected uncorr) s = .next t ∧ OnlyFabric s t ∧
        t.get (Reg.fabLaneActive p lane) = 0 ∧ t.get (Reg.fabStatusRxLanes p) = mask % 256 ∧
        t.get (Reg.fabStatusRxWidth p) = lanesIn mask ∧ t.get (Reg.fabDrops p) = min (s.get (Reg.fabDrops p) + 1) (2 ^ (Reg.fabDrops p).w - 1) ∧
        (lost = true → t.get (Reg.fabLaneSignal p lane) = 0 ∧ t.get (Reg.fabLaneLocked p lane) = 0) ∧
        (s.minLanes p ≤ lanesIn mask → RaisesPort s t p [(0x3B, clsC, lane)] ∧ up t ∧ tells t ∧ t.cad = s.cad ∧ t.net = s.net) ∧
        (lanesIn mask < s.minLanes p → RaisesPort s t p [(0x3B, clsC, lane), (0x39, clsU, 0)] ∧ PortDown s t p)) ∧
    (∀ margin, s.get (Reg.fabCtrlReadmit p) ≠ 1 ∨ s.get (Reg.fabLaneActive p lane) = 1 → exec (.laneReadmit p lane margin) s = .next s) ∧
    (∀ margin, s.get (Reg.fabCtrlReadmit p) = 1 → s.get (Reg.fabLaneActive p lane) ≠ 1 →
      (x.tell = true → exec (.laneReadmit p lane margin) s = .next (s.setPort p { x with readmit := x.readmit ++ [(lane, margin)] })) ∧
      (x.tell = false → ∃ t, exec (.laneReadmit p lane margin) s = .next t ∧ t.get (Reg.fabLaneActive p lane) = 1 ∧
        t.get (Reg.fabLaneSignal p lane) = 1 ∧ t.get (Reg.fabLaneLocked p lane) = 1 ∧ t.get (Reg.fabLaneMargin p lane) = margin % 2 ^ (Reg.fabLaneMargin p lane).w ∧
        t.get (Reg.fabStatusRxLanes p) = (if bit old logical then old else old + 2 ^ logical) % 256 ∧
        t.get (Reg.fabReadmits p) = min (s.get (Reg.fabReadmits p) + 1) (2 ^ (Reg.fabReadmits p).w - 1) ∧ up t ∧ tells t ∧
        { t with regs := s.regs, ports := s.ports, out := s.out } = s)) ∧
    (∀ mask, mask % 256 = s.get (Reg.fabStatusTxLanes p) → exec (.degrade p mask) s = .next s) ∧
    (∀ mask, mask % 256 ≠ s.get (Reg.fabStatusTxLanes p) →
      ∃ t, exec (.degrade p mask) s = .next t ∧ OnlyFabric s t ∧ t.get (Reg.fabStatusTxLanes p) = mask % 256 ∧
        t.get (Reg.fabStatusTxWidth p) = lanesIn (mask % 256) ∧
        (s.minLanes p ≤ lanesIn (mask % 256) → up t ∧ t.faultQ = s.faultQ ∧
          (∀ f rest, x.replay = f :: rest →
            let c := recut (1280 * max 1 (lanesIn (mask % 256))) { frames := [], next := f.seq, inRun := false, moved := [], sending := x.sending } x.replay
            notIdle (c.frames.map (fun g => t.frameOut p g.kind false g.seq g.packet g.part)) <+: notIdle (t.out.drop s.out.length) ∧
            s.out <+: t.out ∧ c.frames <+: (t.port p).replay)) ∧
        (lanesIn (mask % 256) < s.minLanes p → PortDown s t p ∧ RaisesPort s t p [(0x39, clsU, 0)])) ∧
    (∀ ack, x.tell = true → x.readmit = [] → x.ready = [] → x.sending = none →
      (x.replay.any (fun f => f.kind == 3 && f.part == old && !seqAfter ack f.seq) = true →
        ∃ t, exec (.nak p ack) s = .next t ∧ (t.port p).tell = false))

/-- R285 to R288: a port frame with an uncorrectable lane frame is not taken and is asked for again by a NAK, and the eighth in a row
makes the port train; a DATA or DEGRADE frame in order moves the receive SEQ on and is acknowledged, by an IDLE where the port has
nothing else to send; one that comes again is not taken, and one that is ahead is asked for by a NAK; an IDLE carries its ACK, by which
frames leave the replay buffer. At a NAK every frame that is not acknowledged is sent again in its order. Each lane's corrected symbols
and uncorrectable frames are counted. The scheduled IDLE begins its count again. -/
def Obligations.FramesAndReplay : Prop :=
  ∀ (s : State) (p : Nat), p < 12 → s.portUp p = true →
    let x := s.port p
    let next := (x.rxSeq + 1) % 2 ^ 24
    let counted := fun (t : State) (lanes : List LaneRx) => ∀ i l, i < 8 → lanes.filter (fun k => k.lane % 8 == i) = [l] →
      t.get (Reg.fabLaneCorrSym p i) = min (s.get (Reg.fabLaneCorrSym p i) + laneCorrected l) (2 ^ (Reg.fabLaneCorrSym p i).w - 1) ∧
      t.get (Reg.fabLaneUncorr p i) = (if laneBad l then min (s.get (Reg.fabLaneUncorr p i) + 1) (2 ^ (Reg.fabLaneUncorr p i).w - 1)
        else s.get (Reg.fabLaneUncorr p i))
    (∀ errs headers packets, let lanes := laneRxs errs headers
      lanes.any laneBad = true →
      let again := x.discarding && ((portHead lanes).map FrameHead.seq).getD x.rxSeq == next
      let fails := if again then x.fails + 1 else x.fails
      ∃ t, exec (.laneFrame p errs headers packets) s = .next t ∧ counted t lanes ∧ SameRegsOut [] s t ∧
        { t with regs := s.regs, ports := s.ports, out := s.out, faultQ := s.faultQ, freeCtr := s.freeCtr } = s ∧
        (fails ≠ 8 → SendsBare (s.setPort p { x with rxFrames := x.rxFrames + 1, discarding := true, fails := fails }) t p true ∧
          t.faultQ = s.faultQ) ∧
        (fails = 8 → t.get (Reg.fabStatusState p) = 1 ∧ t.port p = { x with rxFrames := x.rxFrames + 1, discarding := true, fails := 0 } ∧
          RaisesPort s t p [(0x38, clsC, 0)] ∧ ∃ eq, t.out = s.out ++ [trainOut s p 0 eq])) ∧
    (∀ errs headers packets, let lanes := laneRxs errs headers
      lanes.any laneBad = false → ∀ head, portHead lanes = some head →
      ∃ t, exec (.laneFrame p errs headers packets) s = .next t ∧ counted t lanes ∧ OnlyFabric s t ∧ (t.port p).rxFrames = x.rxFrames + 1 ∧
        (head.kind = 0 ∨ head.kind = 3 → head.seq = next → (t.port p).rxSeq = next ∧ (t.port p).discarding = false ∧ (t.port p).fails = 0) ∧
        (head.kind = 1 ∨ head.kind = 2 ∨ head.seq ≠ next → (t.port p).rxSeq = x.rxSeq) ∧
        (x.ready = [] → x.sending = none → x.tell = false → s.cad.want = none →
          let acked := x.replay.filter (fun f => seqAfter head.ack f.seq)
          let y := { x with rxFrames := x.rxFrames + 1, replay := acked }
          (head.kind = 2 → t.out = s.out ∧ t.port p = { x with rxFrames := x.rxFrames + 1 }) ∧
          (head.kind = 1 → t.out = s.out ∧ t.port p = y) ∧
          (head.kind = 0 ∨ head.kind = 3 → head.seq = next → packets = [] →
            SendsBare (s.setPort p { y with rxSeq := next, discarding := false, fails := 0 }) t p false) ∧
          (head.kind = 0 ∨ head.kind = 3 → head.seq ≠ next →
            (x.discarding = true ∨ seqAfter x.rxSeq head.seq = false → t.out = s.out ∧ t.port p = y) ∧
            (x.discarding = false → seqAfter x.rxSeq head.seq = true → SendsBare (s.setPort p { y with discarding := true }) t p true)))) ∧
    (∀ acked, ∃ t, exec (.nak p acked) s = .next t ∧ t.get (Reg.fabReplays p) = min (s.get (Reg.fabReplays p) + 1) (2 ^ (Reg.fabReplays p).w - 1) ∧
      OnlyFabric s t ∧
      (let old := x.replay.filter (fun f => seqAfter acked f.seq)
       notIdle (old.map (fun f => s.frameOut p f.kind false f.seq f.packet f.part)) <+: notIdle (t.out.drop s.out.length) ∧ s.out <+: t.out ∧
       (x.tell = false → old <+: (t.port p).replay) ∧
       (x.ready = [] → x.sending = none → x.tell = false → (t.port p).replay = old ∧ SameRegsBut [Reg.fabReplays p] s t ∧
         notIdle (t.out.drop s.out.length) = notIdle (old.map (fun f => s.frameOut p f.kind false f.seq f.packet f.part))))) ∧
    (∃ t, exec (.scheduledIdle p) s = .next t ∧
      (x.tell = false → t = { s.setPort p { x with sinceIdle := 0 } with out := s.out ++ [s.frameOut p 1 false x.lastData none 0] }) ∧
      (x.tell = true → SendsBare ({ s.setPort p { x with sinceIdle := 0 } with out := s.out ++ [s.frameOut p 1 false x.lastData none 0] }) t p false ∧
        { t with ports := s.ports, out := s.out } = s))

/-- R302, R304 to R308, R319: a packet that has arrived whole is counted, and its credits go back at once where it is for this device
or is discarded; a TYPE on the wrong channel is counted and raised; one for another device stays in the buffer. A CREDIT returns
credits to the pool or class that they came from. A packet in transit leaves on its route with one hop more, or, at 12 hops or without
a route, is discarded, counted and raised; where its port cannot send it now, it waits. An audit that agrees is counted, and one that
does not is Credit mismatch of class F; an audit goes out after every 1,024 frames received. -/
def Obligations.CreditsAndTransit : Prop :=
  ∀ (s : State) (p : Nat), p < 12 → s.portUp p = true →
    let x := s.port p
    (∀ errs headers rp head, let lanes := laneRxs errs headers
      lanes.any laneBad = false → portHead lanes = some head → head.kind = 0 → head.seq = (x.rxSeq + 1) % 2 ^ 24 →
      x.ready = [] → x.sending = none → x.tell = false → x.transit = [] → rp.packet.vc < 4 → 0 < rp.packet.credits →
      s.flag Reg.netCtrlSeal = false → ∃ t, exec (.laneFrame p errs headers [rp]) s = .next t ∧ OnlyFabric s t ∧
        (t.port p).rcvd = modAt x.rcvd rp.packet.vc (· + rp.packet.credits) ∧
        t.get (Reg.fabVcRxPkts p rp.packet.vc) = min (s.get (Reg.fabVcRxPkts p rp.packet.vc) + 1) (2 ^ (Reg.fabVcRxPkts p rp.packet.vc).w - 1) ∧
        (vcOfType rp.packet.type ≠ some rp.packet.vc →
          t.get Reg.netBadtype = min (s.get Reg.netBadtype + 1) (2 ^ Reg.netBadtype.w - 1) ∧ Raised s t srcBellows 0x40 clsC (s.fabAddr p)) ∧
        (vcOfType rp.packet.type ≠ some rp.packet.vc ∨ rp.packet.loc = true ∨ rp.packet.dst = s.addr → (t.port p).transit = [] ∧
          (t.port p).freed = modAt x.freed rp.packet.vc (· + rp.packet.credits) ∧
          Sends s t p (.credit rp.packet.vc rp.cls rp.packet.credits)) ∧
        (vcOfType rp.packet.type = some rp.packet.vc → rp.packet.loc = false → rp.packet.dst ≠ s.addr → (t.port p).transit = [rp] ∧
          (t.port p).freed = x.freed)) ∧
    (∀ vc cls n, 4 ≤ vc ∨ 12 < cls → exec (.credit p vc cls n) s = .next s) ∧
    (∀ vc cls n, vc < 4 → cls ≤ 12 → ∃ t, exec (.credit p vc cls n) s = .next t ∧ SameRegsOut [] s t ∧
      { t with regs := s.regs, ports := s.ports, out := s.out } = s ∧ (t.port p).got = modAt x.got vc (· + n) ∧
      (x.ready = [] → x.sending = none →
        t = s.setPort p (if cls = 0 then { x with shared := modAt x.shared vc (· + n), got := modAt x.got vc (· + n) }
          else { x with classes := x.classes.set vc (modAt (x.classes.getD vc []) (cls - 1) (· + n)), got := modAt x.got vc (· + n) }))) ∧
    (∀ tagOk, x.transit = [] ∨ s.alive = false → exec (.packetForward p tagOk) s = .next s) ∧
    (∀ rp rest tagOk, x.transit = rp :: rest → s.alive = true →
      let route := s.routePort rp.packet.dst (earlyType rp.packet.type)
      (12 ≤ rp.packet.hops → ∃ t, exec (.packetForward p tagOk) s = .next t ∧ (t.port p).transit = rest ∧
        t.get Reg.netHoplimit = min (s.get Reg.netHoplimit + 1) (2 ^ Reg.netHoplimit.w - 1) ∧ Raised s t srcBellows 0x45 clsU (s.fabAddr p) ∧
        HoldsNext s t reasonAbort ∧ OnlyFabric s t ∧ t.net = s.net) ∧
      (rp.packet.hops < 12 → route = none →
        ∃ t, exec (.packetForward p tagOk) s = .next t ∧ (t.port p).transit = rest ∧
          t.get Reg.netNoroute = min (s.get Reg.netNoroute + 1) (2 ^ Reg.netNoroute.w - 1) ∧ Raised s t srcBellows 0x45 clsU (s.fabAddr 0) ∧
          HoldsNext s t reasonAbort ∧ OnlyFabric s t ∧ t.net = s.net) ∧
      (∀ q alt, rp.packet.hops < 12 → route = some (q, alt) → q < 12 →
        let linked := rp.packet.sealed && s.flag Reg.netCtrlSeal && s.get (Reg.fabSealState p) == 2
        let good := !linked || (tagOk && !rp.packet.inverted)
        let out := { rp.packet with hops := rp.packet.hops + 1, inverted := !good }
        let waits := s.canGo q out = false ∨ ∃ k ∈ (s.port q).ready, k.vc = rp.packet.vc ∧ k.type ≠ 1
        (waits → exec (.packetForward p tagOk) s = .next s) ∧
        (¬ waits → ∃ t, exec (.packetForward p tagOk) s = .next t ∧ (t.port p).transit = rest ∧ OnlyFabric s t ∧ t.net = s.net ∧
          t.get Reg.netAltroute = (if alt then min (s.get Reg.netAltroute + 1) (2 ^ Reg.netAltroute.w - 1) else s.get Reg.netAltroute) ∧
          (0 < (s.hopPacket q out).bytes →
            s.out ++ withIdle s q (s.frameOut q 0 false (((s.port q).txSeq + 1) % 2 ^ 24) (some (s.hopPacket q out)) 0) <+: t.out) ∧
          (good = true → t.faultQ = s.faultQ ∧ t.cad = s.cad) ∧
          (good = false → t.get (Reg.fabSealFail p) = min (s.get (Reg.fabSealFail p) + 1) (2 ^ (Reg.fabSealFail p).w - 1) ∧
            Raised s t srcBellows 0x42 clsU (s.fabAddr p) ∧ HoldsNext s t reasonAbort)))) ∧
    (x.rxFrames < 1024 → exec (.auditSend p) s = .next s) ∧
    (1024 ≤ x.rxFrames → ∃ t, exec (.auditSend p) s = .next t ∧ (t.port p).rxFrames = x.rxFrames - 1024 ∧
      Sends s t p (.audit x.rxSeq x.rcvd x.freed) ∧ SameRegsOut [] s t ∧ { t with regs := s.regs, ports := s.ports, out := s.out } = s) ∧
    (∀ seq rcvd freed,
      (auditOk x seq rcvd freed = true → ∃ t, exec (.audit p seq rcvd freed) s = .next t ∧
        t.get (Reg.fabAudits p) = min (s.get (Reg.fabAudits p) + 1) (2 ^ (Reg.fabAudits p).w - 1) ∧ SameRegsBut [Reg.fabAudits p] s t ∧
        t.port p = { x with spentAt := x.spentAt.filter (fun e => seqAfter seq e.1) } ∧ { t with regs := s.regs, ports := s.ports } = s) ∧
      (auditOk x seq rcvd freed = false → ∃ t, exec (.audit p seq rcvd freed) s = .next t ∧ Raised s t srcBellows 0x41 clsF (s.fabAddr p) ∧
        SameRegsBut dropRegs s t ∧ { t with regs := s.regs, faultQ := s.faultQ } = s))


/-! ## Discovery, attestation and the seed of a link (chapters 12 and 15) -/

/-- R314 to R317: a record newer by VERSION is stored and forwarded on every other up port; another changes nothing, but that one
that comes sealed is compared with the record of discovery: where they are the same, an ARM that waits for the last of them completes
and the device is Armed; where they differ, it is raised. Complete discovery makes the routes and the diameter, and each job link is
asked to attest; a diameter above 12, and 2 s without complete discovery, refuse the ARM that runs. -/
def Obligations.DiscoveryEnds : Prop :=
  ∀ (s : State),
    (∀ p r isSealed, s.portUp p = false ∨ s.alive = false → exec (.linkState p r isSealed) s = .next s) ∧
    (∀ p r isSealed, p < 12 → s.portUp p = true → s.alive = true →
      let held := recordOf s.net.records r.origin
      let forwards := fun t => ∀ q, q < 12 → q ≠ p → s.portUp q = true → Sends s t q (.link r)
      ((∀ h, held = some h → h.version < r.version) → ∃ t, exec (.linkState p r isSealed) s = .next t ∧
        t.net = { s.net with records := State.storeRecord s.net.records r
                             sealedRecs := if isSealed then State.storeRecord s.net.sealedRecs r else s.net.sealedRecs } ∧
        forwards t ∧ SameRegsOut [] s t ∧ { t with regs := s.regs, net := s.net, ports := s.ports, out := s.out } = s) ∧
      (∀ h, held = some h → r.version ≤ h.version →
        (isSealed = false ∨ (∃ q ∈ s.net.sealedRecs, q.origin = r.origin ∧ q.version = r.version) →
          exec (.linkState p r isSealed) s = .next s) ∧
        (isSealed = true → (∀ q ∈ s.net.sealedRecs, ¬ (q.origin = r.origin ∧ q.version = r.version)) →
          ∃ t, exec (.linkState p r true) s = .next t ∧
            t.net = { s.net with sealedRecs := State.storeRecord s.net.sealedRecs r } ∧ forwards t ∧ SameBytes s t ∧
            (h = r → t.faultQ = s.faultQ ∧
              (s.runningOp ≠ some 0x0104 ∨ s.get Reg.netStatusState ≠ 4 ∨ (∃ a ∈ s.devices, ∀ q ∈ State.storeRecord s.net.sealedRecs r, q.origin ≠ a) →
                { t with regs := s.regs, net := s.net, ports := s.ports, out := s.out } = s) ∧
              (s.get Reg.netStatusState = 4 → (∀ a ∈ s.devices, ∃ q ∈ State.storeRecord s.net.sealedRecs r, q.origin = a) →
                ∀ x, RunningCmd s x → x.opcode = 0x0104 → t.life = .armed ∧
                  Finished s t x rcOk (leBytes 2 s.devices.length ++ leBytes 1 (s.get Reg.netStatusDiameter)))) ∧
            (h ≠ r → Raised s t srcBellows 0x44 clsU (s.fabAddr p) ∧
              (s.runningOp ≠ some 0x0104 → { t with regs := s.regs, net := s.net, ports := s.ports, out := s.out, faultQ := s.faultQ } = s) ∧
              (∀ x, RunningCmd s x → x.opcode = 0x0104 → t.get Reg.netStatusState = 0 ∧
                Finished s t x rcRefused (State.msgBytes (s.faultMsg srcBellows 0x44 clsU (s.fabAddr p) false))))))) ∧
    (s.get Reg.netStatusState ≠ 1 ∨ discovered s.roster s.net.records s.addr = false → exec .discoveryComplete s = .next s) ∧
    (s.get Reg.netStatusState = 1 → discovered s.roster s.net.records s.addr = true →
      let d := diameter s.roster s.net.records
      (12 < d → ∃ t, exec .discoveryComplete s = .next t ∧ t.get Reg.netStatusState = 0 ∧ SameBytes s t ∧ t.net = s.net ∧ t.faultQ = s.faultQ ∧
        (s.mbx.running = none → SameRegsBut [Reg.netStatusState] s t ∧ SameButRegs s t) ∧
        ∀ x, RunningCmd s x → x.opcode = 0x0104 → Finished s t x rcRefused (List.replicate 16 0)) ∧
      (d ≤ 12 → ∃ t, exec .discoveryComplete s = .next t ∧ t.get Reg.netStatusDiameter = d ∧ t.net.routes = s.buildRoutes.net.routes ∧
        (t.get Reg.netStatusState = 3 ∨ t.get Reg.netStatusState = 4) ∧
        (∀ l ∈ s.jobPorts, ∃ n, (t.port l.1).attNonce = some n ∧ Sends s t l.1 (.attest (.req n) 0 1)) ∧ SameBytes s t)) ∧
    (s.get Reg.netStatusState ≠ 1 → exec .discoveryTimeout s = .next s) ∧
    (s.get Reg.netStatusState = 1 → ∃ t, exec .discoveryTimeout s = .next t ∧ Raised s t srcBellows 0x43 clsU (s.fabAddr 0) ∧
      SameBytes s t ∧ t.net = s.net ∧
      (s.runningOp ≠ some 0x0104 → SameRegsOut [] s t ∧ { t with regs := s.regs, faultQ := s.faultQ } = s) ∧
      ∀ x, RunningCmd s x → x.opcode = 0x0104 → t.get Reg.netStatusState = 0 ∧
        Finished s t x rcRefused (State.msgBytes (s.faultMsg srcBellows 0x43 clsU (s.fabAddr 0) false)))

/-- R310, R321, R405, R412 to R415: a device answers ATTEST_REQ with its report over the peer's nonce, and asks in its turn where it
has not; it accepts a report that meets R414 with DONE, and counts, raises and refuses one that does not; seeds that differ are raised.
A child takes the seed that agrees with its parent's JOB_CHECK, and tells its neighbours; it raises one that does not, and asks again.
A REFUSE ends an ARM that runs. SEAL_HELLO gives the link its keys and seals it. ADOPT adds a child. What a message brings to a port
without a peer of the job changes nothing. -/
def Obligations.LinksAttestAndSeal : Prop :=
  ∀ (s : State) (p : Nat), p < 12 → s.alive = true →
    let x := s.port p
    (linkPeer s p = none → (∀ nonce, exec (.attestReq p nonce) s = .next s) ∧ (∀ r l v, exec (.attestReport p r l v) s = .next s) ∧
      (∀ k o, exec (.attestSeed p k o) s = .next s) ∧ exec (.attestDone p) s = .next s) ∧
    (∀ a, linkPeer s p = some a →
      (∀ nonce, ∃ t, exec (.attestReq p nonce) s = .next t ∧ (t.port p).peerNonce = some nonce ∧ (t.port p).saidSeed = s.seed.isSome ∧
        t.cru = { s.cru with claimNonce := some nonce } ∧ SameRegsOut [] s t ∧
        { t with regs := s.regs, ports := s.ports, cru := s.cru, out := s.out, freeCtr := s.freeCtr } = s ∧
        (∃ ek, let m := AttMsg.report (s.report nonce ek) s.cru.amends
          ∀ i, i < ceilDiv m.bytes 1016 → Sends s t p (.attest m i (ceilDiv m.bytes 1016))) ∧
        (x.attNonce = none → x.attReport = none → s.inJob = true ∨ s.get Reg.netStatusState = 3 →
          ∃ n, (t.port p).attNonce = some n ∧ Sends s t p (.attest (.req n) 0 1))) ∧
      (∀ r amends verified, x.attNonce = none → exec (.attestReport p r amends verified) s = .next s) ∧
      (∀ n r amends verified, x.attNonce = some n →
        let s1 := if verified then s.applyAmends amends else s
        (¬ (verified = true ∧ s1.reportOk n r amends = true) → ∃ t, exec (.attestReport p r amends verified) s = .next t ∧
          t.get Reg.cruAttestFail = min (s.get Reg.cruAttestFail + 1) (2 ^ Reg.cruAttestFail.w - 1) ∧ (t.port p).attReport = none ∧
          (t.port p).attNonce = none ∧ Raised s1 t srcCrucible 0x70 clsU 0 ∧ Sends s t p (.attest .refuse 0 1) ∧ SameBytes s t ∧
          (s.runningOp ≠ some 0x0104 → SameRegsOut [Reg.cruAttestFail] s1 t ∧
            { t with regs := s1.regs, ports := s1.ports, out := s1.out, faultQ := s1.faultQ } = s1) ∧
          (∀ y, RunningCmd s y → y.opcode = 0x0104 → t.get Reg.netStatusState = 0 ∧
            Finished s t y rcRefused (State.msgBytes (s.faultMsg srcCrucible 0x70 clsU 0 false)))) ∧
        (verified = true → s1.reportOk n r amends = true →
          let s2 := s1.setPort p { s1.port p with attReport := some r, attNonce := none }
          ∃ t, exec (.attestReport p r amends true) s = .next t ∧
            t.get Reg.cruAttestOk = min (s.get Reg.cruAttestOk + 1) (2 ^ Reg.cruAttestOk.w - 1) ∧ (t.port p).attReport = some r ∧
            (t.port p).attNonce = none ∧ Sends s t p (.attest .done 0 1) ∧ SameBytes s t ∧
            (s2.checksAgree = false → s.runningOp ≠ some 0x0108 → Raised s1 t srcCrucible 0x71 clsU 0))) ∧
      (∀ k o, s.seed.isSome = true ∨ x.attReport = none → exec (.attestSeed p k o) s = .next s) ∧
      (∀ r b seed opened, x.attReport = some r → s.billet = some b → s.seed = none → r.seedHeld = true →
        (∀ q ∈ s.peerReports, q.seedHeld = true → r.addr ≤ q.addr) →
        let agrees := opened = true ∧ Config.jobCheck (Config.jobKey seed b.jobId b.digest) = r.jobCheck
        (agrees → ∃ t, exec (.attestSeed p seed opened) s = .next t ∧ t.seed = some seed ∧ t.get Reg.cruStatusSeedHeld = 1 ∧
          t.get Reg.cruSeedParent = r.addr % 2 ^ Reg.cruSeedParent.w ∧ t.cru = { s.cru with wrapped := some (b.jobId, b.digest, seed) } ∧
          (∀ q r', q < 12 → (s.port q).attReport = some r' → r'.seedHeld = false → Sends s t q (.attest .done 0 1)) ∧ SameBytes s t) ∧
        (¬ agrees → ∃ t, exec (.attestSeed p seed opened) s = .next t ∧ Raised s t srcCrucible 0x70 clsU 0 ∧ SameRegsOut [] s t ∧
          (∃ n, (t.port p).attNonce = some n ∧ Sends s t p (.attest (.req n) 0 1)) ∧
          { t with regs := s.regs, ports := s.ports, out := s.out, faultQ := s.faultQ, freeCtr := s.freeCtr } = s)) ∧
      ∃ t, exec (.attestDone p) s = .next t ∧ (t.port p).peerDone = true ∧ SameBytes s t ∧
        (x.peerDone = true → s.seed = none → ∃ n, (t.port p).attNonce = some n ∧ Sends s t p (.attest (.req n) 0 1))) ∧
    (s.runningOp ≠ some 0x0104 → exec (.attestRefuse p) s = .next (s.setPort p { x with peerDone := false, attNonce := none })) ∧
    (∀ y, RunningCmd s y → y.opcode = 0x0104 → ∃ t, exec (.attestRefuse p) s = .next t ∧
      t.port p = { x with peerDone := false, attNonce := none } ∧ t.get Reg.netStatusState = 0 ∧
      Finished s t y rcRefused (List.replicate 16 0) ∧ SameBytes s t) ∧
    (∀ random, s.portUp p = false ∨ sealKey s p = none ∨ s.flag Reg.netCtrlSeal = false → exec (.sealHello p random) s = .next s) ∧
    (∀ random key, s.portUp p = true → sealKey s p = some key → s.flag Reg.netCtrlSeal = true →
      let peer := ((linkPeer s p).getD 0, s.get (Reg.fabPeerPort p), random % 2 ^ 64)
      ∃ t n, exec (.sealHello p random) s = .next t ∧ t.get (Reg.fabSealState p) = 2 ∧ (t.port p).peerRandom = some (random % 2 ^ 64) ∧
        (t.port p).rxNonce = none ∧ (t.port p).jobDown = false ∧ SameBytes s t ∧
        (t.port p).txKey = linkKey key (s.addr, p, n) peer ∧ (t.port p).rxKey = linkKey key peer (s.addr, p, n) ∧
        (s.get (Reg.fabSealState p) = 1 → n = x.myRandom.getD 0 ∧ (t.port p).myRandom = x.myRandom) ∧
        (s.get (Reg.fabSealState p) ≠ 1 → (t.port p).myRandom = some n ∧ Sends s t p (.hello n))) ∧
    (s.peerAddr p = none → exec (.adopt p) s = .next s) ∧
    (∀ a, s.peerAddr p = some a → ∃ t, exec (.adopt p) s = .next t ∧ a ∈ t.net.children ∧
      (∀ c, c ∈ t.net.children ↔ c ∈ s.net.children ∨ c = a) ∧ { t with net := { t.net with children := s.net.children } } = s)


/-! ## Collectives and buckets (chapter 12) -/

/-- R324 to R326: a vector of a child is kept until the member's own value and every child's are there; then the member adds its own
value, child 1's and child 2's, in that order, with FP32 additions, combines the flags by OR, and sends the result to its parent, or,
at the root, takes it as the job's result and sends it to its children. A parent's result is the member's, which passes it on. A vector
of another ATTEMPT, from outside the group, or that has come before changes nothing. -/
def Obligations.CollectivesCombine : Prop :=
  ∀ (s : State) (g src attempt : Nat) (values : List Nat) (mask : Nat),
    let l := groupOf s g
    let v := l.idxOf s.addr
    let w := l.idxOf src
    let a := s.reduceOf g
    let gets := Instr.collective g src attempt values mask
    let up := 1 ≤ v ∧ w = (v - 1) / 2
    let child := 1 ≤ w ∧ (w - 1) / 2 = v
    let frame := fun t : State => OnlyFabric s t ∧ t.net = { s.net with allReduce := t.net.allReduce } ∧ ∀ h, h ≠ g → t.reduceOf h = s.reduceOf h
    let passes := fun (t : State) (sum : List Nat) (flags : Nat) => ∀ c ∈ kidsOf l.length v, ∀ q alt,
      s.routePort (memberAt l 0 (2 * v + c)) false = some (q, alt) → Sends s t q (.sums sum flags)
    (s.alive = false ∨ attempt ≠ s.cad.attempt ∨ s.addr ∉ l ∨ src ∉ l ∨ (¬ up ∧ ¬ child) ∨ (up ∧ a.result.isSome = true) ∨
      (¬ up ∧ ∃ k ∈ a.kids, k.1 = childPos w) → exec gets s = .next s) ∧
    (s.alive = true → attempt = s.cad.attempt → s.addr ∈ l → src ∈ l →
      (up → a.result = none → ∃ t, exec gets s = .next t ∧ t.reduceOf g = { a with result := some (values, mask) } ∧ frame t ∧
        passes t values mask) ∧
      (¬ up → child → (∀ k ∈ a.kids, k.1 ≠ childPos w) →
        let kids := a.kids ++ [(childPos w, values, mask % 256)]
        let val := fun c i => ((kids.find? (fun k => k.1 == c)).map (fun k => k.2.1.getD i 0)).getD 0
        let flag := fun c => ((kids.find? (fun k => k.1 == c)).map (fun k => k.2.2)).getD 0
        (a.own = none ∨ a.sent = true ∨ (∃ c ∈ kidsOf l.length v, ∀ k ∈ kids, k.1 ≠ c) →
          ∃ t, exec gets s = .next t ∧ t.reduceOf g = { a with kids := kids } ∧ frame t) ∧
        (∀ vals m, a.own = some (vals, m) → a.sent = false → (∀ c ∈ kidsOf l.length v, ∃ k ∈ kids, k.1 = c) →
          let sum := vals.zipIdx.map (fun x => ((kidsOf l.length v).map (fun c => val c x.2)).foldl treeAdd x.1)
          let flags := ((kidsOf l.length v).map flag).foldl (· ||| ·) m
          ∃ t, exec gets s = .next t ∧ frame t ∧
            (v = 0 → t.reduceOf g = { a with kids := kids, sent := true, result := some (sum, flags) } ∧ passes t sum flags) ∧
            (v ≠ 0 → t.reduceOf g = { a with kids := kids, sent := true } ∧ ∀ q alt, s.routePort (memberAt l 0 ((v - 1) / 2)) false = some (q, alt) →
              Sends s t q (.sums sum flags)))))

/-- R327 to R331: a filled bucket launches with AUTO or after its entry, taking a token, or waits for one; what its members' data
allows is combined at once. A child's data waits in STAGE until the member has launched and all of its children's data is there; then
the member's own value, child 1's and child 2's are added in that order, and go to the parent in the wire's format, or land in Stock at
the root in the owner's. A bucket that is complete returns its token, which a waiting launch takes, and its stream's count begins
again. -/
def Obligations.BucketsReduce : Prop :=
  ∀ (s : State) (i : Nat) (b : Bucket), s.alive = true → bucketAt s i = some b →
    let r := bucketRun s i
    let window := (s.billet.map (·.bucketWindow)).getD 0
    let stores := fun (c : Bucket) (g : BucketSeg) (a : Nat) => Within a (window + g.dest) (segElems c g * wireSize g.ofmt)
    let p := (groupOf s b.group).length
    let rank := fun (g : BucketSeg) => relRank p g.owner ((groupOf s b.group).idxOf s.addr)
    let frame := fun t : State =>
      { t with regs := s.regs, ports := s.ports, net := s.net, cad := s.cad, faultQ := s.faultQ, out := s.out, hbmPoison := s.hbmPoison
               stock := s.stock, stockPoison := s.stockPoison } = s
    (∀ ecc, bucketFilled s i = false ∨ (b.auto = false ∧ r.fired = false) → exec (.bucketFilled i ecc) s = .next s) ∧
    (∀ ecc, bucketFilled s i = true → b.auto = true ∨ r.fired = true → r.launched = false → r.complete = false →
      (s.get Reg.netTokensHeld = 0 → ∃ t, exec (.bucketFilled i ecc) s = .next t ∧ i ∈ t.net.tokenWait ∧
        t.net = { s.net with tokenWait := t.net.tokenWait } ∧ (∀ j, j ∈ t.net.tokenWait ↔ j ∈ s.net.tokenWait ∨ j = i) ∧ frame t ∧ t.stock = s.stock) ∧
      (0 < s.get Reg.netTokensHeld → ∃ t, exec (.bucketFilled i ecc) s = .next t ∧ frame t ∧ (bucketRun t i).launched = true ∧
        t.get Reg.netTokensHeld = s.get Reg.netTokensHeld - 1 ∧ t.net.tokenWait = s.net.tokenWait ∧
        (∀ k g off, b.segs[k]? = some g → off ∈ segOffsets b g →
          (∀ c ∈ kidsOf p (rank g), ∃ d ∈ r.stage, d.seg = k ∧ d.child = c ∧ d.off = off) → (k, off) ∈ (bucketRun t i).combined) ∧
        SameBytesBut (fun k a => k = 3 ∧ ∃ g ∈ b.segs, rank g = 0 ∧ stores b g a) s t)) ∧
    (∀ (bl : Billet) (u : StreamUse) (stream attempt seg child off : Nat) (data : List Byte) (g : BucketSeg) (ecc : List EccRes),
      s.billet = some bl → bl.streams.find? (fun u => u.dev == s.addr && u.id == stream && u.kind == 1) = some u → u.index = i →
      b.segs[seg]? = some g →
      let lands := Instr.bucket stream attempt seg child off data ecc
      let has := fun c => c = child ∨ ∃ k ∈ r.stage, k.seg = seg ∧ k.child = c ∧ k.off = off
      let here := s.segChecks i seg off ecc
      let got := fun c => if c = child then data else ((r.stage.find? (fun k => k.seg == seg && k.child == c && k.off == off)).map (·.data)).getD []
      let first := off / wireSize b.wire
      let n := min (4096 / wireSize b.wire) (segElems b g - first)
      let elem := fun j => ((kidsOf p (rank g)).map (fun c => toF32 false (decodeFmt (wireFmt b.wire)
        (leNat (((got c).drop (j * wireSize b.wire)).take (wireSize b.wire)))))).foldl treeAdd (here.ownValue b g (first + j))
      (attempt ≠ s.cad.attempt ∨ (seg, off) ∈ r.combined ∨ (∃ k ∈ r.stage, k.seg = seg ∧ k.child = child ∧ k.off = off) →
        exec lands s = .next s) ∧
      (attempt = s.cad.attempt → (seg, off) ∉ r.combined → (∀ k ∈ r.stage, ¬ (k.seg = seg ∧ k.child = child ∧ k.off = off)) →
        (r.launched = false ∨ (∃ c ∈ kidsOf p (rank g), ¬ has c) → ∃ t, exec lands s = .next t ∧ frame t ∧ t.stock = s.stock ∧
          bucketRun t i = { r with stage := r.stage ++ [{ seg := seg, child := child, off := off, data := data }] } ∧
          t.net = { s.net with buckets := t.net.buckets }) ∧
        (r.launched = true → (∀ c ∈ kidsOf p (rank g), has c) → ∃ t, exec lands s = .next t ∧ frame t ∧
          (bucketRun t i).combined = r.combined ++ [(seg, off)] ∧
          (bucketRun t i).stage = r.stage.filter (fun k => !(k.seg == seg && k.off == off)) ∧ t.net = { s.net with buckets := t.net.buckets } ∧
          (rank g ≠ 0 → t.stock = s.stock ∧
            ∀ q alt, s.routePort (memberAt (groupOf s b.group) g.owner ((rank g - 1) / 2)) false = some (q, alt) →
              Sends s t q (.bytes ((List.range n).flatMap (fun j => leBytes (wireSize b.wire) (convert (wireFmt b.wire) false true (.ofF32 (elem j))).code)))) ∧
          (rank g = 0 → SameBytesBut (fun k a => k = 3 ∧ stores b g a) s t ∧ ∀ j, j < n →
            t.stock.readBytes (window + g.dest + (first + j) * wireSize g.ofmt) (wireSize g.ofmt) =
              leBytes (wireSize g.ofmt) (convert (wireFmt g.ofmt) false true (.ofF32 (elem j))).code)))) ∧
    (∀ ecc, r.launched = false ∨ r.complete = true ∨ bucketSent s i = false → exec (.bucketComplete i ecc) s = .next s) ∧
    (∀ ecc, r.launched = true → r.complete = false → bucketSent s i = true →
      let done := fun t : State => frame t ∧ bucketRun t i = { r with complete := true, stage := [] } ∧
        t.get Reg.netBuckets = min (s.get Reg.netBuckets + 1) (2 ^ Reg.netBuckets.w - 1) ∧
        ∀ bl u, s.billet = some bl → bl.streams.find? (fun u => u.dev == s.addr && u.kind == 1 && u.index == i) = some u →
          Assoc.get 0 t.net.received u.id = 0
      (s.net.tokenWait = [] → ∃ t, exec (.bucketComplete i ecc) s = .next t ∧ done t ∧
        t.get Reg.netTokensHeld = min (s.get Reg.netTokensHeld + 1) (2 ^ Reg.netTokensHeld.w - 1) ∧ SameBytes s t ∧
        (ecc = [] → SameRegsBut (dropRegs ++ [Reg.netBuckets, Reg.netTokensHeld]) s t)) ∧
      (∀ j rest c, s.net.tokenWait = j :: rest → j ≠ i → bucketAt s j = some c → (bucketRun s j).launched = false →
        (bucketRun s j).complete = false → s.get Reg.netTokensHeld < 2 ^ Reg.netTokensHeld.w - 1 →
        ∃ t, exec (.bucketComplete i ecc) s = .next t ∧ done t ∧ (bucketRun t j).launched = true ∧ t.net.tokenWait = rest ∧
          t.get Reg.netTokensHeld = s.get Reg.netTokensHeld ∧ SameBytesBut (fun k a => k = 3 ∧ ∃ g ∈ c.segs, stores c g a) s t))

/-! ## Bloom (chapter 13) -/

/-- R340, R342 to R345, R354: a feeder's random bytes key its link, and the port of a fabric feeder that is a neighbour begins to seal.
A stream asks for the lowest consecutive indices not yet asked for, as far as its coded ring has room; a sample over Ethernet
without DATA is asked for again, three times at most, from the first byte missing; an ABSENT of a sample that was asked for skips it; a
frame of no stream, of no sample asked for or of another VERSION, and one whose tag or NONCE fails, are only counted. -/
def Obligations.FeedersAreAsked : Prop :=
  ∀ (s : State), s.alive = true →
    let frame := fun t : State =>
      SameRegsOut [] s t ∧ { t with regs := s.regs, ports := s.ports, cad := s.cad, blm := s.blm, faultQ := s.faultQ, out := s.out, freeCtr := s.freeCtr } = s
    (∀ k random, (s.feeder k).hello = false → exec (.bloomHello k random) s = .next s) ∧
    (∀ k random, (s.feeder k).hello = true →
      let x := s.feeder k
      let keyed := { x with
        keyed := true, txNonce := 0, rxNonce := none, txKey := feederKey x.secret k x.mine (random % 2 ^ 64) 0
        rxKey := feederKey x.secret k x.mine (random % 2 ^ 64) 1 }
      ∃ t, exec (.bloomHello k random) s = .next t ∧ frame t ∧ t.blm = (s.setFeeder k keyed).blm ∧
        ((∀ b d, s.billet = some b → d ∈ b.bloom → d.feeder = k → d.ethernet = true) → t = s.setFeeder k keyed) ∧
        (∀ b d p, s.billet = some b → d ∈ b.bloom → d.feeder = k → d.ethernet = false → s.flag Reg.netCtrlSeal = true →
          s.portTo (b.feeders.getD k 0) = some p → s.get (Reg.fabSealState p) = 0 →
          t.get (Reg.fabSealState p) = 1 ∧ ∃ n, (t.port p).myRandom = some n ∧ Sends s t p (.hello n))) ∧
    (∀ e, bloomAt s e = none → exec (.request e) s = .next s ∧ ∀ i, exec (.rerequest e i) s = .next s) ∧
    (∀ e d, bloomAt s e = some d →
      let b := s.bstream e
      let asks := fun (t : State) (index offset total : Nat) =>
        (d.ethernet = true →
          let x := s.feeder d.feeder
          let h := State.bloomHeader 2 0 d.stream index offset total x.txNonce
          t.feeder d.feeder = { x with txNonce := x.txNonce + 1 } ∧
          s.out ++ [.udp (8 + d.iface % 4) (d.iface / 4)
            (h ++ leBytes 16 (Config.gcmTag (x.txKey.take 32) (x.txKey.drop 32 ++ leBytes 8 x.txNonce) h []))] <+: t.out) ∧
        (d.ethernet = false → ∀ bl p alt, s.billet = some bl → s.routePort (bl.feeders.getD d.feeder 0) false = some (p, alt) →
          Sends s t p (.bytes (State.bloomHeader 2 0 d.stream index offset total 0)))
      (let room := d.window / d.maxCoded - (b.samples.filter (fun x => x.requested)).length
        let run := leadingRun (min 256 room) (unrequested b)
        (run = [] ∨ (d.ethernet = true ∧ (s.feeder d.feeder).keyed = false) → exec (.request e) s = .next s) ∧
        (run ≠ [] → (d.ethernet = true → (s.feeder d.feeder).keyed = true) → ∃ t, exec (.request e) s = .next t ∧ frame t ∧
          asks t (run.headD 0) 0 run.length ∧ (∀ k, k ≠ e → t.bstream k = s.bstream k) ∧
          t.bstream e = { b with samples := b.samples.map (fun x => if x.index ∈ run then { x with requested := true } else x) })) ∧
      (∀ index, (∀ x, b.samples.find? (fun x => x.index == index && x.requested) = some x → d.ethernet = false ∨ x.landed = true ∨ 3 ≤ x.tries) →
        exec (.rerequest e index) s = .next s) ∧
      (∀ index x, b.samples.find? (fun x => x.index == index && x.requested) = some x → d.ethernet = true → x.landed = false → x.tries < 3 →
        ∃ t, exec (.rerequest e index) s = .next t ∧ asks t index x.bytes.length 1 ∧
          t.get Reg.blmRereq = min (s.get Reg.blmRereq + 1) (2 ^ Reg.blmRereq.w - 1) ∧ SameRegsBut [Reg.blmRereq] s t ∧
          { t with regs := s.regs, blm := s.blm, out := s.out } = s ∧ (∀ k, k ≠ e → t.bstream k = s.bstream k) ∧
          t.bstream e = { b with samples := b.samples.map (fun y => if y.index = index then { x with tries := x.tries + 1 } else y) })) ∧
    (∀ f : BloomFrame,
      let counts := fun (c : Fld) => exec (.absent f) s = .next (s.put c (min (s.get c + 1) (2 ^ c.w - 1)))
      (entryOf s f.stream = none → counts Reg.blmBadframe) ∧
      (∀ e d, entryOf s f.stream = some (e, d) →
        let asked := ∃ x ∈ (s.bstream e).samples, x.index = f.index ∧ x.requested = true
        (frameStale s d f = true → counts Reg.blmSealFail) ∧
        (frameStale s d f = false → f.version = 1 → asked → ∃ t, exec (.absent f) s = .next t ∧ SkippedSample s t e d f.index 2 ∧
          (d.ethernet = true → (t.feeder d.feeder).rxNonce = some f.nonce)) ∧
        (frameStale s d f = false → ¬ (f.version = 1 ∧ asked) → ∃ t, exec (.absent f) s = .next t ∧ SameBytes s t ∧
          t.get Reg.blmBadframe = min (s.get Reg.blmBadframe + 1) (2 ^ Reg.blmBadframe.w - 1) ∧ SameRegsBut [Reg.blmBadframe] s t ∧
          { t with regs := s.regs, blm := s.blm } = s ∧ ∀ k, t.bstream k = s.bstream k)))

/-- R29, R336, R341, R345 to R348, R350, R353, R354: the next bytes of a sample land; bytes out of place are dropped; a frame of no
sample asked for, or of another VERSION, is counted; a first frame whose header fails skips the sample. A decoded sample's rows lie at
the strides of its slot, or of its spare slot, and its slot is filled; one that does not decode, or whose coded bytes are poisoned, is
skipped; one that no slot waits for is dropped. A sample that has not landed or has no engine, and one whose buffer is not free, wait.
A decoded spare is copied into the slot that waits for it. -/
def Obligations.SamplesLand : Prop :=
  ∀ (s : State), s.alive = true →
    (∀ (f : BloomFrame) data head,
      let counts := fun (c : Fld) => exec (.data f data head) s = .next (s.put c (min (s.get c + 1) (2 ^ c.w - 1)))
      (entryOf s f.stream = none → counts Reg.blmBadframe) ∧
      (∀ e d, entryOf s f.stream = some (e, d) →
        (frameStale s d f = true → counts Reg.blmSealFail) ∧
        (frameStale s d f = false → f.version ≠ 1 ∨ (∀ x ∈ (s.bstream e).samples, ¬ (x.index = f.index ∧ x.requested = true)) →
          ∃ t, exec (.data f data head) s = .next t ∧ t.get Reg.blmBadframe = min (s.get Reg.blmBadframe + 1) (2 ^ Reg.blmBadframe.w - 1) ∧
            SameRegsBut [Reg.blmBadframe] s t ∧ { t with regs := s.regs, blm := s.blm } = s ∧ ∀ k, t.bstream k = s.bstream k) ∧
        (∀ x, frameStale s d f = false → (s.bstream e).samples.find? (fun x => x.index == f.index && x.requested) = some x → f.version = 1 →
          (f.offset ≠ x.bytes.length ∨ x.landed = true → exec (.data f data head) s = .next (s.takeNonce d f)) ∧
          (f.offset = x.bytes.length → x.landed = false →
            (x.total = none → headerOk d f head = false → ∃ t, exec (.data f data head) s = .next t ∧ SkippedSample s t e d f.index 0) ∧
            (x.total ≠ none ∨ headerOk d f head = true → ∃ t, exec (.data f data head) s = .next t ∧
              (∃ y ∈ (t.bstream e).samples, { y with engine := x.engine } = { x with bytes := x.bytes ++ data, total := some f.total, tries := 0 }) ∧
              t.get64 Reg.blmCodedLo Reg.blmCodedHi = min (s.get64 Reg.blmCodedLo Reg.blmCodedHi + data.length) (2 ^ 64 - 1) ∧
              SameRegsBut [Reg.blmCodedLo, Reg.blmCodedHi, Reg.blmVideoBusy, Reg.blmJpegBusy] s t ∧ { t with regs := s.regs, blm := s.blm } = s))))) ∧
    (∀ e d, bloomAt s e = some d → d.die < 2 →
      let b := s.bstream e
      let mem := if d.mem = 1 then 2 else hearthNo d.die
      (∀ index poisoned ecc, (∀ x, b.samples.find? (fun x => x.index == index) = some x →
          s.domUp (14 + d.die) = false ∨ x.landed = false ∨ (d.kind ≠ 0 ∧ x.engine = none)) →
        exec (.decodeComplete e index poisoned ecc) s = .next s) ∧
      (∀ index x ecc, b.samples.find? (fun x => x.index == index) = some x → s.domUp (14 + d.die) = true → x.landed = true →
        (d.kind ≠ 0 → x.engine ≠ none) →
        let bad := ecc.any (fun r => r.ue && ringHas d r)
        (∀ poisoned, poisoned = true ∨ bad = true ∨ sampleRows d x.bytes = none → ∃ t, exec (.decodeComplete e index poisoned ecc) s = .next t ∧
          SkippedSample s t e d index 1) ∧
        (∀ rows, sampleRows d x.bytes = some rows → bad = false →
          let lies := fun (t : State) (k base : Nat) => SameBytesBut (fun m a => m = k ∧ Within a base (sampleBytes d)) s t ∧
            t.get Reg.blmSamples = min (s.get Reg.blmSamples + 1) (2 ^ Reg.blmSamples.w - 1) ∧ (∀ y ∈ (t.bstream e).samples, y.index ≠ index) ∧
            ∀ c f y r, c < channelsOf d → f < d.outF → y < d.outH → rows[(c * d.outF + f) * d.outH + y]? = some r →
              (t.memOf k).readBytes (base + c * planeStride d + f * frameStride d + y * rowStride d) r.length = r
          (∀ p, b.spares.find? (fun p => p.index == index) = some p →
            (p.place = none → exec (.decodeComplete e index false ecc) s = .next s) ∧
            (∀ k, p.place = some k → ∃ t, exec (.decodeComplete e index false ecc) s = .next t ∧ lies t 2 (spareAddr d k) ∧
              ∀ q ∈ (t.bstream e).spares, q.index = index → q.done = true)) ∧
          ((∀ p ∈ b.spares, p.index ≠ index) → ∀ f, b.fills.find? (fun f => f.index == index && f.spare.isNone) = some f →
            (s.ownsBuffer d e f = false → exec (.decodeComplete e index false ecc) s = .next s) ∧
            (s.ownsBuffer d e f = true → d.mem ≤ 1 → ∃ t, exec (.decodeComplete e index false ecc) s = .next t ∧ lies t mem (slotAddr d f.mb f.slot) ∧
              ∃ g ∈ (t.bstream e).fills, g = { f with done := true })) ∧
          ((∀ p ∈ b.spares, p.index ≠ index) → (∀ f ∈ b.fills, ¬ (f.index = index ∧ f.spare = none)) →
            ∃ t, exec (.decodeComplete e index false ecc) s = .next t ∧ SameBytes s t ∧ (∀ y ∈ (t.bstream e).samples, y.index ≠ index) ∧
              t.get Reg.blmSamples = s.get Reg.blmSamples))) ∧
      (∀ index x f ecc, b.spares.find? (fun x => x.index == index) = some x → b.fills.find? (fun f => f.spare == some index && !f.done) = some f →
        (x.done = false ∨ s.ownsBuffer d e f = false → exec (.spareCopy e index ecc) s = .next s) ∧
        (∀ k, x.done = true → x.place = some k → s.ownsBuffer d e f = true → ∃ t, exec (.spareCopy e index ecc) s = .next t ∧
          (t.memOf mem).readBytes (slotAddr d f.mb f.slot) (sampleBytes d) = s.hbm.readBytes (spareAddr d k) (sampleBytes d) ∧
          SameBytesBut (fun m a => m = mem ∧ Within a (slotAddr d f.mb f.slot) (sampleBytes d)) s t ∧
          (∃ g ∈ (t.bstream e).fills, g = { f with spare := some index, done := true }) ∧ ∀ q ∈ (t.bstream e).spares, q.index ≠ index)))

/-! ## Ingots and bays (chapter 14) -/

/-- R254, R365, R369, R371, R373, R377: an append that lands is added to its bay's life counter and to BYTES, with LIFE_LOW set above
95 % of RATED. Where the generation has read no poisoned granule, the zone is finished with its last record, the bay's next appends go, up
to 64 in flight, and after the last append of all Flush goes to every bay written; else the generation fails (notes/assumptions/157). A
bay's Flush brings its life report; with the last one the generation is complete. A write that fails fails the generation. What no
generation waits for changes nothing; a device that is not alive only counts what lands. -/
def Obligations.GenerationsAreWritten : Prop :=
  ∀ (s : State) (bay : Nat), bay < 2 →
    (s.ing.cur = none → (∀ seq ecc, exec (.zoneAppendComplete bay seq ecc) s = .next s) ∧
      (∀ ms written ok, exec (.flushComplete bay ms written ok) s = .next s) ∧ exec (.generationFail bay) s = .next s) ∧
    (∀ g, s.ing.cur = some g →
      let lifeLow := fun (t : State) (w : Nat) => t.get (Reg.ingBayStateLifeLow bay) =
        if 95 * s.get64 (Reg.ingBayRatedLo bay) (Reg.ingBayRatedHi bay) < 100 * w then 1 else s.get (Reg.ingBayStateLifeLow bay)
      (∀ seq ecc, (∀ r ∈ g.flight, ¬ (r.bay = bay ∧ r.seq = seq)) → exec (.zoneAppendComplete bay seq ecc) s = .next s) ∧
      (∀ seq ecc r, g.flight.find? (fun r => r.bay == bay && r.seq == seq) = some r →
        let u := s.captureChecks ecc
        let v := (u.setCur (some { g with flight := g.flight.erase r })).addWritten bay (paddedLen r.payload)
        let left := g.todo ++ g.flight.erase r
        let sent := (g.todo.filter (fun x => x.bay == bay)).take (64 - ((g.flight.erase r).filter (fun x => x.bay == bay)).length)
        (v.get64 (Reg.ingBayWrittenLo bay) (Reg.ingBayWrittenHi bay) =
            (s.get64 (Reg.ingBayWrittenLo bay) (Reg.ingBayWrittenHi bay) + paddedLen r.payload) % 2 ^ 64 ∧
          v.get64 Reg.ingBytesLo Reg.ingBytesHi = min (s.get64 Reg.ingBytesLo Reg.ingBytesHi + paddedLen r.payload) (2 ^ 64 - 1) ∧
          lifeLow v (s.get64 (Reg.ingBayWrittenLo bay) (Reg.ingBayWrittenHi bay) + paddedLen r.payload) ∧ v.out = s.out ∧
          OnlyIngots [Reg.ingBayWrittenLo bay, Reg.ingBayWrittenHi bay, Reg.ingBayStateLifeLow bay, Reg.ingBytesLo, Reg.ingBytesHi] u v) ∧
        (s.alive = false → exec (.zoneAppendComplete bay seq ecc) s = .next v) ∧
        (s.alive = true → u.captureBad g = true → ∃ t, exec (.zoneAppendComplete bay seq ecc) s = .next t.releaseCommit ∧ GenFailed v t g bay) ∧
        (s.alive = true → u.captureBad g = false → ∃ t, exec (.zoneAppendComplete bay seq ecc) s = .next t ∧
          OnlyIngots [Reg.ingBayZonesFree bay, Reg.ingStatusPhase] v t ∧ t.faultQ = v.faultQ ∧ (∀ b, b ≠ bay → t.cart? b = s.cart? b) ∧
          (Out.zone bay 1 r.zone ∈ t.out.drop s.out.length ↔ ∀ x ∈ left, ¬ (x.bay = bay ∧ x.zone = r.zone)) ∧
          appendsOf (t.out.drop s.out.length) = sent.map (fun x => .append bay x.zone (s.recHead g x) x.payload (s.recTag g x)) ∧
          (∀ c x, s.cart? bay = some c → sent.getLast? = some x → ∃ d, t.cart? bay = some d ∧ d.last = x.zone ∧ { d with last := c.last, gens := c.gens } = c) ∧
          (left ≠ [] ∨ g.flushing ≠ [] → t.ing.cur = some { g with todo := sent.foldl List.erase g.todo, flight := g.flight.erase r ++ sent } ∧
            t.get Reg.ingStatusPhase = s.get Reg.ingStatusPhase) ∧
          (left = [] → g.flushing = [] → t.ing.cur = some { g with flight := [], flushing := g.bays } ∧ t.get Reg.ingStatusPhase = 3 ∧
            t.out = s.out ++ .zone bay 1 r.zone :: g.bays.map Out.flush))) ∧
      (∀ ms written ok, s.alive = false ∨ bay ∉ g.flushing → exec (.flushComplete bay ms written ok) s = .next s) ∧
      (∀ ms written ok, s.alive = true → bay ∈ g.flushing →
        let rest := g.flushing.filter (fun x => x != bay)
        ∃ v : State, (v.get64 (Reg.ingBayWrittenLo bay) (Reg.ingBayWrittenHi bay) = written % 2 ^ 64 ∧ lifeLow v written ∧
            v.get (Reg.ingBayStateLifeBad bay) = (if ok then 0 else 1) ∧ v.ing = s.ing ∧ v.out = s.out ∧
            OnlyIngots [Reg.ingBayWrittenLo bay, Reg.ingBayWrittenHi bay, Reg.ingBayStateLifeLow bay, Reg.ingBayStateLifeBad bay] s v) ∧
          (rest ≠ [] → exec (.flushComplete bay ms written ok) s = .next { v with ing := { s.ing with cur := some { g with flushing := rest, ms := ms } } }) ∧
          (rest = [] → ∃ t, exec (.flushComplete bay ms written ok) s = .next t ∧ GenComplete v t g ms)) ∧
      (s.alive = false ∨ bay ∉ g.bays → exec (.generationFail bay) s = .next s) ∧
      (s.alive = true → bay ∈ g.bays → ∃ t, exec (.generationFail bay) s = .next t.releaseCommit ∧
        GenFailed (s.put (Reg.ingBayCmdErr bay) (min (s.get (Reg.ingBayCmdErr bay) + 1) (2 ^ (Reg.ingBayCmdErr bay).w - 1))) t g bay))

/-- R376 to R382: a bay is powered at insertion and trains after PERST; a controller that is ready gives its registers, an identity that
fails is ID_FAIL, and once the job key exists its label decides the bay's state. A cartridge that goes, an overload and an ejection
leave the bay off, and a generation that uses it loses it. A wipe resets every zone of a FOREIGN or READ_ONLY bay of a device that is not
Running. In any other state these change nothing. EJECT of an empty bay stays clear (the model's choice, at State.ejectBay). -/
def Obligations.CartridgesComeAndGo : Prop :=
  ∀ (s : State) (b : Nat), b < 2 →
    let code := s.bayCode b
    let mark := fun (c : Nat) (t : State) => t.put (Reg.ingBayStateCode b) c
    let adopt := fun (bl : Billet) (c : Cart) =>
      { c with label := some { job := bl.jobId, addr := s.addr, tagOk := true }, gens := [], last := 0 }
    (s.domUp 13 = false ∨ code ≠ 0 → exec (.cartridgeInsert b) s = .next s) ∧
    (s.domUp 13 = false ∨ code ≠ 1 → exec (.perstRelease b) s = .next s) ∧
    (∀ c, s.domUp 13 = false ∨ code ≠ 2 ∨ s.cart? b ≠ none → exec (.controllerReady b c) s = .next s) ∧
    (s.domUp 13 = true →
      (code = 0 → exec (.cartridgeInsert b) s = .next (((mark 1 { s with out := s.out ++ [.bayPower b true] })).put (Reg.ingBayInserts b)
        (min (s.get (Reg.ingBayInserts b) + 1) (2 ^ (Reg.ingBayInserts b).w - 1)))) ∧
      (code = 1 → exec (.perstRelease b) s = .next (mark 2 { s with out := s.out ++ [.bayPerst b false] })) ∧
      (∀ c : Cart, code = 2 → s.cart? b = none → ∃ t, exec (.controllerReady b c) s = .next t ∧
        OnlyIngots (Reg.ingBayStateCode b :: Reg.ingBytesLo :: Reg.ingBytesHi :: cartRegs b) s t ∧
        { t.ing with carts := s.ing.carts } = s.ing ∧ (∀ k, k ≠ b → t.cart? k = s.cart? k) ∧
        t.get (Reg.ingBayLinkWidth b) = c.width % 2 ^ (Reg.ingBayLinkWidth b).w ∧ t.get (Reg.ingBayLinkSpeed b) = c.speed % 2 ^ (Reg.ingBayLinkSpeed b).w ∧
        t.get64 (Reg.ingBayRatedLo b) (Reg.ingBayRatedHi b) = c.rated % 2 ^ 64 ∧ t.get (Reg.ingBayStateLifeBad b) = (if c.lifeOk then 0 else 1) ∧
        t.get (Reg.ingBayZonesRing b) = (c.zones - 1) % 2 ^ (Reg.ingBayZonesRing b).w ∧ t.get (Reg.ingBayZoneCap b) = c.cap % 2 ^ (Reg.ingBayZoneCap b).w ∧
        let written := fun (n : Nat) => t.get64 (Reg.ingBayWrittenLo b) (Reg.ingBayWrittenHi b) = (c.written % 2 ^ 64 + n) % 2 ^ 64 ∧
          t.get64 Reg.ingBytesLo Reg.ingBytesHi = (if n = 0 then s.get64 Reg.ingBytesLo Reg.ingBytesHi else min (s.get64 Reg.ingBytesLo Reg.ingBytesHi + n) (2 ^ 64 - 1))
        let kept := t.cart? b = some c ∧ t.out = s.out ∧ written 0
        (c.idOk = false → t.bayCode b = 3 ∧ kept ∧
          (100 * c.written ≤ 95 * (c.rated % 2 ^ 64) → Raised s t srcIngot 0x64 clsC (b + s.ingGen % 2 ^ 32 * 2 ^ 8))) ∧
        (c.idOk = true → s.seed = none ∨ s.billet = none → t.bayCode b = 2 ∧ kept) ∧
        (∀ bl, c.idOk = true → s.seed.isSome = true → s.billet = some bl →
          (c.label = none → c.lifeOk = true → t.bayCode b = 6 ∧ t.out = s.out ++ [.zone b 2 0, .label b bl.jobId s.addr] ∧
            t.cart? b = some (adopt bl c) ∧ written 4096) ∧
          (c.label = none → c.lifeOk = false → t.bayCode b = 4 ∧ kept) ∧
          (∀ l, c.label = some l → kept ∧ t.bayCode b = if l.tagOk = true ∧ l.job = bl.jobId then (if l.addr = s.addr then 6 else 5) else 4)))) ∧
    (code = 0 → exec (.cartridgeRemove b) s = .next s) ∧
    (code = 0 ∨ 8 ≤ code → exec (.bayOverload b) s = .next s) ∧
    (code ≠ 0 → ∃ t, exec (.cartridgeRemove b) s = .next t ∧ BayLost s (s.dropBay b) b ∧ BayOff (s.dropBay b) t b 0 ∧
      t.get (Reg.ingBayCtrlEject b) = 0 ∧ t.out = (s.dropBay b).out ∧ t.faultQ = (s.dropBay b).faultQ ∧
      SameRegsBut (Reg.ingBayStateCode b :: Reg.ingBayCtrlEject b :: cartRegs b) (s.dropBay b) t) ∧
    (1 ≤ code → code < 8 → ∃ t, exec (.bayOverload b) s = .next t ∧ BayLost s (s.dropBay b) b ∧ BayOff (s.dropBay b) t b 9 ∧
      t.out = (s.dropBay b).out ++ [.bayPower b false] ∧ Raised (s.dropBay b) t srcIngot 0x67 clsC (b + s.ingGen % 2 ^ 32 * 2 ^ 8) ∧
      SameRegsBut (dropRegs ++ Reg.ingBayStateCode b :: cartRegs b) (s.dropBay b) t) ∧
    (code = 0 → exec (.eject b) s = .next s) ∧ (code ≠ 0 → exec (.eject b) s = .next (s.put (Reg.ingBayCtrlEject b) 1)) ∧
    (let used := ∃ g, s.ing.cur = some g ∧ b ∈ g.bays
     let goes := s.flag (Reg.ingBayCtrlEject b) = true ∧ 1 ≤ code ∧ code < 8 ∧ ¬ used ∧ s.alive = true
     (¬ goes → exec (.ejectComplete b) s = .next s) ∧
     (goes → ∃ t, exec (.ejectComplete b) s = .next t ∧ BayOff s t b 8 ∧ t.out = s.out ++ [.bayPower b false] ∧ t.faultQ = s.faultQ ∧
       SameRegsBut (Reg.ingBayStateCode b :: cartRegs b) s t)) ∧
    (¬ ((code = 4 ∨ code = 5) ∧ s.life ≠ .running ∧ s.alive = true ∧ s.cart? b ≠ none) → exec (.wipe b) s = .next s) ∧
    (∀ c, s.cart? b = some c → code = 4 ∨ code = 5 → s.life ≠ .running → s.alive = true → ∃ t, exec (.wipe b) s = .next t ∧
      OnlyIngots (Reg.ingBayStateCode b :: Reg.ingBytesLo :: Reg.ingBytesHi :: cartRegs b) s t ∧
      { t.ing with carts := s.ing.carts } = s.ing ∧ (∀ k, k ≠ b → t.cart? k = s.cart? k) ∧
      (s.seed = none ∨ s.billet = none ∨ c.idOk = false ∨ c.lifeOk = false → t.cart? b = some { c with label := none, gens := [], last := 0 } ∧
        t.out = s.out ++ [.zone b 2 0] ∧ t.bayCode b = if s.seed = none ∨ s.billet = none then 2 else if c.idOk then 4 else 3) ∧
      (∀ bl, s.seed.isSome = true → s.billet = some bl → c.idOk = true → c.lifeOk = true → t.bayCode b = 6 ∧ t.cart? b = some (adopt bl c) ∧
        t.out = s.out ++ [.zone b 2 0, .zone b 2 0, .label b bl.jobId s.addr]))

/-- R383, R384: a report reaches the master, which announces the newest step that every roster address has a shard of, or the step that
RESTORE names, once every device has reported, and chooses again without a step that a device could not use. A device loads the step
announced, or stays Armed without one. The first whole copy gives STEP, GEN and the arrays, with G as +0, and the job runs at the angle
s:0x0000 with ATTEMPT 0; each copy that fails is counted and raised; without a whole one the step is reported unusable, and a replay
stays Armed. What no restore waits for changes nothing. -/
def Obligations.IngotIsRestored : Prop :=
  ∀ (s : State),
    (s.ing.restore = none → (∀ msg, exec (.restoreStepAnnounce msg) s = .next s) ∧ ∀ failed ecc, exec (.ingotLoadComplete failed ecc) s = .next s) ∧
    (∀ r, s.ing.restore = some r →
      (∀ msg, s.cadUp = false ∨ s.ing.replay ≠ none → exec (.restoreStepAnnounce msg) s = .next s) ∧
      (∀ failed ecc, s.cadUp = false ∨ s.billet = none ∨ r.chosen = none ∨ r.loaded = true ∨ s.ing.cur ≠ none ∨ s.seed = none →
        exec (.ingotLoadComplete failed ecc) s = .next s) ∧
      (s.cadUp = true → s.ing.replay = none →
        let answers := fun (msg : RestoreMsg) (u : State) (r1 : RestoreRun) =>
          let all := s.masters = true ∧ r1.chosen = none ∧ ∀ d ∈ s.devices, ∃ p ∈ r1.reports, p.1 = d
          let v := { u with ing := { s.ing with restore := some r1 } }
          (all → ∃ o, exec (.restoreStepAnnounce msg) s = .next { v with out := s.out ++ s.devices.map (fun d => .restore d (.announce o)) } ∧
            let ok := fun n => n ∉ r1.unusable ∧ (∀ a ∈ s.devices, ∃ p ∈ r1.reports, (n, a) ∈ p.2) ∧ ∀ w, r1.want = some w → n = w
            (∀ n, o = some n → s.devices ≠ [] → ok n ∧ ∀ k, ok k → k ≤ n) ∧ (o = none → s.devices ≠ [] → ∀ k, ¬ ok k)) ∧
          (¬ all → exec (.restoreStepAnnounce msg) s = .next v)
        (∀ dev l, answers (.report dev l) s { r with reports := r.reports.filter (fun p => p.1 != dev) ++ [(dev, l)] }) ∧
        (∀ dev step, s.masters = false ∨ step ∈ r.unusable → exec (.restoreStepAnnounce (.unusable dev step)) s = .next s) ∧
        (∀ dev step, s.masters = true → step ∉ r.unusable →
          answers (.unusable dev step) { s with cad := { s.cad with active := false } } { r with unusable := step :: r.unusable, chosen := none, loaded := false }) ∧
        (∃ t, exec (.restoreStepAnnounce (.announce none)) s = .next t ∧ t.life = .armed ∧ t.ing = { s.ing with restore := none } ∧
          t.cad = { s.cad with
            role := .idle, active := false, start := false, mOn := false, mHolds := [], mRolling := false, haltPending := false, cands := []
            chosen := none, confirms := [] } ∧
          (s.get Reg.ingStatusPhase = 4 → t.get Reg.ingStatusPhase = 0 ∧ t.get Reg.tmpStatusPhase = 0) ∧
          SameRegsBut [Reg.ingStatusPhase, Reg.tmpStatusPhase] s t ∧
          { t with regs := s.regs, cad := s.cad, ing := s.ing, life := s.life, mbx := s.mbx, jnl := s.jnl } = s ∧
          (s.mbx.halts = [] → (s.runningOp ≠ some 0x0108 → t.mbx = s.mbx ∧ t.jnl = s.jnl) ∧
            ∀ x, RunningCmd s x → x.opcode = 0x0108 → Finished s t x 0x0A [])) ∧
        (∀ step, r.chosen = some step → exec (.restoreStepAnnounce (.announce (some step))) s = .next s) ∧
        (∀ step, r.chosen ≠ some step → ∃ t, exec (.restoreStepAnnounce (.announce (some step))) s = .next t ∧ t.life = .armed ∧
          t.cad = { s.cad with active := false } ∧ t.ing = { s.ing with restore := some { r with chosen := some step, loaded := false } } ∧
          t.get Reg.ingStatusPhase = 4 ∧ t.get Reg.tmpStatusPhase = 6 ∧ SameRegsBut [Reg.ingStatusPhase, Reg.tmpStatusPhase] s t ∧
          { t with regs := s.regs, cad := s.cad, ing := s.ing, life := s.life } = s)) ∧
      (∀ b step failed ecc, s.cadUp = true → s.billet = some b → r.chosen = some step → r.loaded = false → s.ing.cur = none → s.seed.isSome = true →
        let fails := fun (p : Nat × Gen) (x : Nat) => (failed.contains x || failed.contains (x + 2)) && (p.2.pair || x == p.1)
        let tried := (s.copies step).takeWhile (fun p => fails p 0 || fails p 1)
        let counted := fun t : State =>
          (∀ x, x < 2 → let n := (tried.filter (fun p => fails p x)).length
            t.get (Reg.ingBayTagFail x) = min (s.get (Reg.ingBayTagFail x) + n * failed.count x) (2 ^ (Reg.ingBayTagFail x).w - 1) ∧
            t.get (Reg.ingBayReadErr x) = min (s.get (Reg.ingBayReadErr x) + n * failed.count (x + 2)) (2 ^ (Reg.ingBayReadErr x).w - 1)) ∧
          let msgs := tried.flatMap (fun p => ([0, 1].filter (fails p)).map (fun x => s.faultMsg srcIngot 0x68 clsC (x + p.2.gen % 2 ^ 32 * 2 ^ 8) false))
          s.waitingFrom srcIngot + msgs.length ≤ 16 → s.faultQ ++ msgs <+: t.faultQ
        (tried = s.copies step → ∃ t, exec (.ingotLoadComplete failed ecc) s = .next t ∧ counted t ∧ SameBytes s t ∧
          (s.ing.replay = none → t.get Reg.ingStatusPhase = 0 ∧ t.get Reg.tmpStatusPhase = 0 ∧
            t.ing = { s.ing with restore := some { r with chosen := none } } ∧ t.out = s.out ++ [.restore s.cad.master (.unusable s.addr step)] ∧
            SameRegsBut (dropRegs ++ [Reg.ingStatusPhase, Reg.tmpStatusPhase] ++ [0, 1].flatMap (fun x => [Reg.ingBayTagFail x, Reg.ingBayReadErr x])) s t ∧
            { t with regs := s.regs, ing := s.ing, faultQ := s.faultQ, out := s.out } = s) ∧
          (s.ing.replay ≠ none → t.life = .armed ∧ t.ing = { s.ing with restore := none, replay := none } ∧ t.cad.active = false ∧
            (s.mbx.halts = [] → ∀ x, RunningCmd s x → Finished s t x 0x0A []))) ∧
        (∀ bay g m, (s.copies step)[tried.length]? = some (bay, g) → g.image = some m →
          ∃ t, exec (.ingotLoadComplete failed ecc) s = .next t ∧ counted t ∧ t.life = .running ∧
            t.get Reg.tmpStep = m.shardStep % 2 ^ Reg.tmpStep.w ∧ t.get64 Reg.ingGenLo Reg.ingGenHi = s.largestGen % 2 ^ 64 ∧
            t.get Reg.ingStatusPhase = 0 ∧ t.get Reg.ingRestores = min (s.get Reg.ingRestores + 1) (2 ^ Reg.ingRestores.w - 1) ∧
            t.cad.angle = angleOf step 0 ∧ t.cad.attempt = 0 ∧ t.cad.mAngle = angleOf step 0 ∧ t.billet = s.billet ∧ t.seed = s.seed ∧ t.cru = s.cru ∧
            (s.ing.replay ≠ none → t.ing.restore = none ∧ t.get Reg.blmStatusReplay = 1 ∧ t.mbx = s.mbx) ∧
            (s.ing.replay = none → t.ing.restore = some { r with loaded := true } ∧
              ∀ x, RunningCmd s x → x.opcode = 0x0108 → t.mbx.running = none ∧
                (x.closed = false → ∃ y, t.slot? x.num = some y ∧ y.code = rcOk ∧ y.result = leBytes 4 step ++ leBytes 8 g.gen)) ∧
            (PlanApart b.temper →
              (∀ gr ∈ b.temper.groups, ∀ a, Within a gr.g (gBytes gr * gr.count) → t.stock.read a = 0) ∧
              ((m.arrays.map (fun x => (x.1, x.2.1))).Nodup →
                (∀ x ∈ m.arrays, ∀ sec ∈ arraySecs b.temper, sec.kind = x.1 → sec.group = x.2.1 → x.2.2.length ≤ sec.len) →
                ∀ kind group raw a, (kind, group, raw) ∈ m.arrays → kind ≠ 4 → State.arrayAddr b.temper kind group = some a →
                  t.stock.readBytes a raw.length = raw)))))

/-- R421, R422, R424, Table 15-6: a scrub begins with SCRUB_OK at 0, outside Running. When it ends every byte of the memories and of the
cores' and Temper's storage reads 0, no port's packet buffer holds a packet, its errors are counted and raised, SCRUB_OK tells whether
every read-back passed, and what waited for it goes on: the boot reaches Recovery, Claimed or Blank, and RELEASE completes. A failure of the random
source is counted and quenches the device. -/
def Obligations.MemoriesAreScrubbed : Prop :=
  ∀ (s : State),
    (s.life = .running ∨ s.alive = false ∨ s.sys.booted = false ∨ s.get Reg.cruScrubBusy = 1 → exec .scrubStart s = .next s) ∧
    (s.alive = true → s.life ≠ .running → s.sys.booted = true → s.get Reg.cruScrubBusy ≠ 1 → ∃ t, exec .scrubStart s = .next t ∧
      t.get Reg.cruScrubBusy = 1 ∧ t.get Reg.cruStatusScrubOk = 0 ∧ SameRegsBut [Reg.cruScrubBusy, Reg.cruStatusScrubOk] s t ∧
      { t with regs := s.regs, cru := s.cru } = s ∧ t.cru = { s.cru with scrubFor := 0 }) ∧
    (∀ bad, s.alive = false ∨ s.get Reg.cruScrubBusy ≠ 1 ∨ s.scrubUp = false → exec (.scrubComplete bad) s = .next s) ∧
    (∀ bad, s.alive = true → s.get Reg.cruScrubBusy = 1 → s.scrubUp = true → ∃ t, exec (.scrubComplete bad) s = .next t ∧
      (∀ k a, k < 4 → (t.memOf k).read a = 0) ∧ t.hbmPoison = [] ∧ t.stockPoison = [] ∧
      (∀ n, t.core n = (s.core n).scrubbed) ∧ t.tmp = { s.tmp with work := .empty, solver := .empty } ∧
      (∀ p, p < 12 → (t.port p).transit = []) ∧
      t.get Reg.cruScrubBusy = 0 ∧ t.get Reg.cruStatusScrubOk = (if bad = 0 then 1 else 0) ∧
      t.get Reg.cruScrubErr = min (s.get Reg.cruScrubErr + bad) (2 ^ Reg.cruScrubErr.w - 1) ∧ t.seed = s.seed ∧ t.billet = s.billet ∧
      (0 < bad → Raised s t srcCrucible 0x72 clsU 0) ∧ (bad = 0 → t.faultQ = s.faultQ) ∧
      (s.cru.scrubFor = 1 → t.sys.booted = true ∧
        t.life = if s.cru.recovery then .recovery else if s.cru.owner.isSome then .claimed else .blank) ∧
      (s.cru.scrubFor = 2 → t.life = .blank ∧ ∀ x, RunningCmd s x → x.opcode = 0x0102 → Finished s t x rcOk []) ∧
      (s.cru.scrubFor ≠ 1 → s.cru.scrubFor ≠ 2 → t.life = s.life)) ∧
    (s.alive = false ∨ s.smithUp = false → exec .entropyFail s = .next s) ∧
    (s.alive = true → s.smithUp = true → ∃ t, exec .entropyFail s = .next t ∧
      t.get Reg.cruEntropyFail = min (s.get Reg.cruEntropyFail + 1) (2 ^ Reg.cruEntropyFail.w - 1) ∧ t.life = .quench ∧ SameBytes s t ∧
      t.seed = none ∧ t.get Reg.fltStatusQuench = 1 ∧ t.cru.quenchMark = true)

/-! ## Faults (chapter 17) -/

/-- R96, R276, R457 to R461, R463 to R465, Table 17-5: the message accepted is the oldest of its source, of the highest class and then the
lowest source. It is counted, and latched into FIRST where its source is not masked and FIRST is clear, else OVF is set; a forced one
clears FORCE, and a source whose forced message was dropped raises it again. One of class F, or of class U with U_FATAL, is kept in
FIRST_F and quenches the device; a thermal trip and the watchdog assert their resets, of which in Quench the cause bit alone is set; a
legacy message with LEGACY_ABORT holds the next gate of a running device. A clear of VALID re-arms FIRST, or a trap record, unless a
message, or an event, comes in the same cycle. -/
def Obligations.FaultsAreCollected : Prop :=
  ∀ (s : State) (sources : List Nat),
    let first := [Reg.fltFirstLo, Reg.fltFirstHi, Reg.fltFirstAngleLo, Reg.fltFirstAngleHi, Reg.fltStatusValid]
    let clear := fun v : State => (∀ f ∈ first, v.get f = 0) ∧ SameRegsBut first s v ∧ SameButRegs s v
    (s.domUp 2 = false ∨ s.nextMsg sources = none → exec (.faultMessageAccept sources) s = .next s) ∧
    (∀ m, s.domUp 2 = true → s.nextMsg sources = some m → m.source < 4096 →
      let mask := s.get (Reg.fltSrcCfgMask m.source) = 1 ∧ m.cls ≠ clsF
      let force := Reg.fltSrcCfgForce m.source
      let latches := ¬ mask ∧ s.get Reg.fltStatusValid ≠ 1
      let fatal := m.cls = clsF ∨ (m.cls = clsU ∧ s.get Reg.fltCtrlUFatal = 1 ∧ ¬ mask)
      let trip := m.forced = false ∧ m.kind = 0x7D
      let dog := m.forced = false ∧ m.kind = 0x78
      let holds := legacySource m.source = true ∧ s.get Reg.fltCtrlLegacyAbort = 1 ∧ ¬ mask ∧ s.life = .running
      (∀ x ∈ sources, ∀ k, s.headOf x = some k → k.cls < m.cls ∨ (k.cls = m.cls ∧ m.source ≤ k.source)) ∧
      ∃ u : State,
        -- counted and latched
        (u.get (Reg.fltCount m.source) = min (s.get (Reg.fltCount m.source) + 1) (2 ^ (Reg.fltCount m.source).w - 1) ∧
          u.get (State.totalFld m.cls) = min (s.get (State.totalFld m.cls) + 1) (2 ^ (State.totalFld m.cls).w - 1) ∧
          { u with regs := s.regs, faultQ := s.faultQ, sys := s.sys } = s ∧
          SameRegsBut ((if latches then first else []) ++ [Reg.fltDropped, Reg.fltStatusOvf, force, Reg.fltCount m.source, State.totalFld m.cls]) s u ∧
          (mask → u.sys = s.sys) ∧ (¬ mask → s.get Reg.fltStatusValid = 1 → u.sys = s.sys ∧ u.get Reg.fltStatusOvf = 1) ∧
          (latches → u.get64 Reg.fltFirstLo Reg.fltFirstHi = m.word0 ∧ u.get64 Reg.fltFirstAngleLo Reg.fltFirstAngleHi = m.word1 ∧
            u.get Reg.fltStatusValid = 1 ∧ u.sys = { s.sys with pulse := true, faultLow := true })) ∧
        -- forced messages
        (m.forced = true → u.get force = 0 ∧ u.faultQ = s.faultQ.erase m) ∧
        (m.forced = false → u.get force = s.get force ∧
          let again := s.get force = 1 ∧ legacySource m.source = false ∧ ∀ k ∈ s.faultQ.erase m, ¬ (k.source = m.source ∧ k.forced = true)
          (¬ again ∨ kindClass s m.source (s.get (Reg.fltSrcCfgForceKind m.source)) = none → u.faultQ = s.faultQ.erase m) ∧
          (∀ c, again → kindClass s m.source (s.get (Reg.fltSrcCfgForceKind m.source)) = some c → s.waitingFrom m.source ≤ 16 →
            u.faultQ = s.faultQ.erase m ++ [s.faultMsg m.source (s.get (Reg.fltSrcCfgForceKind m.source)) c 0 true])) ∧
        -- escalation
        (¬ fatal → ¬ trip → ¬ dog → ¬ holds → exec (.faultMessageAccept sources) s = .next u) ∧
        (¬ fatal → ¬ trip → ¬ dog → holds → ∃ t, exec (.faultMessageAccept sources) s = .next t ∧ HoldsNext u t reasonAbort ∧ OnlyCad [] u t) ∧
        (¬ fatal → trip → exec (.faultMessageAccept sources) s = .next (u.assertSource { bit := 7, clock := none, level := 2 })) ∧
        (¬ fatal → dog → exec (.faultMessageAccept sources) s =
          .next (({ u with sys := { u.sys with wdt := 0 } }).assertSource { bit := 6, clock := none, level := 1 + u.get Reg.rstCtrlWdtReach })) ∧
        (fatal → ∃ v : State,
          (trip → exec (.faultMessageAccept sources) s = .next (v.put Reg.rstCauseTherm 1)) ∧
          (dog → exec (.faultMessageAccept sources) s = .next (({ v with sys := { v.sys with wdt := 0 } }).put Reg.rstCauseWdt 1)) ∧
          (¬ trip → ¬ dog → exec (.faultMessageAccept sources) s = .next v) ∧ SameBytes s v ∧
          v.life = .quench ∧ v.get Reg.fltStatusFValid = 1 ∧
          (s.get Reg.fltStatusFValid ≠ 1 → v.get64 Reg.fltFirstFLo Reg.fltFirstFHi = m.word0 ∧ v.get64 Reg.fltFirstFAngleLo Reg.fltFirstFAngleHi = m.word1) ∧
          (s.get Reg.fltStatusFValid = 1 → v.get64 Reg.fltFirstFLo Reg.fltFirstFHi = s.get64 Reg.fltFirstFLo Reg.fltFirstFHi ∧
            v.get64 Reg.fltFirstFAngleLo Reg.fltFirstFAngleHi = s.get64 Reg.fltFirstFAngleLo Reg.fltFirstFAngleHi) ∧
          (s.life = .quench → SameRegsBut [Reg.fltFirstFLo, Reg.fltFirstFHi, Reg.fltFirstFAngleLo, Reg.fltFirstFAngleHi, Reg.fltStatusFValid] u v ∧
            SameButRegs u v) ∧
          (s.life ≠ .quench → v.seed = none ∧ v.cru.quenchMark = true ∧ v.cad.active = false ∧ v.cad.mOn = false ∧ v.cad.outLevel = false ∧
            v.ing.restore = none ∧ v.ing.replay = none ∧ (∀ x, RunningCmd s x → v.mbx.running = none) ∧ v.mbx.queue = [] ∧
            v.get Reg.fltStatusQuench = 1 ∧ v.get Reg.cruStatusSeedHeld = 0 ∧ v.get Reg.cruScrubBusy = 0 ∧ v.sys.faultLow = true ∧
            v.get Reg.fltLegacyOut = s.get Reg.fltLegacyEn ∧
            (∀ k, k < 8 → v.get (Reg.hbmStateMode k) = if s.get (Reg.hbmStateMode k) = 2 then 3 else s.get (Reg.hbmStateMode k)) ∧
            (∀ p, p < 12 → v.get (Reg.fabSealState p) = 0 ∧ (v.port p).transit = [] ∧ (v.port p).ready = [] ∧ (v.port p).myRandom = none ∧
              (v.port p).peerRandom = none ∧ (v.port p).txKey = [] ∧ (v.port p).rxKey = [])))) ∧
    -- clears
    (s.domUp 2 = false → exec (.fltValidClear sources) s = .next s) ∧
    (s.domUp 2 = true → s.nextMsg sources = none → ∃ t, exec (.fltValidClear sources) s = .next t ∧ clear t) ∧
    (∀ m, s.domUp 2 = true → s.nextMsg sources = some m →
      let mask := s.get (Reg.fltSrcCfgMask m.source) = 1 ∧ m.cls ≠ clsF
      (¬ mask → ∃ t, exec (.fltValidClear sources) s = .next t ∧ exec (.faultMessageAccept sources) s = .next t) ∧
      (mask → ∃ t v, exec (.fltValidClear sources) s = .next t ∧ clear v ∧ exec (.faultMessageAccept sources) v = .next t)) ∧
    (∀ n, exec (.trapClear n true) s = .next s ∧ (192 ≤ n → exec (.trapClear n false) s = .next s) ∧
      (n < 192 → ∃ t, exec (.trapClear n false) s = .next t ∧ (∀ f ∈ trapRegs n, t.get f = 0) ∧ SameRegsBut (trapRegs n) s t ∧ SameButRegs s t)) ∧
    exec (.tmpTrapClear true) s = .next s ∧
    (let l := [Reg.tmpTrapStatusValid, Reg.tmpTrapStatusCause, Reg.tmpTrapStatusEngine, Reg.tmpTrapGroup, Reg.tmpTrapIndexLo,
       Reg.tmpTrapIndexHi, Reg.tmpTrapAngleLo, Reg.tmpTrapAngleHi]
     ∃ t, exec (.tmpTrapClear false) s = .next t ∧ (∀ f ∈ l, t.get f = 0) ∧ SameRegsBut l s t ∧ SameButRegs s t)

/-- R461, R462, R467 to R474, Table 17-5: FORCE raises one forced message of a kind of its source, and is ignored for another kind; of a
legacy source it is a level. A legacy pair that enters fault, or whose wires read equal, is shown and raised, outside the first 100 ms,
and leaves it again; at their end reversed pairs are swapped and what stands is raised. A parity error of the collector quenches the
device at once. The pulse of FAULT_OUT_N ends. A peer's Quench is counted and raised, and stops the job with cause 6. In Quench Stock
enters self-refresh. In any other state these change nothing. -/
def Obligations.FaultInputsAct : Prop :=
  ∀ (s : State),
    (∀ x mask kind, s.domUp 2 = false ∨ 4096 ≤ x → exec (.srcCfgForce x mask kind) s = .next s) ∧
    (∀ x mask kind, s.domUp 2 = true → x < 4096 →
      let cfg := fun t : State => t.get (Reg.fltSrcCfgMask x) = (if mask then 1 else 0) ∧ t.get (Reg.fltSrcCfgForceKind x) = kind % 256
      (legacySource x = false → kindClass s x (kind % 256) = none → exec (.srcCfgForce x mask kind) s = .next s) ∧
      (∀ c, legacySource x = false → kindClass s x (kind % 256) = some c → ∃ t, exec (.srcCfgForce x mask kind) s = .next t ∧ cfg t ∧
        t.get (Reg.fltSrcCfgForce x) = 1 ∧ SameRegsBut (dropRegs ++ [Reg.fltSrcCfgMask x, Reg.fltSrcCfgForceKind x, Reg.fltSrcCfgForce x]) s t ∧
        (s.waitingFrom x < 16 → t.faultQ = s.faultQ ++ [s.faultMsg x (kind % 256) c 0 true]) ∧
        (16 ≤ s.waitingFrom x → t.faultQ = s.faultQ ∧ Counted s t Reg.fltDropped ∧ t.get Reg.fltStatusOvf = 1) ∧
        { t with regs := s.regs, faultQ := s.faultQ } = s) ∧
      (legacySource x = true → ∃ t, exec (.srcCfgForce x mask kind) s = .next t ∧ cfg t ∧ SameButRegs s t ∧
        (s.get Reg.fltLegacyEn = 1 → t.get (Reg.fltSrcCfgForce x) = 1 ∧ t.get Reg.fltLegacyForced = (s.get Reg.fltLegacyForced ||| 2 ^ (x - 0xF00)) % 16 ∧
          SameRegsBut [Reg.fltSrcCfgMask x, Reg.fltSrcCfgForceKind x, Reg.fltSrcCfgForce x, Reg.fltLegacyForced] s t) ∧
        (s.get Reg.fltLegacyEn ≠ 1 → SameRegsBut [Reg.fltSrcCfgMask x, Reg.fltSrcCfgForceKind x] s t))) ∧
    (∀ k,
      let st := s.get Reg.fltLegacyState
      let wi := s.get Reg.fltLegacyWire
      let live := k < 4 ∧ s.get Reg.fltLegacyEn = 1
      let forced := bit (s.get Reg.fltLegacyForced) k = true
      let off := fun (v : Nat) => v - if bit v k then 2 ^ k else 0
      let raised := fun (t : State) (kind : Nat) => { t with regs := s.regs, faultQ := s.faultQ } = s ∧ (s.sys.window = true → t.faultQ = s.faultQ) ∧
        (s.sys.window = false → Raised s t (srcLegacy k) kind clsU 0)
      (∀ fault, ¬ live ∨ bit st k = fault ∨ (fault = true ∧ bit wi k = true) ∨ (fault = false ∧ forced) → exec (.legacyFault k fault) s = .next s) ∧
      (∀ equal, ¬ live ∨ bit wi k = equal ∨ (equal = true ∧ forced) → exec (.legacyWire k equal) s = .next s) ∧
      (live → bit st k = false → bit wi k = false → ∃ t, exec (.legacyFault k true) s = .next t ∧ t.get Reg.fltLegacyState = (st ||| 2 ^ k) % 16 ∧
        raised t 0xE0 ∧ SameRegsBut (Reg.fltLegacyState :: dropRegs) s t) ∧
      (live → bit st k = true → ¬ forced → exec (.legacyFault k false) s = .next (s.put Reg.fltLegacyState (off st))) ∧
      (live → bit wi k = false → ¬ forced → ∃ t, exec (.legacyWire k true) s = .next t ∧ raised t 0xE1 ∧
        t.get Reg.fltLegacyWire = (wi ||| 2 ^ k) % 16 ∧ t.get Reg.fltLegacyState = off st % 16 ∧ SameRegsBut ([Reg.fltLegacyState, Reg.fltLegacyWire] ++ dropRegs) s t) ∧
      (live → bit wi k = true → exec (.legacyWire k false) s = .next (s.put Reg.fltLegacyWire (off wi)))) ∧
    (∀ reversed, s.sys.window = false → exec (.legacyWindowEnd reversed) s = .next s) ∧
    (∀ reversed, s.sys.window = true → ∃ t, exec (.legacyWindowEnd reversed) s = .next t ∧ { t with regs := s.regs, faultQ := s.faultQ, sys := s.sys } = s ∧
      t.sys = { s.sys with window := false } ∧ SameRegsBut (Reg.fltLegacySwapped :: dropRegs) s t ∧
      (∀ k, k < 4 → bit (t.get Reg.fltLegacySwapped) k = (bit (s.get Reg.fltLegacySwapped) k || reversed.contains k)) ∧
      ((∀ k, k < 4 → s.waitingFrom (srcLegacy k) < 16) → t.faultQ = s.faultQ ++ (List.range 4).filterMap (fun k =>
        if k ∈ reversed then none
        else if bit (s.get Reg.fltLegacyState) k then some (s.faultMsg (srcLegacy k) 0xE0 clsU 0 false)
        else if bit (s.get Reg.fltLegacyWire) k then some (s.faultMsg (srcLegacy k) 0xE1 clsU 0 false) else none))) ∧
    (∀ offset, s.domUp 2 = false → exec (.collectorParity offset) s = .next s) ∧
    (∀ offset, s.domUp 2 = true → s.life = .quench → exec (.collectorParity offset) s = .next (s.put Reg.fltStatusSelf 1)) ∧
    (∀ offset, s.domUp 2 = true → s.life ≠ .quench → ∃ t, exec (.collectorParity offset) s = .next t ∧ t.life = .quench ∧
      t.get Reg.fltStatusSelf = 1 ∧ t.get Reg.fltStatusFValid = 1 ∧ t.get Reg.fltStatusQuench = 1 ∧ t.seed = none ∧ t.cru.quenchMark = true ∧
      SameBytes s t ∧ t.faultQ = s.faultQ ∧ (∀ f ∈ [Reg.fltFirstLo, Reg.fltFirstHi, Reg.fltStatusValid], t.get f = s.get f) ∧ t.sys.faultLow = true ∧
      t.get64 Reg.fltFirstFLo Reg.fltFirstFHi = (s.faultMsg srcCollector 0xFF clsF (offset % 65536) false).word0 ∧
      t.get64 Reg.fltFirstFAngleLo Reg.fltFirstFAngleHi = (s.faultMsg srcCollector 0xFF clsF (offset % 65536) false).word1) ∧
    (s.sys.pulse = false → exec .faultPulseEnd s = .next s) ∧
    (s.sys.pulse = true → exec .faultPulseEnd s = .next { s with sys := { s.sys with
      pulse := false, faultLow := decide (s.life = .quench) || decide (s.get Reg.fltCtrlPinDrive = 1) } }) ∧
    (∀ src, s.alive = false ∨ s.inJob = false ∨ (∀ m ∈ s.roster, m.addr ≠ src) → exec (.quenchNotice src) s = .next s) ∧
    (∀ src m, s.alive = true → s.inJob = true → m ∈ s.roster → m.addr = src → ∃ t, exec (.quenchNotice src) s = .next t ∧
      t.get Reg.fltPeerQuench = min (s.get Reg.fltPeerQuench + 1) (2 ^ Reg.fltPeerQuench.w - 1) ∧ t.get Reg.fltPeerLast = src % 2 ^ Reg.fltPeerLast.w ∧
      Raised s t srcBellows 0x4B clsU (src % 2 ^ 14) ∧ SameBytes s t ∧
      (s.life ≠ .running → { t with regs := s.regs, faultQ := s.faultQ } = s ∧ SameRegsBut (dropRegs ++ [Reg.fltPeerQuench, Reg.fltPeerLast]) s t) ∧
      (s.life = .running → t.life = .armed ∧ t.cad = { s.cad with
          own := [], cancelled := s.cad.cancelled + s.cad.own.length, want := none, role := .idle, active := false, start := false
          haltPending := false, resume := none, resetHold := false, rolling := false, mOn := false, mHolds := [], mRolling := false, cands := []
          chosen := none, confirms := [], stopped := some (6, s.cad.angle) } ∧
        (s.mbx.halts = [] → s.mbx.running = none → t.jnl.entries.getLast?.map (fun e => (e.origin, e.opcode, e.record)) =
          some (2, 0, State.record 3 [(33, 1, 6), (36, 6, s.cad.angle)])))) ∧
    (s.life ≠ .quench → exec .quenchStockSelfRefresh s = .next s) ∧
    (s.life = .quench → exec .quenchStockSelfRefresh s = .next { s with sys := { s.sys with stockSelf := true } })

/-! ## Power, heat, clocks and resets (chapters 18 and 19) -/

/-- R4, R29, R30, R37, R254, R394, R486, R489, R490, R492, R503: outside its band the input turns the rails off, and a rise into it, or
PWR_OK low, starts power-on reset: everything but the fuses and the boot store is lost. The release of power-on reset takes its cause and
the straps. An input at the edge of its band, a sensor at its warning or trip threshold and an expired watchdog are raised; a kick
restarts the watchdog. The patrol reader of a stack, or of Stock, reads its next granule: an error is counted and raised, and an
uncorrectable one poisons the granule unless a job writes it in that cycle. In any other state these change nothing. -/
def Obligations.PowerAndHeatAreWatched : Prop :=
  ∀ (s : State),
    let lost := fun t : State => (∀ f : Fld, t.get f = if State.storeKept f.key then s.get f else f.rst) ∧
      (∀ k a, k < 4 → (t.memOf k).read a = 0) ∧ t.cru = { Cru.init with
        owner := s.cru.owner, wrapped := s.cru.wrapped, images := s.cru.images, token := s.cru.token, quenchMark := s.cru.quenchMark } ∧
      t.seed = none ∧ t.billet = none ∧ t.life = .blank ∧ t.mbx = Mbx.init ∧ t.jnl = Jnl.init ∧ t.sys.por = true ∧ t.sys.held = allDomains ∧
      t.pending = s.pending ∧ t.out = s.out
    let on := s.sys.rails = true ∧ s.sys.por = false
    (∀ vin, s.sys.rails = true ∨ vin < 3800 ∨ 6200 < vin → exec (.powerInputRise vin) s = .next s) ∧
    (∀ vin, s.sys.rails = false → 3800 ≤ vin → vin ≤ 6200 → ∃ t, exec (.powerInputRise vin) s = .next t ∧ lost t ∧ t.sys.rails = true ∧
      t.sys.vin = vin ∧ t.sys.porBit = 0 ∧ (t.sys.bandDue = true ↔ vin ≤ 4000 ∨ 6000 ≤ vin)) ∧
    (s.sys.rails = false → exec .powerInputHigh s = .next s ∧ exec .powerInputLow s = .next s ∧ exec .pwrOkLow s = .next s) ∧
    (∀ vin, s.sys.rails = false ∨ vin < 3800 ∨ (4000 < vin ∧ vin < 6000) ∨ 6200 < vin → exec (.powerInputBand vin) s = .next s) ∧
    (∀ en addr, s.sys.rails = false ∨ s.sys.por = false → exec (.powerOnRelease en addr) s = .next s) ∧
    (s.sys.rails = true →
      (∃ t, exec .powerInputHigh s = .next t ∧ lost t ∧ t.sys.rails = false ∧ t.sys.vin = 0) ∧
      (∃ t, exec .powerInputLow s = .next t ∧ lost t ∧ t.sys.rails = false ∧ t.sys.vin = 0) ∧
      (∃ t, exec .pwrOkLow s = .next t ∧ lost t ∧ t.sys.rails = true ∧ t.sys.vin = s.sys.vin ∧ t.sys.porBit = if s.sys.por then s.sys.porBit else 1) ∧
      (∀ vin, (3800 ≤ vin ∧ vin ≤ 4000) ∨ (6000 ≤ vin ∧ vin ≤ 6200) → ∃ t, exec (.powerInputBand vin) s = .next t ∧
        { t with regs := s.regs, faultQ := s.faultQ, sys := s.sys } = s ∧ SameRegsBut dropRegs s t ∧
        (s.domUp 2 = true → Raised s t srcPower 0x7E clsC vin ∧ t.sys = { s.sys with vin := vin }) ∧
        (s.domUp 2 = false → t.sys = { s.sys with vin := vin, bandDue := true } ∧ t.faultQ = s.faultQ ∧ t.regs = s.regs)) ∧
      (s.sys.por = true → ∀ legacyEn addr, ∃ t, exec (.powerOnRelease legacyEn addr) s = .next t ∧ t.get (causeFld s.sys.porBit) = 1 ∧
        t.get Reg.rstStrapLegacyEn = (if legacyEn then 1 else 0) ∧ t.get Reg.fltLegacyEn = (if legacyEn then 1 else 0) ∧
        t.sys = { s.sys with por := false, window := legacyEn, smbAddr := addr % 8, pinFault := false, pinLegacy := if legacyEn then some false else none } ∧
        (∀ x ∈ s.sys.asserted, t.get (causeFld x.bit) = 1) ∧ t.jnl = { s.jnl with resetCause := some t.causeWord } ∧
        { t with regs := s.regs, sys := s.sys, jnl := s.jnl } = s ∧
        SameRegsBut (Reg.rstStrapLegacyEn :: Reg.fltLegacyEn :: causeFld s.sys.porBit :: s.sys.asserted.map (fun x => causeFld x.bit)) s t)) ∧
    (let tempRegs := fun k : Nat => if k < 5 then [] else if k < 13 then [Reg.hbmStateTempC (k - 5)] else [Reg.tmpStockTempC]
     (∀ sensor temp, ¬ on ∨ 14 ≤ sensor ∨ temp < warnAt sensor ∨ warnAt sensor ≤ s.tempOf sensor → exec (.thermalWarning sensor temp) s = .next s) ∧
     (∀ sensor temp, ¬ on ∨ 14 ≤ sensor ∨ temp < tripAt sensor ∨ tripAt sensor ≤ s.tempOf sensor → exec (.thermalTrip sensor temp) s = .next s) ∧
     (∀ sensor temp, on → sensor < 14 → temp < 255 →
      let shows := fun t : State => t.sys = { s.sys with temps := s.sys.temps.set sensor temp } ∧ (∀ f ∈ tempRegs sensor, t.get f = temp) ∧
        { t with regs := s.regs, faultQ := s.faultQ, sys := s.sys } = s ∧ SameRegsBut (dropRegs ++ tempRegs sensor) s t
      (warnAt sensor ≤ temp → s.tempOf sensor < warnAt sensor → ∃ t, exec (.thermalWarning sensor temp) s = .next t ∧ shows t ∧
        Raised s t (srcTherm sensor) 0x7C clsC temp) ∧
      (tripAt sensor ≤ temp → s.tempOf sensor < tripAt sensor →
        ∃ t, exec (.thermalTrip sensor temp) s = .next t ∧ shows t ∧ (s.waitingFrom (srcTherm sensor) < 15 → t.faultQ = s.faultQ ++
          (if s.tempOf sensor < warnAt sensor then [s.faultMsg (srcTherm sensor) 0x7C clsC temp false] else []) ++
          [s.faultMsg (srcTherm sensor) 0x7D clsU temp false]))) ∧
     (∀ temps : List Nat, temps.length = 14 → s.sys.temps.length = 14 → (∀ k, k < 14 → temps.getD k 0 < 255) →
      ((∃ k, k < 14 ∧ warnAt k ≤ temps.getD k 0) → exec (.thermalTripEnd temps) s = .next s) ∧
      ((∀ k, k < 14 → temps.getD k 0 < warnAt k) → ∃ t, exec (.thermalTripEnd temps) s = .next t ∧
        t.sys = { s.sys with temps := temps, asserted := s.sys.asserted.filter (fun x => x.bit != 7) } ∧
        (∀ k, k < 14 → ∀ f ∈ tempRegs k, t.get f = temps.getD k 0) ∧ SameRegsBut ((List.range 14).flatMap tempRegs) s t ∧
        { t with sys := s.sys, regs := s.regs } = s))) ∧
    (∀ ms, ¬ on ∨ s.smithUp = false ∨ s.get Reg.rstCtrlWdtEn ≠ 1 ∨ ms < s.wdtPeriod → exec (.watchdogExpiry ms) s = .next s) ∧
    (∀ ms, on → s.smithUp = true → s.get Reg.rstCtrlWdtEn = 1 → s.wdtPeriod ≤ ms →
      ∃ t, exec (.watchdogExpiry ms) s = .next t ∧ Raised s t srcSmith 0x78 clsU 0 ∧ t.sys = { s.sys with wdt := ms } ∧
        SameRegsBut dropRegs s t ∧ { t with sys := s.sys, regs := s.regs, faultQ := s.faultQ } = s) ∧
    (exec .wdtKick s = .next (if s.smithUp = true then { s with sys := { s.sys with wdt := 0 } } else s)) ∧
    (∀ stack ecc written,
      let up := stack < 8 ∧ s.domUp (8 + stack / 4) = true ∧ s.get (Reg.hbmPatrolEn stack) = 1 ∧ s.get (Reg.hbmStateMode stack) = 2
      let p := s.get (Reg.hbmPatrolPos stack)
      let g := stack * stackGranules + p
      let k := stackOf (64 * g)
      let errs := [Reg.hbmCeCount k, Reg.hbmUeCount k, Reg.hbmLastUeLo k, Reg.hbmLastUeHi k, Reg.hbmPoisonCount k, Reg.hbmPoisonCount stack]
      (stack ≠ 8 → ¬ up → exec (.patrolRead stack ecc written) s = .next s) ∧
      (up → ∃ t, exec (.patrolRead stack ecc written) s = .next t ∧
        t.get (Reg.hbmPatrolPos stack) = (p + 1) % stackGranules % 2 ^ (Reg.hbmPatrolPos stack).w ∧
        SameRegsBut (dropRegs ++ Reg.hbmPatrolPos stack :: errs) s t ∧ { t with regs := s.regs, faultQ := s.faultQ, hbmPoison := s.hbmPoison } = s ∧
        (g ∈ s.hbmPoison ∨ (∀ e ∈ ecc, e.granule ≠ g) → SameRegsBut [Reg.hbmPatrolPos stack, Reg.hbmPoisonCount stack] s t ∧ t.faultQ = s.faultQ ∧
          t.hbmPoison = s.hbmPoison) ∧
        (g ∉ s.hbmPoison → g < 8 * stackGranules → (ecc = [{ granule := g, ue := false }] → Counted s t (Reg.hbmCeCount k) ∧ t.hbmPoison = s.hbmPoison ∧
            Raised s t (srcHbm k) 0x18 clsC (64 * g)) ∧
          (ecc = [{ granule := g, ue := true }] → Counted s t (Reg.hbmUeCount k) ∧ t.get64 (Reg.hbmLastUeLo k) (Reg.hbmLastUeHi k) = 64 * g ∧
            Raised s t (srcHbm k) 0x19 clsU (64 * g) ∧ (written = false → g ∈ t.hbmPoison) ∧ (written = true → g ∉ t.hbmPoison) ∧
            ∀ x, x ≠ g → (x ∈ t.hbmPoison ↔ x ∈ s.hbmPoison))))) ∧
    (∀ ecc written,
      let p := s.sys.stockPatrol
      let errs := [Reg.tmpStockCe, Reg.tmpStockUe, Reg.tmpStockLastUeLo, Reg.tmpStockLastUeHi]
      (s.domUp 12 = false ∨ s.sys.stockSelf = true → exec (.patrolRead 8 ecc written) s = .next s) ∧
      (s.domUp 12 = true → s.sys.stockSelf = false → ∃ t, exec (.patrolRead 8 ecc written) s = .next t ∧
        t.sys = { s.sys with stockPatrol := (p + 1) % stockGranules } ∧ SameRegsBut (dropRegs ++ errs) s t ∧
        { t with regs := s.regs, faultQ := s.faultQ, stockPoison := s.stockPoison, sys := s.sys } = s ∧
        (p ∈ s.stockPoison ∨ (∀ e ∈ ecc, e.granule ≠ p) → SameRegsBut [] s t ∧ t.faultQ = s.faultQ ∧ t.stockPoison = s.stockPoison) ∧
        (p ∉ s.stockPoison → p < stockGranules → (ecc = [{ granule := p, ue := false }] → Counted s t Reg.tmpStockCe ∧ t.stockPoison = s.stockPoison ∧
            Raised s t srcTemper 0x5B clsC (64 * p)) ∧
          (ecc = [{ granule := p, ue := true }] → Counted s t Reg.tmpStockUe ∧ t.get64 Reg.tmpStockLastUeLo Reg.tmpStockLastUeHi = 64 * p ∧
            Raised s t srcTemper 0x5C clsU (64 * p) ∧ (written = false → p ∈ t.stockPoison) ∧ (written = true → p ∉ t.stockPoison) ∧
            ∀ k, k ≠ p → (k ∈ t.stockPoison ↔ k ∈ s.stockPoison)))))

/-- R282, R385, R465, R480 to R485, R488, R490, R493: a source sets its cause bit and holds its reach in reset, and in Quench only sets
the bit; a system reset returns every register that Table 20-3 does not keep to its reset value, and a core reset those of the core
reach. A lost clock is noted, raised and holds its domain, and with REFCLK all fabric domains are lost. A remote reset that is not in
order is counted. A pin that is released, and a clock that is good again, deassert their source. A domain leaves reset when its turn has
come; SMITH's first starts the boot, and the core reach's last the reload. In any other state these change nothing. -/
def Obligations.ResetsReachDomains : Prop :=
  ∀ (s : State),
    let asserts := fun (c : Instr) (x : ResetSrc) =>
      (s.life = .quench → exec c s = .next (s.put (causeFld x.bit) 1)) ∧
      (s.life ≠ .quench → s.sys.por = true → ∃ t, exec c s = .next t ∧ x ∈ t.sys.asserted ∧ { t with sys := s.sys } = s ∧
        { t.sys with asserted := s.sys.asserted } = s.sys) ∧
      (s.life ≠ .quench → s.sys.por = false → ∃ t, exec c s = .next t ∧ t.get (causeFld x.bit) = 1 ∧ x ∈ t.sys.asserted ∧
        (∀ d ∈ x.domains, d < 28 → t.domUp d = false) ∧ x.level ≤ t.get Reg.rstCauseLastReach ∧ t.pending = s.pending ∧
        (x.level = 2 → (∀ y ∈ s.sys.asserted, y.level ≠ 2) → SameBytes s t ∧ t.seed = none ∧ t.billet = none ∧ t.mbx = Mbx.init ∧ t.life = .blank ∧
          t.cru.owner = s.cru.owner ∧ t.sys.bootDue = true ∧ t.sys.booted = false ∧
          ∀ f : Fld, State.sysKept f.key = false → f.key ≠ (Reg.ingBayStateCode 0).key → f.key ≠ (Reg.ingBayStateCode 1).key → t.get f = f.rst) ∧
        (x.level = 1 → (∃ d ∈ coreReach, s.domUp d = true) →
          (∀ f : Fld, State.coreCleared (keyAddr f.key) = true → t.get f = f.rst) ∧ t.cores = [] ∧ t.stash = [] ∧ t.kvp = Kvp.init ∧ t.tmp = Tmp.init ∧
          t.get Reg.rstCoreCount = min (s.get Reg.rstCoreCount + 1) (2 ^ Reg.rstCoreCount.w - 1) ∧ (∀ k, k < 8 → t.get (Reg.hbmStateMode k) ≠ 2) ∧
          t.cad.resume = s.resumeAngle ∧ t.life = (if s.life = .running ∧ s.resumeAngle = none then .armed else s.life) ∧
          (s.cad.active = false ∨ s.cad.isCommitted (stepOf s.cad.angle) = false → SameBytes s t)))
    (s.sys.rails = false → exec .sysResetN s = .next s ∧ exec .coreResetN s = .next s) ∧
    (s.sys.rails = true → asserts .sysResetN { bit := 2, clock := none, level := 2 } ∧ asserts .coreResetN { bit := 3, clock := none, level := 1 }) ∧
    (∀ p src target reach tagOk, s.domUp 2 = false ∨ s.portUp p = false → exec (.remoteReset p src target reach tagOk) s = .next s) ∧
    (∀ p src target reach tagOk, s.domUp 2 = true → s.portUp p = true →
      let ok := tagOk = true ∧ (s.life = .quench ∨ (s.get (Reg.fabSealState p) = 2 ∧ s.inJob = true)) ∧ (∃ m ∈ s.roster, m.addr = src) ∧
        target = s.addr ∧ (reach = 1 ∨ reach = 2) ∧ s.get Reg.rstCtrlRemoteEn = 1
      (¬ ok → exec (.remoteReset p src target reach tagOk) s = .next (s.put Reg.rstRemoteRefused (min (s.get Reg.rstRemoteRefused + 1) (2 ^ Reg.rstRemoteRefused.w - 1)))) ∧
      (ok → s.life = .quench → exec (.remoteReset p src target reach tagOk) s = .next (s.put (causeFld 5) 1)) ∧
      (ok → s.life ≠ .quench → s.sys.por = false → ∃ t, exec (.remoteReset p src target reach tagOk) s = .next t ∧ t.get (causeFld 5) = 1 ∧
        { bit := 5, clock := none, level := reach } ∈ t.sys.asserted ∧ (∀ d ∈ coreReach, t.domUp d = false) ∧
        (reach = 2 → ∀ d ∈ sysReach, t.domUp d = false) ∧
        (reach = 1 → t.get Reg.rstRemoteLastSrc = src % 2 ^ 14 ∧ t.get Reg.rstRemoteLastReach = 1))) ∧
    (∀ sys, exec (.resetPinRelease sys) s = .next { s with sys := { s.sys with asserted := s.sys.asserted.filter (fun x => x.bit != if sys then 2 else 3) } }) ∧
    (let on := s.sys.rails = true ∧ s.sys.por = false
     let noted := fun (d : Nat) (t : State) => d ∉ t.sys.good ∧ bit (t.get Reg.clkLoss) d = true ∧ t.get (causeFld 8) = 1 ∧
       ∃ m ∈ t.faultQ, m.source = srcClock ∧ m.kind = 0x7A ∧ m.cls = clsU ∧ m.addr = d
     (∀ d refclk, ¬ on ∨ d ∉ s.sys.good → exec (.clockLoss d refclk) s = .next s) ∧
     (∀ d, ¬ on ∨ 28 ≤ d ∨ d ∈ s.sys.good → exec (.clockGood d) s = .next s) ∧
     (on → ∀ d refclk, d < 28 → d ∈ s.sys.good →
      (d < 16 ∨ refclk = true → d ∈ s.sys.wasUp → s.waitingFrom srcClock < 16 → ∃ t, exec (.clockLoss d refclk) s = .next t ∧ noted d t ∧
        (s.life ≠ .quench → t.domUp d = false) ∧
        (s.life = .quench → t.sys = { s.sys with good := s.sys.good.filter (fun e => e != d) }) ∧
        (lossLevel d < 2 ∨ s.life = .quench → t.get Reg.clkLossCount = min (s.get Reg.clkLossCount + 1) (2 ^ Reg.clkLossCount.w - 1) ∧
          t.get (Reg.clkDomLosses d) = min (s.get (Reg.clkDomLosses d) + 1) (2 ^ (Reg.clkDomLosses d).w - 1))) ∧
      (d < 16 ∨ refclk = true → d ∉ s.sys.wasUp → ∃ t, exec (.clockLoss d refclk) s = .next t ∧
        t.sys = { s.sys with good := s.sys.good.filter (fun e => e != d) } ∧ SameRegsBut [Reg.clkRefclkPresent] s t ∧
        (16 ≤ d → t.get Reg.clkRefclkPresent = 1) ∧ { t with sys := s.sys, regs := s.regs } = s) ∧
      (16 ≤ d → refclk = false → ∃ t, exec (.clockLoss d refclk) s = .next t ∧ t.get Reg.clkRefclkPresent = 0 ∧ (∀ k ∈ fabDomains, k ∉ t.sys.good) ∧
        (∀ k ∈ fabDomains, k ∈ s.sys.good → k ∈ s.sys.wasUp → s.waitingFrom srcClock ≤ 4 → noted k t ∧ (s.life ≠ .quench → t.domUp k = false)))) ∧
     (on → ∀ d, d < 28 → d ∉ s.sys.good → ∃ t, exec (.clockGood d) s = .next t ∧ d ∈ t.sys.good ∧
       { t.sys with good := s.sys.good } = { s.sys with asserted := s.sys.asserted.filter (fun x => !(x.clock == some d)) } ∧
       SameRegsBut [Reg.clkRefclkPresent] s t ∧ (16 ≤ d → t.get Reg.clkRefclkPresent = 1) ∧ { t with sys := s.sys, regs := s.regs } = s)) ∧
    (∀ d ecc, s.canRelease d = false → exec (.domainRelease d ecc) s = .next s) ∧
    (∀ d ecc, s.canRelease d = true → ∃ t, exec (.domainRelease d ecc) s = .next t ∧ t.sys.held = s.sys.held.erase d ∧ d ∈ t.sys.wasUp ∧
      t.sys.asserted = s.sys.asserted.filter (fun x => !(x.timed && x.domains.contains d)) ∧
      (d ∉ [1, 2] ∧ d ∉ coreReach → { t with sys := s.sys } = s) ∧
      (∀ k, k < 8 → d = 8 + k / 4 → t.get (Reg.hbmStateMode k) = 2 ∧ t.get (Reg.hbmStateTrained k) = 1) ∧
      (d = 1 → t.sys.wdt = 0) ∧
      (d = 1 → s.sys.bootDue = true → t.get Reg.cruScrubBusy = 1 ∧ t.get Reg.cruStatusScrubOk = 0 ∧ t.sys.bootDue = false ∧ t.cru.scrubFor = 1 ∧
        (t.cru.recovery = true ∨ t.cru.running.length = 4)) ∧
      (d = 2 → s.sys.bandDue = true → t.sys.bandDue = false ∧ Raised s t srcPower 0x7E clsC (s.sys.vin % 65536)) ∧
      (d ∈ coreReach → d ∉ s.sys.held.erase d → (d = 1 → s.sys.bootDue = false) → (∀ e ∈ coreReach, e = d ∨ s.domUp e = true) → s.sys.booted = true → ∀ b a, s.billet = some b → s.cad.resume = some a →
        ∃ id, t.jnl.resumeId = id ∧ t.jnl.entries.getLast?.map (fun e => (e.origin, e.opcode, e.record)) =
          some (0, 0, State.record 4 [(33, 1, 1), (36, 4, stepOf a), (40, 8, s.ingGen), (48, 16, id)])))

/-! ## The service side and the register space (chapters 19 and 20) -/

/-- R505, R506, R508, R522, R525. An SMBus read answers from the last Summary update, all ones before the first; another code or a write
is NACKed, a bus held low is released, and each changes nothing else. A Summary update takes the state, the measured input, the readings,
the fault record and totals, the cause, Smith's version and the angle, and sets the levels of FAULT_OUT_N and LFLT_OUT; only registers
that a reading itself changes may change with it. The TAP's IDCODE and the register IDCODE are R525's. BYPASS, SAMPLE/PRELOAD,
EXTEST and CLAMP shift out the bypass bit or the pins and drive the pins from the boundary-scan register; EXTEST and CLAMP are BYPASS in Running and Quench;
Test-Logic-Reset selects IDCODE. CRSACC is BYPASS without the unlock; with it a scan shifts out the last access (zeros where none was
made) and makes the next, as REGISTER_WRITE and a read at the debug level do, or reaches nothing while COLL is held. With SVC, the module side or the TAP
held, the commands have no effect. -/
def Obligations.ServiceSideAnswers : Prop :=
  (∀ (s : State) (code : Nat) (write : Bool) (vin iin pin : Nat) (temps : List Nat),
    (s.smbusUp = false → ∀ c ∈ [Instr.state, .vin, .iin, .pin, .temps, .fault, .cause, .ident, .angle, .totals, .smbusBusRelease,
      .smbusUndefinedCode code write, .summaryUpdate vin iin pin temps], exec c s = .next s) ∧
    (s.smbusUp = true →
      let answers := fun (c : Instr) (code : Nat) (data : List Byte) => exec c s = .next { s with out := s.out ++ [.smbus code data] }
      (s.sys.summary = none → answers .state 1 [255] ∧ answers .vin 2 (List.replicate 2 255) ∧ answers .iin 3 (List.replicate 2 255) ∧
        answers .pin 4 (List.replicate 2 255) ∧ answers .temps 5 (List.replicate 14 255) ∧ answers .fault 6 (List.replicate 20 255) ∧
        answers .cause 7 (List.replicate 4 255) ∧ answers .ident 8 (List.replicate 16 255) ∧ answers .angle 9 (List.replicate 8 255) ∧
        answers .totals 10 (List.replicate 12 255)) ∧
      (∀ x, s.sys.summary = some x →
        answers .state 1 (leBytes 1 (if s.life = .recovery ∨ s.life = .quench then s.life.code else x.state)) ∧ answers .vin 2 (leBytes 2 x.vin) ∧
        answers .iin 3 (leBytes 2 x.iin) ∧ answers .pin 4 (leBytes 2 x.pin) ∧ answers .temps 5 (x.temps.flatMap (leBytes 1)) ∧
        answers .fault 6 (leBytes 4 x.flt ++ leBytes 8 x.first ++ leBytes 8 x.firstAngle) ∧ answers .cause 7 (leBytes 4 x.cause) ∧
        answers .ident 8 (leBytes 8 Config.serialDigest ++ leBytes 4 Config.stepping ++ leBytes 4 x.smith) ∧
        answers .angle 9 (leBytes 6 x.angle ++ leBytes 2 x.attempt) ∧ answers .totals 10 (x.totals.flatMap (leBytes 4))) ∧
      exec (.smbusUndefinedCode code write) s =
        .next (if 1 ≤ code ∧ code ≤ 10 ∧ write = false then s else { s with out := s.out ++ [.smbusNack (code % 256)] }) ∧
      exec .smbusBusRelease s = .next { s with out := s.out ++ [.smbusFree] } ∧
      (s.domUp 1 = false ∨ s.domUp 2 = false → exec (.summaryUpdate vin iin pin temps) s = .next s) ∧
      (s.domUp 1 = true → s.domUp 2 = true →
        ∃ t x, exec (.summaryUpdate vin iin pin temps) s = .next t ∧ t.sys.summary = some x ∧
          { t with regs := s.regs, sys := s.sys } = s ∧ t.regs = (s.noteTemps temps).regs ∧
          x.state = s.life.code ∧ x.vin = vin ∧ x.iin = iin ∧ x.pin = pin ∧ x.temps = (List.range 14).map (fun k => temps.getD k 255 % 256) ∧
          x.flt = s.wordView 0 .firmware 0x20004 % 256 ∧ x.cause = s.causeWord ∧ x.smith = s.get (Reg.cruVersion 1) ∧ x.angle = s.cad.angle ∧
          x.attempt = s.cad.attempt ∧ x.first = s.get64 Reg.fltFirstLo Reg.fltFirstHi ∧ x.firstAngle = s.get64 Reg.fltFirstAngleLo Reg.fltFirstAngleHi ∧
          x.totals = [s.get Reg.fltTotalC, s.get Reg.fltTotalU, s.get Reg.fltTotalF] ∧ t.sys.pinFault = s.sys.faultLow ∧
          t.sys.pinLegacy = if s.flag Reg.fltLegacyEn then some (s.flag Reg.fltLegacyOut) else none))) ∧
  (∀ (s : State) (pins preload data address : Nat) (write : Bool) (ecc : List EccRes),
      let tap := fun (i : TapInstr) (o : List Out) => { s with sys := { s.sys with tap := { s.sys.tap with instr := i } }, out := s.out ++ o }
      let barred := s.life = .running ∨ s.life = .quench
      let idcode := Config.stepping % 16 * 2 ^ 28 + 0x2080 * 2 ^ 12 + 0x3A5 * 2 ^ 1 + 1
      (Config.stepping % 16 = 0 → idcode = 0x0208074B) ∧ (Config.stepping % 16 = 1 → idcode = 0x1208074B) ∧
      (∀ k lv, s.wordView k lv 0 = idcode ∧ s.wordView k lv 8 % 16 = Config.stepping % 16) ∧
      (s.domUp 3 = false → ∀ c ∈ [Instr.bypass, .idcode, .tapReset, .samplePreload pins preload, .extest, .clamp, .crsacc data address write ecc],
        exec c s = .next s) ∧
      (s.domUp 3 = true →
        exec .bypass s = .next (tap .bypass [.tdo 1 0]) ∧ exec .idcode s = .next (tap .idcode [.tdo 32 idcode]) ∧ exec .tapReset s = .next (tap .idcode []) ∧
        exec (.samplePreload pins preload) s = .next { tap .samplePreload [.tdo scanCells (pins % 2 ^ scanCells)] with
          sys := { s.sys with tap := { s.sys.tap with instr := .samplePreload, scan := preload % 2 ^ scanCells } } } ∧
        (¬ barred → exec .extest s = .next (tap .extest [.scanPins s.sys.tap.scan]) ∧
          exec .clamp s = .next (tap .clamp [.scanPins s.sys.tap.scan, .tdo 1 0])) ∧
        (barred → exec .extest s = .next (tap .bypass [.tdo 1 0]) ∧ exec .clamp s = .next (tap .bypass [.tdo 1 0])) ∧
        (s.flag Reg.cruStatusDebug = false → exec (.crsacc data address write ecc) s = .next (tap .bypass [.tdo 1 0])) ∧
        (s.flag Reg.cruStatusDebug = true →
          let a := address % 2 ^ 32
          let shifted := fun (n : Nat) => ({ s with out := s.out ++ [.tdo 66 n] } : State)
          let made := fun (u : State) (w : Bool) (a v : Nat) =>
            ({ u with sys := { u.sys with tap := { u.sys.tap with instr := .crsacc, last := some (w, a, v) } } } : State)
          (s.domUp 2 = false → exec (.crsacc data address write ecc) s = .next (made
            (shifted (2 ^ 65 + b2n (s.sys.tap.last.getD (false, 0, 0)).1 * 2 ^ 64 + 0xFFFFFFFF * 2 ^ 32)) write 0xFFFFFFFF 0)) ∧
          (s.domUp 2 = true → ∀ c, c = (match s.sys.tap.last with
              | none => 0
              | some (w, b, d) => 2 ^ 65 + b2n w * 2 ^ 64 + b % 2 ^ 32 * 2 ^ 32 + d % 2 ^ 32) →
            (write = true → ∃ u, exec (.registerWrite 1 a (data % 2 ^ 32) 0) (shifted c) = .next u ∧
              exec (.crsacc data address write ecc) s = .next (made u true a (data % 2 ^ 32))) ∧
            (write = false → let r := (shifted c).readWord 1 .debug a ecc
              exec (.crsacc data address write ecc) s = .next (made r.1 false a r.2)) ∧
            (fieldsAt a = [] → strikeAddr a = false → ∃ t, exec (.crsacc data address write ecc) s = .next t ∧ SameRegsBut [Reg.idRefused] s t ∧
              Counted s t Reg.idRefused ∧ t.sys.tap.last = some (write, a, if write then data % 2 ^ 32 else 0))))))

/-- R11 to R13, R447, R514 to R517, R526. On a path that may make the access: a write to a hole, or to fields above its level, is counted
and changes nothing else; a write of the locked CAD.CTRL below
the firmware level is counted and changes nothing else; SCRATCH takes its word; a 1 clears a bit of RST.CAUSE unless
an event acts on it in that cycle, and a 0 leaves it. A read clears the RC fields it reads and changes no other register; a refused one
clears nothing and is counted; a read of a _LO word latches its _HI word, and a refused one drops the latch. A read of MEMWIN.DATA[0]
takes the granule, zero where it is poisoned or outside its space. CRS_READ and CRS_WRITE answer OK with their words, or BAD_ARGS for a bad
range. On a path that may not make the access, and at an address that a command does not name, the command has no effect. -/
def Obligations.RegistersAreAccessed : Prop :=
  ∀ (s : State),
    let refused := s.put Reg.idRefused (min (s.get Reg.idRefused + 1) (2 ^ Reg.idRefused.w - 1))
    (∀ path a v e ecc, (s.pathLevel path true = none → exec (.registerWrite path a v e) s = .next s) ∧
      (s.pathLevel path false = none → exec (.rcRead path a) s = .next s ∧ exec (.loReadLatch path a) s = .next s ∧ exec (.memwinSnapshot path ecc) s = .next s) ∧
      (isLo a = false → exec (.loReadLatch path a) s = .next s) ∧ ((∀ f ∈ fieldsAt a, f.acc ≠ .rc) → exec (.rcRead path a) s = .next s)) ∧
    (∀ path lv a v e, s.pathLevel path true = some lv →
      (∃ t, exec (.registerWrite path a v e) s = .next t) ∧
      (fieldsAt a = [] → strikeAddr a = false → exec (.registerWrite path a v e) s = .next refused) ∧
      (∀ i, i < 4 → v < 2 ^ 32 → exec (.registerWrite path (0x20 + 4 * i) v e) s = .next (s.put (Reg.idScratch i) v)) ∧
      (strikeAddr a = false → fieldsAt a ≠ [] → (∀ f ∈ fieldsAt a, lv.rank < f.wr.rank) → exec (.registerWrite path a v e) s = .next refused) ∧
      (lv ≠ .firmware → s.billet.isSome = true → ∃ t, exec (.registerWrite path 0x30000 v e) s = .next t ∧ SameRegsBut [Reg.idRefused] s t ∧
        t.get Reg.idRefused = min (s.get Reg.idRefused + 1) (2 ^ Reg.idRefused.w - 1) ∧ SameButRegs s t) ∧
      (∃ t, exec (.registerWrite path 0x10000 v e) s = .next t ∧ ∀ b, b < 10 → s.get (causeFld b) < 2 →
        t.get (causeFld b) = if bit v b && !bit e b then 0 else s.get (causeFld b))) ∧
    (∀ path lv, s.pathLevel path false = some lv →
      (∀ a, strikeAddr a = false → a ≠ 0x80 → (∀ f ∈ fieldsAt a, f.rd.rank ≤ lv.rank) →
        ((∃ f ∈ fieldsAt a, f.acc = .rc) → ∃ t, exec (.rcRead path a) s = .next t ∧ SameRegsBut (fieldsAt a) s t ∧ { t with regs := s.regs, sys := s.sys } = s ∧
          (isLo a = false → SameButRegs s t) ∧ ∀ f ∈ fieldsAt a, t.get f = if f.acc = .rc ∧ s.heldField f = false then 0 else s.get f) ∧
        (isLo a = true → fieldsAt a ≠ [] → ∃ t, exec (.loReadLatch path a) s = .next t ∧ { t with regs := s.regs, sys := s.sys } = s ∧ SameRegsBut (fieldsAt a) s t ∧
          (∀ f ∈ fieldsAt a, t.get f = if f.acc = .rc ∧ s.heldField f = false then 0 else s.get f) ∧
          Assoc.find? (t.bank path).latches (a + 4) = some (((fieldsAt a).foldl State.clearRc s).wordView path lv (a + 4)))) ∧
      (∀ a, strikeAddr a = false → (∃ f ∈ fieldsAt a, lv.rank < f.rd.rank) →
        ((∃ f ∈ fieldsAt a, f.acc = .rc) → isLo a = false → exec (.rcRead path a) s = .next refused) ∧
        (isLo a = true → ∃ t, exec (.loReadLatch path a) s = .next t ∧ Assoc.find? (t.bank path).latches (a + 4) = none ∧
          t.get Reg.idRefused = min (s.get Reg.idRefused + 1) (2 ^ Reg.idRefused.w - 1) ∧ SameRegsBut [Reg.idRefused] s t ∧ { t with regs := s.regs, sys := s.sys } = s)) ∧
      (∀ ecc, (lv = .owner → exec (.memwinSnapshot path ecc) s = .next refused) ∧
        (lv ≠ .owner → ∃ t, exec (.memwinSnapshot path ecc) s = .next t ∧
          let b := s.bank path
          let a := (b.memLo + 2 ^ 32 * b.memHi) / 64 * 64
          let u := if b.memSpace = 2 ∧ a < hbmBytes then s.hbmChecks a 64 ecc else if b.memSpace = 3 then s.stockChecks a 64 ecc else s
          let shows := fun (bad range : Bool) (l : List Byte) =>
            (t.bank path).memPoison = bad ∧ (t.bank path).memRange = range ∧ (t.bank path).snap = if bad then [] else l
          SameBytes s t ∧ { t with sys := u.sys } = u ∧
          (b.memSpace < 2 → a < hearthBytes → shows ((s.hearth b.memSpace).isBad a 64) false ((s.hearth b.memSpace).readBytes a 64)) ∧
          (b.memSpace = 2 → a < hbmBytes → shows (u.hbmBad a 64) false (s.hbm.readBytes a 64)) ∧
          (b.memSpace = 3 → shows (u.stockBad a 64) false (s.stock.readBytes a 64)) ∧
          ((b.memSpace < 2 ∧ hearthBytes ≤ a) ∨ (b.memSpace = 2 ∧ hbmBytes ≤ a) ∨ 4 ≤ b.memSpace → shows false true [])))) ∧
    (∀ n x ecc, let a := fieldAt x.arg 0 4
      let k := fieldAt x.arg 4 2
      let bad := a % 4 ≠ 0 ∨ 2 ^ 32 < a + 4 * k
      let lv := s.sessionLevel x.level
      (Starts s n 0x0304 x → bad → ∃ t, exec (.crsRead n ecc) s = .next t ∧ Finished s t x rcBadArgs [] ∧ { t with mbx := s.mbx, jnl := s.jnl } = s) ∧
      (Starts s n 0x0304 x → ¬ bad → ∃ t r, exec (.crsRead n ecc) s = .next t ∧ r = (s.readWords (2 + x.session) lv ecc a k).2.flatMap (leBytes 4) ∧ r.length = 4 * k ∧
        (k = 1 → r = leBytes 4 (s.readWord (2 + x.session) lv a ecc).2) ∧ (ecc = [] ∨ a + 4 * k ≤ 0x80 ∨ 0x80 < a → Finished s t x rcOk r ∧ SameBytes s t)) ∧
      (Starts s n 0x0305 x → bad → ∃ t, exec (.crsWrite n) s = .next t ∧ Finished s t x rcBadArgs [] ∧ { t with mbx := s.mbx, jnl := s.jnl } = s) ∧
      (Starts s n 0x0305 x → ¬ bad → ∃ t, exec (.crsWrite n) s = .next t ∧
        (k = 1 → t = (s.writeWord (2 + x.session) lv a (fieldAt x.arg 8 4) 0).finish x rcOk []) ∧
        (a = 0x20 → k ≤ 4 → Finished s t x rcOk [] ∧ SameBytes s t ∧ ∀ i, i < k → t.get (Reg.idScratch i) = fieldAt x.arg (8 + 4 * i) 4)))
/-! ## The machine -/

/-- A step takes the command at the front of the queue, runs it with the queue's rest and answers its outcome; on an empty queue the
block idles (the model's choice, notes/assumptions/2). -/
def Obligations.StepRunsFront : Prop :=
  ∀ (c : Instr) (s : State) (rest : List Instr), step { s with pending := c :: rest } = exec c { s with pending := rest } ∧
    step { s with pending := [] } = .next { s with pending := [] }

/-- R12, R479, R493: at reset every register holds its Reset value, the memories list nothing and are canonical, the device
is Blank with no domain released and no power, and no billet, session, slot, stream, journal entry, command or message is held. What
reads 0 or is empty where no rule gives a value is the model's choice (notes/assumptions/5). -/
def Obligations.ResetState : Prop :=
  let s := State.reset
  s.memOk = true ∧ (∀ f : Fld, s.get f = f.rst) ∧ (∀ k a, k < 4 → (s.memOf k).read a = 0) ∧ s.life = .blank ∧ s.pending = [] ∧ s.out = [] ∧
  s.sys.rails = false ∧ s.sys.por = true ∧ (∀ d, d < 28 → s.domUp d = false) ∧ s.sys.bootDue = true ∧ s.billet = none ∧ s.seed = none ∧
  s.mbx.sessions = [] ∧ s.mbx.slots = [] ∧ s.mbx.queue = [] ∧ s.mbx.running = none ∧ s.faultQ = [] ∧ s.sys.summary = none ∧
  s.cad.own = [] ∧ s.cad.active = false ∧ s.cad.angle = 0 ∧ s.netStreams = [] ∧ s.blmStreams = [] ∧ s.stash = [] ∧ s.hbmPoison = [] ∧
  s.stockPoison = [] ∧ (∀ n, (s.core n).run = Core.init.run ∧ (s.core n).queue = []) ∧ (∀ p, s.port p = Port.init)

/-- The four memories stay in their canonical form: whatever the state and the command at the front of its queue, a step from a state
whose memories are in canonical form leads to one whose memories are. -/
def Obligations.MemoryStaysCanonical : Prop :=
  ∀ (s t : State), s.memOk = true → step s = .next t → t.memOk = true
end

