-- ==== Sys2Proof/Laws/Assoc.lean ====
section
/-!
SUPPORT. Laws/Assoc.lean: what a table and a memory read after a write, and that every operation on them keeps the canonical
form. -/

namespace Sys2Proof.Machine

namespace Assoc

variable {α : Type}

@[simp] theorem get_nil (d : α) (k : Nat) : get d [] k = d := rfl

theorem get_del_same (d : α) (l : List (Nat × α)) (k : Nat) : get d (del l k) k = d := by
  induction l with
  | nil => rfl
  | cons p r ih =>
    obtain ⟨j, v⟩ := p
    by_cases h : j = k
    · subst h; simpa [del] using ih
    · simpa [del, List.filter_cons, h, get] using ih

theorem get_del_ne (d : α) (l : List (Nat × α)) {j k : Nat} (h : j ≠ k) : get d (del l k) j = get d l j := by
  induction l with
  | nil => rfl
  | cons p r ih =>
    obtain ⟨i, v⟩ := p
    by_cases hk : i = k
    · subst hk
      have : ¬ i = j := fun e => h e.symm
      simpa [del, get, this] using ih
    · by_cases hj : i = j
      · subst hj; simp [del, hk, get]
      · simpa [del, List.filter_cons, hk, hj, get] using ih

theorem get_put_same (d : α) (l : List (Nat × α)) (k : Nat) (v : α) : get d (put l k v) k = v := by
  induction l with
  | nil => simp [put, get]
  | cons p r ih =>
    obtain ⟨i, w⟩ := p
    unfold put
    split
    · simp [get]
    · split
      · simp [get]
      · rename_i h1 h2
        have : ¬ i = k := fun e => h2 e.symm
        simpa [get, this] using ih

theorem get_put_ne (d : α) (l : List (Nat × α)) {j k : Nat} (v : α) (h : j ≠ k) : get d (put l k v) j = get d l j := by
  have hk : ¬ k = j := fun e => h e.symm
  induction l with
  | nil => simp [put, get, hk]
  | cons p r ih =>
    obtain ⟨i, w⟩ := p
    unfold put
    split
    · simp [get, hk]
    · split
      · rename_i h1 h2; subst h2; simp [get, hk]
      · by_cases hj : i = j
        · simp [get, hj]
        · simpa [get, hj] using ih

variable [DecidableEq α]

/-- A key reads the value written to it. -/
@[simp] theorem get_set_same (d : α) (l : List (Nat × α)) (k : Nat) (v : α) : get d (set d l k v) k = v := by
  unfold set
  split
  · rename_i h; rw [get_del_same, h]
  · exact get_put_same d l k v

/-- Every other key reads as before. -/
theorem get_set_ne (d e : α) (l : List (Nat × α)) {j k : Nat} (v : α) (h : j ≠ k) : get d (set e l k v) j = get d l j := by
  unfold set
  split
  · exact get_del_ne d l h
  · exact get_put_ne d l v h

/-! ## The canonical form -/

omit [DecidableEq α] in
theorem rising_iff (l : List (Nat × α)) : rising l = true ↔ l.Pairwise (fun p q => p.1 < q.1) := by
  induction l with
  | nil => simp [rising]
  | cons p r ih =>
    cases r with
    | nil => obtain ⟨j, v⟩ := p; simp [rising]
    | cons q t =>
      obtain ⟨j, v⟩ := p
      obtain ⟨k, w⟩ := q
      simp only [rising, Bool.and_eq_true, decide_eq_true_eq, ih]
      constructor
      · rintro ⟨h1, h2⟩
        refine List.pairwise_cons.2 ⟨?_, h2⟩
        intro x hx
        rcases List.mem_cons.1 hx with rfl | hx
        · exact h1
        · exact lt_trans h1 ((List.pairwise_cons.1 h2).1 x hx)
      · intro h
        exact ⟨(List.pairwise_cons.1 h).1 (k, w) (by simp), (List.pairwise_cons.1 h).2⟩

omit [DecidableEq α] in
theorem mem_put {l : List (Nat × α)} {k : Nat} {v : α} {p : Nat × α} (h : p ∈ put l k v) : p = (k, v) ∨ p ∈ l := by
  induction l with
  | nil => simpa [put] using h
  | cons q r ih =>
    obtain ⟨i, w⟩ := q
    unfold put at h
    split at h
    · simpa using h
    · split at h
      · rcases List.mem_cons.1 h with h | h
        · exact .inl h
        · exact .inr (List.mem_cons_of_mem _ h)
      · rcases List.mem_cons.1 h with h | h
        · exact .inr (by simp [h])
        · rcases ih h with h | h
          · exact .inl h
          · exact .inr (List.mem_cons_of_mem _ h)

omit [DecidableEq α] in
theorem pairwise_put {l : List (Nat × α)} (k : Nat) (v : α) (h : l.Pairwise (fun p q => p.1 < q.1)) :
    (put l k v).Pairwise (fun p q => p.1 < q.1) := by
  induction l with
  | nil => simp [put]
  | cons q r ih =>
    obtain ⟨i, w⟩ := q
    obtain ⟨h1, h2⟩ := List.pairwise_cons.1 h
    unfold put
    split
    · rename_i hk
      refine List.pairwise_cons.2 ⟨?_, h⟩
      intro x hx
      rcases List.mem_cons.1 hx with rfl | hx
      · exact hk
      · exact lt_trans hk (h1 x hx)
    · split
      · rename_i hk; subst hk
        exact List.pairwise_cons.2 ⟨fun x hx => h1 x hx, h2⟩
      · rename_i hk hne
        refine List.pairwise_cons.2 ⟨?_, ih h2⟩
        intro x hx
        rcases mem_put hx with rfl | hx
        · exact lt_of_le_of_ne (not_lt.1 hk) (fun e => hne e.symm)
        · exact h1 x hx

theorem wf_iff (d : α) (l : List (Nat × α)) :
    wf d l = true ↔ l.Pairwise (fun p q => p.1 < q.1) ∧ ∀ p ∈ l, p.2 ≠ d := by
  simp [wf, rising_iff, List.all_eq_true]

/-- Dropping entries keeps the canonical form. -/
theorem wf_filter (d : α) {l : List (Nat × α)} (f : Nat × α → Bool) (h : wf d l = true) : wf d (l.filter f) = true := by
  rw [wf_iff] at *
  exact ⟨h.1.filter f, fun p hp => h.2 p (List.mem_filter.1 hp).1⟩

/-- A write keeps the canonical form. -/
theorem wf_set (d : α) {l : List (Nat × α)} (k : Nat) (v : α) (h : wf d l = true) : wf d (set d l k v) = true := by
  unfold set
  split
  · exact wf_filter d _ h
  · rename_i hv
    rw [wf_iff] at *
    refine ⟨pairwise_put k v h.1, fun p hp => ?_⟩
    rcases mem_put hp with rfl | hp
    · exact hv
    · exact h.2 p hp

end Assoc

/-! ## Rising numbers -/

theorem risingNat_iff (l : List Nat) : risingNat l = true ↔ l.Pairwise (· < ·) := by
  induction l with
  | nil => simp [risingNat]
  | cons p r ih =>
    cases r with
    | nil => simp [risingNat]
    | cons q t =>
      simp only [risingNat, Bool.and_eq_true, decide_eq_true_eq, ih]
      constructor
      · rintro ⟨h1, h2⟩
        refine List.pairwise_cons.2 ⟨?_, h2⟩
        intro x hx
        rcases List.mem_cons.1 hx with rfl | hx
        · exact h1
        · exact lt_trans h1 ((List.pairwise_cons.1 h2).1 x hx)
      · intro h
        exact ⟨(List.pairwise_cons.1 h).1 q (by simp), (List.pairwise_cons.1 h).2⟩

theorem mem_insertNat {a x : Nat} {l : List Nat} (h : x ∈ insertNat a l) : x = a ∨ x ∈ l := by
  induction l with
  | nil => simpa [insertNat] using h
  | cons b r ih =>
    unfold insertNat at h
    split at h
    · simpa using h
    · split at h
      · exact .inr h
      · rcases List.mem_cons.1 h with h | h
        · exact .inr (by simp [h])
        · rcases ih h with h | h
          · exact .inl h
          · exact .inr (List.mem_cons_of_mem _ h)

/-- Inserting keeps a rising list rising. -/
theorem risingNat_insert (a : Nat) {l : List Nat} (h : risingNat l = true) : risingNat (insertNat a l) = true := by
  rw [risingNat_iff] at *
  induction l with
  | nil => simp [insertNat]
  | cons b r ih =>
    obtain ⟨h1, h2⟩ := List.pairwise_cons.1 h
    unfold insertNat
    split
    · rename_i hk
      refine List.pairwise_cons.2 ⟨?_, h⟩
      intro x hx
      rcases List.mem_cons.1 hx with rfl | hx
      · exact hk
      · exact lt_trans hk (h1 x hx)
    · split
      · exact h
      · rename_i hk hne
        refine List.pairwise_cons.2 ⟨?_, ih h2⟩
        intro x hx
        rcases mem_insertNat hx with rfl | hx
        · exact lt_of_le_of_ne (not_lt.1 hk) (fun e => hne e.symm)
        · exact h1 x hx

/-- Dropping keeps a rising list rising. -/
theorem risingNat_filter (f : Nat → Bool) {l : List Nat} (h : risingNat l = true) : risingNat (l.filter f) = true := by
  rw [risingNat_iff] at *
  exact h.filter f

/-! ## Memories -/

namespace Memory

/-- A byte written reads back, and every other byte reads as before. -/
theorem read_write (m : Memory) (a x : Nat) (b : Byte) : (m.write a b).read x = if x = a then b else m.read x := by
  unfold write read
  split
  · rename_i h; subst h; simp
  · rename_i h; exact Assoc.get_set_ne _ _ _ _ h

/-- Bytes outside a string that is written read as before. -/
theorem read_writeBytes_of_lt (m : Memory) (l : List Byte) (a x : Nat) (h : x < a) : (m.writeBytes a l).read x = m.read x := by
  induction l generalizing m a with
  | nil => rfl
  | cons b r ih =>
    have h1 : x ≠ a := Nat.ne_of_lt h
    rw [writeBytes, ih _ _ (Nat.lt_succ_of_lt h), read_write, if_neg h1]

/-- Bytes outside a string that is written read as before. -/
theorem read_writeBytes_of_ge (m : Memory) (l : List Byte) (a x : Nat) (h : a + l.length ≤ x) :
    (m.writeBytes a l).read x = m.read x := by
  induction l generalizing m a with
  | nil => rfl
  | cons b r ih =>
    simp only [List.length_cons] at h
    rw [writeBytes, ih _ _ (by omega), read_write, if_neg (by omega)]

/-- Byte `i` of a string that is written reads back. -/
theorem read_writeBytes (m : Memory) (l : List Byte) (a i : Nat) (h : i < l.length) :
    (m.writeBytes a l).read (a + i) = l[i] := by
  induction l generalizing m a i with
  | nil => simp at h
  | cons b r ih =>
    cases i with
    | zero =>
      have e : a < a + 1 := Nat.lt_succ_self a
      show ((m.write a b).writeBytes (a + 1) r).read a = b
      rw [read_writeBytes_of_lt _ r (a + 1) a e, read_write, if_pos rfl]
    | succ j =>
      have hj : j < r.length := by simpa using h
      have e : a + (j + 1) = a + 1 + j := by omega
      rw [writeBytes, e, ih _ _ _ hj]; rfl

theorem wf_iff (m : Memory) : m.wf = true ↔ Assoc.wf 0#8 m.cells = true ∧ risingNat m.bad = true := by simp [wf]

theorem wf_empty : empty.wf = true := by decide

/-- A byte written keeps the canonical form. -/
theorem wf_write {m : Memory} (a : Nat) (b : Byte) (h : m.wf = true) : (m.write a b).wf = true := by
  rw [wf_iff] at *
  exact ⟨Assoc.wf_set _ _ _ h.1, risingNat_filter _ h.2⟩

/-- A string written keeps the canonical form. -/
theorem wf_writeBytes {m : Memory} (a : Nat) (l : List Byte) (h : m.wf = true) : (m.writeBytes a l).wf = true := by
  induction l generalizing m a with
  | nil => exact h
  | cons b r ih => exact ih _ (wf_write a b h)

/-- A number written keeps the canonical form. -/
theorem wf_writeLE {m : Memory} (a n v : Nat) (h : m.wf = true) : (m.writeLE a n v).wf = true := wf_writeBytes a _ h

/-- Bytes cleared keep the canonical form. -/
theorem wf_clear {m : Memory} (a len : Nat) (h : m.wf = true) : (m.clear a len).wf = true := by
  rw [wf_iff] at *
  exact ⟨Assoc.wf_filter _ _ h.1, risingNat_filter _ h.2⟩

/-- Poison keeps the canonical form. -/
theorem wf_poison {m : Memory} (a len : Nat) (h : m.wf = true) : (m.poison a len).wf = true := by
  induction len generalizing m a with
  | zero => exact h
  | succ k ih =>
    refine ih (a + 1) ?_
    rw [wf_iff] at *
    exact ⟨h.1, risingNat_insert a h.2⟩

end Memory

end Sys2Proof.Machine
end

