-- ==== Sys2Proof/Laws/State.lean ====
section
/-!
SUPPORT. Laws/State.lean: each named update of the state, field by field: what it leaves as it was, and what a register reads
after it. -/

namespace Sys2Proof.Machine

namespace State

@[simp] theorem put_hearth0 (s : State) (f : Fld) (v : Nat) : (s.put f v).hearth0 = s.hearth0 := rfl
@[simp] theorem put_hearth1 (s : State) (f : Fld) (v : Nat) : (s.put f v).hearth1 = s.hearth1 := rfl
@[simp] theorem put_hbm (s : State) (f : Fld) (v : Nat) : (s.put f v).hbm = s.hbm := rfl
@[simp] theorem put_stock (s : State) (f : Fld) (v : Nat) : (s.put f v).stock = s.stock := rfl
@[simp] theorem put_life (s : State) (f : Fld) (v : Nat) : (s.put f v).life = s.life := rfl
@[simp] theorem put_cad (s : State) (f : Fld) (v : Nat) : (s.put f v).cad = s.cad := rfl
@[simp] theorem put_cores (s : State) (f : Fld) (v : Nat) : (s.put f v).cores = s.cores := rfl
@[simp] theorem put_haloRows (s : State) (f : Fld) (v : Nat) : (s.put f v).haloRows = s.haloRows := rfl
@[simp] theorem put_haloCredits (s : State) (f : Fld) (v : Nat) : (s.put f v).haloCredits = s.haloCredits := rfl
@[simp] theorem put_kvp (s : State) (f : Fld) (v : Nat) : (s.put f v).kvp = s.kvp := rfl
@[simp] theorem put_netStreams (s : State) (f : Fld) (v : Nat) : (s.put f v).netStreams = s.netStreams := rfl
@[simp] theorem put_blmStreams (s : State) (f : Fld) (v : Nat) : (s.put f v).blmStreams = s.blmStreams := rfl
@[simp] theorem put_stash (s : State) (f : Fld) (v : Nat) : (s.put f v).stash = s.stash := rfl
@[simp] theorem put_spills (s : State) (f : Fld) (v : Nat) : (s.put f v).spills = s.spills := rfl
@[simp] theorem put_fetches (s : State) (f : Fld) (v : Nat) : (s.put f v).fetches = s.fetches := rfl
@[simp] theorem put_stashFree (s : State) (f : Fld) (v : Nat) : (s.put f v).stashFree = s.stashFree := rfl
@[simp] theorem put_hands (s : State) (f : Fld) (v : Nat) : (s.put f v).hands = s.hands := rfl
@[simp] theorem put_bucketFill (s : State) (f : Fld) (v : Nat) : (s.put f v).bucketFill = s.bucketFill := rfl
@[simp] theorem put_caps (s : State) (f : Fld) (v : Nat) : (s.put f v).caps = s.caps := rfl
@[simp] theorem put_captures (s : State) (f : Fld) (v : Nat) : (s.put f v).captures = s.captures := rfl
@[simp] theorem put_hbmPoison (s : State) (f : Fld) (v : Nat) : (s.put f v).hbmPoison = s.hbmPoison := rfl
@[simp] theorem put_stockPoison (s : State) (f : Fld) (v : Nat) : (s.put f v).stockPoison = s.stockPoison := rfl
@[simp] theorem put_ports (s : State) (f : Fld) (v : Nat) : (s.put f v).ports = s.ports := rfl
@[simp] theorem put_net (s : State) (f : Fld) (v : Nat) : (s.put f v).net = s.net := rfl
@[simp] theorem put_tmp (s : State) (f : Fld) (v : Nat) : (s.put f v).tmp = s.tmp := rfl
@[simp] theorem put_blm (s : State) (f : Fld) (v : Nat) : (s.put f v).blm = s.blm := rfl
@[simp] theorem put_mbx (s : State) (f : Fld) (v : Nat) : (s.put f v).mbx = s.mbx := rfl
@[simp] theorem put_jnl (s : State) (f : Fld) (v : Nat) : (s.put f v).jnl = s.jnl := rfl
@[simp] theorem put_cru (s : State) (f : Fld) (v : Nat) : (s.put f v).cru = s.cru := rfl
@[simp] theorem put_seed (s : State) (f : Fld) (v : Nat) : (s.put f v).seed = s.seed := rfl
@[simp] theorem put_ing (s : State) (f : Fld) (v : Nat) : (s.put f v).ing = s.ing := rfl
@[simp] theorem put_faultQ (s : State) (f : Fld) (v : Nat) : (s.put f v).faultQ = s.faultQ := rfl
@[simp] theorem put_sys (s : State) (f : Fld) (v : Nat) : (s.put f v).sys = s.sys := rfl
@[simp] theorem put_billet (s : State) (f : Fld) (v : Nat) : (s.put f v).billet = s.billet := rfl
@[simp] theorem put_out (s : State) (f : Fld) (v : Nat) : (s.put f v).out = s.out := rfl
@[simp] theorem put_freeCtr (s : State) (f : Fld) (v : Nat) : (s.put f v).freeCtr = s.freeCtr := rfl
@[simp] theorem put_pending (s : State) (f : Fld) (v : Nat) : (s.put f v).pending = s.pending := rfl

@[simp] theorem count_hearth0 (s : State) (f : Fld) (k : Nat) : (s.count f k).hearth0 = s.hearth0 := rfl
@[simp] theorem count_hearth1 (s : State) (f : Fld) (k : Nat) : (s.count f k).hearth1 = s.hearth1 := rfl
@[simp] theorem count_hbm (s : State) (f : Fld) (k : Nat) : (s.count f k).hbm = s.hbm := rfl
@[simp] theorem count_stock (s : State) (f : Fld) (k : Nat) : (s.count f k).stock = s.stock := rfl
@[simp] theorem count_life (s : State) (f : Fld) (k : Nat) : (s.count f k).life = s.life := rfl
@[simp] theorem count_cad (s : State) (f : Fld) (k : Nat) : (s.count f k).cad = s.cad := rfl
@[simp] theorem count_cores (s : State) (f : Fld) (k : Nat) : (s.count f k).cores = s.cores := rfl
@[simp] theorem count_haloRows (s : State) (f : Fld) (k : Nat) : (s.count f k).haloRows = s.haloRows := rfl
@[simp] theorem count_haloCredits (s : State) (f : Fld) (k : Nat) : (s.count f k).haloCredits = s.haloCredits := rfl
@[simp] theorem count_kvp (s : State) (f : Fld) (k : Nat) : (s.count f k).kvp = s.kvp := rfl
@[simp] theorem count_netStreams (s : State) (f : Fld) (k : Nat) : (s.count f k).netStreams = s.netStreams := rfl
@[simp] theorem count_blmStreams (s : State) (f : Fld) (k : Nat) : (s.count f k).blmStreams = s.blmStreams := rfl
@[simp] theorem count_stash (s : State) (f : Fld) (k : Nat) : (s.count f k).stash = s.stash := rfl
@[simp] theorem count_spills (s : State) (f : Fld) (k : Nat) : (s.count f k).spills = s.spills := rfl
@[simp] theorem count_fetches (s : State) (f : Fld) (k : Nat) : (s.count f k).fetches = s.fetches := rfl
@[simp] theorem count_stashFree (s : State) (f : Fld) (k : Nat) : (s.count f k).stashFree = s.stashFree := rfl
@[simp] theorem count_hands (s : State) (f : Fld) (k : Nat) : (s.count f k).hands = s.hands := rfl
@[simp] theorem count_bucketFill (s : State) (f : Fld) (k : Nat) : (s.count f k).bucketFill = s.bucketFill := rfl
@[simp] theorem count_caps (s : State) (f : Fld) (k : Nat) : (s.count f k).caps = s.caps := rfl
@[simp] theorem count_captures (s : State) (f : Fld) (k : Nat) : (s.count f k).captures = s.captures := rfl
@[simp] theorem count_hbmPoison (s : State) (f : Fld) (k : Nat) : (s.count f k).hbmPoison = s.hbmPoison := rfl
@[simp] theorem count_stockPoison (s : State) (f : Fld) (k : Nat) : (s.count f k).stockPoison = s.stockPoison := rfl
@[simp] theorem count_ports (s : State) (f : Fld) (k : Nat) : (s.count f k).ports = s.ports := rfl
@[simp] theorem count_net (s : State) (f : Fld) (k : Nat) : (s.count f k).net = s.net := rfl
@[simp] theorem count_tmp (s : State) (f : Fld) (k : Nat) : (s.count f k).tmp = s.tmp := rfl
@[simp] theorem count_blm (s : State) (f : Fld) (k : Nat) : (s.count f k).blm = s.blm := rfl
@[simp] theorem count_mbx (s : State) (f : Fld) (k : Nat) : (s.count f k).mbx = s.mbx := rfl
@[simp] theorem count_jnl (s : State) (f : Fld) (k : Nat) : (s.count f k).jnl = s.jnl := rfl
@[simp] theorem count_cru (s : State) (f : Fld) (k : Nat) : (s.count f k).cru = s.cru := rfl
@[simp] theorem count_seed (s : State) (f : Fld) (k : Nat) : (s.count f k).seed = s.seed := rfl
@[simp] theorem count_ing (s : State) (f : Fld) (k : Nat) : (s.count f k).ing = s.ing := rfl
@[simp] theorem count_faultQ (s : State) (f : Fld) (k : Nat) : (s.count f k).faultQ = s.faultQ := rfl
@[simp] theorem count_sys (s : State) (f : Fld) (k : Nat) : (s.count f k).sys = s.sys := rfl
@[simp] theorem count_billet (s : State) (f : Fld) (k : Nat) : (s.count f k).billet = s.billet := rfl
@[simp] theorem count_out (s : State) (f : Fld) (k : Nat) : (s.count f k).out = s.out := rfl
@[simp] theorem count_freeCtr (s : State) (f : Fld) (k : Nat) : (s.count f k).freeCtr = s.freeCtr := rfl
@[simp] theorem count_pending (s : State) (f : Fld) (k : Nat) : (s.count f k).pending = s.pending := rfl

@[simp] theorem uncount_hearth0 (s : State) (f : Fld) (k : Nat) : (s.uncount f k).hearth0 = s.hearth0 := rfl
@[simp] theorem uncount_hearth1 (s : State) (f : Fld) (k : Nat) : (s.uncount f k).hearth1 = s.hearth1 := rfl
@[simp] theorem uncount_hbm (s : State) (f : Fld) (k : Nat) : (s.uncount f k).hbm = s.hbm := rfl
@[simp] theorem uncount_stock (s : State) (f : Fld) (k : Nat) : (s.uncount f k).stock = s.stock := rfl
@[simp] theorem uncount_life (s : State) (f : Fld) (k : Nat) : (s.uncount f k).life = s.life := rfl
@[simp] theorem uncount_cad (s : State) (f : Fld) (k : Nat) : (s.uncount f k).cad = s.cad := rfl
@[simp] theorem uncount_cores (s : State) (f : Fld) (k : Nat) : (s.uncount f k).cores = s.cores := rfl
@[simp] theorem uncount_haloRows (s : State) (f : Fld) (k : Nat) : (s.uncount f k).haloRows = s.haloRows := rfl
@[simp] theorem uncount_haloCredits (s : State) (f : Fld) (k : Nat) : (s.uncount f k).haloCredits = s.haloCredits := rfl
@[simp] theorem uncount_kvp (s : State) (f : Fld) (k : Nat) : (s.uncount f k).kvp = s.kvp := rfl
@[simp] theorem uncount_netStreams (s : State) (f : Fld) (k : Nat) : (s.uncount f k).netStreams = s.netStreams := rfl
@[simp] theorem uncount_blmStreams (s : State) (f : Fld) (k : Nat) : (s.uncount f k).blmStreams = s.blmStreams := rfl
@[simp] theorem uncount_stash (s : State) (f : Fld) (k : Nat) : (s.uncount f k).stash = s.stash := rfl
@[simp] theorem uncount_spills (s : State) (f : Fld) (k : Nat) : (s.uncount f k).spills = s.spills := rfl
@[simp] theorem uncount_fetches (s : State) (f : Fld) (k : Nat) : (s.uncount f k).fetches = s.fetches := rfl
@[simp] theorem uncount_stashFree (s : State) (f : Fld) (k : Nat) : (s.uncount f k).stashFree = s.stashFree := rfl
@[simp] theorem uncount_hands (s : State) (f : Fld) (k : Nat) : (s.uncount f k).hands = s.hands := rfl
@[simp] theorem uncount_bucketFill (s : State) (f : Fld) (k : Nat) : (s.uncount f k).bucketFill = s.bucketFill := rfl
@[simp] theorem uncount_caps (s : State) (f : Fld) (k : Nat) : (s.uncount f k).caps = s.caps := rfl
@[simp] theorem uncount_captures (s : State) (f : Fld) (k : Nat) : (s.uncount f k).captures = s.captures := rfl
@[simp] theorem uncount_hbmPoison (s : State) (f : Fld) (k : Nat) : (s.uncount f k).hbmPoison = s.hbmPoison := rfl
@[simp] theorem uncount_stockPoison (s : State) (f : Fld) (k : Nat) : (s.uncount f k).stockPoison = s.stockPoison := rfl
@[simp] theorem uncount_ports (s : State) (f : Fld) (k : Nat) : (s.uncount f k).ports = s.ports := rfl
@[simp] theorem uncount_net (s : State) (f : Fld) (k : Nat) : (s.uncount f k).net = s.net := rfl
@[simp] theorem uncount_tmp (s : State) (f : Fld) (k : Nat) : (s.uncount f k).tmp = s.tmp := rfl
@[simp] theorem uncount_blm (s : State) (f : Fld) (k : Nat) : (s.uncount f k).blm = s.blm := rfl
@[simp] theorem uncount_mbx (s : State) (f : Fld) (k : Nat) : (s.uncount f k).mbx = s.mbx := rfl
@[simp] theorem uncount_jnl (s : State) (f : Fld) (k : Nat) : (s.uncount f k).jnl = s.jnl := rfl
@[simp] theorem uncount_cru (s : State) (f : Fld) (k : Nat) : (s.uncount f k).cru = s.cru := rfl
@[simp] theorem uncount_seed (s : State) (f : Fld) (k : Nat) : (s.uncount f k).seed = s.seed := rfl
@[simp] theorem uncount_ing (s : State) (f : Fld) (k : Nat) : (s.uncount f k).ing = s.ing := rfl
@[simp] theorem uncount_faultQ (s : State) (f : Fld) (k : Nat) : (s.uncount f k).faultQ = s.faultQ := rfl
@[simp] theorem uncount_sys (s : State) (f : Fld) (k : Nat) : (s.uncount f k).sys = s.sys := rfl
@[simp] theorem uncount_billet (s : State) (f : Fld) (k : Nat) : (s.uncount f k).billet = s.billet := rfl
@[simp] theorem uncount_out (s : State) (f : Fld) (k : Nat) : (s.uncount f k).out = s.out := rfl
@[simp] theorem uncount_freeCtr (s : State) (f : Fld) (k : Nat) : (s.uncount f k).freeCtr = s.freeCtr := rfl
@[simp] theorem uncount_pending (s : State) (f : Fld) (k : Nat) : (s.uncount f k).pending = s.pending := rfl

@[simp] theorem put64_hearth0 (s : State) (lo hi : Fld) (v : Nat) : (s.put64 lo hi v).hearth0 = s.hearth0 := rfl
@[simp] theorem put64_hearth1 (s : State) (lo hi : Fld) (v : Nat) : (s.put64 lo hi v).hearth1 = s.hearth1 := rfl
@[simp] theorem put64_hbm (s : State) (lo hi : Fld) (v : Nat) : (s.put64 lo hi v).hbm = s.hbm := rfl
@[simp] theorem put64_stock (s : State) (lo hi : Fld) (v : Nat) : (s.put64 lo hi v).stock = s.stock := rfl
@[simp] theorem put64_life (s : State) (lo hi : Fld) (v : Nat) : (s.put64 lo hi v).life = s.life := rfl
@[simp] theorem put64_cad (s : State) (lo hi : Fld) (v : Nat) : (s.put64 lo hi v).cad = s.cad := rfl
@[simp] theorem put64_cores (s : State) (lo hi : Fld) (v : Nat) : (s.put64 lo hi v).cores = s.cores := rfl
@[simp] theorem put64_haloRows (s : State) (lo hi : Fld) (v : Nat) : (s.put64 lo hi v).haloRows = s.haloRows := rfl
@[simp] theorem put64_haloCredits (s : State) (lo hi : Fld) (v : Nat) : (s.put64 lo hi v).haloCredits = s.haloCredits := rfl
@[simp] theorem put64_kvp (s : State) (lo hi : Fld) (v : Nat) : (s.put64 lo hi v).kvp = s.kvp := rfl
@[simp] theorem put64_netStreams (s : State) (lo hi : Fld) (v : Nat) : (s.put64 lo hi v).netStreams = s.netStreams := rfl
@[simp] theorem put64_blmStreams (s : State) (lo hi : Fld) (v : Nat) : (s.put64 lo hi v).blmStreams = s.blmStreams := rfl
@[simp] theorem put64_stash (s : State) (lo hi : Fld) (v : Nat) : (s.put64 lo hi v).stash = s.stash := rfl
@[simp] theorem put64_spills (s : State) (lo hi : Fld) (v : Nat) : (s.put64 lo hi v).spills = s.spills := rfl
@[simp] theorem put64_fetches (s : State) (lo hi : Fld) (v : Nat) : (s.put64 lo hi v).fetches = s.fetches := rfl
@[simp] theorem put64_stashFree (s : State) (lo hi : Fld) (v : Nat) : (s.put64 lo hi v).stashFree = s.stashFree := rfl
@[simp] theorem put64_hands (s : State) (lo hi : Fld) (v : Nat) : (s.put64 lo hi v).hands = s.hands := rfl
@[simp] theorem put64_bucketFill (s : State) (lo hi : Fld) (v : Nat) : (s.put64 lo hi v).bucketFill = s.bucketFill := rfl
@[simp] theorem put64_caps (s : State) (lo hi : Fld) (v : Nat) : (s.put64 lo hi v).caps = s.caps := rfl
@[simp] theorem put64_captures (s : State) (lo hi : Fld) (v : Nat) : (s.put64 lo hi v).captures = s.captures := rfl
@[simp] theorem put64_hbmPoison (s : State) (lo hi : Fld) (v : Nat) : (s.put64 lo hi v).hbmPoison = s.hbmPoison := rfl
@[simp] theorem put64_stockPoison (s : State) (lo hi : Fld) (v : Nat) : (s.put64 lo hi v).stockPoison = s.stockPoison := rfl
@[simp] theorem put64_ports (s : State) (lo hi : Fld) (v : Nat) : (s.put64 lo hi v).ports = s.ports := rfl
@[simp] theorem put64_net (s : State) (lo hi : Fld) (v : Nat) : (s.put64 lo hi v).net = s.net := rfl
@[simp] theorem put64_tmp (s : State) (lo hi : Fld) (v : Nat) : (s.put64 lo hi v).tmp = s.tmp := rfl
@[simp] theorem put64_blm (s : State) (lo hi : Fld) (v : Nat) : (s.put64 lo hi v).blm = s.blm := rfl
@[simp] theorem put64_mbx (s : State) (lo hi : Fld) (v : Nat) : (s.put64 lo hi v).mbx = s.mbx := rfl
@[simp] theorem put64_jnl (s : State) (lo hi : Fld) (v : Nat) : (s.put64 lo hi v).jnl = s.jnl := rfl
@[simp] theorem put64_cru (s : State) (lo hi : Fld) (v : Nat) : (s.put64 lo hi v).cru = s.cru := rfl
@[simp] theorem put64_seed (s : State) (lo hi : Fld) (v : Nat) : (s.put64 lo hi v).seed = s.seed := rfl
@[simp] theorem put64_ing (s : State) (lo hi : Fld) (v : Nat) : (s.put64 lo hi v).ing = s.ing := rfl
@[simp] theorem put64_faultQ (s : State) (lo hi : Fld) (v : Nat) : (s.put64 lo hi v).faultQ = s.faultQ := rfl
@[simp] theorem put64_sys (s : State) (lo hi : Fld) (v : Nat) : (s.put64 lo hi v).sys = s.sys := rfl
@[simp] theorem put64_billet (s : State) (lo hi : Fld) (v : Nat) : (s.put64 lo hi v).billet = s.billet := rfl
@[simp] theorem put64_out (s : State) (lo hi : Fld) (v : Nat) : (s.put64 lo hi v).out = s.out := rfl
@[simp] theorem put64_freeCtr (s : State) (lo hi : Fld) (v : Nat) : (s.put64 lo hi v).freeCtr = s.freeCtr := rfl
@[simp] theorem put64_pending (s : State) (lo hi : Fld) (v : Nat) : (s.put64 lo hi v).pending = s.pending := rfl

@[simp] theorem emit_regs (s : State) (o : Out) : (s.emit o).regs = s.regs := rfl
@[simp] theorem emit_hearth0 (s : State) (o : Out) : (s.emit o).hearth0 = s.hearth0 := rfl
@[simp] theorem emit_hearth1 (s : State) (o : Out) : (s.emit o).hearth1 = s.hearth1 := rfl
@[simp] theorem emit_hbm (s : State) (o : Out) : (s.emit o).hbm = s.hbm := rfl
@[simp] theorem emit_stock (s : State) (o : Out) : (s.emit o).stock = s.stock := rfl
@[simp] theorem emit_life (s : State) (o : Out) : (s.emit o).life = s.life := rfl
@[simp] theorem emit_cad (s : State) (o : Out) : (s.emit o).cad = s.cad := rfl
@[simp] theorem emit_cores (s : State) (o : Out) : (s.emit o).cores = s.cores := rfl
@[simp] theorem emit_haloRows (s : State) (o : Out) : (s.emit o).haloRows = s.haloRows := rfl
@[simp] theorem emit_haloCredits (s : State) (o : Out) : (s.emit o).haloCredits = s.haloCredits := rfl
@[simp] theorem emit_kvp (s : State) (o : Out) : (s.emit o).kvp = s.kvp := rfl
@[simp] theorem emit_netStreams (s : State) (o : Out) : (s.emit o).netStreams = s.netStreams := rfl
@[simp] theorem emit_blmStreams (s : State) (o : Out) : (s.emit o).blmStreams = s.blmStreams := rfl
@[simp] theorem emit_stash (s : State) (o : Out) : (s.emit o).stash = s.stash := rfl
@[simp] theorem emit_spills (s : State) (o : Out) : (s.emit o).spills = s.spills := rfl
@[simp] theorem emit_fetches (s : State) (o : Out) : (s.emit o).fetches = s.fetches := rfl
@[simp] theorem emit_stashFree (s : State) (o : Out) : (s.emit o).stashFree = s.stashFree := rfl
@[simp] theorem emit_hands (s : State) (o : Out) : (s.emit o).hands = s.hands := rfl
@[simp] theorem emit_bucketFill (s : State) (o : Out) : (s.emit o).bucketFill = s.bucketFill := rfl
@[simp] theorem emit_caps (s : State) (o : Out) : (s.emit o).caps = s.caps := rfl
@[simp] theorem emit_captures (s : State) (o : Out) : (s.emit o).captures = s.captures := rfl
@[simp] theorem emit_hbmPoison (s : State) (o : Out) : (s.emit o).hbmPoison = s.hbmPoison := rfl
@[simp] theorem emit_stockPoison (s : State) (o : Out) : (s.emit o).stockPoison = s.stockPoison := rfl
@[simp] theorem emit_ports (s : State) (o : Out) : (s.emit o).ports = s.ports := rfl
@[simp] theorem emit_net (s : State) (o : Out) : (s.emit o).net = s.net := rfl
@[simp] theorem emit_tmp (s : State) (o : Out) : (s.emit o).tmp = s.tmp := rfl
@[simp] theorem emit_blm (s : State) (o : Out) : (s.emit o).blm = s.blm := rfl
@[simp] theorem emit_mbx (s : State) (o : Out) : (s.emit o).mbx = s.mbx := rfl
@[simp] theorem emit_jnl (s : State) (o : Out) : (s.emit o).jnl = s.jnl := rfl
@[simp] theorem emit_cru (s : State) (o : Out) : (s.emit o).cru = s.cru := rfl
@[simp] theorem emit_seed (s : State) (o : Out) : (s.emit o).seed = s.seed := rfl
@[simp] theorem emit_ing (s : State) (o : Out) : (s.emit o).ing = s.ing := rfl
@[simp] theorem emit_faultQ (s : State) (o : Out) : (s.emit o).faultQ = s.faultQ := rfl
@[simp] theorem emit_sys (s : State) (o : Out) : (s.emit o).sys = s.sys := rfl
@[simp] theorem emit_billet (s : State) (o : Out) : (s.emit o).billet = s.billet := rfl
@[simp] theorem emit_freeCtr (s : State) (o : Out) : (s.emit o).freeCtr = s.freeCtr := rfl
@[simp] theorem emit_pending (s : State) (o : Out) : (s.emit o).pending = s.pending := rfl

@[simp] theorem draw_regs (s : State) (k : Nat) : (s.draw k).regs = s.regs := rfl
@[simp] theorem draw_hearth0 (s : State) (k : Nat) : (s.draw k).hearth0 = s.hearth0 := rfl
@[simp] theorem draw_hearth1 (s : State) (k : Nat) : (s.draw k).hearth1 = s.hearth1 := rfl
@[simp] theorem draw_hbm (s : State) (k : Nat) : (s.draw k).hbm = s.hbm := rfl
@[simp] theorem draw_stock (s : State) (k : Nat) : (s.draw k).stock = s.stock := rfl
@[simp] theorem draw_life (s : State) (k : Nat) : (s.draw k).life = s.life := rfl
@[simp] theorem draw_cad (s : State) (k : Nat) : (s.draw k).cad = s.cad := rfl
@[simp] theorem draw_cores (s : State) (k : Nat) : (s.draw k).cores = s.cores := rfl
@[simp] theorem draw_haloRows (s : State) (k : Nat) : (s.draw k).haloRows = s.haloRows := rfl
@[simp] theorem draw_haloCredits (s : State) (k : Nat) : (s.draw k).haloCredits = s.haloCredits := rfl
@[simp] theorem draw_kvp (s : State) (k : Nat) : (s.draw k).kvp = s.kvp := rfl
@[simp] theorem draw_netStreams (s : State) (k : Nat) : (s.draw k).netStreams = s.netStreams := rfl
@[simp] theorem draw_blmStreams (s : State) (k : Nat) : (s.draw k).blmStreams = s.blmStreams := rfl
@[simp] theorem draw_stash (s : State) (k : Nat) : (s.draw k).stash = s.stash := rfl
@[simp] theorem draw_spills (s : State) (k : Nat) : (s.draw k).spills = s.spills := rfl
@[simp] theorem draw_fetches (s : State) (k : Nat) : (s.draw k).fetches = s.fetches := rfl
@[simp] theorem draw_stashFree (s : State) (k : Nat) : (s.draw k).stashFree = s.stashFree := rfl
@[simp] theorem draw_hands (s : State) (k : Nat) : (s.draw k).hands = s.hands := rfl
@[simp] theorem draw_bucketFill (s : State) (k : Nat) : (s.draw k).bucketFill = s.bucketFill := rfl
@[simp] theorem draw_caps (s : State) (k : Nat) : (s.draw k).caps = s.caps := rfl
@[simp] theorem draw_captures (s : State) (k : Nat) : (s.draw k).captures = s.captures := rfl
@[simp] theorem draw_hbmPoison (s : State) (k : Nat) : (s.draw k).hbmPoison = s.hbmPoison := rfl
@[simp] theorem draw_stockPoison (s : State) (k : Nat) : (s.draw k).stockPoison = s.stockPoison := rfl
@[simp] theorem draw_ports (s : State) (k : Nat) : (s.draw k).ports = s.ports := rfl
@[simp] theorem draw_net (s : State) (k : Nat) : (s.draw k).net = s.net := rfl
@[simp] theorem draw_tmp (s : State) (k : Nat) : (s.draw k).tmp = s.tmp := rfl
@[simp] theorem draw_blm (s : State) (k : Nat) : (s.draw k).blm = s.blm := rfl
@[simp] theorem draw_mbx (s : State) (k : Nat) : (s.draw k).mbx = s.mbx := rfl
@[simp] theorem draw_jnl (s : State) (k : Nat) : (s.draw k).jnl = s.jnl := rfl
@[simp] theorem draw_cru (s : State) (k : Nat) : (s.draw k).cru = s.cru := rfl
@[simp] theorem draw_seed (s : State) (k : Nat) : (s.draw k).seed = s.seed := rfl
@[simp] theorem draw_ing (s : State) (k : Nat) : (s.draw k).ing = s.ing := rfl
@[simp] theorem draw_faultQ (s : State) (k : Nat) : (s.draw k).faultQ = s.faultQ := rfl
@[simp] theorem draw_sys (s : State) (k : Nat) : (s.draw k).sys = s.sys := rfl
@[simp] theorem draw_billet (s : State) (k : Nat) : (s.draw k).billet = s.billet := rfl
@[simp] theorem draw_out (s : State) (k : Nat) : (s.draw k).out = s.out := rfl
@[simp] theorem draw_pending (s : State) (k : Nat) : (s.draw k).pending = s.pending := rfl

@[simp] theorem setCore_regs (s : State) (n : Nat) (c : Core) : (s.setCore n c).regs = s.regs := rfl
@[simp] theorem setCore_hearth0 (s : State) (n : Nat) (c : Core) : (s.setCore n c).hearth0 = s.hearth0 := rfl
@[simp] theorem setCore_hearth1 (s : State) (n : Nat) (c : Core) : (s.setCore n c).hearth1 = s.hearth1 := rfl
@[simp] theorem setCore_hbm (s : State) (n : Nat) (c : Core) : (s.setCore n c).hbm = s.hbm := rfl
@[simp] theorem setCore_stock (s : State) (n : Nat) (c : Core) : (s.setCore n c).stock = s.stock := rfl
@[simp] theorem setCore_life (s : State) (n : Nat) (c : Core) : (s.setCore n c).life = s.life := rfl
@[simp] theorem setCore_cad (s : State) (n : Nat) (c : Core) : (s.setCore n c).cad = s.cad := rfl
@[simp] theorem setCore_haloRows (s : State) (n : Nat) (c : Core) : (s.setCore n c).haloRows = s.haloRows := rfl
@[simp] theorem setCore_haloCredits (s : State) (n : Nat) (c : Core) : (s.setCore n c).haloCredits = s.haloCredits := rfl
@[simp] theorem setCore_kvp (s : State) (n : Nat) (c : Core) : (s.setCore n c).kvp = s.kvp := rfl
@[simp] theorem setCore_netStreams (s : State) (n : Nat) (c : Core) : (s.setCore n c).netStreams = s.netStreams := rfl
@[simp] theorem setCore_blmStreams (s : State) (n : Nat) (c : Core) : (s.setCore n c).blmStreams = s.blmStreams := rfl
@[simp] theorem setCore_stash (s : State) (n : Nat) (c : Core) : (s.setCore n c).stash = s.stash := rfl
@[simp] theorem setCore_spills (s : State) (n : Nat) (c : Core) : (s.setCore n c).spills = s.spills := rfl
@[simp] theorem setCore_fetches (s : State) (n : Nat) (c : Core) : (s.setCore n c).fetches = s.fetches := rfl
@[simp] theorem setCore_stashFree (s : State) (n : Nat) (c : Core) : (s.setCore n c).stashFree = s.stashFree := rfl
@[simp] theorem setCore_hands (s : State) (n : Nat) (c : Core) : (s.setCore n c).hands = s.hands := rfl
@[simp] theorem setCore_bucketFill (s : State) (n : Nat) (c : Core) : (s.setCore n c).bucketFill = s.bucketFill := rfl
@[simp] theorem setCore_caps (s : State) (n : Nat) (c : Core) : (s.setCore n c).caps = s.caps := rfl
@[simp] theorem setCore_captures (s : State) (n : Nat) (c : Core) : (s.setCore n c).captures = s.captures := rfl
@[simp] theorem setCore_hbmPoison (s : State) (n : Nat) (c : Core) : (s.setCore n c).hbmPoison = s.hbmPoison := rfl
@[simp] theorem setCore_stockPoison (s : State) (n : Nat) (c : Core) : (s.setCore n c).stockPoison = s.stockPoison := rfl
@[simp] theorem setCore_ports (s : State) (n : Nat) (c : Core) : (s.setCore n c).ports = s.ports := rfl
@[simp] theorem setCore_net (s : State) (n : Nat) (c : Core) : (s.setCore n c).net = s.net := rfl
@[simp] theorem setCore_tmp (s : State) (n : Nat) (c : Core) : (s.setCore n c).tmp = s.tmp := rfl
@[simp] theorem setCore_blm (s : State) (n : Nat) (c : Core) : (s.setCore n c).blm = s.blm := rfl
@[simp] theorem setCore_mbx (s : State) (n : Nat) (c : Core) : (s.setCore n c).mbx = s.mbx := rfl
@[simp] theorem setCore_jnl (s : State) (n : Nat) (c : Core) : (s.setCore n c).jnl = s.jnl := rfl
@[simp] theorem setCore_cru (s : State) (n : Nat) (c : Core) : (s.setCore n c).cru = s.cru := rfl
@[simp] theorem setCore_seed (s : State) (n : Nat) (c : Core) : (s.setCore n c).seed = s.seed := rfl
@[simp] theorem setCore_ing (s : State) (n : Nat) (c : Core) : (s.setCore n c).ing = s.ing := rfl
@[simp] theorem setCore_faultQ (s : State) (n : Nat) (c : Core) : (s.setCore n c).faultQ = s.faultQ := rfl
@[simp] theorem setCore_sys (s : State) (n : Nat) (c : Core) : (s.setCore n c).sys = s.sys := rfl
@[simp] theorem setCore_billet (s : State) (n : Nat) (c : Core) : (s.setCore n c).billet = s.billet := rfl
@[simp] theorem setCore_out (s : State) (n : Nat) (c : Core) : (s.setCore n c).out = s.out := rfl
@[simp] theorem setCore_freeCtr (s : State) (n : Nat) (c : Core) : (s.setCore n c).freeCtr = s.freeCtr := rfl
@[simp] theorem setCore_pending (s : State) (n : Nat) (c : Core) : (s.setCore n c).pending = s.pending := rfl

@[simp] theorem setPort_regs (s : State) (n : Nat) (c : Port) : (s.setPort n c).regs = s.regs := rfl
@[simp] theorem setPort_hearth0 (s : State) (n : Nat) (c : Port) : (s.setPort n c).hearth0 = s.hearth0 := rfl
@[simp] theorem setPort_hearth1 (s : State) (n : Nat) (c : Port) : (s.setPort n c).hearth1 = s.hearth1 := rfl
@[simp] theorem setPort_hbm (s : State) (n : Nat) (c : Port) : (s.setPort n c).hbm = s.hbm := rfl
@[simp] theorem setPort_stock (s : State) (n : Nat) (c : Port) : (s.setPort n c).stock = s.stock := rfl
@[simp] theorem setPort_life (s : State) (n : Nat) (c : Port) : (s.setPort n c).life = s.life := rfl
@[simp] theorem setPort_cad (s : State) (n : Nat) (c : Port) : (s.setPort n c).cad = s.cad := rfl
@[simp] theorem setPort_cores (s : State) (n : Nat) (c : Port) : (s.setPort n c).cores = s.cores := rfl
@[simp] theorem setPort_haloRows (s : State) (n : Nat) (c : Port) : (s.setPort n c).haloRows = s.haloRows := rfl
@[simp] theorem setPort_haloCredits (s : State) (n : Nat) (c : Port) : (s.setPort n c).haloCredits = s.haloCredits := rfl
@[simp] theorem setPort_kvp (s : State) (n : Nat) (c : Port) : (s.setPort n c).kvp = s.kvp := rfl
@[simp] theorem setPort_netStreams (s : State) (n : Nat) (c : Port) : (s.setPort n c).netStreams = s.netStreams := rfl
@[simp] theorem setPort_blmStreams (s : State) (n : Nat) (c : Port) : (s.setPort n c).blmStreams = s.blmStreams := rfl
@[simp] theorem setPort_stash (s : State) (n : Nat) (c : Port) : (s.setPort n c).stash = s.stash := rfl
@[simp] theorem setPort_spills (s : State) (n : Nat) (c : Port) : (s.setPort n c).spills = s.spills := rfl
@[simp] theorem setPort_fetches (s : State) (n : Nat) (c : Port) : (s.setPort n c).fetches = s.fetches := rfl
@[simp] theorem setPort_stashFree (s : State) (n : Nat) (c : Port) : (s.setPort n c).stashFree = s.stashFree := rfl
@[simp] theorem setPort_hands (s : State) (n : Nat) (c : Port) : (s.setPort n c).hands = s.hands := rfl
@[simp] theorem setPort_bucketFill (s : State) (n : Nat) (c : Port) : (s.setPort n c).bucketFill = s.bucketFill := rfl
@[simp] theorem setPort_caps (s : State) (n : Nat) (c : Port) : (s.setPort n c).caps = s.caps := rfl
@[simp] theorem setPort_captures (s : State) (n : Nat) (c : Port) : (s.setPort n c).captures = s.captures := rfl
@[simp] theorem setPort_hbmPoison (s : State) (n : Nat) (c : Port) : (s.setPort n c).hbmPoison = s.hbmPoison := rfl
@[simp] theorem setPort_stockPoison (s : State) (n : Nat) (c : Port) : (s.setPort n c).stockPoison = s.stockPoison := rfl
@[simp] theorem setPort_net (s : State) (n : Nat) (c : Port) : (s.setPort n c).net = s.net := rfl
@[simp] theorem setPort_tmp (s : State) (n : Nat) (c : Port) : (s.setPort n c).tmp = s.tmp := rfl
@[simp] theorem setPort_blm (s : State) (n : Nat) (c : Port) : (s.setPort n c).blm = s.blm := rfl
@[simp] theorem setPort_mbx (s : State) (n : Nat) (c : Port) : (s.setPort n c).mbx = s.mbx := rfl
@[simp] theorem setPort_jnl (s : State) (n : Nat) (c : Port) : (s.setPort n c).jnl = s.jnl := rfl
@[simp] theorem setPort_cru (s : State) (n : Nat) (c : Port) : (s.setPort n c).cru = s.cru := rfl
@[simp] theorem setPort_seed (s : State) (n : Nat) (c : Port) : (s.setPort n c).seed = s.seed := rfl
@[simp] theorem setPort_ing (s : State) (n : Nat) (c : Port) : (s.setPort n c).ing = s.ing := rfl
@[simp] theorem setPort_faultQ (s : State) (n : Nat) (c : Port) : (s.setPort n c).faultQ = s.faultQ := rfl
@[simp] theorem setPort_sys (s : State) (n : Nat) (c : Port) : (s.setPort n c).sys = s.sys := rfl
@[simp] theorem setPort_billet (s : State) (n : Nat) (c : Port) : (s.setPort n c).billet = s.billet := rfl
@[simp] theorem setPort_out (s : State) (n : Nat) (c : Port) : (s.setPort n c).out = s.out := rfl
@[simp] theorem setPort_freeCtr (s : State) (n : Nat) (c : Port) : (s.setPort n c).freeCtr = s.freeCtr := rfl
@[simp] theorem setPort_pending (s : State) (n : Nat) (c : Port) : (s.setPort n c).pending = s.pending := rfl

@[simp] theorem setBank_regs (s : State) (k : Nat) (b : Bank) : (s.setBank k b).regs = s.regs := rfl
@[simp] theorem setBank_hearth0 (s : State) (k : Nat) (b : Bank) : (s.setBank k b).hearth0 = s.hearth0 := rfl
@[simp] theorem setBank_hearth1 (s : State) (k : Nat) (b : Bank) : (s.setBank k b).hearth1 = s.hearth1 := rfl
@[simp] theorem setBank_hbm (s : State) (k : Nat) (b : Bank) : (s.setBank k b).hbm = s.hbm := rfl
@[simp] theorem setBank_stock (s : State) (k : Nat) (b : Bank) : (s.setBank k b).stock = s.stock := rfl
@[simp] theorem setBank_life (s : State) (k : Nat) (b : Bank) : (s.setBank k b).life = s.life := rfl
@[simp] theorem setBank_cad (s : State) (k : Nat) (b : Bank) : (s.setBank k b).cad = s.cad := rfl
@[simp] theorem setBank_cores (s : State) (k : Nat) (b : Bank) : (s.setBank k b).cores = s.cores := rfl
@[simp] theorem setBank_haloRows (s : State) (k : Nat) (b : Bank) : (s.setBank k b).haloRows = s.haloRows := rfl
@[simp] theorem setBank_haloCredits (s : State) (k : Nat) (b : Bank) : (s.setBank k b).haloCredits = s.haloCredits := rfl
@[simp] theorem setBank_kvp (s : State) (k : Nat) (b : Bank) : (s.setBank k b).kvp = s.kvp := rfl
@[simp] theorem setBank_netStreams (s : State) (k : Nat) (b : Bank) : (s.setBank k b).netStreams = s.netStreams := rfl
@[simp] theorem setBank_blmStreams (s : State) (k : Nat) (b : Bank) : (s.setBank k b).blmStreams = s.blmStreams := rfl
@[simp] theorem setBank_stash (s : State) (k : Nat) (b : Bank) : (s.setBank k b).stash = s.stash := rfl
@[simp] theorem setBank_spills (s : State) (k : Nat) (b : Bank) : (s.setBank k b).spills = s.spills := rfl
@[simp] theorem setBank_fetches (s : State) (k : Nat) (b : Bank) : (s.setBank k b).fetches = s.fetches := rfl
@[simp] theorem setBank_stashFree (s : State) (k : Nat) (b : Bank) : (s.setBank k b).stashFree = s.stashFree := rfl
@[simp] theorem setBank_hands (s : State) (k : Nat) (b : Bank) : (s.setBank k b).hands = s.hands := rfl
@[simp] theorem setBank_bucketFill (s : State) (k : Nat) (b : Bank) : (s.setBank k b).bucketFill = s.bucketFill := rfl
@[simp] theorem setBank_caps (s : State) (k : Nat) (b : Bank) : (s.setBank k b).caps = s.caps := rfl
@[simp] theorem setBank_captures (s : State) (k : Nat) (b : Bank) : (s.setBank k b).captures = s.captures := rfl
@[simp] theorem setBank_hbmPoison (s : State) (k : Nat) (b : Bank) : (s.setBank k b).hbmPoison = s.hbmPoison := rfl
@[simp] theorem setBank_stockPoison (s : State) (k : Nat) (b : Bank) : (s.setBank k b).stockPoison = s.stockPoison := rfl
@[simp] theorem setBank_ports (s : State) (k : Nat) (b : Bank) : (s.setBank k b).ports = s.ports := rfl
@[simp] theorem setBank_net (s : State) (k : Nat) (b : Bank) : (s.setBank k b).net = s.net := rfl
@[simp] theorem setBank_tmp (s : State) (k : Nat) (b : Bank) : (s.setBank k b).tmp = s.tmp := rfl
@[simp] theorem setBank_blm (s : State) (k : Nat) (b : Bank) : (s.setBank k b).blm = s.blm := rfl
@[simp] theorem setBank_mbx (s : State) (k : Nat) (b : Bank) : (s.setBank k b).mbx = s.mbx := rfl
@[simp] theorem setBank_jnl (s : State) (k : Nat) (b : Bank) : (s.setBank k b).jnl = s.jnl := rfl
@[simp] theorem setBank_cru (s : State) (k : Nat) (b : Bank) : (s.setBank k b).cru = s.cru := rfl
@[simp] theorem setBank_seed (s : State) (k : Nat) (b : Bank) : (s.setBank k b).seed = s.seed := rfl
@[simp] theorem setBank_ing (s : State) (k : Nat) (b : Bank) : (s.setBank k b).ing = s.ing := rfl
@[simp] theorem setBank_faultQ (s : State) (k : Nat) (b : Bank) : (s.setBank k b).faultQ = s.faultQ := rfl
@[simp] theorem setBank_billet (s : State) (k : Nat) (b : Bank) : (s.setBank k b).billet = s.billet := rfl
@[simp] theorem setBank_out (s : State) (k : Nat) (b : Bank) : (s.setBank k b).out = s.out := rfl
@[simp] theorem setBank_freeCtr (s : State) (k : Nat) (b : Bank) : (s.setBank k b).freeCtr = s.freeCtr := rfl
@[simp] theorem setBank_pending (s : State) (k : Nat) (b : Bank) : (s.setBank k b).pending = s.pending := rfl

@[simp] theorem setSlot_regs (s : State) (x : Slot) : (s.setSlot x).regs = s.regs := rfl
@[simp] theorem setSlot_hearth0 (s : State) (x : Slot) : (s.setSlot x).hearth0 = s.hearth0 := rfl
@[simp] theorem setSlot_hearth1 (s : State) (x : Slot) : (s.setSlot x).hearth1 = s.hearth1 := rfl
@[simp] theorem setSlot_hbm (s : State) (x : Slot) : (s.setSlot x).hbm = s.hbm := rfl
@[simp] theorem setSlot_stock (s : State) (x : Slot) : (s.setSlot x).stock = s.stock := rfl
@[simp] theorem setSlot_life (s : State) (x : Slot) : (s.setSlot x).life = s.life := rfl
@[simp] theorem setSlot_cad (s : State) (x : Slot) : (s.setSlot x).cad = s.cad := rfl
@[simp] theorem setSlot_cores (s : State) (x : Slot) : (s.setSlot x).cores = s.cores := rfl
@[simp] theorem setSlot_haloRows (s : State) (x : Slot) : (s.setSlot x).haloRows = s.haloRows := rfl
@[simp] theorem setSlot_haloCredits (s : State) (x : Slot) : (s.setSlot x).haloCredits = s.haloCredits := rfl
@[simp] theorem setSlot_kvp (s : State) (x : Slot) : (s.setSlot x).kvp = s.kvp := rfl
@[simp] theorem setSlot_netStreams (s : State) (x : Slot) : (s.setSlot x).netStreams = s.netStreams := rfl
@[simp] theorem setSlot_blmStreams (s : State) (x : Slot) : (s.setSlot x).blmStreams = s.blmStreams := rfl
@[simp] theorem setSlot_stash (s : State) (x : Slot) : (s.setSlot x).stash = s.stash := rfl
@[simp] theorem setSlot_spills (s : State) (x : Slot) : (s.setSlot x).spills = s.spills := rfl
@[simp] theorem setSlot_fetches (s : State) (x : Slot) : (s.setSlot x).fetches = s.fetches := rfl
@[simp] theorem setSlot_stashFree (s : State) (x : Slot) : (s.setSlot x).stashFree = s.stashFree := rfl
@[simp] theorem setSlot_hands (s : State) (x : Slot) : (s.setSlot x).hands = s.hands := rfl
@[simp] theorem setSlot_bucketFill (s : State) (x : Slot) : (s.setSlot x).bucketFill = s.bucketFill := rfl
@[simp] theorem setSlot_caps (s : State) (x : Slot) : (s.setSlot x).caps = s.caps := rfl
@[simp] theorem setSlot_captures (s : State) (x : Slot) : (s.setSlot x).captures = s.captures := rfl
@[simp] theorem setSlot_hbmPoison (s : State) (x : Slot) : (s.setSlot x).hbmPoison = s.hbmPoison := rfl
@[simp] theorem setSlot_stockPoison (s : State) (x : Slot) : (s.setSlot x).stockPoison = s.stockPoison := rfl
@[simp] theorem setSlot_ports (s : State) (x : Slot) : (s.setSlot x).ports = s.ports := rfl
@[simp] theorem setSlot_net (s : State) (x : Slot) : (s.setSlot x).net = s.net := rfl
@[simp] theorem setSlot_tmp (s : State) (x : Slot) : (s.setSlot x).tmp = s.tmp := rfl
@[simp] theorem setSlot_blm (s : State) (x : Slot) : (s.setSlot x).blm = s.blm := rfl
@[simp] theorem setSlot_jnl (s : State) (x : Slot) : (s.setSlot x).jnl = s.jnl := rfl
@[simp] theorem setSlot_cru (s : State) (x : Slot) : (s.setSlot x).cru = s.cru := rfl
@[simp] theorem setSlot_seed (s : State) (x : Slot) : (s.setSlot x).seed = s.seed := rfl
@[simp] theorem setSlot_ing (s : State) (x : Slot) : (s.setSlot x).ing = s.ing := rfl
@[simp] theorem setSlot_faultQ (s : State) (x : Slot) : (s.setSlot x).faultQ = s.faultQ := rfl
@[simp] theorem setSlot_sys (s : State) (x : Slot) : (s.setSlot x).sys = s.sys := rfl
@[simp] theorem setSlot_billet (s : State) (x : Slot) : (s.setSlot x).billet = s.billet := rfl
@[simp] theorem setSlot_out (s : State) (x : Slot) : (s.setSlot x).out = s.out := rfl
@[simp] theorem setSlot_freeCtr (s : State) (x : Slot) : (s.setSlot x).freeCtr = s.freeCtr := rfl
@[simp] theorem setSlot_pending (s : State) (x : Slot) : (s.setSlot x).pending = s.pending := rfl

@[simp] theorem raise_hearth0 (s : State) (src kind cls addr : Nat) : (s.raise src kind cls addr).hearth0 = s.hearth0 := by unfold raise raiseMsg; split <;> rfl
@[simp] theorem raise_hearth1 (s : State) (src kind cls addr : Nat) : (s.raise src kind cls addr).hearth1 = s.hearth1 := by unfold raise raiseMsg; split <;> rfl
@[simp] theorem raise_hbm (s : State) (src kind cls addr : Nat) : (s.raise src kind cls addr).hbm = s.hbm := by unfold raise raiseMsg; split <;> rfl
@[simp] theorem raise_stock (s : State) (src kind cls addr : Nat) : (s.raise src kind cls addr).stock = s.stock := by unfold raise raiseMsg; split <;> rfl
@[simp] theorem raise_life (s : State) (src kind cls addr : Nat) : (s.raise src kind cls addr).life = s.life := by unfold raise raiseMsg; split <;> rfl
@[simp] theorem raise_cad (s : State) (src kind cls addr : Nat) : (s.raise src kind cls addr).cad = s.cad := by unfold raise raiseMsg; split <;> rfl
@[simp] theorem raise_cores (s : State) (src kind cls addr : Nat) : (s.raise src kind cls addr).cores = s.cores := by unfold raise raiseMsg; split <;> rfl
@[simp] theorem raise_haloRows (s : State) (src kind cls addr : Nat) : (s.raise src kind cls addr).haloRows = s.haloRows := by unfold raise raiseMsg; split <;> rfl
@[simp] theorem raise_haloCredits (s : State) (src kind cls addr : Nat) : (s.raise src kind cls addr).haloCredits = s.haloCredits := by unfold raise raiseMsg; split <;> rfl
@[simp] theorem raise_kvp (s : State) (src kind cls addr : Nat) : (s.raise src kind cls addr).kvp = s.kvp := by unfold raise raiseMsg; split <;> rfl
@[simp] theorem raise_netStreams (s : State) (src kind cls addr : Nat) : (s.raise src kind cls addr).netStreams = s.netStreams := by unfold raise raiseMsg; split <;> rfl
@[simp] theorem raise_blmStreams (s : State) (src kind cls addr : Nat) : (s.raise src kind cls addr).blmStreams = s.blmStreams := by unfold raise raiseMsg; split <;> rfl
@[simp] theorem raise_stash (s : State) (src kind cls addr : Nat) : (s.raise src kind cls addr).stash = s.stash := by unfold raise raiseMsg; split <;> rfl
@[simp] theorem raise_spills (s : State) (src kind cls addr : Nat) : (s.raise src kind cls addr).spills = s.spills := by unfold raise raiseMsg; split <;> rfl
@[simp] theorem raise_fetches (s : State) (src kind cls addr : Nat) : (s.raise src kind cls addr).fetches = s.fetches := by unfold raise raiseMsg; split <;> rfl
@[simp] theorem raise_stashFree (s : State) (src kind cls addr : Nat) : (s.raise src kind cls addr).stashFree = s.stashFree := by unfold raise raiseMsg; split <;> rfl
@[simp] theorem raise_hands (s : State) (src kind cls addr : Nat) : (s.raise src kind cls addr).hands = s.hands := by unfold raise raiseMsg; split <;> rfl
@[simp] theorem raise_bucketFill (s : State) (src kind cls addr : Nat) : (s.raise src kind cls addr).bucketFill = s.bucketFill := by unfold raise raiseMsg; split <;> rfl
@[simp] theorem raise_caps (s : State) (src kind cls addr : Nat) : (s.raise src kind cls addr).caps = s.caps := by unfold raise raiseMsg; split <;> rfl
@[simp] theorem raise_captures (s : State) (src kind cls addr : Nat) : (s.raise src kind cls addr).captures = s.captures := by unfold raise raiseMsg; split <;> rfl
@[simp] theorem raise_hbmPoison (s : State) (src kind cls addr : Nat) : (s.raise src kind cls addr).hbmPoison = s.hbmPoison := by unfold raise raiseMsg; split <;> rfl
@[simp] theorem raise_stockPoison (s : State) (src kind cls addr : Nat) : (s.raise src kind cls addr).stockPoison = s.stockPoison := by unfold raise raiseMsg; split <;> rfl
@[simp] theorem raise_ports (s : State) (src kind cls addr : Nat) : (s.raise src kind cls addr).ports = s.ports := by unfold raise raiseMsg; split <;> rfl
@[simp] theorem raise_net (s : State) (src kind cls addr : Nat) : (s.raise src kind cls addr).net = s.net := by unfold raise raiseMsg; split <;> rfl
@[simp] theorem raise_tmp (s : State) (src kind cls addr : Nat) : (s.raise src kind cls addr).tmp = s.tmp := by unfold raise raiseMsg; split <;> rfl
@[simp] theorem raise_blm (s : State) (src kind cls addr : Nat) : (s.raise src kind cls addr).blm = s.blm := by unfold raise raiseMsg; split <;> rfl
@[simp] theorem raise_mbx (s : State) (src kind cls addr : Nat) : (s.raise src kind cls addr).mbx = s.mbx := by unfold raise raiseMsg; split <;> rfl
@[simp] theorem raise_jnl (s : State) (src kind cls addr : Nat) : (s.raise src kind cls addr).jnl = s.jnl := by unfold raise raiseMsg; split <;> rfl
@[simp] theorem raise_cru (s : State) (src kind cls addr : Nat) : (s.raise src kind cls addr).cru = s.cru := by unfold raise raiseMsg; split <;> rfl
@[simp] theorem raise_seed (s : State) (src kind cls addr : Nat) : (s.raise src kind cls addr).seed = s.seed := by unfold raise raiseMsg; split <;> rfl
@[simp] theorem raise_ing (s : State) (src kind cls addr : Nat) : (s.raise src kind cls addr).ing = s.ing := by unfold raise raiseMsg; split <;> rfl
@[simp] theorem raise_sys (s : State) (src kind cls addr : Nat) : (s.raise src kind cls addr).sys = s.sys := by unfold raise raiseMsg; split <;> rfl
@[simp] theorem raise_billet (s : State) (src kind cls addr : Nat) : (s.raise src kind cls addr).billet = s.billet := by unfold raise raiseMsg; split <;> rfl
@[simp] theorem raise_out (s : State) (src kind cls addr : Nat) : (s.raise src kind cls addr).out = s.out := by unfold raise raiseMsg; split <;> rfl
@[simp] theorem raise_freeCtr (s : State) (src kind cls addr : Nat) : (s.raise src kind cls addr).freeCtr = s.freeCtr := by unfold raise raiseMsg; split <;> rfl
@[simp] theorem raise_pending (s : State) (src kind cls addr : Nat) : (s.raise src kind cls addr).pending = s.pending := by unfold raise raiseMsg; split <;> rfl

/-! ## Registers -/

/-- A field written reads the value cut to its width. -/
@[simp] theorem get_put_same (s : State) (f : Fld) (v : Nat) : (s.put f v).get f = v % 2 ^ f.w := by
  unfold get put; exact Assoc.get_set_same _ _ _ _

/-- Every other field reads as before. -/
theorem get_put_ne (s : State) {f g : Fld} (v : Nat) (h : g.key ≠ f.key) : (s.put f v).get g = s.get g := by
  unfold get put; exact Assoc.get_set_ne _ _ _ _ h

/-- Registers are what they were where the table of registers is. -/
theorem get_of_regs {s t : State} (h : t.regs = s.regs) (f : Fld) : t.get f = s.get f := by
  unfold get; rw [h]

@[simp] theorem get_emit (s : State) (o : Out) (f : Fld) : (s.emit o).get f = s.get f := rfl
@[simp] theorem get_draw (s : State) (k : Nat) (f : Fld) : (s.draw k).get f = s.get f := rfl
@[simp] theorem get_setCore (s : State) (n : Nat) (c : Core) (f : Fld) : (s.setCore n c).get f = s.get f := rfl
@[simp] theorem get_setPort (s : State) (n : Nat) (c : Port) (f : Fld) : (s.setPort n c).get f = s.get f := rfl
@[simp] theorem get_setBank (s : State) (k : Nat) (b : Bank) (f : Fld) : (s.setBank k b).get f = s.get f := rfl

/-- What a core holds after it is written. -/
@[simp] theorem core_setCore_same (s : State) (n : Nat) (c : Core) : (s.setCore n c).core n = c := by
  unfold core setCore; exact Assoc.get_set_same _ _ _ _

/-- Every other core is as it was. -/
theorem core_setCore_ne (s : State) {n m : Nat} (c : Core) (h : m ≠ n) : (s.setCore n c).core m = s.core m := by
  unfold core setCore; exact Assoc.get_set_ne _ _ _ _ h

/-- What a port holds after it is written. -/
@[simp] theorem port_setPort_same (s : State) (n : Nat) (c : Port) : (s.setPort n c).port n = c := by
  unfold port setPort; exact Assoc.get_set_same _ _ _ _

/-- A bank written reads back. -/
@[simp] theorem bank_setBank_same (s : State) (k : Nat) (b : Bank) : (s.setBank k b).bank k = b := by
  unfold bank setBank; exact Assoc.get_set_same _ _ _ _

/-- Every other bank is as it was. -/
theorem bank_setBank_ne (s : State) {j k : Nat} (b : Bank) (h : j ≠ k) : (s.setBank k b).bank j = s.bank j := by
  unfold bank setBank; exact Assoc.get_set_ne _ _ _ _ h

/-! ## The canonical form of the memories -/

theorem memOk_iff (s : State) : s.memOk = true ↔
    s.hearth0.wf = true ∧ s.hearth1.wf = true ∧ s.hbm.wf = true ∧ s.stock.wf = true := by
  simp [memOk, and_assoc]

theorem memOk_reset : State.reset.memOk = true := by decide

/-- The state with four memories that are in their canonical form. -/
theorem memOk_of {s t : State} (h : s.memOk = true) (h0 : t.hearth0 = s.hearth0) (h1 : t.hearth1 = s.hearth1) (h2 : t.hbm = s.hbm)
    (h3 : t.stock = s.stock) : t.memOk = true := by
  unfold memOk at *; rw [h0, h1, h2, h3]; exact h

end State

end Sys2Proof.Machine
end

