-- ==== Sys2Proof/Laws/Frame.lean ====
section
/-!
SUPPORT. Laws/Frame.lean: `s.mems` is what most commands leave alone: the four memories and the queue. Each meaning has one
lemma that says so (Laws/Mem*.lean), by which a statement about memory passes through it. -/

namespace Sys2Proof.Machine

/-- The four memories and the queue. -/
structure Mems where
  hearth0 : Memory
  hearth1 : Memory
  hbm : Memory
  stock : Memory
  pending : List Instr

/-- The memories and the queue of a state. -/
def State.mems (s : State) : Mems := ⟨s.hearth0, s.hearth1, s.hbm, s.stock, s.pending⟩

/-- The memories and the queue where a command goes on, and `m` where it stops. -/
def outMems (m : Mems) : Host.Outcome State Fault Refusal → Mems
  | .next t => t.mems
  | _ => m

/-- A state written out with the memories and the queue of another. -/
theorem State.mems_upd (s : State) (regs : List (Nat × Nat)) (life : Life) (cad : Cad) (cores : List (Nat × Core)) (haloRows : List (Nat × EdgeRow)) (haloCredits : List (Nat × Nat × Bool)) (kvp : Kvp) (netStreams : List Nat) (blmStreams : List Nat) (stash : List StashEntry) (spills : List Spill) (fetches : List FetchRun) (stashFree : List (Nat × Nat)) (hands : List (Nat × Hand)) (bucketFill : List (Nat × Nat)) (caps : List (CapEntry × Nat)) (captures : List Capture) (hbmPoison : List Nat) (stockPoison : List Nat) (ports : List (Nat × Port)) (net : Net) (tmp : Tmp) (blm : Bloom) (mbx : Mbx) (jnl : Jnl) (cru : Cru) (seed : Option Nat) (ing : Ing) (faultQ : List FaultMsg) (sys : Sys) (billet : Option Billet) (out : List Out) (freeCtr : Nat) :
    (State.mk regs s.hearth0 s.hearth1 s.hbm s.stock life cad cores haloRows haloCredits kvp netStreams blmStreams stash spills fetches stashFree hands bucketFill caps captures hbmPoison stockPoison ports net tmp blm mbx jnl cru seed ing faultQ sys billet out freeCtr s.pending).mems = s.mems := rfl

theorem State.mems_ite (c : Prop) [Decidable c] (s t : State) : (if c then s else t).mems = if c then s.mems else t.mems := by
  split <;> rfl

theorem State.mems_foldl {α : Type} {f : State → α → State} (hf : ∀ t a, (f t a).mems = t.mems) (l : List α) (s : State) :
    (l.foldl f s).mems = s.mems := by
  induction l generalizing s with
  | nil => rfl
  | cons a l ih => rw [List.foldl_cons, ih, hf]

theorem State.mems_foldl_fst {α β : Type} {f : State × β → α → State × β} (hf : ∀ p a, (f p a).1.mems = p.1.mems) (l : List α)
    (p : State × β) : (l.foldl f p).1.mems = p.1.mems := by
  induction l generalizing p with
  | nil => rfl
  | cons a l ih => rw [List.foldl_cons, ih, hf]

theorem outMems_next (m : Mems) (t : State) : outMems m (.next t) = t.mems := rfl
theorem outMems_fault (m : Mems) (f : Fault) : outMems m (.fault f) = m := rfl
theorem outMems_refused (m : Mems) (f : Refusal) : outMems m (.refused f) = m := rfl
theorem outMems_void (m : Mems) (s : State) : outMems m (void s) = s.mems := rfl
theorem outMems_ite (m : Mems) (c : Prop) [Decidable c] (a b : Host.Outcome State Fault Refusal) :
    outMems m (if c then a else b) = if c then outMems m a else outMems m b := by
  split <;> rfl

/-- What a command leaves where its memories and queue are as before. -/
theorem mems_of_next {s t : State} {o : Host.Outcome State Fault Refusal} (h : outMems s.mems o = s.mems) (e : o = .next t) :
    t.mems = s.mems := by
  rw [e] at h; exact h

/-- Equal memories read the same. -/
theorem sameBytes_of_mems {s t : State} (h : t.mems = s.mems) : SameBytes s t := by
  have h0 : t.hearth0 = s.hearth0 := congrArg Mems.hearth0 h
  have h1 : t.hearth1 = s.hearth1 := congrArg Mems.hearth1 h
  have h2 : t.hbm = s.hbm := congrArg Mems.hbm h
  have h3 : t.stock = s.stock := congrArg Mems.stock h
  intro a; rw [h0, h1, h2, h3]; exact ⟨rfl, rfl, rfl, rfl⟩

end Sys2Proof.Machine
end

