-- ==== Sys2Proof/Laws/Regs.lean ====
section
/-!
SUPPORT. Laws/Regs.lean: how `SameRegsBut`, the frame of the registers, passes through the updates that write registers. -/

namespace Sys2Proof.Machine

namespace SameRegsBut

theorem refl (l : List Fld) (s : State) : SameRegsBut l s s := fun _ _ => rfl

/-- States with the same stored registers. -/
theorem of_regs {l : List Fld} {s t : State} (h : t.regs = s.regs) : SameRegsBut l s t := fun f _ => by
  unfold State.get; rw [h]

theorem trans {l : List Fld} {r s t : State} (h : SameRegsBut l r s) (k : SameRegsBut l s t) : SameRegsBut l r t :=
  fun f hf => (k f hf).trans (h f hf)

theorem mono {l m : List Fld} {s t : State} (h : SameRegsBut l s t) (hs : ∀ g ∈ l, g ∈ m) : SameRegsBut m s t :=
  fun f hf => h f (fun g hg => hf g (hs g hg))

/-- A write of a listed field. -/
theorem put {l : List Fld} {s t : State} (f : Fld) (v : Nat) (h : SameRegsBut l s t) (hf : f ∈ l) : SameRegsBut l s (t.put f v) :=
  fun g hg => (State.get_put_ne t v (hg f hf)).trans (h g hg)

/-- A count in a listed field. -/
theorem count {l : List Fld} {s t : State} (f : Fld) (k : Nat) (h : SameRegsBut l s t) (hf : f ∈ l) :
    SameRegsBut l s (t.count f k) := put f _ h hf

end SameRegsBut

/-- A counter reads one more, up to its maximum. -/
theorem State.get_count_same (s : State) (f : Fld) (k : Nat) (h : 0 < f.w) :
    (s.count f k).get f = min (s.get f + k) (2 ^ f.w - 1) := by
  unfold State.count
  rw [State.get_put_same]
  apply Nat.mod_eq_of_lt
  have : 1 < 2 ^ f.w := Nat.one_lt_two_pow (by omega)
  omega

end Sys2Proof.Machine
end

