-- ==== Sys2Proof/Laws/Mailbox.lean ====
section
/-!
SUPPORT. Laws/Mailbox.lean: what a sealed frame does before its own meaning (R427), and what its session is after it. -/

namespace Sys2Proof.Machine

/-- The least number below `N` that satisfies `p`. -/
theorem find_range_least {p : Nat → Bool} {n N : Nat} (hn : n < N) (h : p n = true) (hl : ∀ m < n, p m = false) :
    (List.range N).find? p = some n := by
  rw [List.find?_eq_some_iff_append]
  refine ⟨h, List.range n, (List.range' (n+1) (N - n - 1)), ?_, ?_⟩
  · rw [List.range_eq_range', List.range_eq_range']
    have : N = n + 1 + (N - n - 1) := by omega
    conv_lhs => rw [this]
    rw [← List.range'_append_1, ← List.range'_append_1]; simp
  · intro m hm; simp at hm; simp [hl m hm]

theorem State.setSession_eq (s : State) (x : Session) :
    s.setSession x = { s with mbx := { s.mbx with sessions := withSession s.mbx.sessions x } } := rfl

theorem withSession_twice (l : List Session) (x y : Session) (h : y.num = x.num) : withSession (withSession l y) x = withSession l x := by
  simp only [withSession, List.map_map]
  apply List.map_congr_left
  intro a _
  simp only [Function.comp]
  split <;> simp_all

theorem find_withSession (l : List Session) (x y : Session) (hn : x.num = y.num) (hs : x.sid = y.sid)
    (h : l.find? (fun z => z.sid == y.sid) = some y) : (withSession l x).find? (fun z => z.sid == y.sid) = some x := by
  induction l with
  | nil => simp at h
  | cons a l ih =>
    unfold withSession at *
    rw [List.map_cons, List.find?_cons]
    by_cases ha : a.num = x.num
    · simp [ha, hs]
    · rw [if_neg ha]
      rw [List.find?_cons] at h
      split at h
      · cases h; exact absurd hn.symm ha
      · exact ih h

/-- The session that a SESSION names. -/
theorem State.session?_mem {s : State} {n : Nat} {x : Session} (h : s.session? n = some x) : x ∈ s.mbx.sessions ∧ x.sid = n := by
  unfold State.session? at h
  exact ⟨List.mem_of_find?_eq_some h, by simpa using List.find?_some h⟩

theorem State.session?_setSession {s : State} {x y : Session} (h : s.session? y.sid = some y) (hn : x.num = y.num)
    (hs : x.sid = y.sid) : (s.setSession x).session? y.sid = some x := find_withSession _ _ _ hn hs h

/-- A valid frame reaches its meaning, with its NONCE noted. -/
theorem takeFrame_valid {s : State} {f : HjFrame} {x : Session} (h : ValidFrame s f x)
    (k : State → Session → Host.Outcome State Fault Refusal) :
    takeFrame s f k = k (s.setSession { x with nonceIn := some f.nonce }) { x with nonceIn := some f.nonce } := by
  obtain ⟨h1, h2, h3, h4, h5, h6⟩ := h
  unfold takeFrame
  simp only [h1, h2, h3, h4, h5]
  simp
  split
  · rename_i n hn; simp [h6 n hn]
  · simp

/-- A frame that is not valid is counted. -/
theorem takeFrame_bad {s : State} {f : HjFrame} (h1 : s.svcUp = true)
    (h : ∀ x, s.session? f.session = some x → f.tagOk = false ∨ ∃ n, x.nonceIn = some n ∧ f.nonce ≤ n)
    (k : State → Session → Host.Outcome State Fault Refusal) : takeFrame s f k = .next (s.count Reg.mbxSealFail) := by
  unfold takeFrame
  simp only [h1]
  simp
  split
  · rfl
  · rename_i x hx
    rcases h x hx with h | ⟨n, h, hn⟩
    · simp [h]; rfl
    · have : ¬ (n < f.nonce) := by omega
      simp [h, this]; rfl

/-- A REPLY to a session whose frame has been taken. -/
theorem reply_eq {s : State} {x y : Session} (h : s.session? y.sid = some y) (hx : x.sid = y.sid) (tag opcode slot status : Nat) :
    s.reply x tag opcode slot status noSeq =
      (s.setSession { y with nonceOut := y.nonceOut + 1 }).emit
        (.hjeliz (replyHead y tag opcode slot status) [] (sealTag y (replyHead y tag opcode slot status) [])) := by
  unfold State.reply State.sendSealed
  rw [hx, h]
  rfl

end Sys2Proof.Machine
end

