-- ==== Sys2Proof/Laws/MemOps.lean ====
section
/-!
SUPPORT. Laws/MemOps.lean: what Ops.lean leaves of the memories and the queue. -/

set_option linter.unusedTactic false
set_option linter.unreachableTactic false
set_option linter.unusedSimpArgs false

namespace Sys2Proof.Machine

theorem State.put_mems (s : State) (f : Fld) (v : Nat) : (State.put s f v).mems = s.mems := by
  unfold State.put
  repeat' first
    | with_reducible rfl
    | simp only [State.mems_ite, State.mems_upd, ite_self]
    | with_reducible refine (State.mems_foldl ?_ _ _).trans ?_
    | intro _
    | dsimp only
    | split

theorem State.count_mems (s : State) (f : Fld) (k : Nat) : (State.count s f k).mems = s.mems := by
  unfold State.count
  repeat' first
    | with_reducible rfl
    | simp only [State.mems_ite, State.mems_upd, ite_self, State.put_mems]
    | with_reducible refine (State.mems_foldl ?_ _ _).trans ?_
    | intro _
    | dsimp only
    | split

theorem State.uncount_mems (s : State) (f : Fld) (k : Nat) : (State.uncount s f k).mems = s.mems := by
  unfold State.uncount
  repeat' first
    | with_reducible rfl
    | simp only [State.mems_ite, State.mems_upd, ite_self, State.put_mems]
    | with_reducible refine (State.mems_foldl ?_ _ _).trans ?_
    | intro _
    | dsimp only
    | split

theorem State.put64_mems (s : State) (lo : Fld) (hi : Fld) (v : Nat) : (State.put64 s lo hi v).mems = s.mems := by
  unfold State.put64
  repeat' first
    | with_reducible rfl
    | simp only [State.mems_ite, State.mems_upd, ite_self, State.put_mems]
    | with_reducible refine (State.mems_foldl ?_ _ _).trans ?_
    | intro _
    | dsimp only
    | split

theorem State.count64_mems (s : State) (lo : Fld) (hi : Fld) (k : Nat) : (State.count64 s lo hi k).mems = s.mems := by
  unfold State.count64
  repeat' first
    | with_reducible rfl
    | simp only [State.mems_ite, State.mems_upd, ite_self, State.put64_mems]
    | with_reducible refine (State.mems_foldl ?_ _ _).trans ?_
    | intro _
    | dsimp only
    | split

theorem State.setCore_mems (s : State) (n : Nat) (c : Core) : (State.setCore s n c).mems = s.mems := by
  unfold State.setCore
  repeat' first
    | with_reducible rfl
    | simp only [State.mems_ite, State.mems_upd, ite_self]
    | with_reducible refine (State.mems_foldl ?_ _ _).trans ?_
    | intro _
    | dsimp only
    | split

theorem State.emit_mems (s : State) (o : Out) : (State.emit s o).mems = s.mems := by
  unfold State.emit
  repeat' first
    | with_reducible rfl
    | simp only [State.mems_ite, State.mems_upd, ite_self]
    | with_reducible refine (State.mems_foldl ?_ _ _).trans ?_
    | intro _
    | dsimp only
    | split

theorem State.draw_mems (s : State) (k : Nat) : (State.draw s k).mems = s.mems := by
  unfold State.draw
  repeat' first
    | with_reducible rfl
    | simp only [State.mems_ite, State.mems_upd, ite_self]
    | with_reducible refine (State.mems_foldl ?_ _ _).trans ?_
    | intro _
    | dsimp only
    | split

theorem State.raiseMsg_mems (s : State) (src : Nat) (kind : Nat) (cls : Nat) (addr : Nat) (forced : Bool) : (State.raiseMsg s src kind cls addr forced).mems = s.mems := by
  unfold State.raiseMsg
  repeat' first
    | with_reducible rfl
    | simp only [State.mems_ite, State.mems_upd, ite_self, State.count_mems, State.put_mems]
    | with_reducible refine (State.mems_foldl ?_ _ _).trans ?_
    | intro _
    | dsimp only
    | split

theorem State.raise_mems (s : State) (src : Nat) (kind : Nat) (cls : Nat) (addr : Nat) : (State.raise s src kind cls addr).mems = s.mems := by
  unfold State.raise
  repeat' first
    | with_reducible rfl
    | simp only [State.mems_ite, State.mems_upd, ite_self, State.raiseMsg_mems]
    | with_reducible refine (State.mems_foldl ?_ _ _).trans ?_
    | intro _
    | dsimp only
    | split


end Sys2Proof.Machine
end

