-- ==== Sys2Proof/Laws/MemPackets.lean ====
section
/-!
SUPPORT. Laws/MemPackets.lean: what Packets.lean leaves of the memories and the queue. -/

set_option linter.unusedTactic false
set_option linter.unreachableTactic false
set_option linter.unusedSimpArgs false

namespace Sys2Proof.Machine

theorem State.wantAbort_mems (s : State) : (State.wantAbort s).mems = s.mems := by
  unfold State.wantAbort
  repeat' first
    | with_reducible rfl
    | simp only [State.mems_ite, State.mems_upd, ite_self]
    | with_reducible refine (State.mems_foldl ?_ _ _).trans ?_
    | intro _
    | dsimp only
    | split

theorem State.setPort_mems (s : State) (p : Nat) (x : Port) : (State.setPort s p x).mems = s.mems := by
  unfold State.setPort
  repeat' first
    | with_reducible rfl
    | simp only [State.mems_ite, State.mems_upd, ite_self]
    | with_reducible refine (State.mems_foldl ?_ _ _).trans ?_
    | intro _
    | dsimp only
    | split

theorem State.sendFrame_mems (s : State) (p : Nat) (kind : Nat) (nak : Bool) (seq : Nat) (pk : Option Packet) (part : Nat) : (State.sendFrame s p kind nak seq pk part).mems = s.mems := by
  unfold State.sendFrame
  repeat' first
    | with_reducible rfl
    | simp only [State.mems_ite, State.mems_upd, ite_self, State.emit_mems, State.setPort_mems]
    | with_reducible refine (State.mems_foldl ?_ _ _).trans ?_
    | intro _
    | dsimp only
    | split

theorem State.endSend_mems (s : State) (p : Nat) (pk : Packet) (off : Nat) : (State.endSend s p pk off).mems = s.mems := by
  unfold State.endSend
  repeat' first
    | with_reducible rfl
    | simp only [State.mems_ite, State.mems_upd, ite_self, State.setPort_mems]
    | with_reducible refine (State.mems_foldl ?_ _ _).trans ?_
    | intro _
    | dsimp only
    | split

theorem State.sendFrames_mems (s : State) (p : Nat) (pk : Packet) (off : Nat) (q : Nat) : (State.sendFrames s p pk off q).mems = s.mems := by
  induction q generalizing s p pk off <;> unfold State.sendFrames
  repeat' first
    | with_reducible rfl
    | simp only [State.mems_ite, State.mems_upd, ite_self, State.endSend_mems, State.setPort_mems, State.sendFrame_mems]
    | with_reducible refine (State.mems_foldl ?_ _ _).trans ?_
    | simp only [*]
    | intro _
    | dsimp only
    | split

theorem State.goOut_mems (s : State) (p : Nat) (pk : Packet) : (State.goOut s p pk).mems = s.mems := by
  unfold State.goOut
  repeat' first
    | with_reducible rfl
    | simp only [State.mems_ite, State.mems_upd, ite_self, State.setPort_mems, State.count_mems, State.sendFrames_mems]
    | with_reducible refine (State.mems_foldl ?_ _ _).trans ?_
    | intro _
    | dsimp only
    | split

theorem State.pumpPort_mems (s : State) (p : Nat) (q : Nat) : (State.pumpPort s p q).mems = s.mems := by
  induction q generalizing s p <;> unfold State.pumpPort
  repeat' first
    | with_reducible rfl
    | simp only [State.mems_ite, State.mems_upd, ite_self, State.setPort_mems, State.goOut_mems]
    | with_reducible refine (State.mems_foldl ?_ _ _).trans ?_
    | simp only [*]
    | intro _
    | dsimp only
    | split

theorem State.sendRest_mems (s : State) (p : Nat) : (State.sendRest s p).mems = s.mems := by
  unfold State.sendRest
  repeat' first
    | with_reducible rfl
    | simp only [State.mems_ite, State.mems_upd, ite_self, State.sendFrames_mems]
    | with_reducible refine (State.mems_foldl ?_ _ _).trans ?_
    | intro _
    | dsimp only
    | split

theorem State.pumpAll_mems (s : State) (p : Nat) : (State.pumpAll s p).mems = s.mems := by
  unfold State.pumpAll
  repeat' first
    | with_reducible rfl
    | simp only [State.mems_ite, State.mems_upd, ite_self, State.sendRest_mems, State.pumpPort_mems]
    | with_reducible refine (State.mems_foldl ?_ _ _).trans ?_
    | intro _
    | dsimp only
    | split

theorem State.sendOn_mems (s : State) (p : Nat) (pk : Packet) : (State.sendOn s p pk).mems = s.mems := by
  unfold State.sendOn
  repeat' first
    | with_reducible rfl
    | simp only [State.mems_ite, State.mems_upd, ite_self, State.setPort_mems, State.pumpAll_mems]
    | with_reducible refine (State.mems_foldl ?_ _ _).trans ?_
    | intro _
    | dsimp only
    | split

theorem State.noRoute_mems (s : State) : (State.noRoute s).mems = s.mems := by
  unfold State.noRoute
  repeat' first
    | with_reducible rfl
    | simp only [State.mems_ite, State.mems_upd, ite_self, State.count_mems, State.raise_mems, State.wantAbort_mems]
    | with_reducible refine (State.mems_foldl ?_ _ _).trans ?_
    | intro _
    | dsimp only
    | split

theorem State.sendRouted_mems (s : State) (pk : Packet) : (State.sendRouted s pk).mems = s.mems := by
  unfold State.sendRouted
  repeat' first
    | with_reducible rfl
    | simp only [State.mems_ite, State.mems_upd, ite_self, State.count_mems, State.sendOn_mems, State.noRoute_mems]
    | with_reducible refine (State.mems_foldl ?_ _ _).trans ?_
    | intro _
    | dsimp only
    | split

theorem State.sendCad_mems (s : State) (dst : Nat) (m : CadMsg) : (State.sendCad s dst m).mems = s.mems := by
  unfold State.sendCad
  repeat' first
    | with_reducible rfl
    | simp only [State.mems_ite, State.mems_upd, ite_self, State.emit_mems, State.sendRouted_mems]
    | with_reducible refine (State.mems_foldl ?_ _ _).trans ?_
    | intro _
    | dsimp only
    | split

theorem State.sendChildren_mems (s : State) (m : CadMsg) : (State.sendChildren s m).mems = s.mems := by
  unfold State.sendChildren
  repeat' first
    | with_reducible rfl
    | simp only [State.mems_ite, State.mems_upd, ite_self, State.sendOn_mems]
    | with_reducible refine (State.mems_foldl ?_ _ _).trans ?_
    | intro _
    | dsimp only
    | split

theorem State.returnCredits_mems (s : State) (p : Nat) (vc : Nat) (cls : Nat) (n : Nat) : (State.returnCredits s p vc cls n).mems = s.mems := by
  unfold State.returnCredits
  repeat' first
    | with_reducible rfl
    | simp only [State.mems_ite, State.mems_upd, ite_self, State.setPort_mems, State.sendOn_mems]
    | with_reducible refine (State.mems_foldl ?_ _ _).trans ?_
    | intro _
    | dsimp only
    | split

theorem State.sendHandover_mems (s : State) (dst : Nat) (channel : Nat) (mb : Nat) (chunk : Nat) (data : List Byte) : (State.sendHandover s dst channel mb chunk data).mems = s.mems := by
  unfold State.sendHandover
  repeat' first
    | with_reducible rfl
    | simp only [State.mems_ite, State.mems_upd, ite_self, State.sendRouted_mems]
    | with_reducible refine (State.mems_foldl ?_ _ _).trans ?_
    | intro _
    | dsimp only
    | split

theorem State.sendHoCredit_mems (s : State) (dst : Nat) (channel : Nat) : (State.sendHoCredit s dst channel).mems = s.mems := by
  unfold State.sendHoCredit
  repeat' first
    | with_reducible rfl
    | simp only [State.mems_ite, State.mems_upd, ite_self, State.sendRouted_mems]
    | with_reducible refine (State.mems_foldl ?_ _ _).trans ?_
    | intro _
    | dsimp only
    | split


end Sys2Proof.Machine
end

