-- ==== Sys2Proof/Laws/MemHolds.lean ====
section
/-!
SUPPORT. Laws/MemHolds.lean: what Holds.lean leaves of the memories and the queue. -/

set_option linter.unusedTactic false
set_option linter.unreachableTactic false
set_option linter.unusedSimpArgs false

namespace Sys2Proof.Machine

theorem State.sendToMaster_mems (s : State) (m : CadMsg) : (State.sendToMaster s m).mems = s.mems := by
  unfold State.sendToMaster
  repeat' first
    | with_reducible rfl
    | simp only [State.mems_ite, State.mems_upd, ite_self, State.sendCad_mems]
    | with_reducible refine (State.mems_foldl ?_ _ _).trans ?_
    | intro _
    | dsimp only
    | split

theorem State.raiseHold_mems (s : State) (angle : Nat) (reason : Nat) (entry : Option Nat) : (State.raiseHold s angle reason entry).mems = s.mems := by
  unfold State.raiseHold
  repeat' first
    | with_reducible rfl
    | simp only [State.mems_ite, State.mems_upd, ite_self, State.sendToMaster_mems]
    | with_reducible refine (State.mems_foldl ?_ _ _).trans ?_
    | intro _
    | dsimp only
    | split

theorem State.releaseHold_mems (s : State) (h : OwnHold) : (State.releaseHold s h).mems = s.mems := by
  unfold State.releaseHold
  repeat' first
    | with_reducible rfl
    | simp only [State.mems_ite, State.mems_upd, ite_self, State.sendToMaster_mems]
    | with_reducible refine (State.mems_foldl ?_ _ _).trans ?_
    | intro _
    | dsimp only
    | split

theorem State.placeWant_mems (s : State) : (State.placeWant s).mems = s.mems := by
  unfold State.placeWant
  repeat' first
    | with_reducible rfl
    | simp only [State.mems_ite, State.mems_upd, ite_self, State.raiseHold_mems]
    | with_reducible refine (State.mems_foldl ?_ _ _).trans ?_
    | intro _
    | dsimp only
    | split

theorem State.abortHold_mems (s : State) : (State.abortHold s).mems = s.mems := by
  unfold State.abortHold
  repeat' first
    | with_reducible rfl
    | simp only [State.mems_ite, State.mems_upd, ite_self, State.placeWant_mems]
    | with_reducible refine (State.mems_foldl ?_ _ _).trans ?_
    | intro _
    | dsimp only
    | split

theorem State.abortAt_mems (s : State) (a : Nat) : (State.abortAt s a).mems = s.mems := by
  unfold State.abortAt
  repeat' first
    | with_reducible rfl
    | simp only [State.mems_ite, State.mems_upd, ite_self, State.raiseHold_mems, State.abortHold_mems]
    | with_reducible refine (State.mems_foldl ?_ _ _).trans ?_
    | intro _
    | dsimp only
    | split

theorem State.cancelHolds_mems (s : State) : (State.cancelHolds s).mems = s.mems := by
  unfold State.cancelHolds
  repeat' first
    | with_reducible rfl
    | simp only [State.mems_ite, State.mems_upd, ite_self]
    | with_reducible refine (State.mems_foldl ?_ _ _).trans ?_
    | intro _
    | dsimp only
    | split


end Sys2Proof.Machine
end

