-- ==== Sys2Proof/Laws/MemFlags.lean ====
section
/-!
SUPPORT. Laws/MemFlags.lean: what Flags.lean leaves of the memories and the queue. -/

set_option linter.unusedTactic false
set_option linter.unreachableTactic false
set_option linter.unusedSimpArgs false

namespace Sys2Proof.Machine

theorem State.latchTrap_mems (s : State) (t : OpTag) (e : Event) : (State.latchTrap s t e).mems = s.mems := by
  unfold State.latchTrap
  repeat' first
    | with_reducible rfl
    | simp only [State.mems_ite, State.mems_upd, ite_self, State.put_mems]
    | with_reducible refine (State.mems_foldl ?_ _ _).trans ?_
    | intro _
    | dsimp only
    | split

theorem State.recordEvents_mems (s : State) (t : OpTag) (q : List Event) : (State.recordEvents s t q).mems = s.mems := by
  induction q generalizing s t <;> unfold State.recordEvents
  repeat' first
    | with_reducible rfl
    | simp only [State.mems_ite, State.mems_upd, ite_self, State.count_mems, State.latchTrap_mems]
    | with_reducible refine (State.mems_foldl ?_ _ _).trans ?_
    | simp only [*]
    | intro _
    | dsimp only
    | split

theorem State.raiseNum_mems (s : State) (t : OpTag) (c : Cause) : (State.raiseNum s t c).mems = s.mems := by
  unfold State.raiseNum
  repeat' first
    | with_reducible rfl
    | simp only [State.mems_ite, State.mems_upd, ite_self, State.raise_mems, State.abortHold_mems]
    | with_reducible refine (State.mems_foldl ?_ _ _).trans ?_
    | intro _
    | dsimp only
    | split

theorem State.opEvents_mems (s : State) (t : OpTag) (already : Bool) (es : List Event) : (State.opEvents s t already es).mems = s.mems := by
  unfold State.opEvents
  repeat' first
    | with_reducible rfl
    | simp only [State.mems_ite, State.mems_upd, ite_self, State.recordEvents_mems, State.raiseNum_mems]
    | with_reducible refine (State.mems_foldl ?_ _ _).trans ?_
    | intro _
    | dsimp only
    | split

theorem State.recordRefusal_mems (s : State) (n : Nat) (reason : Nat) (opid : Nat) (need : Nat) (have_ : Nat) : (State.recordRefusal s n reason opid need have_).mems = s.mems := by
  unfold State.recordRefusal
  repeat' first
    | with_reducible rfl
    | simp only [State.mems_ite, State.mems_upd, ite_self, State.put_mems]
    | with_reducible refine (State.mems_foldl ?_ _ _).trans ?_
    | intro _
    | dsimp only
    | split

theorem State.refuseCmd_mems (s : State) (n : Nat) (kind : Nat) (reason : Nat) (opid : Nat) (need : Nat) (have_ : Nat) : (State.refuseCmd s n kind reason opid need have_).mems = s.mems := by
  unfold State.refuseCmd
  repeat' first
    | with_reducible rfl
    | simp only [State.mems_ite, State.mems_upd, ite_self, State.raise_mems, State.recordRefusal_mems, State.setCore_mems, State.abortHold_mems]
    | with_reducible refine (State.mems_foldl ?_ _ _).trans ?_
    | intro _
    | dsimp only
    | split

theorem State.noteDone_mems (s : State) (n : Nat) (opid : Nat) : (State.noteDone s n opid).mems = s.mems := by
  unfold State.noteDone
  repeat' first
    | with_reducible rfl
    | simp only [State.mems_ite, State.mems_upd, ite_self]
    | with_reducible refine (State.mems_foldl ?_ _ _).trans ?_
    | intro _
    | dsimp only
    | split

theorem State.auditCore_mems (s : State) (n : Nat) : (State.auditCore s n).mems = s.mems := by
  unfold State.auditCore
  repeat' first
    | with_reducible rfl
    | simp only [State.mems_ite, State.mems_upd, ite_self, State.raise_mems]
    | with_reducible refine (State.mems_foldl ?_ _ _).trans ?_
    | intro _
    | dsimp only
    | split

theorem State.clearTrap_mems (s : State) (n : Nat) : (State.clearTrap s n).mems = s.mems := by
  unfold State.clearTrap
  repeat' first
    | with_reducible rfl
    | simp only [State.mems_ite, State.mems_upd, ite_self, State.put_mems]
    | with_reducible refine (State.mems_foldl ?_ _ _).trans ?_
    | intro _
    | dsimp only
    | split

theorem execTrapClear_mems (core : Nat) (s : State) (event : Bool) : outMems s.mems (execTrapClear core s event) = s.mems := by
  unfold execTrapClear
  repeat' first
    | with_reducible rfl
    | simp only [outMems_ite, outMems_next, outMems_fault, outMems_refused, outMems_void, State.mems_ite, State.mems_upd, ite_self, State.clearTrap_mems]
    | with_reducible refine (State.mems_foldl ?_ _ _).trans ?_
    | intro _
    | dsimp only
    | split


end Sys2Proof.Machine
end

