-- ==== Sys2Proof/Laws/MemHbm.lean ====
section
/-!
SUPPORT. Laws/MemHbm.lean: what Hbm.lean leaves of the memories and the queue. -/

set_option linter.unusedTactic false
set_option linter.unreachableTactic false
set_option linter.unusedSimpArgs false

namespace Sys2Proof.Machine

theorem State.countPoison_mems (s : State) (k : Nat) : (State.countPoison s k).mems = s.mems := by
  unfold State.countPoison
  repeat' first
    | with_reducible rfl
    | simp only [State.mems_ite, State.mems_upd, ite_self, State.put_mems]
    | with_reducible refine (State.mems_foldl ?_ _ _).trans ?_
    | intro _
    | dsimp only
    | split

theorem State.poisonHbm_mems (s : State) (gs : List Nat) : (State.poisonHbm s gs).mems = s.mems := by
  unfold State.poisonHbm
  repeat' first
    | with_reducible rfl
    | simp only [State.mems_ite, State.mems_upd, ite_self, State.countPoison_mems]
    | with_reducible refine (State.mems_foldl ?_ _ _).trans ?_
    | intro _
    | dsimp only
    | split

theorem State.hbmCheck_mems (s : State) (e : EccRes) : (State.hbmCheck s e).mems = s.mems := by
  unfold State.hbmCheck
  repeat' first
    | with_reducible rfl
    | simp only [State.mems_ite, State.mems_upd, ite_self, State.count_mems, State.put64_mems, State.countPoison_mems, State.raise_mems]
    | with_reducible refine (State.mems_foldl ?_ _ _).trans ?_
    | intro _
    | dsimp only
    | split

theorem State.stockCheck_mems (s : State) (e : EccRes) : (State.stockCheck s e).mems = s.mems := by
  unfold State.stockCheck
  repeat' first
    | with_reducible rfl
    | simp only [State.mems_ite, State.mems_upd, ite_self, State.count_mems, State.put64_mems, State.raise_mems]
    | with_reducible refine (State.mems_foldl ?_ _ _).trans ?_
    | intro _
    | dsimp only
    | split

theorem State.hbmChecks_mems (s : State) (a : Nat) (len : Nat) (l : List EccRes) : (State.hbmChecks s a len l).mems = s.mems := by
  unfold State.hbmChecks
  repeat' first
    | with_reducible rfl
    | simp only [State.mems_ite, State.mems_upd, ite_self, State.hbmCheck_mems]
    | with_reducible refine (State.mems_foldl ?_ _ _).trans ?_
    | intro _
    | dsimp only
    | split

theorem State.stockChecks_mems (s : State) (a : Nat) (len : Nat) (l : List EccRes) : (State.stockChecks s a len l).mems = s.mems := by
  unfold State.stockChecks
  repeat' first
    | with_reducible rfl
    | simp only [State.mems_ite, State.mems_upd, ite_self, State.stockCheck_mems]
    | with_reducible refine (State.mems_foldl ?_ _ _).trans ?_
    | intro _
    | dsimp only
    | split

theorem State.hbmTouched_mems (s : State) (a : Nat) (len : Nat) : (State.hbmTouched s a len).mems = s.mems := by
  unfold State.hbmTouched
  repeat' first
    | with_reducible rfl
    | simp only [State.mems_ite, State.mems_upd, ite_self, State.countPoison_mems, State.raise_mems]
    | with_reducible refine (State.mems_foldl ?_ _ _).trans ?_
    | intro _
    | dsimp only
    | split

theorem State.stockTouched_mems (s : State) (a : Nat) (len : Nat) : (State.stockTouched s a len).mems = s.mems := by
  unfold State.stockTouched
  repeat' first
    | with_reducible rfl
    | simp only [State.mems_ite, State.mems_upd, ite_self, State.raise_mems]
    | with_reducible refine (State.mems_foldl ?_ _ _).trans ?_
    | intro _
    | dsimp only
    | split

theorem State.poisonStock_mems (s : State) (gs : List Nat) : (State.poisonStock s gs).mems = s.mems := by
  unfold State.poisonStock
  repeat' first
    | with_reducible rfl
    | simp only [State.mems_ite, State.mems_upd, ite_self]
    | with_reducible refine (State.mems_foldl ?_ _ _).trans ?_
    | intro _
    | dsimp only
    | split


end Sys2Proof.Machine
end

