-- ==== Sys2Proof/Laws/MemFlux.lean ====
section
/-!
SUPPORT. Laws/MemFlux.lean: what Flux.lean leaves of the memories and the queue. -/

set_option linter.unusedTactic false
set_option linter.unreachableTactic false
set_option linter.unusedSimpArgs false

namespace Sys2Proof.Machine

theorem State.fluxCountAt_mems (s : State) (base : Nat → Nat) (l : List Flux.Stat) : (State.fluxCountAt s base l).mems = s.mems := by
  unfold State.fluxCountAt
  exact State.mems_foldl_fst (fun p a => by simp only [State.count64_mems, State.count_mems]) _ _

theorem State.fluxCount_mems (s : State) (base : Nat) (l : List Flux.Stat) : (State.fluxCount s base l).mems = s.mems := by
  unfold State.fluxCount
  repeat' first
    | with_reducible rfl
    | simp only [State.mems_ite, State.mems_upd, ite_self, State.fluxCountAt_mems]
    | with_reducible refine (State.mems_foldl ?_ _ _).trans ?_
    | intro _
    | dsimp only
    | split

theorem State.fluxPass_mems (s : State) (base : Nat) (len : Nat) : (State.fluxPass s base len).mems = s.mems := by
  unfold State.fluxPass
  repeat' first
    | with_reducible rfl
    | simp only [State.mems_ite, State.mems_upd, ite_self, State.fluxCount_mems]
    | with_reducible refine (State.mems_foldl ?_ _ _).trans ?_
    | intro _
    | dsimp only
    | split


end Sys2Proof.Machine
end

