-- ==== Sys2Proof/Laws/MemMatrix.lean ====
section
/-!
SUPPORT. Laws/MemMatrix.lean: what Matrix.lean leaves of the memories and the queue. -/

set_option linter.unusedTactic false
set_option linter.unreachableTactic false
set_option linter.unusedSimpArgs false

namespace Sys2Proof.Machine

theorem State.strandedCheck_mems (s : State) (n : Nat) (a : Nat) : (State.strandedCheck s n a).mems = s.mems := by
  unfold State.strandedCheck
  repeat' first
    | with_reducible rfl
    | simp only [State.mems_ite, State.mems_upd, ite_self, State.setCore_mems, State.raise_mems, State.abortAt_mems]
    | with_reducible refine (State.mems_foldl ?_ _ _).trans ?_
    | intro _
    | dsimp only
    | split

theorem State.afterComplete_mems (s : State) (n : Nat) (k : Nat) : (State.afterComplete s n k).mems = s.mems := by
  unfold State.afterComplete
  repeat' first
    | with_reducible rfl
    | simp only [State.mems_ite, State.mems_upd, ite_self, State.strandedCheck_mems]
    | with_reducible refine (State.mems_foldl ?_ _ _).trans ?_
    | intro _
    | dsimp only
    | split

theorem execIssueComplete_mems (core : Nat) (s : State) : outMems s.mems (execIssueComplete core s) = s.mems := by
  unfold execIssueComplete
  repeat' first
    | with_reducible rfl
    | simp only [outMems_ite, outMems_next, outMems_fault, outMems_refused, outMems_void, State.mems_ite, State.mems_upd, ite_self, State.setCore_mems, State.count64_mems, State.opEvents_mems, State.noteDone_mems, State.auditCore_mems, State.afterComplete_mems]
    | with_reducible refine (State.mems_foldl ?_ _ _).trans ?_
    | intro _
    | dsimp only
    | split

theorem execUndefinedOp_mems (core : Nat) (words : List Word) (s : State) : outMems s.mems (execUndefinedOp core words s) = s.mems := by
  unfold execUndefinedOp
  repeat' first
    | with_reducible rfl
    | simp only [outMems_ite, outMems_next, outMems_fault, outMems_refused, outMems_void, State.mems_ite, State.mems_upd, ite_self, State.refuseCmd_mems]
    | with_reducible refine (State.mems_foldl ?_ _ _).trans ?_
    | intro _
    | dsimp only
    | split


end Sys2Proof.Machine
end

