-- ==== Sys2Proof/Laws/MemVector.lean ====
section
/-!
SUPPORT. Laws/MemVector.lean: what Vector.lean leaves of the memories and the queue. -/

set_option linter.unusedTactic false
set_option linter.unreachableTactic false
set_option linter.unusedSimpArgs false

namespace Sys2Proof.Machine

theorem State.refuseVec_mems (s : State) (n : Nat) (d : VC) : (State.refuseVec s n d).mems = s.mems := by
  unfold State.refuseVec
  repeat' first
    | with_reducible rfl
    | simp only [State.mems_ite, State.mems_upd, ite_self, State.refuseCmd_mems]
    | with_reducible refine (State.mems_foldl ?_ _ _).trans ?_
    | intro _
    | dsimp only
    | split

theorem State.endVec_mems (s : State) (n : Nat) (k : Nat) (opid : Nat) (cycles : Nat) : (State.endVec s n k opid cycles).mems = s.mems := by
  unfold State.endVec
  repeat' first
    | with_reducible rfl
    | simp only [State.mems_ite, State.mems_upd, ite_self, State.noteDone_mems, State.setCore_mems, State.count_mems, State.count64_mems]
    | with_reducible refine (State.mems_foldl ?_ _ _).trans ?_
    | intro _
    | dsimp only
    | split

theorem State.finishVec_mems (s : State) (n : Nat) (opid : Nat) (cycles : Nat) : (State.finishVec s n opid cycles).mems = s.mems := by
  unfold State.finishVec
  repeat' first
    | with_reducible rfl
    | simp only [State.mems_ite, State.mems_upd, ite_self, State.setCore_mems, State.endVec_mems]
    | with_reducible refine (State.mems_foldl ?_ _ _).trans ?_
    | intro _
    | dsimp only
    | split

theorem State.setTiles_mems (s : State) (n : Nat) (m : Memory) : (State.setTiles s n m).mems = s.mems := by
  unfold State.setTiles
  repeat' first
    | with_reducible rfl
    | simp only [State.mems_ite, State.mems_upd, ite_self, State.setCore_mems]
    | with_reducible refine (State.mems_foldl ?_ _ _).trans ?_
    | intro _
    | dsimp only
    | split

theorem State.applyVec_mems (s : State) (n : Nat) (d : VC) (r : VecRes) (cycles : Nat) : (State.applyVec s n d r cycles).mems = s.mems := by
  unfold State.applyVec
  repeat' first
    | with_reducible rfl
    | simp only [State.mems_ite, State.mems_upd, ite_self, State.setTiles_mems, State.opEvents_mems, State.finishVec_mems]
    | with_reducible refine (State.mems_foldl ?_ _ _).trans ?_
    | intro _
    | dsimp only
    | split

theorem vecCmd_mems (n : Nat) (op : Nat) (cycles : Nat) (ok : VC → Bool) (eff : Memory → VC → VecRes) (ws : List Word) (s : State) {m : Mems} (hm : s.mems = m) : outMems m (vecCmd n op cycles ok eff ws s) = m := by
  subst hm
  unfold vecCmd
  repeat' first
    | with_reducible rfl
    | simp only [outMems_ite, outMems_next, outMems_fault, outMems_refused, outMems_void, State.mems_ite, State.mems_upd, ite_self, State.refuseVec_mems, State.applyVec_mems]
    | with_reducible refine (State.mems_foldl ?_ _ _).trans ?_
    | intro _
    | dsimp only
    | split

theorem execEw_mems (core : Nat) (words : List Word) (s : State) : outMems s.mems (execEw core words s) = s.mems := by
  unfold execEw
  repeat' first
    | with_reducible rfl
    | simp only [outMems_ite, outMems_next, outMems_fault, outMems_refused, outMems_void, State.mems_ite, State.mems_upd, ite_self, vecCmd_mems]
    | with_reducible refine (State.mems_foldl ?_ _ _).trans ?_
    | intro _
    | dsimp only
    | split

theorem execFn_mems (core : Nat) (words : List Word) (s : State) : outMems s.mems (execFn core words s) = s.mems := by
  unfold execFn
  repeat' first
    | with_reducible rfl
    | simp only [outMems_ite, outMems_next, outMems_fault, outMems_refused, outMems_void, State.mems_ite, State.mems_upd, ite_self, vecCmd_mems]
    | with_reducible refine (State.mems_foldl ?_ _ _).trans ?_
    | intro _
    | dsimp only
    | split

theorem execAct_mems (core : Nat) (words : List Word) (s : State) : outMems s.mems (execAct core words s) = s.mems := by
  unfold execAct
  repeat' first
    | with_reducible rfl
    | simp only [outMems_ite, outMems_next, outMems_fault, outMems_refused, outMems_void, State.mems_ite, State.mems_upd, ite_self, vecCmd_mems]
    | with_reducible refine (State.mems_foldl ?_ _ _).trans ?_
    | intro _
    | dsimp only
    | split

theorem execDact_mems (core : Nat) (words : List Word) (s : State) : outMems s.mems (execDact core words s) = s.mems := by
  unfold execDact
  repeat' first
    | with_reducible rfl
    | simp only [outMems_ite, outMems_next, outMems_fault, outMems_refused, outMems_void, State.mems_ite, State.mems_upd, ite_self, vecCmd_mems]
    | with_reducible refine (State.mems_foldl ?_ _ _).trans ?_
    | intro _
    | dsimp only
    | split

theorem execReduce_mems (core : Nat) (words : List Word) (s : State) : outMems s.mems (execReduce core words s) = s.mems := by
  unfold execReduce
  repeat' first
    | with_reducible rfl
    | simp only [outMems_ite, outMems_next, outMems_fault, outMems_refused, outMems_void, State.mems_ite, State.mems_upd, ite_self, State.count_mems, vecCmd_mems]
    | with_reducible refine (State.mems_foldl ?_ _ _).trans ?_
    | intro _
    | dsimp only
    | split

theorem execPerm_mems (core : Nat) (words : List Word) (s : State) : outMems s.mems (execPerm core words s) = s.mems := by
  unfold execPerm
  repeat' first
    | with_reducible rfl
    | simp only [outMems_ite, outMems_next, outMems_fault, outMems_refused, outMems_void, State.mems_ite, State.mems_upd, ite_self, vecCmd_mems]
    | with_reducible refine (State.mems_foldl ?_ _ _).trans ?_
    | intro _
    | dsimp only
    | split

theorem execTrans_mems (core : Nat) (words : List Word) (s : State) : outMems s.mems (execTrans core words s) = s.mems := by
  unfold execTrans
  repeat' first
    | with_reducible rfl
    | simp only [outMems_ite, outMems_next, outMems_fault, outMems_refused, outMems_void, State.mems_ite, State.mems_upd, ite_self, vecCmd_mems]
    | with_reducible refine (State.mems_foldl ?_ _ _).trans ?_
    | intro _
    | dsimp only
    | split

theorem execShuf_mems (core : Nat) (words : List Word) (s : State) : outMems s.mems (execShuf core words s) = s.mems := by
  unfold execShuf
  repeat' first
    | with_reducible rfl
    | simp only [outMems_ite, outMems_next, outMems_fault, outMems_refused, outMems_void, State.mems_ite, State.mems_upd, ite_self, vecCmd_mems]
    | with_reducible refine (State.mems_foldl ?_ _ _).trans ?_
    | intro _
    | dsimp only
    | split

theorem execPack_mems (core : Nat) (words : List Word) (s : State) : outMems s.mems (execPack core words s) = s.mems := by
  unfold execPack
  repeat' first
    | with_reducible rfl
    | simp only [outMems_ite, outMems_next, outMems_fault, outMems_refused, outMems_void, State.mems_ite, State.mems_upd, ite_self, vecCmd_mems]
    | with_reducible refine (State.mems_foldl ?_ _ _).trans ?_
    | intro _
    | dsimp only
    | split

theorem execUnpack_mems (core : Nat) (words : List Word) (s : State) : outMems s.mems (execUnpack core words s) = s.mems := by
  unfold execUnpack
  repeat' first
    | with_reducible rfl
    | simp only [outMems_ite, outMems_next, outMems_fault, outMems_refused, outMems_void, State.mems_ite, State.mems_upd, ite_self, vecCmd_mems]
    | with_reducible refine (State.mems_foldl ?_ _ _).trans ?_
    | intro _
    | dsimp only
    | split

theorem State.vecWaits_mems (s : State) (n : Nat) : (State.vecWaits s n).mems = s.mems := by
  unfold State.vecWaits
  repeat' first
    | with_reducible rfl
    | simp only [State.mems_ite, State.mems_upd, ite_self, State.setCore_mems]
    | with_reducible refine (State.mems_foldl ?_ _ _).trans ?_
    | intro _
    | dsimp only
    | split

theorem execLd_mems (core : Nat) (words : List Word) (s : State) : outMems s.mems (execLd core words s) = s.mems := by
  unfold execLd
  repeat' first
    | with_reducible rfl
    | simp only [outMems_ite, outMems_next, outMems_fault, outMems_refused, outMems_void, State.mems_ite, State.mems_upd, ite_self, State.refuseVec_mems, State.vecWaits_mems, State.setTiles_mems, State.opEvents_mems, State.finishVec_mems]
    | with_reducible refine (State.mems_foldl ?_ _ _).trans ?_
    | intro _
    | dsimp only
    | split

theorem execSetshape_mems (core : Nat) (words : List Word) (s : State) : outMems s.mems (execSetshape core words s) = s.mems := by
  unfold execSetshape
  repeat' first
    | with_reducible rfl
    | simp only [outMems_ite, outMems_next, outMems_fault, outMems_refused, outMems_void, State.mems_ite, State.mems_upd, ite_self, State.refuseVec_mems, State.put_mems, State.finishVec_mems]
    | with_reducible refine (State.mems_foldl ?_ _ _).trans ?_
    | intro _
    | dsimp only
    | split


end Sys2Proof.Machine
end

