-- ==== Sys2Proof/Laws/MemSwage.lean ====
section
/-!
SUPPORT. Laws/MemSwage.lean: what Swage.lean leaves of the memories and the queue. -/

set_option linter.unusedTactic false
set_option linter.unreachableTactic false
set_option linter.unusedSimpArgs false

namespace Sys2Proof.Machine

theorem execDwconv_mems (core : Nat) (words : List Word) (s : State) : outMems s.mems (execDwconv core words s) = s.mems := by
  unfold execDwconv
  repeat' first
    | with_reducible rfl
    | simp only [outMems_ite, outMems_next, outMems_fault, outMems_refused, outMems_void, State.mems_ite, State.mems_upd, ite_self, State.refuseVec_mems, State.vecWaits_mems, State.setCore_mems]
    | with_reducible refine (State.mems_foldl ?_ _ _).trans ?_
    | intro _
    | dsimp only
    | split

theorem State.setRun_mems (s : State) (n : Nat) (seg : Nat) (f : SegRun → SegRun) : (State.setRun s n seg f).mems = s.mems := by
  unfold State.setRun
  repeat' first
    | with_reducible rfl
    | simp only [State.mems_ite, State.mems_upd, ite_self, State.setCore_mems]
    | with_reducible refine (State.mems_foldl ?_ _ _).trans ?_
    | intro _
    | dsimp only
    | split

theorem State.sendEdge_mems (s : State) (n : Nat) (e : EdgeRow) : (State.sendEdge s n e).mems = s.mems := by
  unfold State.sendEdge
  repeat' first
    | with_reducible rfl
    | simp only [State.mems_ite, State.mems_upd, ite_self, State.setRun_mems, State.count_mems]
    | with_reducible refine (State.mems_foldl ?_ _ _).trans ?_
    | intro _
    | dsimp only
    | split

theorem State.returnHalo_mems (s : State) (n : Nat) (seg : Nat) (up : Bool) (k : Nat) : (State.returnHalo s n seg up k).mems = s.mems := by
  unfold State.returnHalo
  repeat' first
    | with_reducible rfl
    | simp only [State.mems_ite, State.mems_upd, ite_self]
    | with_reducible refine (State.mems_foldl ?_ _ _).trans ?_
    | intro _
    | dsimp only
    | split

theorem State.releaseRows_mems (s : State) (n : Nat) (seg : Nat) (k : Nat) (w : SwageSet) (p : Nat) : (State.releaseRows s n seg k w p).mems = s.mems := by
  unfold State.releaseRows
  repeat' first
    | with_reducible rfl
    | simp only [State.mems_ite, State.mems_upd, ite_self, State.setRun_mems, State.returnHalo_mems]
    | with_reducible refine (State.mems_foldl ?_ _ _).trans ?_
    | intro _
    | dsimp only
    | split

theorem State.refuseRow_mems (s : State) (n : Nat) (seg : Nat) (up : Bool) : (State.refuseRow s n seg up).mems = s.mems := by
  unfold State.refuseRow
  repeat' first
    | with_reducible rfl
    | simp only [State.mems_ite, State.mems_upd, ite_self, State.setRun_mems, State.count_mems, State.raise_mems, State.abortHold_mems]
    | with_reducible refine (State.mems_foldl ?_ _ _).trans ?_
    | intro _
    | dsimp only
    | split

theorem execHaloCreditReturn_mems (core : Nat) (up : Bool) (s : State) : outMems s.mems (execHaloCreditReturn core up s) = s.mems := by
  unfold execHaloCreditReturn
  repeat' first
    | with_reducible rfl
    | simp only [outMems_ite, outMems_next, outMems_fault, outMems_refused, outMems_void, State.mems_ite, State.mems_upd, ite_self, State.setRun_mems, State.sendEdge_mems]
    | with_reducible refine (State.mems_foldl ?_ _ _).trans ?_
    | intro _
    | dsimp only
    | split

theorem execTermwalk_mems (core : Nat) (words : List Word) (s : State) : outMems s.mems (execTermwalk core words s) = s.mems := by
  unfold execTermwalk
  repeat' first
    | with_reducible rfl
    | simp only [outMems_ite, outMems_next, outMems_fault, outMems_refused, outMems_void, State.mems_ite, State.mems_upd, ite_self, State.refuseVec_mems, State.vecWaits_mems, State.setCore_mems]
    | with_reducible refine (State.mems_foldl ?_ _ _).trans ?_
    | intro _
    | dsimp only
    | split


end Sys2Proof.Machine
end

