-- ==== Sys2Proof/Laws/MemKv.lean ====
section
/-!
SUPPORT. Laws/MemKv.lean: what Kv.lean leaves of the memories and the queue. -/

set_option linter.unusedTactic false
set_option linter.unreachableTactic false
set_option linter.unusedSimpArgs false

namespace Sys2Proof.Machine

theorem State.putPage_mems (s : State) (id : Nat) (p : KvPage) : (State.putPage s id p).mems = s.mems := by
  unfold State.putPage
  repeat' first
    | with_reducible rfl
    | simp only [State.mems_ite, State.mems_upd, ite_self, State.uncount_mems, State.count_mems]
    | with_reducible refine (State.mems_foldl ?_ _ _).trans ?_
    | intro _
    | dsimp only
    | split

theorem State.putStream_mems (s : State) (id : Nat) (e : Option KvStream) : (State.putStream s id e).mems = s.mems := by
  unfold State.putStream
  repeat' first
    | with_reducible rfl
    | simp only [State.mems_ite, State.mems_upd, ite_self, State.put_mems]
    | with_reducible refine (State.mems_foldl ?_ _ _).trans ?_
    | intro _
    | dsimp only
    | split

theorem State.kvLog_mems (s : State) (u : KvUndo) : (State.kvLog s u).mems = s.mems := by
  unfold State.kvLog
  repeat' first
    | with_reducible rfl
    | simp only [State.mems_ite, State.mems_upd, ite_self]
    | with_reducible refine (State.mems_foldl ?_ _ _).trans ?_
    | intro _
    | dsimp only
    | split

theorem State.setPage_mems (s : State) (id : Nat) (p : KvPage) : (State.setPage s id p).mems = s.mems := by
  unfold State.setPage
  repeat' first
    | with_reducible rfl
    | simp only [State.mems_ite, State.mems_upd, ite_self, State.putPage_mems, State.kvLog_mems]
    | with_reducible refine (State.mems_foldl ?_ _ _).trans ?_
    | intro _
    | dsimp only
    | split

theorem State.setStream_mems (s : State) (id : Nat) (e : Option KvStream) : (State.setStream s id e).mems = s.mems := by
  unfold State.setStream
  repeat' first
    | with_reducible rfl
    | simp only [State.mems_ite, State.mems_upd, ite_self, State.putStream_mems, State.kvLog_mems]
    | with_reducible refine (State.mems_foldl ?_ _ _).trans ?_
    | intro _
    | dsimp only
    | split

theorem State.retirePage_mems (s : State) (id : Nat) : (State.retirePage s id).mems = s.mems := by
  unfold State.retirePage
  repeat' first
    | with_reducible rfl
    | simp only [State.mems_ite, State.mems_upd, ite_self, State.setPage_mems, State.count_mems]
    | with_reducible refine (State.mems_foldl ?_ _ _).trans ?_
    | intro _
    | dsimp only
    | split

theorem State.advanceEpoch_mems (s : State) : (State.advanceEpoch s).mems = s.mems := by
  unfold State.advanceEpoch
  repeat' first
    | with_reducible rfl
    | simp only [State.mems_ite, State.mems_upd, ite_self]
    | with_reducible refine (State.mems_foldl ?_ _ _).trans ?_
    | intro _
    | dsimp only
    | split

theorem State.releasePages_mems (s : State) : (State.releasePages s).mems = s.mems := by
  unfold State.releasePages
  repeat' first
    | with_reducible rfl
    | simp only [State.mems_ite, State.mems_upd, ite_self, State.putPage_mems]
    | with_reducible refine (State.mems_foldl ?_ _ _).trans ?_
    | intro _
    | dsimp only
    | split

theorem State.dropData_mems (s : State) (id : Nat) : (State.dropData s id).mems = s.mems := by
  unfold State.dropData
  repeat' first
    | with_reducible rfl
    | simp only [State.mems_ite, State.mems_upd, ite_self, State.count_mems, State.retirePage_mems, State.setPage_mems]
    | with_reducible refine (State.mems_foldl ?_ _ _).trans ?_
    | intro _
    | dsimp only
    | split

theorem State.auditPages_mems (s : State) : (State.auditPages s).mems = s.mems := by
  unfold State.auditPages
  repeat' first
    | with_reducible rfl
    | simp only [State.mems_ite, State.mems_upd, ite_self, State.raise_mems]
    | with_reducible refine (State.mems_foldl ?_ _ _).trans ?_
    | intro _
    | dsimp only
    | split

theorem State.refuseKv_mems (s : State) (n : Nat) (opid : Nat) (id : Nat) (kind : Nat) : (State.refuseKv s n opid id kind).mems = s.mems := by
  unfold State.refuseKv
  repeat' first
    | with_reducible rfl
    | simp only [State.mems_ite, State.mems_upd, ite_self, State.count_mems, State.raise_mems, State.recordRefusal_mems, State.setCore_mems, State.abortHold_mems]
    | with_reducible refine (State.mems_foldl ?_ _ _).trans ?_
    | intro _
    | dsimp only
    | split

theorem State.passToken_mems (s : State) (core : Nat) (st : KvStream) (layer : Nat) (group : Nat) (t : Nat) : (State.passToken s core st layer group t).mems = s.mems := by
  unfold State.passToken
  repeat' first
    | with_reducible rfl
    | simp only [State.mems_ite, State.mems_upd, ite_self, State.fluxPass_mems]
    | with_reducible refine (State.mems_foldl ?_ _ _).trans ?_
    | intro _
    | dsimp only
    | split

theorem State.unpin_mems (s : State) (e : Nat) : (State.unpin s e).mems = s.mems := by
  unfold State.unpin
  repeat' first
    | with_reducible rfl
    | simp only [State.mems_ite, State.mems_upd, ite_self, State.releasePages_mems, State.advanceEpoch_mems]
    | with_reducible refine (State.mems_foldl ?_ _ _).trans ?_
    | intro _
    | dsimp only
    | split

theorem State.kvCommit_mems (s : State) : (State.kvCommit s).mems = s.mems := by
  unfold State.kvCommit
  repeat' first
    | with_reducible rfl
    | simp only [State.mems_ite, State.mems_upd, ite_self, State.releasePages_mems, State.advanceEpoch_mems]
    | with_reducible refine (State.mems_foldl ?_ _ _).trans ?_
    | intro _
    | dsimp only
    | split

theorem State.kvAudit_mems (s : State) : (State.kvAudit s).mems = s.mems := by
  unfold State.kvAudit
  repeat' first
    | with_reducible rfl
    | simp only [State.mems_ite, State.mems_upd, ite_self, State.auditPages_mems, State.raise_mems]
    | with_reducible refine (State.mems_foldl ?_ _ _).trans ?_
    | intro _
    | dsimp only
    | split

theorem execKvAuditStart_mems (s : State) : outMems s.mems (execKvAuditStart s) = s.mems := by
  unfold execKvAuditStart
  repeat' first
    | with_reducible rfl
    | simp only [outMems_ite, outMems_next, outMems_fault, outMems_refused, outMems_void, State.mems_ite, State.mems_upd, ite_self, State.put_mems]
    | with_reducible refine (State.mems_foldl ?_ _ _).trans ?_
    | intro _
    | dsimp only
    | split

theorem execKvAuditDone_mems (s : State) : outMems s.mems (execKvAuditDone s) = s.mems := by
  unfold execKvAuditDone
  repeat' first
    | with_reducible rfl
    | simp only [outMems_ite, outMems_next, outMems_fault, outMems_refused, outMems_void, State.mems_ite, State.mems_upd, ite_self, State.put_mems, State.raise_mems]
    | with_reducible refine (State.mems_foldl ?_ _ _).trans ?_
    | intro _
    | dsimp only
    | split


end Sys2Proof.Machine
end

