-- ==== Sys2Proof/Laws/MemAttention.lean ====
section
/-!
SUPPORT. Laws/MemAttention.lean: what Attention.lean leaves of the memories and the queue. -/

set_option linter.unusedTactic false
set_option linter.unreachableTactic false
set_option linter.unusedSimpArgs false

namespace Sys2Proof.Machine

theorem State.attnEvents_mems (s : State) (n : Nat) (v : VC) (es : List AEv) : (State.attnEvents s n v es).mems = s.mems := by
  unfold State.attnEvents
  repeat' first
    | with_reducible rfl
    | simp only [State.mems_ite, State.mems_upd, ite_self, State.recordEvents_mems, State.raiseNum_mems]
    | with_reducible refine (State.mems_foldl ?_ _ _).trans ?_
    | intro _
    | dsimp only
    | split

theorem State.gather_mems (s : State) (n : Nat) (st : KvStream) (d : At) (nq : Nat) (nk : Nat) (ecc : List EccRes) : (State.gather s n st d nq nk ecc).mems = s.mems := by
  unfold State.gather
  repeat' first
    | with_reducible rfl
    | simp only [State.mems_ite, State.mems_upd, ite_self, State.hbmChecks_mems, State.fluxPass_mems, State.fluxCount_mems]
    | with_reducible refine (State.mems_foldl ?_ _ _).trans ?_
    | intro _
    | dsimp only
    | split

theorem State.appendChecks_mems (s : State) (d : At) (ecc : List EccRes) : (State.appendChecks s d ecc).mems = s.mems := by
  unfold State.appendChecks
  repeat' first
    | with_reducible rfl
    | simp only [State.mems_ite, State.mems_upd, ite_self, State.count_mems, State.hbmChecks_mems]
    | with_reducible refine (State.mems_foldl ?_ _ _).trans ?_
    | intro _
    | dsimp only
    | split

theorem State.holdAttn_mems (s : State) (n : Nat) (ws : List Nat) : (State.holdAttn s n ws).mems = s.mems := by
  unfold State.holdAttn
  repeat' first
    | with_reducible rfl
    | simp only [State.mems_ite, State.mems_upd, ite_self, State.setCore_mems]
    | with_reducible refine (State.mems_foldl ?_ _ _).trans ?_
    | intro _
    | dsimp only
    | split

theorem execAttnComplete_mems (core : Nat) (s : State) : outMems s.mems (execAttnComplete core s) = s.mems := by
  unfold execAttnComplete
  repeat' first
    | with_reducible rfl
    | simp only [outMems_ite, outMems_next, outMems_fault, outMems_refused, outMems_void, State.mems_ite, State.mems_upd, ite_self, State.setCore_mems, State.unpin_mems, State.count_mems, State.count64_mems, State.endVec_mems, State.auditCore_mems]
    | with_reducible refine (State.mems_foldl ?_ _ _).trans ?_
    | intro _
    | dsimp only
    | split


end Sys2Proof.Machine
end

