-- ==== Sys2Proof/Laws/MemRoutes.lean ====
section
/-!
SUPPORT. Laws/MemRoutes.lean: what Routes.lean leaves of the memories and the queue. -/

set_option linter.unusedTactic false
set_option linter.unreachableTactic false
set_option linter.unusedSimpArgs false

namespace Sys2Proof.Machine

theorem State.buildRoutes_mems (s : State) : (State.buildRoutes s).mems = s.mems := by
  unfold State.buildRoutes
  repeat' first
    | with_reducible rfl
    | simp only [State.mems_ite, State.mems_upd, ite_self]
    | with_reducible refine (State.mems_foldl ?_ _ _).trans ?_
    | intro _
    | dsimp only
    | split

theorem State.buildTree_mems (s : State) (master : Nat) : (State.buildTree s master).mems = s.mems := by
  unfold State.buildTree
  repeat' first
    | with_reducible rfl
    | simp only [State.mems_ite, State.mems_upd, ite_self, State.put_mems]
    | with_reducible refine (State.mems_foldl ?_ _ _).trans ?_
    | intro _
    | dsimp only
    | split

theorem State.repairTree_mems (s : State) : (State.repairTree s).mems = s.mems := by
  unfold State.repairTree
  repeat' first
    | with_reducible rfl
    | simp only [State.mems_ite, State.mems_upd, ite_self, State.put_mems, State.raise_mems, State.sendOn_mems]
    | with_reducible refine (State.mems_foldl ?_ _ _).trans ?_
    | intro _
    | dsimp only
    | split

theorem State.flood_mems (s : State) (r : LinkRec) (except : Option Nat) : (State.flood s r except).mems = s.mems := by
  unfold State.flood
  repeat' first
    | with_reducible rfl
    | simp only [State.mems_ite, State.mems_upd, ite_self, State.sendOn_mems]
    | with_reducible refine (State.mems_foldl ?_ _ _).trans ?_
    | intro _
    | dsimp only
    | split

theorem State.originate_mems (s : State) : (State.originate s).mems = s.mems := by
  unfold State.originate
  repeat' first
    | with_reducible rfl
    | simp only [State.mems_ite, State.mems_upd, ite_self, State.flood_mems]
    | with_reducible refine (State.mems_foldl ?_ _ _).trans ?_
    | intro _
    | dsimp only
    | split


end Sys2Proof.Machine
end

