-- ==== Sys2Proof/Laws/MemJournal.lean ====
section
/-!
SUPPORT. Laws/MemJournal.lean: what Journal.lean leaves of the memories and the queue. -/

set_option linter.unusedTactic false
set_option linter.unreachableTactic false
set_option linter.unusedSimpArgs false

namespace Sys2Proof.Machine

theorem State.journal_mems (s : State) (origin : Nat) (opcode : Nat) (result : Nat) (tag : Nat) (who : Nat) (record : List Byte) : (State.journal s origin opcode result tag who record).mems = s.mems := by
  unfold State.journal
  repeat' first
    | with_reducible rfl
    | simp only [State.mems_ite, State.mems_upd, ite_self]
    | with_reducible refine (State.mems_foldl ?_ _ _).trans ?_
    | intro _
    | dsimp only
    | split

theorem State.journalInternal_mems (s : State) (origin : Nat) (kind : Nat) (fields : List (Nat × Nat × Nat)) : (State.journalInternal s origin kind fields).mems = s.mems := by
  unfold State.journalInternal
  repeat' first
    | with_reducible rfl
    | simp only [State.mems_ite, State.mems_upd, ite_self, State.journal_mems]
    | with_reducible refine (State.mems_foldl ?_ _ _).trans ?_
    | intro _
    | dsimp only
    | split

theorem State.flushReset_mems (s : State) : (State.flushReset s).mems = s.mems := by
  unfold State.flushReset
  repeat' first
    | with_reducible rfl
    | simp only [State.mems_ite, State.mems_upd, ite_self, State.journalInternal_mems]
    | with_reducible refine (State.mems_foldl ?_ _ _).trans ?_
    | intro _
    | dsimp only
    | split

theorem State.journalStop_mems (s : State) (cause : Nat) (angle : Nat) : (State.journalStop s cause angle).mems = s.mems := by
  unfold State.journalStop
  repeat' first
    | with_reducible rfl
    | simp only [State.mems_ite, State.mems_upd, ite_self, State.journalInternal_mems]
    | with_reducible refine (State.mems_foldl ?_ _ _).trans ?_
    | intro _
    | dsimp only
    | split

theorem State.setSlot_mems (s : State) (x : Slot) : (State.setSlot s x).mems = s.mems := by
  unfold State.setSlot
  repeat' first
    | with_reducible rfl
    | simp only [State.mems_ite, State.mems_upd, ite_self]
    | with_reducible refine (State.mems_foldl ?_ _ _).trans ?_
    | intro _
    | dsimp only
    | split

theorem State.freeSlot_mems (s : State) (n : Nat) : (State.freeSlot s n).mems = s.mems := by
  unfold State.freeSlot
  repeat' first
    | with_reducible rfl
    | simp only [State.mems_ite, State.mems_upd, ite_self]
    | with_reducible refine (State.mems_foldl ?_ _ _).trans ?_
    | intro _
    | dsimp only
    | split

theorem State.finish_mems (s : State) (x : Slot) (code : Nat) (result : List Byte) : (State.finish s x code result).mems = s.mems := by
  unfold State.finish
  repeat' first
    | with_reducible rfl
    | simp only [State.mems_ite, State.mems_upd, ite_self, State.flushReset_mems, State.journal_mems, State.setSlot_mems, State.count_mems, State.freeSlot_mems]
    | with_reducible refine (State.mems_foldl ?_ _ _).trans ?_
    | intro _
    | dsimp only
    | split

theorem State.finishRunning_mems (s : State) (code : Nat) (result : List Byte) : (State.finishRunning s code result).mems = s.mems := by
  unfold State.finishRunning
  repeat' first
    | with_reducible rfl
    | simp only [State.mems_ite, State.mems_upd, ite_self, State.finish_mems]
    | with_reducible refine (State.mems_foldl ?_ _ _).trans ?_
    | intro _
    | dsimp only
    | split

theorem State.refuseWith_mems (s : State) (src : Nat) (kind : Nat) (cls : Nat) (addr : Nat) : (State.refuseWith s src kind cls addr).mems = s.mems := by
  unfold State.refuseWith
  repeat' first
    | with_reducible rfl
    | simp only [State.mems_ite, State.mems_upd, ite_self, State.raise_mems, State.finishRunning_mems]
    | with_reducible refine (State.mems_foldl ?_ _ _).trans ?_
    | intro _
    | dsimp only
    | split

theorem withSlot_mems (s : State) (n opcode : Nat) (f : Slot → Host.Outcome State Fault Refusal)
    (hf : ∀ x, outMems s.mems (f x) = s.mems) : outMems s.mems (withSlot s n opcode f) = s.mems := by
  unfold withSlot
  split
  · rfl
  · split
    · exact hf _
    · simp only [outMems_next, State.finish_mems]

theorem State.startRunning_mems (s : State) (x : Slot) : (State.startRunning s x).mems = s.mems := by
  unfold State.startRunning
  repeat' first
    | with_reducible rfl
    | simp only [State.mems_ite, State.mems_upd, ite_self]
    | with_reducible refine (State.mems_foldl ?_ _ _).trans ?_
    | intro _
    | dsimp only
    | split


end Sys2Proof.Machine
end

