-- ==== Sys2Proof/Laws/MemBays.lean ====
section
/-!
SUPPORT. Laws/MemBays.lean: what Bays.lean leaves of the memories and the queue. -/

set_option linter.unusedTactic false
set_option linter.unreachableTactic false
set_option linter.unusedSimpArgs false

namespace Sys2Proof.Machine

theorem State.ingFault_mems (s : State) (kind : Nat) (bay : Nat) (gen : Nat) : (State.ingFault s kind bay gen).mems = s.mems := by
  unfold State.ingFault
  repeat' first
    | with_reducible rfl
    | simp only [State.mems_ite, State.mems_upd, ite_self, State.raise_mems]
    | with_reducible refine (State.mems_foldl ?_ _ _).trans ?_
    | intro _
    | dsimp only
    | split

theorem State.setCart_mems (s : State) (b : Nat) (c : Cart) : (State.setCart s b c).mems = s.mems := by
  unfold State.setCart
  repeat' first
    | with_reducible rfl
    | simp only [State.mems_ite, State.mems_upd, ite_self, State.put_mems]
    | with_reducible refine (State.mems_foldl ?_ _ _).trans ?_
    | intro _
    | dsimp only
    | split

theorem State.setWritten_mems (s : State) (b : Nat) (w : Nat) : (State.setWritten s b w).mems = s.mems := by
  unfold State.setWritten
  repeat' first
    | with_reducible rfl
    | simp only [State.mems_ite, State.mems_upd, ite_self, State.put64_mems, State.put_mems, State.ingFault_mems]
    | with_reducible refine (State.mems_foldl ?_ _ _).trans ?_
    | intro _
    | dsimp only
    | split

theorem State.addWritten_mems (s : State) (b : Nat) (n : Nat) : (State.addWritten s b n).mems = s.mems := by
  unfold State.addWritten
  repeat' first
    | with_reducible rfl
    | simp only [State.mems_ite, State.mems_upd, ite_self, State.setWritten_mems, State.count64_mems]
    | with_reducible refine (State.mems_foldl ?_ _ _).trans ?_
    | intro _
    | dsimp only
    | split

theorem State.readLabel_mems (s : State) (b : Nat) : (State.readLabel s b).mems = s.mems := by
  unfold State.readLabel
  repeat' first
    | with_reducible rfl
    | simp only [State.mems_ite, State.mems_upd, ite_self, State.put_mems, State.emit_mems, State.setCart_mems, State.addWritten_mems]
    | with_reducible refine (State.mems_foldl ?_ _ _).trans ?_
    | intro _
    | dsimp only
    | split

theorem State.readLabels_mems (s : State) : (State.readLabels s).mems = s.mems := by
  unfold State.readLabels
  repeat' first
    | with_reducible rfl
    | simp only [State.mems_ite, State.mems_upd, ite_self, State.readLabel_mems]
    | with_reducible refine (State.mems_foldl ?_ _ _).trans ?_
    | intro _
    | dsimp only
    | split

theorem State.endRestore_mems (s : State) : (State.endRestore s).mems = s.mems := by
  unfold State.endRestore
  repeat' first
    | with_reducible rfl
    | simp only [State.mems_ite, State.mems_upd, ite_self, State.put_mems]
    | with_reducible refine (State.mems_foldl ?_ _ _).trans ?_
    | intro _
    | dsimp only
    | split


end Sys2Proof.Machine
end

