-- ==== Sys2Proof/Laws/MemPorts.lean ====
section
/-!
SUPPORT. Laws/MemPorts.lean: what Ports.lean leaves of the memories and the queue. -/

set_option linter.unusedTactic false
set_option linter.unreachableTactic false
set_option linter.unusedSimpArgs false

namespace Sys2Proof.Machine

theorem State.raisePort_mems (s : State) (p : Nat) (kind : Nat) (cls : Nat) (lane : Nat) : (State.raisePort s p kind cls lane).mems = s.mems := by
  unfold State.raisePort
  repeat' first
    | with_reducible rfl
    | simp only [State.mems_ite, State.mems_upd, ite_self, State.raise_mems]
    | with_reducible refine (State.mems_foldl ?_ _ _).trans ?_
    | intro _
    | dsimp only
    | split

theorem State.putUpState_mems (s : State) (p : Nat) : (State.putUpState s p).mems = s.mems := by
  unfold State.putUpState
  repeat' first
    | with_reducible rfl
    | simp only [State.mems_ite, State.mems_upd, ite_self, State.put_mems]
    | with_reducible refine (State.mems_foldl ?_ _ _).trans ?_
    | intro _
    | dsimp only
    | split

theorem State.sendTrain_mems (s : State) (p : Nat) (usable : Nat) (eqReq : Nat) : (State.sendTrain s p usable eqReq).mems = s.mems := by
  unfold State.sendTrain
  repeat' first
    | with_reducible rfl
    | simp only [State.mems_ite, State.mems_upd, ite_self, State.emit_mems]
    | with_reducible refine (State.mems_foldl ?_ _ _).trans ?_
    | intro _
    | dsimp only
    | split

theorem State.trainStart_mems (s : State) (p : Nat) : (State.trainStart s p).mems = s.mems := by
  unfold State.trainStart
  repeat' first
    | with_reducible rfl
    | simp only [State.mems_ite, State.mems_upd, ite_self, State.put_mems, State.count_mems, State.draw_mems, State.sendTrain_mems]
    | with_reducible refine (State.mems_foldl ?_ _ _).trans ?_
    | intro _
    | dsimp only
    | split

theorem State.goDown_mems (s : State) (p : Nat) : (State.goDown s p).mems = s.mems := by
  unfold State.goDown
  repeat' first
    | with_reducible rfl
    | simp only [State.mems_ite, State.mems_upd, ite_self, State.setPort_mems, State.put_mems, State.raisePort_mems, State.sendRouted_mems, State.repairTree_mems, State.placeWant_mems]
    | with_reducible refine (State.mems_foldl ?_ _ _).trans ?_
    | intro _
    | dsimp only
    | split

theorem State.restripe_mems (s : State) (p : Nat) : (State.restripe s p).mems = s.mems := by
  unfold State.restripe
  repeat' first
    | with_reducible rfl
    | simp only [State.mems_ite, State.mems_upd, ite_self, State.setPort_mems]
    | with_reducible refine (State.mems_foldl ?_ _ _).trans ?_
    | intro _
    | dsimp only
    | split

theorem State.resend_mems (s : State) (p : Nat) : (State.resend s p).mems = s.mems := by
  unfold State.resend
  repeat' first
    | with_reducible rfl
    | simp only [State.mems_ite, State.mems_upd, ite_self, State.sendFrame_mems]
    | with_reducible refine (State.mems_foldl ?_ _ _).trans ?_
    | intro _
    | dsimp only
    | split

theorem State.pushDegrade_mems (s : State) (p : Nat) (nak : Bool) : (State.pushDegrade s p nak).mems = s.mems := by
  unfold State.pushDegrade
  repeat' first
    | with_reducible rfl
    | simp only [State.mems_ite, State.mems_upd, ite_self, State.sendFrame_mems, State.setPort_mems]
    | with_reducible refine (State.mems_foldl ?_ _ _).trans ?_
    | intro _
    | dsimp only
    | split

theorem State.sendBare_mems (s : State) (p : Nat) (nak : Bool) : (State.sendBare s p nak).mems = s.mems := by
  unfold State.sendBare
  repeat' first
    | with_reducible rfl
    | simp only [State.mems_ite, State.mems_upd, ite_self, State.pushDegrade_mems, State.sendFrame_mems]
    | with_reducible refine (State.mems_foldl ?_ _ _).trans ?_
    | intro _
    | dsimp only
    | split

theorem State.sendNak_mems (s : State) (p : Nat) : (State.sendNak s p).mems = s.mems := by
  unfold State.sendNak
  repeat' first
    | with_reducible rfl
    | simp only [State.mems_ite, State.mems_upd, ite_self, State.sendBare_mems]
    | with_reducible refine (State.mems_foldl ?_ _ _).trans ?_
    | intro _
    | dsimp only
    | split

theorem State.sendDegrade_mems (s : State) (p : Nat) : (State.sendDegrade s p).mems = s.mems := by
  unfold State.sendDegrade
  repeat' first
    | with_reducible rfl
    | simp only [State.mems_ite, State.mems_upd, ite_self, State.setPort_mems, State.pushDegrade_mems]
    | with_reducible refine (State.mems_foldl ?_ _ _).trans ?_
    | intro _
    | dsimp only
    | split

theorem State.joinLane_mems (s : State) (p : Nat) (lane : Nat) (margin : Nat) : (State.joinLane s p lane margin).mems = s.mems := by
  unfold State.joinLane
  repeat' first
    | with_reducible rfl
    | simp only [State.mems_ite, State.mems_upd, ite_self, State.put_mems, State.count_mems, State.putUpState_mems, State.sendDegrade_mems]
    | with_reducible refine (State.mems_foldl ?_ _ _).trans ?_
    | intro _
    | dsimp only
    | split

theorem State.endTell_mems (s : State) (p : Nat) (ack : Nat) (old : List TxFrame) : (State.endTell s p ack old).mems = s.mems := by
  unfold State.endTell
  repeat' first
    | with_reducible rfl
    | simp only [State.mems_ite, State.mems_upd, ite_self, State.setPort_mems, State.joinLane_mems, State.pushDegrade_mems]
    | with_reducible refine (State.mems_foldl ?_ _ _).trans ?_
    | intro _
    | dsimp only
    | split

theorem State.takeAck_mems (s : State) (p : Nat) (ack : Nat) : (State.takeAck s p ack).mems = s.mems := by
  unfold State.takeAck
  repeat' first
    | with_reducible rfl
    | simp only [State.mems_ite, State.mems_upd, ite_self, State.setPort_mems, State.endTell_mems, State.pumpAll_mems]
    | with_reducible refine (State.mems_foldl ?_ _ _).trans ?_
    | intro _
    | dsimp only
    | split

theorem State.sendReq_mems (s : State) (p : Nat) (dst : Nat) : (State.sendReq s p dst).mems = s.mems := by
  unfold State.sendReq
  repeat' first
    | with_reducible rfl
    | simp only [State.mems_ite, State.mems_upd, ite_self, State.draw_mems, State.setPort_mems, State.sendOn_mems]
    | with_reducible refine (State.mems_foldl ?_ _ _).trans ?_
    | intro _
    | dsimp only
    | split

theorem State.sendHello_mems (s : State) (p : Nat) : (State.sendHello s p).mems = s.mems := by
  unfold State.sendHello
  repeat' first
    | with_reducible rfl
    | simp only [State.mems_ite, State.mems_upd, ite_self, State.draw_mems, State.put_mems, State.setPort_mems, State.sendOn_mems]
    | with_reducible refine (State.mems_foldl ?_ _ _).trans ?_
    | intro _
    | dsimp only
    | split

theorem execPortTrainStart_mems (port : Nat) (s : State) : outMems s.mems (execPortTrainStart port s) = s.mems := by
  unfold execPortTrainStart
  repeat' first
    | with_reducible rfl
    | simp only [outMems_ite, outMems_next, outMems_fault, outMems_refused, outMems_void, State.mems_ite, State.mems_upd, ite_self, State.trainStart_mems, State.repairTree_mems]
    | with_reducible refine (State.mems_foldl ?_ _ _).trans ?_
    | intro _
    | dsimp only
    | split

theorem execFabRetrain_mems (port : Nat) (s : State) : outMems s.mems (execFabRetrain port s) = s.mems := by
  unfold execFabRetrain
  repeat' first
    | with_reducible rfl
    | simp only [outMems_ite, outMems_next, outMems_fault, outMems_refused, outMems_void, State.mems_ite, State.mems_upd, ite_self, State.trainStart_mems]
    | with_reducible refine (State.mems_foldl ?_ _ _).trans ?_
    | intro _
    | dsimp only
    | split

theorem State.putLanes_mems (s : State) (p : Nat) (lanes : List TrainLane) : (State.putLanes s p lanes).mems = s.mems := by
  unfold State.putLanes
  repeat' first
    | with_reducible rfl
    | simp only [State.mems_ite, State.mems_upd, ite_self, State.put_mems]
    | with_reducible refine (State.mems_foldl ?_ _ _).trans ?_
    | intro _
    | dsimp only
    | split

theorem State.putPeer_mems (s : State) (p : Nat) (w : TrainLane) : (State.putPeer s p w).mems = s.mems := by
  unfold State.putPeer
  repeat' first
    | with_reducible rfl
    | simp only [State.mems_ite, State.mems_upd, ite_self, State.put_mems, State.put64_mems]
    | with_reducible refine (State.mems_foldl ?_ _ _).trans ?_
    | intro _
    | dsimp only
    | split

theorem State.portCounters_mems (s : State) (p : Nat) : (State.portCounters s p).mems = s.mems := by
  unfold State.portCounters
  repeat' first
    | with_reducible rfl
    | simp only [State.mems_ite, State.mems_upd, ite_self, State.setPort_mems, State.restripe_mems, State.resend_mems, State.pumpAll_mems]
    | with_reducible refine (State.mems_foldl ?_ _ _).trans ?_
    | intro _
    | dsimp only
    | split

theorem State.portUpJob_mems (s : State) (p : Nat) (changed : Bool) : (State.portUpJob s p changed).mems = s.mems := by
  unfold State.portUpJob
  repeat' first
    | with_reducible rfl
    | simp only [State.mems_ite, State.mems_upd, ite_self, State.originate_mems, State.sendReq_mems, State.sendHello_mems]
    | with_reducible refine (State.mems_foldl ?_ _ _).trans ?_
    | intro _
    | dsimp only
    | split

theorem execPortUp_mems (port : Nat) (lanes : List TrainLane) (eqReq : Nat) (s : State) : outMems s.mems (execPortUp port lanes eqReq s) = s.mems := by
  unfold execPortUp
  repeat' first
    | with_reducible rfl
    | simp only [outMems_ite, outMems_next, outMems_fault, outMems_refused, outMems_void, State.mems_ite, State.mems_upd, ite_self, State.putLanes_mems, State.put_mems, State.sendTrain_mems, State.raisePort_mems, State.goDown_mems, State.putPeer_mems, State.portCounters_mems, State.setPort_mems, State.putUpState_mems, State.portUpJob_mems]
    | with_reducible refine (State.mems_foldl ?_ _ _).trans ?_
    | intro _
    | dsimp only
    | split

theorem execPortDownRetry_mems (port : Nat) (s : State) : outMems s.mems (execPortDownRetry port s) = s.mems := by
  unfold execPortDownRetry
  repeat' first
    | with_reducible rfl
    | simp only [outMems_ite, outMems_next, outMems_fault, outMems_refused, outMems_void, State.mems_ite, State.mems_upd, ite_self, State.trainStart_mems]
    | with_reducible refine (State.mems_foldl ?_ _ _).trans ?_
    | intro _
    | dsimp only
    | split

theorem State.sealFail_mems (s : State) (p : Nat) : (State.sealFail s p).mems = s.mems := by
  unfold State.sealFail
  repeat' first
    | with_reducible rfl
    | simp only [State.mems_ite, State.mems_upd, ite_self, State.count_mems, State.raise_mems, State.wantAbort_mems]
    | with_reducible refine (State.mems_foldl ?_ _ _).trans ?_
    | intro _
    | dsimp only
    | split

theorem State.countStream_mems (s : State) (id : Nat) (n : Nat) : (State.countStream s id n).mems = s.mems := by
  unfold State.countStream
  repeat' first
    | with_reducible rfl
    | simp only [State.mems_ite, State.mems_upd, ite_self]
    | with_reducible refine (State.mems_foldl ?_ _ _).trans ?_
    | intro _
    | dsimp only
    | split

theorem State.checkPacket_mems (s : State) (pk : Packet) : (State.checkPacket s pk).mems = s.mems := by
  unfold State.checkPacket
  repeat' first
    | with_reducible rfl
    | simp only [State.mems_ite, State.mems_upd, ite_self, State.count_mems, State.countStream_mems, State.raise_mems, State.wantAbort_mems]
    | with_reducible refine (State.mems_foldl ?_ _ _).trans ?_
    | intro _
    | dsimp only
    | split

theorem State.takePacket_mems (s : State) (p : Nat) (rp : RxPacket) : (State.takePacket s p rp).mems = s.mems := by
  unfold State.takePacket
  repeat' first
    | with_reducible rfl
    | simp only [State.mems_ite, State.mems_upd, ite_self, State.setPort_mems, State.count_mems, State.returnCredits_mems, State.raise_mems, State.sealFail_mems, State.checkPacket_mems]
    | with_reducible refine (State.mems_foldl ?_ _ _).trans ?_
    | intro _
    | dsimp only
    | split

theorem State.countLanes_mems (s : State) (p : Nat) (lanes : List LaneRx) : (State.countLanes s p lanes).mems = s.mems := by
  unfold State.countLanes
  repeat' first
    | with_reducible rfl
    | simp only [State.mems_ite, State.mems_upd, ite_self, State.count_mems]
    | with_reducible refine (State.mems_foldl ?_ _ _).trans ?_
    | intro _
    | dsimp only
    | split

theorem State.sendAck_mems (s : State) (p : Nat) : (State.sendAck s p).mems = s.mems := by
  unfold State.sendAck
  repeat' first
    | with_reducible rfl
    | simp only [State.mems_ite, State.mems_upd, ite_self, State.sendBare_mems]
    | with_reducible refine (State.mems_foldl ?_ _ _).trans ?_
    | intro _
    | dsimp only
    | split

theorem execLaneFrame_mems (port : Nat) (lanes : List LaneErr) (headers : List Nat) (packets : List RxPacket) (s : State) : outMems s.mems (execLaneFrame port lanes headers packets s) = s.mems := by
  unfold execLaneFrame
  repeat' first
    | with_reducible rfl
    | simp only [outMems_ite, outMems_next, outMems_fault, outMems_refused, outMems_void, State.mems_ite, State.mems_upd, ite_self, State.countLanes_mems, State.setPort_mems, State.trainStart_mems, State.raisePort_mems, State.sendNak_mems, State.takeAck_mems, State.takePacket_mems, State.sendAck_mems, State.placeWant_mems]
    | with_reducible refine (State.mems_foldl ?_ _ _).trans ?_
    | intro _
    | dsimp only
    | split

theorem execNak_mems (port : Nat) (acked : Nat) (s : State) : outMems s.mems (execNak port acked s) = s.mems := by
  unfold execNak
  repeat' first
    | with_reducible rfl
    | simp only [outMems_ite, outMems_next, outMems_fault, outMems_refused, outMems_void, State.mems_ite, State.mems_upd, ite_self, State.setPort_mems, State.count_mems, State.resend_mems, State.endTell_mems, State.pumpAll_mems]
    | with_reducible refine (State.mems_foldl ?_ _ _).trans ?_
    | intro _
    | dsimp only
    | split

theorem execScheduledIdle_mems (port : Nat) (s : State) : outMems s.mems (execScheduledIdle port s) = s.mems := by
  unfold execScheduledIdle
  repeat' first
    | with_reducible rfl
    | simp only [outMems_ite, outMems_next, outMems_fault, outMems_refused, outMems_void, State.mems_ite, State.mems_upd, ite_self, State.setPort_mems, State.emit_mems, State.pushDegrade_mems]
    | with_reducible refine (State.mems_foldl ?_ _ _).trans ?_
    | intro _
    | dsimp only
    | split

theorem execLaneDrop_mems (port : Nat) (lane : Nat) (lost : Bool) (s : State) (corrected : Nat) (uncorr : Nat) : outMems s.mems (execLaneDrop port lane lost s corrected uncorr) = s.mems := by
  unfold execLaneDrop
  repeat' first
    | with_reducible rfl
    | simp only [outMems_ite, outMems_next, outMems_fault, outMems_refused, outMems_void, State.mems_ite, State.mems_upd, ite_self, State.put_mems, State.count_mems, State.raisePort_mems, State.goDown_mems, State.putUpState_mems, State.sendDegrade_mems]
    | with_reducible refine (State.mems_foldl ?_ _ _).trans ?_
    | intro _
    | dsimp only
    | split

theorem execDegrade_mems (port : Nat) (mask : Nat) (s : State) : outMems s.mems (execDegrade port mask s) = s.mems := by
  unfold execDegrade
  repeat' first
    | with_reducible rfl
    | simp only [outMems_ite, outMems_next, outMems_fault, outMems_refused, outMems_void, State.mems_ite, State.mems_upd, ite_self, State.put_mems, State.goDown_mems, State.putUpState_mems, State.restripe_mems, State.resend_mems, State.pumpAll_mems]
    | with_reducible refine (State.mems_foldl ?_ _ _).trans ?_
    | intro _
    | dsimp only
    | split

theorem execLaneReadmit_mems (port : Nat) (lane : Nat) (margin : Nat) (s : State) : outMems s.mems (execLaneReadmit port lane margin s) = s.mems := by
  unfold execLaneReadmit
  repeat' first
    | with_reducible rfl
    | simp only [outMems_ite, outMems_next, outMems_fault, outMems_refused, outMems_void, State.mems_ite, State.mems_upd, ite_self, State.setPort_mems, State.joinLane_mems]
    | with_reducible refine (State.mems_foldl ?_ _ _).trans ?_
    | intro _
    | dsimp only
    | split

theorem execCredit_mems (port : Nat) (vc : Nat) (cls : Nat) (count : Nat) (s : State) : outMems s.mems (execCredit port vc cls count s) = s.mems := by
  unfold execCredit
  repeat' first
    | with_reducible rfl
    | simp only [outMems_ite, outMems_next, outMems_fault, outMems_refused, outMems_void, State.mems_ite, State.mems_upd, ite_self, State.count_mems, State.setPort_mems, State.pumpAll_mems]
    | with_reducible refine (State.mems_foldl ?_ _ _).trans ?_
    | intro _
    | dsimp only
    | split

theorem execPacketForward_mems (port : Nat) (tagOk : Bool) (s : State) : outMems s.mems (execPacketForward port tagOk s) = s.mems := by
  unfold execPacketForward
  repeat' first
    | with_reducible rfl
    | simp only [outMems_ite, outMems_next, outMems_fault, outMems_refused, outMems_void, State.mems_ite, State.mems_upd, ite_self, State.setPort_mems, State.returnCredits_mems, State.count_mems, State.raise_mems, State.wantAbort_mems, State.placeWant_mems, State.noRoute_mems, State.goOut_mems, State.sealFail_mems]
    | with_reducible refine (State.mems_foldl ?_ _ _).trans ?_
    | intro _
    | dsimp only
    | split

theorem execAuditSend_mems (port : Nat) (s : State) : outMems s.mems (execAuditSend port s) = s.mems := by
  unfold execAuditSend
  repeat' first
    | with_reducible rfl
    | simp only [outMems_ite, outMems_next, outMems_fault, outMems_refused, outMems_void, State.mems_ite, State.mems_upd, ite_self, State.setPort_mems, State.sendOn_mems]
    | with_reducible refine (State.mems_foldl ?_ _ _).trans ?_
    | intro _
    | dsimp only
    | split

theorem execAudit_mems (port : Nat) (seq : Nat) (rcvd : List Nat) (freed : List Nat) (s : State) : outMems s.mems (execAudit port seq rcvd freed s) = s.mems := by
  unfold execAudit
  repeat' first
    | with_reducible rfl
    | simp only [outMems_ite, outMems_next, outMems_fault, outMems_refused, outMems_void, State.mems_ite, State.mems_upd, ite_self, State.setPort_mems, State.count_mems, State.raise_mems]
    | with_reducible refine (State.mems_foldl ?_ _ _).trans ?_
    | intro _
    | dsimp only
    | split


end Sys2Proof.Machine
end

