-- ==== Sys2Proof/Laws/MemTrust.lean ====
section
/-!
SUPPORT. Laws/MemTrust.lean: what Trust.lean leaves of the memories and the queue. -/

set_option linter.unusedTactic false
set_option linter.unreachableTactic false
set_option linter.unusedSimpArgs false

namespace Sys2Proof.Machine

theorem State.measure_mems (s : State) (type : Nat) (kind : Nat) (slot : Nat) (version : Nat) (digest : Nat) : (State.measure s type kind slot version digest).mems = s.mems := by
  unfold State.measure
  repeat' first
    | with_reducible rfl
    | simp only [State.mems_ite, State.mems_upd, ite_self, State.count_mems]
    | with_reducible refine (State.mems_foldl ?_ _ _).trans ?_
    | intro _
    | dsimp only
    | split

theorem State.sendAttest_mems (s : State) (p : Nat) (dst : Nat) (m : AttMsg) : (State.sendAttest s p dst m).mems = s.mems := by
  unfold State.sendAttest
  repeat' first
    | with_reducible rfl
    | simp only [State.mems_ite, State.mems_upd, ite_self, State.sendOn_mems]
    | with_reducible refine (State.mems_foldl ?_ _ _).trans ?_
    | intro _
    | dsimp only
    | split

theorem State.amend_mems (s : State) (a : Amendment) : (State.amend s a).mems = s.mems := by
  unfold State.amend
  repeat' first
    | with_reducible rfl
    | simp only [State.mems_ite, State.mems_upd, ite_self, State.put_mems, State.measure_mems, State.raise_mems]
    | with_reducible refine (State.mems_foldl ?_ _ _).trans ?_
    | intro _
    | dsimp only
    | split

theorem State.applyAmends_mems (s : State) (l : List Amendment) : (State.applyAmends s l).mems = s.mems := by
  unfold State.applyAmends
  repeat' first
    | with_reducible rfl
    | simp only [State.mems_ite, State.mems_upd, ite_self, State.amend_mems]
    | with_reducible refine (State.mems_foldl ?_ _ _).trans ?_
    | intro _
    | dsimp only
    | split

theorem State.refuseArm_mems (s : State) (kind : Nat) (addr : Nat) (src : Nat) : (State.refuseArm s kind addr src).mems = s.mems := by
  unfold State.refuseArm
  repeat' first
    | with_reducible rfl
    | simp only [State.mems_ite, State.mems_upd, ite_self, State.put_mems, State.refuseWith_mems, State.endRestore_mems, State.raise_mems]
    | with_reducible refine (State.mems_foldl ?_ _ _).trans ?_
    | intro _
    | dsimp only
    | split

theorem State.checkArm_mems (s : State) : (State.checkArm s).mems = s.mems := by
  unfold State.checkArm
  repeat' first
    | with_reducible rfl
    | simp only [State.mems_ite, State.mems_upd, ite_self, State.readLabels_mems, State.finishRunning_mems]
    | with_reducible refine (State.mems_foldl ?_ _ _).trans ?_
    | intro _
    | dsimp only
    | split

theorem State.trySeal_mems (s : State) (p : Nat) : (State.trySeal s p).mems = s.mems := by
  unfold State.trySeal
  repeat' first
    | with_reducible rfl
    | simp only [State.mems_ite, State.mems_upd, ite_self, State.sendHello_mems]
    | with_reducible refine (State.mems_foldl ?_ _ _).trans ?_
    | intro _
    | dsimp only
    | split

theorem State.advanceSeal_mems (s : State) : (State.advanceSeal s).mems = s.mems := by
  unfold State.advanceSeal
  repeat' first
    | with_reducible rfl
    | simp only [State.mems_ite, State.mems_upd, ite_self, State.put_mems, State.flood_mems, State.checkArm_mems]
    | with_reducible refine (State.mems_foldl ?_ _ _).trans ?_
    | intro _
    | dsimp only
    | split

theorem State.holdSeed_mems (s : State) (k : Nat) (parent : Nat) : (State.holdSeed s k parent).mems = s.mems := by
  unfold State.holdSeed
  repeat' first
    | with_reducible rfl
    | simp only [State.mems_ite, State.mems_upd, ite_self, State.put_mems]
    | with_reducible refine (State.mems_foldl ?_ _ _).trans ?_
    | intro _
    | dsimp only
    | split

theorem State.spreadSeed_mems (s : State) (p : Nat) : (State.spreadSeed s p).mems = s.mems := by
  unfold State.spreadSeed
  repeat' first
    | with_reducible rfl
    | simp only [State.mems_ite, State.mems_upd, ite_self, State.draw_mems, State.setPort_mems, State.sendAttest_mems]
    | with_reducible refine (State.mems_foldl ?_ _ _).trans ?_
    | intro _
    | dsimp only
    | split

theorem State.tellSeed_mems (s : State) : (State.tellSeed s).mems = s.mems := by
  unfold State.tellSeed
  repeat' first
    | with_reducible rfl
    | simp only [State.mems_ite, State.mems_upd, ite_self, State.sendAttest_mems]
    | with_reducible refine (State.mems_foldl ?_ _ _).trans ?_
    | intro _
    | dsimp only
    | split

theorem State.originSeed_mems (s : State) : (State.originSeed s).mems = s.mems := by
  unfold State.originSeed
  repeat' first
    | with_reducible rfl
    | simp only [State.mems_ite, State.mems_upd, ite_self, State.draw_mems, State.holdSeed_mems, State.tellSeed_mems]
    | with_reducible refine (State.mems_foldl ?_ _ _).trans ?_
    | intro _
    | dsimp only
    | split

theorem State.attestStep_mems (s : State) : (State.attestStep s).mems = s.mems := by
  unfold State.attestStep
  repeat' first
    | with_reducible rfl
    | simp only [State.mems_ite, State.mems_upd, ite_self, State.originSeed_mems, State.spreadSeed_mems, State.trySeal_mems, State.advanceSeal_mems]
    | with_reducible refine (State.mems_foldl ?_ _ _).trans ?_
    | intro _
    | dsimp only
    | split

theorem execAttestReq_mems (port : Nat) (nonce : Nat) (s : State) : outMems s.mems (execAttestReq port nonce s) = s.mems := by
  unfold execAttestReq
  repeat' first
    | with_reducible rfl
    | simp only [outMems_ite, outMems_next, outMems_fault, outMems_refused, outMems_void, State.mems_ite, State.mems_upd, ite_self, State.draw_mems, State.setPort_mems, State.sendAttest_mems, State.sendReq_mems, State.spreadSeed_mems]
    | with_reducible refine (State.mems_foldl ?_ _ _).trans ?_
    | intro _
    | dsimp only
    | split

theorem execAttestReport_mems (port : Nat) (report : Report) (amends : List Amendment) (verified : Bool) (s : State) : outMems s.mems (execAttestReport port report amends verified s) = s.mems := by
  unfold execAttestReport
  repeat' first
    | with_reducible rfl
    | simp only [outMems_ite, outMems_next, outMems_fault, outMems_refused, outMems_void, State.mems_ite, State.mems_upd, ite_self, State.applyAmends_mems, State.setPort_mems, State.count_mems, State.sendAttest_mems, State.attestStep_mems, State.refuseArm_mems]
    | with_reducible refine (State.mems_foldl ?_ _ _).trans ?_
    | intro _
    | dsimp only
    | split

theorem execAttestSeed_mems (port : Nat) (seed : Nat) (opened : Bool) (s : State) : outMems s.mems (execAttestSeed port seed opened s) = s.mems := by
  unfold execAttestSeed
  repeat' first
    | with_reducible rfl
    | simp only [outMems_ite, outMems_next, outMems_fault, outMems_refused, outMems_void, State.mems_ite, State.mems_upd, ite_self, State.holdSeed_mems, State.tellSeed_mems, State.attestStep_mems, State.raise_mems, State.sendReq_mems]
    | with_reducible refine (State.mems_foldl ?_ _ _).trans ?_
    | intro _
    | dsimp only
    | split

theorem execAttestDone_mems (port : Nat) (s : State) : outMems s.mems (execAttestDone port s) = s.mems := by
  unfold execAttestDone
  repeat' first
    | with_reducible rfl
    | simp only [outMems_ite, outMems_next, outMems_fault, outMems_refused, outMems_void, State.mems_ite, State.mems_upd, ite_self, State.setPort_mems, State.sendReq_mems, State.attestStep_mems]
    | with_reducible refine (State.mems_foldl ?_ _ _).trans ?_
    | intro _
    | dsimp only
    | split

theorem execAttestRefuse_mems (port : Nat) (s : State) : outMems s.mems (execAttestRefuse port s) = s.mems := by
  unfold execAttestRefuse
  repeat' first
    | with_reducible rfl
    | simp only [outMems_ite, outMems_next, outMems_fault, outMems_refused, outMems_void, State.mems_ite, State.mems_upd, ite_self, State.setPort_mems, State.put_mems, State.finishRunning_mems]
    | with_reducible refine (State.mems_foldl ?_ _ _).trans ?_
    | intro _
    | dsimp only
    | split


end Sys2Proof.Machine
end

