-- ==== Sys2Proof/Laws/MemNet.lean ====
section
/-!
SUPPORT. Laws/MemNet.lean: what Net.lean leaves of the memories and the queue. -/

set_option linter.unusedTactic false
set_option linter.unreachableTactic false
set_option linter.unusedSimpArgs false

namespace Sys2Proof.Machine

theorem execLinkState_mems (port : Nat) (record : LinkRec) (isSealed : Bool) (s : State) : outMems s.mems (execLinkState port record isSealed s) = s.mems := by
  unfold execLinkState
  repeat' first
    | with_reducible rfl
    | simp only [outMems_ite, outMems_next, outMems_fault, outMems_refused, outMems_void, State.mems_ite, State.mems_upd, ite_self, State.flood_mems, State.checkArm_mems, State.refuseArm_mems]
    | with_reducible refine (State.mems_foldl ?_ _ _).trans ?_
    | intro _
    | dsimp only
    | split

theorem execDiscoveryComplete_mems (s : State) : outMems s.mems (execDiscoveryComplete s) = s.mems := by
  unfold execDiscoveryComplete
  repeat' first
    | with_reducible rfl
    | simp only [outMems_ite, outMems_next, outMems_fault, outMems_refused, outMems_void, State.mems_ite, State.mems_upd, ite_self, State.put_mems, State.finishRunning_mems, State.buildRoutes_mems, State.sendReq_mems, State.attestStep_mems]
    | with_reducible refine (State.mems_foldl ?_ _ _).trans ?_
    | intro _
    | dsimp only
    | split

theorem execDiscoveryTimeout_mems (s : State) : outMems s.mems (execDiscoveryTimeout s) = s.mems := by
  unfold execDiscoveryTimeout
  repeat' first
    | with_reducible rfl
    | simp only [outMems_ite, outMems_next, outMems_fault, outMems_refused, outMems_void, State.mems_ite, State.mems_upd, ite_self, State.refuseArm_mems]
    | with_reducible refine (State.mems_foldl ?_ _ _).trans ?_
    | intro _
    | dsimp only
    | split

theorem sendRecords_mems (s : State) (p : Nat) : (sendRecords s p).mems = s.mems := by
  unfold sendRecords
  repeat' first
    | with_reducible rfl
    | simp only [State.mems_ite, State.mems_upd, ite_self, State.sendOn_mems]
    | with_reducible refine (State.mems_foldl ?_ _ _).trans ?_
    | intro _
    | dsimp only
    | split

theorem execSealHello_mems (port : Nat) (random : Nat) (s : State) : outMems s.mems (execSealHello port random s) = s.mems := by
  unfold execSealHello
  repeat' first
    | with_reducible rfl
    | simp only [outMems_ite, outMems_next, outMems_fault, outMems_refused, outMems_void, State.mems_ite, State.mems_upd, ite_self, State.sendHello_mems, State.setPort_mems, State.put_mems, sendRecords_mems, State.pumpAll_mems, State.advanceSeal_mems]
    | with_reducible refine (State.mems_foldl ?_ _ _).trans ?_
    | intro _
    | dsimp only
    | split

theorem execAdopt_mems (port : Nat) (s : State) : outMems s.mems (execAdopt port s) = s.mems := by
  unfold execAdopt
  repeat' first
    | with_reducible rfl
    | simp only [outMems_ite, outMems_next, outMems_fault, outMems_refused, outMems_void, State.mems_ite, State.mems_upd, ite_self]
    | with_reducible refine (State.mems_foldl ?_ _ _).trans ?_
    | intro _
    | dsimp only
    | split

theorem State.setReduce_mems (s : State) (a : AllReduce) : (State.setReduce s a).mems = s.mems := by
  unfold State.setReduce
  repeat' first
    | with_reducible rfl
    | simp only [State.mems_ite, State.mems_upd, ite_self]
    | with_reducible refine (State.mems_foldl ?_ _ _).trans ?_
    | intro _
    | dsimp only
    | split

theorem State.sendSums_mems (s : State) (g : Nat) (dst : Nat) (values : List Nat) (mask : Nat) : (State.sendSums s g dst values mask).mems = s.mems := by
  unfold State.sendSums
  repeat' first
    | with_reducible rfl
    | simp only [State.mems_ite, State.mems_upd, ite_self, State.sendRouted_mems]
    | with_reducible refine (State.mems_foldl ?_ _ _).trans ?_
    | intro _
    | dsimp only
    | split

theorem State.deliverSums_mems (s : State) (g : Nat) (values : List Nat) (mask : Nat) : (State.deliverSums s g values mask).mems = s.mems := by
  unfold State.deliverSums
  repeat' first
    | with_reducible rfl
    | simp only [State.mems_ite, State.mems_upd, ite_self, State.sendSums_mems, State.setReduce_mems]
    | with_reducible refine (State.mems_foldl ?_ _ _).trans ?_
    | intro _
    | dsimp only
    | split

theorem State.combineSums_mems (s : State) (g : Nat) : (State.combineSums s g).mems = s.mems := by
  unfold State.combineSums
  repeat' first
    | with_reducible rfl
    | simp only [State.mems_ite, State.mems_upd, ite_self, State.setReduce_mems, State.deliverSums_mems, State.sendSums_mems]
    | with_reducible refine (State.mems_foldl ?_ _ _).trans ?_
    | intro _
    | dsimp only
    | split

theorem State.contribute_mems (s : State) (g : Nat) (values : List Nat) (mask : Nat) : (State.contribute s g values mask).mems = s.mems := by
  unfold State.contribute
  repeat' first
    | with_reducible rfl
    | simp only [State.mems_ite, State.mems_upd, ite_self, State.setReduce_mems, State.combineSums_mems]
    | with_reducible refine (State.mems_foldl ?_ _ _).trans ?_
    | intro _
    | dsimp only
    | split

theorem execCollective_mems (group : Nat) (src : Nat) (attempt : Nat) (values : List Nat) (mask : Nat) (s : State) : outMems s.mems (execCollective group src attempt values mask s) = s.mems := by
  unfold execCollective
  repeat' first
    | with_reducible rfl
    | simp only [outMems_ite, outMems_next, outMems_fault, outMems_refused, outMems_void, State.mems_ite, State.mems_upd, ite_self, State.deliverSums_mems, State.placeWant_mems, State.setReduce_mems, State.combineSums_mems]
    | with_reducible refine (State.mems_foldl ?_ _ _).trans ?_
    | intro _
    | dsimp only
    | split

theorem State.setBucket_mems (s : State) (i : Nat) (r : BucketRun) : (State.setBucket s i r).mems = s.mems := by
  unfold State.setBucket
  repeat' first
    | with_reducible rfl
    | simp only [State.mems_ite, State.mems_upd, ite_self, State.put_mems]
    | with_reducible refine (State.mems_foldl ?_ _ _).trans ?_
    | intro _
    | dsimp only
    | split

theorem State.auditTokens_mems (s : State) : (State.auditTokens s).mems = s.mems := by
  unfold State.auditTokens
  repeat' first
    | with_reducible rfl
    | simp only [State.mems_ite, State.mems_upd, ite_self, State.raise_mems]
    | with_reducible refine (State.mems_foldl ?_ _ _).trans ?_
    | intro _
    | dsimp only
    | split

theorem State.segChecks_mems (s : State) (i : Nat) (seg : Nat) (off : Nat) (ecc : List EccRes) : (State.segChecks s i seg off ecc).mems = s.mems := by
  unfold State.segChecks
  repeat' first
    | with_reducible rfl
    | simp only [State.mems_ite, State.mems_upd, ite_self, State.hbmChecks_mems]
    | with_reducible refine (State.mems_foldl ?_ _ _).trans ?_
    | intro _
    | dsimp only
    | split

theorem State.bucketChecks_mems (s : State) (i : Nat) (ecc : List EccRes) : (State.bucketChecks s i ecc).mems = s.mems := by
  unfold State.bucketChecks
  repeat' first
    | with_reducible rfl
    | simp only [State.mems_ite, State.mems_upd, ite_self, State.hbmChecks_mems]
    | with_reducible refine (State.mems_foldl ?_ _ _).trans ?_
    | intro _
    | dsimp only
    | split

theorem State.zeroStream_mems (s : State) (i : Nat) : (State.zeroStream s i).mems = s.mems := by
  unfold State.zeroStream
  repeat' first
    | with_reducible rfl
    | simp only [State.mems_ite, State.mems_upd, ite_self]
    | with_reducible refine (State.mems_foldl ?_ _ _).trans ?_
    | intro _
    | dsimp only
    | split


end Sys2Proof.Machine
end

