-- ==== Sys2Proof/Laws/MemTransfer.lean ====
section
/-!
SUPPORT. Laws/MemTransfer.lean: what Transfer.lean leaves of the memories and the queue. -/

set_option linter.unusedTactic false
set_option linter.unreachableTactic false
set_option linter.unusedSimpArgs false

namespace Sys2Proof.Machine

theorem State.refuseXfer_mems (s : State) (n : Nat) (opid : Nat) : (State.refuseXfer s n opid).mems = s.mems := by
  unfold State.refuseXfer
  repeat' first
    | with_reducible rfl
    | simp only [State.mems_ite, State.mems_upd, ite_self, State.refuseCmd_mems]
    | with_reducible refine (State.mems_foldl ?_ _ _).trans ?_
    | intro _
    | dsimp only
    | split

theorem State.putXfer_mems (s : State) (n : Nat) (x : Xfer) : (State.putXfer s n x).mems = s.mems := by
  unfold State.putXfer
  repeat' first
    | with_reducible rfl
    | simp only [State.mems_ite, State.mems_upd, ite_self, State.setCore_mems]
    | with_reducible refine (State.mems_foldl ?_ _ _).trans ?_
    | intro _
    | dsimp only
    | split

theorem State.setHand_mems (s : State) (k : Nat) (h : Hand) : (State.setHand s k h).mems = s.mems := by
  unfold State.setHand
  repeat' first
    | with_reducible rfl
    | simp only [State.mems_ite, State.mems_upd, ite_self, State.put_mems]
    | with_reducible refine (State.mems_foldl ?_ _ _).trans ?_
    | intro _
    | dsimp only
    | split

theorem State.sendChunk_mems (s : State) (n : Nat) (x : Xfer) : (State.sendChunk s n x).mems = s.mems := by
  unfold State.sendChunk
  repeat' first
    | with_reducible rfl
    | simp only [State.mems_ite, State.mems_upd, ite_self, State.setHand_mems, State.fluxPass_mems, State.emit_mems, State.sendHandover_mems]
    | with_reducible refine (State.mems_foldl ?_ _ _).trans ?_
    | intro _
    | dsimp only
    | split

theorem State.popXfer_mems (s : State) (n : Nat) : (State.popXfer s n).mems = s.mems := by
  unfold State.popXfer
  repeat' first
    | with_reducible rfl
    | simp only [State.mems_ite, State.mems_upd, ite_self, State.setCore_mems, State.noteDone_mems]
    | with_reducible refine (State.mems_foldl ?_ _ _).trans ?_
    | intro _
    | dsimp only
    | split

theorem State.pumpSends_mems (s : State) (n : Nat) (q : Nat) : (State.pumpSends s n q).mems = s.mems := by
  induction q generalizing s n <;> unfold State.pumpSends
  repeat' first
    | with_reducible rfl
    | simp only [State.mems_ite, State.mems_upd, ite_self, State.sendChunk_mems, State.popXfer_mems]
    | with_reducible refine (State.mems_foldl ?_ _ _).trans ?_
    | simp only [*]
    | intro _
    | dsimp only
    | split

theorem State.pump_mems (s : State) (n : Nat) : (State.pump s n).mems = s.mems := by
  unfold State.pump
  repeat' first
    | with_reducible rfl
    | simp only [State.mems_ite, State.mems_upd, ite_self, State.pumpSends_mems]
    | with_reducible refine (State.mems_foldl ?_ _ _).trans ?_
    | intro _
    | dsimp only
    | split

theorem State.returnChannel_mems (s : State) (k : Nat) (mb : Nat) : (State.returnChannel s k mb).mems = s.mems := by
  unfold State.returnChannel
  repeat' first
    | with_reducible rfl
    | simp only [State.mems_ite, State.mems_upd, ite_self, State.setHand_mems, State.sendHoCredit_mems]
    | with_reducible refine (State.mems_foldl ?_ _ _).trans ?_
    | intro _
    | dsimp only
    | split

theorem State.auditHands_mems (s : State) : (State.auditHands s).mems = s.mems := by
  unfold State.auditHands
  repeat' first
    | with_reducible rfl
    | simp only [State.mems_ite, State.mems_upd, ite_self, State.raise_mems]
    | with_reducible refine (State.mems_foldl ?_ _ _).trans ?_
    | intro _
    | dsimp only
    | split

theorem execSend_mems (core : Nat) (words : List Word) (s : State) : outMems s.mems (execSend core words s) = s.mems := by
  unfold execSend
  repeat' first
    | with_reducible rfl
    | simp only [outMems_ite, outMems_next, outMems_fault, outMems_refused, outMems_void, State.mems_ite, State.mems_upd, ite_self, State.refuseXfer_mems, State.putXfer_mems, State.pump_mems]
    | with_reducible refine (State.mems_foldl ?_ _ _).trans ?_
    | intro _
    | dsimp only
    | split

theorem execHoCredit_mems (channel : Nat) (s : State) : outMems s.mems (execHoCredit channel s) = s.mems := by
  unfold execHoCredit
  repeat' first
    | with_reducible rfl
    | simp only [outMems_ite, outMems_next, outMems_fault, outMems_refused, outMems_void, State.mems_ite, State.mems_upd, ite_self, State.setHand_mems, State.pump_mems]
    | with_reducible refine (State.mems_foldl ?_ _ _).trans ?_
    | intro _
    | dsimp only
    | split

theorem execXfer_mems (core : Nat) (words : List Word) (s : State) : outMems s.mems (execXfer core words s) = s.mems := by
  unfold execXfer
  repeat' first
    | with_reducible rfl
    | simp only [outMems_ite, outMems_next, outMems_fault, outMems_refused, outMems_void, State.mems_ite, State.mems_upd, ite_self, State.refuseXfer_mems, State.putXfer_mems, State.pump_mems]
    | with_reducible refine (State.mems_foldl ?_ _ _).trans ?_
    | intro _
    | dsimp only
    | split

theorem State.fillBuckets_mems (s : State) (a : Nat) (len : Nat) : (State.fillBuckets s a len).mems = s.mems := by
  unfold State.fillBuckets
  repeat' first
    | with_reducible rfl
    | simp only [State.mems_ite, State.mems_upd, ite_self, State.raise_mems, State.abortHold_mems]
    | with_reducible refine (State.mems_foldl ?_ _ _).trans ?_
    | intro _
    | dsimp only
    | split

theorem State.setFree_mems (s : State) (region : Nat) (tier : Nat) (v : Nat) : (State.setFree s region tier v).mems = s.mems := by
  unfold State.setFree
  repeat' first
    | with_reducible rfl
    | simp only [State.mems_ite, State.mems_upd, ite_self, State.put_mems]
    | with_reducible refine (State.mems_foldl ?_ _ _).trans ?_
    | intro _
    | dsimp only
    | split

theorem State.placeEntry_mems (s : State) (e : StashEntry) : (State.placeEntry s e).mems = s.mems := by
  unfold State.placeEntry
  repeat' first
    | with_reducible rfl
    | simp only [State.mems_ite, State.mems_upd, ite_self, State.setFree_mems, State.put_mems]
    | with_reducible refine (State.mems_foldl ?_ _ _).trans ?_
    | intro _
    | dsimp only
    | split

theorem State.freeEntry_mems (s : State) (e : StashEntry) : (State.freeEntry s e).mems = s.mems := by
  unfold State.freeEntry
  repeat' first
    | with_reducible rfl
    | simp only [State.mems_ite, State.mems_upd, ite_self, State.setFree_mems, State.put_mems]
    | with_reducible refine (State.mems_foldl ?_ _ _).trans ?_
    | intro _
    | dsimp only
    | split

theorem State.pickSlots_mems (s : State) (total k : Nat) (held : List Nat) : (s.pickSlots total k held).1.mems = s.mems := by
  induction k generalizing s held with
  | zero => rfl
  | succ k ih =>
    unfold State.pickSlots
    simp only [ih, State.draw_mems]

theorem State.stashRaise_mems (s : State) (kind : Nat) (cls : Nat) (r : Nat) (t : Nat) (mb : Nat) : (State.stashRaise s kind cls r t mb).mems = s.mems := by
  unfold State.stashRaise
  repeat' first
    | with_reducible rfl
    | simp only [State.mems_ite, State.mems_upd, ite_self, State.put_mems, State.raise_mems]
    | with_reducible refine (State.mems_foldl ?_ _ _).trans ?_
    | intro _
    | dsimp only
    | split

theorem State.stashFault_mems (s : State) (kind : Nat) (r : Nat) (t : Nat) (mb : Nat) : (State.stashFault s kind r t mb).mems = s.mems := by
  unfold State.stashFault
  repeat' first
    | with_reducible rfl
    | simp only [State.mems_ite, State.mems_upd, ite_self, State.stashRaise_mems, State.abortHold_mems]
    | with_reducible refine (State.mems_foldl ?_ _ _).trans ?_
    | intro _
    | dsimp only
    | split

theorem State.auditStash_mems (s : State) (r : Nat) (t : Nat) (mb : Nat) : (State.auditStash s r t mb).mems = s.mems := by
  unfold State.auditStash
  repeat' first
    | with_reducible rfl
    | simp only [State.mems_ite, State.mems_upd, ite_self, State.stashRaise_mems]
    | with_reducible refine (State.mems_foldl ?_ _ _).trans ?_
    | intro _
    | dsimp only
    | split

theorem State.releaseStash_mems (s : State) (r : Nat) (mb : Nat) : (State.releaseStash s r mb).mems = s.mems := by
  unfold State.releaseStash
  repeat' first
    | with_reducible rfl
    | simp only [State.mems_ite, State.mems_upd, ite_self, State.freeEntry_mems, State.auditStash_mems]
    | with_reducible refine (State.mems_foldl ?_ _ _).trans ?_
    | intro _
    | dsimp only
    | split

theorem State.clearStash_mems (s : State) : (State.clearStash s).mems = s.mems := by
  unfold State.clearStash
  repeat' first
    | with_reducible rfl
    | simp only [State.mems_ite, State.mems_upd, ite_self, State.put_mems, State.auditStash_mems]
    | with_reducible refine (State.mems_foldl ?_ _ _).trans ?_
    | intro _
    | dsimp only
    | split

theorem execStash_mems (core : Nat) (words : List Word) (s : State) : outMems s.mems (execStash core words s) = s.mems := by
  unfold execStash
  repeat' first
    | with_reducible rfl
    | simp only [outMems_ite, outMems_next, outMems_fault, outMems_refused, outMems_void, State.mems_ite, State.mems_upd, ite_self, State.setCore_mems, State.refuseXfer_mems, State.stashFault_mems, State.count_mems, State.pickSlots_mems, State.placeEntry_mems, State.auditStash_mems, State.count64_mems, State.putXfer_mems]
    | with_reducible refine (State.mems_foldl ?_ _ _).trans ?_
    | intro _
    | dsimp only
    | split

theorem State.startFetch_mems (s : State) (region : Nat) (mb : Nat) : (State.startFetch s region mb).mems = s.mems := by
  unfold State.startFetch
  repeat' first
    | with_reducible rfl
    | simp only [State.mems_ite, State.mems_upd, ite_self, State.stashFault_mems]
    | with_reducible refine (State.mems_foldl ?_ _ _).trans ?_
    | intro _
    | dsimp only
    | split


end Sys2Proof.Machine
end

