-- ==== Sys2Proof/Laws/MemTemper.lean ====
section
/-!
SUPPORT. Laws/MemTemper.lean: what Temper.lean leaves of the memories and the queue. -/

set_option linter.unusedTactic false
set_option linter.unreachableTactic false
set_option linter.unusedSimpArgs false

namespace Sys2Proof.Machine

theorem State.tmpTrap_mems (s : State) (cause : Cause) (engine : Nat) (entry : Nat) (index : Nat) : (State.tmpTrap s cause engine entry index).mems = s.mems := by
  unfold State.tmpTrap
  repeat' first
    | with_reducible rfl
    | simp only [State.mems_ite, State.mems_upd, ite_self, State.count_mems, State.put_mems, State.put64_mems]
    | with_reducible refine (State.mems_foldl ?_ _ _).trans ?_
    | intro _
    | dsimp only
    | split

theorem State.tmpTraps_mems (s : State) (l : List TmpEv) : (State.tmpTraps s l).mems = s.mems := by
  unfold State.tmpTraps
  repeat' first
    | with_reducible rfl
    | simp only [State.mems_ite, State.mems_upd, ite_self, State.tmpTrap_mems]
    | with_reducible refine (State.mems_foldl ?_ _ _).trans ?_
    | intro _
    | dsimp only
    | split

theorem State.tmpEvents_mems (s : State) (engine : Nat) (entry : Nat) (l : List (Nat × List (Nat × Cause))) : (State.tmpEvents s engine entry l).mems = s.mems := by
  unfold State.tmpEvents
  repeat' first
    | with_reducible rfl
    | simp only [State.mems_ite, State.mems_upd, ite_self, State.tmpTrap_mems]
    | with_reducible refine (State.mems_foldl ?_ _ _).trans ?_
    | intro _
    | dsimp only
    | split

theorem State.tmpRead_mems (s : State) (rs : List (Nat × Nat)) (ecc : List EccRes) : (s.tmpRead rs ecc).1.mems = s.mems := by
  unfold State.tmpRead
  split
  · simp only [State.raise_mems]
  · dsimp only
    exact State.mems_foldl (fun t a => State.stockChecks_mems _ _ _ _) _ _

theorem State.workTile_mems (s : State) (engine : Nat) (l : List (List Val)) : (State.workTile s engine l).mems = s.mems := by
  unfold State.workTile
  repeat' first
    | with_reducible rfl
    | simp only [State.mems_ite, State.mems_upd, ite_self]
    | with_reducible refine (State.mems_foldl ?_ _ _).trans ?_
    | intro _
    | dsimp only
    | split

theorem State.solverPut_mems (s : State) (k : Nat) (l : List Mat) : (State.solverPut s k l).mems = s.mems := by
  unfold State.solverPut
  repeat' first
    | with_reducible rfl
    | simp only [State.mems_ite, State.mems_upd, ite_self]
    | with_reducible refine (State.mems_foldl ?_ _ _).trans ?_
    | intro _
    | dsimp only
    | split

theorem State.tmpPhase_mems (s : State) : (State.tmpPhase s).mems = s.mems := by
  unfold State.tmpPhase
  repeat' first
    | with_reducible rfl
    | simp only [State.mems_ite, State.mems_upd, ite_self, State.put_mems]
    | with_reducible refine (State.mems_foldl ?_ _ _).trans ?_
    | intro _
    | dsimp only
    | split

theorem State.firePush_mems (s : State) (range : Nat) : (State.firePush s range).mems = s.mems := by
  unfold State.firePush
  repeat' first
    | with_reducible rfl
    | simp only [State.mems_ite, State.mems_upd, ite_self, State.tmpPhase_mems]
    | with_reducible refine (State.mems_foldl ?_ _ _).trans ?_
    | intro _
    | dsimp only
    | split

theorem State.endUpdate_mems (s : State) (st : Nat) : (State.endUpdate s st).mems = s.mems := by
  unfold State.endUpdate
  repeat' first
    | with_reducible rfl
    | simp only [State.mems_ite, State.mems_upd, ite_self, State.put_mems, State.draw_mems]
    | with_reducible refine (State.mems_foldl ?_ _ _).trans ?_
    | intro _
    | dsimp only
    | split

theorem execTmpTrapClear_mems (s : State) (event : Bool) : outMems s.mems (execTmpTrapClear s event) = s.mems := by
  unfold execTmpTrapClear
  repeat' first
    | with_reducible rfl
    | simp only [outMems_ite, outMems_next, outMems_fault, outMems_refused, outMems_void, State.mems_ite, State.mems_upd, ite_self, State.put_mems]
    | with_reducible refine (State.mems_foldl ?_ _ _).trans ?_
    | intro _
    | dsimp only
    | split


end Sys2Proof.Machine
end

