-- ==== Sys2Proof/Laws/MemBloom.lean ====
section
/-!
SUPPORT. Laws/MemBloom.lean: what Bloom.lean leaves of the memories and the queue. -/

set_option linter.unusedTactic false
set_option linter.unreachableTactic false
set_option linter.unusedSimpArgs false

namespace Sys2Proof.Machine

theorem State.setBstream_mems (s : State) (e : Nat) (x : BStream) : (State.setBstream s e x).mems = s.mems := by
  unfold State.setBstream
  repeat' first
    | with_reducible rfl
    | simp only [State.mems_ite, State.mems_upd, ite_self, State.put_mems]
    | with_reducible refine (State.mems_foldl ?_ _ _).trans ?_
    | intro _
    | dsimp only
    | split

theorem State.freeBusy_mems (s : State) (kind : Nat) (x : Sample) : (State.freeBusy s kind x).mems = s.mems := by
  unfold State.freeBusy
  repeat' first
    | with_reducible rfl
    | simp only [State.mems_ite, State.mems_upd, ite_self, State.put_mems]
    | with_reducible refine (State.mems_foldl ?_ _ _).trans ?_
    | intro _
    | dsimp only
    | split

theorem State.setSample_mems (s : State) (e : Nat) (x : Sample) : (State.setSample s e x).mems = s.mems := by
  unfold State.setSample
  repeat' first
    | with_reducible rfl
    | simp only [State.mems_ite, State.mems_upd, ite_self, State.setBstream_mems]
    | with_reducible refine (State.mems_foldl ?_ _ _).trans ?_
    | intro _
    | dsimp only
    | split

theorem State.assignEngines_mems (s : State) (kind : Nat) (die : Nat) (q : Nat) : (State.assignEngines s kind die q).mems = s.mems := by
  induction q generalizing s kind die <;> unfold State.assignEngines
  repeat' first
    | with_reducible rfl
    | simp only [State.mems_ite, State.mems_upd, ite_self, State.setSample_mems, State.put_mems]
    | with_reducible refine (State.mems_foldl ?_ _ _).trans ?_
    | simp only [*]
    | intro _
    | dsimp only
    | split

theorem State.assignAll_mems (s : State) : (State.assignAll s).mems = s.mems := by
  unfold State.assignAll
  repeat' first
    | with_reducible rfl
    | simp only [State.mems_ite, State.mems_upd, ite_self, State.assignEngines_mems]
    | with_reducible refine (State.mems_foldl ?_ _ _).trans ?_
    | intro _
    | dsimp only
    | split

theorem State.dropSample_mems (s : State) (e : Nat) (index : Nat) : (State.dropSample s e index).mems = s.mems := by
  unfold State.dropSample
  repeat' first
    | with_reducible rfl
    | simp only [State.mems_ite, State.mems_upd, ite_self, State.freeBusy_mems, State.setBstream_mems]
    | with_reducible refine (State.mems_foldl ?_ _ _).trans ?_
    | intro _
    | dsimp only
    | split

theorem State.appendReserve_mems (s : State) (e : Nat) : (State.appendReserve s e).mems = s.mems := by
  unfold State.appendReserve
  repeat' first
    | with_reducible rfl
    | simp only [State.mems_ite, State.mems_upd, ite_self, State.setBstream_mems]
    | with_reducible refine (State.mems_foldl ?_ _ _).trans ?_
    | intro _
    | dsimp only
    | split

theorem State.setFill_mems (s : State) (e : Nat) (f : Fill) : (State.setFill s e f).mems = s.mems := by
  unfold State.setFill
  repeat' first
    | with_reducible rfl
    | simp only [State.mems_ite, State.mems_upd, ite_self, State.setBstream_mems]
    | with_reducible refine (State.mems_foldl ?_ _ _).trans ?_
    | intro _
    | dsimp only
    | split

theorem State.recordSubst_mems (s : State) (e : Nat) (stream : Nat) (u : Subst) : (State.recordSubst s e stream u).mems = s.mems := by
  unfold State.recordSubst
  repeat' first
    | with_reducible rfl
    | simp only [State.mems_ite, State.mems_upd, ite_self, State.setBstream_mems, State.journalInternal_mems]
    | with_reducible refine (State.mems_foldl ?_ _ _).trans ?_
    | intro _
    | dsimp only
    | split

theorem State.giveStep_mems (s : State) (e : Nat) (step : Nat) : (State.giveStep s e step).mems = s.mems := by
  unfold State.giveStep
  repeat' first
    | with_reducible rfl
    | simp only [State.mems_ite, State.mems_upd, ite_self, State.setBstream_mems]
    | with_reducible refine (State.mems_foldl ?_ _ _).trans ?_
    | intro _
    | dsimp only
    | split

theorem State.startStream_mems (s : State) (e : Nat) : (State.startStream s e).mems = s.mems := by
  unfold State.startStream
  repeat' first
    | with_reducible rfl
    | simp only [State.mems_ite, State.mems_upd, ite_self, State.setBstream_mems, State.giveStep_mems]
    | with_reducible refine (State.mems_foldl ?_ _ _).trans ?_
    | intro _
    | dsimp only
    | split

theorem State.intakeClose_mems (s : State) (e : Nat) (step : Nat) : (State.intakeClose s e step).mems = s.mems := by
  unfold State.intakeClose
  repeat' first
    | with_reducible rfl
    | simp only [State.mems_ite, State.mems_upd, ite_self, State.setBstream_mems, State.giveStep_mems]
    | with_reducible refine (State.mems_foldl ?_ _ _).trans ?_
    | intro _
    | dsimp only
    | split

theorem State.auditBloom_mems (s : State) : (State.auditBloom s).mems = s.mems := by
  unfold State.auditBloom
  repeat' first
    | with_reducible rfl
    | simp only [State.mems_ite, State.mems_upd, ite_self, State.raise_mems]
    | with_reducible refine (State.mems_foldl ?_ _ _).trans ?_
    | intro _
    | dsimp only
    | split

theorem State.intakeOpen_mems (s : State) (e : Nat) (step : Nat) (mb : Nat) : (State.intakeOpen s e step mb).mems = s.mems := by
  unfold State.intakeOpen
  repeat' first
    | with_reducible rfl
    | simp only [State.mems_ite, State.mems_upd, ite_self, State.setBstream_mems, State.auditBloom_mems]
    | with_reducible refine (State.mems_foldl ?_ _ _).trans ?_
    | intro _
    | dsimp only
    | split

theorem State.releaseBuffers_mems (s : State) (desc : Nat) (step : Nat) (mb : Nat) : (State.releaseBuffers s desc step mb).mems = s.mems := by
  unfold State.releaseBuffers
  repeat' first
    | with_reducible rfl
    | simp only [State.mems_ite, State.mems_upd, ite_self, State.setBstream_mems]
    | with_reducible refine (State.mems_foldl ?_ _ _).trans ?_
    | intro _
    | dsimp only
    | split

theorem State.commitCursors_mems (s : State) : (State.commitCursors s).mems = s.mems := by
  unfold State.commitCursors
  repeat' first
    | with_reducible rfl
    | simp only [State.mems_ite, State.mems_upd, ite_self, State.setBstream_mems]
    | with_reducible refine (State.mems_foldl ?_ _ _).trans ?_
    | intro _
    | dsimp only
    | split

theorem State.applyPending_mems (s : State) (e : Nat) (u : Subst) : (State.applyPending s e u).mems = s.mems := by
  unfold State.applyPending
  repeat' first
    | with_reducible rfl
    | simp only [State.mems_ite, State.mems_upd, ite_self, State.setBstream_mems]
    | with_reducible refine (State.mems_foldl ?_ _ _).trans ?_
    | intro _
    | dsimp only
    | split

theorem State.rebuildStream_mems (s : State) (e : Nat) (step : Nat) (c : Cursor) : (State.rebuildStream s e step c).mems = s.mems := by
  unfold State.rebuildStream
  repeat' first
    | with_reducible rfl
    | simp only [State.mems_ite, State.mems_upd, ite_self, State.freeBusy_mems, State.setBstream_mems, State.applyPending_mems, State.giveStep_mems]
    | with_reducible refine (State.mems_foldl ?_ _ _).trans ?_
    | intro _
    | dsimp only
    | split

theorem State.abortBloom_mems (s : State) (step : Nat) : (State.abortBloom s step).mems = s.mems := by
  unfold State.abortBloom
  repeat' first
    | with_reducible rfl
    | simp only [State.mems_ite, State.mems_upd, ite_self, State.rebuildStream_mems]
    | with_reducible refine (State.mems_foldl ?_ _ _).trans ?_
    | intro _
    | dsimp only
    | split

theorem State.startBloom_mems (s : State) : (State.startBloom s).mems = s.mems := by
  unfold State.startBloom
  repeat' first
    | with_reducible rfl
    | simp only [State.mems_ite, State.mems_upd, ite_self, State.startStream_mems]
    | with_reducible refine (State.mems_foldl ?_ _ _).trans ?_
    | intro _
    | dsimp only
    | split

theorem State.setFeeder_mems (s : State) (k : Nat) (x : FeederLink) : (State.setFeeder s k x).mems = s.mems := by
  unfold State.setFeeder
  repeat' first
    | with_reducible rfl
    | simp only [State.mems_ite, State.mems_upd, ite_self, State.put_mems]
    | with_reducible refine (State.mems_foldl ?_ _ _).trans ?_
    | intro _
    | dsimp only
    | split

theorem State.sendBloom_mems (s : State) (d : BloomStream) (type : Nat) (index : Nat) (offset : Nat) (total : Nat) : (State.sendBloom s d type index offset total).mems = s.mems := by
  unfold State.sendBloom
  repeat' first
    | with_reducible rfl
    | simp only [State.mems_ite, State.mems_upd, ite_self, State.setFeeder_mems, State.emit_mems, State.sendRouted_mems]
    | with_reducible refine (State.mems_foldl ?_ _ _).trans ?_
    | intro _
    | dsimp only
    | split

theorem State.helloFeeders_mems (s : State) : (State.helloFeeders s).mems = s.mems := by
  unfold State.helloFeeders
  repeat' first
    | with_reducible rfl
    | simp only [State.mems_ite, State.mems_upd, ite_self, State.draw_mems, State.setFeeder_mems, State.emit_mems, State.sendRouted_mems]
    | with_reducible refine (State.mems_foldl ?_ _ _).trans ?_
    | intro _
    | dsimp only
    | split

theorem State.takeNonce_mems (s : State) (d : BloomStream) (f : BloomFrame) : (State.takeNonce s d f).mems = s.mems := by
  unfold State.takeNonce
  repeat' first
    | with_reducible rfl
    | simp only [State.mems_ite, State.mems_upd, ite_self, State.setFeeder_mems]
    | with_reducible refine (State.mems_foldl ?_ _ _).trans ?_
    | intro _
    | dsimp only
    | split

theorem execEthFrame_mems (port : Nat) (iface : Nat) (frame : EthFrame) (s : State) : outMems s.mems (execEthFrame port iface frame s) = s.mems := by
  unfold execEthFrame
  repeat' first
    | with_reducible rfl
    | simp only [outMems_ite, outMems_next, outMems_fault, outMems_refused, outMems_void, State.mems_ite, State.mems_upd, ite_self, State.count_mems, State.emit_mems]
    | with_reducible refine (State.mems_foldl ?_ _ _).trans ?_
    | intro _
    | dsimp only
    | split

theorem State.sealFeeder_mems (s : State) (k : Nat) : (State.sealFeeder s k).mems = s.mems := by
  unfold State.sealFeeder
  repeat' first
    | with_reducible rfl
    | simp only [State.mems_ite, State.mems_upd, ite_self, State.sendHello_mems]
    | with_reducible refine (State.mems_foldl ?_ _ _).trans ?_
    | intro _
    | dsimp only
    | split

theorem execBloomHello_mems (feeder : Nat) (random : Nat) (s : State) : outMems s.mems (execBloomHello feeder random s) = s.mems := by
  unfold execBloomHello
  repeat' first
    | with_reducible rfl
    | simp only [outMems_ite, outMems_next, outMems_fault, outMems_refused, outMems_void, State.mems_ite, State.mems_upd, ite_self, State.setFeeder_mems, State.sealFeeder_mems]
    | with_reducible refine (State.mems_foldl ?_ _ _).trans ?_
    | intro _
    | dsimp only
    | split

theorem execRequest_mems (entry : Nat) (s : State) : outMems s.mems (execRequest entry s) = s.mems := by
  unfold execRequest
  repeat' first
    | with_reducible rfl
    | simp only [outMems_ite, outMems_next, outMems_fault, outMems_refused, outMems_void, State.mems_ite, State.mems_upd, ite_self, State.setBstream_mems, State.sendBloom_mems, State.placeWant_mems]
    | with_reducible refine (State.mems_foldl ?_ _ _).trans ?_
    | intro _
    | dsimp only
    | split

theorem execRerequest_mems (entry : Nat) (index : Nat) (s : State) : outMems s.mems (execRerequest entry index s) = s.mems := by
  unfold execRerequest
  repeat' first
    | with_reducible rfl
    | simp only [outMems_ite, outMems_next, outMems_fault, outMems_refused, outMems_void, State.mems_ite, State.mems_upd, ite_self, State.setSample_mems, State.count_mems, State.sendBloom_mems]
    | with_reducible refine (State.mems_foldl ?_ _ _).trans ?_
    | intro _
    | dsimp only
    | split

theorem decodeChecks_mems (s : State) (entry : Nat) (index : Nat) (ecc : List EccRes) : (decodeChecks s entry index ecc).mems = s.mems := by
  unfold decodeChecks
  repeat' first
    | with_reducible rfl
    | simp only [State.mems_ite, State.mems_upd, ite_self, State.hbmChecks_mems]
    | with_reducible refine (State.mems_foldl ?_ _ _).trans ?_
    | intro _
    | dsimp only
    | split


end Sys2Proof.Machine
end

