-- ==== Sys2Proof/Laws/MemGates.lean ====
section
/-!
SUPPORT. Laws/MemGates.lean: what Gates.lean leaves of the memories and the queue. -/

set_option linter.unusedTactic false
set_option linter.unreachableTactic false
set_option linter.unusedSimpArgs false

namespace Sys2Proof.Machine

theorem State.startSegment_mems (s : State) (n : Nat) (k : Nat) (descs : List (Nat × Nat)) : (State.startSegment s n k descs).mems = s.mems := by
  unfold State.startSegment
  repeat' first
    | with_reducible rfl
    | simp only [State.mems_ite, State.mems_upd, ite_self, State.setCore_mems]
    | with_reducible refine (State.mems_foldl ?_ _ _).trans ?_
    | intro _
    | dsimp only
    | split

theorem State.fireStageStart_mems (s : State) (i : Nat) (e : Strike) (step : Nat) : (State.fireStageStart s i e step).mems = s.mems := by
  unfold State.fireStageStart
  repeat' first
    | with_reducible rfl
    | simp only [State.mems_ite, State.mems_upd, ite_self, State.setCore_mems, State.startSegment_mems]
    | with_reducible refine (State.mems_foldl ?_ _ _).trans ?_
    | intro _
    | dsimp only
    | split

theorem State.auditHalo_mems (s : State) (n : Nat) : (State.auditHalo s n).mems = s.mems := by
  unfold State.auditHalo
  repeat' first
    | with_reducible rfl
    | simp only [State.mems_ite, State.mems_upd, ite_self, State.raise_mems]
    | with_reducible refine (State.mems_foldl ?_ _ _).trans ?_
    | intro _
    | dsimp only
    | split

theorem State.endChecks_mems (s : State) (n : Nat) (e : Strike) (a : Nat) : (State.endChecks s n e a).mems = s.mems := by
  unfold State.endChecks
  repeat' first
    | with_reducible rfl
    | simp only [State.mems_ite, State.mems_upd, ite_self, State.auditCore_mems, State.auditHalo_mems, State.strandedCheck_mems]
    | with_reducible refine (State.mems_foldl ?_ _ _).trans ?_
    | intro _
    | dsimp only
    | split

theorem State.stashStranded_mems (s : State) (a : Nat) : (State.stashStranded s a).mems = s.mems := by
  unfold State.stashStranded
  repeat' first
    | with_reducible rfl
    | simp only [State.mems_ite, State.mems_upd, ite_self, State.stashRaise_mems, State.clearStash_mems, State.abortAt_mems]
    | with_reducible refine (State.mems_foldl ?_ _ _).trans ?_
    | intro _
    | dsimp only
    | split

theorem State.releaseIfReady_mems (s : State) (h : OwnHold) : (State.releaseIfReady s h).mems = s.mems := by
  unfold State.releaseIfReady
  repeat' first
    | with_reducible rfl
    | simp only [State.mems_ite, State.mems_upd, ite_self, State.releaseHold_mems]
    | with_reducible refine (State.mems_foldl ?_ _ _).trans ?_
    | intro _
    | dsimp only
    | split

theorem State.releaseCommit_mems (s : State) : (State.releaseCommit s).mems = s.mems := by
  unfold State.releaseCommit
  repeat' first
    | with_reducible rfl
    | simp only [State.mems_ite, State.mems_upd, ite_self, State.releaseIfReady_mems]
    | with_reducible refine (State.mems_foldl ?_ _ _).trans ?_
    | intro _
    | dsimp only
    | split


end Sys2Proof.Machine
end

