-- ==== Sys2Proof/Laws/MemIngots.lean ====
section
/-!
SUPPORT. Laws/MemIngots.lean: what Ingots.lean leaves of the memories and the queue. -/

set_option linter.unusedTactic false
set_option linter.unreachableTactic false
set_option linter.unusedSimpArgs false

namespace Sys2Proof.Machine

theorem State.takeBay_mems (s : State) (b n gen : Nat) : (s.takeBay b n gen).1.mems = s.mems := by
  unfold State.takeBay
  dsimp only
  split
  · rfl
  · split
    · rfl
    · split
      · simp only [State.ingFault_mems, State.count_mems]
      · have h : ∀ (l : List Nat) (c : Cart), ((l.foldl (fun t z => t.emit (.zone b 0 z)) s).setCart b c).mems = s.mems := by
          intro l c
          rw [State.setCart_mems]
          exact State.mems_foldl (fun t a => State.emit_mems _ _) _ _
        split
        · exact h _ _
        · simp only [State.ingFault_mems, h]

theorem State.chooseBays_mems (s : State) (policy gen h n : Nat) : (s.chooseBays policy gen h n).1.mems = s.mems := by
  have hf : ∀ (l : List Nat) (p : State × List Nat) (sp : Bool), ((l.foldl (fun (p : State × List Nat) b =>
      let (t, ok) := p.1.takeBay b (bayRecords sp gen b h n) gen
      (t, if ok then p.2 ++ [b] else p.2)) p).1).mems = p.1.mems := by
    intro l
    induction l with
    | nil => intros; rfl
    | cons a l ih => intro p sp; rw [List.foldl_cons, ih]; exact State.takeBay_mems _ _ _ _
  unfold State.chooseBays
  dsimp only
  split
  · exact hf _ _ _
  · split
    · simp only [State.ingFault_mems, State.count_mems]; exact hf _ _ _
    · split
      · simp only [State.ingFault_mems, State.count_mems]; exact hf _ _ _
      · split
        · simp only [State.ingFault_mems, State.count_mems, State.takeBay_mems]; exact hf _ _ _
        · simp only [State.ingFault_mems, State.count_mems, State.takeBay_mems]; exact hf _ _ _

theorem State.noteZone_mems (s : State) (g : GenRun) (r : IngRec) : (State.noteZone s g r).mems = s.mems := by
  unfold State.noteZone
  repeat' first
    | with_reducible rfl
    | simp only [State.mems_ite, State.mems_upd, ite_self, State.setCart_mems]
    | with_reducible refine (State.mems_foldl ?_ _ _).trans ?_
    | intro _
    | dsimp only
    | split

theorem State.setCur_mems (s : State) (g : Option GenRun) : (State.setCur s g).mems = s.mems := by
  unfold State.setCur
  repeat' first
    | with_reducible rfl
    | simp only [State.mems_ite, State.mems_upd, ite_self]
    | with_reducible refine (State.mems_foldl ?_ _ _).trans ?_
    | intro _
    | dsimp only
    | split

theorem State.pumpBay_mems (s : State) (b : Nat) (q : Nat) : (State.pumpBay s b q).mems = s.mems := by
  induction q generalizing s b <;> unfold State.pumpBay
  repeat' first
    | with_reducible rfl
    | simp only [State.mems_ite, State.mems_upd, ite_self, State.setCur_mems, State.noteZone_mems, State.emit_mems]
    | with_reducible refine (State.mems_foldl ?_ _ _).trans ?_
    | simp only [*]
    | intro _
    | dsimp only
    | split

theorem State.pumpBays_mems (s : State) : (State.pumpBays s).mems = s.mems := by
  unfold State.pumpBays
  repeat' first
    | with_reducible rfl
    | simp only [State.mems_ite, State.mems_upd, ite_self, State.pumpBay_mems]
    | with_reducible refine (State.mems_foldl ?_ _ _).trans ?_
    | intro _
    | dsimp only
    | split

theorem State.startGen_mems (s : State) (g : GenRun) (recs : List IngRec) : (State.startGen s g recs).mems = s.mems := by
  unfold State.startGen
  repeat' first
    | with_reducible rfl
    | simp only [State.mems_ite, State.mems_upd, ite_self, State.setCart_mems, State.put_mems, State.put64_mems, State.setCur_mems, State.pumpBays_mems]
    | with_reducible refine (State.mems_foldl ?_ _ _).trans ?_
    | intro _
    | dsimp only
    | split

theorem State.snapshot_mems (s : State) : (State.snapshot s).mems = s.mems := by
  unfold State.snapshot
  repeat' first
    | with_reducible rfl
    | simp only [State.mems_ite, State.mems_upd, ite_self, State.count_mems]
    | with_reducible refine (State.mems_foldl ?_ _ _).trans ?_
    | intro _
    | dsimp only
    | split

theorem State.fireCapture_mems (s : State) (policy : Nat) : (State.fireCapture s policy).mems = s.mems := by
  unfold State.fireCapture
  repeat' first
    | with_reducible rfl
    | simp only [State.mems_ite, State.mems_upd, ite_self, State.chooseBays_mems, State.draw_mems, State.fluxCount_mems, State.startGen_mems]
    | with_reducible refine (State.mems_foldl ?_ _ _).trans ?_
    | intro _
    | dsimp only
    | split

theorem State.writeCaptures_mems (s : State) : (s.writeCaptures).mems = s.mems := by
  have hf : ∀ (l : List Nat) (n gen : Nat) (p : State × Option Nat), ((l.foldl (fun (p : State × Option Nat) b => match p.2 with
      | some _ => p
      | none =>
        let (t, ok) := p.1.takeBay b n gen
        (t, if ok then some b else none)) p).1).mems = p.1.mems := by
    intro l n gen
    induction l with
    | nil => intros; rfl
    | cons a l ih =>
      intro p
      rw [List.foldl_cons, ih]
      split
      · rfl
      · exact State.takeBay_mems _ _ _ _
  have hu : ∀ t : State, ({ t with captures := [] } : State).mems = t.mems := fun _ => rfl
  unfold State.writeCaptures
  split
  · rfl
  · dsimp only
    split
    · rw [State.count_mems, hu]; exact hf _ _ _ _
    · simp only [State.startGen_mems, State.fluxCount_mems, State.draw_mems, hu]; exact hf _ _ _ _

theorem State.endGen_mems (s : State) (g : GenRun) : (State.endGen s g).mems = s.mems := by
  unfold State.endGen
  repeat' first
    | with_reducible rfl
    | simp only [State.mems_ite, State.mems_upd, ite_self, State.put_mems, State.setCur_mems, State.tmpPhase_mems]
    | with_reducible refine (State.mems_foldl ?_ _ _).trans ?_
    | intro _
    | dsimp only
    | split

theorem State.failGen_mems (s : State) (b : Nat) (g : GenRun) : (State.failGen s b g).mems = s.mems := by
  unfold State.failGen
  repeat' first
    | with_reducible rfl
    | simp only [State.mems_ite, State.mems_upd, ite_self, State.endGen_mems, State.count_mems, State.ingFault_mems, State.releaseCommit_mems]
    | with_reducible refine (State.mems_foldl ?_ _ _).trans ?_
    | intro _
    | dsimp only
    | split

theorem State.flushGen_mems (s : State) : (State.flushGen s).mems = s.mems := by
  unfold State.flushGen
  repeat' first
    | with_reducible rfl
    | simp only [State.mems_ite, State.mems_upd, ite_self, State.emit_mems, State.setCur_mems, State.put_mems]
    | with_reducible refine (State.mems_foldl ?_ _ _).trans ?_
    | intro _
    | dsimp only
    | split

theorem State.finishGen_mems (s : State) (g : GenRun) (ms : Nat) : (State.finishGen s g ms).mems = s.mems := by
  unfold State.finishGen
  repeat' first
    | with_reducible rfl
    | simp only [State.mems_ite, State.mems_upd, ite_self, State.setCart_mems, State.endGen_mems, State.put_mems, State.put64_mems, State.count_mems, State.releaseCommit_mems]
    | with_reducible refine (State.mems_foldl ?_ _ _).trans ?_
    | intro _
    | dsimp only
    | split

theorem State.dropBay_mems (s : State) (b : Nat) : (State.dropBay s b).mems = s.mems := by
  unfold State.dropBay
  repeat' first
    | with_reducible rfl
    | simp only [State.mems_ite, State.mems_upd, ite_self, State.count_mems, State.setCur_mems, State.put_mems, State.flushGen_mems, State.finishGen_mems, State.failGen_mems]
    | with_reducible refine (State.mems_foldl ?_ _ _).trans ?_
    | intro _
    | dsimp only
    | split

theorem State.clearBay_mems (s : State) (b : Nat) (code : Nat) : (State.clearBay s b code).mems = s.mems := by
  unfold State.clearBay
  repeat' first
    | with_reducible rfl
    | simp only [State.mems_ite, State.mems_upd, ite_self, State.put_mems]
    | with_reducible refine (State.mems_foldl ?_ _ _).trans ?_
    | intro _
    | dsimp only
    | split

theorem State.ejectBay_mems (s : State) (b : Nat) : (State.ejectBay s b).mems = s.mems := by
  unfold State.ejectBay
  repeat' first
    | with_reducible rfl
    | simp only [State.mems_ite, State.mems_upd, ite_self, State.put_mems]
    | with_reducible refine (State.mems_foldl ?_ _ _).trans ?_
    | intro _
    | dsimp only
    | split

theorem State.wipeBay_mems (s : State) (b : Nat) : (State.wipeBay s b).mems = s.mems := by
  unfold State.wipeBay
  repeat' first
    | with_reducible rfl
    | simp only [State.mems_ite, State.mems_upd, ite_self, State.emit_mems, State.setCart_mems, State.put_mems, State.readLabel_mems]
    | with_reducible refine (State.mems_foldl ?_ _ _).trans ?_
    | intro _
    | dsimp only
    | split

theorem State.readCopies_mems (s : State) (failed : List Nat) (l : List (Nat × Gen)) : (s.readCopies failed l).1.mems = s.mems := by
  induction l generalizing s with
  | nil => rfl
  | cons p r ih =>
    obtain ⟨b, g⟩ := p
    unfold State.readCopies
    dsimp only
    split
    · rfl
    · rw [ih]
      refine State.mems_foldl (fun t x => ?_) _ _
      simp only [State.ingFault_mems, State.count_mems]

theorem State.journalRestore_mems (s : State) (kind : Nat) (step : Nat) (gen : Nat) : (State.journalRestore s kind step gen).mems = s.mems := by
  unfold State.journalRestore
  repeat' first
    | with_reducible rfl
    | simp only [State.mems_ite, State.mems_upd, ite_self, State.draw_mems, State.journalInternal_mems]
    | with_reducible refine (State.mems_foldl ?_ _ _).trans ?_
    | intro _
    | dsimp only
    | split

theorem State.restoreFlux_mems (s : State) (bay : Nat) (g : Gen) (m : IngotImage) (step : Nat) : (State.restoreFlux s bay g m step).mems = s.mems := by
  unfold State.restoreFlux
  repeat' first
    | with_reducible rfl
    | simp only [State.mems_ite, State.mems_upd, ite_self, State.fluxCount_mems]
    | with_reducible refine (State.mems_foldl ?_ _ _).trans ?_
    | intro _
    | dsimp only
    | split

theorem State.loadJournal_mems (s : State) (m : IngotImage) (step : Nat) (gen : Nat) : (State.loadJournal s m step gen).mems = s.mems := by
  unfold State.loadJournal
  repeat' first
    | with_reducible rfl
    | simp only [State.mems_ite, State.mems_upd, ite_self, State.journal_mems, State.journalRestore_mems]
    | with_reducible refine (State.mems_foldl ?_ _ _).trans ?_
    | intro _
    | dsimp only
    | split

theorem State.loadCursors_mems (s : State) (m : IngotImage) (step : Nat) : (State.loadCursors s m step).mems = s.mems := by
  unfold State.loadCursors
  repeat' first
    | with_reducible rfl
    | simp only [State.mems_ite, State.mems_upd, ite_self, State.rebuildStream_mems, State.journal_mems]
    | with_reducible refine (State.mems_foldl ?_ _ _).trans ?_
    | intro _
    | dsimp only
    | split

theorem State.captureChecks_mems (s : State) (ecc : List EccRes) : (State.captureChecks s ecc).mems = s.mems := by
  unfold State.captureChecks
  repeat' first
    | with_reducible rfl
    | simp only [State.mems_ite, State.mems_upd, ite_self, State.stockChecks_mems]
    | with_reducible refine (State.mems_foldl ?_ _ _).trans ?_
    | intro _
    | dsimp only
    | split

theorem execZoneAppendComplete_mems (bay : Nat) (seq : Nat) (s : State) (ecc : List EccRes) : outMems s.mems (execZoneAppendComplete bay seq s ecc) = s.mems := by
  unfold execZoneAppendComplete
  repeat' first
    | with_reducible rfl
    | simp only [outMems_ite, outMems_next, outMems_fault, outMems_refused, outMems_void, State.mems_ite, State.mems_upd, ite_self, State.captureChecks_mems, State.setCur_mems, State.addWritten_mems, State.failGen_mems, State.emit_mems, State.pumpBay_mems, State.flushGen_mems]
    | with_reducible refine (State.mems_foldl ?_ _ _).trans ?_
    | intro _
    | dsimp only
    | split

theorem execFlushComplete_mems (bay : Nat) (ms : Nat) (written : Nat) (lifeOk : Bool) (s : State) : outMems s.mems (execFlushComplete bay ms written lifeOk s) = s.mems := by
  unfold execFlushComplete
  repeat' first
    | with_reducible rfl
    | simp only [outMems_ite, outMems_next, outMems_fault, outMems_refused, outMems_void, State.mems_ite, State.mems_upd, ite_self, State.setWritten_mems, State.put_mems, State.finishGen_mems, State.setCur_mems]
    | with_reducible refine (State.mems_foldl ?_ _ _).trans ?_
    | intro _
    | dsimp only
    | split

theorem execGenerationFail_mems (bay : Nat) (s : State) : outMems s.mems (execGenerationFail bay s) = s.mems := by
  unfold execGenerationFail
  repeat' first
    | with_reducible rfl
    | simp only [outMems_ite, outMems_next, outMems_fault, outMems_refused, outMems_void, State.mems_ite, State.mems_upd, ite_self, State.count_mems, State.failGen_mems]
    | with_reducible refine (State.mems_foldl ?_ _ _).trans ?_
    | intro _
    | dsimp only
    | split

theorem execCartridgeInsert_mems (bay : Nat) (s : State) : outMems s.mems (execCartridgeInsert bay s) = s.mems := by
  unfold execCartridgeInsert
  repeat' first
    | with_reducible rfl
    | simp only [outMems_ite, outMems_next, outMems_fault, outMems_refused, outMems_void, State.mems_ite, State.mems_upd, ite_self, State.emit_mems, State.put_mems, State.count_mems]
    | with_reducible refine (State.mems_foldl ?_ _ _).trans ?_
    | intro _
    | dsimp only
    | split

theorem execPerstRelease_mems (bay : Nat) (s : State) : outMems s.mems (execPerstRelease bay s) = s.mems := by
  unfold execPerstRelease
  repeat' first
    | with_reducible rfl
    | simp only [outMems_ite, outMems_next, outMems_fault, outMems_refused, outMems_void, State.mems_ite, State.mems_upd, ite_self, State.emit_mems, State.put_mems]
    | with_reducible refine (State.mems_foldl ?_ _ _).trans ?_
    | intro _
    | dsimp only
    | split

theorem execControllerReady_mems (bay : Nat) (cart : Cart) (s : State) : outMems s.mems (execControllerReady bay cart s) = s.mems := by
  unfold execControllerReady
  repeat' first
    | with_reducible rfl
    | simp only [outMems_ite, outMems_next, outMems_fault, outMems_refused, outMems_void, State.mems_ite, State.mems_upd, ite_self, State.put_mems, State.put64_mems, State.setCart_mems, State.setWritten_mems, State.ingFault_mems, State.readLabel_mems]
    | with_reducible refine (State.mems_foldl ?_ _ _).trans ?_
    | intro _
    | dsimp only
    | split

theorem execCartridgeRemove_mems (bay : Nat) (s : State) : outMems s.mems (execCartridgeRemove bay s) = s.mems := by
  unfold execCartridgeRemove
  repeat' first
    | with_reducible rfl
    | simp only [outMems_ite, outMems_next, outMems_fault, outMems_refused, outMems_void, State.mems_ite, State.mems_upd, ite_self, State.dropBay_mems, State.clearBay_mems, State.put_mems]
    | with_reducible refine (State.mems_foldl ?_ _ _).trans ?_
    | intro _
    | dsimp only
    | split

theorem execBayOverload_mems (bay : Nat) (s : State) : outMems s.mems (execBayOverload bay s) = s.mems := by
  unfold execBayOverload
  repeat' first
    | with_reducible rfl
    | simp only [outMems_ite, outMems_next, outMems_fault, outMems_refused, outMems_void, State.mems_ite, State.mems_upd, ite_self, State.dropBay_mems, State.clearBay_mems, State.emit_mems, State.ingFault_mems]
    | with_reducible refine (State.mems_foldl ?_ _ _).trans ?_
    | intro _
    | dsimp only
    | split

theorem execEject_mems (bay : Nat) (s : State) : outMems s.mems (execEject bay s) = s.mems := by
  unfold execEject
  repeat' first
    | with_reducible rfl
    | simp only [outMems_ite, outMems_next, outMems_fault, outMems_refused, outMems_void, State.mems_ite, State.mems_upd, ite_self, State.ejectBay_mems]
    | with_reducible refine (State.mems_foldl ?_ _ _).trans ?_
    | intro _
    | dsimp only
    | split

theorem execEjectComplete_mems (bay : Nat) (s : State) : outMems s.mems (execEjectComplete bay s) = s.mems := by
  unfold execEjectComplete
  repeat' first
    | with_reducible rfl
    | simp only [outMems_ite, outMems_next, outMems_fault, outMems_refused, outMems_void, State.mems_ite, State.mems_upd, ite_self, State.clearBay_mems, State.emit_mems]
    | with_reducible refine (State.mems_foldl ?_ _ _).trans ?_
    | intro _
    | dsimp only
    | split

theorem execWipe_mems (bay : Nat) (s : State) : outMems s.mems (execWipe bay s) = s.mems := by
  unfold execWipe
  repeat' first
    | with_reducible rfl
    | simp only [outMems_ite, outMems_next, outMems_fault, outMems_refused, outMems_void, State.mems_ite, State.mems_upd, ite_self, State.wipeBay_mems]
    | with_reducible refine (State.mems_foldl ?_ _ _).trans ?_
    | intro _
    | dsimp only
    | split


end Sys2Proof.Machine
end

