-- ==== Sys2Proof/Laws/MemCadence.lean ====
section
/-!
SUPPORT. Laws/MemCadence.lean: what Cadence.lean leaves of the memories and the queue. -/

set_option linter.unusedTactic false
set_option linter.unreachableTactic false
set_option linter.unusedSimpArgs false

namespace Sys2Proof.Machine

theorem State.serveDone_mems (x : Slot) (result : List Byte) (u : State) : (State.serveDone x result u).mems = u.mems := by
  unfold State.serveDone
  repeat' first
    | with_reducible rfl
    | simp only [State.mems_ite, State.mems_upd, ite_self, State.auditPages_mems, State.finish_mems]
    | with_reducible refine (State.mems_foldl ?_ _ _).trans ?_
    | intro _
    | dsimp only
    | split

theorem State.serveRefused_mems (s : State) (x : Slot) (kind : Nat) (id : Nat) : (State.serveRefused s x kind id).mems = s.mems := by
  unfold State.serveRefused
  repeat' first
    | with_reducible rfl
    | simp only [State.mems_ite, State.mems_upd, ite_self, State.count_mems, State.raise_mems, State.finish_mems]
    | with_reducible refine (State.mems_foldl ?_ _ _).trans ?_
    | intro _
    | dsimp only
    | split

theorem State.broadcast_mems (s : State) (m : CadMsg) : (State.broadcast s m).mems = s.mems := by
  unfold State.broadcast
  repeat' first
    | with_reducible rfl
    | simp only [State.mems_ite, State.mems_upd, ite_self, State.sendChildren_mems, State.emit_mems]
    | with_reducible refine (State.mems_foldl ?_ _ _).trans ?_
    | intro _
    | dsimp only
    | split

theorem State.mCancel_mems (s : State) : (State.mCancel s).mems = s.mems := by
  unfold State.mCancel
  repeat' first
    | with_reducible rfl
    | simp only [State.mems_ite, State.mems_upd, ite_self]
    | with_reducible refine (State.mems_foldl ?_ _ _).trans ?_
    | intro _
    | dsimp only
    | split

theorem State.mStop_mems (s : State) (cause : Nat) (angle : Nat) : (State.mStop s cause angle).mems = s.mems := by
  unfold State.mStop
  repeat' first
    | with_reducible rfl
    | simp only [State.mems_ite, State.mems_upd, ite_self, State.mCancel_mems, State.broadcast_mems]
    | with_reducible refine (State.mems_foldl ?_ _ _).trans ?_
    | intro _
    | dsimp only
    | split

theorem State.mAbort_mems (s : State) (reason : Nat) : (State.mAbort s reason).mems = s.mems := by
  unfold State.mAbort
  repeat' first
    | with_reducible rfl
    | simp only [State.mems_ite, State.mems_upd, ite_self, State.raise_mems, State.mStop_mems, State.mCancel_mems, State.broadcast_mems]
    | with_reducible refine (State.mems_foldl ?_ _ _).trans ?_
    | intro _
    | dsimp only
    | split

theorem State.mEnd_mems (s : State) : (State.mEnd s).mems = s.mems := by
  unfold State.mEnd
  repeat' first
    | with_reducible rfl
    | simp only [State.mems_ite, State.mems_upd, ite_self, State.raise_mems, State.mStop_mems]
    | with_reducible refine (State.mems_foldl ?_ _ _).trans ?_
    | intro _
    | dsimp only
    | split

theorem State.mBeat_mems (s : State) (a : Nat) : (State.mBeat s a).mems = s.mems := by
  unfold State.mBeat
  repeat' first
    | with_reducible rfl
    | simp only [State.mems_ite, State.mems_upd, ite_self, State.broadcast_mems, State.mEnd_mems, State.mAbort_mems]
    | with_reducible refine (State.mems_foldl ?_ _ _).trans ?_
    | intro _
    | dsimp only
    | split

theorem State.mTurn_mems (s : State) : (State.mTurn s).mems = s.mems := by
  unfold State.mTurn
  repeat' first
    | with_reducible rfl
    | simp only [State.mems_ite, State.mems_upd, ite_self, State.mBeat_mems]
    | with_reducible refine (State.mems_foldl ?_ _ _).trans ?_
    | intro _
    | dsimp only
    | split

theorem State.placeHalt_mems (s : State) : (State.placeHalt s).mems = s.mems := by
  unfold State.placeHalt
  repeat' first
    | with_reducible rfl
    | simp only [State.mems_ite, State.mems_upd, ite_self, State.raiseHold_mems]
    | with_reducible refine (State.mems_foldl ?_ _ _).trans ?_
    | intro _
    | dsimp only
    | split

theorem State.dropStale_mems (s : State) (p : Nat) : (State.dropStale s p).mems = s.mems := by
  unfold State.dropStale
  repeat' first
    | with_reducible rfl
    | simp only [State.mems_ite, State.mems_upd, ite_self, State.setPort_mems]
    | with_reducible refine (State.mems_foldl ?_ _ _).trans ?_
    | intro _
    | dsimp only
    | split

theorem State.finishHalts_mems (s : State) (angle : Nat) (q : Nat) : (State.finishHalts s angle q).mems = s.mems := by
  induction q generalizing s angle <;> unfold State.finishHalts
  repeat' first
    | with_reducible rfl
    | simp only [State.mems_ite, State.mems_upd, ite_self, State.finish_mems]
    | with_reducible refine (State.mems_foldl ?_ _ _).trans ?_
    | simp only [*]
    | intro _
    | dsimp only
    | split

theorem State.settle_mems (s : State) (master : Nat) : (State.settle s master).mems = s.mems := by
  unfold State.settle
  repeat' first
    | with_reducible rfl
    | simp only [State.mems_ite, State.mems_upd, ite_self, State.buildTree_mems]
    | with_reducible refine (State.mems_foldl ?_ _ _).trans ?_
    | intro _
    | dsimp only
    | split

theorem State.confirmLowest_mems (s : State) : (State.confirmLowest s).mems = s.mems := by
  unfold State.confirmLowest
  repeat' first
    | with_reducible rfl
    | simp only [State.mems_ite, State.mems_upd, ite_self, State.sendCad_mems, State.emit_mems]
    | with_reducible refine (State.mems_foldl ?_ _ _).trans ?_
    | intro _
    | dsimp only
    | split

theorem State.beginRun_mems (s : State) (angle : Nat) : (State.beginRun s angle).mems = s.mems := by
  unfold State.beginRun
  repeat' first
    | with_reducible rfl
    | simp only [State.mems_ite, State.mems_upd, ite_self, State.cancelHolds_mems]
    | with_reducible refine (State.mems_foldl ?_ _ _).trans ?_
    | intro _
    | dsimp only
    | split

theorem State.announceStep_mems (s : State) : (State.announceStep s).mems = s.mems := by
  unfold State.announceStep
  repeat' first
    | with_reducible rfl
    | simp only [State.mems_ite, State.mems_upd, ite_self, State.emit_mems]
    | with_reducible refine (State.mems_foldl ?_ _ _).trans ?_
    | intro _
    | dsimp only
    | split

theorem State.becomeMaster_mems (s : State) : (State.becomeMaster s).mems = s.mems := by
  unfold State.becomeMaster
  repeat' first
    | with_reducible rfl
    | simp only [State.mems_ite, State.mems_upd, ite_self, State.settle_mems, State.mAbort_mems, State.mBeat_mems, State.announceStep_mems]
    | with_reducible refine (State.mems_foldl ?_ _ _).trans ?_
    | intro _
    | dsimp only
    | split

theorem State.fireStageEnd_mems (s : State) (e : Strike) (step : Nat) : (State.fireStageEnd s e step).mems = s.mems := by
  unfold State.fireStageEnd
  repeat' first
    | with_reducible rfl
    | simp only [State.mems_ite, State.mems_upd, ite_self, State.returnChannel_mems, State.releaseStash_mems, State.releaseBuffers_mems, State.setCore_mems]
    | with_reducible refine (State.mems_foldl ?_ _ _).trans ?_
    | intro _
    | dsimp only
    | split

theorem State.fireSpillClose_mems (s : State) (region : Nat) (mb : Nat) : (State.fireSpillClose s region mb).mems = s.mems := by
  unfold State.fireSpillClose
  repeat' first
    | with_reducible rfl
    | simp only [State.mems_ite, State.mems_upd, ite_self, State.stashFault_mems]
    | with_reducible refine (State.mems_foldl ?_ _ _).trans ?_
    | intro _
    | dsimp only
    | split

theorem State.commitAudits_mems (s : State) : (State.commitAudits s).mems = s.mems := by
  unfold State.commitAudits
  repeat' first
    | with_reducible rfl
    | simp only [State.mems_ite, State.mems_upd, ite_self, State.auditHands_mems, State.auditStash_mems, State.kvAudit_mems, State.auditTokens_mems, State.auditBloom_mems, State.raise_mems]
    | with_reducible refine (State.mems_foldl ?_ _ _).trans ?_
    | intro _
    | dsimp only
    | split

theorem State.commitStep_mems (s : State) (step : Nat) : (State.commitStep s step).mems = s.mems := by
  unfold State.commitStep
  repeat' first
    | with_reducible rfl
    | simp only [State.mems_ite, State.mems_upd, ite_self, State.journalInternal_mems, State.kvCommit_mems, State.commitAudits_mems]
    | with_reducible refine (State.mems_foldl ?_ _ _).trans ?_
    | intro _
    | dsimp only
    | split

theorem State.beginStep_mems (s : State) : (State.beginStep s).mems = s.mems := by
  unfold State.beginStep
  repeat' first
    | with_reducible rfl
    | simp only [State.mems_ite, State.mems_upd, ite_self, State.put_mems, State.clearStash_mems, State.commitCursors_mems, State.snapshot_mems]
    | with_reducible refine (State.mems_foldl ?_ _ _).trans ?_
    | intro _
    | dsimp only
    | split

theorem State.passGate_mems (s : State) (a : Nat) : (State.passGate s a).mems = s.mems := by
  unfold State.passGate
  repeat' first
    | with_reducible rfl
    | simp only [State.mems_ite, State.mems_upd, ite_self]
    | with_reducible refine (State.mems_foldl ?_ _ _).trans ?_
    | intro _
    | dsimp only
    | split

theorem State.auditHolds_mems (s : State) : (State.auditHolds s).mems = s.mems := by
  unfold State.auditHolds
  repeat' first
    | with_reducible rfl
    | simp only [State.mems_ite, State.mems_upd, ite_self, State.raise_mems]
    | with_reducible refine (State.mems_foldl ?_ _ _).trans ?_
    | intro _
    | dsimp only
    | split

theorem State.endReplay_mems (s : State) (r : ReplayRun) : (State.endReplay s r).mems = s.mems := by
  unfold State.endReplay
  repeat' first
    | with_reducible rfl
    | simp only [State.mems_ite, State.mems_upd, ite_self, State.writeCaptures_mems, State.draw_mems, State.cancelHolds_mems, State.put_mems, State.finishRunning_mems, State.finishHalts_mems]
    | with_reducible refine (State.mems_foldl ?_ _ _).trans ?_
    | intro _
    | dsimp only
    | split

theorem State.pulseOut_mems (s : State) (a : Nat) : (State.pulseOut s a).mems = s.mems := by
  unfold State.pulseOut
  repeat' first
    | with_reducible rfl
    | simp only [State.mems_ite, State.mems_upd, ite_self, State.emit_mems]
    | with_reducible refine (State.mems_foldl ?_ _ _).trans ?_
    | intro _
    | dsimp only
    | split

theorem State.rejoin_mems (s : State) (m : CadMsg) : (State.rejoin s m).mems = s.mems := by
  unfold State.rejoin
  repeat' first
    | with_reducible rfl
    | simp only [State.mems_ite, State.mems_upd, ite_self, State.settle_mems, State.raiseHold_mems]
    | with_reducible refine (State.mems_foldl ?_ _ _).trans ?_
    | intro _
    | dsimp only
    | split

theorem State.meet_mems (s : State) (m : CadMsg) : (State.meet s m).mems = s.mems := by
  unfold State.meet
  repeat' first
    | with_reducible rfl
    | simp only [State.mems_ite, State.mems_upd, ite_self, State.settle_mems]
    | with_reducible refine (State.mems_foldl ?_ _ _).trans ?_
    | intro _
    | dsimp only
    | split

theorem State.passOn_mems (s : State) (m : CadMsg) : (State.passOn s m).mems = s.mems := by
  unfold State.passOn
  repeat' first
    | with_reducible rfl
    | simp only [State.mems_ite, State.mems_upd, ite_self, State.sendChildren_mems]
    | with_reducible refine (State.mems_foldl ?_ _ _).trans ?_
    | intro _
    | dsimp only
    | split

theorem State.runDone_mems (s : State) : (State.runDone s).mems = s.mems := by
  unfold State.runDone
  repeat' first
    | with_reducible rfl
    | simp only [State.mems_ite, State.mems_upd, ite_self, State.finishRunning_mems]
    | with_reducible refine (State.mems_foldl ?_ _ _).trans ?_
    | intro _
    | dsimp only
    | split

theorem execBeatIssue_mems (s : State) : outMems s.mems (execBeatIssue s) = s.mems := by
  unfold execBeatIssue
  repeat' first
    | with_reducible rfl
    | simp only [outMems_ite, outMems_next, outMems_fault, outMems_refused, outMems_void, State.mems_ite, State.mems_upd, ite_self, State.mBeat_mems, State.mStop_mems, State.mTurn_mems]
    | with_reducible refine (State.mems_foldl ?_ _ _).trans ?_
    | intro _
    | dsimp only
    | split

theorem execKeepSend_mems (s : State) : outMems s.mems (execKeepSend s) = s.mems := by
  unfold execKeepSend
  repeat' first
    | with_reducible rfl
    | simp only [outMems_ite, outMems_next, outMems_fault, outMems_refused, outMems_void, State.mems_ite, State.mems_upd, ite_self, State.sendChildren_mems]
    | with_reducible refine (State.mems_foldl ?_ _ _).trans ?_
    | intro _
    | dsimp only
    | split

theorem execKeep_mems (msg : CadMsg) (s : State) : outMems s.mems (execKeep msg s) = s.mems := by
  unfold execKeep
  repeat' first
    | with_reducible rfl
    | simp only [outMems_ite, outMems_next, outMems_fault, outMems_refused, outMems_void, State.mems_ite, State.mems_upd, ite_self, State.count_mems, State.rejoin_mems, State.meet_mems, State.passOn_mems]
    | with_reducible refine (State.mems_foldl ?_ _ _).trans ?_
    | intro _
    | dsimp only
    | split

theorem State.mCount_mems (s : State) (m : CadMsg) : (State.mCount s m).mems = s.mems := by
  unfold State.mCount
  repeat' first
    | with_reducible rfl
    | simp only [State.mems_ite, State.mems_upd, ite_self]
    | with_reducible refine (State.mems_foldl ?_ _ _).trans ?_
    | intro _
    | dsimp only
    | split

theorem State.mReset_mems (s : State) (m : CadMsg) : (State.mReset s m).mems = s.mems := by
  unfold State.mReset
  repeat' first
    | with_reducible rfl
    | simp only [State.mems_ite, State.mems_upd, ite_self, State.mCount_mems, State.mAbort_mems]
    | with_reducible refine (State.mems_foldl ?_ _ _).trans ?_
    | intro _
    | dsimp only
    | split

theorem execHold_mems (msg : CadMsg) (s : State) : outMems s.mems (execHold msg s) = s.mems := by
  unfold execHold
  repeat' first
    | with_reducible rfl
    | simp only [outMems_ite, outMems_next, outMems_fault, outMems_refused, outMems_void, State.mems_ite, State.mems_upd, ite_self, State.count_mems, State.mReset_mems, State.mCount_mems, State.mStop_mems, State.raise_mems, State.mAbort_mems]
    | with_reducible refine (State.mems_foldl ?_ _ _).trans ?_
    | intro _
    | dsimp only
    | split

theorem execHoldRelease_mems (msg : CadMsg) (s : State) : outMems s.mems (execHoldRelease msg s) = s.mems := by
  unfold execHoldRelease
  repeat' first
    | with_reducible rfl
    | simp only [outMems_ite, outMems_next, outMems_fault, outMems_refused, outMems_void, State.mems_ite, State.mems_upd, ite_self, State.count_mems]
    | with_reducible refine (State.mems_foldl ?_ _ _).trans ?_
    | intro _
    | dsimp only
    | split

theorem execCandidate_mems (msg : CadMsg) (s : State) : outMems s.mems (execCandidate msg s) = s.mems := by
  unfold execCandidate
  repeat' first
    | with_reducible rfl
    | simp only [outMems_ite, outMems_next, outMems_fault, outMems_refused, outMems_void, State.mems_ite, State.mems_upd, ite_self, State.confirmLowest_mems]
    | with_reducible refine (State.mems_foldl ?_ _ _).trans ?_
    | intro _
    | dsimp only
    | split

theorem execConfirm_mems (msg : CadMsg) (s : State) : outMems s.mems (execConfirm msg s) = s.mems := by
  unfold execConfirm
  repeat' first
    | with_reducible rfl
    | simp only [outMems_ite, outMems_next, outMems_fault, outMems_refused, outMems_void, State.mems_ite, State.mems_upd, ite_self, State.becomeMaster_mems]
    | with_reducible refine (State.mems_foldl ?_ _ _).trans ?_
    | intro _
    | dsimp only
    | split

theorem execGateStall_mems (dev : Nat) (angle : Nat) (s : State) : outMems s.mems (execGateStall dev angle s) = s.mems := by
  unfold execGateStall
  repeat' first
    | with_reducible rfl
    | simp only [outMems_ite, outMems_next, outMems_fault, outMems_refused, outMems_void, State.mems_ite, State.mems_upd, ite_self, State.raise_mems, State.mStop_mems, State.mAbort_mems]
    | with_reducible refine (State.mems_foldl ?_ _ _).trans ?_
    | intro _
    | dsimp only
    | split

theorem execGateReady_mems (entry : Nat) (s : State) : outMems s.mems (execGateReady entry s) = s.mems := by
  unfold execGateReady
  repeat' first
    | with_reducible rfl
    | simp only [outMems_ite, outMems_next, outMems_fault, outMems_refused, outMems_void, State.mems_ite, State.mems_upd, ite_self, State.releaseHold_mems]
    | with_reducible refine (State.mems_foldl ?_ _ _).trans ?_
    | intro _
    | dsimp only
    | split

theorem execRollbackComplete_mems (s : State) : outMems s.mems (execRollbackComplete s) = s.mems := by
  unfold execRollbackComplete
  repeat' first
    | with_reducible rfl
    | simp only [outMems_ite, outMems_next, outMems_fault, outMems_refused, outMems_void, State.mems_ite, State.mems_upd, ite_self, State.releaseHold_mems, State.raiseHold_mems, State.placeWant_mems]
    | with_reducible refine (State.mems_foldl ?_ _ _).trans ?_
    | intro _
    | dsimp only
    | split

theorem execResumeRelease_mems (s : State) : outMems s.mems (execResumeRelease s) = s.mems := by
  unfold execResumeRelease
  repeat' first
    | with_reducible rfl
    | simp only [outMems_ite, outMems_next, outMems_fault, outMems_refused, outMems_void, State.mems_ite, State.mems_upd, ite_self, State.releaseHold_mems, State.count_mems]
    | with_reducible refine (State.mems_foldl ?_ _ _).trans ?_
    | intro _
    | dsimp only
    | split

theorem execCadInEdge_mems (high : Nat) (gap : Nat) (sinceBeat : Nat) (s : State) : outMems s.mems (execCadInEdge high gap sinceBeat s) = s.mems := by
  unfold execCadInEdge
  repeat' first
    | with_reducible rfl
    | simp only [outMems_ite, outMems_next, outMems_fault, outMems_refused, outMems_void, State.mems_ite, State.mems_upd, ite_self, State.count_mems, State.mTurn_mems]
    | with_reducible refine (State.mems_foldl ?_ _ _).trans ?_
    | intro _
    | dsimp only
    | split

theorem execCadInLost_mems (s : State) : outMems s.mems (execCadInLost s) = s.mems := by
  unfold execCadInLost
  repeat' first
    | with_reducible rfl
    | simp only [outMems_ite, outMems_next, outMems_fault, outMems_refused, outMems_void, State.mems_ite, State.mems_upd, ite_self, State.raise_mems]
    | with_reducible refine (State.mems_foldl ?_ _ _).trans ?_
    | intro _
    | dsimp only
    | split


end Sys2Proof.Machine
end

