-- ==== Sys2Proof/Laws/MemPower.lean ====
section
/-!
SUPPORT. Laws/MemPower.lean: what Power.lean leaves of the memories and the queue. -/

set_option linter.unusedTactic false
set_option linter.unreachableTactic false
set_option linter.unusedSimpArgs false

namespace Sys2Proof.Machine

theorem State.drivePin_mems (s : State) : (State.drivePin s).mems = s.mems := by
  unfold State.drivePin
  split <;> rfl

theorem State.abortHalts_mems (s : State) (q : Nat) : (State.abortHalts s q).mems = s.mems := by
  induction q generalizing s <;> unfold State.abortHalts
  repeat' first
    | with_reducible rfl
    | simp only [State.mems_ite, State.mems_upd, ite_self, State.finish_mems]
    | with_reducible refine (State.mems_foldl ?_ _ _).trans ?_
    | simp only [*]
    | intro _
    | dsimp only
    | split

theorem State.abortRunning_mems (s : State) : (State.abortRunning s).mems = s.mems := by
  unfold State.abortRunning
  repeat' first
    | with_reducible rfl
    | simp only [State.mems_ite, State.mems_upd, ite_self, State.abortHalts_mems, State.finishRunning_mems]
    | with_reducible refine (State.mems_foldl ?_ _ _).trans ?_
    | intro _
    | dsimp only
    | split

theorem State.dropUploads_mems (s : State) : (State.dropUploads s).mems = s.mems := by
  unfold State.dropUploads
  repeat' first
    | with_reducible rfl
    | simp only [State.mems_ite, State.mems_upd, ite_self]
    | with_reducible refine (State.mems_foldl ?_ _ _).trans ?_
    | intro _
    | dsimp only
    | split

theorem State.resetCad_mems (s : State) (resume : Option Nat) : (State.resetCad s resume).mems = s.mems := by
  unfold State.resetCad
  repeat' first
    | with_reducible rfl
    | simp only [State.mems_ite, State.mems_upd, ite_self]
    | with_reducible refine (State.mems_foldl ?_ _ _).trans ?_
    | intro _
    | dsimp only
    | split

theorem State.clearCores_mems (s : State) (step : Nat) : (State.clearCores s step).mems = s.mems := by
  unfold State.clearCores
  repeat' first
    | with_reducible rfl
    | simp only [State.mems_ite, State.mems_upd, ite_self, State.dropStale_mems, State.abortBloom_mems, State.put_mems]
    | with_reducible refine (State.mems_foldl ?_ _ _).trans ?_
    | intro _
    | dsimp only
    | split

theorem State.resetBay_mems (old : State) (s : State) (b : Nat) : (State.resetBay old s b).mems = s.mems := by
  unfold State.resetBay
  dsimp only
  split
  · rfl
  · split
    · exact State.put_mems _ _ _
    · rw [State.put_mems, State.emit_mems]

theorem State.resetSvc_mems (s : State) : (State.resetSvc s).mems = s.mems := by
  unfold State.resetSvc
  repeat' first
    | with_reducible rfl
    | simp only [State.mems_ite, State.mems_upd, ite_self]
    | with_reducible refine (State.mems_foldl ?_ _ _).trans ?_
    | intro _
    | dsimp only
    | split

theorem State.resetDbg_mems (s : State) : (State.resetDbg s).mems = s.mems := by
  unfold State.resetDbg
  repeat' first
    | with_reducible rfl
    | simp only [State.mems_ite, State.mems_upd, ite_self]
    | with_reducible refine (State.mems_foldl ?_ _ _).trans ?_
    | intro _
    | dsimp only
    | split

theorem State.resetBays_mems (s : State) : (State.resetBays s).mems = s.mems := by
  unfold State.resetBays
  repeat' first
    | with_reducible rfl
    | simp only [State.mems_ite, State.mems_upd, ite_self, State.failGen_mems, State.clearBay_mems, State.emit_mems]
    | with_reducible refine (State.mems_foldl ?_ _ _).trans ?_
    | intro _
    | dsimp only
    | split

theorem State.resetFab_mems (s : State) (p : Nat) : (State.resetFab s p).mems = s.mems := by
  unfold State.resetFab
  repeat' first
    | with_reducible rfl
    | simp only [State.mems_ite, State.mems_upd, ite_self, State.setPort_mems, State.goDown_mems, State.put_mems]
    | with_reducible refine (State.mems_foldl ?_ _ _).trans ?_
    | intro _
    | dsimp only
    | split

theorem State.resetDomain_mems (s : State) (d : Nat) : (State.resetDomain s d).mems = s.mems := by
  unfold State.resetDomain
  repeat' first
    | with_reducible rfl
    | simp only [State.mems_ite, State.mems_upd, ite_self, State.resetSvc_mems, State.resetDbg_mems, State.resetBays_mems, State.resetFab_mems]
    | with_reducible refine (State.mems_foldl ?_ _ _).trans ?_
    | intro _
    | dsimp only
    | split

theorem State.noteReach_mems (s : State) (level : Nat) : (State.noteReach s level).mems = s.mems := by
  unfold State.noteReach
  repeat' first
    | with_reducible rfl
    | simp only [State.mems_ite, State.mems_upd, ite_self, State.put_mems]
    | with_reducible refine (State.mems_foldl ?_ _ _).trans ?_
    | intro _
    | dsimp only
    | split

theorem State.dropSource_mems (s : State) (p : ResetSrc → Bool) : (State.dropSource s p).mems = s.mems := by
  unfold State.dropSource
  repeat' first
    | with_reducible rfl
    | simp only [State.mems_ite, State.mems_upd, ite_self]
    | with_reducible refine (State.mems_foldl ?_ _ _).trans ?_
    | intro _
    | dsimp only
    | split

theorem execResetPinRelease_mems (sys : Bool) (s : State) : outMems s.mems (execResetPinRelease sys s) = s.mems := by
  unfold execResetPinRelease
  repeat' first
    | with_reducible rfl
    | simp only [outMems_ite, outMems_next, outMems_fault, outMems_refused, outMems_void, State.mems_ite, State.mems_upd, ite_self, State.dropSource_mems]
    | with_reducible refine (State.mems_foldl ?_ _ _).trans ?_
    | intro _
    | dsimp only
    | split

theorem execClockGood_mems (domain : Nat) (s : State) : outMems s.mems (execClockGood domain s) = s.mems := by
  unfold execClockGood
  repeat' first
    | with_reducible rfl
    | simp only [outMems_ite, outMems_next, outMems_fault, outMems_refused, outMems_void, State.mems_ite, State.mems_upd, ite_self, State.dropSource_mems, State.put_mems]
    | with_reducible refine (State.mems_foldl ?_ _ _).trans ?_
    | intro _
    | dsimp only
    | split

theorem execPowerInputBand_mems (vin : Nat) (s : State) : outMems s.mems (execPowerInputBand vin s) = s.mems := by
  unfold execPowerInputBand
  repeat' first
    | with_reducible rfl
    | simp only [outMems_ite, outMems_next, outMems_fault, outMems_refused, outMems_void, State.mems_ite, State.mems_upd, ite_self, State.raise_mems]
    | with_reducible refine (State.mems_foldl ?_ _ _).trans ?_
    | intro _
    | dsimp only
    | split

theorem execPowerOnRelease_mems (legacyEn : Bool) (smbAddr : Nat) (s : State) : outMems s.mems (execPowerOnRelease legacyEn smbAddr s) = s.mems := by
  unfold execPowerOnRelease
  repeat' first
    | with_reducible rfl
    | simp only [outMems_ite, outMems_next, outMems_fault, outMems_refused, outMems_void, State.mems_ite, State.mems_upd, ite_self, State.put_mems]
    | with_reducible refine (State.mems_foldl ?_ _ _).trans ?_
    | intro _
    | dsimp only
    | split

theorem State.setTemp_mems (s : State) (k : Nat) (t : Nat) : (State.setTemp s k t).mems = s.mems := by
  unfold State.setTemp
  repeat' first
    | with_reducible rfl
    | simp only [State.mems_ite, State.mems_upd, ite_self, State.put_mems]
    | with_reducible refine (State.mems_foldl ?_ _ _).trans ?_
    | intro _
    | dsimp only
    | split

theorem State.setTemps_mems (s : State) (l : List Nat) : (State.setTemps s l).mems = s.mems := by
  unfold State.setTemps
  repeat' first
    | with_reducible rfl
    | simp only [State.mems_ite, State.mems_upd, ite_self, State.setTemp_mems]
    | with_reducible refine (State.mems_foldl ?_ _ _).trans ?_
    | intro _
    | dsimp only
    | split

theorem State.kick_mems (s : State) : (State.kick s).mems = s.mems := by
  unfold State.kick
  repeat' first
    | with_reducible rfl
    | simp only [State.mems_ite, State.mems_upd, ite_self]
    | with_reducible refine (State.mems_foldl ?_ _ _).trans ?_
    | intro _
    | dsimp only
    | split

theorem execThermalWarning_mems (sensor : Nat) (temp : Nat) (s : State) : outMems s.mems (execThermalWarning sensor temp s) = s.mems := by
  unfold execThermalWarning
  repeat' first
    | with_reducible rfl
    | simp only [outMems_ite, outMems_next, outMems_fault, outMems_refused, outMems_void, State.mems_ite, State.mems_upd, ite_self, State.setTemp_mems, State.raise_mems]
    | with_reducible refine (State.mems_foldl ?_ _ _).trans ?_
    | intro _
    | dsimp only
    | split

theorem execThermalTrip_mems (sensor : Nat) (temp : Nat) (s : State) : outMems s.mems (execThermalTrip sensor temp s) = s.mems := by
  unfold execThermalTrip
  repeat' first
    | with_reducible rfl
    | simp only [outMems_ite, outMems_next, outMems_fault, outMems_refused, outMems_void, State.mems_ite, State.mems_upd, ite_self, State.raise_mems, State.setTemp_mems]
    | with_reducible refine (State.mems_foldl ?_ _ _).trans ?_
    | intro _
    | dsimp only
    | split

theorem execThermalTripEnd_mems (temps : List Nat) (s : State) : outMems s.mems (execThermalTripEnd temps s) = s.mems := by
  unfold execThermalTripEnd
  repeat' first
    | with_reducible rfl
    | simp only [outMems_ite, outMems_next, outMems_fault, outMems_refused, outMems_void, State.mems_ite, State.mems_upd, ite_self, State.setTemps_mems, State.dropSource_mems]
    | with_reducible refine (State.mems_foldl ?_ _ _).trans ?_
    | intro _
    | dsimp only
    | split

theorem execWatchdogExpiry_mems (ms : Nat) (s : State) : outMems s.mems (execWatchdogExpiry ms s) = s.mems := by
  unfold execWatchdogExpiry
  repeat' first
    | with_reducible rfl
    | simp only [outMems_ite, outMems_next, outMems_fault, outMems_refused, outMems_void, State.mems_ite, State.mems_upd, ite_self, State.raise_mems]
    | with_reducible refine (State.mems_foldl ?_ _ _).trans ?_
    | intro _
    | dsimp only
    | split

theorem execWdtKick_mems (s : State) : outMems s.mems (execWdtKick s) = s.mems := by
  unfold execWdtKick
  repeat' first
    | with_reducible rfl
    | simp only [outMems_ite, outMems_next, outMems_fault, outMems_refused, outMems_void, State.mems_ite, State.mems_upd, ite_self, State.kick_mems]
    | with_reducible refine (State.mems_foldl ?_ _ _).trans ?_
    | intro _
    | dsimp only
    | split


end Sys2Proof.Machine
end

