-- ==== Sys2Proof/Laws/MemFaults.lean ====
section
/-!
SUPPORT. Laws/MemFaults.lean: what Faults.lean leaves of the memories and the queue. -/

set_option linter.unusedTactic false
set_option linter.unreachableTactic false
set_option linter.unusedSimpArgs false

namespace Sys2Proof.Machine

theorem State.sendNotices_mems (s : State) (m : FaultMsg) : (State.sendNotices s m).mems = s.mems := by
  unfold State.sendNotices
  repeat' first
    | with_reducible rfl
    | simp only [State.mems_ite, State.mems_upd, ite_self, State.sendRouted_mems]
    | with_reducible refine (State.mems_foldl ?_ _ _).trans ?_
    | intro _
    | dsimp only
    | split

theorem State.eraseLink_mems (s : State) (p : Nat) : (State.eraseLink s p).mems = s.mems := by
  unfold State.eraseLink
  repeat' first
    | with_reducible rfl
    | simp only [State.mems_ite, State.mems_upd, ite_self, State.setPort_mems, State.put_mems]
    | with_reducible refine (State.mems_foldl ?_ _ _).trans ?_
    | intro _
    | dsimp only
    | split

theorem State.abortQueue_mems (s : State) (q : Nat) : (State.abortQueue s q).mems = s.mems := by
  induction q generalizing s <;> unfold State.abortQueue
  repeat' first
    | with_reducible rfl
    | simp only [State.mems_ite, State.mems_upd, ite_self, State.finish_mems]
    | with_reducible refine (State.mems_foldl ?_ _ _).trans ?_
    | simp only [*]
    | intro _
    | dsimp only
    | split

theorem State.barScan_mems (s : State) : (State.barScan s).mems = s.mems := by
  unfold State.barScan
  repeat' first
    | with_reducible rfl
    | simp only [State.mems_ite, State.mems_upd, ite_self]
    | with_reducible refine (State.mems_foldl ?_ _ _).trans ?_
    | intro _
    | dsimp only
    | split

theorem State.quench_mems (s : State) (m : FaultMsg) : (State.quench s m).mems = s.mems := by
  unfold State.quench
  repeat' first
    | with_reducible rfl
    | simp only [State.mems_ite, State.mems_upd, ite_self, State.sendNotices_mems, State.eraseLink_mems, State.abortRunning_mems, State.abortQueue_mems, State.put_mems, State.drivePin_mems, State.barScan_mems]
    | with_reducible refine (State.mems_foldl ?_ _ _).trans ?_
    | intro _
    | dsimp only
    | split

theorem State.latchF_mems (s : State) (m : FaultMsg) : (State.latchF s m).mems = s.mems := by
  unfold State.latchF
  repeat' first
    | with_reducible rfl
    | simp only [State.mems_ite, State.mems_upd, ite_self, State.put64_mems, State.put_mems]
    | with_reducible refine (State.mems_foldl ?_ _ _).trans ?_
    | intro _
    | dsimp only
    | split

theorem State.latchFirst_mems (s : State) (m : FaultMsg) : (State.latchFirst s m).mems = s.mems := by
  have hu : ∀ (t : State) (y : Sys), ({ t with sys := y } : State).mems = t.mems := fun _ _ => rfl
  unfold State.latchFirst
  split
  · exact State.put_mems _ _ _
  · rw [State.drivePin_mems]
    refine (hu _ _).trans ?_
    rw [State.put_mems, State.put64_mems, State.put64_mems]

theorem State.reforce_mems (s : State) (m : FaultMsg) : (State.reforce s m).mems = s.mems := by
  unfold State.reforce
  repeat' first
    | with_reducible rfl
    | simp only [State.mems_ite, State.mems_upd, ite_self, State.put_mems, State.raiseMsg_mems]
    | with_reducible refine (State.mems_foldl ?_ _ _).trans ?_
    | intro _
    | dsimp only
    | split

theorem State.clearFirst_mems (s : State) : (State.clearFirst s).mems = s.mems := by
  unfold State.clearFirst
  repeat' first
    | with_reducible rfl
    | simp only [State.mems_ite, State.mems_upd, ite_self, State.put64_mems, State.put_mems]
    | with_reducible refine (State.mems_foldl ?_ _ _).trans ?_
    | intro _
    | dsimp only
    | split

theorem State.writeSrcCfg_mems (s : State) (x : Nat) (force : Bool) (mask : Bool) (kind : Nat) : (State.writeSrcCfg s x force mask kind).mems = s.mems := by
  unfold State.writeSrcCfg
  repeat' first
    | with_reducible rfl
    | simp only [State.mems_ite, State.mems_upd, ite_self, State.put_mems, State.raiseMsg_mems]
    | with_reducible refine (State.mems_foldl ?_ _ _).trans ?_
    | intro _
    | dsimp only
    | split

theorem State.putBit_mems (s : State) (f : Fld) (k : Nat) (b : Bool) : (State.putBit s f k b).mems = s.mems := by
  unfold State.putBit
  repeat' first
    | with_reducible rfl
    | simp only [State.mems_ite, State.mems_upd, ite_self, State.put_mems]
    | with_reducible refine (State.mems_foldl ?_ _ _).trans ?_
    | intro _
    | dsimp only
    | split

theorem State.raiseLegacy_mems (s : State) (k : Nat) (kind : Nat) : (State.raiseLegacy s k kind).mems = s.mems := by
  unfold State.raiseLegacy
  repeat' first
    | with_reducible rfl
    | simp only [State.mems_ite, State.mems_upd, ite_self, State.raise_mems]
    | with_reducible refine (State.mems_foldl ?_ _ _).trans ?_
    | intro _
    | dsimp only
    | split

theorem execQuenchStockSelfRefresh_mems (s : State) : outMems s.mems (execQuenchStockSelfRefresh s) = s.mems := by
  unfold execQuenchStockSelfRefresh
  repeat' first
    | with_reducible rfl
    | simp only [outMems_ite, outMems_next, outMems_fault, outMems_refused, outMems_void, State.mems_ite, State.mems_upd, ite_self, State.quench_mems]
    | with_reducible refine (State.mems_foldl ?_ _ _).trans ?_
    | intro _
    | dsimp only
    | split

theorem execCollectorParity_mems (offset : Nat) (s : State) : outMems s.mems (execCollectorParity offset s) = s.mems := by
  unfold execCollectorParity
  repeat' first
    | with_reducible rfl
    | simp only [outMems_ite, outMems_next, outMems_fault, outMems_refused, outMems_void, State.mems_ite, State.mems_upd, ite_self, State.put_mems, State.quench_mems, State.put64_mems]
    | with_reducible refine (State.mems_foldl ?_ _ _).trans ?_
    | intro _
    | dsimp only
    | split

theorem execFaultPulseEnd_mems (s : State) : outMems s.mems (execFaultPulseEnd s) = s.mems := by
  unfold execFaultPulseEnd
  repeat' first
    | with_reducible rfl
    | simp only [outMems_ite, outMems_next, outMems_fault, outMems_refused, outMems_void, State.mems_ite, State.mems_upd, ite_self, State.quench_mems]
    | with_reducible refine (State.mems_foldl ?_ _ _).trans ?_
    | intro _
    | dsimp only
    | split

theorem execSrcCfgForce_mems (source : Nat) (mask : Bool) (kind : Nat) (s : State) : outMems s.mems (execSrcCfgForce source mask kind s) = s.mems := by
  unfold execSrcCfgForce
  repeat' first
    | with_reducible rfl
    | simp only [outMems_ite, outMems_next, outMems_fault, outMems_refused, outMems_void, State.mems_ite, State.mems_upd, ite_self, State.writeSrcCfg_mems]
    | with_reducible refine (State.mems_foldl ?_ _ _).trans ?_
    | intro _
    | dsimp only
    | split

theorem execLegacyFault_mems (pair : Nat) (fault : Bool) (s : State) : outMems s.mems (execLegacyFault pair fault s) = s.mems := by
  unfold execLegacyFault
  repeat' first
    | with_reducible rfl
    | simp only [outMems_ite, outMems_next, outMems_fault, outMems_refused, outMems_void, State.mems_ite, State.mems_upd, ite_self, State.putBit_mems, State.raiseLegacy_mems]
    | with_reducible refine (State.mems_foldl ?_ _ _).trans ?_
    | intro _
    | dsimp only
    | split

theorem execLegacyWire_mems (pair : Nat) (equal : Bool) (s : State) : outMems s.mems (execLegacyWire pair equal s) = s.mems := by
  unfold execLegacyWire
  repeat' first
    | with_reducible rfl
    | simp only [outMems_ite, outMems_next, outMems_fault, outMems_refused, outMems_void, State.mems_ite, State.mems_upd, ite_self, State.putBit_mems, State.raiseLegacy_mems]
    | with_reducible refine (State.mems_foldl ?_ _ _).trans ?_
    | intro _
    | dsimp only
    | split

theorem execLegacyWindowEnd_mems (reversed : List Nat) (s : State) : outMems s.mems (execLegacyWindowEnd reversed s) = s.mems := by
  unfold execLegacyWindowEnd
  repeat' first
    | with_reducible rfl
    | simp only [outMems_ite, outMems_next, outMems_fault, outMems_refused, outMems_void, State.mems_ite, State.mems_upd, ite_self, State.putBit_mems, State.raiseLegacy_mems]
    | with_reducible refine (State.mems_foldl ?_ _ _).trans ?_
    | intro _
    | dsimp only
    | split


end Sys2Proof.Machine
end

