-- ==== Sys2Proof/Laws/MemBoot.lean ====
section
/-!
SUPPORT. Laws/MemBoot.lean: what Boot.lean leaves of the memories and the queue. -/

set_option linter.unusedTactic false
set_option linter.unreachableTactic false
set_option linter.unusedSimpArgs false

namespace Sys2Proof.Machine

theorem State.countRefused_mems (s : State) : (State.countRefused s).mems = s.mems := by
  unfold State.countRefused
  repeat' first
    | with_reducible rfl
    | simp only [State.mems_ite, State.mems_upd, ite_self, State.count_mems]
    | with_reducible refine (State.mems_foldl ?_ _ _).trans ?_
    | intro _
    | dsimp only
    | split

theorem State.retire_mems (s : State) (x : FwImage) : (State.retire s x).mems = s.mems := by
  unfold State.retire
  repeat' first
    | with_reducible rfl
    | simp only [State.mems_ite, State.mems_upd, ite_self, State.put_mems]
    | with_reducible refine (State.mems_foldl ?_ _ _).trans ?_
    | intro _
    | dsimp only
    | split

theorem State.takeSet_mems (s : State) (m : Nat) (exception : Bool) : (State.takeSet s m exception).mems = s.mems := by
  unfold State.takeSet
  repeat' first
    | with_reducible rfl
    | simp only [State.mems_ite, State.mems_upd, ite_self, State.raise_mems, State.measure_mems, State.put_mems, State.retire_mems]
    | with_reducible refine (State.mems_foldl ?_ _ _).trans ?_
    | intro _
    | dsimp only
    | split

theorem State.startScrub_mems (s : State) (why : Nat) : (State.startScrub s why).mems = s.mems := by
  unfold State.startScrub
  repeat' first
    | with_reducible rfl
    | simp only [State.mems_ite, State.mems_upd, ite_self, State.put_mems]
    | with_reducible refine (State.mems_foldl ?_ _ _).trans ?_
    | intro _
    | dsimp only
    | split

theorem State.takeMarker_mems (s : State) : (State.takeMarker s).mems = s.mems := by
  unfold State.takeMarker
  repeat' first
    | with_reducible rfl
    | simp only [State.mems_ite, State.mems_upd, ite_self, State.put_mems]
    | with_reducible refine (State.mems_foldl ?_ _ _).trans ?_
    | intro _
    | dsimp only
    | split

theorem State.bootChain_mems (s : State) : (State.bootChain s).mems = s.mems := by
  unfold State.bootChain
  repeat' first
    | with_reducible rfl
    | simp only [State.mems_ite, State.mems_upd, ite_self, State.put_mems, State.takeMarker_mems, State.countRefused_mems, State.measure_mems, State.takeSet_mems, State.raise_mems, State.startScrub_mems]
    | with_reducible refine (State.mems_foldl ?_ _ _).trans ?_
    | intro _
    | dsimp only
    | split

theorem State.clearBuffer_mems (s : State) (p : Nat) : (State.clearBuffer s p).mems = s.mems := by
  unfold State.clearBuffer
  repeat' first
    | with_reducible rfl
    | simp only [State.mems_ite, State.mems_upd, ite_self, State.returnCredits_mems, State.setPort_mems]
    | with_reducible refine (State.mems_foldl ?_ _ _).trans ?_
    | intro _
    | dsimp only
    | split

theorem State.clearBuffers_mems (s : State) : (State.clearBuffers s).mems = s.mems := by
  unfold State.clearBuffers
  repeat' first
    | with_reducible rfl
    | simp only [State.mems_ite, State.mems_upd, ite_self, State.clearBuffer_mems]
    | with_reducible refine (State.mems_foldl ?_ _ _).trans ?_
    | intro _
    | dsimp only
    | split

theorem State.afterScrub_mems (s : State) (why : Nat) : (State.afterScrub s why).mems = s.mems := by
  unfold State.afterScrub
  repeat' first
    | with_reducible rfl
    | simp only [State.mems_ite, State.mems_upd, ite_self, State.finishRunning_mems]
    | with_reducible refine (State.mems_foldl ?_ _ _).trans ?_
    | intro _
    | dsimp only
    | split

theorem execScrubStart_mems (s : State) : outMems s.mems (execScrubStart s) = s.mems := by
  unfold execScrubStart
  repeat' first
    | with_reducible rfl
    | simp only [outMems_ite, outMems_next, outMems_fault, outMems_refused, outMems_void, State.mems_ite, State.mems_upd, ite_self, State.startScrub_mems]
    | with_reducible refine (State.mems_foldl ?_ _ _).trans ?_
    | intro _
    | dsimp only
    | split


end Sys2Proof.Machine
end

