-- ==== Sys2Proof/Laws/MemBillets.lean ====
section
/-!
SUPPORT. Laws/MemBillets.lean: what Billets.lean leaves of the memories and the queue. -/

set_option linter.unusedTactic false
set_option linter.unreachableTactic false
set_option linter.unusedSimpArgs false

namespace Sys2Proof.Machine

theorem State.dropSeed_mems (s : State) : (State.dropSeed s).mems = s.mems := by
  unfold State.dropSeed
  repeat' first
    | with_reducible rfl
    | simp only [State.mems_ite, State.mems_upd, ite_self, State.put_mems]
    | with_reducible refine (State.mems_foldl ?_ _ _).trans ?_
    | intro _
    | dsimp only
    | split

theorem State.leaveJob_mems (s : State) (job : Nat) : (State.leaveJob s job).mems = s.mems := by
  unfold State.leaveJob
  repeat' first
    | with_reducible rfl
    | simp only [State.mems_ite, State.mems_upd, ite_self, State.dropSeed_mems, State.startScrub_mems]
    | with_reducible refine (State.mems_foldl ?_ _ _).trans ?_
    | intro _
    | dsimp only
    | split

theorem State.putCad_mems (s : State) (x : CadSet) : (State.putCad s x).mems = s.mems := by
  unfold State.putCad
  repeat' first
    | with_reducible rfl
    | simp only [State.mems_ite, State.mems_upd, ite_self, State.put_mems]
    | with_reducible refine (State.mems_foldl ?_ _ _).trans ?_
    | intro _
    | dsimp only
    | split

theorem State.putGangs_mems (s : State) (l : List Gang) : (State.putGangs s l).mems = s.mems := by
  unfold State.putGangs
  repeat' first
    | with_reducible rfl
    | simp only [State.mems_ite, State.mems_upd, ite_self, State.put_mems]
    | with_reducible refine (State.mems_foldl ?_ _ _).trans ?_
    | intro _
    | dsimp only
    | split

theorem State.putNumctrl_mems (s : State) (b : Billet) : (State.putNumctrl s b).mems = s.mems := by
  unfold State.putNumctrl
  repeat' first
    | with_reducible rfl
    | simp only [State.mems_ite, State.mems_upd, ite_self, State.put_mems]
    | with_reducible refine (State.mems_foldl ?_ _ _).trans ?_
    | intro _
    | dsimp only
    | split

theorem State.putKv_mems (s : State) (k : KvPlan) : (State.putKv s k).mems = s.mems := by
  unfold State.putKv
  repeat' first
    | with_reducible rfl
    | simp only [State.mems_ite, State.mems_upd, ite_self, State.put_mems, State.put64_mems]
    | with_reducible refine (State.mems_foldl ?_ _ _).trans ?_
    | intro _
    | dsimp only
    | split

theorem State.putStash_mems (s : State) (p : StashPlan) : (State.putStash s p).mems = s.mems := by
  unfold State.putStash
  repeat' first
    | with_reducible rfl
    | simp only [State.mems_ite, State.mems_upd, ite_self, State.put_mems, State.put64_mems]
    | with_reducible refine (State.mems_foldl ?_ _ _).trans ?_
    | intro _
    | dsimp only
    | split

theorem State.putTemper_mems (s : State) (p : TemperPlan) : (State.putTemper s p).mems = s.mems := by
  unfold State.putTemper
  repeat' first
    | with_reducible rfl
    | simp only [State.mems_ite, State.mems_upd, ite_self, State.put_mems, State.put64_mems]
    | with_reducible refine (State.mems_foldl ?_ _ _).trans ?_
    | intro _
    | dsimp only
    | split

theorem State.putModes_mems (s : State) (l : List Nat) : (State.putModes s l).mems = s.mems := by
  unfold State.putModes
  repeat' first
    | with_reducible rfl
    | simp only [State.mems_ite, State.mems_upd, ite_self, State.put_mems, State.trainStart_mems]
    | with_reducible refine (State.mems_foldl ?_ _ _).trans ?_
    | intro _
    | dsimp only
    | split

theorem State.putNet_mems (s : State) (b : Billet) (own : Nat) : (State.putNet s b own).mems = s.mems := by
  unfold State.putNet
  repeat' first
    | with_reducible rfl
    | simp only [State.mems_ite, State.mems_upd, ite_self, State.put_mems, State.putModes_mems]
    | with_reducible refine (State.mems_foldl ?_ _ _).trans ?_
    | intro _
    | dsimp only
    | split

theorem State.newBillet_mems (s : State) (b : Billet) : (State.newBillet s b).mems = s.mems := by
  unfold State.newBillet
  repeat' first
    | with_reducible rfl
    | simp only [State.mems_ite, State.mems_upd, ite_self, State.setPort_mems, State.put_mems]
    | with_reducible refine (State.mems_foldl ?_ _ _).trans ?_
    | intro _
    | dsimp only
    | split

theorem State.keepCursors_mems (s : State) (old : List (Nat × Cursor)) : (State.keepCursors s old).mems = s.mems := by
  unfold State.keepCursors
  repeat' first
    | with_reducible rfl
    | simp only [State.mems_ite, State.mems_upd, ite_self, State.rebuildStream_mems]
    | with_reducible refine (State.mems_foldl ?_ _ _).trans ?_
    | intro _
    | dsimp only
    | split

theorem State.takeSeed_mems (s : State) (b : Billet) (same : Bool) : (State.takeSeed s b same).mems = s.mems := by
  unfold State.takeSeed
  repeat' first
    | with_reducible rfl
    | simp only [State.mems_ite, State.mems_upd, ite_self, State.put_mems]
    | with_reducible refine (State.mems_foldl ?_ _ _).trans ?_
    | intro _
    | dsimp only
    | split


end Sys2Proof.Machine
end

