-- ==== Sys2Proof/Laws/MemStartup.lean ====
section
/-!
SUPPORT. Laws/MemStartup.lean: what Startup.lean leaves of the memories and the queue. -/

set_option linter.unusedTactic false
set_option linter.unreachableTactic false
set_option linter.unusedSimpArgs false

namespace Sys2Proof.Machine

theorem State.startStacks_mems (s : State) (d : Nat) : (State.startStacks s d).mems = s.mems := by
  unfold State.startStacks
  repeat' first
    | with_reducible rfl
    | simp only [State.mems_ite, State.mems_upd, ite_self, State.put_mems]
    | with_reducible refine (State.mems_foldl ?_ _ _).trans ?_
    | intro _
    | dsimp only
    | split

theorem State.onRelease_mems (s : State) (d : Nat) : (State.onRelease s d).mems = s.mems := by
  unfold State.onRelease
  repeat' first
    | with_reducible rfl
    | simp only [State.mems_ite, State.mems_upd, ite_self, State.drivePin_mems, State.raise_mems, State.kick_mems, State.bootChain_mems, State.startStacks_mems]
    | with_reducible refine (State.mems_foldl ?_ _ _).trans ?_
    | intro _
    | dsimp only
    | split


end Sys2Proof.Machine
end

