-- ==== Sys2Proof/Laws/MemViews.lean ====
section
/-!
SUPPORT. Laws/MemViews.lean: what Views.lean leaves of the memories and the queue. -/

set_option linter.unusedTactic false
set_option linter.unreachableTactic false
set_option linter.unusedSimpArgs false

namespace Sys2Proof.Machine

theorem State.setBank_mems (s : State) (k : Nat) (b : Bank) : (State.setBank s k b).mems = s.mems := by
  unfold State.setBank
  repeat' first
    | with_reducible rfl
    | simp only [State.mems_ite, State.mems_upd, ite_self]
    | with_reducible refine (State.mems_foldl ?_ _ _).trans ?_
    | intro _
    | dsimp only
    | split


end Sys2Proof.Machine
end

