-- ==== Sys2Proof/Laws/MemRestore.lean ====
section
/-!
SUPPORT. Laws/MemRestore.lean: what Restore.lean leaves of the memories and the queue. -/

set_option linter.unusedTactic false
set_option linter.unreachableTactic false
set_option linter.unusedSimpArgs false

namespace Sys2Proof.Machine

theorem State.resealLinks_mems (s : State) : (State.resealLinks s).mems = s.mems := by
  unfold State.resealLinks
  repeat' first
    | with_reducible rfl
    | simp only [State.mems_ite, State.mems_upd, ite_self, State.sendHello_mems]
    | with_reducible refine (State.mems_foldl ?_ _ _).trans ?_
    | intro _
    | dsimp only
    | split

theorem State.startLoad_mems (s : State) (r : RestoreRun) : (State.startLoad s r).mems = s.mems := by
  unfold State.startLoad
  repeat' first
    | with_reducible rfl
    | simp only [State.mems_ite, State.mems_upd, ite_self, State.put_mems]
    | with_reducible refine (State.mems_foldl ?_ _ _).trans ?_
    | intro _
    | dsimp only
    | split

theorem State.leaveRun_mems (s : State) : (State.leaveRun s).mems = s.mems := by
  unfold State.leaveRun
  repeat' first
    | with_reducible rfl
    | simp only [State.mems_ite, State.mems_upd, ite_self, State.endRestore_mems, State.finishHalts_mems]
    | with_reducible refine (State.mems_foldl ?_ _ _).trans ?_
    | intro _
    | dsimp only
    | split

theorem execRestoreStepAnnounce_mems (msg : RestoreMsg) (s : State) : outMems s.mems (execRestoreStepAnnounce msg s) = s.mems := by
  unfold execRestoreStepAnnounce
  repeat' first
    | with_reducible rfl
    | simp only [outMems_ite, outMems_next, outMems_fault, outMems_refused, outMems_void, State.mems_ite, State.mems_upd, ite_self, State.announceStep_mems, State.finishRunning_mems, State.leaveRun_mems, State.startLoad_mems]
    | with_reducible refine (State.mems_foldl ?_ _ _).trans ?_
    | intro _
    | dsimp only
    | split


end Sys2Proof.Machine
end

