-- ==== Sys2Proof/Laws/MemSmith.lean ====
section
/-!
SUPPORT. Laws/MemSmith.lean: what Smith.lean leaves of the memories and the queue. -/

set_option linter.unusedTactic false
set_option linter.unreachableTactic false
set_option linter.unusedSimpArgs false

namespace Sys2Proof.Machine

theorem State.badSignature_mems (s : State) (x : Slot) : (State.badSignature s x).mems = s.mems := by
  unfold State.badSignature
  repeat' first
    | with_reducible rfl
    | simp only [State.mems_ite, State.mems_upd, ite_self, State.count_mems, State.finish_mems]
    | with_reducible refine (State.mems_foldl ?_ _ _).trans ?_
    | intro _
    | dsimp only
    | split

theorem execIdentify_mems (slot : Nat) (s : State) : outMems s.mems (execIdentify slot s) = s.mems := by
  unfold execIdentify
  repeat' first
    | with_reducible rfl
    | simp only [outMems_ite, outMems_next, outMems_fault, outMems_refused, outMems_void, State.mems_ite, State.mems_upd, ite_self, State.finish_mems]
    | (refine withSlot_mems _ _ _ _ ?_)
    | with_reducible refine (State.mems_foldl ?_ _ _).trans ?_
    | intro _
    | dsimp only
    | split

theorem execAttest_mems (slot : Nat) (s : State) : outMems s.mems (execAttest slot s) = s.mems := by
  unfold execAttest
  repeat' first
    | with_reducible rfl
    | simp only [outMems_ite, outMems_next, outMems_fault, outMems_refused, outMems_void, State.mems_ite, State.mems_upd, ite_self, State.draw_mems, State.finish_mems]
    | (refine withSlot_mems _ _ _ _ ?_)
    | with_reducible refine (State.mems_foldl ?_ _ _).trans ?_
    | intro _
    | dsimp only
    | split

theorem execStatus_mems (slot : Nat) (s : State) : outMems s.mems (execStatus slot s) = s.mems := by
  unfold execStatus
  repeat' first
    | with_reducible rfl
    | simp only [outMems_ite, outMems_next, outMems_fault, outMems_refused, outMems_void, State.mems_ite, State.mems_upd, ite_self, State.finish_mems]
    | (refine withSlot_mems _ _ _ _ ?_)
    | with_reducible refine (State.mems_foldl ?_ _ _).trans ?_
    | intro _
    | dsimp only
    | split

theorem execClaim_mems (slot : Nat) (nonce : Nat) (rsaOk : Bool) (slhOk : Bool) (s : State) : outMems s.mems (execClaim slot nonce rsaOk slhOk s) = s.mems := by
  unfold execClaim
  repeat' first
    | with_reducible rfl
    | simp only [outMems_ite, outMems_next, outMems_fault, outMems_refused, outMems_void, State.mems_ite, State.mems_upd, ite_self, State.measure_mems, State.finish_mems, State.badSignature_mems]
    | (refine withSlot_mems _ _ _ _ ?_)
    | with_reducible refine (State.mems_foldl ?_ _ _).trans ?_
    | intro _
    | dsimp only
    | split

theorem State.dropOwner_mems (s : State) : (State.dropOwner s).mems = s.mems := by
  unfold State.dropOwner
  repeat' first
    | with_reducible rfl
    | simp only [State.mems_ite, State.mems_upd, ite_self, State.eraseLink_mems, State.dropSeed_mems, State.put_mems]
    | with_reducible refine (State.mems_foldl ?_ _ _).trans ?_
    | intro _
    | dsimp only
    | split

theorem execRelease_mems (slot : Nat) (object : ReleaseObj) (s : State) : outMems s.mems (execRelease slot object s) = s.mems := by
  unfold execRelease
  repeat' first
    | with_reducible rfl
    | simp only [outMems_ite, outMems_next, outMems_fault, outMems_refused, outMems_void, State.mems_ite, State.mems_upd, ite_self, State.finish_mems, State.startRunning_mems, State.dropOwner_mems, State.startScrub_mems, State.badSignature_mems]
    | (refine withSlot_mems _ _ _ _ ?_)
    | with_reducible refine (State.mems_foldl ?_ _ _).trans ?_
    | intro _
    | dsimp only
    | split

theorem execArm_mems (slot : Nat) (s : State) : outMems s.mems (execArm slot s) = s.mems := by
  unfold execArm
  repeat' first
    | with_reducible rfl
    | simp only [outMems_ite, outMems_next, outMems_fault, outMems_refused, outMems_void, State.mems_ite, State.mems_upd, ite_self, State.finish_mems, State.startRunning_mems, State.put_mems, State.originate_mems, State.helloFeeders_mems]
    | (refine withSlot_mems _ _ _ _ ?_)
    | with_reducible refine (State.mems_foldl ?_ _ _).trans ?_
    | intro _
    | dsimp only
    | split

theorem execDisarm_mems (slot : Nat) (s : State) : outMems s.mems (execDisarm slot s) = s.mems := by
  unfold execDisarm
  repeat' first
    | with_reducible rfl
    | simp only [outMems_ite, outMems_next, outMems_fault, outMems_refused, outMems_void, State.mems_ite, State.mems_upd, ite_self, State.finish_mems]
    | (refine withSlot_mems _ _ _ _ ?_)
    | with_reducible refine (State.mems_foldl ?_ _ _).trans ?_
    | intro _
    | dsimp only
    | split

theorem execHalt_mems (slot : Nat) (s : State) : outMems s.mems (execHalt slot s) = s.mems := by
  unfold execHalt
  repeat' first
    | with_reducible rfl
    | simp only [outMems_ite, outMems_next, outMems_fault, outMems_refused, outMems_void, State.mems_ite, State.mems_upd, ite_self, State.placeHalt_mems]
    | (refine withSlot_mems _ _ _ _ ?_)
    | with_reducible refine (State.mems_foldl ?_ _ _).trans ?_
    | intro _
    | dsimp only
    | split

theorem execServeOpen_mems (slot : Nat) (s : State) : outMems s.mems (execServeOpen slot s) = s.mems := by
  unfold execServeOpen
  repeat' first
    | with_reducible rfl
    | simp only [outMems_ite, outMems_next, outMems_fault, outMems_refused, outMems_void, State.mems_ite, State.mems_upd, ite_self, State.startRunning_mems]
    | (refine withSlot_mems _ _ _ _ ?_)
    | with_reducible refine (State.mems_foldl ?_ _ _).trans ?_
    | intro _
    | dsimp only
    | split

theorem execServeClose_mems (slot : Nat) (s : State) : outMems s.mems (execServeClose slot s) = s.mems := by
  unfold execServeClose
  repeat' first
    | with_reducible rfl
    | simp only [outMems_ite, outMems_next, outMems_fault, outMems_refused, outMems_void, State.mems_ite, State.mems_upd, ite_self, State.startRunning_mems]
    | (refine withSlot_mems _ _ _ _ ?_)
    | with_reducible refine (State.mems_foldl ?_ _ _).trans ?_
    | intro _
    | dsimp only
    | split

theorem execFaultRead_mems (slot : Nat) (s : State) : outMems s.mems (execFaultRead slot s) = s.mems := by
  unfold execFaultRead
  repeat' first
    | with_reducible rfl
    | simp only [outMems_ite, outMems_next, outMems_fault, outMems_refused, outMems_void, State.mems_ite, State.mems_upd, ite_self, State.finish_mems]
    | (refine withSlot_mems _ _ _ _ ?_)
    | with_reducible refine (State.mems_foldl ?_ _ _).trans ?_
    | intro _
    | dsimp only
    | split

theorem execJournalRead_mems (slot : Nat) (s : State) : outMems s.mems (execJournalRead slot s) = s.mems := by
  unfold execJournalRead
  repeat' first
    | with_reducible rfl
    | simp only [outMems_ite, outMems_next, outMems_fault, outMems_refused, outMems_void, State.mems_ite, State.mems_upd, ite_self, State.finish_mems]
    | (refine withSlot_mems _ _ _ _ ?_)
    | with_reducible refine (State.mems_foldl ?_ _ _).trans ?_
    | intro _
    | dsimp only
    | split

theorem execIngotList_mems (slot : Nat) (s : State) : outMems s.mems (execIngotList slot s) = s.mems := by
  unfold execIngotList
  repeat' first
    | with_reducible rfl
    | simp only [outMems_ite, outMems_next, outMems_fault, outMems_refused, outMems_void, State.mems_ite, State.mems_upd, ite_self, State.draw_mems, State.finish_mems]
    | (refine withSlot_mems _ _ _ _ ?_)
    | with_reducible refine (State.mems_foldl ?_ _ _).trans ?_
    | intro _
    | dsimp only
    | split

theorem execJobEscrowRead_mems (slot : Nat) (s : State) : outMems s.mems (execJobEscrowRead slot s) = s.mems := by
  unfold execJobEscrowRead
  repeat' first
    | with_reducible rfl
    | simp only [outMems_ite, outMems_next, outMems_fault, outMems_refused, outMems_void, State.mems_ite, State.mems_upd, ite_self, State.finish_mems]
    | (refine withSlot_mems _ _ _ _ ?_)
    | with_reducible refine (State.mems_foldl ?_ _ _).trans ?_
    | intro _
    | dsimp only
    | split

theorem execFwWrite_mems (slot : Nat) (verified : Bool) (s : State) : outMems s.mems (execFwWrite slot verified s) = s.mems := by
  unfold execFwWrite
  repeat' first
    | with_reducible rfl
    | simp only [outMems_ite, outMems_next, outMems_fault, outMems_refused, outMems_void, State.mems_ite, State.mems_upd, ite_self, State.put_mems, State.finish_mems]
    | (refine withSlot_mems _ _ _ _ ?_)
    | with_reducible refine (State.mems_foldl ?_ _ _).trans ?_
    | intro _
    | dsimp only
    | split

theorem execFwCommit_mems (slot : Nat) (s : State) : outMems s.mems (execFwCommit slot s) = s.mems := by
  unfold execFwCommit
  repeat' first
    | with_reducible rfl
    | simp only [outMems_ite, outMems_next, outMems_fault, outMems_refused, outMems_void, State.mems_ite, State.mems_upd, ite_self, State.count_mems, State.finish_mems, State.put_mems]
    | (refine withSlot_mems _ _ _ _ ?_)
    | with_reducible refine (State.mems_foldl ?_ _ _).trans ?_
    | intro _
    | dsimp only
    | split

theorem execExceptionLoad_mems (slot : Nat) (verified : Bool) (s : State) : outMems s.mems (execExceptionLoad slot verified s) = s.mems := by
  unfold execExceptionLoad
  repeat' first
    | with_reducible rfl
    | simp only [outMems_ite, outMems_next, outMems_fault, outMems_refused, outMems_void, State.mems_ite, State.mems_upd, ite_self, State.finish_mems, State.badSignature_mems]
    | (refine withSlot_mems _ _ _ _ ?_)
    | with_reducible refine (State.mems_foldl ?_ _ _).trans ?_
    | intro _
    | dsimp only
    | split

theorem execRevoke_mems (slot : Nat) (verified : Bool) (s : State) : outMems s.mems (execRevoke slot verified s) = s.mems := by
  unfold execRevoke
  repeat' first
    | with_reducible rfl
    | simp only [outMems_ite, outMems_next, outMems_fault, outMems_refused, outMems_void, State.mems_ite, State.mems_upd, ite_self, State.badSignature_mems, State.finish_mems, State.put_mems]
    | (refine withSlot_mems _ _ _ _ ?_)
    | with_reducible refine (State.mems_foldl ?_ _ _).trans ?_
    | intro _
    | dsimp only
    | split

theorem execDebugUnlock_mems (slot : Nat) (verified : Bool) (s : State) : outMems s.mems (execDebugUnlock slot verified s) = s.mems := by
  unfold execDebugUnlock
  repeat' first
    | with_reducible rfl
    | simp only [outMems_ite, outMems_next, outMems_fault, outMems_refused, outMems_void, State.mems_ite, State.mems_upd, ite_self, State.measure_mems, State.put_mems, State.finish_mems, State.badSignature_mems]
    | (refine withSlot_mems _ _ _ _ ?_)
    | with_reducible refine (State.mems_foldl ?_ _ _).trans ?_
    | intro _
    | dsimp only
    | split

theorem execJobKeyImport_mems (slot : Nat) (verified : Bool) (s : State) (opened : Option Nat) : outMems s.mems (execJobKeyImport slot verified s opened) = s.mems := by
  unfold execJobKeyImport
  repeat' first
    | with_reducible rfl
    | simp only [outMems_ite, outMems_next, outMems_fault, outMems_refused, outMems_void, State.mems_ite, State.mems_upd, ite_self, State.badSignature_mems, State.holdSeed_mems, State.finish_mems]
    | (refine withSlot_mems _ _ _ _ ?_)
    | with_reducible refine (State.mems_foldl ?_ _ _).trans ?_
    | intro _
    | dsimp only
    | split


end Sys2Proof.Machine
end

