-- ==== Sys2Proof/Laws/MemAccess.lean ====
section
/-!
SUPPORT. Laws/MemAccess.lean: what Access.lean leaves of the memories and the queue. -/

set_option linter.unusedTactic false
set_option linter.unreachableTactic false
set_option linter.unusedSimpArgs false

namespace Sys2Proof.Machine

theorem State.after_mems (s : State) (o : Host.Outcome State Fault Refusal) (h : outMems s.mems o = s.mems) :
    (State.after s o).mems = s.mems := by
  unfold State.after
  split
  · exact h
  · rfl

theorem State.refuseAccess_mems (s : State) : (State.refuseAccess s).mems = s.mems := by
  unfold State.refuseAccess
  repeat' first
    | with_reducible rfl
    | simp only [State.mems_ite, State.mems_upd, ite_self, State.count_mems]
    | with_reducible refine (State.mems_foldl ?_ _ _).trans ?_
    | intro _
    | dsimp only
    | split

theorem State.takeSnapshot_mems (s : State) (k : Nat) (ecc : List EccRes) : (State.takeSnapshot s k ecc).mems = s.mems := by
  unfold State.takeSnapshot
  repeat' first
    | with_reducible rfl
    | simp only [State.mems_ite, State.mems_upd, ite_self, State.setBank_mems, State.hbmChecks_mems, State.stockChecks_mems]
    | with_reducible refine (State.mems_foldl ?_ _ _).trans ?_
    | intro _
    | dsimp only
    | split

theorem State.clearRc_mems (s : State) (f : Fld) : (State.clearRc s f).mems = s.mems := by
  unfold State.clearRc
  repeat' first
    | with_reducible rfl
    | simp only [State.mems_ite, State.mems_upd, ite_self, State.put_mems]
    | with_reducible refine (State.mems_foldl ?_ _ _).trans ?_
    | intro _
    | dsimp only
    | split

theorem State.latchHi_mems (s : State) (k : Nat) (lv : Level) (a : Nat) (ok : Bool) : (State.latchHi s k lv a ok).mems = s.mems := by
  unfold State.latchHi
  repeat' first
    | with_reducible rfl
    | simp only [State.mems_ite, State.mems_upd, ite_self, State.setBank_mems, State.put_mems]
    | with_reducible refine (State.mems_foldl ?_ _ _).trans ?_
    | intro _
    | dsimp only
    | split

theorem State.readWord_mems (s : State) (k : Nat) (lv : Level) (a : Nat) (ecc : List EccRes) : (s.readWord k lv a ecc).1.mems = s.mems := by
  unfold State.readWord
  split
  · rfl
  · split
    · exact State.refuseAccess_mems _
    · split
      · rw [State.refuseAccess_mems, State.latchHi_mems]
      · dsimp only
        rw [State.latchHi_mems, State.mems_foldl (fun t x => State.clearRc_mems t x)]
        split
        · exact State.takeSnapshot_mems _ _ _
        · rfl

theorem State.writePortEn_mems (s : State) (p : Nat) (v : Nat) : (State.writePortEn s p v).mems = s.mems := by
  unfold State.writePortEn
  repeat' first
    | with_reducible rfl
    | simp only [State.mems_ite, State.mems_upd, ite_self, State.put_mems, State.trainStart_mems, State.goDown_mems]
    | with_reducible refine (State.mems_foldl ?_ _ _).trans ?_
    | intro _
    | dsimp only
    | split

theorem State.writePortMode_mems (s : State) (p : Nat) (v : Nat) : (State.writePortMode s p v).mems = s.mems := by
  unfold State.writePortMode
  repeat' first
    | with_reducible rfl
    | simp only [State.mems_ite, State.mems_upd, ite_self, State.put_mems, State.trainStart_mems]
    | with_reducible refine (State.mems_foldl ?_ _ _).trans ?_
    | intro _
    | dsimp only
    | split

theorem State.operatorActs_mems (s : State) : (State.operatorActs s).mems = s.mems := by
  unfold State.operatorActs
  repeat' first
    | with_reducible rfl
    | simp only [State.mems_ite, State.mems_upd, ite_self]
    | with_reducible refine (State.mems_foldl ?_ _ _).trans ?_
    | intro _
    | dsimp only
    | split

theorem State.writeHeld_mems (s : State) (k : Nat) (a : Nat) : (State.writeHeld s k a).mems = s.mems := by
  unfold State.writeHeld
  repeat' first
    | with_reducible rfl
    | simp only [State.mems_ite, State.mems_upd, ite_self, State.setBank_mems, State.put_mems]
    | with_reducible refine (State.mems_foldl ?_ _ _).trans ?_
    | intro _
    | dsimp only
    | split

theorem State.readWords_mems (s : State) (k : Nat) (lv : Level) (ecc : List EccRes) (a n : Nat) : (s.readWords k lv ecc a n).1.mems = s.mems := by
  induction n generalizing s a with
  | zero => rfl
  | succ n ih =>
    unfold State.readWords
    dsimp only
    rw [ih, State.readWord_mems]

theorem onPath_mems (s : State) (path : Nat) (write : Bool) (f : Level → State) (hf : ∀ lv, (f lv).mems = s.mems) :
    outMems s.mems (onPath s path write f) = s.mems := by
  unfold onPath
  split
  · exact hf _
  · rfl

theorem execCrsRead_mems (slot : Nat) (ecc : List EccRes) (s : State) : outMems s.mems (execCrsRead slot ecc s) = s.mems := by
  unfold execCrsRead
  refine withSlot_mems _ _ _ _ ?_
  intro x
  dsimp only
  split
  · rw [outMems_next, State.finish_mems]
  · rw [outMems_next, State.finish_mems, State.readWords_mems]

theorem execMemwinSnapshot_mems (path : Nat) (ecc : List EccRes) (s : State) : outMems s.mems (execMemwinSnapshot path ecc s) = s.mems := by
  unfold execMemwinSnapshot
  repeat' first
    | with_reducible rfl
    | simp only [outMems_ite, outMems_next, outMems_fault, outMems_refused, outMems_void, State.mems_ite, State.mems_upd, ite_self, State.readWord_mems]
    | (refine onPath_mems _ _ _ _ ?_)
    | with_reducible refine (State.mems_foldl ?_ _ _).trans ?_
    | intro _
    | dsimp only
    | split

theorem execLoReadLatch_mems (path : Nat) (address : Nat) (s : State) : outMems s.mems (execLoReadLatch path address s) = s.mems := by
  unfold execLoReadLatch
  repeat' first
    | with_reducible rfl
    | simp only [outMems_ite, outMems_next, outMems_fault, outMems_refused, outMems_void, State.mems_ite, State.mems_upd, ite_self, State.readWord_mems]
    | (refine onPath_mems _ _ _ _ ?_)
    | with_reducible refine (State.mems_foldl ?_ _ _).trans ?_
    | intro _
    | dsimp only
    | split

theorem execRcRead_mems (path : Nat) (address : Nat) (s : State) : outMems s.mems (execRcRead path address s) = s.mems := by
  unfold execRcRead
  repeat' first
    | with_reducible rfl
    | simp only [outMems_ite, outMems_next, outMems_fault, outMems_refused, outMems_void, State.mems_ite, State.mems_upd, ite_self, State.readWord_mems]
    | (refine onPath_mems _ _ _ _ ?_)
    | with_reducible refine (State.mems_foldl ?_ _ _).trans ?_
    | intro _
    | dsimp only
    | split

theorem State.selectTap_mems (s : State) (i : TapInstr) : (State.selectTap s i).mems = s.mems := by
  unfold State.selectTap
  repeat' first
    | with_reducible rfl
    | simp only [State.mems_ite, State.mems_upd, ite_self]
    | with_reducible refine (State.mems_foldl ?_ _ _).trans ?_
    | intro _
    | dsimp only
    | split

theorem State.tapBypass_mems (s : State) : (State.tapBypass s).mems = s.mems := by
  unfold State.tapBypass
  repeat' first
    | with_reducible rfl
    | simp only [State.mems_ite, State.mems_upd, ite_self, State.selectTap_mems, State.emit_mems]
    | with_reducible refine (State.mems_foldl ?_ _ _).trans ?_
    | intro _
    | dsimp only
    | split

theorem State.noteAccess_mems (s : State) (write : Bool) (a : Nat) (v : Nat) : (State.noteAccess s write a v).mems = s.mems := by
  unfold State.noteAccess
  repeat' first
    | with_reducible rfl
    | simp only [State.mems_ite, State.mems_upd, ite_self]
    | with_reducible refine (State.mems_foldl ?_ _ _).trans ?_
    | intro _
    | dsimp only
    | split

theorem execBypass_mems (s : State) : outMems s.mems (execBypass s) = s.mems := by
  unfold execBypass
  repeat' first
    | with_reducible rfl
    | simp only [outMems_ite, outMems_next, outMems_fault, outMems_refused, outMems_void, State.mems_ite, State.mems_upd, ite_self, State.tapBypass_mems]
    | with_reducible refine (State.mems_foldl ?_ _ _).trans ?_
    | intro _
    | dsimp only
    | split

theorem execIdcode_mems (s : State) : outMems s.mems (execIdcode s) = s.mems := by
  unfold execIdcode
  repeat' first
    | with_reducible rfl
    | simp only [outMems_ite, outMems_next, outMems_fault, outMems_refused, outMems_void, State.mems_ite, State.mems_upd, ite_self, State.selectTap_mems, State.emit_mems]
    | with_reducible refine (State.mems_foldl ?_ _ _).trans ?_
    | intro _
    | dsimp only
    | split

theorem execSamplePreload_mems (pins : Nat) (preload : Nat) (s : State) : outMems s.mems (execSamplePreload pins preload s) = s.mems := by
  unfold execSamplePreload
  repeat' first
    | with_reducible rfl
    | simp only [outMems_ite, outMems_next, outMems_fault, outMems_refused, outMems_void, State.mems_ite, State.mems_upd, ite_self, State.selectTap_mems, State.emit_mems]
    | with_reducible refine (State.mems_foldl ?_ _ _).trans ?_
    | intro _
    | dsimp only
    | split

theorem execExtest_mems (s : State) : outMems s.mems (execExtest s) = s.mems := by
  unfold execExtest
  repeat' first
    | with_reducible rfl
    | simp only [outMems_ite, outMems_next, outMems_fault, outMems_refused, outMems_void, State.mems_ite, State.mems_upd, ite_self, State.tapBypass_mems, State.selectTap_mems, State.emit_mems]
    | with_reducible refine (State.mems_foldl ?_ _ _).trans ?_
    | intro _
    | dsimp only
    | split

theorem execClamp_mems (s : State) : outMems s.mems (execClamp s) = s.mems := by
  unfold execClamp
  repeat' first
    | with_reducible rfl
    | simp only [outMems_ite, outMems_next, outMems_fault, outMems_refused, outMems_void, State.mems_ite, State.mems_upd, ite_self, State.tapBypass_mems, State.selectTap_mems, State.emit_mems]
    | with_reducible refine (State.mems_foldl ?_ _ _).trans ?_
    | intro _
    | dsimp only
    | split

theorem execTapReset_mems (s : State) : outMems s.mems (execTapReset s) = s.mems := by
  unfold execTapReset
  repeat' first
    | with_reducible rfl
    | simp only [outMems_ite, outMems_next, outMems_fault, outMems_refused, outMems_void, State.mems_ite, State.mems_upd, ite_self, State.selectTap_mems]
    | with_reducible refine (State.mems_foldl ?_ _ _).trans ?_
    | intro _
    | dsimp only
    | split


end Sys2Proof.Machine
end

