-- ==== Sys2Proof/Laws/MemMailbox.lean ====
section
/-!
SUPPORT. Laws/MemMailbox.lean: what Mailbox.lean leaves of the memories and the queue. -/

set_option linter.unusedTactic false
set_option linter.unreachableTactic false
set_option linter.unusedSimpArgs false

namespace Sys2Proof.Machine

theorem State.setSession_mems (s : State) (x : Session) : (State.setSession s x).mems = s.mems := by
  unfold State.setSession
  repeat' first
    | with_reducible rfl
    | simp only [State.mems_ite, State.mems_upd, ite_self]
    | with_reducible refine (State.mems_foldl ?_ _ _).trans ?_
    | intro _
    | dsimp only
    | split

theorem State.sendSealed_mems (s : State) (x : Session) (h : HjHead) (payload : List Byte) : (State.sendSealed s x h payload).mems = s.mems := by
  unfold State.sendSealed
  repeat' first
    | with_reducible rfl
    | simp only [State.mems_ite, State.mems_upd, ite_self, State.setSession_mems, State.emit_mems]
    | with_reducible refine (State.mems_foldl ?_ _ _).trans ?_
    | intro _
    | dsimp only
    | split

theorem State.reply_mems (s : State) (x : Session) (tag : Nat) (opcode : Nat) (slot : Nat) (status : Nat) (jseq : Nat) : (State.reply s x tag opcode slot status jseq).mems = s.mems := by
  unfold State.reply
  repeat' first
    | with_reducible rfl
    | simp only [State.mems_ite, State.mems_upd, ite_self, State.sendSealed_mems]
    | with_reducible refine (State.mems_foldl ?_ _ _).trans ?_
    | intro _
    | dsimp only
    | split

theorem State.refuseCommand_mems (s : State) (x : Session) (tag : Nat) (opcode : Nat) (status : Nat) (jseq : Nat) : (State.refuseCommand s x tag opcode status jseq).mems = s.mems := by
  unfold State.refuseCommand
  repeat' first
    | with_reducible rfl
    | simp only [State.mems_ite, State.mems_upd, ite_self, State.count_mems, State.reply_mems]
    | with_reducible refine (State.mems_foldl ?_ _ _).trans ?_
    | intro _
    | dsimp only
    | split

theorem State.closeSession_mems (s : State) (x : Session) : (State.closeSession s x).mems = s.mems := by
  unfold State.closeSession
  repeat' first
    | with_reducible rfl
    | simp only [State.mems_ite, State.mems_upd, ite_self]
    | with_reducible refine (State.mems_foldl ?_ _ _).trans ?_
    | intro _
    | dsimp only
    | split

theorem State.dropSession_mems (s : State) (x : Session) : (State.dropSession s x).mems = s.mems := by
  unfold State.dropSession
  repeat' first
    | with_reducible rfl
    | simp only [State.mems_ite, State.mems_upd, ite_self, State.sendSealed_mems, State.closeSession_mems]
    | with_reducible refine (State.mems_foldl ?_ _ _).trans ?_
    | intro _
    | dsimp only
    | split

theorem State.discardFrame_mems (s : State) : (State.discardFrame s).mems = s.mems := by
  unfold State.discardFrame
  repeat' first
    | with_reducible rfl
    | simp only [State.mems_ite, State.mems_upd, ite_self, State.count_mems]
    | with_reducible refine (State.mems_foldl ?_ _ _).trans ?_
    | intro _
    | dsimp only
    | split

theorem takeFrame_mems (s : State) (f : HjFrame) (k : State → Session → Host.Outcome State Fault Refusal)
    (hk : ∀ t y, t.mems = s.mems → outMems s.mems (k t y) = s.mems) : outMems s.mems (takeFrame s f k) = s.mems := by
  have hi : ∀ (b : Bool) (x y : Session), outMems s.mems (if b then k (s.setSession x) y else .next s.discardFrame) = s.mems := by
    intro b x y
    split
    · exact hk _ _ (State.setSession_mems _ _)
    · rw [outMems_next, State.discardFrame_mems]
  unfold takeFrame
  split
  · rfl
  · split
    · rw [outMems_next, State.discardFrame_mems]
    · exact hi _ _ _

theorem execHello_mems (frame : HjFrame) (bytes : Nat) (s : State) : outMems s.mems (execHello frame bytes s) = s.mems := by
  unfold execHello
  repeat' first
    | with_reducible rfl
    | simp only [outMems_ite, outMems_next, outMems_fault, outMems_refused, outMems_void, State.mems_ite, State.mems_upd, ite_self, State.discardFrame_mems, State.quench_mems, State.count_mems, State.draw_mems, State.emit_mems]
    | with_reducible refine (State.mems_foldl ?_ _ _).trans ?_
    | intro _
    | dsimp only
    | split

theorem execKem_mems (frame : HjFrame) (s : State) : outMems s.mems (execKem frame s) = s.mems := by
  unfold execKem
  repeat' first
    | with_reducible rfl
    | simp only [outMems_ite, outMems_next, outMems_fault, outMems_refused, outMems_void, State.mems_ite, State.mems_upd, ite_self, State.setSession_mems, State.discardFrame_mems]
    | with_reducible refine (State.mems_foldl ?_ _ _).trans ?_
    | intro _
    | dsimp only
    | split

theorem execAuth_mems (frame : HjFrame) (cred : Cred) (s : State) : outMems s.mems (execAuth frame cred s) = s.mems := by
  unfold execAuth
  repeat' first
    | with_reducible rfl
    | simp only [outMems_ite, outMems_next, outMems_fault, outMems_refused, outMems_void, State.mems_ite, State.mems_upd, ite_self, State.setSession_mems, State.count_mems, State.dropSession_mems, *]
    | (refine takeFrame_mems _ _ _ ?_)
    | with_reducible refine (State.mems_foldl ?_ _ _).trans ?_
    | intro _
    | dsimp only
    | split

theorem State.answerDuplicate_mems (s : State) (x : Session) (tag : Nat) (opcode : Nat) (q : Slot ⊕ JEntry) : (State.answerDuplicate s x tag opcode q).mems = s.mems := by
  induction q generalizing s x tag opcode <;> unfold State.answerDuplicate
  repeat' first
    | with_reducible rfl
    | simp only [State.mems_ite, State.mems_upd, ite_self, State.count_mems, State.reply_mems, State.refuseCommand_mems]
    | with_reducible refine (State.mems_foldl ?_ _ _).trans ?_
    | simp only [*]
    | intro _
    | dsimp only
    | split

theorem State.landCommand_mems (s : State) (x : Session) (opcode : Nat) (tag : Nat) (arg : List Byte) : (State.landCommand s x opcode tag arg).mems = s.mems := by
  unfold State.landCommand
  repeat' first
    | with_reducible rfl
    | simp only [State.mems_ite, State.mems_upd, ite_self, State.answerDuplicate_mems, State.refuseCommand_mems, State.count_mems, State.reply_mems]
    | with_reducible refine (State.mems_foldl ?_ _ _).trans ?_
    | intro _
    | dsimp only
    | split

theorem State.headerSeen_mems (s : State) (x : Session) (opcode : Nat) (l : List Byte) : (State.headerSeen s x opcode l).mems = s.mems := by
  unfold State.headerSeen
  repeat' first
    | with_reducible rfl
    | simp only [State.mems_ite, State.mems_upd, ite_self, State.leaveJob_mems]
    | with_reducible refine (State.mems_foldl ?_ _ _).trans ?_
    | intro _
    | dsimp only
    | split

theorem execRead_mems (frame : HjFrame) (s : State) : outMems s.mems (execRead frame s) = s.mems := by
  unfold execRead
  repeat' first
    | with_reducible rfl
    | simp only [outMems_ite, outMems_next, outMems_fault, outMems_refused, outMems_void, State.mems_ite, State.mems_upd, ite_self, State.sendSealed_mems, State.setSlot_mems, *]
    | (refine takeFrame_mems _ _ _ ?_)
    | with_reducible refine (State.mems_foldl ?_ _ _).trans ?_
    | intro _
    | dsimp only
    | split

theorem execAck_mems (frame : HjFrame) (s : State) : outMems s.mems (execAck frame s) = s.mems := by
  unfold execAck
  repeat' first
    | with_reducible rfl
    | simp only [outMems_ite, outMems_next, outMems_fault, outMems_refused, outMems_void, State.mems_ite, State.mems_upd, ite_self, State.reply_mems, State.freeSlot_mems, *]
    | (refine takeFrame_mems _ _ _ ?_)
    | with_reducible refine (State.mems_foldl ?_ _ _).trans ?_
    | intro _
    | dsimp only
    | split

theorem execList_mems (frame : HjFrame) (s : State) : outMems s.mems (execList frame s) = s.mems := by
  unfold execList
  repeat' first
    | with_reducible rfl
    | simp only [outMems_ite, outMems_next, outMems_fault, outMems_refused, outMems_void, State.mems_ite, State.mems_upd, ite_self, State.sendSealed_mems, *]
    | (refine takeFrame_mems _ _ _ ?_)
    | with_reducible refine (State.mems_foldl ?_ _ _).trans ?_
    | intro _
    | dsimp only
    | split

theorem execClose_mems (frame : HjFrame) (s : State) : outMems s.mems (execClose frame s) = s.mems := by
  unfold execClose
  repeat' first
    | with_reducible rfl
    | simp only [outMems_ite, outMems_next, outMems_fault, outMems_refused, outMems_void, State.mems_ite, State.mems_upd, ite_self, State.closeSession_mems, *]
    | (refine takeFrame_mems _ _ _ ?_)
    | with_reducible refine (State.mems_foldl ?_ _ _).trans ?_
    | intro _
    | dsimp only
    | split

theorem execPing_mems (frame : HjFrame) (s : State) : outMems s.mems (execPing frame s) = s.mems := by
  unfold execPing
  repeat' first
    | with_reducible rfl
    | simp only [outMems_ite, outMems_next, outMems_fault, outMems_refused, outMems_void, State.mems_ite, State.mems_upd, ite_self, State.reply_mems, *]
    | (refine takeFrame_mems _ _ _ ?_)
    | with_reducible refine (State.mems_foldl ?_ _ _).trans ?_
    | intro _
    | dsimp only
    | split

theorem execSessionIdleTimeout_mems (session : Nat) (s : State) : outMems s.mems (execSessionIdleTimeout session s) = s.mems := by
  unfold execSessionIdleTimeout
  repeat' first
    | with_reducible rfl
    | simp only [outMems_ite, outMems_next, outMems_fault, outMems_refused, outMems_void, State.mems_ite, State.mems_upd, ite_self, State.count_mems, State.dropSession_mems]
    | with_reducible refine (State.mems_foldl ?_ _ _).trans ?_
    | intro _
    | dsimp only
    | split

theorem execServiceIcmpv6_mems (kind : Nat) (s : State) : outMems s.mems (execServiceIcmpv6 kind s) = s.mems := by
  unfold execServiceIcmpv6
  repeat' first
    | with_reducible rfl
    | simp only [outMems_ite, outMems_next, outMems_fault, outMems_refused, outMems_void, State.mems_ite, State.mems_upd, ite_self, State.emit_mems]
    | with_reducible refine (State.mems_foldl ?_ _ _).trans ?_
    | intro _
    | dsimp only
    | split


end Sys2Proof.Machine
end

