-- ==== Sys2Proof/Laws/MemService.lean ====
section
/-!
SUPPORT. Laws/MemService.lean: what Service.lean leaves of the memories and the queue. -/

set_option linter.unusedTactic false
set_option linter.unreachableTactic false
set_option linter.unusedSimpArgs false

namespace Sys2Proof.Machine

theorem State.noteTemps_mems (s : State) (l : List Nat) : (State.noteTemps s l).mems = s.mems := by
  unfold State.noteTemps
  repeat' first
    | with_reducible rfl
    | simp only [State.mems_ite, State.mems_upd, ite_self, State.setTemp_mems]
    | with_reducible refine (State.mems_foldl ?_ _ _).trans ?_
    | intro _
    | dsimp only
    | split

theorem State.smbusRead_mems (s : State) (code : Nat) (n : Nat) (f : Summary → List Byte) {m : Mems} (hm : s.mems = m) : outMems m (State.smbusRead s code n f) = m := by
  subst hm
  unfold State.smbusRead
  repeat' first
    | with_reducible rfl
    | simp only [outMems_ite, outMems_next, outMems_fault, outMems_refused, outMems_void, State.mems_ite, State.mems_upd, ite_self, State.emit_mems]
    | with_reducible refine (State.mems_foldl ?_ _ _).trans ?_
    | intro _
    | dsimp only
    | split

theorem execSummaryUpdate_mems (vin : Nat) (iin : Nat) (pin : Nat) (temps : List Nat) (s : State) : outMems s.mems (execSummaryUpdate vin iin pin temps s) = s.mems := by
  unfold execSummaryUpdate
  repeat' first
    | with_reducible rfl
    | simp only [outMems_ite, outMems_next, outMems_fault, outMems_refused, outMems_void, State.mems_ite, State.mems_upd, ite_self, State.noteTemps_mems]
    | with_reducible refine (State.mems_foldl ?_ _ _).trans ?_
    | intro _
    | dsimp only
    | split

theorem execState_mems (s : State) : outMems s.mems (execState s) = s.mems := by
  unfold execState
  repeat' first
    | with_reducible rfl
    | simp only [outMems_ite, outMems_next, outMems_fault, outMems_refused, outMems_void, State.mems_ite, State.mems_upd, ite_self, State.smbusRead_mems, State.quench_mems]
    | with_reducible refine (State.mems_foldl ?_ _ _).trans ?_
    | intro _
    | dsimp only
    | split

theorem execVin_mems (s : State) : outMems s.mems (execVin s) = s.mems := by
  unfold execVin
  repeat' first
    | with_reducible rfl
    | simp only [outMems_ite, outMems_next, outMems_fault, outMems_refused, outMems_void, State.mems_ite, State.mems_upd, ite_self, State.smbusRead_mems]
    | with_reducible refine (State.mems_foldl ?_ _ _).trans ?_
    | intro _
    | dsimp only
    | split

theorem execIin_mems (s : State) : outMems s.mems (execIin s) = s.mems := by
  unfold execIin
  repeat' first
    | with_reducible rfl
    | simp only [outMems_ite, outMems_next, outMems_fault, outMems_refused, outMems_void, State.mems_ite, State.mems_upd, ite_self, State.smbusRead_mems]
    | with_reducible refine (State.mems_foldl ?_ _ _).trans ?_
    | intro _
    | dsimp only
    | split

theorem execPin_mems (s : State) : outMems s.mems (execPin s) = s.mems := by
  unfold execPin
  repeat' first
    | with_reducible rfl
    | simp only [outMems_ite, outMems_next, outMems_fault, outMems_refused, outMems_void, State.mems_ite, State.mems_upd, ite_self, State.smbusRead_mems]
    | with_reducible refine (State.mems_foldl ?_ _ _).trans ?_
    | intro _
    | dsimp only
    | split

theorem execTemps_mems (s : State) : outMems s.mems (execTemps s) = s.mems := by
  unfold execTemps
  repeat' first
    | with_reducible rfl
    | simp only [outMems_ite, outMems_next, outMems_fault, outMems_refused, outMems_void, State.mems_ite, State.mems_upd, ite_self, State.smbusRead_mems]
    | with_reducible refine (State.mems_foldl ?_ _ _).trans ?_
    | intro _
    | dsimp only
    | split

theorem execFault_mems (s : State) : outMems s.mems (execFault s) = s.mems := by
  unfold execFault
  repeat' first
    | with_reducible rfl
    | simp only [outMems_ite, outMems_next, outMems_fault, outMems_refused, outMems_void, State.mems_ite, State.mems_upd, ite_self, State.smbusRead_mems]
    | with_reducible refine (State.mems_foldl ?_ _ _).trans ?_
    | intro _
    | dsimp only
    | split

theorem execCause_mems (s : State) : outMems s.mems (execCause s) = s.mems := by
  unfold execCause
  repeat' first
    | with_reducible rfl
    | simp only [outMems_ite, outMems_next, outMems_fault, outMems_refused, outMems_void, State.mems_ite, State.mems_upd, ite_self, State.smbusRead_mems]
    | with_reducible refine (State.mems_foldl ?_ _ _).trans ?_
    | intro _
    | dsimp only
    | split

theorem execIdent_mems (s : State) : outMems s.mems (execIdent s) = s.mems := by
  unfold execIdent
  repeat' first
    | with_reducible rfl
    | simp only [outMems_ite, outMems_next, outMems_fault, outMems_refused, outMems_void, State.mems_ite, State.mems_upd, ite_self, State.smbusRead_mems]
    | with_reducible refine (State.mems_foldl ?_ _ _).trans ?_
    | intro _
    | dsimp only
    | split

theorem execAngle_mems (s : State) : outMems s.mems (execAngle s) = s.mems := by
  unfold execAngle
  repeat' first
    | with_reducible rfl
    | simp only [outMems_ite, outMems_next, outMems_fault, outMems_refused, outMems_void, State.mems_ite, State.mems_upd, ite_self, State.smbusRead_mems]
    | with_reducible refine (State.mems_foldl ?_ _ _).trans ?_
    | intro _
    | dsimp only
    | split

theorem execTotals_mems (s : State) : outMems s.mems (execTotals s) = s.mems := by
  unfold execTotals
  repeat' first
    | with_reducible rfl
    | simp only [outMems_ite, outMems_next, outMems_fault, outMems_refused, outMems_void, State.mems_ite, State.mems_upd, ite_self, State.smbusRead_mems]
    | with_reducible refine (State.mems_foldl ?_ _ _).trans ?_
    | intro _
    | dsimp only
    | split

theorem execSmbusUndefinedCode_mems (code : Nat) (write : Bool) (s : State) : outMems s.mems (execSmbusUndefinedCode code write s) = s.mems := by
  unfold execSmbusUndefinedCode
  repeat' first
    | with_reducible rfl
    | simp only [outMems_ite, outMems_next, outMems_fault, outMems_refused, outMems_void, State.mems_ite, State.mems_upd, ite_self, State.emit_mems]
    | with_reducible refine (State.mems_foldl ?_ _ _).trans ?_
    | intro _
    | dsimp only
    | split

theorem execSmbusBusRelease_mems (s : State) : outMems s.mems (execSmbusBusRelease s) = s.mems := by
  unfold execSmbusBusRelease
  repeat' first
    | with_reducible rfl
    | simp only [outMems_ite, outMems_next, outMems_fault, outMems_refused, outMems_void, State.mems_ite, State.mems_upd, ite_self, State.emit_mems]
    | with_reducible refine (State.mems_foldl ?_ _ _).trans ?_
    | intro _
    | dsimp only
    | split

theorem State.patrolStock_mems (s : State) (ecc : List EccRes) (written : Bool) : (State.patrolStock s ecc written).mems = s.mems := by
  unfold State.patrolStock
  repeat' first
    | with_reducible rfl
    | simp only [State.mems_ite, State.mems_upd, ite_self, State.stockChecks_mems]
    | with_reducible refine (State.mems_foldl ?_ _ _).trans ?_
    | intro _
    | dsimp only
    | split

theorem execPatrolRead_mems (stack : Nat) (ecc : List EccRes) (s : State) (written : Bool) : outMems s.mems (execPatrolRead stack ecc s written) = s.mems := by
  unfold execPatrolRead
  repeat' first
    | with_reducible rfl
    | simp only [outMems_ite, outMems_next, outMems_fault, outMems_refused, outMems_void, State.mems_ite, State.mems_upd, ite_self, State.patrolStock_mems, State.hbmChecks_mems, State.countPoison_mems, State.put_mems]
    | with_reducible refine (State.mems_foldl ?_ _ _).trans ?_
    | intro _
    | dsimp only
    | split


end Sys2Proof.Machine
end

