-- ==== Sys2Proof/WellFormed.lean ====
section
/-!
DEFINITION. WellFormed.lean: what an operand of a command may be: the numbers of instances (R10, R16), the widths of fields
that a command carries, and the length of a core's command. A command that is not well formed is one that no sender can form. -/

namespace Sys2Proof

namespace WellFormed

/-- A fabric port, 0 to 11 (R10). -/
def inPort (p : Nat) : Bool := decide (p < 12)
/-- A core, 0 to 191 (R10). -/
def inCore (n : Nat) : Bool := decide (n < 192)
/-- A cartridge bay, 0 or 1. -/
def inBay (b : Nat) : Bool := decide (b < 2)
/-- A result slot, 0 to 63 (R436). -/
def inSlot (n : Nat) : Bool := decide (n < 64)
/-- A session, 0 to 7 (R431). -/
def inSession (n : Nat) : Bool := decide (n < 8)
/-- An HBM stack, 0 to 7. -/
def inStack (k : Nat) : Bool := decide (k < 8)
/-- A lane of a port, 0 to 7. -/
def inLane (l : Nat) : Bool := decide (l < 8)
/-- A virtual channel, 0 to 3 (R303). -/
def inChannel (v : Nat) : Bool := decide (v < 4)
/-- A legacy pair, 0 to 3 (R469). -/
def inPair (k : Nat) : Bool := decide (k < 4)
/-- A clock domain, 0 to 27 (Table 18-1). -/
def inDomain (d : Nat) : Bool := decide (d < 28)
/-- A temperature sensor, 0 to 13 (Table 17-2). -/
def inSensor (k : Nat) : Bool := decide (k < 14)
/-- A fault source, 0 to 4,095 (Table 17-1). -/
def inSource (x : Nat) : Bool := decide (x < 4096)
/-- A bank of R518: firmware, JTAG and the eight sessions. -/
def inPath (p : Nat) : Bool := decide (p < 10)
/-- A 32-bit word (R11). -/
def inWord (v : Nat) : Bool := decide (v < 2 ^ 32)
/-- A 16-bit field. -/
def inHalf (v : Nat) : Bool := decide (v < 2 ^ 16)
/-- An angle of 48 bits (R9). -/
def inAngle (a : Nat) : Bool := decide (a < 2 ^ 48)
/-- An issue descriptor: 20 words (R103). -/
def is20 (w : List Word) : Bool := w.length == 20
/-- Any other command of a core: no longer than that. -/
def upTo20 (w : List Word) : Bool := decide (w.length ≤ 20)
/-- A Cadence message: the widths of Table 2-1. -/
def inMsg (m : CadMsg) : Bool := decide (m.angle < 2 ^ 48) && decide (m.attempt < 2 ^ 16) && decide (m.type < 2 ^ 8)
/-- A Hjeliz frame: the widths of Table 16-1. -/
def inFrame (f : HjFrame) : Bool := decide (f.nonce < 2 ^ 64) && decide (f.tag < 2 ^ 32) && decide (f.slot < 2 ^ 16)

end WellFormed

open WellFormed in
/-- A command's operands lie in the ranges that the spec gives them. -/
def Instr.wellFormed : Instr → Bool
  | .hello frame _ => inFrame frame
  | .kem frame => inFrame frame
  | .auth frame _ => inFrame frame
  | .command frame => inFrame frame
  | .read frame => inFrame frame
  | .ack frame => inFrame frame
  | .list frame => inFrame frame
  | .close frame => inFrame frame
  | .ping frame => inFrame frame
  | .sessionIdleTimeout session => inSession session
  | .serviceIcmpv6 _ => true
  | .identify slot => inSlot slot
  | .attest slot => inSlot slot
  | .status slot => inSlot slot
  | .claim slot _ _ _ => inSlot slot
  | .release slot _ => inSlot slot
  | .loadBillet slot _ _ _ _ => inSlot slot
  | .arm slot => inSlot slot
  | .disarm slot => inSlot slot
  | .run slot => inSlot slot
  | .halt slot => inSlot slot
  | .restore slot => inSlot slot
  | .reset slot => inSlot slot
  | .serveOpen slot => inSlot slot
  | .serveClose slot => inSlot slot
  | .replayStep slot => inSlot slot
  | .faultRead slot => inSlot slot
  | .journalRead slot => inSlot slot
  | .ingotList slot => inSlot slot
  | .crsRead slot _ => inSlot slot
  | .crsWrite slot => inSlot slot
  | .jobEscrowRead slot => inSlot slot
  | .fwWrite slot _ => inSlot slot
  | .fwCommit slot => inSlot slot
  | .exceptionLoad slot _ => inSlot slot
  | .revoke slot _ => inSlot slot
  | .debugUnlock slot _ => inSlot slot
  | .jobKeyImport slot _ _ => inSlot slot
  | .beatIssue => true
  | .beat msg => inMsg msg
  | .keepSend => true
  | .keep msg => inMsg msg
  | .hold msg => inMsg msg
  | .holdRelease msg => inMsg msg
  | .abort msg => inMsg msg
  | .candidate msg => inMsg msg
  | .confirm msg => inMsg msg
  | .electionTimeout => true
  | .masterLost => true
  | .gateStall _ ang => inAngle ang
  | .gateReady _ => true
  | .rollbackComplete => true
  | .resumeRelease => true
  | .cadInEdge _ _ _ => true
  | .cadInLost => true
  | .matmul core words => inCore core && is20 words
  | .issueAcceptAfterWait core _ => inCore core
  | .issueComplete core => inCore core
  | .drainComplete core => inCore core
  | .undefinedOp core words => inCore core && upTo20 words
  | .ew core words => inCore core && upTo20 words
  | .fn core words => inCore core && upTo20 words
  | .act core words => inCore core && upTo20 words
  | .dact core words => inCore core && upTo20 words
  | .reduce core words => inCore core && upTo20 words
  | .perm core words => inCore core && upTo20 words
  | .trans core words => inCore core && upTo20 words
  | .shuf core words => inCore core && upTo20 words
  | .pack core words => inCore core && upTo20 words
  | .unpack core words => inCore core && upTo20 words
  | .ld core words => inCore core && upTo20 words
  | .st core words => inCore core && upTo20 words
  | .setshape core words => inCore core && upTo20 words
  | .dwconv core words => inCore core && upTo20 words
  | .dwconvComplete core => inCore core
  | .termwalk core words => inCore core && upTo20 words
  | .termwalkComplete core => inCore core
  | .attnForward core words _ => inCore core && upTo20 words
  | .attnBackward core words => inCore core && upTo20 words
  | .attnPrepass core words => inCore core && upTo20 words
  | .attnComplete core => inCore core
  | .kvopOpen core words => inCore core && upTo20 words
  | .kvopFork core words => inCore core && upTo20 words
  | .kvopClose core words => inCore core && upTo20 words
  | .kvAuditStart => true
  | .kvAuditDone => true
  | .xfer core words => inCore core && upTo20 words
  | .xferComplete core _ => inCore core
  | .bucketFilled _ _ => true
  | .send core words => inCore core && upTo20 words
  | .stash core words => inCore core && upTo20 words
  | .stashLanded core => inCore core
  | .fetchComplete _ _ _ => true
  | .chunkLanded _ _ _ attempt _ => inHalf attempt
  | .hoCredit _ => true
  | .haloRowLanded core _ => inCore core
  | .haloCreditReturn core _ => inCore core
  | .normResult _ => true
  | .updateRangeDone _ _ => true
  | .weightPushDone _ _ => true
  | .portTrainStart port => inPort port
  | .fabRetrain port => inPort port
  | .portUp port _ _ => inPort port
  | .portDownRetry port => inPort port
  | .laneFrame port _ _ _ => inPort port
  | .nak port _ => inPort port
  | .scheduledIdle port => inPort port
  | .laneDrop port lane _ _ _ => inPort port && inLane lane
  | .degrade port _ => inPort port
  | .laneReadmit port lane _ => inPort port && inLane lane
  | .credit port vc _ _ => inPort port && inChannel vc
  | .packetForward port _ => inPort port
  | .auditSend port => inPort port
  | .audit port _ _ _ => inPort port
  | .linkState port _ _ => inPort port
  | .discoveryComplete => true
  | .discoveryTimeout => true
  | .sealHello port _ => inPort port
  | .attestReq port _ => inPort port
  | .attestReport port _ _ _ => inPort port
  | .attestSeed port _ _ => inPort port
  | .attestDone port => inPort port
  | .attestRefuse port => inPort port
  | .remoteReset port _ _ _ _ => inPort port
  | .collective _ _ attempt _ _ => inHalf attempt
  | .adopt port => inPort port
  | .bucket _ attempt _ _ _ _ _ => inHalf attempt
  | .bucketComplete _ _ => true
  | .quenchNotice _ => true
  | .ethFrame port _ _ => inPort port
  | .bloomHello _ _ => true
  | .request _ => true
  | .data _ _ _ => true
  | .absent _ => true
  | .rerequest _ _ => true
  | .decodeComplete _ _ _ _ => true
  | .spareCopy _ _ _ => true
  | .zoneAppendComplete bay _ _ => inBay bay
  | .flushComplete bay _ _ _ => inBay bay
  | .generationFail bay => inBay bay
  | .cartridgeInsert bay => inBay bay
  | .perstRelease bay => inBay bay
  | .controllerReady bay _ => inBay bay
  | .cartridgeRemove bay => inBay bay
  | .bayOverload bay => inBay bay
  | .eject bay => inBay bay
  | .ejectComplete bay => inBay bay
  | .wipe bay => inBay bay
  | .ingotLoadComplete _ _ => true
  | .scrubStart => true
  | .scrubComplete _ => true
  | .entropyFail => true
  | .faultMessageAccept _ => true
  | .quenchStockSelfRefresh => true
  | .collectorParity _ => true
  | .faultPulseEnd => true
  | .srcCfgForce source _ _ => inSource source
  | .fltValidClear _ => true
  | .trapClear core _ => inCore core
  | .tmpTrapClear _ => true
  | .legacyFault pair _ => inPair pair
  | .legacyWire pair _ => inPair pair
  | .legacyWindowEnd _ => true
  | .powerInputRise _ => true
  | .powerInputBand _ => true
  | .powerInputHigh => true
  | .powerInputLow => true
  | .pwrOkLow => true
  | .powerOnRelease _ _ => true
  | .sysResetN => true
  | .coreResetN => true
  | .resetPinRelease _ => true
  | .domainRelease domain _ => inDomain domain
  | .clockLoss domain _ => inDomain domain
  | .clockGood domain => inDomain domain
  | .watchdogExpiry _ => true
  | .wdtKick => true
  | .thermalWarning sensor _ => inSensor sensor
  | .thermalTrip sensor _ => inSensor sensor
  | .thermalTripEnd _ => true
  | .patrolRead stack _ _ => decide (stack < 9)
  | .summaryUpdate _ _ _ _ => true
  | .state => true
  | .vin => true
  | .iin => true
  | .pin => true
  | .temps => true
  | .fault => true
  | .cause => true
  | .ident => true
  | .angle => true
  | .totals => true
  | .smbusUndefinedCode _ _ => true
  | .smbusBusRelease => true
  | .crsacc val address _ _ => inWord val && inWord address
  | .bypass => true
  | .idcode => true
  | .samplePreload _ _ => true
  | .extest => true
  | .clamp => true
  | .tapReset => true
  | .memwinSnapshot path _ => inPath path
  | .loReadLatch path address => inPath path && inWord address
  | .rcRead path address => inPath path && inWord address
  | .registerWrite path address val events => inPath path && inWord address && inWord val && inWord events
  | .restoreStepAnnounce _ => true

end Sys2Proof
end

