-- ==== Sys2Proof/Tests/Slice0.lean ====
section
/-!
SUPPORT. Tests/Slice0.lean: the model's own tests. The checks of WellFormed refuse an ill-formed term each; every statement
with hypotheses has a witness, a state and operands that meet them together. -/

namespace Sys2Proof.Tests
open Sys2Proof.Machine

/-- A device whose domains have all left reset and whose boot is over, in Blank. -/
def up : State :=
  { State.reset with sys := { Sys.init with rails := true, por := false, vin := 4800, held := [], good := allDomains
                                            wasUp := allDomains, bootDue := false, booted := true } }

/-- The same in another lifecycle state. -/
def upIn (l : Life) : State := { up with life := l }


/-! ## WellFormed refuses an ill-formed term of each check -/

/-- A frame and a message of which one field is made too wide below. -/
def frame0 : HjFrame :=
  { good := true, session := 0, nonce := 1, tagOk := true, tag := 1, opcode := 1, slot := 0, offset := 0, total := 0, len := 0
    payload := [] }
def msg0 : CadMsg := { type := 1, flags := 0, source := 0, angle := 5, attempt := 0, reason := 0, seq := 0 }

theorem smoke_frames : (Instr.ping frame0).wellFormed = true ∧ (Instr.ping { frame0 with nonce := 2 ^ 64 }).wellFormed = false ∧
    (Instr.read { frame0 with tag := 2 ^ 32 }).wellFormed = false ∧ (Instr.ack { frame0 with slot := 2 ^ 16 }).wellFormed = false := by
  decide
theorem smoke_messages : (Instr.beat msg0).wellFormed = true ∧ (Instr.beat { msg0 with angle := 2 ^ 48 }).wellFormed = false ∧
    (Instr.hold { msg0 with attempt := 2 ^ 16 }).wellFormed = false ∧ (Instr.keep { msg0 with type := 256 }).wellFormed = false ∧
    (Instr.gateStall 0 (2 ^ 48)).wellFormed = false ∧ (Instr.chunkLanded 0 0 0 65536 []).wellFormed = false := by decide
theorem smoke_instances : (Instr.fabRetrain 12).wellFormed = false ∧ (Instr.issueComplete 192).wellFormed = false ∧
    (Instr.eject 2).wellFormed = false ∧ (Instr.identify 64).wellFormed = false ∧ (Instr.sessionIdleTimeout 8).wellFormed = false ∧
    (Instr.patrolRead 9 [] false).wellFormed = false ∧ (Instr.laneDrop 0 8 false 0 0).wellFormed = false ∧
    (Instr.credit 0 4 0 1).wellFormed = false ∧ (Instr.legacyFault 4 true).wellFormed = false ∧
    (Instr.domainRelease 28 []).wellFormed = false ∧ (Instr.thermalWarning 14 90).wellFormed = false ∧
    (Instr.srcCfgForce 4096 false 0).wellFormed = false ∧ (Instr.rcRead 10 0x20028).wellFormed = false := by decide
theorem smoke_words : (Instr.registerWrite 0 (2 ^ 32) 0 0).wellFormed = false ∧ (Instr.registerWrite 0 0x20 (2 ^ 32) 0).wellFormed = false ∧
    (Instr.crsacc (2 ^ 32) 0x20 true []).wellFormed = false ∧ (Instr.loReadLatch 0 (2 ^ 32)).wellFormed = false ∧
    (Instr.matmul 0 (List.replicate 19 0)).wellFormed = false ∧ (Instr.ew 0 (List.replicate 21 0)).wellFormed = false ∧
    (Instr.matmul 191 (List.replicate 20 0)).wellFormed = true := by decide
/-! ## The mailbox -/

/-- A session with its keys. -/
def ses : Session :=
  { num := 0, sid := 1, hello := 7, kemEk := 9, keyed := true, keys := [], level := 2, who := 5, nonceIn := some 3, nonceOut := 4
    authed := false, commanded := false, upload := none }

/-- A valid frame of it. -/
def frm : HjFrame :=
  { good := true, session := 1, nonce := 4, tagOk := true, tag := 77, opcode := 0x0105, slot := 3, offset := 0, total := 0, len := 8
    payload := [] }

/-- A result slot. -/
def slt (n op : Nat) (ready : Bool) : Slot :=
  { num := n, session := 0, level := 2, who := 5, hello := 7, tag := 77, opcode := op, arg := [], ready := ready, code := 0
    result := [1#8, 2#8], reads := 0, jseq := none, closed := false }

/-- A device with that session, in Claimed under owner 42. -/
def withSes : State :=
  { upIn .claimed with mbx := { Mbx.init with sessions := [ses], nextSid := 2 }, cru := { Cru.init with owner := some 42 } }

/-- The same with result slots. -/
def withSlots (l : List Slot) : State := { withSes with mbx := { withSes.mbx with slots := l } }

/-- The credential of owner 42. -/
def ownerCred : Cred := { level := 3, sigOk := true, owner := 42, grantOwner := 0, grantLevel := 0, serial := 0, who := 0 }

/-- An observer's, with the owner's grant. -/
def observerCred : Cred := { level := 1, sigOk := true, owner := 42, grantOwner := 42, grantLevel := 1, serial := 0, who := 6 }

theorem witness_HelloOpensSession : up.svcUp = true ∧ frm.good = true ∧ ({ frm with session := 0 } : HjFrame).session = 0 ∧ up.smithUp = true ∧
    up.sys.booted = true ∧ up.life ≠ .quench ∧ up.mbx.sessions = [] := by decide
theorem witness_HelloOpensSession_full : ∀ n < 8, ∃ x ∈ ({ withSes with mbx := { withSes.mbx with
    sessions := (List.range 8).map (fun n => { ses with num := n, sid := n }) } } : State).mbx.sessions, x.num = n := by decide
theorem witness_BadFramesChangeNothing : up.svcUp = true ∧ up.session? frm.session = none ∧ ValidFrame withSes frm ses ∧ frm.session ≠ 0 ∧
    withSes.session? frm.session = some ses ∧ ses.nonceIn = some 3 ∧ ({ frm with nonce := 3 } : HjFrame).nonce ≤ 3 := by decide
theorem witness_SessionFramesAct : ValidFrame withSes frm ses ∧ ses.authed = false ∧ ses.commanded = false ∧ withSes.life ≠ .blank ∧
    withSes.life ≠ .recovery ∧ ownerCred.sigOk = true ∧ withSes.cru.owner = some ownerCred.owner ∧ ownerCred.level = 3 := by
  decide
theorem witness_SessionFramesAct_grant : observerCred.level = 1 ∧ observerCred.grantOwner = observerCred.owner ∧
    observerCred.grantLevel = observerCred.level ∧ withSes.get Reg.mbxGrantMin ≤ observerCred.serial ∧
    withSes.cru.owner = some observerCred.owner := by decide
theorem witness_SessionFramesAct_closed : ¬ (({ ownerCred with sigOk := false } : Cred).sigOk = true) := by decide
theorem witness_SessionFramesAct_kem : ({ withSes with mbx := { withSes.mbx with sessions := [{ ses with keyed := false }] } }).session? 1
    = some { ses with keyed := false } := by decide
theorem witness_CommandTakesSlot : ValidFrame withSes frm ses ∧ ses.upload = none ∧ frm.total ≤ 8388608 ∧ frm.opcode ≠ 0x0103 ∧
    frm.offset = 0 ∧ frm.total = frm.payload.length ∧ cmdInfo frm.opcode = some ⟨0x0105, 2, false, false, true, 0x04⟩ ∧
    argsOk frm.opcode frm.payload = true ∧ withSes.duplicateOf ses frm.tag = none ∧ withSes.slot? 0 = none := by decide
theorem witness_CommandTakesSlot_duplicate :
    (withSlots [slt 3 1 true]).mbx.slots.find? (fun z => z.who == ses.who && z.tag == frm.tag) = some (slt 3 1 true) := by decide
theorem witness_CommandTakesSlot_part : ValidFrame withSes { frm with total := 2, payload := [1#8] } ses ∧ [1#8].length < 2 := by decide
theorem witness_CommandTakesSlot_refused : cmdInfo 0x0777 = none ∧ argsOk 0x0105 [1#8] = false ∧
    (0 : Nat) < cmdLevel ⟨0x0105, 2, false, false, true, 0x04⟩ withSes.life ∧
    ∀ n < 64, (withSlots ((List.range 64).map (fun n => { slt n 1 true with tag := n + 100 }))).slot? n ≠ none := by decide
theorem witness_SlotsAreReadAndFreed : (withSlots [slt 3 1 true]).slot? frm.slot = some (slt 3 1 true) ∧ (slt 3 1 true).who = ses.who ∧
    (slt 3 1 true).tag = frm.tag ∧ (withSlots [slt 3 1 false]).slot? frm.slot = some (slt 3 1 false) ∧ withSes.slot? frm.slot = none := by
  decide
theorem witness_ServiceAndEthernetAnswer : up.svcUp = true ∧ withSes.mbx.sessions.find? (fun y => y.num == 0) = some ses ∧
    withSes.session? ses.sid = some ses := by decide
/-- Port 8 in Ethernet mode and up. -/
def ethUp : State := (up.put (Reg.fabCtrlMode 8) 1).put (Reg.fabStatusState 8) 5
/-- A frame that passes the filters of R296. -/
def ethFrm : EthFrame :=
  { fcsOk := true, pause := false, toMac := true, toGroup := false, etherType := 0x86DD, extension := false, fragment := false
    nextHeader := 17, udpPort := ethUp.get Reg.blmEthPort, solicitsUs := false }
theorem witness_ServiceAndEthernetAnswer_ethernet : ethUp.get (Reg.fabCtrlMode 8) = 1 ∧ ethUp.get (Reg.fabStatusState 8) = 5 ∧
    ethFrm.fcsOk = true ∧ ethFrm.etherType = 0x86DD ∧ ethFrm.udpPort = ethUp.get Reg.blmEthPort := by decide

/-! ## Smith -/

/-- A job of one device at address 5, which stands for election. -/
def bil : Billet :=
  { jobId := 11, digest := 12, owner := 42, fwAllow := [], escrow := false, addr := 5
    cad := { period := 8000, lead := 8, holdLimit := 10, abortLimit := 3, candidate := true, external := false, fallback := false
             outEn := false
             strike := [{ stroke := 100, kind := 0xA, gate := true, target := 0, every := 0, phase := 0, arg := 0 },
                        { stroke := 0xFFFF, kind := 0xF, gate := true, target := 0, every := 0, phase := 0, arg := 0 }]
             commits := [100], candidates := [5] }
    kv := { present := false, small := false, wide := false, pages := 0, base := 0, metaBase := 0, owner := 0 }
    gangs := [], segDescs := [], channels := [], progs := [], actInput := [], sites := [], nanAction := false, infTrap := false
    remoteEn := false, stagingBase := 4096, stagingLen := 6000000, images := [], plan := [{ mem := 3, base := 4096, len := 6000000, xfer := false }]
    stash := { slotLog2 := 0, stockBase := 0, stockSlots := 0, regions := [] }, buckets := []
    roster := [{ addr := 5, kind := 0, digest := Config.serialDigest }], groups := [], streams := []
    fab := { sealing := false, w2 := 1, w3 := 1, tokens := 4, ethernet := [] }, bucketWindow := 0
    temper := { groups := [], updRanges := [], curves := [], pushes := [], pushRanges := [], programs := [], normGroup := 0, prepass := false
                clipEn := false, skipNonfinite := false, infTrap := false, clipNorm := 0, gtable := 0, curveBase := 0, updAddr := 0, pushAddr := 0
                pushRangeAddr := 0 }
    bloom := [], feeders := [], bloomPort := 0 }

/-- The slot of a command that may start. -/
def cmdSlot (op level : Nat) (arg : List Byte) : Slot :=
  { num := 3, session := 0, level := level, who := 5, hello := 7, tag := 77, opcode := op, arg := arg, ready := false, code := 0
    result := [], reads := 0, jseq := none, closed := false }

/-- A device in which it may start. -/
def cmdState (l : Life) (x : Slot) : State :=
  { upIn l with mbx := { Mbx.init with slots := [x], queue := if journalled x.opcode ∧ aheadOf x.opcode = false then [3] else [] }
                cru := { Cru.init with owner := some 42, claimNonce := some 8 } }

theorem witness_ReadingCommandsComplete :
    Starts (cmdState .blank (cmdSlot 0x0001 0 [])) 3 0x0001 (cmdSlot 0x0001 0 []) ∧
    Starts (cmdState .blank (cmdSlot 0x0003 0 [])) 3 0x0003 (cmdSlot 0x0003 0 []) ∧
    Starts (cmdState .blank (cmdSlot 0x0301 1 [0, 0, 2, 0])) 3 0x0301 (cmdSlot 0x0301 1 [0, 0, 2, 0]) ∧
    Starts (cmdState .blank (cmdSlot 0x0302 1 [])) 3 0x0302 (cmdSlot 0x0302 1 []) ∧
    Starts (cmdState .armed (cmdSlot 0x0306 1 [])) 3 0x0306 (cmdSlot 0x0306 1 []) := by decide
theorem witness_ReadingCommandsComplete_report :
    Starts (cmdState .blank (cmdSlot 0x0002 0 [])) 3 0x0002 (cmdSlot 0x0002 0 []) ∧
    Starts (cmdState .armed (cmdSlot 0x0303 1 [3])) 3 0x0303 (cmdSlot 0x0303 1 [3]) := by decide
theorem witness_OwnershipChanges :
    (Starts (cmdState .blank (cmdSlot 0x0101 0 [])) 3 0x0101 (cmdSlot 0x0101 0 []) ∧
      (cmdState .blank (cmdSlot 0x0101 0 [])).cru.claimNonce = some 8) ∧
    Starts (cmdState .claimed (cmdSlot 0x0102 3 [])) 3 0x0102 (cmdSlot 0x0102 3 []) ∧
    (cmdState .claimed (cmdSlot 0x0102 3 [])).cru.owner = some 42 := by decide
theorem witness_LifecycleCommandsAct :
    (Starts (cmdState .claimed (cmdSlot 0x0104 2 [])) 3 0x0104 (cmdSlot 0x0104 2 []) ∧
      (cmdState .claimed (cmdSlot 0x0104 2 [])).billet = none) ∧
    (Starts ({ cmdState .claimed (cmdSlot 0x0104 2 []) with billet := some bil }.put Reg.cruStatusScrubOk 1) 3 0x0104
      (cmdSlot 0x0104 2 []) ∧ ({ cmdState .claimed (cmdSlot 0x0104 2 []) with billet := some bil }.put Reg.cruStatusScrubOk 1).get
        Reg.cruStatusScrubOk = 1) ∧
    Starts (cmdState .armed (cmdSlot 0x0105 2 [])) 3 0x0105 (cmdSlot 0x0105 2 []) ∧
    (Starts { cmdState .armed (cmdSlot 0x0106 2 []) with billet := some bil } 3 0x0106 (cmdSlot 0x0106 2 []) ∧
      bil.cad.candidates ≠ [] ∧ (cmdState .armed (cmdSlot 0x0106 2 [])).cad.stopped = none) ∧
    (Starts (cmdState .running (cmdSlot 0x0107 2 [])) 3 0x0107 (cmdSlot 0x0107 2 []) ∧
      3 ∉ (cmdState .running (cmdSlot 0x0107 2 [])).mbx.halts) ∧
    (Starts (cmdState .blank (cmdSlot 0x0109 2 [1])) 3 0x0109 (cmdSlot 0x0109 2 [1]) ∧
      (cmdState .blank (cmdSlot 0x0109 2 [1])).sys.asserted = []) := by decide
theorem witness_LifecycleCommandsAct_waits : startable up 3 0x0104 = none ∧
    startable (cmdState .armed (cmdSlot 0x0104 2 [])) 3 0x0104 = some (cmdSlot 0x0104 2 []) ∧
    cmdAccepts 0x0104 (cmdState .armed (cmdSlot 0x0104 2 [])).life = false := by decide
theorem witness_LifecycleCommandsAct_stopped :
    Starts { cmdState .armed (cmdSlot 0x0106 2 []) with cad := { Cad.init with stopped := some (7, 65536) } } 3 0x0106
      (cmdSlot 0x0106 2 []) := by decide
theorem witness_ServingAndRestoreBegin :
    Starts (cmdState .running (cmdSlot 0x0201 2 [])) 3 0x0201 (cmdSlot 0x0201 2 []) ∧
    Starts (cmdState .running (cmdSlot 0x0202 2 [])) 3 0x0202 (cmdSlot 0x0202 2 []) ∧
    Starts { cmdState .armed (cmdSlot 0x0108 2 []) with billet := some bil } 3 0x0108 (cmdSlot 0x0108 2 []) ∧
    Starts (cmdState .armed (cmdSlot 0x0203 2 [])) 3 0x0203 (cmdSlot 0x0203 2 []) ∧
    ((cmdState .armed (cmdSlot 0x0203 2 [])).startRunning (cmdSlot 0x0203 2 [])).readLabels.copies 0 = [] := by decide

/-- An accepted image of a kind whose manifest lists every other. -/
def img (k : Nat) : FwImage :=
  { kind := k, version := 1, svn := 0, retire := false, rsaSlot := 0, slhSlot := 0, payload := 0, digest := 0
    manifest := [(0, Config.stepping), (1, 1), (2, 1), (3, 1), (4, 1)], good := true }

/-- A boot store with a set in both slots. -/
def fwState (x : Slot) : State :=
  { cmdState .claimed x with cru := { Cru.init with images := [(0, img 1), (1, img 2), (2, img 3), (3, img 4), (4, img 1)] } }

/-- The bytes of a revocation of RSA slot 2, and of an unlock token of the owner. -/
def revocation : List Byte :=
  leBytes 4 0x5A2B1CDE ++ leBytes 1 1 ++ leBytes 1 0 ++ leBytes 1 0 ++ leBytes 1 0 ++ leBytes 1 2 ++ leBytes 7 0 ++ Config.serialBytes ++ leBytes 32 0
def unlocking (signer : Nat) : List Byte :=
  leBytes 4 0x5A2B1CDB ++ leBytes 1 1 ++ leBytes 1 signer ++ leBytes 10 0 ++ Config.serialBytes ++ leBytes 32 0
/-- The bytes of an import object of job 11 that session HELLO bytes 7 bind. -/
def importing : List Byte := leBytes 4 0x5A2B1C1E ++ leBytes 1 1 ++ leBytes 3 0 ++ leBytes 16 11 ++ leBytes 32 7 ++ leBytes 1152 0

theorem witness_FirmwareAndKeysChange :
    Starts (cmdState .claimed (cmdSlot 0x0401 3 [])) 3 0x0401 (cmdSlot 0x0401 3 []) ∧
    Starts (fwState (cmdSlot 0x0402 3 [1])) 3 0x0402 (cmdSlot 0x0402 3 [1]) ∧
    Starts (cmdState .claimed (cmdSlot 0x0403 0 [])) 3 0x0403 (cmdSlot 0x0403 0 []) ∧
    Starts (cmdState .claimed (cmdSlot 0x0404 0 [])) 3 0x0404 (cmdSlot 0x0404 0 []) ∧
    Starts (cmdState .claimed (cmdSlot 0x0405 0 [])) 3 0x0405 (cmdSlot 0x0405 0 []) ∧
    Starts { cmdState .armed (cmdSlot 0x0406 3 []) with billet := some bil } 3 0x0406 (cmdSlot 0x0406 3 []) := by decide
theorem witness_FirmwareAndKeysChange_commit : (fwState (cmdSlot 0x0402 3 [1])).activeSlot ≤ 1 ∧
    tested ((fwState (cmdSlot 0x0402 3 [1])).candidate 1) = true := by
  refine ⟨by decide, ?_⟩
  have : (fwState (cmdSlot 0x0402 3 [1])).candidate 1 = [img 1, img 2, img 3, img 4] := by rfl
  rw [this]
  simp [tested, fwLists, img]
theorem witness_FirmwareAndKeysChange_notCommitted : (cmdState .claimed (cmdSlot 0x0402 3 [1])).acceptedAt
    (1 - (cmdState .claimed (cmdSlot 0x0402 3 [1])).activeSlot) 1 = none ∧ bit (fieldAt [1#8] 0 1 % 16) 0 = true := by decide
theorem witness_FirmwareAndKeysChange_token : (cmdState .claimed (cmdSlot 0x0403 0 [])).tokenOk (tokenOf [] false) = false := by
  simp [State.tokenOk, tokenOf]
theorem witness_FirmwareAndKeysChange_revocation :
    vendorSigned (cmdState .claimed (cmdSlot 0x0404 0 revocation)) (revocationOf revocation true) = true ∧
    (revocationOf revocation true).alg ≤ 1 ∧ (revocationOf revocation true).slot = 2 ∧
    (cmdState .claimed (cmdSlot 0x0404 0 revocation)).get Reg.cruFuseRsaRevoked ||| 2 ^ 2 ≠ 15 := by
  refine ⟨?_, by decide, by decide, by decide⟩
  have h : (cmdState .claimed (cmdSlot 0x0404 0 revocation)).rsaRevoked 0 = false ∧
    (cmdState .claimed (cmdSlot 0x0404 0 revocation)).slhRevoked 0 = false := by decide
  have hs : (revocationOf revocation true).serial = Config.serial := rfl
  have hr : (revocationOf revocation true).rsaSlot = 0 ∧ (revocationOf revocation true).slhSlot = 0 ∧
    (revocationOf revocation true).good = true ∧ (revocationOf revocation true).signer = 0 := by decide
  simp [vendorSigned, h, hs, hr]
theorem witness_FirmwareAndKeysChange_unlock :
    ownerSigned (cmdState .claimed (cmdSlot 0x0405 0 (unlocking 1))) (unlockOf (unlocking 1) true) = true := by
  have hs : (unlockOf (unlocking 1) true).serial = Config.serial := rfl
  have hr : (unlockOf (unlocking 1) true).good = true ∧ (unlockOf (unlocking 1) true).signer = 1 ∧
    (cmdState .claimed (cmdSlot 0x0405 0 (unlocking 1))).cru.owner.isSome = true := by decide
  simp [ownerSigned, hs, hr]
theorem witness_FirmwareAndKeysChange_import : (importOf importing true (some 9)).good = true ∧ (importOf importing true (some 9)).hello = 7 ∧
    (importOf importing true (some 9)).jobId = bil.jobId := by decide

/-- A signed billet of one section of kind 0x02 for address 5, owner 42, of 256 bytes before its signatures. -/
def billetBytes : List Byte :=
  leBytes 4 0x5A2B1CB1 ++ leBytes 1 1 ++ leBytes 3 0 ++ leBytes 16 11 ++ leBytes 8 256 ++ leBytes 4 1 ++ leBytes 4 0 ++ leBytes 48 42 ++
  leBytes 40 0 ++ (leBytes 2 2 ++ leBytes 2 5 ++ leBytes 4 0 ++ leBytes 8 256 ++ leBytes 8 0 ++ leBytes 8 0) ++
  List.replicate 96 0#8 ++ List.replicate 8240 0#8

/-- The tables of `bil`: its Strike table and its roster. -/
def bilTables : BilletTables :=
  { strike := bil.cad.strike.flatMap (fun e => leBytes 8 (Strike.bits e)), gangs := [], segDescs := [], channels := [], regions := []
    tensors := [], groups := [], updRanges := [], curves := [], pushes := [], pushRanges := [], buckets := [], bucketSegs := []
    bloom := [], roster := leBytes 2 5 ++ leBytes 6 0 ++ leBytes 8 Config.serialDigest ++ leBytes 16 0, swage := [] }

/-- The billet that they give with `bil`. -/
def bilRead : Billet := { billetOf billetBytes bil with images := tableImages { billetOf billetBytes bil with progs := [] } bilTables }

/-- A device that may load it. -/
def loadState : State := (cmdState .claimed (cmdSlot 0x0103 2 (leBytes 4 8496 ++ leBytes 4 0 ++ billetBytes))).put Reg.cruStatusScrubOk 1

set_option maxRecDepth 20000 in
theorem witness_LoadBilletTakesEffect :
    Starts loadState 3 0x0103 (cmdSlot 0x0103 2 (leBytes 4 8496 ++ leBytes 4 0 ++ billetBytes)) ∧
    loadState.get Reg.cruScrubBusy = 0 ∧ loadState.get Reg.cruStatusScrubOk = 1 := by decide +kernel
set_option maxRecDepth 20000 in
theorem witness_LoadBilletTakesEffect_header : signedBillet (leBytes 4 8496 ++ leBytes 4 0 ++ billetBytes) = billetBytes ∧
    billetHeaderOk billetBytes = true ∧ (billetOf billetBytes bil).owner = 42 ∧ loadState.jobDiffers 11 = false := by decide +kernel
theorem witness_LoadBilletTakesEffect_address : loadState.addressIn bilRead [] = some 5 := by
  simp [State.addressIn, ownMember, bilRead, billetOf, bil, State.put]
/-- A number read from its bytes. -/
theorem leNat_leBytes (n v : Nat) : leNat (leBytes n v) = v % 256 ^ n := by
  induction n generalizing v with
  | zero => simp [leBytes, leNat, Nat.mod_one]
  | succ n ih => simp [leBytes, leNat, ih, Nat.pow_succ', Nat.mod_mul]
theorem witness_LoadBilletTakesEffect_roster : tableOf 32 rosterEntry bilTables.roster = some [{ addr := 5, kind := 0, digest := Config.serialDigest }] := by
  have h : fieldAt (leBytes 2 5 ++ leBytes 6 0 ++ leBytes 8 Config.serialDigest ++ leBytes 16 0) 8 8 = Config.serialDigest := by
    show leNat (leBytes 8 Config.serialDigest) = _
    rw [leNat_leBytes]
    exact Nat.mod_eq_of_lt (Nat.mod_lt _ (by decide))
  show some [({ addr := 5, kind := 0, digest := fieldAt _ 8 8 } : Member)] = _
  exact congrArg (fun d => some [({ addr := 5, kind := 0, digest := d } : Member)]) h
theorem witness_LoadBilletTakesEffect_tables : readTables (billetOf billetBytes bil) bilTables = some bilRead := by
  have h := witness_LoadBilletTakesEffect_roster
  unfold readTables
  rw [h]
  rfl
set_option maxRecDepth 20000 in
theorem witness_LoadBilletTakesEffect_sections : sectionsOk bilRead 5 billetBytes = true := by decide +kernel
theorem witness_LoadBilletTakesEffect_otherJob : ({ loadState with cru := { loadState.cru with lastJob := some 9 } } : State).jobDiffers 11 = true := by
  decide

/-! ## The Cadence -/

/-- A device that runs a job in a role. -/
def running (r : Role) (c : Cad) : State := { upIn .running with billet := some bil, cad := { c with role := r, mOn := r == .master, active := true } }

/-- The Cadence unit in step 3 at stroke 9, with the job's COMMIT stroke 100. -/
def cad3 : Cad :=
  { Cad.init with angle := 196617, seq := 40, mAngle := 196617, mSeq := 40, commitStroke := 100, joined := true, strike := bil.cad.strike
                  lastFired := 196617, ran := true }

/-- A Cadence message of device 9. -/
def cmsg (type angle attempt reason : Nat) : CadMsg :=
  { type := type, flags := 0, source := 9, angle := angle, attempt := attempt, reason := reason, seq := 41 }

/-- A hold of device 9 at the master. -/
def hold9 (angle reason : Nat) : MHold := { dev := 9, angle := angle, attempt := 0, reason := reason, rollback := false }

/-- A rollback hold of device 9 at the master. -/
def rollHold9 : MHold := { dev := 9, angle := 196608, attempt := 0, reason := 0, rollback := true }

/-- A hold of the device itself. -/
def ownHold (angle : Nat) (entry : Option Nat) (rb : Bool) : OwnHold :=
  { angle := angle, attempt := 0, reason := 0, entry := entry, rollback := rb }

/-- A master in step 3 with holds. -/
def mHolding (l : List MHold) : State := running .master { cad3 with mHolds := l }

/-- A master that waits at the start of step 3 for its rollback holds. -/
def mRollback (l : List MHold) : State := running .master { cad3 with mAngle := 196608, mRolling := true, mHolds := l }

theorem witness_MasterTurnsTheAngle : (mHolding []).cadUp = true ∧ (mHolding []).masters = true ∧
    (mHolding []).cad.active = true ∧ (mHolding []).cad.mRolling = false ∧
    (∀ h ∈ (mHolding [hold9 196700 1]).cad.mHolds, h.angle ≠ 196617 ∧ (h.reason = 1 → stepOf 196618 < stepOf h.angle)) = False ∧
    (∀ h ∈ (mHolding [hold9 196700 0]).cad.mHolds, h.angle ≠ 196617 ∧ (h.reason = 1 → stepOf 196618 < stepOf h.angle)) ∧
    (mHolding []).cad.mExternal = false ∧ (mHolding []).cad.mAngle + 1 < 2 ^ 48 - 1 := by decide
theorem witness_MasterTurnsTheAngle_held : (mHolding [hold9 196617 0]).masters = true ∧ (mHolding [hold9 196617 0]).cadUp = true ∧
    (∃ h ∈ (mHolding [hold9 196617 0]).cad.mHolds, h.angle = 196617 ∧ (h.reason ≠ 2 ∨ h.rollback = true)) ∧
    (∃ h ∈ (mHolding [hold9 196617 2]).cad.mHolds, h.angle = 196617) ∧
    (∀ h ∈ (mHolding [hold9 196617 2]).cad.mHolds, h.angle = 196617 → h.reason = 2 ∧ h.rollback = false) := by decide
theorem witness_MasterTurnsTheAngle_rollback : (mRollback [rollHold9]).masters = true ∧ (mRollback []).cad.mRolling = true ∧
    (∃ h ∈ (mRollback [rollHold9]).cad.mHolds, h.rollback = true) ∧ (∀ h ∈ (mRollback []).cad.mHolds, h.rollback = false ∧ h.reason ≠ 1) ∧
    (mRollback []).cad.mAngle ≠ 2 ^ 48 - 1 ∧ (mRollback []).cad.role = .master := by decide

/-- A master one stroke before the last angle, or at it, turning by CAD_IN or by its own period. -/
def nearEnd (a : Nat) (ext : Bool) : State := (running .master { cad3 with mAngle := a, mExternal := ext }).put Reg.cadCtrlExternal (b2n ext)

theorem witness_AngleEndStopsTheJob : (nearEnd (2 ^ 48 - 2) true).masters = true ∧ (nearEnd (2 ^ 48 - 2) true).cadUp = true ∧
    (nearEnd (2 ^ 48 - 2) true).cad.active = true ∧ (nearEnd (2 ^ 48 - 2) true).cad.mRolling = false ∧
    (nearEnd (2 ^ 48 - 2) true).cad.mAngle + 1 = 2 ^ 48 - 1 ∧ (nearEnd (2 ^ 48 - 2) true).waitingFrom srcCad < 16 ∧
    (nearEnd (2 ^ 48 - 2) true).cad.mStand = false ∧ (nearEnd (2 ^ 48 - 2) true).flag Reg.cadCtrlExternal = true ∧
    (nearEnd (2 ^ 48 - 2) true).get Reg.cadPeriodNs ≤ 10000000 ∧ (nearEnd (2 ^ 48 - 2) false).cad.mExternal = false ∧
    (∀ h ∈ (nearEnd (2 ^ 48 - 1) false).cad.mHolds, h.angle ≠ (nearEnd (2 ^ 48 - 1) false).cad.mAngle) ∧
    (nearEnd (2 ^ 48 - 1) false).cad.mAngle = 2 ^ 48 - 1 := by decide

/-- A device of master 9 in step 3. -/
def follows (c : Cad) : State := running .follower { c with master := 9 }

/-- A device back from a core reset that does not know the master. -/
def backAt (r : Nat) : State := running .idle { cad3 with resume := some r, resetHold := true }

theorem witness_BeatsAndKeepsAreTaken : (follows cad3).cadUp = true ∧ (follows cad3).cad.role = .follower ∧
    (follows cad3).cad.resume = none ∧ (follows cad3).cad.joined = true ∧ (follows cad3).cad.active = true ∧
    (follows cad3).cad.seq < (cmsg 1 196618 0 0).seq ∧ (follows cad3).cad.master = (cmsg 1 196618 0 0).source ∧
    (cmsg 1 196618 0 0).source ≠ (follows cad3).addr ∧ (cmsg 1 196618 0 0).seq ≤ (follows { cad3 with seq := 41 }).cad.seq ∧
    (running .follower cad3).cad.master ≠ (cmsg 7 196618 0 0).source := by decide
theorem witness_BeatsAndKeepsAreTaken_back : (backAt 262144).cadUp = true ∧ (backAt 262144).cad.resume = some 262144 ∧
    (backAt 262144).cad.resetHold = true ∧ (backAt 262144).cad.role = .idle ∧ (cmsg 7 196618 0 0).source ≠ (backAt 262144).addr := by decide
theorem witness_HoldsAreConserved : (mHolding []).cadUp = true ∧ (mHolding []).masters = true ∧
    (mHolding []).cad.mAngle ≤ (cmsg 2 196700 0 0).angle ∧ (cmsg 2 196700 0 0).attempt = (mHolding []).cad.mAttempt ∧
    (mHolding []).mIsCommitted = false ∧ (mHolding []).waitingFrom srcCad < 16 ∧ (cmsg 2 196700 0 1).reason = 1 ∧
    (cmsg 2 196700 0 3).reason = 3 ∧ (cmsg 2 196700 5 0).attempt ≠ (mHolding []).cad.mAttempt ∧
    (running .master { cad3 with mAngle := 196716, mCommitted := some 3 }).mIsCommitted = true ∧
    matchHold (mHolding [hold9 196700 0]) (cmsg 3 196700 0 0) = some (hold9 196700 0) ∧
    matchHold (mHolding []) (cmsg 3 196700 0 0) = none ∧ (follows cad3).masters = false := by decide

/-- A master that may abort three times. -/
def mayAbort (c : Cad) : State := (running .master c).put Reg.cadAbortLimit 3

theorem witness_LateHoldAborts : (mayAbort cad3).cadUp = true ∧ (mayAbort cad3).masters = true ∧ (cmsg 2 196610 0 0).type = 2 ∧
    (cmsg 2 196610 0 0).reason ≤ 2 ∧ (cmsg 2 196610 0 0).angle < (mayAbort cad3).cad.mAngle ∧
    (cmsg 2 196610 0 0).attempt = (mayAbort cad3).cad.mAttempt ∧ (mayAbort cad3).waitingFrom srcCad < 15 ∧
    (mayAbort cad3).mIsCommitted = false ∧ (mayAbort cad3).cad.mAttempt + 1 < (mayAbort cad3).get Reg.cadAbortLimit ∧
    (mayAbort { cad3 with mAngle := 196716, mCommitted := some 3 }).mIsCommitted = true ∧
    ((mayAbort cad3).put Reg.cadAbortLimit 1).get Reg.cadAbortLimit ≤ (mayAbort cad3).cad.mAttempt + 1 := by decide
theorem witness_AbortRollsBackOrStops : (follows cad3).cadUp = true ∧ (cmsg 4 196608 1 0).type = 4 ∧
    (cmsg 4 196608 1 0).source ≠ (follows cad3).addr ∧ (follows cad3).cad.role = .follower ∧ (follows cad3).cad.master = 9 ∧
    (follows cad3).cad.active = true ∧ (follows cad3).cad.start = false ∧ bit (cmsg 4 196608 1 0).reason 15 = false ∧
    bit (cmsg 4 262144 1 0x8001).reason 15 = true ∧ (cmsg 4 262144 1 0x8001).reason % 2 ^ 15 ≠ 4 ∧
    (follows { cad3 with start := true, attempt := 1, angle := 196608 }).cad.attempt = (cmsg 4 196608 1 0).attempt ∧
    (backAt 262144).waitsMaster = true := by decide
theorem witness_StalledAndReadyHolds : (mayAbort { cad3 with mHolds := [hold9 196617 0] }).cadUp = true ∧
    (∃ h ∈ (mayAbort { cad3 with mHolds := [hold9 196617 0] }).cad.mHolds, h.dev = 9 ∧ h.angle = 196617 ∧ (h.reason ≠ 2 ∨ h.rollback = true)) ∧
    (∀ h ∈ (mayAbort { cad3 with mHolds := [hold9 196617 2] }).cad.mHolds, h.dev = 9 → h.angle = 196617 → h.reason = 2 ∧ h.rollback = false) ∧
    (running .follower { cad3 with own := [ownHold 196708 (some 0) false] }).cad.own.find? (fun k => k.entry == some 0) =
      some (ownHold 196708 (some 0) false) ∧
    gateReady (running .follower cad3) (bil.cad.strike.getD 0 ⟨0, 0, false, 0, 0, 0, 0⟩) 3 = true ∧
    gateReady (running .follower cad3) ⟨300, 0xB, true, 0, 0, 0, 0⟩ 3 = false ∧
    (running .follower { cad3 with own := [ownHold 196608 none true], rolling := true }).cad.rolling = true ∧
    bloomRefilled (running .follower { cad3 with resume := some 196608, own := [ownHold 196608 none true] }) 3 = true := by decide

/-- A device that elects, with candidates heard and devices that have confirmed it. -/
def electing (c : Cad) : State := (running .electing c).put Reg.cadCtrlCandidate 1

theorem witness_ElectionsRun : (electing cad3).cadUp = true ∧ (electing cad3).isCandidate = true ∧
    (∀ d ∈ (electing { cad3 with confirms := [5] }).devices, d = 9 ∨ d ∈ (electing { cad3 with confirms := [5] }).cad.confirms ∨ d ∈ cad3.lost) ∧
    (∃ d ∈ (electing cad3).devices, d ≠ 9 ∧ d ∉ (electing cad3).cad.confirms ∧ d ∉ (electing cad3).cad.lost) ∧
    (electing cad3).cad.afterLoss = false ∧ (electing cad3).cad.startAngle + 1 < 2 ^ 48 - 1 ∧
    (electing cad3).mbx.running = none ∧ (electing cad3).waitingFrom srcCad < 16 ∧ (electing cad3).ing.restore = none ∧
    (∀ a ∈ (electing { cad3 with cands := [11] }).cad.cands, 9 < a) ∧ (follows cad3).waitsMaster = false ∧
    (∃ a ∈ bil.cad.candidates, a ≠ (follows cad3).cad.master ∧ a ∉ cad3.lost) := by decide

/-- A device whose billet sets CTRL.EXTERNAL, in a role. -/
def external (r : Role) (c : Cad) : State := (running r c).put Reg.cadCtrlExternal 1

theorem witness_CadInIsChecked : (external .follower cad3).flag Reg.cadCtrlExternal = true ∧ (external .follower cad3).alive = true ∧
    (external .follower cad3).masters = false ∧
    (external .master { cad3 with mExternal := true, mHolds := [hold9 196617 0] }).masters = true ∧
    (external .master { cad3 with mExternal := true, mHolds := [hold9 196617 0] }).mHeld 196617 = true ∧
    (external .master { cad3 with mExternal := true }).mHeld 196617 = false ∧
    (external .master { cad3 with mExternal := true }).get Reg.cadPeriodNs ≤ 10000000 ∧
    (external .master { cad3 with mExternal := true }).cad.mStand = false ∧ (external .master { cad3 with mExternal := true }).cad.mRolling = false ∧
    (external .master { cad3 with mExternal := true }).cad.mAngle + 1 < 2 ^ 48 - 1 ∧
    (external .master { cad3 with mExternal := true }).flag Reg.cadCtrlFallback = false ∧
    ((external .master { cad3 with mExternal := true }).put Reg.cadCtrlFallback 1).flag Reg.cadCtrlFallback = true ∧
    (external .master { cad3 with mExternal := true }).waitingFrom srcCad < 16 := by decide

/-! ## Cores -/

/-- A segment of four commands on a core, none dispatched. -/
def seg4 : SegRun :=
  { segment := 0, descs := [], total := 4, disp := 0, done := 0, itotal := 2, idone := 0, swage := [], sets := [], creditUp := 0
    creditDn := 0, stalled := [], slotsUp := [], slotsDn := [] }

/-- A core that runs a program of one such segment. -/
def coreRun : Core := { Core.init with run := .running, segs := [seg4] }

/-- A device whose core 3 is so. -/
def onCore (c : Core) : State := { running .follower { cad3 with master := 9 } with cores := [(3, c)] }

/-- An FP8 product of a 2 × 32 and a 32 × 2 operand into FP32, its plan 2 × 2 × 32. -/
def mmWords : List Word :=
  [7, 1, 9 * 256, 2 + 2 * 65536, 32, 0, 2 + 2 * 65536, 32, 0x1000, 32, 0x2000, 64, 0x3000, 64, 0, 0, 0, 0, 0, 33280]

/-- It, accepted. -/
def mmIssue : Issue := { words := natWords mmWords, m := 2, n := 2, k := 32, slagRow := [], slagCol := [], segment := 0 }

/-- It, draining its one slot. -/
def mmDrain : Drain := { issue := mmIssue, slots := [(0, 0, 0)], faulted := false }

/-- A vector command over a 2 × 3 extent: OP, FUNC, registers, XARG. -/
def vWords (op func xarg : Word) : List Word :=
  [9, op + 256 * func, 1 + 2 * 32 + 3 * 1024 + 4 * 32768, 0x3F800000, 2 + 3 * 256, 0x4000, 16, xarg]

theorem witness_IssuesAreChecked : (onCore coreRun).canCompute 3 = true ∧
    issueCheck (onCore coreRun) 3 (mmOf (natWords mmWords)) = .accept ∧
    issueCheck (onCore { coreRun with queue := [mmIssue] }) 3 (mmOf (natWords mmWords)) = .wait ∧
    issueCheck (onCore coreRun) 3 (mmOf (natWords (mmWords.set 5 1))) = .refuse 3 8 0 0 ∧
    (onCore { coreRun with waiting := some (natWords mmWords) }).life = .running ∧ wf (natWords mmWords) 1 0 8 ≠ 0x28 ∧
    wf (natWords [5, 0]) 1 0 8 = 0 ∧ undefinedVec (wf (natWords [5, 0x14]) 1 0 8) = true := by decide
theorem witness_IssueCompletes : (onCore { coreRun with queue := [mmIssue] }).alive = true ∧
    (onCore { coreRun with queue := [mmIssue] }).cad.own = [] ∧ issueReadsOk mmIssue = true ∧
    ({ coreRun with queue := [mmIssue] } : Core).issueWaits mmIssue = false := by decide
theorem witness_DrainWritesItsRows : (onCore { coreRun with drains := [mmDrain] }).alive = true ∧ drainOk mmIssue = true ∧
    (mmOf mmIssue.words).fo = some .fp32 ∧ ((onCore { coreRun with drains := [mmDrain] }).core 3).drains = [mmDrain] := by decide
theorem witness_VectorCommandsAct : TakesVec (onCore coreRun) 3 ∧ (vcOf (natWords (vWords 0x10 0 0))).op = 0x10 ∧
    redEmpty (vcOf (natWords (vWords 0x20 0 0))) = false := by decide
theorem witness_ExtentIsWritten : TakesVec (onCore coreRun) 3 ∧ (vcOf (natWords (vWords 0x39 0 7))).esize = 0 ∧
    (vcOf (natWords (vWords 0x39 0 7))).rows = 2 ∧ (vcOf (natWords (vWords 0x39 0 7))).cols = 3 ∧
    packOk (vcOf (natWords (vWords 0x39 0 7))) = true := by decide
theorem witness_LoadsStoresAndShapes : TakesVec (onCore coreRun) 3 ∧ (vcOf (natWords (vWords 0x40 0 0))).op = 0x40 ∧
    (vcOf (natWords (vWords 0x40 0 0))).rows ≤ 32 ∧ (vcOf (natWords (vWords 0x40 0 0))).cols ≤ 32 ∧
    (vcOf (natWords (vWords 0x40 0 0))).axis ≠ 3 ∧ (vcOf (natWords (vWords 0x40 5 0))).func ≠ 0 ∧
    lsOk (vcOf (natWords (vWords 0x40 0 0))) = true ∧
    ((onCore coreRun).core 3).mustWait [lsRange (vcOf (natWords (vWords 0x40 0 0)))] [] = false ∧
    ((onCore coreRun).core 3).mustWait [] [lsRange (vcOf (natWords (vWords 0x41 0 0)))] = false ∧
    4 * (vcOf (natWords (vWords 0x41 0 0))).cols ≤ (vcOf (natWords (vWords 0x41 0 0))).stride ∧
    (vcOf (natWords (vWords 0x48 3 0))).func = 3 ∧ (vcOf (natWords (vWords 0x48 3 0))).esize = 0 ∧
    redEmpty { vcOf (natWords (vWords 0x20 0 0)) with cols := 0 } = true := by decide

/-! ## Swage and the term-walk -/

/-- A set of four input rows, the second half of a map of eight, with one halo row above. -/
def set4 : SwageSet :=
  { srcAddr := 0x8000, planeStride := 256, rowStride := 64, fmt := 9, wIn := 4, ch := 1, kh := 3, dv := 1, sv := 1, depth := 3, seq := 7
    h := 8, row0 := 4, n := 4, lbOffset := 0, haloMode := 1, haloSlots := 2, edgeUp := 1, edgeDn := 1, haloAddr := 0x9000
    outAddr := 0, outPlane := 0, outRow := 0 }

/-- Its progress: nothing presented. -/
def run0 : SwgRun := { presented := 0, landedUp := 0, landedDn := 0, held := [] }

/-- A segment that runs it. -/
def segSw : SegRun := { seg4 with swage := [set4], sets := [run0], creditUp := 2 }

/-- The same with its halo row landed. -/
def segRow : SegRun := { segSw with sets := [{ run0 with landedUp := 1 }], slotsUp := [(0, some (0, 0))] }

/-- A gang of two cores, 3 and 4. -/
def pair : Gang := { gang := 1, stage := 0, die := 0, row0 := 0, col0 := 3, rows := 1, cols := 2, progTable := 0 }

/-- A device whose core 4 runs a segment, below core 3. -/
def onSwage (g : SegRun) (dw : Option (List Nat)) : State :=
  { running .follower { cad3 with master := 9 } with
    billet := some { bil with gangs := [pair] }, cores := [(4, { coreRun with segs := [g], dwconv := dw })] }

/-- A depth-wise row of width 4, a 3 × 3 kernel. -/
def dwWords : List Word := [11, 0x50, 1, 0, 4, 0xA000, 64, 9 + 2 * 16 + 2 * 128]

/-- The halo row that core 4 expects from above, on its way. -/
def halo (attempt seq : Nat) : Nat × EdgeRow :=
  (4, { segment := 0, up := false, set := 0, tag := { stripe := 0, row := 3, seq := seq, mb := 0, attempt := attempt }
        src := (0xA000, 16), data := List.replicate 16 1#8 })

/-- A row of core 4 that waits for a credit. -/
def waitsUp : EdgeRow := { (halo 0 7).2 with up := true }

/-- A term-walk of the issue at 0x5000. -/
def twWords : List Word := [13, 0x58, 0, 0, 0, 0x5000, 0x6000, 0]

/-- A core that may take it. -/
def walkState : State := { onCore coreRun with hearth0 := Memory.empty.writeBytes 0x5000 (mmWords.flatMap (fun w => leBytes 4 w.toNat)) }

theorem witness_DepthwiseRows : TakesVec (onSwage segSw none) 4 ∧ (vcOf (natWords dwWords)).op = 0x50 ∧
    dwOk ((onSwage segSw none).core 4) (vcOf (natWords dwWords)) (dwOf (natWords dwWords)) = true ∧
    dwOk ((onSwage segSw none).core 4) (vcOf (natWords (dwWords.set 7 3))) (dwOf (natWords (dwWords.set 7 3))) = false ∧
    ({ (onSwage segSw none).core 4 with walkReads := [(0xA000, 16)] } : Core).mustWait [] [(0xA000, 16)] = true := by decide
theorem witness_DepthwiseRows_complete : ((onSwage segRow (some (natWords dwWords))).core 4).dwconv = some (natWords dwWords) ∧
    ((onSwage segRow (some (natWords dwWords))).core 4).segRun 0 = some segRow ∧
    setAt ((onSwage segRow (some (natWords dwWords))).core 4) 0 (dwOf (natWords dwWords)).lb = some (set4, { run0 with landedUp := 1 }) ∧
    run0.presented < outRows set4 ∧ missing segRow 0 set4 (heldFor set4 { run0 with landedUp := 1 }) (edgeFirst set4 0) = false ∧
    (onSwage segRow (some (natWords dwWords))).alive = true ∧ fmtOf (dwOf (natWords dwWords)).ofmt 0 = some .fp32 := by decide
theorem witness_HaloRowsLand : (onSwage segSw none).alive = true ∧ ((onSwage segSw none).core 4).segRun 0 = some segSw ∧
    expectRow segSw true = some (0, set4, 0) ∧ (halo 0 7).2.tag = expectTag (onSwage segSw none) 4 segSw true set4 0 ∧
    (halo 0 7).2.tag.attempt = (onSwage segSw none).cad.attempt ∧
    (halo 0 8).2.tag ≠ expectTag (onSwage segSw none) 4 segSw true set4 0 ∧ (halo 1 7).2.tag.attempt ≠ (onSwage segSw none).cad.attempt ∧
    neighbour (onSwage segSw none) 4 true = some 3 ∧
    ({ segSw with stalled := [waitsUp] } : SegRun).stalled.find? (fun e => e.up == true) = some waitsUp := by decide
set_option maxRecDepth 4000 in
theorem witness_TermwalkWritesItsRecord : TakesVec walkState 3 ∧ (vcOf (natWords twWords)).op = 0x58 ∧
    (vcOf (natWords twWords)).esize = 0 ∧ (vcOf (natWords twWords)).func ≤ 1 ∧ (vcOf (natWords twWords)).axis ≠ 3 ∧
    (mmOf (walkIssue walkState 3 (natWords twWords))).op = 1 ∧ inHearth 0x6000 64 = true := by decide

/-! ## Attention, KV, transfers, the stash -/

/-- An attention descriptor: one query row, two keys, head dimension 64, BF16 operands, FP32 output. -/
def atWords : List Nat :=
  [0x100, 128, 0, 0x200, 128, 0, 0x400, 128, 0x600, 256, 0x800, 0, 0, 0, 0, 0, 0x3F800000, 0, 1, 0, 0, 0x79070707, 0, 0, 262144,
   0x700, 0xA00, 0xC00, 0xE00, 0x900, 0, 0]

/-- The command that names it, at 0x5000. -/
def atCmd (func : Word) : List Word := [21, 0x28 + 256 * func, 0, 0, 0, 0x5000, 0, 0]

/-- A core that may run it. -/
def atState : State := { onCore coreRun with hearth0 := Memory.empty.writeBytes 0x5000 (atWords.flatMap (leBytes 4)) }

set_option maxRecDepth 8000 in
theorem witness_AttentionRunsAndEnds : TakesVec atState 3 ∧ (vcOf (natWords (atCmd 0))).op = 0x28 ∧ (vcOf (natWords (atCmd 0))).func = 0 ∧
    attnCheck atState 3 0 (vcOf (natWords (atCmd 0))) (atOf atState 3 (vcOf (natWords (atCmd 0)))) = .accept ∧
    (onCore { coreRun with attn := some ⟨21, [0, 1, 2], 0, 262144, none, 0, 9, 9, [], []⟩ }).alive = true := by
  decide +kernel

/-- An attention command that waits on core 3. -/
def atWaits : State :=
  { atState with cores := [(3, { coreRun with waiting := some (natWords (atCmd 0)), queue := [mmIssue] })] }

set_option maxRecDepth 8000 in
theorem witness_AttentionRunsAndEnds_waits : atWaits.life = .running ∧ (atWaits.core 3).run = .running ∧
    (atWaits.core 3).waiting = some (natWords (atCmd 0)) ∧ wf (natWords (atCmd 0)) 1 0 8 = 0x28 ∧
    attnCheck atWaits 3 0 (vcOf (natWords (atCmd 0))) (atOf atWaits 3 (vcOf (natWords (atCmd 0)))) = .wait := by
  decide +kernel

/-- A device whose KV pool of 8 pages is on. -/
def kvState : State :=
  ((((onCore coreRun).put Reg.kvpCtrlEn 1).put Reg.kvpPoolPages 8).put Reg.kvpFree 8).put Reg.kvpPageBytes 16384

/-- KVOP on stream 5, geometry or source 0. -/
def kvWords (func imm : Word) : List Word := [31, 0x29 + 256 * func, 0, imm, 0, 0, 0, 5]

/-- It, with stream 5 open, of core 3. -/
def kvOpen : State :=
  { kvState with kvp := { kvState.kvp with streams := [(5, { serving := false, layers := 1, groups := 1, maxp := 0, length := 0, l1 := 2, owner := 3 })] } }

theorem witness_KvStreamsChange : TakesVec kvState 3 ∧ (vcOf (natWords (kvWords 0 0))).op = 0x29 ∧
    kvFieldsOk (vcOf (natWords (kvWords 0 0))) = true ∧ kvFieldsOk (vcOf (natWords ((kvWords 0 0).set 2 1))) = false ∧ kvState.flag Reg.kvpCtrlEn = true ∧
    kvState.streamFree 5 = true ∧ ownerOk kvOpen 5 3 = true ∧ ownerOk kvOpen 5 4 = false := by decide
theorem witness_KvAuditWalks : kvState.alive = true ∧ kvState.get Reg.kvpStatusAuditBusy = 0 := by decide

/-- A stash region of the gang of cores 3 and 4: one raw tensor of 256 bytes, stashed in HBM4. -/
def moveRegion : StashRegion :=
  { gang := 1, bwdDesc := 0, fbuf := 1, tlist := 0, fetchAddr := 0xC000, fbufBytes := 512, hearthAddr := 0xD000, hearthSlots := 2
    hbmAddr := 0x18000, hbmSlots := 2, tierMap := [1], tensors := [{ raw := 256, mode := 0, srcFmt := 9, offset := 0 }] }

/-- The gang of cores 3 and 4, its channel to itself of two slots, and its stash region. -/
def moveBil : Billet :=
  { bil with
    gangs := [pair], segDescs := [{ gang := 1, pass := 0, segment := 0, inCh := [0] }]
    channels := [{ prodDev := 5, prodGang := 1, consDev := 5, consGang := 1, slots := 2, chunks := 2, mem := 0, slotBytes := 64, slotAddr := 0xB000 }]
    plan := [{ mem := 2, base := 0x10000, len := 0x10000, xfer := true }, { mem := 3, base := 0, len := 0x10000, xfer := true }]
    stash := { slotLog2 := 9, stockBase := 0, stockSlots := 4, regions := [moveRegion] }
    cad := { bil.cad with strike := [{ stroke := 0, kind := 1, gate := false, target := 0, every := 0, phase := 0, arg := 0 }] } }

/-- A device under it, at address 5. -/
def moveState (c : Core) : State :=
  (({ onCore c with billet := some moveBil, cad := { cad3 with strike := moveBil.cad.strike } }).put Reg.netStatusAddr 5).put Reg.sthCfgSlotLog2 9

/-- It at the start of a step: its channel and its stash tiers at home. -/
def homeState (c : Core) : State :=
  let s := moveState c
  { s with hands := s.homeHands, stashFree := s.homeFree }

/-- SEND of chunk 0 of channel 0, XFER of 256 bytes, and STASH of the tensor. -/
def sendWords : List Word := [41, 0x61, 0x100, 64, 0, 0, 0, 0]
/-- XFER to HBM4. -/
def xferWords (dir : Word) : List Word := [42, 0x60 + 65536 * dir, 0x100, 256, 0x10000, 0, 0x9000, 0]
/-- STASH of region 0, tensor 0. -/
def stashWords : List Word := [43, 0x62, 0x100, 256, 0, 0, 0, 0]

theorem witness_HandoverMovesChunks : takesXfer (moveState coreRun) 3 0x61 (natWords sendWords) = true ∧
    xferOk (moveState coreRun) 3 (natWords sendWords) = true ∧ (homeState coreRun).hand 0 = ⟨2, 0, 0, 0, [], 0, 0⟩ ∧
    ((moveState coreRun).hand 0).credits = 0 ∧ xferOk (moveState coreRun) 3 (natWords (sendWords.set 7 1)) = false ∧
    (channelOrder (moveState coreRun) 0)[0]? = some 0 ∧ (channelAt (moveState coreRun) 0).isSome = true ∧
    (moveState coreRun).alive = true ∧ (gangBy moveBil 1).isSome = true := by decide
theorem witness_TransfersMoveData : takesXfer (moveState coreRun) 3 0x60 (natWords (xferWords 0)) = true ∧
    xferOk (moveState coreRun) 3 (natWords (xferWords 0)) = true ∧ xferOk (moveState coreRun) 3 (natWords ((xferWords 0).set 7 1)) = false ∧
    ((moveState coreRun).core 3).mustWait (xferOf (moveState coreRun) 3 (natWords (xferWords 0))).reads
      (xferOf (moveState coreRun) 3 (natWords (xferWords 0))).writes = false ∧
    ((moveState { coreRun with walkReads := [(0x9000, 4)] }).core 3).mustWait [] (xferOf (moveState coreRun) 3 (natWords (xferWords 0))).writes =
      true := by decide
theorem witness_StashHoldsTensors : takesXfer (moveState coreRun) 3 0x62 (natWords stashWords) = true ∧
    xferOk (moveState coreRun) 3 (natWords stashWords) = true ∧
    windowOpen { moveState coreRun with spills := [{ region := 0, mb := 0, closed := false }] } 0 0 = true ∧
    windowOpen (moveState coreRun) 0 0 = false ∧ (homeState coreRun).placeTier 0 1 1 = some 1 ∧ (moveState coreRun).placeTier 0 1 1 = none ∧
    (regionAt (moveState coreRun) 0).isSome = true := by decide


/-! ## Temper -/

/-- A group of two elements by SGD, its arrays in Stock from 0x100, its freeze mask at 0x140. -/
def tgroup : TmpGroup :=
  { group := 3, rule := 0, flags := 0, gfmt := 1, lrCurve := 0, wdCurve := 1, count := 2, w := 0x100, m := 0x108, v := 0, g := 0x110
    freeze := 0x140, stats := 0, beta1 := 0x3F000000, beta2 := 0, eps := 0, damp := 0, mrows := 1, mcols := 2, blk := 0, niter := 0
    period := 1, statEvery := 1, prog := 0 }

/-- A push of one row of one BF16 weight, to HBM4. -/
def tpush : Push :=
  { group := 3, wfmt := 7, mx := false, dest := 0, die := 0, rowLen := 1, first := 0, count := 1, dst := 0x200, stride := 64, cs := 0, img := 0x300 }

/-- Temper's plan, with a constant learning rate of 1 and no decay. -/
def tplan (pushes : List Push) : TemperPlan :=
  { bil.temper with
    groups := [tgroup], updRanges := [(0, 1)], pushes := pushes, pushRanges := [(0, 1)]
    curves := [[{ start := 0, span := 1, kind := 0, v0 := 0x3F800000, v1 := 0 }], [{ start := 0, span := 0, kind := 0, v0 := 0, v1 := 0 }]] }

/-- A device whose UPDATE of step 3 fires one range. Its weights are 2 and 4, its gradients 1 and 1, and element 1 is frozen. -/
def tmpState (x : Tmp) (pushes : List Push) : State :=
  { running .follower { cad3 with master := 9, strike := [{ stroke := 200, kind := 0xB, gate := true, target := 0, every := 0, phase := 0, arg := 0 }] } with
    billet := some { bil with temper := tplan pushes }, tmp := x
    stock := (Memory.empty.writeBytes 0x100 (leBytes 4 0x40000000 ++ leBytes 4 0x40800000 ++ leBytes 4 0x3F800000 ++ leBytes 4 0 ++
      leBytes 4 0x3F800000 ++ leBytes 4 0x3F800000)).writeBytes 0x140 [2] }

/-- Temper in step 3 with its range due. -/
def tmpReady : Tmp := { Tmp.init with step := some 3, ready := true, clipf := 0x3F800000, ranges := [0] }

/-- A device whose norm collective has returned 4. -/
def normState : State :=
  { tmpState { tmpReady with ready := false } [] with net := { (tmpState tmpReady []).net with
    allReduce := [{ group := 0, own := none, kids := [], sent := false, result := some ([0x40800000], 1) }] } }

theorem witness_TemperUpdatesWeights : tmpPlan (tmpState tmpReady []) = some (tplan []) ∧ (tmpState tmpReady []).alive = true ∧
    (tmpState tmpReady []).tmp.ranges.head? = some 0 ∧ (tplan []).updRanges.getD 0 (0, 0) = (0, 1) ∧ PlanApart (tplan [tpush]) ∧
    frozenAt (tmpState tmpReady []) tgroup 0 = false ∧ frozenAt (tmpState tmpReady []) tgroup 1 = true ∧
    (tmpState { tmpReady with ready := false } []).flag Reg.tmpCtrlClipEn = false ∧
    pushReady { tmpState { tmpReady with pushes := [0], done := [0], ranges := [] } [tpush] with life := .running } (tplan [tpush]) 0 = true ∧
    allApart ((pushDests tpush).map (fun r => { r with mem := 2 })) = true ∧
    (normState.reduceOf 0).result = some ([0x40800000], 1) ∧ ((tmpState tmpReady []).reduceOf 0).result = none ∧
    (normState.tmpRead (preRanges (tplan [])) [⟨4, true⟩]).2 = true := by decide
/-! ## The fabric -/

/-- A device whose port 2 is enabled, in a STATE, at full width. -/
def fab (st : Nat) (x : Port) : State :=
  (((((((({ upIn .armed with ports := [(2, x)] }.put (Reg.fabCtrlEn 2) 1).put (Reg.fabStatusState 2) st).put (Reg.fabStatusTxWidth 2) 8).put
    (Reg.fabStatusRxWidth 2) 8).put (Reg.fabStatusTxLanes 2) 255).put (Reg.fabStatusRxLanes 2) 255).put (Reg.fabLaneActive 2 3) 1).put
    (Reg.fabLaneMap 2) 0xFAC688).put (Reg.fabCtrlReadmit 2) 1

/-- Lane `l` as training finds it, of a peer with a digest that reports all lanes usable. -/
def tlane (l digest : Nat) : TrainLane :=
  { lane := l, signal := true, locked := true, sync := 0xB6, usable := 255, eqReq := 0, digest := digest, dev := 1, addressed := false, port := 7
    txLane := l, margin := 9, passed := true }

/-- Eight lanes of one peer. -/
def tlanes (digest : Nat) : List TrainLane := (List.range 8).map (fun l => tlane l digest)

/-- A port that has one frame in its replay buffer. -/
def busy : Port := { Port.init with txSeq := 9, replay := [{ seq := 9, kind := 3, packet := none, part := 255 }], rxSeq := 20 }

/-- A lane frame of a KIND and SEQ that acknowledges frame 8, with symbol errors. -/
def laneOf (kind seq : Nat) (errors : List Nat) : LaneRx := { lane := 1, errors := errors, header := laneHeader 0 false kind seq 8 255 }

/-- A packet in transit to address 6 after some hops. -/
def transit (hops : Nat) : RxPacket :=
  { packet := { type := 0x10, vc := 2, sealed := false, inverted := false, loc := false, hops := hops, dst := 6, src := 9, stream := 0, attempt := 0
                nonce := 0, arg := 0, body := .bytes [1, 2, 3] }, tagOk := true, cls := 0 }

/-- A device whose port 2 is the route to address 6. -/
def routed (x : Port) : State :=
  { fab 2 { x with shared := sharedCredits } with net := { (fab 2 x).net with routes := [(6, 2 + 2 ^ 12)] } }.put Reg.netCtrlSeal 0

/-- Eight lanes, the last of another peer. -/
def foreignLanes : List TrainLane := (List.range 7).map (fun l => tlane l 33) ++ [tlane 7 34]

theorem witness_PortsTrain : (fab 0 Port.init).domUp (16 + 2) = true ∧ (fab 0 Port.init).get (Reg.fabCtrlEn 2) = 1 ∧
    (fab 0 Port.init).leadsToParent 2 = false ∧ (fab 4 Port.init).get (Reg.fabStatusState 2) = 4 ∧
    ((fab 0 Port.init).put (Reg.fabCtrlEn 2) 0).get (Reg.fabCtrlEn 2) ≠ 1 ∧
    identity (tlanes 33) = some (tlane 0 33) ∧ ((tlanes 33).filter (usedLane (some (tlane 0 33)))).length = 8 ∧
    foreignLanes.filter (foreignLane (identity foreignLanes)) = [tlane 7 34] ∧
    (fab 1 Port.init).minLanes 2 ≤ 8 ∧ (fab 1 Port.init).inJob = true := by decide
theorem witness_LanesChange : (fab 2 busy).portUp 2 = true ∧ (fab 2 busy).get (Reg.fabLaneActive 2 3) = 1 ∧
    (fab 2 busy).get (Reg.fabLaneActive 2 4) = 0 ∧ (fab 2 busy).get (Reg.fabCtrlReadmit 2) = 1 ∧
    (fab 2 busy).minLanes 2 ≤ lanesIn (15 % 256) ∧ lanesIn (0 % 256) < (fab 2 busy).minLanes 2 ∧
    (fab 2 { busy with tell := true }).portUp 2 = true ∧ busy.replay.any (fun f => f.kind == 3 && f.part == 255 && !seqAfter 9 f.seq) = true := by decide
set_option maxRecDepth 4000 in
theorem witness_FramesAndReplay : (fab 2 busy).portUp 2 = true ∧ busy.ready = [] ∧ busy.sending = none ∧ busy.tell = false ∧
    (fab 2 busy).cad.want = none ∧ laneBad (laneOf 0 21 []) = false ∧ laneBad (laneOf 0 21 ((List.range 15).map (2 * ·))) = true ∧
    portHead [laneOf 0 21 [5]] = some { kind := 0, nak := false, seq := 21, ack := 8, mask := 255 } ∧ laneCorrected (laneOf 0 21 [5]) = 1 ∧
    laneRxs [{ lane := 1, errors := [5] }] [laneHeader 0 false 0 21 8 255] = [laneOf 0 21 [5]] ∧ 21 = (busy.rxSeq + 1) % 2 ^ 24 ∧ seqAfter busy.rxSeq 23 = true ∧ seqAfter busy.rxSeq 19 = false := by decide
theorem witness_CreditsAndTransit : (routed { busy with transit := [transit 3] }).portUp 2 = true ∧
    (routed { busy with transit := [transit 3] }).alive = true ∧ (routed busy).routePort 6 false = some (2, false) ∧
    (routed busy).canGo 2 { (transit 3).packet with hops := 4 } = true ∧ (fab 2 busy).routePort 6 false = none ∧
    (routed { busy with tell := true }).canGo 2 (transit 3).packet = false ∧
    vcOfType (transit 3).packet.type = some 2 ∧ 0 < (transit 3).packet.credits ∧
    auditOk Port.init 0 Port.init.rcvd Port.init.freed = true ∧ auditOk Port.init 0 [1, 0, 0, 0] Port.init.freed = false := by decide

/-! ## Discovery, attestation and seals -/

/-- A job of two devices, 5 and 9, with one collective group and one bucket. -/
def bil2 : Billet :=
  { bil with roster := [{ addr := 5, kind := 0, digest := 44 }, { addr := 9, kind := 0, digest := 33 }], groups := [[5, 9]] }

/-- Its device 5, linked by port 2 to port 7 of device 9. -/
def linked (x : Port) : State :=
  { ((fab 2 x).put (Reg.fabPeerSerialLo 2) 33).put Reg.netStatusAddr 5 with billet := some bil2, life := .armed }

/-- The discovery record of device 9, and that of device 5. -/
def rec9 : LinkRec := { origin := 9, version := 3, ports := [{ port := 7, digest := 44, peerPort := 2, rxWidth := 8, txWidth := 8 }] }
def rec5 : LinkRec := { origin := 5, version := 1, ports := [{ port := 2, digest := 33, peerPort := 7, rxWidth := 8, txWidth := 8 }] }

/-- Device 5 with records held, in a state of its network, and ARM running. -/
def arming (st : Nat) (recs : List LinkRec) (x : Port) : State :=
  { (linked x).put Reg.netStatusState st with life := .claimed, net := { Net.init with records := recs }, mbx := { Mbx.init with slots := [cmdSlot 0x0104 2 []], queue := [3], running := some 3 } }

/-- A report of device 9 that meets R414 for the nonce 7, and one of another nonce. -/
def rep9 (nonce : Nat) (held : Bool) : Report :=
  { state := 2, addr := 9, assigned := true, serialDigest := 33, exception := false, debug := false, scrubOk := true, seedHeld := held
    nonce := nonce, meas := 0, logCount := 0, owner := 42, billet := 12, jobId := 11, amendSeq := 0, jobCheck := 8, kemEk := 0 }

/-- Device 5 with an owner. -/
def owned (x : Port) : State := { linked x with cru := { Cru.init with owner := some 42 } }

/-- The same with the seed, sealing on, and the link's state of sealing. -/
def seeded (st : Nat) : State := { ((owned Port.init).put Reg.netCtrlSeal 1).put (Reg.fabSealState 2) st with seed := some 6 }

theorem witness_DiscoveryEnds : (arming 4 [rec9] Port.init).portUp 2 = true ∧ (arming 4 [rec9] Port.init).alive = true ∧
    recordOf (arming 4 [rec9] Port.init).net.records 9 = some rec9 ∧ RunningCmd (arming 4 [rec9] Port.init) (cmdSlot 0x0104 2 []) ∧
    (arming 4 [rec9] Port.init).portUp 3 = false ∧ (linked Port.init).runningOp = none ∧
    (arming 1 [rec9] Port.init).get Reg.netStatusState = 1 ∧ discovered (arming 1 [rec9] Port.init).roster [rec9] 5 = false := by decide
set_option maxRecDepth 20000 in
theorem witness_DiscoveryEnds_complete : discovered (arming 1 [rec9, rec5] Port.init).roster [rec9, rec5] 5 = true ∧
    diameter (arming 1 [rec9, rec5] Port.init).roster [rec9, rec5] ≤ 12 := by decide
theorem witness_DiscoveryEnds_linkState : recordOf (arming 4 [] Port.init).net.records 9 = none ∧
    (∀ q ∈ (arming 4 [rec9] Port.init).net.sealedRecs, ¬ (q.origin = 9 ∧ q.version = 3)) ∧
    (∀ a ∈ [5, 9], ∃ q ∈ State.storeRecord [rec5] rec9, q.origin = a) := by decide
theorem witness_LinksAttestAndSeal : (owned { Port.init with attNonce := some 7 }).alive = true ∧
    linkPeer (owned { Port.init with attNonce := some 7 }) 2 = some 9 ∧ (owned { Port.init with attNonce := some 7 }).peerAddr 2 = some 9 ∧
    linkPeer (owned Port.init) 3 = none ∧ (owned Port.init).peerAddr 3 = none ∧ (owned Port.init).inJob = true ∧
    (owned { Port.init with attNonce := some 7 }).reportOk 7 (rep9 7 false) [] = true ∧
    (owned { Port.init with attNonce := some 7 }).reportOk 7 (rep9 6 false) [] = false := by decide
theorem witness_LinksAttestAndSeal_seed : (owned { Port.init with attReport := some (rep9 7 true) }).seed = none ∧
    (∀ q ∈ (owned { Port.init with attReport := some (rep9 7 true) }).peerReports, q.seedHeld = true → 9 ≤ q.addr) ∧
    RunningCmd (arming 3 [] Port.init) (cmdSlot 0x0104 2 []) ∧ (seeded 0).flag Reg.netCtrlSeal = true ∧ (seeded 0).portUp 2 = true ∧
    sealKey (seeded 0) 2 = some (Config.jobKey 6 11 12) ∧ (seeded 1).get (Reg.fabSealState 2) = 1 ∧ sealKey (owned Port.init) 2 = none :=
  ⟨by decide, by decide, by decide, by decide, by decide, rfl, by decide, rfl⟩

/-! ## Collectives and buckets -/

/-- A bucket of two FP32 values of group 0, whose owner is rank `o`, as FP32 on the wire and in Stock. -/
def buck (o : Nat) : Bucket :=
  { group := 0, ifmt := 9, wire := 9, auto := true, bytes := 8, fill := 8, addr := 4096, stage := 0, segs := [{ owner := o, ofmt := 9, offset := 0, len := 8, dest := 64 }] }

/-- Device 5 of the job of two with two such buckets, with some tokens and progress. -/
def reducing (tokens : Nat) (r : BucketRun) (wait : List Nat) : State :=
  { (linked Port.init).put Reg.netTokensHeld tokens with
    net := { (linked Port.init).net with buckets := [(0, r)], tokenWait := wait, routes := [(9, 2 + 2 ^ 12)] }
    bucketFill := [(0, 8), (1, 8)], billet := some { bil2 with buckets := [buck 0, buck 1], bucketWindow := 1024, streams := [{ dev := 5, id := 3, kind := 1, index := 0 }] } }

/-- Device 5 with its own vector in the all-reduce of a group of members. -/
def summing (l : List Nat) (own : Option (List Nat × Nat)) (kids : List (Nat × List Nat × Nat)) : State :=
  { linked Port.init with billet := some { bil2 with groups := [l] }, net := { Net.init with allReduce := [{ group := 0, own := own, kids := kids, sent := false, result := none }] } }

theorem witness_CollectivesCombine : (summing [5, 9] none []).alive = true ∧ 5 ∈ groupOf (summing [5, 9] none []) 0 ∧
    9 ∈ groupOf (summing [5, 9] none []) 0 ∧ (summing [5, 9] none []).cad.want = none ∧ (summing [5, 9] none []).addr = 5 ∧
    ((groupOf (summing [9, 5] none []) 0).idxOf 5 = 1 ∧ (groupOf (summing [9, 5] none []) 0).idxOf 9 = 0) ∧
    (groupOf (summing [5, 8, 9] (some ([0, 1], 2)) [(1, [3], 4)]) 0).length = 3 ∧
    (groupOf (summing [5, 8, 9] (some ([0, 1], 2)) [(1, [3], 4)]) 0).idxOf 9 = 2 := by decide
theorem witness_BucketsReduce : (reducing 1 BucketRun.init []).alive = true ∧ (reducing 1 BucketRun.init []).cad.want = none ∧
    bucketAt (reducing 1 BucketRun.init []) 0 = some (buck 0) ∧ bucketFilled (reducing 1 BucketRun.init []) 0 = true ∧
    (reducing 1 BucketRun.init []).get Reg.netTokensHeld = 1 ∧ (reducing 0 BucketRun.init []).get Reg.netTokensHeld = 0 ∧
    relRank 2 0 0 = 0 ∧ kidsOf 2 0 = [1] := by decide
theorem witness_CollectivesCombine_child : ((summing [5, 8, 9] (some ([0, 1], 2)) [(1, [3], 4)]).reduceOf 0).own = some ([0, 1], 2) ∧
    (∀ c ∈ kidsOf 3 0, ∃ k ∈ [(1, [3], 4), (2, [7], 1)], k.1 = c) ∧ (∃ c ∈ kidsOf 3 0, ∀ k ∈ [(2, [7], 1)], k.1 ≠ c) := by decide
theorem witness_BucketsReduce_stage : ∃ u, (reducing 1 BucketRun.init []).billet.bind
    (fun b => b.streams.find? (fun u => u.dev == 5 && u.id == 3 && u.kind == 1)) = some u ∧ u.index = 0 := ⟨_, rfl, rfl⟩
theorem witness_BucketsReduce_complete :
    bucketSent (reducing 0 { BucketRun.init with launched := true, combined := [(0, 0)] } [1]) 0 = true ∧
    (bucketRun (reducing 0 { BucketRun.init with launched := true, combined := [(0, 0)] } [1]) 1).launched = false ∧
    bucketAt (reducing 0 BucketRun.init [1]) 1 = some (buck 1) := by decide

/-! ## Bloom -/

/-- A RAW stream of 2 by 2 pixels of one channel in BF16, over Ethernet or the fabric. -/
def bst (eth : Bool) : BloomStream :=
  { stream := 3, kind := 0, ethernet := eth, die := 0, mem := 1, feeder := 0, iface := 1, ofmt := 0, ch3 := false, colour := 0, full := false
    outW := 2, outH := 2, outF := 1, b := 1, mbs := 1, mean := [0], scale := [0], maxCoded := 64, maxRatio := 1, lead := 4, reserve := 1
    nbuf := 1, consDesc := 0, window := 256, bufAddr := 8192, resAddr := 16384, ringAddr := 0 }

/-- A sample asked for with some bytes landed. -/
def smp (i : Nat) (req : Bool) (bytes : List Byte) (tot : Option Nat) : Sample :=
  { index := i, requested := req, bytes := bytes, total := tot, engine := none, tries := 0 }

/-- The slot that is to hold index 1, and the spare of index 0. -/
def fill1 (sp : Option Nat) : Fill := { step := 0, mb := 0, slot := 0, index := 1, done := false, early := false, skipped := none, spare := sp }
def spare0 (done taken : Bool) : Spare := { index := 0, place := some 0, done := done, taken := taken }

/-- A device with the stream. -/
def feeding (eth : Bool) (b : BStream) : State :=
  { (linked Port.init).put Reg.netCtrlSeal 0 with billet := some { bil2 with bloom := [bst eth], feeders := [9] }, blmStreams := [3], blm := { Bloom.init with
      streams := [(0, b)], feeders := [(0, { FeederLink.init with hello := true, keyed := true, txNonce := 4 })] }, net := { Net.init with routes := [(9, 2 + 2 ^ 12)] } }

/-- The stream's state with samples, one slot and one spare. -/
def bs (l : List Sample) (f : Fill) (p : Spare) : BStream :=
  { BStream.init with cursor := { Cursor.zero with base := 1, next := 2, reserve := [0] }, fills := [f], spares := [p], samples := l }

/-- A frame of the stream. -/
def bfrm (index offset : Nat) : BloomFrame := { version := 1, stream := 3, index := index, offset := offset, total := 8, nonce := 6, tagOk := true }

/-- The state in which index 1 has landed. -/
def landed8 : State := feeding true (bs [smp 1 true (leBytes 8 0x1122334455667788) (some 8)] (fill1 none) (spare0 false false))

theorem witness_FeedersAreAsked : (feeding true (bs [smp 1 false [] none, smp 2 false [] none] (fill1 none) (spare0 true false))).alive = true ∧
    bloomAt (feeding true (bs [smp 1 false [] none] (fill1 none) (spare0 true false))) 0 = some (bst true) ∧
    ((feeding true (bs [] (fill1 none) (spare0 true false))).feeder 0).hello = true ∧
    leadingRun (min 256 4) (unrequested (bs [smp 1 false [] none, smp 2 false [] none] (fill1 none) (spare0 true false))) = [1, 2] ∧
    (smp 1 true [4] (some 8)).landed = false ∧
    (State.reset.feeder 0).hello = false ∧ bloomAt State.reset 0 = none ∧
    ((feeding false (bs [] (fill1 none) (spare0 true false))).put Reg.netCtrlSeal 1).portTo 9 = some 2 := by decide
theorem witness_FeedersAreAsked_absent : entryOf landed8 3 = some (0, bst true) ∧ entryOf landed8 4 = none ∧
    frameStale landed8 (bst true) (bfrm 1 0) = false ∧ (∃ x ∈ (landed8.bstream 0).samples, x.index = 1 ∧ x.requested = true) ∧
    (feeding false (bs [] (fill1 none) (spare0 true false))).routePort 9 false = some (2, false) := by decide
theorem witness_SamplesLand : landed8.alive = true ∧ (smp 1 true (leBytes 8 0) (some 8)).landed = true ∧
    (landed8.bstream 0).samples.find? (fun x => x.index == 1 && x.requested) = some (smp 1 true (leBytes 8 0x1122334455667788) (some 8)) ∧
    headerOk (bst true) (bfrm 1 0) { supported := false, width := 0, height := 0, frames := 0 } = true ∧
    headerOk (bst true) { bfrm 1 0 with total := 9 } { supported := false, width := 0, height := 0, frames := 0 } = false ∧
    landed8.domUp 14 = true ∧ ringHas (bst true) ⟨1, true⟩ = true ∧ sampleRows (bst true) [3] = none ∧ landed8.ownsBuffer (bst true) 0 (fill1 none) = true ∧
    sampleRows (bst true) (leBytes 8 0x1122334455667788) = some [leBytes 4 0x55667788, leBytes 4 0x11223344] := by decide
theorem witness_SamplesLand_spare :
    (bs [] (fill1 (some 0)) (spare0 true true)).fills.find? (fun f => f.spare == some 0 && !f.done) = some (fill1 (some 0)) ∧
    (bs [smp 0 true (leBytes 8 7) (some 8)] (fill1 none) (spare0 false false)).spares.find? (fun p => p.index == 0) = some (spare0 false false) := by
  decide

/-! ## Ingots and bays -/

/-- A cartridge that vouches for itself, with a label. -/
def cart (l : Option CartLabel) : Cart :=
  { width := 8, speed := 5, idOk := true, lifeOk := true, written := 4096, rated := 40000000, zones := 5, cap := 128, label := l, gens := [], last := 0 }

/-- A record of bay 0 in zone 1, and a generation with records in flight. -/
def irec (seq : Nat) : IngRec := { bay := 0, zone := 1, seq := seq, kind := 2, payload := [1, 2] }
def genr (todo flight : List IngRec) (flushing : List Nat) : GenRun :=
  { gen := 4, step := 3, policy := 3, salt := 0, bays := [0], pair := false, image := none, capture := false, todo := todo, flight := flight, flushing := flushing }

/-- A device that writes a generation on bay 0. -/
def writing (g : GenRun) : State :=
  ({ linked Port.init with ing := { (linked Port.init).ing with carts := [(0, cart (some { job := 11, addr := 5, tagOk := true }))], cur := some g } }).put (Reg.ingBayStateCode 0) 7

/-- A device with bay 0 in a state, with or without the job seed. -/
def bay0 (code : Nat) (c : Option Cart) (seed : Option Nat) : State :=
  { (linked Port.init).put (Reg.ingBayStateCode 0) code with seed := seed, ing := { (linked Port.init).ing with carts := (c.map (fun x => (0, x))).toList } }

/-- A device whose bay 0 has lost a MIRROR generation's company: the other bay's Flush has completed, or has not. -/
def mirror (todo flight : List IngRec) (flushing : List Nat) : State :=
  writing { genr todo flight flushing with policy := 2, bays := [0, 1] }

theorem witness_GenerationsAreWritten : (linked Port.init).ing.cur = none ∧ (writing (genr [] [irec 2] [])).alive = true ∧
    (genr [] [irec 2] []).flight.find? (fun r => r.bay == 0 && r.seq == 2) = some (irec 2) ∧
    ((writing (genr [] [irec 2] [])).captureChecks []).captureBad (genr [] [irec 2] []) = false ∧
    { writing (genr [] [irec 2] []) with sys := Sys.init }.alive = false ∧ 0 ∈ (genr [] [] [0]).flushing ∧
    (genr [] [] [0]).flushing.filter (fun x => x != 0) = [] ∧ (genr [] [] [0, 1]).flushing.filter (fun x => x != 0) ≠ [] ∧
    0 ∈ (genr [] [] [0]).bays ∧ (writing (genr [] [] [0])).bayCode 0 = 7 := by decide
theorem witness_GenerationFailsOnPoison :
    ((({ writing (genr [] [irec 2] []) with stockPoison := [tgroup.w / 64], billet := some { bil2 with temper := tplan [] } }).captureChecks []).captureBad
      (genr [] [irec 2] [])) = true := by decide
theorem witness_CartridgesComeAndGo : (bay0 2 none none).domUp 13 = true ∧ (bay0 2 none none).bayCode 0 = 2 ∧ (bay0 2 none none).cart? 0 = none ∧
    (bay0 4 (some (cart none)) (some 9)).cart? 0 = some (cart none) ∧ (bay0 4 (some (cart none)) (some 9)).life ≠ .running ∧
    (bay0 4 (some (cart none)) (some 9)).alive = true ∧ ((bay0 6 (some (cart none)) none).put (Reg.ingBayCtrlEject 0) 1).flag (Reg.ingBayCtrlEject 0) = true := by
  decide
theorem witness_BayLost : (∀ g ∈ (mirror [] [] [0]).ing.cur, g.policy = 2 ∧ g.bays.length = 2 ∧ g.flushing ≠ [] ∧ g.flushing.filter (fun x => x != 0) = []) ∧
    (∀ g ∈ (mirror [] [irec 2] []).ing.cur, 0 ∈ g.bays ∧ g.flushing = []) := by decide

/-- A group of 4 parameters with AdamW in Stock, at its arrays' addresses. -/
def grp : TmpGroup := { tgroup with count := 4, w := 0x400, m := 0x440, v := 0x480, g := 0x500 }

/-- An ingot of step 3 with W of one group. -/
def image : IngotImage := { digest := 12, shardStep := 7, arrays := [(1, 0, leBytes 16 0x1122334455667788)], head := 1, journal := [], cursors := [] }

/-- A generation of it on bay 0. -/
def gen3 : Gen := { job := 11, addr := 5, gen := 9, step := 3, complete := true, pair := false, capture := false, first := 1, zones := 1, records := 3, image := some image }

/-- A device that restores, with RESTORE running. -/
def restoring (role : Role) (r : RestoreRun) (gens : List Gen) : State :=
  { (bay0 6 (some { cart (some { job := 11, addr := 5, tagOk := true }) with gens := gens }) (some 9)) with
    cad := { Cad.init with role := role, mOn := role == .master, master := 5 }
    billet := some { bil2 with temper := { bil2.temper with groups := [grp] } }
    ing := { (bay0 6 (some { cart (some { job := 11, addr := 5, tagOk := true }) with gens := gens }) (some 9)).ing with restore := some r }
    mbx := { Mbx.init with slots := [cmdSlot 0x0108 2 []], queue := [3], running := some 3 } }

/-- A restore with reports and a step chosen. -/
def rrun (reports : List (Nat × List (Nat × Nat))) (chosen : Option Nat) : RestoreRun :=
  { want := none, reports := reports, unusable := [], chosen := chosen, loaded := false }

/-- A device in which a scrub runs for a cause. -/
def scrubbing (l : Life) (why : Nat) : State := { (upIn l).put Reg.cruScrubBusy 1 with cru := { Cru.init with scrubFor := why }, hbm := Memory.empty.writeLE 64 4 99 }

/-- The same with a replay in place of the restore. -/
def replaying : State :=
  { (restoring .follower (rrun [] (some 3)) [gen3]) with
    ing := { (restoring .follower (rrun [] (some 3)) [gen3]).ing with replay := some { step := 3, stop := 0, image := [], gen := none } }
    mbx := { Mbx.init with slots := [cmdSlot 0x0203 2 []], queue := [3], running := some 3 } }

theorem witness_IngotIsRestored : (restoring .master (rrun [(5, [(3, 5), (3, 9)])] none) [gen3]).cadUp = true ∧
    (restoring .master (rrun [(5, [(3, 5), (3, 9)])] none) [gen3]).masters = true ∧
    (restoring .master (rrun [(5, [(3, 5), (3, 9)])] none) [gen3]).devices = [5, 9] ∧
    (restoring .follower (rrun [] (some 3)) [gen3]).copies 3 = [(0, gen3)] ∧ (restoring .follower (rrun [] (some 3)) []).copies 3 = [] ∧
    RunningCmd (restoring .follower (rrun [] (some 3)) [gen3]) (cmdSlot 0x0108 2 []) ∧ replaying.copies 3 = [(0, gen3)] ∧
    RunningCmd replaying (cmdSlot 0x0203 2 []) ∧ PlanApart { bil2.temper with groups := [grp] } ∧
    (image.arrays.map (fun x => (x.1, x.2.1))).Nodup ∧ State.arrayAddr { bil2.temper with groups := [grp] } 1 0 = some 0x400 := by decide
theorem witness_MemoriesAreScrubbed : (scrubbing .blank 1).alive = true ∧ (scrubbing .blank 1).get Reg.cruScrubBusy = 1 ∧
    (scrubbing .blank 1).scrubUp = true ∧ (scrubbing .blank 1).smithUp = true ∧ (scrubbing .blank 1).headOf srcCrucible = none ∧
    up.sys.booted = true ∧ up.get Reg.cruScrubBusy ≠ 1 ∧ up.life ≠ .running := by decide

/-! ## Faults -/

/-- A message of a source, and a device in which messages wait. -/
def msg (src kind cls : Nat) : FaultMsg := { addr := 7, kind := kind, cls := cls, source := src, forced := false, angle := 0, attempt := 0 }
def waiting (l : List Life) (q : List FaultMsg) : State := { upIn (l.headD .claimed) with faultQ := q, seed := some 3 }

/-- A device whose legacy pairs are sampled, with pair 1 in fault. -/
def legacy (st wi : Nat) (win : Bool) : State :=
  { (((up.put Reg.fltLegacyEn 1).put Reg.fltLegacyState st).put Reg.fltLegacyWire wi) with sys := { up.sys with window := win } }

theorem witness_FaultsAreCollected : (waiting [] [msg 3 2 1, msg 0x260 0x50 2, msg 3 1 2]).domUp 2 = true ∧
    (waiting [] [msg 3 2 1, msg 0x260 0x50 2, msg 3 1 2]).nextMsg [3, 0x260] = some (msg 0x260 0x50 2) ∧
    (waiting [] [msg 3 2 1]).nextMsg [0x260] = none ∧ (waiting [] [msg 0x290 0x73 3]).nextMsg [0x290] = some (msg 0x290 0x73 3) ∧
    (waiting [] [msg 0x2C0 0x7D 2]).nextMsg [0x2C0] = some (msg 0x2C0 0x7D 2) ∧ (waiting [] [msg 0x2A0 0x78 2]).nextMsg [0x2A0] = some (msg 0x2A0 0x78 2) ∧
    (waiting [.running] [msg 0xF01 0xE0 2]).life = .running ∧ (waiting [] [{ msg 5 2 1 with forced := true }]).nextMsg [5] = some { msg 5 2 1 with forced := true } ∧
    kindClass (waiting [] [msg 5 1 1]) 5 2 = some 2 ∧
    (waiting [] []).get Reg.fltCtrlUFatal ≠ 1 ∧ (waiting [] []).life ≠ .quench ∧ (waiting [.quench] []).life = .quench := by decide
theorem witness_FaultInputsAct : kindClass up 5 0x7E = none ∧ kindClass up 5 2 = some 2 ∧ legacySource 0xF01 = true ∧ State.reset.domUp 2 = false ∧
    (legacy 2 4 true).get Reg.fltLegacyEn = 1 ∧ bit ((legacy 2 4 true).get Reg.fltLegacyState) 1 = true ∧
    bit ((legacy 2 4 true).get Reg.fltLegacyWire) 2 = true ∧ (legacy 2 4 true).sys.window = true ∧ (legacy 2 4 false).sys.window = false ∧
    (∀ k, k < 4 → (legacy 2 4 true).waitingFrom (srcLegacy k) < 16) ∧
    ((running .master cad3).alive = true ∧ (running .master cad3).inJob = true ∧ (running .master cad3).roster.length = 1) ∧
    (running .master cad3).mbx.halts = [] ∧ (running .master cad3).mbx.running = none := by decide

/-! ## Power, heat and resets -/

/-- A device with its rails on, in power-on reset with CORE_RESET_N low. -/
def powering : State := { State.reset with sys := { Sys.init with rails := true, asserted := [{ bit := 3, clock := none, level := 1 }] } }

/-- A device that is up, with a sensor's reading. -/
def warm (k t : Nat) : State := { up with sys := { up.sys with temps := (List.replicate 14 40).set k t } }

/-- A device that waits for the release of domain 1, with the boot chain due. -/
def booting : State := { State.reset with sys := { Sys.init with rails := true, por := false, good := allDomains, held := [0, 1, 8, 13] } }

/-- A stack whose patrol stands, and a device whose last domain of the core reach waits, with a job to resume. -/
def patrolling : State := (up.put (Reg.hbmPatrolEn 5) 1).put (Reg.hbmStateMode 5) 2
def resuming : State :=
  { running .idle cad3 with
    sys := { (running .idle cad3).sys with held := [10], good := allDomains }
    cad := { (running .idle cad3).cad with active := false, resume := some (angleOf 5 0) } }

theorem witness_PowerAndHeatAreWatched : (State.reset.sys.rails = false ∧ powering.sys.rails = true ∧ powering.sys.por = true ∧ up.sys.por = false ∧
      powering.domUp 2 = false ∧ up.domUp 2 = true) ∧
    ((warm 3 94).tempOf 3 < warnAt 3 ∧ (warm 3 100).tempOf 3 < tripAt 3 ∧ (warm 3 100).waitingFrom (srcTherm 3) < 15 ∧ (warm 3 94).sys.temps.length = 14) ∧
    (up.smithUp = true ∧ (up.put Reg.rstCtrlWdtEn 1).get Reg.rstCtrlWdtEn = 1 ∧ up.wdtPeriod ≤ 60000) ∧
    (patrolling.domUp 9 = true ∧ patrolling.get (Reg.hbmPatrolEn 5) = 1 ∧ patrolling.get (Reg.hbmStateMode 5) = 2 ∧
      5 * stackGranules ∉ patrolling.hbmPoison ∧ 5 * stackGranules < 8 * stackGranules ∧ patrolling.get (Reg.hbmPatrolPos 5) = 0 ∧
      up.domUp 12 = true ∧ up.sys.stockSelf = false ∧ 0 < stackGranules) ∧
    (∀ k, k < 14 → (List.replicate 14 40).getD k 0 < warnAt k) := by decide
theorem witness_ResetsReachDomains : (up.life ≠ .quench ∧ up.sys.por = false ∧ (∀ y ∈ up.sys.asserted, y.level ≠ 2) ∧ ∃ d ∈ coreReach, up.domUp d = true) ∧
    (5 ∈ up.sys.good ∧ 5 ∈ up.sys.wasUp ∧ up.waitingFrom srcClock ≤ 4 ∧ 18 ∈ up.sys.good) ∧ (5 ∈ booting.sys.good ∧ 5 ∉ booting.sys.wasUp) ∧
    5 ∉ powering.sys.good ∧ (booting.canRelease 0 = true ∧ booting.canRelease 1 = true ∧ booting.sys.bootDue = true) ∧
    (resuming.canRelease 10 = true ∧ 10 ∉ resuming.sys.held.erase 10 ∧ resuming.sys.booted = true ∧ resuming.billet.isSome = true ∧
      resuming.cad.resume = some (angleOf 5 0)) := by decide
theorem witness_ResetsReachDomains_remote : (linked Port.init).portUp 2 = true ∧ (linked Port.init).domUp 2 = true ∧ (linked Port.init).inJob = true ∧
    (((linked Port.init).put (Reg.fabSealState 2) 2).put Reg.rstCtrlRemoteEn 1).get (Reg.fabSealState 2) = 2 ∧ (linked Port.init).addr = 5 := by decide

/-! ## The service side and the register space -/

/-- A device unlocked for debug, whose MEMWIN of bank `k` points at a place. -/
def window (k space lo hi : Nat) : State :=
  (up.put Reg.cruStatusDebug 1).setBank k { Bank.init with memLo := lo, memHi := hi, memSpace := space }

/-- A device with a Summary and a last TAP access. -/
def scanned : State :=
  { window 1 0 0x1234 0 with sys := { (window 1 0 0x1234 0).sys with
    summary := some (up.summarize 4800 20 900 [40, 41])
    tap := { instr := .bypass, scan := 0xABCDE, last := some (true, 0x20, 7) } } }

/-- Four bytes of a word. -/
def word4 (v : Nat) : List Byte := leBytes 4 v

/-- A device of a claimed owner whose session 1 reads and writes registers. -/
def ownerUp : State := { up with life := .claimed, mbx := { Mbx.init with sessions := [{ ses with level := 2, num := 1 }] } }

theorem witness_ServiceSideAnswers : (State.reset.smbusUp = false ∧ State.reset.domUp 3 = false) ∧ (up.smbusUp = true ∧ up.sys.summary = none) ∧
    (scanned.smbusUp = true ∧ scanned.sys.summary.isSome = true) ∧ (up.domUp 1 = true ∧ up.domUp 2 = true) ∧
    (({ up with sys := { up.sys with held := [1] } } : State).smbusUp = true ∧ ({ up with sys := { up.sys with held := [1] } } : State).domUp 1 = false) := by decide
theorem witness_ServiceSideAnswers_tap : (scanned.domUp 3 = true ∧ scanned.life ≠ .running ∧ scanned.life ≠ .quench) ∧
    ({ scanned with life := .quench } : State).domUp 3 = true ∧ (scanned.flag Reg.cruStatusDebug = true ∧ scanned.domUp 2 = true ∧ up.flag Reg.cruStatusDebug = false) ∧
    (({ scanned with sys := { scanned.sys with held := [2] } } : State).domUp 2 = false ∧ ({ scanned with sys := { scanned.sys with held := [2] } } : State).domUp 3 = true) ∧
    (fieldsAt 0x7F0000 = [] ∧ strikeAddr 0x7F0000 = false) := by decide
theorem witness_RegistersAreAccessed_write : up.pathLevel 0 true = some .firmware ∧ scanned.pathLevel 1 true = some .debug ∧ ownerUp.pathLevel 3 true = some .owner ∧
    up.pathLevel 1 true = none ∧ up.pathLevel 1 false = none ∧ (fieldsAt 0x7F0000 = [] ∧ strikeAddr 0x7F0000 = false) ∧
    (strikeAddr 0x40 = false ∧ fieldsAt 0x40 ≠ [] ∧ ∀ f ∈ fieldsAt 0x40, Level.owner.rank < f.wr.rank) ∧
    { scanned with billet := some bil }.billet.isSome = true ∧ up.get (causeFld 7) < 2 := by decide
theorem witness_RegistersAreAccessed_read : up.pathLevel 0 false = some .firmware ∧
    ((∃ f ∈ fieldsAt 0x20028, f.acc = .rc) ∧ (∀ f ∈ fieldsAt 0x20028, f.rd.rank ≤ Level.firmware.rank) ∧ isLo 0x20028 = false ∧ strikeAddr 0x20028 = false) ∧
    (isLo 0x20008 = true ∧ fieldsAt 0x20008 ≠ [] ∧ ∀ f ∈ fieldsAt 0x20008, f.rd.rank ≤ Level.firmware.rank) ∧
    ((∃ f ∈ fieldsAt 0x30, f.acc = .rc) ∧ (∃ f ∈ fieldsAt 0x30, Level.owner.rank < f.rd.rank) ∧ isLo 0x30 = false) ∧
    (isLo 0x44 = true ∧ ∃ f ∈ fieldsAt 0x44, Level.owner.rank < f.rd.rank) ∧ isLo 0x20028 = false ∧ ∀ f ∈ fieldsAt 0x20, f.acc ≠ .rc := by
  refine ⟨by decide, ⟨⟨Reg.fltTotalC, by decide, by decide⟩, by decide, by decide, by decide⟩, by decide,
    ⟨⟨Reg.idRefused, by decide, by decide⟩, ⟨Reg.idRefused, by decide, by decide⟩, by decide⟩, ⟨by decide, ?_⟩, by decide, by decide⟩
  exact ⟨Reg.idMemwinAddrLo, by decide, by decide⟩
theorem witness_RegistersAreAccessed_window : (window 0 1 0x1234 0).pathLevel 0 false = some .firmware ∧ (((window 0 1 0x1234 0).bank 0).memSpace < 2 ∧ (0x1234 : Nat) < hearthBytes) ∧
    (((window 0 2 0x1234 0).bank 0).memSpace = 2 ∧ (0x1234 : Nat) < hbmBytes) ∧ ((window 0 3 0x1234 0).bank 0).memSpace = 3 ∧
    hearthBytes ≤ 64 * 2 ^ 32 ∧ 4 ≤ ((window 0 5 0 0).bank 0).memSpace := by decide
theorem witness_RegistersAreAccessed_command :
    Starts (cmdState .claimed (cmdSlot 0x0304 1 [0, 0, 0, 0, 1, 0])) 3 0x0304 (cmdSlot 0x0304 1 [0, 0, 0, 0, 1, 0]) ∧
    Starts (cmdState .claimed (cmdSlot 0x0304 1 [1, 0, 0, 0, 1, 0])) 3 0x0304 (cmdSlot 0x0304 1 [1, 0, 0, 0, 1, 0]) ∧
    Starts (cmdState .claimed (cmdSlot 0x0305 2 ([0x20, 0, 0, 0, 1, 0, 0, 0] ++ word4 77))) 3 0x0305
      (cmdSlot 0x0305 2 ([0x20, 0, 0, 0, 1, 0, 0, 0] ++ word4 77)) ∧
    Starts (cmdState .claimed (cmdSlot 0x0305 2 [0x22, 0, 0, 0, 1, 0])) 3 0x0305 (cmdSlot 0x0305 2 [0x22, 0, 0, 0, 1, 0]) := by decide

/-! ## The machine -/

theorem witness_MemoryStaysCanonical : up.memOk = true ∧ step { up with pending := [.fabRetrain 2] } = exec (.fabRetrain 2) up := by
  exact ⟨by decide, rfl⟩
theorem witness_MemoryStaysCanonical_next : ({ up with hbm := up.hbm.writeLE 64 4 7 } : State).memOk = true ∧
    step { up with hbm := up.hbm.writeLE 64 4 7 } = .next { up with hbm := up.hbm.writeLE 64 4 7 } := ⟨by decide, rfl⟩
theorem test_decode_none : decodeTableWord 8 0 = none ∧ State.reset.withFetchWord 8 0 = State.reset := ⟨rfl, rfl⟩
end Sys2Proof.Tests
end

section
/-!
SUPPORT. Proofs: what the sending of packets changes of a device (R319, R320). It moves the ports, the outputs and the counters of
packets sent; the Cadence, the faults raised and everything else stay. -/

namespace Sys2Proof.Machine

/-- The counters of packets sent, VC[v].TX_PKTS of every port. -/
def txPktRegs : List Fld := (List.range 12).flatMap (fun p => (List.range 4).map (Reg.fabVcTxPkts p))

/-- The counters of packets sent lie in the fabric block. -/
theorem txPktRegs_key_fabric {f : Fld} (h : f ∈ txPktRegs) : 0x100000 * 32 ≤ f.key ∧ f.key < 0x110000 * 32 := by
  simp only [txPktRegs, List.mem_flatMap, List.mem_map, List.mem_range] at h
  obtain ⟨p, hp, v, hv, rfl⟩ := h
  simp only [Fld.key, Reg.fabVcTxPkts, fld]
  omega

/-- From `s` to `t` the device has done no more than send packets. -/
structure SendsOnly (s t : State) : Prop where
  regs : SameRegsBut txPktRegs s t
  rest : { t with regs := s.regs, ports := s.ports, out := s.out } = s

namespace SendsOnly

theorem refl (s : State) : SendsOnly s s := ⟨SameRegsBut.refl _ s, rfl⟩

/-- What is sent in two steps. -/
theorem trans {r s t : State} (h : SendsOnly r s) (k : SendsOnly s t) : SendsOnly r t where
  regs := h.regs.trans k.regs
  rest := by
    have e : { t with regs := r.regs, ports := r.ports, out := r.out } =
        { ({ t with regs := s.regs, ports := s.ports, out := s.out } : State) with
          regs := r.regs, ports := r.ports, out := r.out } := rfl
    rw [e, k.rest, h.rest]

theorem setPort {s t : State} (h : SendsOnly s t) (p : Nat) (x : Port) : SendsOnly s (t.setPort p x) := h.trans ⟨fun _ _ => rfl, rfl⟩

theorem emit {s t : State} (h : SendsOnly s t) (o : Out) : SendsOnly s (t.emit o) := h.trans ⟨fun _ _ => rfl, rfl⟩

theorem count {s t : State} (h : SendsOnly s t) {f : Fld} (hf : f ∈ txPktRegs) : SendsOnly s (t.count f) :=
  h.trans ⟨(SameRegsBut.refl _ t).count f 1 hf, rfl⟩

theorem foldl {α : Type} {f : State → α → State} (hf : ∀ t a, SendsOnly t (f t a)) (l : List α) (s : State) :
    SendsOnly s (l.foldl f s) := by
  induction l generalizing s with
  | nil => exact refl s
  | cons a l ih => exact (hf s a).trans (ih _)

theorem cad {s t : State} (h : SendsOnly s t) : t.cad = s.cad := (congrArg State.cad h.rest :)

theorem faultQ {s t : State} (h : SendsOnly s t) : t.faultQ = s.faultQ := (congrArg State.faultQ h.rest :)

theorem addr {s t : State} (h : SendsOnly s t) : t.addr = s.addr := h.regs Reg.netStatusAddr (by decide)

end SendsOnly

namespace State

theorem sendFrame_sendsOnly (s : State) (p kind : Nat) (nak : Bool) (seq : Nat) (pk : Option Packet) (part : Nat) :
    SendsOnly s (s.sendFrame p kind nak seq pk part) := by
  refine (SendsOnly.setPort ?_ _ _).emit _
  split
  · exact (SendsOnly.refl s).emit _
  · exact SendsOnly.refl s

theorem sendFrames_sendsOnly (s : State) (p : Nat) (pk : Packet) (off k : Nat) : SendsOnly s (s.sendFrames p pk off k) := by
  induction k generalizing s off with
  | zero => exact (SendsOnly.refl s).setPort _ _
  | succ k ih =>
    unfold sendFrames
    dsimp only
    split
    · exact (SendsOnly.refl s).setPort _ _
    · exact (((SendsOnly.refl s).setPort _ _).trans (sendFrame_sendsOnly ..)).trans (ih ..)

theorem goOut_sendsOnly (s : State) {p : Nat} (hp : p < 12) (pk : Packet) : SendsOnly s (s.goOut p pk) := by
  have hf : Reg.fabVcTxPkts p ((s.hopPacket p pk).vc % 4) ∈ txPktRegs := by
    simp only [txPktRegs, List.mem_flatMap, List.mem_map, List.mem_range]
    exact ⟨p, hp, _, Nat.mod_lt _ (by decide), rfl⟩
  unfold goOut
  dsimp only
  split
  · exact SendsOnly.refl s
  · exact (((SendsOnly.refl s).setPort _ _).count hf).trans (sendFrames_sendsOnly ..)

theorem pumpPort_sendsOnly (s : State) {p : Nat} (hp : p < 12) (k : Nat) : SendsOnly s (s.pumpPort p k) := by
  induction k generalizing s with
  | zero => exact SendsOnly.refl s
  | succ k ih =>
    unfold pumpPort
    split
    · exact SendsOnly.refl s
    · exact (((SendsOnly.refl s).setPort _ _).trans (goOut_sendsOnly _ hp _)).trans (ih _)

theorem sendRest_sendsOnly (s : State) (p : Nat) : SendsOnly s (s.sendRest p) := by
  unfold sendRest
  split
  · split
    · exact SendsOnly.refl s
    · exact sendFrames_sendsOnly ..
  · exact SendsOnly.refl s

theorem sendOn_sendsOnly (s : State) {p : Nat} (hp : p < 12) (pk : Packet) : SendsOnly s (s.sendOn p pk) :=
  (((SendsOnly.refl s).setPort _ _).trans (sendRest_sendsOnly ..)).trans (pumpPort_sendsOnly _ hp _)

/-- The port to a member is one of the twelve. -/
theorem portTo_lt {s : State} {a p : Nat} (h : s.portTo a = some p) : p < 12 :=
  List.mem_range.mp (List.mem_of_find?_eq_some h)

theorem sendChildren_sendsOnly (s : State) (m : CadMsg) : SendsOnly s (s.sendChildren m) := by
  refine SendsOnly.foldl (fun t a => ?_) _ s
  split
  next p hp => exact sendOn_sendsOnly t (portTo_lt hp) _
  next => exact SendsOnly.refl t

/-- A message of the master leaves its device as it was, but for what it sends (R320). -/
theorem broadcast_sendsOnly (s : State) (m : CadMsg) : SendsOnly s (s.broadcast m) := (sendChildren_sendsOnly s m).emit _

/-- The master takes its own message last (R59). -/
@[simp] theorem broadcast_out_getLast? (s : State) (m : CadMsg) : (s.broadcast m).out.getLast? = some (.own m) :=
  List.getLast?_concat

@[simp] theorem broadcast_cad (s : State) (m : CadMsg) : (s.broadcast m).cad = s.cad := (broadcast_sendsOnly s m).cad

@[simp] theorem broadcast_faultQ (s : State) (m : CadMsg) : (s.broadcast m).faultQ = s.faultQ := (broadcast_sendsOnly s m).faultQ

/-- A source of which fewer than 16 messages wait raises its fault (R457). -/
theorem raise_of_room {s : State} {src : Nat} (kind cls addr : Nat) (h : s.waitingFrom src < 16) :
    s.raise src kind cls addr = { s with faultQ := s.faultQ ++ [s.faultMsg src kind cls addr false] } :=
  if_neg (Nat.not_le.mpr h)

end State

/-! ## The frame of the Cadence -/

namespace OnlyCad

theorem trans {l : List Fld} {r s t : State} (h : OnlyCad l r s) (k : OnlyCad l s t) : OnlyCad l r t := by
  obtain ⟨hr, he⟩ := h
  obtain ⟨kr, ke⟩ := k
  have e : { t with regs := r.regs, cad := r.cad, ports := r.ports, faultQ := r.faultQ, out := r.out } =
      { ({ t with regs := s.regs, cad := s.cad, ports := s.ports, faultQ := s.faultQ, out := s.out } : State) with
        regs := r.regs, cad := r.cad, ports := r.ports, faultQ := r.faultQ, out := r.out } := rfl
  exact ⟨fun f hf hl => (kr f hf hl).trans (hr f hf hl), by rw [e, ke, he]⟩

theorem mono {l m : List Fld} {s t : State} (h : OnlyCad l s t) (hs : l ⊆ m) : OnlyCad m s t :=
  ⟨fun f hf hl => h.1 f hf (fun g hg => hl g (List.append_subset.mpr
    ⟨List.subset_append_left _ _, List.subset_append_of_subset_right _ hs⟩ hg)), h.2⟩

/-- A register outside the fabric block that is not listed, and tells of no dropped fault message. -/
theorem get {l : List Fld} {s t : State} (h : OnlyCad l s t) {f : Fld} (hf : f.key < 0x100000 * 32 ∨ 0x110000 * 32 ≤ f.key)
    (hl : ∀ g ∈ dropRegs ++ l, f.key ≠ g.key) : t.get f = s.get f := h.1 f hf hl

/-- Another Cadence, and other faults that wait. -/
theorem set (s : State) (c : Cad) (q : List FaultMsg) : OnlyCad [] s { s with cad := c, faultQ := q } := ⟨fun _ _ _ => rfl, rfl⟩

/-- A count in a listed register. -/
theorem count (s : State) (f : Fld) (k : Nat) : OnlyCad [f] s (s.count f k) :=
  ⟨fun _ _ hl => State.get_put_ne s _ (hl f (by simp)), rfl⟩

theorem of_sendsOnly {s t : State} (h : SendsOnly s t) : OnlyCad [] s t := by
  refine ⟨fun f hf _ => h.regs f (fun g hg e => ?_), ?_⟩
  · have := txPktRegs_key_fabric hg
    omega
  · have e : { t with regs := s.regs, cad := t.cad, ports := s.ports, faultQ := t.faultQ, out := s.out } = s := h.rest
    rw [h.cad, h.faultQ] at e
    exact e

/-- What a message of the master leaves of a device that has first changed its Cadence and raised faults. -/
theorem broadcast (s : State) (c : Cad) (q : List FaultMsg) (m : CadMsg) :
    OnlyCad [] s (({ s with cad := c, faultQ := q } : State).broadcast m) :=
  (set s c q).trans (of_sendsOnly (State.broadcast_sendsOnly _ m))

end OnlyCad

end Sys2Proof.Machine
end

section
/-!
SUPPORT. Proofs: how the master stops the job, aborts its step and comes to the last angle (R42, R64, R66, R533), each as one change
of its Cadence, the fault it raises and one message broadcast. -/

namespace Sys2Proof.Machine

namespace State

/-- The stop of R533: a change of the Cadence and one message. -/
theorem mStop_eq (s : State) (cause angle : Nat) :
    s.mStop cause angle = ({ s with cad := stoppedCad s.cad } : State).broadcast
      (abortMsg s s.cad.mSeq angle (s.cad.mAttempt + 1) (0x8000 + cause)) := rfl

/-- The abort that reaches ABORT_LIMIT: CAD abort limit, and the stop with cause 4 (R66). -/
theorem mAbort_of_limit {s : State} (reason : Nat) (h : s.get Reg.cadAbortLimit ≤ s.cad.mAttempt + 1) (hq : s.waitingFrom srcCad < 16) :
    s.mAbort reason = ({ s with
      cad := stoppedCad { s.cad with mAngle := angleOf (stepOf s.cad.mAngle) 0 }
      faultQ := s.faultQ ++ [s.faultMsg srcCad 0x56 clsU (s.addr % 2 ^ 14) false] } : State).broadcast
        (abortMsg s s.cad.mSeq (angleOf (stepOf s.cad.mAngle) 0) (s.cad.mAttempt + 1) 0x8004) := by
  unfold mAbort
  rw [if_pos h, raise_of_room _ _ _ hq, mStop_eq]
  rfl

/-- An abort below ABORT_LIMIT: the rollback of R64. -/
theorem mAbort_of_lt {s : State} (reason : Nat) (h : s.cad.mAttempt + 1 < s.get Reg.cadAbortLimit) :
    s.mAbort reason = ({ s with cad := abortedCad s s.cad } : State).broadcast
      (abortMsg s s.cad.mSeq (angleOf (stepOf s.cad.mAngle) 0) (s.cad.mAttempt + 1) reason) := by
  unfold mAbort
  rw [if_neg (Nat.not_le.mpr h)]
  rfl

/-- An abort is a change of the Cadence, perhaps one fault, and what it sends. -/
theorem mAbort_onlyCad {s : State} (reason : Nat) (hq : s.waitingFrom srcCad < 16) : OnlyCad [] s (s.mAbort reason) := by
  by_cases h : s.get Reg.cadAbortLimit ≤ s.cad.mAttempt + 1
  · rw [mAbort_of_limit reason h hq]
    exact OnlyCad.broadcast ..
  · rw [mAbort_of_lt reason (Nat.not_le.mp h)]
    exact OnlyCad.broadcast s _ s.faultQ _

/-- An abort rolls the step back, or stops the job (R64, R66). -/
theorem mAbort_stepAborts {s : State} (reason : Nat) (hq : s.waitingFrom srcCad < 16) :
    StepAborts s (s.mAbort reason) s.cad reason := by
  unfold StepAborts
  split
  next h =>
    rw [mAbort_of_limit reason h hq]
    simp
  next h =>
    rw [mAbort_of_lt reason (Nat.not_le.mp h)]
    simp

/-- A rollback raises no fault. -/
theorem mAbort_faultQ_of_lt {s : State} (reason : Nat) (h : s.cad.mAttempt + 1 < s.get Reg.cadAbortLimit) :
    (s.mAbort reason).faultQ = s.faultQ := by
  rw [mAbort_of_lt reason h, broadcast_faultQ]

/-- The abort that reaches ABORT_LIMIT raises CAD abort limit (R66). -/
theorem mAbort_faultQ_of_limit {s : State} (reason : Nat) (h : s.get Reg.cadAbortLimit ≤ s.cad.mAttempt + 1)
    (hq : s.waitingFrom srcCad < 16) :
    (s.mAbort reason).faultQ = s.faultQ ++ [s.faultMsg srcCad 0x56 clsU (s.addr % 2 ^ 14) false] := by
  rw [mAbort_of_limit reason h hq, broadcast_faultQ]

/-- The Cadence of the master with its angle moved on to `a` (R40): the SEQ counts, and the beat after the COMMIT stroke commits. -/
def beatCad (c : Cad) (a : Nat) : Cad :=
  let commits := decide (1 ≤ a) && strokeOf (a - 1) == c.commitStroke && !c.mRolling && a == c.mAngle + 1
  { c with mSeq := c.mSeq + 1, mAngle := a, mRolling := false
           mCommitted := if commits then some (stepOf (a - 1)) else c.mCommitted
           mAttempt := if commits then 0 else c.mAttempt }

/-- At the last angle the master sends the beat, and then ends the job (R42). -/
theorem mBeat_lastAngle (s : State) : ∃ u, s.mBeat lastAngle = u.mEnd ∧ SendsOnly { s with cad := beatCad s.cad lastAngle } u := by
  unfold mBeat
  exact ⟨_, if_pos rfl, broadcast_sendsOnly ..⟩

/-- CAD angle end, and the stop with cause 2 at the last angle (R42). -/
theorem mEnd_eq {s : State} (hq : s.waitingFrom srcCad < 16) :
    s.mEnd = ({ s with
      cad := stoppedCad s.cad
      faultQ := s.faultQ ++ [s.faultMsg srcCad 0x50 clsU (s.addr % 2 ^ 14 + 0xFFFF * 2 ^ 16) false] } : State).broadcast
        (abortMsg s s.cad.mSeq lastAngle (s.cad.mAttempt + 1) 0x8002) := by
  unfold mEnd
  rw [raise_of_room _ _ _ hq, mStop_eq]
  rfl

/-- The master does not turn past the last angle (R42). -/
theorem mTurn_at_last {s : State} (h : s.cad.mAngle = 2 ^ 48 - 1) : s.mTurn = s := if_pos h

end State

/-- From `s` to `t` the master has reached the last angle: it has issued that beat, raised CAD angle end and stopped the job (R42). -/
def AngleEnded (s t : State) : Prop :=
  t.cad.mAngle = 2 ^ 48 - 1 ∧ t.cad.mSeq = s.cad.mSeq + 1 ∧ t.cad.mOn = false ∧ t.cad.mHolds = [] ∧
    t.faultQ = s.faultQ ++ [s.faultMsg srcCad 0x50 2 (s.addr % 2 ^ 14 + 0xFFFF * 2 ^ 16) false] ∧
    t.out.getLast? = some (.own (abortMsg s (s.cad.mSeq + 1) (2 ^ 48 - 1) t.cad.mAttempt 0x8002))

/-- The turn that reaches the last angle ends the job there (R42). -/
theorem State.mTurn_to_last {s : State} (h : s.cad.mAngle + 1 = 2 ^ 48 - 1) (hq : s.waitingFrom srcCad < 16) :
    AngleEnded s s.mTurn ∧ OnlyCad [] s s.mTurn := by
  have hne : s.cad.mAngle ≠ lastAngle := by unfold lastAngle; omega
  have hturn : s.mTurn = s.mBeat lastAngle := by unfold mTurn; rw [if_neg hne, h]; rfl
  obtain ⟨u, hbeat, hu⟩ := s.mBeat_lastAngle
  have hcad : u.cad = beatCad s.cad lastAngle := hu.cad
  have hfault : u.faultQ = s.faultQ := hu.faultQ
  have haddr : u.addr = s.addr := hu.addr
  have hroom : u.waitingFrom srcCad < 16 := by unfold waitingFrom; rw [hfault]; exact hq
  rw [hturn, hbeat, mEnd_eq hroom]
  constructor
  · simp [AngleEnded, hcad, hfault, haddr, stoppedCad, beatCad, abortMsg, lastAngle, faultMsg, clsU]
  · exact (OnlyCad.set s _ s.faultQ).trans ((OnlyCad.of_sendsOnly hu).trans (OnlyCad.broadcast u _ _ _))

/-! ## The commands -/

/-- A Cadence that runs has its device alive. -/
theorem State.alive_of_cadUp {s : State} (h : s.cadUp = true) : s.alive = true := by
  unfold cadUp at h
  exact (Bool.and_eq_true_iff.mp h).1

/-- Where no hold stands at the master's angle, BEAT_ISSUE turns the angle unless CAD_IN does (R40, R51). -/
theorem execBeatIssue_turns {s : State} (hm : s.masters = true) (hu : s.cadUp = true) (ha : s.cad.active = true)
    (hr : s.cad.mRolling = false) (hh : ∀ h ∈ s.cad.mHolds, h.angle ≠ s.cad.mAngle) :
    execBeatIssue s = if s.cad.mExternal then .next s else .next s.mTurn := by
  have hhere : s.cad.mHolds.filter (fun h => h.angle == s.cad.mAngle) = [] := by simpa using hh
  simp [execBeatIssue, hm, hu, ha, hr, hhere, void]

/-- The CAD_IN checker at another count of valid edges and another lock (R52). -/
def State.setCadIn (s : State) (run : Nat) (lock : Bool) : State := { s with cad := { s.cad with inRun := run, inLock := lock } }

/-- Of the Cadence a CAD_IN edge changes the checker alone, or it turns the angle as well (R51, R52). -/
theorem execCadInEdge_cases (high gap since : Nat) (s : State) : ∃ t n l, execCadInEdge high gap since s = .next t ∧
    (t.cad = (s.setCadIn n l).cad ∨ t = (s.setCadIn n l).mTurn) := by
  unfold execCadInEdge
  split
  · exact ⟨s, s.cad.inRun, s.cad.inLock, rfl, .inl rfl⟩
  split
  · exact ⟨_, 0, s.cad.inLock, rfl, .inl rfl⟩
  let n := min (s.cad.inRun + 1) 16
  let l := s.cad.inLock || decide (16 ≤ n)
  dsimp only
  split
  · exact ⟨_, n, l, rfl, .inl rfl⟩
  split
  · exact ⟨_, n, l, rfl, .inl rfl⟩
  split
  · exact ⟨_, n, l, rfl, .inl rfl⟩
  · exact ⟨_, n, l, rfl, .inr rfl⟩

/-- A valid edge of CAD_IN, no earlier than the period, turns the angle of a master in external mode at which no hold stands
(R51). -/
theorem execCadInEdge_turns {s : State} {high gap since : Nat} (hm : s.masters = true) (hu : s.cadUp = true) (ha : s.cad.active = true)
    (hr : s.cad.mRolling = false) (hh : ∀ h ∈ s.cad.mHolds, h.angle ≠ s.cad.mAngle) (hx : s.cad.mExternal = true)
    (hs : s.cad.mStand = false) (hf : s.flag Reg.cadCtrlExternal = true) (hedge : 80 ≤ high ∧ high ≤ 2000 ∧ 4000 ≤ gap)
    (hp : s.get Reg.cadPeriodNs ≤ since) : ∃ n l, execCadInEdge high gap since s = .next (s.setCadIn n l).mTurn := by
  let n := min (s.cad.inRun + 1) 16
  let l := s.cad.inLock || decide (16 ≤ n)
  have hheld : s.mHeld s.cad.mAngle = false := by simpa [State.mHeld] using hh
  have hon : ¬ (!s.flag Reg.cadCtrlExternal || !s.alive) = true := by simp [hf, State.alive_of_cadUp hu]
  have hvalid : ¬ (high < 80 ∨ 2000 < high ∨ gap < 4000) := by omega
  have hturns : ¬ (!(s.setCadIn n l).masters || !s.cad.mExternal || !s.cad.active) = true := by
    have : (s.setCadIn n l).masters = true := hm
    simp [this, hx, ha]
  have hfree : ¬ ((s.setCadIn n l).mHeld s.cad.mAngle = true ∨ since < s.get Reg.cadPeriodNs) := by
    have : (s.setCadIn n l).mHeld s.cad.mAngle = false := hheld
    simp [this, hp]
  have hgoes : ¬ (s.cad.mRolling || s.cad.mStand) = true := by simp [hr, hs]
  exact ⟨n, l, (if_neg hon).trans ((if_neg hvalid).trans ((if_neg hturns).trans ((if_neg hfree).trans (if_neg hgoes))))⟩

/-! ## The last angle (R42) -/

/-- Settles O14: a master at the last angle but one, turned by its own period or by CAD_IN, comes to `State.mTurn_to_last`; at the
last angle it turns no further by `State.mTurn_at_last`. -/
theorem angleEndStopsTheJob : Obligations.AngleEndStopsTheJob := by
  intro s gap since hm hu ha hr hh
  have hbeat := execBeatIssue_turns hm hu ha hr hh
  refine ⟨fun hlast hq => ⟨fun hx => ?_, fun hx hs hf hgap hp => ?_⟩, fun hlast => ⟨?_, fun high => ?_⟩⟩
  · refine ⟨s.mTurn, ?_, State.mTurn_to_last hlast hq⟩
    rw [hx] at hbeat
    exact hbeat
  · obtain ⟨n, l, hedge⟩ := execCadInEdge_turns (high := 100) hm hu ha hr hh hx hs hf ⟨by decide, by decide, hgap⟩ hp
    obtain ⟨hends, honly⟩ := State.mTurn_to_last (s := s.setCadIn n l) hlast hq
    exact ⟨_, hedge, hends, (OnlyCad.set s _ s.faultQ).trans honly⟩
  · rw [State.mTurn_at_last hlast, ite_self] at hbeat
    exact hbeat
  · obtain ⟨t, n, l, hedge, hcad | hturn⟩ := execCadInEdge_cases high gap since s
    · exact ⟨t, hedge, hcad ▸ hlast, hcad ▸ rfl⟩
    · rw [State.mTurn_at_last (s := s.setCadIn n l) hlast] at hturn
      exact ⟨t, hedge, hturn ▸ hlast, hturn ▸ rfl⟩

end Sys2Proof.Machine
end

section
/-!
SUPPORT. Proofs: a HOLD that comes late (R60). -/

namespace Sys2Proof.Machine

/-- The master that has counted a late HOLD: the hold stands, CAD.LATE_HOLD counts it, and CAD late hold is raised (R59, R60). -/
def State.lateHeld (s : State) (m : CadMsg) : State :=
  { (s.mCount m).count Reg.cadLateHold with
    faultQ := s.faultQ ++ [s.faultMsg srcCad 0x54 clsU (m.source % 2 ^ 14 + strokeOf m.angle * 2 ^ 16) false] }

/-- A late HOLD of a current ATTEMPT, with a reason that has no rule of its own, is counted and raised, and then aborts a step that is
not committed (R60). -/
theorem execHold_late {s : State} {m : CadMsg} (hu : s.cadUp = true) (hm : s.masters = true) (ht : m.type = 2) (hr : m.reason ≤ 2)
    (hl : m.angle < s.cad.mAngle) (ha : m.attempt = s.cad.mAttempt ∨ s.mIsCommitted = true) (hq : s.waitingFrom srcCad < 16) :
    execHold m s = .next (if s.mIsCommitted then s.lateHeld m else (s.lateHeld m).mAbort srcCad) := by
  have htype : ¬ badType m = true := by simp [badType, ht]
  have hup : ¬ (m.type != 2 || !s.cadUp) = true := by simp [ht, hu]
  have hmaster : ¬ (!s.masters) = true := by simp [hm]
  have hcurrent : ¬ (!s.mIsCommitted && m.attempt != s.cad.mAttempt) = true := by
    rcases ha with ha | ha <;> simp [ha]
  have hreset : m.reason ≠ reasonReset := by unfold reasonReset; omega
  have htmp : m.reason ≠ reasonTmp := by unfold reasonTmp; omega
  have hraise : ((s.mCount m).count Reg.cadLateHold).raise srcCad 0x54 clsU (m.source % 2 ^ 14 + strokeOf m.angle * 2 ^ 16) =
      s.lateHeld m := State.raise_of_room _ _ _ hq
  unfold execHold
  rw [if_neg htype, if_neg hup, if_neg hmaster, if_neg hcurrent, if_neg hreset]
  dsimp only
  rw [if_neg htmp, if_pos hl, hraise]
  rfl

namespace State

/-- A late HOLD leaves of the device all but its Cadence, the faults raised and CAD.LATE_HOLD as it was. -/
theorem lateHeld_onlyCad (s : State) (m : CadMsg) : OnlyCad [Reg.cadLateHold] s (s.lateHeld m) :=
  (OnlyCad.count s Reg.cadLateHold 1).trans ((OnlyCad.set _ _ _).mono (List.nil_subset _))

theorem lateHeld_addr (s : State) (m : CadMsg) : (s.lateHeld m).addr = s.addr := get_put_ne _ _ (by decide)

theorem lateHeld_counted (s : State) (m : CadMsg) : Counted s (s.lateHeld m) Reg.cadLateHold :=
  get_count_same (s.mCount m) Reg.cadLateHold 1 (by decide)

/-- CAD late hold takes one place among the messages that wait. -/
theorem lateHeld_room {s : State} (m : CadMsg) (h : s.waitingFrom srcCad < 15) : (s.lateHeld m).waitingFrom srcCad < 16 := by
  simp only [waitingFrom, lateHeld, List.filter_append, List.length_append] at h ⊢
  simp [faultMsg]
  omega

end State

/-- What an abort does depends on ABORT_LIMIT, the device's address, the job's devices and the master's mode alone. -/
theorem StepAborts.congr {u s t : State} {c : Cad} {reason : Nat} (hlimit : u.get Reg.cadAbortLimit = s.get Reg.cadAbortLimit)
    (haddr : u.addr = s.addr) (hdev : u.devices = s.devices) (hmode : u.cad.mExternal = s.cad.mExternal)
    (h : StepAborts u t c reason) : StepAborts s t c reason := by
  simpa only [StepAborts, abortMsg, abortedCad, hlimit, haddr, hdev, hmode] using h

/-- Settles O17: a late HOLD leaves `State.lateHeld`, which is all of it once the step is committed (`execHold_late`); before that the
step is aborted by `State.mAbort_stepAborts`, with a second fault where ABORT_LIMIT is reached. -/
theorem lateHoldAborts : Obligations.LateHoldAborts := by
  intro s m hu hm ht hr hl ha hq
  have hstep := execHold_late hu hm ht hr hl ha (Nat.lt_succ_of_lt hq)
  have hroom := State.lateHeld_room m hq
  have hkeep := s.lateHeld_onlyCad m
  cases hc : s.mIsCommitted with
  | true =>
    rw [hc, if_pos rfl] at hstep
    exact ⟨_, hstep, s.lateHeld_counted m, hkeep, fun _ => ⟨rfl, rfl, rfl⟩, nofun, nofun, nofun⟩
  | false =>
    rw [hc, if_neg Bool.false_ne_true] at hstep
    have habort := State.mAbort_onlyCad srcCad hroom
    have hcount : ((s.lateHeld m).mAbort srcCad).get Reg.cadLateHold = (s.lateHeld m).get Reg.cadLateHold :=
      habort.get (by decide) (by decide)
    have hlimit : (s.lateHeld m).get Reg.cadAbortLimit = s.get Reg.cadAbortLimit := hkeep.get (by decide) (by decide)
    have haddr := s.lateHeld_addr m
    refine ⟨_, hstep, hcount.trans (s.lateHeld_counted m), hkeep.trans (habort.mono (List.nil_subset _)), nofun,
      fun _ => (State.mAbort_stepAborts srcCad hroom).congr hlimit haddr rfl rfl, fun _ hlt => ?_, fun _ hge => ?_⟩
    · exact State.mAbort_faultQ_of_lt srcCad (hlimit ▸ hlt)
    · rw [State.mAbort_faultQ_of_limit srcCad (hlimit ▸ hge) hroom, haddr]
      rfl

end Sys2Proof.Machine
end

section
/-!
SUPPORT. Proofs: the frames that the mailbox discards (R427), and the NONCE of the device in a session. -/

namespace Sys2Proof.Machine

/-- A sealed frame that is valid of no session is counted and goes no further (R427): the other side of `takeFrame_valid`. -/
theorem takeFrame_of_not_valid {s : State} {f : HjFrame} (hup : s.svcUp = true) (h : ∀ x, ¬ ValidFrame s f x)
    (k : State → Session → Host.Outcome State Fault Refusal) : takeFrame s f k = .next (s.count Reg.mbxSealFail) := by
  unfold takeFrame
  rw [if_neg (by simp [hup])]
  cases hs : s.session? f.session with
  | none => rfl
  | some x =>
    refine if_neg fun hc => h x ?_
    simp only [Bool.and_eq_true] at hc
    obtain ⟨⟨⟨hgood, hkeyed⟩, htag⟩, hfresh⟩ := hc
    refine ⟨hup, hs, hgood, hkeyed, htag, fun n hn => ?_⟩
    rw [Option.mem_def.mp hn] at hfresh
    exact of_decide_eq_true hfresh

/-- A KEM that names no session awaiting one is discarded. -/
theorem execKem_discards {s : State} {f : HjFrame} (hup : s.svcUp = true)
    (h : f.good = false ∨ ∀ x, s.session? f.session = some x → x.keyed = true) : execKem f s = .next (s.count Reg.mbxSealFail) := by
  unfold execKem
  rw [if_neg (by simp [hup])]
  cases hs : s.session? f.session with
  | none => rfl
  | some x =>
    refine if_neg ?_
    rcases h with hbad | hkeyed
    · simp [hbad]
    · simp [hkeyed x hs]

/-- A HELLO that is not one, or that names a SESSION, is discarded. -/
theorem execHello_discards {s : State} {f : HjFrame} (bytes : Nat) (hup : s.svcUp = true) (h : f.good = false ∨ f.session ≠ 0) :
    execHello f bytes s = .next (s.count Reg.mbxSealFail) := by
  unfold execHello
  rw [if_neg (by simp [hup]), if_pos (by simpa using h)]
  rfl

/-- A HELLO that finds a free number adds one session, whose NONCE of the device is 0 (R427, R428). -/
theorem execHello_opens {s : State} {f : HjFrame} {n : Nat} (bytes : Nat) (hup : s.svcUp = true) (hgood : f.good = true)
    (hsession : f.session = 0) (hsmith : s.smithUp = true) (hboot : s.sys.booted = true) (hlife : s.life ≠ .quench)
    (hfree : (List.range 8).find? (fun n => !(s.mbx.sessions.any (fun x => x.num == n))) = some n) :
    ∃ t y, execHello f bytes s = .next t ∧ t.mbx.sessions = s.mbx.sessions ++ [y] ∧ y.nonceOut = 0 := by
  unfold execHello
  rw [if_neg (by simp [hup]), if_neg (by simp [hgood, hsession]), if_neg (by simp [hsmith, hboot, hlife]), hfree]
  exact ⟨_, _, rfl, rfl, rfl⟩

namespace State

/-- A sealed frame to a session carries the device's NONCE of it, which rises by one. -/
theorem sendSealed_eq {s : State} {x : Session} (h : s.session? x.sid = some x) (head : HjHead) (l : List Byte) :
    s.sendSealed x head l = (s.setSession { x with nonceOut := x.nonceOut + 1 }).emit
      (.hjeliz { head with session := x.sid, nonce := x.nonceOut } l (sealTag x { head with session := x.sid, nonce := x.nonceOut } l)) := by
  unfold sendSealed
  rw [h]

theorem sendSealed_out {s : State} {x : Session} (h : s.session? x.sid = some x) (head : HjHead) (l : List Byte) :
    (s.sendSealed x head l).out = answered s x { head with session := x.sid, nonce := x.nonceOut } l := by
  rw [sendSealed_eq h]
  rfl

theorem session?_sendSealed {s : State} {x : Session} (h : s.session? x.sid = some x) (head : HjHead) (l : List Byte) :
    (s.sendSealed x head l).session? x.sid = some { x with nonceOut := x.nonceOut + 1 } := by
  rw [sendSealed_eq h]
  exact session?_setSession h rfl rfl

end State

/-- A valid PING is answered with the device's NONCE of its session, which rises by one (R427, R431). -/
theorem execPing_answers {s : State} {f : HjFrame} {x : Session} (h : ValidFrame s f x) : ∃ t, execPing f s = .next t ∧
    t.out = answered s x (replyHead x f.tag 0 noSlot rcOk) [] ∧
    t.session? f.session = some { x with nonceIn := some f.nonce, nonceOut := x.nonceOut + 1 } := by
  have ⟨_, hs, _⟩ := h
  have hsid : x.sid = f.session := (State.session?_mem hs).2
  have htaken : (s.setSession { x with nonceIn := some f.nonce }).session? x.sid = some { x with nonceIn := some f.nonce } :=
    State.session?_setSession (hsid ▸ hs) rfl rfl
  refine ⟨_, takeFrame_valid h _, State.sendSealed_out htaken _ _, ?_⟩
  rw [← hsid]
  exact State.session?_sendSealed htaken _ _

/-- Settles O2: a sealed frame that R427 refuses is valid of no session, so each command that takes one discards it
(`takeFrame_of_not_valid`); KEM and HELLO check for themselves. The NONCE of the device is that of `State.sendSealed_eq`. -/
theorem badFramesChangeNothing : Obligations.BadFramesChangeNothing := by
  intro s f c hup
  refine ⟨fun _ _ => rfl, ?sealed, execKem_discards hup, fun bytes => execHello_discards bytes hup, ?first,
    fun x head l hs => ⟨State.sendSealed_out hs head l, State.session?_sendSealed hs head l⟩, ?ping⟩
  case sealed =>
    intro hbad
    have hinvalid : ∀ x, ¬ ValidFrame s f x := by
      rintro x ⟨-, hs, hgood, hkeyed, htag, hfresh⟩
      rcases hbad with hbad | hbad
      · exact absurd hgood (by simp [hbad])
      · rcases hbad x hs with hno | hno | ⟨n, hn, hle⟩
        · exact absurd hkeyed (by simp [hno])
        · exact absurd htag (by simp [hno])
        · exact absurd (hfresh n hn) (Nat.not_lt.mpr hle)
    have hdiscard := takeFrame_of_not_valid hup hinvalid
    exact ⟨(hdiscard _ : execAuth f c s = _), (hdiscard _ : execCommand f s = _), (hdiscard _ : execRead f s = _),
      (hdiscard _ : execAck f s = _), (hdiscard _ : execList f s = _), (hdiscard _ : execClose f s = _), (hdiscard _ : execPing f s = _)⟩
  case first =>
    intro bytes hgood hsession hsmith hboot hlife hnone
    obtain ⟨t, y, ht, hsessions, hzero⟩ := execHello_opens (n := 0) bytes hup hgood hsession hsmith hboot hlife (by rw [hnone]; rfl)
    exact ⟨t, ht, by simp [hsessions, hnone, hzero]⟩
  case ping =>
    intro x hx
    obtain ⟨t, ht, hout, hs⟩ := execPing_answers hx
    exact ⟨t, ht, hout, by rw [hs]; rfl⟩

end Sys2Proof.Machine
end

section
/-!
SUPPORT. Proofs: the service side (R502, R505, R506). What an SMBus read answers, and what a Summary update changes: its readings move
the sensors alone, so the Summary it takes is that of the device before them. -/

namespace Sys2Proof.Machine

namespace State

/-- A service controller that is held answers no read. -/
theorem smbusRead_of_down {s : State} (h : s.smbusUp = false) (code n : Nat) (f : Summary → List Byte) :
    s.smbusRead code n f = .next s := if_pos (by simp [h])

/-- Before the first Summary update a read is all ones (R506). -/
theorem smbusRead_of_none {s : State} (h : s.smbusUp = true) (hnone : s.sys.summary = none) (code n : Nat) (f : Summary → List Byte) :
    s.smbusRead code n f = .next (s.emit (.smbus code (List.replicate n 255#8))) := by
  unfold smbusRead
  rw [if_neg (by simp [h]), hnone]

/-- A read answers from the last Summary update (R506). -/
theorem smbusRead_of_some {s : State} {x : Summary} (h : s.smbusUp = true) (hsome : s.sys.summary = some x) (code n : Nat)
    (f : Summary → List Byte) : s.smbusRead code n f = .next (s.emit (.smbus code (f x))) := by
  unfold smbusRead
  rw [if_neg (by simp [h]), hsome]

end State

/-- An undefined code or a write is NACKed, and the device stays as it is (R506). -/
theorem execSmbusUndefinedCode_of_up {s : State} (h : s.smbusUp = true) (code : Nat) (write : Bool) : execSmbusUndefinedCode code write s =
    .next (if 1 ≤ code ∧ code ≤ 10 ∧ write = false then s else s.emit (.smbusNack (code % 256))) := by
  unfold execSmbusUndefinedCode
  by_cases hdef : 1 ≤ code ∧ code ≤ 10 ∧ write = false
  · rw [if_pos hdef, if_pos (by simpa [h, and_assoc] using hdef)]
    rfl
  · rw [if_neg hdef, if_neg (by simpa [h] using hdef)]

/-! ## The readings -/

/-- The registers that show a sensor: those of the HBM stacks and of Stock. -/
def sensorRegs : List Fld := Reg.tmpStockTempC :: (List.range 8).map Reg.hbmStateTempC

/-- The registers of the sensors lie beyond those of the first blocks. -/
theorem sensorRegs_key {f : Fld} (h : f ∈ sensorRegs) : 0x500000 * 32 ≤ f.key := by
  simp only [sensorRegs, List.mem_cons, List.mem_map, List.mem_range] at h
  obtain rfl | ⟨k, hk, rfl⟩ := h
  · decide
  · simp only [Fld.key, Reg.hbmStateTempC, fld]
    omega

/-- From `s` to `t` the device has done no more than take readings of its sensors. -/
structure ReadsSensors (s t : State) : Prop where
  regs : SameRegsBut sensorRegs s t
  sys : { t.sys with temps := s.sys.temps } = s.sys
  rest : { t with regs := s.regs, sys := s.sys } = s

namespace ReadsSensors

theorem refl (s : State) : ReadsSensors s s := ⟨SameRegsBut.refl _ s, rfl, rfl⟩

theorem trans {r s t : State} (h : ReadsSensors r s) (k : ReadsSensors s t) : ReadsSensors r t where
  regs := h.regs.trans k.regs
  sys := by
    have e : { t.sys with temps := r.sys.temps } = { ({ t.sys with temps := s.sys.temps } : Sys) with temps := r.sys.temps } := rfl
    rw [e, k.sys, h.sys]
  rest := by
    have e : { t with regs := r.regs, sys := r.sys } =
        { ({ t with regs := s.regs, sys := s.sys } : State) with regs := r.regs, sys := r.sys } := rfl
    rw [e, k.rest, h.rest]

theorem put (s : State) {f : Fld} (v : Nat) (hf : f ∈ sensorRegs) : ReadsSensors s (s.put f v) :=
  ⟨(SameRegsBut.refl _ s).put f v hf, rfl, rfl⟩

theorem setTemp (s : State) (k v : Nat) : ReadsSensors s (s.setTemp k v) := by
  let read : State := { s with sys := { s.sys with temps := s.sys.temps.set k (v % 256) } }
  have hread : ReadsSensors s read := ⟨fun _ _ => rfl, rfl, rfl⟩
  have hstack : 5 ≤ k ∧ k < 13 → Reg.hbmStateTempC (k - 5) ∈ sensorRegs := fun h =>
    List.mem_cons_of_mem _ (List.mem_map_of_mem (List.mem_range.mpr (by omega)))
  unfold State.setTemp
  dsimp only
  split
  next h => exact hread.trans (put read _ (hstack h))
  next =>
    split
    · exact hread.trans (put read _ List.mem_cons_self)
    · exact hread

theorem foldl {α : Type} {f : State → α → State} (hf : ∀ t a, ReadsSensors t (f t a)) (l : List α) (s : State) :
    ReadsSensors s (l.foldl f s) := by
  induction l generalizing s with
  | nil => exact refl s
  | cons a l ih => exact (hf s a).trans (ih _)

theorem noteTemps (s : State) (l : List Nat) : ReadsSensors s (s.noteTemps l) := by
  refine foldl (fun t p => ?_) _ s
  dsimp only
  split
  · exact setTemp ..
  · exact refl t

/-- A register of the first blocks reads as before. -/
theorem get {s t : State} (h : ReadsSensors s t) {f : Fld} (hf : f.key < 0x500000 * 32) : t.get f = s.get f :=
  h.regs f fun _ hg => Nat.ne_of_lt (Nat.lt_of_lt_of_le hf (sensorRegs_key hg))

theorem get64 {s t : State} (h : ReadsSensors s t) {lo hi : Fld} (hlo : lo.key < 0x500000 * 32) (hhi : hi.key < 0x500000 * 32) :
    t.get64 lo hi = s.get64 lo hi := by
  unfold State.get64
  rw [h.get hlo, h.get hhi]

theorem life {s t : State} (h : ReadsSensors s t) : t.life = s.life := (congrArg State.life h.rest :)

theorem cad {s t : State} (h : ReadsSensors s t) : t.cad = s.cad := (congrArg State.cad h.rest :)

theorem pulse {s t : State} (h : ReadsSensors s t) : t.sys.pulse = s.sys.pulse := (congrArg Sys.pulse h.sys :)

theorem faultLow {s t : State} (h : ReadsSensors s t) : t.sys.faultLow = s.sys.faultLow := (congrArg Sys.faultLow h.sys :)

theorem flag {s t : State} (h : ReadsSensors s t) {f : Fld} (hf : f.key < 0x500000 * 32) : t.flag f = s.flag f := by
  unfold State.flag
  rw [h.get hf]

theorem causeWord {s t : State} (h : ReadsSensors s t) : t.causeWord = s.causeWord := by
  have hkey : ∀ b ∈ List.range 10, (causeFld b).key < 0x500000 * 32 := by decide
  unfold State.causeWord
  rw [List.map_congr_left fun b hb => by rw [h.get (hkey b hb)], h.get (by decide)]

/-- A field of the fault registers shows its stored value, or the pulse of FAULT_OUT_N. -/
theorem view_flt {s t : State} (h : ReadsSensors s t) {f : Fld} (hlo : 0x20000 ≤ f.addr) (hhi : f.addr < 0x30000)
    (hkey : f.key < 0x500000 * 32) (k : Nat) (lv : Level) : t.view k lv f = s.view k lv f := by
  have hid : ¬ f.addr < 0x10000 := by omega
  have hrst : ¬ f.addr < 0x20000 := by omega
  simp only [State.view, hid, hrst, hhi, if_false, if_true, State.fltView, h.pulse, h.get hkey]

/-- FLT.STATUS reads as before. -/
theorem wordView_fltStatus {s t : State} (h : ReadsSensors s t) (k : Nat) (lv : Level) :
    t.wordView k lv 0x20004 = s.wordView k lv 0x20004 := by
  have hflt : ∀ f ∈ fieldsAt 0x20004, 0x20000 ≤ f.addr ∧ f.addr < 0x30000 ∧ f.key < 0x500000 * 32 := by decide
  unfold State.wordView
  rw [List.map_congr_left fun f hf => ?_]
  obtain ⟨hlo, hhi, hkey⟩ := hflt f hf
  rw [h.view_flt hlo hhi hkey]

/-- The Summary of a device does not depend on the readings that it has noted itself. -/
theorem summarize {s t : State} (h : ReadsSensors s t) (vin iin pin : Nat) (temps : List Nat) :
    t.summarize vin iin pin temps = s.summarize vin iin pin temps := by
  unfold State.summarize
  rw [h.life, h.wordView_fltStatus, h.get64 (by decide) (by decide), h.get64 (by decide) (by decide), h.causeWord, h.get (by decide),
    h.cad, h.get (by decide), h.get (by decide), h.get (by decide)]

end ReadsSensors

/-- The service side after a Summary update of the device `s` (R502, R469, R475). -/
def summarized (s : State) (vin iin pin : Nat) (temps : List Nat) : Sys :=
  { (s.noteTemps temps).sys with
    summary := some (s.summarize vin iin pin temps)
    pinFault := s.sys.faultLow
    pinLegacy := if s.flag Reg.fltLegacyEn then some (s.flag Reg.fltLegacyOut) else none }

/-- A Summary update notes the readings and takes the Summary of the device as it stood before. -/
theorem execSummaryUpdate_of_up {s : State} (h : s.smbusUp = true) (hsmith : s.domUp 1 = true) (hcoll : s.domUp 2 = true)
    (vin iin pin : Nat) (temps : List Nat) : execSummaryUpdate vin iin pin temps s =
      .next { s.noteTemps temps with sys := summarized s vin iin pin temps } := by
  have hread := ReadsSensors.noteTemps s temps
  unfold summarized
  rw [← hread.summarize, ← hread.faultLow, ← hread.flag (f := Reg.fltLegacyEn) (by decide), ← hread.flag (f := Reg.fltLegacyOut) (by decide)]
  exact if_neg (by simp [h, hsmith, hcoll])

/-- The update leaves all but the registers and the service side as it was. -/
theorem summarized_frame (s : State) (sys : Sys) (temps : List Nat) :
    { ({ s.noteTemps temps with sys := sys } : State) with regs := s.regs, sys := s.sys } = s := (ReadsSensors.noteTemps s temps).rest

end Sys2Proof.Machine
end

section
/-!
SUPPORT. Proofs: IDCODE (R525), and the scans of the TAP (R508, R522). -/

namespace Sys2Proof.Machine

/-- IDCODE of a revision (R525): the metal revision, the part, the manufacturer and a 1. -/
def idcodeOf (stepping : Nat) : Nat := stepping % 16 * 0x10000000 + 0x2080000 + 0x74A + 1

/-- STEPPING as fused, behind an argument. The kernel reduces a sum without variables towards a numeral, which for IDCODE would take as
many steps as its value; a sum with a variable it compares summand by summand. -/
def fusedStepping (_ : Unit) : Nat := Config.stepping

theorem idcode_eq_idcodeOf_fused (u : Unit) : Config.idcode = idcodeOf (fusedStepping u) := by
  exact rfl

/-- The device's IDCODE is that of its own revision. -/
theorem idcode_eq_idcodeOf : Config.idcode = idcodeOf Config.stepping := idcode_eq_idcodeOf_fused ()

theorem idcodeOf_lt (stepping : Nat) : idcodeOf stepping < 2 ^ 32 := by
  unfold idcodeOf
  omega

/-- The register IDCODE is fused to the same value. -/
theorem idIdcode_rst : Reg.idIdcode.rst = idcodeOf Config.stepping := by
  rw [← idcode_eq_idcodeOf]
  unfold Reg.idIdcode fld
  rfl

namespace State

/-- The fused identification fields show their reset values. -/
theorem view_fused (s : State) (k : Nat) (lv : Level) {f : Fld} {rst w : Nat} (h : f.addr < 0x18) (hacc : f.acc ≠ .wo) (hrst : f.rst = rst)
    (hw : f.w = w) : s.view k lv f = rst % 2 ^ w := by
  have hid : f.addr < 0x10000 := Nat.lt_trans h (by decide)
  simp only [view, hacc, hid, if_true, if_false, idView, h, hrst, hw]

/-- The word of one field at bit 0 shows that field. -/
theorem wordView_of_one_field (s : State) (k : Nat) (lv : Level) {a : Nat} {f : Fld} (h : fieldsAt a = [f]) (hlo : f.lo = 0) :
    s.wordView k lv a = s.view k lv f := by
  simp [wordView, h, hlo]

/-- The register IDCODE is the TAP's (R525). -/
theorem wordView_idcode (s : State) (k : Nat) (lv : Level) : s.wordView k lv 0 = idcodeOf Config.stepping := by
  have hview : s.view k lv Reg.idIdcode = idcodeOf Config.stepping % 2 ^ 32 :=
    s.view_fused k lv (by decide) (by decide) idIdcode_rst rfl
  exact (s.wordView_of_one_field k lv rfl rfl).trans (hview.trans (Nat.mod_eq_of_lt (idcodeOf_lt _)))

/-- The low bits of STEPPING are the metal revision, which IDCODE names (R525). -/
theorem wordView_stepping_metal (s : State) (k : Nat) (lv : Level) : s.wordView k lv 8 % 16 = Config.stepping % 16 := by
  have hword : s.wordView k lv 8 = 0 + s.view k lv Reg.idSteppingMetal * 2 ^ 0 + s.view k lv Reg.idSteppingBase * 2 ^ 4 := rfl
  have hmetal : s.view k lv Reg.idSteppingMetal = Config.stepping % 16 % 2 ^ 4 := s.view_fused k lv (by decide) (by decide) rfl rfl
  rw [hword, hmetal]
  omega

/-! ## Accesses of CRSACC -/

/-- With TAP, COLL and the unlock, the TAP accesses the space at the debug level (R514). -/
theorem pathLevel_jtag {s : State} (htap : s.domUp 3 = true) (hcoll : s.domUp 2 = true) (hdebug : s.flag Reg.cruStatusDebug = true)
    (write : Bool) : s.pathLevel 1 write = some .debug := by
  simp [pathLevel, htap, hcoll, hdebug]

/-- A write to a hole is counted (R517). -/
theorem writeWord_hole {a : Nat} (hf : fieldsAt a = []) (hs : strikeAddr a = false) (s : State) (k : Nat) (lv : Level) (v e : Nat) :
    s.writeWord k lv a v e = s.refuseAccess := by
  simp [writeWord, hf, hs]

/-- A read of a hole is counted, and reads zero (R517). -/
theorem readWord_hole {a : Nat} (hf : fieldsAt a = []) (hs : strikeAddr a = false) (s : State) (k : Nat) (lv : Level) (ecc : List EccRes) :
    s.readWord k lv a ecc = (s.refuseAccess, 0) := by
  simp [readWord, hf, hs]

theorem refuseAccess_sameRegsBut (s : State) : SameRegsBut [Reg.idRefused] s s.refuseAccess :=
  (SameRegsBut.refl _ s).count _ _ List.mem_cons_self

theorem refuseAccess_counted (s : State) : Counted s s.refuseAccess Reg.idRefused := s.get_count_same Reg.idRefused 1 (by decide)

/-- A scan of CRSACC while COLL is held captures the HELD status (R522). -/
theorem crsCapture_of_held {s : State} (h : s.domUp 2 = false) :
    s.crsCapture = 2 ^ 65 + b2n (s.sys.tap.last.getD (false, 0, 0)).1 * 2 ^ 64 + 0xFFFFFFFF * 2 ^ 32 := if_pos (by simp [h])

/-- Before any access a scan captures zeros (notes/assumptions/89). -/
theorem crsCapture_of_none {s : State} (h : s.domUp 2 = true) (hlast : s.sys.tap.last = none) : s.crsCapture = 0 := by
  simp [crsCapture, h, hlast]

/-- A scan captures the last access (R522). -/
theorem crsCapture_of_some {s : State} {w : Bool} {a v : Nat} (h : s.domUp 2 = true) (hlast : s.sys.tap.last = some (w, a, v)) :
    s.crsCapture = 2 ^ 65 + b2n w * 2 ^ 64 + a % 2 ^ 32 * 2 ^ 32 + v % 2 ^ 32 := by
  simp [crsCapture, h, hlast]

end State

/-- A register write of the TAP, with the unlock, is made at the debug level (R514). -/
theorem execRegisterWrite_jtag {s : State} (htap : s.domUp 3 = true) (hcoll : s.domUp 2 = true) (hdebug : s.flag Reg.cruStatusDebug = true)
    (a v e : Nat) : execRegisterWrite 1 a v s e = .next (s.writeWord 1 .debug a v e) := by
  unfold execRegisterWrite onPath
  rw [State.pathLevel_jtag htap hcoll hdebug]

/-! ## Scans -/

/-- Two outputs follow one another. -/
theorem State.emit_emit (s : State) (o p : Out) : (s.emit o).emit p = { s with out := s.out ++ [o, p] } := by
  simp [State.emit]

/-- The TAP's IDCODE shifts out the device's (R525). -/
theorem execIdcode_of_up {s : State} (htap : s.domUp 3 = true) {n : Nat} (hn : n = idcodeOf Config.stepping) :
    execIdcode s = .next ((s.selectTap .idcode).emit (.tdo 32 n)) := by
  rw [hn, ← idcode_eq_idcodeOf]
  exact if_pos htap

/-- In Running and Quench EXTEST and CLAMP are BYPASS (R508). -/
theorem execExtest_of_barred {s : State} (htap : s.domUp 3 = true) (h : s.scanBarred = true) : execExtest s = .next s.tapBypass := by
  unfold execExtest
  rw [if_neg (by simp [htap]), if_pos h]

theorem execClamp_of_barred {s : State} (htap : s.domUp 3 = true) (h : s.scanBarred = true) : execClamp s = .next s.tapBypass := by
  unfold execClamp
  rw [if_neg (by simp [htap]), if_pos h]

/-- In every other lifecycle state they drive the pins (R508). -/
theorem execExtest_of_free {s : State} (htap : s.domUp 3 = true) (h : s.scanBarred = false) :
    execExtest s = .next ((s.selectTap .extest).emit (.scanPins s.sys.tap.scan)) := by
  unfold execExtest
  rw [if_neg (by simp [htap]), if_neg (by simp [h])]

theorem execClamp_of_free {s : State} (htap : s.domUp 3 = true) (h : s.scanBarred = false) :
    execClamp s = .next (((s.selectTap .clamp).emit (.scanPins s.sys.tap.scan)).emit (.tdo 1 0)) := by
  unfold execClamp
  rw [if_neg (by simp [htap]), if_neg (by simp [h])]

/-- Without the unlock CRSACC is BYPASS (R522). -/
theorem execCrsacc_of_locked {s : State} (htap : s.domUp 3 = true) (hdebug : s.flag Reg.cruStatusDebug = false) (data address : Nat)
    (write : Bool) (ecc : List EccRes) : execCrsacc data address write ecc s = .next s.tapBypass := by
  unfold execCrsacc
  rw [if_neg (by simp [htap]), if_pos (by simp [hdebug])]

section
variable {s : State} (htap : s.domUp 3 = true) (hdebug : s.flag Reg.cruStatusDebug = true) (data address : Nat) (ecc : List EccRes)
include htap hdebug

/-- While COLL is held the access reaches nothing, and is noted (R522). -/
theorem execCrsacc_of_held (hcoll : s.domUp 2 = false) (write : Bool) : execCrsacc data address write ecc s =
    .next ((s.emit (.tdo 66 s.crsCapture)).noteAccess write 0xFFFFFFFF 0) := by
  unfold execCrsacc
  rw [if_neg (by simp [htap]), if_neg (by simp [hdebug])]
  exact if_pos (by simp [hcoll])

/-- A write scan makes its write at the debug level (R522). -/
theorem execCrsacc_write (hcoll : s.domUp 2 = true) : execCrsacc data address true ecc s =
    .next (((s.emit (.tdo 66 s.crsCapture)).writeWord 1 .debug (address % 2 ^ 32) (data % 2 ^ 32) 0).noteAccess true
      (address % 2 ^ 32) (data % 2 ^ 32)) := by
  unfold execCrsacc
  rw [if_neg (by simp [htap]), if_neg (by simp [hdebug])]
  exact (if_neg (by simp [hcoll])).trans (if_pos rfl)

/-- A read scan makes its read at the debug level (R522). -/
theorem execCrsacc_read (hcoll : s.domUp 2 = true) : execCrsacc data address false ecc s =
    .next (((s.emit (.tdo 66 s.crsCapture)).readWord 1 .debug (address % 2 ^ 32) ecc).1.noteAccess false (address % 2 ^ 32)
      ((s.emit (.tdo 66 s.crsCapture)).readWord 1 .debug (address % 2 ^ 32) ecc).2) := by
  unfold execCrsacc
  rw [if_neg (by simp [htap]), if_neg (by simp [hdebug])]
  exact (if_neg (by simp [hcoll])).trans (if_neg Bool.false_ne_true)

/-- A scan of a hole is counted as refused, and is noted (R517, R522). -/
theorem execCrsacc_hole (hcoll : s.domUp 2 = true) (write : Bool) (hf : fieldsAt (address % 2 ^ 32) = [])
    (hs : strikeAddr (address % 2 ^ 32) = false) : execCrsacc data address write ecc s =
      .next ((s.emit (.tdo 66 s.crsCapture)).refuseAccess.noteAccess write (address % 2 ^ 32) (if write then data % 2 ^ 32 else 0)) := by
  cases write with
  | true => rw [execCrsacc_write htap hdebug data address ecc hcoll, State.writeWord_hole hf hs, if_pos rfl]
  | false => rw [execCrsacc_read htap hdebug data address ecc hcoll, State.readWord_hole hf hs, if_neg Bool.false_ne_true]

end

/-- Settles O56: the SMBus by `State.smbusRead_of_none` and `State.smbusRead_of_some`, the Summary by `execSummaryUpdate_of_up`, IDCODE by
`State.wordView_idcode`, and CRSACC by `execCrsacc_write`, `execCrsacc_read` and their fellows; each other command of the TAP is one
branch of its meaning. -/
theorem serviceSideAnswers : Obligations.ServiceSideAnswers := by
  unfold Obligations.ServiceSideAnswers
  refine ⟨fun s code write vin iin pin temps => ⟨fun hdown => ?smbusHeld, fun hup => ⟨fun hnone => ?first, fun x hsome => ?update,
      execSmbusUndefinedCode_of_up hup code write, if_pos hup, fun hheld => ?moduleHeld, fun hsmith hcoll => ?summary⟩⟩, ?tap⟩
  case smbusHeld =>
    have hread := State.smbusRead_of_down hdown
    simp only [List.forall_mem_cons]
    exact ⟨hread .., hread .., hread .., hread .., hread .., hread .., hread .., hread .., hread .., hread .., if_neg (by simp [hdown]),
      if_pos (by simp [hdown]), if_pos (by simp [hdown]), List.forall_mem_nil _⟩
  case first =>
    have hread := State.smbusRead_of_none hup hnone
    exact ⟨hread .., hread .., hread .., hread .., hread .., hread .., hread .., hread .., hread .., hread ..⟩
  case update =>
    have hread := State.smbusRead_of_some hup hsome
    exact ⟨hread .., hread .., hread .., hread .., hread .., hread .., hread .., hread .., hread .., hread ..⟩
  case moduleHeld =>
    refine if_pos ?_
    rcases hheld with hheld | hheld <;> simp [hheld]
  case summary =>
    exact ⟨_, _, execSummaryUpdate_of_up hup hsmith hcoll vin iin pin temps, rfl, summarized_frame .., rfl, rfl, rfl, rfl, rfl, rfl, rfl, rfl,
      rfl, rfl, rfl, rfl, rfl, rfl, rfl, rfl⟩
  case tap =>
    intro s pins preload data address write ecc
    have hword := s.wordView_idcode
    have hmetal := s.wordView_stepping_metal
    have hidcode := execIdcode_of_up (s := s)
    dsimp only
    -- IDCODE is compared for an arbitrary revision, as in `fusedStepping`.
    obtain ⟨stepping, hfused⟩ : ∃ n, Config.stepping = n := ⟨_, rfl⟩
    rw [hfused] at hword hmetal hidcode ⊢
    unfold idcodeOf at hword hidcode
    refine ⟨by omega, by omega, fun k lv => ⟨(hword k lv).trans (by omega), hmetal k lv⟩,
      fun hdown => ?tapHeld, fun htap => ⟨if_pos htap, hidcode htap (by omega), ?tapReset, if_pos htap, fun hfree => ?free,
        fun hbarred => ?barred, fun hlocked => execCrsacc_of_locked htap hlocked data address write ecc,
        fun hdebug => ⟨fun hheld => ?held, fun hcoll c hc => ?access⟩⟩⟩
    case tapHeld =>
      have hidle : ¬ s.domUp 3 = true := by simp [hdown]
      have hvoid : (!s.domUp 3) = true := by simp [hdown]
      simp only [List.forall_mem_cons]
      exact ⟨if_neg hidle, if_neg hidle, if_neg hidle, if_neg hidle, if_pos hvoid, if_pos hvoid, if_pos hvoid, List.forall_mem_nil _⟩
    case tapReset =>
      rw [List.append_nil]
      exact if_pos htap
    case free =>
      have hscan : s.scanBarred = false := by simpa [State.scanBarred] using hfree
      exact ⟨execExtest_of_free htap hscan, (execClamp_of_free htap hscan).trans (congrArg Host.Outcome.next (State.emit_emit ..))⟩
    case barred =>
      have hscan : s.scanBarred = true := by simpa [State.scanBarred] using hbarred
      exact ⟨execExtest_of_barred htap hscan, execClamp_of_barred htap hscan⟩
    case held =>
      rw [← State.crsCapture_of_held hheld]
      exact execCrsacc_of_held htap hdebug data address ecc hheld write
    case access =>
      obtain rfl : c = s.crsCapture := by
        rw [hc]
        cases hlast : s.sys.tap.last with
        | none => exact (State.crsCapture_of_none hcoll hlast).symm
        | some x => exact (State.crsCapture_of_some hcoll hlast).symm
      refine ⟨?_, ?_, fun hf hs => ⟨_, execCrsacc_hole htap hdebug data address ecc hcoll write hf hs, ?_, ?_, rfl⟩⟩
      · rintro rfl
        exact ⟨_, execRegisterWrite_jtag (s := s.emit _) htap hcoll hdebug _ _ 0, execCrsacc_write htap hdebug data address ecc hcoll⟩
      · rintro rfl
        exact execCrsacc_read htap hdebug data address ecc hcoll
      · exact State.refuseAccess_sameRegsBut (s.emit _)
      · exact State.refuseAccess_counted (s.emit _)

end Sys2Proof.Machine
end

section
/-!
SUPPORT. Proofs: one step of the machine, and the state at reset (R12, R479, R493). -/

namespace Sys2Proof.Machine

/-- A step with a command in front runs it with the queue's rest. -/
theorem step_cons (c : Instr) (s : State) (rest : List Instr) :
    step { s with pending := c :: rest } = exec c { s with pending := rest } := rfl

/-- A step on an empty queue idles (notes/assumptions/2). -/
theorem step_nil (s : State) : step { s with pending := [] } = .next { s with pending := [] } := rfl

/-- Settles O58, by `step_cons` and `step_nil`: the two cases of the queue. -/
theorem stepRunsFront : Obligations.StepRunsFront := fun c s rest => ⟨step_cons c s rest, step_nil s⟩

/-- A register that has not been written reads its Reset value (R12). -/
theorem State.get_reset (f : Fld) : State.reset.get f = f.rst := Assoc.get_nil ..

/-- Each memory lists nothing at reset. -/
theorem State.memOf_reset {k : Nat} (hk : k < 4) : State.reset.memOf k = .empty := by
  match k, hk with
  | 0, _ => rfl
  | 1, _ => rfl
  | 2, _ => rfl
  | 3, _ => rfl

/-- Every domain is held at reset (R493). -/
theorem State.domUp_reset {d : Nat} (hd : d < 28) : State.reset.domUp d = false := by
  have hheld : d ∈ State.reset.sys.held := List.mem_range.mpr hd
  simp [State.domUp, hheld]

/-- Settles O59: registers by `State.get_reset`, memories by `State.memOf_reset`, domains by `State.domUp_reset`; each other field is
written out in `State.reset`. -/
theorem resetState : Obligations.ResetState := by
  unfold Obligations.ResetState
  refine ⟨State.memOk_reset, State.get_reset, fun k a hk => by rw [State.memOf_reset hk]; rfl, rfl, rfl, rfl, rfl, rfl,
    fun d hd => State.domUp_reset hd, rfl, rfl, rfl, rfl, rfl, rfl, rfl, rfl, rfl, rfl, rfl, rfl, rfl, rfl, rfl, rfl, rfl,
    fun n => ⟨rfl, rfl⟩, fun p => rfl⟩

end Sys2Proof.Machine
end

section
/-!
SUPPORT. Proofs: the canonical form of the four memories as a property of `s.mems`. What leaves `s.mems` alone keeps it (Laws/Mem*.lean);
the operations that write a memory keep it by the laws of Memory. -/

namespace Sys2Proof.Machine

/-- The four memories are in their canonical form. -/
structure Mems.Canon (m : Mems) : Prop where
  hearth0 : m.hearth0.wf = true
  hearth1 : m.hearth1.wf = true
  hbm : m.hbm.wf = true
  stock : m.stock.wf = true

theorem State.memOk_iff_canon (s : State) : s.memOk = true ↔ s.mems.Canon :=
  s.memOk_iff.trans ⟨fun ⟨h0, h1, h2, h3⟩ => ⟨h0, h1, h2, h3⟩, fun h => ⟨h.hearth0, h.hearth1, h.hbm, h.stock⟩⟩

/-- Where a command goes on, the memories it leaves are in their canonical form. -/
structure CanonNext (o : Host.Outcome State Fault Refusal) : Prop where
  of_next : ∀ t, o = .next t → t.mems.Canon

theorem CanonNext.next {t : State} (h : t.mems.Canon) : CanonNext (.next t) where
  of_next := by
    rintro _ ⟨⟩
    exact h

theorem CanonNext.void {s : State} (h : s.mems.Canon) : CanonNext (void s) := CanonNext.next h

theorem CanonNext.fault (f : Fault) : CanonNext (.fault f) where
  of_next := by
    rintro _ ⟨⟩

theorem CanonNext.ite {c : Prop} [Decidable c] {o p : Host.Outcome State Fault Refusal} (ho : CanonNext o) (hp : CanonNext p) :
    CanonNext (if c then o else p) := by
  split
  · exact ho
  · exact hp

/-- A command that leaves the memories alone. -/
theorem CanonNext.of_mems {s : State} {o : Host.Outcome State Fault Refusal} (h : s.mems.Canon) (ho : outMems s.mems o = s.mems) :
    CanonNext o where
  of_next _ e := mems_of_next ho e ▸ h

namespace Memory

theorem wf_foldl {α : Type} {f : Memory → α → Memory} (hf : ∀ m a, m.wf = true → (f m a).wf = true) (l : List α) {m : Memory}
    (h : m.wf = true) : (l.foldl f m).wf = true :=
  List.foldlRecOn l f (motive := fun m => m.wf = true) h (fun m hm a _ => hf m a hm)

theorem wf_writeElem {m : Memory} (base w i code : Nat) (h : m.wf = true) : (m.writeElem base w i code).wf = true :=
  wf_writeLE _ _ _ h

end Memory

namespace State

theorem canon_foldl {α : Type} {f : State → α → State} (hf : ∀ t a, t.mems.Canon → (f t a).mems.Canon) (l : List α) {s : State}
    (h : s.mems.Canon) : (l.foldl f s).mems.Canon :=
  List.foldlRecOn l f (motive := fun t => t.mems.Canon) h (fun t ht a _ => hf t a ht)

variable {s : State}

theorem hearth_wf (h : s.mems.Canon) (die : Nat) : (s.hearth die).wf = true := by
  unfold hearth
  split
  · exact h.hearth0
  · exact h.hearth1

theorem setHearth_canon (h : s.mems.Canon) (die : Nat) {m : Memory} (hm : m.wf = true) : (s.setHearth die m).mems.Canon := by
  unfold setHearth
  split
  · exact ⟨hm, h.hearth1, h.hbm, h.stock⟩
  · exact ⟨h.hearth0, hm, h.hbm, h.stock⟩

theorem setHbm_canon (h : s.mems.Canon) {m : Memory} (hm : m.wf = true) : ({ s with hbm := m } : State).mems.Canon :=
  ⟨h.hearth0, h.hearth1, hm, h.stock⟩

theorem clearHbm_canon (h : s.mems.Canon) (a len : Nat) : ({ s with hbm := s.hbm.clear a len } : State).mems.Canon :=
  setHbm_canon h (Memory.wf_clear a len h.hbm)

theorem setStock_canon (h : s.mems.Canon) {m : Memory} (hm : m.wf = true) : ({ s with stock := m } : State).mems.Canon :=
  ⟨h.hearth0, h.hearth1, h.hbm, hm⟩

theorem writeHbm_canon (h : s.mems.Canon) (a : Nat) (bs : List Byte) : (s.writeHbm a bs).mems.Canon := by
  rw [writeHbm, hbmTouched_mems]
  exact setHbm_canon h (Memory.wf_writeBytes a bs h.hbm)

theorem writeStock_canon (h : s.mems.Canon) (a : Nat) (bs : List Byte) : (s.writeStock a bs).mems.Canon := by
  rw [writeStock, stockTouched_mems]
  exact setStock_canon h (Memory.wf_writeBytes a bs h.stock)

end State

end Sys2Proof.Machine
end

section
/-!
SUPPORT. Proofs: the changes of the key-value store keep the memories canonical (R208 to R220). -/

namespace Sys2Proof.Machine

/-- Where the change of a KV stream is made, it leaves memories in their canonical form. -/
structure KvRes.Canon (r : KvRes) : Prop where
  of_ok : ∀ u, r = .ok u → u.mems.Canon

namespace KvRes.Canon

theorem ok {u : State} (h : u.mems.Canon) : (KvRes.ok u).Canon where
  of_ok := by
    rintro _ ⟨⟩
    exact h

theorem no (kind : Nat) : (KvRes.no kind).Canon where
  of_ok := by
    rintro _ ⟨⟩

theorem ite {c : Prop} [Decidable c] {r u : KvRes} (hr : r.Canon) (hu : u.Canon) : (if c then r else u).Canon := by
  split
  · exact hr
  · exact hu

end KvRes.Canon

namespace State

variable {s : State}

theorem setEntry_canon (h : s.mems.Canon) (a v : Nat) : (s.setEntry a v).mems.Canon := by
  rw [setEntry, kvLog_mems, hbmTouched_mems]
  exact setHbm_canon h (Memory.wf_writeLE _ _ _ h.hbm)

theorem allocPage_canon (h : s.mems.Canon) {kind : PageKind} {id : Nat} {u : State} (e : s.allocPage kind = some (id, u)) :
    u.mems.Canon := by
  have hs : ∀ id q, ((s.draw).setPage id q).mems.Canon := fun id q => by rwa [setPage_mems, draw_mems]
  unfold allocPage at e
  dsimp only at e
  split at e
  · cases e
  · cases e
    split
    · exact clearHbm_canon (hs ..) _ _
    · exact hs ..

theorem openStream_canon (h : s.mems.Canon) (id layers groups maxp owner : Nat) (serving : Bool) :
    (s.openStream id layers groups maxp owner serving).Canon := by
  unfold openStream
  refine .ite (.no _) ?_
  split
  next => exact .no _
  next e =>
    refine .ok ?_
    rw [setStream_mems]
    exact allocPage_canon h e

theorem forkTable_canon (h : s.mems.Canon) (l1 i table : Nat) : (s.forkTable l1 i table).Canon := by
  unfold forkTable
  split
  next => exact .no _
  next e =>
    refine .ite (.no _) (.ok (setEntry_canon (canon_foldl (fun t a ht => ?_) _ (allocPage_canon h e)) _ _))
    rw [setPage_mems]
    exact setEntry_canon ht _ _

theorem forkStream_canon (h : s.mems.Canon) (id src owner : Nat) (serving : Bool) : (s.forkStream id src owner serving).Canon := by
  unfold forkStream
  split
  next => exact .no _
  next st _ =>
    refine .ite (.no _) ?_
    split
    next => exact .no _
    next l1 s1 e =>
      extract_lets r
      have hr : r.Canon := by
        refine List.foldlRecOn _ _ (motive := KvRes.Canon) (.ok (allocPage_canon h e)) (fun r hr a _ => ?_)
        cases r with
        | ok u => exact forkTable_canon (hr.of_ok u rfl) _ _ _
        | no k => exact .no _
      generalize r = w at hr
      cases w with
      | ok u =>
        refine .ok ?_
        rw [setStream_mems]
        exact hr.of_ok u rfl
      | no k => exact .no k

theorem closeStream_canon (h : s.mems.Canon) (id : Nat) : (s.closeStream id).Canon := by
  unfold closeStream
  split
  next => exact .no _
  next =>
    refine .ok ?_
    rw [advanceEpoch_mems, setStream_mems, retirePage_mems]
    refine canon_foldl (fun t a ht => ?_) _ h
    rw [retirePage_mems]
    refine canon_foldl (fun u b hu => ?_) _ ht
    rwa [dropData_mems]

theorem keepChange_canon {r : KvRes} (h : r.Canon) : (keepChange r).Canon := by
  cases r with
  | ok u => exact .ite (.no _) h
  | no k => exact .no k

theorem writeRow_canon (h : s.mems.Canon) (page slot codesOff scalesOff : Nat) (vs : List Val) :
    (s.writeRow page slot codesOff scalesOff vs).mems.Canon := by
  rw [writeRow, hbmTouched_mems, hbmTouched_mems]
  refine setHbm_canon h (Memory.wf_foldl (fun m b hm => Memory.wf_write _ _ hm) _ (Memory.wf_foldl (fun m b hm => ?_) _ h.hbm))
  exact Memory.wf_foldl (fun m c hm => Memory.wf_writeElem _ _ _ _ hm) _ hm

theorem copyFill_canon (h : s.mems.Canon) (src dst fill : Nat) : (s.copyFill src dst fill).mems.Canon := by
  rw [copyFill, poisonHbm_mems, hbmTouched_mems, hbmTouched_mems, hbmTouched_mems, hbmTouched_mems]
  exact setHbm_canon h (Memory.wf_writeBytes _ _ (Memory.wf_writeBytes _ _ (Memory.wf_writeBytes _ _ (Memory.wf_writeBytes _ _ h.hbm))))

theorem appendToken_canon (h : s.mems.Canon) (st : KvStream) (layer group t : Nat) (k v : List Val) :
    (s.appendToken st layer group t k v).Canon := by
  have hput : ∀ (u : State) (pg a e : Nat), u.mems.Canon → (KvRes.ok
      (((u.writeRow pg (t % 64) 0 (offKs u) k).writeRow pg (t % 64) (offV u) (offVs u) v).setEntry a e)).Canon :=
    fun u pg a e hu => .ok (setEntry_canon (writeRow_canon (writeRow_canon hu ..) ..) ..)
  unfold appendToken
  extract_lets l withTable
  have htable : withTable.Canon := by
    unfold withTable
    split
    next => exact .ok h
    next =>
      split
      next => exact .no _
      next e => exact .ok (setEntry_canon (allocPage_canon h e) _ _)
  generalize withTable = w at htable
  cases w with
  | no k => exact .no k
  | ok s1 =>
    have h1 := htable.of_ok s1 rfl
    dsimp only
    split
    next => exact .no _
    next =>
      refine .ite ?_ (.ite (hput _ _ _ _ h1) ?_)
      · split
        next => exact .no _
        next e => exact hput _ _ _ _ (allocPage_canon h1 e)
      · split
        next => exact .no _
        next e =>
          refine hput _ _ _ _ ?_
          rw [count_mems, dropData_mems]
          exact copyFill_canon (allocPage_canon h1 e) _ _ _

theorem appendTokens_canon (st : KvStream) (layer group : Nat) (l : List (List Val × List Val)) :
    ∀ {s : State} (_ : s.mems.Canon) (t : Nat), (s.appendTokens st layer group t l).Canon := by
  induction l with
  | nil => exact fun h _ => .ok h
  | cons kv r ih =>
    intro s h t
    have hk := appendToken_canon h st layer group t kv.1 kv.2
    unfold appendTokens
    split
    next u e => exact ih (hk.of_ok u e) _
    next => exact .no _

theorem appendAll_canon (h : s.mems.Canon) (id core layer group pos : Nat) (rows : List (List Val × List Val)) :
    (s.appendAll id core layer group pos rows).Canon := by
  unfold appendAll
  split
  next => exact .no _
  next st _ =>
    refine .ite (.no _) (.ite (.no _) (.ite (.ok h) ?_))
    have hk := appendTokens_canon st layer group rows h pos
    split
    next => exact .no _
    next u e =>
      refine .ok ?_
      rw [count_mems, setStream_mems]
      refine canon_foldl (fun t i ht => ?_) _ (hk.of_ok u e)
      rwa [passToken_mems]

theorem kvAbort_canon (h : s.mems.Canon) : s.kvAbort.mems.Canon := by
  rw [kvAbort, advanceEpoch_mems, releasePages_mems, mems_upd]
  refine canon_foldl (fun t u ht => ?_) _ h
  cases u with
  | stream id old => rwa [putStream_mems]
  | entry a old => exact setHbm_canon ht (Memory.wf_writeLE _ _ _ ht.hbm)
  | page id old => rwa [putPage_mems]

theorem kvStrandedCheck_canon (h : s.mems.Canon) (a : Nat) : (s.kvStrandedCheck a).mems.Canon := by
  unfold kvStrandedCheck
  dsimp only
  split
  · exact h
  · rw [abortAt_mems]
    refine canon_foldl (fun t id ht => ?_) _ h
    split
    next u e =>
      rw [raise_mems]
      exact (closeStream_canon ht id).of_ok u e
    next => exact ht

end State

/-- A KVOP whose change keeps the memories canonical does so too. -/
theorem kvopCmd_canon {s : State} (h : s.mems.Canon) (core func : Nat) (words : List Word) {chg : State → VC → KvRes}
    (hc : ∀ d, (chg s d).Canon) : CanonNext (kvopCmd core func words chg s) := by
  have hrefuse : CanonNext (.next (s.refuseVec core (vcOf (natWords words)))) := .next (by rwa [State.refuseVec_mems])
  refine .ite (.void h) (.ite hrefuse (.ite (.void h) (.ite hrefuse ?_)))
  split
  next u e =>
    refine .next ?_
    rw [State.finishVec_mems, State.auditPages_mems]
    exact (State.keepChange_canon (hc _)).of_ok u e
  next => exact .next (by rwa [State.refuseKv_mems])

theorem execKvopOpen_canon {s : State} (h : s.mems.Canon) (core : Nat) (words : List Word) : CanonNext (execKvopOpen core words s) :=
  kvopCmd_canon h core 0 words (fun _ => .ite (.no _) (State.openStream_canon h _ _ _ _ _ _))

theorem execKvopFork_canon {s : State} (h : s.mems.Canon) (core : Nat) (words : List Word) : CanonNext (execKvopFork core words s) :=
  kvopCmd_canon h core 1 words (fun _ => .ite (.no _) (State.forkStream_canon h _ _ _ _))

theorem execKvopClose_canon {s : State} (h : s.mems.Canon) (core : Nat) (words : List Word) : CanonNext (execKvopClose core words s) :=
  kvopCmd_canon h core 2 words (fun _ => .ite (.no _) (State.closeStream_canon h _))

end Sys2Proof.Machine
end

section
/-!
SUPPORT. Proofs: the commands of a core that write its die's Hearth keep the memories canonical: drains, ST, depth-wise rows, halo rows
and term-walk records (R111, R162, R166, R169, R190), and the issues that write none. -/

namespace Sys2Proof.Machine

namespace Memory

variable {α β : Type}

theorem wf_foldl_fst {f : Memory × β → α → Memory × β} (hf : ∀ p a, p.1.wf = true → (f p a).1.wf = true) (l : List α) {p : Memory × β}
    (h : p.1.wf = true) : (l.foldl f p).1.wf = true :=
  List.foldlRecOn l f (motive := fun p => p.1.wf = true) h (fun p hp a _ => hf p a hp)

end Memory

theorem drainMx_wf {h : Memory} (hh : h.wf = true) (c : Core) (i : Issue) (f : Fmt) (ib t : Nat) : (drainMx h c i f ib t).1.wf = true := by
  refine Memory.wf_foldl_fst (fun p a hp => ?_) _ hh
  exact Memory.wf_foldl (fun m q hm => Memory.wf_writeElem _ _ _ _ hm) _ (Memory.wf_write _ _ hp)

theorem drainPlain_wf {h : Memory} (hh : h.wf = true) (c : Core) (i : Issue) (f : Fmt) (ib t : Nat) :
    (drainPlain h c i f ib t).1.wf = true :=
  Memory.wf_foldl_fst (fun _ _ hp => Memory.wf_writeElem _ _ _ _ hp) _ hh

theorem dwRow_wf {h : Memory} (hh : h.wf = true) (lb tiles : Memory) (d : VC) (w : DW) (set : SwageSet) (o : Nat) :
    (dwRow h lb tiles d w set o).1.wf = true :=
  Memory.wf_foldl_fst (fun _ _ hp => Memory.wf_writeElem _ _ _ _ hp) _ hh

variable {s : State} (h : s.mems.Canon)
include h

theorem execDrainComplete_canon (core : Nat) : CanonNext (execDrainComplete core s) := by
  unfold execDrainComplete
  extract_lets c
  split
  next => exact .void h
  next dr rest _ =>
    split
    next => exact .next (by rwa [State.setCore_mems])
    next slot ib t more _ =>
      extract_lets d
      refine .ite (.void h) (.ite (.fault _) (.next ?_))
      rw [State.opEvents_mems, State.mems_ite, State.noteDone_mems, ite_self, State.setCore_mems]
      refine State.setHearth_canon h _ ?_
      have hh := State.hearth_wf h (dieOf core)
      split
      · split
        · exact drainMx_wf hh ..
        · exact drainPlain_wf hh ..
      · exact hh

theorem execSt_canon (core : Nat) (words : List Word) : CanonNext (execSt core words s) := by
  refine .ite (.void h) (.ite (.next ?_) (.ite (.next ?_) (.ite (.fault _) (.next ?_))))
  · rwa [State.refuseVec_mems]
  · rwa [State.vecWaits_mems]
  · rw [State.finishVec_mems]
    exact State.setHearth_canon h _ (Memory.wf_foldl (fun _ _ hm => Memory.wf_writeBytes _ _ hm) _ (State.hearth_wf h _))

theorem execDwconvComplete_canon (core : Nat) : CanonNext (execDwconvComplete core s) := by
  unfold execDwconvComplete
  extract_lets c
  split
  next ws g _ _ =>
    extract_lets d w
    split
    next => exact .void h
    next set r _ =>
      refine .ite (.void h) (.ite (.fault _) (.next ?_))
      rw [State.endVec_mems, State.opEvents_mems, State.releaseRows_mems]
      refine State.canon_foldl (fun t e ht => ?_) _ ?_
      · rwa [State.sendEdge_mems]
      · rw [State.setCore_mems]
        exact State.setHearth_canon h _ (dwRow_wf (State.hearth_wf h _) ..)
  next => exact .void h

theorem execHaloRowLanded_canon (core : Nat) (up : Bool) : CanonNext (execHaloRowLanded core up s) := by
  have hrefuse : ∀ rows seg, CanonNext (.next (({ s with haloRows := rows } : State).refuseRow core seg up)) :=
    fun rows seg => .next (by rwa [State.refuseRow_mems])
  unfold execHaloRowLanded
  split
  next => exact .void h
  next x _ =>
    refine .ite (.void h) (.ite (.next h) ?_)
    split
    next => exact .next h
    next g _ =>
      split
      next => exact hrefuse ..
      next k w j _ =>
        refine .ite (.ite (.fault _) (.next ?_)) (hrefuse ..)
        rw [State.releaseRows_mems, State.setRun_mems]
        exact State.setHearth_canon (s := { s with haloRows := s.haloRows.erase x }) h _
          (Memory.wf_writeBytes _ _ (State.hearth_wf h _))

theorem execTermwalkComplete_canon (core : Nat) : CanonNext (execTermwalkComplete core s) := by
  unfold execTermwalkComplete
  extract_lets c
  split
  next => exact .void h
  next ws _ =>
    extract_lets a
    refine .ite (.void h) (.ite (.fault _) (.next ?_))
    rw [State.endVec_mems, State.draw_mems, State.count_mems, State.setCore_mems]
    exact State.setHearth_canon h _ (Memory.wf_writeBytes _ _ (State.hearth_wf h _))

namespace State

theorem acceptIssue_canon (n : Nat) (ws : List Nat) : (s.acceptIssue n ws).mems.Canon := by
  have hs : ∀ c, ((s.setCore n c).count (Reg.coreIssues n)).mems.Canon := fun c => by rwa [count_mems, setCore_mems]
  unfold acceptIssue
  rw [auditCore_mems]
  split
  · rw [count_mems]
    exact hs _
  · exact hs _

theorem takeIssue_canon (n : Nat) (ws : List Nat) : (s.takeIssue n ws).mems.Canon := by
  unfold takeIssue
  extract_lets d
  split
  next => exact acceptIssue_canon h n ws
  next => rwa [setCore_mems]
  next => rwa [refuseCmd_mems]

end State

theorem execMatmul_canon (core : Nat) (words : List Word) : CanonNext (execMatmul core words s) :=
  .ite (.next (State.takeIssue_canon h _ _)) (.void h)

end Sys2Proof.Machine
end

section
/-!
SUPPORT. Proofs: an attention command keeps the memories canonical: its appends, its staging area and the results it writes (R196 to
R206). -/

namespace Sys2Proof.Machine

theorem stage_wf {m : Memory} (hm : m.wf = true) (s : State) (d : At) (st : KvStream) (nk kb : Nat) : (stage s d st nk kb m).wf = true := by
  unfold stage
  extract_lets rb dh size base
  split
  · exact Memory.wf_poison _ _ hm
  · refine Memory.wf_foldl (fun m j hm => ?_) _ hm
    exact Memory.wf_foldl (fun m c hm => Memory.wf_writeLE _ _ _ hm) _ (Memory.wf_writeBytes _ _ (Memory.wf_writeBytes _ _ hm))

theorem forwardBlock_wf (s : State) (d : At) (x : Src) (v : VC) (pf : Fmt) (p mt qb kb : Nat) (st : Option KvStream)
    {acc : List Row × AttnRes} (h : acc.2.h.wf = true) : (forwardBlock s d x v pf p mt qb kb st acc).2.h.wf = true := by
  obtain ⟨rows, r⟩ := acc
  unfold forwardBlock
  dsimp only
  split
  next => exact h
  next =>
    dsimp only
    split
    next => exact stage_wf h ..
    next => exact h

theorem finishRow_wf (d : At) (v : VC) (fo : Fmt) (mt r : Nat) (w : Row) {m : Memory} (h : m.wf = true) :
    (finishRow d v fo mt r w m).1.wf = true := by
  unfold finishRow
  extract_lets lv addr mv lse outs
  split
  · exact Memory.wf_foldl (fun m n hm => Memory.wf_writeElem _ _ _ _ hm) _ (Memory.wf_writeLE _ _ _ h)
  · exact Memory.wf_foldl (fun m n hm => Memory.wf_writeElem _ _ _ _ hm) _ (Memory.wf_writeLE _ _ _ h)

variable {s : State} (h : s.mems.Canon)
include h

theorem forward_wf (n : Nat) (v : VC) (d : At) (st : Option KvStream) (nq nk : Nat) : (forward s n v d st nq nk).h.wf = true := by
  refine List.foldlRecOn _ _ (motive := fun r : AttnRes => r.h.wf = true) (State.hearth_wf h _) (fun r hr qb _ => ?_)
  refine List.foldlRecOn _ _ (motive := fun r : AttnRes => r.h.wf = true) ?_ (fun r hr iw _ => finishRow_wf _ _ _ _ _ _ hr)
  exact List.foldlRecOn _ _ (motive := fun a : List Row × AttnRes => a.2.h.wf = true) hr
    (fun a ha kb _ => forwardBlock_wf _ _ _ _ _ _ _ _ _ _ ha)

theorem prepass_wf (n : Nat) (v : VC) (d : At) (nq : Nat) : (prepass s n v d nq).h.wf = true := by
  refine List.foldlRecOn _ _ (motive := fun r : AttnRes => r.h.wf = true) (State.hearth_wf h _) (fun r hr i _ => ?_)
  split
  · exact Memory.wf_writeLE _ _ _ hr
  · exact Memory.wf_writeLE _ _ _ hr

omit h in
theorem backBlock_wf (h0 : Memory) (d : At) (x : Src) (v : VC) (pf df : Fmt) (p mt qb kb : Nat)
    {acc : (List (List Nat) × List (List Nat)) × AttnRes} (h : acc.2.h.wf = true) :
    (backBlock s h0 d x v pf df p mt qb kb acc).2.h.wf = true := by
  obtain ⟨⟨dk, dv⟩, r⟩ := acc
  unfold backBlock
  dsimp only
  split
  next => exact h
  next => exact Memory.wf_foldl (fun m a hm => Memory.wf_writeLE _ _ _ hm) _ h

theorem backward_wf (n : Nat) (v : VC) (d : At) (nq nk : Nat) : (backward s n v d nq nk).h.wf = true := by
  have hz := State.hearth_wf h (dieOf n)
  refine List.foldlRecOn _ _ (motive := fun r : AttnRes => r.h.wf = true)
    (Memory.wf_foldl (fun m a hm => Memory.wf_writeLE _ _ _ hm) _ hz) (fun r hr kb _ => ?_)
  have hwr : ∀ {m : Memory} (_ : m.wf = true) (base : Nat) (l : List (Nat × List Nat)), (l.foldl (fun h jl =>
      jl.2.zipIdx.foldl (fun h ce => h.writeLE (base + jl.1 * 4 * d.dh + 4 * ce.2) 4 ce.1) h) m).wf = true :=
    fun hm base l => Memory.wf_foldl (fun m jl hm => Memory.wf_foldl (fun m ce hm => Memory.wf_writeLE _ _ _ hm) _ hm) _ hm
  exact hwr (hwr (List.foldlRecOn _ _ (motive := fun a : (List (List Nat) × List (List Nat)) × AttnRes => a.2.h.wf = true) hr
    (fun a ha qb _ => backBlock_wf _ _ _ _ _ _ _ _ _ _ ha)) _ _) _ _

namespace State

theorem runAttn_canon (n func : Nat) (v : VC) (d : At) (nq : Nat) (ecc : List EccRes) : CanonNext (s.runAttn n func v d nq ecc) := by
  unfold runAttn
  extract_lets nk st u rng r c js size run c1 s1 kvp s2 s3 s4
  refine .ite (.fault _) ?_
  have hu : u.mems.Canon := by
    unfold u
    generalize st = entry
    cases entry with
    | some e => rwa [gather_mems]
    | none => exact h
  have hr : r.h.wf = true := by
    unfold r
    split
    · exact hearth_wf hu _
    · split
      · exact forward_wf hu ..
      · split
        · exact backward_wf hu ..
        · exact prepass_wf hu ..
  have h1 : s1.mems.Canon := by
    rw [setCore_mems]
    exact setHearth_canon hu _ hr
  have h2 : s2.mems = s1.mems := by
    unfold s2
    split <;> rfl
  have h3 : s3.mems = s1.mems := by rw [count_mems, count_mems, count_mems, h2]
  refine .next ?_
  rwa [draw_mems, attnEvents_mems, mems_ite, count_mems, ite_self, h3]

theorem attnStream_canon (n func : Nat) (d : At) (nq : Nat) : (s.attnStream n func d nq).Canon := by
  refine .ite (.ok h) ?_
  split
  next => exact .no _
  next => exact .ite (.no _) (.ite (keepChange_canon (appendAll_canon h _ _ _ _ _ _)) (.ok h))

theorem takeAttn_canon (n : Nat) (ws : List Nat) (ecc : List EccRes) : CanonNext (s.takeAttn n ws ecc) := by
  have hhold : CanonNext (.next (s.holdAttn n ws)) := .next (by rwa [holdAttn_mems])
  refine .ite (.fault _) ?_
  split
  next => exact hhold
  next => exact .next (by rwa [refuseCmd_mems])
  next =>
    refine .ite hhold ?_
    split
    next => exact .next (by rwa [refuseKv_mems])
    next u e =>
      refine runAttn_canon ?_ ..
      rw [auditPages_mems]
      exact (attnStream_canon (by rwa [appendChecks_mems]) ..).of_ok u e

end State

theorem attnCmd_canon (n func : Nat) (words : List Word) (ecc : List EccRes) : CanonNext (attnCmd n func words ecc s) :=
  .ite (.void h) (.ite (.next (by rwa [State.refuseVec_mems])) (.ite (.void h) (State.takeAttn_canon h _ _ _)))

theorem execIssueAcceptAfterWait_canon (core : Nat) (ecc : List EccRes) : CanonNext (execIssueAcceptAfterWait core s ecc) := by
  unfold execIssueAcceptAfterWait
  extract_lets c
  split
  next =>
    refine .ite (.ite (State.takeAttn_canon h _ _ _) ?_) (.void h)
    split
    next => exact .void h
    next => exact .next (State.takeIssue_canon h _ _)
  next => exact .void h

end Sys2Proof.Machine
end

section
/-!
SUPPORT. Proofs: transfers, the stash, hand-over chunks and gradient buckets keep the memories canonical (R178, R231 to R245, R330). -/

namespace Sys2Proof.Machine

theorem writeBack_wf {m : Memory} (h : m.wf = true) (mode srcFmt addr len : Nat) (coded : List Nat) :
    (writeBack m mode srcFmt addr len coded).wf = true := by
  refine Memory.wf_foldl_fst (fun p b hp => ?_) _ h
  dsimp only
  split
  · exact Memory.wf_writeBytes _ _ hp
  · exact hp

namespace State

variable {s : State} (h : s.mems.Canon)
include h

theorem landBlocks_canon (die : Nat) (base : Nat → Nat) (addr : Nat) (far : Nat → Nat) (l : List Flux.Block) :
    (s.landBlocks die base addr far l).mems.Canon := by
  rw [landBlocks, fluxCountAt_mems]
  refine List.foldlRecOn _ _ (motive := fun p : State × Nat => p.1.mems.Canon) h (fun p hp b _ => ?_)
  have hland : ∀ m : Memory, m.wf = true → (p.1.setHearth die m).mems.Canon := fun m hm => setHearth_canon hp die hm
  dsimp only
  rw [mems_ite, raise_mems, ite_self]
  refine hland _ ?_
  split
  · exact Memory.wf_writeBytes _ _ (hearth_wf hp die)
  · exact Memory.wf_poison _ _ (hearth_wf hp die)

theorem moveXfer_canon (n : Nat) (x : Xfer) (ecc : List EccRes) : (s.moveXfer n x ecc).mems.Canon := by
  have hfar : ∀ bs : List Byte, (if (if x.dir < 2 then 2 else 3) = 2 then (s.writeHbm x.far bs).fillBuckets x.far bs.length
      else s.writeStock x.far bs).mems.Canon := fun bs => by
    rw [mems_ite, fillBuckets_mems]
    split
    · exact writeHbm_canon h _ _
    · exact writeStock_canon h _ _
  unfold moveXfer
  dsimp only
  split
  · split
    · rw [fluxCount_mems]
      exact hfar _
    · have h2 : ∀ base st bs, ((if (if x.dir < 2 then 2 else 3) = 2 then (s.writeHbm x.far bs).fillBuckets x.far bs.length
          else s.writeStock x.far bs).fluxCount base st).mems.Canon := fun base st bs => by
        rw [fluxCount_mems]
        exact hfar bs
      exact setHearth_canon (h2 ..) _ (Memory.wf_writeLE _ _ _ (hearth_wf (h2 ..) _))
  · refine landBlocks_canon ?_ ..
    rwa [mems_ite, hbmChecks_mems, stockChecks_mems, ite_self]

theorem writeSlots_canon (r : StashRegion) (e : StashEntry) (bs : List Byte) : (s.writeSlots r e bs).mems.Canon := by
  refine canon_foldl (fun t p ht => ?_) _ h
  dsimp only
  split
  · exact setHearth_canon ht _ (Memory.wf_writeBytes _ _ (hearth_wf ht _))
  · split
    · exact writeHbm_canon ht _ _
    · exact writeStock_canon ht _ _

theorem combineBucket_canon (i seg off : Nat) : (s.combineBucket i seg off).mems.Canon := by
  unfold combineBucket
  split
  next => exact h
  next b _ =>
    split
    next => exact h
    next g _ =>
      extract_lets
      split
      · exact h
      · split
        · exact writeStock_canon (by rwa [setBucket_mems]) _ _
        · rwa [sendRouted_mems, setBucket_mems]

theorem launchBucket_canon (i : Nat) : (s.launchBucket i).mems.Canon := by
  unfold launchBucket
  split
  next => exact h
  next b _ =>
    extract_lets
    split
    · exact h
    · split
      · exact h
      · refine canon_foldl (fun t p ht => canon_foldl (fun u k hu => combineBucket_canon hu ..) _ ht) _ ?_
        rwa [auditTokens_mems, setBucket_mems, uncount_mems]

theorem fireBucket_canon (i : Nat) : (s.fireBucket i).mems.Canon := by
  unfold fireBucket
  split
  · exact launchBucket_canon (by rwa [setBucket_mems]) i
  · rwa [setBucket_mems]

end State

variable {s : State} (h : s.mems.Canon)
include h

theorem execXferComplete_canon (core : Nat) (ecc : List EccRes) : CanonNext (execXferComplete core ecc s) := by
  unfold execXferComplete
  split
  next => exact .void h
  next =>
    refine .ite (.void h) (.ite (.fault _) (.next ?_))
    rw [State.pump_mems, State.popXfer_mems]
    exact State.moveXfer_canon h ..

theorem execStashLanded_canon (core : Nat) : CanonNext (execStashLanded core s) := by
  unfold execStashLanded
  split
  next => exact .void h
  next x _ _ =>
    refine .ite (.void h) ?_
    split
    next r e _ _ =>
      have h1 : ∀ bs base st, ((s.writeSlots r e bs).fluxCountAt base st).mems.Canon := fun bs base st => by
        rw [State.fluxCountAt_mems]
        exact State.writeSlots_canon h ..
      refine .next ?_
      rw [State.pump_mems, State.popXfer_mems, State.mems_upd]
      dsimp only
      split
      · exact State.setHearth_canon (h1 ..) _ (writeBack_wf (State.hearth_wf (h1 ..) _) ..)
      · exact h1 ..
    next => exact .void h

theorem execFetchComplete_canon (region mb : Nat) (ecc : List EccRes) : CanonNext (execFetchComplete region mb ecc s) := by
  unfold execFetchComplete
  split
  next => exact .void h
  next r _ =>
    refine .ite (.void h) (.ite (.fault _) (.next ?_))
    rw [State.mems_upd]
    refine State.canon_foldl (fun t p ht => ?_) _ h
    dsimp only
    split
    next e _ =>
      rw [State.count_mems]
      refine State.landBlocks_canon (State.canon_foldl (fun u slot hu => ?_) _ ht) ..
      rwa [State.mems_ite, State.hbmChecks_mems, State.mems_ite, State.stockChecks_mems, ite_self, ite_self]
    next => exact ht

theorem execChunkLanded_canon (channel mb chunk attempt : Nat) (data : List Byte) :
    CanonNext (execChunkLanded channel mb chunk attempt data s) := by
  unfold execChunkLanded
  split
  next => exact .void h
  next ch _ =>
    extract_lets hd r0 here h1 expect slot a bs s1 s2 t1
    have hs1 : s1.mems.Canon := by
      unfold s1
      rwa [State.setHand_mems]
    refine .ite (.void h) (.ite (.next (by rwa [State.count_mems])) (.ite (.void h) (.ite (.ite (.fault _) (.next ?_)) (.next ?_))))
    · rw [State.count_mems]
      unfold s2
      split
      · exact State.setHearth_canon hs1 _ (Memory.wf_writeBytes _ _ (State.hearth_wf hs1 _))
      · refine State.writeHbm_canon ?_ _ _
        rwa [State.mems_ite, State.fluxPass_mems, ite_self]
    · rw [State.abortHold_mems, State.raise_mems, State.count_mems]
      unfold t1
      rwa [State.setHand_mems]

theorem execBucketFilled_canon (bucket : Nat) (ecc : List EccRes) : CanonNext (execBucketFilled bucket s ecc) := by
  unfold execBucketFilled
  split
  next => exact .void h
  next =>
    refine .ite (.void h) (.next ?_)
    rw [State.placeWant_mems]
    exact State.launchBucket_canon (by rwa [State.bucketChecks_mems]) _

theorem execBucket_canon (stream attempt seg child off : Nat) (data : List Byte) (ecc : List EccRes) :
    CanonNext (execBucket stream attempt seg child off data s ecc) := by
  unfold execBucket
  split
  next => exact .void h
  next =>
    split
    next => exact .void h
    next =>
      refine .ite (.void h) (.next ?_)
      rw [State.placeWant_mems]
      exact State.combineBucket_canon (by rwa [State.segChecks_mems, State.setBucket_mems]) ..

theorem execBucketComplete_canon (bucket : Nat) (ecc : List EccRes) : CanonNext (execBucketComplete bucket s ecc) := by
  unfold execBucketComplete
  extract_lets r s1
  have h1 : s1.mems.Canon := by
    unfold s1
    rwa [State.auditTokens_mems, State.count_mems, State.count_mems, State.setBucket_mems, State.zeroStream_mems,
      State.bucketChecks_mems]
  refine .ite (.void h) ?_
  split
  next => exact .next h1
  next i rest _ =>
    refine .next ?_
    rw [State.placeWant_mems]
    refine State.launchBucket_canon ?_ _
    rwa [State.bucketChecks_mems]

end Sys2Proof.Machine
end

section
/-!
SUPPORT. Proofs: Temper's updates, push images and pushes keep the memories canonical (R261 to R274). -/

namespace Sys2Proof.Machine

namespace State

theorem updFault_mems (s : State) (range : Nat) : (s.updFault range).mems = s.mems := by
  unfold updFault
  dsimp only
  split
  · split
    · rw [raiseHold_mems, mems_upd]
    · rfl
  · rw [placeWant_mems, mems_upd]

theorem tmpNonfinite_mems (s : State) (range entry : Nat) (bad : Bool) : (s.tmpNonfinite range entry bad).mems = s.mems := by
  unfold tmpNonfinite
  rw [mems_ite, updFault_mems, raise_mems, ite_self]

variable {s : State} (h : s.mems.Canon)
include h

theorem tmpRead_canon {l : List (Nat × Nat)} {ecc : List EccRes} {t : State} {bad : Bool} (e : s.tmpRead l ecc = (t, bad)) :
    t.mems.Canon := by
  have ht := s.tmpRead_mems l ecc
  rw [e] at ht
  exact ht ▸ h

theorem putVal_canon (a : Nat) (v : Val) : (s.putVal a v).mems.Canon := writeStock_canon h _ _

theorem putElem_canon (g : TmpGroup) (j : Nat) (x : WMV) : (s.putElem g j x).mems.Canon := by
  have h1 : ((s.putVal (g.w + 4 * j) x.w).putVal (g.m + 4 * j) x.m).mems.Canon := putVal_canon (putVal_canon h _ _) _ _
  unfold putElem
  dsimp only
  split
  · exact putVal_canon h1 _ _
  · exact h1

theorem putMat_canon (a n : Nat) (m : Mat) : (s.putMat a n m).mems.Canon :=
  canon_foldl (fun _ _ ht => putVal_canon ht _ _) _ h

theorem clearG_canon (g : TmpGroup) (first n : Nat) : (s.clearG g first n).mems.Canon := writeStock_canon h _ _

theorem runTile_canon (range entry : Nat) (g : TmpGroup) (k : Scalars) (ecc : List EccRes) (i : Nat) :
    (s.runTile range entry g k ecc i).mems.Canon := by
  have hread : ∀ l, (s.tmpRead l ecc).1.mems.Canon := fun l => by rwa [tmpRead_mems]
  unfold runTile
  dsimp only
  split
  · exact h
  · split
    · rw [updFault_mems]
      exact hread _
    · rw [tmpNonfinite_mems, tmpEvents_mems]
      refine clearG_canon ?_ ..
      rw [workTile_mems]
      exact canon_foldl (fun _ _ ht => putElem_canon ht _ _ _) _ (hread _)

theorem runProgramTile_canon (range entry : Nat) (g : TmpGroup) (k : Scalars) (prog : List (List Word)) (ecc : List EccRes) (i : Nat) :
    (s.runProgramTile range entry g k prog ecc i).mems.Canon := by
  have hread : ∀ l, (s.tmpRead l ecc).1.mems.Canon := fun l => by rwa [tmpRead_mems]
  unfold runProgramTile
  dsimp only
  split
  · exact h
  · split
    · rw [updFault_mems]
      exact hread _
    · rw [tmpNonfinite_mems, tmpTraps_mems, workTile_mems]
      exact clearG_canon (canon_foldl (fun _ _ ht => putElem_canon ht _ _ _) _ (hread _)) ..

theorem runRoot_canon (entry : Nat) (g : TmpGroup) (b : Blk) (isR : Bool) : (s.runRoot entry g b isR).mems.Canon := by
  unfold runRoot
  dsimp only
  split
  · exact putMat_canon h ..
  · rwa [raise_mems, count_mems]

theorem runBlock_canon (range entry st : Nat) (g : TmpGroup) (k : Scalars) (ecc : List EccRes) (b : Blk) :
    (s.runBlock range entry st g k ecc b).mems.Canon := by
  unfold runBlock
  split
  · exact h
  · extract_lets ranges
    split
    next s1 bad e =>
    have h1 := tmpRead_canon h e
    extract_lets gq gb gt gg hh l r l' r' s2 s3 mq m' pl pr pm u xs s4 s5 s6
    have hclear : ∀ {t : State}, t.mems.Canon → ((List.range b.r).foldl (fun t i => t.clearG g (blkElem g b i 0) b.c) t).mems.Canon :=
      fun ht => canon_foldl (fun _ _ hu => clearG_canon hu ..) _ ht
    split
    · rwa [updFault_mems]
    · split
      · exact hclear h1
      · have hsolver : ∀ (t : State) (l : List Cause), (l.foldl (fun t c => t.tmpTrap c 16 entry b.num) t).mems = t.mems :=
          fun t l => mems_foldl (fun t c => tmpTrap_mems ..) l t
        have h2 : s2.mems.Canon := by
          unfold s2
          split
          · exact h1
          · rw [hsolver, solverPut_mems]
            exact putMat_canon (putMat_canon h1 ..) ..
        have h3 : s3.mems.Canon := by
          unfold s3
          split
          · exact h2
          · exact runRoot_canon (runRoot_canon h2 ..) ..
        have h4 : s4.mems.Canon := hclear (canon_foldl (fun _ _ ht => putElem_canon ht _ _ _) _ h3)
        have h5 : s5.mems = s4.mems := by
          unfold s5
          rw [hsolver, solverPut_mems, solverPut_mems]
        have h6 : s6.mems = s5.mems := by
          refine mems_foldl (fun t line => mems_foldl (fun t x => mems_foldl (fun t q => ?_) _ t) _ t) _ s5
          rw [mems_ite, tmpTrap_mems, ite_self]
        rwa [tmpNonfinite_mems, h6, h5]

theorem buildImage_canon (g : TmpGroup) (p : Push) : (s.buildImage g p).mems.Canon := by
  refine canon_foldl (fun t r ht => ?_) _ h
  dsimp only
  rw [mems_ite, poisonStock_mems, ite_self]
  exact writeStock_canon (writeStock_canon ht _ _) _ _

theorem buildImages_canon (p : TemperPlan) (g : TmpGroup) : (s.buildImages p g).mems.Canon :=
  canon_foldl (fun _ _ ht => buildImage_canon ht _ _) _ h

theorem runGroup_canon (p : TemperPlan) (range entry st : Nat) (g : TmpGroup) (ecc : List EccRes) :
    (s.runGroup p range entry st g ecc).mems.Canon := by
  have h0 : ∀ l, ((s.put Reg.tmpStatusGroup entry).tmpTraps l).mems.Canon := fun l => by rwa [tmpTraps_mems, put_mems]
  have hbuild : ∀ t : State, t.mems.Canon → (if t.tmp.failed then t else t.buildImages p g).mems.Canon := fun t ht => by
    split
    · exact ht
    · exact buildImages_canon ht _ _
  unfold runGroup
  split
  · exact h
  · refine hbuild _ ?_
    split
    · split
      next t bad e =>
      have ht := tmpRead_canon (h0 _) e
      split
      · rwa [updFault_mems]
      · exact clearG_canon ht ..
    · split
      · exact canon_foldl (fun _ _ ht => runBlock_canon ht ..) _ (h0 _)
      · split
        · exact canon_foldl (fun _ _ ht => runProgramTile_canon ht ..) _ (h0 _)
        · exact canon_foldl (fun _ _ ht => runTile_canon ht ..) _ (h0 _)

theorem runRange_canon (p : TemperPlan) (range st : Nat) (ecc : List EccRes) : (s.runRange p range st ecc).mems.Canon := by
  have hend : ∀ t : State, t.mems.Canon → (if t.tmp.failed then t
      else ({ t with tmp := { t.tmp with ranges := t.tmp.ranges.filter (fun r => r != range), done := t.tmp.done ++ [range] } }).endUpdate st
        |>.tmpPhase).mems.Canon := fun t ht => by
    split
    · exact ht
    · rwa [tmpPhase_mems, endUpdate_mems, mems_upd]
  unfold runRange
  refine hend _ ?_
  split
  · exact h
  · refine canon_foldl (fun t e ht => ?_) _ h
    split
    · exact runGroup_canon ht ..
    · exact ht

theorem pushBytes_canon (p : Push) (src dst n : Nat) : (s.pushBytes p src dst n).mems.Canon := by
  have h1 : (s.count64 Reg.tmpPushBytesLo Reg.tmpPushBytesHi n).mems.Canon := by rwa [count64_mems]
  unfold pushBytes
  dsimp only
  split
  · rw [mems_ite, poisonHbm_mems, ite_self, fluxPass_mems]
    exact writeHbm_canon h1 _ _
  · rw [fluxPass_mems]
    have hm := Memory.wf_writeBytes dst (s.stock.readBytes src n) (hearth_wf h1 p.die)
    refine setHearth_canon h1 _ ?_
    split
    · exact Memory.wf_poison _ _ hm
    · exact hm

theorem runPush_canon (p : Push) : (s.runPush p).mems.Canon := by
  have h1 := canon_foldl (f := fun t r => t.pushBytes p (p.img + r * p.stride) (p.dst + r * p.stride) (pushRow (pushFmt p) p))
    (fun _ _ ht => pushBytes_canon ht ..) (List.range (pushRows p)) h
  unfold runPush
  dsimp only
  split
  · exact pushBytes_canon h1 ..
  · exact h1

theorem skipStep_canon (p : TemperPlan) : (s.skipStep p).mems.Canon := by
  rw [skipStep, raise_mems, count_mems]
  exact canon_foldl (fun _ _ ht => clearG_canon ht ..) _ h

theorem normReady_canon (p : TemperPlan) (clipf : Nat) (bad : Bool) : (s.normReady p clipf bad).mems.Canon := by
  have h1 : ((({ s with tmp := { s.tmp with ready := true, clipf := clipf } }) : State).put Reg.tmpStatusPhase 3).mems.Canon := h
  unfold normReady
  dsimp only
  split
  · exact skipStep_canon h1 p
  · exact h1

theorem beginUpdate_canon (range st : Nat) : (s.beginUpdate range st).mems.Canon := by
  unfold beginUpdate
  split
  next => exact h
  next p _ =>
    extract_lets s1 s2
    have h2 : s2.mems.Canon := by
      unfold s2
      rwa [mems_ite, raise_mems, put_mems, count_mems, put_mems, put_mems, ite_self]
    split
    · exact normReady_canon h2 ..
    · split
      · dsimp only
        split
        · rwa [updFault_mems, tmpRead_mems]
        · rwa [contribute_mems, tmpTraps_mems, tmpRead_mems]
      · exact h2

theorem endPrepass_canon (p : TemperPlan) (ecc : List EccRes) : (s.endPrepass p ecc).mems.Canon := by
  unfold endPrepass
  dsimp only
  split
  · exact h
  · split
    · rwa [updFault_mems, tmpRead_mems]
    · exact normReady_canon (by rwa [tmpTraps_mems, tmpRead_mems]) ..

theorem fireUpdate_canon (range : Nat) : (s.fireUpdate range).mems.Canon := by
  have hbegin : ∀ st, (if s.tmp.step = some st then s else s.beginUpdate range st).mems.Canon := fun st => by
    split
    · exact h
    · exact beginUpdate_canon h range st
  unfold fireUpdate
  extract_lets st s1
  have h1 : s1.mems.Canon := hbegin st
  split
  · exact h1
  · rwa [tmpPhase_mems, mems_upd]

theorem finishUpdates_canon (st : Nat) : (s.finishUpdates st).mems.Canon := by
  unfold finishUpdates
  split
  next => exact h
  next p _ =>
    extract_lets all s0 s1 s2
    have h0 : s0.mems.Canon := by
      unfold s0
      split
      · exact h
      · exact beginUpdate_canon h _ st
    have h1 : s1.mems.Canon := endPrepass_canon h0 p []
    have h2 : s2.mems.Canon := by
      unfold s2
      split
      · exact h1
      · rw [draw_mems]
        exact normReady_canon h1 ..
    exact canon_foldl (fun _ _ ht => runRange_canon ht ..) _ h2

theorem rebuildPushes_canon (ecc : List EccRes) : (s.rebuildPushes ecc).mems.Canon := by
  unfold rebuildPushes
  split
  next => exact h
  next p _ =>
    refine canon_foldl (fun _ _ ht => runPush_canon ht _) _ (canon_foldl (fun _ _ ht => buildImages_canon ht _ _) _
      (canon_foldl (fun t g ht => ?_) _ h))
    rwa [mems_ite, stockChecks_mems, ite_self]

theorem startShard_canon : s.startShard.mems.Canon := by
  unfold startShard
  split
  next => exact h
  next p _ =>
    rw [put_mems]
    refine canon_foldl (fun t g ht => canon_foldl (fun u b hu => ?_) _ ht) _ h
    exact putMat_canon (putMat_canon (putMat_canon (putMat_canon hu ..) ..) ..) ..

end State

variable {s : State} (h : s.mems.Canon)
include h

theorem execNormResult_canon (ecc : List EccRes) : CanonNext (execNormResult s ecc) := by
  unfold execNormResult
  split
  next => exact .void h
  next p _ =>
    split
    next => exact .void h
    next vals mask _ =>
      refine .ite (.void h) ?_
      dsimp only
      refine .ite (.next ?_) (.next ?_)
      · rwa [State.updFault_mems, State.tmpRead_mems]
      · rw [State.tmpPhase_mems]
        refine State.normReady_canon ?_ ..
        rwa [State.mems_ite, State.count_mems, State.put_mems, State.tmpTraps_mems, State.tmpRead_mems, ite_self]

theorem execUpdateRangeDone_canon (range : Nat) (ecc : List EccRes) : CanonNext (execUpdateRangeDone range ecc s) := by
  unfold execUpdateRangeDone
  split
  next p st _ _ =>
    have h1 := State.endPrepass_canon h p ecc
    refine .ite (.void h) (.next ?_)
    split
    · exact h1
    · exact State.runRange_canon h1 ..
  next => exact .void h

theorem execWeightPushDone_canon (range : Nat) (ecc : List EccRes) : CanonNext (execWeightPushDone range ecc s) := by
  unfold execWeightPushDone
  split
  next => exact .void h
  next p _ =>
    refine .ite (.void h) (.next ?_)
    rw [State.tmpPhase_mems, State.mems_upd]
    refine State.canon_foldl (fun t i ht => ?_) _ h
    split
    · refine State.runPush_canon ?_ _
      rw [State.stockChecks_mems, State.mems_foldl (fun t r => State.stockChecks_mems ..)]
      exact ht
    · exact ht

end Sys2Proof.Machine
end

section
/-!
SUPPORT. Proofs: Bloom's samples and spares keep the memories canonical (R346 to R358). -/

namespace Sys2Proof.Machine

namespace State

variable {s : State} (h : s.mems.Canon)
include h

theorem copySpare_canon (d : BloomStream) (place mb slot : Nat) : (s.copySpare d place mb slot).mems.Canon := by
  unfold copySpare
  extract_lets src dst n bs bad t m
  split
  · rw [mems_ite, poisonHbm_mems, ite_self]
    exact writeHbm_canon h _ _
  · rw [fluxPass_mems]
    have hm : m.wf = true := Memory.wf_writeBytes _ _ (hearth_wf h _)
    refine setHearth_canon h _ ?_
    split
    · exact Memory.wf_poison _ _ hm
    · exact hm

theorem giveSpare_canon (e : Nat) (f : Fill) (index : Nat) : (s.giveSpare e f index).mems.Canon := by
  unfold giveSpare
  split
  · split
    · rw [setBstream_mems, setFill_mems]
      exact copySpare_canon h ..
    · rwa [setBstream_mems, setFill_mems]
  · exact h

theorem substitute_canon (e : Nat) (f : Fill) (reason : Nat) : (s.substitute e f reason).mems.Canon := by
  unfold substitute
  split
  · exact h
  · extract_lets b
    split
    · rwa [recordSubst_mems, count_mems, setFill_mems, setBstream_mems]
    · rw [recordSubst_mems, appendReserve_mems]
      exact giveSpare_canon (by rwa [setBstream_mems]) ..

theorem skipSample_canon (e index reason : Nat) : (s.skipSample e index reason).mems.Canon := by
  unfold skipSample
  split
  · exact h
  · extract_lets s1 b b1
    have h1 : s1.mems.Canon := by
      unfold s1
      rwa [put64_mems, put_mems, put_mems, count_mems, count_mems, dropSample_mems]
    have h2 : ∀ c, (s1.setBstream e c).mems.Canon := fun c => by rwa [setBstream_mems]
    split
    · rw [appendReserve_mems]
      split
      · split
        · exact giveSpare_canon (by rw [setBstream_mems]; exact h2 _) ..
        · exact h2 _
      · exact h2 _
    · exact h2 _

theorem fillSkipped_canon (e step mb : Nat) : (s.fillSkipped e step mb).mems.Canon := by
  unfold fillSkipped
  split
  · exact h
  · refine canon_foldl (fun t f ht => ?_) _ h
    split
    · exact substitute_canon ht ..
    · exact ht

theorem deadline_canon (e step mb : Nat) : (s.deadline e step mb).mems.Canon := by
  unfold deadline
  split
  · exact h
  · refine canon_foldl (fun t f ht => ?_) _ h
    split
    · exact ht
    · split
      · exact substitute_canon ht ..
      · split
        · rwa [count_mems]
        · exact substitute_canon (by rwa [setBstream_mems, count_mems, dropSample_mems]) ..

theorem deadlinesAt_canon (a : Nat) : (s.deadlinesAt a).mems.Canon := by
  refine canon_foldl (fun t e ht => ?_) _ h
  split
  · exact ht
  · extract_lets o mbs
    split
    · exact ht
    · refine canon_foldl (fun u j hu => ?_) _ ht
      split
      · exact deadline_canon hu ..
      · exact hu

theorem replayAt_canon (a : Nat) : (s.replayAt a).mems.Canon := by
  refine canon_foldl (fun t r ht => ?_) _ h
  split
  · exact substitute_canon (by rwa [dropSample_mems]) ..
  · exact ht

theorem writeRows_canon (d : BloomStream) (hearth : Bool) (base : Nat) (rows : List (List Byte)) :
    (s.writeRows d hearth base rows).mems.Canon := by
  refine canon_foldl (fun t r ht => ?_) _ h
  dsimp only
  split
  · exact setHearth_canon ht _ (Memory.wf_writeBytes _ _ (hearth_wf ht _))
  · exact writeHbm_canon ht _ _

end State

variable {s : State} (h : s.mems.Canon)
include h

theorem execAbsent_canon (frame : BloomFrame) : CanonNext (execAbsent frame s) := by
  have hcount : ∀ f : Fld, (s.count f).mems.Canon := fun f => by rwa [State.count_mems]
  unfold execAbsent
  split
  next => exact .next (hcount _)
  next e d _ =>
    have h1 : (s.takeNonce d frame).mems.Canon := by rwa [State.takeNonce_mems]
    refine .ite (.void h) (.ite (.next (hcount _)) (.ite (.next ?_) (.next ?_)))
    · rw [State.assignAll_mems]
      exact State.skipSample_canon h1 ..
    · rwa [State.count_mems]

theorem execData_canon (frame : BloomFrame) (data : List Byte) (head : CodedHead) : CanonNext (execData frame data head s) := by
  have hcount : ∀ f : Fld, (s.count f).mems.Canon := fun f => by rwa [State.count_mems]
  unfold execData
  split
  next => exact .next (hcount _)
  next e d _ =>
    have h1 : (s.takeNonce d frame).mems.Canon := by rwa [State.takeNonce_mems]
    have h1c : ∀ f : Fld, ((s.takeNonce d frame).count f).mems.Canon := fun f => by rwa [State.count_mems]
    refine .ite (.void h) (.ite (.next (hcount _)) ?_)
    extract_lets s1
    split
    next => exact .next (h1c _)
    next x _ =>
      refine .ite (.next (h1c _)) (.ite (.next h1) (.ite (.next ?_) (.next ?_)))
      · rw [State.assignAll_mems]
        exact State.skipSample_canon h1 ..
      · rwa [State.assignAll_mems, State.setSample_mems, State.count64_mems]

theorem execDecodeComplete_canon (entry index : Nat) (poisoned : Bool) (ecc : List EccRes) :
    CanonNext (execDecodeComplete entry index poisoned s ecc) := by
  have h1 : (decodeChecks s entry index ecc).mems.Canon := by rwa [decodeChecks_mems]
  unfold execDecodeComplete
  extract_lets t
  split
  next d x _ _ =>
    refine .ite (.void h) ?_
    split
    next =>
      refine .next ?_
      rw [State.assignAll_mems]
      exact State.skipSample_canon h1 ..
    next rows _ =>
      split
      next =>
        split
        next => exact .void h
        next =>
          refine .next ?_
          rw [State.assignAll_mems, State.setBstream_mems, State.count_mems, State.dropSample_mems]
          exact State.writeRows_canon h1 ..
      next =>
        refine .ite (.void h) (.next ?_)
        rw [State.assignAll_mems, State.setFill_mems, State.count_mems, State.dropSample_mems]
        exact State.writeRows_canon h1 ..
      next => exact .next (by rwa [State.assignAll_mems, State.dropSample_mems])
  next => exact .void h

theorem execSpareCopy_canon (entry index : Nat) (ecc : List EccRes) : CanonNext (execSpareCopy entry index s ecc) := by
  unfold execSpareCopy
  split
  next x f _ _ _ =>
    refine .ite (.void h) (.next (State.giveSpare_canon ?_ ..))
    split
    · rwa [State.hbmChecks_mems]
    · exact h
  next => exact .void h

end Sys2Proof.Machine
end

section
/-!
SUPPORT. Proofs: strokes, gates, aborts, stops and elections keep the memories canonical (R39 to R66, R220). -/

namespace Sys2Proof.Machine

namespace State

variable {s : State} (h : s.mems.Canon)
include h

theorem dropStep_canon (step : Nat) : (s.dropStep step).mems.Canon := by
  rw [dropStep, abortBloom_mems]
  refine kvAbort_canon ?_
  rw [clearStash_mems, put_mems, mems_upd, mems_foldl (fun t p => dropStale_mems ..)]
  exact h

theorem rollBack_canon (m : CadMsg) : (s.rollBack m).mems.Canon := by
  rw [rollBack, mems_upd]
  refine dropStep_canon ?_ _
  rwa [count_mems, cancelHolds_mems]

theorem stopJob_canon (cause angle : Nat) : (s.stopJob cause angle).mems.Canon := by
  have h1 : s.cancelHolds.mems.Canon := by rwa [cancelHolds_mems]
  unfold stopJob
  extract_lets s1 cad s2 s3 s4 s5
  have h4 : s4.mems.Canon := by
    unfold s4 s3
    rw [endRestore_mems, journalStop_mems, flushReset_mems]
    exact h1
  have h5 : s5.mems.Canon := by
    unfold s5
    rw [finishHalts_mems]
    split
    · exact dropStep_canon h4 _
    · exact h4
  rwa [mems_ite, finishRunning_mems, ite_self]

theorem abortBack_canon (m : CadMsg) : (s.abortBack m).mems.Canon := by
  unfold abortBack
  split
  · refine stopJob_canon ?_ ..
    rwa [mems_upd, passOn_mems, settle_mems]
  · rwa [mems_ite, passOn_mems, rejoin_mems, ite_self]

theorem electionFail_canon : s.electionFail.mems.Canon := by
  unfold electionFail
  extract_lets addr t c s1
  split
  · exact stopJob_canon (by rwa [raise_mems]) ..
  · rw [finishHalts_mems]
    have h1 : s1.mems.Canon := by
      unfold s1
      rwa [mems_upd, endRestore_mems]
    split
    · rwa [refuseWith_mems]
    · rwa [raise_mems]

theorem startElection_canon : s.startElection.mems.Canon := by
  unfold startElection
  extract_lets cad s1 s2
  have h1 : s1.mems.Canon := h
  split
  · exact electionFail_canon h1
  · rw [confirmLowest_mems]
    unfold s2
    rwa [mems_ite, mems_foldl (fun t d => sendCad_mems ..), ite_self]

theorem gateChecks_canon (e : Strike) (step : Nat) : (s.gateChecks e step).mems.Canon := by
  unfold gateChecks
  split
  · split
    · rwa [auditHands_mems, mems_foldl (fun t n => endChecks_mems ..)]
    · exact h
  · split
    · split
      · exact fillSkipped_canon h ..
      · exact h
    · exact h
  · rwa [startFetch_mems]
  · exact kvStrandedCheck_canon (by rwa [stashStranded_mems]) _
  · exact h

theorem evalGate_canon (i : Nat) (e : Strike) (step : Nat) : (s.evalGate i e step).mems.Canon := by
  unfold evalGate
  dsimp only
  rw [mems_ite, raiseHold_mems, ite_self]
  exact gateChecks_canon h ..

theorem evalAt_canon (a : Nat) : (s.evalAt a).mems.Canon := by
  refine canon_foldl (fun t e ht => ?_) _ h
  dsimp only
  split
  · exact evalGate_canon ht ..
  · exact ht

omit h in
theorem holdCapture_mems (s : State) (before : Bool) (a lead : Nat) : (s.holdCapture before a lead).mems = s.mems := by
  unfold holdCapture
  split
  · rfl
  · refine mems_foldl (fun t e => ?_) _ s
    dsimp only
    rw [mems_ite, raiseHold_mems, ite_self]

theorem fireEntry_canon (i : Nat) (e : Strike) (step : Nat) : (s.fireEntry i e step).mems.Canon := by
  have h1 : (s.count Reg.cadStrikeFired).mems.Canon := by rwa [count_mems]
  unfold fireEntry
  extract_lets s1
  split
  · rwa [fireStageStart_mems]
  · rwa [fireStageEnd_mems]
  · rwa [intakeOpen_mems]
  · rwa [intakeClose_mems]
  · exact fireBucket_canon h1 _
  · exact h1
  · rwa [fireSpillClose_mems]
  · rwa [startFetch_mems]
  · exact fireUpdate_canon h1 _
  · rwa [firePush_mems]
  · rwa [fireCapture_mems]
  · rwa [journalInternal_mems]
  · exact h1

theorem fireStroke_canon (a : Nat) : (s.fireStroke a).mems.Canon := by
  refine canon_foldl (fun t e ht => ?_) _ h
  dsimp only
  split
  · exact fireEntry_canon ht ..
  · exact ht

theorem serveApply_canon (x : Slot) : (s.serveApply x).mems.Canon := by
  have hrefused : ∀ k id, (s.serveRefused x k id).mems.Canon := fun k id => by rwa [serveRefused_mems]
  have h1 : s.draw.mems.Canon := by rwa [draw_mems]
  unfold serveApply
  extract_lets id imm s1 owner
  split
  · split
    next st _ =>
      split
      · have hr := closeStream_canon h id
        split
        next u e =>
          rw [serveDone_mems]
          exact hr.of_ok u e
        next => exact hrefused ..
      · exact hrefused ..
    next => exact hrefused ..
  · split
    next => rwa [serveRefused_mems]
    next new _ =>
      extract_lets r
      have hr : (keepChange r).Canon := by
        refine keepChange_canon (.ite (.no _) (.ite (openStream_canon h1 ..) ?_))
        split
        · exact .ite (forkStream_canon h1 ..) (.no _)
        · exact .no _
      split
      next u e =>
        rw [serveDone_mems]
        exact hr.of_ok u e
      next => rwa [serveRefused_mems]

omit h in
theorem servesDue_canon (n : Nat) : ∀ {s : State} (_ : s.mems.Canon), (s.servesDue n).mems.Canon := by
  induction n with
  | zero => exact fun h => h
  | succ k ih =>
    intro s h
    unfold servesDue
    split
    next => exact h
    next m _ =>
      split
      next x _ =>
        split
        · exact ih (serveApply_canon h x)
        · exact h
      next => exact h

theorem stroke_canon (a attempt : Nat) : (s.stroke a attempt).mems.Canon := by
  unfold stroke
  extract_lets c quiet first at0 commits s0 cad0 s1 cad1 s2 s3 s4 cad5 s5 s6 s7 lead s8
  have h1 : s1.mems.Canon := by
    unfold s1 s0
    rwa [mems_upd, mems_ite, passGate_mems, ite_self]
  split
  · exact h1
  · have h4 : s4.mems.Canon := by
      unfold s4 s3 s2
      rwa [mems_ite, commitStep_mems, ite_self, mems_ite, beginStep_mems, ite_self, flushReset_mems]
    have h5 : s5.mems.Canon := by
      refine fireStroke_canon ?_ a
      exact h4
    have h6 : s6.mems.Canon := by
      unfold s6
      split
      · exact replayAt_canon h5 a
      · exact deadlinesAt_canon h5 a
    have h7 : s7.mems.Canon := by
      unfold s7
      split
      · exact servesDue_canon _ h6
      · exact h6
    have h8 : s8.mems.Canon := by
      unfold s8
      split
      · exact canon_foldl (fun _ _ ht => evalAt_canon ht _) _ h7
      · exact h7
    rw [holdCapture_mems]
    exact evalAt_canon h8 _

omit h in
theorem catchUp_canon (a n : Nat) : ∀ {s : State} (_ : s.mems.Canon), (s.catchUp a n).mems.Canon := by
  induction n with
  | zero => exact fun h => h
  | succ k ih =>
    intro s h
    refine ih ?_
    rw [count_mems]
    exact stroke_canon h ..

theorem takeBeat_canon (m : CadMsg) : (s.takeBeat m).mems.Canon := by
  unfold takeBeat
  extract_lets c miss n s1 s2 s3
  have h3 : s3.mems.Canon := by
    unfold s3
    rw [placeHalt_mems, placeWant_mems, runDone_mems, auditHolds_mems, pulseOut_mems]
    refine stroke_canon (catchUp_canon _ _ ?_) ..
    exact h
  split
  · split
    · rwa [endReplay_mems]
    · exact h3
  · exact h3

end State

variable {s : State} (h : s.mems.Canon)
include h

theorem execBeat_canon (msg : CadMsg) : CanonNext (execBeat msg s) := by
  have h1 : (s.rejoin msg).mems.Canon := by rwa [State.rejoin_mems]
  refine .ite (.next (by rwa [State.count_mems])) (.ite (.void h) (.ite (.next h1) (.next (State.takeBeat_canon ?_ msg))))
  rwa [State.passOn_mems, State.meet_mems]

theorem execAbort_canon (msg : CadMsg) : CanonNext (execAbort msg s) := by
  have h1 : ((s.meet msg).passOn msg).mems.Canon := by rwa [State.passOn_mems, State.meet_mems]
  refine .ite (.next (by rwa [State.count_mems])) (.ite (.next (State.abortBack_canon h msg)) (.ite (.void h) (.ite (.void h)
    (.ite (.next (State.stopJob_canon ?_ ..)) (.next (State.rollBack_canon h1 msg))))))
  exact h1

theorem execElectionTimeout_canon : CanonNext (execElectionTimeout s) := .ite (.void h) (.next (State.electionFail_canon h))

theorem execMasterLost_canon : CanonNext (execMasterLost s) := by
  refine .ite (.void h) (.next (State.startElection_canon ?_))
  rwa [State.mems_upd, State.cancelHolds_mems, State.raise_mems]

theorem execQuenchNotice_canon (src : Nat) : CanonNext (execQuenchNotice src s) := by
  have h1 : (((s.count Reg.fltPeerQuench).put Reg.fltPeerLast src).raise srcBellows 0x4B clsU (src % 2 ^ 14)).mems.Canon := by
    rwa [State.raise_mems, State.put_mems, State.count_mems]
  refine .ite (.void h) (.next ?_)
  split
  · exact State.stopJob_canon h1 ..
  · exact h1

end Sys2Proof.Machine
end

section
/-!
SUPPORT. Proofs: resets, clocks and escalated faults keep the memories canonical (R457 to R465, R480 to R493). -/

namespace Sys2Proof.Machine

namespace State

theorem canon_ite {c : Prop} [Decidable c] {s t : State} (hs : s.mems.Canon) (ht : t.mems.Canon) : (if c then s else t).mems.Canon := by
  split
  · exact hs
  · exact ht

theorem reset_canon : State.reset.mems.Canon := ⟨rfl, rfl, rfl, rfl⟩

variable {s : State} (h : s.mems.Canon)
include h

theorem placeImage_canon (x : PlanImage) : (s.placeImage x).mems.Canon := by
  unfold placeImage
  split
  · exact setHearth_canon h _ (Memory.wf_writeBytes _ _ (hearth_wf h _))
  · split
    · exact writeHbm_canon h ..
    · exact writeStock_canon h ..

theorem putCoreReach_canon (b : Billet) : (s.putCoreReach b).mems.Canon := by
  refine canon_foldl (fun t x ht => placeImage_canon ht x) _ ?_
  rwa [putStash_mems, putKv_mems, putGangs_mems]

omit h in
theorem powerOff_canon (s : State) (rails : Bool) (porBit : Nat) : (s.powerOff rails porBit).mems.Canon := ⟨rfl, rfl, rfl, rfl⟩

theorem sysReset_canon : s.sysReset.mems.Canon := by
  rw [sysReset, mems_upd, mems_foldl (fun t b => resetBay_mems ..)]
  exact h

theorem coreReset_canon : s.coreReset.mems.Canon := by
  unfold coreReset
  extract_lets resume st s1 s2 s3 blm4 sys4 s4 s5 s6 jnl7
  have h1 : s1.mems.Canon := by
    unfold s1
    split
    · exact finishUpdates_canon h _
    · exact h
  have h3 : s3.mems.Canon := by
    unfold s3 s2
    rwa [resetCad_mems, clearCores_mems, dropUploads_mems, abortRunning_mems]
  have h5 : s5.mems.Canon := by
    refine canon_foldl (fun t k ht => ?_) _ h3
    rwa [mems_ite, put_mems, ite_self]
  unfold s6
  rwa [mems_upd, count_mems, put_mems, endRestore_mems]

theorem assertSource_canon (x : ResetSrc) : (s.assertSource x).mems.Canon := by
  have h1 : (s.put (causeFld x.bit) 1).mems.Canon := by rwa [put_mems]
  unfold assertSource
  extract_lets s1 sys1 had fresh sys2 s2 s3 s4
  have h2 : s2.mems.Canon := h1
  have h3 : s3.mems.Canon := by
    unfold s3
    split
    · split
      · exact h2
      · exact sysReset_canon h2
    · split
      · split
        · exact coreReset_canon h2
        · exact h2
      · exact h2
  have h4 : s4.mems.Canon := by
    unfold s4
    rwa [mems_ite, mems_foldl (fun t d => resetDomain_mems ..), ite_self]
  split
  · exact h1
  · split
    · split
      · exact h
      · exact h
    · rwa [noteReach_mems]

theorem loseClock_canon (d : Nat) : (s.loseClock d).mems.Canon := by
  unfold loseClock
  split
  · exact h
  · split
    · exact h
    · rw [raise_mems, count_mems, count_mems, put_mems]
      refine assertSource_canon ?_ _
      exact h

theorem reload_canon (ecc : List EccRes) : (s.reload ecc).mems.Canon := by
  unfold reload
  split
  next => exact h
  next b _ =>
    have h1 := rebuildPushes_canon (putCoreReach_canon h b) ecc
    extract_lets s1
    split
    · rwa [journalRestore_mems]
    · exact h1

theorem release_canon (d : Nat) (ecc : List EccRes) : (s.release d ecc).mems.Canon := by
  unfold release
  extract_lets s1 sys2 s2
  have h2 : s2.mems.Canon := by
    unfold s2 s1
    rwa [onRelease_mems, mems_upd, dropSource_mems]
  split
  · exact reload_canon h2 ecc
  · exact h2

theorem escalate_canon (m : FaultMsg) : (s.escalate m).mems.Canon := by
  unfold escalate
  extract_lets s1
  have h1 : s1.mems.Canon := by
    unfold s1
    rwa [mems_ite, quench_mems, latchF_mems, ite_self]
  refine canon_ite (assertSource_canon h1 _) (canon_ite (assertSource_canon ?_ _) (canon_ite ?_ h1))
  · rwa [kick_mems]
  · rwa [abortHold_mems]

theorem accept_canon (m : FaultMsg) : (s.accept m).mems.Canon := by
  unfold accept
  extract_lets s1 s2
  refine escalate_canon ?_ m
  unfold s2 s1
  rwa [reforce_mems, mems_ite, latchFirst_mems, ite_self, count_mems, count_mems]

omit h in
theorem acceptAll_canon (src k : Nat) : ∀ {s : State} (_ : s.mems.Canon), (s.acceptAll src k).mems.Canon := by
  induction k with
  | zero => exact fun h => h
  | succ k ih =>
    intro s h
    unfold acceptAll
    split
    · exact ih (accept_canon h _)
    · exact h

end State

variable {s : State} (h : s.mems.Canon)
include h

theorem CanonNext.withSlot (n opcode : Nat) {f : Slot → Host.Outcome State Fault Refusal} (hf : ∀ x, CanonNext (f x)) :
    CanonNext (withSlot s n opcode f) := by
  unfold Machine.withSlot
  split
  · exact .void h
  · refine .ite (hf _) (.next ?_)
    rwa [State.finish_mems]

theorem execClockLoss_canon (domain : Nat) (refclk : Bool) : CanonNext (execClockLoss domain refclk s) := by
  refine .ite (.void h) (.ite (.next (State.loseClock_canon h _)) (.next ?_))
  refine State.canon_foldl (fun t d ht => State.loseClock_canon ht d) _ ?_
  rwa [State.put_mems]

theorem execCoreResetN_canon : CanonNext (execCoreResetN s) := .ite (.void h) (.next (State.assertSource_canon h _))

theorem execSysResetN_canon : CanonNext (execSysResetN s) := .ite (.void h) (.next (State.assertSource_canon h _))

theorem execRemoteReset_canon (port src target reach : Nat) (tagOk : Bool) :
    CanonNext (execRemoteReset port src target reach tagOk s) := by
  refine .ite (.void h) (.ite (.next ?_) (.next (State.assertSource_canon ?_ _)))
  · rwa [State.count_mems]
  · rwa [State.mems_ite, State.put_mems, State.put_mems, ite_self]

theorem execReset_canon (slot : Nat) : CanonNext (execReset slot s) :=
  .withSlot h slot _ fun x => .next (State.assertSource_canon (by rwa [State.finish_mems]) _)

theorem execPowerInputHigh_canon : CanonNext (execPowerInputHigh s) := .ite (.void h) (.next (State.powerOff_canon ..))

theorem execPowerInputLow_canon : CanonNext (execPowerInputLow s) := .ite (.void h) (.next (State.powerOff_canon ..))

theorem execPowerInputRise_canon (vin : Nat) : CanonNext (execPowerInputRise vin s) := by
  refine .ite (.void h) (.next ?_)
  rw [State.mems_upd]
  exact State.powerOff_canon ..

theorem execPwrOkLow_canon : CanonNext (execPwrOkLow s) := .ite (.void h) (.next (State.powerOff_canon ..))

theorem execDomainRelease_canon (domain : Nat) (ecc : List EccRes) : CanonNext (execDomainRelease domain s ecc) :=
  .ite (.next (State.release_canon h ..)) (.void h)

theorem execFaultMessageAccept_canon (sources : List Nat) : CanonNext (execFaultMessageAccept sources s) := by
  unfold execFaultMessageAccept
  split
  · exact .ite (.next (State.accept_canon h _)) (.void h)
  · exact .void h

theorem execFltValidClear_canon (sources : List Nat) : CanonNext (execFltValidClear sources s) := by
  have h1 : s.clearFirst.mems.Canon := by rwa [State.clearFirst_mems]
  refine .ite (.void h) ?_
  split
  · exact .next h1
  · exact .ite (.next (State.accept_canon h1 _)) (.next (State.accept_canon h _))

theorem execEntropyFail_canon : CanonNext (execEntropyFail s) := by
  have h1 : ((s.count Reg.cruEntropyFail).acceptAll srcCrucible 16).mems.Canon :=
    State.acceptAll_canon _ _ (by rwa [State.count_mems])
  refine .ite (.void h) (.ite (.next h1) (.next (State.acceptAll_canon _ _ ?_)))
  rwa [State.raise_mems]

end Sys2Proof.Machine
end

section
/-!
SUPPORT. Proofs: the scrub, the billet, the ingot and the mailbox keep the memories canonical (R411, R421, R383 to R387, R432). -/

namespace Sys2Proof.Machine

namespace State

variable {s : State}

theorem wipe_canon (s : State) : s.wipe.mems.Canon := by
  rw [wipe, put_mems, mems_foldl (fun t b => countPoison_mems ..)]
  exact ⟨rfl, rfl, rfl, rfl⟩

theorem acceptBillet_canon (h : s.mems.Canon) (b : Billet) (own : Nat) (image : List Byte) (amends : List Amendment) :
    (s.acceptBillet b own image amends).mems.Canon := by
  unfold acceptBillet
  extract_lets same old s1 cru2 s2 s3 s4 s5 s6
  have h3 : s3.mems.Canon := by
    unfold s3 s2 s1
    rwa [putNet_mems, putTemper_mems, putNumctrl_mems, putCad_mems, takeSeed_mems, put_mems, mems_upd, measure_mems, newBillet_mems]
  have h5 : s5.mems.Canon := by
    refine putCoreReach_canon (canon_foldl (fun t x ht => placeImage_canon ht x) _ (writeStock_canon ?_ ..)) _
    rwa [put_mems]
  rw [mems_foldl (fun t a => amend_mems ..)]
  unfold s6
  rwa [mems_ite, keepCursors_mems, ite_self]

theorem loadArrays_canon (h : s.mems.Canon) (p : TemperPlan) (m : IngotImage) : (s.loadArrays p m).mems.Canon := by
  unfold loadArrays
  refine canon_foldl (fun t g ht => ?_) _ (canon_foldl (fun t x ht => ?_) _ h)
  · rw [stockTouched_mems]
    exact setStock_canon ht (Memory.wf_clear _ _ ht.stock)
  · dsimp only
    split
    · exact ht
    · split
      · exact writeStock_canon ht ..
      · exact ht

theorem loadIngot_canon (h : s.mems.Canon) (b : Billet) (bay : Nat) (g : Gen) (m : IngotImage) (step : Nat) (ecc : List EccRes) :
    (s.loadIngot b bay g m step ecc).mems.Canon := by
  unfold loadIngot
  extract_lets s1 s2 s3 s4 s5
  have h1 : s1.mems.Canon := by
    unfold s1
    rw [put_mems]
    exact loadArrays_canon (by rwa [restoreFlux_mems]) ..
  have h3 : s3.mems.Canon := by
    unfold s3 s2
    rw [putTemper_mems]
    refine putCoreReach_canon ?_ b
    rwa [helloFeeders_mems, loadCursors_mems, loadJournal_mems, put64_mems]
  have h4 : s4.mems.Canon := by
    unfold s4
    rw [beginRun_mems, barScan_mems, resealLinks_mems, buildRoutes_mems]
    exact rebuildPushes_canon h3 ecc
  rw [count_mems, put_mems, put_mems]
  exact h4

theorem landPart_canon (h : s.mems.Canon) (x : Session) (u : Upload) (off : Nat) (l : List Byte) : (s.landPart x u off l).mems.Canon := by
  unfold landPart
  extract_lets head s1 v large s2 parts
  have h1 : s1.mems.Canon := by
    unfold s1
    rwa [mems_ite, headerSeen_mems, ite_self]
  have h2 : s2.mems.Canon := canon_ite (writeStock_canon h1 ..) h1
  refine canon_ite ?_ (canon_ite ?_ ?_)
  · rwa [setSession_mems]
  · rwa [landCommand_mems, setSession_mems]
  · rwa [setSession_mems]

theorem after_canon (h : s.mems.Canon) {o : Host.Outcome State Fault Refusal} (ho : CanonNext o) : (s.after o).mems.Canon := by
  unfold after
  split
  · exact ho.of_next _ rfl
  · exact h

end State

end Sys2Proof.Machine
end

section
/-!
SUPPORT. Proofs: the mailbox's commands and the register accesses keep the memories canonical (R383 to R387, R411, R421, R432, R440,
R514). -/

namespace Sys2Proof.Machine

variable {s : State} (h : s.mems.Canon)
include h

theorem execScrubComplete_canon (bad : Nat) : CanonNext (execScrubComplete bad s) := by
  refine .ite (.void h) (.next ?_)
  rw [State.afterScrub_mems, State.mems_upd, State.mems_foldl (fun t b => State.raise_mems ..), State.count_mems, State.put_mems,
    State.put_mems, State.clearBuffers_mems]
  exact State.wipe_canon s

theorem execLoadBillet_canon (slot : Nat) (body : Billet) (sigOk : Bool) (amends : List Bool) (tables : BilletTables) :
    CanonNext (execLoadBillet slot body sigOk amends s tables) := by
  refine .withSlot h slot _ fun x => ?_
  extract_lets l b0 roster s1
  have h1 : s1.mems.Canon := by
    unfold s1
    rwa [State.leaveJob_mems]
  have hr : ((s1.startRunning x).refuseWith srcCrucible 0x6E clsU 0).mems.Canon := by
    rwa [State.refuseWith_mems, State.startRunning_mems]
  refine .ite (.void h) (.ite (.next h1) (.ite (.next ?_) (.ite (.next hr) (.ite (.next ?_) ?_))))
  · rwa [State.finish_mems]
  · rwa [State.finish_mems, State.raise_mems, State.count_mems]
  · split
    · exact .next hr
    · split
      · refine .ite (.next ?_) (.next hr)
        rw [State.finish_mems]
        exact State.acceptBillet_canon h1 ..
      · exact .next hr

theorem execIngotLoadComplete_canon (failed : List Nat) (ecc : List EccRes) : CanonNext (execIngotLoadComplete failed s ecc) := by
  unfold execIngotLoadComplete
  split
  next r b _ _ =>
    split
    next => exact .void h
    next step _ =>
      refine .ite (.void h) ?_
      split
      next s1 got e =>
        have h1 : s1.mems.Canon := by
          have hm := s.readCopies_mems failed (s.copies step)
          rw [e] at hm
          rwa [hm]
        split
        next =>
          refine .ite (.next ?_) (.next ?_)
          · rwa [State.leaveRun_mems, State.finishRunning_mems]
          · rwa [State.emit_mems, State.mems_upd, State.put_mems, State.put_mems]
        next bay g m _ =>
          have h2 : (s1.loadIngot b bay g m step ecc).mems.Canon := State.loadIngot_canon h1 ..
          generalize s1.loadIngot b bay g m step ecc = s2 at h2 ⊢
          extract_lets ing2 blm2 ing3 t s3
          have ht : t.mems.Canon := h2
          have h3 : s3.mems.Canon := by
            unfold s3
            split
            · rwa [State.put_mems]
            · rwa [State.mems_ite, State.finishRunning_mems, ite_self]
          refine .next ?_
          rwa [State.mems_ite, State.mBeat_mems, ite_self]
  next => exact .void h

theorem execRun_canon (slot : Nat) : CanonNext (execRun slot s) := by
  refine .withSlot h slot _ fun x => ?_
  extract_lets start
  clear_value start
  cases start with
  | none => exact .next (by rwa [State.finish_mems])
  | some a =>
    refine .next (State.startElection_canon ?_)
    rw [State.mems_upd, State.beginRun_mems, State.barScan_mems, State.startRunning_mems]
    refine State.canon_ite h ?_
    rw [State.startBloom_mems]
    exact State.startShard_canon h

theorem execRestore_canon (slot : Nat) : CanonNext (execRestore slot s) := by
  refine .withSlot h slot _ fun x => .next (State.startElection_canon ?_)
  rw [State.mems_foldl (fun t l => State.sendReq_mems ..), State.mems_upd, State.readLabels_mems, State.startRunning_mems]
  exact h

theorem execReplayStep_canon (slot : Nat) : CanonNext (execReplayStep slot s) := by
  refine .withSlot h slot _ fun x => .ite (.next ?_) (.next (State.startElection_canon ?_))
  · rwa [State.finishRunning_mems, State.readLabels_mems, State.startRunning_mems]
  · rw [State.mems_foldl (fun t l => State.sendReq_mems ..), State.startLoad_mems, State.mems_upd, State.readLabels_mems,
      State.startRunning_mems]
    exact h

theorem CanonNext.takeFrame (f : HjFrame) {k : State → Session → Host.Outcome State Fault Refusal}
    (hk : ∀ t y, t.mems.Canon → CanonNext (k t y)) : CanonNext (takeFrame s f k) := by
  have hd : CanonNext (.next s.discardFrame) := .next (by rwa [State.discardFrame_mems])
  unfold Machine.takeFrame
  refine .ite (.void h) ?_
  split
  · exact hd
  · refine .ite (hk _ _ ?_) hd
    rwa [State.setSession_mems]

theorem execCommand_canon (frame : HjFrame) : CanonNext (execCommand frame s) := by
  refine .takeFrame h frame fun t y ht => ?_
  extract_lets x s1 beyond bad
  have h1 : s1.mems.Canon := by
    unfold s1
    rwa [State.setSession_mems]
  have hbad : ∀ {u : State}, u.mems.Canon → (bad u).mems.Canon := fun hu => by
    unfold bad
    rwa [State.refuseCommand_mems]
  split
  · refine .ite (.next (hbad h1)) (.ite (.next (hbad ?_)) (.next (State.landPart_canon h1 ..)))
    rwa [State.setSession_mems]
  · split
    · exact .next (by rwa [State.answerDuplicate_mems])
    · exact .ite (.next (hbad h1)) (.next (State.landPart_canon h1 ..))

namespace State

theorem writeField_canon (k : Nat) (f : Fld) (v e : Nat) : (s.writeField k f v e).mems.Canon := by
  have hp : ∀ w : Nat, (s.put f w).mems.Canon := fun w => by rwa [put_mems]
  have hb : ∀ b : Bank, (s.setBank k b).mems.Canon := fun b => by rwa [setBank_mems]
  unfold writeField
  extract_lets on port bay
  refine canon_ite (hb _) (canon_ite (hb _) (canon_ite (hb _) (canon_ite (hb _) (canon_ite (hb _) ?_))))
  refine canon_ite (canon_ite (after_canon h (execFltValidClear_canon h _)) h) (canon_ite ?_ (canon_ite (canon_ite h (hp _)) ?_))
  · rwa [drivePin_mems, put_mems]
  refine canon_ite ?_ (canon_ite (canon_ite ?_ h) (canon_ite (canon_ite ?_ h) (canon_ite (canon_ite ?_ h) (canon_ite (canon_ite ?_ h) ?_))))
  · rwa [operatorActs_mems, put_mems]
  · rwa [after_mems _ _ (execWdtKick_mems s)]
  · rwa [after_mems _ _ (execScrubStart_mems s)]
  · rwa [after_mems _ _ (execKvAuditStart_mems s)]
  · rwa [after_mems _ _ (execTmpTrapClear_mems s _)]
  refine canon_ite ?_ (canon_ite (canon_ite ?_ h) (canon_ite ?_ (canon_ite (hp _) (canon_ite (canon_ite h ?_) (hp _)))))
  · split
    · exact hp _
    · exact hp _
    · exact hp _
    · exact h
  · rwa [after_mems _ _ (execTrapClear_mems _ s _)]
  · refine canon_ite ?_ (canon_ite ?_ (canon_ite (canon_ite ?_ h) (hp _)))
    · rwa [writePortEn_mems]
    · rwa [writePortMode_mems]
    · rwa [after_mems _ _ (execFabRetrain_mems _ s)]
  · refine canon_ite ?_ ?_
    · rwa [after_mems _ _ (execEject_mems _ s)]
    · rwa [after_mems _ _ (execWipe_mems _ s)]

theorem writeWord_canon (k : Nat) (lv : Level) (a v e : Nat) : (s.writeWord k lv a v e).mems.Canon := by
  have hr : s.refuseAccess.mems.Canon := by rwa [refuseAccess_mems]
  unfold writeWord
  extract_lets s1 l bank1 s2
  have h1 : s1.mems.Canon := canon_ite hr h
  have h2 : s2.mems.Canon := by
    refine canon_ite ?_ h1
    rwa [writeHeld_mems]
  refine canon_ite h (canon_ite hr (canon_ite h1 (canon_ite ?_ (canon_ite ?_ ?_))))
  · rwa [setBank_mems]
  · rwa [writeSrcCfg_mems]
  · exact canon_foldl (fun t f ht => writeField_canon ht ..) _ h2

omit h in
theorem writeWords_canon (k : Nat) (lv : Level) (l : List Nat) :
    ∀ (a : Nat) {s : State} (_ : s.mems.Canon), (s.writeWords k lv a l).mems.Canon := by
  induction l with
  | nil => exact fun _ _ h => h
  | cons v r ih => exact fun a s h => ih _ (writeWord_canon h ..)

end State

theorem execCrsWrite_canon (slot : Nat) : CanonNext (execCrsWrite slot s) := by
  refine .withSlot h slot _ fun x => .ite (.next ?_) (.next ?_)
  · rwa [State.finish_mems]
  · rw [State.finish_mems]
    exact State.writeWords_canon _ _ _ _ h

theorem execCrsacc_canon (data address : Nat) (write : Bool) (ecc : List EccRes) :
    CanonNext (execCrsacc data address write ecc s) := by
  refine .ite (.void h) (.ite (.next ?_) (.ite (.next ?_) (.ite (.next ?_) (.next ?_))))
  · rwa [State.tapBypass_mems]
  · rwa [State.noteAccess_mems, State.emit_mems]
  · rw [State.noteAccess_mems]
    exact State.writeWord_canon (by rwa [State.emit_mems]) ..
  · rwa [State.noteAccess_mems, State.readWord_mems, State.emit_mems]

theorem execRegisterWrite_canon (path address data events : Nat) : CanonNext (execRegisterWrite path address data s events) := by
  unfold execRegisterWrite onPath
  split
  · exact .next (State.writeWord_canon h ..)
  · exact .void h

end Sys2Proof.Machine
end

section
/-!
SUPPORT. Proofs: every command keeps the memories canonical, and the obligation that every step does (Memory's canonical form, 01_module.md). -/

namespace Sys2Proof.Machine

/-- One arm per command, as in exec: those that write a memory by their lemma above, the others because they leave the memories
alone (Laws/Mem*.lean). -/
theorem exec_canon {s : State} (h : s.mems.Canon) (i : Instr) : CanonNext (exec i s) := by
  cases i with
  | hello => exact .of_mems h (execHello_mems ..)
  | kem => exact .of_mems h (execKem_mems ..)
  | auth => exact .of_mems h (execAuth_mems ..)
  | command => exact execCommand_canon h ..
  | read => exact .of_mems h (execRead_mems ..)
  | ack => exact .of_mems h (execAck_mems ..)
  | list => exact .of_mems h (execList_mems ..)
  | close => exact .of_mems h (execClose_mems ..)
  | ping => exact .of_mems h (execPing_mems ..)
  | sessionIdleTimeout => exact .of_mems h (execSessionIdleTimeout_mems ..)
  | serviceIcmpv6 => exact .of_mems h (execServiceIcmpv6_mems ..)
  | identify => exact .of_mems h (execIdentify_mems ..)
  | attest => exact .of_mems h (execAttest_mems ..)
  | status => exact .of_mems h (execStatus_mems ..)
  | claim => exact .of_mems h (execClaim_mems ..)
  | release => exact .of_mems h (execRelease_mems ..)
  | loadBillet => exact execLoadBillet_canon h ..
  | arm => exact .of_mems h (execArm_mems ..)
  | disarm => exact .of_mems h (execDisarm_mems ..)
  | run => exact execRun_canon h ..
  | halt => exact .of_mems h (execHalt_mems ..)
  | restore => exact execRestore_canon h ..
  | reset => exact execReset_canon h ..
  | serveOpen => exact .of_mems h (execServeOpen_mems ..)
  | serveClose => exact .of_mems h (execServeClose_mems ..)
  | replayStep => exact execReplayStep_canon h ..
  | faultRead => exact .of_mems h (execFaultRead_mems ..)
  | journalRead => exact .of_mems h (execJournalRead_mems ..)
  | ingotList => exact .of_mems h (execIngotList_mems ..)
  | crsRead => exact .of_mems h (execCrsRead_mems ..)
  | crsWrite => exact execCrsWrite_canon h ..
  | jobEscrowRead => exact .of_mems h (execJobEscrowRead_mems ..)
  | fwWrite => exact .of_mems h (execFwWrite_mems ..)
  | fwCommit => exact .of_mems h (execFwCommit_mems ..)
  | exceptionLoad => exact .of_mems h (execExceptionLoad_mems ..)
  | revoke => exact .of_mems h (execRevoke_mems ..)
  | debugUnlock => exact .of_mems h (execDebugUnlock_mems ..)
  | jobKeyImport => exact .of_mems h (execJobKeyImport_mems ..)
  | beatIssue => exact .of_mems h (execBeatIssue_mems ..)
  | beat => exact execBeat_canon h ..
  | keepSend => exact .of_mems h (execKeepSend_mems ..)
  | keep => exact .of_mems h (execKeep_mems ..)
  | hold => exact .of_mems h (execHold_mems ..)
  | holdRelease => exact .of_mems h (execHoldRelease_mems ..)
  | abort => exact execAbort_canon h ..
  | candidate => exact .of_mems h (execCandidate_mems ..)
  | confirm => exact .of_mems h (execConfirm_mems ..)
  | electionTimeout => exact execElectionTimeout_canon h ..
  | masterLost => exact execMasterLost_canon h ..
  | gateStall => exact .of_mems h (execGateStall_mems ..)
  | gateReady => exact .of_mems h (execGateReady_mems ..)
  | rollbackComplete => exact .of_mems h (execRollbackComplete_mems ..)
  | resumeRelease => exact .of_mems h (execResumeRelease_mems ..)
  | cadInEdge => exact .of_mems h (execCadInEdge_mems ..)
  | cadInLost => exact .of_mems h (execCadInLost_mems ..)
  | matmul => exact execMatmul_canon h ..
  | issueAcceptAfterWait => exact execIssueAcceptAfterWait_canon h ..
  | issueComplete => exact .of_mems h (execIssueComplete_mems ..)
  | drainComplete => exact execDrainComplete_canon h ..
  | undefinedOp => exact .of_mems h (execUndefinedOp_mems ..)
  | ew => exact .of_mems h (execEw_mems ..)
  | fn => exact .of_mems h (execFn_mems ..)
  | act => exact .of_mems h (execAct_mems ..)
  | dact => exact .of_mems h (execDact_mems ..)
  | reduce => exact .of_mems h (execReduce_mems ..)
  | perm => exact .of_mems h (execPerm_mems ..)
  | trans => exact .of_mems h (execTrans_mems ..)
  | shuf => exact .of_mems h (execShuf_mems ..)
  | pack => exact .of_mems h (execPack_mems ..)
  | unpack => exact .of_mems h (execUnpack_mems ..)
  | ld => exact .of_mems h (execLd_mems ..)
  | st => exact execSt_canon h ..
  | setshape => exact .of_mems h (execSetshape_mems ..)
  | dwconv => exact .of_mems h (execDwconv_mems ..)
  | dwconvComplete => exact execDwconvComplete_canon h ..
  | termwalk => exact .of_mems h (execTermwalk_mems ..)
  | termwalkComplete => exact execTermwalkComplete_canon h ..
  | attnForward => exact attnCmd_canon h ..
  | attnBackward => exact attnCmd_canon h ..
  | attnPrepass => exact attnCmd_canon h ..
  | attnComplete => exact .of_mems h (execAttnComplete_mems ..)
  | kvopOpen => exact execKvopOpen_canon h ..
  | kvopFork => exact execKvopFork_canon h ..
  | kvopClose => exact execKvopClose_canon h ..
  | kvAuditStart => exact .of_mems h (execKvAuditStart_mems ..)
  | kvAuditDone => exact .of_mems h (execKvAuditDone_mems ..)
  | xfer => exact .of_mems h (execXfer_mems ..)
  | xferComplete => exact execXferComplete_canon h ..
  | bucketFilled => exact execBucketFilled_canon h ..
  | send => exact .of_mems h (execSend_mems ..)
  | stash => exact .of_mems h (execStash_mems ..)
  | stashLanded => exact execStashLanded_canon h ..
  | fetchComplete => exact execFetchComplete_canon h ..
  | chunkLanded => exact execChunkLanded_canon h ..
  | hoCredit => exact .of_mems h (execHoCredit_mems ..)
  | haloRowLanded => exact execHaloRowLanded_canon h ..
  | haloCreditReturn => exact .of_mems h (execHaloCreditReturn_mems ..)
  | normResult => exact execNormResult_canon h ..
  | updateRangeDone => exact execUpdateRangeDone_canon h ..
  | weightPushDone => exact execWeightPushDone_canon h ..
  | portTrainStart => exact .of_mems h (execPortTrainStart_mems ..)
  | fabRetrain => exact .of_mems h (execFabRetrain_mems ..)
  | portUp => exact .of_mems h (execPortUp_mems ..)
  | portDownRetry => exact .of_mems h (execPortDownRetry_mems ..)
  | laneFrame => exact .of_mems h (execLaneFrame_mems ..)
  | nak => exact .of_mems h (execNak_mems ..)
  | scheduledIdle => exact .of_mems h (execScheduledIdle_mems ..)
  | laneDrop => exact .of_mems h (execLaneDrop_mems ..)
  | degrade => exact .of_mems h (execDegrade_mems ..)
  | laneReadmit => exact .of_mems h (execLaneReadmit_mems ..)
  | credit => exact .of_mems h (execCredit_mems ..)
  | packetForward => exact .of_mems h (execPacketForward_mems ..)
  | auditSend => exact .of_mems h (execAuditSend_mems ..)
  | audit => exact .of_mems h (execAudit_mems ..)
  | linkState => exact .of_mems h (execLinkState_mems ..)
  | discoveryComplete => exact .of_mems h (execDiscoveryComplete_mems ..)
  | discoveryTimeout => exact .of_mems h (execDiscoveryTimeout_mems ..)
  | sealHello => exact .of_mems h (execSealHello_mems ..)
  | attestReq => exact .of_mems h (execAttestReq_mems ..)
  | attestReport => exact .of_mems h (execAttestReport_mems ..)
  | attestSeed => exact .of_mems h (execAttestSeed_mems ..)
  | attestDone => exact .of_mems h (execAttestDone_mems ..)
  | attestRefuse => exact .of_mems h (execAttestRefuse_mems ..)
  | remoteReset => exact execRemoteReset_canon h ..
  | collective => exact .of_mems h (execCollective_mems ..)
  | adopt => exact .of_mems h (execAdopt_mems ..)
  | bucket => exact execBucket_canon h ..
  | bucketComplete => exact execBucketComplete_canon h ..
  | quenchNotice => exact execQuenchNotice_canon h ..
  | ethFrame => exact .of_mems h (execEthFrame_mems ..)
  | bloomHello => exact .of_mems h (execBloomHello_mems ..)
  | request => exact .of_mems h (execRequest_mems ..)
  | data => exact execData_canon h ..
  | absent => exact execAbsent_canon h ..
  | rerequest => exact .of_mems h (execRerequest_mems ..)
  | decodeComplete => exact execDecodeComplete_canon h ..
  | spareCopy => exact execSpareCopy_canon h ..
  | zoneAppendComplete => exact .of_mems h (execZoneAppendComplete_mems ..)
  | flushComplete => exact .of_mems h (execFlushComplete_mems ..)
  | generationFail => exact .of_mems h (execGenerationFail_mems ..)
  | cartridgeInsert => exact .of_mems h (execCartridgeInsert_mems ..)
  | perstRelease => exact .of_mems h (execPerstRelease_mems ..)
  | controllerReady => exact .of_mems h (execControllerReady_mems ..)
  | cartridgeRemove => exact .of_mems h (execCartridgeRemove_mems ..)
  | bayOverload => exact .of_mems h (execBayOverload_mems ..)
  | eject => exact .of_mems h (execEject_mems ..)
  | ejectComplete => exact .of_mems h (execEjectComplete_mems ..)
  | wipe => exact .of_mems h (execWipe_mems ..)
  | ingotLoadComplete => exact execIngotLoadComplete_canon h ..
  | scrubStart => exact .of_mems h (execScrubStart_mems ..)
  | scrubComplete => exact execScrubComplete_canon h ..
  | entropyFail => exact execEntropyFail_canon h ..
  | faultMessageAccept => exact execFaultMessageAccept_canon h ..
  | quenchStockSelfRefresh => exact .of_mems h (execQuenchStockSelfRefresh_mems ..)
  | collectorParity => exact .of_mems h (execCollectorParity_mems ..)
  | faultPulseEnd => exact .of_mems h (execFaultPulseEnd_mems ..)
  | srcCfgForce => exact .of_mems h (execSrcCfgForce_mems ..)
  | fltValidClear => exact execFltValidClear_canon h ..
  | trapClear => exact .of_mems h (execTrapClear_mems ..)
  | tmpTrapClear => exact .of_mems h (execTmpTrapClear_mems ..)
  | legacyFault => exact .of_mems h (execLegacyFault_mems ..)
  | legacyWire => exact .of_mems h (execLegacyWire_mems ..)
  | legacyWindowEnd => exact .of_mems h (execLegacyWindowEnd_mems ..)
  | powerInputRise => exact execPowerInputRise_canon h ..
  | powerInputBand => exact .of_mems h (execPowerInputBand_mems ..)
  | powerInputHigh => exact execPowerInputHigh_canon h ..
  | powerInputLow => exact execPowerInputLow_canon h ..
  | pwrOkLow => exact execPwrOkLow_canon h ..
  | powerOnRelease => exact .of_mems h (execPowerOnRelease_mems ..)
  | sysResetN => exact execSysResetN_canon h ..
  | coreResetN => exact execCoreResetN_canon h ..
  | resetPinRelease => exact .of_mems h (execResetPinRelease_mems ..)
  | domainRelease => exact execDomainRelease_canon h ..
  | clockLoss => exact execClockLoss_canon h ..
  | clockGood => exact .of_mems h (execClockGood_mems ..)
  | watchdogExpiry => exact .of_mems h (execWatchdogExpiry_mems ..)
  | wdtKick => exact .of_mems h (execWdtKick_mems ..)
  | thermalWarning => exact .of_mems h (execThermalWarning_mems ..)
  | thermalTrip => exact .of_mems h (execThermalTrip_mems ..)
  | thermalTripEnd => exact .of_mems h (execThermalTripEnd_mems ..)
  | patrolRead => exact .of_mems h (execPatrolRead_mems ..)
  | summaryUpdate => exact .of_mems h (execSummaryUpdate_mems ..)
  | state => exact .of_mems h (execState_mems ..)
  | vin => exact .of_mems h (execVin_mems ..)
  | iin => exact .of_mems h (execIin_mems ..)
  | pin => exact .of_mems h (execPin_mems ..)
  | temps => exact .of_mems h (execTemps_mems ..)
  | fault => exact .of_mems h (execFault_mems ..)
  | cause => exact .of_mems h (execCause_mems ..)
  | ident => exact .of_mems h (execIdent_mems ..)
  | angle => exact .of_mems h (execAngle_mems ..)
  | totals => exact .of_mems h (execTotals_mems ..)
  | smbusUndefinedCode => exact .of_mems h (execSmbusUndefinedCode_mems ..)
  | smbusBusRelease => exact .of_mems h (execSmbusBusRelease_mems ..)
  | crsacc => exact execCrsacc_canon h ..
  | bypass => exact .of_mems h (execBypass_mems ..)
  | idcode => exact .of_mems h (execIdcode_mems ..)
  | samplePreload => exact .of_mems h (execSamplePreload_mems ..)
  | extest => exact .of_mems h (execExtest_mems ..)
  | clamp => exact .of_mems h (execClamp_mems ..)
  | tapReset => exact .of_mems h (execTapReset_mems ..)
  | memwinSnapshot => exact .of_mems h (execMemwinSnapshot_mems ..)
  | loReadLatch => exact .of_mems h (execLoReadLatch_mems ..)
  | rcRead => exact .of_mems h (execRcRead_mems ..)
  | registerWrite => exact execRegisterWrite_canon h ..
  | restoreStepAnnounce => exact .of_mems h (execRestoreStepAnnounce_mems ..)

theorem step_canon {s t : State} (h : s.mems.Canon) (e : step s = .next t) : t.mems.Canon := by
  unfold step at e
  split at e
  next =>
    cases e
    exact h
  next i r _ =>
    have hr : ({ s with pending := r } : State).mems.Canon := ⟨h.hearth0, h.hearth1, h.hbm, h.stock⟩
    exact (exec_canon hr i).of_next t e

/-- Settles O60: each command that writes a memory writes it by the operations of Memory, which keep its canonical form, and no other
command changes a memory. -/
theorem memoryStaysCanonical : Obligations.MemoryStaysCanonical := by
  intro s t h e
  exact t.memOk_iff_canon.mpr (step_canon (s.memOk_iff_canon.mp h) e)

end Sys2Proof.Machine
end

section
/-!
SUPPORT. Proofs: how the frames of the registers pass through writes, counts, raised faults and sent packets (R319, R457). -/

namespace Sys2Proof.Machine

namespace SameRegsOut

theorem refl (l : List Fld) (s : State) : SameRegsOut l s s := fun _ _ _ => rfl

theorem trans {l : List Fld} {r s t : State} (h : SameRegsOut l r s) (k : SameRegsOut l s t) : SameRegsOut l r t :=
  fun f hf hl => (k f hf hl).trans (h f hf hl)

theorem mono {l m : List Fld} {s t : State} (h : SameRegsOut l s t) (hs : l ⊆ m) : SameRegsOut m s t :=
  fun f hf hl => h f hf fun g hg => hl g (List.append_subset.mpr
    ⟨List.subset_append_left _ _, List.subset_append_of_subset_right _ hs⟩ hg)

/-- States with the same stored registers. -/
theorem of_regs {l : List Fld} {s t : State} (h : t.regs = s.regs) : SameRegsOut l s t := fun f _ _ => State.get_of_regs h f

theorem of_sameRegsBut {l : List Fld} {s t : State} (h : SameRegsBut l s t) : SameRegsOut l s t :=
  fun f _ hl => h f fun g hg => hl g (List.mem_append_right _ hg)

/-- A write of a listed field. -/
theorem put {l : List Fld} {s t : State} (h : SameRegsOut l s t) {f : Fld} (hf : f ∈ dropRegs ++ l) (v : Nat) :
    SameRegsOut l s (t.put f v) :=
  fun g hg hl => (State.get_put_ne t v (hl f hf)).trans (h g hg hl)

/-- A count in a listed field. -/
theorem count {l : List Fld} {s t : State} (h : SameRegsOut l s t) {f : Fld} (hf : f ∈ dropRegs ++ l) (k : Nat) :
    SameRegsOut l s (t.count f k) := h.put hf _

/-- A field of the fabric block. -/
theorem put_fabric {l : List Fld} {s t : State} (h : SameRegsOut l s t) {f : Fld} (hf : 0x100000 * 32 ≤ f.key ∧ f.key < 0x110000 * 32)
    (v : Nat) : SameRegsOut l s (t.put f v) :=
  fun g hg hl => (State.get_put_ne t v (by omega)).trans (h g hg hl)

/-- A fault raised or dropped. -/
theorem raise {l : List Fld} {s t : State} (h : SameRegsOut l s t) (src kind cls addr : Nat) :
    SameRegsOut l s (t.raise src kind cls addr) := by
  unfold State.raise State.raiseMsg
  split
  · exact (h.count (by simp [dropRegs]) 1).put (by simp [dropRegs]) 1
  · exact h.trans (of_regs rfl)

theorem of_sendsOnly {l : List Fld} {s t : State} (h : SendsOnly s t) : SameRegsOut l s t := by
  intro f hf _
  refine h.regs f fun g hg e => ?_
  have := txPktRegs_key_fabric hg
  omega

end SameRegsOut

namespace State

/-- A fault raised changes no register but those that tell of a dropped one. -/
theorem get_raise (s : State) (src kind cls addr : Nat) {f : Fld} (hd : f.key ≠ Reg.fltDropped.key) (ho : f.key ≠ Reg.fltStatusOvf.key) :
    (s.raise src kind cls addr).get f = s.get f := by
  unfold raise raiseMsg
  split
  · rw [get_put_ne _ _ ho, count, get_put_ne _ _ hd]
  · rfl

theorem flag_raise (s : State) (src kind cls addr : Nat) {f : Fld} (hd : f.key ≠ Reg.fltDropped.key) (ho : f.key ≠ Reg.fltStatusOvf.key) :
    (s.raise src kind cls addr).flag f = s.flag f := by
  unfold flag
  rw [get_raise s _ _ _ _ hd ho]

/-- A fault raised changes the registers and the faults that wait. -/
theorem raise_upd (s : State) (src kind cls addr : Nat) : s.raise src kind cls addr =
    { s with regs := (s.raise src kind cls addr).regs, faultQ := (s.raise src kind cls addr).faultQ } := by
  unfold raise raiseMsg
  split <;> rfl

/-- What has been raised stays at the head of what waits. -/
theorem raise_faultQ_prefix (s : State) (src kind cls addr : Nat) : s.faultQ <+: (s.raise src kind cls addr).faultQ := by
  unfold raise raiseMsg
  split
  · exact List.prefix_rfl
  · exact List.prefix_append _ _

end State

namespace Raised

/-- The fault of a state with the same faults and the same Cadence. -/
theorem of_raise {s t : State} (hq : t.faultQ = s.faultQ) (hc : t.cad = s.cad) (src kind cls addr : Nat) :
    Raised s (t.raise src kind cls addr) src kind cls addr := by
  intro h
  have ht : t.waitingFrom src < 16 := by
    unfold State.waitingFrom
    rwa [hq]
  rw [State.raise_of_room _ _ _ ht]
  simp [State.faultMsg, hq, hc]

theorem raise (s : State) (src kind cls addr : Nat) : Raised s (s.raise src kind cls addr) src kind cls addr := of_raise (s := s) rfl rfl src kind cls addr

/-- Of a state with the same faults and the same Cadence. -/
theorem of_same {s u t : State} {src kind cls addr : Nat} (hq : u.faultQ = s.faultQ) (hc : u.cad = s.cad)
    (h : Raised u t src kind cls addr) : Raised s t src kind cls addr := by
  unfold Raised State.waitingFrom State.faultMsg at *
  rwa [hq, hc] at h

/-- Faults raised later follow it. -/
theorem of_prefix {s t u : State} {src kind cls addr : Nat} (h : Raised s t src kind cls addr) (hp : t.faultQ <+: u.faultQ) :
    Raised s u src kind cls addr := fun hw => (h hw).trans hp

theorem of_faultQ {s t u : State} {src kind cls addr : Nat} (h : Raised s t src kind cls addr) (hq : u.faultQ = t.faultQ) :
    Raised s u src kind cls addr := h.of_prefix (hq ▸ List.prefix_rfl)

end Raised

@[simp] theorem fld_w (addr lo w : Nat) (acc : Acc) (rst : Nat) (rd wr : Level) : (fld addr lo w acc rst rd wr).w = w := rfl

@[simp] theorem fld_key (addr lo w : Nat) (acc : Acc) (rst : Nat) (rd wr : Level) :
    (fld addr lo w acc rst rd wr).key = addr * 32 + lo := rfl

/-- A flag that is 1 is set, and one that is 0 is not. -/
theorem State.flag_of_one {s : State} {f : Fld} (h : s.get f = 1) : s.flag f = true := by simp [State.flag, h]

theorem State.flag_of_zero {s : State} {f : Fld} (h : s.get f = 0) : s.flag f = false := by simp [State.flag, h]

/-- A counter that has counted one. -/
theorem State.count_counted (s : State) {f : Fld} (h : 0 < f.w) : Counted s (s.count f) f := s.get_count_same f 1 h

end Sys2Proof.Machine
end

section
/-!
SUPPORT. Proofs: the audit of the KV store (R221). -/

namespace Sys2Proof.Machine

theorem execKvAuditStart_of_idle {s : State} (ha : s.alive = true) (h : s.flag Reg.kvpStatusAuditBusy = false) :
    execKvAuditStart s = .next (((s.put Reg.kvpStatusAuditBusy 1).put Reg.kvpAuditDone 0).put Reg.kvpAuditPass 0) := by
  simp [execKvAuditStart, ha, h]

theorem execKvAuditStart_of_busy {s : State} (h : s.flag Reg.kvpStatusAuditBusy = true) : execKvAuditStart s = .next s := by
  simp [execKvAuditStart, h, void]

theorem execKvAuditDone_of_idle {s : State} (h : s.flag Reg.kvpStatusAuditBusy = false) : execKvAuditDone s = .next s := by
  simp [execKvAuditDone, h, void]

/-- The device once a walk has finished, before it tells the walk's result. -/
def State.walked (s : State) : State := (s.put Reg.kvpStatusAuditBusy 0).put Reg.kvpAuditDone 1

theorem execKvAuditDone_of_passes {s : State} (ha : s.alive = true) (h : s.flag Reg.kvpStatusAuditBusy = true) (hw : s.walkPasses = true) :
    execKvAuditDone s = .next (s.walked.put Reg.kvpAuditPass 1) := by
  simp [execKvAuditDone, ha, h, hw, State.walked]

theorem execKvAuditDone_of_fails {s : State} (ha : s.alive = true) (h : s.flag Reg.kvpStatusAuditBusy = true) (hw : s.walkPasses = false) :
    execKvAuditDone s = .next (s.walked.raise srcKvp kvLedger clsF 0) := by
  simp [execKvAuditDone, ha, h, hw, State.walked]

/-- What a walk that has finished leaves, whether it passes or not. -/
theorem walked_sameRegsOut (s : State) : SameRegsOut [Reg.kvpStatusAuditBusy, Reg.kvpAuditDone, Reg.kvpAuditPass] s s.walked :=
  ((SameRegsOut.refl _ s).put (by simp) _).put (by simp) _

/-- Settles O33: each of the two commands by whether a walk runs, and the end of a walk by whether it passes. -/
theorem kvAuditWalks : Obligations.KvAuditWalks := by
  intro s ha
  refine ⟨fun h => ?_, fun h => execKvAuditStart_of_busy (State.flag_of_one h), fun h => execKvAuditDone_of_idle (State.flag_of_zero h),
    fun h => ?_⟩
  · refine ⟨_, execKvAuditStart_of_idle ha (State.flag_of_zero h), ?_, ?_, ?_, ?_, rfl⟩
    · simp (disch := decide) [State.get_put_ne, Reg.kvpStatusAuditBusy]
    · simp (disch := decide) [State.get_put_ne, Reg.kvpAuditDone]
    · simp
    · exact (((SameRegsBut.refl _ s).put _ _ (by simp)).put _ _ (by simp)).put _ _ (by simp)
  · have hbusy : s.walked.get Reg.kvpStatusAuditBusy = 0 := by simp (disch := decide) [State.walked, State.get_put_ne]
    have hdone : s.walked.get Reg.kvpAuditDone = 1 := by simp [State.walked, Reg.kvpAuditDone]
    have hpass : s.walked.get Reg.kvpAuditPass = s.get Reg.kvpAuditPass := by simp (disch := decide) only [State.walked, State.get_put_ne]
    cases hw : s.walkPasses with
    | true =>
      refine ⟨_, execKvAuditDone_of_passes ha (State.flag_of_one h) hw, ?_, ?_, fun _ => ⟨?_, rfl⟩, nofun, (walked_sameRegsOut s).put (by simp) 1, rfl⟩
      · simp (disch := decide) [State.get_put_ne, hbusy]
      · simp (disch := decide) [State.get_put_ne, hdone]
      · simp [Reg.kvpAuditPass]
    | false =>
      have hr : Raised s (s.walked.raise srcKvp kvLedger clsF 0) srcKvp kvLedger clsF 0 :=
        Raised.of_raise (t := s.walked) rfl rfl _ _ _ _
      refine ⟨_, execKvAuditDone_of_fails ha (State.flag_of_one h) hw, ?_, ?_, nofun, fun _ => ⟨?_, hr⟩, (walked_sameRegsOut s).raise _ _ _ _, ?_⟩
      · simp (disch := decide) [State.get_raise, hbusy]
      · simp (disch := decide) [State.get_raise, hdone]
      · simp (disch := decide) [State.get_raise, hpass]
      · rw [State.raise_upd]
        rfl

end Sys2Proof.Machine
end

section
/-!
SUPPORT. Proofs: what a routed message of the device leaves as it was (R319), and how the device holds its next gate (R59). -/

namespace Sys2Proof.Machine

/-- From `s` to `t` the device has changed its Cadence, sent messages and perhaps raised faults. -/
structure MovesCad (s t : State) : Prop where
  regs : SameRegsOut [] s t
  faults : s.faultQ <+: t.faultQ
  rest : { t with regs := s.regs, cad := s.cad, ports := s.ports, faultQ := s.faultQ, out := s.out } = s

/-- From `s` to `t` the device has sent messages on their routes: one without a route raises a fault and sets what the Cadence wants
next (R319). -/
structure Routed (s t : State) : Prop extends MovesCad s t where
  cad : { t.cad with want := s.cad.want } = s.cad

namespace MovesCad

theorem refl (s : State) : MovesCad s s := ⟨SameRegsOut.refl _ s, List.prefix_rfl, rfl⟩

theorem trans {r s t : State} (h : MovesCad r s) (k : MovesCad s t) : MovesCad r t where
  regs := h.regs.trans k.regs
  faults := h.faults.trans k.faults
  rest := by
    have e : { t with regs := r.regs, cad := r.cad, ports := r.ports, faultQ := r.faultQ, out := r.out } =
        { ({ t with regs := s.regs, cad := s.cad, ports := s.ports, faultQ := s.faultQ, out := s.out } : State) with
          regs := r.regs, cad := r.cad, ports := r.ports, faultQ := r.faultQ, out := r.out } := rfl
    rw [e, k.rest, h.rest]

/-- Another Cadence. -/
theorem setCad (s : State) (c : Cad) : MovesCad s { s with cad := c } := ⟨fun _ _ _ => rfl, List.prefix_rfl, rfl⟩

/-- The fields that it leaves alone. -/
theorem cores {s t : State} (h : MovesCad s t) : t.cores = s.cores := (congrArg State.cores h.rest :)

theorem core {s t : State} (h : MovesCad s t) (n : Nat) : t.core n = s.core n := by
  unfold State.core
  rw [h.cores]

/-- A register outside the fabric block that does not tell of a dropped fault. -/
theorem get {s t : State} (h : MovesCad s t) {f : Fld} (hf : f.key < 0x100000 * 32 ∨ 0x110000 * 32 ≤ f.key)
    (hd : f.key ≠ Reg.fltDropped.key) (ho : f.key ≠ Reg.fltStatusOvf.key) : t.get f = s.get f :=
  h.regs f hf (by simpa [dropRegs] using ⟨hd, ho⟩)

end MovesCad

namespace Routed

theorem refl (s : State) : Routed s s := ⟨.refl s, rfl⟩

theorem trans {r s t : State} (h : Routed r s) (k : Routed s t) : Routed r t where
  toMovesCad := h.toMovesCad.trans k.toMovesCad
  cad := by
    have e : { t.cad with want := r.cad.want } = { ({ t.cad with want := s.cad.want } : Cad) with want := r.cad.want } := rfl
    rw [e, k.cad, h.cad]

theorem setPort (s : State) (p : Nat) (x : Port) : Routed s (s.setPort p x) := ⟨⟨fun _ _ _ => rfl, List.prefix_rfl, rfl⟩, rfl⟩

theorem emit (s : State) (o : Out) : Routed s (s.emit o) := ⟨⟨fun _ _ _ => rfl, List.prefix_rfl, rfl⟩, rfl⟩

theorem wantAbort (s : State) : Routed s s.wantAbort := ⟨.setCad s _, rfl⟩

theorem raise (s : State) (src kind cls addr : Nat) : Routed s (s.raise src kind cls addr) where
  regs := (SameRegsOut.refl _ s).raise src kind cls addr
  faults := s.raise_faultQ_prefix src kind cls addr
  rest := by rw [State.raise_upd]
  cad := by rw [State.raise_cad]

/-- A count in the fabric block. -/
theorem count_fabric (s : State) {f : Fld} (hf : 0x100000 * 32 ≤ f.key ∧ f.key < 0x110000 * 32) : Routed s (s.count f) :=
  ⟨⟨(SameRegsOut.refl _ s).put_fabric hf _, List.prefix_rfl, rfl⟩, rfl⟩

theorem of_sendsOnly {s t : State} (h : SendsOnly s t) : Routed s t where
  regs := SameRegsOut.of_sendsOnly h
  faults := h.faultQ ▸ List.prefix_rfl
  rest := (OnlyCad.of_sendsOnly h).2
  cad := by rw [h.cad]

end Routed

namespace State

theorem goOut_routed (s : State) {p : Nat} (hp : p < 16) (pk : Packet) : Routed s (s.goOut p pk) := by
  unfold goOut
  dsimp only
  split
  · exact .refl s
  · refine ((Routed.setPort s _ _).trans (.count_fabric _ ?_)).trans (.of_sendsOnly (sendFrames_sendsOnly ..))
    simp only [Fld.key, Reg.fabVcTxPkts, fld]
    omega

theorem pumpPort_routed (s : State) {p : Nat} (hp : p < 16) (k : Nat) : Routed s (s.pumpPort p k) := by
  induction k generalizing s with
  | zero => exact .refl s
  | succ k ih =>
    unfold pumpPort
    split
    · exact .refl s
    · exact ((Routed.setPort s _ _).trans (goOut_routed _ hp _)).trans (ih _)

theorem pumpAll_routed (s : State) {p : Nat} (hp : p < 16) : Routed s (s.pumpAll p) :=
  (Routed.of_sendsOnly (sendRest_sendsOnly ..)).trans (pumpPort_routed _ hp _)

theorem sendOn_routed (s : State) {p : Nat} (hp : p < 16) (pk : Packet) : Routed s (s.sendOn p pk) :=
  (Routed.setPort s _ _).trans (pumpAll_routed _ hp)

/-- An entry of the routing table names ports by four bits (R316). -/
theorem routePorts_lt {e p : Nat} (h : p ∈ routePorts e) : p < 16 := by
  simp only [routePorts, List.mem_filterMap] at h
  obtain ⟨i, -, h⟩ := h
  split at h
  · cases h
    exact Nat.mod_lt _ (by decide)
  · cases h

theorem routePort_lt {s : State} {dst p : Nat} {early alt : Bool} (h : s.routePort dst early = some (p, alt)) : p < 16 := by
  unfold routePort at h
  simp only [Option.map_eq_some_iff, Prod.mk.injEq] at h
  obtain ⟨q, hq, rfl, -⟩ := h
  exact routePorts_lt (List.mem_of_find?_eq_some hq)

theorem noRoute_routed (s : State) : Routed s s.noRoute :=
  ((Routed.count_fabric s (f := Reg.netNoroute) (by decide)).trans (.raise ..)).trans (.wantAbort _)

theorem sendRouted_routed (s : State) (pk : Packet) : Routed s (s.sendRouted pk) := by
  unfold sendRouted
  split
  next p alt h =>
    refine Routed.trans ?_ (sendOn_routed _ (routePort_lt h) _)
    split
    · exact .count_fabric s (by decide)
    · exact .refl s
  next => exact noRoute_routed s

theorem sendCad_routed (s : State) (dst : Nat) (m : CadMsg) : Routed s (s.sendCad dst m) := by
  unfold sendCad
  split
  · exact .emit s _
  · exact sendRouted_routed ..

/-- The Cadence with one more hold of the device (R59). -/
def holdCad (c : Cad) (angle reason : Nat) (entry : Option Nat) : Cad :=
  { c with
    own := c.own ++ [{ angle := angle, attempt := c.attempt, reason := reason, entry := entry, rollback := false }]
    raised := c.raised + 1 }

/-- A hold raised: it stands, is counted and is sent to the master. -/
theorem raiseHold_routed (s : State) (angle reason : Nat) (entry : Option Nat) :
    Routed { s with cad := holdCad s.cad angle reason entry } (s.raiseHold angle reason entry) := sendCad_routed ..

theorem raiseHold_movesCad (s : State) (angle reason : Nat) (entry : Option Nat) : MovesCad s (s.raiseHold angle reason entry) :=
  (MovesCad.setCad s _).trans (raiseHold_routed ..).toMovesCad

/-- A hold that is wanted at the device's next gate (R59, R108). -/
def wantHold (s : State) (reason : Nat) : State := ({ s with cad := { s.cad with want := some reason } } : State).placeWant

theorem abortHold_eq (s : State) : s.abortHold = s.wantHold reasonAbort := rfl

theorem placeWant_movesCad (s : State) : MovesCad s s.placeWant := by
  unfold placeWant
  split
  · exact .refl s
  · split
    · split
      · exact (MovesCad.setCad s _).trans (raiseHold_movesCad ..)
      · exact .refl s
    · exact .refl s

theorem wantHold_movesCad (s : State) (reason : Nat) : MovesCad s (s.wantHold reason) :=
  (MovesCad.setCad s _).trans (placeWant_movesCad _)

/-- The hold stands at the next gate, or waits until there is one. -/
theorem wantHold_holdsNext {s u : State} (hc : u.cad = s.cad) (reason : Nat) : HoldsNext s (u.wantHold reason) reason := by
  unfold HoldsNext wantHold placeWant
  rw [hc]
  dsimp only
  by_cases hg : (s.cad.active && !s.cad.rolling && s.cad.resume.isNone && s.cad.role.settled) = true
  · rw [if_pos hg, if_pos hg]
    have e : ({ s.cad with want := some reason } : Cad).nextGate = s.cad.nextGate := rfl
    rw [e]
    cases hn : s.cad.nextGate with
    | none => rfl
    | some a =>
      have h := (raiseHold_routed ({ u with cad := { s.cad with want := none } } : State) a reason none).cad
      exact congrArg (fun c : Cad => { c with want := s.cad.want }) h
  · rw [if_neg hg, if_neg hg]

end State

end Sys2Proof.Machine
end

section
/-!
SUPPORT. Proofs: what a refused command leaves (R108): the record, the fault, the stopped sequencer and the hold. -/

namespace Sys2Proof.Machine

namespace State

/-- A record of a refusal changes registers alone. -/
theorem recordRefusal_upd (s : State) (n reason opid need have_ : Nat) : s.recordRefusal n reason opid need have_ =
    { s with regs := (s.recordRefusal n reason opid need have_).regs } := by
  unfold recordRefusal
  split <;> rfl

theorem recordRefusal_of_valid {s : State} {n : Nat} (h : s.flag (Reg.coreRefuseValid n) = true) (reason opid need have_ : Nat) :
    s.recordRefusal n reason opid need have_ = s := if_pos h

/-- The fields of a REFUSE record, once a clear record has taken a refusal (R108). -/
theorem recordRefusal_fields {s : State} {n : Nat} (h : s.flag (Reg.coreRefuseValid n) = false) (reason opid need have_ : Nat) :
    let t := s.recordRefusal n reason opid need have_
    t.get (Reg.coreRefuseValid n) = 1 ∧ t.get (Reg.coreRefuseReason n) = reason % 16 ∧ t.get (Reg.coreRefuseOpid n) = opid % 2 ^ 32 ∧
      t.get (Reg.coreRefuseNeed n) = need % 2 ^ 24 ∧ t.get (Reg.coreRefuseHave n) = have_ % 2 ^ 24 := by
  have e : s.recordRefusal n reason opid need have_ =
      ((((s.put (Reg.coreRefuseReason n) reason).put (Reg.coreRefuseValid n) 1).put (Reg.coreRefuseOpid n) opid).put
        (Reg.coreRefuseNeed n) need).put (Reg.coreRefuseHave n) have_ := if_neg (by simp [h])
  simp (disch := (simp only [Reg.coreRefuseReason, Reg.coreRefuseValid, Reg.coreRefuseOpid, Reg.coreRefuseNeed, Reg.coreRefuseHave,
    fld_key] <;> omega)) only [e, get_put_same, get_put_ne]
  simp [Reg.coreRefuseReason, Reg.coreRefuseValid, Reg.coreRefuseOpid, Reg.coreRefuseNeed, Reg.coreRefuseHave]

theorem recordRefusal_sameRegsOut (s : State) (n reason opid need have_ : Nat) :
    SameRegsOut (refuseRegs n) s (s.recordRefusal n reason opid need have_) := by
  unfold recordRefusal
  split
  · exact SameRegsOut.refl _ s
  · exact (((((SameRegsOut.refl _ s).put (by simp [refuseRegs]) _).put (by simp [refuseRegs]) _).put (by simp [refuseRegs]) _).put
      (by simp [refuseRegs]) _).put (by simp [refuseRegs]) _

/-- The core that a refusal stops. -/
def refusedCore (c : Core) : Core := { c with run := .refused, waiting := none, vecWait := false }

/-- Core `n` after its sequencer has stopped for a refusal, with the record taken; the next gate is not yet held. -/
def refusedAt (s : State) (n src kind addr reason opid need have_ : Nat) : State :=
  ((s.raise src kind clsU addr).recordRefusal n reason opid need have_).setCore n (refusedCore (s.core n))

theorem refuseCmd_eq (s : State) (n kind reason opid need have_ : Nat) : s.refuseCmd n kind reason opid need have_ =
    (s.refusedAt n (srcIssue n) kind (opid % 2 ^ 32 + n * 2 ^ 32) reason opid need have_).wantHold reasonAbort := rfl

section
variable {s : State} {n src kind addr reason opid need have_ : Nat}

theorem refusedAt_cad : (s.refusedAt n src kind addr reason opid need have_).cad = s.cad := by
  unfold refusedAt
  rw [setCore_cad, recordRefusal_upd]
  exact s.raise_cad ..

theorem refusedAt_core_same : (s.refusedAt n src kind addr reason opid need have_).core n = refusedCore (s.core n) := core_setCore_same ..

theorem refusedAt_core_ne {k : Nat} (h : k ≠ n) : (s.refusedAt n src kind addr reason opid need have_).core k = s.core k := by
  unfold refusedAt
  rw [core_setCore_ne _ _ h, recordRefusal_upd, raise_upd]
  rfl

theorem refusedAt_raised : Raised s (s.refusedAt n src kind addr reason opid need have_) src kind clsU addr := by
  refine (Raised.raise s src kind clsU addr).of_faultQ ?_
  unfold refusedAt
  rw [setCore_faultQ, recordRefusal_upd]

theorem refusedAt_sameRegsOut : SameRegsOut (refuseRegs n) s (s.refusedAt n src kind addr reason opid need have_) :=
  (((SameRegsOut.refl _ s).raise src kind clsU addr).trans (recordRefusal_sameRegsOut _ _ _ _ _ _)).trans (SameRegsOut.of_regs rfl)

theorem refusedAt_rest : { s.refusedAt n src kind addr reason opid need have_ with
    regs := s.regs, cores := s.cores, faultQ := s.faultQ } = s := by
  unfold refusedAt setCore
  rw [recordRefusal_upd, raise_upd]

theorem flag_refuseValid_raise (s : State) (n src kind cls addr : Nat) :
    (s.raise src kind cls addr).flag (Reg.coreRefuseValid n) = s.flag (Reg.coreRefuseValid n) := by
  refine flag_raise s _ _ _ _ ?_ ?_
  · simp [Reg.coreRefuseValid, Reg.fltDropped]
    omega
  · simp [Reg.coreRefuseValid, Reg.fltStatusOvf]
    omega

/-- The fields of a REFUSE record lie outside the fabric block, and tell of no dropped fault. -/
theorem refuseRegs_key {n : Nat} {f : Fld} (h : f ∈ refuseRegs n) : 0x1000000 * 32 ≤ f.key := by
  simp only [refuseRegs, List.mem_cons, List.not_mem_nil, or_false] at h
  rcases h with rfl | rfl | rfl | rfl | rfl <;>
    simp only [Reg.coreRefuseReason, Reg.coreRefuseValid, Reg.coreRefuseOpid, Reg.coreRefuseNeed, Reg.coreRefuseHave, fld_key] <;> omega

/-- A field of a refusal reads after the hold as the record left it. -/
theorem get_refuse_wantHold {f : Fld} (hf : f ∈ refuseRegs n) (m : Nat) :
    ((s.refusedAt n src kind addr reason opid need have_).wantHold m).get f =
      ((s.raise src kind clsU addr).recordRefusal n reason opid need have_).get f := by
  have hk := refuseRegs_key hf
  have hd : Reg.fltDropped.key < 0x1000000 * 32 := by decide
  have ho : Reg.fltStatusOvf.key < 0x1000000 * 32 := by decide
  exact (wantHold_movesCad _ m).get (.inr (by omega)) (by omega) (by omega)

/-- A record that holds a refusal stays. -/
theorem refusedAt_of_valid {s : State} {n : Nat} (h : s.flag (Reg.coreRefuseValid n) = true) (src kind addr reason opid need have_ : Nat) :
    SameRegsOut [] s (s.refusedAt n src kind addr reason opid need have_) := by
  rw [← flag_refuseValid_raise s n src kind clsU addr] at h
  unfold refusedAt
  rw [recordRefusal_of_valid h]
  exact ((SameRegsOut.refl _ s).raise _ _ _ _).trans (SameRegsOut.of_regs rfl)

end

theorem wantHold_rest {s u : State} (h : { u with regs := s.regs, cores := s.cores, faultQ := s.faultQ } = s) (reason : Nat) :
    { u.wantHold reason with
      regs := s.regs, cad := s.cad, cores := s.cores, ports := s.ports, faultQ := s.faultQ, out := s.out } = s := by
  have e : ({ u.wantHold reason with
      regs := s.regs, cad := s.cad, cores := s.cores, ports := s.ports, faultQ := s.faultQ, out := s.out } : State) =
    { ({ u.wantHold reason with regs := u.regs, cad := u.cad, ports := u.ports, faultQ := u.faultQ, out := u.out } : State) with
      regs := s.regs, cad := s.cad, cores := s.cores, ports := s.ports, faultQ := s.faultQ, out := s.out } := rfl
  have hc : u.cad = s.cad := (congrArg State.cad h :)
  have hp : u.ports = s.ports := (congrArg State.ports h :)
  have ho : u.out = s.out := (congrArg State.out h :)
  rw [e, (wantHold_movesCad u reason).rest, ← hc, ← hp, ← ho]
  exact h

/-- A refused command has the whole effect of R108. -/
theorem refuseCmd_refused (s : State) (n kind reason opid need have_ : Nat) :
    RefusedCmd s (s.refuseCmd n kind reason opid need have_) n kind reason opid need have_ := by
  have hm := wantHold_movesCad (s.refusedAt n (srcIssue n) kind (opid % 2 ^ 32 + n * 2 ^ 32) reason opid need have_) reasonAbort
  rw [refuseCmd_eq]
  refine ⟨?_, fun k hk => ?_, refusedAt_raised.of_prefix hm.faults, wantHold_holdsNext refusedAt_cad _, fun hv => ?_,
    fun hv => ⟨?_, ?_⟩, wantHold_rest refusedAt_rest _⟩
  · rw [hm.core, refusedAt_core_same]
    rfl
  · rw [hm.core, refusedAt_core_ne hk]
  · exact (refusedAt_of_valid hv _ _ _ _ _ _ _).trans hm.regs
  · exact refusedAt_sameRegsOut.trans (hm.regs.mono (List.nil_subset _))
  · rw [← flag_refuseValid_raise s n (srcIssue n) kind clsU (opid % 2 ^ 32 + n * 2 ^ 32)] at hv
    have hg : ∀ {f : Fld}, f ∈ refuseRegs n → _ := fun hf => get_refuse_wantHold (s := s) (src := srcIssue n) (kind := kind)
      (addr := opid % 2 ^ 32 + n * 2 ^ 32) (reason := reason) (opid := opid) (need := need) (have_ := have_) hf reasonAbort
    obtain ⟨h1, h2, h3, h4, h5⟩ := recordRefusal_fields hv reason opid need have_
    exact ⟨(hg (by simp [refuseRegs])).trans h1, (hg (by simp [refuseRegs])).trans h2, (hg (by simp [refuseRegs])).trans h3,
      (hg (by simp [refuseRegs])).trans h4, (hg (by simp [refuseRegs])).trans h5⟩

end State

end Sys2Proof.Machine
end

section
/-!
SUPPORT. Proofs: what a completed vector command leaves of its core (R141, R146). -/

namespace Sys2Proof.Machine

namespace Core

theorem dispatch_segs (c : Core) : c.dispatch.segs = c.segs.map (fun g => if g.segment = c.curSeg then { g with disp := g.disp + 1 } else g) := by
  unfold dispatch advance
  dsimp only
  split <;> rfl

/-- The segments of a core once a command of its current segment has been dispatched and done. -/
theorem dispatch_complete_segs (c : Core) : ((c.dispatch).complete c.curSeg).segs =
    c.segs.map (fun g => if g.segment = c.curSeg then { g with disp := g.disp + 1, done := g.done + 1 } else g) := by
  unfold complete setRun
  rw [dispatch_segs]
  simp only [List.map_map]
  refine List.map_congr_left fun g _ => ?_
  by_cases hg : g.segment = c.curSeg <;> simp [hg]

theorem complete_eq (c : Core) (k : Nat) : c.complete k = { c with segs := (c.complete k).segs } := rfl

/-- The tile registers stay until the next segment begins with clear ones (R146). -/
theorem dispatch_tiles {c : Core} (h : c.dwconv = none) : c.dispatch.tiles = if c.dispatch.curSeg = c.curSeg then c.tiles else .empty := by
  unfold dispatch advance
  dsimp only
  split
  next hk => simp
  next hk => simp [h]

theorem dispatch_rest (c : Core) : { c.dispatch with segs := c.segs, curSeg := c.curSeg, tiles := c.tiles } = { c with vecWait := false } := by
  unfold dispatch advance
  dsimp only
  split <;> rfl

end Core

namespace State

/-- The counters of a vector engine lie outside the fabric block. -/
theorem vecRegs_key {n : Nat} {f : Fld} (h : f ∈ vecRegs n) : 0x1000000 * 32 ≤ f.key := by
  simp only [vecRegs, List.mem_cons, List.not_mem_nil, or_false] at h
  rcases h with rfl | rfl | rfl <;> simp only [Reg.coreVcmds, Reg.coreVbusyCyclesLo, Reg.coreVbusyCyclesHi, fld_key] <;> omega

theorem endVec_sameRegsBut (s : State) (n k opid cycles : Nat) : SameRegsBut (vecRegs n) s (s.endVec n k opid cycles) := by
  unfold endVec count64 put64
  refine SameRegsBut.put _ _ (SameRegsBut.put _ _ (SameRegsBut.count _ _ ?_ ?_) ?_) ?_
  · exact SameRegsBut.of_regs rfl
  all_goals simp [vecRegs]

theorem endVec_vcmds (s : State) (n k opid cycles : Nat) :
    (s.endVec n k opid cycles).get (Reg.coreVcmds n) = min (s.get (Reg.coreVcmds n) + 1) (2 ^ 32 - 1) := by
  unfold endVec count64 put64
  rw [get_put_ne, get_put_ne]
  · exact get_count_same _ (Reg.coreVcmds n) 1 (Nat.succ_pos 31)
  · simp only [Reg.coreVcmds, Reg.coreVbusyCyclesLo, fld_key]
    omega
  · simp only [Reg.coreVcmds, Reg.coreVbusyCyclesHi, fld_key]
    omega

theorem endVec_core_same (s : State) (n k opid cycles : Nat) : (s.endVec n k opid cycles).core n = (s.core n).complete k :=
  core_setCore_same ..

theorem endVec_core_ne (s : State) {n j : Nat} (k opid cycles : Nat) (h : j ≠ n) : (s.endVec n k opid cycles).core j = s.core j :=
  core_setCore_ne s _ h

theorem finishVec_sameRegsBut (s : State) (n opid cycles : Nat) : SameRegsBut (vecRegs n) s (s.finishVec n opid cycles) :=
  (s.setCore n (s.core n).dispatch).endVec_sameRegsBut n (s.core n).curSeg opid cycles

theorem finishVec_vcmds (s : State) (n opid cycles : Nat) :
    (s.finishVec n opid cycles).get (Reg.coreVcmds n) = min (s.get (Reg.coreVcmds n) + 1) (2 ^ 32 - 1) := endVec_vcmds ..

theorem finishVec_core_same (s : State) (n opid cycles : Nat) :
    (s.finishVec n opid cycles).core n = (s.core n).dispatch.complete (s.core n).curSeg := by
  unfold finishVec
  rw [endVec_core_same, core_setCore_same]

theorem finishVec_core_ne (s : State) {n k : Nat} (opid cycles : Nat) (h : k ≠ n) : (s.finishVec n opid cycles).core k = s.core k :=
  (endVec_core_ne _ _ _ _ h).trans (core_setCore_ne s _ h)

/-- A completed vector command changes registers, its core and what a replay captures. -/
theorem endVec_frame (s : State) (n k opid cycles : Nat) :
    ∃ r c q p, s.endVec n k opid cycles = { s with regs := r, cores := c, caps := q, captures := p } := by
  have hn : ∃ q p, s.noteDone n opid = { s with caps := q, captures := p } := ⟨_, _, rfl⟩
  obtain ⟨q, p, e⟩ := hn
  unfold endVec
  rw [e]
  exact ⟨_, _, _, _, rfl⟩

theorem finishVec_frame (s : State) (n opid cycles : Nat) :
    ∃ r c q p, s.finishVec n opid cycles = { s with regs := r, cores := c, caps := q, captures := p } := by
  obtain ⟨r, c, q, p, e⟩ := (s.setCore n (s.core n).dispatch).endVec_frame n (s.core n).curSeg opid cycles
  exact ⟨r, c, q, p, e⟩

/-- A vector command whose result is in the tile registers ends with them. -/
theorem finishVec_vecEnds {s u : State} {n : Nat} {m : Memory} (hd : (s.core n).dwconv = none)
    (hn : u.core n = { s.core n with tiles := m }) (hk : ∀ k, k ≠ n → u.core k = s.core k)
    (hv : u.get (Reg.coreVcmds n) = s.get (Reg.coreVcmds n)) (opid cycles : Nat) : VecEnds s (u.finishVec n opid cycles) n m := by
  have hcur : (u.core n).curSeg = (s.core n).curSeg := by rw [hn]
  have htiles : ((u.core n).dispatch.complete (u.core n).curSeg).tiles =
      if (u.core n).dispatch.curSeg = (u.core n).curSeg then m else .empty := by
    have h := Core.dispatch_tiles (c := u.core n) (by rw [hn]; exact hd)
    rw [Core.complete_eq]
    rw [hn] at h ⊢
    exact h
  have hseg : ((u.core n).dispatch.complete (u.core n).curSeg).curSeg = (u.core n).dispatch.curSeg := rfl
  unfold VecEnds
  rw [finishVec_core_same, finishVec_vcmds, hv]
  refine ⟨?_, fun h => ?_, fun h => ?_, ?_, fun k h => (finishVec_core_ne u opid cycles h).trans (hk k h), rfl⟩
  · rw [Core.dispatch_complete_segs, hn]
  · rw [htiles, if_pos (by rw [← hseg, h, hcur])]
  · rw [htiles, if_neg (by rw [← hseg, hcur]; exact h)]
  · have h := Core.dispatch_rest (u.core n)
    rw [hn] at h ⊢
    have e := congrArg (fun c : Core => { c with tiles := (s.core n).tiles }) h
    exact e

end State

end Sys2Proof.Machine
end

section
/-!
SUPPORT. Proofs: what a change of the KV streams leaves of the device (R195, R208 to R214). -/

namespace Sys2Proof.Machine

namespace Assoc

variable {α : Type}

theorem find?_del_same (l : List (Nat × α)) (k : Nat) : find? (del l k) k = none := by
  induction l with
  | nil => rfl
  | cons p r ih =>
    obtain ⟨j, v⟩ := p
    unfold del at ih ⊢
    by_cases h : j = k
    · simpa [h] using ih
    · simpa [h, find?] using ih

theorem find?_del_ne (l : List (Nat × α)) {j k : Nat} (h : j ≠ k) : find? (del l k) j = find? l j := by
  induction l with
  | nil => rfl
  | cons p r ih =>
    obtain ⟨i, v⟩ := p
    unfold del at ih ⊢
    by_cases hi : i = k
    · subst hi
      simpa [find?, Ne.symm h] using ih
    · simp [hi, find?, ih]

theorem find?_put_same (l : List (Nat × α)) (k : Nat) (v : α) : find? (put l k v) k = some v := by
  induction l with
  | nil => simp [put, find?]
  | cons p r ih =>
    obtain ⟨j, w⟩ := p
    unfold put
    split
    · simp [find?]
    · split
      · simp [find?]
      next h => simp [find?, Ne.symm h, ih]

end Assoc

/-- From `s` to `t` the store of the key-value pages has changed: its tables, its bytes of HBM4, the registers below those of the cores,
and the faults that a poisoned granule raises (R208 to R214). -/
structure KvMoves (s t : State) : Prop where
  regs : ∀ f : Fld, 0x1000000 * 32 ≤ f.key → t.get f = s.get f
  rest : { t with regs := s.regs, kvp := s.kvp, hbm := s.hbm, freeCtr := s.freeCtr, faultQ := s.faultQ } = s

/-- And its streams are as they were. -/
structure KvPages (s t : State) : Prop extends KvMoves s t where
  streams : t.kvp.streams = s.kvp.streams

namespace KvMoves

theorem refl (s : State) : KvMoves s s := ⟨fun _ _ => rfl, rfl⟩

theorem trans {r s t : State} (h : KvMoves r s) (k : KvMoves s t) : KvMoves r t where
  regs f hf := (k.regs f hf).trans (h.regs f hf)
  rest := by
    have e : { t with regs := r.regs, kvp := r.kvp, hbm := r.hbm, freeCtr := r.freeCtr, faultQ := r.faultQ } =
        { ({ t with regs := s.regs, kvp := s.kvp, hbm := s.hbm, freeCtr := s.freeCtr, faultQ := s.faultQ } : State) with
          regs := r.regs, kvp := r.kvp, hbm := r.hbm, freeCtr := r.freeCtr, faultQ := r.faultQ } := rfl
    rw [e, k.rest, h.rest]

theorem core {s t : State} (h : KvMoves s t) (n : Nat) : t.core n = s.core n := by
  have hc : t.cores = s.cores := (congrArg State.cores h.rest :)
  unfold State.core
  rw [hc]

end KvMoves

namespace KvPages

theorem refl (s : State) : KvPages s s := ⟨.refl s, rfl⟩

theorem trans {r s t : State} (h : KvPages r s) (k : KvPages s t) : KvPages r t :=
  ⟨h.toKvMoves.trans k.toKvMoves, k.streams.trans h.streams⟩

/-- A register below those of the cores. -/
theorem put (s : State) {f : Fld} (hf : f.key < 0x1000000 * 32) (v : Nat) : KvPages s (s.put f v) :=
  ⟨⟨fun g hg => s.get_put_ne v (by omega), rfl⟩, rfl⟩

theorem raise (s : State) (src kind cls addr : Nat) : KvPages s (s.raise src kind cls addr) := by
  unfold State.raise State.raiseMsg
  split
  · exact (put s (by decide) _).trans (put _ (by decide) _)
  · exact ⟨⟨fun _ _ => rfl, rfl⟩, rfl⟩

theorem foldl {α : Type} {f : State → α → State} (l : List α) (hf : ∀ a ∈ l, ∀ t, KvPages t (f t a)) (s : State) :
    KvPages s (l.foldl f s) := by
  induction l generalizing s with
  | nil => exact refl s
  | cons a l ih => exact (hf a (by simp) s).trans (ih (fun b hb => hf b (by simp [hb])) _)

end KvPages

namespace State

/-- Where a write of less than a granule touches a poisoned one, the granule stays poisoned, and is raised (R29). -/
theorem hbmTouched_kvPages (s : State) (a : Nat) {len : Nat} (h : len < 64) : KvPages s (s.hbmTouched a len) := by
  unfold hbmTouched
  extract_lets hit full part s1 s2
  have hfull : full = [] := List.filter_eq_nil_iff.mpr fun g _ => by
    simp only [decide_eq_true_eq]
    omega
  have h1 : s1 = s := by
    unfold s1
    simp [hfull]
  split
  · exact .refl s
  · refine .trans (s := s2) ?_ (.foldl _ (fun g _ t => .raise t _ _ _ _) _)
    unfold s2
    rw [h1]
    refine .foldl _ (fun k hk t => .put t ?_ _) _
    rw [List.mem_range] at hk
    simp only [Reg.hbmPoisonCount, fld_key]
    omega

theorem kindReg_key (k : PageKind) : (kindReg k).key < 0x1000000 * 32 := by cases k <;> decide

theorem setPage_kvPages (s : State) (id : Nat) (p : KvPage) : KvPages s (s.setPage id p) := by
  have h1 : KvPages s (s.uncount (kindReg (s.page id).kind)) := .put s (kindReg_key _) _
  have h2 : KvPages s ((s.uncount (kindReg (s.page id).kind)).count (kindReg p.kind)) := h1.trans (.put _ (kindReg_key p.kind) _)
  exact h2.trans ⟨⟨fun _ _ => rfl, rfl⟩, rfl⟩

theorem setEntry_kvPages (s : State) (a v : Nat) : KvPages s (s.setEntry a v) := by
  unfold setEntry
  refine .trans (.trans ?_ (hbmTouched_kvPages { s with hbm := s.hbm.writeLE a 8 v } a (by decide))) ⟨⟨fun _ _ => rfl, rfl⟩, rfl⟩
  exact ⟨⟨fun _ _ => rfl, rfl⟩, rfl⟩

theorem allocPage_kvPages {s u : State} {kind : PageKind} {id : Nat} (h : s.allocPage kind = some (id, u)) : KvPages s u := by
  unfold allocPage at h
  dsimp only at h
  split at h
  · cases h
  · cases h
    have hd : KvPages s s.draw := ⟨⟨fun _ _ => rfl, rfl⟩, rfl⟩
    have hp := hd.trans (setPage_kvPages _ (kthFree (s.kvp.pages.map (fun p => p.1)) (s.free % s.get Reg.kvpFree))
      { kind := kind, count := 1, epoch := 0, uncommitted := false })
    split
    · exact hp.trans ⟨⟨fun _ _ => rfl, rfl⟩, rfl⟩
    · exact hp

theorem retirePage_kvPages (s : State) (id : Nat) : KvPages s (s.retirePage id) :=
  (setPage_kvPages s id _).trans ⟨⟨fun _ _ => rfl, rfl⟩, rfl⟩

theorem dropData_kvPages (s : State) (id : Nat) : KvPages s (s.dropData id) := by
  unfold dropData
  dsimp only
  split
  · exact retirePage_kvPages s id
  · exact setPage_kvPages ..

theorem advanceEpoch_kvPages (s : State) : KvPages s s.advanceEpoch := by
  unfold advanceEpoch
  dsimp only
  split
  · exact ⟨⟨fun _ _ => rfl, rfl⟩, rfl⟩
  · exact .refl s

theorem setStream_kvMoves (s : State) (id : Nat) (e : Option KvStream) : KvMoves s (s.setStream id e) := by
  refine .trans (s := s.putStream id e) ⟨fun f hf => ?_, rfl⟩ ⟨fun _ _ => rfl, rfl⟩
  refine get_put_ne _ _ ?_
  have : Reg.kvpStreams.key < 0x1000000 * 32 := by decide
  omega

theorem setStream_some (s : State) (id : Nat) (e : KvStream) : Assoc.find? (s.setStream id (some e)).kvp.streams id = some e :=
  Assoc.find?_put_same ..

theorem setStream_none (s : State) (id : Nat) : Assoc.find? (s.setStream id none).kvp.streams id = none := Assoc.find?_del_same ..

theorem setStream_none_ne (s : State) {id k : Nat} (h : k ≠ id) :
    Assoc.find? (s.setStream id none).kvp.streams k = Assoc.find? s.kvp.streams k := Assoc.find?_del_ne _ h

/-- The copy of a table's entries, each data page counted once more (R214). -/
theorem copyEntries_kvPages (s : State) (t2 : Nat) (es : List (Nat × Nat)) : KvPages s (es.foldl (fun t (j, v) =>
    let p := t.page (entryPage v)
    (t.setEntry (t.pageAddr t2 + 8 * j) v).setPage (entryPage v) { p with count := p.count + 1 }) s) :=
  .foldl es (fun _ _ _ => (setEntry_kvPages ..).trans (setPage_kvPages ..)) s

theorem forkTable_kvPages {s u : State} {l1 i table : Nat} (h : s.forkTable l1 i table = .ok u) : KvPages s u := by
  unfold forkTable at h
  generalize s.l2Entries table = es at h
  split at h
  next => cases h
  next t2 s1 ha =>
    dsimp only at h
    split at h
    · cases h
    · cases h
      exact ((allocPage_kvPages ha).trans (copyEntries_kvPages s1 t2 es)).trans (setEntry_kvPages ..)

/-- One table after another, up to the first that cannot be copied (R214). -/
def forkAll (l1 : Nat) (r : KvRes) (l : List (Nat × Nat)) : KvRes :=
  l.foldl (fun r (i, t) => match r with
    | .ok u => u.forkTable l1 i t
    | .no k => .no k) r

theorem forkAll_no (l1 k : Nat) (l : List (Nat × Nat)) : forkAll l1 (.no k) l = .no k := by
  induction l with
  | nil => rfl
  | cons x l ih => exact ih

theorem forkAll_kvPages (l1 : Nat) (l : List (Nat × Nat)) : ∀ {s u : State} (_ : forkAll l1 (.ok s) l = .ok u), KvPages s u := by
  induction l with
  | nil =>
    intro s u h
    cases h
    exact .refl s
  | cons x l ih =>
    intro s u h
    have hx : forkAll l1 (s.forkTable l1 x.1 x.2) l = .ok u := h
    cases hf : s.forkTable l1 x.1 x.2 with
    | ok v =>
      rw [hf] at hx
      exact (forkTable_kvPages hf).trans (ih hx)
    | no k =>
      rw [hf, forkAll_no] at hx
      cases hx

/-- The pages of a stream that closes are dropped, and its tables retired (R214). -/
theorem closeTables_kvPages (l : List (Nat × Nat)) (es : Nat → List (Nat × Nat)) (s : State) : KvPages s (l.foldl (fun t (_, tab) =>
    ((es tab).foldl (fun u (_, v) => u.dropData (entryPage v)) t).retirePage tab) s) :=
  .foldl l (fun x _ t => (KvPages.foldl (es x.2) (fun _ _ v => dropData_kvPages v _) t).trans (retirePage_kvPages ..)) s

/-- OPEN takes a free entry as an empty stream (R213). -/
theorem openStream_ok {s u : State} {id layers groups maxp owner : Nat} {serving : Bool}
    (h : s.openStream id layers groups maxp owner serving = .ok u) : KvMoves s u ∧ Assoc.find? s.kvp.streams id = none ∧
      ∃ l1, Assoc.find? u.kvp.streams id =
        some { serving := serving, layers := layers, groups := groups, maxp := maxp, length := 0, l1 := l1, owner := owner } := by
  unfold openStream at h
  split at h
  · cases h
  next hf =>
    split at h
    · cases h
    next l1 s1 ha =>
      cases h
      refine ⟨(allocPage_kvPages ha).toKvMoves.trans (setStream_kvMoves ..), ?_, l1, setStream_some ..⟩
      have hfree : s.streamFree id = true := by simp at hf; exact hf.1
      simp only [streamFree, Bool.and_eq_true, Option.isNone_iff_eq_none] at hfree
      exact hfree.1.1.2

/-- FORK makes a stream with the source's geometry and length (R214). -/
theorem forkStream_ok {s u : State} {id src owner : Nat} {serving : Bool} (h : s.forkStream id src owner serving = .ok u) :
    KvMoves s u ∧ ∃ st l1, Assoc.find? s.kvp.streams src = some st ∧
      Assoc.find? u.kvp.streams id = some { st with serving := serving, l1 := l1, owner := owner } := by
  unfold forkStream at h
  split at h
  · cases h
  next st hst =>
    split at h
    · cases h
    · split at h
      · cases h
      next l1 s1 ha =>
        dsimp only at h
        split at h
        next v hv =>
          cases h
          exact ⟨((allocPage_kvPages ha).trans (forkAll_kvPages l1 _ hv)).toKvMoves.trans (setStream_kvMoves ..), st, l1, hst, setStream_some ..⟩
        next => cases h

/-- CLOSE frees the entry of its stream alone (R214). -/
theorem closeStream_ok {s u : State} {id : Nat} (h : s.closeStream id = .ok u) : KvMoves s u ∧ Assoc.find? u.kvp.streams id = none ∧
    ∀ k, k ≠ id → Assoc.find? u.kvp.streams k = Assoc.find? s.kvp.streams k := by
  unfold closeStream at h
  split at h
  · cases h
  next st _ =>
    have h1 := closeTables_kvPages (s.l2Tables st) s.l2Entries s
    generalize (s.l2Tables st).foldl _ s = s1 at h h1
    cases h
    have h2 := h1.trans (retirePage_kvPages s1 st.l1)
    have h3 := advanceEpoch_kvPages ((s1.retirePage st.l1).setStream id none)
    refine ⟨(h2.toKvMoves.trans (setStream_kvMoves _ id none)).trans h3.toKvMoves, ?_, fun k hk => ?_⟩
    · rw [h3.streams, setStream_none]
    · rw [h3.streams, setStream_none_ne _ hk, h2.streams]

end State

/-- A refused change of a KV stream has the whole effect of R213. -/
theorem State.refuseKv_refused (s : State) (n opid id kind : Nat) : KvRefused s (s.refuseKv n opid id kind) n opid id kind := by
  have hkey : 0x110000 * 32 ≤ Reg.kvpExhaust.key ∧ Reg.kvpExhaust.key < 0x1000000 * 32 := by decide
  have hdrop : Reg.fltDropped.key < 0x100000 * 32 ∧ Reg.fltStatusOvf.key < 0x100000 * 32 := by decide
  let u := if kind = kvEmpty then s.count Reg.kvpExhaust else s
  have hu : u = { s with regs := u.regs } := by
    unfold u
    split <;> rfl
  have hcad : u.cad = s.cad := (congrArg State.cad hu :)
  have hfault : u.faultQ = s.faultQ := (congrArg State.faultQ hu :)
  have hcore : ∀ k, u.core k = s.core k := fun k => (congrArg (fun v : State => v.core k) hu :)
  have hregs : SameRegsOut [Reg.kvpExhaust] s u := by
    unfold u
    split
    · exact (SameRegsOut.refl _ s).count (by simp) 1
    · exact SameRegsOut.refl _ s
  have hget : u.get Reg.kvpExhaust =
      if kind = kvEmpty then min (s.get Reg.kvpExhaust + 1) (2 ^ Reg.kvpExhaust.w - 1) else s.get Reg.kvpExhaust := by
    unfold u
    split
    · exact get_count_same s Reg.kvpExhaust 1 (by decide)
    · rfl
  have e : s.refuseKv n opid id kind =
      (u.refusedAt n srcKvp kind (id % 2 ^ 20 + n * 2 ^ 20) 8 opid 0 0).wantHold reasonAbort := by
    unfold refuseKv refusedAt
    rw [hcore n]
    rfl
  have hm := wantHold_movesCad (u.refusedAt n srcKvp kind (id % 2 ^ 20 + n * 2 ^ 20) 8 opid 0 0) reasonAbort
  rw [e]
  refine ⟨?_, fun k hk => ?_, ?_, wantHold_holdsNext (refusedAt_cad.trans hcad) _, ?_, ?_, fun hv => ?_, ?_⟩
  · rw [hm.core, refusedAt_core_same, hcore]
    rfl
  · rw [hm.core, refusedAt_core_ne hk, hcore]
  · exact (refusedAt_raised.of_prefix hm.faults).of_same hfault hcad
  · exact (hregs.mono (by simp)).trans ((refusedAt_sameRegsOut.trans (hm.regs.mono (List.nil_subset _))).mono (List.subset_cons_self _ _))
  · rw [← hget]
    refine ((refusedAt_sameRegsOut (s := u)).trans (hm.regs.mono (List.nil_subset _))) _ (.inr hkey.1) fun g hg => ?_
    rcases List.mem_append.mp hg with hg | hg
    · simp only [dropRegs, List.mem_cons, List.not_mem_nil, or_false] at hg
      rcases hg with rfl | rfl <;> omega
    · have := refuseRegs_key hg
      omega
  · have hv' : u.flag (Reg.coreRefuseValid n) = false := by
      rw [← hv]
      unfold flag
      rw [hregs _ (.inr ?_) ?_]
      · simp only [Reg.coreRefuseValid, fld_key]
        omega
      · have : 0x1000000 * 32 ≤ (Reg.coreRefuseValid n).key := refuseRegs_key (n := n) (by simp [refuseRegs])
        simp only [dropRegs, List.cons_append, List.nil_append, List.mem_cons, List.not_mem_nil, or_false]
        rintro g (rfl | rfl | rfl) <;> omega
    rw [← flag_refuseValid_raise u n srcKvp kind clsU (id % 2 ^ 20 + n * 2 ^ 20)] at hv'
    obtain ⟨h1, h2, h3, -, -⟩ := recordRefusal_fields hv' 8 opid 0 0
    exact ⟨(get_refuse_wantHold (by simp [refuseRegs]) _).trans h1, (get_refuse_wantHold (by simp [refuseRegs]) _).trans h2,
      (get_refuse_wantHold (by simp [refuseRegs]) _).trans h3⟩
  · refine wantHold_rest ?_ _
    have hr := congrArg (fun v : State => { v with regs := s.regs, cores := s.cores, faultQ := s.faultQ })
      (refusedAt_rest (s := u) (n := n) (src := srcKvp) (kind := kind) (addr := id % 2 ^ 20 + n * 2 ^ 20) (reason := 8)
        (opid := opid) (need := 0) (have_ := 0))
    refine Eq.trans hr ?_
    rw [hu]

section
variable {s : State} {n func : Nat} {words : List Word} {chg : State → VC → KvRes}

/-- A vector command is taken where its core may take one and the command is the one that the words spell. -/
theorem State.takesVec_of {op : Nat} {d : VC} (h : TakesVec s n) (hop : d.op = op) : s.takesVec n op d = true := by
  obtain ⟨hc, hv⟩ := h
  simp [takesVec, hc, hv, hop]

variable (h : TakesVec s n) (hop : (vcOf (natWords words)).op = 0x29)
include h hop

theorem kvopCmd_of_undefined (hf : 2 < (vcOf (natWords words)).func) :
    kvopCmd n func words chg s = .next (s.refuseVec n (vcOf (natWords words))) := by
  simp [kvopCmd, State.takesVec_of h hop, hf]

theorem kvopCmd_of_badFields (hf : (vcOf (natWords words)).func = func) (hk : kvFieldsOk (vcOf (natWords words)) = false) :
    kvopCmd n func words chg s = .next (s.refuseVec n (vcOf (natWords words))) := by
  simp [kvopCmd, State.takesVec_of h hop, hf, hk]

theorem kvopCmd_of_no (hf : (vcOf (natWords words)).func = func) (hle : func ≤ 2) (hk : kvFieldsOk (vcOf (natWords words)) = true)
    {kind : Nat} (hc : State.keepChange (chg s (vcOf (natWords words))) = .no kind) :
    kvopCmd n func words chg s =
      .next (s.refuseKv n (vcOf (natWords words)).opid ((vcOf (natWords words)).xarg % 2 ^ 20) kind) := by
  simp [kvopCmd, State.takesVec_of h hop, hf, hle, hk, hc]

theorem kvopCmd_of_ok (hf : (vcOf (natWords words)).func = func) (hle : func ≤ 2) (hk : kvFieldsOk (vcOf (natWords words)) = true)
    {u : State} (hc : State.keepChange (chg s (vcOf (natWords words))) = .ok u) :
    kvopCmd n func words chg s = .next (u.auditPages.finishVec n (vcOf (natWords words)).opid 4) := by
  simp [kvopCmd, State.takesVec_of h hop, hf, hle, hk, hc]

end

theorem State.keepChange_ok {r : KvRes} {u : State} (h : State.keepChange r = .ok u) : r = .ok u := by
  unfold keepChange at h
  split at h
  · split at h
    · cases h
    · exact h
  · exact h

/-- A change that is made has the effect of a vector command that leaves the tile registers (R213). -/
theorem kvChange_done {s u : State} {n : Nat} (h : TakesVec s n) (hu : KvMoves s u) (opid : Nat) :
    let t := u.auditPages.finishVec n opid 4
    VecEnds s t n (s.core n).tiles ∧ t.kvp = u.kvp ∧ t.hbm = u.hbm ∧
      { t with regs := s.regs, cores := s.cores, kvp := s.kvp, hbm := s.hbm, freeCtr := s.freeCtr, faultQ := s.faultQ, caps := s.caps
               captures := s.captures } = s := by
  have ha : KvPages u u.auditPages := by
    unfold State.auditPages
    split
    · exact .refl u
    · exact .raise u _ _ _ _
  have hs : KvMoves s u.auditPages := hu.trans ha.toKvMoves
  have hd : (s.core n).dwconv = none := by
    have hv := h.2
    simp only [Core.vecFree, Bool.and_eq_true, Option.isNone_iff_eq_none] at hv
    exact hv.1
  have hkvp : u.auditPages.kvp = u.kvp ∧ u.auditPages.hbm = u.hbm := by
    unfold State.auditPages
    split
    · exact ⟨rfl, rfl⟩
    · exact ⟨State.raise_kvp .., State.raise_hbm ..⟩
  obtain ⟨r, c, q, p, e⟩ := u.auditPages.finishVec_frame n opid 4
  refine ⟨State.finishVec_vecEnds hd (hs.core n) (fun k _ => hs.core k) (hs.regs _ (State.vecRegs_key (n := n) (by simp [vecRegs]))) opid 4, ?_, ?_, ?_⟩
  · rw [e]
    exact hkvp.1
  · rw [e]
    exact hkvp.2
  · rw [e]
    exact congrArg (fun v : State => { v with caps := s.caps, captures := s.captures, cores := s.cores }) hs.rest

/-- The changes of the store that OPEN, FORK and CLOSE ask for (R213, R214). -/
def kvOpen (n : Nat) (s : State) (d : VC) : KvRes :=
  if !s.flag Reg.kvpCtrlEn then .no kvStreamKind
  else s.openStream (d.xarg % 2 ^ 20) (bits d.imm 0 8 + 1) (bits d.imm 8 8 + 1) (bits d.imm 16 4) n false

def kvFork (n : Nat) (s : State) (d : VC) : KvRes :=
  if !ownerOk s (d.imm % 2 ^ 20) n then .no kvOwner else s.forkStream (d.xarg % 2 ^ 20) (d.imm % 2 ^ 20) n false

def kvClose (n : Nat) (s : State) (d : VC) : KvRes :=
  if !ownerOk s (d.xarg % 2 ^ 20) n then .no kvOwner else s.closeStream (d.xarg % 2 ^ 20)

theorem kvOpen_of_enabled {n : Nat} {s : State} (d : VC) (h : s.flag Reg.kvpCtrlEn = true) : kvOpen n s d =
    s.openStream (d.xarg % 2 ^ 20) (bits d.imm 0 8 + 1) (bits d.imm 8 8 + 1) (bits d.imm 16 4) n false := if_neg (by simpa using h)

theorem kvFork_of_owner {n : Nat} {s : State} {d : VC} (h : ownerOk s (d.imm % 2 ^ 20) n = true) :
    kvFork n s d = s.forkStream (d.xarg % 2 ^ 20) (d.imm % 2 ^ 20) n false := if_neg (by simpa using h)

theorem kvFork_of_other {n : Nat} {s : State} {d : VC} (h : ownerOk s (d.imm % 2 ^ 20) n = false) : kvFork n s d = .no kvOwner :=
  if_pos (by simpa using h)

theorem kvClose_of_owner {n : Nat} {s : State} {d : VC} (h : ownerOk s (d.xarg % 2 ^ 20) n = true) :
    kvClose n s d = s.closeStream (d.xarg % 2 ^ 20) := if_neg (by simpa using h)

theorem kvClose_of_other {n : Nat} {s : State} {d : VC} (h : ownerOk s (d.xarg % 2 ^ 20) n = false) : kvClose n s d = .no kvOwner :=
  if_pos (by simpa using h)

theorem exec_kvopOpen (n : Nat) (words : List Word) (s : State) : exec (.kvopOpen n words) s = kvopCmd n 0 words (kvOpen n) s := rfl

theorem exec_kvopFork (n : Nat) (words : List Word) (s : State) : exec (.kvopFork n words) s = kvopCmd n 1 words (kvFork n) s := rfl

theorem exec_kvopClose (n : Nat) (words : List Word) (s : State) : exec (.kvopClose n words) s = kvopCmd n 2 words (kvClose n) s := rfl

/-- Settles O32: a KVOP is refused by its FUNC and its fields, and else by what the change of the store comes to. -/
theorem kvStreamsChange : Obligations.KvStreamsChange := by
  intro s n words h d id src m changes refused hop
  have hrefused : ∀ {i : Instr}, exec i s = .next (s.refuseVec n d) → refused i := fun e => ⟨_, e, s.refuseCmd_refused ..⟩
  have hkv : ∀ {i : Instr} {kind : Nat}, exec i s = .next (s.refuseKv n d.opid id kind) →
      ∃ t, exec i s = .next t ∧ KvRefused s t n d.opid id kind := fun e => ⟨_, e, s.refuseKv_refused ..⟩
  have hchange : ∀ {i : Instr} {func : Nat} {chg : State → VC → KvRes} {r : KvRes} {done : State → Prop},
      exec i s = kvopCmd n func words chg s → d.func = func → func ≤ 2 → kvFieldsOk d = true → chg s d = r →
      (∀ u, r = .ok u → KvMoves s u ∧ ∀ t : State, t.kvp = u.kvp → done t) → changes i (State.keepChange r) done := by
    rintro i func chg r done e hf hle hk rfl hdone
    refine ⟨fun kind hno => ⟨_, e.trans (kvopCmd_of_no h hop hf hle hk hno), s.refuseKv_refused ..⟩, fun u hok => ?_⟩
    obtain ⟨hu, hd⟩ := hdone u (State.keepChange_ok hok)
    obtain ⟨hends, hkvp, hhbm, hrest⟩ := kvChange_done h hu d.opid
    exact ⟨_, e.trans (kvopCmd_of_ok h hop hf hle hk hok), hends, hkvp, hhbm, hd _ hkvp, hrest⟩
  have hopen := exec_kvopOpen n words s
  have hfork := exec_kvopFork n words s
  have hclose := exec_kvopClose n words s
  refine ⟨fun hf => ⟨?_, ?_, ?_⟩, fun hf => ⟨fun hk => ?_, fun hk he => ?_, fun hk he => ?_⟩,
    fun hf => ⟨fun hk => ?_, fun hk ho => ?_, fun hk ho => ?_⟩, fun hf => ⟨fun hk => ?_, fun hk ho => ?_, fun hk ho => ?_⟩⟩
  · exact hrefused (hopen.trans (kvopCmd_of_undefined h hop hf))
  · exact hrefused (hfork.trans (kvopCmd_of_undefined h hop hf))
  · exact hrefused (hclose.trans (kvopCmd_of_undefined h hop hf))
  · exact hrefused (hopen.trans (kvopCmd_of_badFields h hop hf hk))
  · have hno : State.keepChange (kvOpen n s d) = .no kvStreamKind := by simp [kvOpen, he, State.keepChange]
    exact hkv (hopen.trans (kvopCmd_of_no h hop hf (by decide) hk hno))
  · refine hchange hopen hf (by decide) hk (kvOpen_of_enabled d he) fun u hok => ?_
    obtain ⟨hu, hfree, l1, hl⟩ := State.openStream_ok hok
    exact ⟨hu, fun t ht => ⟨hfree, l1, by rw [ht]; exact hl⟩⟩
  · exact hrefused (hfork.trans (kvopCmd_of_badFields h hop hf hk))
  · have hno : State.keepChange (kvFork n s d) = .no kvOwner := by
      rw [kvFork_of_other ho]
      rfl
    exact hkv (hfork.trans (kvopCmd_of_no h hop hf (by decide) hk hno))
  · refine hchange hfork hf (by decide) hk (kvFork_of_owner ho) fun u hok => ?_
    obtain ⟨hu, st, l1, hst, hl⟩ := State.forkStream_ok hok
    exact ⟨hu, fun t ht => ⟨st, l1, hst, by rw [ht]; exact hl⟩⟩
  · exact hrefused (hclose.trans (kvopCmd_of_badFields h hop hf hk))
  · have hno : State.keepChange (kvClose n s d) = .no kvOwner := by
      rw [kvClose_of_other ho]
      rfl
    exact hkv (hclose.trans (kvopCmd_of_no h hop hf (by decide) hk hno))
  · refine hchange hclose hf (by decide) hk (kvClose_of_owner ho) fun u hok => ?_
    obtain ⟨hu, hnone, hne⟩ := State.closeStream_ok hok
    exact ⟨hu, fun t ht => by rw [ht]; exact ⟨hnone, hne⟩⟩

end Sys2Proof.Machine
end

section
/-!
SUPPORT. Proofs: how the watched events of an operation are recorded and raised (R94 to R96). -/

namespace Sys2Proof.Machine

/-- The fields that recording an event writes, and those that it reads. -/
def eventRegs (n : Nat) : List Fld :=
  Reg.coreNanCount n :: trapRegs n ++ [Reg.coreNumctrlNanAction n, Reg.coreNumctrlInfTrap n, Reg.coreCtxGang n, Reg.coreCtxStage n]

/-- They lie in the cores' blocks. -/
theorem eventRegs_key {n : Nat} {f : Fld} (h : f ∈ eventRegs n) : 0x1000000 * 32 ≤ f.key := by
  simp only [eventRegs, trapRegs, List.cons_append, List.nil_append, List.mem_cons, List.not_mem_nil, or_false] at h
  rcases h with rfl | rfl | rfl | rfl | rfl | rfl | rfl | rfl | rfl | rfl | rfl | rfl | rfl | rfl | rfl | rfl | rfl | rfl | rfl | rfl | rfl <;>
    exact Nat.le_trans (by omega : 0x1000000 * 32 ≤ (0x1000000 + 0x10000 * n) * 32)
      (Nat.le_trans (Nat.mul_le_mul_right 32 (Nat.le_add_right _ _)) (Nat.le_add_right _ _))

/-- What the trap record of the operation's core shows of an event (Table 3-7). -/
def TrapShows (s t : State) (o : OpTag) (e : Event) : Prop :=
  t.get (Reg.coreTrapStatusValid o.core) = 1 ∧ t.get (Reg.coreTrapStatusSrc o.core) = o.src % 2 ∧
  t.get (Reg.coreTrapStatusCause o.core) = e.cause.code ∧ t.get (Reg.coreTrapStatusRz o.core) = b2n o.rz ∧
  t.get (Reg.coreTrapStatusSpecial o.core) = b2n o.special ∧ t.get (Reg.coreTrapStatusCore o.core) = o.core % 256 ∧
  t.get (Reg.coreTrapOpid o.core) = o.opid % 2 ^ 32 ∧ t.get (Reg.coreTrapTileMt o.core) = e.mt % 2 ^ 16 ∧
  t.get (Reg.coreTrapTileNt o.core) = e.nt % 2 ^ 16 ∧ t.get (Reg.coreTrapElemRow o.core) = e.row % 128 ∧
  t.get (Reg.coreTrapElemCol o.core) = e.col % 256 ∧ t.get (Reg.coreTrapElemKblk o.core) = e.kblk % 2 ^ 16 ∧
  t.get (Reg.coreTrapOwnerGang o.core) = s.get (Reg.coreCtxGang o.core) % 2 ^ (Reg.coreTrapOwnerGang o.core).w ∧
  t.get (Reg.coreTrapOwnerStage o.core) = s.get (Reg.coreCtxStage o.core) % 2 ^ (Reg.coreTrapOwnerStage o.core).w ∧
  t.get (Reg.coreTrapAngleLo o.core) + 2 ^ 32 * t.get (Reg.coreTrapAngleHi o.core) =
    (if s.cad.ran then s.cad.lastFired % 2 ^ 48 else 0)

namespace State

theorem latchTrap_shows (s : State) (o : OpTag) (e : Event) : TrapShows s (s.latchTrap o e) o e := by
  have hrz : ∀ b, b2n b % 2 = b2n b := by decide
  have hcode : ∀ c : Cause, c.code % 4 = c.code := by intro c; cases c <;> rfl
  unfold TrapShows latchTrap
  dsimp only
  simp (disch := (simp only [Reg.coreTrapStatusValid, Reg.coreTrapStatusSrc, Reg.coreTrapStatusCause, Reg.coreTrapStatusRz,
    Reg.coreTrapStatusSpecial, Reg.coreTrapStatusCore, Reg.coreTrapOpid, Reg.coreTrapOwnerGang, Reg.coreTrapOwnerStage,
    Reg.coreTrapTileMt, Reg.coreTrapTileNt, Reg.coreTrapElemRow, Reg.coreTrapElemCol, Reg.coreTrapElemKblk, Reg.coreTrapAngleLo,
    Reg.coreTrapAngleHi, fld_key] <;> omega)) only [get_put_same, get_put_ne]
  refine ⟨rfl, rfl, hcode _, hrz _, hrz _, rfl, rfl, rfl, rfl, rfl, rfl, rfl, trivial, trivial, ?_⟩
  simp only [Reg.coreTrapAngleLo, Reg.coreTrapAngleHi, fld_w]
  split <;> omega

theorem latchTrap_sameRegsBut (s : State) (o : OpTag) (e : Event) : SameRegsBut (trapRegs o.core) s (s.latchTrap o e) := by
  unfold latchTrap
  dsimp only
  iterate 16 refine SameRegsBut.put _ _ ?_ (by simp [trapRegs])
  exact SameRegsBut.refl _ s

theorem latchTrap_frame (s : State) (o : OpTag) (e : Event) : ∃ r, s.latchTrap o e = { s with regs := r } := ⟨_, rfl⟩

/-- Where the record holds an event, the others count (R95). -/
theorem recordEvents_of_valid {s : State} {o : OpTag} (h : s.flag (Reg.coreTrapStatusValid o.core) = true) (e : Event) (r : List Event) :
    s.recordEvents o (e :: r) = s.count (Reg.coreNanCount o.core) (r.length + 1) := if_pos h

/-- A clear record latches the first (R94). -/
theorem recordEvents_of_clear {s : State} {o : OpTag} (h : s.flag (Reg.coreTrapStatusValid o.core) = false) (e : Event) (r : List Event) :
    s.recordEvents o (e :: r) = (s.latchTrap o e).count (Reg.coreNanCount o.core) r.length := if_neg (by simp [h])

/-- A recorded event changes registers alone. -/
theorem recordEvents_frame (s : State) (o : OpTag) (es : List Event) : ∃ r, s.recordEvents o es = { s with regs := r } := by
  cases es with
  | nil => exact ⟨_, rfl⟩
  | cons e r =>
    cases h : s.flag (Reg.coreTrapStatusValid o.core) with
    | true => exact ⟨_, recordEvents_of_valid h e r⟩
    | false => exact ⟨_, recordEvents_of_clear h e r⟩

/-- The fault of an operation with events (R96). -/
theorem raiseNum_movesCad (s : State) (o : OpTag) (c : Cause) : MovesCad s (s.raiseNum o c) := by
  unfold raiseNum
  dsimp only
  split
  · exact (Routed.raise ..).toMovesCad.trans (wantHold_movesCad _ _)
  · exact (Routed.raise ..).toMovesCad

theorem raiseNum_raised (s : State) (o : OpTag) (c : Cause) : Raised s (s.raiseNum o c) (srcNum o.core) c.kind
    (if s.flag (Reg.coreNumctrlNanAction o.core) then clsU else clsC) (o.opid % 2 ^ 32 + o.core * 2 ^ 32) := by
  unfold raiseNum
  dsimp only
  split
  · exact (Raised.raise s _ _ _ _).of_prefix (wantHold_movesCad _ _).faults
  · exact Raised.raise s _ _ _ _

theorem raiseNum_holdsNext {s u : State} {o : OpTag} (hc : u.cad = s.cad) (h : u.flag (Reg.coreNumctrlNanAction o.core) = true) (c : Cause) :
    HoldsNext s (u.raiseNum o c) reasonAbort := by
  unfold raiseNum
  dsimp only
  rw [if_pos h]
  exact wantHold_holdsNext ((raise_cad ..).trans hc) reasonAbort

theorem raiseNum_cad {s : State} {o : OpTag} (h : s.flag (Reg.coreNumctrlNanAction o.core) = false) (c : Cause) :
    (s.raiseNum o c).cad = s.cad := by
  unfold raiseNum
  dsimp only
  rw [if_neg (by simp [h])]
  exact raise_cad ..

/-- The fields of a core's events after the fault of R96. -/
theorem get_raiseNum {s : State} {n : Nat} {f : Fld} (hf : f ∈ eventRegs n) (o : OpTag) (c : Cause) : (s.raiseNum o c).get f = s.get f := by
  have hk := eventRegs_key hf
  have hd : Reg.fltDropped.key < 0x1000000 * 32 := by decide
  have ho : Reg.fltStatusOvf.key < 0x1000000 * 32 := by decide
  exact (raiseNum_movesCad s o c).get (.inr (by omega)) (by omega) (by omega)

end State

/-- What a record shows stays where its fields stay. -/
theorem TrapShows.of_get {s t u : State} {o : OpTag} {e : Event} (h : TrapShows s t o e) (hg : ∀ f ∈ trapRegs o.core, u.get f = t.get f) :
    TrapShows s u o e := by
  unfold TrapShows at *
  simpa only [hg _ (show Reg.coreTrapStatusValid o.core ∈ trapRegs o.core by simp [trapRegs]),
    hg _ (show Reg.coreTrapStatusSrc o.core ∈ trapRegs o.core by simp [trapRegs]),
    hg _ (show Reg.coreTrapStatusCause o.core ∈ trapRegs o.core by simp [trapRegs]),
    hg _ (show Reg.coreTrapStatusRz o.core ∈ trapRegs o.core by simp [trapRegs]),
    hg _ (show Reg.coreTrapStatusSpecial o.core ∈ trapRegs o.core by simp [trapRegs]),
    hg _ (show Reg.coreTrapStatusCore o.core ∈ trapRegs o.core by simp [trapRegs]),
    hg _ (show Reg.coreTrapOpid o.core ∈ trapRegs o.core by simp [trapRegs]),
    hg _ (show Reg.coreTrapOwnerGang o.core ∈ trapRegs o.core by simp [trapRegs]),
    hg _ (show Reg.coreTrapOwnerStage o.core ∈ trapRegs o.core by simp [trapRegs]),
    hg _ (show Reg.coreTrapTileMt o.core ∈ trapRegs o.core by simp [trapRegs]),
    hg _ (show Reg.coreTrapTileNt o.core ∈ trapRegs o.core by simp [trapRegs]),
    hg _ (show Reg.coreTrapElemRow o.core ∈ trapRegs o.core by simp [trapRegs]),
    hg _ (show Reg.coreTrapElemCol o.core ∈ trapRegs o.core by simp [trapRegs]),
    hg _ (show Reg.coreTrapElemKblk o.core ∈ trapRegs o.core by simp [trapRegs]),
    hg _ (show Reg.coreTrapAngleLo o.core ∈ trapRegs o.core by simp [trapRegs]),
    hg _ (show Reg.coreTrapAngleHi o.core ∈ trapRegs o.core by simp [trapRegs])] using h

theorem State.recordEvents_sameRegsBut (s : State) (o : OpTag) (es : List Event) :
    SameRegsBut (Reg.coreNanCount o.core :: trapRegs o.core) s (s.recordEvents o es) := by
  cases es with
  | nil => exact .refl _ s
  | cons e r =>
    cases h : s.flag (Reg.coreTrapStatusValid o.core) with
    | true =>
      rw [recordEvents_of_valid h]
      exact (SameRegsBut.refl _ s).count _ _ (by simp)
    | false =>
      rw [recordEvents_of_clear h]
      exact ((s.latchTrap_sameRegsBut o e).mono (List.subset_cons_self _ _)).count _ _ (by simp)

theorem nanCount_mem (n : Nat) : Reg.coreNanCount n ∈ eventRegs n := by simp [eventRegs]

theorem trapRegs_subset (n : Nat) : trapRegs n ⊆ eventRegs n := fun f hf => by simp [eventRegs, hf]

theorem nanCount_apart {n : Nat} {f : Fld} (h : f ∈ trapRegs n) : f.key ≠ (Reg.coreNanCount n).key := by
  simp only [trapRegs, List.mem_cons, List.not_mem_nil, or_false] at h
  rcases h with rfl | rfl | rfl | rfl | rfl | rfl | rfl | rfl | rfl | rfl | rfl | rfl | rfl | rfl | rfl | rfl <;>
    simp only [Reg.coreTrapStatusValid, Reg.coreTrapStatusSrc, Reg.coreTrapStatusCause, Reg.coreTrapStatusRz,
      Reg.coreTrapStatusSpecial, Reg.coreTrapStatusCore, Reg.coreTrapOpid, Reg.coreTrapOwnerGang, Reg.coreTrapOwnerStage,
      Reg.coreTrapTileMt, Reg.coreTrapTileNt, Reg.coreTrapElemRow, Reg.coreTrapElemCol, Reg.coreTrapElemKblk, Reg.coreTrapAngleLo,
      Reg.coreTrapAngleHi, Reg.coreNanCount, fld_key] <;> omega

/-- The flag of NAN_ACTION is not among what a record writes. -/
theorem nanAction_apart {n : Nat} {f : Fld} (h : f ∈ Reg.coreNanCount n :: trapRegs n) : (Reg.coreNumctrlNanAction n).key ≠ f.key := by
  simp only [trapRegs, List.mem_cons, List.not_mem_nil, or_false] at h
  rcases h with rfl | rfl | rfl | rfl | rfl | rfl | rfl | rfl | rfl | rfl | rfl | rfl | rfl | rfl | rfl | rfl | rfl <;>
    simp only [Reg.coreTrapStatusValid, Reg.coreTrapStatusSrc, Reg.coreTrapStatusCause, Reg.coreTrapStatusRz,
      Reg.coreTrapStatusSpecial, Reg.coreTrapStatusCore, Reg.coreTrapOpid, Reg.coreTrapOwnerGang, Reg.coreTrapOwnerStage,
      Reg.coreTrapTileMt, Reg.coreTrapTileNt, Reg.coreTrapElemRow, Reg.coreTrapElemCol, Reg.coreTrapElemKblk, Reg.coreTrapAngleLo,
      Reg.coreTrapAngleHi, Reg.coreNanCount, Reg.coreNumctrlNanAction, fld_key] <;> omega

namespace EventsLatched

/-- The watched events of an operation. -/
def watchedOf (s : State) (o : OpTag) (es : List Event) : List Event :=
  es.filter (fun e => watched (s.flag (Reg.coreNumctrlInfTrap o.core)) e.cause)

theorem of_none {s t : State} {o : OpTag} {es : List Event} {l : List Fld} (hw : watchedOf s o es = [])
    (hr : SameRegsOut l s t) (hc : t.cad = s.cad) : EventsLatched s t o es l := by
  unfold EventsLatched watchedOf at *
  rw [hw]
  exact ⟨hr, hc⟩

/-- What `recordEvents` and `raiseNum` come to, where a watched event is there. -/
theorem of_some {s : State} {o : OpTag} {es : List Event} {e : Event} {r : List Event} (hw : watchedOf s o es = e :: r) :
    EventsLatched s ((s.recordEvents o (e :: r)).raiseNum o e.cause) o es [] := by
  have hcount : 0 < (Reg.coreNanCount o.core).w := Nat.succ_pos 31
  have hflag : (s.recordEvents o (e :: r)).flag (Reg.coreNumctrlNanAction o.core) = s.flag (Reg.coreNumctrlNanAction o.core) := by
    unfold State.flag
    rw [s.recordEvents_sameRegsBut o (e :: r) _ fun g hg => nanAction_apart hg]
  obtain ⟨rg, hu⟩ := s.recordEvents_frame o (e :: r)
  have hcad : (s.recordEvents o (e :: r)).cad = s.cad := by rw [hu]
  have hfault : (s.recordEvents o (e :: r)).faultQ = s.faultQ := by rw [hu]
  have hmoves := State.raiseNum_movesCad (s.recordEvents o (e :: r)) o e.cause
  unfold EventsLatched watchedOf at *
  rw [hw]
  dsimp only
  refine ⟨fun hv => ⟨?_, ?_⟩, fun hv => ⟨?_, ?_, ?_⟩, ?_, fun ha => ?_, fun ha => ?_⟩
  · refine SameRegsOut.trans ?_ (hmoves.regs.mono (List.nil_subset _))
    rw [State.recordEvents_of_valid hv]
    exact (SameRegsOut.refl _ s).count (by simp) _
  · rw [State.get_raiseNum (nanCount_mem _), State.recordEvents_of_valid hv]
    exact State.get_count_same s _ _ hcount
  · exact (SameRegsOut.of_sameRegsBut ((s.recordEvents_sameRegsBut o (e :: r)).mono (by simp))).trans
      (hmoves.regs.mono (List.nil_subset _))
  · rw [State.get_raiseNum (nanCount_mem _), State.recordEvents_of_clear hv, State.get_count_same _ _ _ hcount,
      s.latchTrap_sameRegsBut o e _ fun g hg => (nanCount_apart hg).symm]
    rfl
  · refine (s.latchTrap_shows o e).of_get fun f hf => ?_
    rw [State.get_raiseNum (trapRegs_subset _ hf), State.recordEvents_of_clear hv]
    exact State.get_put_ne _ _ (nanCount_apart hf)
  · have hr := State.raiseNum_raised (s.recordEvents o (e :: r)) o e.cause
    rw [hflag] at hr
    exact hr.of_same hfault hcad
  · exact State.raiseNum_holdsNext hcad (hflag.trans ha) _
  · exact (State.raiseNum_cad (hflag.trans ha) _).trans hcad

/-- An operation's events are recorded and raised (R94 to R96). -/
theorem opEvents (s : State) (o : OpTag) (es : List Event) : EventsLatched s (s.opEvents o false es) o es [] := by
  unfold State.opEvents
  dsimp only
  split
  next hw => exact of_none hw (SameRegsOut.refl _ s) rfl
  next e r hw =>
    rw [hw]
    exact of_some hw

/-- What comes after the events of an operation, where it writes no field of a record. -/
theorem trans_right {s t u : State} {o : OpTag} {es : List Event} {l m : List Fld} (h : EventsLatched s t o es l) (hl : l ⊆ m)
    (hr : SameRegsOut m t u) (hg : ∀ f ∈ eventRegs o.core, u.get f = t.get f) (hc : u.cad = t.cad) (hq : t.faultQ <+: u.faultQ) :
    EventsLatched s u o es m := by
  unfold EventsLatched at *
  split at h
  next hw =>
    obtain ⟨hregs, hcad⟩ := h
    exact ⟨(hregs.mono hl).trans hr, hc.trans hcad⟩
  next e r hw =>
    obtain ⟨hvalid, hclear, hraised, hholds, hkeeps⟩ := h
    refine ⟨fun hv => ?_, fun hv => ?_, hraised.of_prefix hq, fun ha => ?_, fun ha => hc.trans (hkeeps ha)⟩
    · obtain ⟨hregs, hcount⟩ := hvalid hv
      exact ⟨(hregs.mono (List.cons_subset_cons _ hl)).trans (hr.mono (List.subset_cons_self _ _)),
        (hg _ (nanCount_mem _)).trans hcount⟩
    · obtain ⟨hregs, hcount, hshows⟩ := hclear hv
      refine ⟨(hregs.mono (List.cons_subset_cons _ ?_)).trans (hr.mono ?_), (hg _ (nanCount_mem _)).trans hcount,
        TrapShows.of_get hshows fun f hf => hg f (trapRegs_subset _ hf)⟩
      · exact List.append_subset.mpr ⟨List.subset_append_left _ _, List.subset_append_of_subset_right _ hl⟩
      · exact List.subset_cons_of_subset _ (List.subset_append_right _ _)
    · have := hholds ha
      unfold HoldsNext at *
      rwa [hc]

/-- What comes before them. -/
theorem trans_left {s t u : State} {o : OpTag} {es : List Event} {l m : List Fld} (h : EventsLatched u t o es l) (hl : l ⊆ m)
    (hr : SameRegsOut m s u) (hg : ∀ f ∈ eventRegs o.core, u.get f = s.get f) (hc : u.cad = s.cad) (hq : u.faultQ = s.faultQ) :
    EventsLatched s t o es m := by
  have hflag : ∀ f ∈ eventRegs o.core, u.flag f = s.flag f := fun f hf => by
    unfold State.flag
    rw [hg f hf]
  have hinf := hflag (Reg.coreNumctrlInfTrap o.core) (by simp [eventRegs])
  have hact := hflag (Reg.coreNumctrlNanAction o.core) (by simp [eventRegs])
  have hval := hflag (Reg.coreTrapStatusValid o.core) (by simp [eventRegs, trapRegs])
  unfold EventsLatched at *
  rw [hinf, hact, hval, hg _ (nanCount_mem _), hg (Reg.coreCtxGang o.core) (by simp [eventRegs]),
    hg (Reg.coreCtxStage o.core) (by simp [eventRegs]), hc] at h
  split at h
  next hw =>
    obtain ⟨hregs, hcad⟩ := h
    exact ⟨hr.trans (hregs.mono hl), hcad⟩
  next e r hw =>
    obtain ⟨hvalid, hclear, hraised, hholds, hkeeps⟩ := h
    refine ⟨fun hv => ?_, fun hv => ?_, hraised.of_same hq hc, fun ha => ?_, hkeeps⟩
    · obtain ⟨hregs, hcount⟩ := hvalid hv
      exact ⟨(hr.mono (List.subset_cons_self _ _)).trans (hregs.mono (List.cons_subset_cons _ hl)), hcount⟩
    · obtain ⟨hregs, hcount⟩ := hclear hv
      refine ⟨(hr.mono ?_).trans (hregs.mono (List.cons_subset_cons _ ?_)), hcount⟩
      · exact List.subset_cons_of_subset _ (List.subset_append_right _ _)
      · exact List.append_subset.mpr ⟨List.subset_append_left _ _, List.subset_append_of_subset_right _ hl⟩
    · have := hholds ha
      unfold HoldsNext at *
      rwa [hc] at this

end EventsLatched

end Sys2Proof.Machine
end

section
/-!
SUPPORT. Proofs: what a vector command that has had its effect leaves (R141, R144, R150). -/

namespace Sys2Proof.Machine

/-- The counters of the vector engine are no fields of a record. -/
theorem vecRegs_apart {n : Nat} {f g : Fld} (hf : f ∈ eventRegs n) (hg : g ∈ vecRegs n) : f.key ≠ g.key := by
  have hlow : f.key < (0x1000000 + 0x10000 * n + 0x0230) * 32 := by
    simp only [eventRegs, trapRegs, List.cons_append, List.nil_append, List.mem_cons, List.not_mem_nil, or_false] at hf
    rcases hf with rfl | rfl | rfl | rfl | rfl | rfl | rfl | rfl | rfl | rfl | rfl | rfl | rfl | rfl | rfl | rfl | rfl | rfl | rfl | rfl | rfl <;>
      simp only [Reg.coreTrapStatusValid, Reg.coreTrapStatusSrc, Reg.coreTrapStatusCause, Reg.coreTrapStatusRz,
        Reg.coreTrapStatusSpecial, Reg.coreTrapStatusCore, Reg.coreTrapOpid, Reg.coreTrapOwnerGang, Reg.coreTrapOwnerStage,
        Reg.coreTrapTileMt, Reg.coreTrapTileNt, Reg.coreTrapElemRow, Reg.coreTrapElemCol, Reg.coreTrapElemKblk, Reg.coreTrapAngleLo,
        Reg.coreTrapAngleHi, Reg.coreNanCount, Reg.coreNumctrlNanAction, Reg.coreNumctrlInfTrap, Reg.coreCtxGang, Reg.coreCtxStage,
        fld_key] <;> omega
  have hhigh : (0x1000000 + 0x10000 * n + 0x0230) * 32 ≤ g.key := by
    simp only [vecRegs, List.mem_cons, List.not_mem_nil, or_false] at hg
    rcases hg with rfl | rfl | rfl <;> simp only [Reg.coreVcmds, Reg.coreVbusyCyclesLo, Reg.coreVbusyCyclesHi, fld_key] <;> omega
  omega

namespace State

/-- The events of an operation change the Cadence, send messages and raise a fault, and else change registers alone. -/
theorem opEvents_movesCad (s : State) (o : OpTag) (es : List Event) :
    ∃ r, MovesCad { s with regs := r } (s.opEvents o false es) ∧
      SameRegsBut (Reg.coreNanCount o.core :: trapRegs o.core) s { s with regs := r } := by
  unfold opEvents
  dsimp only
  split
  next => exact ⟨_, .refl s, .refl _ s⟩
  next e r hw =>
    obtain ⟨rg, hu⟩ := s.recordEvents_frame o (e :: r)
    have hr := s.recordEvents_sameRegsBut o (e :: r)
    rw [hw, hu] at *
    exact ⟨rg, raiseNum_movesCad .., hr⟩

theorem opEvents_core (s : State) (o : OpTag) (es : List Event) (k : Nat) : (s.opEvents o false es).core k = s.core k := by
  obtain ⟨r, hm, -⟩ := s.opEvents_movesCad o es
  exact hm.core k

/-- A field in a core's block that no record has. -/
theorem get_opEvents {s : State} {o : OpTag} {f : Fld} (hf : 0x1000000 * 32 ≤ f.key)
    (h : ∀ g ∈ Reg.coreNanCount o.core :: trapRegs o.core, f.key ≠ g.key) (es : List Event) : (s.opEvents o false es).get f = s.get f := by
  obtain ⟨r, hm, hr⟩ := s.opEvents_movesCad o es
  have hd : Reg.fltDropped.key < 0x1000000 * 32 := by decide
  have ho : Reg.fltStatusOvf.key < 0x1000000 * 32 := by decide
  exact (hm.get (.inr (by omega)) (by omega) (by omega)).trans (hr f h)

theorem opEvents_rest (s : State) (o : OpTag) (es : List Event) : { s.opEvents o false es with
    regs := s.regs, cad := s.cad, ports := s.ports, faultQ := s.faultQ, out := s.out } = s := by
  obtain ⟨r, hm, -⟩ := s.opEvents_movesCad o es
  exact congrArg (fun v : State => { v with regs := s.regs }) hm.rest

theorem get_vcmds_opEvents (s : State) {o : OpTag} {n : Nat} (hn : o.core = n) (es : List Event) :
    (s.opEvents o false es).get (Reg.coreVcmds n) = s.get (Reg.coreVcmds n) := by
  subst hn
  have hv : Reg.coreVcmds o.core ∈ vecRegs o.core := by simp [vecRegs]
  refine get_opEvents (vecRegs_key hv) (fun g hg => (vecRegs_apart ?_ hv).symm) es
  rcases List.mem_cons.mp hg with rfl | hg
  · exact nanCount_mem _
  · exact trapRegs_subset _ hg

end State

/-- The events of a command that then ends in the vector engine. -/
theorem EventsLatched.endVec {s u : State} {o : OpTag} {es : List Event} {l : List Fld} {n : Nat} (h : EventsLatched s u o es l)
    (hn : o.core = n) (k opid cycles : Nat) : EventsLatched s (u.endVec n k opid cycles) o es (l ++ vecRegs n) := by
  subst hn
  have hr := u.endVec_sameRegsBut o.core k opid cycles
  obtain ⟨r, c, q, p, e⟩ := u.endVec_frame o.core k opid cycles
  refine h.trans_right (List.subset_append_left _ _) ((SameRegsOut.of_sameRegsBut hr).mono (List.subset_append_right _ _))
    (fun f hf => hr f fun g hg => vecRegs_apart hf hg) ?_ ?_
  · rw [e]
  · rw [e]

theorem EventsLatched.finishVec {s u : State} {o : OpTag} {es : List Event} {l : List Fld} {n : Nat} (h : EventsLatched s u o es l)
    (hn : o.core = n) (opid cycles : Nat) : EventsLatched s (u.finishVec n opid cycles) o es (l ++ vecRegs n) := by
  have hset : EventsLatched s (u.setCore n (u.core n).dispatch) o es l :=
    h.trans_right (List.Subset.refl _) (.of_regs (State.setCore_regs ..)) (fun f _ => State.get_of_regs (State.setCore_regs ..) f)
      (State.setCore_cad ..) (by rw [State.setCore_faultQ])
  exact hset.endVec hn _ opid cycles

/-- The engine that a vector command takes is free of a depth-wise command. -/
theorem TakesVec.dwconv {s : State} {n : Nat} (h : TakesVec s n) : (s.core n).dwconv = none := by
  have hv := h.2
  simp only [Core.vecFree, Bool.and_eq_true, Option.isNone_iff_eq_none] at hv
  exact hv.1

/-- A vector command has had its effect. -/
theorem applyVec_done {s : State} {n : Nat} (h : TakesVec s n) (d : VC) (r : VecRes) (cycles : Nat) :
    VecDone s (s.applyVec n d r cycles) n d r := by
  let u := s.setTiles n r.tiles
  have hu : u.core n = { s.core n with tiles := r.tiles } := State.core_setCore_same ..
  have hne : ∀ k, k ≠ n → u.core k = s.core k := fun k hk => State.core_setCore_ne _ _ hk
  have hends := State.finishVec_vecEnds (u := u.opEvents (vcTag n d) false r.events) h.dwconv
    ((State.opEvents_core ..).trans hu) (fun k hk => (State.opEvents_core ..).trans (hne k hk)) (u.get_vcmds_opEvents rfl r.events) d.opid cycles
  have hevents := ((EventsLatched.opEvents u (vcTag n d) r.events).finishVec rfl d.opid cycles).trans_left (s := s) (List.Subset.refl _)
    (SameRegsOut.of_regs rfl) (fun _ _ => rfl) rfl rfl
  refine ⟨hends, hevents, ?_⟩
  obtain ⟨rg, c, q, p, e⟩ := (u.opEvents (vcTag n d) false r.events).finishVec_frame n d.opid cycles
  have hrest := u.opEvents_rest (vcTag n d) r.events
  unfold State.applyVec
  rw [e]
  exact congrArg (fun v : State => { v with cores := s.cores, caps := s.caps, captures := s.captures }) hrest

section
variable {s : State} {n op cycles : Nat} {ok : VC → Bool} {eff : Memory → VC → VecRes} {words : List Word}
  (h : TakesVec s n) (hop : (vcOf (natWords words)).op = op)
include h hop

theorem vecCmd_of_ok (hk : ok (vcOf (natWords words)) = true) : vecCmd n op cycles ok eff words s =
    .next (s.applyVec n (vcOf (natWords words)) (eff (s.core n).tiles (vcOf (natWords words))) cycles) := by
  simp [vecCmd, State.takesVec_of h hop, hk]

theorem vecCmd_of_bad (hk : ok (vcOf (natWords words)) = false) : vecCmd n op cycles ok eff words s =
    .next (s.refuseVec n (vcOf (natWords words))) := by
  simp [vecCmd, State.takesVec_of h hop, hk]

/-- A vector command has its effect where the check of R150 passes it, and is refused where it does not. -/
theorem vecCmd_acts {i : Instr} (e : exec i s = vecCmd n op cycles ok eff words s) :
    let d := vcOf (natWords words)
    (ok d = true → ∃ t, exec i s = .next t ∧ VecDone s t n d (eff (s.core n).tiles d)) ∧
    (ok d = false → ∃ t, exec i s = .next t ∧ RefusedCmd s t n 0x08 8 d.opid 0 0) :=
  ⟨fun hk => ⟨_, e.trans (vecCmd_of_ok h hop hk), applyVec_done h ..⟩, fun hk => ⟨_, e.trans (vecCmd_of_bad h hop hk), s.refuseCmd_refused ..⟩⟩

end

theorem execReduce_of_filled {s : State} {n : Nat} {words : List Word} (h : redEmpty (vcOf (natWords words)) = false) :
    exec (.reduce n words) s = vecCmd n 0x20 (if (vcOf (natWords words)).axis = 2 then 8 else 4)
      (fun d => base32 d && decide (d.func ≤ 3)) redEff words s := by
  have e : exec (.reduce n words) s = execReduce n words s := rfl
  simp [e, execReduce, h]

/-- Settles O25: each of the ten is a vector command of the model with its own check and its own result. -/
theorem vectorCommandsAct : Obligations.VectorCommandsAct := by
  intro s n words h d m ends small word act
  have hends : ∀ {op cycles : Nat} {i : Instr} {okf : VC → Bool} {eff : Memory → VC → VecRes} {ok : Bool},
      exec i s = vecCmd n op cycles okf eff words s → okf d = ok → ends op i ok (eff m d) := by
    rintro op cycles i okf eff ok e rfl hop
    exact vecCmd_acts h hop e
  have hword : base32 d = word := Bool.and_comm _ _
  have hb : ∀ b, (base32 d && b) = (word && b) := fun b => by rw [hword]
  have hact : actOk (inputForm s d.opid) d = act := by
    unfold actOk
    rw [hword]
    simp [act, bne]
  refine ⟨?_, ?_, ?_, ?_, fun he => hends (execReduce_of_filled he) (hb _), ?_, ?_, ?_, ?_, ?_⟩
  · exact hends (okf := fun d => base32 d && decide (d.func ≤ 14)) rfl (hb _)
  · exact hends (okf := fun d => base32 d && decide (d.func ≤ 10)) rfl (hb _)
  · exact hends (okf := actOk (inputForm s d.opid)) rfl hact
  · exact hends (okf := actOk (inputForm s d.opid)) rfl hact
  · exact hends (okf := fun d => base32 d && d.func == 0) rfl (hb _)
  · exact hends (okf := fun d => extentOk d && d.func == 0 && d.sa % groupRegs d.esize == 0 && d.dst % groupRegs d.esize == 0) rfl rfl
  · exact hends (okf := fun d => extentOk d && decide (d.func ≤ 6)) rfl rfl
  · exact hends (okf := packOk) rfl rfl
  · exact hends (okf := packOk) rfl rfl

end Sys2Proof.Machine
end

section
/-!
SUPPORT. Proofs: words of the tile registers, written and read (R144, R151). -/

namespace Sys2Proof.Machine

theorem length_leBytes (n v : Nat) : (leBytes n v).length = n := by
  induction n generalizing v with
  | zero => rfl
  | succ n ih => simp [leBytes, ih]

namespace Memory

theorem readBytes_eq_of_read {m m' : Memory} {a a' : Nat} (n : Nat) (h : ∀ k < n, m'.read (a' + k) = m.read (a + k)) :
    m'.readBytes a' n = m.readBytes a n := by
  induction n generalizing a a' with
  | zero => rfl
  | succ n ih =>
    unfold readBytes
    have h0 := h 0 (Nat.succ_pos n)
    have hr : m'.readBytes (a' + 1) n = m.readBytes (a + 1) n := ih fun k hk => by
      have := h (k + 1) (by omega)
      rwa [show a' + (k + 1) = a' + 1 + k by omega, show a + (k + 1) = a + 1 + k by omega] at this
    rw [hr, show m'.read a' = m.read a from h0]

theorem readBytes_writeBytes_same (m : Memory) (l : List Byte) (a : Nat) : (m.writeBytes a l).readBytes a l.length = l := by
  induction l generalizing m a with
  | nil => rfl
  | cons b r ih =>
    show ((m.write a b).writeBytes (a + 1) r).read a :: ((m.write a b).writeBytes (a + 1) r).readBytes (a + 1) r.length = _
    rw [ih, read_writeBytes_of_lt _ _ _ _ (Nat.lt_succ_self a), read_write, if_pos rfl]

/-- A number written reads back, cut to its bytes. -/
theorem readLE_writeLE_same (m : Memory) (a n v : Nat) : (m.writeLE a n v).readLE a n = v % 256 ^ n := by
  have h := readBytes_writeBytes_same m (leBytes n v) a
  rw [length_leBytes] at h
  unfold readLE writeLE
  rw [h, Tests.leNat_leBytes]

/-- A byte outside a number that is written. -/
theorem read_writeLE_ne (m : Memory) {a n x : Nat} (v : Nat) (h : x < a ∨ a + n ≤ x) : (m.writeLE a n v).read x = m.read x := by
  rcases h with h | h
  · exact read_writeBytes_of_lt _ _ _ _ h
  · exact read_writeBytes_of_ge _ _ _ _ (by rwa [length_leBytes])

theorem readLE_writeLE_apart (m : Memory) {a n b k : Nat} (v : Nat) (h : b + k ≤ a ∨ a + n ≤ b) :
    (m.writeLE a n v).readLE b k = m.readLE b k :=
  congrArg leNat (readBytes_eq_of_read k fun i hi => read_writeLE_ne m v (by omega))

theorem readLE_lt (m : Memory) (a n : Nat) : m.readLE a n < 256 ^ n := by
  unfold readLE
  induction n generalizing a with
  | zero => simp [readBytes, leNat]
  | succ n ih =>
    have := ih (a + 1)
    have hb : (m.read a).toNat < 256 := (m.read a).isLt
    simp only [readBytes, leNat, Nat.pow_succ]
    omega

/-- An element of 32 bits is a word. -/
theorem elem_word (m : Memory) (base i : Nat) : m.elem base 32 i = m.readLE (base + 4 * i) 4 := by
  have h := m.readLE_lt (base + 4 * i) 4
  have h1 : i * 32 / 8 = 4 * i := by omega
  have h2 : i * 32 % 8 = 0 := by omega
  have e2 : base + 4 * i + 1 + 1 = base + 4 * i + 2 := rfl
  have e3 : base + 4 * i + 2 + 1 = base + 4 * i + 3 := rfl
  simp only [readLE, readBytes, leNat, e2, e3] at h ⊢
  simp only [elem, elemAt, h1, h2]
  norm_num
  rw [Nat.mod_eq_of_lt] <;> omega

theorem writeElem_word (m : Memory) (base i v : Nat) : m.writeElem base 32 i v = m.writeLE (base + 4 * i) 4 (v % 2 ^ 32) := by
  have h := m.readLE_lt (base + 4 * i) 4
  have h1 : i * 32 / 8 = 4 * i := by omega
  have h2 : i * 32 % 8 = 0 := by omega
  have h3 : m.readLE (base + 4 * i) 4 / 4294967296 = 0 := Nat.div_eq_of_lt h
  simp only [writeElem, h1, h2]
  norm_num [Nat.mod_one, h3]

end Memory

/-- The address of a word of a tile register. -/
def tileAddr (t r c : Nat) : Nat := tileRow t r + 4 * c

theorem tileWord_eq (m : Memory) (t r c : Nat) : tileWord m t r c = m.readLE (tileAddr t r c) 4 := m.elem_word _ _

theorem tilePut_eq (m : Memory) (t r c v : Nat) : tilePut m 0 t r c v = m.writeLE (tileAddr t r c) 4 (v % 2 ^ 32) := m.writeElem_word _ _ _

theorem tileWord_tilePut_same (m : Memory) (t r c v : Nat) : tileWord (tilePut m 0 t r c v) t r c = v % 2 ^ 32 := by
  rw [tilePut_eq, tileWord_eq, Memory.readLE_writeLE_same]
  norm_num

theorem tileWord_tilePut_ne (m : Memory) {t r c r' c' : Nat} (v : Nat) (hc : c < 32) (hc' : c' < 32) (h : (r', c') ≠ (r, c)) :
    tileWord (tilePut m 0 t r c v) t r' c' = tileWord m t r' c' := by
  rw [tilePut_eq, tileWord_eq, tileWord_eq]
  refine m.readLE_writeLE_apart _ ?_
  simp only [tileAddr, tileRow]
  by_cases hr : r' = r
  · have : c' ≠ c := fun e => h (by rw [hr, e])
    omega
  · omega

theorem read_tilePut_ne (m : Memory) {t r c b : Nat} (v : Nat) (h : b / 4 ≠ tileRow t r / 4 + c) : (tilePut m 0 t r c v).read b = m.read b := by
  rw [tilePut_eq]
  refine m.read_writeLE_ne _ ?_
  simp only [tileAddr, tileRow] at h ⊢
  omega

/-- The words of a register at some positions, written one after another. -/
def tilePuts (m : Memory) (t : Nat) (l : List (Nat × Nat)) (f : Nat → Nat → Nat) : Memory :=
  l.foldl (fun m p => tilePut m 0 t p.1 p.2 (f p.1 p.2)) m

theorem read_tilePuts_ne (m : Memory) {t b : Nat} (l : List (Nat × Nat)) (f : Nat → Nat → Nat)
    (h : ∀ p ∈ l, b / 4 ≠ tileRow t p.1 / 4 + p.2) : (tilePuts m t l f).read b = m.read b := by
  induction l generalizing m with
  | nil => rfl
  | cons p l ih => exact (ih _ fun q hq => h q (by simp [hq])).trans (read_tilePut_ne m _ (h p (by simp)))

theorem tileWord_tilePuts_notMem (m : Memory) {t : Nat} (l : List (Nat × Nat)) (f : Nat → Nat → Nat) (hl : ∀ p ∈ l, p.2 < 32) {q : Nat × Nat}
    (hq : q.2 < 32) (h : q ∉ l) : tileWord (tilePuts m t l f) t q.1 q.2 = tileWord m t q.1 q.2 := by
  induction l generalizing m with
  | nil => rfl
  | cons p l ih =>
    rw [List.mem_cons, not_or] at h
    exact (ih _ (fun a ha => hl a (by simp [ha])) h.2).trans (tileWord_tilePut_ne m _ (hl p (by simp)) hq h.1)

theorem tileWord_tilePuts (m : Memory) {t : Nat} {l : List (Nat × Nat)} (hd : l.Nodup) (f : Nat → Nat → Nat) (hl : ∀ p ∈ l, p.2 < 32)
    {q : Nat × Nat} (h : q ∈ l) : tileWord (tilePuts m t l f) t q.1 q.2 = f q.1 q.2 % 2 ^ 32 := by
  induction l generalizing m with
  | nil => cases h
  | cons p l ih =>
    rw [List.nodup_cons] at hd
    have hl' : ∀ a ∈ l, a.2 < 32 := fun a ha => hl a (by simp [ha])
    rcases List.mem_cons.mp h with rfl | h
    · exact (tileWord_tilePuts_notMem _ l f hl' (hl q (by simp)) hd.1).trans (tileWord_tilePut_same ..)
    · exact ih _ hd.2 hl' h

/-- A command that writes one element at each position of its extent. -/
theorem elementwise_tiles (m : Memory) (d : VC) (f : Nat → Nat → Elem) :
    (elementwise m d f).tiles = tilePuts m d.dst (positions d.rows d.cols) (fun r c => (f r c).word) := List.foldl_map

theorem mem_positions {rows cols : Nat} {p : Nat × Nat} : p ∈ positions rows cols ↔ p.1 < rows ∧ p.2 < cols := by
  simp [positions, Prod.ext_iff]

theorem nodup_positions (rows cols : Nat) : (positions rows cols).Nodup :=
  List.Nodup.product (List.nodup_range) (List.nodup_range)

/-- The words of an extent are written, and no other byte of the tile registers (R144). -/
def WritesExtent (m m' : Memory) (d : VC) (f : Nat → Nat → Nat) : Prop :=
  (∀ r c, r < d.rows → c < d.cols → tileWord m' d.dst r c = f r c % 2 ^ 32) ∧
  (∀ b, (∀ r c, r < d.rows → c < d.cols → b / 4 ≠ (tileRow d.dst r) / 4 + c) → m'.read b = m.read b)

theorem tilePuts_writesExtent (m : Memory) {d : VC} (hc : d.cols ≤ 32) (f : Nat → Nat → Nat) :
    WritesExtent m (tilePuts m d.dst (positions d.rows d.cols) f) d f := by
  refine ⟨fun r c hr hc' => ?_, fun b hb => ?_⟩
  · refine tileWord_tilePuts m (nodup_positions _ _) f (fun p hp => ?_) (q := (r, c)) (mem_positions.mpr ⟨hr, hc'⟩)
    have := (mem_positions.mp hp).2
    omega
  · refine read_tilePuts_ne m _ f fun p hp => ?_
    obtain ⟨hr, hc'⟩ := mem_positions.mp hp
    exact hb _ _ hr hc'

section
variable (m : Memory) {d : VC} (hc : d.cols ≤ 32)
include hc

theorem elementwise_writesExtent (f : Nat → Nat → Elem) : WritesExtent m (elementwise m d f).tiles d (fun r c => (f r c).word) := by
  rw [elementwise_tiles]
  exact tilePuts_writesExtent m hc _

theorem ewEff_writesExtent : WritesExtent m (ewEff m d).tiles d (fun r c =>
    (ewOf d.func d.rz (srcWord m d d.sa d.ba r c) (srcWord m d d.sb d.bb r c) (srcWord m d d.sc d.bc r c)).word) :=
  elementwise_writesExtent m hc _

/-- ADD (R152). -/
theorem ewEff_add_writesExtent (hf : d.func = 0) : WritesExtent m (ewEff m d).tiles d (fun r c =>
    (resOf d.rz [Val.ofF32 (srcWord m d d.sa d.ba r c), Val.ofF32 (srcWord m d d.sb d.bb r c)]
      ((Val.ofF32 (srcWord m d d.sa d.ba r c)).add (Val.ofF32 (srcWord m d d.sb d.bb r c)))).code) := by
  have h := ewEff_writesExtent m hc
  rw [hf] at h
  exact h

theorem fnEff_writesExtent {f : Val → Val} (hf : Fn.fnOf d.func = some f) : WritesExtent m (fnEff m d).tiles d (fun r c =>
    (resOf d.rz [Val.ofF32 (srcWord m d d.sa d.ba r c)] (f (Val.ofF32 (srcWord m d d.sa d.ba r c)))).code) := by
  unfold fnEff
  rw [hf]
  exact elementwise_writesExtent m hc _

theorem permEff_writesExtent : WritesExtent m (permEff m d).tiles d (fun r c => moveWord d (permWord m d (tileWord m d.sb r c))) :=
  tilePuts_writesExtent m hc (fun r c => moveWord d (permWord m d (tileWord m d.sb r c)))

theorem unpackEff_writesExtent {f : Fmt} (hf : fmtOf (packFmt d) (packSign d) = some f) :
    WritesExtent m (unpackEff m d).tiles d (fun r c => (unpackElem m d f r c).word) := by
  unfold unpackEff
  rw [hf]
  exact elementwise_writesExtent m hc _

end

/-- Settles O26: each result is an element for every position of the extent, and the command ends with it. -/
theorem extentIsWritten : Obligations.ExtentIsWritten := by
  intro s n words h d m a writes he hr hc hx
  have hbase : base32 d = true := by simp [base32, extentOk, he, hr, hc, hx]
  have hwrites : ∀ {op cycles : Nat} {i : Instr} {ok : VC → Bool} {eff : Memory → VC → VecRes} {f : Nat → Nat → Nat},
      exec i s = vecCmd n op cycles ok eff words s → d.op = op → ok d = true → WritesExtent m (eff m d).tiles d f → writes i f := by
    intro op cycles i ok eff f e hop hk hw
    obtain ⟨t, ht, hdone, -⟩ := (vecCmd_acts h hop e).1 hk
    obtain ⟨-, hsame, -⟩ := hdone
    exact ⟨t, ht, fun hcur => by rw [hsame hcur]; exact hw⟩
  refine ⟨fun hop hf => ?_, fun hop hf => ?_, fun hop f hfn hf => ?_, fun hop hf => ?_, fun hop hk f hf => ?_⟩
  · exact hwrites (ok := fun d => base32 d && decide (d.func ≤ 14)) (eff := ewEff) rfl hop (by simp [hbase, hf])
      (ewEff_add_writesExtent m hc hf)
  · exact hwrites (ok := fun d => base32 d && decide (d.func ≤ 14)) (eff := ewEff) rfl hop (by simp [hbase, hf])
      (ewEff_writesExtent m hc)
  · exact hwrites (ok := fun d => base32 d && decide (d.func ≤ 10)) (eff := fnEff) rfl hop (by simp [hbase, hf])
      (fnEff_writesExtent m hc hfn)
  · exact hwrites (ok := fun d => base32 d && d.func == 0) (eff := permEff) rfl hop (by simp [hbase, hf]) (permEff_writesExtent m hc)
  · exact hwrites (ok := packOk) (eff := unpackEff) rfl hop hk (unpackEff_writesExtent m hc hf)

end Sys2Proof.Machine
end

section
/-!
SUPPORT. Proofs: LD, ST, SETSHAPE and reductions with an empty range (R150, R151, R162, R163). -/

namespace Sys2Proof.Machine

/-- A vector command that ends with some tile registers ends with those that it leaves. -/
theorem VecEnds.self {s t : State} {n : Nat} {m : Memory} (h : VecEnds s t n m) : VecEnds s t n (t.core n).tiles := by
  obtain ⟨hsegs, -, hnew, hrest⟩ := h
  exact ⟨hsegs, fun _ => rfl, hnew, hrest⟩

namespace Memory

theorem word32_lt (m : Memory) (a : Nat) : m.word32 a < 2 ^ 32 := by
  unfold word32
  split
  · decide
  · exact m.readLE_lt a 4

theorem read_readBytes (m : Memory) {a k n : Nat} (h : k < n) : (m.readBytes a n)[k]? = some (m.read (a + k)) := by
  induction n generalizing a k with
  | zero => omega
  | succ n ih =>
    cases k with
    | zero => rfl
    | succ k =>
      have := ih (a := a + 1) (k := k) (by omega)
      rw [show a + (k + 1) = a + 1 + k by omega]
      simpa [readBytes] using this

theorem length_readBytes (m : Memory) (a n : Nat) : (m.readBytes a n).length = n := by
  induction n generalizing a with
  | zero => rfl
  | succ n ih => simp [readBytes, ih]

end Memory

/-- Rows of bytes, written one after another. -/
def putRows (h : Memory) (base stride : Nat) (row : Nat → List Byte) (l : List Nat) : Memory :=
  l.foldl (fun h r => h.writeBytes (base + r * stride) (row r)) h

theorem read_putRows_ne {base stride len : Nat} {row : Nat → List Byte} (hlen : ∀ r, (row r).length = len) {a : Nat} (l : List Nat)
    (h : Memory) (ha : ∀ r ∈ l, ∀ k < len, a ≠ base + r * stride + k) : (putRows h base stride row l).read a = h.read a := by
  induction l generalizing h with
  | nil => rfl
  | cons r l ih =>
    refine (ih _ fun q hq => ha q (by simp [hq])).trans ?_
    have hr := ha r (by simp)
    by_cases hlt : a < base + r * stride
    · exact h.read_writeBytes_of_lt _ _ _ hlt
    · refine h.read_writeBytes_of_ge _ _ _ ?_
      rw [hlen]
      by_contra hc
      exact hr (a - (base + r * stride)) (by omega) (by omega)

/-- Where the rows do not overlap each row reads back. -/
theorem read_putRows {base stride len : Nat} {row : Nat → List Byte} (hlen : ∀ r, (row r).length = len) (hs : len ≤ stride)
    {l : List Nat} (hd : l.Nodup) (h : Memory) {r k : Nat} (hr : r ∈ l) (hk : k < len) :
    some ((putRows h base stride row l).read (base + r * stride + k)) = (row r)[k]? := by
  induction l generalizing h with
  | nil => cases hr
  | cons q l ih =>
    rw [List.nodup_cons] at hd
    rcases List.mem_cons.mp hr with rfl | hr
    · have hne : ∀ p ∈ l, ∀ j < len, base + r * stride + k ≠ base + p * stride + j := by
        intro p hp j hj e
        have hpr : p ≠ r := fun e => hd.1 (e ▸ hp)
        rcases Nat.lt_or_gt_of_ne hpr with hlt | hlt
        · have := Nat.mul_le_mul_right stride (show p + 1 ≤ r from hlt)
          rw [Nat.add_mul] at this
          omega
        · have := Nat.mul_le_mul_right stride (show r + 1 ≤ p from hlt)
          rw [Nat.add_mul] at this
          omega
      have e := read_putRows_ne hlen l (h.writeBytes (base + r * stride) (row r)) hne
      have hk' : k < (row r).length := by rwa [hlen]
      rw [List.getElem?_eq_getElem hk']
      exact congrArg some (e.trans (h.read_writeBytes _ _ _ hk'))
    · exact ih hd.2 _ hr

section
variable {s : State} {n : Nat} {words : List Word} (h : TakesVec s n)
include h

theorem execLd_of_bad (hop : (vcOf (natWords words)).op = 0x40) (hk : lsCheck (vcOf (natWords words)) = false) :
    execLd n words s = .next (s.refuseVec n (vcOf (natWords words))) := by
  simp [execLd, State.takesVec_of h hop, hk]

theorem execLd_of_waits (hop : (vcOf (natWords words)).op = 0x40) (hk : lsCheck (vcOf (natWords words)) = true)
    (hw : (s.core n).mustWait [lsRange (vcOf (natWords words))] [] = true) : execLd n words s = .next (s.vecWaits n) := by
  simp [execLd, State.takesVec_of h hop, hk, hw]

/-- What LD makes of the tile registers, and its events (R162). -/
def ldRes (s : State) (n : Nat) (d : VC) : VecRes :=
  ⟨tilePuts (s.core n).tiles d.dst (positions d.rows d.cols) (fun r c => (s.hearth (dieOf n)).word32 (d.addr + r * d.stride + 4 * c)),
    ((positions d.rows d.cols).filter (fun p => (s.hearth (dieOf n)).isBad (d.addr + p.1 * d.stride + 4 * p.2) 4)).map
      (fun p => { cause := .nanOperand, mt := d.dst, nt := 0, row := p.1, col := laneOf p.1 p.2, kblk := 0 })⟩

theorem execLd_of_ok (hop : (vcOf (natWords words)).op = 0x40) (hk : lsCheck (vcOf (natWords words)) = true)
    (hw : (s.core n).mustWait [lsRange (vcOf (natWords words))] [] = false) (hr : lsOk (vcOf (natWords words)) = true) :
    execLd n words s = .next (s.applyVec n (vcOf (natWords words)) (ldRes s n (vcOf (natWords words))) 16) := by
  simp only [execLd, State.takesVec_of h hop, hk, hw, hr, Bool.not_true, Bool.false_eq_true, ↓reduceIte]
  rfl

theorem execSt_of_bad (hop : (vcOf (natWords words)).op = 0x41) (hk : lsCheck (vcOf (natWords words)) = false) :
    execSt n words s = .next (s.refuseVec n (vcOf (natWords words))) := by
  simp [execSt, State.takesVec_of h hop, hk]

theorem execSt_of_waits (hop : (vcOf (natWords words)).op = 0x41) (hk : lsCheck (vcOf (natWords words)) = true)
    (hw : (s.core n).mustWait [] [lsRange (vcOf (natWords words))] = true) : execSt n words s = .next (s.vecWaits n) := by
  simp [execSt, State.takesVec_of h hop, hk, hw]

/-- What ST makes of the Hearth of the core's die (R162). -/
def stHearth (s : State) (n : Nat) (d : VC) : Memory :=
  putRows (s.hearth (dieOf n)) d.addr d.stride (fun r => (s.core n).tiles.readBytes (tileRow d.sa r) (4 * d.cols)) (List.range d.rows)

theorem execSt_of_ok (hop : (vcOf (natWords words)).op = 0x41) (hk : lsCheck (vcOf (natWords words)) = true)
    (hw : (s.core n).mustWait [] [lsRange (vcOf (natWords words))] = false) (hr : lsOk (vcOf (natWords words)) = true) :
    execSt n words s = .next ((s.setHearth (dieOf n) (stHearth s n (vcOf (natWords words)))).finishVec n (vcOf (natWords words)).opid 16) := by
  simp only [execSt, State.takesVec_of h hop, hk, hw, hr, Bool.not_true, Bool.false_eq_true, ↓reduceIte]
  rfl

theorem execSetshape_of_bad (hop : (vcOf (natWords words)).op = 0x48)
    (hk : (base32 (vcOf (natWords words)) && decide (1 ≤ (vcOf (natWords words)).func ∧ (vcOf (natWords words)).func ≤ 7)) = false) :
    execSetshape n words s = .next (s.refuseVec n (vcOf (natWords words))) := by
  simp only [execSetshape, State.takesVec_of h hop, hk, Bool.not_true, Bool.not_false, Bool.false_eq_true, ↓reduceIte]

/-- CORE.SHAPE[j] as SETSHAPE writes it (R163). -/
def putShape (s : State) (n : Nat) (d : VC) : State :=
  ((s.put (Reg.coreShapeM n d.func) (shapeVal (srcWord (s.core n).tiles d d.sa d.ba 0 0) 65535)).put (Reg.coreShapeN n d.func)
    (shapeVal (srcWord (s.core n).tiles d d.sa d.ba 0 1) 65535)).put (Reg.coreShapeK n d.func)
    (shapeVal (srcWord (s.core n).tiles d d.sa d.ba 0 2) 4194303)

theorem execSetshape_of_ok (hop : (vcOf (natWords words)).op = 0x48)
    (hk : (base32 (vcOf (natWords words)) && decide (1 ≤ (vcOf (natWords words)).func ∧ (vcOf (natWords words)).func ≤ 7)) = true) :
    execSetshape n words s = .next ((putShape s n (vcOf (natWords words))).finishVec n (vcOf (natWords words)).opid 2) := by
  simp only [execSetshape, State.takesVec_of h hop, hk, Bool.not_true, Bool.false_eq_true, ↓reduceIte]
  rfl

end

theorem shapeVal_le (w top : Nat) : shapeVal w top ≤ top := by
  unfold shapeVal
  split
  · exact Nat.le_refl _
  · split
    · exact Nat.zero_le _
    · exact Nat.le_refl _
  · split
    · exact Nat.zero_le _
    · exact Nat.min_le_left _ _

theorem putShape_get (s : State) (n : Nat) (d : VC) :
    (putShape s n d).get (Reg.coreShapeM n d.func) = shapeVal (srcWord (s.core n).tiles d d.sa d.ba 0 0) 65535 ∧
    (putShape s n d).get (Reg.coreShapeN n d.func) = shapeVal (srcWord (s.core n).tiles d d.sa d.ba 0 1) 65535 ∧
    (putShape s n d).get (Reg.coreShapeK n d.func) = shapeVal (srcWord (s.core n).tiles d d.sa d.ba 0 2) 4194303 := by
  have h1 := shapeVal_le (srcWord (s.core n).tiles d d.sa d.ba 0 0) 65535
  have h2 := shapeVal_le (srcWord (s.core n).tiles d d.sa d.ba 0 1) 65535
  have h3 := shapeVal_le (srcWord (s.core n).tiles d d.sa d.ba 0 2) 4194303
  unfold putShape
  simp (disch := (simp only [Reg.coreShapeM, Reg.coreShapeN, Reg.coreShapeK, fld_key] <;> omega)) only [State.get_put_same, State.get_put_ne]
  simp only [Reg.coreShapeM, Reg.coreShapeN, Reg.coreShapeK, fld_w]
  exact ⟨Nat.mod_eq_of_lt (by omega), Nat.mod_eq_of_lt (by omega), Nat.mod_eq_of_lt (by omega)⟩

/-- The fields of CORE.SHAPE are no counters of the vector engine. -/
theorem shapeRegs_apart {n j : Nat} (hj : 1 ≤ j ∧ j ≤ 7) {f g : Fld}
    (hf : f ∈ [Reg.coreShapeM n j, Reg.coreShapeN n j, Reg.coreShapeK n j]) (hg : g ∈ vecRegs n) : f.key ≠ g.key := by
  have hlow : f.key < (0x1000000 + 0x10000 * n + 0x0100) * 32 := by
    simp only [List.mem_cons, List.not_mem_nil, or_false] at hf
    rcases hf with rfl | rfl | rfl <;> simp only [Reg.coreShapeM, Reg.coreShapeN, Reg.coreShapeK, fld_key] <;> omega
  have hhigh : (0x1000000 + 0x10000 * n + 0x0100) * 32 ≤ g.key := by
    simp only [vecRegs, List.mem_cons, List.not_mem_nil, or_false] at hg
    rcases hg with rfl | rfl | rfl <;> simp only [Reg.coreVcmds, Reg.coreVbusyCyclesLo, Reg.coreVbusyCyclesHi, fld_key] <;> omega
  omega

namespace State

theorem setHearth_frame (s : State) (die : Nat) (m : Memory) : ∃ a b, s.setHearth die m = { s with hearth0 := a, hearth1 := b } := by
  unfold setHearth
  split
  · exact ⟨m, s.hearth1, rfl⟩
  · exact ⟨s.hearth0, m, rfl⟩

theorem hearth_setHearth_same (s : State) (die : Nat) (m : Memory) : (s.setHearth die m).hearth die = m := by
  unfold setHearth hearth
  split <;> rfl

theorem hearth_setHearth_other (s : State) (die : Nat) (m : Memory) : (s.setHearth die m).hearth (1 - die) = s.hearth (1 - die) := by
  unfold setHearth hearth
  by_cases h : die = 0
  · simp [h]
  · simp only [h, if_false]
    rw [if_pos (by omega), if_pos (by omega)]

theorem hearth_finishVec (s : State) (n opid cycles die : Nat) : (s.finishVec n opid cycles).hearth die = s.hearth die := by
  obtain ⟨r, c, q, p, e⟩ := s.finishVec_frame n opid cycles
  rw [e]
  rfl

end State

theorem lsCheck_iff (d : VC) : lsCheck d = true ↔ (d.rows ≤ 32 ∧ d.cols ≤ 32 ∧ d.axis ≠ 3) ∧ d.func = 0 := by
  simp [lsCheck, extentOk, and_assoc]

/-- ST's effect (R162). -/
theorem stores_done {s : State} {n : Nat} (h : TakesVec s n) (d : VC) :
    let t := (s.setHearth (dieOf n) (stHearth s n d)).finishVec n d.opid 16
    VecEnds s t n (s.core n).tiles ∧
    (4 * d.cols ≤ d.stride → ∀ r k, r < d.rows → k < 4 * d.cols →
      (t.hearth (dieOf n)).read (d.addr + r * d.stride + k) = (s.core n).tiles.read (tileRow d.sa r + k)) ∧
    (∀ a, (∀ r k, r < d.rows → k < 4 * d.cols → a ≠ d.addr + r * d.stride + k) →
      (t.hearth (dieOf n)).read a = (s.hearth (dieOf n)).read a) ∧
    t.hearth (1 - dieOf n) = s.hearth (1 - dieOf n) ∧ SameRegsOut (vecRegs n) s t ∧
    { t with regs := s.regs, cores := s.cores, hearth0 := s.hearth0, hearth1 := s.hearth1, caps := s.caps
             captures := s.captures } = s := by
  have hlen : ∀ r, ((s.core n).tiles.readBytes (tileRow d.sa r) (4 * d.cols)).length = 4 * d.cols := fun r => Memory.length_readBytes ..
  let u := s.setHearth (dieOf n) (stHearth s n d)
  obtain ⟨a, b, hu⟩ := s.setHearth_frame (dieOf n) (stHearth s n d)
  have hcore : ∀ k, u.core k = s.core k := fun k => (congrArg (fun v : State => v.core k) hu :)
  have hregs : u.regs = s.regs := (congrArg State.regs hu :)
  have hh : (u.finishVec n d.opid 16).hearth (dieOf n) = stHearth s n d :=
    (State.hearth_finishVec ..).trans (State.hearth_setHearth_same ..)
  refine ⟨State.finishVec_vecEnds h.dwconv (hcore n) (fun k _ => hcore k) (State.get_of_regs hregs _) d.opid 16,
    fun hs r k hr hk => ?_, fun x hx => ?_, (State.hearth_finishVec ..).trans (State.hearth_setHearth_other ..), ?_, ?_⟩
  · have hread := read_putRows hlen hs (List.nodup_range (n := d.rows)) (s.hearth (dieOf n)) (base := d.addr) (List.mem_range.mpr hr) hk
    rw [Memory.read_readBytes _ hk] at hread
    show ((u.finishVec n d.opid 16).hearth (dieOf n)).read _ = _
    rw [hh]
    exact Option.some.inj hread
  · show ((u.finishVec n d.opid 16).hearth (dieOf n)).read _ = _
    rw [hh]
    exact read_putRows_ne hlen _ _ fun r hr k hk => hx r k (List.mem_range.mp hr) hk
  · exact (SameRegsOut.of_regs hregs).trans (.of_sameRegsBut (u.finishVec_sameRegsBut n d.opid 16))
  · obtain ⟨r, c, q, p, e⟩ := u.finishVec_frame n d.opid 16
    show { u.finishVec n d.opid 16 with
      regs := s.regs, cores := s.cores, hearth0 := s.hearth0, hearth1 := s.hearth1, caps := s.caps, captures := s.captures } = s
    rw [e]
    exact (congrArg (fun v : State => { v with regs := s.regs, cores := s.cores, hearth0 := s.hearth0, hearth1 := s.hearth1, caps := s.caps, captures := s.captures }) hu :)

/-- SETSHAPE's effect (R163). -/
theorem setshape_done {s : State} {n : Nat} (h : TakesVec s n) {d : VC} (hj : 1 ≤ d.func ∧ d.func ≤ 7) :
    let w := fun c => srcWord (s.core n).tiles d d.sa d.ba 0 c
    let t := (putShape s n d).finishVec n d.opid 2
    VecEnds s t n (s.core n).tiles ∧
    t.get (Reg.coreShapeM n d.func) = shapeVal (w 0) 65535 ∧ t.get (Reg.coreShapeN n d.func) = shapeVal (w 1) 65535 ∧
    t.get (Reg.coreShapeK n d.func) = shapeVal (w 2) 4194303 ∧
    SameRegsOut (Reg.coreShapeM n d.func :: Reg.coreShapeN n d.func :: Reg.coreShapeK n d.func :: vecRegs n) s t ∧
    { t with regs := s.regs, cores := s.cores, caps := s.caps, captures := s.captures } = s := by
  have hput : SameRegsBut [Reg.coreShapeM n d.func, Reg.coreShapeN n d.func, Reg.coreShapeK n d.func] s (putShape s n d) :=
    (((SameRegsBut.refl _ s).put _ _ (by simp)).put _ _ (by simp)).put _ _ (by simp)
  have hfin := (putShape s n d).finishVec_sameRegsBut n d.opid 2
  have hkeep : ∀ f ∈ [Reg.coreShapeM n d.func, Reg.coreShapeN n d.func, Reg.coreShapeK n d.func],
      ((putShape s n d).finishVec n d.opid 2).get f = (putShape s n d).get f := fun f hf => hfin f fun g hg => shapeRegs_apart hj hf hg
  obtain ⟨h1, h2, h3⟩ := putShape_get s n d
  refine ⟨State.finishVec_vecEnds (u := putShape s n d) h.dwconv rfl (fun k _ => rfl) (hput _ fun g hg => ?_) d.opid 2, (hkeep _ (by simp)).trans h1,
    (hkeep _ (by simp)).trans h2, (hkeep _ (by simp)).trans h3, ?_, ?_⟩
  · exact (shapeRegs_apart hj hg (by simp [vecRegs])).symm
  · exact (SameRegsOut.of_sameRegsBut (hput.mono (by simp))).trans
      (.of_sameRegsBut (hfin.mono (fun g hg => by simp [hg])))
  · obtain ⟨r, c, q, p, e⟩ := (putShape s n d).finishVec_frame n d.opid 2
    show { (putShape s n d).finishVec n d.opid 2 with regs := s.regs, cores := s.cores, caps := s.caps, captures := s.captures } = s
    rw [e]
    rfl

theorem execReduce_of_empty {s : State} {n : Nat} {words : List Word} (h : TakesVec s n) (hop : (vcOf (natWords words)).op = 0x20)
    (hk : (base32 (vcOf (natWords words)) && decide ((vcOf (natWords words)).func ≤ 3)) = true)
    (he : redEmpty (vcOf (natWords words)) = true) : exec (.reduce n words) s =
      vecCmd n 0x20 (if (vcOf (natWords words)).axis = 2 then 8 else 4) (fun d => base32 d && decide (d.func ≤ 3)) redEff words
        (s.count (Reg.coreZeroshape n)) := by
  have e : exec (.reduce n words) s = execReduce n words s := rfl
  simp only [e, execReduce, State.takesVec_of h hop, hk, he, Bool.and_self, if_true]

/-- The count of empty ranges is no field of a record and no counter of the vector engine. -/
theorem zeroshape_apart {n : Nat} {f : Fld} (hf : f ∈ eventRegs n ∨ f ∈ vecRegs n) : f.key ≠ (Reg.coreZeroshape n).key := by
  rcases hf with hf | hf
  · simp only [eventRegs, trapRegs, List.cons_append, List.nil_append, List.mem_cons, List.not_mem_nil, or_false] at hf
    rcases hf with rfl | rfl | rfl | rfl | rfl | rfl | rfl | rfl | rfl | rfl | rfl | rfl | rfl | rfl | rfl | rfl | rfl | rfl | rfl | rfl | rfl <;>
      simp only [Reg.coreTrapStatusValid, Reg.coreTrapStatusSrc, Reg.coreTrapStatusCause, Reg.coreTrapStatusRz,
        Reg.coreTrapStatusSpecial, Reg.coreTrapStatusCore, Reg.coreTrapOpid, Reg.coreTrapOwnerGang, Reg.coreTrapOwnerStage,
        Reg.coreTrapTileMt, Reg.coreTrapTileNt, Reg.coreTrapElemRow, Reg.coreTrapElemCol, Reg.coreTrapElemKblk, Reg.coreTrapAngleLo,
        Reg.coreTrapAngleHi, Reg.coreNanCount, Reg.coreNumctrlNanAction, Reg.coreNumctrlInfTrap, Reg.coreCtxGang, Reg.coreCtxStage,
        Reg.coreZeroshape, fld_key] <;> omega
  · simp only [vecRegs, List.mem_cons, List.not_mem_nil, or_false] at hf
    rcases hf with rfl | rfl | rfl <;>
      simp only [Reg.coreVcmds, Reg.coreVbusyCyclesLo, Reg.coreVbusyCyclesHi, Reg.coreZeroshape, fld_key] <;> omega

/-- A field in a core's block that neither a record nor the engine's counters have, after a vector command. -/
theorem get_applyVec {s : State} {n : Nat} {f : Fld} (hf : 0x1000000 * 32 ≤ f.key) (he : ∀ g ∈ eventRegs n, g.key ≠ f.key)
    (hv : ∀ g ∈ vecRegs n, g.key ≠ f.key) (d : VC) (r : VecRes) (cycles : Nat) : (s.applyVec n d r cycles).get f = s.get f := by
  refine (State.finishVec_sameRegsBut _ n d.opid cycles f fun g hg => (hv g hg).symm).trans ?_
  refine (State.get_opEvents hf (fun g hg => (he g ?_).symm) r.events).trans rfl
  rcases List.mem_cons.mp hg with rfl | hg
  · exact nanCount_mem _
  · exact trapRegs_subset _ hg

/-- The effect of a reduction with an empty range, which is counted (R29, R151). -/
theorem emptyReduce_done {s : State} {n : Nat} (h : TakesVec s n) (d : VC) (r : VecRes) (cycles : Nat) :
    let t := (s.count (Reg.coreZeroshape n)).applyVec n d r cycles
    VecEnds s t n r.tiles ∧ t.get (Reg.coreZeroshape n) = min (s.get (Reg.coreZeroshape n) + 1) (2 ^ 32 - 1) ∧
      EventsLatched s t (vcTag n d) r.events (Reg.coreZeroshape n :: vecRegs n) ∧
      { t with regs := s.regs, cad := s.cad, cores := s.cores, caps := s.caps, captures := s.captures, ports := s.ports
               faultQ := s.faultQ, out := s.out } = s := by
  let u := s.count (Reg.coreZeroshape n)
  have hu : TakesVec u n := h
  have hkey : 0x1000000 * 32 ≤ (Reg.coreZeroshape n).key := by
    simp only [Reg.coreZeroshape, fld_key]
    omega
  obtain ⟨hends, hevents, hrest⟩ := applyVec_done hu d r cycles
  refine ⟨?_, ?_, hevents.trans_left (List.subset_cons_self _ _) ((SameRegsOut.refl _ s).count (by simp) 1) (fun f hf => ?_) rfl rfl, ?_⟩
  · have hv : u.get (Reg.coreVcmds n) = s.get (Reg.coreVcmds n) := State.get_put_ne _ _ (zeroshape_apart (.inr (by simp [vecRegs])))
    unfold VecEnds at hends
    rw [hv] at hends
    exact hends
  · refine (get_applyVec hkey (fun g hg => zeroshape_apart (.inl hg)) (fun g hg => zeroshape_apart (.inr hg)) d r cycles).trans ?_
    exact State.get_count_same s _ 1 (Nat.succ_pos 31)
  · exact State.get_put_ne _ _ (zeroshape_apart (.inl hf))
  · exact congrArg (fun v : State => { v with regs := s.regs }) hrest

/-- Settles O27: LD by the rule of a vector command, ST by the rows it writes, SETSHAPE by its three fields, and an empty reduction by
the count that comes before its effect. -/
theorem loadsStoresAndShapes : Obligations.LoadsStoresAndShapes := by
  intro s n words h d m hh small waits refused
  have hrefused : ∀ {i : Instr}, exec i s = .next (s.refuseVec n d) → refused i := fun e => ⟨_, e, s.refuseCmd_refused ..⟩
  have hsmall : small ∧ d.func = 0 ↔ lsCheck d = true := (lsCheck_iff d).symm
  have hshape : (small ∧ d.esize = 0 ∧ 1 ≤ d.func ∧ d.func ≤ 7) ↔ (base32 d && decide (1 ≤ d.func ∧ d.func ≤ 7)) = true := by
    simp only [small, base32, extentOk, Bool.and_eq_true, decide_eq_true_eq, beq_iff_eq, bne_iff_ne]
    omega
  refine ⟨fun hop => ⟨fun hk => ?_, fun hk hw => ?_, fun hk hw hr => ?_⟩, fun hop => ⟨fun hk => ?_, fun hk hw => ?_, fun hk hw hr => ?_⟩,
    fun hop => ⟨fun hk => ?_, fun hk => ?_⟩, fun hop hs he hf hempty => ?_⟩
  · exact hrefused (execLd_of_bad h hop (by simpa [hsmall] using hk))
  · exact execLd_of_waits h hop (hsmall.mp hk) hw
  · obtain ⟨hends, hevents, hrest⟩ := applyVec_done h d (ldRes s n d) 16
    refine ⟨_, execLd_of_ok h hop (hsmall.mp hk) hw hr, hends.self, hevents, fun hcur => ?_, hrest⟩
    obtain ⟨hword, hbyte⟩ := tilePuts_writesExtent m hk.1.2.1 (fun r c => hh.word32 (d.addr + r * d.stride + 4 * c))
    rw [hends.2.1 hcur]
    exact ⟨fun r c hr hc => (hword r c hr hc).trans (Nat.mod_eq_of_lt (hh.word32_lt _)), hbyte⟩
  · exact hrefused (execSt_of_bad h hop (by simpa [hsmall] using hk))
  · exact execSt_of_waits h hop (hsmall.mp hk) hw
  · exact ⟨_, execSt_of_ok h hop (hsmall.mp hk) hw hr, stores_done h d⟩
  · refine hrefused (execSetshape_of_bad h hop ?_)
    rw [Bool.eq_false_iff]
    exact fun ht => hk (hshape.mpr ht)
  · exact ⟨_, execSetshape_of_ok h hop (hshape.mp hk), setshape_done h hk.2.2⟩
  · have hk : (base32 d && decide (d.func ≤ 3)) = true := by simpa [base32, extentOk, and_assoc] using ⟨he, hs.1, hs.2.1, hs.2.2, hf⟩
    have hu : TakesVec (s.count (Reg.coreZeroshape n)) n := h
    have e := (execReduce_of_empty h hop hk hempty).trans
      (vecCmd_of_ok (ok := fun d => base32 d && decide (d.func ≤ 3)) (eff := redEff) hu hop hk)
    exact ⟨_, e, emptyReduce_done h d (redEff m d) _⟩

end Sys2Proof.Machine
end

section
/-! SUPPORT. Proofs: the check of an issue, what an accepted one takes, and one that waits or is refused (O22). -/
namespace Sys2Proof.Machine

/-- What a core's slots show after a list of them is set to one state. -/
theorem get_setSlots (l : List (Nat × SlotSt)) (js : List Nat) (st : SlotSt) (j : Nat) :
    Assoc.get SlotSt.free (setSlots l js st) j = if j ∈ js then st else Assoc.get SlotSt.free l j := by
  unfold setSlots
  induction js generalizing l with
  | nil => simp
  | cons k r ih =>
    rw [List.foldl_cons, ih]
    by_cases hr : j ∈ r
    · simp [hr]
    · by_cases hk : j = k
      · subst hk
        simp [hr, Assoc.get_set_same]
      · simp [hr, hk, Assoc.get_set_ne]

namespace Core

/-- The slots of an accepted plan that were free: all of them where it begins new sums, none where it continues KEPT ones. -/
theorem fresh_of_accept {c : Core} {d : MM} {js : List Nat} (h : ∀ j ∈ js, slotVerdict c d j = .accept) :
    (js.filter (fun j => Assoc.get SlotSt.free c.slotSt j == .free)).length = if d.init = 2 then 0 else js.length := by
  have hst : ∀ j ∈ js, (Assoc.get SlotSt.free c.slotSt j == .free) = decide (d.init ≠ 2) := fun j hj => by
    have hv := h j hj
    unfold slotVerdict at hv
    split at hv <;> simp_all
  rw [List.filter_congr hst]
  by_cases hi : d.init = 2 <;> simp [hi]

end Core

/-- An issue that is accepted finds each of its planned slots ready for it (R108, Table 4-5). -/
theorem issueCheck_accept {s : State} {n : Nat} {d : MM} (h : issueCheck s n d = .accept) :
    ∀ j ∈ planned d, slotVerdict (s.core n) d j = .accept := by
  unfold issueCheck at h
  dsimp only at h
  repeat' split at h
  all_goals first | contradiction | skip
  next hbad hwait =>
    intro j hj
    have hb := mt List.any_eq_true.mpr hbad
    have hw := mt List.any_eq_true.mpr hwait
    by_contra hne
    refine hb ⟨_, List.mem_map_of_mem hj, ?_⟩
    have : slotVerdict (s.core n) d j ≠ .wait := fun e => hw ⟨_, List.mem_map_of_mem hj, by simp [e]⟩
    simp [hne, this]

/-- A field in a core's block that is not among those that may change. -/
theorem SameRegsOut.get_core {l : List Fld} {s t : State} {f : Fld} (h : SameRegsOut l s t) (hf : 0x1000000 * 32 ≤ f.key)
    (hl : ∀ g ∈ l, f.key ≠ g.key) : t.get f = s.get f := by
  have hd : Reg.fltDropped.key < 0x1000000 * 32 := by decide
  have ho : Reg.fltStatusOvf.key < 0x1000000 * 32 := by decide
  refine h f (.inr (by omega)) fun g hg => ?_
  rcases List.mem_append.mp hg with hg | hg
  · simp only [dropRegs, List.mem_cons, List.not_mem_nil, or_false] at hg
    rcases hg with rfl | rfl <;> omega
  · exact hl g hg

namespace State

theorem auditCore_frame (s : State) (n : Nat) : ∃ r q, s.auditCore n = { s with regs := r, faultQ := q } := by
  unfold auditCore
  split
  · exact ⟨_, _, rfl⟩
  · exact ⟨_, _, s.raise_upd ..⟩

theorem auditCore_sameRegsOut (s : State) (n : Nat) : SameRegsOut [] s (s.auditCore n) := by
  unfold auditCore
  split
  · exact SameRegsOut.refl _ s
  · exact (SameRegsOut.refl _ s).raise _ _ _ _

/-- The issue that a core queues when it accepts a MATMUL. -/
def issueOf (s : State) (n : Nat) (ws : List Nat) : Issue :=
  { words := ws, m := (runShape s n (mmOf ws)).1, n := (runShape s n (mmOf ws)).2.1, k := (runShape s n (mmOf ws)).2.2
    slagRow := (slagVectors s n (mmOf ws)).1, slagCol := (slagVectors s n (mmOf ws)).2, segment := (s.core n).curSeg }

/-- An accepted issue, before the audit of R117. -/
def queued (s : State) (n : Nat) (ws : List Nat) : State :=
  let s1 := (s.setCore n ((s.core n).accept (s.issueOf n ws)).dispatch).count (Reg.coreIssues n)
  if (runShape s n (mmOf ws)).1 = 0 ∨ (runShape s n (mmOf ws)).2.1 = 0 ∨ (runShape s n (mmOf ws)).2.2 = 0
  then s1.count (Reg.coreZeroshape n) else s1

theorem acceptIssue_eq (s : State) (n : Nat) (ws : List Nat) : s.acceptIssue n ws = (s.queued n ws).auditCore n := rfl

section
variable (s : State) (n : Nat) (ws : List Nat)

theorem queued_frame : ∃ r, s.queued n ws = { s with regs := r, cores := (s.setCore n ((s.core n).accept (s.issueOf n ws)).dispatch).cores } := by
  unfold queued
  dsimp only
  split <;> exact ⟨_, rfl⟩

theorem acceptIssue_core_same : (s.acceptIssue n ws).core n = ((s.core n).accept (s.issueOf n ws)).dispatch := by
  obtain ⟨r, q, e⟩ := (s.queued n ws).auditCore_frame n
  obtain ⟨r', e'⟩ := s.queued_frame n ws
  rw [acceptIssue_eq, e, e']
  exact core_setCore_same ..

theorem acceptIssue_core_ne {k : Nat} (h : k ≠ n) : (s.acceptIssue n ws).core k = s.core k := by
  obtain ⟨r, q, e⟩ := (s.queued n ws).auditCore_frame n
  obtain ⟨r', e'⟩ := s.queued_frame n ws
  rw [acceptIssue_eq, e, e']
  exact core_setCore_ne _ _ h

theorem acceptIssue_rest : { s.acceptIssue n ws with regs := s.regs, cores := s.cores, faultQ := s.faultQ } = s := by
  obtain ⟨r, q, e⟩ := (s.queued n ws).auditCore_frame n
  obtain ⟨r', e'⟩ := s.queued_frame n ws
  rw [acceptIssue_eq, e, e']

theorem queued_sameRegsOut : SameRegsOut [Reg.coreIssues n, Reg.coreZeroshape n] s (s.queued n ws) := by
  have h1 : SameRegsOut [Reg.coreIssues n, Reg.coreZeroshape n] s
      ((s.setCore n ((s.core n).accept (s.issueOf n ws)).dispatch).count (Reg.coreIssues n)) :=
    (SameRegsOut.of_regs rfl).count (by simp) 1
  unfold queued
  dsimp only
  split
  · exact h1.count (by simp) 1
  · exact h1

theorem acceptIssue_sameRegsOut : SameRegsOut [Reg.coreIssues n, Reg.coreZeroshape n] s (s.acceptIssue n ws) :=
  (s.queued_sameRegsOut n ws).trans (((s.queued n ws).auditCore_sameRegsOut n).mono (List.nil_subset _))

theorem issues_apart (n : Nat) : (Reg.coreIssues n).key ≠ (Reg.coreZeroshape n).key := by
  simp only [Reg.coreIssues, Reg.coreZeroshape, fld_key]
  omega

theorem get_acceptIssue {f : Fld} (h : 0x1000000 * 32 ≤ f.key) : (s.acceptIssue n ws).get f = (s.queued n ws).get f :=
  ((s.queued n ws).auditCore_sameRegsOut n).get_core h (by simp)

theorem acceptIssue_issues : (s.acceptIssue n ws).get (Reg.coreIssues n) = min (s.get (Reg.coreIssues n) + 1) (2 ^ 32 - 1) := by
  rw [get_acceptIssue _ _ _ (by simp only [Reg.coreIssues, fld_key]; omega)]
  unfold queued
  dsimp only
  split
  · exact (get_put_ne _ _ (issues_apart n)).trans (get_count_same _ (Reg.coreIssues n) 1 (Nat.succ_pos 31))
  · exact get_count_same _ (Reg.coreIssues n) 1 (Nat.succ_pos 31)

theorem acceptIssue_zeroshape : (s.acceptIssue n ws).get (Reg.coreZeroshape n) =
    if (runShape s n (mmOf ws)).1 = 0 ∨ (runShape s n (mmOf ws)).2.1 = 0 ∨ (runShape s n (mmOf ws)).2.2 = 0
    then min (s.get (Reg.coreZeroshape n) + 1) (2 ^ 32 - 1) else s.get (Reg.coreZeroshape n) := by
  have hs : ((s.setCore n ((s.core n).accept (s.issueOf n ws)).dispatch).count (Reg.coreIssues n)).get (Reg.coreZeroshape n) =
      s.get (Reg.coreZeroshape n) := get_put_ne _ _ (issues_apart n).symm
  rw [get_acceptIssue _ _ _ (by simp only [Reg.coreZeroshape, fld_key]; omega)]
  unfold queued
  dsimp only
  split
  · exact (get_count_same _ (Reg.coreZeroshape n) 1 (Nat.succ_pos 31)).trans (by rw [hs]; rfl)
  · exact hs

end
end State

/-- Settles O22: the three verdicts of the check, at a core that takes the command and at one where it waits. -/
theorem issuesAreChecked : Obligations.IssuesAreChecked := by
  intro s n words ecc ws d c accepts
  have haccepts : issueCheck s n d = .accept → accepts (s.acceptIssue n ws) := fun h => by
    have hrest := (c.accept (s.issueOf n ws)).dispatch_rest
    have hcore := s.acceptIssue_core_same n ws
    have hfresh := Core.fresh_of_accept (issueCheck_accept h)
    refine ⟨⟨s.issueOf n ws, ?_, rfl, rfl, rfl, rfl⟩, fun j => ?_, ?_, ?_, ?_, ?_, ?_, ?_, fun k hk => s.acceptIssue_core_ne n ws hk,
      s.acceptIssue_issues n ws, s.acceptIssue_zeroshape n ws, s.acceptIssue_sameRegsOut n ws, s.acceptIssue_rest n ws⟩ <;> rw [hcore]
    · exact congrArg Core.queue hrest
    · exact (congrArg (fun c : Core => Assoc.get SlotSt.free c.slotSt j) hrest).trans (get_setSlots ..)
    · refine (congrArg Core.accHeld hrest).trans (congrArg (c.accHeld + ·) (hfresh.trans ?_))
      simp [planned]
    · exact congrArg Core.obHeld hrest
    · exact congrArg Core.waiting hrest
    · exact congrArg Core.vecWait hrest
    · exact Core.dispatch_segs _
    · exact congrArg (fun b : Core => { b with
        queue := c.queue, slotSt := c.slotSt, accHeld := c.accHeld, obHeld := c.obHeld, waiting := c.waiting
        vecWait := c.vecWait, segs := c.segs, curSeg := c.curSeg, tiles := c.tiles }) hrest
  have htake : ∀ {i : Instr}, exec i s = .next (s.takeIssue n ws) → (issueCheck s n d = .accept → ∃ t, exec i s = .next t ∧ accepts t) ∧
      (issueCheck s n d = .wait → exec i s = .next (s.setCore n { c with waiting := some ws })) ∧
      (∀ reason kind need have_, issueCheck s n d = .refuse reason kind need have_ →
        ∃ t, exec i s = .next t ∧ RefusedCmd s t n kind reason d.opid need have_) := fun {i} e => by
    refine ⟨fun h => ⟨_, e.trans ?_, haccepts h⟩, fun h => e.trans ?_, fun reason kind need have_ h => ⟨_, e.trans ?_, s.refuseCmd_refused ..⟩⟩ <;>
      simp only [State.takeIssue, d, ws] at h ⊢ <;> rw [h]
  refine ⟨fun hc => ?_, fun hn hl hr hw hop => ?_⟩
  · have hm : exec (.matmul n words) s = .next (s.takeIssue n ws) := by
      have e : exec (.matmul n words) s = execMatmul n words s := rfl
      rw [e, execMatmul, if_pos hc]
    obtain ⟨ha, hw, hr⟩ := htake hm
    have e : exec (.undefinedOp n words) s = execUndefinedOp n words s := rfl
    refine ⟨ha, hw, hr, fun h => ⟨_, e.trans ?_, s.refuseCmd_refused ..⟩, fun h => ⟨_, e.trans ?_, s.refuseCmd_refused ..⟩⟩
    · have hu : undefinedOp (wf ws 1 0 8) = true := by
        have hlt : wf ws 1 0 8 < 2 ^ 8 := Nat.mod_lt _ (by decide)
        simp only [undefinedOp, Bool.or_eq_true, beq_iff_eq, decide_eq_true_eq]
        omega
      rw [execUndefinedOp, if_pos (by rw [hc, hu]; rfl)]
    · have hu : undefinedOp (wf ws 1 0 8) = false := by
        simp only [undefinedVec, Bool.and_eq_true, decide_eq_true_eq] at h
        simp only [undefinedOp, Bool.or_eq_false_iff, beq_eq_false_iff_ne, decide_eq_false_iff_not]
        omega
      rw [execUndefinedOp, if_neg (by rw [hc, hu]; decide), if_pos (by rw [hc, h]; rfl)]
  · have hwait : (s.core n).waiting = some ws := hw
    have hrun : (s.core n).run = .running := hr
    have e : exec (.issueAcceptAfterWait n ecc) s = match issueCheck s n d with
        | .wait => .next s
        | _ => .next (s.takeIssue n ws) := by
      have e : exec (.issueAcceptAfterWait n ecc) s = execIssueAcceptAfterWait n s ecc := rfl
      rw [e, execIssueAcceptAfterWait, hwait]
      simp only [hl, hrun, hop, BEq.rfl, Bool.and_true, if_true, if_false]
      rfl
    have hv : ∀ v, issueCheck s n d = v → v ≠ .wait → exec (.issueAcceptAfterWait n ecc) s = .next (s.takeIssue n ws) := fun v h hne => by
      rw [e, h]
      cases v with
      | wait => exact absurd rfl hne
      | accept => rfl
      | refuse => rfl
    refine ⟨fun h => (htake (hv _ h (by decide))).1 h, fun h => by rw [e, h], fun reason kind need have_ h => ?_⟩
    exact (htake (hv _ h (fun e => by cases e))).2.2 _ _ _ _ h

end Sys2Proof.Machine
end

section
/-! SUPPORT. Proofs: an issue completes with its sums in its slots (O23). -/
namespace Sys2Proof.Machine

/-- Where the fields of a core's events lie in its block. -/
theorem eventRegs_span {n : Nat} {f : Fld} (h : f ∈ eventRegs n) :
    (0x1000004 + 0x10000 * n) * 32 ≤ f.key ∧ f.key < (0x1000008 + 0x10000 * n) * 32 ∨
    (0x1000200 + 0x10000 * n) * 32 ≤ f.key ∧ f.key < (0x1000230 + 0x10000 * n) * 32 := by
  simp only [eventRegs, trapRegs, List.cons_append, List.nil_append, List.mem_cons, List.not_mem_nil, or_false] at h
  rcases h with rfl | rfl | rfl | rfl | rfl | rfl | rfl | rfl | rfl | rfl | rfl | rfl | rfl | rfl | rfl | rfl | rfl | rfl | rfl | rfl | rfl <;>
    simp only [Reg.coreTrapStatusValid, Reg.coreTrapStatusSrc, Reg.coreTrapStatusCause, Reg.coreTrapStatusRz,
      Reg.coreTrapStatusSpecial, Reg.coreTrapStatusCore, Reg.coreTrapOpid, Reg.coreTrapOwnerGang, Reg.coreTrapOwnerStage,
      Reg.coreTrapTileMt, Reg.coreTrapTileNt, Reg.coreTrapElemRow, Reg.coreTrapElemCol, Reg.coreTrapElemKblk, Reg.coreTrapAngleLo,
      Reg.coreTrapAngleHi, Reg.coreNanCount, Reg.coreNumctrlNanAction, Reg.coreNumctrlInfTrap, Reg.coreCtxGang, Reg.coreCtxStage,
      fld_key] <;> omega

/-- The plan gives each of its tiles a slot of its own. -/
theorem planGrid_slot_inj {d : MM} {g k : Nat × Nat × Nat} (hg : g ∈ planGrid d) (hk : k ∈ planGrid d) (h : g.1 = k.1) : g = k := by
  simp only [planGrid, List.mem_flatMap, List.mem_map, List.mem_range] at hg hk
  obtain ⟨t, -, i, hi, rfl⟩ := hg
  obtain ⟨u, -, j, hj, rfl⟩ := hk
  simp only [slotOf] at h
  have hi' : (t * ceilDiv d.mp 128 + i) % ceilDiv d.mp 128 = i := by rw [Nat.mul_comm, Nat.mul_add_mod, Nat.mod_eq_of_lt hi]
  have hj' : (u * ceilDiv d.mp 128 + j) % ceilDiv d.mp 128 = j := by rw [Nat.mul_comm, Nat.mul_add_mod, Nat.mod_eq_of_lt hj]
  have he : t * ceilDiv d.mp 128 + i = u * ceilDiv d.mp 128 + j := by omega
  have hij : i = j := by rw [← hi', ← hj', he]
  subst hij
  have : t = u := Nat.eq_of_mul_eq_mul_right (Nat.zero_lt_of_lt hi) (by omega)
  subst this
  rfl

theorem get_nextK (l : List (Nat × Nat)) (js : List Nat) (v j : Nat) :
    Assoc.get 0 (js.foldl (fun l j => Assoc.set 0 l j v) l) j = if j ∈ js then v else Assoc.get 0 l j := by
  induction js generalizing l with
  | nil => simp
  | cons k r ih =>
    rw [List.foldl_cons, ih]
    by_cases hr : j ∈ r
    · simp [hr]
    · by_cases hk : j = k
      · subst hk
        simp [hr, Assoc.get_set_same]
      · simp [hr, hk, Assoc.get_set_ne]

namespace State

theorem get64_count64 (s : State) {lo hi : Fld} (hl : lo.w = 32) (hh : hi.w = 32) (hk : lo.key ≠ hi.key) (k : Nat) :
    (s.count64 lo hi k).get64 lo hi = min (s.get64 lo hi + k) (2 ^ 64 - 1) := by
  unfold count64 put64
  generalize hv : min (s.get64 lo hi + k) (2 ^ 64 - 1) = v
  unfold get64
  rw [get_put_ne _ _ hk, get_put_same, get_put_same, hl, hh]
  omega

end State

/-- A hold placed at the next gate, or kept for it, changes nothing else of the Cadence, and is one of no entry of the Strike table. -/
theorem HoldsNext.cad {s t : State} {m : Nat} (h : HoldsNext s t m) : ∃ o r w, t.cad = { s.cad with own := o, raised := r, want := w } ∧
    ∀ x ∈ o, x ∈ s.cad.own ∨ x.entry = none := by
  unfold HoldsNext at h
  split at h
  next a ha =>
    refine ⟨_, _, t.cad.want, congrArg (fun c : Cad => { c with want := t.cad.want }) h, fun x hx => ?_⟩
    rcases List.mem_append.mp hx with hx | hx
    · exact .inl hx
    · exact .inr (by rw [List.mem_singleton.mp hx])
  next => exact ⟨s.cad.own, s.cad.raised, some m, h, fun x hx => .inl hx⟩

namespace EventsLatched

theorem cad {s t : State} {o : OpTag} {es : List Event} {l : List Fld} (h : EventsLatched s t o es l) :
    ∃ o r w, t.cad = { s.cad with own := o, raised := r, want := w } ∧ ∀ x ∈ o, x ∈ s.cad.own ∨ x.entry = none := by
  have hsame : t.cad = s.cad → ∃ o r w, t.cad = { s.cad with own := o, raised := r, want := w } ∧
      ∀ x ∈ o, x ∈ s.cad.own ∨ x.entry = none := fun e => ⟨s.cad.own, s.cad.raised, s.cad.want, e, fun x hx => .inl hx⟩
  unfold EventsLatched at h
  split at h
  next => exact hsame h.2
  next e r hw =>
    obtain ⟨-, -, -, hact, hno⟩ := h
    cases hf : s.flag (Reg.coreNumctrlNanAction o.core) with
    | true => exact (hact hf).cad
    | false => exact hsame (hno hf)

/-- After events every hold of a device that had none of its own is one of no entry of the Strike table. -/
theorem own_entry {s t : State} {o : OpTag} {es : List Event} {l : List Fld} (h : EventsLatched s t o es l)
    (hs : s.cad.own = []) : ∀ x ∈ t.cad.own, x.entry = none := by
  obtain ⟨o, r, w, e, ho⟩ := h.cad
  rw [e]
  intro x hx
  have := ho x hx
  rw [hs] at this
  exact this.resolve_left List.not_mem_nil

theorem attempt {s t : State} {o : OpTag} {es : List Event} {l : List Fld} (h : EventsLatched s t o es l) :
    t.cad.attempt = s.cad.attempt := by
  obtain ⟨o, r, w, e, -⟩ := h.cad
  rw [e]

end EventsLatched

namespace State

/-- No segment is checked for stranded slots (R116) while no STAGE_END gate is held. -/
theorem afterComplete_of_own {s : State} (h : ∀ x ∈ s.cad.own, x.entry = none) (n k : Nat) : s.afterComplete n k = s := by
  have hend : ∀ g, endHold s g = none := fun g => by
    unfold endHold
    rw [List.find?_eq_none]
    intro x hx
    simp [h x hx]
  unfold afterComplete
  split
  · split
    · rw [hend]
    · rfl
  · rfl

/-- The state of an issue that has completed, before its events (R112 to R114). -/
def issued (s : State) (n : Nat) (i : Issue) : State :=
  (s.setCore n (((s.core n).fillBuffers (s.hearth (dieOf n)) i).completeIssue i (sums (s.hearth (dieOf n)) (s.core n) i).1
    (s.anyWatched n (sums (s.hearth (dieOf n)) (s.core n) i).2))).count64 (Reg.coreBusyCyclesLo n) (Reg.coreBusyCyclesHi n)
    (streamCycles (mmOf i.words) i)

/-- That state with its events recorded. -/
def issueEvents (s : State) (n : Nat) (i : Issue) : State :=
  (s.issued n i).opEvents (mmTag n (mmOf i.words)) false (sums (s.hearth (dieOf n)) (s.core n) i).2

/-- That state once its captures are taken and its ledgers audited (R117). -/
def issueDone (s : State) (n : Nat) (i : Issue) : State :=
  let t := s.issueEvents n i
  (if (s.core n).drains.length = (t.core n).drains.length then t.noteDone n (mmOf i.words).opid else t).auditCore n

theorem auditCore_faultQ_prefix (s : State) (n : Nat) : s.faultQ <+: (s.auditCore n).faultQ := by
  unfold auditCore
  split
  · exact List.prefix_rfl
  · exact s.raise_faultQ_prefix ..

section
variable (s : State) (n : Nat) (i : Issue)

/-- After its events an issue that completes changes only what R117 and a replay note of it. -/
theorem issueDone_frame : ∃ r q p c, s.issueDone n i = { s.issueEvents n i with regs := r, faultQ := q, caps := p, captures := c } ∧
    (s.issueEvents n i).faultQ <+: q ∧ SameRegsOut [] (s.issueEvents n i) (s.issueDone n i) := by
  unfold issueDone
  extract_lets t
  have hw : ∃ p c, (if (s.core n).drains.length = (t.core n).drains.length then t.noteDone n (mmOf i.words).opid else t) =
      { t with caps := p, captures := c } := by
    split <;> exact ⟨_, _, rfl⟩
  obtain ⟨p, c, e⟩ := hw
  rw [e]
  obtain ⟨r, q, e'⟩ := ({ t with caps := p, captures := c } : State).auditCore_frame n
  have hq := ({ t with caps := p, captures := c } : State).auditCore_faultQ_prefix n
  have hr := ({ t with caps := p, captures := c } : State).auditCore_sameRegsOut n
  rw [e'] at hq hr ⊢
  exact ⟨r, q, p, c, rfl, hq, hr⟩

theorem issueDone_core (k : Nat) : (s.issueDone n i).core k = (s.issued n i).core k := by
  obtain ⟨r, q, p, c, e, -⟩ := s.issueDone_frame n i
  rw [e]
  exact opEvents_core ..

theorem issued_frame : ∃ r c, s.issued n i = { s with regs := r, cores := c } := ⟨_, _, rfl⟩

theorem issueDone_rest : { s.issueDone n i with
    regs := s.regs, cad := s.cad, cores := s.cores, caps := s.caps, captures := s.captures, ports := s.ports
    faultQ := s.faultQ, out := s.out } = s := by
  obtain ⟨r, q, p, c, e, -⟩ := s.issueDone_frame n i
  have hrest := opEvents_rest (s.issued n i) (mmTag n (mmOf i.words)) (sums (s.hearth (dieOf n)) (s.core n) i).2
  obtain ⟨r', c', e'⟩ := s.issued_frame n i
  rw [e, issueEvents]
  rw [e'] at hrest ⊢
  generalize ({ s with regs := r', cores := c' } : State).opEvents _ _ _ = u at hrest ⊢
  exact congrArg (fun v : State => { v with regs := s.regs, cores := s.cores, caps := s.caps, captures := s.captures }) hrest

theorem busy_apart {f : Fld} (h : f ∈ eventRegs n) : f.key ≠ (Reg.coreBusyCyclesLo n).key ∧ f.key ≠ (Reg.coreBusyCyclesHi n).key := by
  have hspan := eventRegs_span h
  simp only [Reg.coreBusyCyclesLo, Reg.coreBusyCyclesHi, fld_key]
  omega

/-- The events of an issue that completes are latched. -/
theorem issueDone_events : EventsLatched s (s.issueDone n i) (mmTag n (mmOf i.words)) (sums (s.hearth (dieOf n)) (s.core n) i).2
    [Reg.coreBusyCyclesLo n, Reg.coreBusyCyclesHi n] := by
  have hbusy : SameRegsBut [Reg.coreBusyCyclesLo n, Reg.coreBusyCyclesHi n] s (s.issued n i) := by
    unfold issued count64 put64
    exact (SameRegsBut.put _ _ (SameRegsBut.put _ _ (SameRegsBut.of_regs rfl) (by simp)) (by simp))
  have hl : EventsLatched s (s.issueEvents n i) (mmTag n (mmOf i.words)) (sums (s.hearth (dieOf n)) (s.core n) i).2
      [Reg.coreBusyCyclesLo n, Reg.coreBusyCyclesHi n] := by
    have hc : (s.issued n i).cad = s.cad := rfl
    have hq : (s.issued n i).faultQ = s.faultQ := rfl
    unfold issueEvents
    generalize s.issued n i = u at hbusy hc hq ⊢
    refine (EventsLatched.opEvents u _ _).trans_left (List.nil_subset _) (.of_sameRegsBut hbusy) (fun f hf => ?_) hc hq
    refine hbusy f fun g hg => ?_
    obtain ⟨hlo, hhi⟩ := busy_apart n hf
    simp only [List.mem_cons, List.not_mem_nil, or_false] at hg
    rcases hg with rfl | rfl
    · exact hlo
    · exact hhi
  obtain ⟨r, q, p, c, e, hq, hr⟩ := s.issueDone_frame n i
  refine hl.trans_right (List.Subset.refl _) (hr.mono (List.nil_subset _)) (fun f hf => hr.get_core (eventRegs_key hf) (by simp)) ?_ ?_
  · rw [e]
  · rw [e]
    exact hq

theorem issueDone_busy : (s.issueDone n i).get64 (Reg.coreBusyCyclesLo n) (Reg.coreBusyCyclesHi n) =
    min (s.get64 (Reg.coreBusyCyclesLo n) (Reg.coreBusyCyclesHi n) + streamCycles (mmOf i.words) i) (2 ^ 64 - 1) := by
  have hk : ∀ f, f = Reg.coreBusyCyclesLo n ∨ f = Reg.coreBusyCyclesHi n → (s.issueDone n i).get f = (s.issued n i).get f := fun f hf => by
    have hkey : 0x1000000 * 32 ≤ f.key := by
      rcases hf with rfl | rfl <;> simp only [Reg.coreBusyCyclesLo, Reg.coreBusyCyclesHi, fld_key] <;> omega
    obtain ⟨r, q, p, c, e, hq, hr⟩ := s.issueDone_frame n i
    refine (hr.get_core hkey (by simp)).trans (get_opEvents hkey (fun g hg => ?_) _)
    have hg : g ∈ eventRegs n := by
      rcases List.mem_cons.mp hg with rfl | hg
      · exact nanCount_mem _
      · exact trapRegs_subset _ hg
    rcases hf with rfl | rfl
    · exact (busy_apart n hg).1.symm
    · exact (busy_apart n hg).2.symm
  have e : (s.issueDone n i).get64 (Reg.coreBusyCyclesLo n) (Reg.coreBusyCyclesHi n) =
      (s.issued n i).get64 (Reg.coreBusyCyclesLo n) (Reg.coreBusyCyclesHi n) := by
    unfold get64
    rw [hk _ (.inl rfl), hk _ (.inr rfl)]
  refine e.trans (get64_count64 _ rfl rfl ?_ _)
  simp only [Reg.coreBusyCyclesLo, Reg.coreBusyCyclesHi, fld_key]
  omega

end
end State

/-- What an issue streams stays in the core's buffers, and changes nothing else of it. -/
theorem Core.fillBuffers_frame (c : Core) (h : Memory) (i : Issue) :
    ∃ o w a b, c.fillBuffers h i = { c with opBuf := o, weights := w, tongsA := a, tongsB := b } := by
  unfold Core.fillBuffers
  dsimp only
  split <;> exact ⟨_, _, _, _, rfl⟩

/-- The slots of a plan once its issue is complete: those that its shape reaches, and the others (R112). -/
theorem get_planned_slots (l : List (Nat × SlotSt)) (d : MM) (p : Nat × Nat × Nat → Bool) (st st' : SlotSt) :
    let l' := setSlots (setSlots l (((planGrid d).filter p).map (fun g => g.1)) st)
      (((planGrid d).filter (fun g => !(p g))).map (fun g => g.1)) st'
    (∀ g ∈ planGrid d, Assoc.get SlotSt.free l' g.1 = if p g then st else st') ∧
    (∀ j, (∀ g ∈ planGrid d, g.1 ≠ j) → Assoc.get SlotSt.free l' j = Assoc.get SlotSt.free l j) := by
  intro l'
  have hmem : ∀ (q : Nat × Nat × Nat → Bool) (g), g ∈ planGrid d → (g.1 ∈ ((planGrid d).filter q).map (fun g => g.1) ↔ q g = true) := by
    intro q g hg
    simp only [List.mem_map, List.mem_filter]
    refine ⟨fun ⟨k, ⟨hk, hq⟩, e⟩ => ?_, fun hq => ⟨g, ⟨hg, hq⟩, rfl⟩⟩
    rwa [← planGrid_slot_inj hk hg e]
  refine ⟨fun g hg => ?_, fun j hj => ?_⟩
  · simp only [l', get_setSlots, hmem _ g hg]
    cases p g <;> simp
  · have hout : ∀ q, j ∉ ((planGrid d).filter q).map (fun g => g.1) := fun q hm => by
      obtain ⟨g, hg, e⟩ := List.mem_map.mp hm
      exact hj g (List.mem_filter.mp hg).1 e
    simp only [l', get_setSlots, if_neg (hout _)]

/-- Settles O23: the core that a complete issue leaves, then its events, and no stranded slots while no gate is held. -/
theorem issueCompletes : Obligations.IssueCompletes := by
  intro s n i rest hq hn hal hw hrd hown c d r
  have hevents := s.issueDone_events n i
  have hstranded := State.afterComplete_of_own (hevents.own_entry hown) n i.segment
  have e : exec (.issueComplete n) s = .next ((s.issueDone n i).afterComplete n i.segment) := by
    have e : exec (.issueComplete n) s = execIssueComplete n s := rfl
    rw [e, execIssueComplete]
    simp only [hq, hal, hw, hrd, Bool.not_true, Bool.or_false]
    rfl
  rw [hstranded] at e
  obtain ⟨o, w, a, b, hf⟩ := c.fillBuffers_frame (s.hearth (dieOf n)) i
  have hcore : (s.issueDone n i).core n =
      ({ c with opBuf := o, weights := w, tongsA := a, tongsB := b } : Core).completeIssue i r.1 (s.anyWatched n r.2) := by
    rw [s.issueDone_core n i n, ← hf]
    exact State.core_setCore_same ..
  obtain ⟨hslots, hothers⟩ := get_planned_slots c.slotSt d (reaches i) (if d.keep then .kept else .drain) (if d.init = 2 then .kept else .free)
  refine ⟨_, e, ?_, ?_, ?_, ?_, ?_, ?_, ?_, ?_, fun hk => ⟨fun g hg hr => ?_, ?_⟩, fun hk hne => ⟨s.anyWatched n r.2, ?_⟩,
    s.issueDone_busy n i, hevents,
    fun k hk => (s.issueDone_core n i k).trans (State.core_setCore_ne _ _ hk), s.issueDone_rest n i⟩
  all_goals rw [hcore]
  · exact congrArg List.tail hq
  · rfl
  · rfl
  · rfl
  · refine (List.map_map ..).trans (List.map_congr_left fun g _ => ?_)
    by_cases hg : g.segment = i.segment <;> simp [hg]
  · rfl
  · exact hslots
  · exact hothers
  · have hm : g.1 ∈ ((planGrid d).filter (reaches i)).map (fun g => g.1) := List.mem_map_of_mem (List.mem_filter.mpr ⟨hg, hr⟩)
    refine (congrArg (fun l => Assoc.get 0 l g.1) (if_pos hk)).trans ?_
    rw [get_nextK, if_pos hm]
  · exact if_pos (by rw [Bool.or_eq_true]; exact .inl hk)
  · refine if_neg ?_
    rw [Bool.or_eq_true, List.isEmpty_iff]
    rintro (h | h)
    · exact Bool.false_ne_true (hk.symm.trans h)
    · exact hne h

end Sys2Proof.Machine
end

section
/-! SUPPORT. Proofs: a slot drains to the rows it covers (O24). -/
namespace Sys2Proof.Machine

namespace Memory

/-- An element written leaves every byte that holds none of its bits. -/
theorem read_writeElem_ne (m : Memory) {base w i x : Nat} (code : Nat) (h : x < base + i * w / 8 ∨ base + ceilDiv ((i + 1) * w) 8 ≤ x) :
    (m.writeElem base w i code).read x = m.read x := by
  unfold writeElem
  dsimp only
  refine m.read_writeLE_ne _ ?_
  have e : (i + 1) * w = i * w + w := Nat.succ_mul ..
  unfold ceilDiv at h
  rw [e] at h
  omega

/-- A byte that no step of a fold writes. -/
theorem read_foldl_pair {α β : Type} {f : Memory × β → α → Memory × β} {l : List α} {x : Nat}
    (h : ∀ a ∈ l, ∀ m e, (f (m, e) a).1.read x = m.read x) (m : Memory) (e : β) : (l.foldl f (m, e)).1.read x = m.read x := by
  induction l generalizing m e with
  | nil => rfl
  | cons a r ih =>
    rw [List.foldl_cons, ih (fun b hb => h b (List.mem_cons_of_mem _ hb)), h a List.mem_cons_self]

theorem read_foldl {α : Type} {f : Memory → α → Memory} {l : List α} {x : Nat}
    (h : ∀ a ∈ l, ∀ m : Memory, (f m a).read x = m.read x) (m : Memory) : (l.foldl f m).read x = m.read x := by
  induction l generalizing m with
  | nil => rfl
  | cons a r ih =>
    rw [List.foldl_cons, ih (fun b hb => h b (List.mem_cons_of_mem _ hb)), h a List.mem_cons_self]

end Memory

/-- The bytes of C that the tile `tl` of row block `ib` covers, and those of its scales (R111). -/
def InC (d : MM) (i : Issue) (f : Fmt) (ib tl a : Nat) : Prop :=
  ∃ m, m < min 128 (i.m - 128 * ib) ∧ d.cAddr + (128 * ib + m) * d.cStride + 16 * f.width * tl ≤ a ∧
    a < d.cAddr + (128 * ib + m) * d.cStride + ceilDiv ((128 * tl + min 128 (i.n - 128 * tl)) * f.width) 8

def InScales (d : MM) (i : Issue) (ib tl a : Nat) : Prop :=
  ∃ m b, m < min 128 (i.m - 128 * ib) ∧ b < ceilDiv (min 128 (i.n - 128 * tl)) 32 ∧
    a = d.csAddr + (128 * ib + m) * ceilDiv d.np 32 + (4 * tl + b)

/-- An element of the drained rows lies within them. -/
theorem read_drained {d : MM} {i : Issue} {f : Fmt} {ib tl a m q : Nat} (h : ¬ InC d i f ib tl a)
    (hm : m < min 128 (i.m - 128 * ib)) (hq : q < min 128 (i.n - 128 * tl)) (t : Memory) (code : Nat) :
    (t.writeElem (d.cAddr + (128 * ib + m) * d.cStride) f.width (128 * tl + q) code).read a = t.read a := by
  refine t.read_writeElem_ne code ?_
  by_contra hn
  refine h ⟨m, hm, ?_, ?_⟩
  · have e : (128 * tl + q) * f.width = 8 * (16 * f.width * tl) + q * f.width := by ring
    rw [e] at hn
    have : (8 * (16 * f.width * tl) + q * f.width) / 8 = 16 * f.width * tl + q * f.width / 8 := Nat.mul_add_div (by decide) ..
    omega
  · have hle : (128 * tl + q + 1) * f.width ≤ (128 * tl + min 128 (i.n - 128 * tl)) * f.width := Nat.mul_le_mul_right _ (by omega)
    unfold ceilDiv at hn ⊢
    omega

theorem read_drainPlain {h : Memory} {c : Core} {i : Issue} {f : Fmt} {ib tl a : Nat} (ha : ¬ InC (mmOf i.words) i f ib tl a) :
    (drainPlain h c i f ib tl).1.read a = h.read a := by
  unfold drainPlain
  refine Memory.read_foldl_pair (fun p hp m e => ?_) h []
  obtain ⟨⟨r, q⟩, hr, rfl⟩ := List.mem_map.mp hp
  obtain ⟨hr, hq⟩ := mem_positions.mp hr
  exact read_drained ha hr hq m _

theorem read_drainMx {h : Memory} {c : Core} {i : Issue} {f : Fmt} {ib tl a : Nat} (ha : ¬ InC (mmOf i.words) i f ib tl a)
    (hs : ¬ InScales (mmOf i.words) i ib tl a) : (drainMx h c i f ib tl).1.read a = h.read a := by
  unfold drainMx
  refine Memory.read_foldl_pair (fun p hp m e => ?_) h []
  simp only [List.mem_flatMap, List.mem_map, List.mem_range] at hp
  obtain ⟨_, ⟨r, hr, rfl⟩, _, ⟨b, hb, rfl⟩, rfl⟩ := hp
  dsimp only
  rw [Memory.read_foldl]
  · rw [Memory.read_write, if_neg]
    rintro rfl
    exact hs ⟨r, b, hr, hb, by omega⟩
  · intro q hq t
    simp only [List.mem_filter, List.mem_range, decide_eq_true_eq] at hq
    have e : 32 * (4 * tl + b) + q = 128 * tl + (32 * b + q) := by ring
    rw [e]
    unfold ceilDiv at hb
    exact read_drained ha hr (by omega) t _

namespace State

/-- Events recorded where a fault has been raised before. -/
theorem opEvents_already (s : State) (o : OpTag) (es : List Event) : ∃ r, s.opEvents o true es = { s with regs := r } := by
  unfold opEvents
  dsimp only
  split
  · exact ⟨_, rfl⟩
  · exact recordEvents_frame ..

theorem opEvents_rest_any (s : State) (o : OpTag) (b : Bool) (es : List Event) : { s.opEvents o b es with
    regs := s.regs, cad := s.cad, ports := s.ports, faultQ := s.faultQ, out := s.out } = s := by
  cases b with
  | false => exact opEvents_rest ..
  | true =>
    obtain ⟨r, e⟩ := s.opEvents_already o es
    rw [e]

end State

/-- The core of a drained slot. -/
def State.drainedCore (s : State) (n slot : Nat) (dr : Drain) (rest : List Drain) (more : List (Nat × Nat × Nat)) (es : List Event) : Core :=
  let c := s.core n
  { c with
    drains := if more.isEmpty then rest else { dr with slots := more, faulted := dr.faulted || s.anyWatched n es } :: rest
    slotSt := Assoc.set SlotSt.free c.slotSt slot .free
    accHeld := c.accHeld - 1 }

/-- Settles O24: the rows of the slot, the core that is left, and the events of the conversion. -/
theorem drainWritesItsRows : Obligations.DrainWritesItsRows := by
  intro s n slot ib tl dr rest more f hd hslots hal hok hfo hn c i d rows cols r inC inScales
  let b := s.drainedCore n slot dr rest more r.2
  let u := (s.setHearth (dieOf n) r.1).setCore n b
  let v := if more.isEmpty then u.noteDone n d.opid else u
  have e : exec (.drainComplete n) s = .next (v.opEvents (mmTag n d) dr.faulted r.2) := by
    have e : exec (.drainComplete n) s = execDrainComplete n s := rfl
    rw [e, execDrainComplete]
    simp only [hd, hslots, hal, hok, Bool.not_true]
    show Host.Outcome.next _ = _
    congr 1
    simp only [hfo]
    rfl
  obtain ⟨h0, h1, hset⟩ := s.setHearth_frame (dieOf n) r.1
  have hv : ∃ p q, v = { u with caps := p, captures := q } := by
    unfold v
    split <;> exact ⟨_, _, rfl⟩
  obtain ⟨p, q, hv⟩ := hv
  have hu : u = { s with hearth0 := h0, hearth1 := h1, cores := u.cores } := congrArg (fun v : State => { v with cores := u.cores }) hset
  have hrest := v.opEvents_rest_any (mmTag n d) dr.faulted r.2
  have hhearth : ∀ k, (v.opEvents (mmTag n d) dr.faulted r.2).hearth k = (s.setHearth (dieOf n) r.1).hearth k := fun k =>
    (congrArg (fun x : State => x.hearth k) hrest).trans ((congrArg (fun x : State => x.hearth k) hv).trans rfl)
  have hcores : ∀ k, (v.opEvents (mmTag n d) dr.faulted r.2).core k = u.core k := fun k =>
    (congrArg (fun x : State => x.core k) hrest).trans ((congrArg (fun x : State => x.core k) hv).trans rfl)
  have hcore : (v.opEvents (mmTag n d) dr.faulted r.2).core n = b := (hcores n).trans (State.core_setCore_same ..)
  have hvs : v.regs = s.regs ∧ v.cad = s.cad ∧ v.faultQ = s.faultQ := by
    rw [hv, hu]
    exact ⟨rfl, rfl, rfl⟩
  obtain ⟨hregs, hcad, hfq⟩ := hvs
  refine ⟨_, e, (hhearth _).trans (State.hearth_setHearth_same ..), fun a hc hs => ?_, (hhearth _).trans (State.hearth_setHearth_other ..),
    ?_, ?_, ?_, ?_, fun j hj => ?_, ?_, ?_, fun k hk => ?_, fun hf => ?_, fun hf => ?_, ?_⟩
  · rw [hhearth, State.hearth_setHearth_same]
    unfold r
    split
    next ho => exact read_drainMx hc fun h => hs ⟨ho, h⟩
    next => exact read_drainPlain hc
  · exact (congrArg State.hbm hrest).trans (by rw [hv, hu])
  · exact (congrArg State.stock hrest).trans (by rw [hv, hu])
  · rw [hcore]
    exact Assoc.get_set_same SlotSt.free c.slotSt slot SlotSt.free
  · rw [hcore]
    rfl
  · rw [hcore]
    exact Assoc.get_set_ne SlotSt.free SlotSt.free c.slotSt SlotSt.free hj
  · rw [hcore]
    cases more <;> rfl
  · rw [hcore]
    rfl
  · exact (hcores k).trans ((State.core_setCore_ne _ _ hk).trans (by rw [hset]; rfl))
  · rw [hf]
    exact (EventsLatched.opEvents v _ _).trans_left (List.Subset.refl _) (.of_regs hregs) (fun f _ => State.get_of_regs hregs f) hcad hfq
  · rw [hf]
    obtain ⟨rg, e⟩ := v.opEvents_already (mmTag n d) r.2
    rw [e]
    exact ⟨hfq, hcad⟩
  · generalize v.opEvents (mmTag n d) dr.faulted r.2 = w at hrest
    rw [hv, hu] at hrest
    exact congrArg (fun v : State => { v with
      regs := s.regs, cores := s.cores, hearth0 := s.hearth0, hearth1 := s.hearth1, caps := s.caps, captures := s.captures }) hrest

end Sys2Proof.Machine
end

section
/-! SUPPORT. Proofs: halo rows that are sent and slots that are emptied (R189 to R191). -/
namespace Sys2Proof.Machine

namespace Core

theorem segRun_segment {c : Core} {k : Nat} {g : SegRun} (h : c.segRun k = some g) : g.segment = k := by
  have := List.find?_some h
  simpa using this

/-- A change of a segment's run that keeps its name is found under it, and no other run changes. -/
theorem segRun_setRun_same (c : Core) (k : Nat) {f : SegRun → SegRun} (hf : ∀ g, (f g).segment = g.segment) :
    (c.setRun k f).segRun k = (c.segRun k).map f := by
  unfold setRun segRun
  dsimp only
  induction c.segs with
  | nil => rfl
  | cons g r ih =>
    by_cases hg : g.segment = k
    · simp [hg, hf]
    · simp [hg, ih]

theorem setRun_rest (c : Core) (k : Nat) (f : SegRun → SegRun) : { c.setRun k f with segs := c.segs } = c := rfl

theorem setAt_iff {c : Core} {seg k : Nat} {w : SwageSet} {r : SwgRun} : setAt c seg k = some (w, r) ↔
    ∃ g, c.segRun seg = some g ∧ g.swage[k]? = some w ∧ g.sets[k]? = some r := by
  unfold setAt
  constructor
  · intro h
    split at h
    next => cases h
    next g hg =>
      split at h
      next hw hr =>
        cases h
        exact ⟨g, hg, hw, hr⟩
      next => cases h
  · rintro ⟨g, hg, hw, hr⟩
    simp [hg, hw, hr]

end Core

/-- What the sends and the credits of halo rows change (R189 to R191): registers, the rows and credits on their way, and of the core
that sends the credits, waiting sends and slots of a segment. -/
structure HaloMoves (n seg : Nat) (s t : State) : Prop where
  frame : { t with regs := s.regs, cores := s.cores, haloRows := s.haloRows, haloCredits := s.haloCredits } = s
  others : ∀ k, k ≠ n → t.core k = s.core k
  core : { t.core n with segs := (s.core n).segs } = s.core n
  regs : SameRegsBut [Reg.coreHaloSent n] s t
  rows : s.haloRows ⊆ t.haloRows
  run : ∀ g, (s.core n).segRun seg = some g → ∃ g', (t.core n).segRun seg = some g' ∧ g'.sets = g.sets ∧ g'.swage = g.swage ∧
    g.stalled ⊆ g'.stalled

/-- The halo credits that a segment's run holds for a direction, and the run once it has spent one. -/
def SegRun.credit (g : SegRun) (up : Bool) : Nat := if up then g.creditUp else g.creditDn

def SegRun.spend (g : SegRun) (up : Bool) : SegRun :=
  if up then { g with creditUp := g.creditUp - 1 } else { g with creditDn := g.creditDn - 1 }

namespace State

section
variable {s : State} {n m : Nat} {e : EdgeRow} {g : SegRun}

theorem sendEdge_nobody (h : neighbour s n e.up = none) : s.sendEdge n e = s := by simp [sendEdge, h]

theorem sendEdge_nowhere (h : (s.core n).segRun e.segment = none) : s.sendEdge n e = s := by simp [sendEdge, h]

theorem sendEdge_waits (hm : neighbour s n e.up = some m) (hg : (s.core n).segRun e.segment = some g)
    (hc : g.credit e.up = 0 ∨ g.stalled.any (fun x => x.up == e.up) = true) :
    s.sendEdge n e = s.setRun n e.segment (fun g => { g with stalled := g.stalled ++ [e] }) := by
  unfold sendEdge
  rw [hm, hg]
  exact if_pos hc

theorem sendEdge_goes (hm : neighbour s n e.up = some m) (hg : (s.core n).segRun e.segment = some g)
    (hc : ¬ (g.credit e.up = 0 ∨ g.stalled.any (fun x => x.up == e.up) = true)) :
    s.sendEdge n e = ({ s.setRun n e.segment (fun g => g.spend e.up) with haloRows := s.haloRows ++ [(m, e)] }).count (Reg.coreHaloSent n) := by
  unfold sendEdge
  rw [hm, hg]
  exact if_neg hc

end
end State

namespace HaloMoves

theorem refl (n seg : Nat) (s : State) : HaloMoves n seg s s :=
  ⟨rfl, fun _ _ => rfl, rfl, SameRegsBut.refl _ s, fun _ h => h, fun g h => ⟨g, h, rfl, rfl, fun _ h => h⟩⟩

theorem trans {n seg : Nat} {s t u : State} (h : HaloMoves n seg s t) (k : HaloMoves n seg t u) : HaloMoves n seg s u where
  frame := (congrArg (fun v : State => { v with
    regs := s.regs, cores := s.cores, haloRows := s.haloRows, haloCredits := s.haloCredits }) k.frame).trans h.frame
  others := fun m hm => (k.others m hm).trans (h.others m hm)
  core := (congrArg (fun c : Core => { c with segs := (s.core n).segs }) k.core).trans h.core
  regs := h.regs.trans k.regs
  rows := fun x hx => k.rows (h.rows hx)
  run := fun g hg => by
    obtain ⟨g', hg', hsets, hsw, hst⟩ := h.run g hg
    obtain ⟨g'', hg'', hsets', hsw', hst'⟩ := k.run g' hg'
    exact ⟨g'', hg'', hsets'.trans hsets, hsw'.trans hsw, fun x hx => hst' (hst hx)⟩

/-- A change of the segment's run that keeps its sets and the sends that wait. -/
theorem setRun (s : State) (n seg : Nat) {f : SegRun → SegRun}
    (hf : ∀ g, (f g).segment = g.segment ∧ (f g).sets = g.sets ∧ (f g).swage = g.swage ∧ g.stalled ⊆ (f g).stalled) :
    HaloMoves n seg s (s.setRun n seg f) where
  frame := rfl
  others := fun k hk => State.core_setCore_ne _ _ hk
  core := by
    unfold State.setRun
    rw [State.core_setCore_same]
    rfl
  regs := SameRegsBut.of_regs rfl
  rows := fun _ h => h
  run := fun g hg => by
    refine ⟨f g, ?_, (hf g).2⟩
    unfold State.setRun
    rw [State.core_setCore_same, Core.segRun_setRun_same _ _ fun g => (hf g).1, hg]
    rfl

/-- Rows and credits that are put on their way. -/
theorem onWay (s : State) (n seg : Nat) (l : List (Nat × EdgeRow)) (q : List (Nat × Nat × Bool)) :
    HaloMoves n seg s { s with haloRows := s.haloRows ++ l, haloCredits := q } where
  frame := rfl
  others := fun _ _ => rfl
  core := rfl
  regs := SameRegsBut.of_regs rfl
  rows := List.subset_append_left _ _
  run := fun g hg => ⟨g, hg, rfl, rfl, fun _ h => h⟩

theorem count (s : State) (n seg : Nat) : HaloMoves n seg s (s.count (Reg.coreHaloSent n)) where
  frame := rfl
  others := fun _ _ => rfl
  core := rfl
  regs := SameRegsBut.count _ _ (SameRegsBut.refl _ s) (by simp)
  rows := fun _ h => h
  run := fun g hg => ⟨g, hg, rfl, rfl, fun _ h => h⟩

theorem sendEdge (s : State) (n : Nat) (e : EdgeRow) : HaloMoves n e.segment s (s.sendEdge n e) := by
  cases hm : neighbour s n e.up with
  | none =>
    rw [State.sendEdge_nobody hm]
    exact .refl n _ s
  | some m => cases hg : (s.core n).segRun e.segment with
    | none =>
      rw [State.sendEdge_nowhere hg]
      exact .refl n _ s
    | some g =>
      by_cases hc : g.credit e.up = 0 ∨ g.stalled.any (fun x => x.up == e.up) = true
      · rw [State.sendEdge_waits hm hg hc]
        exact .setRun s n _ fun g => ⟨rfl, rfl, rfl, List.subset_append_left _ _⟩
      · rw [State.sendEdge_goes hm hg hc]
        have hset := HaloMoves.setRun s n e.segment (f := fun g => g.spend e.up) fun g => by
          cases e.up <;> exact ⟨rfl, rfl, rfl, fun _ h => h⟩
        exact (hset.trans (.onWay _ n _ [(m, e)] _)).trans (HaloMoves.count _ n e.segment)

theorem returnHalo (s : State) (n seg : Nat) (up : Bool) (k : Nat) : HaloMoves n seg s (s.returnHalo n seg up k) := by
  unfold State.returnHalo
  split
  next m hm =>
    have := HaloMoves.onWay s n seg [] (s.haloCredits ++ List.replicate k (m, seg, !up))
    rwa [List.append_nil] at this
  next => exact .refl n seg s

end HaloMoves

namespace State

/-- A full slot holds a row of set `k` that no window from the `p`-th on reads (R190). -/
def slotDone (k : Nat) (w : SwageSet) (p : Nat) (up : Bool) (x : Nat × Option (Nat × Nat)) : Bool :=
  match x.2 with
  | some (i, j) => i == k && !needed w p up j
  | none => false

/-- A segment's run whose full slots of one direction are these. -/
def withSlots (g : SegRun) (up : Bool) (l : List (Nat × Option (Nat × Nat))) : SegRun :=
  if up then { g with slotsUp := l } else { g with slotsDn := l }

/-- Those slots of one direction are empty again and their credits return (R190). -/
def releaseDir (n seg k : Nat) (w : SwageSet) (p : Nat) (t : State) (up : Bool) : State :=
  match (t.core n).segRun seg with
  | none => t
  | some g => (t.setRun n seg (fun h => withSlots h up ((haloFull g up).filter (fun x => !slotDone k w p up x)))).returnHalo n seg up
      ((haloFull g up).filter (slotDone k w p up)).length

theorem releaseRows_eq (s : State) (n seg k : Nat) (w : SwageSet) (p : Nat) : s.releaseRows n seg k w p =
    releaseDir n seg k w p (releaseDir n seg k w p s true) false := rfl

end State

theorem HaloMoves.releaseDir (s : State) (n seg k : Nat) (w : SwageSet) (p : Nat) (up : Bool) :
    HaloMoves n seg s (State.releaseDir n seg k w p s up) := by
  unfold State.releaseDir
  split
  next => exact .refl n seg s
  next g hg =>
    refine HaloMoves.trans ?_ (.returnHalo _ n seg up _)
    refine .setRun s n seg fun g => ?_
    unfold State.withSlots
    cases up <;> exact ⟨rfl, rfl, rfl, fun _ h => h⟩

theorem HaloMoves.releaseRows (s : State) (n seg k : Nat) (w : SwageSet) (p : Nat) : HaloMoves n seg s (s.releaseRows n seg k w p) := by
  rw [State.releaseRows_eq]
  exact (HaloMoves.releaseDir s n seg k w p true).trans (.releaseDir _ n seg k w p false)

/-- An edge row is on its way to the core that takes it, or waits for a credit (R189, R191). -/
def EdgeSent (n seg m : Nat) (e : EdgeRow) (t : State) : Prop :=
  (m, e) ∈ t.haloRows ∨ ∃ g, (t.core n).segRun seg = some g ∧ e ∈ g.stalled

namespace HaloMoves

theorem neighbour {n seg k : Nat} {s t : State} (h : HaloMoves n seg s t) (up : Bool) : neighbour t k up = neighbour s k up :=
  (congrArg (fun v : State => Machine.neighbour v k up) h.frame :)

theorem sent {n seg m : Nat} {e : EdgeRow} {s t : State} (h : HaloMoves n seg s t) (hs : EdgeSent n seg m e s) : EdgeSent n seg m e t := by
  rcases hs with hs | ⟨g, hg, hs⟩
  · exact .inl (h.rows hs)
  · obtain ⟨g', hg', -, -, hst⟩ := h.run g hg
    exact .inr ⟨g', hg', hst hs⟩

end HaloMoves

theorem sendEdge_sent {s : State} {n m : Nat} {e : EdgeRow} {g : SegRun} (hm : neighbour s n e.up = some m)
    (hg : (s.core n).segRun e.segment = some g) : EdgeSent n e.segment m e (s.sendEdge n e) := by
  by_cases hc : g.credit e.up = 0 ∨ g.stalled.any (fun x => x.up == e.up) = true
  · rw [State.sendEdge_waits hm hg hc]
    refine .inr ⟨{ g with stalled := g.stalled ++ [e] }, ?_, by simp⟩
    unfold State.setRun
    rw [State.core_setCore_same, Core.segRun_setRun_same _ _ (by exact fun _ => rfl), hg]
    rfl
  · rw [State.sendEdge_goes hm hg hc]
    exact .inl (List.mem_append_right _ (List.mem_singleton_self _))

/-- The edge rows of an output row, sent one after another. -/
theorem sendEdges {n seg : Nat} {l : List EdgeRow} (hl : ∀ e ∈ l, e.segment = seg) {s : State} {g : SegRun}
    (hg : (s.core n).segRun seg = some g) : HaloMoves n seg s (l.foldl (fun t e => t.sendEdge n e) s) ∧
      ∀ e ∈ l, ∀ m, neighbour s n e.up = some m → EdgeSent n seg m e (l.foldl (fun t e => t.sendEdge n e) s) := by
  induction l generalizing s g with
  | nil => exact ⟨.refl n seg s, by simp⟩
  | cons e r ih =>
    have he := hl e List.mem_cons_self
    have h1 : HaloMoves n seg s (s.sendEdge n e) := he ▸ .sendEdge s n e
    obtain ⟨g', hg', -⟩ := h1.run g hg
    obtain ⟨h2, hsent⟩ := ih (fun x hx => hl x (List.mem_cons_of_mem _ hx)) hg'
    refine ⟨h1.trans h2, fun x hx m hm => ?_⟩
    rcases List.mem_cons.mp hx with rfl | hx
    · refine h2.sent ?_
      rw [← he] at hg ⊢
      exact sendEdge_sent hm hg
    · exact hsent x hx m ((h1.neighbour _).trans hm)

theorem edgeRows_segment {s : State} {n : Nat} {g : SegRun} {d : VC} {w : DW} {set : SwageSet} {o : Nat} {e : EdgeRow}
    (h : e ∈ edgeRows s n g d w set o) : e.segment = g.segment := by
  unfold edgeRows at h
  split at h
  · cases h
  · rcases List.mem_append.mp h with h | h <;> split at h <;> simp at h <;> rw [h]

/-- The edge rows rest on the billet, the ATTEMPT and the core's Hearth. -/
theorem edgeRows_of_same {s t : State} {n : Nat} (hb : t.billet = s.billet) (ha : t.cad.attempt = s.cad.attempt)
    (hh : t.hearth (dieOf n) = s.hearth (dieOf n)) (g : SegRun) (d : VC) (w : DW) (set : SwageSet) (o : Nat) :
    edgeRows t n g d w set o = edgeRows s n g d w set o := by
  unfold edgeRows stripeOf
  rw [hb, ha, hh]

theorem read_dwRow {h lb tiles : Memory} {d : VC} {w : DW} {set : SwageSet} {o a : Nat} {f : Fmt} (hf : fmtOf w.ofmt 0 = some f)
    (ha : ∀ k, k < w.cCnt → a < d.addr + k * d.stride ∨ d.addr + k * d.stride + ceilDiv (w.wOut * f.width) 8 ≤ a) :
    (dwRow h lb tiles d w set o).1.read a = h.read a := by
  unfold dwRow
  refine Memory.read_foldl_pair (fun p hp m e => ?_) h []
  obtain ⟨c, x⟩ := p
  obtain ⟨hc, hx⟩ := mem_positions.mp hp
  dsimp only
  rw [hf]
  refine m.read_writeElem_ne _ ?_
  have hle : (x + 1) * f.width ≤ w.wOut * f.width := Nat.mul_le_mul_right _ hx
  have := ha c hc
  simp only [Option.getD_some]
  unfold ceilDiv at *
  omega

/-- The row of a running depth-wise command is in Hearth, and the core has the line buffers of its window; what it sends and frees
comes after (R189). -/
def State.dwWritten (s : State) (n : Nat) (g : SegRun) (d : VC) (w : DW) (set : SwageSet) (r : SwgRun) : State :=
  let f := fillWindow s n g w.lb set r
  let out := dwRow (s.hearth (dieOf n)) f.1 (s.core n).tiles d w set (edgeFirst set r.presented)
  (s.setHearth (dieOf n) out.1).setCore n (Core.endDw ({ s.core n with lineBuf := f.1 }.setRun (s.core n).vecSeg (fun g =>
    { g with sets := g.sets.set w.lb { r with presented := r.presented + 1, held := f.2 } })))

/-- That state once its edge rows have gone and the slots that no window reads are empty. -/
def State.dwMoved (s : State) (n : Nat) (g : SegRun) (d : VC) (w : DW) (set : SwageSet) (r : SwgRun) : State :=
  let u := s.dwWritten n g d w set r
  ((edgeRows u n g d w set (edgeFirst set r.presented)).foldl (fun t e => t.sendEdge n e) u).releaseRows n (s.core n).vecSeg w.lb set
    (r.presented + 1)

section
variable {s : State} {n : Nat} {g : SegRun} {d : VC} {w : DW} {set : SwageSet} {r : SwgRun}

theorem State.dwWritten_run (hg : (s.core n).segRun (s.core n).vecSeg = some g) :
    ((s.dwWritten n g d w set r).core n).segRun (s.core n).vecSeg =
      some { g with sets := g.sets.set w.lb { r with presented := r.presented + 1, held := (fillWindow s n g w.lb set r).2 } } := by
  unfold State.dwWritten
  rw [State.core_setCore_same]
  exact (Core.segRun_setRun_same _ _ (by exact fun _ => rfl)).trans (congrArg (Option.map _) hg)

theorem State.dwMoved_halo (hg : (s.core n).segRun (s.core n).vecSeg = some g) :
    HaloMoves n (s.core n).vecSeg (s.dwWritten n g d w set r) (s.dwMoved n g d w set r) ∧
    ∀ e ∈ edgeRows (s.dwWritten n g d w set r) n g d w set (edgeFirst set r.presented), ∀ m, neighbour s n e.up = some m →
      EdgeSent n (s.core n).vecSeg m e (s.dwMoved n g d w set r) := by
  have hl : ∀ e ∈ edgeRows (s.dwWritten n g d w set r) n g d w set (edgeFirst set r.presented), e.segment = (s.core n).vecSeg :=
    fun e he => (edgeRows_segment he).trans (Core.segRun_segment hg)
  have hb : ∀ up, neighbour (s.dwWritten n g d w set r) n up = neighbour s n up := fun up => by
    obtain ⟨a, b, e⟩ := s.setHearth_frame (dieOf n) (dwRow (s.hearth (dieOf n)) (fillWindow s n g w.lb set r).1 (s.core n).tiles d w set
      (edgeFirst set r.presented)).1
    exact (congrArg (fun v : State => neighbour v n up) e :)
  obtain ⟨h1, hsent⟩ := sendEdges hl (State.dwWritten_run hg)
  have h2 := HaloMoves.releaseRows ((edgeRows (s.dwWritten n g d w set r) n g d w set (edgeFirst set r.presented)).foldl
    (fun t e => t.sendEdge n e) (s.dwWritten n g d w set r)) n (s.core n).vecSeg w.lb set (r.presented + 1)
  exact ⟨h1.trans h2, fun e he m hm => h2.sent (hsent e he m ((hb _).trans hm))⟩

end

theorem execDwconv_of {s : State} {n : Nat} {words : List Word} (h : TakesVec s n) (hop : (vcOf (natWords words)).op = 0x50) :
    let ws := natWords words
    let c := { s.core n with dwconv := some ws, vecSeg := (s.core n).curSeg }
    exec (.dwconv n words) s = if dwOk (s.core n) (vcOf ws) (dwOf ws) = true then
      (if (s.core n).mustWait c.dwReads c.dwWrites = true then .next (s.setCore n { s.core n with vecWait := true })
       else .next (s.setCore n c.dispatch)) else .next (s.refuseVec n (vcOf ws)) := by
  intro ws c
  have e : exec (.dwconv n words) s = execDwconv n words s := rfl
  rw [e, execDwconv]
  simp only [State.takesVec_of h hop, Bool.not_true, ws, c]
  cases dwOk (s.core n) (vcOf (natWords words)) (dwOf (natWords words)) <;> rfl

/-- A completed depth-wise command ends, from the state that it has written (R165, R189). -/
theorem execDwconvComplete_of {s : State} {n : Nat} {ws : List Nat} {g : SegRun} {set : SwageSet} {r : SwgRun}
    (hd : (s.core n).dwconv = some ws) (hg : (s.core n).segRun (s.core n).vecSeg = some g)
    (hset : setAt (s.core n) (s.core n).vecSeg (dwOf ws).lb = some (set, r)) (hal : s.alive = true) (hp : r.presented < outRows set)
    (hm : missing g (dwOf ws).lb set (heldFor set r) (edgeFirst set r.presented) = false)
    (hin : inHearth ((vcOf ws).addr + ((dwOf ws).cCnt - 1) * (vcOf ws).stride) (outBytes (dwOf ws)) = true) :
    exec (.dwconvComplete n) s = .next (((s.dwMoved n g (vcOf ws) (dwOf ws) set r).opEvents (vcTag n (vcOf ws)) false
      (dwRow (s.hearth (dieOf n)) (fillWindow s n g (dwOf ws).lb set r).1 (s.core n).tiles (vcOf ws) (dwOf ws) set
        (edgeFirst set r.presented)).2).endVec n (s.core n).vecSeg (vcOf ws).opid (dwCycles (dwOf ws))) := by
  have e : exec (.dwconvComplete n) s = execDwconvComplete n s := rfl
  rw [e, execDwconvComplete, hd, hg]
  dsimp only
  rw [hset]
  dsimp only
  rw [hal, hm, hin, decide_eq_false (Nat.not_le.mpr hp), Bool.not_true, Bool.and_false]
  rfl

section
variable (s : State) (n : Nat) (g : SegRun) (d : VC) (w : DW) (set : SwageSet) (r : SwgRun)

theorem State.dwWritten_frame : ∃ h0 h1 c, s.dwWritten n g d w set r = { s with hearth0 := h0, hearth1 := h1, cores := c } := by
  obtain ⟨h0, h1, e⟩ := s.setHearth_frame (dieOf n) (dwRow (s.hearth (dieOf n)) (fillWindow s n g w.lb set r).1 (s.core n).tiles d w set
    (edgeFirst set r.presented)).1
  exact ⟨h0, h1, _, congrArg (fun v : State => { v with cores := (s.dwWritten n g d w set r).cores }) e⟩

theorem State.dwWritten_core_ne {k : Nat} (hk : k ≠ n) : (s.dwWritten n g d w set r).core k = s.core k := by
  obtain ⟨h0, h1, e⟩ := s.setHearth_frame (dieOf n) (dwRow (s.hearth (dieOf n)) (fillWindow s n g w.lb set r).1 (s.core n).tiles d w set
    (edgeFirst set r.presented)).1
  exact (State.core_setCore_ne _ _ hk).trans (congrArg (fun v : State => v.core k) e :)

theorem State.hearth_dwWritten (k : Nat) : (s.dwWritten n g d w set r).hearth k = (s.setHearth (dieOf n)
    (dwRow (s.hearth (dieOf n)) (fillWindow s n g w.lb set r).1 (s.core n).tiles d w set (edgeFirst set r.presented)).1).hearth k := rfl

end

/-- The counters of halo rows are no fields of a record and none of the vector engine. -/
theorem haloSent_apart {n : Nat} {f : Fld} (h : f ∈ eventRegs n ∨ f ∈ vecRegs n) : f.key ≠ (Reg.coreHaloSent n).key := by
  have hs : (Reg.coreHaloSent n).key = (0x100040C + 0x10000 * n) * 32 := by
    simp only [Reg.coreHaloSent, fld_key]
    omega
  rcases h with h | h
  · have := eventRegs_span h
    omega
  · simp only [vecRegs, List.mem_cons, List.not_mem_nil, or_false] at h
    rcases h with rfl | rfl | rfl <;> simp only [Reg.coreVcmds, Reg.coreVbusyCyclesLo, Reg.coreVbusyCyclesHi, fld_key] at hs ⊢ <;> omega

/-- Settles O28: the start of a depth-wise command, and its end by the row written, the edge rows sent and the slots emptied. -/
theorem depthwiseRows : Obligations.DepthwiseRows := by
  intro s n words hn ws d w c c'
  refine ⟨fun h hop => ?_, fun g set r f hd hg hset hal hp hm hf hin => ?_⟩
  · have e := execDwconv_of h hop
    have hrest := c'.dispatch_rest
    refine ⟨fun hk hw => ?_, fun hk hw => ?_, fun hk => ?_⟩
    · have hdw : c'.dispatch.dwconv = some ws := congrArg Core.dwconv hrest
      refine ⟨_, e.trans ((if_pos hk).trans (if_neg (by rw [Bool.not_eq_true]; exact hw))), State.core_setCore_same .., ?_, ?_, ?_,
        fun k hk => State.core_setCore_ne _ _ hk, rfl⟩ <;> rw [State.core_setCore_same]
      · exact hdw
      · exact congrArg Core.vecSeg hrest
      · show (c'.dispatch.dwconv.isNone && _) = false
        rw [hdw]
        rfl
    · exact e.trans ((if_pos hk).trans (if_pos hw))
    · exact ⟨_, e.trans (if_neg (by rw [Bool.not_eq_true]; exact hk)), s.refuseCmd_refused ..⟩
  · intro win row
    let u := s.dwWritten n g d w set r
    let v := s.dwMoved n g d w set r
    let x := v.opEvents (vcTag n d) false row.2
    obtain ⟨h0, h1, cs, hu⟩ := s.dwWritten_frame n g d w set r
    obtain ⟨hmoves, hsent⟩ := State.dwMoved_halo (d := d) (w := w) (set := set) (r := r) hg
    have hx := v.opEvents_rest (vcTag n d) row.2
    obtain ⟨rg, cr, cq, cp, ht⟩ := x.endVec_frame n c.vecSeg d.opid (dwCycles w)
    have hcore : (x.endVec n c.vecSeg d.opid (dwCycles w)).core n = (v.core n).complete c.vecSeg :=
      (x.endVec_core_same ..).trans (congrArg (Core.complete · c.vecSeg) (v.opEvents_core ..))
    have hucore : u.core n = Core.endDw ({ c with lineBuf := win.1 }.setRun c.vecSeg (fun g =>
        { g with sets := g.sets.set w.lb { r with presented := r.presented + 1, held := win.2 } })) := State.core_setCore_same ..
    have hv := hmoves.core
    rw [hucore] at hv
    have hvt : ∀ k, (x.endVec n c.vecSeg d.opid (dwCycles w)).hearth k = (s.setHearth (dieOf n) row.1).hearth k := fun k => by
      have hxv : x.hearth k = v.hearth k := (congrArg (fun v : State => v.hearth k) hx :)
      have hvu : v.hearth k = u.hearth k := (congrArg (fun v : State => v.hearth k) hmoves.frame :)
      rw [ht]
      exact hxv.trans hvu
    have hevents : EventsLatched v x (vcTag n d) row.2 [] := .opEvents ..
    have hedge : edgeRows (x.endVec n c.vecSeg d.opid (dwCycles w)) n g d w set (edgeFirst set r.presented) =
        edgeRows u n g d w set (edgeFirst set r.presented) := by
      refine edgeRows_of_same ?_ ?_ (hvt _) g d w set _ <;> rw [ht]
      · exact (congrArg State.billet hx).trans (congrArg State.billet hmoves.frame :)
      · exact hevents.attempt.trans (congrArg (fun v : State => v.cad.attempt) hmoves.frame :)
    have hrun : ∀ g', (v.core n).segRun c.vecSeg = some g' →
        ((x.endVec n c.vecSeg d.opid (dwCycles w)).core n).segRun c.vecSeg = some { g' with done := g'.done + 1 } := fun g' hg' => by
      rw [hcore]
      exact (Core.segRun_setRun_same _ _ (by exact fun _ => rfl)).trans (congrArg (Option.map _) hg')
    have hregs : SameRegsBut [Reg.coreHaloSent n] s v := by
      have := hmoves.regs
      rw [hu] at this
      exact this
    refine ⟨_, execDwconvComplete_of hd hg hset hal hp hm hin, ?_, ?_, ?_, (hvt _).trans (State.hearth_setHearth_same ..), fun a ha => ?_,
      (hvt _).trans (State.hearth_setHearth_other ..), ?_, fun e he m hm => ?_, ?_, fun k hk => ?_, ?_, ?_, ?_⟩
    · rw [hcore]
      exact congrArg Core.dwconv hv
    · rw [hcore]
      exact congrArg Core.lineBuf hv
    · rw [hcore]
      exact congrArg Core.tiles hv
    · rw [hvt, State.hearth_setHearth_same]
      exact read_dwRow hf ha
    · obtain ⟨g0, hg0, hsw, hr⟩ := Core.setAt_iff.mp hset
      obtain rfl : g = g0 := Option.some.inj (hg.symm.trans hg0)
      obtain ⟨g', hg', hsets, hswage, -⟩ := hmoves.run _ (State.dwWritten_run hg)
      refine ⟨{ r with presented := r.presented + 1, held := win.2 }, Core.setAt_iff.mpr ⟨_, hrun g' hg', ?_, ?_⟩, rfl, rfl, rfl, rfl⟩
      · exact (congrArg (fun l : List SwageSet => l[w.lb]?) hswage).trans hsw
      · have hlt : w.lb < g.sets.length := (List.getElem?_eq_some_iff.mp hr).1
        exact (congrArg (fun l : List SwgRun => l[w.lb]?) hsets).trans (List.getElem?_set_self hlt)
    · rw [hedge] at he
      rcases hsent e he m hm with h | ⟨g', hg', h⟩
      · refine .inl ?_
        have hrows : x.haloRows = v.haloRows := (congrArg State.haloRows hx :)
        rw [ht]
        exact hrows ▸ h
      · exact .inr ⟨_, hrun g' hg', h⟩
    · rw [hcore]
      exact (congrArg (fun b : Core => { b with dwconv := c.dwconv, lineBuf := c.lineBuf, tiles := c.tiles, segs := c.segs }) hv)
    · exact (x.endVec_core_ne _ _ _ hk).trans ((v.opEvents_core ..).trans ((hmoves.others k hk).trans (s.dwWritten_core_ne n g d w set r hk)))
    · have hap := haloSent_apart (n := n) (f := Reg.coreVcmds n) (.inr (by simp [vecRegs]))
      have hxs : x.get (Reg.coreVcmds n) = s.get (Reg.coreVcmds n) :=
        (v.get_vcmds_opEvents rfl _).trans (hregs _ fun g hg => List.mem_singleton.mp hg ▸ hap)
      rw [x.endVec_vcmds, hxs]
    · refine (hevents.trans_left (m := [Reg.coreHaloSent n]) (List.nil_subset _) (.of_sameRegsBut hregs) (fun f hf => hregs f fun g hg => ?_) ?_ ?_).endVec rfl _ _ _
      · exact List.mem_singleton.mp hg ▸ haloSent_apart (.inl hf)
      · exact (congrArg State.cad hmoves.frame :).trans (by rw [hu])
      · exact (congrArg State.faultQ hmoves.frame :).trans (by rw [hu])
    · rw [ht]
      let kept : State → State := fun v => { v with
        regs := s.regs, cad := s.cad, cores := s.cores, hearth0 := s.hearth0, hearth1 := s.hearth1, haloRows := s.haloRows
        haloCredits := s.haloCredits, caps := s.caps, captures := s.captures, ports := s.ports, faultQ := s.faultQ, out := s.out }
      have hxv : kept x = kept v := (congrArg kept hx :)
      have hvu : kept v = kept u := (congrArg kept hmoves.frame :)
      have hus : kept u = s := (congrArg kept hu :)
      exact hxv.trans (hvu.trans hus)

end Sys2Proof.Machine
end

section
/-! SUPPORT. Proofs: halo rows land by their tags, and credits return (O29). -/
namespace Sys2Proof.Machine

/-- A fault raised, and then the next gate held. -/
theorem State.raise_wantHold {s u : State} (hq : u.faultQ = s.faultQ) (hc : u.cad = s.cad) (src kind cls addr reason : Nat) :
    Raised s ((u.raise src kind cls addr).wantHold reason) src kind cls addr ∧
    HoldsNext s ((u.raise src kind cls addr).wantHold reason) reason ∧ MovesCad u ((u.raise src kind cls addr).wantHold reason) := by
  have hm := wantHold_movesCad (u.raise src kind cls addr) reason
  exact ⟨(Raised.of_raise hq hc src kind cls addr).of_prefix hm.faults, wantHold_holdsNext ((u.raise_cad ..).trans hc) reason,
    (Routed.raise u src kind cls addr).toMovesCad.trans hm⟩

theorem tagerr_key (n : Nat) : 0x1000000 * 32 ≤ (Reg.coreHaloTagerr n).key := by
  simp only [Reg.coreHaloTagerr, fld_key]
  omega

/-- What is left of a row whose tag is not the expected one (R190). -/
theorem refuseRow_done {s u : State} {rows : List (Nat × EdgeRow)} (hu : u = { s with haloRows := rows }) (n seg : Nat) (up : Bool) :
    let t := u.refuseRow n seg up
    t.haloRows = rows ∧ t.core n = (s.core n).setRun seg (fun g => g.fill up (emptySlot g up) none) ∧ (∀ k, k ≠ n → t.core k = s.core k) ∧
    Counted s t (Reg.coreHaloTagerr n) ∧ Raised s t (srcIssue n) 0x0F clsU (n * 2 ^ 32) ∧ HoldsNext s t reasonAbort ∧
    SameRegsOut [Reg.coreHaloTagerr n] s t ∧
    { t with regs := s.regs, cad := s.cad, cores := s.cores, haloRows := s.haloRows, ports := s.ports, faultQ := s.faultQ
             out := s.out } = s := by
  let v := (u.setRun n seg (fun g => g.fill up (emptySlot g up) none)).count (Reg.coreHaloTagerr n)
  have hv : v = { s with regs := v.regs, cores := v.cores, haloRows := rows } := by
    unfold v
    rw [hu]
    rfl
  have hcad : v.cad = s.cad := by rw [hv]
  have hfq : v.faultQ = s.faultQ := by rw [hv]
  obtain ⟨hraised, hholds, hm⟩ := State.raise_wantHold hfq hcad (srcIssue n) 0x0F clsU (n * 2 ^ 32) reasonAbort
  have ht : u.refuseRow n seg up = (v.raise (srcIssue n) 0x0F clsU (n * 2 ^ 32)).wantHold reasonAbort := rfl
  have hcore : ∀ k, v.core k = (s.setRun n seg (fun g => g.fill up (emptySlot g up) none)).core k := fun k => by
    unfold v
    rw [hu]
    rfl
  have hregs : SameRegsOut [Reg.coreHaloTagerr n] s v := by
    refine SameRegsOut.count ?_ (by simp) 1
    rw [hu]
    exact .of_regs rfl
  intro t
  refine ⟨(congrArg State.haloRows hm.rest).trans (by rw [hv]), (hm.core n).trans ((hcore n).trans (State.core_setCore_same ..)),
    fun k hk => (hm.core k).trans ((hcore k).trans (State.core_setCore_ne _ _ hk)), ?_, hraised, hholds,
    hregs.trans (hm.regs.mono (List.nil_subset _)), ?_⟩
  · have h := State.count_counted (u.setRun n seg (fun g => g.fill up (emptySlot g up) none)) (f := Reg.coreHaloTagerr n) (Nat.succ_pos 31)
    refine (hm.regs.get_core (tagerr_key n) (by simp)).trans (h.trans ?_)
    rw [hu]
    rfl
  · let kept : State → State := fun v => { v with
      regs := s.regs, cad := s.cad, cores := s.cores, haloRows := s.haloRows, ports := s.ports, faultQ := s.faultQ, out := s.out }
    have h1 : kept t = kept v := (congrArg kept hm.rest :)
    have h2 : kept v = s := (congrArg kept hv :)
    exact h1.trans h2

theorem State.returnHalo_frame (s : State) (n seg : Nat) (up : Bool) (k : Nat) :
    ∃ q, s.returnHalo n seg up k = { s with haloCredits := q } := by
  unfold State.returnHalo
  split <;> exact ⟨_, rfl⟩

theorem haloFull_withSlots (g : SegRun) (dir up : Bool) (l : List (Nat × Option (Nat × Nat))) :
    haloFull (State.withSlots g dir l) up = if up = dir then l else haloFull g up := by
  cases dir <;> cases up <;> rfl

/-- A slot whose row a window still reads stays full (R190). -/
theorem releaseDir_keeps {t : State} {n seg k : Nat} {g : SegRun} (hg : (t.core n).segRun seg = some g) (w : SwageSet) (p : Nat) (dir : Bool) :
    ∃ g', ((State.releaseDir n seg k w p t dir).core n).segRun seg = some g' ∧
      ∀ up i j, needed w p up j = true → (i, some (k, j)) ∈ haloFull g up → (i, some (k, j)) ∈ haloFull g' up := by
  let l := (haloFull g dir).filter (fun x => !State.slotDone k w p dir x)
  refine ⟨State.withSlots g dir l, ?_, fun up i j hn hm => ?_⟩
  · unfold State.releaseDir
    rw [hg]
    dsimp only
    obtain ⟨q, e⟩ := State.returnHalo_frame (t.setRun n seg fun h => State.withSlots h dir l) n seg dir
      ((haloFull g dir).filter (State.slotDone k w p dir)).length
    refine (congrArg (fun v : State => (v.core n).segRun seg) e).trans ?_
    refine (congrArg (fun c : Core => c.segRun seg) (State.core_setCore_same ..)).trans ?_
    refine (Core.segRun_setRun_same _ _ fun h => ?_).trans (congrArg (Option.map _) hg)
    unfold State.withSlots
    cases dir <;> rfl
  · rw [haloFull_withSlots]
    split
    next h =>
      subst h
      exact List.mem_filter.mpr ⟨hm, by simp [State.slotDone, hn]⟩
    next => exact hm

theorem State.releaseDir_frame (n seg k : Nat) (w : SwageSet) (p : Nat) (t : State) (up : Bool) :
    ∃ c q, State.releaseDir n seg k w p t up = { t with cores := c, haloCredits := q } := by
  unfold State.releaseDir
  split
  next => exact ⟨_, _, rfl⟩
  next g hg =>
    obtain ⟨q, e⟩ := State.returnHalo_frame
      (t.setRun n seg fun h => State.withSlots h up ((haloFull g up).filter (fun x => !State.slotDone k w p up x))) n seg up
      ((haloFull g up).filter (State.slotDone k w p up)).length
    exact ⟨_, q, e⟩

theorem State.releaseRows_frame (s : State) (n seg k : Nat) (w : SwageSet) (p : Nat) :
    ∃ c q, s.releaseRows n seg k w p = { s with cores := c, haloCredits := q } := by
  rw [State.releaseRows_eq]
  obtain ⟨c, q, e⟩ := State.releaseDir_frame n seg k w p s true
  obtain ⟨c', q', e'⟩ := State.releaseDir_frame n seg k w p (State.releaseDir n seg k w p s true) false
  rw [e', e]
  exact ⟨c', q', rfl⟩

theorem releaseRows_keeps {s : State} {n seg k : Nat} {g : SegRun} (hg : (s.core n).segRun seg = some g) (w : SwageSet) (p : Nat) :
    ∃ g', ((s.releaseRows n seg k w p).core n).segRun seg = some g' ∧
      ∀ up i j, needed w p up j = true → (i, some (k, j)) ∈ haloFull g up → (i, some (k, j)) ∈ haloFull g' up := by
  rw [State.releaseRows_eq]
  obtain ⟨g1, hg1, h1⟩ := releaseDir_keeps (k := k) hg w p true
  obtain ⟨g2, hg2, h2⟩ := releaseDir_keeps (k := k) hg1 w p false
  exact ⟨g2, hg2, fun up i j hn hm => h2 up i j hn (h1 up i j hn hm)⟩

/-- A landed row is in its slot, and the slots that no window reads are empty (R190). -/
theorem landed_done {s u : State} {rows : List (Nat × EdgeRow)} (hu : u = { s with haloRows := rows }) {n seg k p a i j : Nat} {up : Bool}
    {g : SegRun} (hg : (s.core n).segRun seg = some g) (w : SwageSet) (data : List Byte) :
    let v := (u.setHearth (dieOf n) ((s.hearth (dieOf n)).writeBytes a data)).setRun n seg (fun g => (g.landed up k).fill up i (some (k, j)))
    let t := v.releaseRows n seg k w p
    t.haloRows = rows ∧ (t.hearth (dieOf n)).readBytes a data.length = data ∧
      (∀ b, b < a ∨ a + data.length ≤ b → (t.hearth (dieOf n)).read b = (s.hearth (dieOf n)).read b) ∧
      t.hearth (1 - dieOf n) = s.hearth (1 - dieOf n) ∧
      (∃ g', (t.core n).segRun seg = some g' ∧ g'.sets = (g.landed up k).sets ∧ (needed w p up j = true → (i, some (k, j)) ∈ haloFull g' up)) ∧
      { t.core n with segs := (s.core n).segs } = s.core n ∧ (∀ k, k ≠ n → t.core k = s.core k) ∧
      { t with cores := s.cores, haloRows := s.haloRows, haloCredits := s.haloCredits, hearth0 := s.hearth0
               hearth1 := s.hearth1 } = s := by
  intro v t
  let m := (s.hearth (dieOf n)).writeBytes a data
  let f : SegRun → SegRun := fun g => (g.landed up k).fill up i (some (k, j))
  have hf : ∀ g, (f g).segment = g.segment ∧ (f g).sets = (g.landed up k).sets ∧ (i, some (k, j)) ∈ haloFull (f g) up := fun g => by
    unfold f SegRun.fill SegRun.landed haloFull
    cases up <;> simp
  obtain ⟨h0, h1, e⟩ := u.setHearth_frame (dieOf n) m
  obtain ⟨c, q, ht⟩ := v.releaseRows_frame n seg k w p
  have hmoves := HaloMoves.releaseRows v n seg k w p
  have hvcore : v.core n = (s.core n).setRun seg f := by
    refine (State.core_setCore_same ..).trans ?_
    rw [e, hu]
    rfl
  have hvrun : (v.core n).segRun seg = some (f g) := by
    rw [hvcore]
    exact (Core.segRun_setRun_same _ _ fun g => (hf g).1).trans (congrArg (Option.map f) hg)
  have hhearth : ∀ d, t.hearth d = (u.setHearth (dieOf n) m).hearth d := fun d => (congrArg (fun x : State => x.hearth d) ht).trans rfl
  obtain ⟨g', hg', hsets, -⟩ := hmoves.run _ hvrun
  obtain ⟨g'', hg'', hkeeps⟩ := releaseRows_keeps (k := k) hvrun w p
  obtain rfl : g' = g'' := Option.some.inj (hg'.symm.trans hg'')
  refine ⟨?_, ?_, fun b hb => ?_, ?_, ⟨g', hg', hsets.trans (hf g).2.1, fun hn => hkeeps up i j hn (hf g).2.2⟩, ?_, fun k hk => ?_, ?_⟩
  · exact (congrArg State.haloRows ht).trans ((congrArg State.haloRows e).trans (by rw [hu]))
  · rw [hhearth, State.hearth_setHearth_same]
    exact Memory.readBytes_writeBytes_same ..
  · rw [hhearth, State.hearth_setHearth_same]
    rcases hb with hb | hb
    · exact Memory.read_writeBytes_of_lt _ _ _ _ hb
    · exact Memory.read_writeBytes_of_ge _ _ _ _ hb
  · rw [hhearth, State.hearth_setHearth_other, hu]
    rfl
  · have hc : { t.core n with segs := (v.core n).segs } = v.core n := hmoves.core
    rw [hvcore] at hc
    generalize t.core n = b at hc ⊢
    exact (congrArg (fun c : Core => { c with segs := (s.core n).segs }) hc :)
  · exact (hmoves.others k hk).trans ((State.core_setCore_ne _ _ hk).trans (by rw [e, hu]; rfl))
  · let kept : State → State := fun x => { x with
      cores := s.cores, haloRows := s.haloRows, haloCredits := s.haloCredits, hearth0 := s.hearth0, hearth1 := s.hearth1 }
    have htv : kept t = kept v := (congrArg kept ht :)
    have hvu : kept v = kept u := (congrArg kept e :)
    have hus : kept u = s := (congrArg kept hu :)
    exact htv.trans (hvu.trans hus)

/-- A segment's run with one halo credit more for a direction. -/
def SegRun.gain (g : SegRun) (up : Bool) : SegRun :=
  if up then { g with creditUp := g.creditUp + 1 } else { g with creditDn := g.creditDn + 1 }

theorem SegRun.gain_rest (g : SegRun) (up : Bool) : (g.gain up).segment = g.segment ∧ (g.gain up).stalled = g.stalled ∧
    (g.gain up).credit up = g.credit up + 1 := by
  unfold SegRun.gain SegRun.credit
  cases up <;> exact ⟨rfl, rfl, rfl⟩

theorem SegRun.spend_rest (g : SegRun) (up : Bool) : (g.spend up).segment = g.segment ∧ (g.spend up).credit up = g.credit up - 1 := by
  unfold SegRun.spend SegRun.credit
  cases up <;> exact ⟨rfl, rfl⟩

theorem State.setRun_run {s : State} {n seg : Nat} {g : SegRun} (hg : (s.core n).segRun seg = some g) {f : SegRun → SegRun}
    (hf : ∀ g, (f g).segment = g.segment) : ((s.setRun n seg f).core n).segRun seg = some (f g) := by
  unfold State.setRun
  rw [State.core_setCore_same]
  exact (Core.segRun_setRun_same _ _ hf).trans (congrArg (Option.map f) hg)

/-- Of the cores' state only the runs of one core's segments have changed. -/
def OnlySegs (n : Nat) (s t : State) : Prop :=
  { t.core n with segs := (s.core n).segs } = s.core n ∧ ∀ k, k ≠ n → t.core k = s.core k

theorem OnlySegs.trans {n : Nat} {s t u : State} (h : OnlySegs n s t) (k : OnlySegs n t u) : OnlySegs n s u :=
  ⟨(congrArg (fun c : Core => { c with segs := (s.core n).segs }) k.1).trans h.1, fun j hj => (k.2 j hj).trans (h.2 j hj)⟩

theorem OnlySegs.of_cores {n : Nat} {s t : State} (h : t.cores = s.cores) : OnlySegs n s t := by
  unfold OnlySegs State.core
  rw [h]
  exact ⟨rfl, fun _ _ => rfl⟩

theorem State.get_setRun (s : State) (n seg : Nat) (f : SegRun → SegRun) (x : Fld) : (s.setRun n seg f).get x = s.get x := rfl

theorem State.setRun_core (s : State) (n seg : Nat) (f : SegRun → SegRun) : OnlySegs n s (s.setRun n seg f) := by
  unfold State.setRun OnlySegs
  rw [State.core_setCore_same]
  exact ⟨rfl, fun k hk => State.core_setCore_ne _ _ hk⟩

/-- The state in which a credit has come back. -/
def State.credited (s : State) (x : Nat × Nat × Bool) (n : Nat) (up : Bool) : State :=
  ({ s with haloCredits := s.haloCredits.erase x } : State).setRun n x.2.1 (fun g => g.gain up)

section
variable {s : State} {n seg : Nat} {up : Bool} {g : SegRun} (hal : s.alive = true)
  (hx : s.haloCredits.find? (fun x => x.1 == n && x.2.2 == up) = some (n, seg, up)) (hg : (s.core n).segRun seg = some g)
include hal hx hg

/-- A credit that no send waits for. -/
theorem creditReturn_kept (hst : g.stalled.find? (fun e => e.up == up) = none) :
    exec (.haloCreditReturn n up) s = .next (s.credited (n, seg, up) n up) := by
  have e : exec (.haloCreditReturn n up) s = execHaloCreditReturn n up s := rfl
  have hr : ((s.credited (n, seg, up) n up).core n).segRun seg = some (g.gain up) :=
    State.setRun_run (s := { s with haloCredits := _ }) hg fun g => (g.gain_rest up).1
  have hst : (g.gain up).stalled.find? (fun e => e.up == up) = none := by rwa [(g.gain_rest up).2.1]
  rw [e, execHaloCreditReturn, hx]
  dsimp only
  rw [hal]
  show (match ((s.credited (n, seg, up) n up).core n).segRun seg with
    | none => _
    | some g => _) = _
  rw [hr]
  dsimp only
  rw [hst]
  rfl

/-- A credit that the oldest waiting send spends at once. -/
theorem creditReturn_sent {e : EdgeRow} {m : Nat} (hst : g.stalled.find? (fun e => e.up == up) = some e) (he : e.segment = seg)
    (hm : neighbour s n up = some m) : ∃ t, exec (.haloCreditReturn n up) s = .next t ∧ t.haloRows = s.haloRows ++ [(m, e)] ∧
      (∃ g', (t.core n).segRun seg = some g' ∧ g'.credit up = g.credit up ∧ g'.stalled = g.stalled.erase e) ∧
      { t.core n with segs := (s.core n).segs } = s.core n ∧ (∀ k, k ≠ n → t.core k = s.core k) ∧
      t.haloCredits = s.haloCredits.erase (n, seg, up) ∧ Counted s t (Reg.coreHaloSent n) ∧ SameRegsBut [Reg.coreHaloSent n] s t ∧
      { t with regs := s.regs, cores := s.cores, haloRows := s.haloRows, haloCredits := s.haloCredits } = s := by
  have hup : e.up = up := by simpa using List.find?_some hst
  let rest := g.stalled.erase e
  let lift : SegRun → SegRun := fun h => { h with stalled := rest.filter (fun y => y.up != up) }
  let put : SegRun → SegRun := fun h => { h with stalled := rest }
  let u := (s.credited (n, seg, up) n up).setRun n seg lift
  let w : State := { u.setRun n seg (fun h => h.spend up) with haloRows := u.haloRows ++ [(m, e)] }
  let v := w.count (Reg.coreHaloSent n)
  have hr : ((s.credited (n, seg, up) n up).core n).segRun seg = some (g.gain up) :=
    State.setRun_run (s := { s with haloCredits := _ }) hg fun g => (g.gain_rest up).1
  have hu : (u.core n).segRun seg = some (lift (g.gain up)) := State.setRun_run hr fun _ => rfl
  have hgain : (g.gain up).stalled = g.stalled := (g.gain_rest up).2.1
  have hcr : (lift (g.gain up)).credit up = g.credit up + 1 := (g.gain_rest up).2.2
  have hsend : u.sendEdge n e = v := by
    have h := State.sendEdge_goes (s := u) (n := n) (e := e) (m := m) (g := lift (g.gain up)) (by rw [hup]; exact hm) (by rw [he]; exact hu) (by
      rw [hup, hcr]
      simp [lift])
    rw [he, hup] at h
    exact h
  have e0 : exec (.haloCreditReturn n up) s = .next (v.setRun n seg put) := by
    have e : exec (.haloCreditReturn n up) s = execHaloCreditReturn n up s := rfl
    rw [e, execHaloCreditReturn, hx]
    dsimp only
    rw [hal]
    show (match ((s.credited (n, seg, up) n up).core n).segRun seg with
      | none => _
      | some g => _) = _
    rw [hr]
    dsimp only
    rw [hgain, hst, ← hsend]
    rfl
  have hregs : w.regs = s.regs := rfl
  have hs1 : OnlySegs n s { s with haloCredits := s.haloCredits.erase (n, seg, up) } := .of_cores rfl
  have hs2 := ((hs1.trans (State.setRun_core _ n seg (fun g => g.gain up))).trans (State.setRun_core (s.credited (n, seg, up) n up) n seg lift))
  have hs3 := hs2.trans (State.setRun_core u n seg (fun h => h.spend up))
  have hs4 : OnlySegs n (u.setRun n seg (fun h => h.spend up)) v := .of_cores rfl
  have hsegs := (hs3.trans hs4).trans (State.setRun_core v n seg put)
  have hv : (v.core n).segRun seg = some ((lift (g.gain up)).spend up) := State.setRun_run hu fun h => (h.spend_rest up).1
  refine ⟨_, e0, rfl, ⟨_, State.setRun_run hv fun _ => rfl, ?_, rfl⟩, ?_, fun k hk => ?_, rfl, ?_, ?_, ?_⟩
  · show ((lift (g.gain up)).spend up).credit up = _
    rw [(SegRun.spend_rest _ _).2, hcr]
    exact Nat.add_sub_cancel ..
  · exact hsegs.1
  · exact hsegs.2 k hk
  · have hus : w.get (Reg.coreHaloSent n) = s.get (Reg.coreHaloSent n) := State.get_of_regs hregs _
    have hvt : (v.setRun n seg put).get (Reg.coreHaloSent n) = v.get (Reg.coreHaloSent n) := v.get_setRun n seg put _
    have h := State.count_counted w (f := Reg.coreHaloSent n) (Nat.succ_pos 31)
    unfold Counted at h ⊢
    rw [hvt, ← hus]
    exact h
  · have hsv : SameRegsBut [Reg.coreHaloSent n] s v := SameRegsBut.count (Reg.coreHaloSent n) 1 (SameRegsBut.of_regs hregs) (by simp)
    exact fun f hf => (v.get_setRun n seg put f).trans (hsv f hf)
  · let kept : State → State := fun x => { x with
      regs := s.regs, cores := s.cores, haloRows := s.haloRows, haloCredits := s.haloCredits }
    have hset : ∀ (x : State) (f : SegRun → SegRun), kept (x.setRun n seg f) = kept x := fun _ _ => rfl
    have hcount : ∀ x : State, kept (x.count (Reg.coreHaloSent n)) = kept x := fun _ => rfl
    have hrows : ∀ x : State, kept { x with haloRows := u.haloRows ++ [(m, e)] } = kept x := fun _ => rfl
    have hback : kept { s with haloCredits := s.haloCredits.erase (n, seg, up) } = s := rfl
    exact (hset v put).trans ((hcount w).trans ((hrows _).trans ((hset u _).trans ((hset _ lift).trans ((hset _ _).trans hback)))))

end

/-- Settles O29: the rows by their tags, and the credits with and without a send that waits. -/
theorem haloRowsLand : Obligations.HaloRowsLand := by
  intro s n up hn hal c
  refine ⟨?_, ?_⟩
  · intro x hx rest
    have e : exec (.haloRowLanded n up) s = execHaloRowLanded n up s := rfl
    rw [execHaloRowLanded, hx] at e
    simp only [hal, Bool.not_true] at e
    refine ⟨fun ha => e.trans (if_pos ha), fun g hg ha => ?_⟩
    replace e := e.trans (if_neg (not_not.mpr ha))
    simp only [show (s.core n).segRun x.2.segment = some g from hg] at e
    refine ⟨fun hbad => ?_, fun k w j hk htag hin => ?_⟩
    · have hrefused : exec (.haloRowLanded n up) s = .next (({ s with haloRows := rest } : State).refuseRow n x.2.segment up) := by
        refine e.trans ?_
        split
        next => rfl
        next k w j hk => exact if_neg (hbad k w j hk)
      exact ⟨_, hrefused, refuseRow_done rfl n x.2.segment up⟩
    · simp only [hk, if_pos htag] at e
      exact ⟨_, e.trans (if_neg (by rw [hin]; decide)), landed_done rfl hg w x.2.data⟩
  · intro seg g hx hg cr
    refine ⟨fun hst => ?_, fun e m hst he hm => creditReturn_sent hal hx hg hst he hm⟩
    have hnone : g.stalled.find? (fun e => e.up == up) = none := List.find?_eq_none.mpr fun e he => by simpa using hst e he
    have hcore := ({ s with haloCredits := s.haloCredits.erase (n, seg, up) } : State).setRun_core n seg (fun g => g.gain up)
    refine ⟨_, creditReturn_kept hal hx hg hnone, ?_, hcore.1, hcore.2, rfl, rfl⟩
    exact State.setRun_run (s := { s with haloCredits := s.haloCredits.erase (n, seg, up) }) (f := fun g => g.gain up) hg fun g => (g.gain_rest up).1

end Sys2Proof.Machine
end

section
/-! SUPPORT. Proofs: a term-walk starts, and ends with its record (O30). -/
namespace Sys2Proof.Machine

theorem length_walkRecord (s : State) (n : Nat) (ws : List Nat) : (walkRecord s n ws).length = 64 := by
  unfold walkRecord
  dsimp only
  split
  · split
    · simp [length_leBytes]
    · split
      next w hw =>
        split
        next => simp [length_leBytes]
        next hnone =>
          have := List.find?_some hw
          simp [hnone] at this
      next => simp [length_leBytes]
  · simp [length_leBytes]

namespace State

theorem get64_endVec (s : State) (n k opid cycles : Nat) :
    (s.endVec n k opid cycles).get64 (Reg.coreVbusyCyclesLo n) (Reg.coreVbusyCyclesHi n) =
      min (s.get64 (Reg.coreVbusyCyclesLo n) (Reg.coreVbusyCyclesHi n) + cycles) (2 ^ 64 - 1) := by
  unfold endVec
  rw [get64_count64 _ rfl rfl]
  · have hget : ∀ f, f = Reg.coreVbusyCyclesLo n ∨ f = Reg.coreVbusyCyclesHi n →
        (((s.noteDone n opid).setCore n ((s.core n).complete k)).count (Reg.coreVcmds n)).get f = s.get f := fun f hf => by
      refine get_put_ne _ _ ?_
      rcases hf with rfl | rfl <;> simp only [Reg.coreVcmds, Reg.coreVbusyCyclesLo, Reg.coreVbusyCyclesHi, fld_key] <;> omega
    unfold get64
    rw [hget _ (.inl rfl), hget _ (.inr rfl)]
  · simp only [Reg.coreVbusyCyclesLo, Reg.coreVbusyCyclesHi, fld_key]
    omega

end State

theorem execTermwalk_of {s : State} {n : Nat} {words : List Word} (h : TakesVec s n) (hop : (vcOf (natWords words)).op = 0x58)
    (hin : inHearth (wf (natWords words) 5 0 30) 80 = true) : exec (.termwalk n words) s =
    let ws := natWords words
    let d := vcOf ws
    if (base32 d && decide (d.func ≤ 1) && (mmOf (walkIssue s n ws)).op == 1) = true then
      (if (s.core n).mustWait (walkRanges s n ws) [(wf ws 6 0 30, 64)] = true then .next (s.setCore n { s.core n with vecWait := true })
       else .next (s.setCore n (Core.dispatch { s.core n with walk := some ws, walkReads := walkRanges s n ws, vecSeg := (s.core n).curSeg })))
    else .next (s.refuseVec n d) := by
  have e : exec (.termwalk n words) s = execTermwalk n words s := rfl
  rw [e, execTermwalk]
  simp only [State.takesVec_of h hop, hin, Bool.not_true]
  cases (base32 (vcOf (natWords words)) && decide ((vcOf (natWords words)).func ≤ 1) && (mmOf (walkIssue s n (natWords words))).op == 1) <;> rfl

/-- The state of a walk that has ended, before the engine is free. -/
def State.walkEnded (s : State) (n : Nat) (ws : List Nat) : State :=
  (((s.setHearth (dieOf n) ((s.hearth (dieOf n)).writeBytes (wf ws 6 0 30) (walkRecord s n ws))).setCore n
    { s.core n with walk := none, walkReads := [] }).count (Reg.coreTwCount n)).draw 9

theorem execTermwalkComplete_of {s : State} {n : Nat} {ws : List Nat} (hw : (s.core n).walk = some ws) (hal : s.alive = true)
    (hin : inHearth (wf ws 6 0 30) 64 = true) : exec (.termwalkComplete n) s =
      .next ((s.walkEnded n ws).endVec n (s.core n).vecSeg (wd ws 0) (64 + 32 * walkCount (walkedIssue s n ws) ws)) := by
  have e : exec (.termwalkComplete n) s = execTermwalkComplete n s := rfl
  rw [e, execTermwalkComplete, hw]
  dsimp only
  rw [hal, hin]
  rfl

theorem twCount_apart {n : Nat} {f : Fld} (h : f ∈ vecRegs n) : (Reg.coreTwCount n).key ≠ f.key ∧ f.key ≠ (Reg.coreTwCount n).key := by
  simp only [vecRegs, List.mem_cons, List.not_mem_nil, or_false] at h
  rcases h with rfl | rfl | rfl <;>
    simp only [Reg.coreTwCount, Reg.coreVcmds, Reg.coreVbusyCyclesLo, Reg.coreVbusyCyclesHi, fld_key] <;> omega

section
variable (s : State) (n : Nat) (ws : List Nat)

theorem State.walkEnded_frame : ∃ h0 h1 c r f, s.walkEnded n ws = { s with hearth0 := h0, hearth1 := h1, cores := c, regs := r, freeCtr := f } := by
  obtain ⟨h0, h1, e⟩ := s.setHearth_frame (dieOf n) ((s.hearth (dieOf n)).writeBytes (wf ws 6 0 30) (walkRecord s n ws))
  unfold State.walkEnded
  rw [e]
  exact ⟨h0, h1, _, _, _, rfl⟩

theorem State.hearth_walkEnded (d : Nat) : (s.walkEnded n ws).hearth d =
    (s.setHearth (dieOf n) ((s.hearth (dieOf n)).writeBytes (wf ws 6 0 30) (walkRecord s n ws))).hearth d := rfl

theorem State.walkEnded_core_same : (s.walkEnded n ws).core n = { s.core n with walk := none, walkReads := [] } := State.core_setCore_same ..

theorem State.walkEnded_core_ne {k : Nat} (hk : k ≠ n) : (s.walkEnded n ws).core k = s.core k := by
  obtain ⟨h0, h1, e⟩ := s.setHearth_frame (dieOf n) ((s.hearth (dieOf n)).writeBytes (wf ws 6 0 30) (walkRecord s n ws))
  exact (State.core_setCore_ne _ _ hk).trans (congrArg (fun v : State => v.core k) e :)

theorem State.walkEnded_regs : SameRegsBut [Reg.coreTwCount n] s (s.walkEnded n ws) ∧
    (s.walkEnded n ws).get (Reg.coreTwCount n) = min (s.get (Reg.coreTwCount n) + 1) (2 ^ 32 - 1) := by
  obtain ⟨h0, h1, e⟩ := s.setHearth_frame (dieOf n) ((s.hearth (dieOf n)).writeBytes (wf ws 6 0 30) (walkRecord s n ws))
  unfold State.walkEnded
  rw [e]
  exact ⟨SameRegsBut.count (Reg.coreTwCount n) 1 (SameRegsBut.of_regs (s := s) rfl) (by simp),
    State.get_count_same s (Reg.coreTwCount n) 1 (Nat.succ_pos 31)⟩

end

/-- Settles O30: the start of a walk as the check has it, and its end by the record written. -/
theorem termwalkWritesItsRecord : Obligations.TermwalkWritesItsRecord := by
  intro s n words hn ws d c a ok
  have hok : ok ↔ (base32 d && decide (d.func ≤ 1) && (mmOf (walkIssue s n ws)).op == 1) = true := by
    simp only [ok, base32, extentOk, Bool.and_eq_true, decide_eq_true_eq, beq_iff_eq, bne_iff_ne, and_assoc]
  refine ⟨fun h hop hin => ?_, fun hw hal hin => ?_⟩
  · have e := execTermwalk_of h hop hin
    let c' : Core := { c with walk := some ws, walkReads := walkRanges s n ws, vecSeg := c.curSeg }
    have hrest := c'.dispatch_rest
    refine ⟨fun hk hm => ?_, fun hk hm => ?_, fun hk => ?_⟩
    · have hwalk : c'.dispatch.walk = some ws := congrArg Core.walk hrest
      refine ⟨_, e.trans ((if_pos (hok.mp hk)).trans (if_neg (by rw [Bool.not_eq_true]; exact hm))), ?_, ?_, ?_, ?_,
        fun k hk => State.core_setCore_ne _ _ hk, rfl⟩ <;> rw [State.core_setCore_same]
      · exact hwalk
      · exact congrArg Core.walkReads hrest
      · show (_ && c'.dispatch.walk.isNone) = false
        rw [hwalk, Option.isNone_some, Bool.and_false]
      · exact congrArg Core.vecSeg hrest
    · exact e.trans ((if_pos (hok.mp hk)).trans (if_pos hm))
    · exact ⟨_, e.trans (if_neg fun hb => hk (hok.mpr hb)), s.refuseCmd_refused ..⟩
  · let u := s.walkEnded n ws
    let cycles := 64 + 32 * walkCount (walkedIssue s n ws) ws
    obtain ⟨rg, cr, cq, cp, ht⟩ := u.endVec_frame n c.vecSeg (wd ws 0) cycles
    obtain ⟨hregs, hcount⟩ := s.walkEnded_regs n ws
    have hcore : (u.endVec n c.vecSeg (wd ws 0) cycles).core n = ({ c with walk := none, walkReads := [] } : Core).complete c.vecSeg := by
      rw [State.endVec_core_same, State.walkEnded_core_same]
    have hhearth : ∀ k, (u.endVec n c.vecSeg (wd ws 0) cycles).hearth k =
        (s.setHearth (dieOf n) ((s.hearth (dieOf n)).writeBytes a (walkRecord s n ws))).hearth k := fun k =>
      (congrArg (fun v : State => v.hearth k) ht :)
    have hlen := length_walkRecord s n ws
    have hvec := u.endVec_sameRegsBut n c.vecSeg (wd ws 0) cycles
    refine ⟨_, execTermwalkComplete_of hw hal hin, hlen, ?_, fun b hb => ?_, (hhearth _).trans (State.hearth_setHearth_other ..), ?_, ?_, ?_, ?_,
      fun k hk => (u.endVec_core_ne _ _ _ hk).trans (s.walkEnded_core_ne n ws hk), ?_, ?_, ?_, ?_⟩
    · rw [hhearth, State.hearth_setHearth_same]
      exact hlen ▸ Memory.readBytes_writeBytes_same ..
    · rw [hhearth, State.hearth_setHearth_same]
      rcases hb with hb | hb
      · exact Memory.read_writeBytes_of_lt _ _ _ _ hb
      · exact Memory.read_writeBytes_of_ge _ _ _ _ (by rw [hlen]; exact hb)
    · rw [hcore]
      rfl
    · rw [hcore]
      rfl
    · rw [hcore]
      rfl
    · rw [hcore]
      rfl
    · exact (hvec _ fun g hg => (twCount_apart hg).1).trans hcount
    · rw [State.get64_endVec]
      have hget : ∀ f ∈ vecRegs n, u.get f = s.get f := fun f hf => hregs f fun g hg => List.mem_singleton.mp hg ▸ (twCount_apart hf).2
      unfold State.get64
      rw [hget _ (by simp [vecRegs]), hget _ (by simp [vecRegs])]
    · exact (hregs.mono (by simp)).trans (hvec.mono fun g hg => List.mem_cons_of_mem _ hg)
    · obtain ⟨h0, h1, cs, r, f, hu⟩ := s.walkEnded_frame n ws
      let kept : State → State := fun v => { v with
        regs := s.regs, cores := s.cores, hearth0 := s.hearth0, hearth1 := s.hearth1, caps := s.caps, captures := s.captures
        freeCtr := s.freeCtr }
      have h1 : kept (u.endVec n c.vecSeg (wd ws 0) cycles) = kept u := (congrArg kept ht :)
      have h2 : kept u = s := (congrArg kept hu :)
      exact h1.trans h2

end Sys2Proof.Machine
end

section
/-! SUPPORT. Proofs: an attention command leaves the count of empty shapes as it stands where no shape is empty (O31). -/
namespace Sys2Proof.Machine

namespace State

/-- The events of an attention command change no counter but that of its core's events. -/
theorem get_attnEvents {s : State} {n : Nat} {f : Fld} (hf : 0x1000000 * 32 ≤ f.key)
    (h : ∀ g ∈ Reg.coreNanCount n :: trapRegs n, f.key ≠ g.key) (v : VC) (es : List AEv) : (s.attnEvents n v es).get f = s.get f := by
  have hrec : ∀ (l : List AEv) (t : State), (l.foldl (fun t (x : AEv) => t.recordEvents
      ({ core := n, src := x.src, opid := v.opid, rz := v.rz, special := v.special } : OpTag) [x.ev]) t).get f = t.get f := by
    intro l
    induction l with
    | nil => exact fun _ => rfl
    | cons x r ih => exact fun t => (ih _).trans (t.recordEvents_sameRegsBut { core := n, src := x.src, opid := v.opid, rz := v.rz, special := v.special } [x.ev] f h)
  have hd : Reg.fltDropped.key < 0x1000000 * 32 := by decide
  have ho : Reg.fltStatusOvf.key < 0x1000000 * 32 := by decide
  unfold attnEvents
  dsimp only
  split
  next => rfl
  next e r hw => exact ((raiseNum_movesCad _ _ _).get (.inr (by omega)) (by omega) (by omega)).trans (hrec _ s)

theorem zeroshape_plain (n : Nat) : (∀ g ∈ Reg.coreNanCount n :: trapRegs n, (Reg.coreZeroshape n).key ≠ g.key) ∧
    (Reg.coreZeroshape n).key ≠ (Reg.coreAttBlocks n).key ∧ (Reg.coreZeroshape n).key ≠ (Reg.coreAttSkipped n).key ∧
    (Reg.coreZeroshape n).key ≠ (Reg.coreAttEmpty n).key := by
  have hz : (Reg.coreZeroshape n).key = (0x100000C + 0x10000 * n) * 32 := by
    simp only [Reg.coreZeroshape, fld_key]
    omega
  refine ⟨fun g hg => ?_, ?_, ?_, ?_⟩
  · have hg : g ∈ eventRegs n := by
      rcases List.mem_cons.mp hg with rfl | hg
      · exact nanCount_mem _
      · exact trapRegs_subset _ hg
    have := eventRegs_span hg
    omega
  all_goals
    simp only [Reg.coreZeroshape, Reg.coreAttBlocks, Reg.coreAttSkipped, Reg.coreAttEmpty, fld_key]
    omega

/-- A command of stored keys with a shape that is not empty runs, and its core's count of empty shapes stays. -/
theorem runAttn_zeroshape {s : State} {n func nq : Nat} {v : VC} {d : At} (hok : atHearthOk s func d nq (s.attnKeys n d) = true)
    (hp : d.paged = false) (hq : nq ≠ 0) (hk : s.attnKeys n d ≠ 0) (ecc : List EccRes) :
    ∃ t, s.runAttn n func v d nq ecc = .next t ∧ t.get (Reg.coreZeroshape n) = s.get (Reg.coreZeroshape n) := by
  obtain ⟨hev, hb, hsk, he⟩ := zeroshape_plain n
  have hkey : 0x1000000 * 32 ≤ (Reg.coreZeroshape n).key := by
    simp only [Reg.coreZeroshape, fld_key]
    omega
  unfold runAttn
  simp only [hok, hp, Bool.not_true, Bool.false_eq_true, if_false, hq, hk, or_self]
  refine ⟨_, rfl, ?_⟩
  refine (get_attnEvents hkey hev v _).trans ?_
  unfold count
  rw [get_put_ne _ _ he, get_put_ne _ _ hsk, get_put_ne _ _ hb, get_setCore]
  obtain ⟨h0, h1, e⟩ := s.setHearth_frame (dieOf n) (if func = 0 then forward s n v d none nq (s.attnKeys n d) else
    if func = 1 then backward s n v d nq (s.attnKeys n d) else prepass s n v d nq).h
  rw [e]
  rfl

end State

/-- A forward command that its checks pass runs in the state that its stream's part leaves. -/
theorem execAttnForward_runs {s u : State} {n : Nat} {words : List Word} {ecc : List EccRes} (h : TakesVec s n) :
    let v := vcOf (natWords words)
    let d := atOf s n v
    let rw := atRanges s 0 d (atRows s n d) ((atKeys s n d).getD d.nk)
    v.op = 0x28 → v.func = 0 → inHearth v.addr 128 = true → attnCheck s n 0 v d = .accept → (s.core n).mustWait rw.1 rw.2 = false →
      (s.appendChecks d ecc).attnStream n 0 d (atRows s n d) = .ok u →
      exec (.attnForward n words ecc) s = u.auditPages.runAttn n 0 v d (atRows s n d) ecc := by
  intro v d rw hop hfunc hin haccept hwait hstream
  have e : exec (.attnForward n words ecc) s = attnCmd n 0 words ecc s := rfl
  have hv : vcOf (natWords words) = v := rfl
  have hd : atOf s n v = d := rfl
  rw [e, attnCmd, hv]
  rw [State.takesVec_of h hop, hfunc]
  unfold State.takeAttn
  rw [hv]
  dsimp only
  rw [hin, hd, hfunc, haccept]
  dsimp only
  rw [hwait, hstream]
  rfl

/-- The attention command of the witness, with a count of empty shapes that is wider than its register. -/
def wideAttn : State := { Tests.atState with regs := ((Reg.coreZeroshape 3).key, 2 ^ 40) :: Tests.atState.regs }

abbrev wideVc : VC := vcOf (natWords (Tests.atCmd 0))

abbrev wideAt : At := atOf wideAttn 3 wideVc

set_option maxRecDepth 8000 in
theorem wideAttn_accepted : (TakesVec wideAttn 3 ∧ wideVc.op = 0x28 ∧ inHearth wideVc.addr 128 = true ∧ wideVc.func = 0) ∧
    attnCheck wideAttn 3 0 wideVc wideAt = .accept ∧ wideAt.paged = false ∧ atRows wideAttn 3 wideAt = 1 ∧
    wideAttn.attnKeys 3 wideAt = 2 ∧ atHearthOk wideAttn 0 wideAt 1 2 = true ∧ wideAttn.get (Reg.coreZeroshape 3) = 2 ^ 40 := by
  decide +kernel

theorem wideAttn_takes : wideAttn.appendChecks wideAt [] = wideAttn ∧ wideAttn.auditPages = wideAttn ∧
    wideAttn.attnStream 3 0 wideAt 1 = .ok wideAttn := by
  obtain ⟨-, -, hp, -⟩ := wideAttn_accepted
  refine ⟨rfl, ?_, ?_⟩
  · unfold State.auditPages
    rw [if_pos (by decide)]
  · unfold State.attnStream
    rw [hp]
    rfl

set_option maxRecDepth 8000 in
theorem wideAttn_free : (wideAttn.core 3).mustWait (atRanges wideAttn 0 wideAt 1 ((atKeys wideAttn 3 wideAt).getD wideAt.nk)).1
    (atRanges wideAttn 0 wideAt 1 ((atKeys wideAttn 3 wideAt).getD wideAt.nk)).2 = false := by
  decide +kernel

/-- Refutes O31: a register of a state is a number of any size, and where no shape of a command is empty the model leaves the count
of empty shapes as it stands, where the statement has it below 2^32. -/
theorem not_attentionRunsAndEnds : ¬ Obligations.AttentionRunsAndEnds := by
  intro h
  obtain ⟨⟨htakes, hop, hin, hfunc⟩, haccept, hp, hrows, hkeys, hok, hwide⟩ := wideAttn_accepted
  obtain ⟨happend, haudit, hstream⟩ := wideAttn_takes
  have hacts := ((h wideAttn 3 (Tests.atCmd 0) (by decide)).1 [] htakes hop hin).1 hfunc
  have hruns := (hacts.2.2 (by rw [hfunc]; exact haccept)).2 (by rw [hfunc, hrows]; exact wideAttn_free)
  obtain ⟨t, e, -, -, -, -, -, -, -, -, -, -, -, -, -, -, -, -, hz, -⟩ := hruns.2 wideAttn (by rw [happend, hfunc, hrows]; exact hstream)
    (by rw [haudit, hfunc, hrows, hkeys]; exact hok)
  obtain ⟨u, eu, hu⟩ := State.runAttn_zeroshape (s := wideAttn) (n := 3) (func := 0) (nq := 1) (v := wideVc) (d := wideAt)
    (by rw [hkeys]; exact hok) hp (by decide) (by rw [hkeys]; decide) []
  have hexec : exec (.attnForward 3 (Tests.atCmd 0) []) wideAttn = .next u := by
    have e := execAttnForward_runs (u := wideAttn) (ecc := []) htakes hop hfunc hin haccept (by rw [hrows]; exact wideAttn_free)
      (by rw [happend, hrows]; exact hstream)
    rw [haudit, hrows] at e
    exact e.trans eu
  obtain rfl : t = u := by
    have := e.symm.trans hexec
    injection this
  have hle : 2 ^ 40 ≤ 2 ^ 32 - 1 := (hu.trans hwide).symm.le.trans (hz.le.trans (Nat.min_le_right _ _))
  exact absurd hle (by decide)

end Sys2Proof.Machine
end

section
/-! SUPPORT. Proofs: Flux counters, the transfer engine, and chunks of the hand-over channels (O34). -/
namespace Sys2Proof.Machine

/-- What is stored under another key stays (the list need not be in order). -/
theorem Assoc.find?_put_ne {α : Type} (l : List (Nat × α)) {j k : Nat} (v : α) (h : j ≠ k) : Assoc.find? (Assoc.put l k v) j = Assoc.find? l j := by
  induction l with
  | nil => simp [Assoc.put, Assoc.find?, h.symm]
  | cons a r ih =>
    obtain ⟨i, w⟩ := a
    unfold Assoc.put
    split
    · simp [Assoc.find?, h.symm]
    · split
      next hk =>
        subst hk
        simp [Assoc.find?, h.symm]
      next => simp only [Assoc.find?, ih]

theorem SameBytes.of_mems {s t : State} (h0 : t.hearth0 = s.hearth0) (h1 : t.hearth1 = s.hearth1) (hb : t.hbm = s.hbm)
    (hs : t.stock = s.stock) : SameBytes s t := by
  intro a
  rw [h0, h1, hb, hs]
  exact ⟨rfl, rfl, rfl, rfl⟩

namespace State

/-- What a device with its Flux counters changed shows elsewhere. -/
theorem fluxCountAt_frame (s : State) (base : Nat → Nat) (l : List Flux.Stat) : ∃ r, s.fluxCountAt base l = { s with regs := r } := by
  have hfold : ∀ (l : List (Flux.Stat × Nat)) (t : State) (off : Nat), ∃ r o, l.foldl (fun (t, off) (b, i) =>
      let e := base off + i % 4
      (((((((t.count64 (Reg.flxRawLo e) (Reg.flxRawHi e) b.raw).count64 (Reg.flxCodedLo e) (Reg.flxCodedHi e) b.coded).count
        (Reg.flxStored e) (b2n b.stored)).count (Reg.flxNanBlocks e) b.nan).count (Reg.flxSat e) b.sat).count
        (Reg.flxDecodeErr e) (b2n b.err)), off + b.coded)) (t, off) = (({ t with regs := r } : State), o) := by
    intro l
    induction l with
    | nil => exact fun t off => ⟨t.regs, off, rfl⟩
    | cons a r ih =>
      intro t off
      obtain ⟨r', o', e⟩ := ih _ _
      exact ⟨r', o', e⟩
  obtain ⟨r, o, e⟩ := hfold l.zipIdx s 0
  unfold fluxCountAt
  exact ⟨r, congrArg Prod.fst e⟩

theorem fluxCount_frame (s : State) (base : Nat) (l : List Flux.Stat) : ∃ r, s.fluxCount base l = { s with regs := r } :=
  fluxCountAt_frame ..

/-- The Flux counters of a group lie in the group's block. -/
theorem get_fluxCount (s : State) {base : Nat} (l : List Flux.Stat) {f : Fld}
    (h : f.key < (0x310000 + 0x40 * base) * 32 ∨ (0x310000 + 0x40 * (base + 4)) * 32 ≤ f.key) : (s.fluxCount base l).get f = s.get f := by
  have hfold : ∀ (l : List (Flux.Stat × Nat)) (t : State) (off : Nat), (l.foldl (fun (t, off) (b, i) =>
      let e := (fun _ => base) off + i % 4
      (((((((t.count64 (Reg.flxRawLo e) (Reg.flxRawHi e) b.raw).count64 (Reg.flxCodedLo e) (Reg.flxCodedHi e) b.coded).count
        (Reg.flxStored e) (b2n b.stored)).count (Reg.flxNanBlocks e) b.nan).count (Reg.flxSat e) b.sat).count
        (Reg.flxDecodeErr e) (b2n b.err)), off + b.coded)) (t, off)).1.get f = t.get f := by
    intro l
    induction l with
    | nil => exact fun t off => rfl
    | cons a r ih =>
      intro t off
      refine (ih _ _).trans ?_
      unfold count count64 put64
      have hi : a.2 % 4 < 4 := Nat.mod_lt _ (by decide)
      iterate 8
        refine (get_put_ne _ _ ?_).trans ?_
        · simp only [Reg.flxRawLo, Reg.flxRawHi, Reg.flxCodedLo, Reg.flxCodedHi, Reg.flxStored, Reg.flxNanBlocks, Reg.flxSat,
            Reg.flxDecodeErr, fld_key]
          omega
      rfl
  exact hfold l.zipIdx s 0

theorem sendHandover_routed (s : State) (dst channel mb chunk : Nat) (data : List Byte) :
    Routed s (s.sendHandover dst channel mb chunk data) := by
  unfold sendHandover
  generalize pieces data = l
  induction l generalizing s with
  | nil => exact .refl s
  | cons a r ih => exact (sendRouted_routed s _).trans (ih _)

theorem hand_setHand_same (s : State) (k : Nat) (h : Hand) : (s.setHand k h).hand k = h := by
  unfold hand setHand
  rw [Assoc.find?_put_same]

theorem hand_setHand_ne (s : State) {j k : Nat} (h : Hand) (hj : j ≠ k) : (s.setHand k h).hand j = s.hand j := by
  unfold hand setHand
  rw [Assoc.find?_put_ne _ _ hj]

theorem hand_of_hands {s t : State} (h : t.hands = s.hands) (k : Nat) : t.hand k = s.hand k := by
  unfold hand
  rw [h]

/-- The channel's state once a chunk has gone out for a credit (R178). -/
def chunkGone (h : Hand) : Hand := { h with credits := h.credits - 1, sent := h.sent + 1, transit := h.transit + 1 }

/-- A chunk that goes out changes its channel, counts its bytes in Flux, and sends messages. -/
theorem sendChunk_moves {s : State} {n : Nat} {x : Xfer} {ch : Channel} (h : channelAt s x.channel = some ch) :
    ∃ r, MovesCad { s.setHand x.channel (chunkGone (s.hand x.channel)) with regs := r } (s.sendChunk n x) ∧
      (ch.consDev = s.addr → (s.sendChunk n x).out =
        s.out ++ [.chunk x.channel x.mb x.chunk s.cad.attempt ((s.hearth (dieOf n)).readBytes x.haddr x.len)]) := by
  let u := s.setHand x.channel (chunkGone (s.hand x.channel))
  have hflux : ∃ r, (if (ch.consDev == s.addr && ch.mem == 1) = true then u.fluxPass (fluxBase n 2 (chunkAddr ch (s.hand x.channel).sent)) x.len
      else u) = { u with regs := r } := by
    split
    · exact fluxCount_frame ..
    · exact ⟨_, rfl⟩
  obtain ⟨r, hr⟩ := hflux
  have e : s.sendChunk n x = if (ch.consDev == s.addr) = true then
      ({ u with regs := r } : State).emit (.chunk x.channel x.mb x.chunk s.cad.attempt ((s.hearth (dieOf n)).readBytes x.haddr x.len))
      else ({ u with regs := r } : State).sendHandover ch.consDev x.channel x.mb x.chunk ((s.hearth (dieOf n)).readBytes x.haddr x.len) := by
    rw [← hr]
    unfold sendChunk
    rw [h]
    rfl
  rw [e]
  refine ⟨r, ?_, fun hc => ?_⟩
  · split
    · exact (Routed.emit _ _).toMovesCad
    · exact (sendHandover_routed ..).toMovesCad
  · rw [if_pos (beq_iff_eq.mpr hc)]
    rfl

end State

/-- The device after a SEND's chunk has gone: its channel, its core's transfer engine and its messages. -/
structure ChunkSent (s t : State) (n : Nat) (x : Xfer) : Prop where
  xfers : (t.core n).xfers = []
  bytes : SameBytes s t
  hand : t.hand x.channel = State.chunkGone (s.hand x.channel)
  hands : ∀ j, j ≠ x.channel → t.hand j = s.hand j
  others : ∀ k, k ≠ n → t.core k = s.core k
  out : ∀ ch, channelAt s x.channel = some ch → ch.consDev = s.addr → t.out =
    s.out ++ [.chunk x.channel x.mb x.chunk s.cad.attempt ((s.hearth (dieOf n)).readBytes x.haddr x.len)]
  rest : { t with regs := s.regs, cad := s.cad, cores := s.cores, hands := s.hands, caps := s.caps, captures := s.captures
                  ports := s.ports, faultQ := s.faultQ, out := s.out } = s

namespace State

theorem popXfer_frame {s : State} {n : Nat} {x : Xfer} {r : List Xfer} (h : (s.core n).xfers = x :: r) :
    ∃ q p, s.popXfer n = { s.setCore n (Core.complete { s.core n with xfers := r } x.segment) with caps := q, captures := p } := by
  unfold popXfer
  simp only [h]
  exact ⟨_, _, rfl⟩

/-- A SEND alone in its engine goes when its channel has a credit. -/
theorem pump_sends {s : State} {n : Nat} {x : Xfer} {ch : Channel} (hx : (s.core n).xfers = [x]) (hop : x.op = 0x61)
    (hc : channelAt s x.channel = some ch) (hcr : 0 < (s.hand x.channel).credits) : ChunkSent s (s.pump n) n x := by
  obtain ⟨r, hm, hout⟩ := sendChunk_moves (n := n) hc
  have hcore : ∀ k, (s.sendChunk n x).core k = s.core k := fun k => hm.core k
  have hxs : ((s.sendChunk n x).core n).xfers = x :: [] := by rw [hcore, hx]
  obtain ⟨q, p, hp⟩ := popXfer_frame hxs
  have e : s.pump n = (s.sendChunk n x).popXfer n := by
    unfold pump
    rw [hx]
    show s.pumpSends n 1 = _
    unfold pumpSends
    rw [hx]
    exact if_pos ⟨hop, hcr⟩
  have hhands : ((s.sendChunk n x).popXfer n).hands = (s.setHand x.channel (chunkGone (s.hand x.channel))).hands := by
    rw [hp]
    exact (congrArg State.hands hm.rest :)
  have hrest : { (s.sendChunk n x).popXfer n with
      regs := s.regs, cad := s.cad, cores := s.cores, hands := s.hands, caps := s.caps, captures := s.captures
      ports := s.ports, faultQ := s.faultQ, out := s.out } = s := by
    rw [hp]
    let kept : State → State := fun v => { v with
      regs := s.regs, cad := s.cad, cores := s.cores, hands := s.hands, caps := s.caps, captures := s.captures
      ports := s.ports, faultQ := s.faultQ, out := s.out }
    exact (congrArg kept hm.rest :)
  rw [e]
  refine ⟨?_, SameBytes.of_mems (congrArg State.hearth0 hrest :) (congrArg State.hearth1 hrest :) (congrArg State.hbm hrest :)
    (congrArg State.stock hrest :), ?_, fun j hj => ?_, fun k hk => ?_, fun ch' hch hcons => ?_, hrest⟩
  · rw [hp]
    exact congrArg Core.xfers (core_setCore_same ..)
  · exact (hand_of_hands hhands _).trans (hand_setHand_same ..)
  · exact (hand_of_hands hhands _).trans (hand_setHand_ne _ _ hj)
  · rw [hp]
    exact (core_setCore_ne _ _ hk).trans (hcore k)
  · obtain rfl : ch = ch' := Option.some.inj (hc.symm.trans hch)
    rw [hp]
    exact hout hcons

end State

/-- From `s` to `t` granules of HBM4 have been written: some are poisoned no longer, and a written part of one raises its fault (R29). -/
structure HbmTouches (s t : State) : Prop where
  regs : ∀ f : Fld, 0x1000000 * 32 ≤ f.key → t.get f = s.get f
  rest : { t with regs := s.regs, hbmPoison := s.hbmPoison, faultQ := s.faultQ } = s

namespace HbmTouches

theorem refl (s : State) : HbmTouches s s := ⟨fun _ _ => rfl, rfl⟩

theorem trans {r s t : State} (h : HbmTouches r s) (k : HbmTouches s t) : HbmTouches r t where
  regs f hf := (k.regs f hf).trans (h.regs f hf)
  rest := by
    let kept : State → State := fun v => { v with regs := r.regs, hbmPoison := r.hbmPoison, faultQ := r.faultQ }
    have hk : kept t = kept s := (congrArg kept k.rest :)
    exact hk.trans h.rest

theorem raise (s : State) (src kind cls addr : Nat) : HbmTouches s (s.raise src kind cls addr) where
  regs f hf := s.get_raise _ _ _ _
    (by have : Reg.fltDropped.key < 0x1000000 * 32 := by decide
        omega)
    (by have : Reg.fltStatusOvf.key < 0x1000000 * 32 := by decide
        omega)
  rest := by
    rw [s.raise_upd]

theorem countPoison (s : State) {k : Nat} (hk : k < 8) : HbmTouches s (s.countPoison k) where
  regs f hf := by
    unfold State.countPoison
    refine State.get_put_ne _ _ ?_
    simp only [Reg.hbmPoisonCount, fld_key]
    omega
  rest := rfl

theorem foldl {α : Type} {l : List α} {f : State → α → State} (h : ∀ a ∈ l, ∀ t, HbmTouches t (f t a)) (s : State) :
    HbmTouches s (l.foldl f s) := by
  induction l generalizing s with
  | nil => exact .refl s
  | cons a r ih => exact (h a List.mem_cons_self s).trans (ih (fun b hb => h b (List.mem_cons_of_mem _ hb)) _)

theorem hbmTouched (s : State) (a len : Nat) : HbmTouches s (s.hbmTouched a len) := by
  unfold State.hbmTouched
  extract_lets hit full part s1 s2
  split
  · exact .refl s
  · have h1 : HbmTouches s s1 := ⟨fun _ _ => rfl, rfl⟩
    have h2 : HbmTouches s1 s2 := .foldl (fun k hk t => .countPoison t (List.mem_range.mp hk)) s1
    exact (h1.trans h2).trans (.foldl (fun g _ t => .raise t _ _ _ _) s2)

end HbmTouches

namespace State

theorem memOf_hearthNo (s : State) (d : Nat) : s.memOf (hearthNo d) = s.hearth d := by
  unfold memOf hearthNo hearth
  by_cases h : d = 0 <;> simp [h]

theorem memOf_setHearth_ne (s : State) {k d : Nat} (m : Memory) (h : k ≠ hearthNo d) : (s.setHearth d m).memOf k = s.memOf k := by
  unfold memOf setHearth hearthNo at *
  by_cases hd : d = 0
  · simp only [hd, if_true] at h ⊢
    simp [h]
  · simp only [hd, if_false] at h ⊢
    simp [h]

theorem memOf_setHearth_same (s : State) (d : Nat) (m : Memory) : (s.setHearth d m).memOf (hearthNo d) = m := by
  rw [memOf_hearthNo, hearth_setHearth_same]

/-- The memories of a state whose other parts have changed. -/
theorem memOf_of_mems {s t : State} (h0 : t.hearth0 = s.hearth0) (h1 : t.hearth1 = s.hearth1) (hb : t.hbm = s.hbm)
    (hs : t.stock = s.stock) (k : Nat) : t.memOf k = s.memOf k := by
  unfold memOf
  rw [h0, h1, hb, hs]

end State

/-- A byte outside those written. -/
theorem Memory.read_writeBytes_out (m : Memory) {a x : Nat} (l : List Byte) (h : ¬ Within x a l.length) : (m.writeBytes a l).read x = m.read x := by
  rcases Nat.lt_or_ge x a with hx | hx
  · exact m.read_writeBytes_of_lt l a x hx
  · exact m.read_writeBytes_of_ge l a x (Nat.le_of_not_lt fun hlt => h ⟨hx, hlt⟩)

/-- What a chunk that lands leaves in the memories: its bytes in its slot, and every other byte. -/
structure Stored (s t : State) (mem a : Nat) (bs : List Byte) : Prop where
  read : (t.memOf mem).readBytes a bs.length = bs
  same : SameBytesBut (fun m x => m = mem ∧ Within x a bs.length) s t

/-- Bytes written to one memory, the others as they were. -/
theorem Stored.of_write {s t : State} {mem a : Nat} {bs : List Byte} (hm : t.memOf mem = (s.memOf mem).writeBytes a bs)
    (hk : ∀ k, k ≠ mem → t.memOf k = s.memOf k) : Stored s t mem a bs where
  read := by
    rw [hm]
    exact Memory.readBytes_writeBytes_same ..
  same k x _ hx := by
    by_cases hkm : k = mem
    · subst hkm
      rw [hm]
      exact Memory.read_writeBytes_out _ _ fun hw => hx ⟨rfl, hw⟩
    · rw [hk k hkm]

namespace State

/-- A chunk is in its slot (R179). -/
def chunkStored (s : State) (k : Nat) (ch : Channel) (bs : List Byte) (h : Hand) : State :=
  let a := chunkAddr ch (s.hand k).landed
  let s1 := s.setHand k h
  if ch.mem = 0 then s1.setHearth (slotDie s ch) ((s1.hearth (slotDie s ch)).writeBytes a bs)
  else (if ch.prodDev == s.addr then s1 else s1.fluxPass (groupBase (slotDie s ch) 0 2 a) bs.length).writeHbm a bs

section
variable (s : State) (k : Nat) (ch : Channel) (bs : List Byte) (h : Hand)

/-- The channel's state with the chunk's bytes counted in Flux where they come from another device (R238). -/
def chunkCounted : State :=
  if ch.prodDev == s.addr then s.setHand k h
  else (s.setHand k h).fluxPass (groupBase (slotDie s ch) 0 2 (chunkAddr ch (s.hand k).landed)) bs.length

theorem chunkCounted_frame : ∃ r, s.chunkCounted k ch bs h = { s.setHand k h with regs := r } := by
  unfold chunkCounted
  split
  · exact ⟨_, rfl⟩
  · exact fluxCount_frame ..

theorem get_chunkCounted {x : Fld} (hx : (0x1000000 + 0x10000 * s.rank0 ch.consGang) * 32 ≤ x.key) :
    (s.chunkCounted k ch bs h).get x = s.get x := by
  unfold chunkCounted
  split
  · rfl
  · refine (get_fluxCount _ _ (.inr ?_)).trans rfl
    have hb : ∀ d far, groupBase d 0 2 far ≤ 8 * d + 4 := fun d far => by
      have : stackOf far % 4 / 2 ≤ 1 := by omega
      unfold groupBase
      simp only [if_true]
      omega
    have := hb (slotDie s ch) (chunkAddr ch (s.hand k).landed)
    unfold slotDie dieOf at *
    omega

theorem chunkStored_hearth (hm : ch.mem = 0) : s.chunkStored k ch bs h = (s.setHand k h).setHearth (slotDie s ch)
    (((s.setHand k h).hearth (slotDie s ch)).writeBytes (chunkAddr ch (s.hand k).landed) bs) := if_pos hm

theorem chunkStored_hbm (hm : ch.mem ≠ 0) : HbmTouches
    { s.chunkCounted k ch bs h with hbm := s.hbm.writeBytes (chunkAddr ch (s.hand k).landed) bs } (s.chunkStored k ch bs h) := by
  have e : s.chunkStored k ch bs h = (s.chunkCounted k ch bs h).writeHbm (chunkAddr ch (s.hand k).landed) bs := if_neg hm
  obtain ⟨r, hr⟩ := s.chunkCounted_frame k ch bs h
  rw [e, hr]
  exact .hbmTouched ..

theorem chunkStored_frame : ∃ r h0 h1 hb p q, s.chunkStored k ch bs h = { s.setHand k h with
    regs := r, hearth0 := h0, hearth1 := h1, hbm := hb, hbmPoison := p, faultQ := q } := by
  by_cases hm : ch.mem = 0
  · rw [chunkStored_hearth _ _ _ _ _ hm]
    obtain ⟨h0, h1, e⟩ := (s.setHand k h).setHearth_frame (slotDie s ch)
      (((s.setHand k h).hearth (slotDie s ch)).writeBytes (chunkAddr ch (s.hand k).landed) bs)
    rw [e]
    exact ⟨_, _, _, _, _, _, rfl⟩
  · have hrest := (chunkStored_hbm s k ch bs h hm).rest
    obtain ⟨r, hr⟩ := s.chunkCounted_frame k ch bs h
    rw [hr] at hrest
    generalize s.chunkStored k ch bs h = t at hrest
    exact ⟨t.regs, t.hearth0, t.hearth1, t.hbm, t.hbmPoison, t.faultQ, (congrArg (fun v : State => { v with
      regs := t.regs, hearth0 := t.hearth0, hearth1 := t.hearth1, hbm := t.hbm, hbmPoison := t.hbmPoison, faultQ := t.faultQ }) hrest :)⟩

theorem get_chunkStored {x : Fld} (hx : (0x1000000 + 0x10000 * s.rank0 ch.consGang) * 32 ≤ x.key) :
    (s.chunkStored k ch bs h).get x = s.get x := by
  by_cases hm : ch.mem = 0
  · rw [chunkStored_hearth _ _ _ _ _ hm]
    obtain ⟨h0, h1, e⟩ := (s.setHand k h).setHearth_frame (slotDie s ch)
      (((s.setHand k h).hearth (slotDie s ch)).writeBytes (chunkAddr ch (s.hand k).landed) bs)
    rw [e]
    rfl
  · exact ((chunkStored_hbm s k ch bs h hm).regs x (by omega)).trans (get_chunkCounted s k ch bs h hx)

theorem chunkStored_stored : Stored s (s.chunkStored k ch bs h) (if ch.mem = 0 then hearthNo (slotDie s ch) else 2)
    (chunkAddr ch (s.hand k).landed) bs := by
  by_cases hm : ch.mem = 0
  · rw [if_pos hm, chunkStored_hearth _ _ _ _ _ hm]
    refine .of_write ?_ fun j hj => ?_
    · rw [memOf_setHearth_same, memOf_hearthNo]
      rfl
    · rw [memOf_setHearth_ne _ _ hj]
      rfl
  · rw [if_neg hm]
    have hrest := (chunkStored_hbm s k ch bs h hm).rest
    obtain ⟨r, hr⟩ := s.chunkCounted_frame k ch bs h
    rw [hr] at hrest
    have hmem := memOf_of_mems (s := { s with hbm := s.hbm.writeBytes (chunkAddr ch (s.hand k).landed) bs })
      (congrArg State.hearth0 hrest :) (congrArg State.hearth1 hrest :) (congrArg State.hbm hrest :) (congrArg State.stock hrest :)
    refine .of_write (hmem 2) fun j hj => (hmem j).trans ?_
    unfold memOf
    simp only [hj, if_false]

end

end State

/-- A command that a transfer engine takes, alone in it. -/
theorem State.putXfer_core {s : State} {n : Nat} (hx : (s.core n).xfers = []) (x : Xfer) : ((s.putXfer n x).core n).xfers = [x] ∧
    ∀ k, k ≠ n → (s.putXfer n x).core k = s.core k := by
  have hrest := ({ s.core n with xfers := (s.core n).xfers ++ [x] } : Core).dispatch_rest
  unfold State.putXfer
  rw [State.core_setCore_same]
  refine ⟨(congrArg Core.xfers hrest).trans ?_, fun k hk => State.core_setCore_ne _ _ hk⟩
  rw [hx]
  rfl

/-- A channel's state is read through the billet alone. -/
theorem State.pump_still {s : State} {n : Nat} (h : ∀ x, (s.core n).xfers = [x] → ¬ (x.op = 0x61 ∧ 0 < (s.hand x.channel).credits))
    (hl : (s.core n).xfers.length ≤ 1) : s.pump n = s := by
  unfold State.pump
  match hx : (s.core n).xfers with
  | [] => rfl
  | [x] =>
    show s.pumpSends n 1 = s
    unfold State.pumpSends
    rw [hx]
    exact if_neg (h x hx)
  | _ :: _ :: _ =>
    rw [hx] at hl
    simp at hl

/-- A SEND that may start, alone in its engine. -/
theorem send_done {s : State} {n : Nat} {x : Xfer} {ch : Channel} (hxs : (s.core n).xfers = []) (hop : x.op = 0x61)
    (hch : channelAt s x.channel = some ch) :
    ((s.hand x.channel).credits = 0 → (s.putXfer n x).pump n = s.putXfer n x) ∧
    (0 < (s.hand x.channel).credits → ChunkSent s ((s.putXfer n x).pump n) n x) := by
  obtain ⟨hx, hne⟩ := State.putXfer_core hxs x
  refine ⟨fun hcr => ?_, fun hcr => ?_⟩
  · refine State.pump_still (fun y hy hcr' => ?_) (by rw [hx]; exact Nat.le_refl 1)
    obtain rfl : y = x := List.singleton_inj.mp (hy.symm.trans hx)
    have hc : (s.hand y.channel).credits ≠ 0 := Nat.pos_iff_ne_zero.mp hcr'.2
    exact hc hcr
  · have hsent := State.pump_sends (s := s.putXfer n x) hx hop hch hcr
    have hrest := hsent.rest
    generalize (s.putXfer n x).pump n = t at hsent hrest
    exact ⟨hsent.xfers, hsent.bytes, hsent.hand, hsent.hands, fun k hk => (hsent.others k hk).trans (hne k hk), hsent.out,
      (congrArg (fun v : State => { v with cores := s.cores }) hrest :)⟩

/-- A SEND is refused, waits for its source range, or goes to its engine. -/
theorem execSend_of {s : State} {n : Nat} {words : List Word} (htake : takesXfer s n 0x61 (natWords words) = true) :
    let x := xferOf s n (natWords words)
    exec (.send n words) s = if !xferOk s n (natWords words) then .next (s.refuseXfer n x.opid)
      else if (s.core n).mustWait x.reads [] then .next s
      else if !inHearth x.haddr x.len then .fault .hearthRange
      else .next ((s.putXfer n x).pump n) := by
  have e : exec (.send n words) s = execSend n words s := rfl
  rw [e, execSend, htake]
  rfl

/-- What a chunk does that reaches its consumer (R179). -/
theorem execChunkLanded_of {s : State} {k mb chunk attempt : Nat} {data : List Byte} {ch : Channel} (hch : channelAt s k = some ch)
    (hal : s.alive = true) (hcons : ch.consDev = s.addr) : exec (.chunkLanded k mb chunk attempt data) s =
    let h := s.hand k
    let r0 := s.rank0 ch.consGang
    let h1 := { h with transit := if ch.prodDev == s.addr then h.transit - 1 else h.transit }
    if attempt ≠ s.cad.attempt then .next (s.count (Reg.coreHoStale r0))
    else if ch.prodDev == s.addr && h.transit == 0 then .next s
    else if (channelOrder s k)[h.landed / ch.chunks]? = some mb ∧ chunk = h.landed % ch.chunks ∧ h.full.length + h.bad < ch.slots then
      if ch.mem = 0 ∧ inHearth (chunkAddr ch h.landed) (data.take ch.slotBytes).length = false then .fault .hearthRange
      else .next ((s.chunkStored k ch (data.take ch.slotBytes)
        { h1 with landed := h.landed + 1, full := h.full ++ [(h.landed % ch.slots, mb, chunk)] }).count (Reg.coreHoRx r0))
    else .next (((((s.setHand k { h1 with landed := h.landed + 1, bad := h.bad + 1 }).count (Reg.coreHoTagerr r0)).raise (srcIssue r0) 0x0D clsU
      (k % 2 ^ 16 + r0 * 2 ^ 32)).abortHold)) := by
  have hc0 : (!s.alive || ch.consDev != s.addr) = false := by
    rw [hal, hcons]
    simp
  have e : exec (.chunkLanded k mb chunk attempt data) s = execChunkLanded k mb chunk attempt data s := rfl
  rw [e, execChunkLanded, hch]
  simp only [hc0]
  rfl

/-- A chunk with the expected tag has landed (R179). -/
theorem chunkStored_done (s : State) (k : Nat) (ch : Channel) (bs : List Byte) (h : Hand) :
    let r0 := s.rank0 ch.consGang
    let mem := if ch.mem = 0 then hearthNo (slotDie s ch) else 2
    let a := chunkAddr ch (s.hand k).landed
    let t := (s.chunkStored k ch bs h).count (Reg.coreHoRx r0)
    t.hand k = h ∧ (∀ j, j ≠ k → t.hand j = s.hand j) ∧ (t.memOf mem).readBytes a bs.length = bs ∧
      SameBytesBut (fun m x => m = mem ∧ Within x a bs.length) s t ∧ Counted s t (Reg.coreHoRx r0) ∧
      { t with regs := s.regs, hands := s.hands, hearth0 := s.hearth0, hearth1 := s.hearth1, hbm := s.hbm
               hbmPoison := s.hbmPoison, faultQ := s.faultQ } = s := by
  intro r0 mem a t
  have hst := s.chunkStored_stored k ch bs h
  have hget : (s.chunkStored k ch bs h).get (Reg.coreHoRx r0) = s.get (Reg.coreHoRx r0) := by
    refine s.get_chunkStored k ch bs h ?_
    simp only [Reg.coreHoRx, fld_key, r0]
    omega
  obtain ⟨r, h0, h1, hb, p, q, e⟩ := s.chunkStored_frame k ch bs h
  have hhands : t.hands = (s.setHand k h).hands := (congrArg State.hands e :)
  refine ⟨(State.hand_of_hands hhands k).trans (State.hand_setHand_same ..), fun j hj => (State.hand_of_hands hhands j).trans
    (State.hand_setHand_ne _ _ hj), hst.read, hst.same, ?_, ?_⟩
  · have hc := State.count_counted (s.chunkStored k ch bs h) (f := Reg.coreHoRx r0) (Nat.succ_pos 31)
    unfold Counted at hc ⊢
    rwa [hget] at hc
  · exact (congrArg (fun v : State => { v with
      regs := s.regs, hands := s.hands, hearth0 := s.hearth0, hearth1 := s.hearth1, hbm := s.hbm, hbmPoison := s.hbmPoison
      faultQ := s.faultQ }) e :)

/-- A chunk with another tag has landed: its slot is full, and is not read. -/
theorem chunkRefused_done (s : State) (k r0 : Nat) (h : Hand) :
    let t := (((s.setHand k h).count (Reg.coreHoTagerr r0)).raise (srcIssue r0) 0x0D clsU (k % 2 ^ 16 + r0 * 2 ^ 32)).abortHold
    t.hand k = h ∧ (∀ j, j ≠ k → t.hand j = s.hand j) ∧ Counted s t (Reg.coreHoTagerr r0) ∧
      Raised s t (srcIssue r0) 0x0D clsU (k % 2 ^ 16 + r0 * 2 ^ 32) ∧ HoldsNext s t reasonAbort ∧ SameRegsOut [Reg.coreHoTagerr r0] s t ∧
      { t with regs := s.regs, cad := s.cad, hands := s.hands, ports := s.ports, faultQ := s.faultQ, out := s.out } = s := by
  intro t
  let u := (s.setHand k h).count (Reg.coreHoTagerr r0)
  have hfq : u.faultQ = s.faultQ := rfl
  have hcad : u.cad = s.cad := rfl
  have hkey : 0x1000000 * 32 ≤ (Reg.coreHoTagerr r0).key := by
    simp only [Reg.coreHoTagerr, fld_key]
    omega
  obtain ⟨hraised, hholds, hm⟩ := State.raise_wantHold hfq hcad (srcIssue r0) 0x0D clsU (k % 2 ^ 16 + r0 * 2 ^ 32) reasonAbort
  have hregs : SameRegsOut [Reg.coreHoTagerr r0] s u := SameRegsOut.count (SameRegsOut.of_regs (s := s) rfl) (by simp) 1
  have hhands : t.hands = (s.setHand k h).hands := (congrArg State.hands hm.rest :)
  refine ⟨(State.hand_of_hands hhands k).trans (State.hand_setHand_same ..), fun j hj => (State.hand_of_hands hhands j).trans
    (State.hand_setHand_ne _ _ hj), ?_, hraised, hholds, hregs.trans (hm.regs.mono (List.nil_subset _)), ?_⟩
  · exact (hm.regs.get_core hkey (by simp)).trans (State.count_counted (s.setHand k h) (f := Reg.coreHoTagerr r0) (Nat.succ_pos 31))
  · exact (congrArg (fun v : State => { v with
      regs := s.regs, cad := s.cad, hands := s.hands, ports := s.ports, faultQ := s.faultQ, out := s.out }) hm.rest :)

/-- The engines that no SEND waits in stay as they are. -/
theorem pumps_still {s : State} {l : List Nat} (h : ∀ n ∈ l, (s.core n).xfers = []) : l.foldl State.pump s = s := by
  induction l with
  | nil => rfl
  | cons n r ih =>
    have hn := h n List.mem_cons_self
    rw [List.foldl_cons, State.pump_still (fun x hx => by rw [hn] at hx; cases hx) (by rw [hn]; exact Nat.zero_le 1)]
    exact ih fun m hm => h m (List.mem_cons_of_mem _ hm)

/-- Of the engines of a gang one alone has a SEND, which goes. -/
theorem pumps_sends {s : State} {n : Nat} {x : Xfer} {ch : Channel} (hx : (s.core n).xfers = [x]) (hop : x.op = 0x61)
    (hc : channelAt s x.channel = some ch) (hcr : 0 < (s.hand x.channel).credits) (hne : ∀ m, m ≠ n → (s.core m).xfers = [])
    {l : List Nat} (hl : n ∈ l) : ChunkSent s (l.foldl State.pump s) n x := by
  induction l with
  | nil => cases hl
  | cons m r ih =>
    rw [List.foldl_cons]
    by_cases hm : m = n
    · subst hm
      have hsent := State.pump_sends hx hop hc hcr
      rw [pumps_still fun k _ => ?_]
      · exact hsent
      · by_cases hk : k = m
        · rw [hk]
          exact hsent.xfers
        · rw [hsent.others k hk]
          exact hne k hk
    · have hm' := hne m hm
      rw [State.pump_still (fun y hy => by rw [hm'] at hy; cases hy) (by rw [hm']; exact Nat.zero_le 1)]
      exact ih ((List.mem_cons.mp hl).resolve_left (Ne.symm hm))

/-- The cores of a channel's producer gang, whose engines a credit may let go on. -/
def prodCores (s : State) (ch : Channel) : List Nat :=
  match s.billet with
  | some b => match gangBy b ch.prodGang with
    | some g => (List.range 192).filter (fun n => (gangCores g).contains n)
    | none => []
  | none => []

theorem execHoCredit_of {s : State} {k : Nat} {ch : Channel} (hch : channelAt s k = some ch) (hal : s.alive = true)
    (hprod : ch.prodDev = s.addr) (hfly : ch.consDev = s.addr → (s.hand k).flying ≠ 0) (hcr : (s.hand k).credits < ch.slots) :
    exec (.hoCredit k) s = .next ((prodCores s ch).foldl State.pump (s.setHand k
      (if ch.consDev = s.addr then { s.hand k with credits := (s.hand k).credits + 1, flying := (s.hand k).flying - 1 }
       else { s.hand k with credits := (s.hand k).credits + 1, transit := (s.hand k).transit - 1 }))) := by
  have hc0 : (!s.alive || ch.prodDev != s.addr || (ch.consDev == s.addr && (s.hand k).flying == 0) ||
      decide (ch.slots ≤ (s.hand k).credits)) = false := by
    rw [hal, hprod]
    simp only [Bool.not_true, bne_self_eq_false, Bool.or_self, Bool.false_or, Bool.or_eq_false_iff, Bool.and_eq_false_iff,
      beq_eq_false_iff_ne, decide_eq_false_iff_not, Nat.not_le]
    exact ⟨by_cases (fun h => .inr (hfly h)) .inl, hcr⟩
  have e : exec (.hoCredit k) s = execHoCredit k s := rfl
  rw [e, execHoCredit, hch]
  simp only [hc0]
  simp only [beq_iff_eq]
  rfl

/-- Settles O34: the send at the head of its engine, the chunk by its tag, and the credit that comes back. -/
theorem handoverMovesChunks : Obligations.HandoverMovesChunks := by
  intro s
  refine ⟨?_, ?_, ?_⟩
  · intro n words hn ws x c htake
    have hop : x.op = 0x61 := by
      simp only [takesXfer, Bool.and_eq_true, beq_iff_eq] at htake
      exact htake.2
    have e := execSend_of htake
    refine ⟨fun hok => ⟨_, e.trans (if_pos (by rw [hok]; rfl)), s.refuseCmd_refused ..⟩, fun hok hw => ?_, fun ch hok hw hin hxs hch => ?_⟩
    · exact e.trans ((if_neg (by rw [hok]; decide)).trans (if_pos hw))
    · replace e := e.trans ((if_neg (by rw [hok]; decide)).trans ((if_neg (by rw [Bool.not_eq_true]; exact hw)).trans
        (if_neg (by rw [hin]; decide))))
      obtain ⟨hwaits, hsends⟩ := send_done hxs hop hch
      refine ⟨fun hcr => ?_, fun hcr => ?_⟩
      · rw [hwaits hcr] at e
        obtain ⟨hx, hne⟩ := State.putXfer_core hxs x
        exact ⟨_, e, hx, hne, rfl⟩
      · have hs := hsends hcr
        exact ⟨_, e, hs.xfers, hs.bytes, hs.hand, hs.hands, hs.others, hs.out ch hch, hs.rest⟩
  · intro k mb chunk attempt data ch hch hal hcons h r0 slot a bs mem transit right
    have e := execChunkLanded_of (mb := mb) (chunk := chunk) (attempt := attempt) (data := data) hch hal hcons
    refine ⟨fun ha => e.trans (if_pos ha), fun ha htr => ?_⟩
    have hc1 : ¬ (ch.prodDev == s.addr && (s.hand k).transit == 0) = true := by
      simp only [Bool.and_eq_true, beq_iff_eq, not_and]
      exact htr
    have htrans : (if (ch.prodDev == s.addr) = true then h.transit - 1 else h.transit) = transit := by
      simp only [transit, beq_iff_eq]
    replace e := e.trans ((if_neg (not_not.mpr ha)).trans (if_neg hc1))
    refine ⟨fun hr hin => ?_, fun hr => ?_⟩
    · replace e := e.trans ((if_pos hr).trans (if_neg fun hbad => Bool.noConfusion ((hin hbad.1).symm.trans hbad.2)))
      exact ⟨_, e, htrans ▸ chunkStored_done s k ch bs _⟩
    · exact ⟨_, e.trans (if_neg hr), htrans ▸ chunkRefused_done s k r0 _⟩
  · intro k ch hch hal hprod hfly hcr h back
    have e := execHoCredit_of hch hal hprod hfly hcr
    refine ⟨fun hx => ?_, fun b g n x hb hg hmem hn hx hop hxk hzero hne => ?_⟩
    · rw [pumps_still fun n _ => ?_] at e
      · exact ⟨_, e, State.hand_setHand_same .., fun j hj => State.hand_setHand_ne _ _ hj, rfl⟩
      · exact hx n
    · subst hxk
      have hback : (s.setHand x.channel back).hand x.channel = back := State.hand_setHand_same ..
      have hone : back.credits = 1 := by
        unfold back
        split <;> exact congrArg (· + 1) hzero
      have hl : n ∈ prodCores s ch := by
        unfold prodCores
        rw [hb]
        dsimp only
        rw [hg]
        exact List.mem_filter.mpr ⟨List.mem_range.mpr hn, by simpa using hmem⟩
      have hs := pumps_sends (s := s.setHand x.channel back) hx hop hch (by rw [hback, hone]; decide) hne hl
      refine ⟨_, e, hs.xfers, ?_, hs.bytes⟩
      have hsent : back.sent = h.sent := by
        unfold back
        split <;> rfl
      rw [hs.hand, hback]
      unfold State.chunkGone
      rw [hone, hsent]

end Sys2Proof.Machine
end

section
/-! SUPPORT. Proofs: the decoded blocks of a transfer land one after another, and in its range alone (R238 to R245). -/
namespace Sys2Proof.Machine

/-- From `s` to `t` the byte-moving parts of the device have changed: registers, faults, poisoned granules, what the Cadence and the
ports send, and the buckets' counts; every other part but the memories is as it was. -/
structure MovesBytes (s t : State) : Prop where
  rest : { t with regs := s.regs, cad := s.cad, hearth0 := s.hearth0, hearth1 := s.hearth1, hbm := s.hbm, stock := s.stock
                  hbmPoison := s.hbmPoison, stockPoison := s.stockPoison, bucketFill := s.bucketFill, ports := s.ports
                  faultQ := s.faultQ, out := s.out } = s

/-- And the memories are too. -/
structure Quiet (s t : State) : Prop extends MovesBytes s t where
  mem : ∀ k, t.memOf k = s.memOf k

namespace MovesBytes

theorem refl (s : State) : MovesBytes s s := ⟨rfl⟩

theorem trans {r s t : State} (h : MovesBytes r s) (k : MovesBytes s t) : MovesBytes r t := by
  let kept : State → State := fun v => { v with
    regs := r.regs, cad := r.cad, hearth0 := r.hearth0, hearth1 := r.hearth1, hbm := r.hbm, stock := r.stock
    hbmPoison := r.hbmPoison, stockPoison := r.stockPoison, bucketFill := r.bucketFill, ports := r.ports
    faultQ := r.faultQ, out := r.out }
  have e : kept t = kept s := (congrArg kept k.rest :)
  exact ⟨e.trans h.rest⟩

theorem core {s t : State} (h : MovesBytes s t) (n : Nat) : t.core n = s.core n := (congrArg (fun v : State => v.core n) h.rest :)

theorem setHearth (s : State) (d : Nat) (m : Memory) : MovesBytes s (s.setHearth d m) := by
  obtain ⟨h0, h1, e⟩ := s.setHearth_frame d m
  rw [e]
  exact ⟨rfl⟩

end MovesBytes

namespace Quiet

theorem refl (s : State) : Quiet s s := ⟨.refl s, fun _ => rfl⟩

theorem trans {r s t : State} (h : Quiet r s) (k : Quiet s t) : Quiet r t :=
  ⟨h.toMovesBytes.trans k.toMovesBytes, fun j => (k.mem j).trans (h.mem j)⟩

theorem foldl {α : Type} {l : List α} {f : State → α → State} (h : ∀ a ∈ l, ∀ t, Quiet t (f t a)) (s : State) : Quiet s (l.foldl f s) := by
  induction l generalizing s with
  | nil => exact .refl s
  | cons a r ih => exact (h a List.mem_cons_self s).trans (ih (fun b hb => h b (List.mem_cons_of_mem _ hb)) _)

theorem of_movesCad {s t : State} (h : MovesCad s t) : Quiet s t where
  rest := by
    let kept : State → State := fun v => { v with
      regs := s.regs, cad := s.cad, hearth0 := s.hearth0, hearth1 := s.hearth1, hbm := s.hbm, stock := s.stock
      hbmPoison := s.hbmPoison, stockPoison := s.stockPoison, bucketFill := s.bucketFill, ports := s.ports
      faultQ := s.faultQ, out := s.out }
    exact (congrArg kept h.rest :)
  mem := State.memOf_of_mems (congrArg State.hearth0 h.rest :) (congrArg State.hearth1 h.rest :) (congrArg State.hbm h.rest :)
    (congrArg State.stock h.rest :)

theorem of_touches {s t : State} (h : HbmTouches s t) : Quiet s t where
  rest := by
    let kept : State → State := fun v => { v with
      regs := s.regs, cad := s.cad, hearth0 := s.hearth0, hearth1 := s.hearth1, hbm := s.hbm, stock := s.stock
      hbmPoison := s.hbmPoison, stockPoison := s.stockPoison, bucketFill := s.bucketFill, ports := s.ports
      faultQ := s.faultQ, out := s.out }
    exact (congrArg kept h.rest :)
  mem := State.memOf_of_mems (congrArg State.hearth0 h.rest :) (congrArg State.hearth1 h.rest :) (congrArg State.hbm h.rest :)
    (congrArg State.stock h.rest :)

theorem raise (s : State) (src kind cls addr : Nat) : Quiet s (s.raise src kind cls addr) := .of_movesCad (Routed.raise ..).toMovesCad

theorem fluxCountAt (s : State) (base : Nat → Nat) (l : List Flux.Stat) : Quiet s (s.fluxCountAt base l) := by
  obtain ⟨r, e⟩ := s.fluxCountAt_frame base l
  rw [e]
  exact ⟨⟨rfl⟩, fun _ => rfl⟩

theorem stockTouched (s : State) (a len : Nat) : Quiet s (s.stockTouched a len) := by
  unfold State.stockTouched
  extract_lets hit full part
  split
  · exact .refl s
  · refine Quiet.trans ?_ (.foldl (fun g _ t => .raise t _ _ _ _) _)
    exact ⟨⟨rfl⟩, fun _ => rfl⟩

theorem hbmChecks (s : State) (a len : Nat) (l : List EccRes) : Quiet s (s.hbmChecks a len l) := by
  refine .foldl (fun e _ t => ?_) s
  unfold State.hbmCheck
  dsimp only
  split
  · exact .refl t
  · split
    all_goals
      refine Quiet.trans ?_ (.raise _ _ _ _ _)
      exact ⟨⟨rfl⟩, fun _ => rfl⟩

theorem stockChecks (s : State) (a len : Nat) (l : List EccRes) : Quiet s (s.stockChecks a len l) := by
  refine .foldl (fun e _ t => ?_) s
  unfold State.stockCheck
  dsimp only
  split
  · exact .refl t
  · split
    all_goals
      refine Quiet.trans ?_ (.raise _ _ _ _ _)
      exact ⟨⟨rfl⟩, fun _ => rfl⟩

theorem fillBuckets (s : State) (a len : Nat) : Quiet s (s.fillBuckets a len) := by
  unfold State.fillBuckets
  split
  · exact .refl s
  · refine .foldl (fun p _ t => ?_) s
    dsimp only
    split
    · exact .refl t
    · split
      · exact (Quiet.raise t _ _ _ _).trans (.of_movesCad (State.wantHold_movesCad _ _))
      · exact ⟨⟨rfl⟩, fun _ => rfl⟩

end Quiet

theorem Memory.read_poison (m : Memory) (a len x : Nat) : (m.poison a len).read x = m.read x := by
  induction len generalizing m a with
  | zero => rfl
  | succ k ih => exact (ih _ _).trans rfl

/-- The Hearth of a die after one decoded block, which poisons its bytes where it has none (R29, R244). -/
def landOne (m : Memory) (a : Nat) (b : Flux.Block) : Memory :=
  match b.data with
  | some d => m.writeBytes a (d.map (BitVec.ofNat 8))
  | none => m.poison a b.len

/-- A block that holds no more bytes than it stands for. -/
def Flux.Block.Fits (b : Flux.Block) : Prop := ∀ d, b.data = some d → d.length ≤ b.len

theorem read_landOne {m : Memory} {a x : Nat} {b : Flux.Block} (hb : b.Fits) (h : ¬ Within x a b.len) : (landOne m a b).read x = m.read x := by
  unfold landOne
  split
  next d hd =>
    refine Memory.read_writeBytes_out _ _ fun hw => h ⟨hw.1, Nat.lt_of_lt_of_le hw.2 ?_⟩
    rw [List.length_map]
    exact Nat.add_le_add_left (hb d hd) a
  next => exact Memory.read_poison ..

/-- The Hearth of a die after a list of decoded blocks. -/
def landAll (m : Memory) (a : Nat) : List Flux.Block → Memory
  | [] => m
  | b :: r => landAll (landOne m a b) (a + b.len) r

theorem read_landAll {m : Memory} {a x : Nat} {l : List Flux.Block} (hl : ∀ b ∈ l, b.Fits)
    (h : ¬ Within x a (l.map Flux.Block.len).sum) : (landAll m a l).read x = m.read x := by
  induction l generalizing m a with
  | nil => rfl
  | cons b r ih =>
    simp only [List.map_cons, List.sum_cons, Within, not_and, Nat.not_lt] at h
    refine (ih (fun c hc => hl c (List.mem_cons_of_mem _ hc)) fun hw => ?_).trans (read_landOne (hl b List.mem_cons_self) fun hw => ?_)
    · have := h (by omega)
      omega
    · have := h hw.1
      omega

namespace State

/-- One decoded block lands, with its fault (R244). -/
def landStep (die : Nat) (base far : Nat → Nat) (p : State × Nat) (q : Flux.Block × Nat) : State × Nat :=
  let t1 := p.1.setHearth die (landOne (p.1.hearth die) p.2 q.1)
  (if q.1.stat.err then t1.raise (srcFlx (base q.1.off + q.2 % 4)) 0x1C clsU (far q.1.off) else t1, p.2 + q.1.len)

theorem landBlocks_eq (s : State) (die : Nat) (base : Nat → Nat) (addr : Nat) (far : Nat → Nat) (l : List Flux.Block) :
    s.landBlocks die base addr far l = (l.zipIdx.foldl (landStep die base far) (s, addr)).1.fluxCountAt base (l.map Flux.Block.stat) := rfl

/-- Each block lands in one die's Hearth, and in no other memory. -/
theorem landSteps (die : Nat) (base far : Nat → Nat) (l : List Flux.Block) (s : State) (addr i : Nat) :
    MovesBytes s ((l.zipIdx i).foldl (landStep die base far) (s, addr)).1 ∧
    ((l.zipIdx i).foldl (landStep die base far) (s, addr)).1.memOf (hearthNo die) = landAll (s.memOf (hearthNo die)) addr l ∧
    ∀ k, k ≠ hearthNo die → ((l.zipIdx i).foldl (landStep die base far) (s, addr)).1.memOf k = s.memOf k := by
  induction l generalizing s addr i with
  | nil => exact ⟨.refl s, rfl, fun _ _ => rfl⟩
  | cons b r ih =>
    let t1 := s.setHearth die (landOne (s.hearth die) addr b)
    let t2 := if b.stat.err then t1.raise (srcFlx (base b.off + i % 4)) 0x1C clsU (far b.off) else t1
    have hq : Quiet t1 t2 := by
      unfold t2
      split
      · exact .raise ..
      · exact .refl _
    obtain ⟨hm, hh, ho⟩ := ih t2 (addr + b.len) (i + 1)
    rw [List.zipIdx_cons, List.foldl_cons]
    refine ⟨((MovesBytes.setHearth s die _).trans hq.toMovesBytes).trans hm, hh.trans ?_, fun k hk => (ho k hk).trans ?_⟩
    · rw [hq.mem, memOf_setHearth_same, memOf_hearthNo]
      rfl
    · rw [hq.mem, memOf_setHearth_ne _ _ hk]

theorem landBlocks_lands (s : State) (die : Nat) (base : Nat → Nat) (addr : Nat) (far : Nat → Nat) (l : List Flux.Block) :
    MovesBytes s (s.landBlocks die base addr far l) ∧
    (s.landBlocks die base addr far l).memOf (hearthNo die) = landAll (s.memOf (hearthNo die)) addr l ∧
    ∀ k, k ≠ hearthNo die → (s.landBlocks die base addr far l).memOf k = s.memOf k := by
  rw [landBlocks_eq]
  obtain ⟨hm, hh, ho⟩ := landSteps die base far l s addr 0
  have hq := Quiet.fluxCountAt (l.zipIdx.foldl (landStep die base far) (s, addr)).1 base (l.map Flux.Block.stat)
  exact ⟨hm.trans hq.toMovesBytes, (hq.mem _).trans hh, fun k hk => (hq.mem k).trans (ho k hk)⟩

end State

namespace Flux

/-- The blocks of 4,096 bytes that a length is cut into add up to it. -/
theorem sum_cut (len c : Nat) : ((List.range c).map (fun k => min 4096 (len - 4096 * k))).sum = min (4096 * c) len := by
  induction c with
  | zero => simp
  | succ c ih =>
    rw [List.range_succ, List.map_append, List.sum_append, ih]
    simp only [List.map_cons, List.map_nil, List.sum_cons, List.sum_nil]
    omega

/-- Blocks that are coded losslessly hold no more than is wanted. -/
theorem decodeBlocks_fits (bad : Nat → Nat → Bool) (f want off : Nat) (l : List Nat) :
    (∀ b ∈ decodeBlocks bad f want off l, b.Fits) ∧ ((decodeBlocks bad f want off l).map Block.len).sum ≤ want := by
  induction f generalizing want off l with
  | zero => exact ⟨by simp [decodeBlocks], by simp [decodeBlocks]⟩
  | succ f ih =>
    unfold decodeBlocks
    split
    · exact ⟨by simp, by simp⟩
    · split
      · refine ⟨fun b hb => ?_, by simp⟩
        rw [List.mem_singleton.mp hb]
        exact fun d hd => by cases hd
      · extract_lets h full rawLen wc w stored coded body raw poison blk
        have hraw : ∀ d, raw = some d → d.length ≤ rawLen := fun d hd => by
          unfold raw at hd
          split at hd
          · cases hd
          · split at hd
            · split at hd
              · rw [← Option.some.inj hd]
                exact List.length_take_le ..
              · cases hd
            · obtain ⟨e, -, rfl⟩ := Option.map_eq_some_iff.mp hd
              exact List.length_take_le ..
        have hblk : blk.Fits ∧ blk.len = rawLen := by
          unfold blk
          split
          · exact ⟨fun d hd => (by cases hd), rfl⟩
          · exact ⟨hraw, rfl⟩
        obtain ⟨hfits, hsum⟩ := ih (want - rawLen) (off + 4 + coded) (l.drop (4 + coded))
        refine ⟨fun b hb => ?_, ?_⟩
        · rcases List.mem_cons.mp hb with rfl | hb
          · exact hblk.1
          · exact hfits b hb
        · rw [List.map_cons, List.sum_cons, hblk.2]
          have : rawLen ≤ want := Nat.min_le_left ..
          omega

theorem planeWidth_cases (f : Nat) : planeWidth f = 1 ∨ planeWidth f = 2 ∨ planeWidth f = 4 := by
  unfold planeWidth
  split
  · simp
  · split <;> simp

theorem length_flatMap_leBytes {α : Type} (l : List α) (w : Nat) (v : α → Nat) :
    (l.flatMap (fun c => (leBytes w (v c)).map BitVec.toNat)).length = l.length * w := by
  induction l with
  | nil => simp
  | cons a r ih =>
    rw [List.flatMap_cons, List.length_append, ih, List.length_map, length_leBytes, List.length_cons]
    ring

theorem decode_fits (bad : Nat → Nat → Bool) (mode srcFmt len : Nat) (coded : List Nat) :
    (∀ b ∈ decode bad mode srcFmt len coded, b.Fits) ∧ ((decode bad mode srcFmt len coded).map Block.len).sum ≤ len := by
  unfold decode
  split
  · exact decodeBlocks_fits ..
  · refine ⟨fun b hb => ?_, ?_⟩
    · obtain ⟨k, hk, rfl⟩ := List.mem_map.mp hb
      dsimp only
      split
      · intro d hd
        simp only at hd
        split at hd
        · cases hd
        · rw [← Option.some.inj hd]
          exact List.length_take_le ..
      · intro d hd
        simp only at hd
        split at hd
        · cases hd
        · rw [← Option.some.inj hd]
          show _ ≤ min 4096 (len - 4096 * k)
          rw [length_flatMap_leBytes, List.length_map, List.length_range]
          unfold elems
          rcases planeWidth_cases srcFmt with h | h | h <;> rw [h] <;> omega
    · rw [List.map_map]
      have e : ((List.range (ceilDiv len 4096)).map (fun k => min 4096 (len - 4096 * k))).sum ≤ len := by
        rw [sum_cut]
        exact Nat.min_le_right ..
      refine Nat.le_trans (Nat.le_of_eq (congrArg List.sum (List.map_congr_left fun k _ => ?_))) e
      dsimp only [Function.comp]
      split <;> rfl

/-- The blocks of 4,096 bytes of what is stored as it is. -/
theorem decode_pass (bad : Nat → Nat → Bool) (srcFmt len : Nat) (coded : List Nat) : decode bad 0 srcFmt len coded =
    (List.range (ceilDiv len 4096)).map (fun k => ⟨min 4096 (len - 4096 * k),
      if bad (4096 * k) (min 4096 (len - 4096 * k)) then none else some ((coded.drop (4096 * k)).take (min 4096 (len - 4096 * k))),
      ⟨min 4096 (len - 4096 * k), min 4096 (len - 4096 * k), false, 0, 0, false⟩, 4096 * k⟩) := rfl

end Flux

theorem Memory.writeBytes_append (m : Memory) (a : Nat) (l r : List Byte) :
    m.writeBytes a (l ++ r) = (m.writeBytes a l).writeBytes (a + l.length) r := by
  induction l generalizing m a with
  | nil => rfl
  | cons b l ih =>
    rw [List.cons_append, Memory.writeBytes, ih, List.length_cons, Memory.writeBytes]
    congr 1
    omega

theorem landAll_append (m : Memory) (a : Nat) (l r : List Flux.Block) :
    landAll m a (l ++ r) = landAll (landAll m a l) (a + (l.map Flux.Block.len).sum) r := by
  induction l generalizing m a with
  | nil => rfl
  | cons b l ih =>
    rw [List.cons_append, landAll, ih, landAll, List.map_cons, List.sum_cons, Nat.add_assoc]

/-- Bytes that pass Flux as they are land as they were (R238). -/
theorem landAll_pass {bad : Nat → Nat → Bool} {srcFmt len : Nat} {bytes : List Byte} (hlen : bytes.length = len)
    (hbad : ∀ k l, k + l ≤ len → bad k l = false) (m : Memory) (a : Nat) :
    landAll m a (Flux.decode bad 0 srcFmt len (bytes.map BitVec.toNat)) = m.writeBytes a bytes := by
  rw [Flux.decode_pass]
  have hall : ∀ c, c ≤ ceilDiv len 4096 → landAll m a ((List.range c).map (fun k => (⟨min 4096 (len - 4096 * k),
      if bad (4096 * k) (min 4096 (len - 4096 * k)) then none
      else some (((bytes.map BitVec.toNat).drop (4096 * k)).take (min 4096 (len - 4096 * k))),
      ⟨min 4096 (len - 4096 * k), min 4096 (len - 4096 * k), false, 0, 0, false⟩, 4096 * k⟩ : Flux.Block))) =
      m.writeBytes a (bytes.take (4096 * c)) := by
    intro c hc
    induction c with
    | zero => rfl
    | succ c ih =>
      have hlt : 4096 * c < len := by
        unfold ceilDiv at hc
        omega
      have hsum : ((List.range c).map (fun k => min 4096 (len - 4096 * k))).sum = 4096 * c := by
        rw [Flux.sum_cut]
        omega
      have htake : bytes.take (4096 * (c + 1)) = bytes.take (4096 * c) ++ (bytes.drop (4096 * c)).take 4096 := by
        rw [Nat.mul_succ, List.take_add]
      have hback : ((((bytes.map BitVec.toNat).drop (4096 * c)).take (min 4096 (len - 4096 * c))).map (BitVec.ofNat 8)) =
          (bytes.drop (4096 * c)).take 4096 := by
        have hl : (bytes.drop (4096 * c)).length = len - 4096 * c := by rw [List.length_drop, hlen]
        rw [← List.map_drop, ← List.map_take, List.map_map, ← hl, ← List.take_eq_take_min]
        exact (List.map_congr_left fun b _ => BitVec.ofNat_toNat ..).trans (by simp)
      rw [List.range_succ, List.map_append, landAll_append, ih (by omega), List.map_map, htake, Memory.writeBytes_append,
        List.length_take, hlen, Nat.min_eq_left hlt.le]
      show landAll _ (a + ((List.range c).map (fun k => min 4096 (len - 4096 * k))).sum) [_] = _
      rw [hsum]
      dsimp only
      rw [hbad (4096 * c) (min 4096 (len - 4096 * c)) (by omega)]
      exact congrArg (Memory.writeBytes _ _) hback
  rw [hall _ (Nat.le_refl _), List.take_of_length_le]
  unfold ceilDiv
  omega

/-- One memory of the device written, and no other. -/
structure Writes (s t : State) (mem a : Nat) (bs : List Byte) : Prop extends MovesBytes s t where
  written : t.memOf mem = (s.memOf mem).writeBytes a bs
  others : ∀ k, k < 4 → k ≠ mem → t.memOf k = s.memOf k

namespace Writes

theorem quiet {s t u : State} {mem a : Nat} {bs : List Byte} (h : Writes s t mem a bs) (q : Quiet t u) : Writes s u mem a bs :=
  ⟨h.toMovesBytes.trans q.toMovesBytes, (q.mem _).trans h.written, fun k h4 hk => (q.mem k).trans (h.others k h4 hk)⟩

theorem hbm (s : State) (a : Nat) (bs : List Byte) : Writes s (s.writeHbm a bs) 2 a bs := by
  have h : Writes s { s with hbm := s.hbm.writeBytes a bs } 2 a bs := by
    refine ⟨⟨rfl⟩, rfl, fun k _ hk => ?_⟩
    unfold State.memOf
    simp only [hk, if_false]
  exact h.quiet (.of_touches (.hbmTouched _ _ _))

theorem stock (s : State) (a : Nat) (bs : List Byte) : Writes s (s.writeStock a bs) 3 a bs := by
  have h : Writes s { s with stock := s.stock.writeBytes a bs } 3 a bs := by
    refine ⟨⟨rfl⟩, rfl, fun k h4 hk => ?_⟩
    have hk3 : k = 0 ∨ k = 1 ∨ k = 2 := by omega
    rcases hk3 with rfl | rfl | rfl <;> rfl
  exact h.quiet (.stockTouched _ _ _)

theorem hearth (s : State) (d a : Nat) (bs : List Byte) : Writes s (s.setHearth d ((s.hearth d).writeBytes a bs)) (hearthNo d) a bs where
  toMovesBytes := .setHearth ..
  written := by rw [State.memOf_setHearth_same, State.memOf_hearthNo]
  others _ _ hk := State.memOf_setHearth_ne _ _ hk

end Writes

/-- The transfer that has moved its data leaves its engine. -/
theorem popXfer_done {s u : State} {n : Nat} {x : Xfer} (hx : (s.core n).xfers = [x]) (hu : MovesBytes s u) :
    let t := (u.popXfer n).pump n
    (t.core n).xfers = [] ∧ (∀ k, t.memOf k = u.memOf k) ∧ (∀ k, k ≠ n → t.core k = s.core k) ∧
    { t with regs := s.regs, cad := s.cad, cores := s.cores, hearth0 := s.hearth0, hearth1 := s.hearth1, hbm := s.hbm
             stock := s.stock, hbmPoison := s.hbmPoison, stockPoison := s.stockPoison, bucketFill := s.bucketFill
             caps := s.caps, captures := s.captures, ports := s.ports, faultQ := s.faultQ, out := s.out } = s := by
  have hux : (u.core n).xfers = x :: [] := by rw [hu.core, hx]
  obtain ⟨q, p, e⟩ := State.popXfer_frame hux
  have hxs : ((u.popXfer n).core n).xfers = [] := by
    rw [e]
    exact congrArg Core.xfers (State.core_setCore_same ..)
  have hstill : (u.popXfer n).pump n = u.popXfer n :=
    State.pump_still (fun y hy => by rw [hxs] at hy; cases hy) (by rw [hxs]; exact Nat.zero_le 1)
  intro t
  have ht : t = _ := hstill.trans e
  rw [ht]
  refine ⟨congrArg Core.xfers (State.core_setCore_same ..), fun _ => rfl, fun k hk => ?_, ?_⟩
  · exact (State.core_setCore_ne _ _ hk).trans (hu.core k)
  · let kept : State → State := fun v => { v with
      regs := s.regs, cad := s.cad, cores := s.cores, hearth0 := s.hearth0, hearth1 := s.hearth1, hbm := s.hbm
      stock := s.stock, hbmPoison := s.hbmPoison, stockPoison := s.stockPoison, bucketFill := s.bucketFill
      caps := s.caps, captures := s.captures, ports := s.ports, faultQ := s.faultQ, out := s.out }
    exact (congrArg kept hu.rest :)

theorem hearthNo_lt (d : Nat) : hearthNo d < 2 := by
  unfold hearthNo
  split <;> decide

/-- The coded bytes of a transfer are at its destination, and their length at RESULT (R245). -/
theorem moveXfer_encodes (s : State) (n : Nat) {x : Xfer} (ecc : List EccRes) (hd : x.dir % 2 = 0) :
    let die := hearthNo (dieOf n)
    let mem := if x.dir < 2 then 2 else 3
    let coded := ((Flux.encode (s.hearth (dieOf n)) x.mode x.srcFmt x.haddr x.len).1).map (BitVec.ofNat 8)
    ∃ u, Writes s u mem x.far coded ∧ (if x.result = 0 then s.moveXfer n x ecc = u
      else Writes u (s.moveXfer n x ecc) die x.result (leBytes 4 coded.length)) := by
  intro die mem coded
  let l := Flux.encode (s.hearth (dieOf n)) x.mode x.srcFmt x.haddr x.len
  let s1 := if mem = 2 then (s.writeHbm x.far coded).fillBuckets x.far coded.length else s.writeStock x.far coded
  have h1 : Writes s s1 mem x.far coded := by
    unfold s1
    by_cases h : x.dir < 2
    · have hm : mem = 2 := if_pos h
      rw [if_pos hm, hm]
      exact (Writes.hbm ..).quiet (.fillBuckets ..)
    · have hm : mem = 3 := if_neg h
      rw [if_neg (by rw [hm]; decide), hm]
      exact .stock ..
  have e : s.moveXfer n x ecc = if x.result = 0 then s1.fluxCount (fluxBase n mem x.far) l.2
      else (s1.fluxCount (fluxBase n mem x.far) l.2).setHearth (dieOf n)
        (((s1.fluxCount (fluxBase n mem x.far) l.2).hearth (dieOf n)).writeLE x.result 4 coded.length) := if_pos hd
  refine ⟨s1.fluxCount (fluxBase n mem x.far) l.2, h1.quiet (.fluxCountAt ..), ?_⟩
  rw [e]
  split
  · rfl
  · exact .hearth ..

/-- A range that no poisoned granule touches has no part that one does. -/
theorem bad_part {l : List Nat} {a len k j : Nat} (h : l.any (fun g => decide (a < 64 * g + 64 ∧ 64 * g < a + len)) = false) (hk : k + j ≤ len) :
    l.any (fun g => decide (a + k < 64 * g + 64 ∧ 64 * g < a + k + j)) = false := by
  rw [List.any_eq_false] at h ⊢
  intro g hg
  have := h g hg
  simp only [decide_eq_true_eq, not_and, Nat.not_lt] at this ⊢
  omega

/-- The decoded bytes of a transfer land in its range of Hearth; those of a PASS are the source's (R239). -/
theorem moveXfer_decodes (s : State) (n : Nat) {x : Xfer} (ecc : List EccRes) (hd : x.dir % 2 = 1) :
    let die := hearthNo (dieOf n)
    let mem := if x.dir < 2 then 2 else 3
    MovesBytes s (s.moveXfer n x ecc) ∧ (∀ k, k ≠ die → (s.moveXfer n x ecc).memOf k = s.memOf k) ∧
    (∀ a, ¬ Within a x.haddr x.len → ((s.moveXfer n x ecc).memOf die).read a = (s.memOf die).read a) ∧
    (x.mode = 0 → ecc = [] → (if x.dir < 2 then s.hbmBad x.far x.len else s.stockBad x.far x.len) = false →
      ((s.moveXfer n x ecc).memOf die).readBytes x.haddr x.len = (s.memOf mem).readBytes x.far x.len) := by
  intro die mem
  let room := Flux.worst x.mode x.srcFmt x.len
  let s1 := if mem = 2 then s.hbmChecks x.far room ecc else s.stockChecks x.far room ecc
  let m := if mem = 2 then s1.hbm else s1.stock
  let bad := fun off len => if mem = 2 then s1.hbmBad (x.far + off) len else s1.stockBad (x.far + off) len
  let blks := Flux.decode bad x.mode x.srcFmt x.len ((m.readBytes x.far room).map BitVec.toNat)
  have e : s.moveXfer n x ecc = s1.landBlocks (dieOf n) (fun _ => fluxBase n mem x.far) x.haddr (fun off => x.far + off) blks :=
    if_neg (by rw [hd]; decide)
  have hq : Quiet s s1 := by
    unfold s1
    split
    · exact .hbmChecks ..
    · exact .stockChecks ..
  obtain ⟨hfits, hsum⟩ := Flux.decode_fits bad x.mode x.srcFmt x.len ((m.readBytes x.far room).map BitVec.toNat)
  obtain ⟨hm, hh, ho⟩ := s1.landBlocks_lands (dieOf n) (fun _ => fluxBase n mem x.far) x.haddr (fun off => x.far + off) blks
  rw [e]
  refine ⟨hq.toMovesBytes.trans hm, fun k hk => (ho k hk).trans (hq.mem k), fun a ha => ?_, fun hpass hecc hok => ?_⟩
  · rw [hh, read_landAll hfits fun hw => ha ⟨hw.1, Nat.lt_of_lt_of_le hw.2 (Nat.add_le_add_left hsum _)⟩, hq.mem]
  · have hs1 : s1 = s := by
      unfold s1
      rw [hecc]
      split <;> rfl
    have hroom : room = x.len := by
      unfold room Flux.worst
      rw [if_pos hpass]
    have hmem : m = s.memOf mem := by
      unfold m mem
      rw [hs1]
      by_cases h : x.dir < 2
      · simp only [h, if_true]
        rfl
      · simp only [h, if_false]
        rfl
    have hbad : ∀ k j, k + j ≤ x.len → bad k j = false := fun k j hk => by
      unfold bad mem
      rw [hs1]
      by_cases h : x.dir < 2
      · simp only [h, if_true] at hok ⊢
        exact bad_part hok hk
      · simp only [h, if_false] at hok ⊢
        exact bad_part hok hk
    have hblks : blks = Flux.decode bad 0 x.srcFmt x.len (((s.memOf mem).readBytes x.far x.len).map BitVec.toNat) := by
      unfold blks
      rw [hpass, hroom, hmem]
    have hlen : ((s.memOf mem).readBytes x.far x.len).length = x.len := Memory.length_readBytes ..
    rw [hh, hblks, landAll_pass hlen hbad]
    have := Memory.readBytes_writeBytes_same (s1.memOf die) ((s.memOf mem).readBytes x.far x.len) x.haddr
    rwa [hlen] at this

/-- An XFER is refused, waits for its ranges, or goes to its engine, where it is no SEND. -/
theorem execXfer_of {s : State} {n : Nat} {words : List Word} (htake : takesXfer s n 0x60 (natWords words) = true) :
    let x := xferOf s n (natWords words)
    exec (.xfer n words) s = if !xferOk s n (natWords words) then .next (s.refuseXfer n x.opid)
      else if (s.core n).mustWait x.reads x.writes then .next s
      else .next ((s.putXfer n x).pump n) := by
  have e : exec (.xfer n words) s = execXfer n words s := rfl
  rw [e, execXfer, htake]
  rfl

theorem execXferComplete_of {s : State} {n : Nat} {x : Xfer} {ecc : List EccRes} (hx : (s.core n).xfers = [x]) (hop : x.op = 0x60)
    (hal : s.alive = true) (hin : inHearth x.haddr x.len = true) (hres : x.result ≠ 0 → inHearth x.result 4 = true) :
    exec (.xferComplete n ecc) s = .next (((s.moveXfer n x ecc).popXfer n).pump n) := by
  have hr : (x.result != 0 && !inHearth x.result 4) = false := by
    by_cases h : x.result = 0
    · simp [h]
    · rw [hres h]
      simp
  have e : exec (.xferComplete n ecc) s = execXferComplete n ecc s := rfl
  rw [e, execXferComplete, hx]
  simp only [hal, hop, hin, hr]
  rfl

/-- Settles O35: the command at its engine, and its end by the bytes that an encode or a decode has moved. -/
theorem transfersMoveData : Obligations.TransfersMoveData := by
  intro s n hn
  refine ⟨?_, ?_⟩
  · intro words ws x htake
    have hop : x.op = 0x60 := by
      simp only [takesXfer, Bool.and_eq_true, beq_iff_eq] at htake
      exact htake.2
    have e := execXfer_of htake
    refine ⟨fun hok hw => ?_, fun hok hw hxs => ?_, fun hok => ⟨_, e.trans (if_pos (by rw [hok]; rfl)), s.refuseCmd_refused ..⟩⟩
    · exact e.trans ((if_neg (by rw [hok]; decide)).trans (if_pos hw))
    · obtain ⟨hput, hne⟩ := State.putXfer_core hxs x
      have hstill : (s.putXfer n x).pump n = s.putXfer n x := by
        refine State.pump_still (fun y hy hgo => ?_) (by rw [hput]; exact Nat.le_refl 1)
        obtain rfl : y = x := List.singleton_inj.mp (hy.symm.trans hput)
        exact absurd (hop.symm.trans hgo.1) (by decide)
      replace e := e.trans ((if_neg (by rw [hok]; decide)).trans (if_neg (by rw [Bool.not_eq_true]; exact hw)))
      rw [hstill] at e
      exact ⟨_, e, hput, hne, rfl⟩
  · intro x ecc hx hop hal hin hres die mem coded rest
    have e := execXferComplete_of (ecc := ecc) hx hop hal hin hres
    have hdie := hearthNo_lt (dieOf n)
    have hmem : mem = 2 ∨ mem = 3 := by
      unfold mem
      split <;> simp
    have hmd : mem ≠ die := by
      rintro h
      rw [h] at hmem
      unfold die at hmem
      omega
    refine ⟨fun hd => ?_, fun hd => ?_⟩
    · obtain ⟨u, hu, hm⟩ := moveXfer_encodes s n ecc hd
      have hcoded : (u.memOf mem).readBytes x.far coded.length = coded := by
        rw [hu.written]
        exact Memory.readBytes_writeBytes_same ..
      have hsame : ∀ k a, k < 4 → ¬ (k = mem ∧ Within a x.far coded.length) → (u.memOf k).read a = (s.memOf k).read a := fun k a h4 hk => by
        by_cases hkm : k = mem
        · subst hkm
          rw [hu.written]
          exact Memory.read_writeBytes_out _ _ fun hw => hk ⟨rfl, hw⟩
        · rw [hu.others k h4 hkm]
      by_cases hr : x.result = 0
      · rw [if_pos hr] at hm
        obtain ⟨hxs, hmems, hne, hrest⟩ := popXfer_done hx (u := s.moveXfer n x ecc) (hm ▸ hu.toMovesBytes)
        refine ⟨_, e, hxs, ?_, fun h => absurd hr h, fun k a h4 hk => ?_, hne, hrest⟩
        · rw [hmems, hm]
          exact hcoded
        · rw [hmems, hm]
          exact hsame k a h4 fun h => hk (.inl h)
      · rw [if_neg hr] at hm
        obtain ⟨hxs, hmems, hne, hrest⟩ := popXfer_done hx (hu.toMovesBytes.trans hm.toMovesBytes)
        refine ⟨_, e, hxs, ?_, fun _ => ?_, fun k a h4 hk => ?_, hne, hrest⟩
        · rw [hmems, hm.others mem (by omega) hmd]
          exact hcoded
        · rw [hmems, hm.written]
          exact Memory.readLE_writeLE_same ..
        · rw [hmems]
          by_cases hkd : k = die
          · rw [hkd] at hk ⊢
            rw [hm.written, Memory.read_writeBytes_out _ _ fun hw => hk (.inr ⟨rfl, hr, by rwa [length_leBytes] at hw⟩)]
            exact hsame die a (by omega) fun h => hmd h.1.symm
          · rw [hm.others k h4 hkd]
            exact hsame k a h4 fun h => hk (.inl h)
    · obtain ⟨hm, ho, hread, hpass⟩ := moveXfer_decodes s n ecc hd
      obtain ⟨hxs, hmems, hne, hrest⟩ := popXfer_done hx hm
      refine ⟨_, e, hxs, fun h0 he hb => ?_, fun k a h4 hk => ?_, hne, hrest⟩
      · rw [hmems]
        exact hpass h0 he hb
      · rw [hmems]
        by_cases hkd : k = die
        · rw [hkd] at hk ⊢
          exact hread a fun hw => hk ⟨rfl, hw⟩
        · rw [ho k hkd]

end Sys2Proof.Machine
end

section
/-!
SUPPORT. Proofs: HOLD and RELEASE at the master (R59, R62, R63, R65, R533). -/

namespace Sys2Proof.Machine

/-- A HOLD that the master takes up: of the current ATTEMPT, or of any after COMMIT, and with a reason other than RESET (R62, R63). -/
structure HoldTaken (s : State) (m : CadMsg) : Prop where
  up : s.cadUp = true
  master : s.masters = true
  type : m.type = 2
  current : m.attempt = s.cad.mAttempt ∨ s.mIsCommitted = true
  reason : m.reason ≠ reasonReset

/-- The master that takes a HOLD up counts it, and then acts by its reason and its angle. -/
theorem execHold_taken {s : State} {m : CadMsg} (h : HoldTaken s m) : execHold m s =
    if m.reason = reasonTmp then .next ((s.mCount m).mStop 5 s.cad.mAngle)
    else if m.angle < s.cad.mAngle then
      let s2 := ((s.mCount m).count Reg.cadLateHold).raise srcCad 0x54 clsU (m.source % 2 ^ 14 + strokeOf m.angle * 2 ^ 16)
      .next (if s2.mIsCommitted then s2 else s2.mAbort srcCad)
    else if m.reason = reasonAbort ∧ s.mIsCommitted = false then .next ((s.mCount m).mAbort 0)
    else .next (s.mCount m) := by
  obtain ⟨hup, hmaster, htype, hcurrent, hreason⟩ := h
  have htype' : ¬ badType m = true := by simp [badType, htype]
  have hup' : ¬ (m.type != 2 || !s.cadUp) = true := by simp [htype, hup]
  have hmaster' : ¬ (!s.masters) = true := by simp [hmaster]
  have hcurrent' : ¬ (!s.mIsCommitted && m.attempt != s.cad.mAttempt) = true := by
    rcases hcurrent with h | h <;> simp [h]
  exact (if_neg htype').trans ((if_neg hup').trans ((if_neg hmaster').trans ((if_neg hcurrent').trans (if_neg hreason))))

/-- A HOLD that is not late, of no reason with a rule of its own, is counted and stands (R59). -/
theorem execHold_stands {s : State} {m : CadMsg} (h : HoldTaken s m) (hangle : s.cad.mAngle ≤ m.angle)
    (hreason : m.reason = 0 ∨ m.reason = 2 ∨ m.reason = 1 ∧ s.mIsCommitted = true) : execHold m s = .next (s.mCount m) := by
  have htmp : m.reason ≠ reasonTmp := by unfold reasonTmp; omega
  have habort : ¬ (m.reason = reasonAbort ∧ s.mIsCommitted = false) := by
    rintro ⟨h1, h2⟩
    rcases hreason with h | h | h
    · simp [reasonAbort, h] at h1
    · simp [reasonAbort, h] at h1
    · simp [h.2] at h2
  rw [execHold_taken h, if_neg htmp, if_neg (Nat.not_lt.mpr hangle), if_neg habort]

/-- A HOLD with reason ABORT before COMMIT aborts the step (R533). -/
theorem execHold_aborts {s : State} {m : CadMsg} (h : HoldTaken s m) (hangle : s.cad.mAngle ≤ m.angle) (hreason : m.reason = 1)
    (hcommit : s.mIsCommitted = false) : execHold m s = .next ((s.mCount m).mAbort 0) := by
  have htmp : m.reason ≠ reasonTmp := by unfold reasonTmp; omega
  rw [execHold_taken h, if_neg htmp, if_neg (Nat.not_lt.mpr hangle), if_pos ⟨hreason, hcommit⟩]

/-- A HOLD with reason TMP stops the job with cause 5 (R533). -/
theorem execHold_tmp {s : State} {m : CadMsg} (h : HoldTaken s m) (hreason : m.reason = 3) :
    execHold m s = .next ((s.mCount m).mStop 5 s.cad.mAngle) := by
  exact (execHold_taken h).trans (if_pos hreason)

/-- Before COMMIT the master discards a HOLD of an old ATTEMPT (R63). -/
theorem execHold_old {s : State} {m : CadMsg} (hup : s.cadUp = true) (hmaster : s.masters = true) (htype : m.type = 2)
    (hold : m.attempt ≠ s.cad.mAttempt) (hcommit : s.mIsCommitted = false) : execHold m s = .next s := by
  simp [execHold, badType, htype, hup, hmaster, hold, hcommit, void]

/-- The master withdraws the standing hold that a RELEASE matches, and discards a RELEASE that matches none (R62). -/
theorem execHoldRelease_master {s : State} {m : CadMsg} (hup : s.cadUp = true) (hmaster : s.masters = true) (htype : m.type = 3) :
    execHoldRelease m s = match matchHold s m with
      | none => .next s
      | some h => .next { s with cad := { s.cad with
          mHolds := s.cad.mHolds.erase h, mReleased := s.cad.mReleased + 1
          lastHolder := if (!((s.cad.mHolds.erase h).any (fun x => x.angle == h.angle)) && !h.rollback && h.reason != reasonReset) = true
            then m.source % 2 ^ 14 else s.cad.lastHolder } } := by
  have htype' : ¬ badType m = true := by simp [badType, htype]
  have hup' : ¬ (m.type != 3 || !s.cadUp) = true := by simp [htype, hup]
  have hmaster' : ¬ (!s.masters) = true := by simp [hmaster]
  exact (if_neg htype').trans ((if_neg hup').trans (if_neg hmaster'))

/-- Settles O16: at the master by what a HOLD that it takes up does (`execHold_taken`), and what a RELEASE withdraws; any other
device counts both as messages in error. -/
theorem holdsAreConserved : Obligations.HoldsAreConserved := by
  intro s m hup
  refine ⟨fun hmaster => ⟨?_, fun htype hold hcommit => execHold_old hup hmaster htype hold hcommit,
    fun htype => ⟨fun h hh => ?_, fun hh => ?_⟩⟩, fun hmaster => ⟨fun htype => ?_, fun htype => ?_⟩⟩
  · intro htype hcurrent c
    have taken : m.reason ≠ reasonReset → HoldTaken s m := fun h => ⟨hup, hmaster, htype, hcurrent, h⟩
    refine ⟨fun hangle hreason => ?_, fun hangle hreason hcommit hroom => ?_, fun hreason => ?_⟩
    · exact execHold_stands (taken (by unfold reasonReset; omega)) hangle hreason
    · refine ⟨_, execHold_aborts (taken (by unfold reasonReset; omega)) hangle hreason hcommit, ?_, ?_⟩
      · exact (State.mAbort_stepAborts (s := s.mCount m) 0 hroom).congr rfl rfl rfl rfl
      · exact (OnlyCad.set s _ s.faultQ).trans (State.mAbort_onlyCad (s := s.mCount m) 0 hroom)
    · refine ⟨_, execHold_tmp (taken (by unfold reasonReset; omega)) hreason, ?_⟩
      rw [State.mStop_eq]
      exact ⟨State.broadcast_cad _ _, OnlyCad.broadcast s _ s.faultQ _, State.broadcast_out_getLast? _ _⟩
  · refine (execHoldRelease_master hup hmaster htype).trans ?_
    simp only [hh]
    simp [reasonReset, and_assoc]
  · refine (execHoldRelease_master hup hmaster htype).trans ?_
    simp only [hh]
  · simp [exec, execHold, badType, htype, hup, hmaster]
  · simp [exec, execHoldRelease, badType, htype, hup, hmaster]

end Sys2Proof.Machine
end

section
/-!
SUPPORT. Proofs: the master's beats and its KEEPs (R39, R40, R46, R64, R442), and the CAD_IN checker (R51 to R53). -/

namespace Sys2Proof.Machine

/-- The message of the beat of the angle `a` (Table 2-1). -/
def beatMsg (s : State) (a : Nat) : CadMsg :=
  { type := 1, flags := b2n s.cad.mExternal + 2 * b2n (s.gateAt a), source := s.addr, angle := a
    attempt := (State.beatCad s.cad a).mAttempt, reason := 0, seq := s.cad.mSeq + 1 }

/-- No ABORT that the master keeps for a later step is due at the angle `a` (R65). -/
def NoAbortDue (s : State) (a : Nat) : Prop :=
  ∀ h ∈ s.cad.mHolds, h.reason = 1 → h.rollback = false → stepOf a < stepOf h.angle

/-- Short of the last angle, and with no ABORT due, a beat is a change of the Cadence and one message (R40). -/
theorem State.mBeat_eq {s : State} {a : Nat} (ha : a ≠ 2 ^ 48 - 1) (hd : NoAbortDue s a) :
    s.mBeat a = ({ s with cad := State.beatCad s.cad a } : State).broadcast (beatMsg s a) := by
  have hwant : (({ s with cad := State.beatCad s.cad a } : State).broadcast (beatMsg s a)).mWantsAbort = false := by
    have hcad : (({ s with cad := State.beatCad s.cad a } : State).broadcast (beatMsg s a)).cad = State.beatCad s.cad a :=
      State.broadcast_cad _ _
    unfold State.mWantsAbort
    rw [hcad, List.any_eq_false]
    intro h hh hb
    simp only [Bool.and_eq_true, beq_iff_eq, Bool.not_eq_true', decide_eq_true_eq] at hb
    obtain ⟨⟨hreason, hroll⟩, hstep⟩ := hb
    exact absurd hstep (Nat.not_le.mpr (hd h hh hreason hroll))
  have hgoes : ¬ ((({ s with cad := State.beatCad s.cad a } : State).broadcast (beatMsg s a)).mWantsAbort &&
      !(({ s with cad := State.beatCad s.cad a } : State).broadcast (beatMsg s a)).mIsCommitted) = true := by
    simp [hwant]
  exact (if_neg ha).trans (if_neg hgoes)

/-- A beat short of the last angle, with no ABORT due, changes the Cadence and sends. -/
theorem State.mBeat_onlyCad {s : State} {a : Nat} (ha : a ≠ 2 ^ 48 - 1) (hd : NoAbortDue s a) : OnlyCad [] s (s.mBeat a) := by
  rw [State.mBeat_eq ha hd]
  exact OnlyCad.broadcast s _ s.faultQ _

/-- The Cadence after the beat of the next stroke: the beat after the COMMIT stroke commits the step (R40, R65). -/
theorem beatCad_next {c : Cad} (hr : c.mRolling = false) :
    State.beatCad c (c.mAngle + 1) = { c with
      mAngle := c.mAngle + 1, mSeq := c.mSeq + 1, mAttempt := if strokeOf c.mAngle = c.commitStroke then 0 else c.mAttempt
      mCommitted := if strokeOf c.mAngle = c.commitStroke then some (stepOf c.mAngle) else c.mCommitted } := by
  simp [State.beatCad, hr]

/-- The Cadence after the beat that ends a rollback: it commits nothing (R64). -/
theorem beatCad_rolling {c : Cad} (hr : c.mRolling = true) :
    State.beatCad c c.mAngle = { c with mSeq := c.mSeq + 1, mRolling := false } := by
  simp [State.beatCad, hr]

/-- What BEAT_ISSUE does at a master that turns (R40, R64, R442). -/
theorem execBeatIssue_eq {s : State} (hup : s.cadUp = true) (hmaster : s.masters = true) (hactive : s.cad.active = true) :
    exec .beatIssue s =
      if s.cad.mRolling then if s.cad.mHolds.any (fun h => h.rollback) then .next s else .next (s.mBeat s.cad.mAngle)
      else if !(s.cad.mHolds.filter (fun h => h.angle == s.cad.mAngle)).isEmpty then
        if (s.cad.mHolds.filter (fun h => h.angle == s.cad.mAngle)).all (fun h => h.reason == reasonHalt && !h.rollback) then
          .next (s.mStop 1 (angleOf (stepOf s.cad.mAngle + 1) 0))
        else .next s
      else if s.cad.mExternal then .next s else .next s.mTurn := by
  have hturns : ¬ (!s.masters || !s.cadUp || !s.cad.active) = true := by simp [hup, hmaster, hactive]
  exact if_neg hturns

/-- A hold at the master's angle is among those that stand there. -/
theorem holdsHere_ne_nil {s : State} {h : MHold} (hm : h ∈ s.cad.mHolds) (ha : h.angle = s.cad.mAngle) :
    (!(s.cad.mHolds.filter (fun h => h.angle == s.cad.mAngle)).isEmpty) = true := by
  have hmem : h ∈ s.cad.mHolds.filter (fun h => h.angle == s.cad.mAngle) := List.mem_filter.mpr ⟨hm, by simpa using ha⟩
  simpa using ⟨h, hm, ha⟩

/-- Settles O13: BEAT_ISSUE by what stands at the master's angle (`execBeatIssue_eq`), its beats by `State.mBeat_eq`, and the KEEP by
what it sends. -/
theorem masterTurnsTheAngle : Obligations.MasterTurnsTheAngle := by
  intro s hup
  refine ⟨fun hmaster hactive hroll => ⟨?_, ?_, ?_⟩, fun hmaster hactive hroll => ⟨?_, ?_⟩, fun hrole => ?_⟩
  · intro hfree hext hlast last c m
    have hdue : NoAbortDue s (s.cad.mAngle + 1) := fun h hh hreason _ => (hfree h hh).2 hreason
    have hne : s.cad.mAngle + 1 ≠ 2 ^ 48 - 1 := by omega
    have hstands : s.cad.mAngle ≠ State.lastAngle := by unfold State.lastAngle; omega
    have hc : State.beatCad s.cad (s.cad.mAngle + 1) = c := beatCad_next hroll
    have hm : beatMsg s (s.cad.mAngle + 1) = m := by
      unfold beatMsg
      rw [hc]
      simp only [hext, b2n, m, c, last, Bool.false_eq_true, if_false, Nat.zero_add]
    have hturn : s.mTurn = ({ s with cad := c } : State).broadcast m := by
      rw [State.mTurn, if_neg hstands, State.mBeat_eq hne hdue, hc, hm]
    have hexec : exec .beatIssue s = .next s.mTurn :=
      (execBeatIssue_turns hmaster hup hactive hroll fun h hh => (hfree h hh).1).trans (by rw [hext]; rfl)
    exact ⟨_, hexec, hturn, hturn ▸ State.broadcast_cad _ _, hturn ▸ State.broadcast_out_getLast? _ _,
      hturn ▸ OnlyCad.broadcast s _ s.faultQ _⟩
  · rintro ⟨h, hh, hangle, hkind⟩
    have hall : ¬ ((s.cad.mHolds.filter (fun h => h.angle == s.cad.mAngle)).all
        (fun h => h.reason == reasonHalt && !h.rollback)) = true := by
      rw [List.all_eq_true]
      intro hall
      have := hall h (List.mem_filter.mpr ⟨hh, by simpa using hangle⟩)
      simp only [reasonHalt, Bool.and_eq_true, beq_iff_eq, Bool.not_eq_true'] at this
      rcases hkind with hkind | hkind
      · exact hkind this.1
      · simp [hkind] at this
    rw [execBeatIssue_eq hup hmaster hactive, if_neg (by simp [hroll]), if_pos (holdsHere_ne_nil hh hangle), if_neg hall]
  · rintro ⟨h, hh, hangle⟩ hhalt
    have hall : ((s.cad.mHolds.filter (fun h => h.angle == s.cad.mAngle)).all
        (fun h => h.reason == reasonHalt && !h.rollback)) = true := by
      rw [List.all_eq_true]
      intro k hk
      obtain ⟨hmem, ha⟩ := List.mem_filter.mp hk
      obtain ⟨hreason, hrollback⟩ := hhalt k hmem (by simpa using ha)
      simp [reasonHalt, hreason, hrollback]
    refine ⟨s.mStop 1 (angleOf (stepOf s.cad.mAngle + 1) 0), ?_, ?_⟩
    · rw [execBeatIssue_eq hup hmaster hactive, if_neg (by simp [hroll]), if_pos (holdsHere_ne_nil hh hangle), if_pos hall]
    · rw [State.mStop_eq]
      exact ⟨State.broadcast_cad _ _, OnlyCad.broadcast s _ s.faultQ _, State.broadcast_out_getLast? _ _⟩
  · rintro ⟨h, hh, hrollback⟩
    have hany : s.cad.mHolds.any (fun h => h.rollback) = true := List.any_eq_true.mpr ⟨h, hh, hrollback⟩
    rw [execBeatIssue_eq hup hmaster hactive, if_pos hroll, if_pos hany]
  · intro hfree hlast c
    have hany : ¬ s.cad.mHolds.any (fun h => h.rollback) = true := by
      rw [List.any_eq_true]
      rintro ⟨h, hh, hrollback⟩
      simp [(hfree h hh).1] at hrollback
    have hdue : NoAbortDue s s.cad.mAngle := fun h hh hreason _ => absurd hreason (hfree h hh).2
    have hc : State.beatCad s.cad s.cad.mAngle = c := beatCad_rolling hroll
    have hbeat := State.mBeat_eq hlast hdue
    refine ⟨s.mBeat s.cad.mAngle, ?_, ?_, State.mBeat_onlyCad hlast hdue, ?_⟩
    · rw [execBeatIssue_eq hup hmaster hactive, if_pos hroll, if_neg hany]
    · rw [hbeat, State.broadcast_cad, ← hc]
    · rw [hbeat, State.broadcast_out_getLast?, beatMsg, hc]
  · have hsends : ¬ (s.cad.role != .master || !s.cadUp) = true := by simp [hrole, hup]
    have hkeep := State.sendChildren_sendsOnly s (s.mMsg 7 s.cad.mAngle s.cad.mAttempt 0 false)
    exact ⟨_, if_neg hsends, hkeep.cad, OnlyCad.of_sendsOnly hkeep, by simp [State.mMsg, b2n]⟩

/-- An edge of CAD_IN is looked at where the checker is on. -/
theorem execCadInEdge_on {s : State} (hflag : s.flag Reg.cadCtrlExternal = true) (halive : s.alive = true) :
    ¬ (!s.flag Reg.cadCtrlExternal || !s.alive) = true := by simp [hflag, halive]

/-- What a valid edge of CAD_IN does (R51, R52). -/
theorem execCadInEdge_valid {s : State} {high gap since : Nat} (hflag : s.flag Reg.cadCtrlExternal = true) (halive : s.alive = true)
    (hlow : 80 ≤ high) (hhigh : high ≤ 2000) (hgap : 4000 ≤ gap) :
    let u := s.setCadIn (min (s.cad.inRun + 1) 16) (s.cad.inLock || decide (15 ≤ s.cad.inRun))
    execCadInEdge high gap since s =
      if !s.masters || !s.cad.mExternal || !s.cad.active then .next u
      else if s.mHeld s.cad.mAngle ∨ since < s.get Reg.cadPeriodNs then .next (u.count Reg.cadSlip)
      else if s.cad.mRolling || s.cad.mStand then .next u
      else .next u.mTurn := by
  intro u
  have hvalid : ¬ (high < 80 ∨ 2000 < high ∨ gap < 4000) := by omega
  have hlock : decide (16 ≤ min (s.cad.inRun + 1) 16) = decide (15 ≤ s.cad.inRun) := by
    refine decide_eq_decide.mpr ?_
    omega
  refine (if_neg (execCadInEdge_on hflag halive)).trans ((if_neg hvalid).trans ?_)
  dsimp only
  rw [hlock]
  rfl

/-- What the loss of CAD_IN does (R53). -/
theorem execCadInLost_eq {s : State} (hflag : s.flag Reg.cadCtrlExternal = true) (halive : s.alive = true) :
    let s1 := s.setCadIn 0 false
    let addr := s.addr % 2 ^ 14 + strokeOf s.cad.mAngle * 2 ^ 16
    execCadInLost s =
      if !s.masters || !s.cad.mExternal then .next s1
      else if s.flag Reg.cadCtrlFallback then .next (({ s1 with cad := { s1.cad with mExternal := false } } : State).raise srcCad 0x53 clsC addr)
      else if s.cad.mStand then .next s1
      else .next (({ s1 with cad := { s1.cad with mStand := true } } : State).raise srcCad 0x53 clsU addr) :=
  if_neg (execCadInEdge_on hflag halive)

/-- Settles O21: an invalid edge, a valid one (`execCadInEdge_valid`) and the loss of CAD_IN (`execCadInLost_eq`), branch by branch. -/
theorem cadInIsChecked : Obligations.CadInIsChecked := by
  intro s high gap since hflag halive
  refine ⟨fun hbad => ?_, ?_, fun hout => ?_, ?_⟩
  · exact (if_neg (execCadInEdge_on hflag halive)).trans (if_pos hbad)
  · intro hlow hhigh hgap u
    have hedge := execCadInEdge_valid (since := since) hflag halive hlow hhigh hgap
    refine ⟨fun hout => ?_, fun hmaster hext hactive => ?_⟩
    · refine hedge.trans (if_pos ?_)
      rcases hout with h | h | h <;> simp [h]
    · have hin : ¬ (!s.masters || !s.cad.mExternal || !s.cad.active) = true := by simp [hmaster, hext, hactive]
      refine ⟨fun hslip => hedge.trans ((if_neg hin).trans (if_pos hslip)), fun hfree hperiod => ⟨fun hstand => ?_, ?_⟩⟩
      · have hturns : ¬ (s.mHeld s.cad.mAngle = true ∨ since < s.get Reg.cadPeriodNs) := by simp [hfree, hperiod]
        exact hedge.trans ((if_neg hin).trans ((if_neg hturns).trans (if_pos (by simp [hstand]))))
      · intro hstand hroll hlast hdue
        have hturns : ¬ (s.mHeld s.cad.mAngle = true ∨ since < s.get Reg.cadPeriodNs) := by simp [hfree, hperiod]
        have hgoes : ¬ (s.cad.mRolling || s.cad.mStand) = true := by simp [hroll, hstand]
        have hne : u.cad.mAngle + 1 ≠ 2 ^ 48 - 1 := by
          have : u.cad.mAngle = s.cad.mAngle := rfl
          omega
        have hstands : u.cad.mAngle ≠ State.lastAngle := by
          have : u.cad.mAngle = s.cad.mAngle := rfl
          unfold State.lastAngle
          omega
        have hdue' : NoAbortDue u (u.cad.mAngle + 1) := fun h hh hreason _ => absurd hreason (hdue h hh)
        have hturn : u.mTurn = u.mBeat (u.cad.mAngle + 1) := if_neg hstands
        have hbeat := State.mBeat_eq hne hdue'
        have hcad : u.mTurn.cad = State.beatCad u.cad (u.cad.mAngle + 1) := by rw [hturn, hbeat, State.broadcast_cad]
        refine ⟨u.mTurn, hedge.trans ((if_neg hin).trans ((if_neg hturns).trans (if_neg hgoes))), ?_, ?_, ?_, ?_, ?_⟩
        · rw [hcad]; rfl
        · rw [hcad]; rfl
        · rw [hcad]; rfl
        · rw [hcad]; rfl
        · exact (OnlyCad.set s u.cad s.faultQ).trans (hturn ▸ State.mBeat_onlyCad hne hdue')
  · refine (execCadInLost_eq hflag halive).trans (if_pos ?_)
    rcases hout with h | h <;> simp [h]
  · intro hmaster hext hroom f
    have hin : ¬ (!s.masters || !s.cad.mExternal) = true := by simp [hmaster, hext]
    have hlost := (execCadInLost_eq hflag halive).trans (if_neg hin)
    refine ⟨fun hback => ?_, fun hback hstand => ?_, fun hback hstand => ?_⟩
    · exact (hlost.trans (if_pos hback)).trans (congrArg _ (State.raise_of_room _ _ _ hroom))
    · exact (hlost.trans ((if_neg (by simp [hback])).trans (if_neg (by simp [hstand])))).trans
        (congrArg _ (State.raise_of_room _ _ _ hroom))
    · exact hlost.trans ((if_neg (by simp [hback])).trans (if_pos hstand))

end Sys2Proof.Machine
end

section
/-!
SUPPORT. Proofs: the ABORT at a device: the rollback of its step, and the stop of its job (R64, R533). -/

namespace Sys2Proof.Machine

/-- From `s` to `t` the stores of the step have been taken back: the key-value pages with their bytes of HBM4, the streams of Bloom,
and what the registers tell of them; CAD.ABORT_COUNT is as it was. -/
structure TakesBack (s t : State) : Prop where
  count : t.get Reg.cadAbortCount = s.get Reg.cadAbortCount
  rest : { t with regs := s.regs, kvp := s.kvp, hbm := s.hbm, blm := s.blm, faultQ := s.faultQ } = s

namespace TakesBack

theorem refl (s : State) : TakesBack s s := ⟨rfl, rfl⟩

theorem trans {r s t : State} (h : TakesBack r s) (k : TakesBack s t) : TakesBack r t where
  count := k.count.trans h.count
  rest := by
    let kept : State → State := fun v => { v with regs := r.regs, kvp := r.kvp, hbm := r.hbm, blm := r.blm, faultQ := r.faultQ }
    exact (congrArg kept k.rest :).trans h.rest

theorem put (s : State) {f : Fld} (hf : Reg.cadAbortCount.key ≠ f.key) (v : Nat) : TakesBack s (s.put f v) :=
  ⟨s.get_put_ne v hf, rfl⟩

theorem raise (s : State) (src kind cls addr : Nat) : TakesBack s (s.raise src kind cls addr) :=
  ⟨State.get_raise s _ _ _ _ (by decide) (by decide), by rw [State.raise_upd]⟩

/-- Another store of key-value pages, other bytes of HBM4 and another Bloom. -/
theorem of_regs {s t : State} (h : t.regs = s.regs)
    (k : { t with regs := s.regs, kvp := s.kvp, hbm := s.hbm, blm := s.blm, faultQ := s.faultQ } = s) : TakesBack s t :=
  ⟨by unfold State.get; rw [h], k⟩

theorem foldl {α : Type} {f : State → α → State} (hf : ∀ a t, TakesBack t (f t a)) (l : List α) (s : State) :
    TakesBack s (l.foldl f s) := by
  induction l generalizing s with
  | nil => exact refl s
  | cons a l ih => exact (hf a s).trans (ih _)

end TakesBack

namespace State

theorem kindReg_ne_abortCount (k : PageKind) : Reg.cadAbortCount.key ≠ (kindReg k).key := by cases k <;> decide

theorem busyField_ne_abortCount (kind : Nat) : Reg.cadAbortCount.key ≠ (busyField kind).key := by
  unfold busyField
  split <;> decide

theorem putStream_takesBack (s : State) (id : Nat) (e : Option KvStream) : TakesBack s (s.putStream id e) := by
  unfold putStream
  extract_lets l
  have h1 : TakesBack s { s with kvp := { s.kvp with streams := l } } := .of_regs rfl rfl
  exact h1.trans (.put (f := Reg.kvpStreams) _ (by decide) l.length)

theorem putPage_takesBack (s : State) (id : Nat) (p : KvPage) : TakesBack s (s.putPage id p) := by
  unfold putPage
  extract_lets s1
  have h1 : TakesBack s (s.uncount (kindReg (s.page id).kind)) :=
    .put (f := kindReg (s.page id).kind) s (kindReg_ne_abortCount _) (s.get (kindReg (s.page id).kind) - 1)
  have h2 : TakesBack s s1 := h1.trans (.put (f := kindReg p.kind) _ (kindReg_ne_abortCount p.kind) _)
  have h3 : TakesBack s1 { s1 with kvp := { s.kvp with pages := Assoc.set KvPage.none s.kvp.pages id p } } := .of_regs rfl rfl
  exact h2.trans h3

/-- Pages are freed, and every pin and change to undo stays (R214). -/
theorem releasePages_takesBack (s : State) : TakesBack s s.releasePages ∧
    s.releasePages.kvp.undo = s.kvp.undo ∧ s.releasePages.kvp.pins = s.kvp.pins := by
  unfold releasePages
  extract_lets go
  refine ⟨.foldl (f := fun (t : State) (p : Nat × KvPage) => t.putPage p.1 KvPage.none)
    (fun p t => putPage_takesBack t p.1 KvPage.none) go s, ?_⟩
  refine List.foldlRecOn _ _ (motive := fun t : State => t.kvp.undo = s.kvp.undo ∧ t.kvp.pins = s.kvp.pins) ⟨rfl, rfl⟩ ?_
  rintro t ⟨hu, hp⟩ p -
  exact ⟨hu, hp⟩

theorem advanceEpoch_takesBack (s : State) : TakesBack s s.advanceEpoch ∧
    s.advanceEpoch.kvp.undo = s.kvp.undo ∧ s.advanceEpoch.kvp.pins = s.kvp.pins := by
  unfold advanceEpoch
  dsimp only
  split
  · exact ⟨.of_regs rfl rfl, rfl, rfl⟩
  · exact ⟨.refl s, rfl, rfl⟩

/-- The changes of the step to the key-value store are undone, and none is left to undo (R214). -/
theorem kvAbort_takesBack (s : State) : TakesBack s s.kvAbort ∧ s.kvAbort.kvp.undo = [] ∧ s.kvAbort.kvp.pins = [] := by
  unfold kvAbort
  extract_lets s1
  have h1 : TakesBack s s1 := by
    refine .foldl (fun u t => ?_) _ _
    cases u with
    | stream id old => exact putStream_takesBack t id old
    | entry a old => exact .of_regs rfl rfl
    | page id old => exact putPage_takesBack t id old
  have h2 : TakesBack s1 { s1 with kvp := { s1.kvp with undo := [], pins := [] } } := .of_regs rfl rfl
  obtain ⟨h3, hu3, hp3⟩ := releasePages_takesBack { s1 with kvp := { s1.kvp with undo := [], pins := [] } }
  obtain ⟨h4, hu4, hp4⟩ := advanceEpoch_takesBack ({ s1 with kvp := { s1.kvp with undo := [], pins := [] } } : State).releasePages
  exact ⟨h1.trans (h2.trans (h3.trans h4)), hu4.trans hu3, hp4.trans hp3⟩

/-- From `s` to `t` the streams of Bloom alone have been taken back (R357). -/
structure TakesBackBloom (s t : State) : Prop extends TakesBack s t where
  kvp : t.kvp = s.kvp

theorem TakesBackBloom.refl (s : State) : TakesBackBloom s s := ⟨.refl s, rfl⟩

theorem TakesBackBloom.trans {r s t : State} (h : TakesBackBloom r s) (k : TakesBackBloom s t) : TakesBackBloom r t :=
  ⟨h.toTakesBack.trans k.toTakesBack, k.kvp.trans h.kvp⟩

theorem TakesBackBloom.foldl {α : Type} {f : State → α → State} (hf : ∀ a t, TakesBackBloom t (f t a)) (l : List α) (s : State) :
    TakesBackBloom s (l.foldl f s) := by
  induction l generalizing s with
  | nil => exact .refl s
  | cons a l ih => exact (hf a s).trans (ih _)

theorem setBstream_takesBack (s : State) (e : Nat) (x : BStream) : TakesBackBloom s (s.setBstream e x) := ⟨.of_regs rfl rfl, rfl⟩

theorem freeBusy_takesBack (s : State) (kind : Nat) (x : Sample) : TakesBackBloom s (s.freeBusy kind x) := by
  unfold freeBusy
  split
  · split
    · exact ⟨.put s (busyField_ne_abortCount kind) _, rfl⟩
    · exact .refl s
  · exact .refl s

theorem giveStep_takesBack (s : State) (e step : Nat) : TakesBackBloom s (s.giveStep e step) := by
  unfold giveStep
  split
  · exact .refl s
  · exact setBstream_takesBack ..

theorem applyPending_takesBack (s : State) (e : Nat) (u : Subst) : TakesBackBloom s (s.applyPending e u) := by
  unfold applyPending
  split
  · exact setBstream_takesBack ..
  · exact .refl s

theorem rebuildStream_takesBack (s : State) (e step : Nat) (c : Cursor) : TakesBackBloom s (s.rebuildStream e step c) := by
  unfold rebuildStream
  split
  · exact .refl s
  · extract_lets b s1 kept sp old init s2 s3 b3 has
    have h1 : TakesBackBloom s s1 := .foldl (fun x t => freeBusy_takesBack t _ x) _ _
    have h2 : TakesBackBloom s s2 := h1.trans (setBstream_takesBack s1 e _)
    have h3 : TakesBackBloom s s3 := (h2.trans (giveStep_takesBack s2 e step)).trans
      (.foldl (fun u t => applyPending_takesBack t e u) _ _)
    exact h3.trans (setBstream_takesBack ..)

/-- Every stream of Bloom is rebuilt from its committed cursor (R357). -/
theorem abortBloom_takesBack (s : State) (step : Nat) : TakesBackBloom s (s.abortBloom step) := by
  unfold abortBloom
  extract_lets s1
  have h1 : TakesBackBloom s s1 := .foldl (fun e t => rebuildStream_takesBack t e step _) _ _
  exact h1.trans ⟨.of_regs rfl rfl, rfl⟩

/-- Where no port's packet buffer holds a stale packet of the step. -/
theorem dropStale_rest (s : State) (p : Nat) : { s.dropStale p with ports := s.ports } = s := rfl

/-- The stash is emptied, with the registers that tell of it, and its audit may raise a fault. -/
theorem clearStash_takesBack (s : State) :
    TakesBack { s with stash := [], fetches := [], spills := [], stashFree := s.homeFree } s.clearStash := by
  unfold clearStash
  extract_lets s1
  have hput : TakesBack s1 ((((s1.put Reg.sthEntries 0).put Reg.sthHeldHearth 0).put Reg.sthHeldHbm 0).put Reg.sthHeldStock 0) :=
    .trans (.trans (.trans (.put (f := Reg.sthEntries) s1 (by decide) 0) (.put (f := Reg.sthHeldHearth) _ (by decide) 0))
      (.put (f := Reg.sthHeldHbm) _ (by decide) 0)) (.put (f := Reg.sthHeldStock) _ (by decide) 0)
  unfold auditStash stashRaise
  split
  · exact hput
  · exact .trans (.trans (.trans (.trans hput (.put (f := Reg.sthLastFaultRegion) _ (by decide) _))
      (.put (f := Reg.sthLastFaultTensor) _ (by decide) _)) (.put (f := Reg.sthLastFaultMb) _ (by decide) _)) (.raise _ _ _ _ _)

/-- The work of the step in the pools other than the stash, the key-value store and Bloom is dropped (R64). -/
def dropPools (s : State) : State :=
  { s with
    cores := s.cores.map (fun (p : Nat × Core) => (p.1, abortCore p.2)), haloRows := [], haloCredits := [], hands := s.homeHands
    bucketFill := [], caps := s.caps.map (fun (p : CapEntry × Nat) => (p.1, 0)), captures := [], tmp := Tmp.init
    net := { s.net with buckets := [], tokenWait := [], allReduce := [], received := [] } }

/-- The step's work is dropped in the ports and pools, and then taken back in the stash, the key-value store and Bloom. -/
theorem dropStep_eq (s : State) (step : Nat) : s.dropStep step =
    let s1 := (List.range 12).foldl (fun t p => t.dropStale p) s
    (s1.dropPools.put Reg.netTokensHeld (s1.get Reg.netCtrlTokens)).clearStash.kvAbort.abortBloom step := rfl

/-- The stale packets of the step leave the ports' buffers, and nothing else changes. -/
theorem dropStale_foldl (s : State) (l : List Nat) : ∃ ps, l.foldl (fun t p => t.dropStale p) s = { s with ports := ps } := by
  refine List.foldlRecOn l _ (motive := fun t : State => ∃ ps, t = { s with ports := ps }) ⟨s.ports, rfl⟩ ?_
  rintro t ⟨ps, rfl⟩ p -
  exact ⟨_, rfl⟩

end State

/-- From `s` to `t` the work of the step has been dropped in every pool (R64). -/
structure StepDropped (s t : State) : Prop where
  count : t.get Reg.cadAbortCount = s.get Reg.cadAbortCount
  rest : { t with
    regs := s.regs, kvp := s.kvp, hbm := s.hbm, blm := s.blm, faultQ := s.faultQ, ports := s.ports, stashFree := s.stashFree } =
      { s.dropPools with stash := [], fetches := [], spills := [] }
  undo : t.kvp.undo = []
  pins : t.kvp.pins = []

/-- What the step drops (R64). -/
theorem State.dropStep_dropped (s : State) (step : Nat) : StepDropped s (s.dropStep step) := by
  obtain ⟨ps, hs1⟩ := s.dropStale_foldl (List.range 12)
  rw [State.dropStep_eq, hs1]
  extract_lets s1 
  have h2 : (s1.dropPools.put Reg.netTokensHeld (s1.get Reg.netCtrlTokens)).get Reg.cadAbortCount = s.get Reg.cadAbortCount :=
    State.get_put_ne s1.dropPools (f := Reg.netTokensHeld) (g := Reg.cadAbortCount) _ (by decide)
  generalize hs2 : s1.dropPools.put Reg.netTokensHeld (s1.get Reg.netCtrlTokens) = s2 at h2
  have h3 := s2.clearStash_takesBack
  obtain ⟨h4, hundo, hpins⟩ := s2.clearStash.kvAbort_takesBack
  have h5 := s2.clearStash.kvAbort.abortBloom_takesBack step
  have h6 := (h3.trans h4).trans h5.toTakesBack
  generalize s2.clearStash.kvAbort.abortBloom step = t at h5 h6 ⊢
  refine ⟨?_, ?_, ?_, ?_⟩
  · exact h6.count.trans h2
  · let kept : State → State := fun v => { v with
      regs := s.regs, kvp := s.kvp, hbm := s.hbm, blm := s.blm, faultQ := s.faultQ, ports := s.ports, stashFree := s.stashFree }
    refine (congrArg kept h6.rest :).trans ?_
    rw [← hs2]
    rfl
  · rw [h5.kvp, hundo]
  · rw [h5.kvp, hpins]

/-- What an aborted core holds: nothing (R64). -/
theorem abortCore_empty (s : State) (n : Nat) :
    let c : Core := Assoc.get Core.init (s.cores.map (fun p : Nat × Core => (p.1, State.abortCore p.2))) n
    c.accHeld = 0 ∧ c.obHeld = 0 ∧ c.segs = [] := by
  intro c
  unfold c
  clear c
  generalize s.cores = l
  induction l with
  | nil => exact ⟨rfl, rfl, rfl⟩
  | cons p l ih =>
    by_cases h : p.1 = n
    · simp [Assoc.get, h, State.abortCore, Core.init]
    · simpa [Assoc.get, h] using ih

/-- From `s` to `t` commands have completed or been journalled: the registers, the mailbox, the journal and what the ingots wait for. -/
structure Finishes (s t : State) : Prop where
  rest : { t with regs := s.regs, mbx := s.mbx, jnl := s.jnl, ing := s.ing } = s
  head : s.jnl.head ≤ t.jnl.head

namespace Finishes

theorem refl (s : State) : Finishes s s := ⟨rfl, Nat.le_refl _⟩

theorem trans {r s t : State} (h : Finishes r s) (k : Finishes s t) : Finishes r t where
  rest := by
    let kept : State → State := fun v => { v with regs := r.regs, mbx := r.mbx, jnl := r.jnl, ing := r.ing }
    exact (congrArg kept k.rest :).trans h.rest
  head := h.head.trans k.head

end Finishes

namespace State

theorem flushReset_finishes (s : State) : Finishes s s.flushReset := by
  unfold flushReset
  split
  · exact .refl s
  · exact ⟨rfl, Nat.le_succ _⟩

theorem endRestore_finishes (s : State) : Finishes s s.endRestore := by
  unfold endRestore
  extract_lets s1
  have h1 : Finishes s s1 := by
    unfold s1
    split
    · exact ⟨rfl, Nat.le_refl _⟩
    · exact .refl s
  exact h1.trans ⟨rfl, Nat.le_refl _⟩

/-- A command that completes is journalled where it is to be (R440). -/
theorem finish_finishes (s : State) (x : Slot) (code : Nat) (result : List Byte) : Finishes s (s.finish x code result) := by
  unfold finish
  extract_lets j s0 seq s1 y s2 mbx s3 s4
  have h1 : Finishes s s1 := by
    by_cases hj : j = true
    · have h0 : s0 = s.flushReset := if_pos hj
      have hs1 : s1 = s0.journal (0x4000 + x.session) x.opcode code x.tag (x.who % 2 ^ 64) (leBytes 32 (Config.sha384 x.arg)) := if_pos hj
      rw [hs1, h0]
      exact (flushReset_finishes s).trans ⟨rfl, Nat.le_succ _⟩
    · have hs1 : s1 = s := if_neg hj
      rw [hs1]
      exact .refl s
  have h3 : Finishes s s3 := h1.trans ⟨rfl, Nat.le_refl _⟩
  have h4 : Finishes s s4 := by
    unfold s4
    split
    · exact h3.trans ⟨rfl, Nat.le_refl _⟩
    · exact h3
  split
  · exact h4.trans ⟨rfl, Nat.le_refl _⟩
  · exact h4

theorem finishRunning_finishes (s : State) (code : Nat) (result : List Byte) : Finishes s (s.finishRunning code result) := by
  unfold finishRunning
  split
  · split
    · exact finish_finishes ..
    · exact .refl s
  · exact .refl s

theorem finishHalts_finishes (s : State) (angle k : Nat) : Finishes s (s.finishHalts angle k) := by
  induction k generalizing s with
  | zero => exact .refl s
  | succ k ih =>
    unfold finishHalts
    split
    · exact .refl s
    · extract_lets mbx s1
      have h1 : Finishes s s1 := ⟨rfl, Nat.le_refl _⟩
      split
      · exact (h1.trans (finish_finishes ..)).trans (ih _)
      · exact h1.trans (ih _)

end State

/-- The Cadence of a device that stops at `angle` for `cause` (R533). -/
def stoppedHere (c : Cad) (cause angle : Nat) : Cad :=
  { c with
    own := [], cancelled := c.cancelled + c.own.length, want := none
    role := .idle, angle := angle, active := false, start := false, haltPending := false, resume := none
    resetHold := false, rolling := false, mOn := false, mHolds := [], mRolling := false, cands := [], chosen := none, confirms := []
    stopped := some (cause, angle) }

/-- The device that stops: Armed, and its Cadence idle. -/
def State.stopsAt (s : State) (cause angle : Nat) : State := { s with life := .armed, cad := stoppedHere s.cad cause angle }

/-- A stop for another cause than the abort limit: the device is Armed, the stop is noted and journalled, and commands complete
(R533). -/
theorem State.stopJob_finishes (s : State) {cause : Nat} (angle : Nat) (h : cause ≠ 4) :
    Finishes (s.stopsAt cause angle) (s.stopJob cause angle) ∧
      s.jnl.head < (s.stopJob cause angle).jnl.head := by
  unfold State.stopJob
  extract_lets s1 cad s2 s3 s4 s5
  have h2 : s2 = s.stopsAt cause angle := rfl
  have h3 : Finishes s2 s3 := (flushReset_finishes s2).trans ⟨rfl, Nat.le_succ _⟩
  have hlt : s2.jnl.head < s3.jnl.head := Nat.lt_succ_of_le (flushReset_finishes s2).head
  have h4 : Finishes s3 s4 := endRestore_finishes s3
  have h5 : Finishes s4 s5 := by
    unfold s5
    rw [if_neg h]
    exact finishHalts_finishes ..
  have h6 : Finishes s5 (if s5.runningOp = some 0x0106 ∨ s5.runningOp = some 0x0108 ∨ s5.runningOp = some 0x0203 then
      s5.finishRunning rcAborted [] else s5) := by
    split
    · exact finishRunning_finishes ..
    · exact .refl s5
  have h36 := (h4.trans h5).trans h6
  exact ⟨h2 ▸ h3.trans h36, Nat.lt_of_lt_of_le hlt h36.head⟩

/-- The device at the ATTEMPT and the SEQ of a message of the master. -/
def State.hears (s : State) (m : CadMsg) : State := { s with cad := { s.cad with attempt := m.attempt, seq := m.seq } }

/-- An ABORT that reaches a device of a job and is not the one that it stands at (R64, R533). -/
theorem execAbort_of {s : State} {m : CadMsg} (htype : m.type = 4) (hup : s.cadUp = true) (hwait : s.waitsMaster = false)
    (hrole : s.cad.role = .follower) (hmaster : s.cad.master = m.source) (hactive : s.cad.active = true)
    (hsource : m.source ≠ s.addr) (hstart : s.cad.start = false) :
    execAbort m s = if bit m.reason 15 then
        .next (((s.sendChildren m).hears m).stopJob (m.reason % 2 ^ 15) m.angle)
      else .next ((s.sendChildren m).rollBack m) := by
  have hfrom : s.fromMaster m = true := by simp [State.fromMaster, hrole, Role.settled, hmaster]
  have hmeet : (s.meet m).passOn m = s.sendChildren m := by simp [State.meet, State.passOn, hrole, hsource]
  have htype' : ¬ badType m = true := by simp [badType, htype]
  have hwait' : ¬ (m.type = 4 ∧ s.cadUp = true ∧ s.waitsMaster = true) := by simp [hwait]
  have hknown : ¬ (m.type != 4 || !s.cadUp || !s.fromMaster m || !s.cad.active) = true := by simp [htype, hup, hfrom, hactive]
  have hnew : ¬ (s.cad.start && s.cad.joined && s.cad.attempt == m.attempt && s.cad.angle == m.angle) = true := by simp [hstart]
  refine (if_neg htype').trans ((if_neg hwait').trans ((if_neg hknown).trans ((if_neg hnew).trans ?_)))
  rw [hmeet]
  rfl

theorem State.settle_addr (s : State) (a : Nat) : (s.settle a).addr = s.addr := by
  unfold State.settle State.buildTree State.addr
  exact (State.get_put_ne _ (f := Reg.netStatusTreeDepth) (g := Reg.netStatusAddr) _ (by decide)).trans
    (State.get_put_ne _ (f := Reg.netCadParent) (g := Reg.netStatusAddr) _ (by decide))

/-- An ABORT that stops the job reaches a device that waits for its master after a core reset (R533, R534). -/
theorem execAbort_back {s : State} {m : CadMsg} (htype : m.type = 4) (hup : s.cadUp = true) (hwait : s.waitsMaster = true)
    (hsource : m.source ≠ s.addr) (hbit : bit m.reason 15 = true) :
    execAbort m s = .next ((((s.settle m.source).sendChildren m).hears m).stopJob (m.reason % 2 ^ 15) m.angle) := by
  have hpass : (s.settle m.source).passOn m = (s.settle m.source).sendChildren m :=
    if_neg (by rwa [State.settle_addr])
  have htype' : ¬ badType m = true := by simp [badType, htype]
  refine (if_neg htype').trans ((if_pos ⟨htype, hup, hwait⟩).trans ?_)
  unfold State.abortBack
  rw [if_pos hbit, hpass]
  rfl

/-- A device that knows its master does not wait for one. -/
theorem waitsMaster_of_follower {s : State} (h : s.cad.role = .follower) : s.waitsMaster = false := by
  simp [State.waitsMaster, h, Role.settled]

/-- From `s` to `u` what a stop notes and keeps is as it was. -/
structure SameForStop (s u : State) : Prop where
  own : u.cad.own = s.cad.own
  cancelled : u.cad.cancelled = s.cad.cancelled
  jnl : u.jnl = s.jnl
  billet : u.billet = s.billet
  mems : u.mems = s.mems

/-- What is sent to the children changes nothing of that. -/
theorem SameForStop.sendChildren (s : State) (m : CadMsg) : SameForStop s ((s.sendChildren m).hears m) := by
  have h := State.sendChildren_sendsOnly s m
  have hc := h.cad
  refine ⟨?_, ?_, (congrArg State.jnl h.rest :), (congrArg State.billet h.rest :), (congrArg State.mems h.rest :)⟩
  · exact (congrArg Cad.own hc :)
  · exact (congrArg Cad.cancelled hc :)

/-- What a stop notes of a device. -/
theorem stops_of_finishes {s u : State} {cause angle : Nat} (h : SameForStop s u) (hcause : cause ≠ 4) :
    let t := u.stopJob cause angle
    t.life = .armed ∧ t.cad.role = .idle ∧ t.cad.angle = angle ∧ t.cad.active = false ∧
      t.cad.own = [] ∧ t.cad.cancelled = s.cad.cancelled + s.cad.own.length ∧
      t.cad.stopped = some (cause, angle) ∧ s.jnl.head < t.jnl.head ∧ t.billet = s.billet ∧ SameBytes s t := by
  obtain ⟨hfin, hhead⟩ := u.stopJob_finishes angle hcause
  generalize u.stopJob cause angle = t at hfin hhead
  obtain ⟨hown, hcancelled, hjnl, hbillet, hmems⟩ := h
  have hcad : t.cad = stoppedHere u.cad cause angle := (congrArg State.cad hfin.rest :)
  have hlife : t.life = .armed := (congrArg State.life hfin.rest :)
  have hbil : t.billet = u.billet := (congrArg State.billet hfin.rest :)
  have hmem : t.mems = s.mems := (congrArg State.mems hfin.rest :).trans hmems
  refine ⟨hlife, ?_, ?_, ?_, ?_, ?_, ?_, hjnl ▸ hhead, hbil.trans hbillet, SameBytes.of_mems (congrArg Mems.hearth0 hmem :)
    (congrArg Mems.hearth1 hmem :) (congrArg Mems.hbm hmem :) (congrArg Mems.stock hmem :)⟩
  · rw [hcad]; rfl
  · rw [hcad]; rfl
  · rw [hcad]; rfl
  · rw [hcad]; rfl
  · rw [hcad, ← hown, ← hcancelled]; rfl
  · rw [hcad]; rfl

/-- The Cadence of a device that rolls back to the angle of an ABORT (R64). -/
def rolledBack (c : Cad) (m : CadMsg) : Cad :=
  { c with
    angle := m.angle, attempt := m.attempt, seq := m.seq, joined := true, start := true, rolling := true, want := none
    own := [{ angle := m.angle, attempt := m.attempt, reason := 0, entry := none, rollback := true }]
    cancelled := c.cancelled + c.own.length, raised := c.raised + 1 }

/-- From `s` to `t` the device has rolled back: its Cadence, and the work of the step in every pool (R64). -/
structure RolledBack (m : CadMsg) (s t : State) : Prop where
  count : Counted s t Reg.cadAbortCount
  rest : { t with
    regs := s.regs, kvp := s.kvp, hbm := s.hbm, blm := s.blm, faultQ := s.faultQ, ports := s.ports, stashFree := s.stashFree, out := s.out } =
      { s.dropPools with stash := [], fetches := [], spills := [], cad := rolledBack s.cad m }
  undo : t.kvp.undo = []
  pins : t.kvp.pins = []

/-- The device at the angle of an ABORT, with its rollback hold (R64). -/
def State.rollsTo (s : State) (m : CadMsg) : State :=
  { s with cad := { s.cad with
    angle := m.angle, attempt := m.attempt, seq := m.seq, joined := true, start := true, rolling := true
    own := [{ angle := m.angle, attempt := m.attempt, reason := 0, entry := none, rollback := true }]
    raised := s.cad.raised + 1 } }

theorem State.rollBack_eq (s : State) (m : CadMsg) :
    s.rollBack m = ((s.cancelHolds.count Reg.cadAbortCount).dropStep (stepOf m.angle)).rollsTo m := rfl

theorem State.rollsTo_cad {s t : State} (m : CadMsg) (h : t.cad = s.cancelHolds.cad) :
    t.rollsTo m = { t with cad := rolledBack s.cad m } := by
  unfold State.rollsTo
  rw [h]
  rfl

/-- The rollback at a device that has passed the ABORT on. -/
theorem State.rollBack_rolledBack {s u : State} (m : CadMsg) (h : SendsOnly s u) : RolledBack m s (u.rollBack m) := by
  have hcount : u.get Reg.cadAbortCount = s.get Reg.cadAbortCount := h.regs Reg.cadAbortCount (by decide)
  have hcounted : (u.cancelHolds.count Reg.cadAbortCount).get Reg.cadAbortCount = min (s.get Reg.cadAbortCount + 1) (2 ^ 32 - 1) := by
    rw [← hcount]
    exact State.get_count_same u.cancelHolds Reg.cadAbortCount 1 (by decide)
  have hdrop := (u.cancelHolds.count Reg.cadAbortCount).dropStep_dropped (stepOf m.angle)
  let kept : State → State := fun v => { v with
    regs := s.regs, kvp := s.kvp, hbm := s.hbm, blm := s.blm, faultQ := s.faultQ, ports := s.ports, stashFree := s.stashFree, out := s.out }
  rw [State.rollBack_eq]
  generalize (u.cancelHolds.count Reg.cadAbortCount).dropStep (stepOf m.angle) = t at hdrop
  have hcad : t.cad = s.cancelHolds.cad := by
    have ht : t.cad = u.cancelHolds.cad := (congrArg State.cad hdrop.rest :)
    exact ht.trans (congrArg (fun c : Cad => { c with own := [], cancelled := c.cancelled + c.own.length, want := none }) h.cad :)
  rw [State.rollsTo_cad m hcad]
  refine ⟨hdrop.count.trans hcounted, ?_, hdrop.undo, hdrop.pins⟩
  have hu : { u with regs := s.regs, ports := s.ports, out := s.out } = s := h.rest
  let back : State → State := fun v => { v with cad := rolledBack s.cad m }
  let dropped : State → State := fun v => { v.dropPools with stash := [], fetches := [], spills := [], cad := rolledBack s.cad m }
  exact (congrArg (fun v => kept (back v)) hdrop.rest :).trans (congrArg (fun v => kept (dropped v)) hu :)

/-- Settles O18: an ABORT that rolls back by what the rollback drops (`State.rollBack_rolledBack`), one that stops the job by what the
stop notes (`stops_of_finishes`), and the one that the device stands at by the first branches of ABORT. -/
theorem abortRollsBackOrStops : Obligations.AbortRollsBackOrStops := by
  intro s m hup htype hsource
  refine ⟨fun hrole hmaster hactive => ⟨fun hstart hbit => ?_, fun hstart hjoined hattempt hangle => ?_⟩, fun hbit hcause hwho => ?_⟩
  · have hexec := (execAbort_of htype hup (waitsMaster_of_follower hrole) hrole hmaster hactive hsource hstart).trans
      (if_neg (by simp [hbit]))
    have hback := State.rollBack_rolledBack m (State.sendChildren_sendsOnly s m)
    generalize (s.sendChildren m).rollBack m = t at hexec hback
    obtain ⟨hcount, hrest, hundo, hpins⟩ := hback
    have hcad : t.cad = rolledBack s.cad m := (congrArg State.cad hrest :)
    have hcores : t.cores = s.cores.map (fun p : Nat × Core => (p.1, State.abortCore p.2)) := (congrArg State.cores hrest :)
    have hnet : t.net = { s.net with buckets := [], tokenWait := [], allReduce := [], received := [] } := (congrArg State.net hrest :)
    refine ⟨t, hexec, (congrArg Cad.angle hcad :), (congrArg Cad.attempt hcad :), (congrArg Cad.seq hcad :),
      (congrArg Cad.rolling hcad :), (congrArg Cad.start hcad :), (congrArg Cad.want hcad :), (congrArg Cad.own hcad :),
      (congrArg Cad.cancelled hcad :), (congrArg Cad.raised hcad :), hcount, (congrArg State.stash hrest :), (congrArg State.fetches hrest :),
      (congrArg State.spills hrest :), (congrArg State.hands hrest :), (congrArg State.haloRows hrest :),
      (congrArg State.haloCredits hrest :), (congrArg State.bucketFill hrest :), (congrArg State.tmp hrest :),
      (congrArg State.captures hrest :), hundo, hpins, hnet ▸ rfl, hnet ▸ rfl, hnet ▸ rfl, hnet ▸ rfl, fun n => ?_, (congrArg State.life hrest :),
      (congrArg State.jnl hrest :), (congrArg State.mbx hrest :), (congrArg State.cru hrest :), (congrArg State.billet hrest :),
      (congrArg State.sys hrest :), (congrArg State.stock hrest :), (congrArg State.hearth0 hrest :), (congrArg State.hearth1 hrest :)⟩
    have hempty := abortCore_empty s n
    rw [← hcores] at hempty
    exact hempty
  · have hfrom : s.fromMaster m = true := by simp [State.fromMaster, hrole, Role.settled, hmaster]
    have hwait := waitsMaster_of_follower hrole
    simp [exec, execAbort, badType, htype, hup, hwait, hfrom, hactive, hstart, hjoined, hattempt, hangle, void]
  · rcases hwho with ⟨hrole, hmaster, hactive, hstart⟩ | hwait
    · have hexec := (execAbort_of htype hup (waitsMaster_of_follower hrole) hrole hmaster hactive hsource hstart).trans (if_pos hbit)
      exact ⟨_, hexec, stops_of_finishes (.sendChildren s m) hcause⟩
    · have hsent := SameForStop.sendChildren (s.settle m.source) m
      exact ⟨_, execAbort_back htype hup hwait hsource hbit,
        stops_of_finishes ⟨hsent.own, hsent.cancelled, hsent.jnl, hsent.billet, hsent.mems⟩ hcause⟩

end Sys2Proof.Machine
end

section
/-!
SUPPORT. Proofs: holds that stall, and holds that are ready (R58, R61, R64, R385). -/

namespace Sys2Proof.Machine

theorem Routed.onlyCad {s t : State} (h : Routed s t) : OnlyCad [] s t := ⟨h.regs, h.rest⟩

theorem MovesCad.onlyCad {s t : State} (h : MovesCad s t) : OnlyCad [] s t := ⟨h.regs, h.rest⟩

namespace State

/-- A fault raised is of the Cadence's frame. -/
theorem raise_onlyCad (s : State) (src kind cls addr : Nat) : OnlyCad [] s (s.raise src kind cls addr) := (Routed.raise s ..).onlyCad

theorem raise_addr (s : State) (src kind cls addr : Nat) : (s.raise src kind cls addr).addr = s.addr :=
  get_raise s _ _ _ _ (by decide) (by decide)

/-- The abort that reaches ABORT_LIMIT: CAD abort limit, raised or dropped, and the stop with cause 4 (R66). -/
theorem mAbort_of_limit_any {s : State} (reason : Nat) (h : s.get Reg.cadAbortLimit ≤ s.cad.mAttempt + 1) :
    s.mAbort reason = ({ s.raise srcCad 0x56 clsU (s.addr % 2 ^ 14) with
      cad := stoppedCad { s.cad with mAngle := angleOf (stepOf s.cad.mAngle) 0 } } : State).broadcast
        (abortMsg s s.cad.mSeq (angleOf (stepOf s.cad.mAngle) 0) (s.cad.mAttempt + 1) 0x8004) := by
  have haddr : (s.raise srcCad 0x56 clsU (s.addr % 2 ^ 14)).addr = s.addr := raise_addr ..
  have hcad : (s.raise srcCad 0x56 clsU (s.addr % 2 ^ 14)).cad = s.cad := raise_cad ..
  unfold mAbort
  rw [if_pos h]
  dsimp only
  generalize s.raise srcCad 0x56 clsU (s.addr % 2 ^ 14) = u at haddr hcad
  have hstop := mStop_eq ({ u with cad := { u.cad with mAngle := angleOf (stepOf s.cad.mAngle) 0 } } : State) 4
    (angleOf (stepOf s.cad.mAngle) 0)
  refine hstop.trans (congrArg₂ State.broadcast ?_ ?_)
  · rw [hcad]
  · have hmsg : ({ u with cad := { u.cad with mAngle := angleOf (stepOf s.cad.mAngle) 0 } } : State).addr = s.addr := haddr
    simp only [abortMsg, hmsg]
    rw [hcad]

/-- An abort is a change of the Cadence, perhaps one fault, and what it sends, whatever waits to be collected. -/
theorem mAbort_onlyCad_any (s : State) (reason : Nat) : OnlyCad [] s (s.mAbort reason) := by
  by_cases h : s.get Reg.cadAbortLimit ≤ s.cad.mAttempt + 1
  · rw [mAbort_of_limit_any reason h]
    exact (raise_onlyCad s srcCad 0x56 clsU (s.addr % 2 ^ 14)).trans (OnlyCad.broadcast _ _ (State.faultQ _) _)
  · rw [mAbort_of_lt reason (Nat.not_le.mp h)]
    exact OnlyCad.broadcast s _ s.faultQ _

/-- An abort rolls the step back, or stops the job (R64, R66), whatever waits to be collected. -/
theorem mAbort_stepAborts_any (s : State) (reason : Nat) : StepAborts s (s.mAbort reason) s.cad reason := by
  unfold StepAborts
  split
  next h =>
    rw [mAbort_of_limit_any reason h]
    simp
  next h =>
    rw [mAbort_of_lt reason (Nat.not_le.mp h)]
    simp

/-- What has been raised before an abort stays at the head of what waits. -/
theorem mAbort_faultQ_prefix (s : State) (reason : Nat) : s.faultQ <+: (s.mAbort reason).faultQ := by
  by_cases h : s.get Reg.cadAbortLimit ≤ s.cad.mAttempt + 1
  · rw [mAbort_of_limit_any reason h, broadcast_faultQ]
    exact raise_faultQ_prefix ..
  · rw [mAbort_faultQ_of_lt reason (Nat.not_le.mp h)]

/-- A hold that stands no more: it is counted, and its RELEASE goes to the master. -/
theorem releaseHold_routed (s : State) (h : OwnHold) :
    Routed { s with cad := { s.cad with own := s.cad.own.erase h, released := s.cad.released + 1 } } (s.releaseHold h) := sendCad_routed ..

theorem releaseHold_onlyCad (s : State) (h : OwnHold) : OnlyCad [] s (s.releaseHold h) :=
  ((MovesCad.setCad s _).trans (releaseHold_routed s h).toMovesCad).onlyCad

theorem releaseHold_cad (s : State) (h : OwnHold) : { (s.releaseHold h).cad with want := s.cad.want } =
    { s.cad with own := s.cad.own.erase h, released := s.cad.released + 1 } := (releaseHold_routed s h).cad

/-- A hold that is wanted is no rollback hold, and its place ends no rollback and releases nothing. -/
theorem placeWant_cad {s : State} (h : ∀ k ∈ s.cad.own, k.rollback = false) :
    (∀ k ∈ s.placeWant.cad.own, k.rollback = false) ∧ s.placeWant.cad.rolling = s.cad.rolling ∧
      s.placeWant.cad.released = s.cad.released := by
  unfold placeWant
  split
  · exact ⟨h, rfl, rfl⟩
  next r _ =>
    split
    · split
      next a _ =>
        have hc := (raiseHold_routed ({ s with cad := { s.cad with want := none } } : State) a r none).cad
        refine ⟨fun k hk => ?_, (congrArg Cad.rolling hc :), (congrArg Cad.released hc :)⟩
        have hown := (congrArg Cad.own hc :)
        rw [show _ = _ from hown] at hk
        rcases List.mem_append.mp hk with hk | hk
        · exact h k hk
        · rw [List.mem_singleton.mp hk]
      next => exact ⟨h, rfl, rfl⟩
    · exact ⟨h, rfl, rfl⟩

end State

/-- A hold of `d` at the master's angle that is timed (R61): every reason but HALT. -/
theorem execGateStall_of_timed {s : State} {d : Nat} (hup : s.cadUp = true) (hmaster : s.masters = true)
    (hhold : ∃ h ∈ s.cad.mHolds, h.dev = d ∧ h.angle = s.cad.mAngle ∧ (h.reason ≠ 2 ∨ h.rollback = true)) :
    execGateStall d s.cad.mAngle s =
      let s1 := s.raise srcCad 0x55 clsU (d % 2 ^ 14 + strokeOf s.cad.mAngle * 2 ^ 16)
      .next (if s1.mIsCommitted then s1.mStop 3 s1.cad.mAngle else s1.mAbort srcCad) := by
  obtain ⟨h, hmem, hdev, hangle, hkind⟩ := hhold
  have hany : s.cad.mHolds.any (fun h => h.dev == d && h.angle == s.cad.mAngle && (h.reason != reasonHalt || h.rollback)) = true := by
    refine List.any_eq_true.mpr ⟨h, hmem, ?_⟩
    rcases hkind with hkind | hkind <;> simp [hdev, hangle, reasonHalt, hkind]
  exact if_neg (by simp [hup, hmaster, hany])

/-- Holds with reason HALT alone are not timed (R61). -/
theorem execGateStall_of_halts {s : State} {d : Nat}
    (hhold : ∀ h ∈ s.cad.mHolds, h.dev = d → h.angle = s.cad.mAngle → h.reason = 2 ∧ h.rollback = false) :
    execGateStall d s.cad.mAngle s = .next s := by
  have hany : s.cad.mHolds.any (fun h => h.dev == d && h.angle == s.cad.mAngle && (h.reason != reasonHalt || h.rollback)) = false := by
    rw [List.any_eq_false]
    intro h hmem hb
    simp only [Bool.and_eq_true, beq_iff_eq] at hb
    obtain ⟨⟨hdev, hangle⟩, hkind⟩ := hb
    obtain ⟨hreason, hroll⟩ := hhold h hmem hdev hangle
    simp [reasonHalt, hreason, hroll] at hkind
  exact if_pos (by simp [hany])

/-- The only hold of a device that rolls back is released when the rollback is complete (R64). -/
theorem execRollbackComplete_of {s : State} {h : OwnHold} (hup : s.cadUp = true) (hown : s.cad.own = [h]) (hroll : h.rollback = true)
    (hrolling : s.cad.rolling = true) (hresume : s.cad.resume = none) (hhalt : s.cad.haltPending = false) :
    execRollbackComplete s = .next
      ({ s.releaseHold h with cad := { (s.releaseHold h).cad with rolling := false } } : State).placeWant := by
  have hfind : s.cad.own.find? (fun h => h.rollback) = some h := by simp [hown, hroll]
  have hpending : (s.releaseHold h).cad.haltPending = false :=
    (congrArg Cad.haltPending (s.releaseHold_cad h) :).trans hhalt
  unfold execRollbackComplete
  simp only [hfind]
  rw [if_pos (by simp [hrolling, hresume, hup])]
  simp [hpending]

/-- Settles O19: a stall by what an abort or a stop does, and each hold that is ready by its release. -/
theorem stalledAndReadyHolds : Obligations.StalledAndReadyHolds := by
  intro s hup
  refine ⟨fun d hmaster hroom => ⟨fun hhold => ?_, execGateStall_of_halts⟩, fun i e h hfind hstrike => ⟨fun hready => ?_, fun hready => ?_⟩,
    fun h hown hroll hrolling hresume hhalt hwant => ?_, fun r h hresume hfind hbillet => ⟨fun hready => ?_, fun hready => ?_⟩⟩
  · refine ⟨_, execGateStall_of_timed hup hmaster hhold, ?_⟩
    rw [State.raise_of_room _ _ _ hroom]
    set s1 : State := { s with faultQ := s.faultQ ++
      [s.faultMsg srcCad 0x55 clsU (d % 2 ^ 14 + strokeOf s.cad.mAngle * 2 ^ 16) false] } with hs1
    have hraised : OnlyCad [] s s1 := OnlyCad.set s s.cad _
    by_cases hcommit : s.mIsCommitted = true
    · have hc1 : s1.mIsCommitted = true := hcommit
      rw [if_pos hc1, State.mStop_eq]
      refine ⟨hraised.trans (OnlyCad.broadcast s1 _ s1.faultQ _), ?_, fun _ => ⟨?_, State.broadcast_out_getLast? _ _⟩, fun h => ?_⟩
      · rw [State.broadcast_faultQ]
        exact List.prefix_rfl
      · rw [State.broadcast_cad]
      · simp [hcommit] at h
    · have hc1 : ¬ s1.mIsCommitted = true := hcommit
      rw [if_neg hc1]
      refine ⟨hraised.trans (State.mAbort_onlyCad_any s1 _), State.mAbort_faultQ_prefix s1 _, fun h => absurd h hcommit, fun _ => ?_⟩
      exact (State.mAbort_stepAborts_any s1 srcCad).congr rfl rfl rfl rfl
  · refine ⟨_, ?_, State.releaseHold_onlyCad s h, State.releaseHold_cad s h⟩
    have e : exec (.gateReady i) s = execGateReady i s := rfl
    simp [e, execGateReady, hfind, hstrike, hup, hready]
  · have e : exec (.gateReady i) s = execGateReady i s := rfl
    simp [e, execGateReady, hfind, hstrike, hready, void]
  · refine ⟨_, execRollbackComplete_of hup hown hroll hrolling hresume hhalt, ?_⟩
    set u : State := { s.releaseHold h with cad := { (s.releaseHold h).cad with rolling := false } } with hu
    have hcad := s.releaseHold_cad h
    have hempty : ∀ k ∈ u.cad.own, k.rollback = false := by
      have : u.cad.own = s.cad.own.erase h := (congrArg Cad.own hcad :)
      simp [this, hown]
    obtain ⟨hplaced, hroll', hreleased⟩ := State.placeWant_cad hempty
    exact ⟨hplaced, hroll', hreleased.trans (congrArg Cad.released hcad :),
      (s.releaseHold_onlyCad h).trans ((OnlyCad.set _ _ _).trans u.placeWant_movesCad.onlyCad)⟩
  · have hcount : (s.releaseHold h).get Reg.ingRestores = s.get Reg.ingRestores :=
      (s.releaseHold_routed h).get (by decide) (by decide) (by decide)
    refine ⟨{ (s.releaseHold h).count Reg.ingRestores with cad := { (s.releaseHold h).cad with rolling := false } }, ?_, ?_, ?_, ?_⟩
    · have e : exec .resumeRelease s = execResumeRelease s := rfl
      simp only [e, execResumeRelease, hresume, hfind]
      exact if_pos (by simp [hup, hbillet, hready])
    · refine (State.get_count_same (s.releaseHold h) Reg.ingRestores 1 (by decide)).trans ?_
      rw [hcount]
    · exact ((s.releaseHold_onlyCad h).mono (List.nil_subset _)).trans
        ((OnlyCad.count _ Reg.ingRestores 1).trans ((OnlyCad.set _ _ _).mono (List.nil_subset _)))
    · exact (congrArg (fun c : Cad => { c with rolling := false }) (s.releaseHold_cad h) :)
  · have e : exec .resumeRelease s = execResumeRelease s := rfl
    simp [e, execResumeRelease, hresume, hfind, hready, void]

end Sys2Proof.Machine
end

section
/-!
SUPPORT. Proofs: the election of a master, and its loss (R43 to R45). -/

namespace Sys2Proof.Machine

namespace State

/-- The lowest of a list with one more. -/
theorem lowest_append (l : List Nat) (a : Nat) : lowest (l ++ [a]) = match lowest l with
    | some c => some (min a c)
    | none => some a := by
  unfold lowest
  rw [List.foldl_append]
  rfl

/-- The lowest of a list is of it. -/
theorem lowest_mem {l : List Nat} {a : Nat} (h : lowest l = some a) : a ∈ l := by
  induction l using List.reverseRecOn generalizing a with
  | nil => cases h
  | append_singleton l b ih =>
    rw [lowest_append] at h
    cases hl : lowest l with
    | none =>
      rw [hl] at h
      cases h
      simp
    | some c =>
      rw [hl] at h
      have hc := ih hl
      rcases min_choice b c with hm | hm
      · simp [← Option.some.inj h, hm]
      · simp [← Option.some.inj h, hm, hc]

/-- One that is below all the others is the lowest with them. -/
theorem lowest_append_of_lt {l : List Nat} {a : Nat} (h : ∀ b ∈ l, a < b) : lowest (l ++ [a]) = some a := by
  rw [lowest_append]
  cases hl : lowest l with
  | none => rfl
  | some c => exact congrArg some (Nat.min_eq_left (Nat.le_of_lt (h c (lowest_mem hl))))

/-- A device without a restore that hears a lower candidate confirms it (R43). -/
theorem confirmLowest_of {s : State} {a : Nat} (hlow : lowest (s.cad.cands.filter (fun a => !s.cad.lost.contains a)) = some a)
    (hnew : s.cad.chosen ≠ some a) (hrestore : s.ing.restore = none) :
    Routed { s with cad := { s.cad with chosen := some a } } s.confirmLowest := by
  unfold confirmLowest
  simp only [hlow]
  rw [if_neg hnew]
  have hsent := sendCad_routed ({ s with cad := { s.cad with chosen := some a } } : State) a
    (({ s.cad with chosen := some a } : Cad).msg 6 s.addr s.cad.angle s.cad.attempt 0)
  have hing := (congrArg State.ing hsent.rest :)
  have hnone : (({ s with cad := { s.cad with chosen := some a } } : State).sendCad a
      (({ s.cad with chosen := some a } : Cad).msg 6 s.addr s.cad.angle s.cad.attempt 0)).ing.restore = none := by
    rw [show _ = s.ing from hing]
    exact hrestore
  refine hsent.trans ?_
  dsimp only
  rw [hnone]
  exact .refl _

/-- From `s` to `t` messages have been sent, and of the Cadence what is chosen and wanted may have changed. -/
structure Confirms (s t : State) : Prop extends MovesCad s t where
  cad : { t.cad with want := s.cad.want, chosen := s.cad.chosen } = s.cad

theorem Confirms.of_routed {s t : State} (h : Routed s t) : Confirms s t where
  toMovesCad := h.toMovesCad
  cad := (congrArg (fun c : Cad => { c with chosen := s.cad.chosen }) h.cad :)

theorem Confirms.trans {r s t : State} (h : Confirms r s) (k : Confirms s t) : Confirms r t where
  toMovesCad := h.toMovesCad.trans k.toMovesCad
  cad := (congrArg (fun c : Cad => { c with want := r.cad.want, chosen := r.cad.chosen }) k.cad :).trans h.cad

/-- Confirming changes what is chosen and wanted alone, and sends (R43). -/
theorem confirmLowest_confirms (s : State) : Confirms s s.confirmLowest := by
  unfold confirmLowest
  split
  · exact .of_routed (.refl s)
  next a _ =>
    split
    · exact .of_routed (.refl s)
    · extract_lets cad s1 s2
      have h1 : Confirms s s1 := ⟨.setCad s _, rfl⟩
      have h2 : Confirms s1 s2 := .of_routed (sendCad_routed ..)
      split
      · exact (h1.trans h2).trans (.of_routed (.emit s2 _))
      · exact h1.trans h2

end State

/-- CONFIRM of every device that is not lost, at a candidate, makes it the master (R43). -/
theorem execConfirm_of {s : State} {m : CadMsg} (hup : s.cadUp = true) (htype : m.type = 6) (hrole : s.cad.role = .electing)
    (hcand : s.isCandidate = true) :
    let l := if m.source ∈ s.cad.confirms then s.cad.confirms else s.cad.confirms ++ [m.source]
    let s1 := { s with cad := { s.cad with confirms := l } }
    execConfirm m s = .next (if (s.devices.filter (fun d => !s.cad.lost.contains d)).all (fun d => l.contains d)
      then s1.becomeMaster else s1) := by
  intro l s1
  refine (if_neg (by simp [hup, htype, hrole, hcand])).trans ?_
  simp only [List.contains_iff_mem]
  rfl

/-- What the devices that remain have confirmed. -/
theorem allConfirmed_iff {s : State} {a : Nat} :
    (s.devices.filter (fun d => !s.cad.lost.contains d)).all
        (fun d => (if a ∈ s.cad.confirms then s.cad.confirms else s.cad.confirms ++ [a]).contains d) = true ↔
      ∀ d ∈ s.devices, d = a ∨ d ∈ s.cad.confirms ∨ d ∈ s.cad.lost := by
  simp only [List.all_eq_true, List.mem_filter, Bool.not_eq_true', List.contains_eq_mem, decide_eq_false_iff_not]
  refine forall_congr' fun d => ?_
  split
  next h =>
    constructor
    · intro k hd
      by_cases hl : d ∈ s.cad.lost
      · exact .inr (.inr hl)
      · exact .inr (.inl (by simpa using k ⟨hd, hl⟩))
    · rintro k ⟨hd, hl⟩
      rcases k hd with rfl | k | k
      · simpa using h
      · simpa using k
      · exact absurd k hl
  next h =>
    constructor
    · intro k hd
      by_cases hl : d ∈ s.cad.lost
      · exact .inr (.inr hl)
      · have := k ⟨hd, hl⟩
        simp only [decide_eq_true_eq, List.mem_append, List.mem_singleton] at this
        tauto
    · rintro k ⟨hd, hl⟩
      have := k hd
      simp only [decide_eq_true_eq, List.mem_append, List.mem_singleton]
      tauto

/-- What a new master begins its turns with (R43). -/
def masterCad (s : State) (ext : Bool) : Cad :=
  { s.cad with
    role := .master, master := s.addr, cands := [], chosen := none, confirms := []
    mOn := true, mAngle := s.cad.angle, mSeq := s.cad.seq, mAttempt := s.cad.attempt, mCommitted := s.cad.committed, mHolds := []
    mRaised := 0, mReleased := 0, mCancelled := 0, mRolling := false, mExternal := ext, mStand := false }

/-- From `s` to `t` nothing has changed but registers, the network, the Cadence, the faults and what has been sent. -/
structure MovesNet (s t : State) : Prop where
  rest : { t with regs := s.regs, net := s.net, cad := s.cad, ports := s.ports, faultQ := s.faultQ, out := s.out } = s

theorem MovesNet.of_onlyCad {l : List Fld} {r s t : State} (h : MovesNet r s) (k : OnlyCad l s t) : MovesNet r t where
  rest := by
    let kept : State → State := fun v => { v with
      regs := r.regs, net := r.net, cad := r.cad, ports := r.ports, faultQ := r.faultQ, out := r.out }
    exact (congrArg kept k.2 :).trans h.rest

/-- What it leaves alone. -/
theorem MovesNet.keeps {s t : State} (h : MovesNet s t) : t.life = s.life ∧ t.jnl = s.jnl ∧ SameBytes s t :=
  ⟨(congrArg State.life h.rest :), (congrArg State.jnl h.rest :), SameBytes.of_mems (congrArg State.hearth0 h.rest :)
    (congrArg State.hearth1 h.rest :) (congrArg State.hbm h.rest :) (congrArg State.stock h.rest :)⟩

namespace State

/-- The device elected, before it takes its first action as the master. -/
def elected (s : State) : State :=
  { s.settle s.addr with cad := masterCad s ((s.settle s.addr).flag Reg.cadCtrlExternal) }

theorem becomeMaster_eq {s : State} (h : (s.cad.afterLoss && s.cad.active) = false) :
    s.becomeMaster = if s.cad.active then s.elected.mBeat s.cad.startAngle else s.elected.announceStep := by
  have e : s.becomeMaster = if s.cad.afterLoss && s.cad.active then
      (if ({ s.elected with cad := { s.elected.cad with start := true } } : State).mIsCommitted
        then { s.elected with cad := { s.elected.cad with start := true } }
        else ({ s.elected with cad := { s.elected.cad with start := true } } : State).mAbort srcCad)
      else if s.cad.active then s.elected.mBeat s.cad.startAngle else s.elected.announceStep := by
    unfold becomeMaster elected masterCad settle buildTree
    simp only [if_true]
    rfl
  rw [e, h]
  rfl

theorem elected_movesNet (s : State) : MovesNet s s.elected := ⟨rfl⟩

/-- The announcement of a restore's step is emitted, and nothing else changes (R383). -/
theorem announceStep_sends (s : State) : SendsOnly s s.announceStep := by
  unfold announceStep
  split
  · exact .refl s
  · split
    · exact .foldl (fun t d => (SendsOnly.refl t).emit _) _ s
    · exact .refl s

end State

namespace State

theorem endRestore_rest (s : State) : { s.endRestore with regs := s.regs, ing := s.ing } = s := by
  unfold endRestore
  extract_lets s1
  have h1 : { s1 with regs := s.regs } = s := by
    unfold s1
    split <;> rfl
  exact (congrArg (fun v : State => { v with ing := s.ing }) h1 :)

/-- The device whose election has failed, before the fault is raised: Armed and idle (R44). -/
def unelected (s : State) : State :=
  { s.endRestore with
    life := .armed
    cad := { s.cad with role := .idle, active := false, start := false, haltPending := false, chosen := none, confirms := [] } }

/-- The election after RUN or a restore fails, where no command runs (R44). -/
theorem electionFail_of {s : State} (hafter : s.cad.afterLoss = false) (hrunning : s.mbx.running = none) :
    s.electionFail = (s.unelected.raise srcCad 0x51 clsU (s.addr % 2 ^ 14)).finishHalts s.cad.angle s.mbx.halts.length := by
  have hmbx : s.unelected.mbx.running = none := by
    have : s.endRestore.mbx = s.mbx := (congrArg State.mbx s.endRestore_rest :)
    exact (congrArg Mbx.running this :).trans hrunning
  unfold electionFail
  rw [if_neg (by simp [hafter])]
  have e : ({ s.endRestore with
      life := .armed
      cad := { s.cad with role := .idle, active := false, start := false, haltPending := false, chosen := none, confirms := [] } } :
      State) = s.unelected := rfl
  rw [e]
  simp only [hmbx]

/-- The device that has lost its master: the holds cancelled, and that master no candidate again (R45). -/
def losesMaster (s : State) (c : Cad) : State :=
  { s.cancelHolds with cad := { s.cancelHolds.cad with
    want := c.want, lost := c.lost ++ [c.master], afterLoss := true, start := c.start || c.active } }

/-- The Cadence at the start of an election. -/
def electingCad (c : Cad) : Cad := { c with role := .electing, mOn := false, mHolds := [], chosen := none, confirms := [] }

/-- An election starts where candidates remain (R43). -/
theorem startElection_confirms {s : State} (h : s.candidatesRemain = true) :
    Confirms { s with cad := electingCad s.cad } s.startElection := by
  unfold startElection
  extract_lets cad s1 s2
  have hremain : s1.candidatesRemain = true := h
  rw [if_neg (by simp [hremain])]
  have h2 : Confirms s1 s2 := by
    unfold s2
    split
    · refine List.foldlRecOn _ _ (motive := fun t => Confirms s1 t) (.of_routed (.refl s1)) ?_
      intro t ht d _
      exact ht.trans (.of_routed (sendCad_routed ..))
    · exact .of_routed (.refl s1)
  exact h2.trans (confirmLowest_confirms s2)

end State

/-- Settles O20: each message of the election by the state it leaves, the failed one by what it raises, the lost master by the election
that begins. -/
theorem electionsRun : Obligations.ElectionsRun := by
  intro s m hup
  refine ⟨fun htype hrole hwait => ?_, fun htype hrole hnew hlost hchosen hlow hrestore => ?_, fun htype hrole hcand => ⟨?_, ?_, ?_⟩,
    fun hrole hafter hroom hrunning => ?_, fun b hrole hbillet hcands hroom => ?_⟩
  · have e : exec (.candidate m) s = execCandidate m s := rfl
    have hw : ({ s with cad := { s.cad with cands := if s.cad.cands.contains m.source then s.cad.cands else s.cad.cands ++ [m.source] } } :
      State).waitsMaster = false := hwait
    have hr : (s.cad.role == .electing) = false := by simpa using hrole
    rw [e, execCandidate, if_neg (by simp [htype, hup])]
    simp only [hr, hw]
    simp
  · have e : exec (.candidate m) s = execCandidate m s := rfl
    set u : State := { s with cad := { s.cad with cands := s.cad.cands ++ [m.source] } } with hu
    have hexec : execCandidate m s = .next u.confirmLowest := by
      rw [execCandidate, if_neg (by simp [htype, hup])]
      have hc : s.cad.cands.contains m.source = false := by simpa using hnew
      simp only [hc]
      exact if_pos (by simp [hrole])
    have hfilter : u.cad.cands.filter (fun a => !u.cad.lost.contains a) =
        s.cad.cands.filter (fun a => !s.cad.lost.contains a) ++ [m.source] := by
      simp [hu, List.filter_append, hlost]
    have hlowest : State.lowest (u.cad.cands.filter (fun a => !u.cad.lost.contains a)) = some m.source := by
      rw [hfilter]
      exact State.lowest_append_of_lt fun b hb => hlow b (List.mem_of_mem_filter hb)
    have hconfirm := State.confirmLowest_of hlowest (by exact hchosen) hrestore
    exact ⟨_, e.trans hexec, ((OnlyCad.set s _ s.faultQ).trans hconfirm.onlyCad), hconfirm.cad⟩
  · intro hall hactive
    have e : exec (.confirm m) s = execConfirm m s := rfl
    refine ⟨_, e.trans ((execConfirm_of hup htype hrole hcand).trans (congrArg _ (if_pos (allConfirmed_iff.mpr hall)))), ?_⟩
    rw [State.becomeMaster_eq (by simp [hactive]), if_neg (by simp [hactive])]
    set u := ({ s with cad := { s.cad with
      confirms := if m.source ∈ s.cad.confirms then s.cad.confirms else s.cad.confirms ++ [m.source] } } : State) with hu
    have hann := State.announceStep_sends u.elected
    have hcad : u.elected.announceStep.cad = u.elected.cad := hann.cad
    have hkeeps := (u.elected_movesNet.of_onlyCad (OnlyCad.of_sendsOnly hann)).keeps
    rw [hcad]
    exact ⟨rfl, rfl, rfl, rfl, rfl, rfl, rfl, hkeeps⟩
  · intro hall hactive hafter hangle
    have e : exec (.confirm m) s = execConfirm m s := rfl
    refine ⟨_, e.trans ((execConfirm_of hup htype hrole hcand).trans (congrArg _ (if_pos (allConfirmed_iff.mpr hall)))), ?_⟩
    rw [State.becomeMaster_eq (by simp [hafter]), if_pos (by exact hactive)]
    set u := ({ s with cad := { s.cad with
      confirms := if m.source ∈ s.cad.confirms then s.cad.confirms else s.cad.confirms ++ [m.source] } } : State) with hu
    have hne : u.cad.startAngle ≠ 2 ^ 48 - 1 := by
      have : u.cad.startAngle = s.cad.startAngle := rfl
      omega
    have hdue : NoAbortDue u.elected u.cad.startAngle := fun h hh => absurd hh (List.not_mem_nil)
    have hcad : (u.elected.mBeat u.cad.startAngle).cad = State.beatCad u.elected.cad u.cad.startAngle := by
      rw [State.mBeat_eq hne hdue, State.broadcast_cad]
    have hkeeps := (u.elected_movesNet.of_onlyCad (State.mBeat_onlyCad hne hdue)).keeps
    rw [hcad]
    exact ⟨rfl, rfl, rfl, rfl, rfl, rfl, hkeeps⟩
  · rintro ⟨d, hd, hsource, hconfirm, hlost⟩
    have e : exec (.confirm m) s = execConfirm m s := rfl
    refine e.trans ((execConfirm_of hup htype hrole hcand).trans (congrArg _ (if_neg ?_)))
    intro hall
    rcases allConfirmed_iff.mp hall d hd with h | h | h
    · exact hsource h
    · exact hconfirm h
    · exact hlost h
  · have hexec : exec .electionTimeout s = .next s.electionFail := if_neg (by simp [hrole, hup])
    have hq : s.unelected.waitingFrom srcCad < 16 := by
      have : s.unelected.faultQ = s.faultQ := (congrArg State.faultQ s.endRestore_rest :)
      unfold State.waitingFrom
      rw [this]
      exact hroom
    have hfail := State.electionFail_of hafter hrunning
    rw [State.raise_of_room _ _ _ hq] at hfail
    have hfin := State.finishHalts_finishes ({ s.unelected with
      faultQ := s.unelected.faultQ ++ [s.unelected.faultMsg srcCad 0x51 clsU (s.addr % 2 ^ 14) false] } : State) s.cad.angle
      s.mbx.halts.length
    rw [← hfail] at hfin
    have hend := s.endRestore_rest
    have hfaults : s.endRestore.faultQ = s.faultQ := (congrArg State.faultQ hend :)
    have hcad := (congrArg State.cad hfin.rest :)
    refine ⟨_, hexec, (congrArg State.life hfin.rest :), (congrArg Cad.role hcad :), (congrArg Cad.active hcad :), ?_, ?_⟩
    · refine (congrArg State.faultQ hfin.rest :).trans ?_
      exact congrArg (fun l => l ++ [s.faultMsg srcCad 0x51 2 (s.addr % 2 ^ 14) false]) hfaults
    · have hmems : s.electionFail.mems = s.mems := (congrArg State.mems hfin.rest :).trans (congrArg State.mems hend :)
      exact SameBytes.of_mems (congrArg Mems.hearth0 hmems :) (congrArg Mems.hearth1 hmems :) (congrArg Mems.hbm hmems :)
        (congrArg Mems.stock hmems :)
  · obtain ⟨a, hmem, hmaster, hlost⟩ := hcands
    have hexec : exec .masterLost s = .next ((s.raise srcCad 0x52 clsU
        (s.cad.master % 2 ^ 14 + strokeOf s.cad.angle * 2 ^ 16)).losesMaster s.cad).startElection := if_neg (by simp [hrole, hup])
    rw [State.raise_of_room _ _ _ hroom] at hexec
    set u : State := ({ s with faultQ := s.faultQ ++
      [s.faultMsg srcCad 0x52 clsU (s.cad.master % 2 ^ 14 + strokeOf s.cad.angle * 2 ^ 16) false] } : State).losesMaster s.cad with hu
    have hremain : u.candidatesRemain = true := by
      have hb : u.billet = some b := hbillet
      unfold State.candidatesRemain
      rw [hb]
      refine List.any_eq_true.mpr ⟨a, hmem, ?_⟩
      have : u.cad.lost = s.cad.lost ++ [s.cad.master] := rfl
      simp [this, hmaster, hlost]
    have hstart := State.startElection_confirms hremain
    have hcad := hstart.cad
    refine ⟨_, hexec, (congrArg Cad.role hcad :), (congrArg Cad.lost hcad :), (congrArg Cad.afterLoss hcad :), (congrArg Cad.own hcad :),
      (congrArg Cad.cancelled hcad :), (congrArg State.life hstart.rest :), ?_, ?_⟩
    · exact hstart.faults.subset (List.mem_append_right _ (List.mem_singleton.mpr rfl))
    · exact SameBytes.of_mems (congrArg State.hearth0 hstart.rest :) (congrArg State.hearth1 hstart.rest :)
        (congrArg State.hbm hstart.rest :) (congrArg State.stock hstart.rest :)

end Sys2Proof.Machine
end

section
/-!
SUPPORT. Proofs: the sessions of the mailbox and their frames (R427 to R431). -/

namespace Sys2Proof.Machine

/-- A HELLO that finds a free number opens its session, and is answered with a report (R428). -/
theorem execHello_eq {s : State} {f : HjFrame} (bytes : Nat) (hup : s.svcUp = true) (hgood : f.good = true) (hsession : f.session = 0)
    (hsmith : s.smithUp = true) (hboot : s.sys.booted = true) (hlife : s.life ≠ .quench) :
    execHello f bytes s = match (List.range 8).find? (fun n => !(s.mbx.sessions.any (fun x => x.num == n))) with
      | none => .next (s.count Reg.mbxSessionRefused)
      | some n => .next (({ s.draw with
          mbx := { s.mbx with
            sessions := s.mbx.sessions ++ [{
              num := n, sid := s.mbx.nextSid, hello := bytes, kemEk := s.free, keyed := false, keys := [], level := 0, who := 0
              nonceIn := none, nonceOut := 0, authed := false, commanded := false, upload := none }]
            nextSid := s.mbx.nextSid + 1 }
          cru := { s.cru with claimNonce := some bytes } } : State).emit (.hjReport s.mbx.nextSid (s.report bytes s.free))) := by
  unfold execHello
  rw [if_neg (by simp [hup]), if_neg (by simp [hgood, hsession]), if_neg (by simp [hsmith, hboot, hlife])]
  rfl

/-- Settles O1: the number is the least that is free (`find_range_least`), and the report is of the device as it stands. -/
theorem helloOpensSession : Obligations.HelloOpensSession := by
  intro s f bytes hup hgood hsession hsmith hboot hlife
  have hexec := execHello_eq bytes hup hgood hsession hsmith hboot hlife
  refine ⟨fun n hn hused hfree => ?_, fun hused => ?_⟩
  · have hfind : (List.range 8).find? (fun n => !(s.mbx.sessions.any (fun x => x.num == n))) = some n := by
      refine find_range_least hn ?_ fun m hm => ?_
      · simpa using hfree
      · simpa using hused m hm
    rw [hfind] at hexec
    exact ⟨_, s.report bytes s.free, hexec, rfl, rfl, rfl, rfl, rfl⟩
  · have hfind : (List.range 8).find? (fun n => !(s.mbx.sessions.any (fun x => x.num == n))) = none := by
      rw [List.find?_eq_none]
      intro n hn
      simpa using hused n (List.mem_range.mp hn)
    rw [hfind] at hexec
    exact hexec

/-! ## Frames that are taken -/

/-- A session whose valid frame has been taken. -/
abbrev heard (x : Session) (f : HjFrame) : Session := { x with nonceIn := some f.nonce }

/-- A session that has been answered. -/
abbrev told (x : Session) : Session := { x with nonceOut := x.nonceOut + 1 }

/-- The device with its sessions changed. -/
def State.withSessions (s : State) (l : List Session) : State := { s with mbx := { s.mbx with sessions := l } }

theorem ValidFrame.sid {s : State} {f : HjFrame} {x : Session} (h : ValidFrame s f x) : x.sid = f.session :=
  (State.session?_mem h.2.1).2

theorem ValidFrame.session {s : State} {f : HjFrame} {x : Session} (h : ValidFrame s f x) : s.session? x.sid = some x := by
  rw [ValidFrame.sid h]
  exact h.2.1

/-- A session changed twice is changed the second time. -/
theorem State.setSession_setSession {s : State} {x y : Session} (h : y.num = x.num) :
    (s.setSession y).setSession x = s.setSession x := by
  rw [State.setSession_eq, State.setSession_eq, State.setSession_eq]
  simp only [withSession_twice _ _ _ h]

/-- A sealed answer to a session that has changed but kept its number, its SESSION and its keys (R427). -/
theorem State.sendSealed_of {s u : State} {x y : Session} (hs : s.session? x.sid = some x) (hnum : y.num = x.num) (hsid : y.sid = x.sid)
    (hu : u.mbx.sessions = withSession s.mbx.sessions y) (head : HjHead) (l : List Byte) :
    u.sendSealed y head l = (u.withSessions (withSession s.mbx.sessions (told y))).emit
      (.hjeliz { head with session := y.sid, nonce := y.nonceOut } l
        (sealTag y { head with session := y.sid, nonce := y.nonceOut } l)) := by
  have hfind : u.session? y.sid = some y := by
    unfold State.session?
    rw [hu, hsid]
    exact find_withSession s.mbx.sessions y x hnum hsid hs
  have htwice : withSession u.mbx.sessions (told y) = withSession s.mbx.sessions (told y) := by
    rw [hu, withSession_twice s.mbx.sessions (told y) y rfl]
  rw [State.sendSealed_eq hfind, State.setSession_eq, htwice]
  rfl

/-- The answer to a session whose valid frame has been taken. -/
theorem ValidFrame.sendSealed {s u : State} {f : HjFrame} {x : Session} (h : ValidFrame s f x)
    (hu : u.mbx.sessions = withSession s.mbx.sessions (heard x f)) (head : HjHead) (l : List Byte) :
    u.sendSealed (heard x f) head l = (u.withSessions (withSession s.mbx.sessions (told (heard x f)))).emit
      (.hjeliz { head with session := x.sid, nonce := x.nonceOut } l
        (sealTag x { head with session := x.sid, nonce := x.nonceOut } l)) :=
  State.sendSealed_of (x := x) (y := heard x f) h.session rfl rfl hu head l

/-- Sessions but one are as they were, whatever that one has become. -/
theorem filter_withSession (l : List Session) (x : Session) :
    (withSession l x).filter (fun y => y.num != x.num) = l.filter (fun y => y.num != x.num) := by
  induction l with
  | nil => rfl
  | cons a l ih =>
    unfold withSession at ih ⊢
    by_cases h : a.num = x.num
    · simpa [h] using ih
    · simpa [h] using ih

/-- A sealed answer leaves the sessions of other numbers. -/
theorem State.sendSealed_rest (s : State) (x : Session) (head : HjHead) (l : List Byte) :
    (∀ n, x.num = n → s.session? x.sid = some x →
      (s.sendSealed x head l).mbx.sessions.filter (fun y => y.num != n) = s.mbx.sessions.filter (fun y => y.num != n)) ∧
    { s.sendSealed x head l with mbx := s.mbx, out := s.out } = s := by
  refine ⟨?_, ?_⟩
  · rintro n rfl hs
    rw [State.sendSealed_eq hs]
    exact filter_withSession s.mbx.sessions (told x)
  · unfold State.sendSealed
    split <;> rfl

/-- A credential that a taken frame brings (R429, R430). -/
theorem credOk_iff {s : State} {x : Session} {c : Cred} : credOk s x c = true ↔
    (x.authed = false ∧ x.commanded = false ∧ s.life ≠ .blank ∧ s.life ≠ .recovery) ∧ c.sigOk = true ∧ s.cru.owner = some c.owner ∧
      (c.level = 3 ∨ ((c.level = 1 ∨ c.level = 2) ∧
        c.grantOwner = c.owner ∧ c.grantLevel = c.level ∧ s.get Reg.mbxGrantMin ≤ c.serial)) := by
  unfold credOk
  simp only [Bool.and_eq_true, Bool.or_eq_true, Bool.not_eq_true', bne_iff_ne, decide_eq_true_eq, beq_iff_eq, and_assoc]
  constructor
  · rintro ⟨h1, h2, h3, h4, h5, h6, h7, h8, h9⟩
    refine ⟨h1, h2, h3, h4, h5, h8.symm, ?_⟩
    rcases h9 with h9 | h9
    · exact .inl h9
    · by_cases hl : c.level = 3
      · exact .inl hl
      · exact .inr ⟨by omega, h9⟩
  · rintro ⟨h1, h2, h3, h4, h5, h6, h7⟩
    refine ⟨h1, h2, h3, h4, h5, ?_, ?_, h6.symm, ?_⟩
    · rcases h7 with h7 | ⟨h7, -⟩ <;> omega
    · rcases h7 with h7 | ⟨h7, -⟩ <;> omega
    · rcases h7 with h7 | ⟨-, h7⟩
      · exact .inl h7
      · exact .inr h7

namespace State

/-- A session that closes leaves the others, and everything but its slots and its bank (R431). -/
theorem closeSession_rest (s : State) (x : Session) :
    { s.closeSession x with
      mbx := { (s.closeSession x).mbx with sessions := s.mbx.sessions, slots := s.mbx.slots }
      sys := { (s.closeSession x).sys with banks := s.sys.banks } } = s := rfl

theorem closeSession_bank_same (s : State) (x : Session) : (s.closeSession x).bank (2 + x.num) = Bank.init := Assoc.get_del_same _ _ _

theorem closeSession_bank_ne (s : State) (x : Session) {k : Nat} (h : k ≠ 2 + x.num) : (s.closeSession x).bank k = s.bank k :=
  Assoc.get_del_ne _ _ h

/-- A slot that is not of a closed session at level 0 stays. -/
theorem mem_closeSession_slots {s : State} {x : Session} {y : Slot} (hy : y ∈ s.mbx.slots) (h : y.level ≠ 0 ∨ y.session ≠ x.num) :
    y ∈ (s.closeSession x).mbx.slots := by
  have hmine : (y.level == 0 && y.session == x.num) = false := by
    rcases h with h | h <;> simp [h]
  refine List.mem_map.mpr ⟨y, List.mem_filter.mpr ⟨hy, by simp [hmine]⟩, by simp [hmine]⟩

/-- The slots of the closed session that stay are PENDING, and go once READY (R437). -/
theorem closeSession_slots_closed {s : State} {x : Session} {y : Slot} (hy : y ∈ (s.closeSession x).mbx.slots) (hl : y.level = 0)
    (hx : y.session = x.num) : y.ready = false ∧ y.closed = true := by
  obtain ⟨z, hz, rfl⟩ := List.mem_map.mp hy
  obtain ⟨-, hz⟩ := List.mem_filter.mp hz
  by_cases hmine : (z.level == 0 && z.session == x.num) = true
  · simp only [hmine, if_true] at hz ⊢
    simpa using hz
  · simp only [hmine] at hl hx
    simp [show z.level = 0 from hl, show z.session = x.num from hx] at hmine

end State

/-- Settles O3: each frame by what it leaves of a valid one (`takeFrame_valid`). -/
theorem sessionFramesAct : Obligations.SessionFramesAct := by
  intro s f x
  refine ⟨fun hup hs hgood hkeyed => ?_, fun hvalid => ⟨fun c => ?_, ?_, ?_⟩⟩
  · have e : exec (.kem f) s = execKem f s := rfl
    rw [e, execKem, if_neg (by simp [hup]), hs]
    exact if_pos (by simp [hgood, hkeyed])
  · intro first granted good
    have e : exec (.auth f c) s = execAuth f c s := rfl
    have htaken := takeFrame_valid hvalid fun t x =>
      if credOk t x c then
        .next (t.setSession { x with authed := true, level := c.level, who := if c.level = 3 then c.owner else c.who })
      else .next ((t.count Reg.mbxAuthFail).dropSession x)
    have hcred : credOk (s.setSession (heard x f)) (heard x f) c = true ↔ good := credOk_iff
    refine ⟨fun hgood => ?_, fun hbad => ?_⟩
    · refine (e.trans htaken).trans ((if_pos (hcred.mpr hgood)).trans (congrArg _ ?_))
      exact State.setSession_setSession rfl
    · refine ⟨_, (e.trans htaken).trans (if_neg fun h => hbad (hcred.mp h)), ?_⟩
      have hkeyed : (heard x f).keyed = true := hvalid.2.2.2.1
      set u := (s.setSession (heard x f)).count Reg.mbxAuthFail with hu
      have hsession : u.session? x.sid = some (heard x f) :=
        (State.session?_setSession hvalid.session rfl rfl : (s.setSession (heard x f)).session? x.sid = some (heard x f))
      have hregs : SameRegsBut [Reg.mbxAuthFail] s u := (SameRegsBut.refl _ (s.setSession (heard x f))).count Reg.mbxAuthFail 1 (by simp)
      have hcount : Counted s u Reg.mbxAuthFail := State.get_count_same (s.setSession (heard x f)) Reg.mbxAuthFail 1 (by decide)
      have hrest : { u with mbx := s.mbx, regs := s.regs } = s := rfl
      have hfilter : u.mbx.sessions.filter (fun y => y.num != x.num) = s.mbx.sessions.filter (fun y => y.num != x.num) :=
        filter_withSession s.mbx.sessions (heard x f)
      unfold State.dropSession
      rw [if_pos hkeyed]
      obtain ⟨hothers, hsent⟩ := u.sendSealed_rest (heard x f) { type := 11, session := 0, nonce := 0, tag := 0, opcode := 0
                                                                 slot := noSlot, offset := 0, total := 0, status := rcOk
                                                                 reads := 0, jseq := noSeq } []
      have hothers := hothers x.num rfl hsession
      generalize u.sendSealed (heard x f) _ [] = v at hothers hsent ⊢
      clear_value u
      have hvregs : v.regs = u.regs := (congrArg State.regs hsent :)
      have hget : ∀ g, v.get g = u.get g := State.get_of_regs hvregs
      refine ⟨hothers.trans hfilter, (hget Reg.mbxAuthFail).trans hcount, fun g hg => (hget g).trans (hregs g hg), ?_⟩
      let kept : State → State := fun v => { v with mbx := s.mbx, sys := s.sys, regs := s.regs, out := s.out }
      have hk : kept (v.closeSession (heard x f)) = kept u := (congrArg kept hsent :)
      exact hk.trans (congrArg kept hrest :)
  · have e : exec (.ping f) s = execPing f s := rfl
    refine (e.trans (takeFrame_valid hvalid _)).trans (congrArg _ ?_)
    exact hvalid.sendSealed rfl _ _
  · have e : exec (.close f) s = execClose f s := rfl
    refine ⟨_, e.trans (takeFrame_valid hvalid _), ?_, ?_, fun k hk => ?_, fun y hy h => ?_, fun y hy hl hx => ?_, rfl⟩
    · exact filter_withSession s.mbx.sessions (heard x f)
    · exact State.closeSession_bank_same _ (heard x f)
    · exact State.closeSession_bank_ne _ (heard x f) hk
    · exact State.mem_closeSession_slots (x := heard x f) hy h
    · exact State.closeSession_slots_closed hy hl hx

end Sys2Proof.Machine
end

section
/-!
SUPPORT. Proofs: the result slots (R436 to R438), and the COMMAND frames that take them (R432 to R435). -/

namespace Sys2Proof.Machine

/-- The slot of the number that a search finds. -/
theorem State.slot?_num {s : State} {n : Nat} {y : Slot} (h : s.slot? n = some y) : y.num = n := by
  simpa using List.find?_some h

/-- A slot that the caller may read and free (R437). -/
theorem callerSlot_of {s : State} {x : Session} {n : Nat} {y : Slot} (h : s.slot? n = some y) (hx : x.level = 3 ∨ y.who = x.who) :
    callerSlot s x n = some y := by
  unfold callerSlot
  rw [h]
  exact if_pos hx

theorem callerSlot_none {s : State} {x : Session} {n : Nat} (h : ∀ y, s.slot? n = some y → x.level ≠ 3 ∧ y.who ≠ x.who) :
    callerSlot s x n = none := by
  unfold callerSlot
  split
  next y hy =>
    obtain ⟨h1, h2⟩ := h y hy
    exact if_neg (by simp [h1, h2])
  next => rfl

/-- The slots that a caller may see. -/
theorem callerSlot_eq (s : State) (x : Session) (n : Nat) :
    callerSlot s x n = (s.slot? n).filter (fun y => x.level == 3 || y.who == x.who) := by
  unfold callerSlot
  cases s.slot? n with
  | none => rfl
  | some y =>
    simp only [Option.filter_some]
    by_cases h : x.level = 3 ∨ y.who = x.who
    · rw [if_pos h, if_pos (by simpa using h)]
    · rw [if_neg h, if_neg (by simpa using h)]

/-- The device after a sealed answer to the session of a taken frame, with the slots as given. -/
def answeredWith (s : State) (f : HjFrame) (x : Session) (l : List Slot) (h : HjHead) (p : List Byte) : State :=
  { s with
    mbx := { s.mbx with
      sessions := withSession s.mbx.sessions { x with nonceIn := some f.nonce, nonceOut := x.nonceOut + 1 }, slots := l }
    out := answered s x h p }

/-- An answer to the session of a taken frame, after a change of the slots. -/
theorem ValidFrame.answers {s u : State} {f : HjFrame} {x : Session} (h : ValidFrame s f x) (l : List Slot)
    (hu : u = { s.setSession (heard x f) with mbx := { (s.setSession (heard x f)).mbx with slots := l } }) (head : HjHead) (p : List Byte) :
    u.sendSealed (heard x f) head p = answeredWith s f x l { head with session := x.sid, nonce := x.nonceOut } p := by
  rw [h.sendSealed (by rw [hu]; rfl), hu]
  rfl

/-- Settles O5: each frame by the branch of its slot, and its answer by `ValidFrame.answers`. -/
theorem slotsAreReadAndFreed : Obligations.SlotsAreReadAndFreed := by
  intro s f x hvalid now sent
  set t := s.setSession (heard x f) with ht
  have hread : ∀ y, s.slot? f.slot = some y → x.level = 3 ∨ y.who = x.who → callerSlot t (heard x f) f.slot = some y :=
    fun y hy hx => callerSlot_of (s := t) (x := heard x f) hy hx
  have hexecRead : execRead f s = _ := takeFrame_valid hvalid _
  have hexecAck : execAck f s = _ := takeFrame_valid hvalid _
  have hexecList : execList f s = _ := takeFrame_valid hvalid _
  rw [← ht] at hexecRead hexecAck hexecList
  have answers : ∀ {i : Instr} {u : State} (l : List Slot) (head : HjHead) (p : List Byte),
      exec i s = .next (u.sendSealed (heard x f) head p) → u = { t with mbx := { t.mbx with slots := l } } →
      sent i l { head with session := x.sid, nonce := x.nonceOut } p := fun l head p he hu =>
    he.trans (congrArg _ (hvalid.answers l hu head p))
  refine ⟨fun y hy hx => ⟨?_, fun hready => ?_, fun htag hready => ?_, fun htag hready => ?_, fun htag => ?_⟩, fun hno => ⟨?_, ?_⟩, ?_⟩
  · intro hready hreads z
    have hz : (if f.offset = 0 then { y with reads := min (y.reads + 1) 65535 } else y) = z := by
      unfold z
      rw [Nat.min_eq_left (by omega)]
    simp only [hread y hy hx] at hexecRead
    rw [if_pos hready, hz] at hexecRead
    exact answers (i := .read f) _ _ _ hexecRead rfl
  · simp only [hread y hy hx] at hexecRead
    rw [if_neg (by simp [hready])] at hexecRead
    exact answers (i := .read f) s.mbx.slots _ _ hexecRead rfl
  · simp only [hread y hy hx] at hexecAck
    rw [if_neg (by simp [htag]), if_pos hready, State.slot?_num hy] at hexecAck
    exact answers (i := .ack f) _ _ _ hexecAck rfl
  · simp only [hread y hy hx] at hexecAck
    rw [if_neg (by simp [htag]), if_neg (by simp [hready])] at hexecAck
    exact answers (i := .ack f) s.mbx.slots _ _ hexecAck rfl
  · simp only [hread y hy hx] at hexecAck
    rw [if_pos htag] at hexecAck
    exact answers (i := .ack f) s.mbx.slots _ _ hexecAck rfl
  · simp only [callerSlot_none (s := t) (x := heard x f) hno] at hexecRead
    exact answers (i := .read f) s.mbx.slots _ _ hexecRead rfl
  · simp only [callerSlot_none (s := t) (x := heard x f) hno] at hexecAck
    exact answers (i := .ack f) s.mbx.slots _ _ hexecAck rfl
  · intro l
    have hl : ((List.range 64).filterMap (callerSlot t (heard x f))).flatMap slotRecord = l :=
      congrArg (fun g => ((List.range 64).filterMap g).flatMap slotRecord) (funext fun n => callerSlot_eq t (heard x f) n)
    simp only [hl] at hexecList
    exact answers (i := .list f) s.mbx.slots _ _ hexecList rfl

end Sys2Proof.Machine
end

section
/-!
SUPPORT. Proofs: the COMMAND frames (R432 to R435). -/

namespace Sys2Proof.Machine

/-- A session that has given a COMMAND. -/
abbrev commanding (x : Session) (f : HjFrame) : Session := { heard x f with commanded := true }

/-- From `s` to `t` one register has counted, and a sealed answer has gone to session `x`; of the mailbox `m` is left. -/
structure CountsAnswer (s t : State) (c : Fld) (m : Mbx) (out : List Out) : Prop where
  mbx : t.mbx = m
  out : t.out = out
  counted : Counted s t c
  regs : SameRegsBut [c] s t
  rest : { t with mbx := s.mbx, out := s.out, regs := s.regs } = s

/-- What a COMMAND frame counts and answers, with the mailbox changed to `m` before. -/
theorem ValidFrame.countsAnswer {s : State} {f : HjFrame} {x : Session} (h : ValidFrame s f x) {c : Fld} (hc : 1 ≤ c.w) (m : Mbx)
    (hm : m.sessions = withSession s.mbx.sessions (commanding x f)) (tag opcode slot status : Nat) :
    CountsAnswer s ((({ s with mbx := m } : State).count c).reply (commanding x f) tag opcode slot status noSeq) c
      { m with sessions := withSession s.mbx.sessions (told (commanding x f)) }
      (answered s x (replyHead x tag opcode slot status) []) := by
  have e := State.sendSealed_of (u := ({ s with mbx := m } : State).count c) (y := commanding x f) h.session rfl rfl hm
    { type := 6, session := 0, nonce := 0, tag := tag, opcode := opcode, slot := slot, offset := 0, total := 0
      status := status, reads := 0, jseq := noSeq } []
  unfold State.reply
  rw [e]
  exact ⟨rfl, rfl, State.get_count_same ({ s with mbx := m } : State) c 1 hc, (SameRegsBut.refl _ ({ s with mbx := m } : State)).count c 1 (by simp), rfl⟩

/-- The device that has taken a COMMAND frame, before the argument. -/
def State.commandTaken (s : State) (f : HjFrame) (x : Session) : State :=
  { s with mbx := { s.mbx with sessions := withSession s.mbx.sessions (commanding x f) } }

/-- What a COMMAND frame does where no argument is under way (R432 to R434). -/
theorem execCommand_of {s : State} {f : HjFrame} {x : Session} (h : ValidFrame s f x) (hupload : x.upload = none)
    (htotal : f.total ≤ 8388608) :
    execCommand f s = .next (match s.duplicateOf x f.tag with
      | some d => (s.commandTaken f x).answerDuplicate (commanding x f) f.tag f.opcode d
      | none =>
        if f.total < f.offset + f.payload.length then
          (s.commandTaken f x).refuseCommand (commanding x f) f.tag f.opcode rcBadArgs noSeq
        else (s.commandTaken f x).landPart (commanding x f)
          { opcode := f.opcode, tag := f.tag, total := f.total, head := false, parts := [] } f.offset f.payload) := by
  have hlarge : decide (bufferBytes < f.total) = false := by
    unfold bufferBytes
    simpa using htotal
  have hset : (s.setSession (heard x f)).setSession (commanding x f) = s.commandTaken f x := State.setSession_setSession rfl
  refine (takeFrame_valid h _).trans ?_
  extract_lets y s1 beyond bad
  have hs1 : s1 = s.commandTaken f x := hset
  have hbeyond : (beyond = true) = (f.total < f.offset + f.payload.length) := by
    unfold beyond
    rw [hlarge, Bool.false_and, Bool.or_false, decide_eq_true_eq]
  have hy : y.upload = none := hupload
  have hdup : s1.duplicateOf y f.tag = s.duplicateOf x f.tag := rfl
  simp only [hy, hdup, hbeyond, bad]
  rw [hs1]
  cases s.duplicateOf x f.tag with
  | some d => rfl
  | none => exact (apply_ite Host.Outcome.next _ _ _).symm

/-- A header of the job that the device holds leaves it as it was. -/
theorem State.headerSeen_of {s : State} {x : Session} {opcode : Nat} {l : List Byte}
    (h : opcode = 0x0103 → s.jobDiffers (fieldAt l 16 16) = false) : s.headerSeen x opcode l = s := by
  unfold State.headerSeen
  split
  next hop =>
    unfold State.leaveJob
    rw [if_neg (by simp [h hop.1])]
  next => rfl

/-- The bytes of one part. -/
theorem overlay_nil (off : Nat) (l : List Byte) : overlay [] off l = if l.isEmpty then [] else [(off, l)] := by
  unfold overlay
  split <;> rfl

theorem partBytes_overlay_nil (off : Nat) (l : List Byte) : partBytes (overlay [] off l) = l.length := by
  rw [overlay_nil]
  cases l <;> simp [partBytes]

theorem flatMap_overlay_nil (off : Nat) (l : List Byte) : (overlay [] off l).flatMap (fun p => p.2) = l := by
  rw [overlay_nil]
  cases l <;> simp

/-- The first frame of an argument no larger than the command buffer (R432, R434). -/
theorem State.landPart_first {s : State} {x : Session} {opcode tag total off : Nat} {l : List Byte} (htotal : total ≤ 8388608)
    (hhead : opcode = 0x0103 → s.jobDiffers (fieldAt l 16 16) = false) :
    s.landPart x { opcode := opcode, tag := tag, total := total, head := false, parts := [] } off l =
      if l.length = total then (s.setSession { x with upload := none }).landCommand x opcode tag l
      else s.setSession { x with upload := some { opcode := opcode, tag := tag, total := total
                                                  head := off == 0 && decide (min 32 total ≤ l.length), parts := overlay [] off l } } := by
  have hlarge : decide (bufferBytes < total) = false := by
    unfold bufferBytes
    simpa using htotal
  have hs1 : (if (off == 0 && decide (min 32 total ≤ l.length)) && !false then s.headerSeen x opcode l else s) = s := by
    split
    · exact State.headerSeen_of hhead
    · rfl
  unfold State.landPart
  simp only [hs1, hlarge, Bool.false_and, Bool.false_or, partBytes_overlay_nil, flatMap_overlay_nil]
  rfl

/-- Settles O4: a frame by what is due before its argument (`execCommand_of`), and its argument by what has come of it
(`State.landPart_first`). -/
theorem commandTakesSlot : Obligations.CommandTakesSlot := by
  intro s f x hvalid hupload htotal hjob y now refused
  have hexec := execCommand_of hvalid hupload htotal
  have hy : ({ commanding x f with upload := none } : Session) = commanding x f := by
    cases x
    cases hupload
    rfl
  have hagain : (s.commandTaken f x).setSession (commanding x f) = s.commandTaken f x := by
    unfold State.commandTaken
    rw [State.setSession_eq]
    simp only [withSession_twice s.mbx.sessions (commanding x f) (commanding x f) rfl]
  have answers : ∀ {u : State} {c : Fld} {m : Mbx} {o : List Out}, execCommand f s = .next u → CountsAnswer s u c m o →
      ∃ t, exec (.command f) s = .next t ∧ t.mbx = m ∧ t.out = o ∧ Counted s t c ∧ SameRegsBut [c] s t ∧
        { t with mbx := s.mbx, out := s.out, regs := s.regs } = s := fun he h => ⟨_, he, h.mbx, h.out, h.counted, h.regs, h.rest⟩
  have refuses : ∀ {status : Nat}, execCommand f s = .next
      ((s.commandTaken f x).refuseCommand (commanding x f) f.tag f.opcode status noSeq) → refused status := fun he =>
    answers he (hvalid.countsAnswer (by decide) _ rfl _ _ _ _)
  refine ⟨fun z hz => ?_, fun hdup => ⟨fun hbeyond => ?_, fun hin hne hpart => ?_, fun hoff hwhole => ?_⟩⟩
  · have hd : s.duplicateOf x f.tag = some (.inl z) := by
      unfold State.duplicateOf
      rw [hz]
    rw [hd] at hexec
    exact answers hexec (hvalid.countsAnswer (c := Reg.mbxDuplicate) (by decide) _ rfl _ _ _ _)
  · rw [hdup] at hexec
    exact refuses (hexec.trans (congrArg _ (if_pos hbeyond)))
  · rw [hdup] at hexec
    have hpart := (State.landPart_first (s := s.commandTaken f x) (x := commanding x f) (tag := f.tag) (off := f.offset) htotal hjob).trans
      (if_neg (Nat.ne_of_lt hpart))
    refine hexec.trans (congrArg _ ((if_neg (Nat.not_lt.mpr hin)).trans (hpart.trans ?_)))
    rw [overlay_nil, if_neg (by simpa using hne)]
    exact State.setSession_setSession (s := s) (y := commanding x f) rfl
  · rw [hdup] at hexec
    have hland : execCommand f s = .next ((s.commandTaken f x).landCommand (commanding x f) f.opcode f.tag f.payload) := by
      have hpart := (State.landPart_first (s := s.commandTaken f x) (x := commanding x f) (tag := f.tag) (off := f.offset) htotal hjob).trans
        (if_pos hwhole.symm)
      refine hexec.trans (congrArg _ ((if_neg (by omega)).trans (hpart.trans ?_)))
      rw [hy, hagain]
    have hdup' : (s.commandTaken f x).duplicateOf (commanding x f) f.tag = none := hdup
    unfold State.landCommand at hland
    rw [hdup'] at hland
    refine ⟨fun hno => ?_, fun c hc => ⟨fun hbad => ?_, fun hok hlow => ?_, fun hok hlevel => ⟨fun hfull => ?_, fun n hn hfree hused => ?_⟩⟩⟩
    · simp only [hno] at hland
      exact refuses hland
    · simp only [hc] at hland
      exact refuses (hland.trans (congrArg _ (if_pos (by simp [hbad]))))
    · simp only [hc] at hland
      exact refuses (hland.trans (congrArg _ ((if_neg (by simp [hok])).trans (if_pos hlow))))
    · have hfind : (List.range 64).find? (fun n => ((s.commandTaken f x).slot? n).isNone) = none := by
        rw [List.find?_eq_none]
        intro n hn hnone
        exact hfull n (List.mem_range.mp hn) (Option.isNone_iff_eq_none.mp hnone)
      simp only [hc, hfind] at hland
      exact refuses (hland.trans (congrArg _ ((if_neg (by simp [hok])).trans (if_neg (Nat.not_lt.mpr hlevel)))))
    · have hfind : (List.range 64).find? (fun n => ((s.commandTaken f x).slot? n).isNone) = some n := by
        refine find_range_least hn (Option.isNone_iff_eq_none.mpr hfree) fun m hm => ?_
        have hm := hused m hm
        exact Option.isNone_eq_false_iff.mpr (Option.isSome_iff_ne_none.mpr hm)
      simp only [hc, hfind] at hland
      have hland := hland.trans (congrArg _ ((if_neg (by simp [hok])).trans (if_neg (Nat.not_lt.mpr hlevel))))
      have hqueue : (if c.journalled && !aheadOf f.opcode then s.mbx.queue ++ [n] else s.mbx.queue) =
          (if c.journalled ∧ f.opcode ≠ 0x0107 ∧ f.opcode ≠ 0x0109 then s.mbx.queue ++ [n] else s.mbx.queue) := by
        simp [aheadOf]
      obtain ⟨t, ht, hmbx, hrest⟩ := answers hland (hvalid.countsAnswer (c := Reg.mbxCmds) (by decide) _ rfl _ _ _ _)
      exact ⟨t, ht, hmbx.trans (congrArg (fun q => ({ now with slots := _, queue := q } : Mbx)) hqueue), hrest⟩

end Sys2Proof.Machine
end

section
/-!
SUPPORT. Proofs: how a command completes in its slot (R435, R436, R449), and the commands that the lifecycle state turns away. -/

namespace Sys2Proof.Machine

namespace State

/-- The slot of a number after that slot has changed. -/
theorem slot?_setSlot_same {s : State} {n : Nat} {x y : Slot} (h : s.slot? n = some x) (hy : y.num = n) :
    (s.setSlot y).slot? n = some y := by
  unfold slot? setSlot at *
  generalize s.mbx.slots = l at h
  induction l with
  | nil => cases h
  | cons a l ih =>
    rw [List.map_cons, List.find?_cons]
    by_cases ha : a.num = n
    · rw [if_pos (ha.trans hy.symm)]
      simp [hy]
    · have hne : ¬ a.num = y.num := fun e => ha (e.trans hy)
      rw [List.find?_cons] at h
      have hbeq : (a.num == n) = false := by simpa using ha
      rw [hbeq] at h
      rw [if_neg hne, hbeq]
      exact ih h

/-- The slots of other numbers after a slot has changed. -/
theorem filter_setSlot (s : State) (y : Slot) :
    (s.setSlot y).mbx.slots.filter (fun z => z.num != y.num) = s.mbx.slots.filter (fun z => z.num != y.num) := by
  unfold setSlot
  generalize s.mbx.slots = l
  induction l with
  | nil => rfl
  | cons a l ih =>
    by_cases h : a.num = y.num
    · simpa [h] using ih
    · simpa [h] using ih

/-- A freed slot is gone, and the others stay. -/
theorem slot?_freeSlot (s : State) (n : Nat) : (s.freeSlot n).slot? n = none := by
  unfold slot? freeSlot
  rw [List.find?_eq_none]
  intro z hz
  simpa using (List.mem_filter.mp hz).2

theorem filter_freeSlot (s : State) (n : Nat) :
    (s.freeSlot n).mbx.slots.filter (fun z => z.num != n) = s.mbx.slots.filter (fun z => z.num != n) := by
  unfold freeSlot
  rw [List.filter_filter]
  simp

/-- The waiting RESET entry takes one SEQ (R449). -/
theorem flushReset_head (s : State) : s.flushReset.jnl.head = nextSeq s := by
  unfold flushReset nextSeq
  split
  next h => simp [h]
  next c h =>
    simp only [h, Option.isSome_some, if_true]
    rfl

/-- The waiting RESET entry changes the journal alone. -/
theorem flushReset_rest (s : State) : { s.flushReset with jnl := s.jnl } = s := by
  unfold flushReset
  split <;> rfl

/-- What a command's end has made of the journal: its entry, where it is journalled (R449). -/
def journaled (s : State) (x : Slot) (code : Nat) : State :=
  if journalled x.opcode then
    s.flushReset.journal (0x4000 + x.session) x.opcode code x.tag (x.who % 2 ^ 64) (leBytes 32 (Config.sha384 x.arg))
  else s

/-- The slot of a command that is complete. -/
def doneSlot (s : State) (x : Slot) (code : Nat) (result : List Byte) : Slot :=
  { x with ready := true, code := code, result := result, jseq := if journalled x.opcode then some (nextSeq s) else none }

/-- A command that has completed has left the queues. -/
def leaves (s : State) (n : Nat) : State :=
  { s with mbx := { s.mbx with
    queue := s.mbx.queue.filter (fun m => m != n), halts := s.mbx.halts.filter (fun m => m != n)
    running := if s.mbx.running = some n then none else s.mbx.running } }

/-- The slot `y` of a command becomes complete, or free where its level-0 session has closed (R436, R437). -/
def completeSlot (s : State) (y : Slot) : State :=
  if y.closed then ((s.setSlot y).leaves y.num).freeSlot y.num else (s.setSlot y).leaves y.num

/-- A command completes: its journal entry, its slot and the queues. -/
theorem finish_eq (s : State) (x : Slot) {code : Nat} (result : List Byte) (h : code ≠ rcAborted) :
    s.finish x code result = (s.journaled x code).completeSlot (s.doneSlot x code result) := by
  unfold finish
  extract_lets j s0 seq s1 y s2 mbx s3 s4
  have hs4 : s4 = s3 := if_neg h
  have hs1 : s1 = s.journaled x code ∧ y = s.doneSlot x code result := by
    by_cases hj : journalled x.opcode = true
    · have hs0 : s0 = s.flushReset := if_pos hj
      refine ⟨?_, ?_⟩
      · refine (if_pos hj : s1 = _).trans ?_
        rw [hs0]
        exact (if_pos hj).symm
      · unfold y doneSlot
        have hseq : seq = nextSeq s := by
          unfold seq
          rw [hs0, flushReset_head]
        rw [hseq]
        rfl
    · refine ⟨(if_neg hj : s1 = _).trans (if_neg hj).symm, ?_⟩
      unfold y doneSlot
      rw [if_neg hj, if_neg (show ¬ j = true from hj)]
  obtain ⟨hs1, hy⟩ := hs1
  have hs3 : s3 = ((s.journaled x code).setSlot (s.doneSlot x code result)).leaves x.num := by
    unfold s3 mbx s2
    rw [hs1, hy]
    rfl
  rw [hs4, hs3]
  rfl

theorem journaled_rest (s : State) (x : Slot) (code : Nat) : { s.journaled x code with jnl := s.jnl } = s := by
  unfold journaled
  split
  · exact s.flushReset_rest
  · rfl

/-- A slot that becomes complete changes the mailbox alone. -/
theorem completeSlot_rest (s : State) (y : Slot) : { s.completeSlot y with mbx := s.mbx } = s := by
  unfold completeSlot
  split <;> rfl

/-- Of a device whose mailbox still holds the slot, a command that completes leaves all but the mailbox and the journal. -/
theorem finish_rest (s : State) (x : Slot) {code : Nat} (result : List Byte) (h : code ≠ rcAborted) :
    { s.finish x code result with mbx := s.mbx, jnl := s.jnl } = s := by
  rw [finish_eq s x result h]
  have hc := (s.journaled x code).completeSlot_rest (s.doneSlot x code result)
  let kept : State → State := fun v => { v with mbx := s.mbx, jnl := s.jnl }
  exact (congrArg kept hc :).trans (congrArg kept (s.journaled_rest x code) :)

/-- What a slot that becomes complete leaves in the mailbox. -/
theorem completeSlot_mbx {s : State} {x y : Slot} (h : s.slot? y.num = some x) :
    (s.completeSlot y).slot? y.num = (if y.closed then none else some y) ∧
      (s.completeSlot y).mbx.sessions = s.mbx.sessions ∧ (s.completeSlot y).mbx.nextSid = s.mbx.nextSid ∧
      (s.completeSlot y).mbx.slots.filter (fun z => z.num != y.num) = s.mbx.slots.filter (fun z => z.num != y.num) ∧
      (s.completeSlot y).mbx.queue = s.mbx.queue.filter (fun m => m != y.num) := by
  unfold completeSlot
  by_cases hclosed : y.closed = true
  · simp only [hclosed, if_true]
    exact ⟨slot?_freeSlot _ _, rfl, rfl, (filter_freeSlot _ _).trans (s.filter_setSlot y), rfl⟩
  · simp only [hclosed]
    exact ⟨slot?_setSlot_same h rfl, rfl, rfl, s.filter_setSlot y, rfl⟩

end State

/-- The mailbox of `u` holds the sessions, the slots and the queue of `s`, and its journal is that of `s`. -/
structure SameSlots (s u : State) : Prop where
  sessions : u.mbx.sessions = s.mbx.sessions
  nextSid : u.mbx.nextSid = s.mbx.nextSid
  slots : u.mbx.slots = s.mbx.slots
  queue : u.mbx.queue = s.mbx.queue
  jnl : u.jnl = s.jnl

theorem SameSlots.refl (s : State) : SameSlots s s := ⟨rfl, rfl, rfl, rfl, rfl⟩

/-- What the journal holds of a command that has completed (R449). -/
theorem journaled_finished {s u : State} (hu : u.jnl = s.jnl) (x : Slot) (code : Nat) :
    if journalled x.opcode then
      (u.journaled x code).jnl.head = nextSeq s + 1 ∧
      (u.journaled x code).jnl.entries.getLast?.map (fun e => (e.seq, e.origin, e.opcode, e.result, e.tag, e.who, e.record)) =
        some (nextSeq s, 0x4000 + x.session, x.opcode, code, x.tag, x.who % 2 ^ 64, leBytes 32 (Config.sha384 x.arg))
    else (u.journaled x code).jnl = s.jnl := by
  have hseq : u.flushReset.jnl.head = nextSeq s := by
    rw [State.flushReset_head]
    unfold nextSeq
    rw [hu]
  unfold State.journaled
  by_cases hx : journalled x.opcode = true
  · simp only [hx, if_true]
    refine ⟨congrArg (· + 1) hseq, ?_⟩
    unfold State.journal
    simp only [List.getLast?_append, List.getLast?_singleton, Option.some_or, Option.map_some, hseq]
  · simp only [hx]
    exact hu

/-- A command whose slot is still that of `s` completes (R436, R449). -/
theorem State.finish_finished {s u : State} {x : Slot} (h : SameSlots s u) (hx : s.slot? x.num = some x) {code : Nat}
    (hcode : code ≠ rcAborted) (result : List Byte) : Finished s (u.finish x code result) x code result := by
  obtain ⟨hsessions, hsid, hslots, hqueue, hjnl⟩ := h
  have hseq : nextSeq u = nextSeq s := by
    unfold nextSeq
    rw [hjnl]
  have hmbx : (u.journaled x code).mbx = u.mbx := (congrArg State.mbx (u.journaled_rest x code) :)
  have hslot : (u.journaled x code).slot? x.num = some x := by
    unfold State.slot?
    rw [hmbx, hslots]
    exact hx
  have hdone : u.doneSlot x code result = { x with
      ready := true, code := code, result := result, jseq := if journalled x.opcode then some (nextSeq s) else none } := by
    unfold State.doneSlot
    rw [hseq]
  obtain ⟨hat, hses, hnext, hother, hleft⟩ := State.completeSlot_mbx (y := u.doneSlot x code result) hslot
  have hj : ((u.journaled x code).completeSlot (u.doneSlot x code result)).jnl = (u.journaled x code).jnl :=
    (congrArg State.jnl ((u.journaled x code).completeSlot_rest (u.doneSlot x code result)) :)
  have hjournal := journaled_finished hjnl x code
  rw [← hj] at hjournal
  rw [State.finish_eq u x result hcode]
  rw [hmbx] at hses hnext hother hleft
  refine ⟨?_, hses.trans hsessions, hnext.trans hsid, ?_, ?_, hjournal⟩
  · rw [← hdone]
    exact hat
  · rw [← hslots]
    exact hother
  · rw [← hqueue]
    exact hleft

/-- The slot of a command that may start is held. -/
theorem startable_slot {s : State} {n op : Nat} {x : Slot} (h : startable s n op = some x) : s.slot? n = some x ∧ x.num = n ∧ x.opcode = op := by
  unfold startable at h
  split at h
  next y c hy hc =>
    split at h
    next hcond =>
      cases h
      exact ⟨hy, State.slot?_num hy, hcond.2.1⟩
    next => cases h
  next => cases h

theorem Starts.slot {s : State} {n op : Nat} {x : Slot} (h : Starts s n op x) : s.slot? x.num = some x := by
  obtain ⟨hs, hn, -⟩ := startable_slot h.1
  rw [hn]
  exact hs

/-- A command that may start, in a state that accepts it, has its effect. -/
theorem Starts.exec {s : State} {n op : Nat} {x : Slot} (h : Starts s n op x) (f : Slot → Host.Outcome State Fault Refusal) :
    withSlot s n op f = f x := by
  unfold withSlot
  rw [h.1]
  exact if_pos h.2

/-- A command that started completes, in a device whose slots and journal are as they were. -/
theorem Starts.finished {s u : State} {n op : Nat} {x : Slot} (h : Starts s n op x) (hu : SameSlots s u) {code : Nat}
    (hcode : code ≠ rcAborted) (result : List Byte) : Finished s (u.finish x code result) x code result :=
  State.finish_finished hu h.slot hcode result

end Sys2Proof.Machine
end

section
/-!
SUPPORT. Proofs: a RESET command at a device whose power-on reset stands (R483). -/

namespace Sys2Proof.Machine

/-- A RESET command of the core reach that waits in slot 0. -/
def resetSlot : Slot :=
  { num := 0, session := 0, level := 2, who := 5, hello := 7, tag := 1, opcode := 0x0109, arg := [1#8], ready := false, code := 0
    result := [], reads := 0, jseq := none, closed := false }

/-- A device in Claimed whose power-on reset is noted although every domain is up. -/
def porState : State :=
  { State.reset with
    life := .claimed
    sys := { Sys.init with rails := true, por := true, held := [], good := allDomains, wasUp := allDomains, bootDue := false, booted := true }
    mbx := { Mbx.init with slots := [resetSlot], queue := [0] } }

/-- The command may start there. -/
theorem porState_starts : Starts porState 0 0x0109 resetSlot := ⟨by decide, by decide⟩

/-- While power-on reset stands a source is noted, and no cause bit is set. -/
theorem porState_cause (t : State) (h : exec (.reset 0) porState = .next t) : t.get Reg.rstCauseMbx = 0 := by
  have he : exec (.reset 0) porState =
      .next ((porState.finish resetSlot rcOk []).assertSource { bit := 4, clock := none, level := fieldAt resetSlot.arg 0 1 }) :=
    porState_starts.exec fun x => .next ((porState.finish x rcOk []).assertSource { bit := 4, clock := none, level := fieldAt x.arg 0 1 })
  rw [he] at h
  cases h
  rfl

/-- Refutes O9: at a device of which power-on reset is noted and every domain is up, the source that RESET asserts is noted alone, and
RST.CAUSE.MBX is not set. -/
theorem not_lifecycleCommandsAct : ¬ Obligations.LifecycleCommandsAct := by
  intro h
  obtain ⟨-, -, -, -, hreset⟩ := h.2 porState 0 resetSlot
  obtain ⟨t, ht, -, hcause, -⟩ := hreset porState_starts rfl rfl (.inl (by decide))
  have hzero := porState_cause t ht
  rw [hzero] at hcause
  exact absurd hcause (by decide)

end Sys2Proof.Machine
end

section
/-!
SUPPORT. Proofs: serving, RESTORE and REPLAY_STEP (R220, R383, R387). -/

namespace Sys2Proof.Machine

/-- From `s` to `t` the device has sent packets and drawn free values: all else is as it was but registers. -/
structure Talks (s t : State) : Prop where
  rest : { t with regs := s.regs, ports := s.ports, out := s.out, freeCtr := s.freeCtr } = s

namespace Talks

theorem refl (s : State) : Talks s s := ⟨rfl⟩

theorem trans {r s t : State} (h : Talks r s) (k : Talks s t) : Talks r t where
  rest := by
    let kept : State → State := fun v => { v with regs := r.regs, ports := r.ports, out := r.out, freeCtr := r.freeCtr }
    exact (congrArg kept k.rest :).trans h.rest

theorem of_sendsOnly {s t : State} (h : SendsOnly s t) : Talks s t where
  rest := (congrArg (fun v : State => { v with freeCtr := s.freeCtr }) h.rest :)

theorem foldl {α : Type} {f : State → α → State} (hf : ∀ t a, Talks t (f t a)) (l : List α) (s : State) : Talks s (l.foldl f s) := by
  induction l generalizing s with
  | nil => exact refl s
  | cons a l ih => exact (hf s a).trans (ih _)

end Talks

namespace State

theorem goOut_talks (s : State) (p : Nat) (pk : Packet) : Talks s (s.goOut p pk) := by
  unfold goOut
  extract_lets
  split
  · exact .refl s
  · refine Talks.trans ?_ (.of_sendsOnly (sendFrames_sendsOnly ..))
    exact ⟨rfl⟩

theorem pumpPort_talks (s : State) (p k : Nat) : Talks s (s.pumpPort p k) := by
  induction k generalizing s with
  | zero => exact .refl s
  | succ k ih =>
    unfold pumpPort
    split
    · exact .refl s
    · refine Talks.trans ?_ (ih _)
      refine Talks.trans ?_ (goOut_talks ..)
      exact ⟨rfl⟩

/-- A packet goes to a port, and out as credits and lanes allow. -/
theorem sendOn_talks (s : State) (p : Nat) (pk : Packet) : Talks s (s.sendOn p pk) := by
  unfold sendOn pumpAll
  refine Talks.trans ?_ (pumpPort_talks ..)
  refine Talks.trans ?_ (.of_sendsOnly (sendRest_sendsOnly ..))
  exact ⟨rfl⟩

/-- A link is asked to attest. -/
theorem sendReq_talks (s : State) (p dst : Nat) : Talks s (s.sendReq p dst) := by
  unfold sendReq
  extract_lets n s1 x
  have h1 : Talks s s1 := ⟨rfl⟩
  have h2 : Talks s1 (s1.setPort p { x with attNonce := some n, attReport := none, peerDone := false }) := ⟨rfl⟩
  exact (h1.trans h2).trans (sendOn_talks ..)

end State

/-- From `s` to `t` labels of cartridges have been read: the cartridges, the registers and what goes to the bays. -/
structure ReadsLabels (s t : State) : Prop where
  rest : { t with regs := s.regs, ing := { t.ing with carts := s.ing.carts }, out := s.out, faultQ := s.faultQ } = s

namespace ReadsLabels

theorem refl (s : State) : ReadsLabels s s := ⟨rfl⟩

theorem trans {r s t : State} (h : ReadsLabels r s) (k : ReadsLabels s t) : ReadsLabels r t where
  rest := by
    let kept : State → State := fun v => { v with regs := r.regs, ing := { v.ing with carts := r.ing.carts }, out := r.out, faultQ := r.faultQ }
    exact (congrArg kept k.rest :).trans h.rest

theorem put (s : State) (f : Fld) (v : Nat) : ReadsLabels s (s.put f v) := ⟨rfl⟩

theorem emit (s : State) (o : Out) : ReadsLabels s (s.emit o) := ⟨rfl⟩

theorem setCart (s : State) (b : Nat) (c : Cart) : ReadsLabels s (s.setCart b c) := ⟨rfl⟩

theorem raise (s : State) (src kind cls addr : Nat) : ReadsLabels s (s.raise src kind cls addr) where
  rest := by rw [State.raise_upd]

theorem put64 (s : State) (lo hi : Fld) (v : Nat) : ReadsLabels s (s.put64 lo hi v) := ⟨rfl⟩

theorem setWritten (s : State) (b w : Nat) : ReadsLabels s (s.setWritten b w) := by
  unfold State.setWritten State.ingFault
  dsimp only
  split
  · exact ((put64 s _ _ _).trans (put _ _ _)).trans (raise _ _ _ _ _)
  · exact put64 ..

theorem addWritten (s : State) (b n : Nat) : ReadsLabels s (s.addWritten b n) :=
  (setWritten s b _).trans (put64 _ _ _ _)

end ReadsLabels

namespace State

theorem readLabel_reads (s : State) (b : Nat) : ReadsLabels s (s.readLabel b) := by
  unfold readLabel
  split
  next c j _ _ =>
    split
    · exact .refl s
    · split
      · exact .put ..
      · split
        · split
          · exact (((((ReadsLabels.emit s _).trans (.emit _ _)).trans (.setCart _ _ _)).trans (.put _ _ _)).trans (.addWritten _ _ _))
          · exact .put ..
        · exact .put ..
  next => exact .refl s

theorem readLabels_reads (s : State) : ReadsLabels s s.readLabels := by
  unfold readLabels
  refine List.foldlRecOn [0, 1] _ (motive := fun t : State => ReadsLabels s t) (.refl s) ?_
  intro t h b _
  split
  · exact h.trans (t.readLabel_reads b)
  · exact h

/-- Candidates remain where the billet names one and none is lost. -/
theorem candidatesRemain_of {s : State} {b : Billet} (hb : s.billet = some b) (hc : b.cad.candidates ≠ []) (hl : s.cad.lost = []) :
    s.candidatesRemain = true := by
  obtain ⟨a, l, ha⟩ := List.exists_cons_of_ne_nil hc
  unfold candidatesRemain
  rw [hb]
  simp [ha, hl]

end State

/-- From `s` to `t` an election has begun: the Cadence has moved, and messages have been sent. -/
structure Elects (s t : State) : Prop where
  rest : { t with
    regs := s.regs, cad := s.cad, ports := s.ports, faultQ := s.faultQ, out := s.out, freeCtr := s.freeCtr } = s

theorem Elects.trans {r s t : State} (h : Elects r s) (k : Elects s t) : Elects r t where
  rest := by
    let kept : State → State := fun v => { v with
      regs := r.regs, cad := r.cad, ports := r.ports, faultQ := r.faultQ, out := r.out, freeCtr := r.freeCtr }
    exact (congrArg kept k.rest :).trans h.rest

theorem Elects.of_talks {s t : State} (h : Talks s t) : Elects s t where
  rest := (congrArg (fun v : State => { v with cad := s.cad, faultQ := s.faultQ }) h.rest :)

theorem Elects.of_movesCad {s t : State} (h : MovesCad s t) : Elects s t where
  rest := (congrArg (fun v : State => { v with freeCtr := s.freeCtr }) h.rest :)

/-- The job links attest and a master is elected: what RESTORE and REPLAY_STEP begin (R383, R387). -/
theorem State.attest_elects {s : State} {b : Billet} (hb : s.billet = some b) (hc : b.cad.candidates ≠ []) (hl : s.cad.lost = []) :
    Elects s (s.jobPorts.foldl (fun t l => t.sendReq l.1 l.2) s).startElection := by
  have hsent : Talks s (s.jobPorts.foldl (fun t l => t.sendReq l.1 l.2) s) :=
    .foldl (f := fun (t : State) (l : Nat × Nat) => t.sendReq l.1 l.2) (fun t l => t.sendReq_talks l.1 l.2) s.jobPorts s
  generalize s.jobPorts.foldl (fun t l => t.sendReq l.1 l.2) s = u at hsent
  have hcad : u.cad = s.cad := (congrArg State.cad hsent.rest :)
  have hbil : u.billet = s.billet := (congrArg State.billet hsent.rest :)
  have hlost : u.cad.lost = [] := by rw [hcad, hl]
  have helect := State.startElection_confirms (State.candidatesRemain_of (hbil.trans hb) hc hlost)
  exact ((Elects.of_talks hsent).trans (.of_movesCad (.setCad u _))).trans (.of_movesCad helect.toMovesCad)

/-- What an election leaves alone. -/
theorem Elects.keeps {s t : State} (h : Elects s t) : t.ing = s.ing ∧ t.mbx = s.mbx ∧ t.life = s.life ∧ t.mems = s.mems :=
  ⟨(congrArg State.ing h.rest :), (congrArg State.mbx h.rest :), (congrArg State.life h.rest :), (congrArg State.mems h.rest :)⟩

/-- The run of a RESTORE is noted, and the Cadence is free for an election (R383). -/
def State.restores (s : State) (r : RestoreRun) : State :=
  { s with ing := { s.ing with restore := some r }, cad := { s.cad with lost := [], afterLoss := false, active := false } }

/-- The run of a REPLAY_STEP is noted, and the Cadence is free for an election (R387). -/
def State.replays (s : State) (q : ReplayRun) (caps : List (CapEntry × Nat)) (r : RestoreRun) : State :=
  { s with
    ing := { s.ing with replay := some q }, caps := caps
    cad := { s.cad with lost := [], afterLoss := false, active := false } }.startLoad r

/-- What the labels' reading at the start of a command leaves alone. -/
theorem labels_keep (s : State) (x : Slot) :
    let u := (s.startRunning x).readLabels
    u.billet = s.billet ∧ u.mbx = { s.mbx with running := some x.num } ∧ u.life = s.life ∧ u.mems = s.mems ∧ u.jnl = s.jnl ∧
      u.ing.replay = s.ing.replay := by
  have h := (s.startRunning x).readLabels_reads.rest
  exact ⟨(congrArg State.billet h :), (congrArg State.mbx h :), (congrArg State.life h :), (congrArg State.mems h :),
    (congrArg State.jnl h :), (congrArg (fun v : State => v.ing.replay) h :)⟩

theorem SameBytes.of_sameMems {s t : State} (h : t.mems = s.mems) : SameBytes s t :=
  .of_mems (congrArg Mems.hearth0 h :) (congrArg Mems.hearth1 h :) (congrArg Mems.hbm h :) (congrArg Mems.stock h :)

/-- Settles O10: the serving commands only run; RESTORE and REPLAY_STEP read the labels (`labels_keep`) and begin an election
(`State.attest_elects`). -/
theorem servingAndRestoreBegin : Obligations.ServingAndRestoreBegin := by
  intro s n x
  refine ⟨fun h => ?_, fun h => ?_, fun b h hb hc => ?_, fun h => ⟨fun hcopies => ?_, fun b hcopies hb hc => ?_⟩⟩
  · obtain ⟨-, hnum, -⟩ := startable_slot h.1
    have he : exec (.serveOpen n) s = .next (s.startRunning x) := Starts.exec h fun x => .next (s.startRunning x)
    rw [he, State.startRunning, hnum]
  · obtain ⟨-, hnum, -⟩ := startable_slot h.1
    have he : exec (.serveClose n) s = .next (s.startRunning x) := Starts.exec h fun x => .next (s.startRunning x)
    rw [he, State.startRunning, hnum]
  · obtain ⟨-, hnum, -⟩ := startable_slot h.1
    obtain ⟨hbil, hmbx, hlife, hmems, -⟩ := labels_keep s x
    let r : RestoreRun := { want := if leNat (x.arg.take 4) = 0xFFFFFFFF then none else some (leNat (x.arg.take 4))
                            reports := [], unusable := [], chosen := none, loaded := false }
    have he : exec (.restore n) s =
        .next ((((s.startRunning x).readLabels.restores r).jobPorts.foldl (fun t l => t.sendReq l.1 l.2)
          ((s.startRunning x).readLabels.restores r)).startElection) := Starts.exec h _
    generalize (s.startRunning x).readLabels = u at hbil hmbx hlife hmems he
    obtain ⟨hing, hm, hl, hmem⟩ := (State.attest_elects (s := u.restores r) (hbil.trans hb) hc rfl).keeps
    refine ⟨_, he, r, (congrArg Ing.restore hing :), ?_, rfl, rfl, rfl, ?_, hl.trans hlife, .of_sameMems (hmem.trans hmems)⟩
    · exact (congrArg Mbx.slots (hm.trans hmbx) :)
    · exact (congrArg Mbx.running (hm.trans hmbx) :).trans (congrArg some hnum)
  · obtain ⟨-, hnum, -⟩ := startable_slot h.1
    obtain ⟨hbil, hmbx, hlife, hmems, hjnl, hreplay⟩ := labels_keep s x
    have he : exec (.replayStep n) s = _ := Starts.exec h _
    rw [if_pos (by simp [hcopies])] at he
    generalize (s.startRunning x).readLabels = u at hbil hmbx hlife hmems hjnl hreplay he
    have hslot : u.slot? x.num = some x := by
      unfold State.slot?
      rw [hmbx]
      exact h.slot
    have hfin : u.finishRunning rcNoIngot [] = u.finish x rcNoIngot [] := by
      unfold State.finishRunning
      rw [show u.mbx.running = some x.num from (congrArg Mbx.running hmbx :)]
      simp only [hslot]
    have hrest := u.finish_rest x (code := rcNoIngot) [] (by decide)
    rw [hfin] at he
    refine ⟨_, he, Starts.finished h ⟨(congrArg Mbx.sessions hmbx :), (congrArg Mbx.nextSid hmbx :), (congrArg Mbx.slots hmbx :),
      (congrArg Mbx.queue hmbx :), hjnl⟩ (by decide) [], ?_, ?_, ?_⟩
    · exact (congrArg (fun v : State => v.ing.replay) hrest :).trans hreplay
    · exact (congrArg State.life hrest :).trans hlife
    · exact .of_sameMems ((congrArg State.mems hrest :).trans hmems)
  · obtain ⟨-, hnum, -⟩ := startable_slot h.1
    obtain ⟨hbil, hmbx, hlife, hmems, -⟩ := labels_keep s x
    let q : ReplayRun := { step := fieldAt x.arg 0 4, stop := fieldAt x.arg 4 2
                           image := imageEntries (x.arg.drop (12 + 16 * fieldAt x.arg 6 2)), gen := none }
    let r : RestoreRun := { want := some (fieldAt x.arg 0 4), reports := [], unusable := [], chosen := some (fieldAt x.arg 0 4)
                            loaded := false }
    let caps := (capList x.arg).map (fun c => (c, 0))
    have he : exec (.replayStep n) s = if ((s.startRunning x).readLabels.copies (fieldAt x.arg 0 4)).isEmpty then
        .next ((s.startRunning x).readLabels.finishRunning rcNoIngot [])
      else .next ((((s.startRunning x).readLabels.replays q caps r).jobPorts.foldl (fun t l => t.sendReq l.1 l.2)
          ((s.startRunning x).readLabels.replays q caps r)).startElection) := Starts.exec h _
    rw [if_neg (by simpa using hcopies)] at he
    generalize (s.startRunning x).readLabels = u at hbil hmbx hlife hmems he
    obtain ⟨hing, hm, -, -⟩ := (State.attest_elects (s := u.replays q caps r) (hbil.trans hb) hc rfl).keeps
    refine ⟨_, he, q, (congrArg Ing.replay hing :), rfl, rfl, ?_, ?_⟩
    · unfold State.slot?
      rw [hm.trans hmbx]
      exact (startable_slot h.1).1
    · exact (congrArg Mbx.running (hm.trans hmbx) :).trans (congrArg some hnum)

end Sys2Proof.Machine
end

section
/-!
SUPPORT. Proofs: idle sessions, the service port and the interfaces in Ethernet mode (R296, R425, R431). -/

namespace Sys2Proof.Machine

/-- The device closes a session: its others stay, and nothing but the mailbox, its bank and what it sends changes (R431). -/
theorem State.dropSession_rest (s : State) (x : Session) :
    (∀ y ∈ (s.dropSession x).mbx.sessions, y.num ≠ x.num) ∧
      (x.keyed = true → s.session? x.sid = some x → (s.dropSession x).out = answered s x (closeHead x) []) ∧
      (s.dropSession x).regs = s.regs ∧
      { s.dropSession x with mbx := s.mbx, sys := s.sys, out := s.out } = s := by
  unfold State.dropSession
  generalize hu : (if x.keyed then s.sendSealed x { type := 11, session := 0, nonce := 0, tag := 0, opcode := 0, slot := noSlot, offset := 0
                                                    total := 0, status := rcOk, reads := 0, jseq := noSeq } [] else s) = u
  have hrest : { u with mbx := s.mbx, out := s.out } = s := by
    rw [← hu]
    split
    · exact (s.sendSealed_rest x _ []).2
    · rfl
  refine ⟨fun y hy => ?_, fun hkeyed hs => ?_, (congrArg State.regs hrest :), ?_⟩
  · simpa using (List.mem_filter.mp hy).2
  · rw [if_pos hkeyed, State.sendSealed_eq hs] at hu
    have hout : u.out = answered s x (closeHead x) [] := by
      rw [← hu]
      rfl
    exact hout
  · exact (congrArg (fun v : State => { v with sys := s.sys }) hrest :)

/-- What an interface in Ethernet mode that is up does with a frame (R296). -/
theorem execEthFrame_up {s : State} {port iface : Nat} {frame : EthFrame}
    (h : ¬ (s.get (Reg.fabCtrlMode port) ≠ 1 ∨ port < 8 ∨ 12 ≤ port ∨ s.get (Reg.fabStatusState port) ≠ 5)) :
    execEthFrame port iface frame s =
      if frame.fcsOk && frame.pause then .next (s.count (Reg.fabEthPause port))
      else
        let pass := frame.fcsOk && (frame.toMac || frame.toGroup) && frame.etherType == 0x86DD && !frame.extension && !frame.fragment
        if pass && frame.nextHeader == 17 && frame.udpPort == s.get Reg.blmEthPort then .next s
        else if pass && frame.nextHeader == 58 && frame.solicitsUs then .next (s.emit (.advert port iface))
        else .next (s.count (Reg.fabEthDrop port)) := if_neg h

/-- Settles O6: an idle session by what its closing leaves (`State.dropSession_rest`), and an Ethernet frame branch by branch
(`execEthFrame_up`). -/
theorem serviceAndEthernetAnswer : Obligations.ServiceAndEthernetAnswer := by
  intro s
  refine ⟨fun hup => ⟨fun n x hfind => ?_, ?_, ?_⟩, fun p iface f h8 h12 hmode hstate => ?_⟩
  · have hnum : x.num = n := by simpa using List.find?_some hfind
    have e : exec (.sessionIdleTimeout n) s = .next ((s.count Reg.mbxTimeouts).dropSession x) := by
      have e1 : exec (.sessionIdleTimeout n) s = execSessionIdleTimeout n s := rfl
      rw [e1, execSessionIdleTimeout, hfind]
      exact if_pos hup
    obtain ⟨hgone, hout, hregs, hrest⟩ := (s.count Reg.mbxTimeouts).dropSession_rest x
    have hget : ∀ g, ((s.count Reg.mbxTimeouts).dropSession x).get g = (s.count Reg.mbxTimeouts).get g := State.get_of_regs hregs
    have hcount := (SameRegsBut.refl [Reg.mbxTimeouts] s).count Reg.mbxTimeouts 1 (by simp)
    refine ⟨_, e, fun y hy => hnum ▸ hgone y hy, ?_, fun g hg => (hget g).trans (hcount g hg), fun hkeyed hs => hout hkeyed hs, ?_⟩
    · exact (hget Reg.mbxTimeouts).trans (State.get_count_same s Reg.mbxTimeouts 1 (by decide))
    · exact (congrArg (fun v : State => { v with regs := s.regs }) hrest :)
  · exact if_pos (by simp [hup])
  · exact if_pos (by simp [hup])
  · intro passes counts wanted
    have hup : ¬ (s.get (Reg.fabCtrlMode p) ≠ 1 ∨ p < 8 ∨ 12 ≤ p ∨ s.get (Reg.fabStatusState p) ≠ 5) := by omega
    have hexec := execEthFrame_up (iface := iface) (frame := f) hup
    have hpasses : (f.fcsOk && (f.toMac || f.toGroup) && f.etherType == 0x86DD && !f.extension && !f.fragment) = true ↔ passes := by
      simp [passes, and_assoc]
    refine ⟨fun hfcs hpause => ?_, fun hpause hpass hudp hport => ?_, fun hpause hpass hicmp hsol => ?_, fun hno hother => ?_⟩
    · exact hexec.trans (if_pos (by simp [hfcs, hpause]))
    · refine hexec.trans ((if_neg (by simp [hpause])).trans (if_pos ?_))
      rw [hpasses.mpr hpass]
      simp [hudp, hport]
    · refine hexec.trans ((if_neg (by simp [hpause])).trans ((if_neg (by simp [hicmp])).trans (if_pos ?_)))
      rw [hpasses.mpr hpass]
      simp [hicmp, hsol]
    · have hnopause : ¬ (f.fcsOk && f.pause) = true := by simpa using hno
      refine hexec.trans ((if_neg hnopause).trans ((if_neg fun h => hother ?_).trans (if_neg fun h => hother ?_)))
      · simp only [Bool.and_eq_true, beq_iff_eq] at h hpasses
        exact ⟨hpasses.mp h.1.1, .inl ⟨h.1.2, h.2⟩⟩
      · simp only [Bool.and_eq_true, beq_iff_eq] at h hpasses
        exact ⟨hpasses.mp h.1.1, .inr ⟨h.1.2, h.2⟩⟩

end Sys2Proof.Machine
end

section
/-!
SUPPORT. Proofs: the reading commands of the mailbox (R405, R407, R443, R444, R530). -/

namespace Sys2Proof.Machine

/-! ## The fields of a result -/

/-- A field beyond the bytes of a number lies in what follows it. -/
theorem fieldAt_leBytes_append {k v o n : Nat} {l : List Byte} (h : k ≤ o) : fieldAt (leBytes k v ++ l) o n = fieldAt l (o - k) n := by
  have hk : (leBytes k v).drop o = [] := List.drop_eq_nil_of_le (by rw [length_leBytes]; exact h)
  unfold fieldAt
  rw [List.drop_append, length_leBytes, hk, List.nil_append]

/-- The number at the head of a result. -/
theorem fieldAt_leBytes_zero (n v : Nat) (l : List Byte) : fieldAt (leBytes n v ++ l) 0 n = v % 256 ^ n := by
  unfold fieldAt
  rw [List.drop_zero, List.take_append_of_le_length (Nat.le_of_eq (length_leBytes n v).symm),
    List.take_of_length_le (Nat.le_of_eq (length_leBytes n v)), Tests.leNat_leBytes]

/-- The number that ends a result. -/
theorem fieldAt_leBytes (n v : Nat) : fieldAt (leBytes n v) 0 n = v % 256 ^ n := by
  have h := fieldAt_leBytes_zero n v []
  rwa [List.append_nil] at h

theorem code_lt (l : Life) : l.code < 256 := by cases l <;> decide

/-- The four VERSION words of an identity. -/
theorem versions_eq (s : State) (l : List Byte) : [1, 2, 3, 4].flatMap (fun k => leBytes 4 (s.get (Reg.cruVersion k))) ++ l =
    leBytes 4 (s.get (Reg.cruVersion 1)) ++ (leBytes 4 (s.get (Reg.cruVersion 2)) ++ (leBytes 4 (s.get (Reg.cruVersion 3)) ++
      (leBytes 4 (s.get (Reg.cruVersion 4)) ++ l))) := by
  simp only [List.flatMap_cons, List.flatMap_nil, List.append_nil, List.append_assoc]

/-- The four words of SERIAL. -/
theorem serialBytes_append (l : List Byte) : Config.serialBytes ++ l =
    leBytes 4 (Config.serialWord 0) ++ (leBytes 4 (Config.serialWord 1) ++ (leBytes 4 (Config.serialWord 2) ++
      (leBytes 4 (Config.serialWord 3) ++ l))) := by
  have h : List.range 4 = [0, 1, 2, 3] := rfl
  simp only [Config.serialBytes, h, List.flatMap_cons, List.flatMap_nil, List.append_nil, List.append_assoc]

theorem length_serialBytes : Config.serialBytes.length = 16 := by
  have h := congrArg List.length (serialBytes_append [])
  simpa only [List.append_nil, List.length_append, length_leBytes] using h

/-- The identity of a device, field by field (Table 16-5). -/
theorem identity_fields (s : State) : s.identity.length = 64 ∧ s.identity.take 16 = Config.serialBytes ∧
    fieldAt s.identity 16 4 = Config.stepping % 2 ^ 32 ∧
    (∀ k, 1 ≤ k → k ≤ 4 → fieldAt s.identity (16 + 4 * k) 4 = s.get (Reg.cruVersion k) % 2 ^ 32) ∧
    fieldAt s.identity 36 1 = s.life.code ∧ fieldAt s.identity 38 2 = s.addr % 2 ^ 16 ∧
    fieldAt s.identity 40 6 = Config.mac % 2 ^ 48 := by
  have hlife := Nat.mod_eq_of_lt (code_lt s.life)
  unfold State.identity
  simp only [List.append_assoc, versions_eq]
  refine ⟨?_, ?_, ?_, fun k h1 h4 => ?_, ?_, ?_, ?_⟩
  · simp only [List.length_append, length_serialBytes, length_leBytes]
  · rw [List.take_append_of_le_length (Nat.le_of_eq length_serialBytes.symm)]
    exact List.take_of_length_le (Nat.le_of_eq length_serialBytes)
  case refine_4 =>
    obtain rfl | rfl | rfl | rfl : k = 1 ∨ k = 2 ∨ k = 3 ∨ k = 4 := by omega
    all_goals simp only [serialBytes_append, fieldAt_leBytes_append, fieldAt_leBytes_zero, Nat.reduceLeDiff, Nat.reduceSub,
      Nat.reducePow, Nat.reduceMul, Nat.reduceAdd]
  all_goals simp only [serialBytes_append, fieldAt_leBytes_append, fieldAt_leBytes_zero, Nat.reduceLeDiff, Nat.reduceSub, Nat.reducePow,
    hlife]

/-- The summary of a device, field by field (R444). -/
theorem statusBytes_fields (s : State) : let r := s.statusBytes
    r.length = 128 ∧ fieldAt r 0 1 = s.life.code ∧ fieldAt r 2 2 = s.cad.attempt % 2 ^ 16 ∧ fieldAt r 8 6 = s.cad.angle % 2 ^ 48 ∧
      fieldAt r 16 2 = s.cad.master % 2 ^ 16 ∧ fieldAt r 24 8 = s.get64 Reg.fltFirstLo Reg.fltFirstHi % 2 ^ 64 ∧
      fieldAt r 32 8 = s.get64 Reg.fltFirstAngleLo Reg.fltFirstAngleHi % 2 ^ 64 ∧ fieldAt r 40 4 = s.get Reg.ingLastStep % 2 ^ 32 ∧
      fieldAt r 44 4 = s.get Reg.tmpLastUpdated % 2 ^ 32 ∧ fieldAt r 48 8 = s.get64 Reg.ingLastGenLo Reg.ingLastGenHi % 2 ^ 64 ∧
      fieldAt r 56 8 = s.jnl.head % 2 ^ 64 ∧ fieldAt r 64 4 = s.causeWord % 2 ^ 32 ∧
      (∀ b, s.billet = some b → fieldAt r 80 48 = b.digest % 2 ^ 384) := by
  intro r
  have hlife := Nat.mod_eq_of_lt (code_lt s.life)
  unfold r State.statusBytes
  simp only [List.append_assoc]
  refine ⟨?_, ?_, ?_, ?_, ?_, ?_, ?_, ?_, ?_, ?_, ?_, ?_, fun b hb => ?_⟩
  · simp only [List.length_append, length_leBytes]
  case refine_13 =>
    have hpow : (256 : Nat) ^ 48 = 2 ^ (8 * 48) := (pow_mul 2 8 48).symm
    simp only [fieldAt_leBytes_append, fieldAt_leBytes, Nat.reduceLeDiff, Nat.reduceSub, hb, Option.map_some, Option.getD_some, hpow]
  all_goals simp only [fieldAt_leBytes_append, fieldAt_leBytes_zero, Nat.reduceLeDiff, Nat.reduceSub, Nat.reducePow, hlife]

/-- A command that is not journalled completes in its slot alone. -/
theorem State.finish_unjournalled (u : State) {x : Slot} {code : Nat} (result : List Byte) (hcode : code ≠ rcAborted)
    (hj : journalled x.opcode = false) : { u.finish x code result with mbx := u.mbx } = u := by
  have hsame : u.journaled x code = u := if_neg (by simp [hj])
  rw [State.finish_eq u x result hcode, hsame]
  exact u.completeSlot_rest _

/-- A reading command completes OK in its slot alone. -/
theorem Starts.reads {s : State} {n op : Nat} {x : Slot} (h : Starts s n op x) (hj : journalled op = false) {code : Nat}
    (hcode : code ≠ rcAborted) (result : List Byte) :
    Finished s (s.finish x code result) x code result ∧ { s.finish x code result with mbx := s.mbx } = s := by
  obtain ⟨-, -, hop⟩ := startable_slot h.1
  exact ⟨Starts.finished h (.refl s) hcode result, s.finish_unjournalled result hcode (hop ▸ hj)⟩

/-- The entries that JOURNAL_READ returns (R530). -/
theorem journalRead_eq (s : State) (start count k w : Nat) (f : Bool) :
    s.journalRead start count (k == 1) (if f then some w else none) =
      ((if k = 1 then (s.jnl.entries.filter (fun e => decide (e.seq ≤ start) || decide (s.jnl.head ≤ start))).reverse
        else s.jnl.entries.filter (fun e => decide (start ≤ e.seq) && decide (start < s.jnl.head))).filter
          (fun e => !f || (e.who != 0 && e.who == w))).take count := by
  have hwalk : (if (k == 1) = true then (if s.jnl.head ≤ start then s.jnl.entries else s.jnl.entries.filter (fun e => decide (e.seq ≤ start))).reverse
      else if s.jnl.head ≤ start then [] else s.jnl.entries.filter (fun e => decide (start ≤ e.seq))) =
      if k = 1 then (s.jnl.entries.filter (fun e => decide (e.seq ≤ start) || decide (s.jnl.head ≤ start))).reverse
        else s.jnl.entries.filter (fun e => decide (start ≤ e.seq) && decide (start < s.jnl.head)) := by
    by_cases hend : s.jnl.head ≤ start
    · simp [hend, Nat.not_lt.mpr hend]
    · simp [hend, Nat.not_le.mp hend]
  refine congrArg (List.take count) ?_
  refine (List.filter_congr fun e _ => ?_).trans (congrArg (List.filter fun e => !f || (e.who != 0 && e.who == w)) hwalk)
  cases f <;> rfl

/-- The device with its claim's nonce taken from an attestation. -/
def attesting (s : State) (nonce : Nat) : State := { s.draw with cru := { s.cru with claimNonce := some nonce } }

theorem attesting_slots (s : State) (nonce : Nat) : SameSlots s (attesting s nonce) := ⟨rfl, rfl, rfl, rfl, rfl⟩

/-- ATTEST completes with its report, and its nonce is the one that a claim may use. -/
theorem attest_reads {s : State} {n : Nat} {x : Slot} (h : Starts s n 0x0002 x) (r : List Byte) :
    let t := (attesting s (leNat (x.arg.take 32))).finish x rcOk r
    t.cru = { s.cru with claimNonce := some (leNat (x.arg.take 32)) } ∧ Finished s t x rcOk r ∧
      { t with mbx := s.mbx, cru := s.cru, freeCtr := s.freeCtr } = s := by
  have hrest := (attesting s (leNat (x.arg.take 32))).finish_unjournalled (x := x) (code := rcOk) r (by decide)
    ((startable_slot h.1).2.2 ▸ (by decide : journalled 0x0002 = false))
  exact ⟨(congrArg State.cru hrest :), Starts.finished h (attesting_slots s _) (by decide) r,
    (congrArg (fun v : State => { v with cru := s.cru, freeCtr := s.freeCtr }) hrest :)⟩

/-- INGOT_LIST draws its header and completes. -/
theorem ingotList_reads {s : State} {n : Nat} {x : Slot} (h : Starts s n 0x0303 x) (r : List Byte) :
    Finished s (s.draw.finish x rcOk r) x rcOk r ∧ { s.draw.finish x rcOk r with mbx := s.mbx, freeCtr := s.freeCtr } = s := by
  have hrest := s.draw.finish_unjournalled (x := x) (code := rcOk) r (by decide)
    ((startable_slot h.1).2.2 ▸ (by decide : journalled 0x0303 = false))
  have hslots : SameSlots s s.draw := ⟨rfl, rfl, rfl, rfl, rfl⟩
  exact ⟨Starts.finished h hslots (by decide) r, (congrArg (fun v : State => { v with freeCtr := s.freeCtr }) hrest :)⟩

/-- The records that INGOT_LIST returns for one bay. -/
def ingotListBay (s : State) (sel b : Nat) : List (List Byte) :=
  if bit sel b && s.bayReadable b then (match s.cart? b with
    | some c => c.gens.map (genRecord b)
    | none => []) else []

theorem ingotListBay_eq (s : State) (sel b : Nat) : ingotListBay s sel b =
      match s.cart? b with
      | some c => if bit sel b && s.bayReadable b then c.gens.map (genRecord b) else []
      | none => [] := by
  unfold ingotListBay
  cases s.cart? b with
  | none => exact ite_self _
  | some c => rfl

theorem execAttest_eq {s : State} {n : Nat} {x : Slot} (h : Starts s n 0x0002 x) : exec (.attest n) s =
    .next ((attesting s (leNat (x.arg.take 32))).finish x rcOk
      (certBytes ++ Report.body (s.report (leNat (x.arg.take 32)) 0) ++ leBytes 8240 s.free)) :=
  Starts.exec h fun x => .next ((attesting s (leNat (x.arg.take 32))).finish x rcOk
    (certBytes ++ Report.body (s.report (leNat (x.arg.take 32)) 0) ++ leBytes 8240 s.free))

theorem execIngotList_eq {s : State} {n : Nat} {x : Slot} (h : Starts s n 0x0303 x) : exec (.ingotList n) s =
    .next (s.draw.finish x rcOk (leBytes 32 s.free ++
      ((ingotListBay s (fieldAt x.arg 0 1) 0 ++ ingotListBay s (fieldAt x.arg 0 1) 1).take 4000).flatten)) := by
  have he : exec (.ingotList n) s = .next (s.draw.finish x rcOk (leBytes 32 s.free ++
      (([0, 1].flatMap (ingotListBay s (fieldAt x.arg 0 1))).take 4000).flatten)) := Starts.exec h fun x =>
    .next (s.draw.finish x rcOk (leBytes 32 s.free ++ (([0, 1].flatMap (ingotListBay s (fieldAt x.arg 0 1))).take 4000).flatten))
  rw [he]
  simp only [List.flatMap_cons, List.flatMap_nil, List.append_nil]

/-- Settles O7: each result by what its command makes of it, and each slot by `Starts.reads`. -/
theorem readingCommandsComplete : Obligations.ReadingCommandsComplete := by
  intro s n x
  refine ⟨fun h => ?_, fun h => ?_, fun h => ?_, ?_, fun h => ?_, fun h => ?_, ?_⟩
  · obtain ⟨hfin, hrest⟩ := Starts.reads h (by decide) (code := rcOk) (by decide) s.identity
    exact ⟨_, _, Starts.exec h fun x => .next (s.finish x rcOk s.identity), hfin, hrest, identity_fields s⟩
  · obtain ⟨hfin, hrest⟩ := Starts.reads h (by decide) (code := rcOk) (by decide) s.statusBytes
    exact ⟨_, _, Starts.exec h fun x => .next (s.finish x rcOk s.statusBytes), hfin, hrest, statusBytes_fields s⟩
  · obtain ⟨hfin, hrest⟩ := Starts.reads h (by decide) (code := rcOk) (by decide) _
    exact ⟨_, Starts.exec h _, hrest, hfin⟩
  · intro h start held l
    obtain ⟨hfin, hrest⟩ := Starts.reads h (by decide) (code := rcOk) (by decide)
      (leBytes 8 s.jnl.head ++ leBytes 8 (s.jnl.head - s.jnl.entries.length) ++ leBytes 4 l.length ++ leBytes 4 0 ++
        leBytes 16 s.jnl.resumeId ++ l.flatMap JEntry.bytes)
    have hl := journalRead_eq s (fieldAt x.arg 0 8) (fieldAt x.arg 8 2) (fieldAt x.arg 10 1) (x.who % 2 ^ 64) (bit (fieldAt x.arg 11 1) 0)
    have he : exec (.journalRead n) s = _ := Starts.exec h _
    dsimp only at he
    rw [hl] at he
    exact ⟨_, he, hrest, hfin⟩
  · have he : exec (.jobEscrowRead n) s = match s.cru.escrow with
        | some (ct, k) => .next (s.finish x rcOk (leBytes 1088 ct ++ leBytes 48 k))
        | none => .next (s.finish x rcNoEscrow []) := Starts.exec h _
    cases hc : s.cru.escrow with
    | none =>
      rw [hc] at he
      obtain ⟨hfin, hrest⟩ := Starts.reads h (by decide) (code := rcNoEscrow) (by decide) []
      exact ⟨_, he, hrest, fun _ => hfin, nofun⟩
    | some p =>
      rw [hc] at he
      obtain ⟨hfin, hrest⟩ := Starts.reads h (by decide) (code := rcOk) (by decide) (leBytes 1088 p.1 ++ leBytes 48 p.2)
      refine ⟨_, he, hrest, nofun, fun ct k hp => ?_⟩
      cases hp
      exact hfin
  · obtain ⟨hcru, hfin, hrest⟩ := attest_reads h (certBytes ++ Report.body (s.report (leNat (x.arg.take 32)) 0) ++ leBytes 8240 s.free)
    exact ⟨_, leBytes 8240 s.free, execAttest_eq h, hcru, hfin, length_leBytes _ _, hrest⟩
  · intro h gens
    have hgens : ∀ b, ingotListBay s (fieldAt x.arg 0 1) b = gens b := ingotListBay_eq s _
    obtain ⟨hfin, hrest⟩ := ingotList_reads h (leBytes 32 s.free ++ ((gens 0 ++ gens 1).take 4000).flatten)
    have he := execIngotList_eq h
    rw [hgens 0, hgens 1] at he
    exact ⟨_, leBytes 32 s.free, he, length_leBytes _ _, hfin, hrest⟩

end Sys2Proof.Machine
end

section
/-!
SUPPORT. Proofs: CLAIM and RELEASE (R407, R408), and what a command that completes leaves. -/

namespace Sys2Proof.Machine

/-- A state with the registers of one that changes no other than the listed ones. -/
theorem SameRegsBut.to_regs {l : List Fld} {s t u : State} (h : SameRegsBut l s t) (hu : u.regs = t.regs) : SameRegsBut l s u :=
  h.trans (.of_regs hu)

/-! ## A command that completes -/

/-- The registers of a device whose command completes. -/
theorem State.finish_regs (u : State) (x : Slot) {code : Nat} (result : List Byte) (h : code ≠ rcAborted) :
    (u.finish x code result).regs = u.regs :=
  (congrArg State.regs (u.finish_rest x result h) :)

theorem State.finish_cru (u : State) (x : Slot) {code : Nat} (result : List Byte) (h : code ≠ rcAborted) :
    (u.finish x code result).cru = u.cru :=
  (congrArg State.cru (u.finish_rest x result h) :)

theorem State.get_finish (u : State) (x : Slot) {code : Nat} (result : List Byte) (h : code ≠ rcAborted) (f : Fld) :
    (u.finish x code result).get f = u.get f :=
  State.get_of_regs (u.finish_regs x result h) f

/-- A command that completes in a device that is otherwise as it was changes its slot and the journal. -/
theorem Starts.completes {s : State} {n op : Nat} {x : Slot} (h : Starts s n op x) {code : Nat} (hcode : code ≠ rcAborted)
    (result : List Byte) : Finished s (s.finish x code result) x code result ∧
      { s.finish x code result with mbx := s.mbx, jnl := s.jnl } = s :=
  ⟨Starts.finished h (.refl s) hcode result, s.finish_rest x result hcode⟩

/-- An object whose signature fails is counted, and its command completes SIGNATURE. -/
theorem Starts.badSignature {s u : State} {n op : Nat} {x : Slot} (h : Starts s n op x) (hu : SameSlots s u) (hr : u.regs = s.regs) :
    Finished s (u.badSignature x) x rcSignature [] ∧ SigFailed s (u.badSignature x) ∧
      { u.badSignature x with mbx := u.mbx, jnl := u.jnl, regs := u.regs } = u := by
  obtain ⟨hs, hn, hl, hq, hj⟩ := hu
  have hslots : SameSlots s (u.count Reg.cruSigFail) := ⟨hs, hn, hl, hq, hj⟩
  have hcode : rcSignature ≠ rcAborted := by decide
  have hrest := (u.count Reg.cruSigFail).finish_rest x [] hcode
  have hget := State.get_of_regs hr Reg.cruSigFail
  refine ⟨Starts.finished h hslots hcode [], ⟨?_, ?_⟩, (congrArg (fun v : State => { v with regs := u.regs }) hrest :)⟩
  · refine ((u.count Reg.cruSigFail).get_finish x [] hcode _).trans ?_
    rw [← hget]
    exact u.count_counted (by decide)
  · exact (SameRegsBut.of_regs hr).trans ((SameRegsBut.count Reg.cruSigFail 1 (.refl _ u) (by simp)).to_regs
      ((u.count Reg.cruSigFail).finish_regs x [] hcode))

/-! ## Measurements -/

/-- What a measurement leaves of what Crucible holds. -/
theorem State.measure_cru (s : State) (type kind slot version digest : Nat) :
    (s.measure type kind slot version digest).cru = { s.cru with
      meas := extend s.cru.meas { index := s.get Reg.cruMeasCount, type := type, kind := kind, slot := slot, version := version, digest := digest }
      log := (s.measure type kind slot version digest).cru.log } := by
  unfold State.measure
  split <;> rfl

theorem State.measure_regs (s : State) (type kind slot version digest : Nat) :
    SameRegsBut [Reg.cruMeasCount, Reg.cruLogLost] s (s.measure type kind slot version digest) := by
  unfold State.measure
  extract_lets e cru s1
  have h1 : SameRegsBut [Reg.cruMeasCount, Reg.cruLogLost] s s1 := .of_regs rfl
  split
  · exact h1.count _ 1 (by simp)
  · exact (h1.count _ 1 (by simp)).count _ 1 (by simp)

theorem State.measure_rest (s : State) (type kind slot version digest : Nat) :
    { s.measure type kind slot version digest with cru := s.cru, regs := s.regs } = s := by
  unfold State.measure
  split <;> rfl

/-- MEAS is extended by a measurement, whose place in the log is counted. -/
theorem State.measure_of (s : State) (type kind slot version digest : Nat) :
    let t := s.measure type kind slot version digest
    t.cru.meas = extend s.cru.meas { index := s.get Reg.cruMeasCount, type := type, kind := kind, slot := slot, version := version, digest := digest } ∧
      { t.cru with meas := s.cru.meas, log := s.cru.log } = s.cru ∧ SameRegsBut [Reg.cruMeasCount, Reg.cruLogLost] s t ∧
      { t with cru := s.cru, regs := s.regs } = s :=
  have h := s.measure_cru type kind slot version digest
  ⟨(congrArg Cru.meas h :), (congrArg (fun c : Cru => { c with meas := s.cru.meas, log := s.cru.log }) h :),
    s.measure_regs type kind slot version digest, s.measure_rest type kind slot version digest⟩

/-! ## The owner's release -/

/-- A link's keys erased change its port and the registers of the fabric. -/
theorem eraseLinks_of (s : State) (l : List Nat) (hl : ∀ p ∈ l, p < 12) :
    let t := l.foldl State.eraseLink s
    { t with ports := s.ports, regs := s.regs } = s ∧ ∀ f : Fld, (f.key < 0x100000 * 32) → t.get f = s.get f := by
  induction l generalizing s with
  | nil => exact ⟨rfl, fun _ _ => rfl⟩
  | cons p l ih =>
    obtain ⟨hrest, hget⟩ := ih (s.eraseLink p) fun q hq => hl q (List.mem_cons_of_mem _ hq)
    refine ⟨(congrArg (fun v : State => { v with ports := s.ports, regs := s.regs }) hrest :), fun f hf => (hget f hf).trans ?_⟩
    refine State.get_put_ne _ _ ?_
    have hp := hl p List.mem_cons_self
    have hk : (Reg.fabSealState p).key = (0x100000 + 0x1000 * p + 0x240) * 32 + 0 := rfl
    omega

theorem releaseOk_iff (s : State) (r : ReleaseObj) : releaseOk s r = true ↔ r.sigOk = true ∧ r.serialDigest = Config.serialDigest ∧
    (if r.vendor then s.rsaRevoked r.rsaSlot = false ∧ s.slhRevoked r.slhSlot = false
      else s.cru.owner = some r.owner ∧ s.cru.claimNonce.isSome = true) := by
  unfold releaseOk
  cases r.vendor
  · simp only [Bool.and_eq_true, beq_iff_eq, Bool.false_eq_true, if_false, and_assoc, eq_comm (a := some r.owner)]
  · simp only [Bool.and_eq_true, beq_iff_eq, if_true, and_assoc, Bool.not_eq_true']

/-- What a release drops of a device whose links are erased. -/
def disowned (u : State) : State :=
  let s2 := { u with
    billet := none, netStreams := [], blmStreams := [], blm := Bloom.init, net := { Net.init with version := u.net.version }
    cad := { Cad.init with inRun := u.cad.inRun, inLock := u.cad.inLock, ran := u.cad.ran, lastFired := u.cad.lastFired }
    cru := { u.cru with owner := none, amends := [], lastJob := none } }
  [Reg.cruAmendSeq, Reg.cadStrikeCount, Reg.netStatusAddr, Reg.netStatusAssigned, Reg.netStatusState, Reg.netStreams,
    Reg.blmStreams].foldl (fun t f => t.put f 0) s2

theorem disowned_of (u : State) : let t := disowned u
    t.cru.owner = none ∧ t.cru.wrapped = u.cru.wrapped ∧ t.seed = u.seed ∧ t.billet = none ∧
      t.get Reg.cruStatusSeedHeld = u.get Reg.cruStatusSeedHeld ∧ t.mbx = u.mbx ∧ t.jnl = u.jnl ∧ t.life = u.life ∧ t.mems = u.mems := by
  refine ⟨rfl, rfl, rfl, rfl, ?_, rfl, rfl, rfl, rfl⟩
  unfold disowned
  simp only [List.foldl_cons, List.foldl_nil]
  iterate 7 rw [State.get_put_ne _ _ (by decide)]
  rfl

/-- What a release drops. -/
theorem dropOwner_of (s : State) : let t := s.dropOwner
    t.cru.owner = none ∧ t.cru.wrapped = none ∧ t.seed = none ∧ t.billet = none ∧ t.get Reg.cruStatusSeedHeld = 0 ∧
      t.mbx = s.mbx ∧ t.jnl = s.jnl ∧ t.life = s.life ∧ t.mems = s.mems := by
  intro t
  have ht : t = disowned ((List.range 12).foldl State.eraseLink s.dropSeed) := rfl
  obtain ⟨hrest, hget⟩ := eraseLinks_of s.dropSeed (List.range 12) fun p hp => List.mem_range.mp hp
  generalize (List.range 12).foldl State.eraseLink s.dropSeed = u at ht hrest hget
  obtain ⟨howner, hwrapped, hseed, hbillet, hheld, hmbx, hjnl, hlife, hmems⟩ := disowned_of u
  rw [ht]
  exact ⟨howner, hwrapped.trans (congrArg (fun v : State => v.cru.wrapped) hrest :), hseed.trans (congrArg State.seed hrest :), hbillet,
    hheld.trans ((hget _ (by decide)).trans (State.get_put_same _ _ _)), hmbx.trans (congrArg State.mbx hrest :),
    hjnl.trans (congrArg State.jnl hrest :), hlife.trans (congrArg State.life hrest :), hmems.trans (congrArg State.mems hrest :)⟩

/-- The scrub that RELEASE starts. -/
theorem startScrub_of (s : State) (why : Nat) : let t := s.startScrub why
    t.get Reg.cruScrubBusy = 1 ∧ t.get Reg.cruStatusScrubOk = 0 ∧ { t with cru := s.cru, regs := s.regs } = s ∧
      t.cru = { s.cru with scrubFor := why } ∧ SameRegsBut [Reg.cruScrubBusy, Reg.cruStatusScrubOk] s t := by
  intro t
  unfold t State.startScrub
  refine ⟨(State.get_put_ne _ _ (by decide)).trans (State.get_put_same _ _ _), State.get_put_same _ _ _, rfl, rfl, ?_⟩
  have h1 : SameRegsBut [Reg.cruScrubBusy, Reg.cruStatusScrubOk] s { s with cru := { s.cru with scrubFor := why } } := .of_regs rfl
  exact (h1.put _ 1 (by simp)).put _ 0 (by simp)

/-! ## The obligation -/

/-- The owner that a claim enrols, before the measurement. -/
def enrolled (s : State) (x : Slot) : State :=
  { s with cru := { s.cru with claimNonce := none, owner := some (claimOwner x.arg) }, life := .claimed }

/-- The device whose claim's nonce is spent. -/
def claimSpent (s : State) : State := { s with cru := { s.cru with claimNonce := none } }

theorem execClaim_eq {s : State} {n : Nat} {x : Slot} (h : Starts s n 0x0101 x) (nonce : Nat) (rsaOk slhOk : Bool) :
    exec (.claim n nonce rsaOk slhOk) s =
      if rsaOk && slhOk && s.cru.claimNonce == some nonce then
        .next (((enrolled s x).measure 5 0 0 0 (claimOwner x.arg)).finish x rcOk [])
      else .next ((claimSpent s).badSignature x) :=
  Starts.exec h fun x => if rsaOk && slhOk && s.cru.claimNonce == some nonce then
        .next (((enrolled s x).measure 5 0 0 0 (claimOwner x.arg)).finish x rcOk [])
      else .next ((claimSpent s).badSignature x)

/-- A claim that verifies enrols its owner. -/
theorem claim_enrols {s : State} {n : Nat} {x : Slot} (h : Starts s n 0x0101 x) :
    let t := ((enrolled s x).measure 5 0 0 0 (claimOwner x.arg)).finish x rcOk []
    Finished s t x 0 [] ∧
      t.cru.owner = some (claimOwner x.arg) ∧ t.life = .claimed ∧ t.cru.claimNonce = none ∧
      t.cru.meas = extend s.cru.meas { index := s.get Reg.cruMeasCount, type := 5, kind := 0, slot := 0, version := 0, digest := claimOwner x.arg } ∧
      { t.cru with owner := s.cru.owner, claimNonce := s.cru.claimNonce, meas := s.cru.meas, log := s.cru.log } = s.cru ∧
      SameRegsBut [Reg.cruMeasCount, Reg.cruLogLost] s t ∧
      { t with mbx := s.mbx, jnl := s.jnl, cru := s.cru, life := s.life, regs := s.regs } = s := by
  intro t
  obtain ⟨hmeas, hcru, hregs, hrest⟩ := (enrolled s x).measure_of 5 0 0 0 (claimOwner x.arg)
  generalize hm : (enrolled s x).measure 5 0 0 0 (claimOwner x.arg) = m at hmeas hcru hregs hrest
  have hcode : rcOk ≠ rcAborted := by decide
  have ht : t = m.finish x rcOk [] := by rw [← hm]
  have htc : t.cru = m.cru := ht ▸ m.finish_cru x [] hcode
  have hkeep := m.finish_rest x [] hcode
  rw [← ht] at hkeep
  have hslots : SameSlots s m := ⟨(congrArg (fun v : State => v.mbx.sessions) hrest :), (congrArg (fun v : State => v.mbx.nextSid) hrest :),
    (congrArg (fun v : State => v.mbx.slots) hrest :), (congrArg (fun v : State => v.mbx.queue) hrest :), (congrArg State.jnl hrest :)⟩
  rw [htc]
  refine ⟨ht ▸ Starts.finished h hslots hcode [], (congrArg Cru.owner hcru :), ?_, (congrArg Cru.claimNonce hcru :), hmeas,
    (congrArg (fun c : Cru => { c with owner := s.cru.owner, claimNonce := s.cru.claimNonce }) hcru :), ?_, ?_⟩
  · exact (congrArg State.life hkeep :).trans (congrArg State.life hrest :)
  · have he : SameRegsBut [Reg.cruMeasCount, Reg.cruLogLost] s (enrolled s x) := .of_regs rfl
    exact (he.trans hregs).to_regs (congrArg State.regs hkeep :)
  · let kept : State → State := fun v => { v with mbx := s.mbx, jnl := s.jnl, cru := s.cru, life := s.life, regs := s.regs }
    exact (congrArg kept hkeep :).trans (congrArg kept hrest :)

/-- Settles O8: a claim by `claim_enrols`, and a release by what `dropOwner_of` says that it drops. -/
theorem ownershipChanges : Obligations.OwnershipChanges := by
  intro s n x
  refine ⟨fun nonce rsaOk slhOk h => ?_, fun r h => ?_⟩
  · intro good
    have he := execClaim_eq h nonce rsaOk slhOk
    have hgood : (rsaOk && slhOk && s.cru.claimNonce == some nonce) = true ↔ good := by simp [good, and_assoc]
    refine ⟨fun hg => ⟨_, he.trans (if_pos (hgood.mpr hg)), claim_enrols h⟩, fun hg => ?_⟩
    have hslots : SameSlots s (claimSpent s) := ⟨rfl, rfl, rfl, rfl, rfl⟩
    obtain ⟨hfin, hsig, hrest⟩ := Starts.badSignature h hslots rfl
    exact ⟨_, he.trans (if_neg fun hc => hg (hgood.mp hc)), hfin, hsig, (congrArg State.cru hrest :),
      (congrArg (fun v : State => { v with cru := s.cru }) hrest :)⟩
  · intro signed
    have he : exec (.release n r) s = if !r.vendor && decide (x.level < 3) then .next (s.finish x rcLevel [])
        else if releaseOk s r then .next ((s.startRunning x).dropOwner.startScrub 2) else .next (s.badSignature x) :=
      Starts.exec h fun x => if !r.vendor && decide (x.level < 3) then .next (s.finish x rcLevel [])
        else if releaseOk s r then .next ((s.startRunning x).dropOwner.startScrub 2) else .next (s.badSignature x)
    have hsigned := releaseOk_iff s r
    have hlevel : r.vendor = true ∨ 3 ≤ x.level → ¬ (!r.vendor && decide (x.level < 3)) = true := by
      rintro (hv | hx)
      · simp [hv]
      · simp [Nat.not_lt.mpr hx]
    refine ⟨fun hv hs => ?_, fun hv hs => ?_, fun hv hx => ?_⟩
    · have hd := dropOwner_of (s.startRunning x)
      have hk := startScrub_of (s.startRunning x).dropOwner 2
      generalize (s.startRunning x).dropOwner = u at he hd hk
      obtain ⟨howner, hwrapped, hseed, hbillet, hheld, hmbx, hjnl, hlife, hmems⟩ := hd
      obtain ⟨hbusy, hok, hrest, hcru, hregs⟩ := hk
      refine ⟨_, he.trans ((if_neg (hlevel hv)).trans (if_pos (hsigned.mpr hs))), hmbx, ?_, ?_, hseed, hbillet, hbusy, hok, ?_, hjnl, hlife,
        SameBytes.of_sameMems hmems⟩
      · rw [hcru]
        exact howner
      · rw [hcru]
        exact hwrapped
      · exact (hregs _ (by decide)).trans hheld
    · obtain ⟨hfin, hsig, hrest⟩ := Starts.badSignature h (.refl s) rfl
      exact ⟨_, he.trans ((if_neg (hlevel hv)).trans (if_neg fun hc => hs (hsigned.mp hc))), hfin, hsig, hrest⟩
    · obtain ⟨hfin, hrest⟩ := Starts.completes h (code := rcLevel) (by decide) []
      exact ⟨_, he.trans (if_pos (by simp [hv, hx])), hfin, hrest⟩

end Sys2Proof.Machine
end

section
/-!
SUPPORT. Proofs: firmware, tokens, fuses, the unlock and the seed (R393, R401, R402, R417, R419, R445). -/

namespace Sys2Proof.Machine

/-- The bytes of a refusal that says nothing more. -/
theorem noMessage_eq : noMessage = List.replicate 16 0#8 := by decide

/-- A command that completes where only registers have changed before. -/
theorem Starts.completes_regs {s u : State} {n op : Nat} {x : Slot} {l : List Fld} (h : Starts s n op x)
    (hr : SameRegsBut l s u) (hu : { u with regs := s.regs } = s) {code : Nat} (hcode : code ≠ rcAborted) (result : List Byte) :
    let t := u.finish x code result
    Finished s t x code result ∧ SameRegsBut l s t ∧ { t with mbx := s.mbx, jnl := s.jnl, regs := s.regs } = s := by
  have hmbx : u.mbx = s.mbx := (congrArg State.mbx hu :)
  have hslots : SameSlots s u := by
    refine ⟨?_, ?_, ?_, ?_, (congrArg State.jnl hu :)⟩ <;> rw [hmbx]
  let kept : State → State := fun v => { v with mbx := s.mbx, jnl := s.jnl, regs := s.regs }
  exact ⟨Starts.finished h hslots hcode result, hr.to_regs (u.finish_regs x result hcode),
    (congrArg kept (u.finish_rest x result hcode) :).trans (congrArg kept hu :)⟩

/-- A command that completes where what Crucible holds has changed before. -/
theorem Starts.completes_cru {s : State} {n op : Nat} {x : Slot} (h : Starts s n op x) (c : Cru) {code : Nat} (hcode : code ≠ rcAborted)
    (result : List Byte) :
    let t := ({ s with cru := c } : State).finish x code result
    Finished s t x code result ∧ { t with mbx := s.mbx, jnl := s.jnl } = { s with cru := c } :=
  have hslots : SameSlots s { s with cru := c } := ⟨rfl, rfl, rfl, rfl, rfl⟩
  ⟨Starts.finished h hslots hcode result, ({ s with cru := c } : State).finish_rest x result hcode⟩

/-! ## FW_WRITE and FW_COMMIT -/

theorem execFwWrite_eq {s : State} {n : Nat} {x : Slot} (h : Starts s n 0x0401 x) (v : Bool) : exec (.fwWrite n v) s =
    .next (({ s with cru := { s.cru with
      images := Assoc.put s.cru.images (4 * (1 - s.activeSlot) + (imageOf x.arg v).kind - 1) (imageOf x.arg v) } } : State).finish x rcOk
        (leBytes 1 (1 - s.activeSlot))) :=
  Starts.exec h fun x => .next (({ s with cru := { s.cru with
      images := Assoc.put s.cru.images (4 * (1 - s.activeSlot) + (imageOf x.arg v).kind - 1) (imageOf x.arg v) } } : State).finish x rcOk
        (leBytes 1 (1 - s.activeSlot)))

/-- The written images of a mask that are not accepted. -/
def rejected (s : State) (m : Nat) : Nat :=
  ([1, 2, 3, 4].filter (fun k => bit m (k - 1) && (s.acceptedAt (1 - s.activeSlot) k).isNone)).length

theorem rejected_eq_zero {s : State} {m : Nat} : rejected s m = 0 ↔
    ∀ k, 1 ≤ k → k ≤ 4 → bit m (k - 1) = true → (s.acceptedAt (1 - s.activeSlot) k).isSome = true := by
  unfold rejected
  rw [List.length_eq_zero_iff, List.filter_eq_nil_iff]
  refine ⟨fun h k h1 h4 hk => ?_, fun h k hk => ?_⟩
  · have hmem : k ∈ [1, 2, 3, 4] := by simp only [List.mem_cons, List.not_mem_nil, or_false]; omega
    have hn := h k hmem
    rw [hk, Bool.true_and, Bool.not_eq_true, Option.isNone_eq_false_iff] at hn
    exact hn
  · have h14 : 1 ≤ k ∧ k ≤ 4 := by simp only [List.mem_cons, List.not_mem_nil, or_false] at hk; omega
    rw [Bool.and_eq_true]
    rintro ⟨hb, hn⟩
    have hsome := h k h14.1 h14.2 hb
    rw [Option.isNone_iff_eq_none] at hn
    rw [hn] at hsome
    cases hsome

theorem execFwCommit_eq {s : State} {n : Nat} {x : Slot} (h : Starts s n 0x0402 x) : exec (.fwCommit n) s =
    if rejected s (fieldAt x.arg 0 1 % 16) ≠ 0 then
      .next ((s.count Reg.cruSigFail (rejected s (fieldAt x.arg 0 1 % 16))).finish x rcSignature [])
    else if tested (s.candidate (fieldAt x.arg 0 1 % 16)) then
      .next ((s.put Reg.cruBootActive (1 - s.activeSlot)).finish x rcOk (leBytes 1 (s.put Reg.cruBootActive (1 - s.activeSlot)).activeSlot))
    else .next (s.finish x rcRefused noMessage) :=
  Starts.exec h fun x => if rejected s (fieldAt x.arg 0 1 % 16) ≠ 0 then
      .next ((s.count Reg.cruSigFail (rejected s (fieldAt x.arg 0 1 % 16))).finish x rcSignature [])
    else if tested (s.candidate (fieldAt x.arg 0 1 % 16)) then
      .next ((s.put Reg.cruBootActive (1 - s.activeSlot)).finish x rcOk (leBytes 1 (s.put Reg.cruBootActive (1 - s.activeSlot)).activeSlot))
    else .next (s.finish x rcRefused noMessage)

/-- ACTIVE names the other slot after it flips. -/
theorem activeSlot_flip (s : State) : (s.put Reg.cruBootActive (1 - s.activeSlot)).activeSlot = 1 - s.activeSlot := by
  refine (State.get_put_same s Reg.cruBootActive _).trans (Nat.mod_eq_of_lt ?_)
  have hw : (2 : Nat) ≤ 2 ^ Reg.cruBootActive.w := by decide
  omega

theorem fwCommit_acts {s : State} {n : Nat} {x : Slot} (h : Starts s n 0x0402 x) :
    let m := fieldAt x.arg 0 1 % 16
    ((∀ k, 1 ≤ k → k ≤ 4 → bit m (k - 1) = true → (s.acceptedAt (1 - s.activeSlot) k).isSome = true) →
      (tested (s.candidate m) = true → ∃ t, exec (.fwCommit n) s = .next t ∧ t.activeSlot = 1 - s.activeSlot ∧
        Finished s t x 0 (leBytes 1 (1 - s.activeSlot)) ∧ SameRegsBut [Reg.cruBootActive] s t ∧
        { t with mbx := s.mbx, jnl := s.jnl, regs := s.regs } = s) ∧
      (tested (s.candidate m) = false → ∃ t, exec (.fwCommit n) s = .next t ∧ Finished s t x 9 (List.replicate 16 0#8) ∧
        { t with mbx := s.mbx, jnl := s.jnl } = s)) ∧
    (∀ k, 1 ≤ k → k ≤ 4 → bit m (k - 1) = true → s.acceptedAt (1 - s.activeSlot) k = none → ∃ t, exec (.fwCommit n) s = .next t ∧
      Finished s t x 8 [] ∧ SameRegsBut [Reg.cruSigFail] s t ∧ { t with mbx := s.mbx, jnl := s.jnl, regs := s.regs } = s) := by
  intro m
  have he := execFwCommit_eq h
  refine ⟨fun hall => ?_, fun k h1 h4 hb hn => ?_⟩
  · have he := he.trans (if_neg (not_not_intro (rejected_eq_zero.mpr hall)))
    refine ⟨fun ht => ?_, fun ht => ?_⟩
    · have hput : SameRegsBut [Reg.cruBootActive] s (s.put Reg.cruBootActive (1 - s.activeSlot)) := (SameRegsBut.refl _ s).put _ _ (by simp)
      obtain ⟨hfin, hregs, hrest⟩ := Starts.completes_regs h hput rfl (code := rcOk) (by decide) (leBytes 1 (1 - s.activeSlot))
      rw [activeSlot_flip] at he
      exact ⟨_, he.trans (if_pos ht), (State.get_finish _ x _ (by decide) _).trans (activeSlot_flip s), hfin, hregs, hrest⟩
    · obtain ⟨hfin, hrest⟩ := Starts.completes h (code := rcRefused) (by decide) noMessage
      exact ⟨_, he.trans (if_neg (ne_true_of_eq_false ht)), noMessage_eq ▸ hfin, hrest⟩
  · have hbad : rejected s m ≠ 0 := fun h0 => by
      have hsome := rejected_eq_zero.mp h0 k h1 h4 hb
      rw [hn] at hsome
      cases hsome
    have hcount : SameRegsBut [Reg.cruSigFail] s (s.count Reg.cruSigFail (rejected s m)) := (SameRegsBut.refl _ s).count _ _ (by simp)
    obtain ⟨hfin, hregs, hrest⟩ := Starts.completes_regs h hcount rfl (code := rcSignature) (by decide) []
    exact ⟨_, he.trans (if_pos hbad), hfin, hregs, hrest⟩

/-! ## REVOKE -/

theorem execRevoke_eq {s : State} {n : Nat} {x : Slot} (h : Starts s n 0x0404 x) (v : Bool) : exec (.revoke n v) s =
    let o := revocationOf x.arg v
    let f := if o.alg = 0 then Reg.cruFuseRsaRevoked else Reg.cruFuseSlhRevoked
    if !vendorSigned s o then .next (s.badSignature x)
    else if decide (1 < o.alg) || decide (3 < o.slot) then .next (s.finish x rcBadArgs [])
    else if s.get f ||| 2 ^ o.slot = 15 then .next (s.finish x rcRefused noMessage)
    else .next ((s.put f (s.get f ||| 2 ^ o.slot)).finish x rcOk []) :=
  Starts.exec h fun x =>
    let o := revocationOf x.arg v
    let f := if o.alg = 0 then Reg.cruFuseRsaRevoked else Reg.cruFuseSlhRevoked
    if !vendorSigned s o then .next (s.badSignature x)
    else if decide (1 < o.alg) || decide (3 < o.slot) then .next (s.finish x rcBadArgs [])
    else if s.get f ||| 2 ^ o.slot = 15 then .next (s.finish x rcRefused noMessage)
    else .next ((s.put f (s.get f ||| 2 ^ o.slot)).finish x rcOk [])

/-- A fuse of one more slot burnt still fits its field. -/
theorem burnt_lt {v slot : Nat} (hv : v < 16) (hs : slot ≤ 3) : v ||| 2 ^ slot < 16 :=
  Nat.or_lt_two_pow (n := 4) hv (Nat.pow_lt_pow_right (by decide) (by omega))

theorem revoke_acts {s : State} {n : Nat} {x : Slot} (h : Starts s n 0x0404 x) (v : Bool) :
    let o := revocationOf x.arg v
    let f := if o.alg = 0 then Reg.cruFuseRsaRevoked else Reg.cruFuseSlhRevoked
    (vendorSigned s o = true → o.alg ≤ 1 → o.slot ≤ 3 →
      (s.get f ||| 2 ^ o.slot = 15 → ∃ t, exec (.revoke n v) s = .next t ∧ Finished s t x 9 (List.replicate 16 0#8) ∧
        { t with mbx := s.mbx, jnl := s.jnl } = s) ∧
      (s.get f < 16 → s.get f ||| 2 ^ o.slot ≠ 15 → ∃ t, exec (.revoke n v) s = .next t ∧ Finished s t x 0 [] ∧
        t.get f = s.get f ||| 2 ^ o.slot ∧ SameRegsBut [f] s t ∧ { t with mbx := s.mbx, jnl := s.jnl, regs := s.regs } = s)) ∧
    (vendorSigned s o = false → ∃ t, exec (.revoke n v) s = .next t ∧ Finished s t x 8 [] ∧ SigFailed s t ∧
      { t with mbx := s.mbx, jnl := s.jnl, regs := s.regs } = s) := by
  intro o f
  have he := execRevoke_eq h v
  refine ⟨fun hsigned halg hslot => ?_, fun hsigned => ?_⟩
  · have hargs : ¬ (decide (1 < o.alg) || decide (3 < o.slot)) = true := by simp [Nat.not_lt.mpr halg, Nat.not_lt.mpr hslot]
    have he := (he.trans (if_neg (by simp [show vendorSigned s (revocationOf x.arg v) = true from hsigned]))).trans (if_neg hargs)
    refine ⟨fun hlast => ?_, fun hf hleft => ?_⟩
    · obtain ⟨hfin, hrest⟩ := Starts.completes h (code := rcRefused) (by decide) noMessage
      exact ⟨_, he.trans (if_pos hlast), noMessage_eq ▸ hfin, hrest⟩
    · have hput : SameRegsBut [f] s (s.put f (s.get f ||| 2 ^ o.slot)) := (SameRegsBut.refl _ s).put _ _ (by simp)
      have hw : f.w = 4 := by
        unfold f
        split <;> rfl
      obtain ⟨hfin, hregs, hrest⟩ := Starts.completes_regs h hput rfl (code := rcOk) (by decide) []
      refine ⟨_, he.trans (if_neg hleft), hfin, (State.get_finish _ x _ (by decide) _).trans ?_, hregs, hrest⟩
      rw [State.get_put_same, hw]
      exact Nat.mod_eq_of_lt (burnt_lt hf hslot)
  · obtain ⟨hfin, hsig, hrest⟩ := Starts.badSignature h (.refl s) rfl
    exact ⟨_, he.trans (if_pos (by simp [show vendorSigned s (revocationOf x.arg v) = false from hsigned])), hfin, hsig, hrest⟩

/-! ## DEBUG_UNLOCK -/

/-- A command that is accepted over a signature, or is counted as unsigned. -/
theorem execDebugUnlock_eq {s : State} {n : Nat} {x : Slot} (h : Starts s n 0x0405 x) (v : Bool) : exec (.debugUnlock n v) s =
    let o := unlockOf x.arg v
    if (if s.life = .claimed ∨ s.life = .armed then ownerSigned s o else vendorSigned s o) then
      .next (((s.measure 4 0 0 0 o.digest).put Reg.cruStatusDebug 1).finish x rcOk [])
    else .next (s.badSignature x) :=
  Starts.exec h fun x =>
    let o := unlockOf x.arg v
    if (if s.life = .claimed ∨ s.life = .armed then ownerSigned s o else vendorSigned s o) then
      .next (((s.measure 4 0 0 0 o.digest).put Reg.cruStatusDebug 1).finish x rcOk [])
    else .next (s.badSignature x)

theorem debugUnlock_unlocks {s : State} {n : Nat} {x : Slot} (h : Starts s n 0x0405 x) (digest : Nat) :
    let t := ((s.measure 4 0 0 0 digest).put Reg.cruStatusDebug 1).finish x rcOk []
    Finished s t x 0 [] ∧ t.get Reg.cruStatusDebug = 1 ∧
      t.cru.meas = extend s.cru.meas { index := s.get Reg.cruMeasCount, type := 4, kind := 0, slot := 0, version := 0, digest := digest } ∧
      { t.cru with meas := s.cru.meas, log := s.cru.log } = s.cru ∧
      SameRegsBut [Reg.cruStatusDebug, Reg.cruMeasCount, Reg.cruLogLost] s t ∧
      { t with mbx := s.mbx, jnl := s.jnl, cru := s.cru, regs := s.regs } = s := by
  intro t
  obtain ⟨hmeas, hcru, hregs, hrest⟩ := s.measure_of 4 0 0 0 digest
  generalize hm : s.measure 4 0 0 0 digest = m at hmeas hcru hregs hrest
  have ht : t = (m.put Reg.cruStatusDebug 1).finish x rcOk [] := by rw [← hm]
  have hcode : rcOk ≠ rcAborted := by decide
  have hkeep := (m.put Reg.cruStatusDebug 1).finish_rest x [] hcode
  rw [← ht] at hkeep
  have htc : t.cru = m.cru := (congrArg State.cru hkeep :)
  have hslots : SameSlots s (m.put Reg.cruStatusDebug 1) := ⟨(congrArg (fun v : State => v.mbx.sessions) hrest :),
    (congrArg (fun v : State => v.mbx.nextSid) hrest :), (congrArg (fun v : State => v.mbx.slots) hrest :),
    (congrArg (fun v : State => v.mbx.queue) hrest :), (congrArg State.jnl hrest :)⟩
  have hput : SameRegsBut [Reg.cruStatusDebug, Reg.cruMeasCount, Reg.cruLogLost] s (m.put Reg.cruStatusDebug 1) :=
    (hregs.mono (by simp)).put _ 1 (by simp)
  rw [htc]
  let kept : State → State := fun v => { v with mbx := s.mbx, jnl := s.jnl, cru := s.cru, regs := s.regs }
  exact ⟨ht ▸ Starts.finished h hslots hcode [], (State.get_of_regs (congrArg State.regs hkeep :) _).trans (State.get_put_same _ _ _), hmeas,
    hcru, hput.to_regs (congrArg State.regs hkeep :), (congrArg kept hkeep :).trans (congrArg kept hrest :)⟩

/-! ## JOB_KEY_IMPORT -/

theorem execJobKeyImport_eq {s : State} {n : Nat} {x : Slot} (h : Starts s n 0x0406 x) (v : Bool) (opened : Option Nat) :
    exec (.jobKeyImport n v opened) s =
      let o := importOf x.arg v opened
      match opened with
      | some k =>
        if !o.good || o.hello != x.hello then .next (s.badSignature x)
        else if s.jobId = some o.jobId then .next ((s.holdSeed k s.addr).finish x rcOk (leBytes 1 1))
        else .next (s.finish x rcOk (leBytes 1 0))
      | none => .next (s.badSignature x) :=
  Starts.exec h fun x =>
    let o := importOf x.arg v opened
    match opened with
    | some k =>
      if !o.good || o.hello != x.hello then .next (s.badSignature x)
      else if s.jobId = some o.jobId then .next ((s.holdSeed k s.addr).finish x rcOk (leBytes 1 1))
      else .next (s.finish x rcOk (leBytes 1 0))
    | none => .next (s.badSignature x)

/-- The seed of a job held. -/
theorem holdSeed_of {s : State} {b : Billet} (hb : s.billet = some b) (k parent : Nat) : let t := s.holdSeed k parent
    t.seed = some k ∧ t.cru = { s.cru with wrapped := some (b.jobId, b.digest, k) } ∧ t.get Reg.cruStatusSeedHeld = 1 ∧
      SameRegsBut [Reg.cruStatusSeedHeld, Reg.cruSeedParent] s t ∧ { t with cru := s.cru, seed := s.seed, regs := s.regs } = s := by
  intro t
  have hcru : t.cru = { s.cru with wrapped := some (b.jobId, b.digest, k) } := by
    unfold t State.holdSeed
    rw [hb]
    rfl
  refine ⟨rfl, hcru, (State.get_put_ne _ _ (by decide)).trans (State.get_put_same _ _ _), ?_, rfl⟩
  unfold t State.holdSeed
  extract_lets cru u
  have h1 : SameRegsBut [Reg.cruStatusSeedHeld, Reg.cruSeedParent] s u := .of_regs rfl
  exact (h1.put _ 1 (by simp)).put _ parent (by simp)

theorem jobKeyImport_holds {s : State} {n : Nat} {x : Slot} (h : Starts s n 0x0406 x) {b : Billet} (hb : s.billet = some b) (k : Nat) :
    let t := (s.holdSeed k s.addr).finish x rcOk [1#8]
    Finished s t x 0 [1#8] ∧ t.seed = some k ∧ t.cru = { s.cru with wrapped := some (b.jobId, b.digest, k) } ∧
      t.get Reg.cruStatusSeedHeld = 1 ∧ SameRegsBut [Reg.cruStatusSeedHeld, Reg.cruSeedParent] s t ∧
      { t with mbx := s.mbx, jnl := s.jnl, cru := s.cru, seed := s.seed, regs := s.regs } = s := by
  intro t
  obtain ⟨hseed, hcru, hheld, hregs, hrest⟩ := holdSeed_of hb k s.addr
  generalize hm : s.holdSeed k s.addr = m at hseed hcru hheld hregs hrest
  have ht : t = m.finish x rcOk [1#8] := by rw [← hm]
  have hcode : rcOk ≠ rcAborted := by decide
  have hkeep := m.finish_rest x [1#8] hcode
  rw [← ht] at hkeep
  have hslots : SameSlots s m := ⟨(congrArg (fun v : State => v.mbx.sessions) hrest :), (congrArg (fun v : State => v.mbx.nextSid) hrest :),
    (congrArg (fun v : State => v.mbx.slots) hrest :), (congrArg (fun v : State => v.mbx.queue) hrest :), (congrArg State.jnl hrest :)⟩
  let kept : State → State := fun v => { v with mbx := s.mbx, jnl := s.jnl, cru := s.cru, seed := s.seed, regs := s.regs }
  have htr : t.regs = m.regs := (congrArg State.regs hkeep :)
  exact ⟨ht ▸ Starts.finished h hslots hcode [1#8], (congrArg State.seed hkeep :).trans hseed, (congrArg State.cru hkeep :).trans hcru,
    (State.get_of_regs htr _).trans hheld, hregs.to_regs htr, (congrArg kept hkeep :).trans (congrArg kept hrest :)⟩

theorem jobKeyImport_acts {s : State} {n : Nat} {x : Slot} {opened : Option Nat} (h : Starts s n 0x0406 x) (v : Bool) :
    let o := importOf x.arg v opened
    (∀ k, opened = some k → o.good = true → o.hello = x.hello →
      (∀ b, s.billet = some b → o.jobId = b.jobId → ∃ t, exec (.jobKeyImport n v opened) s = .next t ∧ Finished s t x 0 [1#8] ∧
        t.seed = some k ∧ t.cru = { s.cru with wrapped := some (b.jobId, b.digest, k) } ∧ t.get Reg.cruStatusSeedHeld = 1 ∧
        SameRegsBut [Reg.cruStatusSeedHeld, Reg.cruSeedParent] s t ∧
        { t with mbx := s.mbx, jnl := s.jnl, cru := s.cru, seed := s.seed, regs := s.regs } = s) ∧
      ((∀ b, s.billet = some b → o.jobId ≠ b.jobId) → ∃ t, exec (.jobKeyImport n v opened) s = .next t ∧ Finished s t x 0 [0#8] ∧
        { t with mbx := s.mbx, jnl := s.jnl } = s)) ∧
    (opened = none ∨ o.good = false ∨ o.hello ≠ x.hello → ∃ t, exec (.jobKeyImport n v opened) s = .next t ∧ Finished s t x 8 [] ∧
      SigFailed s t ∧ { t with mbx := s.mbx, jnl := s.jnl, regs := s.regs } = s) := by
  intro o
  have he := execJobKeyImport_eq h v opened
  have hbytes : leBytes 1 1 = [1#8] ∧ leBytes 1 0 = [0#8] := by decide
  refine ⟨fun k hk hgood hhello => ?_, fun hbad => ?_⟩
  · cases hk
    have hok : ¬ (!o.good || o.hello != x.hello) = true := by simp [hgood, hhello]
    have he := he.trans (if_neg hok)
    refine ⟨fun b hb hjob => ?_, fun hjob => ?_⟩
    · have hid : s.jobId = some o.jobId := by simp [State.jobId, hb, hjob]
      have he := he.trans (if_pos hid)
      rw [hbytes.1] at he
      exact ⟨_, he, jobKeyImport_holds h hb k⟩
    · have hid : s.jobId ≠ some o.jobId := fun e => by
        obtain ⟨b, hb, hj⟩ := Option.map_eq_some_iff.mp e
        exact hjob b hb hj.symm
      have he := he.trans (if_neg hid)
      rw [hbytes.2] at he
      exact ⟨_, he, Starts.completes h (code := rcOk) (by decide) [0#8]⟩
  · refine ⟨_, ?_, Starts.badSignature h (.refl s) rfl⟩
    cases opened with
    | none => exact he
    | some k =>
      refine he.trans (if_pos ?_)
      rcases hbad with hn | hg | hh
      · cases hn
      · simp [show (importOf x.arg v (some k)).good = false from hg]
      · simp [show (importOf x.arg v (some k)).hello ≠ x.hello from hh]

/-! ## The obligation -/

/-- Settles O11, command by command. -/
theorem firmwareAndKeysChange : Obligations.FirmwareAndKeysChange := by
  intro s n x v
  dsimp only
  refine ⟨fun h => ?_, fun h _ => fwCommit_acts h, fun h => ?_, fun h => revoke_acts h v, fun h => ?_, fun opened h => jobKeyImport_acts h v⟩
  · obtain ⟨hfin, hrest⟩ := Starts.completes_cru h { s.cru with
      images := Assoc.put s.cru.images (4 * (1 - s.activeSlot) + (imageOf x.arg v).kind - 1) (imageOf x.arg v) } (code := rcOk) (by decide)
      (leBytes 1 (1 - s.activeSlot))
    exact ⟨_, execFwWrite_eq h v, hfin, (congrArg State.cru hrest :), (congrArg (fun u : State => { u with cru := s.cru }) hrest :)⟩
  · have he : exec (.exceptionLoad n v) s = if s.tokenOk (tokenOf x.arg v) then
        .next (({ s with cru := { s.cru with token := some (tokenOf x.arg v) } } : State).finish x rcOk []) else .next (s.badSignature x) :=
      Starts.exec h fun x => if s.tokenOk (tokenOf x.arg v) then
        .next (({ s with cru := { s.cru with token := some (tokenOf x.arg v) } } : State).finish x rcOk []) else .next (s.badSignature x)
    exact ⟨fun hok => ⟨_, he.trans (if_pos hok), Starts.completes_cru h _ (code := rcOk) (by decide) []⟩,
      fun hbad => ⟨_, he.trans (if_neg (ne_true_of_eq_false hbad)), Starts.badSignature h (.refl s) rfl⟩⟩
  · have he := execDebugUnlock_eq h v
    exact ⟨fun hsigned => ⟨_, he.trans (if_pos hsigned), debugUnlock_unlocks h _⟩,
      fun hbad => ⟨_, he.trans (if_neg (ne_true_of_eq_false hbad)), Starts.badSignature h (.refl s) rfl⟩⟩

end Sys2Proof.Machine
end

section
/-!
SUPPORT. Proofs: what the settings of an accepted billet leave unchanged (R411, R441). -/

namespace Sys2Proof.Machine

/-! ## The settings of a billet and what Smith writes beside them -/

/-- A field of the Cadence's block, CRU.AMEND_SEQ or NET.STATUS: those that say what billet is held. -/
abbrev TellsBillet (f : Fld) : Prop :=
  (0x30000 * 32 ≤ f.key ∧ f.key < 0x31000 * 32) ∨ f.key = Reg.cruAmendSeq.key ∨ (0x10C004 * 32 ≤ f.key ∧ f.key < 0x10C005 * 32)

/-- From `s` to `t` the fields that tell of the billet are as they were, no byte of Stock outside the images `l` has changed, and of the
rest only the memories, the registers and the units' own records have. -/
structure Installs (l : List PlanImage) (s t : State) : Prop where
  get : ∀ f, TellsBillet f → t.get f = s.get f
  stock : ∀ a, (∀ g ∈ l, 3 ≤ g.mem → ¬ Within a g.addr g.data.length) → t.stock.read a = s.stock.read a
  rest : { t with
    regs := s.regs, hearth0 := s.hearth0, hearth1 := s.hearth1, hbm := s.hbm, stock := s.stock, hbmPoison := s.hbmPoison
    stockPoison := s.stockPoison, faultQ := s.faultQ, netStreams := s.netStreams, blmStreams := s.blmStreams, kvp := s.kvp
    blm := s.blm, out := s.out, freeCtr := s.freeCtr } = s

namespace Installs

variable {l : List PlanImage}

theorem refl (s : State) : Installs l s s := ⟨fun _ _ => rfl, fun _ _ => rfl, rfl⟩

theorem trans {r s t : State} (h : Installs l r s) (k : Installs l s t) : Installs l r t where
  get f hf := (k.get f hf).trans (h.get f hf)
  stock a ha := (k.stock a ha).trans (h.stock a ha)
  rest := by
    let kept : State → State := fun v => { v with
      regs := r.regs, hearth0 := r.hearth0, hearth1 := r.hearth1, hbm := r.hbm, stock := r.stock, hbmPoison := r.hbmPoison
      stockPoison := r.stockPoison, faultQ := r.faultQ, netStreams := r.netStreams, blmStreams := r.blmStreams, kvp := r.kvp
      blm := r.blm, out := r.out, freeCtr := r.freeCtr }
    exact (congrArg kept k.rest :).trans h.rest

/-- A write of a field that does not tell of the billet. -/
theorem put {s t : State} {f : Fld} (h : Installs l s t) (hf : ¬ TellsBillet f) (v : Nat) : Installs l s (t.put f v) :=
  h.trans ⟨fun g hg => State.get_put_ne t v fun e => hf (by unfold TellsBillet at hg ⊢; rwa [e] at hg), fun _ _ => rfl, rfl⟩

theorem put64 {s t : State} {lo hi : Fld} (h : Installs l s t) (hl : ¬ TellsBillet lo) (hh : ¬ TellsBillet hi) (v : Nat) :
    Installs l s (t.put64 lo hi v) := (h.put hl _).put hh _

theorem foldl {α : Type} {r : List α} {f : State → α → State} (hf : ∀ a ∈ r, ∀ t, Installs l t (f t a)) (s : State) :
    Installs l s (r.foldl f s) := by
  induction r generalizing s with
  | nil => exact .refl s
  | cons a r ih => exact (hf a List.mem_cons_self s).trans (ih (fun b hb => hf b (List.mem_cons_of_mem _ hb)) _)

theorem raise (s : State) (src kind cls addr : Nat) : Installs l s (s.raise src kind cls addr) where
  get f hf := by
    have hd : ¬ TellsBillet Reg.fltDropped := by decide
    have ho : ¬ TellsBillet Reg.fltStatusOvf := by decide
    refine s.get_raise _ _ _ _ (fun e => hd ?_) (fun e => ho ?_) <;> unfold TellsBillet at hf ⊢ <;> rwa [e] at hf
  stock a _ := by rw [s.raise_upd]
  rest := by rw [s.raise_upd]

end Installs

/-! ## The writes of an image -/

/-- A register of a HBM4 stack tells nothing of the billet. -/
theorem not_tellsBillet_hbm {k : Nat} : ¬ TellsBillet (Reg.hbmPoisonCount k) := by
  have hk : (Reg.hbmPoisonCount k).key = (0x700000 + 0x1000 * k + 0x00C) * 32 + 0 := rfl
  have hs : Reg.cruAmendSeq.key = (0x60000 + 0x088) * 32 + 0 := rfl
  unfold TellsBillet
  omega

theorem installs_hbmTouched {l : List PlanImage} (s : State) (a len : Nat) : Installs l s (s.hbmTouched a len) := by
  unfold State.hbmTouched
  extract_lets hit full part s1 s2
  split
  · exact .refl s
  · have h1 : Installs l s s1 := ⟨fun _ _ => rfl, fun _ _ => rfl, rfl⟩
    have h2 : Installs l s1 s2 := .foldl (fun k _ t => (Installs.refl t).put not_tellsBillet_hbm _) s1
    exact (h1.trans h2).trans (.foldl (fun g _ t => .raise t _ _ _ _) s2)

theorem installs_stockTouched {l : List PlanImage} (s : State) (a len : Nat) : Installs l s (s.stockTouched a len) := by
  unfold State.stockTouched
  extract_lets hit full part
  split
  · exact .refl s
  · refine Installs.trans ?_ (.foldl (fun g _ t => .raise t _ _ _ _) _)
    exact ⟨fun _ _ => rfl, fun _ _ => rfl, rfl⟩

/-- An image of the billet lands in its memory. -/
theorem installs_placeImage {l : List PlanImage} (s : State) {g : PlanImage} (hg : g ∈ l) : Installs l s (s.placeImage g) := by
  unfold State.placeImage
  by_cases h2 : g.mem < 2
  · rw [if_pos h2]
    obtain ⟨h0, h1, e⟩ := s.setHearth_frame g.mem ((s.hearth g.mem).writeBytes g.addr g.data)
    rw [e]
    exact ⟨fun _ _ => rfl, fun _ _ => rfl, rfl⟩
  · rw [if_neg h2]
    by_cases h3 : g.mem = 2
    · rw [if_pos h3]
      refine Installs.trans ?_ (installs_hbmTouched _ g.addr g.data.length)
      exact ⟨fun _ _ => rfl, fun _ _ => rfl, rfl⟩
    · rw [if_neg h3]
      refine Installs.trans ?_ (installs_stockTouched _ g.addr g.data.length)
      exact ⟨fun _ _ => rfl, fun a ha => s.stock.read_writeBytes_out g.data (ha g hg (by omega)), rfl⟩

/-! ## The registers that a billet sets -/

/-- A register of a core tells nothing of the billet. -/
theorem not_tellsBillet_of_core {f : Fld} (h : 0x1000000 * 32 ≤ f.key) : ¬ TellsBillet f := by
  have hs : Reg.cruAmendSeq.key = (0x60000 + 0x088) * 32 + 0 := rfl
  unfold TellsBillet
  omega

theorem installs_putNumctrl {l : List PlanImage} (s : State) (b : Billet) : Installs l s (s.putNumctrl b) := by
  refine .foldl (fun n _ t => ((Installs.refl t).put (not_tellsBillet_of_core ?_) _).put (not_tellsBillet_of_core ?_) _) s
  · show _ ≤ (0x1000000 + 0x10000 * n + 0x0220) * 32 + 0
    omega
  · show _ ≤ (0x1000000 + 0x10000 * n + 0x0220) * 32 + 1
    omega

theorem installs_putGangs {l : List PlanImage} (s : State) (gs : List Gang) : Installs l s (s.putGangs gs) := by
  refine .foldl (fun g _ t => .foldl (fun n _ u => ((Installs.refl u).put (not_tellsBillet_of_core ?_) _).put
    (not_tellsBillet_of_core ?_) _) t) s
  · show _ ≤ (0x1000000 + 0x10000 * n + 0x0004) * 32 + 0
    omega
  · show _ ≤ (0x1000000 + 0x10000 * n + 0x0004) * 32 + 16
    omega

theorem installs_putKv {l : List PlanImage} (s : State) (k : KvPlan) : Installs l s (s.putKv k) := by
  unfold State.putKv
  extract_lets on s1 s2 s3
  have h0 : Installs l s { s with kvp := Kvp.init } := ⟨fun _ _ => rfl, fun _ _ => rfl, rfl⟩
  have h1 : Installs l s s1 := h0.put (by decide) _
  have h2 : Installs l s s2 := ((h1.put (by decide) _).put (by decide) _).put (by decide) _
  have h3 : Installs l s s3 := (h2.put64 (by decide) (by decide) _).put64 (by decide) (by decide) _
  exact (((((h3.put (by decide) _).put (by decide) _).put (by decide) _).put (by decide) _).put (by decide) _).put (by decide) _

theorem installs_putStash {l : List PlanImage} (s : State) (p : StashPlan) : Installs l s (s.putStash p) := by
  unfold State.putStash
  split
  · exact (((Installs.refl s).put (by decide) _).put64 (by decide) (by decide) _).put (by decide) _
  · exact (((Installs.refl s).put (by decide) _).put64 (by decide) (by decide) _).put (by decide) _

theorem installs_putTemper {l : List PlanImage} (s : State) (p : TemperPlan) : Installs l s (s.putTemper p) := by
  unfold State.putTemper
  extract_lets s1
  have h1 : Installs l s s1 :=
    ((((Installs.refl s).put (by decide) _).put (by decide) _).put (by decide) _).put (by decide) _
  exact (((h1.put (by decide) _).put (by decide) _).put64 (by decide) (by decide) _).put64 (by decide) (by decide) _

/-- A register of a fabric port tells nothing of the billet. -/
theorem not_tellsBillet_of_port {f : Fld} (h : 0x100000 * 32 ≤ f.key ∧ f.key < 0x10C000 * 32) : ¬ TellsBillet f := by
  have hs : Reg.cruAmendSeq.key = (0x60000 + 0x088) * 32 + 0 := rfl
  unfold TellsBillet
  omega

theorem installs_trainStart {l : List PlanImage} (s : State) {p : Nat} (hp : p < 12) : Installs l s (s.trainStart p) := by
  have hstate : ¬ TellsBillet (Reg.fabStatusState p) := not_tellsBillet_of_port (by
    show _ ≤ (0x100000 + 0x1000 * p + 0x004) * 32 + 0 ∧ (0x100000 + 0x1000 * p + 0x004) * 32 + 0 < _
    omega)
  have hcount : ¬ TellsBillet (Reg.fabRetrains p) := not_tellsBillet_of_port (by
    show _ ≤ (0x100000 + 0x1000 * p + 0x020) * 32 + 0 ∧ (0x100000 + 0x1000 * p + 0x020) * 32 + 0 < _
    omega)
  unfold State.trainStart
  extract_lets s1
  have h1 : Installs l s s1 := ((Installs.refl s).put hstate _).put hcount _
  split
  · exact h1
  · refine h1.trans ?_
    exact ⟨fun _ _ => rfl, fun _ _ => rfl, rfl⟩

theorem installs_putModes {l : List PlanImage} (s : State) (ps : List Nat) : Installs l s (s.putModes ps) := by
  refine .foldl (fun p hp t => ?_) s
  have hp12 : p < 12 := by
    simp only [List.mem_cons, List.not_mem_nil, or_false] at hp
    omega
  have hmode : ¬ TellsBillet (Reg.fabCtrlMode p) := not_tellsBillet_of_port (by
    show _ ≤ (0x100000 + 0x1000 * p + 0x000) * 32 + 1 ∧ (0x100000 + 0x1000 * p + 0x000) * 32 + 1 < _
    omega)
  extract_lets m u
  have hu : Installs l t u := (Installs.refl t).put hmode _
  split
  · exact .refl t
  · split
    · exact hu.trans (installs_trainStart u hp12)
    · exact hu

/-- What a core reset clears is written again (R385). -/
theorem installs_putCoreReach (s : State) (b : Billet) : Installs b.images s (s.putCoreReach b) := by
  unfold State.putCoreReach
  extract_lets s1
  have h1 : Installs b.images s s1 :=
    ((installs_putGangs s b.gangs).trans (installs_putKv _ b.kv)).trans (installs_putStash _ b.stash)
  exact h1.trans (.foldl (fun g hg t => installs_placeImage t (List.mem_of_mem_filter hg)) s1)

/-! ## The Bloom cursors -/

theorem installs_freeBusy {l : List PlanImage} (s : State) (kind : Nat) (x : Sample) : Installs l s (s.freeBusy kind x) := by
  unfold State.freeBusy
  have hbusy : ¬ TellsBillet (State.busyField kind) := by
    unfold State.busyField
    split <;> decide
  split
  · split
    · exact (Installs.refl s).put hbusy _
    · exact .refl s
  · exact .refl s

theorem installs_setBstream {l : List PlanImage} (s : State) (e : Nat) (x : BStream) : Installs l s (s.setBstream e x) :=
  ⟨fun _ _ => rfl, fun _ _ => rfl, rfl⟩

theorem installs_giveStep {l : List PlanImage} (s : State) (e step : Nat) : Installs l s (s.giveStep e step) := by
  unfold State.giveStep
  split
  · exact .refl s
  · exact installs_setBstream s e _

theorem installs_applyPending {l : List PlanImage} (s : State) (e : Nat) (u : Subst) : Installs l s (s.applyPending e u) := by
  unfold State.applyPending
  split
  · exact installs_setBstream s e _
  · exact .refl s

theorem installs_rebuildStream {l : List PlanImage} (s : State) (e step : Nat) (c : Cursor) : Installs l s (s.rebuildStream e step c) := by
  unfold State.rebuildStream
  split
  · exact .refl s
  · extract_lets b s1 kept sp old x s2 s3
    have h1 : Installs l s s1 := .foldl (fun x _ t => installs_freeBusy t _ x) s
    have h3 : Installs l s s3 :=
      ((h1.trans (installs_setBstream s1 e _)).trans (installs_giveStep s2 e step)).trans (.foldl (fun u _ t => installs_applyPending t e u) _)
    exact h3.trans (installs_setBstream s3 e _)

theorem installs_keepCursors {l : List PlanImage} (s : State) (old : List (Nat × Cursor)) : Installs l s (s.keepCursors old) := by
  unfold State.keepCursors
  split
  · refine .foldl (fun e _ t => ?_) s
    split
    · split
      · exact installs_rebuildStream t e _ _
      · exact .refl t
    · exact .refl t
  · exact .refl s

end Sys2Proof.Machine
end

section
/-!
SUPPORT. Proofs: LOAD_BILLET (R411, R412, R440, R441). -/

namespace Sys2Proof.Machine

/-! ## The fields that a billet sets -/

/-- The fields of the Cadence that a billet sets, with their values (R41). -/
def cadFields (b : Billet) : List (Fld × Nat) :=
  [(Reg.cadPeriodNs, b.cad.period), (Reg.cadGateLead, b.cad.lead), (Reg.cadHoldLimitMs, b.cad.holdLimit),
    (Reg.cadAbortLimit, b.cad.abortLimit), (Reg.cadStrikeCount, b.cad.strike.length), (Reg.cadCtrlCandidate, b2n b.cad.candidate),
    (Reg.cadCtrlExternal, b2n b.cad.external), (Reg.cadCtrlFallback, b2n b.cad.fallback), (Reg.cadCtrlOutEn, b2n b.cad.outEn)]

theorem cadFields_tell (b : Billet) : ∀ p ∈ cadFields b, TellsBillet p.1 := by
  intro p hp
  simp only [cadFields, List.mem_cons, List.not_mem_nil, or_false] at hp
  obtain rfl | rfl | rfl | rfl | rfl | rfl | rfl | rfl | rfl := hp <;> dsimp only <;> decide

theorem get_strikeCount_put (u : State) (c : Cad) (v : Nat) {f : Fld} (hf : f.key ≠ Reg.cadStrikeCount.key) :
    (({ u with cad := c } : State).put Reg.cadStrikeCount v).get f = u.get f := State.get_put_ne _ v hf

theorem get_netState_put (u : State) (i k : List Nat) (v : Nat) {f : Fld} (hf : f.key ≠ Reg.netStatusState.key) :
    (({ u with netStreams := i, blmStreams := k } : State).put Reg.netStatusState v).get f = u.get f := State.get_put_ne _ v hf

/-- The Cadence's settings are those of the billet. -/
theorem putCad_get (s : State) (b : Billet) : ∀ p ∈ cadFields b, (s.putCad b.cad).get p.1 = p.2 % 2 ^ p.1.w := by
  intro p hp
  simp only [cadFields, List.mem_cons, List.not_mem_nil, or_false] at hp
  unfold State.putCad
  obtain rfl | rfl | rfl | rfl | rfl | rfl | rfl | rfl | rfl := hp
  case inr.inr.inr.inr.inl => exact State.get_put_same _ _ _
  all_goals
    dsimp only
    refine (get_strikeCount_put _ _ _ (by decide)).trans ?_
    repeat rw [State.get_put_ne _ _ (by decide)]
    exact State.get_put_same _ _ _

/-- The Cadence's settings change its registers, its Strike table and its COMMIT stroke. -/
theorem putCad_of (s : State) (c : CadSet) : let t := s.putCad c
    t.cad.strike = c.strike ∧ { t with regs := s.regs, cad := s.cad } = s ∧ t.get Reg.cruAmendSeq = s.get Reg.cruAmendSeq := by
  refine ⟨rfl, rfl, ?_⟩
  unfold State.putCad
  refine (get_strikeCount_put _ _ _ (by decide)).trans ?_
  iterate 8 rw [State.get_put_ne _ _ (by decide)]

/-- The network's settings before the ports' modes. -/
def netSet (s : State) (b : Billet) (own : Nat) : State :=
  let f := b.fab
  let ids := (b.streams.filter (fun x => x.dev == own)).map StreamUse.id
  let bl := b.bloom.map BloomStream.stream
  let s1 := (((s.put Reg.netCtrlSeal (b2n f.sealing)).put Reg.netCtrlW2 f.w2).put Reg.netCtrlW3 f.w3).put Reg.netCtrlTokens f.tokens
  let s2 := ((s1.put Reg.netTokensHeld f.tokens).put Reg.netStatusAddr own).put Reg.netStatusAssigned 1
  let s3 := ((s2.put Reg.netStreams ids.length).put Reg.blmStreams bl.length).put Reg.blmEthPort b.bloomPort
  { s3 with netStreams := ids, blmStreams := bl }.put Reg.netStatusState 0

theorem putNet_eq (s : State) (b : Billet) (own : Nat) : s.putNet b own = (netSet s b own).putModes b.fab.ethernet := rfl

/-- NET.STATUS gives the own address, assigned, before discovery. -/
theorem netSet_status (s : State) (b : Billet) (own : Nat) : let t := netSet s b own
    t.get Reg.netStatusAddr = own % 2 ^ Reg.netStatusAddr.w ∧ t.get Reg.netStatusAssigned = 1 ∧ t.get Reg.netStatusState = 0 := by
  unfold netSet
  refine ⟨(get_netState_put _ _ _ _ (by decide)).trans ?_, (get_netState_put _ _ _ _ (by decide)).trans ?_, State.get_put_same _ _ _⟩
  · iterate 4 rw [State.get_put_ne _ _ (by decide)]
    exact State.get_put_same _ _ _
  · iterate 3 rw [State.get_put_ne _ _ (by decide)]
    exact State.get_put_same _ _ _

/-- The network's settings change no other field that tells of the billet. -/
theorem netSet_of (s : State) (b : Billet) (own : Nat) : let t := netSet s b own
    { t with regs := s.regs, netStreams := s.netStreams, blmStreams := s.blmStreams } = s ∧
      ∀ f : Fld, f.key < 0x100000 * 32 → t.get f = s.get f := by
  refine ⟨rfl, fun f hf => ?_⟩
  have hne : ∀ {g : Fld}, 0x100000 * 32 ≤ g.key → f.key ≠ g.key := fun hg => by omega
  unfold netSet
  refine (get_netState_put _ _ _ _ (hne (by decide))).trans ?_
  iterate 10 rw [State.get_put_ne _ _ (hne (by decide))]

/-! ## The state of the old job -/

/-- What a link forgets under another billet. -/
def forgetLink (t : State) (p : Nat) : State :=
  let x := t.port p
  (t.setPort p { x with attNonce := none, attReport := none, peerNonce := none, peerDone := false, saidSeed := false
                        sentSeed := false, myRandom := none, peerRandom := none, txKey := [], rxKey := [], reseal := true }).put (Reg.fabSealState p) 0

theorem forgetLink_of (s : State) (p : Nat) : { forgetLink s p with regs := s.regs, ports := s.ports } = s ∧
    (forgetLink s p).get Reg.cruMeasCount = s.get Reg.cruMeasCount := by
  refine ⟨rfl, State.get_put_ne _ _ ?_⟩
  have hk : (Reg.fabSealState p).key = (0x100000 + 0x1000 * p + 0x240) * 32 + 0 := rfl
  have hm : Reg.cruMeasCount.key = (0x60000 + 0x034) * 32 + 0 := rfl
  omega

theorem forgetLinks_of (s : State) (l : List Nat) : let t := l.foldl forgetLink s
    { t with regs := s.regs, ports := s.ports } = s ∧ t.get Reg.cruMeasCount = s.get Reg.cruMeasCount := by
  induction l generalizing s with
  | nil => exact ⟨rfl, rfl⟩
  | cons p l ih =>
    obtain ⟨hrest, hget⟩ := ih (forgetLink s p)
    obtain ⟨hone, hcount⟩ := forgetLink_of s p
    exact ⟨(congrArg (fun v : State => { v with regs := s.regs, ports := s.ports }) hrest :).trans hone, hget.trans hcount⟩

/-- A device that forgets its links and the old job. -/
def leftJob (u : State) (o b : Billet) : State :=
  { u with
    net := { Net.init with version := u.net.version }, blm := Bloom.init, cru := { u.cru with escrow := none }
    cad := if o.jobId = b.jobId then u.cad else { u.cad with stopped := none } }

theorem leftJob_of (u : State) (o b : Billet) : { leftJob u o b with net := u.net, blm := u.blm, cru := u.cru, cad := u.cad } = u ∧
    (leftJob u o b).cru.meas = u.cru.meas := ⟨rfl, rfl⟩

theorem newBillet_eq (s : State) (b : Billet) : s.newBillet b = match s.billet with
    | some o => if o.jobId = b.jobId ∧ o.digest = b.digest then s else leftJob ((List.range 12).foldl forgetLink s) o b
    | none => s := rfl

/-- What another billet than the one held drops. -/
theorem newBillet_of (s : State) (b : Billet) : let t := s.newBillet b
    { t with regs := s.regs, ports := s.ports, net := s.net, blm := s.blm, cru := s.cru, cad := s.cad } = s ∧
      t.cru.meas = s.cru.meas ∧ t.get Reg.cruMeasCount = s.get Reg.cruMeasCount := by
  intro t
  unfold t
  rw [newBillet_eq]
  obtain ⟨hrest, hget⟩ := forgetLinks_of s (List.range 12)
  generalize (List.range 12).foldl forgetLink s = u at hrest hget
  have hcru : u.cru.meas = s.cru.meas := (congrArg (fun v : State => v.cru.meas) hrest :)
  let kept : State → State := fun v => { v with
    regs := s.regs, ports := s.ports, net := s.net, blm := s.blm, cru := s.cru, cad := s.cad }
  cases s.billet with
  | none => exact ⟨rfl, rfl, rfl⟩
  | some o =>
    dsimp only
    by_cases hsame : o.jobId = b.jobId ∧ o.digest = b.digest
    · rw [if_pos hsame]
      exact ⟨rfl, rfl, rfl⟩
    · rw [if_neg hsame]
      obtain ⟨hleft, hmeas⟩ := leftJob_of u o b
      exact ⟨(congrArg kept hleft :).trans (congrArg kept hrest :), hmeas.trans hcru, hget⟩

/-! ## Amendments -/

/-- What amendments change: the roster, and the records of Crucible. -/
structure Amended (s t : State) : Prop where
  rest : { t with regs := s.regs, faultQ := s.faultQ, billet := s.billet, cru := s.cru } = s
  billet : t.billet.map (fun c => (c.jobId, c.digest)) = s.billet.map (fun c => (c.jobId, c.digest))
  lastJob : t.cru.lastJob = s.cru.lastJob
  regs : SameRegsBut (dropRegs ++ [Reg.cruAmendSeq, Reg.cruMeasCount, Reg.cruLogLost]) s t

theorem Amended.refl (s : State) : Amended s s := ⟨rfl, rfl, rfl, .refl _ s⟩

theorem Amended.trans {r s t : State} (h : Amended r s) (k : Amended s t) : Amended r t where
  rest := (congrArg (fun v : State => { v with regs := r.regs, faultQ := r.faultQ, billet := r.billet, cru := r.cru }) k.rest :).trans h.rest
  billet := k.billet.trans h.billet
  lastJob := k.lastJob.trans h.lastJob
  regs := h.regs.trans k.regs

/-- A fault raised changes no register but those of a dropped one. -/
theorem raise_sameRegsBut (s : State) (src kind cls addr : Nat) : SameRegsBut dropRegs s (s.raise src kind cls addr) :=
  fun _ hf => s.get_raise _ _ _ _ (hf _ (by simp [dropRegs])) (hf _ (by simp [dropRegs]))

theorem amend_amended (s : State) (a : Amendment) : Amended s (s.amend a) := by
  unfold State.amend
  split
  · extract_lets cru s1
    obtain ⟨-, hcru, hregs, hrest⟩ := (s1.put Reg.cruAmendSeq a.seq).measure_of 7 0 0 a.seq a.digest
    generalize (s1.put Reg.cruAmendSeq a.seq).measure 7 0 0 a.seq a.digest = m at hcru hregs hrest
    have h1 : SameRegsBut (dropRegs ++ [Reg.cruAmendSeq, Reg.cruMeasCount, Reg.cruLogLost]) s (s1.put Reg.cruAmendSeq a.seq) :=
      SameRegsBut.put _ _ (.of_regs rfl) (by simp)
    have hb : m.billet = s.billet.map (State.amendBillet a) := (congrArg State.billet hrest :)
    refine ⟨(congrArg (fun v : State => { v with regs := s.regs, faultQ := s.faultQ, billet := s.billet, cru := s.cru }) hrest :), ?_,
      (congrArg Cru.lastJob hcru :), h1.trans (hregs.mono (by simp))⟩
    rw [hb, Option.map_map]
    rfl
  · refine ⟨by rw [s.raise_upd], by rw [s.raise_upd], by rw [s.raise_upd], (raise_sameRegsBut s _ _ _ _).mono ?_⟩
    exact fun g hg => List.mem_append_left _ hg

theorem amends_amended (s : State) (l : List Amendment) : Amended s (l.foldl State.amend s) := by
  induction l generalizing s with
  | nil => exact .refl s
  | cons a l ih => exact (amend_amended s a).trans (ih _)

/-! ## A billet accepted -/

/-- A device that holds the billet `b` under the address `own`, of the device `s`, with the images' bytes beside the signed ones `image`. -/
structure HoldsBillet (s : State) (b : Billet) (own : Nat) (image : List Byte) (t : State) : Prop where
  billet : t.billet = some b
  meas : t.cru.meas = extend s.cru.meas { index := s.get Reg.cruMeasCount, type := 6, kind := 0, slot := 0, version := 0, digest := b.digest }
  lastJob : t.cru.lastJob = some b.jobId
  amendSeq : t.get Reg.cruAmendSeq = 0
  strike : t.cad.strike = b.cad.strike
  cad : ∀ p ∈ cadFields b, t.get p.1 = p.2 % 2 ^ p.1.w
  addr : t.get Reg.netStatusAddr = own % 2 ^ Reg.netStatusAddr.w
  assigned : t.get Reg.netStatusAssigned = 1
  state : t.get Reg.netStatusState = 0
  staged : ∀ i, (hi : i < image.length) → (∀ g ∈ b.images, 3 ≤ g.mem → ¬ Within (b.stagingBase + i) g.addr g.data.length) →
    t.stock.read (b.stagingBase + i) = image[i]
  kept : t.mbx = s.mbx ∧ t.jnl = s.jnl ∧ t.life = s.life

/-- The device that has taken the billet's registers, its Strike table and its own address. -/
def billetSet (s : State) (b : Billet) (own : Nat) (same : Bool) : State :=
  let s1 := (s.newBillet b).measure 6 0 0 0 b.digest
  let s2 := { s1 with billet := some b, cru := { s1.cru with lastJob := some b.jobId, amends := [] } }.put Reg.cruAmendSeq 0
  netSet ((((s2.takeSeed b same).putCad b.cad).putNumctrl b).putTemper b.temper) b own

/-- What a device keeps of the seed under a billet. -/
theorem takeSeed_of (s : State) (b : Billet) (same : Bool) : let t := s.takeSeed b same
    { t with regs := s.regs, seed := s.seed } = s ∧ t.get Reg.cruAmendSeq = s.get Reg.cruAmendSeq :=
  ⟨rfl, (State.get_put_ne _ _ (by decide)).trans rfl⟩

theorem measure_billet_of (s : State) (b : Billet) : let t := (s.newBillet b).measure 6 0 0 0 b.digest
    t.cru.meas = extend s.cru.meas { index := s.get Reg.cruMeasCount, type := 6, kind := 0, slot := 0, version := 0, digest := b.digest } ∧
      t.mbx = s.mbx ∧ t.jnl = s.jnl ∧ t.life = s.life := by
  intro t
  obtain ⟨hrest, hmeas, hcount⟩ := newBillet_of s b
  obtain ⟨hm, -, -, hr⟩ := (s.newBillet b).measure_of 6 0 0 0 b.digest
  rw [hmeas, hcount] at hm
  exact ⟨hm, (congrArg State.mbx hr :).trans (congrArg State.mbx hrest :), (congrArg State.jnl hr :).trans (congrArg State.jnl hrest :),
    (congrArg State.life hr :).trans (congrArg State.life hrest :)⟩

/-- The settings of a billet hold after them. -/
theorem billetSet_of (s : State) (b : Billet) (own : Nat) (same : Bool) : let t := billetSet s b own same
    t.billet = some b ∧
    t.cru.meas = extend s.cru.meas { index := s.get Reg.cruMeasCount, type := 6, kind := 0, slot := 0, version := 0, digest := b.digest } ∧
    t.cru.lastJob = some b.jobId ∧ t.get Reg.cruAmendSeq = 0 ∧ t.cad.strike = b.cad.strike ∧
    (∀ p ∈ cadFields b, t.get p.1 = p.2 % 2 ^ p.1.w) ∧ (t.mbx = s.mbx ∧ t.jnl = s.jnl ∧ t.life = s.life) := by
  intro t
  obtain ⟨hmeas, hmbx, hjnl, hlife⟩ := measure_billet_of s b
  let s2 : State := { (s.newBillet b).measure 6 0 0 0 b.digest with
    billet := some b, cru := { ((s.newBillet b).measure 6 0 0 0 b.digest).cru with lastJob := some b.jobId, amends := [] } }.put Reg.cruAmendSeq 0
  have h2 : s2.billet = some b ∧ s2.cru.meas = ((s.newBillet b).measure 6 0 0 0 b.digest).cru.meas ∧ s2.cru.lastJob = some b.jobId ∧
      s2.get Reg.cruAmendSeq = 0 ∧ s2.mbx = ((s.newBillet b).measure 6 0 0 0 b.digest).mbx ∧
      s2.jnl = ((s.newBillet b).measure 6 0 0 0 b.digest).jnl ∧ s2.life = ((s.newBillet b).measure 6 0 0 0 b.digest).life :=
    ⟨rfl, rfl, rfl, State.get_put_same _ _ _, rfl, rfl, rfl⟩
  have ht : t = netSet ((((s2.takeSeed b same).putCad b.cad).putNumctrl b).putTemper b.temper) b own := rfl
  generalize (s.newBillet b).measure 6 0 0 0 b.digest = m at hmeas hmbx hjnl hlife h2
  obtain ⟨hb, hm, hj, hseq, h2mbx, h2jnl, h2life⟩ := h2
  generalize s2 = v at ht hb hm hj hseq h2mbx h2jnl h2life
  obtain ⟨hseed, hseedSeq⟩ := takeSeed_of v b same
  generalize v.takeSeed b same = u at ht hseed hseedSeq
  obtain ⟨hstrike, hcad, hcadSeq⟩ := putCad_of u b.cad
  have hfields := putCad_get u b
  generalize u.putCad b.cad = w at ht hstrike hcad hcadSeq hfields
  have hset : Installs b.images w ((w.putNumctrl b).putTemper b.temper) := (installs_putNumctrl w b).trans (installs_putTemper _ b.temper)
  generalize (w.putNumctrl b).putTemper b.temper = y at ht hset
  obtain ⟨hnet, hget⟩ := netSet_of y b own
  have hlow : ∀ p ∈ cadFields b, p.1.key < 0x100000 * 32 := fun p hp => by
    simp only [cadFields, List.mem_cons, List.not_mem_nil, or_false] at hp
    obtain rfl | rfl | rfl | rfl | rfl | rfl | rfl | rfl | rfl := hp <;> dsimp only <;> decide
  rw [ht]
  refine ⟨?_, ?_, ?_, ?_, ?_, fun p hp => ?_, ?_, ?_, ?_⟩
  · exact (congrArg State.billet hnet :).trans ((congrArg State.billet hset.rest :).trans ((congrArg State.billet hcad :).trans
      ((congrArg State.billet hseed :).trans hb)))
  · exact (congrArg (fun v : State => v.cru.meas) hnet :).trans ((congrArg (fun v : State => v.cru.meas) hset.rest :).trans
      ((congrArg (fun v : State => v.cru.meas) hcad :).trans ((congrArg (fun v : State => v.cru.meas) hseed :).trans (hm.trans hmeas))))
  · exact (congrArg (fun v : State => v.cru.lastJob) hnet :).trans ((congrArg (fun v : State => v.cru.lastJob) hset.rest :).trans
      ((congrArg (fun v : State => v.cru.lastJob) hcad :).trans ((congrArg (fun v : State => v.cru.lastJob) hseed :).trans hj)))
  · exact (hget _ (by decide)).trans ((hset.get _ (by decide)).trans (hcadSeq.trans (hseedSeq.trans hseq)))
  · exact (congrArg (fun v : State => v.cad.strike) hnet :).trans ((congrArg (fun v : State => v.cad.strike) hset.rest :).trans hstrike)
  · exact (hget _ (hlow p hp)).trans ((hset.get _ (cadFields_tell b p hp)).trans (hfields p hp))
  · exact (congrArg State.mbx hnet :).trans ((congrArg State.mbx hset.rest :).trans ((congrArg State.mbx hcad :).trans
      ((congrArg State.mbx hseed :).trans (h2mbx.trans hmbx))))
  · exact (congrArg State.jnl hnet :).trans ((congrArg State.jnl hset.rest :).trans ((congrArg State.jnl hcad :).trans
      ((congrArg State.jnl hseed :).trans (h2jnl.trans hjnl))))
  · exact (congrArg State.life hnet :).trans ((congrArg State.life hset.rest :).trans ((congrArg State.life hcad :).trans
      ((congrArg State.life hseed :).trans (h2life.trans hlife))))

/-- The ports' modes, the bytes of the billet and of its images, and the cursors of a job that goes on. -/
def billetPlaced (u : State) (b : Billet) (image : List Byte) (same : Bool) (old : List (Nat × Cursor)) : State :=
  let s4 := ((u.putModes b.fab.ethernet).put Reg.rstCtrlRemoteEn (b2n b.remoteEn)).writeStock b.stagingBase image
  let s5 := ((b.images.filter (fun x => x.mem == 3)).foldl State.placeImage s4).putCoreReach b
  if same then s5 else s5.keepCursors old

/-- The bytes of the images and the cursors follow the signed bytes. -/
theorem billetPlaced_of (u : State) (b : Billet) (image : List Byte) (same : Bool) (old : List (Nat × Cursor)) :
    let t := billetPlaced u b image same old
    (∀ f, TellsBillet f → t.get f = u.get f) ∧
      { t with
        regs := u.regs, hearth0 := u.hearth0, hearth1 := u.hearth1, hbm := u.hbm, stock := u.stock, hbmPoison := u.hbmPoison
        stockPoison := u.stockPoison, faultQ := u.faultQ, netStreams := u.netStreams, blmStreams := u.blmStreams, kvp := u.kvp
        blm := u.blm, out := u.out, freeCtr := u.freeCtr } = u ∧
      ∀ i, (hi : i < image.length) → (∀ g ∈ b.images, 3 ≤ g.mem → ¬ Within (b.stagingBase + i) g.addr g.data.length) →
        t.stock.read (b.stagingBase + i) = image[i] := by
  intro t
  let v : State := (u.putModes b.fab.ethernet).put Reg.rstCtrlRemoteEn (b2n b.remoteEn)
  let w : State := { v with stock := v.stock.writeBytes b.stagingBase image }
  have hv : Installs b.images u v := (installs_putModes u b.fab.ethernet).put (by decide) _
  have hw : Installs b.images w (v.writeStock b.stagingBase image) := installs_stockTouched w b.stagingBase image.length
  have hfive := (Installs.foldl (fun g hg s => installs_placeImage s (List.mem_of_mem_filter hg)) (v.writeStock b.stagingBase image)).trans
    (installs_putCoreReach ((b.images.filter (fun x => x.mem == 3)).foldl State.placeImage (v.writeStock b.stagingBase image)) b)
  have ht : Installs b.images w t := by
    refine (hw.trans hfive).trans ?_
    unfold t billetPlaced
    cases same
    · exact installs_keepCursors _ old
    · exact .refl _
  let kept : State → State := fun x => { x with
    regs := u.regs, hearth0 := u.hearth0, hearth1 := u.hearth1, hbm := u.hbm, stock := u.stock, hbmPoison := u.hbmPoison
    stockPoison := u.stockPoison, faultQ := u.faultQ, netStreams := u.netStreams, blmStreams := u.blmStreams, kvp := u.kvp
    blm := u.blm, out := u.out, freeCtr := u.freeCtr }
  have hkept : kept w = kept v := rfl
  exact ⟨fun f hf => (ht.get f hf).trans (hv.get f hf), (congrArg kept ht.rest :).trans (hkept.trans hv.rest),
    fun i hi hclear => (ht.stock _ hclear).trans (v.stock.read_writeBytes image b.stagingBase i hi)⟩

theorem billetSet_status (s : State) (b : Billet) (own : Nat) (same : Bool) : let t := billetSet s b own same
    t.get Reg.netStatusAddr = own % 2 ^ Reg.netStatusAddr.w ∧ t.get Reg.netStatusAssigned = 1 ∧ t.get Reg.netStatusState = 0 :=
  netSet_status _ b own

theorem acceptBillet_holds (s : State) (b : Billet) (own : Nat) (image : List Byte) : ∃ u, HoldsBillet s b own image u ∧
    ∀ amends, s.acceptBillet b own image amends = amends.foldl State.amend u := by
  obtain ⟨same, old, hacc⟩ : ∃ same old, ∀ amends,
      s.acceptBillet b own image amends = amends.foldl State.amend (billetPlaced (billetSet s b own same) b image same old) :=
    ⟨_, _, fun _ => rfl⟩
  refine ⟨_, ?_, hacc⟩
  obtain ⟨hbillet, hmeas, hjob, hseq, hstrike, hcad, hmbx, hjnl, hlife⟩ := billetSet_of s b own same
  obtain ⟨haddr, hassigned, hstate⟩ := billetSet_status s b own same
  generalize billetSet s b own same = u at *
  obtain ⟨hget, hrest, hstock⟩ := billetPlaced_of u b image same old
  generalize billetPlaced u b image same old = t at *
  exact {
    billet := (congrArg State.billet hrest :).trans hbillet
    meas := (congrArg (fun v : State => v.cru.meas) hrest :).trans hmeas
    lastJob := (congrArg (fun v : State => v.cru.lastJob) hrest :).trans hjob
    amendSeq := (hget _ (by decide)).trans hseq
    strike := (congrArg (fun v : State => v.cad.strike) hrest :).trans hstrike
    cad := fun p hp => (hget _ (cadFields_tell b p hp)).trans (hcad p hp)
    addr := (hget _ (by decide)).trans haddr
    assigned := (hget _ (by decide)).trans hassigned
    state := (hget _ (by decide)).trans hstate
    staged := hstock
    kept := ⟨(congrArg State.mbx hrest :).trans hmbx, (congrArg State.jnl hrest :).trans hjnl, (congrArg State.life hrest :).trans hlife⟩ }

end Sys2Proof.Machine
end

section
/-!
SUPPORT. Proofs: what LOAD_BILLET answers (R411, R422, R440, R441). -/

namespace Sys2Proof.Machine

/-! ## The command refused with a fault message -/

/-- The command that runs is refused with the fault raised. -/
theorem State.refuseWith_of {u : State} {n : Nat} {x : Slot} (hr : u.mbx.running = some n) (hx : u.slot? n = some x)
    (src kind cls addr : Nat) : u.refuseWith src kind cls addr =
      (u.raise src kind cls addr).finish x rcRefused (State.msgBytes (u.faultMsg src kind cls addr false)) := by
  have hrun : (u.raise src kind cls addr).mbx.running = some n := by rw [u.raise_upd]; exact hr
  have hslot : (u.raise src kind cls addr).slot? n = some x := by rw [u.raise_upd]; exact hx
  unfold State.refuseWith State.finishRunning
  rw [hrun]
  dsimp only
  rw [hslot]

/-- A command that completes after a fault was raised, of a device `u` that differs from `s` in registers alone. -/
theorem Starts.completes_raised {s u : State} {n op : Nat} {x : Slot} (h : Starts s n op x) {m : Mbx}
    (hm : m.sessions = s.mbx.sessions ∧ m.nextSid = s.mbx.nextSid ∧ m.slots = s.mbx.slots ∧ m.queue = s.mbx.queue)
    (hu : { u with regs := s.regs } = { s with mbx := m }) (src kind cls addr : Nat) {code : Nat} (hcode : code ≠ rcAborted)
    (r : List Byte) :
    let t := (u.raise src kind cls addr).finish x code r
    Finished s t x code r ∧ t.billet = s.billet ∧ SameBytes s t ∧
      (s.waitingFrom src < 16 → t.faultQ = s.faultQ ++ [s.faultMsg src kind cls addr false] ∧
        { t with mbx := s.mbx, jnl := s.jnl, faultQ := s.faultQ } = { s with regs := u.regs }) := by
  intro t
  obtain ⟨hses, hsid, hsl, hqueue⟩ := hm
  have hrest := (u.raise src kind cls addr).finish_rest x r hcode
  have hraise := u.raise_upd src kind cls addr
  have humbx : u.mbx = m := (congrArg State.mbx hu :)
  have hrmbx : (u.raise src kind cls addr).mbx = m := (congrArg State.mbx hraise :).trans humbx
  have hslots : SameSlots s (u.raise src kind cls addr) := by
    refine ⟨?_, ?_, ?_, ?_, (congrArg State.jnl hraise :).trans (congrArg State.jnl hu :)⟩ <;> rw [hrmbx] <;> assumption
  have hmems : t.mems = s.mems := (congrArg State.mems hrest :).trans ((congrArg State.mems hraise :).trans (congrArg State.mems hu :))
  refine ⟨Starts.finished h hslots hcode r, ?_, SameBytes.of_sameMems hmems, fun hroom => ?_⟩
  · exact (congrArg State.billet hrest :).trans ((congrArg State.billet hraise :).trans (congrArg State.billet hu :))
  · have huq : u.faultQ = s.faultQ := (congrArg State.faultQ hu :)
    have hucad : u.cad = s.cad := (congrArg State.cad hu :)
    have huroom : u.waitingFrom src < 16 := by
      unfold State.waitingFrom
      rw [huq]
      exact hroom
    have hr := State.raise_of_room kind cls addr huroom
    have hmsg : u.faultMsg src kind cls addr false = s.faultMsg src kind cls addr false := by
      unfold State.faultMsg
      rw [hucad]
    refine ⟨?_, ?_⟩
    · refine (congrArg State.faultQ hrest :).trans ((congrArg State.faultQ hr :).trans ?_)
      rw [huq, hmsg]
    · let kept : State → State := fun v => { v with mbx := s.mbx, jnl := s.jnl, faultQ := s.faultQ }
      let regs : State → State := fun v => { v with mbx := s.mbx, jnl := s.jnl, faultQ := s.faultQ, regs := u.regs }
      exact (congrArg kept hrest :).trans ((congrArg kept hr :).trans (congrArg regs hu :))

/-- The refusal of a billet, with its fault. -/
theorem Starts.refused_fault {s : State} {n op : Nat} {x : Slot} (h : Starts s n op x) (src kind cls addr : Nat) :
    let r := State.msgBytes (s.faultMsg src kind cls addr false)
    let t := (s.startRunning x).refuseWith src kind cls addr
    Finished s t x rcRefused r ∧ t.billet = s.billet ∧ SameBytes s t ∧
      (s.waitingFrom src < 16 → t.faultQ = s.faultQ ++ [s.faultMsg src kind cls addr false] ∧
        { t with mbx := s.mbx, jnl := s.jnl, faultQ := s.faultQ } = s) := by
  intro r t
  have hslot : (s.startRunning x).slot? x.num = some x := h.slot
  have ht : t = ((s.startRunning x).raise src kind cls addr).finish x rcRefused r := State.refuseWith_of rfl hslot src kind cls addr
  rw [ht]
  have hm : (s.startRunning x).mbx.sessions = s.mbx.sessions ∧ (s.startRunning x).mbx.nextSid = s.mbx.nextSid ∧
      (s.startRunning x).mbx.slots = s.mbx.slots ∧ (s.startRunning x).mbx.queue = s.mbx.queue := ⟨rfl, rfl, rfl, rfl⟩
  have hu : { s.startRunning x with regs := s.regs } = { s with mbx := (s.startRunning x).mbx } := rfl
  exact Starts.completes_raised h hm hu src kind cls addr (by decide) r

/-! ## The branches of LOAD_BILLET -/

theorem execLoadBillet_eq {s : State} {n : Nat} {x : Slot} (h : Starts s n 0x0103 x) (body : Billet) (sigOk : Bool) (amends : List Bool)
    (tables : BilletTables) : exec (.loadBillet n body sigOk amends tables) s =
    let l := signedBillet x.arg
    let b0 := billetOf l body
    let roster := amendmentsOf x.arg amends
    let s1 := s.leaveJob b0.jobId
    if s.flag Reg.cruScrubBusy then .next s
    else if s1.flag Reg.cruScrubBusy then .next s1
    else if !s1.flag Reg.cruStatusScrubOk then .next (s1.finish x rcRefused (List.replicate 16 0))
    else if !billetHeaderOk l || some b0.owner != s1.cru.owner then .next ((s1.startRunning x).refuseWith srcCrucible 0x6E clsU 0)
    else if !sigOk then .next (((s1.count Reg.cruSigFail).raise srcCrucible 0x6E clsU 0).finish x rcSignature [])
    else match readTables b0 tables with
    | none => .next ((s1.startRunning x).refuseWith srcCrucible 0x6E clsU 0)
    | some b => match s1.addressIn b roster with
      | some own =>
        if sectionsOk b own l then .next ((s1.acceptBillet b own (l.take (billetLength l)) roster).finish x rcOk [])
        else .next ((s1.startRunning x).refuseWith srcCrucible 0x6E clsU 0)
      | none => .next ((s1.startRunning x).refuseWith srcCrucible 0x6E clsU 0) := by
  show execLoadBillet n body sigOk amends s tables = _
  unfold execLoadBillet
  refine Starts.exec h _

/-- The checks of a billet of no other job. -/
def checkBillet (s : State) (x : Slot) (body : Billet) (sigOk : Bool) (amends : List Bool) (tables : BilletTables) :
    Host.Outcome State Fault Refusal :=
  let l := signedBillet x.arg
  if !billetHeaderOk l || some (billetOf l body).owner != s.cru.owner then .next ((s.startRunning x).refuseWith srcCrucible 0x6E clsU 0)
  else if !sigOk then .next (((s.count Reg.cruSigFail).raise srcCrucible 0x6E clsU 0).finish x rcSignature [])
  else match readTables (billetOf l body) tables with
  | none => .next ((s.startRunning x).refuseWith srcCrucible 0x6E clsU 0)
  | some b => match s.addressIn b (amendmentsOf x.arg amends) with
    | some own =>
      if sectionsOk b own l then .next ((s.acceptBillet b own (l.take (billetLength l)) (amendmentsOf x.arg amends)).finish x rcOk [])
      else .next ((s.startRunning x).refuseWith srcCrucible 0x6E clsU 0)
    | none => .next ((s.startRunning x).refuseWith srcCrucible 0x6E clsU 0)

/-- A billet of no other job is checked while SCRUB_OK is 1. -/
theorem execLoadBillet_checks {s : State} {n : Nat} {x : Slot} (h : Starts s n 0x0103 x) {body : Billet} (sigOk : Bool)
    (amends : List Bool) (tables : BilletTables) (hbusy : s.get Reg.cruScrubBusy = 0)
    (hjob : s.jobDiffers (billetOf (signedBillet x.arg) body).jobId = false) (hok : s.get Reg.cruStatusScrubOk = 1) :
    exec (.loadBillet n body sigOk amends tables) s = checkBillet s x body sigOk amends tables := by
  have hs1 : s.leaveJob (billetOf (signedBillet x.arg) body).jobId = s := by
    unfold State.leaveJob
    rw [hjob]
    rfl
  rw [execLoadBillet_eq h body sigOk amends tables]
  dsimp only
  rw [hs1, State.flag_of_zero hbusy, State.flag_of_one hok]
  rfl

/-- The header and the owner of a billet pass. -/
theorem checkBillet_header {s : State} {x : Slot} {body : Billet}
    (hh : billetHeaderOk (signedBillet x.arg) = true) (ho : s.cru.owner = some (billetOf (signedBillet x.arg) body).owner) :
    ¬ (!billetHeaderOk (signedBillet x.arg) || some (billetOf (signedBillet x.arg) body).owner != s.cru.owner) = true := by
  simp [hh, ho]

/-! ## The billet that is accepted -/

/-- The signed bytes of a billet whose header passes are as long as its length says. -/
theorem length_signed {l : List Byte} (h : billetHeaderOk l = true) : (l.take (billetLength l)).length = billetLength l := by
  have hlen : l.length = billetLength l + 384 + 7856 := by
    unfold billetHeaderOk at h
    simp only [Bool.and_eq_true, beq_iff_eq] at h
    obtain ⟨⟨⟨⟨⟨⟨⟨-, h⟩, -⟩, -⟩, -⟩, -⟩, -⟩, -⟩ := h
    exact h
  rw [List.length_take, hlen]
  omega

/-- What holds of a billet accepted when its command has completed. -/
theorem accepted_completes {s : State} {n : Nat} {x : Slot} (h : Starts s n 0x0103 x) (b : Billet) (own : Nat) (image : List Byte)
    (amends : List Amendment) :
    let t := (s.acceptBillet b own image amends).finish x rcOk []
    Finished s t x 0 [] ∧ t.billet.map (fun c => (c.jobId, c.digest)) = some (b.jobId, b.digest) ∧
      t.get Reg.netStatusAddr = own % 2 ^ Reg.netStatusAddr.w ∧ t.get Reg.netStatusAssigned = 1 ∧
      t.get Reg.netStatusState = 0 ∧ t.cad.strike = b.cad.strike ∧ t.cru.lastJob = some b.jobId ∧ t.life = s.life ∧
      (∀ p ∈ cadFields b, t.get p.1 = p.2 % 2 ^ p.1.w) ∧
      (amends = [] → t.billet = some b ∧ t.get Reg.cruAmendSeq = 0 ∧
        t.cru.meas = extend s.cru.meas { index := s.get Reg.cruMeasCount, type := 6, kind := 0, slot := 0, version := 0, digest := b.digest }) ∧
      ∀ i, (hi : i < image.length) → (∀ g ∈ b.images, 3 ≤ g.mem → ¬ Within (b.stagingBase + i) g.addr g.data.length) →
        t.stock.read (b.stagingBase + i) = image[i] := by
  intro t
  obtain ⟨u, hu, hacc⟩ := acceptBillet_holds s b own image
  have ht : t = (amends.foldl State.amend u).finish x rcOk [] := congrArg (fun v : State => v.finish x rcOk []) (hacc amends)
  have ha := amends_amended u amends
  have hnil : amends = [] → amends.foldl State.amend u = u := fun e => by rw [e]; rfl
  generalize amends.foldl State.amend u = v at ht ha hnil
  obtain ⟨hrest, hbillet, hjob, hregs⟩ := ha
  have hcode : rcOk ≠ rcAborted := by decide
  have hkeep := v.finish_rest x [] hcode
  rw [← ht] at hkeep
  obtain ⟨humbx, hujnl, hulife⟩ := hu.kept
  have hvmbx : v.mbx = s.mbx := (congrArg State.mbx hrest :).trans humbx
  have hslots : SameSlots s v := by
    refine ⟨?_, ?_, ?_, ?_, (congrArg State.jnl hrest :).trans hujnl⟩ <;> rw [hvmbx]
  have hget : ∀ f : Fld, (∀ g ∈ dropRegs ++ [Reg.cruAmendSeq, Reg.cruMeasCount, Reg.cruLogLost], f.key ≠ g.key) → t.get f = u.get f :=
    fun f hf => (State.get_of_regs (congrArg State.regs hkeep :) f).trans (hregs f hf)
  have hcadf : ∀ p ∈ cadFields b, ∀ g ∈ dropRegs ++ [Reg.cruAmendSeq, Reg.cruMeasCount, Reg.cruLogLost], p.1.key ≠ g.key := fun p hp => by
    simp only [cadFields, List.mem_cons, List.not_mem_nil, or_false] at hp
    obtain rfl | rfl | rfl | rfl | rfl | rfl | rfl | rfl | rfl := hp <;> dsimp only <;> decide
  refine ⟨ht ▸ Starts.finished h hslots hcode [], ?_, (hget _ (by decide)).trans hu.addr, (hget _ (by decide)).trans hu.assigned,
    (hget _ (by decide)).trans hu.state, ?_, ?_, ?_, fun p hp => (hget _ (hcadf p hp)).trans (hu.cad p hp), fun hn => ?_, fun i hi hclear => ?_⟩
  · have htb : t.billet = v.billet := (congrArg State.billet hkeep :)
    rw [htb, hbillet, hu.billet]
    rfl
  · exact (congrArg (fun w : State => w.cad.strike) hkeep :).trans ((congrArg (fun w : State => w.cad.strike) hrest :).trans hu.strike)
  · exact (congrArg (fun w : State => w.cru.lastJob) hkeep :).trans (hjob.trans hu.lastJob)
  · exact (congrArg State.life hkeep :).trans ((congrArg State.life hrest :).trans hulife)
  · have hv := hnil hn
    rw [hv] at hkeep
    exact ⟨(congrArg State.billet hkeep :).trans hu.billet, (State.get_of_regs (congrArg State.regs hkeep :) _).trans hu.amendSeq,
      (congrArg (fun w : State => w.cru.meas) hkeep :).trans hu.meas⟩
  · have hstock : t.stock = u.stock := (congrArg State.stock hkeep :).trans (congrArg State.stock hrest :)
    rw [hstock]
    exact hu.staged i hi hclear

/-- A billet of another job leaves the seed and starts the scrub. -/
theorem leaveJob_scrubs {s : State} {job : Nat} (hd : s.jobDiffers job = true) (hl : s.cru.lastJob.isSome = true) :
    let t := s.leaveJob job
    t.mbx = s.mbx ∧ t.seed = none ∧ t.cru.wrapped = none ∧ t.get Reg.cruScrubBusy = 1 ∧ t.get Reg.cruStatusScrubOk = 0 ∧
      t.billet = s.billet ∧ SameBytes s t := by
  intro t
  have ht : t = s.dropSeed.startScrub 3 := by
    unfold t State.leaveJob
    rw [hd, hl]
    rfl
  obtain ⟨hbusy, hok, hrest, hcru, -⟩ := startScrub_of s.dropSeed 3
  rw [ht]
  refine ⟨rfl, rfl, rfl, hbusy, hok, rfl, SameBytes.of_sameMems rfl⟩

/-! ## The obligation -/

/-- Settles O12: the branches of `checkBillet`, and `accepted_completes` for the billet that passes. -/
theorem loadBilletTakesEffect : Obligations.LoadBilletTakesEffect := by
  intro s n x body tables sigOk amends h hbusy
  dsimp only
  refine ⟨fun hjob hok => ?_, fun hjob hlast => ?_, fun hjob hok => ?_⟩
  · have he := execLoadBillet_checks h sigOk amends tables hbusy hjob hok
    have href := Starts.refused_fault h srcCrucible 0x6E clsU 0
    refine ⟨fun hheader howner => ?_, fun hbad => ?_⟩
    · have he := he.trans (if_neg (checkBillet_header hheader howner))
      refine ⟨fun hsig b hb => ?_, fun hsig hb => ?_, fun hsig => ?_⟩
      · rw [hsig, hb] at he
        rw [hsig]
        dsimp only [Bool.not_true] at he
        refine ⟨fun own hown hsec => ?_, fun own hown hsec => ?_, fun hown => ?_⟩
        · rw [hown] at he
          dsimp only at he
          rw [hsec] at he
          obtain ⟨hfin, hbillet, haddr, hassigned, hstate, hstrike, hjob, hlife, hcad, hnone, hstaged⟩ :=
            accepted_completes h b own ((signedBillet x.arg).take (billetLength (signedBillet x.arg))) (amendmentsOf x.arg amends)
          refine ⟨_, he, hfin, hbillet, haddr, hassigned, hstate, hstrike, hjob, hlife, hcad, fun h0 => hnone ?_, fun i hi hclear => ?_⟩
          · unfold amendmentsOf
            rw [h0]
            rfl
          · have hlen := length_signed hheader
            have hi' : i < ((signedBillet x.arg).take (billetLength (signedBillet x.arg))).length := Nat.lt_of_lt_of_eq hi hlen.symm
            refine (hstaged i hi' hclear).trans (List.getElem_take.trans ?_)
            rw [List.getD_eq_getElem?_getD, List.getElem?_eq_getElem, Option.getD_some]
        · rw [hown] at he
          dsimp only at he
          rw [hsec] at he
          exact ⟨_, he, href⟩
        · rw [hown] at he
          exact ⟨_, he, href⟩
      · rw [hsig, hb] at he
        rw [hsig]
        exact ⟨_, he, href⟩
      · rw [hsig] at he ⊢
        have hu : { s.count Reg.cruSigFail with regs := s.regs } = { s with mbx := s.mbx } := rfl
        exact ⟨_, he, Starts.completes_raised h ⟨rfl, rfl, rfl, rfl⟩ hu srcCrucible 0x6E clsU 0 (by decide) []⟩
    · refine ⟨_, he.trans (if_pos ?_), href⟩
      rcases hbad with hbad | hbad
      · simp [hbad]
      · simp [Ne.symm hbad]
  · have hs := leaveJob_scrubs hjob hlast
    refine ⟨_, ?_, hs⟩
    rw [execLoadBillet_eq h body sigOk amends tables]
    dsimp only
    rw [State.flag_of_zero hbusy, State.flag_of_one hs.2.2.2.1]
    rfl
  · obtain ⟨hfin, hrest⟩ := Starts.completes h (code := rcRefused) (by decide) (List.replicate 16 0#8)
    refine ⟨_, ?_, hfin, hrest⟩
    have hs1 : s.leaveJob (billetOf (signedBillet x.arg) body).jobId = s := by
      unfold State.leaveJob
      rw [hjob]
      rfl
    rw [execLoadBillet_eq h body sigOk amends tables]
    dsimp only
    rw [hs1, State.flag_of_zero hbusy, State.flag_of_zero hok]
    rfl

end Sys2Proof.Machine
end

section
/-!
SUPPORT. Proofs: the update of the weights (R274), refuted for a push that reads its own image. -/

namespace Sys2Proof.Machine

/-- The group of `Tests.tplan`, frozen whole. -/
def frozenGroup : TmpGroup := { Tests.tgroup with flags := 16 }

/-- A push whose row is read from beyond the weights of its group: from the place of its own image. -/
def ownImagePush : Push := { Tests.tpush with first := 128 }

/-- A plan of one group, frozen whole, with that push. -/
def ownImagePlan : TemperPlan := { Tests.tplan [ownImagePush] with groups := [frozenGroup] }

/-- Temper in step 3 with its range due; −1 lies where the image goes. -/
def ownImageState : State :=
  { Tests.tmpState Tests.tmpReady [] with
    billet := some { Tests.bil with temper := ownImagePlan }
    stock := Memory.empty.writeBytes 0x300 (leBytes 4 0xBF800000) }

/-- The update writes −1 as BF16 over the low half of the value that the image is made of, whose rounding that changes. -/
def imageStale (o : Host.Outcome State Fault Refusal) : Bool :=
  match o with
  | .next t => !t.tmp.failed && t.stock.readBytes 0x300 2 == [0x80#8, 0xBF#8] && (rowImage t frozenGroup ownImagePush 0).1 == [0x81#8, 0xBF#8]
  | _ => false

theorem ownImage_stale : imageStale (exec (.updateRangeDone 0 []) ownImageState) = true := by decide +kernel

/-- Refutes O37: a push whose row is read from beyond its group's weights, here from the place of its own image, which the plan's
ranges, that lie apart, do not exclude. The image that the update writes is not the one that those bytes then give. -/
theorem not_temperUpdatesWeights : ¬ Obligations.TemperUpdatesWeights := by
  intro h
  obtain ⟨-, -, -, hrun, -, -⟩ := h ownImageState ownImagePlan rfl (by decide)
  obtain ⟨t, he, -, -, -, -, hcontent⟩ := hrun 0 3 [] rfl rfl rfl (.inl rfl)
  obtain ⟨-, himages⟩ := hcontent (by decide) (by decide) (by decide)
  have hstale := ownImage_stale
  rw [he] at hstale
  simp only [imageStale, Bool.and_eq_true, Bool.not_eq_true', beq_iff_eq] at hstale
  obtain ⟨⟨hdone, hbytes⟩, himage⟩ := hstale
  obtain ⟨-, -, hrows, -⟩ := himages hdone
  obtain ⟨hrow, -⟩ := hrows frozenGroup (by decide) ownImagePush (by decide) rfl 0 (by decide)
  rw [himage] at hrow
  exact absurd (hbytes.symm.trans hrow) (by decide)

end Sys2Proof.Machine
end

section
/-!
SUPPORT. Proofs: packets in transit (R319), refuted for one whose tag fails while the device's own hold takes an alternate route. -/

namespace Sys2Proof.Machine

/-- A packet in transit to address 6, sealed. -/
def sealedTransit : RxPacket := { Tests.transit 3 with packet := { (Tests.transit 3).packet with sealed := true } }

/-- A follower in a step whose next gate it may hold: its sealed port 2 is the first choice to address 6, and the alternate to its
master 9, whose first choice, port 3, is down. -/
def altState : State :=
  { ((Tests.fab 2 { Tests.busy with shared := sharedCredits, transit := [sealedTransit] }).put Reg.netCtrlSeal 1).put (Reg.fabSealState 2) 2 with
    net := { Net.init with routes := [(6, 2 + 2 ^ 12), (9, 3 + 2 * 2 ^ 4 + 2 ^ 12 + 2 ^ 13)] }
    cad := { Cad.init with active := true, role := .follower, master := 9, strike := Tests.bil.cad.strike } }

/-- The device has counted no alternate route before, and one afterwards: that of its HOLD message. -/
def countsAlternate (o : Host.Outcome State Fault Refusal) : Bool :=
  match o with
  | .next t => t.get Reg.netAltroute == 1
  | _ => false

theorem altState_counts : countsAlternate (exec (.packetForward 2 false) altState) = true := by decide +kernel

theorem altState_goes : ¬ (altState.canGo 2 { sealedTransit.packet with hops := 4, inverted := true } = false ∨
    ∃ k ∈ (altState.port 2).ready, k.vc = sealedTransit.packet.vc ∧ k.type ≠ 1) := by
  have hready : (altState.port 2).ready = [] := by decide
  have hgo : altState.canGo 2 { sealedTransit.packet with hops := 4, inverted := true } = true := by decide +kernel
  rw [hready, hgo]
  simp

/-- Refutes O41: a packet in transit whose tag fails leaves by its first choice of port, and the hold that the device then raises goes
to its master by an alternate: NET.ALTROUTE counts one, which the statement gives to the packet's route alone. -/
theorem not_creditsAndTransit : ¬ Obligations.CreditsAndTransit := by
  intro h
  obtain ⟨-, -, -, -, hforward, -⟩ := h altState 2 (by decide) (by decide)
  obtain ⟨-, -, hroute⟩ := hforward sealedTransit [] false (by decide) (by decide)
  obtain ⟨-, hgoes⟩ := hroute 2 false (by decide) (by decide) (by decide)
  obtain ⟨t, he, -, -, -, halt, -⟩ := hgoes altState_goes
  have hcount := altState_counts
  rw [he] at hcount
  have hone : t.get Reg.netAltroute = 1 := beq_iff_eq.mp hcount
  have hzero : altState.get Reg.netAltroute = 0 := by decide
  rw [hone, if_neg (by decide), hzero] at halt
  exact absurd halt (by decide)

end Sys2Proof.Machine
end

section
/-!
SUPPORT. Proofs: samples that land (R341, R345), refuted for one that has been asked for again. -/

namespace Sys2Proof.Machine

/-- A sample asked for again once, of which nothing has landed. -/
def askedAgain : Sample := { Tests.smp 1 true [] none with tries := 1 }

/-- The Ethernet stream of the tests with that sample. -/
def askedState : State := Tests.feeding true (Tests.bs [askedAgain] (Tests.fill1 none) (Tests.spare0 false false))

/-- Every sample of the stream has still been asked for again once. -/
def triesStand (o : Host.Outcome State Fault Refusal) : Bool :=
  match o with
  | .next t => (t.bstream 0).samples.all (fun y => y.tries == 1)
  | _ => false

theorem askedState_tries : triesStand (exec (.data (Tests.bfrm 1 0) (leBytes 8 0) { supported := false, width := 0, height := 0, frames := 0 })
    askedState) = true := by decide +kernel

/-- Refutes O47: bytes that land leave a sample's count of requests (R345) as it was, where the statement has it at 0. -/
theorem not_samplesLand : ¬ Obligations.SamplesLand := by
  intro h
  obtain ⟨hdata, -⟩ := h askedState (by decide)
  obtain ⟨-, hentry⟩ := hdata (Tests.bfrm 1 0) (leBytes 8 0) { supported := false, width := 0, height := 0, frames := 0 }
  obtain ⟨-, -, hsample⟩ := hentry 0 (Tests.bst true) (by decide)
  obtain ⟨-, hnext⟩ := hsample askedAgain (by decide) (by decide) (by decide)
  obtain ⟨-, hlands⟩ := hnext (by decide) (by decide)
  obtain ⟨t, he, ⟨y, hy, heq⟩, -⟩ := hlands (.inr (by decide))
  have htries := askedState_tries
  rw [he] at htries
  have hone : y.tries = 1 := beq_iff_eq.mp (List.all_eq_true.mp htries y hy)
  have hzero : y.tries = 0 := congrArg Sample.tries heq
  rw [hone] at hzero
  exact absurd hzero (by decide)

end Sys2Proof.Machine
end

section
/-!
SUPPORT. Proofs: a bucket that launches (R330), refuted where the register of tokens holds more than its field. -/

namespace Sys2Proof.Machine

/-- Device 5 of the tests with a filled bucket, whose count of tokens is wider than its field. -/
def wideTokens : State :=
  { Tests.reducing 1 BucketRun.init [] with regs := (Reg.netTokensHeld.key, 2 ^ 40) :: (Tests.reducing 1 BucketRun.init []).regs }

/-- The count of tokens held fits its field. -/
def tokensFit (o : Host.Outcome State Fault Refusal) : Bool :=
  match o with
  | .next t => decide (t.get Reg.netTokensHeld < 32)
  | _ => false

theorem wideTokens_launch : tokensFit (exec (.bucketFilled 0 []) wideTokens) = true := by decide +kernel

theorem wideTokens_ready : wideTokens.alive = true ∧ bucketAt wideTokens 0 = some (Tests.buck 0) ∧ bucketFilled wideTokens 0 = true ∧
    wideTokens.get Reg.netTokensHeld = 2 ^ 40 ∧ (bucketRun wideTokens 0).launched = false ∧ (bucketRun wideTokens 0).complete = false := by
  decide

/-- Refutes O45: a register of a state is a number of any size, and a launch writes the count of tokens back to a field of 5 bits,
where the statement has it one lower whatever it was. -/
theorem not_bucketsReduce : ¬ Obligations.BucketsReduce := by
  intro h
  obtain ⟨halive, hat, hfilled, hheld, hlaunched, hcomplete⟩ := wideTokens_ready
  obtain ⟨-, hfills, -⟩ := h wideTokens 0 (Tests.buck 0) halive hat
  obtain ⟨-, hlaunch⟩ := hfills [] hfilled (.inl rfl) hlaunched hcomplete
  obtain ⟨t, he, -, -, htokens, -⟩ := hlaunch (by rw [hheld]; decide)
  have hfit := wideTokens_launch
  rw [he] at hfit
  have hlt : t.get Reg.netTokensHeld < 32 := of_decide_eq_true hfit
  rw [htokens, hheld] at hlt
  exact absurd hlt (by decide)

end Sys2Proof.Machine
end

section
/-!
SUPPORT. Proofs: the load of an ingot of which no copy stands (R384), refuted where a bay's error count holds more than its field. -/

namespace Sys2Proof.Machine

/-- The follower of the tests that loads step 3, of which no bay holds a copy, with a count of bay 0 that is wider than its field. -/
def wideCount : State :=
  { Tests.restoring .follower (Tests.rrun [] (some 3)) [] with
    regs := ((Reg.ingBayTagFail 0).key, 2 ^ 40) :: (Tests.restoring .follower (Tests.rrun [] (some 3)) []).regs }

/-- The count is as wide as before. -/
def countStands (o : Host.Outcome State Fault Refusal) : Bool :=
  match o with
  | .next t => decide (t.get (Reg.ingBayTagFail 0) = 2 ^ 40)
  | _ => false

theorem wideCount_load : countStands (exec (.ingotLoadComplete [] []) wideCount) = true := by decide +kernel

theorem wideCount_ready : wideCount.ing.restore = some (Tests.rrun [] (some 3)) ∧ wideCount.cadUp = true ∧ wideCount.ing.cur = none ∧
    wideCount.seed.isSome = true ∧ wideCount.copies 3 = [] ∧ wideCount.get (Reg.ingBayTagFail 0) = 2 ^ 40 := by decide

/-- Refutes O50: a register of a state is a number of any size, and where no copy of a step is tried the model leaves the counts of
the bays as they stand, where the statement has them at most the largest of their fields. -/
theorem not_ingotIsRestored : ¬ Obligations.IngotIsRestored := by
  intro h
  obtain ⟨hrestore, hup, hcur, hseed, hcopies, hwide⟩ := wideCount_ready
  obtain ⟨-, hruns⟩ := h wideCount
  obtain ⟨-, -, -, hload⟩ := hruns _ hrestore
  obtain ⟨hnone, -⟩ := hload _ 3 [] [] hup rfl rfl rfl hcur hseed
  obtain ⟨t, he, ⟨hcounts, -⟩, -⟩ := hnone (by rw [hcopies]; rfl)
  have hstands := wideCount_load
  rw [he] at hstands
  have hkept : t.get (Reg.ingBayTagFail 0) = 2 ^ 40 := of_decide_eq_true hstands
  have hbound := (hcounts 0 (by decide)).1
  rw [hkept] at hbound
  exact absurd (hbound.le.trans (Nat.min_le_right _ _)) (by decide)

end Sys2Proof.Machine
end

section
/-!
SUPPORT. Proofs: a failure of the random source (R424), refuted where more messages of Crucible wait than its queue takes. -/

namespace Sys2Proof.Machine

/-- A device at which 32 messages of Crucible wait, twice what R457 lets a source have. -/
def crowded : State := { Tests.up with faultQ := List.replicate 32 (Tests.msg srcCrucible 0x6C clsC) }

/-- The device has not entered Quench. -/
def notQuenched (o : Host.Outcome State Fault Refusal) : Bool :=
  match o with
  | .next t => decide (t.life ≠ .quench)
  | _ => false

theorem crowded_fails : notQuenched (exec .entropyFail crowded) = true := by decide +kernel

/-- Refutes O51: the model accepts 16 messages of Crucible before it raises the failure. Where 16 more wait, the failure is dropped
(R457), and the device does not enter Quench. -/
theorem not_memoriesAreScrubbed : ¬ Obligations.MemoriesAreScrubbed := by
  intro h
  obtain ⟨-, -, -, -, -, hfails⟩ := h crowded
  obtain ⟨t, he, -, hquench, -⟩ := hfails (by decide) (by decide)
  have hnot := crowded_fails
  rw [he] at hnot
  exact of_decide_eq_true hnot hquench

end Sys2Proof.Machine
end

section
/-!
SUPPORT. Proofs: a fatal message that is accepted (R463, R464), refuted where LEGACY_EN holds more than its field. -/

namespace Sys2Proof.Machine

/-- A message of class F of the Cadence. -/
abbrev fatalMsg : FaultMsg := Tests.msg 0x260 0x57 clsF

/-- A device at which it waits, with a LEGACY_EN wider than its field. -/
def wideLegacy : State := { Tests.waiting [] [fatalMsg] with regs := [(Reg.fltLegacyEn.key, 2)] }

/-- The output of the legacy pairs fits its field. -/
def legacyFits (o : Host.Outcome State Fault Refusal) : Bool :=
  match o with
  | .next t => decide (t.get Reg.fltLegacyOut < 2)
  | _ => false

theorem wideLegacy_quenches : legacyFits (exec (.faultMessageAccept [0x260]) wideLegacy) = true := by decide +kernel

theorem wideLegacy_ready : wideLegacy.domUp 2 = true ∧ wideLegacy.nextMsg [0x260] = some fatalMsg ∧ wideLegacy.life ≠ .quench ∧
    wideLegacy.get Reg.fltLegacyEn = 2 := by decide

/-- Refutes O52: a register of a state is a number of any size, and the entry to Quench writes LEGACY_EN to LEGACY_OUT, a field of one
bit, where the statement has the two equal whatever LEGACY_EN was. -/
theorem not_faultsAreCollected : ¬ Obligations.FaultsAreCollected := by
  intro h
  obtain ⟨hup, hnext, hlife, hen⟩ := wideLegacy_ready
  obtain ⟨-, haccept, -⟩ := h wideLegacy [0x260]
  obtain ⟨-, u, -, -, -, -, -, -, -, hfatal⟩ := haccept fatalMsg hup hnext (by decide)
  obtain ⟨v, -, -, hexec, -, -, -, -, -, -, hquench⟩ := hfatal (.inl rfl)
  obtain ⟨-, -, -, -, -, -, -, -, -, -, -, -, -, hout, -⟩ := hquench hlife
  have hfits := wideLegacy_quenches
  rw [hexec (by decide) (by decide)] at hfits
  have hlt : v.get Reg.fltLegacyOut < 2 := of_decide_eq_true hfits
  rw [hout, hen] at hlt
  exact absurd hlt (by decide)

end Sys2Proof.Machine
end

section
/-!
SUPPORT. Proofs: what the ingot unit's operations on a bay change (R376 to R378). -/

namespace Sys2Proof.Machine

namespace OnlyIngots

variable {l m : List Fld} {r s t : State}

theorem refl (l : List Fld) (s : State) : OnlyIngots l s s := ⟨.refl _ s, rfl⟩

theorem trans (h : OnlyIngots l r s) (k : OnlyIngots l s t) : OnlyIngots l r t := by
  obtain ⟨hregs, hrest⟩ := h
  obtain ⟨kregs, krest⟩ := k
  let kept : State → State := fun v => { v with regs := r.regs, ing := r.ing, faultQ := r.faultQ, out := r.out }
  exact ⟨hregs.trans kregs, (congrArg kept krest :).trans hrest⟩

theorem mono (h : OnlyIngots l s t) (hs : l ⊆ m) : OnlyIngots m s t :=
  ⟨h.1.mono (List.append_subset.mpr ⟨List.subset_append_left _ _, List.Subset.trans hs (List.subset_append_right _ _)⟩), h.2⟩

theorem put (h : OnlyIngots l s t) {f : Fld} (hf : f ∈ dropRegs ++ l) (v : Nat) : OnlyIngots l s (t.put f v) :=
  ⟨h.1.put f v hf, h.2⟩

theorem put64 (h : OnlyIngots l s t) {lo hi : Fld} (hl : lo ∈ dropRegs ++ l) (hh : hi ∈ dropRegs ++ l) (v : Nat) :
    OnlyIngots l s (t.put64 lo hi v) :=
  (h.put hl _).put hh _

theorem count (h : OnlyIngots l s t) {f : Fld} (hf : f ∈ dropRegs ++ l) (k : Nat) : OnlyIngots l s (t.count f k) := h.put hf _

theorem emit (h : OnlyIngots l s t) (o : Out) : OnlyIngots l s (t.emit o) := ⟨h.1, h.2⟩

theorem setCur (h : OnlyIngots l s t) (g : Option GenRun) : OnlyIngots l s (t.setCur g) := ⟨h.1, h.2⟩

theorem setCart (h : OnlyIngots l s t) {b : Nat} (hf : Reg.ingBayZonesFree b ∈ dropRegs ++ l) (c : Cart) :
    OnlyIngots l s (t.setCart b c) :=
  ⟨h.1.put _ _ hf, h.2⟩

theorem raise (h : OnlyIngots l s t) (src kind cls addr : Nat) : OnlyIngots l s (t.raise src kind cls addr) := by
  refine h.trans ⟨?_, ?_⟩
  · unfold State.raise State.raiseMsg
    split
    · exact ((SameRegsBut.refl _ t).count _ _ (by simp [dropRegs])).put _ _ (by simp [dropRegs])
    · exact .of_regs rfl
  · rw [State.raise_upd]

end OnlyIngots

namespace State

variable {b : Nat}

theorem get64_put64 (s : State) {lo hi : Fld} (hl : lo.w = 32) (hh : hi.w = 32) (hk : lo.key ≠ hi.key) (v : Nat) :
    (s.put64 lo hi v).get64 lo hi = v % 2 ^ 64 := by
  unfold get64 put64
  rw [get_put_ne _ _ hk, get_put_same, get_put_same, hl, hh]
  omega

theorem get64_put_ne (s : State) {lo hi f : Fld} (hl : lo.key ≠ f.key) (hh : hi.key ≠ f.key) (v : Nat) :
    (s.put f v).get64 lo hi = s.get64 lo hi := by
  unfold get64
  rw [get_put_ne _ _ hl, get_put_ne _ _ hh]

theorem get_put64_ne (s : State) {lo hi f : Fld} (hl : f.key ≠ lo.key) (hh : f.key ≠ hi.key) (v : Nat) :
    (s.put64 lo hi v).get f = s.get f :=
  (get_put_ne _ _ hh).trans (get_put_ne _ _ hl)

theorem get64_of_sameRegsBut {l : List Fld} {s t : State} (h : SameRegsBut l s t) {lo hi : Fld} (hl : ∀ g ∈ l, lo.key ≠ g.key)
    (hh : ∀ g ∈ l, hi.key ≠ g.key) : t.get64 lo hi = s.get64 lo hi := by
  unfold get64
  rw [h _ hl, h _ hh]

theorem ingFault_ing (s : State) (kind b gen : Nat) : (s.ingFault kind b gen).ing = s.ing := by
  unfold ingFault; rw [raise_upd]

theorem ingFault_out (s : State) (kind b gen : Nat) : (s.ingFault kind b gen).out = s.out := by
  unfold ingFault; rw [raise_upd]

theorem get_ingFault (s : State) (kind b gen : Nat) {f : Fld} (hd : ∀ g ∈ dropRegs, f.key ≠ g.key) :
    (s.ingFault kind b gen).get f = s.get f :=
  get_raise s _ _ _ _ (hd _ (by simp [dropRegs])) (hd _ (by simp [dropRegs]))

/-- The registers that BAY.WRITTEN brings with it. -/
abbrev writtenRegs (b : Nat) : List Fld := [Reg.ingBayWrittenLo b, Reg.ingBayWrittenHi b, Reg.ingBayStateLifeLow b]

/-- BAY.WRITTEN `w` is above 95 % of RATED. -/
abbrev wearsOut (s : State) (b w : Nat) : Prop := 95 * s.get64 (Reg.ingBayRatedLo b) (Reg.ingBayRatedHi b) < 100 * w

theorem setWritten_eq (s : State) (b w : Nat) : s.setWritten b w =
    if s.wearsOut b w ∧ s.flag (Reg.ingBayStateLifeLow b) = false then
      ((s.put64 (Reg.ingBayWrittenLo b) (Reg.ingBayWrittenHi b) w).put (Reg.ingBayStateLifeLow b) 1).ingFault 0x66 b s.ingGen
    else s.put64 (Reg.ingBayWrittenLo b) (Reg.ingBayWrittenHi b) w := by
  unfold setWritten
  simp

theorem setWritten_only (s : State) (b w : Nat) : OnlyIngots (writtenRegs b) s (s.setWritten b w) := by
  have hput : OnlyIngots (writtenRegs b) s (s.put64 (Reg.ingBayWrittenLo b) (Reg.ingBayWrittenHi b) w) :=
    (OnlyIngots.refl _ s).put64 (by simp) (by simp) w
  rw [setWritten_eq]
  split
  · exact (hput.put (by simp) 1).raise _ _ _ _
  · exact hput

theorem setWritten_ing (s : State) (b w : Nat) : (s.setWritten b w).ing = s.ing := by
  rw [setWritten_eq]; split
  · rw [ingFault_ing]; rfl
  · rfl

theorem setWritten_out (s : State) (b w : Nat) : (s.setWritten b w).out = s.out := by
  rw [setWritten_eq]; split
  · rw [ingFault_out]; rfl
  · rfl

/-- BAY.WRITTEN takes the value; LIFE_LOW sets above 95 % of RATED, and the fault of a bay already worn waits no second time. -/
theorem setWritten_get (s : State) (hb : b < 2) (w : Nat) :
    (s.setWritten b w).get64 (Reg.ingBayWrittenLo b) (Reg.ingBayWrittenHi b) = w % 2 ^ 64 ∧
    (s.setWritten b w).get (Reg.ingBayStateLifeLow b) = (if s.wearsOut b w then 1 else s.get (Reg.ingBayStateLifeLow b)) ∧
    (¬ s.wearsOut b w → (s.setWritten b w).faultQ = s.faultQ) := by
  have hw : (s.put64 (Reg.ingBayWrittenLo b) (Reg.ingBayWrittenHi b) w).get64 (Reg.ingBayWrittenLo b) (Reg.ingBayWrittenHi b) = w % 2 ^ 64 :=
    get64_put64 s rfl rfl (by interval_cases b <;> decide) w
  have hlow : (s.put64 (Reg.ingBayWrittenLo b) (Reg.ingBayWrittenHi b) w).get (Reg.ingBayStateLifeLow b) = s.get (Reg.ingBayStateLifeLow b) :=
    get_put64_ne s (by interval_cases b <;> decide) (by interval_cases b <;> decide) w
  rw [setWritten_eq]
  split
  case isTrue h =>
    obtain ⟨hwear, -⟩ := h
    refine ⟨?_, ?_, fun hn => absurd hwear hn⟩
    · unfold get64
      rw [get_ingFault _ _ _ _ (by interval_cases b <;> decide), get_ingFault _ _ _ _ (by interval_cases b <;> decide),
        get_put_ne _ _ (by interval_cases b <;> decide), get_put_ne _ _ (by interval_cases b <;> decide)]
      exact hw
    · rw [get_ingFault _ _ _ _ (by interval_cases b <;> decide), get_put_same, if_pos hwear]
      rfl
  case isFalse h =>
    refine ⟨hw, ?_, fun _ => rfl⟩
    rw [hlow]
    split
    case isTrue hwear =>
      by_contra hne
      exact h ⟨hwear, by simpa [flag] using hne⟩
    case isFalse => rfl

theorem addWritten_ing (s : State) (b n : Nat) : (s.addWritten b n).ing = s.ing := setWritten_ing s b _

theorem addWritten_out (s : State) (b n : Nat) : (s.addWritten b n).out = s.out := setWritten_out s b _

theorem addWritten_only (s : State) (b n : Nat) :
    OnlyIngots (writtenRegs b ++ [Reg.ingBytesLo, Reg.ingBytesHi]) s (s.addWritten b n) :=
  ((setWritten_only s b _).mono (List.subset_append_left _ _)).put64 (by simp) (by simp) _

/-- Bytes appended are added to BAY.WRITTEN and to BYTES. -/
theorem addWritten_get (s : State) (hb : b < 2) (n : Nat) :
    (s.addWritten b n).get64 (Reg.ingBayWrittenLo b) (Reg.ingBayWrittenHi b) =
      (s.get64 (Reg.ingBayWrittenLo b) (Reg.ingBayWrittenHi b) + n) % 2 ^ 64 ∧
    (s.addWritten b n).get64 Reg.ingBytesLo Reg.ingBytesHi = min (s.get64 Reg.ingBytesLo Reg.ingBytesHi + n) (2 ^ 64 - 1) ∧
    (s.addWritten b n).get (Reg.ingBayStateLifeLow b) =
      (if s.wearsOut b (s.get64 (Reg.ingBayWrittenLo b) (Reg.ingBayWrittenHi b) + n) then 1 else s.get (Reg.ingBayStateLifeLow b)) := by
  obtain ⟨hw, hlow, -⟩ := setWritten_get s hb (s.get64 (Reg.ingBayWrittenLo b) (Reg.ingBayWrittenHi b) + n)
  have hbytes : (s.setWritten b (s.get64 (Reg.ingBayWrittenLo b) (Reg.ingBayWrittenHi b) + n)).get64 Reg.ingBytesLo Reg.ingBytesHi =
      s.get64 Reg.ingBytesLo Reg.ingBytesHi :=
    get64_of_sameRegsBut (setWritten_only s b _).1 (by interval_cases b <;> decide) (by interval_cases b <;> decide)
  unfold addWritten
  refine ⟨?_, ?_, ?_⟩
  · rw [← hw]
    unfold count64 put64
    rw [get64_put_ne _ (by interval_cases b <;> decide) (by interval_cases b <;> decide),
      get64_put_ne _ (by interval_cases b <;> decide) (by interval_cases b <;> decide)]
  · rw [get64_count64 _ rfl rfl (by decide), hbytes]
  · rw [← hlow]
    exact get_put64_ne _ (by interval_cases b <;> decide) (by interval_cases b <;> decide) _

/-! ## Cartridges -/

theorem cart?_setCart_same (s : State) (b : Nat) (c : Cart) : (s.setCart b c).cart? b = some c :=
  Assoc.find?_put_same _ _ _

theorem cart?_setCart_ne (s : State) {k b : Nat} (h : k ≠ b) (c : Cart) : (s.setCart b c).cart? k = s.cart? k :=
  Assoc.find?_put_ne _ _ h

theorem cart?_of_ing {s t : State} (h : t.ing = s.ing) (k : Nat) : t.cart? k = s.cart? k := by unfold cart?; rw [h]

end State

end Sys2Proof.Machine
end

section
/-!
SUPPORT. Proofs: how a generation ends (R369, R371), and what a bay that loses its cartridge leaves of it (R381). -/

namespace Sys2Proof.Machine

namespace GenEnded

variable {s u t v : State} {g : GenRun}

/-- What follows the end of a generation and leaves the unit and its registers alone. -/
theorem keep (h : GenEnded s t g) (hing : u.ing = t.ing) (hget : ∀ f ∈ endRegs, u.get f = t.get f) : GenEnded s u g := by
  obtain ⟨hi, hphase, hbays, htmp, hcode⟩ := h
  refine ⟨hing ▸ hi, (hget _ (by simp [endRegs])).trans hphase, (hget _ (by simp [endRegs])).trans hbays,
    (hget _ (by simp [endRegs])).trans htmp, fun b hb => ?_⟩
  rw [← hcode b hb]
  unfold State.bayCode
  exact hget _ (by interval_cases b <;> simp [endRegs])

/-- What comes before the end of a generation and leaves what the end reads alone. -/
theorem after (h : GenEnded u t g) (hing : { u.ing with carts := s.ing.carts, cur := s.ing.cur } = s.ing) (htmp : u.tmp = s.tmp)
    (hclip : u.get Reg.tmpCtrlClipEn = s.get Reg.tmpCtrlClipEn) (hcode : ∀ b, b < 2 → u.bayCode b = s.bayCode b) : GenEnded s t g := by
  obtain ⟨hi, hphase, hbays, hp, hc⟩ := h
  refine ⟨?_, hphase, hbays, hp.trans ?_, fun b hb => ?_⟩
  · rw [hi, ← hing]
  · unfold State.tmpPhase State.flag
    rw [State.get_put_same, State.get_put_same, htmp, hclip]
  · rw [hc b hb, hcode b hb]

end GenEnded

namespace State

variable {s : State} {g : GenRun}

/-- A bay that a generation has written is ADOPTED again. -/
def freeBay (t : State) (b : Nat) : State := if t.bayCode b = 7 then t.put (Reg.ingBayStateCode b) 6 else t

/-- The bays of a generation are ADOPTED again. -/
def freeBays (s : State) (g : GenRun) : State := ([0, 1].filter (fun b => g.bays.contains b)).foldl freeBay s

theorem endGen_eq (s : State) (g : GenRun) :
    s.endGen g = ((((s.freeBays g).setCur none).put Reg.ingStatusPhase 0).put Reg.ingStatusBays 0).tmpPhase := rfl

theorem freeBay_ing (t : State) (b : Nat) : (t.freeBay b).ing = t.ing := by unfold freeBay; split <;> rfl

theorem freeBay_upd (t : State) (b : Nat) : { t.freeBay b with regs := t.regs } = t := by unfold freeBay; split <;> rfl

theorem freeBay_only (t : State) {b : Nat} (hb : b < 2) :
    SameRegsBut [Reg.ingBayStateCode 0, Reg.ingBayStateCode 1] t (t.freeBay b) := by
  unfold freeBay
  split
  · exact (SameRegsBut.refl _ t).put _ _ (by interval_cases b <;> simp)
  · exact .refl _ t

theorem bayCode_freeBay_same (t : State) {b : Nat} (hb : b < 2) : (t.freeBay b).bayCode b = if t.bayCode b = 7 then 6 else t.bayCode b := by
  unfold freeBay
  split
  · exact (get_put_same ..).trans (by interval_cases b <;> rfl)
  · rfl

theorem bayCode_freeBay_ne (t : State) {b k : Nat} (hb : b < 2) (hk : k < 2) (hne : k ≠ b) : (t.freeBay b).bayCode k = t.bayCode k := by
  unfold freeBay
  split
  · exact get_put_ne _ _ (by interval_cases b <;> interval_cases k <;> first | exact absurd rfl hne | decide)
  · rfl

theorem freeBays_of (s : State) (g : GenRun) : { s.freeBays g with regs := s.regs } = s ∧
    SameRegsBut [Reg.ingBayStateCode 0, Reg.ingBayStateCode 1] s (s.freeBays g) ∧
    ∀ b, b < 2 → (s.freeBays g).bayCode b = if b ∈ g.bays ∧ s.bayCode b = 7 then 6 else s.bayCode b := by
  unfold freeBays
  by_cases h0 : 0 ∈ g.bays <;> by_cases h1 : 1 ∈ g.bays <;> simp only [List.filter_cons, List.filter_nil, List.contains_iff_mem, h0, h1,
    if_true, if_false, List.foldl_cons, List.foldl_nil]
  · refine ⟨(congrArg (fun v : State => { v with regs := s.regs }) ((s.freeBay 0).freeBay_upd 1) :).trans (s.freeBay_upd 0),
      (s.freeBay_only (by decide)).trans ((s.freeBay 0).freeBay_only (by decide)), fun b hb => ?_⟩
    interval_cases b
    · rw [bayCode_freeBay_ne _ (by decide) (by decide) (by decide), bayCode_freeBay_same _ (by decide)]; simp [h0]
    · rw [bayCode_freeBay_same _ (by decide), bayCode_freeBay_ne _ (by decide) (by decide) (by decide)]; simp [h1]
  · refine ⟨s.freeBay_upd 0, s.freeBay_only (by decide), fun b hb => ?_⟩
    interval_cases b
    · rw [bayCode_freeBay_same _ (by decide)]; simp [h0]
    · rw [bayCode_freeBay_ne _ (by decide) (by decide) (by decide)]; simp [h1]
  · refine ⟨s.freeBay_upd 1, s.freeBay_only (by decide), fun b hb => ?_⟩
    interval_cases b
    · rw [bayCode_freeBay_ne _ (by decide) (by decide) (by decide)]; simp [h0]
    · rw [bayCode_freeBay_same _ (by decide)]; simp [h1]
  · refine ⟨trivial, .refl _ s, fun b hb => ?_⟩
    interval_cases b
    · simp [h0]
    · simp [h1]

theorem endGen_rest (s : State) (g : GenRun) : { s.endGen g with regs := s.regs, ing := s.ing } = s ∧
    (s.endGen g).ing = { s.ing with cur := none } := by
  obtain ⟨hrest, -, -⟩ := freeBays_of s g
  rw [endGen_eq]
  generalize s.freeBays g = m at hrest
  exact ⟨(congrArg (fun v : State => { v with regs := s.regs, ing := s.ing }) hrest :), (congrArg (fun v : State => { v.ing with cur := none }) hrest :)⟩

/-- Every register but those of a generation's end is as it was. -/
theorem endGen_regs (s : State) (g : GenRun) : SameRegsBut endRegs s (s.endGen g) := by
  obtain ⟨-, hregs, -⟩ := freeBays_of s g
  rw [endGen_eq]
  have h0 : SameRegsBut endRegs s ((s.freeBays g).setCur none) := (hregs.mono (by simp [endRegs])).trans (.of_regs rfl)
  exact ((h0.put _ _ (by simp [endRegs])).put _ _ (by simp [endRegs])).put _ _ (by simp [endRegs])

theorem endGen_ended (s : State) (g : GenRun) : GenEnded s (s.endGen g) g := by
  obtain ⟨hrest, hregs, hcode⟩ := freeBays_of s g
  obtain ⟨-, hing⟩ := endGen_rest s g
  have htmp : (s.freeBays g).tmp = s.tmp := (congrArg State.tmp hrest :)
  have hclip : (s.freeBays g).get Reg.tmpCtrlClipEn = s.get Reg.tmpCtrlClipEn := hregs _ (by decide)
  refine ⟨by rw [hing], ?_, ?_, ?_, fun b hb => ?_⟩ <;> rw [endGen_eq]
  · unfold tmpPhase
    rw [get_put_ne _ _ (by decide), get_put_ne _ _ (by decide), get_put_same]; rfl
  · unfold tmpPhase
    rw [get_put_ne _ _ (by decide), get_put_same]; rfl
  · unfold tmpPhase flag
    rw [get_put_same, get_put_same, get_put_ne _ _ (by decide), get_put_ne _ _ (by decide)]
    change (if !(s.freeBays g).tmp.ranges.isEmpty then (if (s.freeBays g).tmp.ready then 3 else if (s.freeBays g).get Reg.tmpCtrlClipEn == 1 then 2 else 1)
      else if !(s.freeBays g).tmp.pushes.isEmpty then 4 else 0) % _ = _
    rw [htmp, hclip]
  · rw [← hcode b hb]
    unfold bayCode tmpPhase
    rw [get_put_ne _ _ (by interval_cases b <;> decide), get_put_ne _ _ (by interval_cases b <;> decide),
      get_put_ne _ _ (by interval_cases b <;> decide)]
    rfl

/-! ## A generation that fails -/

/-- A generation that has failed, before the COMMIT hold goes. -/
def failed (s : State) (b : Nat) (g : GenRun) : State := ((s.endGen g).count Reg.ingGensFailed).ingFault 0x62 b g.gen

theorem failGen_eq (s : State) (b : Nat) (g : GenRun) : s.failGen b g = (s.failed b g).releaseCommit := rfl

theorem failed_genFailed (s : State) {b : Nat} (hb : b < 2) (g : GenRun) : GenFailed s (s.failed b g) g b := by
  obtain ⟨hrest, hing⟩ := endGen_rest s g
  have hcount : (s.endGen g).get Reg.ingGensFailed = s.get Reg.ingGensFailed := endGen_regs s g _ (by decide)
  have hget : ∀ f ∈ endRegs, (s.failed b g).get f = (s.endGen g).get f := by
    intro f hf
    unfold failed
    rw [get_ingFault _ _ _ _ (by revert f; decide)]
    exact get_put_ne _ _ (by revert f; decide)
  have hi : (s.failed b g).ing = (s.endGen g).ing := ingFault_ing _ _ _ _
  refine ⟨(endGen_ended s g).keep hi hget, ?_, ?_, ?_, ?_, ?_⟩
  · rw [hi, hing]
  · exact (ingFault_out _ _ _ _).trans (congrArg State.out hrest :)
  · refine OnlyIngots.raise (OnlyIngots.count ⟨(endGen_regs s g).mono ?_, ?_⟩ (by simp) 1) _ _ _ _
    · exact fun f hf => List.mem_append_right _ (List.mem_cons_of_mem _ hf)
    · exact (congrArg (fun v : State => { v with regs := s.regs, ing := s.ing, faultQ := s.faultQ, out := s.out }) hrest :)
  · unfold Counted failed
    rw [get_ingFault _ _ _ _ (by decide), get_count_same _ _ _ (by decide), hcount]
  · have haddr : b % 2 + g.gen % 2 ^ 32 * 2 ^ 8 = b + g.gen % 2 ^ 32 * 2 ^ 8 := by omega
    have hq : ((s.endGen g).count Reg.ingGensFailed).faultQ = s.faultQ := (congrArg State.faultQ hrest :)
    have hc : ((s.endGen g).count Reg.ingGensFailed).cad = s.cad := (congrArg State.cad hrest :)
    unfold failed ingFault
    rw [haddr]
    exact .of_raise hq hc _ _ _ _

/-! ## A generation that is complete -/

/-- Bay `b`'s cartridge holds the generation complete. -/
def completeBay (g : GenRun) (t : State) (b : Nat) : State :=
  match t.cart? b with
  | some c => t.setCart b (completeOn g c)
  | none => t

/-- The cartridges that a generation has written hold it complete. -/
def completeBays (s : State) (g : GenRun) : State := ([0, 1].filter (fun b => g.bays.contains b)).foldl (completeBay g) s

/-- A complete generation, before the COMMIT hold goes. -/
def finished (s : State) (g : GenRun) (ms : Nat) : State :=
  let s2 := ((s.completeBays g).endGen g).put Reg.ingLastWriteMs (min ms 65535)
  if g.capture then s2
  else ((s2.put Reg.ingLastStep g.step).put64 Reg.ingLastGenLo Reg.ingLastGenHi g.gen).count Reg.ingGensOk

theorem finishGen_eq (s : State) (g : GenRun) (ms : Nat) :
    s.finishGen g ms = if g.capture then s.finished g ms else (s.finished g ms).releaseCommit := by
  unfold finishGen finished
  cases g.capture <;> rfl

/-- Of the registers, the unit, and the rest of the device only what shows a cartridge's zones differs. -/
abbrev OnlyCarts (s t : State) : Prop :=
  SameRegsBut [Reg.ingBayZonesFree 0, Reg.ingBayZonesFree 1] s t ∧ { t with regs := s.regs, ing := s.ing } = s ∧
    { t.ing with carts := s.ing.carts } = s.ing

theorem OnlyCarts.trans {r s t : State} (h : OnlyCarts r s) (k : OnlyCarts s t) : OnlyCarts r t := by
  obtain ⟨hregs, hrest, hing⟩ := h
  obtain ⟨kregs, krest, king⟩ := k
  exact ⟨hregs.trans kregs, (congrArg (fun v : State => { v with regs := r.regs, ing := r.ing }) krest :).trans hrest,
    (congrArg (fun v : Ing => { v with carts := r.ing.carts }) king :).trans hing⟩

theorem completeBay_only (g : GenRun) (t : State) {b : Nat} (hb : b < 2) : OnlyCarts t (completeBay g t b) := by
  unfold completeBay
  split
  · exact ⟨(SameRegsBut.of_regs (s := t) rfl).put _ _ (by interval_cases b <;> simp), rfl, rfl⟩
  · exact ⟨.refl _ t, rfl, rfl⟩

theorem cart?_completeBay_same (g : GenRun) (t : State) (b : Nat) : (completeBay g t b).cart? b = (t.cart? b).map (completeOn g) := by
  unfold completeBay
  split
  next c hc => rw [cart?_setCart_same, hc]; rfl
  next hc => rw [hc]; rfl

theorem cart?_completeBay_ne (g : GenRun) (t : State) {b k : Nat} (h : k ≠ b) : (completeBay g t b).cart? k = t.cart? k := by
  unfold completeBay
  split
  · exact cart?_setCart_ne _ h _
  · rfl

theorem completeBays_of (s : State) (g : GenRun) : OnlyCarts s (s.completeBays g) ∧
    ∀ b, (s.completeBays g).cart? b = if b < 2 ∧ b ∈ g.bays then (s.cart? b).map (completeOn g) else s.cart? b := by
  unfold completeBays
  have hbay : ∀ b, b < 2 → b = 0 ∨ b = 1 := by omega
  by_cases h0 : 0 ∈ g.bays <;> by_cases h1 : 1 ∈ g.bays <;> simp only [List.filter_cons, List.filter_nil, List.contains_iff_mem, h0, h1,
    if_true, if_false, List.foldl_cons, List.foldl_nil]
  · refine ⟨(completeBay_only g s (by decide)).trans (completeBay_only g _ (by decide)), fun b => ?_⟩
    by_cases hb0 : b = 0
    · subst hb0; rw [cart?_completeBay_ne _ _ (by decide), cart?_completeBay_same]; simp [h0]
    by_cases hb1 : b = 1
    · subst hb1; rw [cart?_completeBay_same, cart?_completeBay_ne _ _ (by decide)]; simp [h1]
    rw [cart?_completeBay_ne _ _ hb1, cart?_completeBay_ne _ _ hb0, if_neg (by omega)]
  · refine ⟨completeBay_only g s (by decide), fun b => ?_⟩
    by_cases hb0 : b = 0
    · subst hb0; rw [cart?_completeBay_same]; simp [h0]
    rw [cart?_completeBay_ne _ _ hb0, if_neg (fun ⟨hb, hm⟩ => (hbay b hb).elim hb0 (fun e => h1 (e ▸ hm)))]
  · refine ⟨completeBay_only g s (by decide), fun b => ?_⟩
    by_cases hb1 : b = 1
    · subst hb1; rw [cart?_completeBay_same]; simp [h1]
    rw [cart?_completeBay_ne _ _ hb1, if_neg (fun ⟨hb, hm⟩ => (hbay b hb).elim (fun e => h0 (e ▸ hm)) hb1)]
  · refine ⟨⟨.refl _ s, rfl, rfl⟩, fun b => ?_⟩
    rw [if_neg (fun ⟨hb, hm⟩ => (hbay b hb).elim (fun e => h0 (e ▸ hm)) (fun e => h1 (e ▸ hm)))]

/-- Ending a generation once its cartridges hold it. -/
theorem completeBays_endGen (s : State) (g : GenRun) : let t := (s.completeBays g).endGen g
    GenEnded s t g ∧ SameRegsBut (endRegs ++ [Reg.ingBayZonesFree 0, Reg.ingBayZonesFree 1]) s t ∧
    { t with regs := s.regs, ing := s.ing } = s ∧
    (∀ b, t.cart? b = if b < 2 ∧ b ∈ g.bays then (s.cart? b).map (completeOn g) else s.cart? b) := by
  obtain ⟨⟨hregs, hrest, hing⟩, hcart⟩ := completeBays_of s g
  generalize hu : s.completeBays g = u at hregs hrest hing hcart
  obtain ⟨erest, eing⟩ := endGen_rest u g
  refine ⟨(endGen_ended u g).after ?_ (congrArg State.tmp hrest :) (hregs _ (by decide)) fun b hb => ?_, ?_, ?_, fun b => ?_⟩
  · rw [← hing]
  · exact hregs _ (by interval_cases b <;> decide)
  · exact (hregs.mono (List.subset_append_right _ _)).trans ((endGen_regs u g).mono (List.subset_append_left _ _))
  · exact (congrArg (fun v : State => { v with regs := s.regs, ing := s.ing }) erest :).trans hrest
  · rw [← hcart b]
    unfold cart?
    rw [eing]

/-- The registers that a complete generation shows. -/
abbrev doneRegs (g : GenRun) : List Fld :=
  endRegs ++ [Reg.ingLastWriteMs, Reg.ingBayZonesFree 0, Reg.ingBayZonesFree 1] ++
    (if g.capture then [] else [Reg.ingLastStep, Reg.ingLastGenLo, Reg.ingLastGenHi, Reg.ingGensOk])

/-- The time of a generation is shown, and where it is a step's, its step, GEN and count. -/
def showDone (s : State) (g : GenRun) (ms : Nat) : State :=
  let s2 := s.put Reg.ingLastWriteMs (min ms 65535)
  if g.capture then s2 else ((s2.put Reg.ingLastStep g.step).put64 Reg.ingLastGenLo Reg.ingLastGenHi g.gen).count Reg.ingGensOk

theorem showDone_of (s : State) (g : GenRun) (ms : Nat) : let t := s.showDone g ms
    { t with regs := s.regs } = s ∧ SameRegsBut (doneRegs g) s t ∧ (∀ f ∈ endRegs, t.get f = s.get f) ∧
    t.get Reg.ingLastWriteMs = min ms 65535 ∧
    (g.capture = false → t.get Reg.ingLastStep = g.step % 2 ^ 32 ∧ t.get64 Reg.ingLastGenLo Reg.ingLastGenHi = g.gen % 2 ^ 64 ∧
      Counted s t Reg.ingGensOk) := by
  have hms : min ms 65535 % 2 ^ 16 = min ms 65535 := Nat.mod_eq_of_lt (by omega)
  unfold showDone doneRegs
  cases hc : g.capture
  case true =>
    refine ⟨rfl, (SameRegsBut.refl _ s).put _ _ (by simp), fun f hf => get_put_ne _ _ (by revert f; decide), ?_, fun h => by simp at h⟩
    exact (get_put_same ..).trans hms
  case false =>
    refine ⟨rfl, ?_, fun f hf => ?_, ?_, fun _ => ⟨?_, ?_, ?_⟩⟩
    · exact (((((SameRegsBut.refl _ s).put _ _ (by simp)).put _ _ (by simp)).put _ _ (by simp)).put _ _ (by simp)).put _ _ (by simp)
    · refine (get_put_ne _ _ (by revert f; decide)).trans ((get_put64_ne _ (by revert f; decide) (by revert f; decide) _).trans
        ((get_put_ne _ _ (by revert f; decide)).trans (get_put_ne _ _ (by revert f; decide))))
    · refine (get_put_ne _ _ (by decide)).trans ((get_put64_ne _ (by decide) (by decide) _).trans ((get_put_ne _ _ (by decide)).trans ?_))
      exact (get_put_same ..).trans hms
    · exact (get_put_ne _ _ (by decide)).trans ((get_put64_ne _ (by decide) (by decide) _).trans (get_put_same ..))
    · exact (get64_put_ne _ (by decide) (by decide) _).trans (get64_put64 _ rfl rfl (by decide) _)
    · refine (get_count_same _ _ _ (by decide)).trans ?_
      rw [get_put64_ne _ (by decide) (by decide), get_put_ne _ _ (by decide), get_put_ne _ _ (by decide)]

theorem finished_eq (s : State) (g : GenRun) (ms : Nat) : s.finished g ms = ((s.completeBays g).endGen g).showDone g ms := rfl

theorem finishGen_complete (s : State) (g : GenRun) (ms : Nat) : GenComplete s (s.finishGen g ms) g ms := by
  obtain ⟨hended, hregs, hrest, hcart⟩ := completeBays_endGen s g
  rw [finishGen_eq, finished_eq]
  generalize he : (s.completeBays g).endGen g = e at hended hregs hrest hcart
  obtain ⟨drest, dregs, dget, dms, dshown⟩ := showDone_of e g ms
  generalize e.showDone g ms = v at drest dregs dget dms dshown
  have hing : v.ing = e.ing := (congrArg State.ing drest :)
  have hall : { v with regs := s.regs, ing := s.ing } = s := (congrArg (fun w : State => { w with regs := s.regs, ing := s.ing }) drest :).trans hrest
  refine ⟨v, rfl, hended.keep hing dget, (congrArg State.out hall :), (congrArg State.faultQ hall :), dms,
    fun b => (cart?_of_ing hing b).trans (hcart b), ⟨?_, ?_⟩, fun hc => ?_⟩
  · refine (hregs.mono ?_).trans (dregs.mono (List.subset_append_right _ _))
    intro f hf
    simp only [List.mem_append, List.mem_cons, List.not_mem_nil, or_false] at hf ⊢
    tauto
  · exact (congrArg (fun w : State => { w with regs := s.regs, ing := s.ing, faultQ := s.faultQ, out := s.out }) hall :)
  · obtain ⟨hstep, hgen, hok⟩ := dshown hc
    refine ⟨hstep, hgen, ?_⟩
    unfold Counted at hok ⊢
    rw [hok, hregs _ (by decide)]

/-! ## A bay that goes -/

theorem dropBay_unused {s : State} {b : Nat} (h : ∀ g, s.ing.cur = some g → b ∉ g.bays) : s.dropBay b = s := by
  unfold dropBay
  cases hc : s.ing.cur with
  | none => rfl
  | some g => simp [h g hc]

/-- What a MIRROR generation is once bay `b` has gone. -/
def aloneOn (g : GenRun) (b : Nat) : GenRun :=
  { g with bays := [1 - b], todo := g.todo.filter (fun r => r.bay != b), flight := g.flight.filter (fun r => r.bay != b)
           flushing := g.flushing.filter (fun x => x != b) }

/-- The commands outstanding on a bay that has gone, counted as errors. -/
def countLost (s : State) (g : GenRun) (b : Nat) : State :=
  s.count (Reg.ingBayCmdErr b) ((g.flight.filter (fun r => r.bay == b)).length + b2n (g.flushing.contains b))

theorem dropBay_used {s : State} {b : Nat} {g : GenRun} (hcur : s.ing.cur = some g) (hb : b ∈ g.bays) :
    s.dropBay b = (if g.policy = 2 ∧ g.bays.length = 2 then
      let s2 := ((s.countLost g b).setCur (some (aloneOn g b))).put Reg.ingStatusBays (2 ^ (1 - b))
      if g.flushing.isEmpty then s2.flushGen else if (aloneOn g b).flushing.isEmpty then s2.finishGen (aloneOn g b) g.ms else s2
    else (s.countLost g b).failGen b g) := by
  unfold dropBay
  rw [hcur]
  have hin : ¬ (!g.bays.contains b) = true := by simp [hb]
  dsimp only
  rw [if_neg hin]
  rfl

theorem flushGen_of {s : State} {g : GenRun} (h : s.ing.cur = some g) : s.flushGen =
    if g.todo.isEmpty && g.flight.isEmpty && g.flushing.isEmpty then
      ((g.bays.foldl (fun t b => t.emit (.flush b)) s).setCur (some { g with flushing := g.bays })).put Reg.ingStatusPhase 3
    else s := by
  unfold flushGen
  rw [h]

theorem dropBay_lost (s : State) {b : Nat} (hb : b < 2) : BayLost s (s.dropBay b) b := by
  refine ⟨dropBay_unused, fun g hcur hused => ?_⟩
  have hn : (if b ∈ g.flushing then 1 else 0) = b2n (g.flushing.contains b) := by
    by_cases h : b ∈ g.flushing <;> simp [h, b2n]
  intro n u
  have hu : u = s.countLost g b := by
    unfold countLost count
    rw [← hn]
  rw [dropBay_used hcur hused, ← hu]
  refine ⟨fun hpolicy => ?_, fun hp2 hlen => ?_⟩
  · rw [if_neg hpolicy]
    exact ⟨_, failGen_eq _ _ _, failed_genFailed u hb g⟩
  · rw [if_pos ⟨hp2, hlen⟩]
    intro h w
    have hw : (u.setCur (some (aloneOn g b))).put Reg.ingStatusBays (2 ^ (1 - b)) = w := rfl
    rw [hw]
    refine ⟨fun hne hnil => ?_, fun hor => ⟨?_, ?_⟩⟩
    · have hne' : g.flushing.isEmpty = false := by simpa using hne
      have hnil' : (aloneOn g b).flushing.isEmpty = true := List.isEmpty_iff.mpr hnil
      simp only [hne', hnil', Bool.false_eq_true, if_false, if_true]
      exact finishGen_complete w h g.ms
    · rintro ⟨hnil, htodo, hflight⟩
      have hflush : h.flushing = [] := by rw [show h.flushing = g.flushing.filter (fun x => x != b) from rfl, hnil]; rfl
      simp only [hnil, List.isEmpty_nil, if_true]
      rw [flushGen_of (g := h) rfl, htodo, hflight, hflush]
      rfl
    · intro hnot
      by_cases hnil : g.flushing = []
      · have hne : (h.todo.isEmpty && h.flight.isEmpty && h.flushing.isEmpty) = false := by
          by_contra hall
          simp only [Bool.not_eq_false, Bool.and_eq_true, List.isEmpty_iff] at hall
          exact hnot ⟨hnil, hall.1.1, hall.1.2⟩
        simp only [hnil, List.isEmpty_nil, if_true]
        rw [flushGen_of (g := h) rfl, hne]
        rfl
      · have hne : g.flushing.isEmpty = false := by simpa using hnil
        have hne' : (aloneOn g b).flushing.isEmpty = false := List.isEmpty_eq_false_iff.mpr (hor.resolve_left hnil)
        simp only [hne, hne', Bool.false_eq_true, if_false]

end State

end Sys2Proof.Machine
end

section
/-!
SUPPORT. Proofs: the bays and their cartridges (R376 to R382). -/

namespace Sys2Proof.Machine

namespace State

variable {b : Nat}

/-! ## A bay without a cartridge -/

/-- Fields written back to their reset values hold them. -/
theorem get_foldl_rst {f : Fld} (hf : f.rst % 2 ^ f.w = f.rst) (l : List Fld) (hl : ∀ g ∈ l, g.key = f.key → g = f) :
    ∀ t : State, f ∈ l ∨ t.get f = f.rst → (l.foldl (fun u g => u.put g g.rst) t).get f = f.rst := by
  induction l with
  | nil => exact fun t h => h.elim (fun h => absurd h List.not_mem_nil) id
  | cons g l ih =>
    intro t h
    refine ih (fun k hk => hl k (List.mem_cons_of_mem g hk)) (t.put g g.rst) ?_
    by_cases hk : g.key = f.key
    · obtain rfl := hl g List.mem_cons_self hk
      exact .inr ((get_put_same ..).trans hf)
    · rw [get_put_ne _ _ (fun e => hk e.symm)]
      rcases h with h | h
      · rcases List.mem_cons.mp h with rfl | h
        · exact absurd rfl hk
        · exact .inl h
      · exact .inr h

theorem foldl_rst_sameRegsBut (l : List Fld) {m : List Fld} (hl : l ⊆ m) : ∀ s t : State, SameRegsBut m s t →
    SameRegsBut m s (l.foldl (fun u g => u.put g g.rst) t) := by
  induction l with
  | nil => exact fun s t h => h
  | cons g l ih => exact fun s t h => ih (fun k hk => hl (List.mem_cons_of_mem g hk)) s _ (h.put _ _ (hl List.mem_cons_self))

theorem foldl_rst_upd (l : List Fld) : ∀ t : State, { l.foldl (fun u g => u.put g g.rst) t with regs := t.regs } = t := by
  induction l with
  | nil => exact fun t => rfl
  | cons g l ih => exact fun t => (congrArg (fun v : State => { v with regs := t.regs }) (ih (t.put g g.rst)) :)

/-- The bay without its cartridge, before its registers show it. -/
def unseat (s : State) (b : Nat) : State := { s with ing := { s.ing with carts := Assoc.del s.ing.carts b } }

theorem clearBay_eq (s : State) (b code : Nat) :
    s.clearBay b code = (cartRegs b).foldl (fun u g => u.put g g.rst) ((s.unseat b).put (Reg.ingBayStateCode b) code) := rfl

theorem cartRegs_rst (hb : b < 2) : ∀ f ∈ cartRegs b, f.rst % 2 ^ f.w = f.rst ∧ ∀ g ∈ cartRegs b, g.key = f.key → g = f := by
  interval_cases b <;> decide

theorem stateCode_not_cart (hb : b < 2) : ∀ g ∈ cartRegs b, (Reg.ingBayStateCode b).key ≠ g.key := by
  interval_cases b <;> decide

theorem clearBay_of (s : State) (hb : b < 2) {code : Nat} (hcode : code < 16) : 
    BayOff s (s.clearBay b code) b code ∧ SameRegsBut (Reg.ingBayStateCode b :: cartRegs b) s (s.clearBay b code) ∧
    (s.clearBay b code).out = s.out ∧ (s.clearBay b code).faultQ = s.faultQ := by
  have hupd := foldl_rst_upd (cartRegs b) ((s.unseat b).put (Reg.ingBayStateCode b) code)
  have hfold := foldl_rst_sameRegsBut (cartRegs b) (List.Subset.refl _) _ _ (.refl _ ((s.unseat b).put (Reg.ingBayStateCode b) code))
  have hrst := fun f (hf : f ∈ cartRegs b) => get_foldl_rst (cartRegs_rst hb f hf).1 (cartRegs b) (cartRegs_rst hb f hf).2
    ((s.unseat b).put (Reg.ingBayStateCode b) code) (.inl hf)
  rw [clearBay_eq]
  generalize (cartRegs b).foldl (fun u g => u.put g g.rst) ((s.unseat b).put (Reg.ingBayStateCode b) code) = t at hupd hfold hrst
  have hstate : t.bayCode b = code :=
    (hfold _ (stateCode_not_cart hb)).trans ((get_put_same ..).trans (Nat.mod_eq_of_lt hcode))
  have hregs : SameRegsBut (Reg.ingBayStateCode b :: cartRegs b) s t :=
    ((SameRegsBut.of_regs (s := s) (t := s.unseat b) rfl).put _ _ List.mem_cons_self).trans (hfold.mono (List.subset_cons_self _ _))
  have hing : t.ing = (s.unseat b).ing := (congrArg State.ing hupd :)
  have hrest : { t with regs := s.regs, ing := s.ing } = s := (congrArg (fun v : State => { v with regs := s.regs, ing := s.ing }) hupd :)
  refine ⟨⟨hstate, hrst, ?_, fun k hk => ?_, ?_, ?_⟩, hregs, (congrArg State.out hrest :), (congrArg State.faultQ hrest :)⟩
  · unfold cart?; rw [hing]; exact Assoc.find?_del_same ..
  · unfold cart?; rw [hing]; exact Assoc.find?_del_ne _ hk
  · rw [hing]; rfl
  · exact (congrArg (fun v : State => { v with regs := s.regs, ing := s.ing, faultQ := s.faultQ, out := s.out }) hrest :)

/-! ## The reading of a label -/

/-- Bay `b` adopts its cartridge `c` for job `j`. -/
def adoptBay (s : State) (b j : Nat) (c : Cart) : State :=
  (((((s.emit (.zone b 2 0)).emit (.label b j s.addr)).setCart b
    { c with label := some { job := j, addr := s.addr, tagOk := true }, gens := [], last := 0 }).put (Reg.ingBayStateCode b) 6)).addWritten b 4096

/-- The state of a bay whose cartridge bears a label. -/
def labelCode (s : State) (bl : Billet) (l : CartLabel) : Nat := if l.tagOk = true ∧ l.job = bl.jobId then (if l.addr = s.addr then 6 else 5) else 4

theorem readLabel_keep {s : State} (h : s.seed = none ∨ s.billet = none) (b : Nat) : s.readLabel b = s := by
  unfold readLabel jobId
  rcases h with h | h <;> rw [h]
  · split <;> rfl
  · split
    · next hj => simp at hj
    · rfl

theorem readLabel_of {s : State} {c : Cart} {bl : Billet} (hc : s.cart? b = some c) (hs : s.seed.isSome = true) (hbl : s.billet = some bl) :
    s.readLabel b = (if c.idOk = false then s.put (Reg.ingBayStateCode b) 3
      else match c.label with
        | none => if c.lifeOk then s.adoptBay b bl.jobId c else s.put (Reg.ingBayStateCode b) 4
        | some l => s.put (Reg.ingBayStateCode b) (s.labelCode bl l)) := by
  have hj : s.jobId = some bl.jobId := by unfold jobId; rw [hbl]; rfl
  have hseed : s.seed.isNone = false := by rw [← Option.not_isSome, hs]; rfl
  unfold readLabel
  rw [hc, hj]
  dsimp only
  rw [hseed]
  cases hid : c.idOk
  · rfl
  · cases hl : c.label with
    | none =>
      unfold adoptBay
      simp only [hid, Bool.not_true, Bool.false_eq_true, if_false, reduceCtorEq]
    | some l =>
      have hours : (s.labelOurs c = true) = (l.tagOk = true ∧ l.job = bl.jobId) := by
        unfold labelOurs
        rw [hl, hj]
        simp
      simp only [Bool.not_true, Bool.false_eq_true, if_false, labelCode, hours, reduceCtorEq]

theorem bayCode_put (s : State) (b : Nat) {code : Nat} (h : code < 16) : (s.put (Reg.ingBayStateCode b) code).bayCode b = code :=
  (get_put_same ..).trans (Nat.mod_eq_of_lt h)

theorem labelCode_lt (s : State) (bl : Billet) (l : CartLabel) : s.labelCode bl l < 16 := by
  unfold labelCode
  split
  · split <;> decide
  · decide

theorem adoptBay_of (s : State) (hb : b < 2) (j : Nat) (c : Cart) : let t := s.adoptBay b j c
    OnlyIngots (Reg.ingBayStateCode b :: Reg.ingBytesLo :: Reg.ingBytesHi :: cartRegs b) s t ∧
    { t.ing with carts := s.ing.carts } = s.ing ∧ (∀ k, k ≠ b → t.cart? k = s.cart? k) ∧ t.bayCode b = 6 ∧
    t.out = s.out ++ [.zone b 2 0, .label b j s.addr] ∧
    t.cart? b = some { c with label := some { job := j, addr := s.addr, tagOk := true }, gens := [], last := 0 } ∧
    t.get64 (Reg.ingBayWrittenLo b) (Reg.ingBayWrittenHi b) = (s.get64 (Reg.ingBayWrittenLo b) (Reg.ingBayWrittenHi b) + 4096) % 2 ^ 64 ∧
    t.get64 Reg.ingBytesLo Reg.ingBytesHi = min (s.get64 Reg.ingBytesLo Reg.ingBytesHi + 4096) (2 ^ 64 - 1) ∧
    SameRegsBut (dropRegs ++ Reg.ingBayStateCode b :: Reg.ingBayZonesFree b :: writtenRegs b ++ [Reg.ingBytesLo, Reg.ingBytesHi]) s t := by
  unfold adoptBay
  generalize hu : (((s.emit (.zone b 2 0)).emit (.label b j s.addr)).setCart b
    { c with label := some { job := j, addr := s.addr, tagOk := true }, gens := [], last := 0 }).put (Reg.ingBayStateCode b) 6 = u
  have honly : OnlyIngots [Reg.ingBayStateCode b, Reg.ingBayZonesFree b] s u := by
    rw [← hu]
    exact ((((OnlyIngots.refl _ s).emit _).emit _).setCart (by simp) _).put (by simp) _
  have hout : u.out = s.out ++ [.zone b 2 0, .label b j s.addr] := by
    rw [← hu]; exact List.append_assoc ..
  have hcart : u.cart? b = some { c with label := some { job := j, addr := s.addr, tagOk := true }, gens := [], last := 0 } := by
    rw [← hu]; exact cart?_setCart_same ..
  have hcarts : ∀ k, k ≠ b → u.cart? k = s.cart? k := fun k hk => by
    rw [← hu]; exact cart?_setCart_ne _ hk _
  have hing : { u.ing with carts := s.ing.carts } = s.ing := by rw [← hu]; rfl
  have hcode : u.bayCode b = 6 := by rw [← hu]; exact bayCode_put _ b (by decide)
  obtain ⟨hw, hbytes, -⟩ := addWritten_get u hb 4096
  have hadds := addWritten_only u b 4096
  have hi := addWritten_ing u b 4096
  have hfew := (honly.mono (m := Reg.ingBayStateCode b :: Reg.ingBayZonesFree b :: writtenRegs b ++ [Reg.ingBytesLo, Reg.ingBytesHi])
    (by simp)).trans (hadds.mono (by simp))
  refine ⟨hfew.mono ?_, ?_, fun k hk => (cart?_of_ing hi k).trans (hcarts k hk), ?_, (addWritten_out u b 4096).trans hout,
    (cart?_of_ing hi b).trans hcart, ?_, ?_, hfew.1⟩
  · simp [cartRegs]
  · rw [hi]; exact hing
  · exact (hadds.1 _ (by interval_cases b <;> decide)).trans hcode
  · rw [hw, get64_of_sameRegsBut honly.1 (by interval_cases b <;> decide) (by interval_cases b <;> decide)]
  · rw [hbytes, get64_of_sameRegsBut honly.1 (by interval_cases b <;> decide) (by interval_cases b <;> decide)]

/-! ## A controller that is ready -/

/-- The registers that a controller gives with its cartridge, which no later reading changes. -/
abbrev givenRegs (b : Nat) : List Fld :=
  [Reg.ingBayLinkWidth b, Reg.ingBayLinkSpeed b, Reg.ingBayRatedLo b, Reg.ingBayRatedHi b, Reg.ingBayStateLifeBad b,
   Reg.ingBayZonesRing b, Reg.ingBayZoneCap b]

/-- The registers that the reading of a label may change. -/
abbrev readRegs (b : Nat) : List Fld :=
  Reg.ingBayStateCode b :: Reg.ingBayZonesFree b :: writtenRegs b ++ [Reg.ingBytesLo, Reg.ingBytesHi]

/-- The values that a controller gives. -/
abbrev Gives (t : State) (b : Nat) (c : Cart) : Prop :=
  t.get (Reg.ingBayLinkWidth b) = c.width % 2 ^ (Reg.ingBayLinkWidth b).w ∧ t.get (Reg.ingBayLinkSpeed b) = c.speed % 2 ^ (Reg.ingBayLinkSpeed b).w ∧
  t.get64 (Reg.ingBayRatedLo b) (Reg.ingBayRatedHi b) = c.rated % 2 ^ 64 ∧ t.get (Reg.ingBayStateLifeBad b) = (if c.lifeOk then 0 else 1) ∧
  t.get (Reg.ingBayZonesRing b) = (c.zones - 1) % 2 ^ (Reg.ingBayZonesRing b).w ∧ t.get (Reg.ingBayZoneCap b) = c.cap % 2 ^ (Reg.ingBayZoneCap b).w

theorem Gives.of_same {s t : State} {c : Cart} (h : Gives s b c) (hs : ∀ f ∈ givenRegs b, t.get f = s.get f) : Gives t b c := by
  obtain ⟨hw, hp, hr, hl, hz, hc⟩ := h
  refine ⟨(hs _ (by simp)).trans hw, (hs _ (by simp)).trans hp, ?_, (hs _ (by simp)).trans hl, (hs _ (by simp)).trans hz, (hs _ (by simp)).trans hc⟩
  rw [← hr]
  unfold get64
  rw [hs _ (by simp), hs _ (by simp)]

/-- The cartridge's link, its size and itself are known. -/
def linkCart (s : State) (b : Nat) (c : Cart) : State :=
  (((((s.put (Reg.ingBayLinkWidth b) c.width).put (Reg.ingBayLinkSpeed b) c.speed).put64 (Reg.ingBayRatedLo b) (Reg.ingBayRatedHi b) c.rated).put
    (Reg.ingBayZonesRing b) (c.zones - 1)).put (Reg.ingBayZoneCap b) c.cap).setCart b c

/-- And its life report. -/
def seatCart (s : State) (b : Nat) (c : Cart) : State :=
  ((s.linkCart b c).setWritten b c.written).put (Reg.ingBayStateLifeBad b) (b2n !c.lifeOk)

theorem get_setCart (s : State) (c : Cart) {f : Fld} (h : f.key ≠ (Reg.ingBayZonesFree b).key) : (s.setCart b c).get f = s.get f :=
  get_put_ne _ _ h

theorem linkCart_of (s : State) (hb : b < 2) (c : Cart) : let t := s.linkCart b c
    t.get (Reg.ingBayLinkWidth b) = c.width % 2 ^ (Reg.ingBayLinkWidth b).w ∧ t.get (Reg.ingBayLinkSpeed b) = c.speed % 2 ^ (Reg.ingBayLinkSpeed b).w ∧
    t.get64 (Reg.ingBayRatedLo b) (Reg.ingBayRatedHi b) = c.rated % 2 ^ 64 ∧
    t.get (Reg.ingBayZonesRing b) = (c.zones - 1) % 2 ^ (Reg.ingBayZonesRing b).w ∧ t.get (Reg.ingBayZoneCap b) = c.cap % 2 ^ (Reg.ingBayZoneCap b).w := by
  have hput64 : ∀ u : State, (u.put64 (Reg.ingBayRatedLo b) (Reg.ingBayRatedHi b) c.rated).get64 (Reg.ingBayRatedLo b) (Reg.ingBayRatedHi b) =
      c.rated % 2 ^ 64 := fun u => get64_put64 u rfl rfl (by interval_cases b <;> decide) _
  unfold linkCart
  refine ⟨?_, ?_, ?_, ?_, ?_⟩
  · rw [get_setCart _ _ (by interval_cases b <;> decide), get_put_ne _ _ (by interval_cases b <;> decide), get_put_ne _ _ (by interval_cases b <;> decide), get_put64_ne _ (by interval_cases b <;> decide) (by interval_cases b <;> decide),
      get_put_ne _ _ (by interval_cases b <;> decide), get_put_same]
  · rw [get_setCart _ _ (by interval_cases b <;> decide), get_put_ne _ _ (by interval_cases b <;> decide), get_put_ne _ _ (by interval_cases b <;> decide), get_put64_ne _ (by interval_cases b <;> decide) (by interval_cases b <;> decide), get_put_same]
  · refine (?_ : _ = _).trans (hput64 ((s.put (Reg.ingBayLinkWidth b) c.width).put (Reg.ingBayLinkSpeed b) c.speed))
    unfold get64
    rw [get_setCart _ _ (by interval_cases b <;> decide), get_setCart _ _ (by interval_cases b <;> decide), get_put_ne _ _ (by interval_cases b <;> decide), get_put_ne _ _ (by interval_cases b <;> decide), get_put_ne _ _ (by interval_cases b <;> decide),
      get_put_ne _ _ (by interval_cases b <;> decide)]
  · rw [get_setCart _ _ (by interval_cases b <;> decide), get_put_ne _ _ (by interval_cases b <;> decide), get_put_same]
  · rw [get_setCart _ _ (by interval_cases b <;> decide), get_put_same]

theorem linkCart_only (s : State) (b : Nat) (c : Cart) : OnlyIngots (cartRegs b) s (s.linkCart b c) :=
  ((((((OnlyIngots.refl _ s).put (by simp [cartRegs]) _).put (by simp [cartRegs]) _).put64 (by simp [cartRegs]) (by simp [cartRegs]) _).put
    (by simp [cartRegs]) _).put (by simp [cartRegs]) _).setCart (by simp [cartRegs]) c

/-- Registers of the unit that a bay's cartridge does not show. -/
theorem cartRegs_apart (hb : b < 2) : ∀ g ∈ dropRegs ++ cartRegs b,
    (Reg.ingBayStateCode b).key ≠ g.key ∧ Reg.ingBytesLo.key ≠ g.key ∧ Reg.ingBytesHi.key ≠ g.key := by
  interval_cases b <;> decide

/-- Fields that a controller gives are none of those that the life report brings. -/
theorem givenRegs_written (hb : b < 2) : ∀ f ∈ givenRegs b, f.key ≠ (Reg.ingBayStateLifeBad b).key ∨ f = Reg.ingBayStateLifeBad b := by
  interval_cases b <;> decide

theorem givenRegs_not_written (hb : b < 2) : ∀ f ∈ givenRegs b, ∀ g ∈ dropRegs ++ writtenRegs b, f.key ≠ g.key := by
  interval_cases b <;> decide

theorem seatCart_only (s : State) (b : Nat) (c : Cart) : OnlyIngots (cartRegs b) s (s.seatCart b c) :=
  ((linkCart_only s b c).trans ((setWritten_only _ b _).mono (by simp [cartRegs]))).put (by simp [cartRegs]) _

theorem seatCart_gives (s : State) (hb : b < 2) (c : Cart) : Gives (s.seatCart b c) b c := by
  obtain ⟨hw, hp, hr, hz, hc⟩ := linkCart_of s hb c
  have hwritten := (setWritten_only (s.linkCart b c) b c.written).1
  have hkeep : ∀ f ∈ givenRegs b, f.key ≠ (Reg.ingBayStateLifeBad b).key → (s.seatCart b c).get f = (s.linkCart b c).get f := fun f hf hne =>
    (get_put_ne _ _ hne).trans (hwritten f (givenRegs_not_written hb f hf))
  refine ⟨(hkeep _ (by simp) ?_).trans hw, (hkeep _ (by simp) ?_).trans hp, ?_, ?_, (hkeep _ (by simp) ?_).trans hz, (hkeep _ (by simp) ?_).trans hc⟩
  · interval_cases b <;> decide
  · interval_cases b <;> decide
  · rw [← hr]
    unfold get64
    rw [hkeep _ (by simp) (by interval_cases b <;> decide), hkeep _ (by simp) (by interval_cases b <;> decide)]
  · refine (get_put_same ..).trans ?_
    cases c.lifeOk <;> rfl
  · interval_cases b <;> decide
  · interval_cases b <;> decide

theorem seatCart_of (s : State) (hb : b < 2) (c : Cart) : let t := s.seatCart b c
    { t.ing with carts := s.ing.carts } = s.ing ∧ (∀ k, k ≠ b → t.cart? k = s.cart? k) ∧ t.cart? b = some c ∧ t.out = s.out ∧
    t.bayCode b = s.bayCode b ∧ t.get64 (Reg.ingBayWrittenLo b) (Reg.ingBayWrittenHi b) = c.written % 2 ^ 64 ∧
    t.get64 Reg.ingBytesLo Reg.ingBytesHi = s.get64 Reg.ingBytesLo Reg.ingBytesHi ∧
    (100 * c.written ≤ 95 * (c.rated % 2 ^ 64) → t.faultQ = s.faultQ) := by
  obtain ⟨-, -, hr, -⟩ := linkCart_of s hb c
  obtain ⟨hw, -, hq⟩ := setWritten_get (s.linkCart b c) hb c.written
  have hregs := (seatCart_only s b c).1
  have hing : (s.seatCart b c).ing = (s.linkCart b c).ing := setWritten_ing ..
  refine ⟨by rw [hing]; rfl, fun k hk => (cart?_of_ing hing k).trans (cart?_setCart_ne _ hk c), (cart?_of_ing hing b).trans (cart?_setCart_same _ b c),
    (setWritten_out (s.linkCart b c) b c.written).trans rfl, hregs _ fun g hg => (cartRegs_apart hb g hg).1, ?_,
    get64_of_sameRegsBut hregs (fun g hg => (cartRegs_apart hb g hg).2.1) (fun g hg => (cartRegs_apart hb g hg).2.2), fun hle => ?_⟩
  · exact (get64_put_ne _ (by interval_cases b <;> decide) (by interval_cases b <;> decide) _).trans hw
  · refine (hq ?_).trans rfl
    unfold wearsOut
    rw [hr]
    omega

/-! ## What reading the label of a new cartridge shows -/

/-- The registers that reading the label changes are none of those that the controller gives. -/
theorem givenRegs_not_read (hb : b < 2) : ∀ f ∈ givenRegs b, ∀ g ∈ dropRegs ++ readRegs b, f.key ≠ g.key := by
  interval_cases b <;> decide

/-- A cartridge is read: of the unit only its place in the bay and the bay's registers have changed. -/
abbrev CartRead (s t : State) (b : Nat) : Prop :=
  OnlyIngots (readRegs b) s t ∧ { t.ing with carts := s.ing.carts } = s.ing ∧ ∀ k, k ≠ b → t.cart? k = s.cart? k

theorem CartRead.put (s : State) (code : Nat) : CartRead s (s.put (Reg.ingBayStateCode b) code) b :=
  ⟨(OnlyIngots.refl _ s).put (by simp) _, rfl, fun _ _ => rfl⟩

theorem CartRead.trans {r s t : State} (h : CartRead r s b) (k : CartRead s t b) : CartRead r t b := by
  obtain ⟨honly, hing, hcart⟩ := h
  obtain ⟨konly, king, kcart⟩ := k
  exact ⟨honly.trans konly, (congrArg (fun v : Ing => { v with carts := r.ing.carts }) king :).trans hing, fun j hj => (kcart j hj).trans (hcart j hj)⟩

theorem adoptBay_read (s : State) (hb : b < 2) (j : Nat) (c : Cart) : CartRead s (s.adoptBay b j c) b := by
  obtain ⟨⟨-, hrest⟩, hing, hcarts, -, -, -, -, -, hregs⟩ := adoptBay_of s hb j c
  exact ⟨⟨hregs, hrest⟩, hing, hcarts⟩

theorem readLabel_read {s : State} (hb : b < 2) {c : Cart} (hc : s.cart? b = some c) : CartRead s (s.readLabel b) b := by
  by_cases hkeep : s.seed = none ∨ s.billet = none
  · rw [readLabel_keep hkeep]
    exact ⟨.refl _ s, rfl, fun _ _ => rfl⟩
  · obtain ⟨hseed, hbillet⟩ := not_or.mp hkeep
    obtain ⟨bl, hbl⟩ := Option.ne_none_iff_exists'.mp hbillet
    rw [readLabel_of hc (Option.isSome_iff_ne_none.mpr hseed) hbl]
    split
    · exact .put _ _
    · split
      · split
        · exact adoptBay_read s hb _ c
        · exact .put _ _
      · exact .put _ _

/-- A cartridge whose identity fails is ID_FAIL, and raised. -/
def failId (s : State) (b gen : Nat) : State := (s.put (Reg.ingBayStateCode b) 3).ingFault 0x64 b gen

theorem failId_of (s : State) (hb : b < 2) (gen : Nat) : let t := s.failId b gen
    CartRead s t b ∧ t.ing = s.ing ∧ t.out = s.out ∧ t.bayCode b = 3 ∧
    t.get64 (Reg.ingBayWrittenLo b) (Reg.ingBayWrittenHi b) = s.get64 (Reg.ingBayWrittenLo b) (Reg.ingBayWrittenHi b) ∧
    t.get64 Reg.ingBytesLo Reg.ingBytesHi = s.get64 Reg.ingBytesLo Reg.ingBytesHi ∧
    Raised s t srcIngot 0x64 clsC (b + gen % 2 ^ 32 * 2 ^ 8) := by
  have hing : (s.failId b gen).ing = s.ing := ingFault_ing ..
  have honly : OnlyIngots [Reg.ingBayStateCode b] s (s.failId b gen) := ((OnlyIngots.refl _ s).put (by simp) 3).raise _ _ _ _
  refine ⟨⟨honly.mono (by simp), by rw [hing], fun k _ => cart?_of_ing hing k⟩, hing, ingFault_out .., ?_, ?_, ?_, ?_⟩
  · exact (get_ingFault _ _ _ _ (by interval_cases b <;> decide)).trans (bayCode_put s b (by decide))
  · exact get64_of_sameRegsBut honly.1 (by interval_cases b <;> decide) (by interval_cases b <;> decide)
  · exact get64_of_sameRegsBut honly.1 (by interval_cases b <;> decide) (by interval_cases b <;> decide)
  · have hb2 : b % 2 = b := Nat.mod_eq_of_lt hb
    unfold failId ingFault
    rw [hb2]
    exact .of_raise (s := s) (t := s.put (Reg.ingBayStateCode b) 3) rfl rfl _ _ _ _

/-- The cartridge is seated, and its identity checked. -/
def checkCart (s : State) (b : Nat) (c : Cart) : State := if c.idOk then s.seatCart b c else (s.seatCart b c).failId b s.ingGen

theorem execControllerReady_eq {s : State} (hb : b < 2) (hup : s.domUp 13 = true) (hcode : s.bayCode b = 2) (hnone : s.cart? b = none) (c : Cart) :
    exec (.controllerReady b c) s = .next ((s.checkCart b c).readLabel b) := by
  have hgo : ¬ (2 ≤ b ∨ !s.domUp 13 ∨ s.bayCode b ≠ 2 ∨ (s.cart? b).isSome) := by
    rw [hup, hcode, hnone]
    simp [hb]
  change execControllerReady b c s = _
  unfold execControllerReady
  rw [if_neg hgo]
  rfl

theorem checkCart_read (s : State) (hb : b < 2) (c : Cart) :
    CartRead (s.seatCart b c) (s.checkCart b c) b ∧ (s.checkCart b c).cart? b = some c := by
  obtain ⟨-, -, hcart, -⟩ := seatCart_of s hb c
  unfold checkCart
  split
  · exact ⟨⟨.refl _ _, rfl, fun _ _ => rfl⟩, hcart⟩
  · obtain ⟨hread, hing, -⟩ := failId_of (s.seatCart b c) hb s.ingGen
    exact ⟨hread, (cart?_of_ing hing b).trans hcart⟩

/-- What every controller that is ready shows. -/
theorem controllerReady_read (s : State) (hb : b < 2) (c : Cart) : let t := (s.checkCart b c).readLabel b
    OnlyIngots (Reg.ingBayStateCode b :: Reg.ingBytesLo :: Reg.ingBytesHi :: cartRegs b) s t ∧
    { t.ing with carts := s.ing.carts } = s.ing ∧ (∀ k, k ≠ b → t.cart? k = s.cart? k) ∧ Gives t b c := by
  obtain ⟨hing, hcarts, -, -⟩ := seatCart_of s hb c
  obtain ⟨hcheck, hcart⟩ := checkCart_read s hb c
  obtain ⟨honly, king, kcarts⟩ := hcheck.trans (readLabel_read hb hcart)
  refine ⟨((seatCart_only s b c).mono (by simp [cartRegs])).trans (honly.mono (by simp [cartRegs])),
    (congrArg (fun v : Ing => { v with carts := s.ing.carts }) king :).trans hing, fun k hk => (kcarts k hk).trans (hcarts k hk), ?_⟩
  exact (seatCart_gives s hb c).of_same fun f hf => honly.1 f (givenRegs_not_read hb f hf)

/-- The seed, the billet and the address stand while a cartridge is seated. -/
theorem seatCart_job (s : State) (hb : b < 2) (c : Cart) : (s.seatCart b c).seed = s.seed ∧ (s.seatCart b c).billet = s.billet ∧
    (s.seatCart b c).addr = s.addr ∧ (s.seatCart b c).cad = s.cad :=
  ⟨(congrArg State.seed (seatCart_only s b c).2 :), (congrArg State.billet (seatCart_only s b c).2 :),
    (seatCart_only s b c).1 _ (by interval_cases b <;> decide), (congrArg State.cad (seatCart_only s b c).2 :)⟩

/-- The bytes shown for a new cartridge, of which `n` have been written since. -/
abbrev ShowsWritten (s t : State) (b : Nat) (c : Cart) (n : Nat) : Prop :=
  t.get64 (Reg.ingBayWrittenLo b) (Reg.ingBayWrittenHi b) = (c.written % 2 ^ 64 + n) % 2 ^ 64 ∧
  t.get64 Reg.ingBytesLo Reg.ingBytesHi = (if n = 0 then s.get64 Reg.ingBytesLo Reg.ingBytesHi
    else min (s.get64 Reg.ingBytesLo Reg.ingBytesHi + n) (2 ^ 64 - 1))

/-- A new cartridge is in its bay as it came. -/
abbrev KeepsCart (s t : State) (b : Nat) (c : Cart) : Prop := t.cart? b = some c ∧ t.out = s.out ∧ ShowsWritten s t b c 0

theorem seatCart_keeps (s : State) (hb : b < 2) (c : Cart) : KeepsCart s (s.seatCart b c) b c := by
  obtain ⟨-, -, hcart, hout, -, hw, hbytes, -⟩ := seatCart_of s hb c
  exact ⟨hcart, hout, hw.trans (by omega), hbytes⟩

theorem KeepsCart.put {s t : State} {c : Cart} (h : KeepsCart s t b c) (hb : b < 2) (code : Nat) :
    KeepsCart s (t.put (Reg.ingBayStateCode b) code) b c := by
  obtain ⟨hcart, hout, hw, hbytes⟩ := h
  refine ⟨hcart, hout, ?_, ?_⟩
  · exact (get64_put_ne _ (by interval_cases b <;> decide) (by interval_cases b <;> decide) _).trans hw
  · exact (get64_put_ne _ (by interval_cases b <;> decide) (by interval_cases b <;> decide) _).trans hbytes

/-- A cartridge whose identity fails. -/
theorem controllerReady_badId {s : State} (hb : b < 2) {c : Cart} (hid : c.idOk = false) : let t := (s.checkCart b c).readLabel b
    t.bayCode b = 3 ∧ KeepsCart s t b c ∧
    (100 * c.written ≤ 95 * (c.rated % 2 ^ 64) → Raised s t srcIngot 0x64 clsC (b + s.ingGen % 2 ^ 32 * 2 ^ 8)) := by
  obtain ⟨hcart, hout, hw, hbytes⟩ := seatCart_keeps s hb c
  obtain ⟨-, -, -, -, -, -, -, hq⟩ := seatCart_of s hb c
  obtain ⟨-, -, -, hcad⟩ := seatCart_job s hb c
  obtain ⟨-, hing, fout, hcode, fw, fbytes, hraised⟩ := failId_of (s.seatCart b c) hb s.ingGen
  have hcheck : s.checkCart b c = (s.seatCart b c).failId b s.ingGen := if_neg (by simp [hid])
  have hkeeps : KeepsCart s (s.checkCart b c) b c := by
    rw [hcheck]
    exact ⟨(cart?_of_ing hing b).trans hcart, fout.trans hout, fw.trans hw, fbytes.trans hbytes⟩
  have hfault : 100 * c.written ≤ 95 * (c.rated % 2 ^ 64) → Raised s (s.checkCart b c) srcIngot 0x64 clsC (b + s.ingGen % 2 ^ 32 * 2 ^ 8) :=
    fun hle => by
      rw [hcheck]
      exact .of_same (hq hle) hcad hraised
  rw [← hcheck] at hcode
  by_cases hkeep : (s.checkCart b c).seed = none ∨ (s.checkCart b c).billet = none
  · rw [readLabel_keep hkeep]
    exact ⟨hcode, hkeeps, hfault⟩
  · obtain ⟨hseed, hbillet⟩ := not_or.mp hkeep
    obtain ⟨bl, hbl⟩ := Option.ne_none_iff_exists'.mp hbillet
    rw [readLabel_of hkeeps.1 (Option.isSome_iff_ne_none.mpr hseed) hbl, if_pos hid]
    exact ⟨bayCode_put _ b (by decide), hkeeps.put hb 3, fun hle => (hfault hle).of_faultQ rfl⟩

theorem checkCart_good {s : State} {c : Cart} (hid : c.idOk = true) : s.checkCart b c = s.seatCart b c := if_pos hid

/-- The label that a bay adopts its cartridge with. -/
abbrev adopted (s : State) (bl : Billet) (c : Cart) : Cart :=
  { c with label := some { job := bl.jobId, addr := s.addr, tagOk := true }, gens := [], last := 0 }

/-- A cartridge whose label the job key reads. -/
theorem controllerReady_label {s : State} (hb : b < 2) {c : Cart} (hid : c.idOk = true) {bl : Billet} (hs : s.seed.isSome = true)
    (hbl : s.billet = some bl) : let t := (s.checkCart b c).readLabel b
    (c.label = none → c.lifeOk = true → t.bayCode b = 6 ∧ t.out = s.out ++ [.zone b 2 0, .label b bl.jobId s.addr] ∧
      t.cart? b = some (s.adopted bl c) ∧ ShowsWritten s t b c 4096) ∧
    (c.label = none → c.lifeOk = false → t.bayCode b = 4 ∧ KeepsCart s t b c) ∧
    (∀ l, c.label = some l → KeepsCart s t b c ∧ t.bayCode b = s.labelCode bl l) := by
  have hkeeps := seatCart_keeps s hb c
  obtain ⟨hcart, hout, hw, hbytes⟩ := seatCart_keeps s hb c
  obtain ⟨kseed, kbillet, kaddr, -⟩ := seatCart_job s hb c
  rw [checkCart_good hid, readLabel_of hcart (by rw [kseed, hs]) (kbillet.trans hbl), if_neg (by simp [hid])]
  refine ⟨fun hl hlife => ?_, fun hl hlife => ?_, fun l hl => ?_⟩ <;> rw [hl]
  · obtain ⟨-, -, -, acode, aout, acart, aw, abytes, -⟩ := adoptBay_of (s.seatCart b c) hb bl.jobId c
    dsimp only
    rw [if_pos hlife]
    refine ⟨acode, ?_, ?_, ?_, ?_⟩
    · rw [aout, hout, kaddr]
    · rw [acart, kaddr]
    · rw [aw, hw]; omega
    · rw [abytes, hbytes.trans (if_pos rfl)]
      exact (if_neg (by decide)).symm
  · dsimp only
    rw [if_neg (by simp [hlife])]
    exact ⟨bayCode_put _ b (by decide), hkeeps.put hb 4⟩
  · dsimp only
    have hcode : (s.seatCart b c).labelCode bl l = s.labelCode bl l := by
      unfold labelCode
      rw [kaddr]
    rw [hcode]
    exact ⟨hkeeps.put hb _, bayCode_put _ b (labelCode_lt ..)⟩

/-! ## A wipe -/

/-- Every zone of a bay is reset, and its label is gone. -/
def wiped (s : State) (b : Nat) (c : Cart) : State :=
  ((s.emit (.zone b 2 0)).setCart b { c with label := none, gens := [], last := 0 }).put (Reg.ingBayStateCode b) 2

theorem execWipe_eq {s : State} (hb : b < 2) {c : Cart} (hc : s.cart? b = some c) (hcode : s.bayCode b = 4 ∨ s.bayCode b = 5)
    (hl : s.life ≠ .running) (ha : s.alive = true) : exec (.wipe b) s = .next ((s.wiped b c).readLabel b) := by
  change execWipe b s = _
  unfold execWipe wipeBay
  rw [if_neg (by omega), hc]
  dsimp only
  rw [if_pos ⟨hcode, hl, ha⟩]
  rfl

theorem execWipe_void {s : State} (hb : b < 2)
    (h : ¬ ((s.bayCode b = 4 ∨ s.bayCode b = 5) ∧ s.life ≠ .running ∧ s.alive = true ∧ s.cart? b ≠ none)) : exec (.wipe b) s = .next s := by
  change execWipe b s = _
  unfold execWipe wipeBay
  rw [if_neg (by omega)]
  split
  next c hc =>
    rw [if_neg]
    exact fun ⟨hcode, hl, ha⟩ => h ⟨hcode, hl, ha, by simp [hc]⟩
  next => rfl

theorem wiped_of (s : State) (hb : b < 2) (c : Cart) : CartRead s (s.wiped b c) b ∧ (s.wiped b c).bayCode b = 2 ∧
    (s.wiped b c).out = s.out ++ [.zone b 2 0] ∧ (s.wiped b c).cart? b = some { c with label := none, gens := [], last := 0 } ∧
    (s.wiped b c).addr = s.addr :=
  ⟨⟨(((OnlyIngots.refl _ s).emit _).setCart (by simp) _).put (by simp) _, rfl, fun _ hk => cart?_setCart_ne _ hk _⟩,
    bayCode_put _ b (by decide), rfl, cart?_setCart_same _ _ _,
    (get_put_ne _ _ (by interval_cases b <;> decide)).trans (get_put_ne _ _ (by interval_cases b <;> decide))⟩

theorem wiped_keep {s : State} (hb : b < 2) {c : Cart} (h : s.seed = none ∨ s.billet = none ∨ c.idOk = false ∨ c.lifeOk = false) :
    let t := (s.wiped b c).readLabel b
    t.cart? b = some { c with label := none, gens := [], last := 0 } ∧ t.out = s.out ++ [.zone b 2 0] ∧
    t.bayCode b = if s.seed = none ∨ s.billet = none then 2 else if c.idOk then 4 else 3 := by
  obtain ⟨-, hcode, hout, hcart, -⟩ := wiped_of s hb c
  by_cases hkeep : s.seed = none ∨ s.billet = none
  · rw [readLabel_keep (s := s.wiped b c) hkeep, if_pos hkeep]
    exact ⟨hcart, hout, hcode⟩
  · obtain ⟨hseed, hbillet⟩ := not_or.mp hkeep
    obtain ⟨bl, hbl⟩ := Option.ne_none_iff_exists'.mp hbillet
    rw [readLabel_of hcart (show (s.wiped b c).seed.isSome = true from Option.isSome_iff_ne_none.mpr hseed) (bl := bl) hbl, if_neg hkeep]
    dsimp only
    rcases Bool.eq_false_or_eq_true c.idOk with hid | hid
    · have hlife : c.lifeOk = false := by
        rcases h with h | h | h | h
        · exact absurd h hseed
        · exact absurd h hbillet
        · rw [hid] at h; exact absurd h (by decide)
        · exact h
      rw [if_neg (by simp [hid]), if_neg (by simp [hlife]), if_pos hid]
      exact ⟨hcart, hout, bayCode_put _ b (by decide)⟩
    · rw [if_pos hid, if_neg (by simp [hid])]
      exact ⟨hcart, hout, bayCode_put _ b (by decide)⟩

theorem wiped_adopts {s : State} (hb : b < 2) {c : Cart} {bl : Billet} (hs : s.seed.isSome = true) (hbl : s.billet = some bl)
    (hid : c.idOk = true) (hlife : c.lifeOk = true) : let t := (s.wiped b c).readLabel b
    t.bayCode b = 6 ∧ t.cart? b = some (s.adopted bl c) ∧ t.out = s.out ++ [.zone b 2 0, .zone b 2 0, .label b bl.jobId s.addr] := by
  obtain ⟨-, -, hout, hcart, haddr⟩ := wiped_of s hb c
  obtain ⟨-, -, -, acode, aout, acart, -⟩ := adoptBay_of (s.wiped b c) hb bl.jobId { c with label := none, gens := [], last := 0 }
  rw [readLabel_of hcart (s := s.wiped b c) hs hbl, if_neg (by simp [hid])]
  dsimp only
  rw [if_pos hlife]
  refine ⟨acode, ?_, ?_⟩
  · rw [acart, haddr]
  · rw [aout, hout, haddr, List.append_assoc]; rfl

/-! ## A bay that goes off -/

theorem ejectReg_not_cart (hb : b < 2) : (∀ f ∈ cartRegs b, f.key ≠ (Reg.ingBayCtrlEject b).key) ∧
    (Reg.ingBayStateCode b).key ≠ (Reg.ingBayCtrlEject b).key := by
  interval_cases b <;> decide

theorem cartRegs_not_drop (hb : b < 2) : (∀ f ∈ cartRegs b, ∀ g ∈ dropRegs, f.key ≠ g.key) ∧
    ∀ g ∈ dropRegs, (Reg.ingBayStateCode b).key ≠ g.key := by
  interval_cases b <;> decide

theorem bayOff_put_eject {u m : State} {code : Nat} (h : BayOff u m b code) (hb : b < 2) (v : Nat) :
    BayOff u (m.put (Reg.ingBayCtrlEject b) v) b code := by
  obtain ⟨hcode, hrst, hnone, hcarts, hing, hrest⟩ := h
  obtain ⟨hcart, hstate⟩ := ejectReg_not_cart hb
  exact ⟨(get_put_ne _ _ hstate).trans hcode, fun f hf => (get_put_ne _ _ (hcart f hf)).trans (hrst f hf), hnone, hcarts, hing, hrest⟩

theorem bayOff_ingFault {u m : State} {code : Nat} (h : BayOff u m b code) (hb : b < 2) (kind bay gen : Nat) :
    BayOff u (m.ingFault kind bay gen) b code := by
  obtain ⟨hcode, hrst, hnone, hcarts, hing, hrest⟩ := h
  obtain ⟨hcart, hstate⟩ := cartRegs_not_drop hb
  have hi : (m.ingFault kind bay gen).ing = m.ing := ingFault_ing ..
  have honly : OnlyIngots [] m (m.ingFault kind bay gen) := (OnlyIngots.refl _ _).raise _ _ _ _
  refine ⟨(get_ingFault _ _ _ _ hstate).trans hcode, fun f hf => (get_ingFault _ _ _ _ (hcart f hf)).trans (hrst f hf),
    (cart?_of_ing hi b).trans hnone, fun k hk => (cart?_of_ing hi k).trans (hcarts k hk), by rw [hi]; exact hing, ?_⟩
  let kept : State → State := fun v => { v with regs := u.regs, ing := u.ing, faultQ := u.faultQ, out := u.out }
  exact (congrArg kept honly.2 :).trans hrest

/-- The bay after its cartridge has gone: the ejection bit falls with presence. -/
def removed (u : State) (b : Nat) : State := (u.clearBay b 0).put (Reg.ingBayCtrlEject b) 0

theorem removed_of (u : State) (hb : b < 2) : BayOff u (u.removed b) b 0 ∧ (u.removed b).get (Reg.ingBayCtrlEject b) = 0 ∧
    (u.removed b).out = u.out ∧ (u.removed b).faultQ = u.faultQ ∧
    SameRegsBut (Reg.ingBayStateCode b :: Reg.ingBayCtrlEject b :: cartRegs b) u (u.removed b) := by
  obtain ⟨hoff, hregs, hout, hq⟩ := clearBay_of u hb (code := 0) (by decide)
  unfold removed
  generalize u.clearBay b 0 = m at hoff hregs hout hq
  refine ⟨bayOff_put_eject hoff hb 0, (get_put_same ..).trans (Nat.zero_mod _), hout, hq, (hregs.mono ?_).put _ _ (by simp)⟩
  intro f hf
  rcases List.mem_cons.mp hf with rfl | hf
  · exact List.mem_cons_self
  · exact List.mem_cons_of_mem _ (List.mem_cons_of_mem _ hf)

/-- The bay after an overload, which is raised. -/
def overloaded (u : State) (b gen : Nat) : State := ((u.clearBay b 9).emit (.bayPower b false)).ingFault 0x67 b gen

theorem overloaded_of (u : State) (hb : b < 2) (gen : Nat) : BayOff u (u.overloaded b gen) b 9 ∧
    (u.overloaded b gen).out = u.out ++ [.bayPower b false] ∧
    Raised u (u.overloaded b gen) srcIngot 0x67 clsC (b + gen % 2 ^ 32 * 2 ^ 8) ∧
    SameRegsBut (dropRegs ++ Reg.ingBayStateCode b :: cartRegs b) u (u.overloaded b gen) := by
  obtain ⟨hoff, hregs, hout, hq⟩ := clearBay_of u hb (code := 9) (by decide)
  unfold overloaded
  generalize u.clearBay b 9 = m at hoff hregs hout hq
  have hemit : BayOff u (m.emit (.bayPower b false)) b 9 := by
    obtain ⟨hcode, hrst, hnone, hcarts, hing, hrest⟩ := hoff
    exact ⟨hcode, hrst, hnone, hcarts, hing, hrest⟩
  obtain ⟨-, -, -, -, -, hrest⟩ := hoff
  have hcad : m.cad = u.cad := (congrArg State.cad hrest :)
  have honly : OnlyIngots [] (m.emit (.bayPower b false)) ((m.emit (.bayPower b false)).ingFault 0x67 b gen) := (OnlyIngots.refl _ _).raise _ _ _ _
  refine ⟨bayOff_ingFault hemit hb _ _ _, ?_, ?_, ?_⟩
  · rw [ingFault_out, ← hout]; rfl
  · have hb2 : b % 2 = b := Nat.mod_eq_of_lt hb
    unfold State.ingFault
    rw [hb2]
    exact .of_raise (s := u) (t := m.emit (.bayPower b false)) hq hcad _ _ _ _
  · exact (hregs.mono (List.subset_append_right _ _)).trans (((SameRegsBut.of_regs (s := m) rfl).trans honly.1).mono
      (List.append_subset.mpr ⟨List.subset_append_left _ _, List.nil_subset _⟩))

theorem execCartridgeRemove_eq {s : State} (hb : b < 2) (hcode : s.bayCode b ≠ 0) :
    exec (.cartridgeRemove b) s = .next ((s.dropBay b).removed b) := by
  change execCartridgeRemove b s = _
  unfold execCartridgeRemove
  rw [if_neg (by omega)]
  rfl

theorem execBayOverload_eq {s : State} (hb : b < 2) (hlo : 1 ≤ s.bayCode b) (hhi : s.bayCode b < 8) :
    exec (.bayOverload b) s = .next ((s.dropBay b).overloaded b s.ingGen) := by
  change execBayOverload b s = _
  unfold execBayOverload
  rw [if_neg (by omega)]
  rfl

/-- The bay after an ejection: its power goes off. -/
def ejected (u : State) (b : Nat) : State := (u.clearBay b 8).emit (.bayPower b false)

theorem ejected_of (u : State) (hb : b < 2) : BayOff u (u.ejected b) b 8 ∧ (u.ejected b).out = u.out ++ [.bayPower b false] ∧
    (u.ejected b).faultQ = u.faultQ ∧ SameRegsBut (Reg.ingBayStateCode b :: cartRegs b) u (u.ejected b) := by
  obtain ⟨⟨hcode, hrst, hnone, hcarts, hing, hrest⟩, hregs, hout, hq⟩ := clearBay_of u hb (code := 8) (by decide)
  unfold ejected
  generalize u.clearBay b 8 = m at hcode hrst hnone hcarts hing hrest hregs hout hq
  refine ⟨⟨hcode, hrst, hnone, hcarts, hing, hrest⟩, ?_, hq, hregs⟩
  rw [← hout]
  rfl

theorem execEjectComplete_eq {s : State} (hb : b < 2) (hflag : s.flag (Reg.ingBayCtrlEject b) = true) (hlo : 1 ≤ s.bayCode b)
    (hhi : s.bayCode b < 8) (hused : ¬ ∃ g, s.ing.cur = some g ∧ b ∈ g.bays) (ha : s.alive = true) :
    exec (.ejectComplete b) s = .next (s.ejected b) := by
  change execEjectComplete b s = _
  unfold execEjectComplete
  cases hc : s.ing.cur with
  | none => 
    dsimp only
    rw [if_neg]
    · rfl
    · simp [hflag, ha]
      omega
  | some g =>
    have hg : g.bays.contains b = false := by
      by_contra h
      exact hused ⟨g, hc, by simpa using h⟩
    dsimp only
    rw [if_neg]
    · rfl
    · rw [hg]
      simp [hflag, ha]
      omega

theorem execEjectComplete_void {s : State}
    (h : ¬ (s.flag (Reg.ingBayCtrlEject b) = true ∧ 1 ≤ s.bayCode b ∧ s.bayCode b < 8 ∧ ¬ (∃ g, s.ing.cur = some g ∧ b ∈ g.bays) ∧ s.alive = true)) :
    exec (.ejectComplete b) s = .next s := by
  change execEjectComplete b s = _
  unfold execEjectComplete
  refine if_pos ?_
  by_contra hno
  simp only [not_or] at hno
  obtain ⟨-, hflag, h0, h8, hused, ha⟩ := hno
  refine h ⟨by simpa using hflag, by omega, by omega, ?_, by simpa using ha⟩
  rintro ⟨g, hc, hg⟩
  rw [hc] at hused
  exact hused (by simpa using hg)

end State

open State in
/-- Settles O49: case by case of a bay's state, through what the reading of a label, the loss of a bay and its clearing change. -/
theorem cartridgesComeAndGo : Obligations.CartridgesComeAndGo := by
  intro s b hb code mark adopt
  have hnot : ¬ 2 ≤ b := by omega
  refine ⟨fun h => ?_, fun h => ?_, fun c h => ?_, fun hup => ⟨fun h => ?_, fun h => ?_, fun c hcode hnone => ?_⟩, fun h => ?_, fun h => ?_,
    fun h => ?_, fun hlo hhi => ?_, fun h => ?_, fun h => ?_, ⟨fun h => execEjectComplete_void h, fun hgoes => ?_⟩, execWipe_void hb,
    fun c hc hcode hl ha => ?_⟩
  · change execCartridgeInsert b s = _
    unfold execCartridgeInsert
    exact if_pos (.inr (h.imp (by simp [·]) id))
  · change execPerstRelease b s = _
    unfold execPerstRelease
    exact if_pos (.inr (h.imp (by simp [·]) id))
  · change execControllerReady b c s = _
    unfold execControllerReady
    exact if_pos (.inr (h.imp (by simp [·]) (Or.imp id fun hne => by simpa [Option.isSome_iff_ne_none] using hne)))
  · change execCartridgeInsert b s = _
    unfold execCartridgeInsert
    have hinserts : ((s.emit (.bayPower b true)).put (Reg.ingBayStateCode b) 1).get (Reg.ingBayInserts b) = s.get (Reg.ingBayInserts b) :=
      get_put_ne _ _ (by interval_cases b <;> decide)
    rw [if_neg (by simp [hup, hb]; exact h)]
    unfold State.count
    rw [hinserts]
    rfl
  · change execPerstRelease b s = _
    unfold execPerstRelease
    rw [if_neg (by simp [hup, hb]; exact h)]
    rfl
  · obtain ⟨honly, hing, hcarts, hw, hp, hr, hlife, hz, hcap⟩ := controllerReady_read s hb c
    refine ⟨_, execControllerReady_eq hb hup hcode hnone c, honly, hing, hcarts, hw, hp, hr, hlife, hz, hcap, ?_⟩
    refine ⟨controllerReady_badId hb, fun hid hno => ?_, fun bl hid hs hbl => controllerReady_label hb hid hs hbl⟩
    obtain ⟨kseed, kbillet, -⟩ := seatCart_job s hb c
    obtain ⟨-, -, -, -, hsame, -⟩ := seatCart_of s hb c
    rw [checkCart_good hid, readLabel_keep (hno.imp kseed.trans kbillet.trans)]
    exact ⟨hsame.trans hcode, seatCart_keeps s hb c⟩
  · change execCartridgeRemove b s = _
    unfold execCartridgeRemove
    exact if_pos (.inr h)
  · change execBayOverload b s = _
    unfold execBayOverload
    exact if_pos (.inr h)
  · obtain ⟨hoff, hbit, hout, hq, hregs⟩ := removed_of (s.dropBay b) hb
    exact ⟨_, execCartridgeRemove_eq hb h, dropBay_lost s hb, hoff, hbit, hout, hq, hregs⟩
  · obtain ⟨hoff, hout, hraised, hregs⟩ := overloaded_of (s.dropBay b) hb s.ingGen
    exact ⟨_, execBayOverload_eq hb hlo hhi, dropBay_lost s hb, hoff, hout, hraised, hregs⟩
  · change execEject b s = _
    unfold execEject ejectBay
    rw [if_neg hnot, if_pos h]
  · change execEject b s = _
    unfold execEject ejectBay
    rw [if_neg hnot, if_neg h]
  · obtain ⟨hflag, hlo, hhi, hused, ha⟩ := hgoes
    exact ⟨_, execEjectComplete_eq hb hflag hlo hhi hused ha, ejected_of s hb⟩
  · obtain ⟨hwiped, -, -, hcart, -⟩ := wiped_of s hb c
    obtain ⟨honly, hing, hcarts⟩ := hwiped.trans (readLabel_read hb hcart)
    refine ⟨_, execWipe_eq hb hc hcode hl ha, honly.mono (by simp [cartRegs]), hing, hcarts, wiped_keep hb,
      fun bl hs hbl hid hlife => wiped_adopts hb hs hbl hid hlife⟩

end Sys2Proof.Machine
end

section
/-!
SUPPORT. Proofs: the appends of a bay that go out (R373). -/

namespace Sys2Proof.Machine

namespace State

variable {s t : State} {g : GenRun} {b : Nat}

/-- What a record's header and tag are made of. -/
abbrev SameJob (s t : State) : Prop := t.addr = s.addr ∧ t.billet = s.billet ∧ t.seed = s.seed

/-- The append of a record goes out. -/
abbrev appendOut (s : State) (g : GenRun) (b : Nat) (r : IngRec) : Out := .append b r.zone (s.recHead g r) r.payload (s.recTag g r)

theorem appendOut_of_sameJob (h : SameJob s t) (g h' : GenRun) (hg : (h'.gen, h'.step, h'.policy, h'.salt) = (g.gen, g.step, g.policy, g.salt))
    (b : Nat) (r : IngRec) : t.appendOut h' b r = s.appendOut g b r := by
  obtain ⟨ha, hb, hs⟩ := h
  simp only [Prod.mk.injEq] at hg
  obtain ⟨hgen, hstep, hpolicy, hsalt⟩ := hg
  have hjob : t.jobId = s.jobId := by unfold jobId; rw [hb]
  have hkey : t.jobKey = s.jobKey := by unfold jobKey; rw [hb, hs]
  have hhead : t.recHead h' r = s.recHead g r := by unfold recHead; rw [ha, hjob, hgen, hstep, hpolicy, hsalt]
  unfold appendOut recTag genKey
  rw [hhead, ha, hjob, hkey, hgen, hsalt]

/-- Bay `b`'s appends of a generation have gone: the records leave what is to do and are in flight, and the cartridge's last zone is
that of the last. -/
structure Pumps (s t : State) (g : GenRun) (b : Nat) (sent : List IngRec) : Prop where
  only : OnlyIngots [Reg.ingBayZonesFree b] s t
  faultQ : t.faultQ = s.faultQ
  ing : t.ing = { s.ing with cur := some { g with todo := sent.foldl List.erase g.todo, flight := g.flight ++ sent }, carts := t.ing.carts }
  out : t.out = s.out ++ sent.map (s.appendOut g b)
  others : ∀ k, k ≠ b → t.cart? k = s.cart? k
  cart : ∀ c, s.cart? b = some c → ∃ d, t.cart? b = some d ∧ { d with last := c.last, gens := c.gens } = c ∧
    d.last = (sent.getLast?.map IngRec.zone).getD c.last

/-- No append goes. -/
theorem Pumps.none (hcur : s.ing.cur = some g) (b : Nat) : Pumps s s g b [] where
  only := .refl _ s
  faultQ := rfl
  ing := by
    have hsame : { g with todo := g.todo, flight := g.flight ++ [] } = g := by rw [List.append_nil]
    change s.ing = { s.ing with cur := some { g with todo := g.todo, flight := g.flight ++ [] } }
    rw [hsame, ← hcur]
  out := (List.append_nil _).symm
  others := fun _ _ => rfl
  cart := fun c hc => ⟨c, hc, rfl, rfl⟩

/-- One record goes to its zone. -/
def pumpOne (s : State) (g : GenRun) (b : Nat) (r : IngRec) : State :=
  ((s.setCur (some { g with todo := g.todo.erase r, flight := g.flight ++ [r] })).noteZone g r).emit (s.appendOut g b r)

theorem noteZone_of (s : State) (g : GenRun) (r : IngRec) : let t := s.noteZone g r
    OnlyIngots [Reg.ingBayZonesFree r.bay] s t ∧ t.faultQ = s.faultQ ∧ t.out = s.out ∧ t.ing = { s.ing with carts := t.ing.carts } ∧
    (∀ k, k ≠ r.bay → t.cart? k = s.cart? k) ∧
    ∀ c, s.cart? r.bay = some c → ∃ d, t.cart? r.bay = some d ∧ { d with last := c.last, gens := c.gens } = c ∧ d.last = r.zone := by
  unfold noteZone
  cases hc : s.cart? r.bay with
  | none => exact ⟨.refl _ s, rfl, rfl, rfl, fun _ _ => rfl, fun c h => by simp at h⟩
  | some c =>
    refine ⟨(OnlyIngots.refl _ s).setCart (by simp) _, rfl, rfl, rfl, fun k hk => cart?_setCart_ne _ hk _, fun d hd => ?_⟩
    obtain rfl := Option.some.inj hd
    exact ⟨_, cart?_setCart_same _ _ _, rfl, rfl⟩

theorem pumpOne_pumps (s : State) (g : GenRun) {r : IngRec} (hr : r.bay = b) : Pumps s (s.pumpOne g b r) g b [r] := by
  obtain ⟨honly, hq, hout, hing, hothers, hcart⟩ :=
    noteZone_of (s.setCur (some { g with todo := g.todo.erase r, flight := g.flight ++ [r] })) g r
  rw [hr] at honly hothers hcart
  unfold pumpOne
  generalize (s.setCur (some { g with todo := g.todo.erase r, flight := g.flight ++ [r] })).noteZone g r = m at honly hq hout hing hothers hcart
  exact {
    only := (((OnlyIngots.refl _ s).setCur _).trans honly).emit _
    faultQ := hq
    ing := hing
    out := congrArg (· ++ [s.appendOut g b r]) hout
    others := hothers
    cart := fun c hc => by
      obtain ⟨d, hd, hsame, hlast⟩ := hcart c hc
      exact ⟨d, hd, hsame, hlast⟩ }

theorem Pumps.sameJob {sent : List IngRec} (hb : b < 2) (h : Pumps s t g b sent) : SameJob s t :=
  ⟨h.only.1 _ (by interval_cases b <;> decide), (congrArg State.billet h.only.2 :), (congrArg State.seed h.only.2 :)⟩

/-- A record goes first, and then others. -/
theorem Pumps.cons {m : State} {r : IngRec} {rest : List IngRec} (hb : b < 2) (h : Pumps s m g b [r])
    (k : Pumps m t { g with todo := g.todo.erase r, flight := g.flight ++ [r] } b rest) : Pumps s t g b (r :: rest) where
  only := h.only.trans k.only
  faultQ := k.faultQ.trans h.faultQ
  ing := by
    rw [k.ing, h.ing, List.append_assoc]
    rfl
  out := by
    have hsame : rest.map (m.appendOut { g with todo := g.todo.erase r, flight := g.flight ++ [r] } b) = rest.map (s.appendOut g b) :=
      List.map_congr_left fun x _ => appendOut_of_sameJob (h.sameJob hb) g _ rfl b x
    rw [k.out, h.out, List.append_assoc, hsame]
    rfl
  others := fun j hj => (k.others j hj).trans (h.others j hj)
  cart := fun c hc => by
    obtain ⟨d, hd, hsame, hlast⟩ := h.cart c hc
    obtain ⟨e, he, esame, elast⟩ := k.cart d hd
    refine ⟨e, he, ?_, ?_⟩
    · rw [← hsame, ← esame]
    · rw [elast, hlast, List.getLast?_cons (l := rest)]
      cases rest.getLast? <;> rfl

/-- The records of bay `b` that are still to go, and that may go while fewer than 64 are in flight (R373). -/
def pumpable (g : GenRun) (b : Nat) : List IngRec :=
  (g.todo.filter (fun r => r.bay == b)).take (64 - (g.flight.filter (fun r => r.bay == b)).length)

theorem pumpBay_pumps (hb : b < 2) : ∀ (k : Nat) (s : State) (g : GenRun), s.ing.cur = some g →
    64 ≤ k + (g.flight.filter (fun r => r.bay == b)).length → Pumps s (s.pumpBay b k) g b (pumpable g b) := by
  intro k
  induction k with
  | zero =>
    intro s g hcur hk
    have hnone : pumpable g b = [] := by
      unfold pumpable
      rw [Nat.sub_eq_zero_of_le (by omega), List.take_zero]
    rw [hnone]
    exact .none hcur b
  | succ k ih =>
    intro s g hcur hk
    unfold pumpBay
    rw [hcur]
    dsimp only
    by_cases hfull : 64 ≤ (g.flight.filter (fun r => r.bay == b)).length
    · have hnone : pumpable g b = [] := by
        unfold pumpable
        rw [Nat.sub_eq_zero_of_le hfull, List.take_zero]
      rw [if_pos hfull, hnone]
      exact .none hcur b
    rw [if_neg hfull]
    cases hfind : g.todo.find? (fun r => r.bay == b) with
    | none =>
      have hnone : pumpable g b = [] := by
        have htodo : g.todo.filter (fun r => r.bay == b) = [] := List.filter_eq_nil_iff.mpr (by simpa using hfind)
        unfold pumpable
        rw [htodo, List.take_nil]
      rw [hnone]
      exact .none hcur b
    | some r =>
      have hbay : r.bay = b := by simpa using List.find?_some hfind
      have hhead : (g.todo.filter (fun r => r.bay == b)).head? = some r := List.head?_filter.trans hfind
      obtain ⟨l, hl⟩ : ∃ l, g.todo.filter (fun r => r.bay == b) = r :: l := List.head?_eq_some_iff.mp hhead
      let h' : GenRun := { g with todo := g.todo.erase r, flight := g.flight ++ [r] }
      have hflight : (h'.flight.filter (fun r => r.bay == b)).length = (g.flight.filter (fun r => r.bay == b)).length + 1 := by
        rw [List.filter_append, List.length_append]
        simp [hbay]
      have htodo : h'.todo.filter (fun r => r.bay == b) = l := by
        rw [← List.erase_filter, hl, List.erase_cons_head]
      have hsent : pumpable g b = r :: pumpable h' b := by
        unfold pumpable
        rw [htodo, hflight, hl, ← List.take_succ_cons]
        congr 1
        omega
      have hone := pumpOne_pumps s g hbay
      have hcur' : (s.pumpOne g b r).ing.cur = some h' := by rw [hone.ing]; rfl
      rw [hsent]
      exact hone.cons hb (ih (s.pumpOne g b r) h' hcur' (by rw [hflight]; omega))

end State

end Sys2Proof.Machine
end

section
/-!
SUPPORT. Proofs: the appends, Flushes and failures of a generation (R365, R369, R371, R373). -/

namespace Sys2Proof.Machine

/-- The registers of Stock's errors (R254). -/
abbrev stockErrRegs : List Fld := [Reg.tmpStockCe, Reg.tmpStockUe, Reg.tmpStockLastUeLo, Reg.tmpStockLastUeHi]

/-- Checks of Stock's granules: its error registers, its poison and the faults raised alone may differ. -/
structure ChecksStock (s t : State) : Prop where
  regs : SameRegsBut (dropRegs ++ stockErrRegs) s t
  rest : { t with regs := s.regs, stockPoison := s.stockPoison, faultQ := s.faultQ } = s

namespace ChecksStock

theorem refl (s : State) : ChecksStock s s := ⟨.refl _ s, rfl⟩

theorem trans {r s t : State} (h : ChecksStock r s) (k : ChecksStock s t) : ChecksStock r t where
  regs := h.regs.trans k.regs
  rest := (congrArg (fun v : State => { v with regs := r.regs, stockPoison := r.stockPoison, faultQ := r.faultQ }) k.rest :).trans h.rest

theorem foldl {α : Type} {f : State → α → State} (hf : ∀ t a, ChecksStock t (f t a)) : ∀ (l : List α) (s : State), ChecksStock s (l.foldl f s)
  | [], s => .refl s
  | a :: l, s => (hf s a).trans (foldl hf l (f s a))

theorem raise {s t : State} (h : ChecksStock s t) (src kind cls addr : Nat) : ChecksStock s (t.raise src kind cls addr) := by
  refine h.trans ⟨?_, ?_⟩
  · unfold State.raise State.raiseMsg
    split
    · exact ((SameRegsBut.refl _ t).count _ _ (by simp [dropRegs])).put _ _ (by simp [dropRegs])
    · exact .of_regs rfl
  · rw [State.raise_upd]

end ChecksStock

/-- The job and the memories stand while the unit works. -/
theorem OnlyIngots.keeps {l : List Fld} {s t : State} (h : OnlyIngots l s t) :
    t.billet = s.billet ∧ t.seed = s.seed ∧ t.stockPoison = s.stockPoison :=
  ⟨(congrArg State.billet h.2 :), (congrArg State.seed h.2 :), (congrArg State.stockPoison h.2 :)⟩

theorem ChecksStock.keeps {s t : State} (h : ChecksStock s t) : t.billet = s.billet ∧ t.seed = s.seed ∧ t.ing = s.ing ∧ t.out = s.out :=
  ⟨(congrArg State.billet h.rest :), (congrArg State.seed h.rest :), (congrArg State.ing h.rest :), (congrArg State.out h.rest :)⟩

namespace State

theorem stockCheck_checks (s : State) (e : EccRes) : ChecksStock s (s.stockCheck e) := by
  unfold stockCheck
  dsimp only
  split
  · exact .refl s
  split
  · refine ChecksStock.raise ⟨?_, rfl⟩ _ _ _ _
    have hput : SameRegsBut (dropRegs ++ stockErrRegs) s ((s.count Reg.tmpStockUe).put64 Reg.tmpStockLastUeLo Reg.tmpStockLastUeHi (64 * e.granule)) :=
      (((SameRegsBut.refl _ s).put _ _ (by simp)).put _ _ (by simp)).put _ _ (by simp)
    exact hput.trans (.of_regs rfl)
  · exact ChecksStock.raise ⟨(SameRegsBut.refl _ s).put _ _ (by simp), rfl⟩ _ _ _ _

theorem stockChecks_checks (s : State) (a len : Nat) (l : List EccRes) : ChecksStock s (s.stockChecks a len l) :=
  .foldl stockCheck_checks _ s

theorem captureChecks_checks (s : State) (ecc : List EccRes) : ChecksStock s (s.captureChecks ecc) :=
  .foldl (f := fun t (r : Nat × Nat) => t.stockChecks r.1 r.2 ecc) (fun t r => stockChecks_checks t r.1 r.2 ecc) _ s

/-! ## An append that lands -/

variable {s : State} {b : Nat}

/-- The generation without a record that has landed. -/
abbrev without (g : GenRun) (r : IngRec) : GenRun := { g with flight := g.flight.erase r }

/-- A record of a generation has landed and is counted. -/
def landed (s : State) (ecc : List EccRes) (g : GenRun) (b : Nat) (r : IngRec) : State :=
  ((s.captureChecks ecc).setCur (some (without g r))).addWritten b (paddedLen r.payload)

theorem landed_of (s : State) (hb : b < 2) (ecc : List EccRes) (g : GenRun) (r : IngRec) : let v := s.landed ecc g b r
    v.get64 (Reg.ingBayWrittenLo b) (Reg.ingBayWrittenHi b) =
      (s.get64 (Reg.ingBayWrittenLo b) (Reg.ingBayWrittenHi b) + paddedLen r.payload) % 2 ^ 64 ∧
    v.get64 Reg.ingBytesLo Reg.ingBytesHi = min (s.get64 Reg.ingBytesLo Reg.ingBytesHi + paddedLen r.payload) (2 ^ 64 - 1) ∧
    v.get (Reg.ingBayStateLifeLow b) =
      (if s.wearsOut b (s.get64 (Reg.ingBayWrittenLo b) (Reg.ingBayWrittenHi b) + paddedLen r.payload) then 1 else s.get (Reg.ingBayStateLifeLow b)) ∧
    v.out = s.out ∧
    OnlyIngots [Reg.ingBayWrittenLo b, Reg.ingBayWrittenHi b, Reg.ingBayStateLifeLow b, Reg.ingBytesLo, Reg.ingBytesHi] (s.captureChecks ecc) v := by
  obtain ⟨hregs, hrest⟩ := captureChecks_checks s ecc
  unfold landed
  generalize s.captureChecks ecc = u at hregs hrest
  have hw : (u.setCur (some (without g r))).get64 (Reg.ingBayWrittenLo b) (Reg.ingBayWrittenHi b) =
      s.get64 (Reg.ingBayWrittenLo b) (Reg.ingBayWrittenHi b) :=
    get64_of_sameRegsBut (t := u) hregs (by interval_cases b <;> decide) (by interval_cases b <;> decide)
  have hbytes : (u.setCur (some (without g r))).get64 Reg.ingBytesLo Reg.ingBytesHi = s.get64 Reg.ingBytesLo Reg.ingBytesHi :=
    get64_of_sameRegsBut (t := u) hregs (by decide) (by decide)
  have hrated : (u.setCur (some (without g r))).get64 (Reg.ingBayRatedLo b) (Reg.ingBayRatedHi b) = s.get64 (Reg.ingBayRatedLo b) (Reg.ingBayRatedHi b) :=
    get64_of_sameRegsBut (t := u) hregs (by interval_cases b <;> decide) (by interval_cases b <;> decide)
  have hlow : (u.setCur (some (without g r))).get (Reg.ingBayStateLifeLow b) = s.get (Reg.ingBayStateLifeLow b) :=
    hregs _ (by interval_cases b <;> decide)
  obtain ⟨gw, gbytes, glow⟩ := addWritten_get (u.setCur (some (without g r))) hb (paddedLen r.payload)
  unfold wearsOut at glow ⊢
  rw [hw] at gw glow
  rw [hbytes] at gbytes
  rw [hrated, hlow] at glow
  exact ⟨gw, gbytes, glow, (addWritten_out ..).trans (congrArg State.out hrest :),
    ((OnlyIngots.refl _ u).setCur _).trans (addWritten_only _ b _)⟩

theorem captureBad_congr {s t : State} (hb : t.billet = s.billet) (hp : t.stockPoison = s.stockPoison) (g : GenRun) :
    t.captureBad g = s.captureBad g := by
  have hranges : captureRanges t = captureRanges s := by unfold captureRanges; rw [hb]
  have hbad : t.stockBad = s.stockBad := by unfold stockBad; rw [hp]
  unfold captureBad
  rw [hranges, hbad]

/-- What a landing leaves of the rest of the device. -/
theorem landed_rest (s : State) (hb : b < 2) (ecc : List EccRes) (g : GenRun) (r : IngRec) :
    (s.landed ecc g b r).ing = { s.ing with cur := some (without g r) } ∧
    (s.landed ecc g b r).captureBad g = (s.captureChecks ecc).captureBad g ∧ SameJob s (s.landed ecc g b r) ∧
    (s.landed ecc g b r).get Reg.ingStatusPhase = s.get Reg.ingStatusPhase := by
  obtain ⟨ubillet, useed, uing, -⟩ := (captureChecks_checks s ecc).keeps
  have hregs := (captureChecks_checks s ecc).regs
  obtain ⟨-, -, -, -, honly⟩ := landed_of s hb ecc g r
  obtain ⟨vbillet, vseed, vpoison⟩ := OnlyIngots.keeps honly
  have hing : (s.landed ecc g b r).ing = { (s.captureChecks ecc).ing with cur := some (without g r) } := addWritten_ing ..
  refine ⟨by rw [hing, uing], ?_, ⟨?_, vbillet.trans ubillet, vseed.trans useed⟩, ?_⟩
  · exact captureBad_congr vbillet vpoison g
  · exact (honly.1 _ (by interval_cases b <;> decide)).trans (hregs _ (by decide))
  · exact (honly.1 _ (by interval_cases b <;> decide)).trans (hregs _ (by decide))

/-! ## What a landing lets go on -/

/-- Bay `b`'s zone is finished where no other record of the generation goes to it. -/
def finishZone (v : State) (g : GenRun) (b : Nat) (r : IngRec) : State :=
  if !((g.todo ++ g.flight.erase r).any (fun x => x.bay == b && x.zone == r.zone)) then v.emit (.zone b 1 r.zone) else v

/-- The zone is finished, the next appends go, and Flush follows the last append of all. -/
def goesOn (v : State) (g : GenRun) (b : Nat) (r : IngRec) : State := ((v.finishZone g b r).pumpBay b 64).flushGen

theorem execZoneAppendComplete_none {s : State} (h : s.ing.cur = none) (b seq : Nat) (ecc : List EccRes) :
    exec (.zoneAppendComplete b seq ecc) s = .next s := by
  change execZoneAppendComplete b seq s ecc = _
  unfold execZoneAppendComplete
  rw [h]
  rfl

theorem execZoneAppendComplete_of {s : State} {g : GenRun} (h : s.ing.cur = some g) (b seq : Nat) (ecc : List EccRes) :
    exec (.zoneAppendComplete b seq ecc) s = (match g.flight.find? (fun r => r.bay == b && r.seq == seq) with
      | none => .next s
      | some r => .next (if s.alive = false then s.landed ecc g b r
          else if (s.landed ecc g b r).captureBad g then (s.landed ecc g b r).failGen b g else (s.landed ecc g b r).goesOn g b r)) := by
  change execZoneAppendComplete b seq s ecc = _
  unfold execZoneAppendComplete
  rw [h]
  dsimp only
  cases g.flight.find? (fun r => r.bay == b && r.seq == seq) with
  | none => rfl
  | some r =>
    dsimp only
    cases ha : s.alive
    · rfl
    · change (if (s.landed ecc g b r).captureBad g then _ else _) = _
      cases hbad : (s.landed ecc g b r).captureBad g <;> rfl

/-- The frames that finish a zone. -/
def zoneOut (g : GenRun) (b : Nat) (r : IngRec) : List Out :=
  if ∀ x ∈ g.todo ++ g.flight.erase r, ¬ (x.bay = b ∧ x.zone = r.zone) then [.zone b 1 r.zone] else []

theorem finishZone_of (v : State) (g : GenRun) (b : Nat) (r : IngRec) :
    v.finishZone g b r = { v with out := v.out ++ zoneOut g b r } := by
  unfold finishZone zoneOut
  by_cases h : ∀ x ∈ g.todo ++ g.flight.erase r, ¬ (x.bay = b ∧ x.zone = r.zone)
  · have hany : (g.todo ++ g.flight.erase r).any (fun x => x.bay == b && x.zone == r.zone) = false :=
      List.any_eq_false.mpr fun x hx => by simpa using h x hx
    rw [if_pos h, hany]
    rfl
  · have hany : (g.todo ++ g.flight.erase r).any (fun x => x.bay == b && x.zone == r.zone) = true := by
      by_contra hno
      refine h fun x hx => ?_
      have := List.any_eq_false.mp (Bool.not_eq_true _ ▸ hno) x hx
      simpa using this
    rw [if_neg h, hany, List.append_nil]
    rfl

theorem mem_zoneOut (g : GenRun) (b : Nat) (r : IngRec) :
    Out.zone b 1 r.zone ∈ zoneOut g b r ↔ ∀ x ∈ g.todo ++ g.flight.erase r, ¬ (x.bay = b ∧ x.zone = r.zone) := by
  unfold zoneOut
  split
  next h => exact ⟨fun _ => h, fun _ => List.mem_singleton.mpr rfl⟩
  next h => exact ⟨fun hm => absurd hm List.not_mem_nil, fun hall => absurd hall h⟩

theorem appendsOf_zoneOut (g : GenRun) (b : Nat) (r : IngRec) : appendsOf (zoneOut g b r) = [] := by
  unfold zoneOut
  split <;> rfl

theorem appendsOf_appends (l : List IngRec) (f : IngRec → List Byte) (k : IngRec → Nat) (b : Nat) :
    appendsOf (l.map (fun x => .append b x.zone (f x) x.payload (k x))) = l.map (fun x => .append b x.zone (f x) x.payload (k x)) := by
  refine List.filter_eq_self.mpr fun o ho => ?_
  obtain ⟨x, -, rfl⟩ := List.mem_map.mp ho
  rfl

theorem appendsOf_flushes (l : List Nat) : appendsOf (l.map Out.flush) = [] := by
  refine List.filter_eq_nil_iff.mpr fun o ho => ?_
  obtain ⟨x, -, rfl⟩ := List.mem_map.mp ho
  simp

theorem emit_flushes (l : List Nat) : ∀ s : State, l.foldl (fun t b => t.emit (.flush b)) s = { s with out := s.out ++ l.map Out.flush } := by
  induction l with
  | nil => exact fun s => by simp
  | cons b l ih =>
    intro s
    rw [List.foldl_cons, ih]
    simp [emit]

/-- Records that have gone leave a generation that is still to write. -/
theorem foldl_erase_empty (todo flight sent : List IngRec) (hs : sent = [] ∨ todo ≠ []) :
    (sent.foldl List.erase todo = [] ∧ flight ++ sent = []) ↔ todo ++ flight = [] := by
  constructor
  · rintro ⟨ht, hf⟩
    obtain ⟨hflight, hsent⟩ := List.append_eq_nil_iff.mp hf
    rw [hsent] at ht
    rw [hflight, show todo = [] from ht]
    rfl
  · intro h
    obtain ⟨htodo, hflight⟩ := List.append_eq_nil_iff.mp h
    have hsent : sent = [] := hs.resolve_right (fun hne => hne htodo)
    rw [hsent, htodo, hflight]
    exact ⟨rfl, rfl⟩

/-- The last append of all has landed: Flush is due at every bay (R369). -/
abbrev flushDue (g : GenRun) (r : IngRec) : Prop := g.todo ++ g.flight.erase r = [] ∧ g.flushing = []

/-- The unit once bay `b`'s appends have gone. -/
structure GoesOn (s v t : State) (g : GenRun) (b : Nat) (r : IngRec) : Prop where
  only : OnlyIngots [Reg.ingBayZonesFree b, Reg.ingStatusPhase] v t
  faultQ : t.faultQ = v.faultQ
  others : ∀ k, k ≠ b → t.cart? k = v.cart? k
  out : t.out = v.out ++ (zoneOut g b r ++ (pumpable (without g r) b).map (s.appendOut g b) ++
    if flushDue g r then g.bays.map Out.flush else [])
  cart : ∀ c, v.cart? b = some c → ∃ d, t.cart? b = some d ∧ { d with last := c.last, gens := c.gens } = c ∧
    d.last = ((pumpable (without g r) b).getLast?.map IngRec.zone).getD c.last
  writes : ¬ flushDue g r → t.get Reg.ingStatusPhase = v.get Reg.ingStatusPhase ∧ t.ing.cur =
    some { g with todo := (pumpable (without g r) b).foldl List.erase g.todo, flight := g.flight.erase r ++ pumpable (without g r) b }
  flushes : flushDue g r → t.get Reg.ingStatusPhase = 3 ∧ t.ing.cur = some { g with flight := [], flushing := g.bays }

theorem pumpable_nil {g : GenRun} (h : g.todo = []) (r : IngRec) (b : Nat) : pumpable (without g r) b = [] := by
  have hnone : (without g r).todo.filter (fun x => x.bay == b) = [] := by
    rw [show (without g r).todo = [] from h]
    rfl
  unfold pumpable
  rw [hnone, List.take_nil]

/-- What a generation is once the appends of a bay have gone. -/
theorem pumped_empty (g : GenRun) (b : Nat) (r : IngRec) : let sent := pumpable (without g r) b
    (((sent.foldl List.erase g.todo).isEmpty && (g.flight.erase r ++ sent).isEmpty && g.flushing.isEmpty) = true) ↔ flushDue g r := by
  intro sent
  have hs : sent = [] ∨ g.todo ≠ [] := by
    by_cases ht : g.todo = []
    · exact .inl (pumpable_nil ht r b)
    · exact .inr ht
  rw [Bool.and_eq_true, Bool.and_eq_true, List.isEmpty_iff, List.isEmpty_iff, List.isEmpty_iff, foldl_erase_empty _ _ _ hs]

theorem goesOn_of {v : State} (hb : b < 2) {g : GenRun} {r : IngRec} (hcur : v.ing.cur = some (without g r)) (hjob : SameJob s v) :
    GoesOn s v (v.goesOn g b r) g b r := by
  have hpump := pumpBay_pumps hb 64 (v.finishZone g b r) (without g r) (by rw [finishZone_of]; exact hcur) (by omega)
  unfold goesOn
  generalize hz : v.finishZone g b r = z at hpump
  rw [finishZone_of] at hz
  subst hz
  generalize { v with out := v.out ++ zoneOut g b r }.pumpBay b 64 = m at hpump
  obtain ⟨honly, hq, hing, hout, hothers, hcart⟩ := hpump
  have hsent : (pumpable (without g r) b).map ({ v with out := v.out ++ zoneOut g b r }.appendOut (without g r) b) =
      (pumpable (without g r) b).map (s.appendOut g b) :=
    List.map_congr_left fun x _ => appendOut_of_sameJob (t := { v with out := v.out ++ zoneOut g b r }) hjob g _ rfl b x
  rw [hsent, List.append_assoc] at hout
  have honly' : OnlyIngots [Reg.ingBayZonesFree b, Reg.ingStatusPhase] v m :=
    ⟨(honly.mono (m := [Reg.ingBayZonesFree b, Reg.ingStatusPhase]) (by simp)).1, (congrArg (fun w : State => { w with out := v.out }) honly.2 :)⟩
  have hphase : m.get Reg.ingStatusPhase = v.get Reg.ingStatusPhase := honly.1 _ (by interval_cases b <;> decide)
  rw [flushGen_of (s := m) (congrArg Ing.cur hing)]
  by_cases hdue : flushDue g r
  · rw [if_pos ((pumped_empty g b r).mpr hdue), emit_flushes]
    have hleft := hdue.1
    obtain ⟨htodo, hflight⟩ := List.append_eq_nil_iff.mp hleft
    have hnone := pumpable_nil htodo r b
    have hgen : { g with todo := (pumpable (without g r) b).foldl List.erase g.todo, flight := g.flight.erase r ++ pumpable (without g r) b, flushing := g.bays } =
        { g with flight := [], flushing := g.bays } := by
      rw [hnone, hflight, htodo]
      cases g
      simp only [GenRun.mk.injEq] at htodo ⊢
      subst htodo
      simp
    refine ⟨⟨(honly'.1.trans (.of_regs rfl)).put _ _ (by simp), honly'.2⟩, hq, hothers, ?_, hcart, fun h => absurd hdue h, fun _ => ⟨get_put_same .., ?_⟩⟩
    · rw [if_pos hdue]
      change m.out ++ _ = _
      rw [hout, List.append_assoc, List.append_assoc]
    · exact congrArg some hgen
  · rw [if_neg (fun h => hdue ((pumped_empty g b r).mp h))]
    refine ⟨honly', hq, hothers, ?_, hcart, fun _ => ⟨hphase, congrArg Ing.cur hing⟩, fun h => absurd h hdue⟩
    rw [if_neg hdue, List.append_nil]
    exact hout

/-- The appends among what has gone out are those of the records sent. -/
theorem goesOn_appends (s : State) (g : GenRun) (b : Nat) (r : IngRec) (sent : List IngRec) (bays : List Nat) :
    appendsOf (zoneOut g b r ++ sent.map (s.appendOut g b) ++ bays.map Out.flush) = sent.map (s.appendOut g b) := by
  have happ : ∀ l k : List Out, appendsOf (l ++ k) = appendsOf l ++ appendsOf k := fun l k => List.filter_append ..
  rw [happ, happ, appendsOf_zoneOut, appendsOf_flushes, appendsOf_appends, List.nil_append, List.append_nil]

theorem goesOn_zone (s : State) (g : GenRun) (b : Nat) (r : IngRec) (sent : List IngRec) (bays : List Nat) :
    Out.zone b 1 r.zone ∈ zoneOut g b r ++ sent.map (s.appendOut g b) ++ bays.map Out.flush ↔
      ∀ x ∈ g.todo ++ g.flight.erase r, ¬ (x.bay = b ∧ x.zone = r.zone) := by
  rw [← mem_zoneOut, List.mem_append, List.mem_append]
  constructor
  · rintro ((h | h) | h)
    · exact h
    · obtain ⟨x, -, hx⟩ := List.mem_map.mp h
      exact absurd hx (by simp)
    · obtain ⟨x, -, hx⟩ := List.mem_map.mp h
      exact absurd hx (by simp)
  · exact fun h => .inl (.inl h)

/-! ## A Flush, and a write that fails -/

/-- The life report that a Flush brings. -/
def lifeReport (s : State) (b written : Nat) (ok : Bool) : State := (s.setWritten b written).put (Reg.ingBayStateLifeBad b) (b2n !ok)

theorem execFlushComplete_of {s : State} {g : GenRun} (h : s.ing.cur = some g) (b ms written : Nat) (ok : Bool) :
    exec (.flushComplete b ms written ok) s = if s.alive = true ∧ b ∈ g.flushing then
      .next (if (g.flushing.filter (fun x => x != b)).isEmpty then (s.lifeReport b written ok).finishGen g ms
        else (s.lifeReport b written ok).setCur (some { g with flushing := g.flushing.filter (fun x => x != b), ms := ms }))
    else .next s := by
  change execFlushComplete b ms written ok s = _
  unfold execFlushComplete
  rw [h]
  dsimp only
  by_cases hgo : s.alive = true ∧ b ∈ g.flushing
  · rw [if_pos hgo, if_neg (by simp [hgo.1, hgo.2])]
    rfl
  · rw [if_neg hgo, if_pos]
    · rfl
    · by_contra hno
      exact hgo (by simpa using hno)

theorem lifeReport_of (s : State) (hb : b < 2) (written : Nat) (ok : Bool) : 
    (s.lifeReport b written ok).get64 (Reg.ingBayWrittenLo b) (Reg.ingBayWrittenHi b) = written % 2 ^ 64 ∧
    (s.lifeReport b written ok).get (Reg.ingBayStateLifeLow b) = (if s.wearsOut b written then 1 else s.get (Reg.ingBayStateLifeLow b)) ∧
    (s.lifeReport b written ok).get (Reg.ingBayStateLifeBad b) = (if ok then 0 else 1) ∧ (s.lifeReport b written ok).ing = s.ing ∧
    (s.lifeReport b written ok).out = s.out ∧
    OnlyIngots [Reg.ingBayWrittenLo b, Reg.ingBayWrittenHi b, Reg.ingBayStateLifeLow b, Reg.ingBayStateLifeBad b] s (s.lifeReport b written ok) := by
  obtain ⟨hw, hlow, -⟩ := setWritten_get s hb written
  refine ⟨?_, ?_, ?_, setWritten_ing .., setWritten_out .., ((setWritten_only s b written).mono (by simp)).put (by simp) _⟩
  · exact (get64_put_ne _ (by interval_cases b <;> decide) (by interval_cases b <;> decide) _).trans hw
  · exact (get_put_ne _ _ (by interval_cases b <;> decide)).trans hlow
  · refine (get_put_same ..).trans ?_
    cases ok <;> rfl

theorem execGenerationFail_of {s : State} {g : GenRun} (h : s.ing.cur = some g) (b : Nat) : exec (.generationFail b) s =
    if s.alive = true ∧ b ∈ g.bays then .next ((s.count (Reg.ingBayCmdErr b)).failGen b g) else .next s := by
  change execGenerationFail b s = _
  unfold execGenerationFail
  rw [h]
  dsimp only
  by_cases hgo : s.alive = true ∧ b ∈ g.bays
  · rw [if_pos hgo, if_neg (by simp [hgo.1, hgo.2])]
  · rw [if_neg hgo, if_pos]
    · rfl
    · by_contra hno
      exact hgo (by simpa using hno)

end State

open State in
/-- Settles O48: an append, a Flush and a failure, each by what it counts and by what becomes of the generation. -/
theorem generationsAreWritten : Obligations.GenerationsAreWritten := by
  intro s b hb
  refine ⟨fun hnone => ⟨execZoneAppendComplete_none hnone b, fun ms written ok => ?_, ?_⟩, fun g hcur => ?_⟩
  · change execFlushComplete b ms written ok s = _
    unfold execFlushComplete
    rw [hnone]
    rfl
  · change execGenerationFail b s = _
    unfold execGenerationFail
    rw [hnone]
    rfl
  intro lifeLow
  refine ⟨fun seq ecc hno => ?_, fun seq ecc r hr => ?_, fun ms written ok hno => ?_, fun ms written ok ha hf => ?_, fun hno => ?_, fun ha hf => ?_⟩
  · have hfind : g.flight.find? (fun r => r.bay == b && r.seq == seq) = none :=
      List.find?_eq_none.mpr fun x hx => by simpa using hno x hx
    rw [execZoneAppendComplete_of hcur, hfind]
  · obtain ⟨hing, hbad, hjob, hphase⟩ := landed_rest s hb ecc g r
    have hlanded := landed_of s hb ecc g r
    have hexec := execZoneAppendComplete_of hcur b seq ecc
    rw [hr] at hexec
    intro u v left sent
    refine ⟨hlanded, fun ha => ?_, fun ha hb' => ?_, fun ha hgood => ?_⟩
    · rw [hexec]
      dsimp only
      rw [if_pos ha]
      rfl
    · refine ⟨(s.landed ecc g b r).failed b g, ?_, failed_genFailed _ hb g⟩
      rw [hexec]
      dsimp only
      rw [if_neg (by simp [ha]), hbad, if_pos hb', failGen_eq]
    · obtain ⟨honly, hq, hothers, hout, hcart, hwrites, hflushes⟩ := goesOn_of (s := s) hb (congrArg Ing.cur hing) hjob
      have hvcart : ∀ k, (s.landed ecc g b r).cart? k = s.cart? k := fun k => by unfold cart?; rw [hing]
      obtain ⟨-, -, -, hvout, -⟩ := hlanded
      rw [hvout] at hout
      have hflush : (if flushDue g r then g.bays.map Out.flush else []) = (if flushDue g r then g.bays else []).map Out.flush := by
        split <;> rfl
      have hdrop : ((s.landed ecc g b r).goesOn g b r).out.drop s.out.length = zoneOut g b r ++ sent.map (s.appendOut g b) ++
          (if flushDue g r then g.bays else []).map Out.flush := by
        rw [hout, List.drop_left, hflush]
        rfl
      refine ⟨(s.landed ecc g b r).goesOn g b r, ?_, honly, hq, fun k hk => (hothers k hk).trans (hvcart k), ?_, ?_, fun c x hc hx => ?_,
        fun hor => ?_, fun hnil hfl => ?_⟩
      · rw [hexec]
        dsimp only
        rw [if_neg (by simp [ha]), hbad, if_neg (by rw [hgood]; decide)]
      · rw [hdrop]
        exact goesOn_zone s g b r sent _
      · rw [hdrop]
        exact goesOn_appends s g b r sent _
      · obtain ⟨d, hd, hsame, hlast⟩ := hcart c ((hvcart b).trans hc)
        refine ⟨d, hd, ?_, hsame⟩
        rw [hlast, show (pumpable (without g r) b).getLast? = some x from hx]
        rfl
      · have hnot : ¬ flushDue g r := fun h => hor.elim (fun hne => hne h.1) (fun hne => hne h.2)
        obtain ⟨hp, hgen⟩ := hwrites hnot
        exact ⟨hgen, hp.trans hphase⟩
      · have hdue : flushDue g r := ⟨hnil, hfl⟩
        obtain ⟨hp, hgen⟩ := hflushes hdue
        have hsent := pumpable_nil (List.append_eq_nil_iff.mp hnil).1 r b
        have hzone : zoneOut g b r = [.zone b 1 r.zone] := by
          unfold zoneOut
          rw [show g.todo ++ g.flight.erase r = [] from hnil]
          exact if_pos fun x hx => absurd hx List.not_mem_nil
        refine ⟨hgen, hp, ?_⟩
        rw [hout, if_pos hdue, hzone, hsent]
        rfl
  · rw [execFlushComplete_of hcur, if_neg]
    rintro ⟨ha, hf⟩
    exact hno.elim (fun h => by rw [h] at ha; exact absurd ha (by decide)) (fun h => h hf)
  · obtain ⟨hw, hlow, hbad, hing, hout, honly⟩ := lifeReport_of s hb written ok
    have hexec := execFlushComplete_of hcur b ms written ok
    rw [if_pos ⟨ha, hf⟩] at hexec
    intro rest
    refine ⟨s.lifeReport b written ok, ⟨hw, hlow, hbad, hing, hout, honly⟩, fun hne => ?_, fun hnil => ⟨_, ?_, finishGen_complete _ g ms⟩⟩
    · rw [hexec, if_neg (fun h => hne (List.isEmpty_iff.mp h))]
      unfold setCur
      rw [hing]
    · rw [hexec, if_pos (List.isEmpty_iff.mpr hnil)]
  · rw [execGenerationFail_of hcur, if_neg]
    rintro ⟨ha, hf⟩
    exact hno.elim (fun h => by rw [h] at ha; exact absurd ha (by decide)) (fun h => h hf)
  · rw [execGenerationFail_of hcur, if_pos ⟨ha, hf⟩]
    exact ⟨(s.count (Reg.ingBayCmdErr b)).failed b g, rfl, failed_genFailed _ hb g⟩

end Sys2Proof.Machine
end

section
/-! SUPPORT. Proofs: the fields of a word of the register space, and what a read of the word changes (R11, R12, R517). -/

namespace Sys2Proof.Machine

/-! ## The fields of one word -/

/-- The lowest bits of the fields of a word differ. -/
def losDistinct (l : List Fld) : Prop := decide (l.map Fld.lo).Nodup = true ∧ l.all (fun f => decide (f.lo < 32)) = true

theorem losDistinct_ite {p : Prop} [Decidable p] {l m : List Fld} (hl : losDistinct l) (hm : losDistinct m) : losDistinct (if p then l else m) := by
  split
  · exact hl
  · exact hm

theorem losDistinct_idAt (o : Nat) : losDistinct (Reg.idAt o) := by
  unfold Reg.idAt
  repeat' refine losDistinct_ite ⟨rfl, rfl⟩ ?_
  exact ⟨rfl, rfl⟩

theorem losDistinct_rstAt (o : Nat) : losDistinct (Reg.rstAt o) := by
  unfold Reg.rstAt
  repeat' refine losDistinct_ite ⟨rfl, rfl⟩ ?_
  exact ⟨rfl, rfl⟩

theorem losDistinct_clkAt (o : Nat) : losDistinct (Reg.clkAt o) := by
  unfold Reg.clkAt
  repeat' refine losDistinct_ite ⟨rfl, rfl⟩ ?_
  exact ⟨rfl, rfl⟩

theorem losDistinct_fltAt (o : Nat) : losDistinct (Reg.fltAt o) := by
  unfold Reg.fltAt
  repeat' refine losDistinct_ite ⟨rfl, rfl⟩ ?_
  exact ⟨rfl, rfl⟩

theorem losDistinct_cadAt (o : Nat) : losDistinct (Reg.cadAt o) := by
  unfold Reg.cadAt
  repeat' refine losDistinct_ite ⟨rfl, rfl⟩ ?_
  exact ⟨rfl, rfl⟩

theorem losDistinct_mbxAt (o : Nat) : losDistinct (Reg.mbxAt o) := by
  unfold Reg.mbxAt
  repeat' refine losDistinct_ite ⟨rfl, rfl⟩ ?_
  exact ⟨rfl, rfl⟩

theorem losDistinct_jnlAt (o : Nat) : losDistinct (Reg.jnlAt o) := by
  unfold Reg.jnlAt
  repeat' refine losDistinct_ite ⟨rfl, rfl⟩ ?_
  exact ⟨rfl, rfl⟩

theorem losDistinct_cruAt (o : Nat) : losDistinct (Reg.cruAt o) := by
  unfold Reg.cruAt
  repeat' refine losDistinct_ite ⟨rfl, rfl⟩ ?_
  exact ⟨rfl, rfl⟩

theorem losDistinct_netAt (o : Nat) : losDistinct (Reg.netAt o) := by
  unfold Reg.netAt
  repeat' refine losDistinct_ite ⟨rfl, rfl⟩ ?_
  exact ⟨rfl, rfl⟩

theorem losDistinct_blmAt (o : Nat) : losDistinct (Reg.blmAt o) := by
  unfold Reg.blmAt
  repeat' refine losDistinct_ite ⟨rfl, rfl⟩ ?_
  exact ⟨rfl, rfl⟩

theorem losDistinct_sthAt (o : Nat) : losDistinct (Reg.sthAt o) := by
  unfold Reg.sthAt
  repeat' refine losDistinct_ite ⟨rfl, rfl⟩ ?_
  exact ⟨rfl, rfl⟩

theorem losDistinct_kvpAt (o : Nat) : losDistinct (Reg.kvpAt o) := by
  unfold Reg.kvpAt
  repeat' refine losDistinct_ite ⟨rfl, rfl⟩ ?_
  exact ⟨rfl, rfl⟩

theorem losDistinct_tmpAt (o : Nat) : losDistinct (Reg.tmpAt o) := by
  unfold Reg.tmpAt
  repeat' refine losDistinct_ite ⟨rfl, rfl⟩ ?_
  exact ⟨rfl, rfl⟩

theorem losDistinct_ingAt (o : Nat) : losDistinct (Reg.ingAt o) := by
  unfold Reg.ingAt
  repeat' refine losDistinct_ite ⟨rfl, rfl⟩ ?_
  exact ⟨rfl, rfl⟩

theorem losDistinct_fabAt (p o : Nat) : losDistinct (Reg.fabAt p o) := by
  unfold Reg.fabAt
  repeat' refine losDistinct_ite ⟨rfl, rfl⟩ ?_
  exact ⟨rfl, rfl⟩

theorem losDistinct_flxAt (p o : Nat) : losDistinct (Reg.flxAt p o) := by
  unfold Reg.flxAt
  repeat' refine losDistinct_ite ⟨rfl, rfl⟩ ?_
  exact ⟨rfl, rfl⟩

theorem losDistinct_hbmAt (p o : Nat) : losDistinct (Reg.hbmAt p o) := by
  unfold Reg.hbmAt
  repeat' refine losDistinct_ite ⟨rfl, rfl⟩ ?_
  exact ⟨rfl, rfl⟩

set_option maxRecDepth 8000 in
theorem losDistinct_coreAt (p o : Nat) : losDistinct (Reg.coreAt p o) := by
  unfold Reg.coreAt
  repeat' refine losDistinct_ite ⟨rfl, rfl⟩ ?_
  exact ⟨rfl, rfl⟩

/-- The fields of a word have lowest bits of their own. -/
theorem losDistinct_fieldsAt (a : Nat) : losDistinct (fieldsAt a) := by
  unfold fieldsAt
  refine losDistinct_ite (losDistinct_idAt _) ?_
  refine losDistinct_ite (losDistinct_rstAt _) ?_
  refine losDistinct_ite (losDistinct_clkAt _) ?_
  refine losDistinct_ite (losDistinct_fltAt _) ?_
  refine losDistinct_ite (losDistinct_cadAt _) ?_
  refine losDistinct_ite (losDistinct_mbxAt _) ?_
  refine losDistinct_ite (losDistinct_jnlAt _) ?_
  refine losDistinct_ite (losDistinct_cruAt _) ?_
  refine losDistinct_ite (losDistinct_fabAt _ _) ?_
  refine losDistinct_ite (losDistinct_netAt _) ?_
  refine losDistinct_ite (losDistinct_blmAt _) ?_
  refine losDistinct_ite (losDistinct_sthAt _) ?_
  refine losDistinct_ite (losDistinct_flxAt _ _) ?_
  refine losDistinct_ite (losDistinct_kvpAt _) ?_
  refine losDistinct_ite (losDistinct_tmpAt _) ?_
  refine losDistinct_ite (losDistinct_ingAt _) ?_
  refine losDistinct_ite (losDistinct_hbmAt _ _) ?_
  refine losDistinct_ite (losDistinct_coreAt _ _) ?_
  exact ⟨rfl, rfl⟩

/-- The fields of a word have keys of their own. -/
theorem keys_nodup (a : Nat) : ((fieldsAt a).map Fld.key).Nodup := by
  obtain ⟨hlo, hlt⟩ := losDistinct_fieldsAt a
  generalize fieldsAt a = l at hlo hlt
  have hmod : (l.map Fld.key).map (· % 32) = l.map Fld.lo := by
    rw [List.map_map]
    refine List.map_congr_left fun f hf => ?_
    have hbit : f.lo < 32 := of_decide_eq_true (List.all_eq_true.mp hlt f hf)
    simp only [Function.comp_apply, Fld.key]
    omega
  exact List.Nodup.of_map (· % 32) (hmod ▸ of_decide_eq_true hlo)

/-! ## What a read clears (R12) -/

namespace State

theorem heldField_put (s : State) (f g : Fld) (v : Nat) : (s.put f v).heldField g = s.heldField g := rfl

theorem heldField_of_sys {s t : State} (h : t.sys = s.sys) (f : Fld) : t.heldField f = s.heldField f := by
  unfold heldField domUp
  rw [h]

theorem clearRc_rest (s : State) (f : Fld) : SameButRegs s (s.clearRc f) := by
  unfold clearRc
  split <;> rfl

theorem clearRc_get_ne (s : State) {f g : Fld} (h : g.key ≠ f.key) : (s.clearRc f).get g = s.get g := by
  unfold clearRc
  split
  · exact s.get_put_ne 0 h
  · rfl

theorem clearRc_get_same (s : State) (f : Fld) : (s.clearRc f).get f = if f.acc = .rc ∧ s.heldField f = false then 0 else s.get f := by
  unfold clearRc
  by_cases h : f.acc = .rc ∧ s.heldField f = false
  · rw [if_pos h, if_pos (by simp [h]), s.get_put_same, Nat.zero_mod]
  · rw [if_neg h, if_neg (by simpa using h)]

theorem clearRcs_rest (l : List Fld) (s : State) : SameButRegs s (l.foldl clearRc s) := by
  induction l generalizing s with
  | nil => rfl
  | cons f r ih =>
    have h := clearRc_rest s f
    have k := ih (s.clearRc f)
    unfold SameButRegs at h k ⊢
    rw [List.foldl_cons]
    exact (congrArg (fun t : State => { t with regs := s.regs }) k).trans h

theorem clearRcs_sameRegsBut (l : List Fld) (s : State) : SameRegsBut l s (l.foldl clearRc s) := by
  induction l generalizing s with
  | nil => exact .refl _ s
  | cons f r ih =>
    intro g hg
    rw [List.foldl_cons, ih _ g fun k hk => hg k (List.mem_cons_of_mem f hk), clearRc_get_ne s (hg f List.mem_cons_self)]

theorem clearRcs_get {l : List Fld} (hl : (l.map Fld.key).Nodup) (s : State) {f : Fld} (hf : f ∈ l) :
    (l.foldl clearRc s).get f = if f.acc = .rc ∧ s.heldField f = false then 0 else s.get f := by
  induction l generalizing s with
  | nil => cases hf
  | cons g r ih =>
    obtain ⟨hg, hr⟩ := List.nodup_cons.mp hl
    rw [List.foldl_cons]
    rcases List.mem_cons.mp hf with rfl | hf
    · rw [clearRcs_sameRegsBut r _ f fun k hk e => hg (List.mem_map.mpr ⟨k, hk, e.symm⟩), clearRc_get_same]
    · have hne : f.key ≠ g.key := fun e => hg (List.mem_map.mpr ⟨f, hf, e⟩)
      have hsys : (s.clearRc g).sys = s.sys := (congrArg State.sys (s.clearRc_rest g) :)
      rw [ih hr _ hf, clearRc_get_ne s hne, heldField_of_sys hsys]

/-- Fields without RC access are left. -/
theorem clearRcs_none {l : List Fld} (h : ∀ f ∈ l, f.acc ≠ .rc) (s : State) : l.foldl clearRc s = s := by
  induction l with
  | nil => rfl
  | cons f r ih =>
    have hf : s.clearRc f = s := if_neg (by simp [h f List.mem_cons_self])
    rw [List.foldl_cons, hf]
    exact ih fun g hg => h g (List.mem_cons_of_mem f hg)

/-! ## Banks -/

theorem bank_of_sys {s t : State} (h : t.sys = s.sys) (k : Nat) : t.bank k = s.bank k := by
  unfold bank
  rw [h]

theorem setBank_rest (s : State) (k : Nat) (b : Bank) : { s.setBank k b with sys := s.sys } = s := rfl

theorem latchHi_of_not {a : Nat} (h : isLo a = false) (s : State) (k : Nat) (lv : Level) (ok : Bool) : s.latchHi k lv a ok = s :=
  if_neg (by simp [h])

theorem latchHi_rest (s : State) (k : Nat) (lv : Level) (a : Nat) (ok : Bool) : { s.latchHi k lv a ok with sys := s.sys } = s := by
  unfold latchHi
  split <;> rfl

/-- A permitted read of a _LO word latches its _HI word (R11). -/
theorem latchHi_latched {a : Nat} (h : isLo a = true) (s : State) (k : Nat) (lv : Level) :
    Assoc.find? ((s.latchHi k lv a true).bank k).latches (a + 4) = some (s.wordView k lv (a + 4)) := by
  unfold latchHi
  rw [if_pos h, bank_setBank_same]
  exact Assoc.find?_put_same _ _ _

/-- A refused one drops the latch. -/
theorem latchHi_dropped {a : Nat} (h : isLo a = true) (s : State) (k : Nat) (lv : Level) :
    Assoc.find? ((s.latchHi k lv a false).bank k).latches (a + 4) = none := by
  unfold latchHi
  rw [if_pos h, bank_setBank_same]
  exact Assoc.find?_del_same _ _

/-! ## Reads -/

/-- A read of a word with a field above the level is refused (R517). -/
theorem readWord_refused {a : Nat} {lv : Level} (hs : strikeAddr a = false) (h : ∃ f ∈ fieldsAt a, lv.rank < f.rd.rank) (s : State) (k : Nat)
    (ecc : List EccRes) : s.readWord k lv a ecc = ((s.latchHi k lv a false).refuseAccess, 0) := by
  obtain ⟨f, hf, hlt⟩ := h
  have hne : (fieldsAt a).isEmpty = false := by
    cases hl : fieldsAt a with
    | nil => rw [hl] at hf; cases hf
    | cons => rfl
  have hany : (fieldsAt a).any (fun f => decide (lv.rank < f.rd.rank)) = true := List.any_eq_true.mpr ⟨f, hf, decide_eq_true hlt⟩
  unfold readWord
  rw [if_neg (by simp [hs]), if_neg (by simp [hne]), if_pos hany]

/-- A permitted read clears the RC fields and latches the _HI word. -/
theorem readWord_permitted {a : Nat} {lv : Level} (hs : strikeAddr a = false) (hf : fieldsAt a ≠ []) (h : ∀ f ∈ fieldsAt a, f.rd.rank ≤ lv.rank)
    (s : State) (k : Nat) (ecc : List EccRes) : (s.readWord k lv a ecc).1 =
      ((fieldsAt a).foldl clearRc (if a = 0x80 then s.takeSnapshot k ecc else s)).latchHi k lv a true := by
  have hany : (fieldsAt a).any (fun f => decide (lv.rank < f.rd.rank)) = false := by
    rw [List.any_eq_false]
    intro f hf
    simpa using h f hf
  unfold readWord
  rw [if_neg (by simp [hs]), if_neg (by simp [hf]), if_neg (by simp [hany])]

end State

end Sys2Proof.Machine
end

section
/-! SUPPORT. Proofs: MEMWIN snapshots, and writes of a word of the register space (R12, R516, R517, R526). -/

namespace Sys2Proof.Machine

namespace State

/-! ## MEMWIN (R526) -/

/-- What a snapshot of a bank shows. -/
def Shows (t : State) (k : Nat) (bad range : Bool) (l : List Byte) : Prop :=
  (t.bank k).memPoison = bad ∧ (t.bank k).memRange = range ∧ (t.bank k).snap = if bad then [] else l

/-- The device once a snapshot's granule has been read (R29). -/
def snapRead (s : State) (k : Nat) (ecc : List EccRes) : State :=
  let b := s.bank k
  let a := (b.memLo + 2 ^ 32 * b.memHi) / 64 * 64
  if b.memSpace = 2 ∧ a < hbmBytes then s.hbmChecks a 64 ecc else if b.memSpace = 3 then s.stockChecks a 64 ecc else s

theorem setBank_shows (s : State) (k : Nat) (b : Bank) (bad range : Bool) (l : List Byte) :
    Shows (s.setBank k { b with memPoison := bad, memRange := range, snap := if bad then [] else l }) k bad range l := by
  unfold Shows
  rw [bank_setBank_same]
  exact ⟨rfl, rfl, rfl⟩

theorem snapRead_mems (s : State) (k : Nat) (ecc : List EccRes) : (s.snapRead k ecc).mems = s.mems := by
  unfold snapRead
  dsimp only
  split
  · exact State.hbmChecks_mems _ _ _ _
  · split
    · exact State.stockChecks_mems _ _ _ _
    · rfl

/-- A read of Hearth finds no error of a granule. -/
theorem snapRead_hearth {s : State} {k : Nat} (h : (s.bank k).memSpace < 2) (ecc : List EccRes) : s.snapRead k ecc = s :=
  (if_neg fun h2 => by have := h2.1; omega).trans (if_neg (by omega))

theorem takeSnapshot_rest (s : State) (k : Nat) (ecc : List EccRes) :
    { s.takeSnapshot k ecc with sys := (s.snapRead k ecc).sys } = s.snapRead k ecc := by
  by_cases h0 : (s.bank k).memSpace = 0 ∨ (s.bank k).memSpace = 1
  · rw [snapRead_hearth (by omega)]
    unfold takeSnapshot
    dsimp only
    rw [if_pos h0]
    split <;> rfl
  unfold takeSnapshot snapRead
  dsimp only
  rw [if_neg h0]
  split
  · rfl
  · split <;> rfl

variable {s : State} {k : Nat} {ecc : List EccRes}

theorem takeSnapshot_hearth (h : (s.bank k).memSpace < 2) (ha : ((s.bank k).memLo + 2 ^ 32 * (s.bank k).memHi) / 64 * 64 < hearthBytes) :
    Shows (s.takeSnapshot k ecc) k ((s.hearth (s.bank k).memSpace).isBad (((s.bank k).memLo + 2 ^ 32 * (s.bank k).memHi) / 64 * 64) 64) false
      ((s.hearth (s.bank k).memSpace).readBytes (((s.bank k).memLo + 2 ^ 32 * (s.bank k).memHi) / 64 * 64) 64) := by
  unfold takeSnapshot
  dsimp only
  rw [if_pos (show (s.bank k).memSpace = 0 ∨ (s.bank k).memSpace = 1 by omega), if_pos ha]
  exact setBank_shows _ k (s.bank k) _ _ _

theorem takeSnapshot_hbm (h : (s.bank k).memSpace = 2) (ha : ((s.bank k).memLo + 2 ^ 32 * (s.bank k).memHi) / 64 * 64 < hbmBytes) :
    Shows (s.takeSnapshot k ecc) k ((s.snapRead k ecc).hbmBad (((s.bank k).memLo + 2 ^ 32 * (s.bank k).memHi) / 64 * 64) 64) false
      (s.hbm.readBytes (((s.bank k).memLo + 2 ^ 32 * (s.bank k).memHi) / 64 * 64) 64) := by
  rw [show s.snapRead k ecc = s.hbmChecks (((s.bank k).memLo + 2 ^ 32 * (s.bank k).memHi) / 64 * 64) 64 ecc from if_pos ⟨h, ha⟩]
  unfold takeSnapshot
  dsimp only
  rw [if_neg (show ¬ ((s.bank k).memSpace = 0 ∨ (s.bank k).memSpace = 1) by omega), if_pos ⟨h, ha⟩,
    show (s.hbmChecks (((s.bank k).memLo + 2 ^ 32 * (s.bank k).memHi) / 64 * 64) 64 ecc).hbm = s.hbm from congrArg Mems.hbm (s.hbmChecks_mems _ _ _)]
  exact setBank_shows _ k (s.bank k) _ _ _

theorem takeSnapshot_stock (h : (s.bank k).memSpace = 3) :
    Shows (s.takeSnapshot k ecc) k ((s.snapRead k ecc).stockBad (((s.bank k).memLo + 2 ^ 32 * (s.bank k).memHi) / 64 * 64) 64) false
      (s.stock.readBytes (((s.bank k).memLo + 2 ^ 32 * (s.bank k).memHi) / 64 * 64) 64) := by
  have h2 : (s.bank k).memSpace ≠ 2 := by omega
  rw [show s.snapRead k ecc = s.stockChecks (((s.bank k).memLo + 2 ^ 32 * (s.bank k).memHi) / 64 * 64) 64 ecc from
    (if_neg fun e => h2 e.1).trans (if_pos h)]
  unfold takeSnapshot
  dsimp only
  rw [if_neg (show ¬ ((s.bank k).memSpace = 0 ∨ (s.bank k).memSpace = 1) by omega), if_neg fun e => h2 e.1, if_pos h,
    show (s.stockChecks (((s.bank k).memLo + 2 ^ 32 * (s.bank k).memHi) / 64 * 64) 64 ecc).stock = s.stock from congrArg Mems.stock (s.stockChecks_mems _ _ _)]
  exact setBank_shows _ k (s.bank k) _ _ _

theorem takeSnapshot_outside (h : ((s.bank k).memSpace < 2 ∧ hearthBytes ≤ ((s.bank k).memLo + 2 ^ 32 * (s.bank k).memHi) / 64 * 64) ∨
    ((s.bank k).memSpace = 2 ∧ hbmBytes ≤ ((s.bank k).memLo + 2 ^ 32 * (s.bank k).memHi) / 64 * 64) ∨ 4 ≤ (s.bank k).memSpace) :
    Shows (s.takeSnapshot k ecc) k false true [] := by
  unfold takeSnapshot
  dsimp only
  by_cases h2 : (s.bank k).memSpace < 2
  · rw [if_pos (show (s.bank k).memSpace = 0 ∨ (s.bank k).memSpace = 1 by omega), if_neg (by omega)]
    exact setBank_shows s k (s.bank k) false true []
  · rw [if_neg (by omega), if_neg (by omega), if_neg (by omega)]
    exact setBank_shows s k (s.bank k) false true []

/-- A read of MEMWIN.DATA[0] takes the snapshot. -/
theorem readWord_snapshot {lv : Level} (h : lv ≠ .owner) (s : State) (k : Nat) (ecc : List EccRes) :
    (s.readWord k lv 0x80 ecc).1 = s.takeSnapshot k ecc := by
  have hrank : ∀ f ∈ fieldsAt 0x80, f.rd.rank ≤ lv.rank := by
    cases lv with
    | owner => exact absurd rfl h
    | debug => decide
    | firmware => decide
  rw [readWord_permitted rfl (by decide) hrank, if_pos rfl, clearRcs_none (by decide), latchHi_of_not rfl]

/-! ## Reads leave the mailbox and the memories -/

theorem latchHi_mbx (s : State) (k : Nat) (lv : Level) (a : Nat) (ok : Bool) : SameSlots s (s.latchHi k lv a ok) ∧ SameBytes s (s.latchHi k lv a ok) := by
  unfold latchHi
  split <;> exact ⟨⟨rfl, rfl, rfl, rfl, rfl⟩, .of_mems rfl rfl rfl rfl⟩

theorem clearRcs_keep (l : List Fld) (s : State) : SameSlots s (l.foldl clearRc s) ∧ SameBytes s (l.foldl clearRc s) := by
  have h := clearRcs_rest l s
  have hmbx : (l.foldl clearRc s).mbx = s.mbx := (congrArg State.mbx h :)
  have hjnl : (l.foldl clearRc s).jnl = s.jnl := (congrArg State.jnl h :)
  refine ⟨⟨?_, ?_, ?_, ?_, hjnl⟩, .of_mems (congrArg State.hearth0 h :) (congrArg State.hearth1 h :) (congrArg State.hbm h :) (congrArg State.stock h :)⟩
  all_goals rw [hmbx]

/-- A snapshot without an error of its granule changes its bank alone. -/
theorem takeSnapshot_keep (s : State) (k : Nat) : SameSlots s (s.takeSnapshot k []) ∧ SameBytes s (s.takeSnapshot k []) := by
  have hu : s.snapRead k [] = s := by
    unfold snapRead
    dsimp only
    split
    · rfl
    · split <;> rfl
  have h := takeSnapshot_rest s k []
  rw [hu] at h
  have hmbx : (s.takeSnapshot k []).mbx = s.mbx := (congrArg State.mbx h :)
  have hjnl : (s.takeSnapshot k []).jnl = s.jnl := (congrArg State.jnl h :)
  refine ⟨⟨?_, ?_, ?_, ?_, hjnl⟩, .of_mems (congrArg State.hearth0 h :) (congrArg State.hearth1 h :) (congrArg State.hbm h :) (congrArg State.stock h :)⟩
  all_goals rw [hmbx]

end State

theorem SameSlots.trans {r s t : State} (h : SameSlots r s) (k : SameSlots s t) : SameSlots r t :=
  ⟨k.sessions.trans h.sessions, k.nextSid.trans h.nextSid, k.slots.trans h.slots, k.queue.trans h.queue, k.jnl.trans h.jnl⟩

theorem SameBytes.trans {r s t : State} (h : SameBytes r s) (k : SameBytes s t) : SameBytes r t := by
  intro a
  obtain ⟨h0, h1, h2, h3⟩ := h a
  obtain ⟨k0, k1, k2, k3⟩ := k a
  exact ⟨k0.trans h0, k1.trans h1, k2.trans h2, k3.trans h3⟩

theorem SameBytes.refl (s : State) : SameBytes s s := .of_mems rfl rfl rfl rfl

namespace State

/-- A read of a word that reports no error leaves the mailbox and the bytes of the memories. -/
theorem readWord_keep (s : State) (k : Nat) (lv : Level) (a : Nat) {ecc : List EccRes} (h : ecc = [] ∨ a ≠ 0x80) :
    SameSlots s (s.readWord k lv a ecc).1 ∧ SameBytes s (s.readWord k lv a ecc).1 := by
  by_cases hs : strikeAddr a = true
  · unfold readWord
    rw [if_pos hs]
    exact ⟨.refl s, .refl s⟩
  rw [Bool.not_eq_true] at hs
  by_cases hf : fieldsAt a = []
  · rw [readWord_hole hf hs]
    exact ⟨⟨rfl, rfl, rfl, rfl, rfl⟩, .of_mems rfl rfl rfl rfl⟩
  by_cases hlow : ∃ f ∈ fieldsAt a, lv.rank < f.rd.rank
  · rw [readWord_refused hs hlow]
    obtain ⟨h1, h2⟩ := s.latchHi_mbx k lv a false
    generalize s.latchHi k lv a false = t at h1 h2
    exact ⟨h1.trans ⟨rfl, rfl, rfl, rfl, rfl⟩, h2.trans (.of_mems rfl rfl rfl rfl)⟩
  rw [readWord_permitted hs hf (by simpa using hlow)]
  have h0 : SameSlots s (if a = 0x80 then s.takeSnapshot k ecc else s) ∧ SameBytes s (if a = 0x80 then s.takeSnapshot k ecc else s) := by
    split
    next ha =>
      obtain rfl := h.resolve_right (absurd ha)
      exact s.takeSnapshot_keep k
    · exact ⟨.refl s, .refl s⟩
  generalize (if a = 0x80 then s.takeSnapshot k ecc else s) = u at h0
  have h1 := clearRcs_keep (fieldsAt a) u
  generalize (fieldsAt a).foldl clearRc u = w at h1
  have h2 := w.latchHi_mbx k lv a true
  exact ⟨(h0.1.trans h1.1).trans h2.1, (h0.2.trans h1.2).trans h2.2⟩

theorem readWords_keep (k : Nat) (lv : Level) {ecc : List EccRes} (n a : Nat) (s : State) (h : ecc = [] ∨ a + 4 * n ≤ 0x80 ∨ 0x80 < a) :
    SameSlots s (s.readWords k lv ecc a n).1 ∧ SameBytes s (s.readWords k lv ecc a n).1 := by
  induction n generalizing a s with
  | zero => exact ⟨.refl s, .refl s⟩
  | succ n ih =>
    have h1 := s.readWord_keep k lv a (h.imp_right fun h => by omega)
    have h2 := ih (a + 4) (s.readWord k lv a ecc).1 (h.imp_right fun h => by omega)
    exact ⟨h1.1.trans h2.1, h1.2.trans h2.2⟩

theorem length_readWords (k : Nat) (lv : Level) (ecc : List EccRes) (n a : Nat) (s : State) : (s.readWords k lv ecc a n).2.length = n := by
  induction n generalizing a s with
  | zero => rfl
  | succ n ih => exact congrArg (· + 1) (ih (a + 4) (s.readWord k lv a ecc).1)

/-! ## Writes -/

/-- A write that reaches no field and is refused is counted (R517). -/
theorem writeWord_refused {a : Nat} (hs : strikeAddr a = false) (hf : fieldsAt a ≠ []) {s : State} {k : Nat} {lv : Level} {v e : Nat}
    (hr : s.refusesWrite lv a v = true) (hl : (fieldsAt a).filter (fun f => s.reaches lv f) = []) : s.writeWord k lv a v e = s.refuseAccess := by
  unfold writeWord
  rw [if_neg (by simp [hs]), if_neg (by simpa using hf), hl, if_pos hr]
  exact if_pos rfl

/-- A write above the level of every field of its word. -/
theorem writeWord_above {a : Nat} (hs : strikeAddr a = false) (hf : fieldsAt a ≠ []) {lv : Level} (h : ∀ f ∈ fieldsAt a, lv.rank < f.wr.rank)
    (s : State) (k v e : Nat) : s.writeWord k lv a v e = s.refuseAccess := by
  refine writeWord_refused hs hf ?_ ?_
  · obtain ⟨f, hm⟩ := List.exists_mem_of_ne_nil _ hf
    have hany : (fieldsAt a).any (fun f => decide (lv.rank < f.wr.rank) || (f.writable && s.locked lv f)) = true :=
      List.any_eq_true.mpr ⟨f, hm, by simp [h f hm]⟩
    unfold refusesWrite
    rw [hany, Bool.true_or]
  · rw [List.filter_eq_nil_iff]
    intro f hm
    have := h f hm
    simp only [reaches, Bool.and_eq_true, decide_eq_true_eq, not_and]
    omega

/-- The settings of the Cadence are locked while a billet is held, but to the firmware (R516). -/
theorem writeWord_cadCtrl {lv : Level} (hlv : lv ≠ .firmware) {s : State} (hb : s.billet.isSome = true) (k v e : Nat) :
    s.writeWord k lv 0x30000 v e = s.refuseAccess := by
  have hlock : ∀ f ∈ fieldsAt 0x30000, s.locked lv f = true := by
    have haddr : ∀ f ∈ fieldsAt 0x30000, f.addr = 0x30000 := by decide
    intro f hf
    unfold locked
    rw [haddr f hf, hb]
    cases lv <;> simp_all
  have hne : fieldsAt 0x30000 ≠ [] := by decide
  refine writeWord_refused rfl hne ?_ ?_
  · have hmem : Reg.cadCtrlCandidate ∈ fieldsAt 0x30000 := by decide
    have hany : (fieldsAt 0x30000).any (fun f => decide (lv.rank < f.wr.rank) || (f.writable && s.locked lv f)) = true :=
      List.any_eq_true.mpr ⟨_, hmem, by rw [hlock _ hmem, show Reg.cadCtrlCandidate.writable = true from rfl]; simp⟩
    unfold refusesWrite
    rw [hany, Bool.true_or]
  · rw [List.filter_eq_nil_iff]
    intro f hf
    simp [reaches, hlock f hf]

/-- No field below the Cadence's is locked (R516). -/
theorem locked_of_low {f : Fld} (h : f.addr < 0x30000) (s : State) (lv : Level) : s.locked lv f = false := by
  have hfab : decide (0x100000 ≤ f.addr) = false := decide_eq_false (by omega)
  unfold locked
  simp [hfab]
  omega

/-- A write of a word that has no effect of its own beside its fields'. -/
theorem writeWord_plain {a : Nat} (hs : strikeAddr a = false) (hf : fieldsAt a ≠ []) (ha : isRwLo a = false) (hb : isRwLo (a - 4) = false)
    (hsrc : ¬ (0x28000 ≤ a ∧ a < 0x2C000)) (s : State) (k : Nat) (lv : Level) (v e : Nat) : s.writeWord k lv a v e =
      ((fieldsAt a).filter (fun f => s.reaches lv f)).foldl (fun t f => t.writeField k f (bits v f.lo f.w) (bits e f.lo f.w))
        (if s.refusesWrite lv a v then s.refuseAccess else s) := by
  unfold writeWord
  rw [if_neg (by simp [hs]), if_neg (by simpa using hf)]
  dsimp only
  rw [if_neg (show ¬ isRwLo a = true by simp [ha]), if_neg hsrc, if_neg (show ¬ isRwLo (a - 4) = true by simp [hb])]
  cases (fieldsAt a).filter (fun f => s.reaches lv f) with
  | nil => rfl
  | cons g r => rfl

theorem writeField_scratch {i : Nat} (hi : i < 4) (s : State) (k v e : Nat) : s.writeField k (Reg.idScratch i) v e = s.put (Reg.idScratch i) v := by
  interval_cases i <;> rfl

/-- SCRATCH takes its word. -/
theorem writeWord_scratch {i v : Nat} (hi : i < 4) (hv : v < 2 ^ 32) (s : State) (k : Nat) (lv : Level) (e : Nat) :
    s.writeWord k lv (0x20 + 4 * i) v e = s.put (Reg.idScratch i) v := by
  have hf : fieldsAt (0x20 + 4 * i) = [Reg.idScratch i] := by interval_cases i <;> rfl
  have hlow : (Reg.idScratch i).wr.rank ≤ lv.rank := by cases lv <;> exact Nat.succ_le_succ (Nat.zero_le _)
  have hlock : s.locked lv (Reg.idScratch i) = false := locked_of_low (show 0x20 + 4 * i < 0x30000 by omega) s lv
  have hheld : s.heldField (Reg.idScratch i) = false := by interval_cases i <;> rfl
  have hrefuses : s.refusesWrite lv (0x20 + 4 * i) v = false := by
    unfold refusesWrite
    rw [hf, Bool.or_eq_false_iff]
    refine ⟨by simp [hlock, hlow], List.any_eq_false.mpr fun j hj => ?_⟩
    simp [Reg.idScratch, fld, List.mem_range.mp hj]
  have hreach : s.reaches lv (Reg.idScratch i) = true := by
    unfold reaches
    rw [hlock, hheld, decide_eq_true hlow]
    rfl
  have hlo : isRwLo (0x20 + 4 * i) = false ∧ isRwLo (0x20 + 4 * i - 4) = false ∧ strikeAddr (0x20 + 4 * i) = false := by
    interval_cases i <;> decide
  have hbits : bits v (Reg.idScratch i).lo (Reg.idScratch i).w = v := by
    show v / 2 ^ 0 % 2 ^ 32 = v
    rw [pow_zero, Nat.div_one, Nat.mod_eq_of_lt hv]
  rw [writeWord_plain hlo.2.2 (by rw [hf]; simp) hlo.1 hlo.2.1 (by omega), hrefuses, if_neg Bool.false_ne_true, hf, List.filter_cons_of_pos hreach, List.filter_nil,
    List.foldl_cons, List.foldl_nil, writeField_scratch hi, hbits]

/-! ## RST.CAUSE -/

/-- The bits that a write of 1 clears, where no event acts on them (R12, R13). -/
def w1c (x v e : Nat) : Nat := x - ((x &&& v) - (x &&& v &&& e))

theorem writeField_cause {b : Nat} (hb : b < 10) (s : State) (k v e : Nat) :
    s.writeField k (causeFld b) v e = s.put (causeFld b) (w1c (s.get (causeFld b)) v e) := by
  interval_cases b <;> rfl

theorem writeField_lastReach (s : State) (k v e : Nat) : s.writeField k Reg.rstCauseLastReach v e = s.put Reg.rstCauseLastReach v := rfl

theorem fieldsAt_cause : fieldsAt 0x10000 = (List.range 10).map causeFld ++ [Reg.rstCauseLastReach] := rfl

theorem causeFld_lo {b : Nat} (hb : b < 10) : (causeFld b).lo = b ∧ (causeFld b).w = 1 := by
  interval_cases b <;> exact ⟨rfl, rfl⟩

theorem causeFld_key {b : Nat} (hb : b < 10) : (causeFld b).key = 0x10000 * 32 + b := by
  interval_cases b <;> rfl

theorem causeFld_refused {b : Nat} (hb : b < 10) : (causeFld b).key ≠ Reg.idRefused.key := by
  rw [causeFld_key hb]
  have : Reg.idRefused.key = 0x30 * 32 := rfl
  omega

/-- The fields of RST.CAUSE are reached at every level. -/
theorem reaches_cause (s : State) (lv : Level) : (fieldsAt 0x10000).filter (fun f => s.reaches lv f) = fieldsAt 0x10000 := by
  rw [List.filter_eq_self]
  have hplain : ∀ f ∈ fieldsAt 0x10000, f.writable = true ∧ f.wr.rank = 1 ∧ f.addr = 0x10000 := by decide
  intro f hf
  obtain ⟨hw, hr, ha⟩ := hplain f hf
  have hlow : 1 ≤ lv.rank := by cases lv <;> decide
  have hlock : s.locked lv f = false := locked_of_low (by omega) s lv
  have hheld : s.heldField f = false := by
    unfold heldField coreCleared
    simp [ha]
  simp [reaches, hw, hr, hlow, hlock, hheld]

/-- Writes of cause bits, each read as it was before them. -/
theorem get_foldl_cause (k v e : Nat) {l : List Nat} (hl : l.Nodup) (hlt : ∀ b ∈ l, b < 10) (s : State) {b : Nat} (hb : b ∈ l) :
    (l.foldl (fun t b => t.writeField k (causeFld b) (bits v b 1) (bits e b 1)) s).get (causeFld b) =
      w1c (s.get (causeFld b)) (bits v b 1) (bits e b 1) % 2 := by
  have hne : ∀ c ∈ l, c ≠ b → ∀ t : State, (t.writeField k (causeFld c) (bits v c 1) (bits e c 1)).get (causeFld b) = t.get (causeFld b) := by
    intro c hc hcb t
    rw [writeField_cause (hlt c hc)]
    refine t.get_put_ne _ ?_
    rw [causeFld_key (hlt b hb), causeFld_key (hlt c hc)]
    omega
  induction l generalizing s with
  | nil => cases hb
  | cons c r ih =>
    obtain ⟨hc, hr⟩ := List.nodup_cons.mp hl
    have hlt' : ∀ x ∈ r, x < 10 := fun x hx => hlt x (List.mem_cons_of_mem c hx)
    have hne' := fun x hx => hne x (List.mem_cons_of_mem c hx)
    rw [List.foldl_cons]
    rcases List.mem_cons.mp hb with rfl | hb
    · have hrest : ∀ (m : List Nat) (_ : ∀ x ∈ m, x ∈ r) (t : State),
          (m.foldl (fun t b => t.writeField k (causeFld b) (bits v b 1) (bits e b 1)) t).get (causeFld b) = t.get (causeFld b) := by
        intro m
        induction m with
        | nil => exact fun _ _ => rfl
        | cons x m ihm =>
          intro hm t
          have hx : x ∈ r := hm x List.mem_cons_self
          rw [List.foldl_cons, ihm (fun y hy => hm y (List.mem_cons_of_mem x hy)), hne' x hx (fun h => hc (h ▸ hx))]
      rw [hrest r (fun _ h => h), writeField_cause (hlt b List.mem_cons_self), s.get_put_same, (causeFld_lo (hlt b List.mem_cons_self)).2, pow_one]
    · rw [ih hr hlt' _ hb hne', hne c List.mem_cons_self (fun h => hc (h ▸ hb))]

theorem w1c_bit {x v e : Nat} (hx : x < 2) (b : Nat) :
    w1c x (bits v b 1) (bits e b 1) % 2 = if bit v b && !bit e b then 0 else x := by
  unfold w1c bits bit
  rw [pow_one]
  rcases Nat.mod_two_eq_zero_or_one (v / 2 ^ b) with hv | hv <;> rcases Nat.mod_two_eq_zero_or_one (e / 2 ^ b) with he | he <;> rw [hv, he] <;>
    interval_cases x <;> rfl

/-- A 1 clears a cause bit unless an event acts on it in the same cycle, and a 0 leaves it (R12, R13). -/
theorem writeWord_cause (s : State) (k : Nat) (lv : Level) (v e : Nat) {b : Nat} (hb : b < 10) (hbit : s.get (causeFld b) < 2) :
    (s.writeWord k lv 0x10000 v e).get (causeFld b) = if bit v b && !bit e b then 0 else s.get (causeFld b) := by
  have hsame : (if s.refusesWrite lv 0x10000 v then s.refuseAccess else s).get (causeFld b) = s.get (causeFld b) := by
    split
    · exact s.get_put_ne _ (causeFld_refused hb)
    · rfl
  rw [writeWord_plain rfl (by decide) rfl rfl (by decide), reaches_cause, fieldsAt_cause, List.foldl_append, List.foldl_cons, List.foldl_nil,
    writeField_lastReach]
  generalize (if s.refusesWrite lv 0x10000 v then s.refuseAccess else s) = u at hsame
  have hfold : ((List.range 10).map causeFld).foldl (fun t f => t.writeField k f (bits v f.lo f.w) (bits e f.lo f.w)) u =
      (List.range 10).foldl (fun t b => t.writeField k (causeFld b) (bits v b 1) (bits e b 1)) u := by
    rw [List.foldl_map]
    refine List.foldl_ext _ _ _ fun t c hc => ?_
    obtain ⟨hlo, hw⟩ := causeFld_lo (List.mem_range.mp hc)
    rw [hlo, hw]
  have hkey : (causeFld b).key ≠ Reg.rstCauseLastReach.key := by
    rw [causeFld_key hb]
    have : Reg.rstCauseLastReach.key = 0x10000 * 32 + 16 := rfl
    omega
  rw [State.get_put_ne _ _ hkey, hfold, get_foldl_cause k v e List.nodup_range (fun c hc => List.mem_range.mp hc) u (List.mem_range.mpr hb), hsame,
    w1c_bit hbit]

end State

end Sys2Proof.Machine
end

section
/-! SUPPORT. Proofs: register reads and writes by level, lock, latch and window. -/

namespace Sys2Proof.Machine

namespace State

variable {s : State} {path : Nat}

/-! ## Paths (R514) -/

theorem onPath_none {write : Bool} (h : s.pathLevel path write = none) (f : Level → State) : onPath s path write f = .next s := by
  unfold onPath
  rw [h]
  rfl

theorem onPath_some {write : Bool} {lv : Level} (h : s.pathLevel path write = some lv) (f : Level → State) :
    onPath s path write f = .next (f lv) := by
  unfold onPath
  rw [h]

/-- On a path that may not make the access, and at an address that a command does not name, nothing happens. -/
theorem access_barred (s : State) (path a v e : Nat) (ecc : List EccRes) :
    (s.pathLevel path true = none → exec (.registerWrite path a v e) s = .next s) ∧
    (s.pathLevel path false = none →
      exec (.rcRead path a) s = .next s ∧ exec (.loReadLatch path a) s = .next s ∧ exec (.memwinSnapshot path ecc) s = .next s) ∧
    (isLo a = false → exec (.loReadLatch path a) s = .next s) ∧ ((∀ f ∈ fieldsAt a, f.acc ≠ .rc) → exec (.rcRead path a) s = .next s) := by
  refine ⟨fun h => onPath_none h _, fun h => ⟨?_, ?_, onPath_none h _⟩, fun h => if_neg (by simp [h]), fun h => if_neg ?_⟩
  · show (if _ then _ else _) = _
    split
    · exact onPath_none h _
    · rfl
  · show (if _ then _ else _) = _
    split
    · exact onPath_none h _
    · rfl
  · simpa using h

/-! ## Writes -/

theorem exec_registerWrite {lv : Level} (h : s.pathLevel path true = some lv) (a v e : Nat) :
    exec (.registerWrite path a v e) s = .next (s.writeWord path lv a v e) := onPath_some h _

theorem refuseAccess_counts (s : State) : SameRegsBut [Reg.idRefused] s s.refuseAccess ∧
    s.refuseAccess.get Reg.idRefused = min (s.get Reg.idRefused + 1) (2 ^ Reg.idRefused.w - 1) ∧ SameButRegs s s.refuseAccess :=
  ⟨refuseAccess_sameRegsBut s, refuseAccess_counted s, rfl⟩

/-! ## Reads -/

theorem exec_rcRead {lv : Level} {a : Nat} (h : s.pathLevel path false = some lv) (hrc : ∃ f ∈ fieldsAt a, f.acc = .rc) :
    exec (.rcRead path a) s = .next (s.readWord path lv a []).1 := by
  obtain ⟨f, hf, hacc⟩ := hrc
  have hany : (fieldsAt a).any (fun f => f.acc == .rc) = true := List.any_eq_true.mpr ⟨f, hf, by simp [hacc]⟩
  exact (if_pos hany).trans (onPath_some h _)

theorem exec_loReadLatch {lv : Level} {a : Nat} (h : s.pathLevel path false = some lv) (hlo : isLo a = true) :
    exec (.loReadLatch path a) s = .next (s.readWord path lv a []).1 :=
  (if_pos hlo).trans (onPath_some h _)

/-- What a permitted read of a word leaves, MEMWIN.DATA apart. -/
def readState (s : State) (path : Nat) (lv : Level) (a : Nat) : State := ((fieldsAt a).foldl clearRc s).latchHi path lv a true

theorem readWord_readState {lv : Level} {a : Nat} (hs : strikeAddr a = false) (h80 : a ≠ 0x80) (hf : fieldsAt a ≠ [])
    (h : ∀ f ∈ fieldsAt a, f.rd.rank ≤ lv.rank) (s : State) (path : Nat) : (s.readWord path lv a []).1 = s.readState path lv a := by
  rw [readWord_permitted hs hf h, if_neg h80]
  rfl

/-- A read changes the RC fields of its word and its bank alone. -/
theorem readState_of (s : State) (path : Nat) (lv : Level) (a : Nat) : let t := s.readState path lv a
    { t with regs := s.regs, sys := s.sys } = s ∧ SameRegsBut (fieldsAt a) s t ∧
    (∀ f ∈ fieldsAt a, t.get f = if f.acc = .rc ∧ s.heldField f = false then 0 else s.get f) := by
  have hclear := s.clearRcs_rest (l := fieldsAt a)
  have hregs := clearRcs_sameRegsBut (fieldsAt a) s
  have hget := fun f => clearRcs_get (keys_nodup a) s (f := f)
  unfold readState
  generalize (fieldsAt a).foldl clearRc s = u at hclear hregs hget
  have hlatch := u.latchHi_rest path lv a true
  generalize u.latchHi path lv a true = t at hlatch
  have hsame : t.regs = u.regs := (congrArg State.regs hlatch :)
  let kept : State → State := fun v => { v with regs := s.regs, sys := s.sys }
  exact ⟨(congrArg kept hlatch).trans (congrArg (fun v : State => { v with sys := s.sys }) hclear), fun f hf => (State.get_of_regs hsame f).trans (hregs f hf),
    fun f hf => (State.get_of_regs hsame f).trans (hget f hf)⟩

/-! ## CRS_READ and CRS_WRITE (R447) -/

theorem badRange_iff (a k : Nat) : badRange a k = true ↔ a % 4 ≠ 0 ∨ 2 ^ 32 < a + 4 * k := by
  simp [badRange]

theorem writeWords_scratch (k : Nat) (lv : Level) (l : List Nat) (i : Nat) (h : i + l.length ≤ 4) (hl : ∀ v ∈ l, v < 2 ^ 32) (s : State) :
    SameButRegs s (s.writeWords k lv (0x20 + 4 * i) l) ∧
    (∀ j, j < i → (s.writeWords k lv (0x20 + 4 * i) l).get (Reg.idScratch j) = s.get (Reg.idScratch j)) ∧
    (∀ j, j < l.length → (s.writeWords k lv (0x20 + 4 * i) l).get (Reg.idScratch (i + j)) = l.getD j 0) := by
  induction l generalizing i s with
  | nil => exact ⟨rfl, fun _ _ => rfl, fun _ h => absurd h (Nat.not_lt_zero _)⟩
  | cons v r ih =>
    have hlen : i + (r.length + 1) ≤ 4 := h
    have hv : v < 2 ^ 32 := hl v List.mem_cons_self
    obtain ⟨hrest, hbelow, hthere⟩ := ih (i + 1) (by omega) (fun x hx => hl x (List.mem_cons_of_mem v hx)) (s.put (Reg.idScratch i) v)
    have hstep : s.writeWords k lv (0x20 + 4 * i) (v :: r) = (s.put (Reg.idScratch i) v).writeWords k lv (0x20 + 4 * (i + 1)) r :=
      congrArg (fun t : State => t.writeWords k lv (0x20 + 4 * (i + 1)) r) (writeWord_scratch (show i < 4 by omega) hv s k lv 0)
    rw [hstep]
    refine ⟨(congrArg (fun t : State => { t with regs := s.regs }) hrest :), fun j hj => ?_, fun j hj => ?_⟩
    · rw [hbelow j (by omega)]
      refine s.get_put_ne _ (show (0x20 + 4 * j) * 32 + 0 ≠ (0x20 + 4 * i) * 32 + 0 by omega)
    · cases j with
      | zero =>
        refine (hbelow i (Nat.lt_succ_self i)).trans ((s.get_put_same _ _).trans ?_)
        exact Nat.mod_eq_of_lt hv
      | succ j =>
        have hj' : j < r.length := Nat.lt_of_succ_lt_succ hj
        rw [show i + (j + 1) = i + 1 + j by omega, hthere j hj']
        rfl

theorem leNat_lt (l : List Byte) : leNat l < 256 ^ l.length := by
  induction l with
  | nil => exact Nat.one_pos
  | cons b r ih =>
    have hb : b.toNat < 256 := b.isLt
    rw [leNat, List.length_cons, pow_succ]
    omega

theorem fieldAt_lt (l : List Byte) (o n : Nat) : fieldAt l o n < 256 ^ n :=
  (leNat_lt _).trans_le (Nat.pow_le_pow_right (by decide) (List.length_take_le _ _))

theorem length_words (l : List Nat) : (l.flatMap (leBytes 4)).length = 4 * l.length := by
  induction l with
  | nil => rfl
  | cons v r ih =>
    rw [List.flatMap_cons, List.length_append, ih, length_leBytes, List.length_cons]
    ring

end State

open State

/-- A command completes in a device of which registers alone have changed. -/
theorem Starts.finished_regs {s u : State} {n op : Nat} {x : Slot} (h : Starts s n op x) (hu : SameButRegs s u) {code : Nat}
    (hcode : code ≠ rcAborted) (r : List Byte) : Finished s (u.finish x code r) x code r ∧ SameBytes s (u.finish x code r) := by
  have hmbx : u.mbx = s.mbx := (congrArg State.mbx hu :)
  have hslots : SameSlots s u := ⟨by rw [hmbx], by rw [hmbx], by rw [hmbx], by rw [hmbx], (congrArg State.jnl hu :)⟩
  have hbytes : SameBytes s u := .of_mems (congrArg State.hearth0 hu :) (congrArg State.hearth1 hu :) (congrArg State.hbm hu :)
    (congrArg State.stock hu :)
  exact ⟨h.finished hslots hcode r, hbytes.trans (sameBytes_of_mems (State.finish_mems _ _ _ _))⟩

/-- The words that CRS_WRITE writes. -/
def crsWords (x : Slot) : List Nat := (List.range (fieldAt x.arg 4 2)).map (fun i => fieldAt x.arg (8 + 4 * i) 4)

/-- A range that is misaligned or crosses the end of the space is answered BAD_ARGS. -/
theorem Starts.badArgs {s : State} {n op : Nat} {x : Slot} (h : Starts s n op x) :
    Finished s (s.finish x rcBadArgs []) x rcBadArgs [] ∧ { s.finish x rcBadArgs [] with mbx := s.mbx, jnl := s.jnl } = s :=
  ⟨h.finished (.refl s) (by decide) [], s.finish_rest x [] (by decide)⟩

/-- A read completes with the words of its range. -/
theorem crsRead_of {s : State} {n : Nat} {x : Slot} (h : Starts s n 0x0304 x) (ecc : List EccRes)
    (hgood : ¬ (fieldAt x.arg 0 4 % 4 ≠ 0 ∨ 2 ^ 32 < fieldAt x.arg 0 4 + 4 * fieldAt x.arg 4 2)) :
    let a := fieldAt x.arg 0 4
    let k := fieldAt x.arg 4 2
    let lv := s.sessionLevel x.level
    ∃ t r, exec (.crsRead n ecc) s = .next t ∧ r = (s.readWords (2 + x.session) lv ecc a k).2.flatMap (leBytes 4) ∧ r.length = 4 * k ∧
      (k = 1 → r = leBytes 4 (s.readWord (2 + x.session) lv a ecc).2) ∧
      (ecc = [] ∨ a + 4 * k ≤ 0x80 ∨ 0x80 < a → Finished s t x rcOk r ∧ SameBytes s t) := by
  intro a k lv
  have hrange : badRange a k = false := Bool.eq_false_iff.mpr fun e => hgood ((badRange_iff _ _).mp e)
  have hexec : exec (.crsRead n ecc) s = .next ((s.readWords (2 + x.session) lv ecc a k).1.finish x rcOk
      ((s.readWords (2 + x.session) lv ecc a k).2.flatMap (leBytes 4))) := by
    refine (h.exec _).trans ?_
    exact if_neg (by rw [hrange]; decide)
  refine ⟨_, _, hexec, rfl, ?_, fun hk => ?_, fun hecc => ?_⟩
  · rw [length_words, length_readWords]
  · rw [hk]
    exact List.append_nil _
  · obtain ⟨hslots, hbytes⟩ := readWords_keep (2 + x.session) lv k a s hecc
    exact ⟨h.finished hslots (by decide) _, hbytes.trans (sameBytes_of_mems (State.finish_mems _ _ _ _))⟩

/-- A write completes OK, its words written. -/
theorem crsWrite_of {s : State} {n : Nat} {x : Slot} (h : Starts s n 0x0305 x)
    (hgood : ¬ (fieldAt x.arg 0 4 % 4 ≠ 0 ∨ 2 ^ 32 < fieldAt x.arg 0 4 + 4 * fieldAt x.arg 4 2)) :
    let a := fieldAt x.arg 0 4
    let k := fieldAt x.arg 4 2
    let lv := s.sessionLevel x.level
    ∃ t, exec (.crsWrite n) s = .next t ∧
      (k = 1 → t = (s.writeWord (2 + x.session) lv a (fieldAt x.arg 8 4) 0).finish x rcOk []) ∧
      (a = 0x20 → k ≤ 4 → Finished s t x rcOk [] ∧ SameBytes s t ∧ ∀ i, i < k → t.get (Reg.idScratch i) = fieldAt x.arg (8 + 4 * i) 4) := by
  intro a k lv
  have hrange : badRange a k = false := Bool.eq_false_iff.mpr fun e => hgood ((badRange_iff _ _).mp e)
  have hexec : exec (.crsWrite n) s = .next ((s.writeWords (2 + x.session) lv a (crsWords x)).finish x rcOk []) := by
    refine (h.exec _).trans ?_
    exact if_neg (by rw [hrange]; decide)
  refine ⟨_, hexec, fun hk => ?_, fun ha hk => ?_⟩
  · have hwords : crsWords x = [fieldAt x.arg 8 4] := by
      unfold crsWords
      rw [show fieldAt x.arg 4 2 = 1 from hk]
      rfl
    rw [hwords]
    rfl
  · have hlen : (crsWords x).length = k := by simp [crsWords, k]
    have hlt : ∀ v ∈ crsWords x, v < 2 ^ 32 := fun v hv => by
      obtain ⟨i, -, rfl⟩ := List.mem_map.mp hv
      exact fieldAt_lt _ _ _
    obtain ⟨hrest, -, hget⟩ := writeWords_scratch (2 + x.session) lv (crsWords x) 0 (by omega) hlt s
    rw [Nat.mul_zero, Nat.add_zero, ← ha] at hrest hget
    generalize s.writeWords (2 + x.session) lv a (crsWords x) = u at hrest hget
    obtain ⟨hfin, hbytes⟩ := h.finished_regs hrest (code := rcOk) (by decide) []
    refine ⟨hfin, hbytes, fun i hi => ?_⟩
    have hword : (crsWords x).getD i 0 = fieldAt x.arg (8 + 4 * i) 4 := by
      simp [crsWords, show i < fieldAt x.arg 4 2 from hi]
    rw [State.get_finish _ _ _ (by decide), ← hword, ← hget i (hlen ▸ hi), Nat.zero_add]

/-- Settles O57: an access acts on its word alone, by the fields that stand there. -/
theorem registersAreAccessed : Obligations.RegistersAreAccessed := by
  intro s refused
  refine ⟨fun path a v e ecc => s.access_barred path a v e ecc, fun path lv a v e h => ?_, fun path lv h => ⟨fun a hs h80 hrank => ?_,
    fun a hs hlow => ?_, fun ecc => ⟨fun hlv => ?_, fun hlv => ?_⟩⟩, fun n x ecc => ?_⟩
  · have hexec := fun a v => exec_registerWrite h a v e
    refine ⟨⟨_, hexec a v⟩, fun hf hs => ?_, fun i hi hv => ?_, fun hs hf hrank => ?_, fun hlv hb => ?_, _, hexec 0x10000 v, fun b hb hbit =>
      s.writeWord_cause path lv v e hb hbit⟩
    · rw [hexec, writeWord_hole hf hs]
      rfl
    · rw [hexec, writeWord_scratch hi hv]
    · rw [hexec, writeWord_above hs hf hrank]
      rfl
    · exact ⟨_, hexec 0x30000 v, by rw [writeWord_cadCtrl hlv hb]; exact s.refuseAccess_counts⟩
  · obtain ⟨hrest, hregs, hget⟩ := s.readState_of path lv a
    refine ⟨fun hrc => ?_, fun hlo hf => ?_⟩
    · have hf : fieldsAt a ≠ [] := fun e => by
        obtain ⟨f, hf, -⟩ := hrc
        rw [e] at hf
        cases hf
      refine ⟨_, (exec_rcRead h hrc).trans (congrArg _ (readWord_readState hs h80 hf hrank s path)), hregs, hrest, fun hlo => ?_, hget⟩
      unfold readState
      rw [latchHi_of_not hlo]
      exact s.clearRcs_rest _
    · exact ⟨_, (exec_loReadLatch h hlo).trans (congrArg _ (readWord_readState hs h80 hf hrank s path)), hrest, hregs, hget,
        latchHi_latched hlo _ path lv⟩
  · refine ⟨fun hrc hlo => ?_, fun hlo => ?_⟩
    · rw [exec_rcRead h hrc, readWord_refused hs hlow, latchHi_of_not hlo]
      rfl
    · refine ⟨_, (exec_loReadLatch h hlo).trans (congrArg _ (congrArg Prod.fst (readWord_refused hs hlow s path []))), ?_⟩
      have hdrop := latchHi_dropped hlo s path lv
      have hlatch := s.latchHi_rest path lv a false
      dsimp only
      generalize s.latchHi path lv a false = u at hdrop hlatch
      have hregs : u.regs = s.regs := (congrArg State.regs hlatch :)
      have hget : u.get Reg.idRefused = s.get Reg.idRefused := State.get_of_regs hregs _
      refine ⟨hdrop, ?_, (SameRegsBut.of_regs hregs).trans (refuseAccess_sameRegsBut u), ?_⟩
      · rw [← hget]
        exact refuseAccess_counted u
      · exact (congrArg (fun v : State => { v with regs := s.regs }) hlatch :)
  · have hlow : ∃ f ∈ fieldsAt 0x80, lv.rank < f.rd.rank := ⟨Reg.idMemwinData 0, by decide, by rw [hlv]; decide⟩
    refine (onPath_some h _).trans ?_
    rw [readWord_refused rfl hlow, latchHi_of_not rfl]
    rfl
  · refine ⟨_, (onPath_some h _).trans (congrArg _ (readWord_snapshot hlv s path ecc)), ?_⟩
    have hrest := takeSnapshot_rest s path ecc
    have hmems : (s.takeSnapshot path ecc).mems = s.mems := (congrArg State.mems hrest :).trans (s.snapRead_mems path ecc)
    exact ⟨sameBytes_of_mems hmems, hrest, takeSnapshot_hearth, takeSnapshot_hbm, takeSnapshot_stock, takeSnapshot_outside⟩
  · have hbad := (badRange_iff (fieldAt x.arg 0 4) (fieldAt x.arg 4 2)).mpr
    exact ⟨fun h e => ⟨_, (h.exec _).trans (if_pos (hbad e)), h.badArgs⟩, fun h e => crsRead_of h ecc e,
      fun h e => ⟨_, (h.exec _).trans (if_pos (hbad e)), h.badArgs⟩, fun h e => crsWrite_of h e⟩

end Sys2Proof.Machine
end

section
/-! SUPPORT. Proofs: what sending leaves of the ports, and that a packet that became ready stays ready or goes out (R287, R305, R319). -/

namespace Sys2Proof.Machine

/-- Of a port only what sending moves may differ. -/
def SentPort (x y : Port) : Prop :=
  { y with txSeq := x.txSeq, replay := x.replay, sinceIdle := x.sinceIdle, lastData := x.lastData, spent := x.spent, spentAt := x.spentAt
           shared := x.shared, classes := x.classes, sending := x.sending, ready := x.ready, round2 := x.round2, round3 := x.round3
           txNonce := x.txNonce } = x

theorem SentPort.refl (x : Port) : SentPort x x := rfl

theorem SentPort.trans {x y z : Port} (h : SentPort x y) (k : SentPort y z) : SentPort x z := by
  let kept : Port → Port := fun v => { v with
    txSeq := x.txSeq, replay := x.replay, sinceIdle := x.sinceIdle, lastData := x.lastData, spent := x.spent, spentAt := x.spentAt
    shared := x.shared, classes := x.classes, sending := x.sending, ready := x.ready, round2 := x.round2, round3 := x.round3
    txNonce := x.txNonce }
  exact (congrArg kept k :).trans h

/-- A payload that goes out as it was made: not that of an AUDIT, which is filled as it leaves (R308). -/
def FixedBody (b : Payload) : Prop := ∀ seq rcvd freed, b ≠ .audit seq rcvd freed

/-- The registers that count what a device sends. -/
def sentRegs : List Fld := Reg.netAltroute :: (List.range 16).flatMap (fun p => (List.range 4).map (Reg.fabVcTxPkts p))

/-- From `s` to `t` the device has sent packets: those that were ready are so still, or have gone out. -/
structure Sending (s t : State) : Prop where
  regs : SameRegsBut sentRegs s t
  rest : { t with regs := s.regs, ports := s.ports, out := s.out } = s
  port : ∀ q, SentPort (s.port q) (t.port q)
  out : s.out <+: t.out
  ready : ∀ p, ∀ k ∈ (s.port p).ready, FixedBody k.body → Sends s t p k.body

/-- What has been sent in the first step has been sent after the second. -/
theorem Sends.after {r s t : State} {p : Nat} {body : Payload} (h : Sends r s p body) (hout : r.out <+: s.out) (hfix : FixedBody body)
    (k : Sending s t) : Sends r t p body := by
  obtain ⟨pk, rfl, hpk⟩ := h
  obtain ⟨l, hl⟩ := hout
  obtain ⟨m, hm⟩ := k.out
  rcases hpk with hready | ⟨seq, ack, mask, part, ls, hd, hframe⟩
  · obtain ⟨pk', hb, hpk'⟩ := k.ready p pk hready hfix
    refine ⟨pk', hb, hpk'.imp_right ?_⟩
    rintro ⟨seq, ack, mask, part, ls, hd, hframe⟩
    refine ⟨seq, ack, mask, part, ls, hd, ?_⟩
    rw [← hm, List.drop_left] at hframe
    rw [← hm, ← hl, List.append_assoc, List.drop_left]
    exact List.mem_append_right _ hframe
  · refine ⟨pk, rfl, .inr ⟨seq, ack, mask, part, ls, hd, ?_⟩⟩
    rw [← hl, List.drop_left] at hframe
    rw [← hm, ← hl, List.append_assoc, List.drop_left]
    exact List.mem_append_left _ hframe

/-- A ready packet is sent. -/
theorem Sends.of_ready {s t : State} {p : Nat} {k : Packet} (h : k ∈ (t.port p).ready) : Sends s t p k.body := ⟨k, rfl, .inl h⟩

/-- What is emitted from a later device on has been sent from the earlier. -/
theorem Sends.from {r s t : State} {p : Nat} {body : Payload} (h : Sends s t p body) (hout : r.out <+: s.out) (ht : s.out <+: t.out) :
    Sends r t p body := by
  obtain ⟨pk, hb, hpk⟩ := h
  obtain ⟨l, hl⟩ := hout
  obtain ⟨m, hm⟩ := ht
  refine ⟨pk, hb, hpk.imp_right ?_⟩
  rintro ⟨seq, ack, mask, part, ls, hd, hframe⟩
  refine ⟨seq, ack, mask, part, ls, hd, ?_⟩
  rw [← hm, List.drop_left] at hframe
  rw [← hm, ← hl, List.append_assoc, List.drop_left]
  exact List.mem_append_right _ hframe

namespace Sending

theorem refl (s : State) : Sending s s := ⟨.refl _ s, rfl, fun _ => rfl, List.prefix_rfl, fun _ _ h _ => .of_ready h⟩

theorem trans {r s t : State} (h : Sending r s) (k : Sending s t) : Sending r t where
  regs := h.regs.trans k.regs
  rest := by
    let kept : State → State := fun v => { v with regs := r.regs, ports := r.ports, out := r.out }
    exact (congrArg kept k.rest :).trans h.rest
  port q := (h.port q).trans (k.port q)
  out := h.out.trans k.out
  ready p pk hpk hfix := (h.ready p pk hpk hfix).after h.out hfix k

theorem emit {s t : State} (h : Sending s t) (o : Out) : Sending s (t.emit o) :=
  h.trans ⟨.refl _ _, rfl, fun _ => rfl, List.prefix_append _ _, fun _ _ h _ => .of_ready h⟩

theorem count {s t : State} (h : Sending s t) {f : Fld} (hf : f ∈ sentRegs) : Sending s (t.count f) :=
  h.trans ⟨(SameRegsBut.refl _ t).count f 1 hf, rfl, fun _ => rfl, List.prefix_rfl, fun _ _ h _ => .of_ready h⟩

theorem foldl {α : Type} {f : State → α → State} (hf : ∀ t a, Sending t (f t a)) (l : List α) (s : State) : Sending s (l.foldl f s) := by
  induction l generalizing s with
  | nil => exact refl s
  | cons a l ih => exact (hf s a).trans (ih _)

end Sending

namespace State

theorem port_setPort_ne (s : State) {p q : Nat} (x : Port) (h : q ≠ p) : (s.setPort p x).port q = s.port q :=
  Assoc.get_set_ne _ _ _ _ h

/-- A port that keeps its ready packets. -/
theorem setPort_sending (s : State) (p : Nat) {x : Port} (hx : SentPort (s.port p) x) (hready : ∀ k ∈ (s.port p).ready, k ∈ x.ready) :
    Sending s (s.setPort p x) := by
  refine ⟨.refl _ _, rfl, fun q => ?_, List.prefix_rfl, fun q k hk _ => .of_ready ?_⟩
  · by_cases h : q = p
    · rw [h, port_setPort_same]
      exact hx
    · rw [port_setPort_ne s x h]
      exact .refl _
  · by_cases h : q = p
    · rw [h] at hk ⊢
      rw [port_setPort_same]
      exact hready k hk
    · rw [port_setPort_ne s x h]
      exact hk

theorem sendFrame_sending (s : State) (p kind : Nat) (nak : Bool) (seq : Nat) (pk : Option Packet) (part : Nat) :
    Sending s (s.sendFrame p kind nak seq pk part) := by
  unfold sendFrame
  extract_lets x due s1 y
  have h1 : Sending s s1 := by
    unfold s1
    split
    · exact (Sending.refl s).emit _
    · exact .refl s
  have hx : s1.port p = x := by
    unfold s1
    split <;> rfl
  refine (h1.trans (setPort_sending s1 p ?_ ?_)).emit _
  · rw [hx]
    exact SentPort.refl x
  · rw [hx]
    exact fun k hk => hk

/-- The frame goes out last. -/
theorem sendFrame_out (s : State) (p kind : Nat) (nak : Bool) (seq : Nat) (pk : Option Packet) (part : Nat) :
    ∃ l ack mask ls hd, (s.sendFrame p kind nak seq pk part).out = s.out ++ (l ++ [.frame p kind nak seq ack mask pk part ls hd]) := by
  unfold sendFrame
  extract_lets x due s1 y
  have h1 : ∃ l, s1.out = s.out ++ l := by
    unfold s1
    split
    · exact ⟨_, rfl⟩
    · exact ⟨[], (List.append_nil _).symm⟩
  obtain ⟨l, hl⟩ := h1
  exact ⟨l, _, _, _, _, by rw [← List.append_assoc, ← hl]; rfl⟩

theorem endSend_sending (s : State) (p : Nat) (pk : Packet) (off : Nat) : Sending s (s.endSend p pk off) := by
  unfold endSend
  dsimp only
  split
  · exact setPort_sending s p rfl fun k hk => hk
  · exact setPort_sending s p rfl fun k hk => hk

/-- The port once it has counted a packet's next frame. -/
def framed (x : Port) (pk : Packet) (off : Nat) : Port :=
  { x with txSeq := (x.txSeq + 1) % 2 ^ 24
           replay := x.replay ++ [{ seq := (x.txSeq + 1) % 2 ^ 24, kind := 0, packet := some pk, part := off }] }

theorem sendFrames_sending (s : State) (p : Nat) (pk : Packet) (off k : Nat) : Sending s (s.sendFrames p pk off k) := by
  induction k generalizing s off with
  | zero => exact endSend_sending s p pk off
  | succ k ih =>
    unfold sendFrames
    dsimp only
    split
    · exact endSend_sending s p pk off
    · have h1 : Sending s (s.setPort p (framed (s.port p) pk off)) := setPort_sending s p rfl fun k hk => hk
      exact (h1.trans (sendFrame_sending (s.setPort p (framed (s.port p) pk off)) p 0 false _ (some pk) off)).trans (ih _ _)

/-- A packet's next frame goes out where the replay buffer has room. -/
theorem sendFrames_succ (s : State) (p : Nat) {pk : Packet} {off : Nat} (k : Nat) (h : (s.port p).replay.length < 256) (hoff : off < pk.bytes) :
    s.sendFrames p pk off (k + 1) = ((s.setPort p (framed (s.port p) pk off)).sendFrame p 0 false (((s.port p).txSeq + 1) % 2 ^ 24)
      (some pk) off).sendFrames p pk (off + s.frameBytes p) k :=
  if_neg (by omega)

/-- A packet's first frame goes out where the replay buffer has room. -/
theorem sendFrames_first (s : State) (p : Nat) (pk : Packet) (k : Nat) (h : (s.port p).replay.length < 256) :
    Sends s (s.sendFrames p pk 0 (k + 1)) p pk.body := by
  have hpos : 0 < pk.bytes := by
    unfold Packet.bytes
    omega
  rw [sendFrames_succ s p k h hpos]
  have hset : (s.setPort p (framed (s.port p) pk 0)).out = s.out := rfl
  generalize s.setPort p (framed (s.port p) pk 0) = s0 at hset
  obtain ⟨l, ack, mask, ls, hd, hl⟩ := s0.sendFrame_out p 0 false (((s.port p).txSeq + 1) % 2 ^ 24) (some pk) 0
  generalize s0.sendFrame p 0 false (((s.port p).txSeq + 1) % 2 ^ 24) (some pk) 0 = s1 at hl
  obtain ⟨m, hm⟩ := (s1.sendFrames_sending p pk (0 + s.frameBytes p) k).out
  have hmem : Out.frame p 0 false (((s.port p).txSeq + 1) % 2 ^ 24) ack mask (some pk) 0 ls hd ∈
      (s1.sendFrames p pk (0 + s.frameBytes p) k).out.drop s.out.length := by
    rw [← hm, hl, hset, List.append_assoc, List.drop_left]
    exact List.mem_append_left _ (List.mem_append_right _ List.mem_cons_self)
  exact ⟨pk, rfl, .inr ⟨_, _, _, _, _, _, hmem⟩⟩

/-! ## Packets of a port -/

theorem takeCredits_ready {x y : Port} {pk : Packet} (h : takeCredits x pk = some y) : SentPort x y ∧ y.ready = x.ready ∧ y.replay = x.replay := by
  unfold takeCredits at h
  dsimp only at h
  split at h
  · cases h
    exact ⟨rfl, rfl, rfl⟩
  · split at h
    · cases h
      exact ⟨rfl, rfl, rfl⟩
    · split at h
      · cases h
        exact ⟨rfl, rfl, rfl⟩
      · cases h

/-- Credits do not depend on the packets that wait. -/
theorem takeCredits_isSome {x y : Port} (pk : Packet) (hs : y.shared = x.shared) (hc : y.classes = x.classes) :
    (takeCredits y pk).isSome = (takeCredits x pk).isSome := by
  unfold takeCredits
  dsimp only
  rw [hs, hc]
  split
  · rfl
  · split
    · rfl
    · split <;> rfl

theorem hopPacket_body (s : State) (p : Nat) {pk : Packet} (h : FixedBody pk.body) : (s.hopPacket p pk).body = pk.body := by
  unfold hopPacket
  dsimp only
  split
  next e => exact absurd e (h _ _ _)
  · rfl

/-- A packet for which the port holds credits goes out. -/
theorem goOut_sends (s : State) {p : Nat} (hp : p < 16) (pk : Packet) (hc : (takeCredits (s.port p) (s.hopPacket p pk)).isSome = true)
    (hr : (s.port p).replay.length < 256) : Sending s (s.goOut p pk) ∧ Sends s (s.goOut p pk) p (s.hopPacket p pk).body := by
  obtain ⟨x, hx⟩ := Option.isSome_iff_exists.mp hc
  obtain ⟨hsent, hready, hreplay⟩ := takeCredits_ready hx
  have hf : Reg.fabVcTxPkts p ((s.hopPacket p pk).vc % 4) ∈ sentRegs := by
    simp only [sentRegs, List.mem_cons, List.mem_flatMap, List.mem_map, List.mem_range]
    exact .inr ⟨p, hp, _, Nat.mod_lt _ (by decide), rfl⟩
  unfold goOut
  dsimp only
  rw [hx]
  dsimp only
  have hset : Sending s (s.setPort p { x with txNonce := x.txNonce + b2n (s.hopPacket p pk).sealed }) :=
    setPort_sending s p (SentPort.trans hsent rfl) fun k hk => by rw [hready]; exact hk
  have h1 := hset.count hf
  refine ⟨h1.trans (sendFrames_sending ..), ?_⟩
  have hroom : ((s.setPort p { x with txNonce := x.txNonce + b2n (s.hopPacket p pk).sealed }).port p).replay.length < 256 := by
    rw [port_setPort_same]
    show x.replay.length < 256
    rw [hreplay]
    exact hr
  generalize s.setPort p { x with txNonce := x.txNonce + b2n (s.hopPacket p pk).sealed } = u at h1 hroom
  exact (sendFrames_first (u.count _) p _ 255 hroom).from h1.out (sendFrames_sending ..).out

theorem canGo_of {s : State} {p : Nat} {pk : Packet} (h : s.canGo p pk = true) : s.portUp p = true ∧
    (takeCredits (s.port p) (s.hopPacket p pk)).isSome = true ∧ (s.port p).sending = none ∧ (s.port p).replay.length < 256 := by
  unfold canGo at h
  simp only [Bool.and_eq_true, decide_eq_true_eq, Option.isNone_iff_eq_none] at h
  exact ⟨h.1.1.1.1.1, h.1.1.1.2, h.1.1.2, h.2⟩

/-- What a port may send next is ready, and may go. -/
theorem nextReady_of {s : State} {p : Nat} {pk : Packet} (h : s.nextReady p = some pk) : pk ∈ (s.port p).ready ∧ s.canGo p pk = true := by
  unfold nextReady at h
  extract_lets x head two three turn2 at h
  have hhead : ∀ vc k, head vc = some k → k ∈ (s.port p).ready ∧ s.canGo p k = true := by
    intro vc k hk
    unfold head at hk
    split at hk
    next y hy =>
      split at hk
      next hgo =>
        cases hk
        exact ⟨List.mem_of_find?_eq_some hy, hgo⟩
      · cases hk
    · cases hk
  split at h
  next k hk =>
    cases h
    have := List.find?_some hk
    simp only [Bool.and_eq_true] at this
    exact ⟨List.mem_of_find?_eq_some hk, this.2⟩
  next k _ hk =>
    cases h
    exact hhead 0 _ hk
  next k _ _ hk =>
    cases h
    exact hhead 1 _ hk
  · split at h
    · rcases Option.or_eq_some_iff.mp h with h | ⟨-, h⟩
      · exact hhead 2 _ h
      · exact hhead 3 _ h
    · rcases Option.or_eq_some_iff.mp h with h | ⟨-, h⟩
      · exact hhead 3 _ h
      · exact hhead 2 _ h

/-- Of a port only its round may differ (R305). -/
def SameRound (x y : Port) : Prop := { y with round2 := x.round2, round3 := x.round3 } = x

theorem stepRound_of (s : State) (x : Port) (vc : Nat) : SameRound x (s.stepRound x vc) := by
  unfold stepRound
  extract_lets full y
  have hy : SameRound x y := by
    unfold y
    split <;> rfl
  split
  · exact hy
  · split
    · exact hy
    · exact hy

theorem hopPacket_setPort {s : State} {p : Nat} {y : Port} (hn : y.txNonce = (s.port p).txNonce) (hs : y.rxSeq = (s.port p).rxSeq)
    (hr : y.rcvd = (s.port p).rcvd) (hf : y.freed = (s.port p).freed) (pk : Packet) : (s.setPort p y).hopPacket p pk = s.hopPacket p pk := by
  unfold hopPacket
  rw [port_setPort_same]
  dsimp only
  rw [hn, hs, hr, hf]
  rfl

/-- The next ready packet goes out, and the others stay ready. -/
theorem goNext_sending {s : State} {p : Nat} (hp : p < 16) {pk : Packet} (h : s.nextReady p = some pk) {y : Port}
    (hy : SameRound { s.port p with ready := (s.port p).ready.erase pk } y) :
    Sending s ((s.setPort p y).goOut p pk) := by
  obtain ⟨hmem, hgo⟩ := nextReady_of h
  obtain ⟨-, hcredits, -, hroom⟩ := canGo_of hgo
  have hthere : ((s.setPort p y).port p) = y := port_setPort_same ..
  have hhop := hopPacket_setPort (y := y) (congrArg Port.txNonce hy :) (congrArg Port.rxSeq hy :) (congrArg Port.rcvd hy :) (congrArg Port.freed hy :) pk
  obtain ⟨hsend, hsends⟩ := (s.setPort p y).goOut_sends hp pk (by
    rw [hhop, hthere, ← hcredits]
    exact takeCredits_isSome _ (congrArg Port.shared hy :) (congrArg Port.classes hy :)) (by
    rw [hthere]
    exact (congrArg (fun x : Port => x.replay.length) hy :) ▸ hroom)
  have hsent : SentPort (s.port p) y := by
    let kept : Port → Port := fun v => { v with
      txSeq := (s.port p).txSeq, replay := (s.port p).replay, sinceIdle := (s.port p).sinceIdle, lastData := (s.port p).lastData
      spent := (s.port p).spent, spentAt := (s.port p).spentAt, shared := (s.port p).shared, classes := (s.port p).classes
      sending := (s.port p).sending, ready := (s.port p).ready, round2 := (s.port p).round2, round3 := (s.port p).round3
      txNonce := (s.port p).txNonce }
    exact (congrArg kept hy :)
  have hready : y.ready = (s.port p).ready.erase pk := (congrArg Port.ready hy :)
  rw [hhop] at hsends
  generalize (s.setPort p y).goOut p pk = t at hsend hsends
  refine ⟨hsend.regs, (congrArg (fun v : State => { v with ports := s.ports }) hsend.rest :), fun q => ?_, hsend.out, fun q k hk hfix => ?_⟩
  · refine SentPort.trans ?_ (hsend.port q)
    by_cases hq : q = p
    · rw [hq, hthere]
      exact hsent
    · rw [port_setPort_ne s y hq]
      exact .refl _
  · by_cases hq : q = p
    · rw [hq] at hk ⊢
      by_cases hkp : k = pk
      · rw [hkp] at hfix ⊢
        rw [hopPacket_body s p hfix] at hsends
        exact hsends
      · refine hsend.ready p k ?_ hfix
        rw [hthere, hready]
        exact (List.mem_erase_of_ne hkp).mpr hk
    · refine hsend.ready q k ?_ hfix
      rw [port_setPort_ne s y hq]
      exact hk

theorem pumpPort_sending (s : State) {p : Nat} (hp : p < 16) (k : Nat) : Sending s (s.pumpPort p k) := by
  induction k generalizing s with
  | zero => exact .refl s
  | succ k ih =>
    unfold pumpPort
    split
    · exact .refl s
    next pk hpk => exact (goNext_sending hp hpk (s.stepRound_of _ _)).trans (ih _)

theorem sendRest_sending (s : State) (p : Nat) : Sending s (s.sendRest p) := by
  unfold sendRest
  split
  · split
    · exact .refl s
    · exact sendFrames_sending ..
  · exact .refl s

theorem pumpAll_sending (s : State) {p : Nat} (hp : p < 16) : Sending s (s.pumpAll p) :=
  (sendRest_sending s p).trans (pumpPort_sending _ hp _)

theorem sendOn_sending (s : State) {p : Nat} (hp : p < 16) (pk : Packet) : Sending s (s.sendOn p pk) ∧
    (FixedBody pk.body → Sends s (s.sendOn p pk) p pk.body) := by
  unfold sendOn
  dsimp only
  have h1 : Sending s (s.setPort p { s.port p with ready := (s.port p).ready ++ [pk] }) :=
    setPort_sending s p rfl fun k hk => List.mem_append_left _ hk
  have h2 := pumpAll_sending (s.setPort p { s.port p with ready := (s.port p).ready ++ [pk] }) hp
  refine ⟨h1.trans h2, fun hfix => ?_⟩
  refine Sends.after (.of_ready ?_) h1.out hfix h2
  rw [port_setPort_same]
  exact List.mem_append_right _ List.mem_cons_self

/-! ## Routes (R319) -/

/-- A register that no packet counts. -/
theorem get_of_sending {s t : State} (h : Sending s t) {f : Fld} (hf : f.key ≠ Reg.netAltroute.key)
    (hp : ∀ p v, p < 16 → v < 4 → f.key ≠ (Reg.fabVcTxPkts p v).key) : t.get f = s.get f := by
  refine h.regs f fun g hg => ?_
  rcases List.mem_cons.mp hg with rfl | hg
  · exact hf
  · obtain ⟨p, hp', hg⟩ := List.mem_flatMap.mp hg
    obtain ⟨v, hv, rfl⟩ := List.mem_map.mp hg
    exact hp p v (List.mem_range.mp hp') (List.mem_range.mp hv)

theorem get_word_of_sending {s t : State} (h : Sending s t) {p : Nat} {f : Fld} {o : Nat} (ha : f.addr = 0x100000 + 0x1000 * p + o)
    (ho : o < 0x30 ∨ 0x240 ≤ o ∧ o < 0x1000) (hlo : f.lo < 32) : t.get f = s.get f := by
  refine get_of_sending h ?_ fun q v hq hv => ?_
  · have : Reg.netAltroute.key = (0x100000 + 0xC030) * 32 := rfl
    rw [this, Fld.key, ha]
    omega
  · have : (Reg.fabVcTxPkts q v).key = (0x100000 + 0x1000 * q + 0x204 + 0x10 * v) * 32 + 0 := rfl
    rw [this, Fld.key, ha]
    omega

theorem portUp_of_sending {s t : State} (h : Sending s t) (p : Nat) : t.portUp p = s.portUp p := by
  unfold portUp
  rw [get_word_of_sending h (f := Reg.fabCtrlMode p) (o := 0) rfl (by decide) (show 1 < 32 by decide),
    get_word_of_sending h (f := Reg.fabStatusState p) (o := 4) rfl (by decide) (show 0 < 32 by decide)]

theorem linkSealed_of_sending {s t : State} (h : Sending s t) (p : Nat) : t.linkSealed p = s.linkSealed p := by
  have hseal : t.get Reg.netCtrlSeal = s.get Reg.netCtrlSeal := get_of_sending h (by decide) fun q v _ _ => by
    have h1 : (Reg.fabVcTxPkts q v).key = (0x100000 + 0x1000 * q + 0x204 + 0x10 * v) * 32 + 0 := rfl
    have h2 : Reg.netCtrlSeal.key = (0x100000 + 0xC000) * 32 := rfl
    omega
  unfold linkSealed flag
  rw [hseal, get_word_of_sending h (f := Reg.fabSealState p) (o := 0x240) rfl (by decide) (show 0 < 32 by decide)]

theorem jobDown_of_sending {s t : State} (h : Sending s t) (p : Nat) : (t.port p).jobDown = (s.port p).jobDown :=
  (congrArg Port.jobDown (h.port p) :)

/-- What a device sends changes none of its routes. -/
theorem routePort_of_sending {s t : State} (h : Sending s t) (dst : Nat) (early : Bool) : t.routePort dst early = s.routePort dst early := by
  have hnet : t.net = s.net := (congrArg State.net h.rest :)
  unfold routePort
  dsimp only
  rw [hnet]
  congr 1
  refine List.find?_congr fun p _ => ?_
  rw [portUp_of_sending h, linkSealed_of_sending h, jobDown_of_sending h]

/-- A packet with a route is sent on it. -/
theorem sendRouted_sends {s : State} {pk : Packet} {p : Nat} {alt : Bool} (h : s.routePort pk.dst (earlyType pk.type) = some (p, alt)) :
    Sending s (s.sendRouted pk) ∧ (FixedBody pk.body → Sends s (s.sendRouted pk) p pk.body) := by
  have h1 : Sending s (if alt then s.count Reg.netAltroute else s) := by
    split
    · exact (Sending.refl s).count (by simp [sentRegs])
    · exact .refl s
  unfold sendRouted
  rw [h]
  dsimp only
  generalize (if alt then s.count Reg.netAltroute else s) = u at h1
  obtain ⟨h2, h3⟩ := u.sendOn_sending (routePort_lt h) pk
  exact ⟨h1.trans h2, fun hfix => (h3 hfix).from h1.out h2.out⟩

/-- The Quench notices go out, and change nothing but what sending changes (R466). -/
theorem sendNotices_sending (s : State) (m : FaultMsg) : Sending s (s.sendNotices m) := by
  have hroute : ∀ (l : List Nat) (t : State), Sending s t → (∀ a ∈ l, (s.routePort a false).isSome = true) →
      Sending s (l.foldl (fun t a => t.sendRouted (t.newPacket 3 false a 0 0 (.fault m.word0 m.word1 t.addr))) t) := by
    intro l
    induction l with
    | nil => exact fun t ht _ => ht
    | cons a l ih =>
      intro t ht hl
      obtain ⟨⟨p, alt⟩, hp⟩ := Option.isSome_iff_exists.mp (hl a List.mem_cons_self)
      rw [← routePort_of_sending ht] at hp
      refine ih _ (ht.trans (sendRouted_sends (alt := alt) (p := p) hp).1) fun b hb => hl b (List.mem_cons_of_mem a hb)
  exact hroute _ s (.refl s) fun a ha => by
    have := (List.mem_filter.mp ha).2
    simp only [Bool.and_eq_true] at this
    exact this.2

end State

end Sys2Proof.Machine
end

section
/-! SUPPORT. Proofs: what the entry to Quench sets, and what it keeps of the faults collected (R464, R466, Table 17-5). -/

namespace Sys2Proof.Machine

/-- From `s` to `t` commands have completed ABORTED. -/
structure Aborts (s t : State) : Prop where
  regs : SameRegsBut [Reg.mbxAborted] s t
  rest : { t with regs := s.regs, mbx := s.mbx, jnl := s.jnl } = s

namespace Aborts

theorem refl (s : State) : Aborts s s := ⟨.refl _ s, rfl⟩

theorem trans {r s t : State} (h : Aborts r s) (k : Aborts s t) : Aborts r t where
  regs := h.regs.trans k.regs
  rest := by
    let kept : State → State := fun v => { v with regs := r.regs, mbx := r.mbx, jnl := r.jnl }
    exact (congrArg kept k.rest :).trans h.rest

/-- Another mailbox. -/
theorem setMbx (s : State) (m : Mbx) : Aborts s { s with mbx := m } := ⟨.of_regs rfl, rfl⟩

end Aborts

namespace State

theorem finish_aborts (s : State) (x : Slot) (code : Nat) (result : List Byte) : Aborts s (s.finish x code result) := by
  unfold finish
  extract_lets j s0 seq s1 y s2 mbx s3 s4
  have h1 : Aborts s s1 := by
    by_cases hj : j = true
    · have hs0 : s0 = s.flushReset := if_pos hj
      have hs1 : s1 = s0.journal (0x4000 + x.session) x.opcode code x.tag (x.who % 2 ^ 64) (leBytes 32 (Config.sha384 x.arg)) := if_pos hj
      rw [hs1, hs0]
      have hrest := s.flushReset_rest
      exact ⟨.of_regs (congrArg State.regs hrest :), (congrArg (fun v : State => { v with regs := s.regs, mbx := s.mbx }) hrest :)⟩
    · rw [show s1 = s from if_neg hj]
      exact .refl s
  have h3 : Aborts s s3 := h1.trans ⟨.of_regs rfl, rfl⟩
  have h4 : Aborts s s4 := by
    unfold s4
    split
    · exact h3.trans ⟨(SameRegsBut.refl _ s3).count _ _ List.mem_cons_self, rfl⟩
    · exact h3
  split
  · exact h4.trans ⟨.of_regs rfl, rfl⟩
  · exact h4

theorem finishRunning_aborts (s : State) (code : Nat) (result : List Byte) : Aborts s (s.finishRunning code result) := by
  unfold finishRunning
  split
  · split
    · exact finish_aborts ..
    · exact .refl s
  · exact .refl s

theorem abortHalts_aborts (s : State) (k : Nat) : Aborts s (s.abortHalts k) := by
  induction k generalizing s with
  | zero => exact .refl s
  | succ k ih =>
    unfold abortHalts
    split
    · exact .refl s
    next n rest _ =>
      dsimp only
      refine ((Aborts.setMbx s { s.mbx with halts := rest }).trans ?_).trans (ih _)
      split
      · exact finish_aborts ..
      · exact .refl _

theorem abortQueue_aborts (s : State) (k : Nat) : Aborts s (s.abortQueue k) := by
  induction k generalizing s with
  | zero => exact .refl s
  | succ k ih =>
    unfold abortQueue
    split
    · exact .refl s
    next n rest _ =>
      dsimp only
      refine ((Aborts.setMbx s { s.mbx with queue := rest }).trans ?_).trans (ih _)
      split
      · exact finish_aborts ..
      · exact .refl _

theorem abortRunning_aborts (s : State) : Aborts s s.abortRunning := (abortHalts_aborts s _).trans (finishRunning_aborts ..)

theorem barScan_rest (s : State) : ∃ tap, s.barScan = { s with sys := { s.sys with tap := tap } } := by
  unfold barScan
  split
  · exact ⟨_, rfl⟩
  · exact ⟨s.sys.tap, rfl⟩

theorem drivePin_rest (s : State) : { s.drivePin with sys := s.sys } = s := by
  unfold drivePin
  split <;> rfl

/-- The pin is low while the device is in Quench (R462). -/
theorem drivePin_low {s : State} (h : s.life = .quench) (hup : s.domUp 2 = true) : s.drivePin.sys.faultLow = true := by
  unfold drivePin
  rw [if_pos hup]
  simp [h]

/-- The stacks enter self-refresh. -/
def hbmSelf (s : State) : State :=
  (List.range 8).foldl (fun t k => if t.get (Reg.hbmStateMode k) = 2 then t.put (Reg.hbmStateMode k) 3 else t) s

theorem hbmSelf_of (s : State) : SameButRegs s s.hbmSelf ∧ ∀ f : Fld, f.key < 0x700000 * 32 → s.hbmSelf.get f = s.get f := by
  refine List.foldlRecOn _ _ (motive := fun t : State => SameButRegs s t ∧ ∀ f : Fld, f.key < 0x700000 * 32 → t.get f = s.get f)
    ⟨rfl, fun _ _ => rfl⟩ ?_
  rintro t ⟨hrest, hget⟩ k -
  split
  · refine ⟨hrest, fun f hf => (t.get_put_ne _ ?_).trans (hget f hf)⟩
    have : (Reg.hbmStateMode k).addr ≥ 0x700000 := by
      simp only [Reg.hbmStateMode, fld]
      omega
    unfold Fld.key at hf ⊢
    omega
  · exact ⟨hrest, hget⟩

/-- The device in Quench, before its registers tell of it. -/
def quenched (u : State) : State :=
  { u with
    life := .quench, seed := none, cru := { u.cru with quenchMark := true }
    cad := { u.cad with mOn := false, active := false, outLevel := false }, ing := { u.ing with restore := none, replay := none } }

/-- The registers that tell of Quench. -/
def tellsQuench (u : State) : State :=
  (((u.put Reg.cruStatusSeedHeld 0).put Reg.cruScrubBusy 0).put Reg.fltStatusQuench 1).put Reg.fltLegacyOut (u.get Reg.fltLegacyEn)

theorem quench_eq {s : State} (h : s.life ≠ .quench) (m : FaultMsg) : s.quench m =
    (let s2 := (List.range 12).foldl eraseLink (if s.inJob then s.sendNotices m else s)
     (quenched ((s2.abortRunning).abortQueue s2.mbx.queue.length)).hbmSelf.tellsQuench.drivePin.barScan) :=
  if_neg h

/-- What a device that enters Quench is, and what it keeps. -/
structure EntersQuench (s t : State) : Prop where
  life : t.life = .quench
  seed : t.seed = none
  mark : t.cru.quenchMark = true
  faultQ : t.faultQ = s.faultQ
  tells : t.get Reg.fltStatusQuench = 1
  regs : ∀ f : Fld, f.key < 0x40000 * 32 → f.key ≠ Reg.fltStatusQuench.key → f.key ≠ Reg.fltLegacyOut.key → t.get f = s.get f
  pin : s.domUp 2 = true → t.sys.faultLow = true
  mems : t.mems = s.mems

/-- The device in Quench before its registers tell of it, and what it keeps of `s`. -/
structure AtQuench (s u : State) : Prop where
  life : u.life = .quench
  seed : u.seed = none
  mark : u.cru.quenchMark = true
  faultQ : u.faultQ = s.faultQ
  sys : u.sys = s.sys
  regs : ∀ f : Fld, f.key < 0x40000 * 32 → u.get f = s.get f

/-- The notices, the links and the commands of a device that enters Quench leave its faults, its system and its low registers. -/
theorem beforeQuench {s s1 s2 s3 : State} (h1 : Sending s s1) (h2 : { s2 with ports := s1.ports, regs := s1.regs } = s1)
    (hget2 : ∀ f : Fld, f.key < 0x100000 * 32 → s2.get f = s1.get f) (h3 : Aborts s2 s3) :
    s3.faultQ = s.faultQ ∧ s3.sys = s.sys ∧ ∀ f : Fld, f.key < 0x40000 * 32 → s3.get f = s.get f := by
  have hf1 : s1.faultQ = s.faultQ := (congrArg State.faultQ h1.rest :)
  have hf2 : s2.faultQ = s1.faultQ := (congrArg State.faultQ h2 :)
  have hf3 : s3.faultQ = s2.faultQ := (congrArg State.faultQ h3.rest :)
  have hs1 : s1.sys = s.sys := (congrArg State.sys h1.rest :)
  have hs2 : s2.sys = s1.sys := (congrArg State.sys h2 :)
  have hs3 : s3.sys = s2.sys := (congrArg State.sys h3.rest :)
  refine ⟨hf3.trans (hf2.trans hf1), hs3.trans (hs2.trans hs1), fun f hf => ?_⟩
  have hab : f.key ≠ Reg.mbxAborted.key := by
    have : Reg.mbxAborted.key = (0x40000 + 0x38) * 32 := rfl
    omega
  refine (h3.regs f (by simpa using hab)).trans ((hget2 f (by omega)).trans (get_of_sending h1 ?_ fun p v _ _ => ?_))
  · have : Reg.netAltroute.key = (0x100000 + 0xC030) * 32 := rfl
    omega
  · have : (Reg.fabVcTxPkts p v).key = (0x100000 + 0x1000 * p + 0x204 + 0x10 * v) * 32 + 0 := rfl
    omega

theorem quenched_at {s u : State} (hf : u.faultQ = s.faultQ) (hs : u.sys = s.sys)
    (hg : ∀ f : Fld, f.key < 0x40000 * 32 → u.get f = s.get f) : AtQuench s (quenched u).hbmSelf := by
  obtain ⟨h5, hget5⟩ := hbmSelf_of (quenched u)
  have hlife : (quenched u).life = .quench := rfl
  have hseed : (quenched u).seed = none := rfl
  have hmark : (quenched u).cru.quenchMark = true := rfl
  have hfault : (quenched u).faultQ = s.faultQ := hf
  have hsys : (quenched u).sys = s.sys := hs
  have hget : ∀ f, (quenched u).get f = u.get f := fun _ => rfl
  generalize quenched u = v at h5 hget5 hlife hseed hmark hfault hsys hget
  generalize v.hbmSelf = w at h5 hget5
  exact ⟨(congrArg State.life h5 :).trans hlife, (congrArg State.seed h5 :).trans hseed,
    (congrArg (fun v : State => v.cru.quenchMark) h5 :).trans hmark, (congrArg State.faultQ h5 :).trans hfault,
    (congrArg State.sys h5 :).trans hsys, fun f hf => (hget5 f (by omega)).trans ((hget f).trans (hg f hf))⟩

theorem tellsQuench_get (u : State) : u.tellsQuench.get Reg.fltStatusQuench = 1 ∧
    ∀ f : Fld, f.key < 0x40000 * 32 → f.key ≠ Reg.fltStatusQuench.key → f.key ≠ Reg.fltLegacyOut.key → u.tellsQuench.get f = u.get f := by
  refine ⟨(State.get_put_ne _ _ (by decide)).trans (State.get_put_same _ _ _), fun f hf hq hl => ?_⟩
  have hcru : f.key ≠ Reg.cruStatusSeedHeld.key ∧ f.key ≠ Reg.cruScrubBusy.key := by
    have h1 : Reg.cruStatusSeedHeld.key ≥ 0x60000 * 32 := by decide
    have h2 : Reg.cruScrubBusy.key ≥ 0x60000 * 32 := by decide
    omega
  unfold tellsQuench
  rw [State.get_put_ne _ _ hl, State.get_put_ne _ _ hq, State.get_put_ne _ _ hcru.2, State.get_put_ne _ _ hcru.1]

theorem tellsQuench_rest (u : State) : SameButRegs u u.tellsQuench := rfl

/-- What the pins of a device show changes nothing else. -/
theorem pins_rest (u : State) : ∃ tap, u.drivePin.barScan = { u with sys := { u.drivePin.sys with tap := tap } } := by
  obtain ⟨tap, htap⟩ := u.drivePin.barScan_rest
  refine ⟨tap, htap.trans ?_⟩
  exact (congrArg (fun v : State => { v with sys := { u.drivePin.sys with tap := tap } }) u.drivePin_rest :)

/-- The registers and the pins tell of Quench. -/
theorem AtQuench.enters {s u : State} (h : AtQuench s u) (hm : u.tellsQuench.drivePin.barScan.mems = s.mems) :
    EntersQuench s u.tellsQuench.drivePin.barScan := by
  have hlow := u.tellsQuench.drivePin_low (h.life : u.tellsQuench.life = .quench)
  obtain ⟨htells, hregs⟩ := u.tellsQuench_get
  have hsys : u.tellsQuench.sys = s.sys := h.sys
  have hfaults : u.tellsQuench.faultQ = s.faultQ := h.faultQ
  have hlife : u.tellsQuench.life = .quench := h.life
  have hseed : u.tellsQuench.seed = none := h.seed
  have hmark : u.tellsQuench.cru.quenchMark = true := h.mark
  generalize u.tellsQuench = v at hlow htells hregs hsys hfaults hlife hseed hmark hm
  obtain ⟨tap, htap⟩ := v.pins_rest
  rw [htap] at hm ⊢
  refine ⟨hlife, hseed, hmark, hfaults, htells, fun f hf hq hl => (hregs f hf hq hl).trans (h.regs f hf), fun hup => hlow ?_, hm⟩
  unfold domUp
  rw [hsys]
  exact hup

/-- A device that enters Quench. -/
theorem quench_enters {s : State} (h : s.life ≠ .quench) (m : FaultMsg) : EntersQuench s (s.quench m) := by
  have hmems := State.quench_mems s m
  rw [quench_eq h] at hmems ⊢
  have h1 : Sending s (if s.inJob then s.sendNotices m else s) := by
    split
    · exact sendNotices_sending s m
    · exact .refl s
  generalize (if s.inJob then s.sendNotices m else s) = s1 at h1 hmems
  obtain ⟨h2, hget2⟩ := eraseLinks_of s1 (List.range 12) fun p hp => List.mem_range.mp hp
  dsimp only at hmems ⊢
  generalize (List.range 12).foldl eraseLink s1 = s2 at h2 hget2 hmems
  have h3 : Aborts s2 ((s2.abortRunning).abortQueue s2.mbx.queue.length) := (abortRunning_aborts s2).trans (abortQueue_aborts ..)
  generalize (s2.abortRunning).abortQueue s2.mbx.queue.length = s3 at h3 hmems
  obtain ⟨hf3, hs3, hg3⟩ := beforeQuench h1 h2 hget2 h3
  have h5 := quenched_at hf3 hs3 hg3
  generalize (quenched s3).hbmSelf = s5 at h5 hmems
  exact h5.enters hmems

end State

end Sys2Proof.Machine
end

section
/-! SUPPORT. Proofs: what a stop of the job journals and which registers it leaves (R533), and the bits of a legacy field. -/

namespace Sys2Proof.Machine

/-! ## Stops -/

/-- The registers that a stop of the job changes. -/
def stopRegs : List Fld := [Reg.mbxAborted, Reg.ingStatusPhase, Reg.tmpStatusPhase]

namespace State

theorem endRestore_regs (s : State) : SameRegsBut stopRegs s s.endRestore := by
  unfold endRestore
  extract_lets s1
  have h1 : SameRegsBut stopRegs s s1 := by
    unfold s1
    split
    · exact (((SameRegsBut.refl _ s).put Reg.ingStatusPhase 0 (by decide)).put Reg.tmpStatusPhase 0 (by decide))
    · exact .refl _ s
  exact h1.trans (.of_regs rfl)

theorem finishHalts_aborts (s : State) (angle k : Nat) : Aborts s (s.finishHalts angle k) := by
  induction k generalizing s with
  | zero => exact .refl s
  | succ k ih =>
    unfold finishHalts
    split
    · exact .refl s
    next n rest _ =>
      dsimp only
      refine ((Aborts.setMbx s { s.mbx with halts := rest }).trans ?_).trans (ih _)
      split
      · exact finish_aborts ..
      · exact .refl _

theorem Aborts.stopRegs {s t : State} (h : Aborts s t) : SameRegsBut stopRegs s t :=
  h.regs.mono (by simp [Machine.stopRegs])

/-- The stop that has been journalled. -/
def stopNoted (s : State) (cause angle : Nat) : State := (s.stopsAt cause angle).flushReset.journalStop cause angle

theorem stopJob_eq (s : State) {cause : Nat} (angle : Nat) (h : cause ≠ 4) : s.stopJob cause angle =
    (let s4 := (s.stopNoted cause angle).endRestore
     let s5 := s4.finishHalts angle s4.mbx.halts.length
     if s5.runningOp = some 0x0106 ∨ s5.runningOp = some 0x0108 ∨ s5.runningOp = some 0x0203 then s5.finishRunning rcAborted [] else s5) := by
  unfold stopJob
  dsimp only
  rw [if_neg h]
  rfl

theorem stopNoted_regs (s : State) (cause angle : Nat) : (s.stopNoted cause angle).regs = s.regs :=
  (congrArg State.regs (flushReset_rest (s.stopsAt cause angle)) :)

/-- A stop changes none but these registers. -/
theorem stopJob_regs (s : State) {cause : Nat} (angle : Nat) (h : cause ≠ 4) : SameRegsBut stopRegs s (s.stopJob cause angle) := by
  rw [stopJob_eq s angle h]
  have h3 := stopNoted_regs s cause angle
  dsimp only
  generalize s.stopNoted cause angle = s3 at h3
  have h4 := s3.endRestore_regs
  generalize s3.endRestore = s4 at h4
  have h5 := Aborts.stopRegs (s4.finishHalts_aborts angle s4.mbx.halts.length)
  generalize s4.finishHalts angle s4.mbx.halts.length = s5 at h5
  have h35 := ((SameRegsBut.of_regs h3).trans h4).trans h5
  split
  · exact h35.trans (Aborts.stopRegs (finishRunning_aborts ..))
  · exact h35

/-- A stop that completes no command is the newest entry of the journal. -/
theorem stopJob_journals (s : State) {cause : Nat} (angle : Nat) (h : cause ≠ 4) (hhalts : s.mbx.halts = []) (hrun : s.mbx.running = none) :
    (s.stopJob cause angle).jnl.entries.getLast?.map (fun e => (e.origin, e.opcode, e.record)) =
      some (2, 0, record 3 [(33, 1, cause), (36, 6, angle)]) := by
  have hmbx : (s.stopNoted cause angle).mbx = s.mbx := (congrArg State.mbx (flushReset_rest (s.stopsAt cause angle)) :)
  have hlast : (s.stopNoted cause angle).jnl.entries.getLast?.map (fun e => (e.origin, e.opcode, e.record)) =
      some (2, 0, record 3 [(33, 1, cause), (36, 6, angle)]) := by
    unfold stopNoted journalStop journalInternal journal
    simp only [List.getLast?_append, List.getLast?_singleton, Option.some_or, Option.map_some]
  rw [stopJob_eq s angle h]
  dsimp only
  generalize s.stopNoted cause angle = s3 at hmbx hlast
  have h4 := s3.endRestore_rest
  have hmbx4 : s3.endRestore.mbx = s.mbx := (congrArg State.mbx h4 :).trans hmbx
  have hjnl4 : s3.endRestore.jnl = s3.jnl := (congrArg State.jnl h4 :)
  generalize s3.endRestore = s4 at hmbx4 hjnl4
  have h5 : s4.finishHalts angle s4.mbx.halts.length = s4 := by
    rw [hmbx4, hhalts]
    rfl
  have hop : s4.runningOp = none := by
    unfold runningOp
    rw [hmbx4, hrun]
  rw [h5, hop, if_neg (by simp), hjnl4]
  exact hlast

/-! ## Bits of a legacy field -/

theorem get_putBit (s : State) (f : Fld) (k : Nat) (b : Bool) :
    (s.putBit f k b).get f = (if b then s.get f ||| 2 ^ k else s.get f - (if bit (s.get f) k then 2 ^ k else 0)) % 2 ^ f.w :=
  s.get_put_same _ _

theorem putBit_rest (s : State) (f : Fld) (k : Nat) (b : Bool) : SameButRegs s (s.putBit f k b) := rfl

theorem get_putBit_ne (s : State) {f g : Fld} (k : Nat) (b : Bool) (h : g.key ≠ f.key) : (s.putBit f k b).get g = s.get g := s.get_put_ne _ h

end State

theorem bit_eq_testBit (n k : Nat) : bit n k = n.testBit k := by
  unfold bit
  rw [Nat.testBit_eq_decide_div_mod_eq]
  exact beq_eq_decide _ _

end Sys2Proof.Machine
end

section
/-! SUPPORT. Proofs: forced faults, legacy pairs, collector parity, pulses and peers in Quench. -/

namespace Sys2Proof.Machine

namespace State

/-! ## Forced messages (R461, R474) -/

/-- The source's settings, as a write of its word leaves them. -/
def setSrc (s : State) (x : Nat) (mask : Bool) (kind : Nat) : State :=
  (s.put (Reg.fltSrcCfgMask x) (b2n mask)).put (Reg.fltSrcCfgForceKind x) kind

theorem srcCfg_keys (x : Nat) : (Reg.fltSrcCfgForce x).key = (0x28000 + 4 * x) * 32 ∧ (Reg.fltSrcCfgMask x).key = (0x28000 + 4 * x) * 32 + 1 ∧
    (Reg.fltSrcCfgForceKind x).key = (0x28000 + 4 * x) * 32 + 8 := ⟨rfl, rfl, rfl⟩

/-- What the settings of a source read. -/
def CfgIs (t : State) (x : Nat) (mask : Bool) (kind : Nat) : Prop :=
  t.get (Reg.fltSrcCfgMask x) = (if mask then 1 else 0) ∧ t.get (Reg.fltSrcCfgForceKind x) = kind % 256

theorem CfgIs.keep {t u : State} {x : Nat} {mask : Bool} {kind : Nat} (h : CfgIs t x mask kind) {l : List Fld} (hk : SameRegsBut l t u)
    (hm : ∀ g ∈ l, (Reg.fltSrcCfgMask x).key ≠ g.key) (hf : ∀ g ∈ l, (Reg.fltSrcCfgForceKind x).key ≠ g.key) : CfgIs u x mask kind :=
  ⟨(hk _ hm).trans h.1, (hk _ hf).trans h.2⟩

theorem setSrc_of (s : State) (x : Nat) (mask : Bool) (kind : Nat) : CfgIs (s.setSrc x mask kind) x mask kind ∧
    SameButRegs s (s.setSrc x mask kind) ∧ SameRegsBut [Reg.fltSrcCfgMask x, Reg.fltSrcCfgForceKind x] s (s.setSrc x mask kind) := by
  obtain ⟨-, hm, hk⟩ := srcCfg_keys x
  refine ⟨⟨?_, State.get_put_same _ _ _⟩, rfl, ((SameRegsBut.refl _ s).put _ _ (by simp)).put _ _ (by simp)⟩
  refine (State.get_put_ne _ _ (by omega)).trans ((State.get_put_same _ _ _).trans ?_)
  cases mask <;> rfl

/-- A force of a source that is not a legacy pair's raises one message, forced. -/
theorem writeSrcCfg_forced {x kind c : Nat} {s : State} (hl : legacySource x = false) (hc : kindClass s x (kind % 256) = some c) (mask : Bool) :
    s.writeSrcCfg x true mask kind = ((s.setSrc x mask kind).put (Reg.fltSrcCfgForce x) 1).raiseMsg x (kind % 256) c 0 true := by
  unfold writeSrcCfg
  dsimp only
  rw [if_neg (by simp [hl]), if_pos rfl, hc]
  rfl

theorem writeSrcCfg_ignored {x kind : Nat} {s : State} (hl : legacySource x = false) (hc : kindClass s x (kind % 256) = none) (mask : Bool) :
    s.writeSrcCfg x true mask kind = s := by
  unfold writeSrcCfg
  dsimp only
  rw [if_neg (by simp [hl]), if_pos rfl, hc]

theorem raiseMsg_of (s : State) (x kind c : Nat) (f : Bool) : let t := s.raiseMsg x kind c 0 f
    SameRegsBut dropRegs s t ∧ (s.waitingFrom x < 16 → t.faultQ = s.faultQ ++ [s.faultMsg x kind c 0 f]) ∧
    (16 ≤ s.waitingFrom x → t.faultQ = s.faultQ ∧ Counted s t Reg.fltDropped ∧ t.get Reg.fltStatusOvf = 1) ∧
    { t with regs := s.regs, faultQ := s.faultQ } = s := by
  intro t
  unfold t raiseMsg
  split
  next h =>
    refine ⟨((SameRegsBut.refl _ s).count _ _ (by decide)).put _ _ (by decide), fun hw => absurd hw (by omega), fun _ => ⟨rfl, ?_,
      State.get_put_same _ _ _⟩, rfl⟩
    exact (State.get_put_ne _ _ (by decide)).trans (State.get_count_same _ _ _ (by decide))
  next h => exact ⟨.of_regs rfl, fun _ => rfl, fun hw => absurd hw h, rfl⟩

theorem mem_dropRegs_key {f : Fld} (hf : 0x28000 * 32 ≤ f.key) : ∀ g ∈ dropRegs, f.key ≠ g.key := by
  intro g hg
  have : g.key < 0x28000 * 32 := by
    rcases List.mem_cons.mp hg with rfl | hg
    · decide
    · rcases List.mem_singleton.mp hg with rfl
      decide
  omega

theorem forced_of {x kind c : Nat} {s : State} (hl : legacySource x = false) (hc : kindClass s x (kind % 256) = some c) (mask : Bool) :
    let t := s.writeSrcCfg x true mask kind
    CfgIs t x mask kind ∧ t.get (Reg.fltSrcCfgForce x) = 1 ∧
      SameRegsBut (dropRegs ++ [Reg.fltSrcCfgMask x, Reg.fltSrcCfgForceKind x, Reg.fltSrcCfgForce x]) s t ∧
      (s.waitingFrom x < 16 → t.faultQ = s.faultQ ++ [s.faultMsg x (kind % 256) c 0 true]) ∧
      (16 ≤ s.waitingFrom x → t.faultQ = s.faultQ ∧ Counted s t Reg.fltDropped ∧ t.get Reg.fltStatusOvf = 1) ∧
      { t with regs := s.regs, faultQ := s.faultQ } = s := by
  obtain ⟨hf, hm, hk⟩ := srcCfg_keys x
  obtain ⟨hcfg, hrest, hregs⟩ := s.setSrc_of x mask kind
  rw [writeSrcCfg_forced hl hc]
  generalize s.setSrc x mask kind = u at hcfg hrest hregs
  have hput : SameRegsBut [Reg.fltSrcCfgForce x] u (u.put (Reg.fltSrcCfgForce x) 1) := (SameRegsBut.refl _ u).put _ _ (by simp)
  have hforce : (u.put (Reg.fltSrcCfgForce x) 1).get (Reg.fltSrcCfgForce x) = 1 := State.get_put_same _ _ _
  have hsame : SameButRegs u (u.put (Reg.fltSrcCfgForce x) 1) := rfl
  generalize u.put (Reg.fltSrcCfgForce x) 1 = v at hput hforce hsame
  obtain ⟨hraise, hroom, hfull, hlast⟩ := v.raiseMsg_of x (kind % 256) c true
  have hv : { v with regs := s.regs } = s := (congrArg (fun v : State => { v with regs := s.regs }) hsame :).trans hrest
  have hq : v.faultQ = s.faultQ := (congrArg State.faultQ hv :)
  have hwait : v.waitingFrom x = s.waitingFrom x := by
    unfold waitingFrom
    rw [hq]
  have hmsg : v.faultMsg x (kind % 256) c 0 true = s.faultMsg x (kind % 256) c 0 true := by
    unfold faultMsg
    rw [show v.cad = s.cad from (congrArg State.cad hv :)]
  have hdrop : v.get Reg.fltDropped = s.get Reg.fltDropped := by
    have hd : Reg.fltDropped.key = 0x20034 * 32 := rfl
    exact (hput _ (by simp; omega)).trans (hregs _ (by simp; omega))
  dsimp only
  generalize v.raiseMsg x (kind % 256) c 0 true = t at hraise hroom hfull hlast
  rw [hwait, hq, hmsg] at hroom
  rw [hwait, hq] at hfull
  unfold Counted at hfull
  rw [hdrop] at hfull
  refine ⟨?_, ?_, ?_, hroom, hfull, ?_⟩
  · refine (hcfg.keep hput (by simp; omega) (by simp; omega)).keep hraise (mem_dropRegs_key ?_) (mem_dropRegs_key ?_) <;> omega
  · exact (hraise _ (mem_dropRegs_key (by omega))).trans hforce
  · exact ((hregs.mono (by simp)).trans (hput.mono (by simp))).trans (hraise.mono (by simp +contextual))
  · rw [← hq]
    exact (congrArg (fun v : State => { v with regs := s.regs }) hlast :).trans hv

/-- FORCE of a legacy source is a level (R474), ignored while LEGACY_EN reads low. -/
theorem forcedLegacy_of {x : Nat} (hl : legacySource x = true) (s : State) (mask : Bool) (kind : Nat) :
    let t := s.writeSrcCfg x true mask kind
    CfgIs t x mask kind ∧ SameButRegs s t ∧
      (s.get Reg.fltLegacyEn = 1 → t.get (Reg.fltSrcCfgForce x) = 1 ∧
        t.get Reg.fltLegacyForced = (s.get Reg.fltLegacyForced ||| 2 ^ (x - 0xF00)) % 16 ∧
        SameRegsBut [Reg.fltSrcCfgMask x, Reg.fltSrcCfgForceKind x, Reg.fltSrcCfgForce x, Reg.fltLegacyForced] s t) ∧
      (s.get Reg.fltLegacyEn ≠ 1 → SameRegsBut [Reg.fltSrcCfgMask x, Reg.fltSrcCfgForceKind x] s t) := by
  obtain ⟨hf, hm, hk⟩ := srcCfg_keys x
  have hlf : Reg.fltLegacyForced.key = 0x20038 * 32 + 16 := rfl
  obtain ⟨hcfg, hrest, hregs⟩ := s.setSrc_of x mask kind
  by_cases hen : s.get Reg.fltLegacyEn = 1
  · have hw : s.writeSrcCfg x true mask kind = ((s.setSrc x mask kind).put (Reg.fltSrcCfgForce x) 1).put Reg.fltLegacyForced
        (s.get Reg.fltLegacyForced ||| 2 ^ (x - 0xF00)) := by
      unfold writeSrcCfg
      dsimp only
      rw [if_pos hl, if_pos (State.flag_of_one hen), if_pos rfl]
      rfl
    rw [hw]
    generalize s.setSrc x mask kind = u at hcfg hrest hregs
    have hput : SameRegsBut [Reg.fltSrcCfgForce x, Reg.fltLegacyForced] u ((u.put (Reg.fltSrcCfgForce x) 1).put Reg.fltLegacyForced
        (s.get Reg.fltLegacyForced ||| 2 ^ (x - 0xF00))) := ((SameRegsBut.refl _ u).put _ _ (by simp)).put _ _ (by simp)
    refine ⟨hcfg.keep hput (by simp; omega) (by simp; omega), (congrArg (fun v : State => { v with regs := s.regs }) hrest :), fun _ =>
      ⟨?_, State.get_put_same _ _ _, (hregs.mono (by simp +contextual)).trans (hput.mono (by simp +contextual))⟩, fun h => absurd hen h⟩
    exact (State.get_put_ne _ _ (by omega)).trans (State.get_put_same _ _ _)
  · have hw : s.writeSrcCfg x true mask kind = s.setSrc x mask kind := by
      unfold writeSrcCfg
      dsimp only
      rw [if_pos hl, if_neg (by simp [flag, hen])]
      rfl
    rw [hw]
    exact ⟨hcfg, hrest, fun h => absurd h hen, fun _ => hregs⟩

/-! ## Legacy pairs (R470 to R474) -/

theorem execLegacyFault_none {s : State} {k : Nat} {fault : Bool} (h : ¬ (k < 4 ∧ s.get Reg.fltLegacyEn = 1) ∨
    bit (s.get Reg.fltLegacyState) k = fault ∨ (fault = true ∧ bit (s.get Reg.fltLegacyWire) k = true) ∨
    (fault = false ∧ bit (s.get Reg.fltLegacyForced) k = true)) : exec (.legacyFault k fault) s = .next s := by
  show execLegacyFault k fault s = _
  unfold execLegacyFault void
  dsimp only
  by_cases h1 : (decide (4 ≤ k) || !s.flag Reg.fltLegacyEn || bit (s.get Reg.fltLegacyState) k == fault) = true
  · rw [if_pos h1]
  · rw [if_neg h1]
    simp only [Bool.or_eq_true, decide_eq_true_eq, Bool.not_eq_true', flag, beq_eq_false_iff_ne, beq_iff_eq, not_or, ne_eq, not_not] at h1
    obtain ⟨⟨hk, hen⟩, hst⟩ := h1
    rcases h with h | h | ⟨hf, h⟩ | ⟨hf, h⟩
    · exact absurd ⟨by omega, hen⟩ h
    · exact absurd h hst
    · rw [if_pos hf, if_pos h]
    · rw [if_neg (by simp [hf]), if_pos h]

theorem execLegacyWire_none {s : State} {k : Nat} {equal : Bool} (h : ¬ (k < 4 ∧ s.get Reg.fltLegacyEn = 1) ∨
    bit (s.get Reg.fltLegacyWire) k = equal ∨ (equal = true ∧ bit (s.get Reg.fltLegacyForced) k = true)) :
    exec (.legacyWire k equal) s = .next s := by
  show execLegacyWire k equal s = _
  unfold execLegacyWire void
  dsimp only
  by_cases h1 : (decide (4 ≤ k) || !s.flag Reg.fltLegacyEn || bit (s.get Reg.fltLegacyWire) k == equal) = true
  · rw [if_pos h1]
  · rw [if_neg h1]
    simp only [Bool.or_eq_true, decide_eq_true_eq, Bool.not_eq_true', flag, beq_eq_false_iff_ne, beq_iff_eq, not_or, ne_eq, not_not] at h1
    obtain ⟨⟨hk, hen⟩, hwi⟩ := h1
    rcases h with h | h | ⟨hf, h⟩
    · exact absurd ⟨by omega, hen⟩ h
    · exact absurd h hwi
    · rw [if_pos hf, if_pos h]

/-- What a legacy pair raises outside the first 100 ms (R472). -/
def LegacyRaised (s t : State) (k kind : Nat) : Prop :=
  { t with regs := s.regs, faultQ := s.faultQ } = s ∧ (s.sys.window = true → t.faultQ = s.faultQ) ∧
    (s.sys.window = false → Raised s t (srcLegacy k) kind clsU 0)

theorem legacyRaised_of {s u : State} (h : SameButRegs s u) (k kind : Nat) :
    let t := if s.sys.window then u else u.raiseLegacy k kind
    LegacyRaised s t k kind ∧ SameRegsBut dropRegs u t := by
  intro t
  have hq : u.faultQ = s.faultQ := (congrArg State.faultQ h :)
  unfold t
  by_cases hw : s.sys.window = true
  · rw [if_pos hw]
    exact ⟨⟨(congrArg (fun v : State => { v with faultQ := s.faultQ }) h :), fun _ => hq, fun e => absurd (hw.symm.trans e) (by decide)⟩, .refl _ u⟩
  · rw [if_neg hw]
    have hup := u.raise_upd (srcLegacy k) kind clsU 0
    refine ⟨⟨?_, fun e => absurd e hw, fun _ => Raised.of_raise hq (congrArg State.cad h :) _ _ _ _⟩,
      Machine.raise_sameRegsBut u _ _ _ _⟩
    unfold raiseLegacy
    rw [hup]
    exact (congrArg (fun v : State => { v with faultQ := s.faultQ }) h :)

/-- A pair that enters fault. -/
theorem execLegacyFault_enters {s : State} {k : Nat} (hk : k < 4) (hen : s.get Reg.fltLegacyEn = 1)
    (hst : bit (s.get Reg.fltLegacyState) k = false) (hwi : bit (s.get Reg.fltLegacyWire) k = false) :
    exec (.legacyFault k true) s = .next (if s.sys.window then s.putBit Reg.fltLegacyState k true
      else (s.putBit Reg.fltLegacyState k true).raiseLegacy k 0xE0) := by
  show execLegacyFault k true s = _
  unfold execLegacyFault
  dsimp only
  rw [if_neg (by simp [flag, hen, hst]; omega), if_pos rfl, if_neg (by simp [hwi])]

/-- A pair that leaves fault. -/
theorem execLegacyFault_leaves {s : State} {k : Nat} (hk : k < 4) (hen : s.get Reg.fltLegacyEn = 1)
    (hst : bit (s.get Reg.fltLegacyState) k = true) (hfo : ¬ bit (s.get Reg.fltLegacyForced) k = true) :
    exec (.legacyFault k false) s = .next (s.putBit Reg.fltLegacyState k false) := by
  show execLegacyFault k false s = _
  unfold execLegacyFault
  dsimp only
  rw [if_neg (by simp [flag, hen, hst]; omega), if_neg (by decide), if_neg hfo]

/-- A pair whose wires read equal. -/
theorem execLegacyWire_equal {s : State} {k : Nat} (hk : k < 4) (hen : s.get Reg.fltLegacyEn = 1)
    (hwi : bit (s.get Reg.fltLegacyWire) k = false) (hfo : ¬ bit (s.get Reg.fltLegacyForced) k = true) :
    exec (.legacyWire k true) s = .next (if s.sys.window then (s.putBit Reg.fltLegacyWire k true).putBit Reg.fltLegacyState k false
      else ((s.putBit Reg.fltLegacyWire k true).putBit Reg.fltLegacyState k false).raiseLegacy k 0xE1) := by
  show execLegacyWire k true s = _
  unfold execLegacyWire
  dsimp only
  rw [if_neg (by simp [flag, hen, hwi]; omega), if_pos rfl, if_neg hfo]

/-- A pair whose wires read unequal again. -/
theorem execLegacyWire_unequal {s : State} {k : Nat} (hk : k < 4) (hen : s.get Reg.fltLegacyEn = 1)
    (hwi : bit (s.get Reg.fltLegacyWire) k = true) :
    exec (.legacyWire k false) s = .next (s.putBit Reg.fltLegacyWire k false) := by
  show execLegacyWire k false s = _
  unfold execLegacyWire
  dsimp only
  rw [if_neg (by simp [flag, hen, hwi]; omega), if_neg (by decide)]

theorem legacyFields_apart : (∀ g ∈ dropRegs, Reg.fltLegacyState.key ≠ g.key) ∧ (∀ g ∈ dropRegs, Reg.fltLegacyWire.key ≠ g.key) ∧
    (∀ g ∈ dropRegs, Reg.fltLegacySwapped.key ≠ g.key) ∧ Reg.fltLegacyState.key ≠ Reg.fltLegacyWire.key ∧
    Reg.fltLegacyState.key ≠ Reg.fltLegacySwapped.key ∧ Reg.fltLegacyWire.key ≠ Reg.fltLegacySwapped.key := by
  decide

/-! ## The end of the first 100 ms (R472) -/

/-- What the pair `k` does at the end of the first 100 ms. -/
def windowStep (reversed : List Nat) (t : State) (k : Nat) : State :=
  if reversed.contains k then t.putBit Reg.fltLegacySwapped k true
  else if bit (t.get Reg.fltLegacyState) k then t.raiseLegacy k 0xE0
  else if bit (t.get Reg.fltLegacyWire) k then t.raiseLegacy k 0xE1 else t

/-- The message that a pair which still stands in fault raises. -/
def windowMsg (s : State) (reversed : List Nat) (k : Nat) : Option FaultMsg :=
  if k ∈ reversed then none
  else if bit (s.get Reg.fltLegacyState) k then some (s.faultMsg (srcLegacy k) 0xE0 clsU 0 false)
  else if bit (s.get Reg.fltLegacyWire) k then some (s.faultMsg (srcLegacy k) 0xE1 clsU 0 false) else none

theorem windowMsg_source {s : State} {reversed : List Nat} {k : Nat} {m : FaultMsg} (h : windowMsg s reversed k = some m) :
    m.source = srcLegacy k := by
  unfold windowMsg at h
  split at h
  · cases h
  · split at h
    · cases h
      rfl
    · split at h
      · cases h
        rfl
      · cases h

/-- What the first `n` pairs have done. -/
structure Windowed (reversed : List Nat) (s t : State) (n : Nat) : Prop where
  rest : { t with regs := s.regs, faultQ := s.faultQ } = s
  regs : SameRegsBut (Reg.fltLegacySwapped :: dropRegs) s t
  swapped : ∀ k, k < 4 → bit (t.get Reg.fltLegacySwapped) k = (bit (s.get Reg.fltLegacySwapped) k || (decide (k < n) && reversed.contains k))
  faults : (∀ k, k < 4 → s.waitingFrom (srcLegacy k) < 16) → t.faultQ = s.faultQ ++ (List.range n).filterMap (windowMsg s reversed)

theorem Windowed.raise {reversed : List Nat} {s t : State} {n : Nat} (hn : n < 4) (h : Windowed reversed s t n) (hr : n ∉ reversed) {kind : Nat}
    (hm : windowMsg s reversed n = some (s.faultMsg (srcLegacy n) kind clsU 0 false)) : Windowed reversed s (t.raiseLegacy n kind) (n + 1) := by
  obtain ⟨hrest, hregs, hswap, hq⟩ := h
  have hraise := Machine.raise_sameRegsBut t (srcLegacy n) kind clsU 0
  refine ⟨?_, hregs.trans (hraise.mono (by simp +contextual)), fun k hk => ?_, fun hwait => ?_⟩
  · unfold raiseLegacy
    rw [t.raise_upd]
    exact hrest
  · unfold raiseLegacy
    rw [hraise _ legacyFields_apart.2.2.1, hswap k hk]
    by_cases hkn : k = n
    · simp [hkn, hr]
    · have : (k < n + 1) = (k < n) := by
        apply propext
        omega
      simp only [this]
  · have hfaults := hq hwait
    have hroom : t.waitingFrom (srcLegacy n) < 16 := by
      have hnone : ((List.range n).filterMap (windowMsg s reversed)).filter (fun m => m.source == srcLegacy n) = [] := by
        rw [List.filter_eq_nil_iff]
        intro m hm
        obtain ⟨j, hj, hjm⟩ := List.mem_filterMap.mp hm
        have hj' := List.mem_range.mp hj
        rw [windowMsg_source hjm]
        simp only [srcLegacy, beq_iff_eq]
        omega
      have := hwait n hn
      unfold waitingFrom at this ⊢
      rwa [hfaults, List.filter_append, hnone, List.append_nil]
    unfold raiseLegacy
    rw [raise_of_room _ _ _ hroom, List.range_succ, List.filterMap_append]
    dsimp only
    have hcad : t.cad = s.cad := (congrArg State.cad hrest :)
    have hmsg : t.faultMsg (srcLegacy n) kind clsU 0 false = s.faultMsg (srcLegacy n) kind clsU 0 false := by
      unfold faultMsg
      rw [hcad]
    rw [hfaults, hmsg, List.append_assoc]
    simp [hm]

theorem Windowed.step {reversed : List Nat} {s t : State} {n : Nat} (hn : n < 4) (h : Windowed reversed s t n) :
    Windowed reversed s (windowStep reversed t n) (n + 1) := by
  have hstate : t.get Reg.fltLegacyState = s.get Reg.fltLegacyState := h.regs _ (by decide)
  have hwire : t.get Reg.fltLegacyWire = s.get Reg.fltLegacyWire := h.regs _ (by decide)
  unfold windowStep
  rw [hstate, hwire]
  by_cases hr : n ∈ reversed
  · rw [if_pos (by simpa using hr)]
    obtain ⟨hrest, hregs, hswap, hq⟩ := h
    refine ⟨hrest, hregs.trans (((SameRegsBut.refl _ t).put _ _ List.mem_cons_self)), fun k hk => ?_, fun hwait => ?_⟩
    · rw [get_putBit, if_pos rfl, bit_eq_testBit, Nat.testBit_mod_two_pow, Nat.testBit_or, ← bit_eq_testBit, hswap k hk, Nat.testBit_two_pow]
      have : k < Reg.fltLegacySwapped.w := hk
      by_cases hkn : k = n
      · simp [hkn, hr, hkn ▸ this]
      · have hlt : (k < n + 1) = (k < n) := by
          apply propext
          omega
        have hne : ¬ n = k := fun e => hkn e.symm
        simp [this, hne, hlt]
    · rw [List.range_succ, List.filterMap_append]
      have hnone : windowMsg s reversed n = none := if_pos hr
      simp [hnone, ← hq hwait]
      rfl
  · rw [if_neg (by simpa using hr)]
    by_cases h0 : bit (s.get Reg.fltLegacyState) n = true
    · rw [if_pos h0]
      exact h.raise hn hr ((if_neg hr).trans (if_pos h0))
    · rw [if_neg h0]
      by_cases h1 : bit (s.get Reg.fltLegacyWire) n = true
      · rw [if_pos h1]
        exact h.raise hn hr ((if_neg hr).trans ((if_neg h0).trans (if_pos h1)))
      · rw [if_neg h1]
        obtain ⟨hrest, hregs, hswap, hq⟩ := h
        refine ⟨hrest, hregs, fun k hk => ?_, fun hwait => ?_⟩
        · rw [hswap k hk]
          by_cases hkn : k = n
          · simp [hkn, hr]
          · have hlt : (k < n + 1) = (k < n) := by
              apply propext
              omega
            simp only [hlt]
        · have hnone : windowMsg s reversed n = none := (if_neg hr).trans ((if_neg h0).trans (if_neg h1))
          rw [List.range_succ, List.filterMap_append, ← List.append_assoc, ← hq hwait]
          simp [hnone]

theorem windowed_of (reversed : List Nat) (s : State) : ∀ n, n ≤ 4 → Windowed reversed s ((List.range n).foldl (windowStep reversed) s) n
  | 0, _ => ⟨rfl, .refl _ s, fun k _ => by simp, fun _ => by simp⟩
  | n + 1, h => by
    rw [List.range_succ, List.foldl_append]
    exact (windowed_of reversed s n (by omega)).step h

/-! ## Collector parity (R468) -/

/-- The message of the collector is in FIRST_F. -/
def parityNoted (s : State) (m : FaultMsg) : State :=
  (((s.put Reg.fltStatusSelf 1).put64 Reg.fltFirstFLo Reg.fltFirstFHi m.word0).put64 Reg.fltFirstFAngleLo Reg.fltFirstFAngleHi m.word1).put
    Reg.fltStatusFValid 1

theorem word0_lt (m : FaultMsg) : m.word0 < 2 ^ 64 := by
  have h : b2n m.forced ≤ 1 := by
    cases m.forced <;> decide
  unfold FaultMsg.word0
  omega

theorem word1_lt (m : FaultMsg) : m.word1 < 2 ^ 64 := by
  unfold FaultMsg.word1
  omega

theorem put64_sameRegsBut (s : State) (lo hi : Fld) (v : Nat) : SameRegsBut [lo, hi] s (s.put64 lo hi v) :=
  fun _ hf => s.get_put64_ne (hf lo (by simp)) (hf hi (by simp)) v

theorem put64_rest (s : State) (lo hi : Fld) (v : Nat) : SameButRegs s (s.put64 lo hi v) := rfl

theorem put_rest (s : State) (f : Fld) (v : Nat) : SameButRegs s (s.put f v) := rfl

theorem sameButRegs_trans {r s t : State} (h : SameButRegs r s) (k : SameButRegs s t) : SameButRegs r t :=
  (congrArg (fun v : State => { v with regs := r.regs }) k :).trans h

theorem parityNoted_rest (s : State) (m : FaultMsg) : SameButRegs s (s.parityNoted m) :=
  sameButRegs_trans (sameButRegs_trans (sameButRegs_trans (put_rest s _ _) (put64_rest _ _ _ _)) (put64_rest _ _ _ _)) (put_rest _ _ _)

theorem parityNoted_of (s : State) (m : FaultMsg) : let t := s.parityNoted m
    t.get Reg.fltStatusSelf = 1 ∧ t.get Reg.fltStatusFValid = 1 ∧
    (∀ f ∈ [Reg.fltFirstLo, Reg.fltFirstHi, Reg.fltStatusValid], t.get f = s.get f) ∧
    t.get64 Reg.fltFirstFLo Reg.fltFirstFHi = m.word0 ∧ t.get64 Reg.fltFirstFAngleLo Reg.fltFirstFAngleHi = m.word1 := by
  unfold parityNoted
  have h1 : SameRegsBut [Reg.fltStatusSelf] s (s.put Reg.fltStatusSelf 1) := (SameRegsBut.refl _ s).put _ _ (by simp)
  have hself : (s.put Reg.fltStatusSelf 1).get Reg.fltStatusSelf = 1 := State.get_put_same _ _ _
  generalize s.put Reg.fltStatusSelf 1 = s1 at h1 hself
  have h2 := s1.put64_sameRegsBut Reg.fltFirstFLo Reg.fltFirstFHi m.word0
  have hw0 : (s1.put64 Reg.fltFirstFLo Reg.fltFirstFHi m.word0).get64 Reg.fltFirstFLo Reg.fltFirstFHi = m.word0 :=
    (s1.get64_put64 rfl rfl (by decide) _).trans (Nat.mod_eq_of_lt (word0_lt m))
  generalize s1.put64 Reg.fltFirstFLo Reg.fltFirstFHi m.word0 = s2 at h2 hw0
  have h3 := s2.put64_sameRegsBut Reg.fltFirstFAngleLo Reg.fltFirstFAngleHi m.word1
  have hw1 : (s2.put64 Reg.fltFirstFAngleLo Reg.fltFirstFAngleHi m.word1).get64 Reg.fltFirstFAngleLo Reg.fltFirstFAngleHi = m.word1 :=
    (s2.get64_put64 rfl rfl (by decide) _).trans (Nat.mod_eq_of_lt (word1_lt m))
  generalize s2.put64 Reg.fltFirstFAngleLo Reg.fltFirstFAngleHi m.word1 = s3 at h3 hw1
  have h4 : SameRegsBut [Reg.fltStatusFValid] s3 (s3.put Reg.fltStatusFValid 1) := (SameRegsBut.refl _ s3).put _ _ (by simp)
  have hvalid : (s3.put Reg.fltStatusFValid 1).get Reg.fltStatusFValid = 1 := State.get_put_same _ _ _
  generalize s3.put Reg.fltStatusFValid 1 = s4 at h4 hvalid
  refine ⟨?_, hvalid, fun f hf => ?_, ?_, ?_⟩
  · rw [h4 _ (by decide), h3 _ (by decide), h2 _ (by decide), hself]
  · simp only [List.mem_cons, List.not_mem_nil, or_false] at hf
    rcases hf with rfl | rfl | rfl <;> rw [h4 _ (by decide), h3 _ (by decide), h2 _ (by decide), h1 _ (by decide)]
  · rw [get64_of_sameRegsBut h4 (by decide) (by decide), get64_of_sameRegsBut h3 (by decide) (by decide), hw0]
  · rw [get64_of_sameRegsBut h4 (by decide) (by decide), hw1]

theorem execCollectorParity_quenches {s : State} (hup : s.domUp 2 = true) (h : s.life ≠ .quench) (offset : Nat) :
    exec (.collectorParity offset) s = .next ((s.parityNoted (s.faultMsg srcCollector 0xFF clsF (offset % 65536) false)).quench
      (s.faultMsg srcCollector 0xFF clsF (offset % 65536) false)) := by
  show execCollectorParity offset s = _
  unfold execCollectorParity
  dsimp only
  rw [if_neg (by simp [hup]), if_neg h]
  rfl

/-- What the collector noted of a parity error stands in Quench. -/
theorem parityKept {s u : State} {m : FaultMsg} (hrest : SameButRegs s u) (hself : u.get Reg.fltStatusSelf = 1)
    (hfvalid : u.get Reg.fltStatusFValid = 1) (hkeep : ∀ f ∈ [Reg.fltFirstLo, Reg.fltFirstHi, Reg.fltStatusValid], u.get f = s.get f)
    (hword0 : u.get64 Reg.fltFirstFLo Reg.fltFirstFHi = m.word0) (hword1 : u.get64 Reg.fltFirstFAngleLo Reg.fltFirstFAngleHi = m.word1)
    {t : State} (hent : EntersQuench u t) (hup : s.domUp 2 = true) : t.life = .quench ∧
      t.get Reg.fltStatusSelf = 1 ∧ t.get Reg.fltStatusFValid = 1 ∧ t.get Reg.fltStatusQuench = 1 ∧ t.seed = none ∧ t.cru.quenchMark = true ∧
      SameBytes s t ∧ t.faultQ = s.faultQ ∧ (∀ f ∈ [Reg.fltFirstLo, Reg.fltFirstHi, Reg.fltStatusValid], t.get f = s.get f) ∧ t.sys.faultLow = true ∧
      t.get64 Reg.fltFirstFLo Reg.fltFirstFHi = m.word0 ∧ t.get64 Reg.fltFirstFAngleLo Reg.fltFirstFAngleHi = m.word1 := by
  have hget := hent.regs
  have hsys : u.domUp 2 = true := by
    unfold domUp at hup ⊢
    rwa [show u.sys = s.sys from (congrArg State.sys hrest :)]
  refine ⟨hent.life, (hget _ (by decide) (by decide) (by decide)).trans hself, (hget _ (by decide) (by decide) (by decide)).trans hfvalid,
    hent.tells, hent.seed, hent.mark, sameBytes_of_mems (hent.mems.trans (congrArg State.mems hrest :)),
    hent.faultQ.trans (congrArg State.faultQ hrest :), fun f hf => ?_, hent.pin hsys, ?_, ?_⟩
  · refine (hget f ?_ ?_ ?_).trans (hkeep f hf)
    all_goals
      simp only [List.mem_cons, List.not_mem_nil, or_false] at hf
      rcases hf with rfl | rfl | rfl <;> decide
  · rw [← hword0]
    unfold get64
    rw [hget _ (by decide) (by decide) (by decide), hget _ (by decide) (by decide) (by decide)]
  · rw [← hword1]
    unfold get64
    rw [hget _ (by decide) (by decide) (by decide), hget _ (by decide) (by decide) (by decide)]

/-- A parity error of the collector quenches the device at once, and is in FIRST_F alone (R468). -/
theorem parity_of {s : State} (hup : s.domUp 2 = true) (h : s.life ≠ .quench) (offset : Nat) :
    ∃ t, exec (.collectorParity offset) s = .next t ∧ t.life = .quench ∧
      t.get Reg.fltStatusSelf = 1 ∧ t.get Reg.fltStatusFValid = 1 ∧ t.get Reg.fltStatusQuench = 1 ∧ t.seed = none ∧ t.cru.quenchMark = true ∧
      SameBytes s t ∧ t.faultQ = s.faultQ ∧ (∀ f ∈ [Reg.fltFirstLo, Reg.fltFirstHi, Reg.fltStatusValid], t.get f = s.get f) ∧ t.sys.faultLow = true ∧
      t.get64 Reg.fltFirstFLo Reg.fltFirstFHi = (s.faultMsg srcCollector 0xFF clsF (offset % 65536) false).word0 ∧
      t.get64 Reg.fltFirstFAngleLo Reg.fltFirstFAngleHi = (s.faultMsg srcCollector 0xFF clsF (offset % 65536) false).word1 := by
  have hexec := execCollectorParity_quenches hup h offset
  generalize s.faultMsg srcCollector 0xFF clsF (offset % 65536) false = m at hexec ⊢
  have hrest := s.parityNoted_rest m
  obtain ⟨hself, hfvalid, hkeep, hword0, hword1⟩ := s.parityNoted_of m
  have hlife : (s.parityNoted m).life ≠ .quench := by
    rw [show (s.parityNoted m).life = s.life from (congrArg State.life hrest :)]
    exact h
  exact ⟨_, hexec, parityKept hrest hself hfvalid hkeep hword0 hword1 (quench_enters hlife m) hup⟩

/-! ## Peers in Quench (R467) -/

/-- The device that has counted and raised a peer's Quench. -/
def peerNoted (s : State) (src : Nat) : State :=
  ((s.count Reg.fltPeerQuench).put Reg.fltPeerLast src).raise srcBellows 0x4B clsU (src % 2 ^ 14)

theorem peerNoted_of (s : State) (src : Nat) : let t := s.peerNoted src
    { t with regs := s.regs, faultQ := s.faultQ } = s ∧ SameRegsBut (dropRegs ++ [Reg.fltPeerQuench, Reg.fltPeerLast]) s t ∧
    t.get Reg.fltPeerQuench = min (s.get Reg.fltPeerQuench + 1) (2 ^ Reg.fltPeerQuench.w - 1) ∧
    t.get Reg.fltPeerLast = src % 2 ^ Reg.fltPeerLast.w ∧ Raised s t srcBellows 0x4B clsU (src % 2 ^ 14) := by
  intro t
  have h1 : SameRegsBut [Reg.fltPeerQuench, Reg.fltPeerLast] s ((s.count Reg.fltPeerQuench).put Reg.fltPeerLast src) :=
    ((SameRegsBut.refl _ s).count _ _ (by simp)).put _ _ (by simp)
  have hcount : ((s.count Reg.fltPeerQuench).put Reg.fltPeerLast src).get Reg.fltPeerQuench =
      min (s.get Reg.fltPeerQuench + 1) (2 ^ Reg.fltPeerQuench.w - 1) :=
    (State.get_put_ne _ _ (by decide)).trans (State.get_count_same _ _ _ (by decide))
  have hlast : ((s.count Reg.fltPeerQuench).put Reg.fltPeerLast src).get Reg.fltPeerLast = src % 2 ^ Reg.fltPeerLast.w := State.get_put_same _ _ _
  have hrest : SameButRegs s ((s.count Reg.fltPeerQuench).put Reg.fltPeerLast src) := rfl
  unfold t peerNoted
  generalize (s.count Reg.fltPeerQuench).put Reg.fltPeerLast src = u at h1 hcount hlast hrest
  have hraise := Machine.raise_sameRegsBut u srcBellows 0x4B clsU (src % 2 ^ 14)
  have hraised : Raised s (u.raise srcBellows 0x4B clsU (src % 2 ^ 14)) srcBellows 0x4B clsU (src % 2 ^ 14) :=
    Raised.of_raise (t := u) (congrArg State.faultQ hrest :) (congrArg State.cad hrest :) _ _ _ _
  refine ⟨?_, (h1.mono (by simp +contextual)).trans (hraise.mono (by simp +contextual)), (hraise _ (by decide)).trans hcount,
    (hraise _ (by decide)).trans hlast, hraised⟩
  rw [u.raise_upd]
  exact (congrArg (fun v : State => { v with faultQ := s.faultQ }) hrest :)

theorem execQuenchNotice_of {s : State} {src : Nat} {m : Member} (halive : s.alive = true) (hjob : s.inJob = true) (hm : m ∈ s.roster)
    (hsrc : m.addr = src) : exec (.quenchNotice src) s = .next (if (s.peerNoted src).life = .running
      then (s.peerNoted src).stopJob 6 (s.peerNoted src).cad.angle else s.peerNoted src) := by
  have hany : s.roster.any (fun m => m.addr == src) = true := List.any_eq_true.mpr ⟨m, hm, by simp [hsrc]⟩
  exact if_neg (by simp [halive, hjob, hany])

/-- A running device stops for its peer. -/
theorem peerStops {s u : State} (hu : { u with regs := s.regs, faultQ := s.faultQ } = s) {src : Nat}
    (hraised : Raised s u srcBellows 0x4B clsU (src % 2 ^ 14)) :
    let t := u.stopJob 6 u.cad.angle
    Raised s t srcBellows 0x4B clsU (src % 2 ^ 14) ∧ SameBytes s t ∧ t.life = .armed ∧ t.cad = stoppedHere s.cad 6 s.cad.angle ∧
    (s.mbx.halts = [] → s.mbx.running = none → t.jnl.entries.getLast?.map (fun e => (e.origin, e.opcode, e.record)) =
      some (2, 0, State.record 3 [(33, 1, 6), (36, 6, s.cad.angle)])) := by
  have hcad : u.cad = s.cad := (congrArg State.cad hu :)
  have hmbx : u.mbx = s.mbx := (congrArg State.mbx hu :)
  have hmems : u.mems = s.mems := (congrArg State.mems hu :)
  obtain ⟨hfin, -⟩ := u.stopJob_finishes (cause := 6) s.cad.angle (by decide)
  have hjournal := u.stopJob_journals (cause := 6) s.cad.angle (by decide)
  rw [hmbx] at hjournal
  rw [hcad]
  dsimp only
  generalize u.stopJob 6 s.cad.angle = t at hfin hjournal
  have hrest := hfin.rest
  have hmem : t.mems = s.mems := (congrArg State.mems hrest :).trans hmems
  have hq : t.faultQ = u.faultQ := (congrArg State.faultQ hrest :)
  have hc : t.cad = stoppedHere u.cad 6 s.cad.angle := (congrArg State.cad hrest :)
  exact ⟨hraised.of_faultQ hq, sameBytes_of_mems hmem, (congrArg State.life hrest :), hc.trans (hcad ▸ rfl), hjournal⟩

end State

/-- Settles O53: the inputs of the fault collector act by the branches of their commands; a parity error by what the entry to Quench keeps
(`State.quench_enters`), a peer's Quench by what a stop of the job keeps (`State.stopJob_finishes`, `State.stopJob_regs`). -/
theorem faultInputsAct : Obligations.FaultInputsAct := by
  intro s
  refine ⟨fun x mask kind h => ?_, fun x mask kind hup hx => ⟨fun hl hc => ?_, fun c hl hc => ?_, fun hl => ?_⟩, fun k => ⟨fun fault h =>
    State.execLegacyFault_none h, fun equal h => State.execLegacyWire_none h, fun hlive hst hwi => ?_, fun hlive hst hfo => ?_,
    fun hlive hwi hfo => ?_, fun hlive hwi => ?_⟩, fun reversed h => ?_, fun reversed h => ?_, fun offset h => ?_, fun offset hup h => ?_,
    fun offset hup h => ?_, fun h => ?_, fun h => ?_, fun src h => ?_, fun src m halive hjob hm hsrc => ?_, fun h => ?_, fun h => ?_⟩
  · refine if_pos ?_
    rcases h with h | h
    · simp [h]
    · simp [h]
  · exact (if_neg (by simp [hup, hx])).trans (congrArg _ (State.writeSrcCfg_ignored hl hc mask))
  · exact ⟨_, if_neg (by simp [hup, hx]), State.forced_of hl hc mask⟩
  · exact ⟨_, if_neg (by simp [hup, hx]), State.forcedLegacy_of hl s mask kind⟩
  · obtain ⟨hraised, hregs⟩ := State.legacyRaised_of (s.putBit_rest Reg.fltLegacyState k true) k 0xE0
    obtain ⟨hstate, -, -, -, -, -⟩ := State.legacyFields_apart
    exact ⟨_, State.execLegacyFault_enters hlive.1 hlive.2 hst hwi, (hregs _ hstate).trans (s.get_putBit _ _ _), hraised,
      (((SameRegsBut.refl _ s).put _ _ List.mem_cons_self)).trans (hregs.mono (by simp +contextual))⟩
  · refine (State.execLegacyFault_leaves hlive.1 hlive.2 hst hfo).trans ?_
    rfl
  · have hrest : SameButRegs s ((s.putBit Reg.fltLegacyWire k true).putBit Reg.fltLegacyState k false) := rfl
    obtain ⟨hraised, hregs⟩ := State.legacyRaised_of hrest k 0xE1
    obtain ⟨hstate, hwire, -, hne, -, -⟩ := State.legacyFields_apart
    refine ⟨_, State.execLegacyWire_equal hlive.1 hlive.2 hwi hfo, hraised, (hregs _ hwire).trans ?_, (hregs _ hstate).trans ?_, ?_⟩
    · exact (State.get_putBit_ne _ k false hne.symm).trans (s.get_putBit _ _ _)
    · refine (State.get_putBit _ _ _ _).trans ?_
      rw [State.get_putBit_ne s k true hne]
      rfl
    · have hput : SameRegsBut [Reg.fltLegacyState, Reg.fltLegacyWire] s ((s.putBit Reg.fltLegacyWire k true).putBit Reg.fltLegacyState k false) :=
        ((SameRegsBut.refl _ s).put _ _ (by simp)).put _ _ (by simp)
      exact (hput.mono (by simp +contextual)).trans (hregs.mono (by simp +contextual))
  · refine (State.execLegacyWire_unequal hlive.1 hlive.2 hwi).trans ?_
    rfl
  · exact if_pos (by simp [h])
  · obtain ⟨hrest, hregs, hswap, hq⟩ := State.windowed_of reversed { s with sys := { s.sys with window := false } } 4 (by decide)
    refine ⟨_, if_neg (by simp [h]), (congrArg (fun v : State => { v with sys := s.sys }) hrest :), (congrArg State.sys hrest :), hregs,
      fun k hk => ?_, hq⟩
    refine (hswap k hk).trans ?_
    simp [hk]
    rfl
  · exact if_pos (by simp [h])
  · refine (if_neg (by simp [hup])).trans ?_
    exact if_pos h
  · exact State.parity_of hup h offset
  · exact if_neg (by simp [h])
  · refine (if_pos h).trans ?_
    simp only [beq_eq_decide, State.flag]
  · refine if_pos ?_
    rcases h with h | h | h
    · simp [h]
    · simp [h]
    · have hany : s.roster.any (fun m => m.addr == src) = false := by
        rw [List.any_eq_false]
        intro m hm
        simpa using h m hm
      simp [hany]
  · have hexec := State.execQuenchNotice_of halive hjob hm hsrc
    obtain ⟨hrest, hregs, hcount, hlast, hraised⟩ := s.peerNoted_of src
    generalize s.peerNoted src = u at hexec hrest hregs hcount hlast hraised
    have hlife : u.life = s.life := (congrArg State.life hrest :)
    rw [hlife] at hexec
    by_cases hrun : s.life = .running
    · rw [if_pos hrun] at hexec
      obtain ⟨hstopped, hbytes, harmed, hcad, hjournal⟩ := State.peerStops hrest hraised
      have hstop := u.stopJob_regs (cause := 6) u.cad.angle (by decide)
      exact ⟨_, hexec, (hstop _ (by decide)).trans hcount, (hstop _ (by decide)).trans hlast, hstopped, hbytes, fun e => absurd hrun e,
        fun _ => ⟨harmed, hcad, hjournal⟩⟩
    · rw [if_neg hrun] at hexec
      exact ⟨u, hexec, hcount, hlast, hraised, sameBytes_of_mems (congrArg State.mems hrest :), fun _ => ⟨hrest, hregs⟩, fun e => absurd e hrun⟩
  · exact if_neg h
  · exact if_pos h

end Sys2Proof.Machine
end

section
/-! SUPPORT. Proofs: what the patrol reader of a stack, or of Stock, changes (R29, R30, R254). -/

namespace Sys2Proof.Machine

theorem granules_one (g : Nat) : granules (64 * g) 64 = [g] := by
  have h1 : (64 * g + 64 - 1) / 64 + 1 - 64 * g / 64 = 1 := by omega
  have h2 : 64 * g / 64 = g := by omega
  unfold granules
  rw [if_neg (by decide), h1, h2]
  rfl

theorem mem_insertNat_iff {a x : Nat} {l : List Nat} : x ∈ insertNat a l ↔ x = a ∨ x ∈ l := by
  induction l with
  | nil => simp [insertNat]
  | cons b r ih =>
    unfold insertNat
    split
    · simp
    · split
      next h => simp [h]
      · rw [List.mem_cons, ih, List.mem_cons]
        tauto

/-- The error registers of a stack. -/
def hbmErrRegs (k : Nat) : List Fld :=
  [Reg.hbmCeCount k, Reg.hbmUeCount k, Reg.hbmLastUeLo k, Reg.hbmLastUeHi k, Reg.hbmPoisonCount k]

/-- From `s` to `t` granules of one stack have been read. -/
structure ChecksHbm (k : Nat) (s t : State) : Prop where
  regs : SameRegsBut (dropRegs ++ hbmErrRegs k) s t
  rest : { t with regs := s.regs, hbmPoison := s.hbmPoison, faultQ := s.faultQ } = s

namespace ChecksHbm

variable {k : Nat}

theorem refl (s : State) : ChecksHbm k s s := ⟨.refl _ s, rfl⟩

theorem trans {r s t : State} (h : ChecksHbm k r s) (j : ChecksHbm k s t) : ChecksHbm k r t where
  regs := h.regs.trans j.regs
  rest := by
    let kept : State → State := fun v => { v with regs := r.regs, hbmPoison := r.hbmPoison, faultQ := r.faultQ }
    exact (congrArg kept j.rest :).trans h.rest

theorem raise {s t : State} (h : ChecksHbm k s t) (src kind cls addr : Nat) : ChecksHbm k s (t.raise src kind cls addr) := by
  refine h.trans ⟨(raise_sameRegsBut t src kind cls addr).mono (by simp +contextual), ?_⟩
  rw [t.raise_upd]

end ChecksHbm

namespace State

/-- An uncorrectable error has been counted, and its granule poisoned. -/
def hbmPoisoned (s : State) (g : Nat) : State :=
  let s1 := (s.count (Reg.hbmUeCount (stackOf (64 * g)))).put64 (Reg.hbmLastUeLo (stackOf (64 * g))) (Reg.hbmLastUeHi (stackOf (64 * g))) (64 * g)
  { s1 with hbmPoison := insertNat g s1.hbmPoison }

theorem hbmCheck_ue {s : State} {e : EccRes} (hg : 64 * e.granule < hbmBytes) (hp : e.granule ∉ s.hbmPoison) (hue : e.ue = true) :
    s.hbmCheck e = ((s.hbmPoisoned e.granule).countPoison (stackOf (64 * e.granule))).raise (srcHbm (stackOf (64 * e.granule))) 0x19 clsU
      (64 * e.granule) := by
  unfold hbmCheck
  dsimp only
  rw [if_neg (by simp [hp, hg]), if_pos hue]
  rfl

theorem hbmCheck_ce {s : State} {e : EccRes} (hg : 64 * e.granule < hbmBytes) (hp : e.granule ∉ s.hbmPoison) (hue : e.ue = false) :
    s.hbmCheck e = (s.count (Reg.hbmCeCount (stackOf (64 * e.granule)))).raise (srcHbm (stackOf (64 * e.granule))) 0x18 clsC (64 * e.granule) := by
  unfold hbmCheck
  dsimp only
  rw [if_neg (by simp [hp, hg]), if_neg (by simp [hue])]

theorem hbmCheck_none {s : State} {e : EccRes} (h : hbmBytes ≤ 64 * e.granule ∨ e.granule ∈ s.hbmPoison) : s.hbmCheck e = s := by
  unfold hbmCheck
  dsimp only
  exact if_pos (by simpa using h)

theorem hbmPoisoned_checks (s : State) (g : Nat) : ChecksHbm (stackOf (64 * g)) s (s.hbmPoisoned g) := by
  refine ⟨?_, rfl⟩
  have hput : SameRegsBut (dropRegs ++ hbmErrRegs (stackOf (64 * g))) s ((s.count (Reg.hbmUeCount (stackOf (64 * g)))).put64
      (Reg.hbmLastUeLo (stackOf (64 * g))) (Reg.hbmLastUeHi (stackOf (64 * g))) (64 * g)) :=
    (((SameRegsBut.refl _ s).put _ _ (by simp [hbmErrRegs])).put _ _ (by simp [hbmErrRegs])).put _ _ (by simp [hbmErrRegs])
  exact hput.trans (.of_regs rfl)

theorem countPoison_checks (s : State) (k : Nat) : ChecksHbm k s (s.countPoison k) :=
  ⟨(SameRegsBut.refl _ s).put _ _ (by simp [hbmErrRegs]), rfl⟩

theorem hbmCheck_checks (s : State) (e : EccRes) : ChecksHbm (stackOf (64 * e.granule)) s (s.hbmCheck e) := by
  by_cases h : hbmBytes ≤ 64 * e.granule ∨ e.granule ∈ s.hbmPoison
  · rw [hbmCheck_none h]
    exact .refl s
  · rw [not_or, Nat.not_le] at h
    cases hue : e.ue with
    | true =>
      rw [hbmCheck_ue h.1 h.2 hue]
      exact ((s.hbmPoisoned_checks e.granule).trans (countPoison_checks _ _)).raise _ _ _ _
    | false =>
      rw [hbmCheck_ce h.1 h.2 hue]
      exact ChecksHbm.raise ⟨(SameRegsBut.refl _ s).put _ _ (by simp [hbmErrRegs]), rfl⟩ _ _ _ _

/-- The errors that the read of one granule reports. -/
theorem hbmChecks_one (s : State) (g : Nat) (ecc : List EccRes) : s.hbmChecks (64 * g) 64 ecc = (ecc.filter (fun e => e.granule == g)).foldl hbmCheck s := by
  unfold hbmChecks
  rw [granules_one]
  congr 2
  funext e
  rw [Bool.eq_iff_iff]
  simp

theorem hbmChecks_checks (s : State) (g : Nat) (ecc : List EccRes) : ChecksHbm (stackOf (64 * g)) s (s.hbmChecks (64 * g) 64 ecc) := by
  rw [hbmChecks_one]
  refine List.foldlRecOn _ _ (motive := fun t => ChecksHbm (stackOf (64 * g)) s t) (.refl s) fun t ht e he => ht.trans ?_
  have hg : e.granule = g := by simpa using (List.mem_filter.mp he).2
  rw [← hg]
  exact t.hbmCheck_checks e

/-- A granule that is poisoned already, or that reads without an error, changes nothing. -/
theorem hbmChecks_none {s : State} {g : Nat} {ecc : List EccRes} (h : g ∈ s.hbmPoison ∨ ∀ e ∈ ecc, e.granule ≠ g) :
    s.hbmChecks (64 * g) 64 ecc = s := by
  rw [hbmChecks_one]
  refine List.foldlRecOn _ _ (motive := fun t => t = s) rfl fun t ht e he => ?_
  obtain ⟨hmem, hg⟩ := List.mem_filter.mp he
  have hg : e.granule = g := by simpa using hg
  rw [ht]
  refine hbmCheck_none (.inr ?_)
  rw [hg]
  exact h.resolve_right fun hn => hn e hmem hg

/-! ## The patrol of a stack -/

/-- The granule has been read, and a job's write of it in the same cycle has lifted its poison (R30). -/
def patrolled (s : State) (g stack : Nat) (ecc : List EccRes) (written : Bool) : State :=
  let t := s.hbmChecks (64 * g) 64 ecc
  if written && !s.hbmPoison.contains g then ({ t with hbmPoison := t.hbmPoison.filter (fun x => x != g) }).countPoison stack else t

/-- The patrol reader of the stack runs. -/
def PatrolUp (s : State) (stack : Nat) : Prop :=
  stack < 8 ∧ s.domUp (8 + stack / 4) = true ∧ s.get (Reg.hbmPatrolEn stack) = 1 ∧ s.get (Reg.hbmStateMode stack) = 2

theorem patrol_none {s : State} {stack : Nat} (h8 : stack ≠ 8) (h : ¬ PatrolUp s stack) (ecc : List EccRes) (written : Bool) :
    exec (.patrolRead stack ecc written) s = .next s := by
  show execPatrolRead stack ecc s written = _
  unfold execPatrolRead
  rw [if_neg h8]
  refine if_pos ?_
  unfold PatrolUp at h
  simp only [Bool.or_eq_true, decide_eq_true_eq, Bool.not_eq_true', flag, beq_eq_false_iff_ne, bne_iff_ne]
  by_contra hn
  simp only [not_or, not_le, ne_eq, not_not, Bool.not_eq_false] at hn
  exact h ⟨hn.1.1.1, hn.1.1.2, hn.1.2, hn.2⟩

theorem patrol_up {s : State} {stack : Nat} (h : PatrolUp s stack) (ecc : List EccRes) (written : Bool) :
    exec (.patrolRead stack ecc written) s = .next ((s.patrolled (stack * stackGranules + s.get (Reg.hbmPatrolPos stack)) stack ecc written).put
      (Reg.hbmPatrolPos stack) ((s.get (Reg.hbmPatrolPos stack) + 1) % stackGranules)) := by
  obtain ⟨h8, hdom, hen, hmode⟩ := h
  show execPatrolRead stack ecc s written = _
  unfold execPatrolRead
  rw [if_neg (by omega), if_neg (by simp [flag, hdom, hen, hmode]; omega)]
  rfl

theorem patrolled_rest (s : State) (g stack : Nat) (ecc : List EccRes) (written : Bool) :
    SameRegsBut (dropRegs ++ (hbmErrRegs (stackOf (64 * g)) ++ [Reg.hbmPoisonCount stack])) s (s.patrolled g stack ecc written) ∧
    { s.patrolled g stack ecc written with regs := s.regs, faultQ := s.faultQ, hbmPoison := s.hbmPoison } = s := by
  have h := s.hbmChecks_checks g ecc
  unfold patrolled
  dsimp only
  generalize s.hbmChecks (64 * g) 64 ecc = t at h
  have hregs : SameRegsBut (dropRegs ++ (hbmErrRegs (stackOf (64 * g)) ++ [Reg.hbmPoisonCount stack])) s t :=
    h.regs.mono (by simp +contextual [or_imp])
  split
  · refine ⟨hregs.trans ((SameRegsBut.of_regs rfl).trans ((SameRegsBut.refl _ _).put _ _ (by simp))), h.rest⟩
  · exact ⟨hregs, h.rest⟩

theorem hbmErr_keys (k : Nat) : (Reg.hbmCeCount k).key = (0x700004 + 0x1000 * k) * 32 ∧ (Reg.hbmUeCount k).key = (0x700008 + 0x1000 * k) * 32 ∧
    (Reg.hbmPoisonCount k).key = (0x70000C + 0x1000 * k) * 32 ∧ (Reg.hbmLastUeLo k).key = (0x700010 + 0x1000 * k) * 32 ∧
    (Reg.hbmLastUeHi k).key = (0x700014 + 0x1000 * k) * 32 ∧ (Reg.hbmPatrolPos k).key = (0x70001C + 0x1000 * k) * 32 := by
  simp only [Fld.key, Reg.hbmCeCount, Reg.hbmUeCount, Reg.hbmPoisonCount, Reg.hbmLastUeLo, Reg.hbmLastUeHi, Reg.hbmPatrolPos, fld]
  omega

theorem dropRegs_low : ∀ g ∈ dropRegs, g.key < 0x700000 * 32 := by decide

/-- What a correctable error leaves. -/
theorem hbmCe_of {s : State} {g : Nat} (hg : 64 * g < hbmBytes) (hp : g ∉ s.hbmPoison) : let k := stackOf (64 * g)
    let t := s.hbmChecks (64 * g) 64 [{ granule := g, ue := false }]
    Counted s t (Reg.hbmCeCount k) ∧ t.hbmPoison = s.hbmPoison ∧ Raised s t (srcHbm k) 0x18 clsC (64 * g) := by
  intro k t
  have ht : t = (s.count (Reg.hbmCeCount k)).raise (srcHbm k) 0x18 clsC (64 * g) := by
    unfold t
    rw [hbmChecks_one, List.filter_cons_of_pos (by simp)]
    exact hbmCheck_ce (e := { granule := g, ue := false }) hg hp rfl
  obtain ⟨hce, -⟩ := hbmErr_keys k
  have hraise := Machine.raise_sameRegsBut (s.count (Reg.hbmCeCount k)) (srcHbm k) 0x18 clsC (64 * g)
  rw [ht]
  refine ⟨(hraise _ fun f hf => ?_).trans (State.get_count_same _ _ _ (show 0 < 32 by decide)), ?_, .of_raise (t := s.count (Reg.hbmCeCount k)) rfl rfl _ _ _ _⟩
  · have := dropRegs_low f hf
    omega
  · rw [State.raise_upd]
    rfl

/-- What an uncorrectable error leaves. -/
theorem hbmUe_of {s : State} {g : Nat} (hg : 64 * g < hbmBytes) (hp : g ∉ s.hbmPoison) : let k := stackOf (64 * g)
    let t := s.hbmChecks (64 * g) 64 [{ granule := g, ue := true }]
    Counted s t (Reg.hbmUeCount k) ∧ t.get64 (Reg.hbmLastUeLo k) (Reg.hbmLastUeHi k) = 64 * g ∧ Raised s t (srcHbm k) 0x19 clsU (64 * g) ∧
      t.hbmPoison = insertNat g s.hbmPoison := by
  intro k t
  have ht : t = ((s.hbmPoisoned g).countPoison k).raise (srcHbm k) 0x19 clsU (64 * g) := by
    unfold t
    rw [hbmChecks_one, List.filter_cons_of_pos (by simp)]
    exact hbmCheck_ue (e := { granule := g, ue := true }) hg hp rfl
  obtain ⟨-, hue, hpc, hlo, hhi, -⟩ := hbmErr_keys k
  have hcount : (s.count (Reg.hbmUeCount k)).get (Reg.hbmUeCount k) = min (s.get (Reg.hbmUeCount k) + 1) (2 ^ (Reg.hbmUeCount k).w - 1) :=
    State.get_count_same _ _ _ (show 0 < 32 by decide)
  have hpois : (s.count (Reg.hbmUeCount k)).hbmPoison = s.hbmPoison := rfl
  have hq : (s.count (Reg.hbmUeCount k)).faultQ = s.faultQ ∧ (s.count (Reg.hbmUeCount k)).cad = s.cad := ⟨rfl, rfl⟩
  have hput : s.hbmPoisoned g = { (s.count (Reg.hbmUeCount k)).put64 (Reg.hbmLastUeLo k) (Reg.hbmLastUeHi k) (64 * g) with
      hbmPoison := insertNat g (s.count (Reg.hbmUeCount k)).hbmPoison } := rfl
  rw [ht, hput]
  generalize s.count (Reg.hbmUeCount k) = u at hcount hpois hq
  have hcount2 : (u.put64 (Reg.hbmLastUeLo k) (Reg.hbmLastUeHi k) (64 * g)).get (Reg.hbmUeCount k) = u.get (Reg.hbmUeCount k) :=
    get_put64_ne _ (by omega) (by omega) _
  have hword : (u.put64 (Reg.hbmLastUeLo k) (Reg.hbmLastUeHi k) (64 * g)).get64 (Reg.hbmLastUeLo k) (Reg.hbmLastUeHi k) = 64 * g := by
    unfold get64 put64
    rw [State.get_put_ne _ _ (by omega), State.get_put_same, State.get_put_same]
    have h8 : (Reg.hbmLastUeHi k).w = 8 := rfl
    have h32 : (Reg.hbmLastUeLo k).w = 32 := rfl
    rw [h8, h32]
    unfold hbmBytes at hg
    omega
  have hkeep : (u.put64 (Reg.hbmLastUeLo k) (Reg.hbmLastUeHi k) (64 * g)).faultQ = u.faultQ ∧
      (u.put64 (Reg.hbmLastUeLo k) (Reg.hbmLastUeHi k) (64 * g)).cad = u.cad := ⟨rfl, rfl⟩
  generalize u.put64 (Reg.hbmLastUeLo k) (Reg.hbmLastUeHi k) (64 * g) = v at hcount2 hword hkeep
  have hpcount : ∀ f : Fld, f.key ≠ (Reg.hbmPoisonCount k).key → ({ v with hbmPoison := insertNat g u.hbmPoison } : State).get f =
      ({ v with hbmPoison := insertNat g u.hbmPoison }.countPoison k).get f := fun f hf => (State.get_put_ne _ _ hf).symm
  have hw : ({ v with hbmPoison := insertNat g u.hbmPoison }.countPoison k).hbmPoison = insertNat g u.hbmPoison ∧
      ({ v with hbmPoison := insertNat g u.hbmPoison }.countPoison k).faultQ = v.faultQ ∧
      ({ v with hbmPoison := insertNat g u.hbmPoison }.countPoison k).cad = v.cad := ⟨rfl, rfl, rfl⟩
  generalize { v with hbmPoison := insertNat g u.hbmPoison }.countPoison k = w at hpcount hw
  have hraise := Machine.raise_sameRegsBut w (srcHbm k) 0x19 clsU (64 * g)
  have hsame : ∀ f : Fld, 0x700000 * 32 ≤ f.key → f.key ≠ (Reg.hbmPoisonCount k).key → (w.raise (srcHbm k) 0x19 clsU (64 * g)).get f = v.get f := by
    intro f hf hne
    refine (hraise f fun x hx => ?_).trans (hpcount f hne).symm
    have := dropRegs_low x hx
    omega
  refine ⟨(hsame _ (by omega) (by omega)).trans (hcount2.trans hcount), ?_, .of_raise (t := w) (hw.2.1.trans (hkeep.1.trans hq.1))
    (hw.2.2.trans (hkeep.2.trans hq.2)) _ _ _ _, ?_⟩
  · refine Eq.trans ?_ hword
    unfold get64
    rw [hsame _ (by omega) (by omega), hsame _ (by omega) (by omega)]
  · rw [State.raise_upd]
    exact hw.1.trans (congrArg _ hpois)

/-- A register that only a written granule's poison count may change. -/
theorem patrolled_get {s : State} {g stack : Nat} {ecc : List EccRes} {written : Bool} {f : Fld} (hf : f.key ≠ (Reg.hbmPoisonCount stack).key) :
    (s.patrolled g stack ecc written).get f = (s.hbmChecks (64 * g) 64 ecc).get f := by
  unfold patrolled
  dsimp only
  split
  · exact State.get_put_ne _ _ hf
  · rfl

theorem patrolled_faultQ (s : State) (g stack : Nat) (ecc : List EccRes) (written : Bool) :
    (s.patrolled g stack ecc written).faultQ = (s.hbmChecks (64 * g) 64 ecc).faultQ := by
  unfold patrolled
  dsimp only
  split <;> rfl

theorem patrolled_poison {s : State} {g stack : Nat} (hp : g ∉ s.hbmPoison) (ecc : List EccRes) (written : Bool) :
    (s.patrolled g stack ecc written).hbmPoison = if written then (s.hbmChecks (64 * g) 64 ecc).hbmPoison.filter (fun x => x != g)
      else (s.hbmChecks (64 * g) 64 ecc).hbmPoison := by
  unfold patrolled
  cases written with
  | true => simp [hp, countPoison]
  | false => rfl

theorem filter_ne_self {g : Nat} {l : List Nat} (h : g ∉ l) : l.filter (fun x => x != g) = l := by
  rw [List.filter_eq_self]
  intro x hx
  simp only [bne_iff_ne]
  exact fun e => h (e ▸ hx)

theorem mem_filter_insertNat {g x : Nat} {l : List Nat} (h : x ≠ g) : x ∈ (insertNat g l).filter (fun y => y != g) ↔ x ∈ l := by
  rw [List.mem_filter, mem_insertNat_iff]
  simp [h]

end State

/-- What a patrol reads in a stack. -/
theorem patrolStack_of {s : State} {stack : Nat} (hup : State.PatrolUp s stack) (ecc : List EccRes) (written : Bool) :
    let p := s.get (Reg.hbmPatrolPos stack)
    let g := stack * stackGranules + p
    let k := stackOf (64 * g)
    let errs := [Reg.hbmCeCount k, Reg.hbmUeCount k, Reg.hbmLastUeLo k, Reg.hbmLastUeHi k, Reg.hbmPoisonCount k, Reg.hbmPoisonCount stack]
    ∃ t, exec (.patrolRead stack ecc written) s = .next t ∧
        t.get (Reg.hbmPatrolPos stack) = (p + 1) % stackGranules % 2 ^ (Reg.hbmPatrolPos stack).w ∧
        SameRegsBut (dropRegs ++ Reg.hbmPatrolPos stack :: errs) s t ∧ { t with regs := s.regs, faultQ := s.faultQ, hbmPoison := s.hbmPoison } = s ∧
        (g ∈ s.hbmPoison ∨ (∀ e ∈ ecc, e.granule ≠ g) → SameRegsBut [Reg.hbmPatrolPos stack, Reg.hbmPoisonCount stack] s t ∧ t.faultQ = s.faultQ ∧
          t.hbmPoison = s.hbmPoison) ∧
        (g ∉ s.hbmPoison → g < 8 * stackGranules → (ecc = [{ granule := g, ue := false }] → Counted s t (Reg.hbmCeCount k) ∧ t.hbmPoison = s.hbmPoison ∧
            Raised s t (srcHbm k) 0x18 clsC (64 * g)) ∧
          (ecc = [{ granule := g, ue := true }] → Counted s t (Reg.hbmUeCount k) ∧ t.get64 (Reg.hbmLastUeLo k) (Reg.hbmLastUeHi k) = 64 * g ∧
            Raised s t (srcHbm k) 0x19 clsU (64 * g) ∧ (written = false → g ∈ t.hbmPoison) ∧ (written = true → g ∉ t.hbmPoison) ∧
            ∀ x, x ≠ g → (x ∈ t.hbmPoison ↔ x ∈ s.hbmPoison))) := by
  have hexec := State.patrol_up hup ecc written
  have hpos := State.get_put_same (s.patrolled (stack * stackGranules + s.get (Reg.hbmPatrolPos stack)) stack ecc written) (Reg.hbmPatrolPos stack)
    ((s.get (Reg.hbmPatrolPos stack) + 1) % stackGranules)
  dsimp only
  generalize stack * stackGranules + s.get (Reg.hbmPatrolPos stack) = g at hexec hpos ⊢
  obtain ⟨hregs, hrest⟩ := s.patrolled_rest g stack ecc written
  have hfaults := s.patrolled_faultQ g stack ecc written
  have hget := fun (f : Fld) (hf : f.key ≠ (Reg.hbmPoisonCount stack).key) => State.patrolled_get (s := s) (g := g) (ecc := ecc) (written := written) hf
  have hpois := fun hp => State.patrolled_poison (s := s) (g := g) (stack := stack) hp ecc written
  have hnone : (g ∈ s.hbmPoison ∨ ∀ e ∈ ecc, e.granule ≠ g) → (s.patrolled g stack ecc written).hbmPoison = s.hbmPoison := by
    intro h
    by_cases hp : g ∈ s.hbmPoison
    · unfold State.patrolled
      rw [State.hbmChecks_none h]
      simp [hp]
    · rw [hpois hp, State.hbmChecks_none h, State.filter_ne_self hp, ite_self]
  generalize s.patrolled g stack ecc written = u at *
  obtain ⟨hce, hue, hpc, hlo, hhi, -⟩ := State.hbmErr_keys (stackOf (64 * g))
  obtain ⟨-, -, hpcs, -, -, hpp⟩ := State.hbmErr_keys stack
  have hput : ∀ f : Fld, f.key ≠ (Reg.hbmPatrolPos stack).key → (u.put (Reg.hbmPatrolPos stack) ((s.get (Reg.hbmPatrolPos stack) + 1) % stackGranules)).get f = u.get f :=
    fun f hf => u.get_put_ne _ hf
  have hsame : SameButRegs u (u.put (Reg.hbmPatrolPos stack) ((s.get (Reg.hbmPatrolPos stack) + 1) % stackGranules)) := rfl
  generalize u.put (Reg.hbmPatrolPos stack) ((s.get (Reg.hbmPatrolPos stack) + 1) % stackGranules) = t at hexec hpos hput hsame
  have hq : t.faultQ = u.faultQ := (congrArg State.faultQ hsame :)
  have hp : t.hbmPoison = u.hbmPoison := (congrArg State.hbmPoison hsame :)
  refine ⟨t, hexec, hpos, fun f hf => (hput f (hf _ (by simp))).trans (hregs f fun x hx => hf x ?_), ?_, fun h => ⟨fun f hf => ?_, ?_, ?_⟩, fun hg hlt =>
    ⟨fun he => ?_, fun he => ?_⟩⟩
  · simp only [hbmErrRegs, List.mem_append, List.mem_cons, List.not_mem_nil, or_false] at hx ⊢
    tauto
  · exact (congrArg (fun v : State => { v with regs := s.regs, faultQ := s.faultQ, hbmPoison := s.hbmPoison }) hsame :).trans hrest
  · rw [hput f (hf _ (by simp)), hget f (hf _ (by simp)), State.hbmChecks_none h]
  · rw [hq, hfaults, State.hbmChecks_none h]
  · rw [hp, hnone h]
  · have hbytes : 64 * g < hbmBytes := by
      have : 64 * (8 * stackGranules) = hbmBytes := by decide
      omega
    obtain ⟨hcount, hkeep, hraised⟩ := State.hbmCe_of hbytes hg
    rw [← he] at hcount hkeep hraised
    refine ⟨(hput _ (by omega)).trans ((hget _ (by omega)).trans hcount), ?_, hraised.of_faultQ (hq.trans hfaults)⟩
    rw [hp, hpois hg, hkeep, State.filter_ne_self hg, ite_self]
  · have hbytes : 64 * g < hbmBytes := by
      have : 64 * (8 * stackGranules) = hbmBytes := by decide
      omega
    obtain ⟨hcount, hword, hraised, hkeep⟩ := State.hbmUe_of hbytes hg
    rw [← he] at hcount hword hraised hkeep
    refine ⟨(hput _ (by omega)).trans ((hget _ (by omega)).trans hcount), ?_, hraised.of_faultQ (hq.trans hfaults), fun hw => ?_, fun hw => ?_,
      fun x hx => ?_⟩
    · refine Eq.trans ?_ hword
      unfold State.get64
      rw [hput _ (by omega), hput _ (by omega), hget _ (by omega), hget _ (by omega)]
    · rw [hp, hpois hg, if_neg (by simp [hw]), hkeep, mem_insertNat_iff]
      exact .inl rfl
    · rw [hp, hpois hg, if_pos hw, List.mem_filter]
      simp
    · rw [hp, hpois hg, hkeep]
      split
      · exact State.mem_filter_insertNat hx
      · rw [mem_insertNat_iff]
        simp [hx]

end Sys2Proof.Machine
end

section
/-! SUPPORT. Proofs: what the patrol reader of Stock changes (R29, R30, R254). -/

namespace Sys2Proof.Machine

namespace State

theorem stockCheck_none {s : State} {e : EccRes} (h : stockBytes ≤ 64 * e.granule ∨ e.granule ∈ s.stockPoison) : s.stockCheck e = s := by
  unfold stockCheck
  dsimp only
  exact if_pos (by simpa using h)

theorem stockCheck_ce {s : State} {e : EccRes} (hg : 64 * e.granule < stockBytes) (hp : e.granule ∉ s.stockPoison) (hue : e.ue = false) :
    s.stockCheck e = (s.count Reg.tmpStockCe).raise srcTemper 0x5B clsC (64 * e.granule) := by
  unfold stockCheck
  dsimp only
  rw [if_neg (by simp [hp, hg]), if_neg (by simp [hue])]

/-- An uncorrectable error of Stock has been counted, and its granule poisoned. -/
def stockPoisoned (s : State) (g : Nat) : State :=
  let s1 := (s.count Reg.tmpStockUe).put64 Reg.tmpStockLastUeLo Reg.tmpStockLastUeHi (64 * g)
  { s1 with stockPoison := insertNat g s1.stockPoison }

theorem stockCheck_ue {s : State} {e : EccRes} (hg : 64 * e.granule < stockBytes) (hp : e.granule ∉ s.stockPoison) (hue : e.ue = true) :
    s.stockCheck e = (s.stockPoisoned e.granule).raise srcTemper 0x5C clsU (64 * e.granule) := by
  unfold stockCheck
  dsimp only
  rw [if_neg (by simp [hp, hg]), if_pos hue]
  rfl

theorem stockChecks_one (s : State) (g : Nat) (ecc : List EccRes) :
    s.stockChecks (64 * g) 64 ecc = (ecc.filter (fun e => e.granule == g)).foldl stockCheck s := by
  unfold stockChecks
  rw [granules_one]
  congr 2
  funext e
  rw [Bool.eq_iff_iff]
  simp

theorem stockChecks_none {s : State} {g : Nat} {ecc : List EccRes} (h : g ∈ s.stockPoison ∨ ∀ e ∈ ecc, e.granule ≠ g) :
    s.stockChecks (64 * g) 64 ecc = s := by
  rw [stockChecks_one]
  refine List.foldlRecOn _ _ (motive := fun t => t = s) rfl fun t ht e he => ?_
  obtain ⟨hmem, hg⟩ := List.mem_filter.mp he
  have hg : e.granule = g := by simpa using hg
  rw [ht]
  refine stockCheck_none (.inr ?_)
  rw [hg]
  exact h.resolve_right fun hn => hn e hmem hg

/-- What a correctable error leaves. -/
theorem stockCe_of {s : State} {g : Nat} (hg : 64 * g < stockBytes) (hp : g ∉ s.stockPoison) :
    let t := s.stockChecks (64 * g) 64 [{ granule := g, ue := false }]
    Counted s t Reg.tmpStockCe ∧ t.stockPoison = s.stockPoison ∧ Raised s t srcTemper 0x5B clsC (64 * g) := by
  intro t
  have ht : t = (s.count Reg.tmpStockCe).raise srcTemper 0x5B clsC (64 * g) := by
    unfold t
    rw [stockChecks_one, List.filter_cons_of_pos (by simp)]
    exact stockCheck_ce (e := { granule := g, ue := false }) hg hp rfl
  rw [ht]
  refine ⟨(Machine.raise_sameRegsBut (s.count Reg.tmpStockCe) srcTemper 0x5B clsC (64 * g) _ (by decide)).trans
    (State.get_count_same _ _ _ (by decide)), ?_, .of_raise (t := s.count Reg.tmpStockCe) rfl rfl _ _ _ _⟩
  rw [State.raise_upd]
  rfl

/-- What an uncorrectable error leaves. -/
theorem stockUe_of {s : State} {g : Nat} (hg : 64 * g < stockBytes) (hp : g ∉ s.stockPoison) :
    let t := s.stockChecks (64 * g) 64 [{ granule := g, ue := true }]
    Counted s t Reg.tmpStockUe ∧ t.get64 Reg.tmpStockLastUeLo Reg.tmpStockLastUeHi = 64 * g ∧ Raised s t srcTemper 0x5C clsU (64 * g) ∧
      t.stockPoison = insertNat g s.stockPoison := by
  intro t
  have ht : t = (s.stockPoisoned g).raise srcTemper 0x5C clsU (64 * g) := by
    unfold t
    rw [stockChecks_one, List.filter_cons_of_pos (by simp)]
    exact stockCheck_ue (e := { granule := g, ue := true }) hg hp rfl
  have hcount : (s.count Reg.tmpStockUe).get Reg.tmpStockUe = min (s.get Reg.tmpStockUe + 1) (2 ^ Reg.tmpStockUe.w - 1) :=
    State.get_count_same _ _ _ (by decide)
  have hkeep : (s.count Reg.tmpStockUe).stockPoison = s.stockPoison ∧ (s.count Reg.tmpStockUe).faultQ = s.faultQ ∧
      (s.count Reg.tmpStockUe).cad = s.cad := ⟨rfl, rfl, rfl⟩
  have hput : s.stockPoisoned g = { (s.count Reg.tmpStockUe).put64 Reg.tmpStockLastUeLo Reg.tmpStockLastUeHi (64 * g) with
      stockPoison := insertNat g (s.count Reg.tmpStockUe).stockPoison } := rfl
  rw [ht, hput]
  generalize s.count Reg.tmpStockUe = u at hcount hkeep
  have hcount2 : (u.put64 Reg.tmpStockLastUeLo Reg.tmpStockLastUeHi (64 * g)).get Reg.tmpStockUe = u.get Reg.tmpStockUe :=
    get_put64_ne _ (by decide) (by decide) _
  have hword : (u.put64 Reg.tmpStockLastUeLo Reg.tmpStockLastUeHi (64 * g)).get64 Reg.tmpStockLastUeLo Reg.tmpStockLastUeHi = 64 * g := by
    unfold get64 put64
    rw [State.get_put_ne _ _ (by decide), State.get_put_same, State.get_put_same]
    have h8 : Reg.tmpStockLastUeHi.w = 8 := rfl
    have h32 : Reg.tmpStockLastUeLo.w = 32 := rfl
    rw [h8, h32]
    unfold stockBytes at hg
    omega
  have hkeep2 : (u.put64 Reg.tmpStockLastUeLo Reg.tmpStockLastUeHi (64 * g)).faultQ = u.faultQ ∧
      (u.put64 Reg.tmpStockLastUeLo Reg.tmpStockLastUeHi (64 * g)).cad = u.cad := ⟨rfl, rfl⟩
  generalize u.put64 Reg.tmpStockLastUeLo Reg.tmpStockLastUeHi (64 * g) = v at hcount2 hword hkeep2
  have hsame : ∀ f : Fld, (∀ x ∈ dropRegs, f.key ≠ x.key) →
      ({ v with stockPoison := insertNat g u.stockPoison }.raise srcTemper 0x5C clsU (64 * g)).get f = v.get f :=
    fun f hf => Machine.raise_sameRegsBut _ srcTemper 0x5C clsU (64 * g) f hf
  refine ⟨(hsame _ (by decide)).trans (hcount2.trans hcount), ?_, .of_raise (t := { v with stockPoison := insertNat g u.stockPoison })
    (hkeep2.1.trans hkeep.2.1) (hkeep2.2.trans hkeep.2.2) _ _ _ _, ?_⟩
  · refine Eq.trans ?_ hword
    unfold get64
    rw [hsame _ (by decide), hsame _ (by decide)]
  · rw [State.raise_upd]
    exact congrArg _ hkeep.1

/-- Stock's granule has been read, and a job's write of it in the same cycle has lifted its poison. -/
def patrolledStock (s : State) (ecc : List EccRes) (written : Bool) : State :=
  let t := s.stockChecks (64 * s.sys.stockPatrol) 64 ecc
  if written && !s.stockPoison.contains s.sys.stockPatrol then
    { t with stockPoison := t.stockPoison.filter (fun g => g != s.sys.stockPatrol) } else t

theorem patrolStock_eq (s : State) (ecc : List EccRes) (written : Bool) : s.patrolStock ecc written =
    { s.patrolledStock ecc written with sys := { (s.patrolledStock ecc written).sys with stockPatrol := (s.sys.stockPatrol + 1) % stockGranules } } := rfl

theorem patrolledStock_of (s : State) (ecc : List EccRes) (written : Bool) : let t := s.patrolledStock ecc written
    let u := s.stockChecks (64 * s.sys.stockPatrol) 64 ecc
    t.regs = u.regs ∧ t.faultQ = u.faultQ ∧ { t with stockPoison := u.stockPoison } = u ∧
    (s.sys.stockPatrol ∉ s.stockPoison → t.stockPoison = if written then u.stockPoison.filter (fun x => x != s.sys.stockPatrol) else u.stockPoison) ∧
    (s.sys.stockPatrol ∈ s.stockPoison → t = u) := by
  intro t u
  unfold t patrolledStock
  dsimp only
  by_cases hp : s.sys.stockPatrol ∈ s.stockPoison
  · rw [if_neg (by simp [hp])]
    exact ⟨rfl, rfl, rfl, fun h => absurd hp h, fun _ => rfl⟩
  · cases written with
    | true =>
      rw [if_pos (by simp [hp])]
      exact ⟨rfl, rfl, rfl, fun _ => rfl, fun h => absurd h hp⟩
    | false =>
      rw [if_neg (by simp)]
      exact ⟨rfl, rfl, rfl, fun _ => rfl, fun h => absurd h hp⟩

end State

/-- What a patrol reads in Stock. -/
theorem patrolStock_of {s : State} (hup : s.domUp 12 = true) (hself : s.sys.stockSelf = false) (ecc : List EccRes) (written : Bool) :
    let p := s.sys.stockPatrol
    let errs := [Reg.tmpStockCe, Reg.tmpStockUe, Reg.tmpStockLastUeLo, Reg.tmpStockLastUeHi]
    ∃ t, exec (.patrolRead 8 ecc written) s = .next t ∧
        t.sys = { s.sys with stockPatrol := (p + 1) % stockGranules } ∧ SameRegsBut (dropRegs ++ errs) s t ∧
        { t with regs := s.regs, faultQ := s.faultQ, stockPoison := s.stockPoison, sys := s.sys } = s ∧
        (p ∈ s.stockPoison ∨ (∀ e ∈ ecc, e.granule ≠ p) → SameRegsBut [] s t ∧ t.faultQ = s.faultQ ∧ t.stockPoison = s.stockPoison) ∧
        (p ∉ s.stockPoison → p < stockGranules → (ecc = [{ granule := p, ue := false }] → Counted s t Reg.tmpStockCe ∧ t.stockPoison = s.stockPoison ∧
            Raised s t srcTemper 0x5B clsC (64 * p)) ∧
          (ecc = [{ granule := p, ue := true }] → Counted s t Reg.tmpStockUe ∧ t.get64 Reg.tmpStockLastUeLo Reg.tmpStockLastUeHi = 64 * p ∧
            Raised s t srcTemper 0x5C clsU (64 * p) ∧ (written = false → p ∈ t.stockPoison) ∧ (written = true → p ∉ t.stockPoison) ∧
            ∀ k, k ≠ p → (k ∈ t.stockPoison ↔ k ∈ s.stockPoison))) := by
  have hexec : exec (.patrolRead 8 ecc written) s = .next (s.patrolStock ecc written) := by
    show execPatrolRead 8 ecc s written = _
    unfold execPatrolRead
    rw [if_pos rfl, if_neg (by simp [hup, hself])]
  obtain ⟨hregs, hfaults, hrest, hpois, hheld⟩ := s.patrolledStock_of ecc written
  have hcheck := s.stockChecks_checks (64 * s.sys.stockPatrol) 64 ecc
  rw [State.patrolStock_eq] at hexec
  generalize hv : s.stockChecks (64 * s.sys.stockPatrol) 64 ecc = v at hregs hfaults hrest hpois hheld hcheck
  generalize s.patrolledStock ecc written = u at hexec hregs hfaults hrest hpois hheld
  have hsys : u.sys = s.sys := (congrArg State.sys hrest :).trans (congrArg State.sys hcheck.rest :)
  have hget : ∀ f, u.get f = v.get f := State.get_of_regs hregs
  have hbytes : 64 * stockGranules = stockBytes := by decide
  dsimp only
  refine ⟨_, hexec, by rw [hsys], fun f hf => (hget f).trans (hcheck.regs f hf), ?_, fun h => ⟨fun f _ => ?_, ?_, ?_⟩, fun hg hlt =>
    ⟨fun he => ?_, fun he => ?_⟩⟩
  · exact (congrArg (fun v : State => { v with regs := s.regs, faultQ := s.faultQ, stockPoison := s.stockPoison, sys := s.sys }) hrest :).trans
      (congrArg (fun v : State => { v with sys := s.sys }) hcheck.rest :)
  · rw [State.stockChecks_none h] at hv
    rw [← hv] at hget
    exact hget f
  · rw [State.stockChecks_none h] at hv
    rw [← hv] at hfaults
    exact hfaults
  · rw [State.stockChecks_none h] at hv
    by_cases hp : s.sys.stockPatrol ∈ s.stockPoison
    · exact (congrArg State.stockPoison ((hheld hp).trans hv.symm) :)
    · refine (hpois hp).trans ?_
      rw [← hv, State.filter_ne_self hp, ite_self]
  · obtain ⟨hcount, hkeep, hraised⟩ := State.stockCe_of (s := s) (by omega) hg
    rw [← he, hv] at hcount hkeep hraised
    refine ⟨(hget _).trans hcount, ?_, hraised.of_faultQ hfaults⟩
    exact (hpois hg).trans (by rw [hkeep, State.filter_ne_self hg, ite_self])
  · obtain ⟨hcount, hword, hraised, hkeep⟩ := State.stockUe_of (s := s) (by omega) hg
    rw [← he, hv] at hcount hword hraised hkeep
    have hstock := hpois hg
    rw [hkeep] at hstock
    refine ⟨(hget _).trans hcount, (congrArg₂ (fun a b => a + 2 ^ 32 * b) (hget _) (hget _)).trans hword, hraised.of_faultQ hfaults,
      fun hw => ?_, fun hw => ?_, fun x hx => ?_⟩
    · show _ ∈ u.stockPoison
      rw [hstock, if_neg (by simp [hw]), mem_insertNat_iff]
      exact .inl rfl
    · show _ ∉ u.stockPoison
      rw [hstock, if_pos hw, List.mem_filter]
      simp
    · show x ∈ u.stockPoison ↔ _
      rw [hstock]
      split
      · exact State.mem_filter_insertNat hx
      · rw [mem_insertNat_iff]
        simp [hx]

end Sys2Proof.Machine
end

section
/-! SUPPORT. Proofs: the power input, the sensors, the watchdog and the patrol. -/

namespace Sys2Proof.Machine

/-! ## Power-on reset (R4, R394, R492) -/

theorem Assoc.get_filter {α : Type} (d : α) (l : List (Nat × α)) (p : Nat → Bool) (k : Nat) :
    Assoc.get d (l.filter (fun x => p x.1)) k = if p k then Assoc.get d l k else d := by
  induction l with
  | nil => simp [Assoc.get]
  | cons x r ih =>
    obtain ⟨j, v⟩ := x
    by_cases hj : p j = true
    · rw [List.filter_cons_of_pos (p := fun x : Nat × α => p x.1) hj]
      by_cases hjk : j = k
      · subst hjk
        simp [Assoc.get, hj]
      · simp only [Assoc.get, hjk, if_false]
        exact ih
    · rw [List.filter_cons_of_neg (p := fun x : Nat × α => p x.1) hj, ih]
      by_cases hjk : j = k
      · subst hjk
        simp [hj]
      · simp only [Assoc.get, hjk, if_false]

/-- Everything but the fuses and the boot store is lost. -/
structure PowerLost (s t : State) : Prop where
  regs : ∀ f : Fld, t.get f = if State.storeKept f.key then s.get f else f.rst
  bytes : ∀ k a, k < 4 → (t.memOf k).read a = 0
  cru : t.cru = { Cru.init with
    owner := s.cru.owner, wrapped := s.cru.wrapped, images := s.cru.images, token := s.cru.token, quenchMark := s.cru.quenchMark }
  seed : t.seed = none
  billet : t.billet = none
  life : t.life = .blank
  mbx : t.mbx = Mbx.init
  jnl : t.jnl = Jnl.init
  por : t.sys.por = true
  held : t.sys.held = allDomains
  pending : t.pending = s.pending
  out : t.out = s.out

namespace State

theorem powerOff_lost (s : State) (rails : Bool) (bit : Nat) : PowerLost s (s.powerOff rails bit) := by
  refine ⟨fun f => Assoc.get_filter f.rst s.regs storeKept f.key, fun k a hk => ?_, rfl, rfl, rfl, rfl, rfl, rfl, rfl, rfl, rfl, rfl⟩
  interval_cases k <;> rfl

/-- The input and its band do not bring anything back. -/
theorem PowerLost.setVin {s t : State} (h : PowerLost s t) (vin : Nat) (due : Bool) :
    PowerLost s { t with sys := { t.sys with vin := vin, bandDue := due } } :=
  ⟨h.regs, h.bytes, h.cru, h.seed, h.billet, h.life, h.mbx, h.jnl, h.por, h.held, h.pending, h.out⟩

theorem inBand_iff {vin : Nat} (h1 : 3800 ≤ vin) (h2 : vin ≤ 6200) : inBand vin = true ↔ vin ≤ 4000 ∨ 6000 ≤ vin := by
  simp [inBand, h1, h2]

theorem powerInputRise_none {s : State} {vin : Nat} (h : s.sys.rails = true ∨ vin < 3800 ∨ 6200 < vin) :
    exec (.powerInputRise vin) s = .next s := by
  refine if_pos ?_
  rcases h with h | h | h <;> simp [h]

theorem powerInputBand_none {s : State} {vin : Nat} (h : s.sys.rails = false ∨ vin < 3800 ∨ (4000 < vin ∧ vin < 6000) ∨ 6200 < vin) :
    exec (.powerInputBand vin) s = .next s := by
  refine if_pos ?_
  rcases h with h | h
  · simp [h]
  · have hb : inBand vin = false := by
      simp only [inBand, Bool.or_eq_false_iff, Bool.and_eq_false_iff, decide_eq_false_iff_not]
      omega
    simp [hb]

/-- An input at the edge of its band is raised, or waits for the collector (R503). -/
theorem powerInputBand_of {s : State} (hrails : s.sys.rails = true) {vin : Nat} (hvin : (3800 ≤ vin ∧ vin ≤ 4000) ∨ (6000 ≤ vin ∧ vin ≤ 6200)) :
    ∃ t, exec (.powerInputBand vin) s = .next t ∧
        { t with regs := s.regs, faultQ := s.faultQ, sys := s.sys } = s ∧ SameRegsBut dropRegs s t ∧
        (s.domUp 2 = true → Raised s t srcPower 0x7E clsC vin ∧ t.sys = { s.sys with vin := vin }) ∧
        (s.domUp 2 = false → t.sys = { s.sys with vin := vin, bandDue := true } ∧ t.faultQ = s.faultQ ∧ t.regs = s.regs) := by
  have hb : inBand vin = true := by
    simp only [inBand, Bool.or_eq_true, Bool.and_eq_true, decide_eq_true_eq]
    exact hvin
  have hexec : exec (.powerInputBand vin) s = if s.domUp 2 then .next ({ s with sys := { s.sys with vin := vin } }.raise srcPower 0x7E clsC (vin % 65536))
      else .next { s with sys := { s.sys with vin := vin, bandDue := true } } :=
    if_neg (by simp [hrails, hb])
  rw [Nat.mod_eq_of_lt (show vin < 65536 by omega)] at hexec
  cases hup : s.domUp 2 with
  | true =>
    rw [if_pos hup] at hexec
    have hraise := Machine.raise_sameRegsBut { s with sys := { s.sys with vin := vin } } srcPower 0x7E clsC vin
    refine ⟨_, hexec, ?_, hraise, fun _ => ⟨.of_raise (t := { s with sys := { s.sys with vin := vin } }) rfl rfl _ _ _ _, ?_⟩, fun h => absurd h (by decide)⟩
    · rw [State.raise_upd]
    · rw [State.raise_upd]
  | false =>
    rw [if_neg (by simp [hup])] at hexec
    exact ⟨_, hexec, rfl, .of_regs rfl, fun h => absurd h (by decide), fun _ => ⟨rfl, rfl, rfl⟩⟩

/-! ## The release of power-on reset (R486) -/

/-- Every source has one of the ten cause bits. -/
theorem causeFld_of (b : Nat) : ∃ i, i < 10 ∧ causeFld b = causeFld i := by
  by_cases hb : b < 10
  · exact ⟨b, hb, rfl⟩
  · refine ⟨9, by decide, ?_⟩
    unfold causeFld
    rw [List.getD_eq_default _ _ (by simp; omega)]
    rfl

theorem causeFld_inj {b c : Nat} (h : (causeFld b).key = (causeFld c).key) : causeFld b = causeFld c := by
  obtain ⟨i, hi, hb⟩ := causeFld_of b
  obtain ⟨j, hj, hc⟩ := causeFld_of c
  rw [hb, hc, causeFld_key hi, causeFld_key hj] at h
  rw [hb, hc, show i = j by omega]

theorem causeFld_w (b : Nat) : (causeFld b).w = 1 := by
  obtain ⟨i, hi, hb⟩ := causeFld_of b
  rw [hb]
  exact (causeFld_lo hi).2

theorem get_put_cause (s : State) (b : Nat) : (s.put (causeFld b) 1).get (causeFld b) = 1 := by
  rw [State.get_put_same, causeFld_w, pow_one]

/-- The causes of sources are set. -/
theorem foldl_cause (l : List ResetSrc) (s : State) : let t := l.foldl (fun t x => t.put (causeFld x.bit) 1) s
    SameButRegs s t ∧ SameRegsBut (l.map (fun x => causeFld x.bit)) s t ∧ (∀ x ∈ l, t.get (causeFld x.bit) = 1) ∧
    (∀ b, s.get (causeFld b) = 1 → t.get (causeFld b) = 1) := by
  induction l generalizing s with
  | nil => exact ⟨rfl, .refl _ s, fun _ h => absurd h List.not_mem_nil, fun _ h => h⟩
  | cons x r ih =>
    obtain ⟨hrest, hregs, hget, hkeep⟩ := ih (s.put (causeFld x.bit) 1)
    have hone := get_put_cause s x.bit
    refine ⟨(congrArg (fun v : State => { v with regs := s.regs }) hrest :), ?_, fun y hy => ?_, fun b hb => hkeep b ?_⟩
    · have hput : SameRegsBut ((x :: r).map (fun x => causeFld x.bit)) s (s.put (causeFld x.bit) 1) :=
        (SameRegsBut.refl _ s).put _ _ List.mem_cons_self
      exact hput.trans (hregs.mono fun g hg => List.mem_cons_of_mem _ hg)
    · rcases List.mem_cons.mp hy with rfl | hy
      · exact hkeep _ hone
      · exact hget y hy
    · by_cases hk : (causeFld b).key = (causeFld x.bit).key
      · rw [causeFld_inj hk]
        exact hone
      · rw [State.get_put_ne _ _ hk]
        exact hb

/-- The cause and the straps of a release. -/
def released (s : State) (legacyEn : Bool) : State :=
  ((s.sys.asserted.foldl (fun t x => t.put (causeFld x.bit) 1) (s.put (causeFld s.sys.porBit) 1)).put Reg.rstStrapLegacyEn (b2n legacyEn)).put
    Reg.fltLegacyEn (b2n legacyEn)

theorem powerOnRelease_eq {s : State} (hrails : s.sys.rails = true) (hpor : s.sys.por = true) (legacyEn : Bool) (addr : Nat) :
    exec (.powerOnRelease legacyEn addr) s = .next { s.released legacyEn with
      sys := { (s.released legacyEn).sys with por := false, window := legacyEn, smbAddr := addr % 8, pinFault := false
                                              pinLegacy := if legacyEn then some false else none }
      jnl := { (s.released legacyEn).jnl with resetCause := some (s.released legacyEn).causeWord } } :=
  if_neg (by simp [hrails, hpor])

theorem strap_keys (b : Nat) : (causeFld b).key ≠ Reg.rstStrapLegacyEn.key ∧ (causeFld b).key ≠ Reg.fltLegacyEn.key := by
  obtain ⟨i, hi, hb⟩ := causeFld_of b
  rw [hb, causeFld_key hi]
  have h1 : Reg.rstStrapLegacyEn.key = 0x10024 * 32 := rfl
  have h2 : Reg.fltLegacyEn.key = 0x20038 * 32 := rfl
  omega

theorem released_of (s : State) (legacyEn : Bool) : let t := s.released legacyEn
    SameButRegs s t ∧ t.get (causeFld s.sys.porBit) = 1 ∧ t.get Reg.rstStrapLegacyEn = (if legacyEn then 1 else 0) ∧
    t.get Reg.fltLegacyEn = (if legacyEn then 1 else 0) ∧ (∀ x ∈ s.sys.asserted, t.get (causeFld x.bit) = 1) ∧
    SameRegsBut (Reg.rstStrapLegacyEn :: Reg.fltLegacyEn :: causeFld s.sys.porBit :: s.sys.asserted.map (fun x => causeFld x.bit)) s t := by
  obtain ⟨hrest, hregs, hget, hkeep⟩ := (s.put (causeFld s.sys.porBit) 1).foldl_cause s.sys.asserted
  have hput : SameRegsBut [causeFld s.sys.porBit] s (s.put (causeFld s.sys.porBit) 1) := (SameRegsBut.refl _ s).put _ _ List.mem_cons_self
  have hbit := hkeep _ (get_put_cause s s.sys.porBit)
  have hsame : SameButRegs s (s.put (causeFld s.sys.porBit) 1) := rfl
  unfold released
  generalize s.put (causeFld s.sys.porBit) 1 = u at *
  generalize s.sys.asserted.foldl (fun t x => t.put (causeFld x.bit) 1) u = v at *
  have hcause : ∀ b, ((v.put Reg.rstStrapLegacyEn (b2n legacyEn)).put Reg.fltLegacyEn (b2n legacyEn)).get (causeFld b) = v.get (causeFld b) := by
    intro b
    rw [State.get_put_ne _ _ (strap_keys b).2, State.get_put_ne _ _ (strap_keys b).1]
  have hstraps : SameRegsBut [Reg.rstStrapLegacyEn, Reg.fltLegacyEn] v ((v.put Reg.rstStrapLegacyEn (b2n legacyEn)).put Reg.fltLegacyEn (b2n legacyEn)) :=
    ((SameRegsBut.refl _ v).put _ _ (by simp)).put _ _ (by simp)
  refine ⟨sameButRegs_trans (sameButRegs_trans hsame hrest) rfl, (hcause _).trans hbit, ?_, ?_, fun x hx => (hcause _).trans (hget x hx), ?_⟩
  · rw [State.get_put_ne _ _ (by decide), State.get_put_same]
    cases legacyEn <;> rfl
  · rw [State.get_put_same]
    cases legacyEn <;> rfl
  · exact ((hput.mono (by simp)).trans (hregs.mono fun g hg => by simp only [List.mem_cons]; exact .inr (.inr (.inr hg)))).trans (hstraps.mono (by simp))

/-! ## Temperatures (R37) -/

/-- The register that shows a sensor. -/
def tempRegs (k : Nat) : List Fld := if k < 5 then [] else if k < 13 then [Reg.hbmStateTempC (k - 5)] else [Reg.tmpStockTempC]

theorem setTemp_of (s : State) {k temp : Nat} (hk : k < 14) (ht : temp < 255) : let t := s.setTemp k temp
    t.sys = { s.sys with temps := s.sys.temps.set k temp } ∧ (∀ f ∈ tempRegs k, t.get f = temp) ∧ { t with regs := s.regs, sys := s.sys } = s ∧
      SameRegsBut (tempRegs k) s t := by
  intro t
  have hmod : temp % 256 = temp := Nat.mod_eq_of_lt (by omega)
  have hne : ¬ temp = 255 := by omega
  unfold t setTemp tempRegs
  dsimp only
  rw [hmod, if_neg hne]
  by_cases h5 : k < 5
  · rw [if_neg (show ¬ (5 ≤ k ∧ k < 13) by omega), if_neg (show ¬ k = 13 by omega), if_pos h5]
    exact ⟨rfl, fun _ h => absurd h List.not_mem_nil, rfl, .of_regs rfl⟩
  · rw [if_neg h5]
    by_cases h13 : k < 13
    · rw [if_pos (show 5 ≤ k ∧ k < 13 by omega), if_pos h13]
      refine ⟨rfl, fun f hf => ?_, rfl, (SameRegsBut.of_regs rfl).trans ((SameRegsBut.refl _ _).put _ _ (by simp))⟩
      rw [List.mem_singleton.mp hf, State.get_put_same]
      exact hmod
    · rw [if_neg (show ¬ (5 ≤ k ∧ k < 13) by omega), if_pos (show k = 13 by omega), if_neg h13]
      refine ⟨rfl, fun f hf => ?_, rfl, (SameRegsBut.of_regs rfl).trans ((SameRegsBut.refl _ _).put _ _ (by simp))⟩
      rw [List.mem_singleton.mp hf, State.get_put_same]
      exact hmod

theorem tempRegs_key {k : Nat} {f : Fld} (h : f ∈ tempRegs k) : (5 ≤ k ∧ k < 13 ∧ f.key = (0x700000 + 0x1000 * (k - 5)) * 32 + 8) ∨
    (13 ≤ k ∧ f.key = 0x500054 * 32) := by
  unfold tempRegs at h
  split at h
  · cases h
  · split at h
    · rw [List.mem_singleton.mp h]
      exact .inl ⟨by omega, by omega, rfl⟩
    · rw [List.mem_singleton.mp h]
      exact .inr ⟨by omega, rfl⟩

theorem tempRegs_apart {k : Nat} {f : Fld} (h : f ∈ tempRegs k) : ∀ g ∈ dropRegs, f.key ≠ g.key := by
  intro g hg
  have hlow : g.key < 0x500000 * 32 := by
    revert g
    decide
  rcases tempRegs_key h with ⟨-, -, hk⟩ | ⟨-, hk⟩ <;> omega

theorem thermal_raise {s : State} {k temp : Nat} (hk : k < 14) (ht : temp < 255) (kind cls : Nat) : let t := (s.setTemp k temp).raise (srcTherm k) kind cls temp
    (t.sys = { s.sys with temps := s.sys.temps.set k temp } ∧ (∀ f ∈ tempRegs k, t.get f = temp) ∧
      { t with regs := s.regs, faultQ := s.faultQ, sys := s.sys } = s ∧ SameRegsBut (dropRegs ++ tempRegs k) s t) ∧
    Raised s t (srcTherm k) kind cls temp ∧
    (s.waitingFrom (srcTherm k) < 16 → t.faultQ = s.faultQ ++ [s.faultMsg (srcTherm k) kind cls temp false]) := by
  obtain ⟨hsys, hget, hrest, hregs⟩ := s.setTemp_of hk ht
  generalize s.setTemp k temp = u at *
  have hraise := Machine.raise_sameRegsBut u (srcTherm k) kind cls temp
  have hq : u.faultQ = s.faultQ := (congrArg State.faultQ hrest :)
  have hcad : u.cad = s.cad := (congrArg State.cad hrest :)
  refine ⟨⟨?_, fun f hf => (hraise f (tempRegs_apart hf)).trans (hget f hf), ?_, (hregs.mono (by simp +contextual)).trans (hraise.mono (by simp +contextual))⟩,
    .of_raise hq hcad _ _ _ _, fun hw => ?_⟩
  · rw [State.raise_upd]
    exact hsys
  · rw [State.raise_upd]
    exact (congrArg (fun v : State => { v with faultQ := s.faultQ }) hrest :)
  · have hroom : u.waitingFrom (srcTherm k) < 16 := by
      unfold waitingFrom at hw ⊢
      rwa [hq]
    rw [raise_of_room _ _ _ hroom]
    have hmsg : u.faultMsg (srcTherm k) kind cls temp false = s.faultMsg (srcTherm k) kind cls temp false := by
      unfold faultMsg
      rw [hcad]
    exact congrArg₂ (fun a b => a ++ [b]) hq hmsg

theorem not_on {s : State} (h : ¬ (s.sys.rails = true ∧ s.sys.por = false)) : running s = false := by
  unfold running
  cases hr : s.sys.rails <;> cases hp : s.sys.por <;> simp_all

theorem on_running {s : State} (h : s.sys.rails = true ∧ s.sys.por = false) : running s = true := by
  simp [running, h]

theorem thermalWarning_none {s : State} {k temp : Nat} (h : ¬ (s.sys.rails = true ∧ s.sys.por = false) ∨ 14 ≤ k ∨ temp < warnAt k ∨ warnAt k ≤ s.tempOf k) :
    exec (.thermalWarning k temp) s = .next s := by
  refine if_pos ?_
  rcases h with h | h | h | h
  · simp [not_on h]
  · simp [h]
  · simp [h]
  · simp [h]

theorem thermalTrip_none {s : State} {k temp : Nat} (h : ¬ (s.sys.rails = true ∧ s.sys.por = false) ∨ 14 ≤ k ∨ temp < tripAt k ∨ tripAt k ≤ s.tempOf k) :
    exec (.thermalTrip k temp) s = .next s := by
  refine if_pos ?_
  rcases h with h | h | h | h
  · simp [not_on h]
  · simp [h]
  · simp [h]
  · simp [h]

theorem thermalWarning_eq {s : State} (hon : s.sys.rails = true ∧ s.sys.por = false) {k temp : Nat} (hk : k < 14) (ht : temp < 255)
    (hw : warnAt k ≤ temp) (hlow : s.tempOf k < warnAt k) :
    exec (.thermalWarning k temp) s = .next ((s.setTemp k temp).raise (srcTherm k) 0x7C clsC temp) := by
  show execThermalWarning k temp s = _
  unfold execThermalWarning
  rw [if_neg (by simp [on_running hon, hk, hw, hlow]), Nat.mod_eq_of_lt (show temp < 256 by omega)]

theorem thermalTrip_eq {s : State} (hon : s.sys.rails = true ∧ s.sys.por = false) {k temp : Nat} (hk : k < 14) (ht : temp < 255)
    (hw : tripAt k ≤ temp) (hlow : s.tempOf k < tripAt k) :
    exec (.thermalTrip k temp) s = .next (((if s.tempOf k < warnAt k then s.raise (srcTherm k) 0x7C clsC temp else s).setTemp k temp).raise
      (srcTherm k) 0x7D clsU temp) := by
  show execThermalTrip k temp s = _
  unfold execThermalTrip
  rw [if_neg (by simp [on_running hon, hk, hw, hlow]), Nat.mod_eq_of_lt (show temp < 256 by omega)]

/-- A trip, with the warning that is due. -/
theorem thermalTrip_of {s : State} (hon : s.sys.rails = true ∧ s.sys.por = false) {k temp : Nat} (hk : k < 14) (ht : temp < 255)
    (hw : tripAt k ≤ temp) (hlow : s.tempOf k < tripAt k) : ∃ t, exec (.thermalTrip k temp) s = .next t ∧
      (t.sys = { s.sys with temps := s.sys.temps.set k temp } ∧ (∀ f ∈ tempRegs k, t.get f = temp) ∧
        { t with regs := s.regs, faultQ := s.faultQ, sys := s.sys } = s ∧ SameRegsBut (dropRegs ++ tempRegs k) s t) ∧
      (s.waitingFrom (srcTherm k) < 15 → t.faultQ = s.faultQ ++
          (if s.tempOf k < warnAt k then [s.faultMsg (srcTherm k) 0x7C clsC temp false] else []) ++
          [s.faultMsg (srcTherm k) 0x7D clsU temp false]) := by
  refine ⟨_, thermalTrip_eq hon hk ht hw hlow, ?_⟩
  by_cases hwarn : s.tempOf k < warnAt k
  · rw [if_pos hwarn, if_pos hwarn]
    obtain ⟨⟨hsys, hget, hrest, hregs⟩, -, hq⟩ := thermal_raise (s := s.raise (srcTherm k) 0x7C clsC temp) hk ht 0x7D clsU
    have hraise := Machine.raise_sameRegsBut s (srcTherm k) 0x7C clsC temp
    have hupd := s.raise_upd (srcTherm k) 0x7C clsC temp
    have hroom := raise_of_room (s := s) (src := srcTherm k) 0x7C clsC temp
    generalize ((s.raise (srcTherm k) 0x7C clsC temp).setTemp k temp).raise (srcTherm k) 0x7D clsU temp = t at hsys hget hrest hregs hq ⊢
    generalize s.raise (srcTherm k) 0x7C clsC temp = u at *
    have hu : u.sys = s.sys := (congrArg State.sys hupd :)
    refine ⟨⟨by rw [hsys, hu], hget, ?_, ?_⟩, fun hwait => ?_⟩
    · rw [← hu]
      refine (congrArg (fun v : State => { v with regs := s.regs, faultQ := s.faultQ }) hrest :).trans ?_
      rw [hupd]
    · exact (hraise.mono (by simp +contextual)).trans hregs
    · have hr := hroom (by omega)
      have hcount : u.waitingFrom (srcTherm k) < 16 := by
        rw [hr]
        unfold waitingFrom at hwait ⊢
        rw [List.filter_append, List.length_append]
        simp only [faultMsg, List.filter_cons, beq_self_eq_true, if_true, List.filter_nil, List.length_cons, List.length_nil]
        omega
      rw [hq hcount, hr]
      rfl
  · rw [if_neg hwarn, if_neg hwarn]
    obtain ⟨hshows, -, hq⟩ := thermal_raise (s := s) hk ht 0x7D clsU
    exact ⟨hshows, fun hwait => by rw [hq (by omega), List.append_nil]⟩

/-! ## The end of a trip -/

/-- The first `n` sensors read. -/
structure SensorsRead (l : List Nat) (s t : State) (n : Nat) : Prop where
  sys : t.sys = { s.sys with temps := l.take n ++ s.sys.temps.drop n }
  shown : ∀ k, k < n → ∀ f ∈ tempRegs k, t.get f = l.getD k 0
  regs : SameRegsBut ((List.range n).flatMap tempRegs) s t
  rest : { t with sys := s.sys, regs := s.regs } = s

theorem tempRegs_ne {j k : Nat} (h : j ≠ k) (hj : j < 14) (hk : k < 14) {f g : Fld} (hf : f ∈ tempRegs j) (hg : g ∈ tempRegs k) : f.key ≠ g.key := by
  rcases tempRegs_key hf with ⟨h1, h2, h3⟩ | ⟨h1, h3⟩ <;> rcases tempRegs_key hg with ⟨k1, k2, k3⟩ | ⟨k1, k3⟩ <;> omega

theorem SensorsRead.step {l : List Nat} {s t : State} {n : Nat} (hn : n < 14) (hl : l.length = 14) (hs : s.sys.temps.length = 14)
    (ht : l.getD n 0 < 255) (h : SensorsRead l s t n) : SensorsRead l s (t.setTemp n (l.getD n 0)) (n + 1) := by
  obtain ⟨hsys, hshown, hregs, hrest⟩ := h
  obtain ⟨hsys2, hget2, hrest2, hregs2⟩ := t.setTemp_of hn ht
  generalize t.setTemp n (l.getD n 0) = u at *
  refine ⟨?_, fun k hk f hf => ?_, ?_, ?_⟩
  · rw [hsys2, hsys]
    have hln : n < l.length := by omega
    have hlen : (l.take n).length = n := by rw [List.length_take]; omega
    have hdrop : s.sys.temps.drop n = s.sys.temps[n]'(by omega) :: s.sys.temps.drop (n + 1) := List.drop_eq_getElem_cons (by omega)
    have htake : l.take (n + 1) = l.take n ++ [l.getD n 0] := by
      rw [List.take_add_one, List.getElem?_eq_getElem hln, List.getD_eq_getElem _ _ hln]
      rfl
    rw [htake, hdrop, List.append_assoc, List.set_append_right _ _ (by omega), hlen, Nat.sub_self]
    rfl
  · by_cases hkn : k = n
    · subst hkn
      exact hget2 f hf
    · rw [hregs2 f fun g hg => tempRegs_ne hkn (by omega) hn hf hg, hshown k (by omega) f hf]
  · rw [List.range_succ, List.flatMap_append]
    exact (hregs.mono fun g hg => List.mem_append_left _ hg).trans (hregs2.mono fun g hg => List.mem_append_right _ (by simpa using hg))
  · exact (congrArg (fun v : State => { v with sys := s.sys, regs := s.regs }) hrest2 :).trans hrest

theorem sensorsRead_of {l : List Nat} {s : State} (hl : l.length = 14) (hs : s.sys.temps.length = 14) (ht : ∀ k, k < 14 → l.getD k 0 < 255) :
    ∀ n, n ≤ 14 → SensorsRead l s ((l.take n).zipIdx.foldl (fun u (x : Nat × Nat) => u.setTemp x.2 x.1) s) n
  | 0, _ => ⟨rfl, fun _ h => absurd h (Nat.not_lt_zero _), .of_regs rfl, rfl⟩
  | n + 1, h => by
    have hln : n < l.length := by omega
    have hlen : (l.take n).length = n := by rw [List.length_take]; omega
    have htake : l.take (n + 1) = l.take n ++ [l.getD n 0] := by
      rw [List.take_add_one, List.getElem?_eq_getElem hln, List.getD_eq_getElem _ _ hln]
      rfl
    rw [htake, List.zipIdx_append, List.foldl_append, hlen]
    simp only [List.zipIdx_cons, List.zipIdx_nil, List.foldl_cons, List.foldl_nil, Nat.zero_add]
    exact (sensorsRead_of hl hs ht n (by omega)).step (by omega) hl hs (ht n (by omega))

theorem setTemps_of {l : List Nat} {s : State} (hl : l.length = 14) (hs : s.sys.temps.length = 14) (ht : ∀ k, k < 14 → l.getD k 0 < 255) :
    SensorsRead l s (s.setTemps l) 14 := sensorsRead_of hl hs ht 14 (Nat.le_refl _)

theorem SensorsRead.temp {l : List Nat} {s t : State} (h : SensorsRead l s t 14) (hl : l.length = 14) (hs : s.sys.temps.length = 14) {k : Nat}
    (hk : k < 14) (ht : l.getD k 0 < 255) : t.tempOf k = l.getD k 0 := by
  have htemps : t.sys.temps = l := by
    rw [h.sys]
    show l.take 14 ++ s.sys.temps.drop 14 = l
    rw [List.take_of_length_le (by omega), List.drop_of_length_le (by omega), List.append_nil]
  have hget : l.getD k 255 = l.getD k 0 := by
    rw [List.getD_eq_getElem _ _ (by omega), List.getD_eq_getElem _ _ (by omega)]
  unfold tempOf
  rw [htemps, hget, if_neg (by omega)]

/-- The trip ends once every sensor reads below its warning. -/
theorem thermalTripEnd_of {l : List Nat} {s : State} (hl : l.length = 14) (hs : s.sys.temps.length = 14) (ht : ∀ k, k < 14 → l.getD k 0 < 255) :
    ((∃ k, k < 14 ∧ warnAt k ≤ l.getD k 0) → exec (.thermalTripEnd l) s = .next s) ∧
    ((∀ k, k < 14 → l.getD k 0 < warnAt k) → ∃ t, exec (.thermalTripEnd l) s = .next t ∧
      t.sys = { s.sys with temps := l, asserted := s.sys.asserted.filter (fun x => x.bit != 7) } ∧
      (∀ k, k < 14 → ∀ f ∈ tempRegs k, t.get f = l.getD k 0) ∧ SameRegsBut ((List.range 14).flatMap tempRegs) s t ∧
      { t with sys := s.sys, regs := s.regs } = s) := by
  have h := setTemps_of hl hs ht
  have htemp := fun k hk => h.temp hl hs hk (ht k hk)
  have hexec : exec (.thermalTripEnd l) s = if (List.range 14).all (fun k => decide ((s.setTemps l).tempOf k < warnAt k)) then
      .next ((s.setTemps l).dropSource (fun x => x.bit == 7)) else .next s := rfl
  generalize s.setTemps l = u at *
  refine ⟨fun ⟨k, hk, hw⟩ => hexec.trans (if_neg fun hall => ?_), fun hall => ⟨_, hexec.trans (if_pos ?_), ?_, h.shown, h.regs, h.rest⟩⟩
  · have := of_decide_eq_true (List.all_eq_true.mp hall k (List.mem_range.mpr hk))
    rw [htemp k hk] at this
    omega
  · rw [List.all_eq_true]
    intro k hk
    have hk' := List.mem_range.mp hk
    exact decide_eq_true (by rw [htemp k hk']; exact hall k hk')
  · have hsys : u.sys = { s.sys with temps := l } := by
      rw [h.sys]
      show { s.sys with temps := l.take 14 ++ s.sys.temps.drop 14 } = _
      rw [List.take_of_length_le (by omega), List.drop_of_length_le (by omega), List.append_nil]
    unfold dropSource
    rw [hsys]
    rfl

/-! ## The watchdog (R489) -/

theorem watchdog_none {s : State} {ms : Nat} (h : ¬ (s.sys.rails = true ∧ s.sys.por = false) ∨ s.smithUp = false ∨ s.get Reg.rstCtrlWdtEn ≠ 1 ∨
    ms < s.wdtPeriod) : exec (.watchdogExpiry ms) s = .next s := by
  refine if_pos ?_
  rcases h with h | h | h | h
  · simp [not_on h]
  · simp [h]
  · simp [flag, h]
  · simp [h]

theorem watchdog_of {s : State} (hon : s.sys.rails = true ∧ s.sys.por = false) (hup : s.smithUp = true) (hen : s.get Reg.rstCtrlWdtEn = 1)
    {ms : Nat} (hms : s.wdtPeriod ≤ ms) : ∃ t, exec (.watchdogExpiry ms) s = .next t ∧ Raised s t srcSmith 0x78 clsU 0 ∧
      t.sys = { s.sys with wdt := ms } ∧ SameRegsBut dropRegs s t ∧ { t with sys := s.sys, regs := s.regs, faultQ := s.faultQ } = s := by
  have hexec : exec (.watchdogExpiry ms) s = .next ({ s with sys := { s.sys with wdt := ms } }.raise srcSmith 0x78 clsU 0) := by
    show execWatchdogExpiry ms s = _
    unfold execWatchdogExpiry
    rw [if_neg (by simp [on_running hon, hup, flag, hen, hms])]
  have hraise := Machine.raise_sameRegsBut { s with sys := { s.sys with wdt := ms } } srcSmith 0x78 clsU 0
  refine ⟨_, hexec, .of_raise (t := { s with sys := { s.sys with wdt := ms } }) rfl rfl _ _ _ _, ?_, hraise, ?_⟩
  · rw [State.raise_upd]
  · rw [State.raise_upd]

end State

/-- Settles O54: the power input by what power-on reset loses (`State.powerOff_lost`), the sensors by the raise of their readings, and the
patrol by the check of one granule. -/
theorem powerAndHeatAreWatched : Obligations.PowerAndHeatAreWatched := by
  intro s lost on
  have hlost : ∀ t, PowerLost s t → lost t := fun t h =>
    ⟨h.regs, h.bytes, h.cru, h.seed, h.billet, h.life, h.mbx, h.jnl, h.por, h.held, h.pending, h.out⟩
  refine ⟨fun vin h => State.powerInputRise_none h, fun vin hr h1 h2 => ?_, fun hr => ⟨if_pos (by simp [hr]), if_pos (by simp [hr]), if_pos (by simp [hr])⟩,
    fun vin h => State.powerInputBand_none h, fun en addr h => if_pos ?_, fun hr => ⟨?_, ?_, ?_, fun vin h => State.powerInputBand_of hr h,
    fun hpor legacyEn addr => ?_⟩, ⟨fun k temp h => State.thermalWarning_none h, fun k temp h => State.thermalTrip_none h, fun k temp hon hk ht =>
      ⟨fun hw hlow => ?_, fun hw hlow => State.thermalTrip_of hon hk ht hw hlow⟩, fun temps hl hs ht => State.thermalTripEnd_of hl hs ht⟩,
    fun ms h => State.watchdog_none h, fun ms hon hup hen hms => State.watchdog_of hon hup hen hms, ?_, fun stack ecc written =>
      ⟨fun h8 h => State.patrol_none h8 h ecc written, fun h => patrolStack_of h ecc written⟩, fun ecc written => ⟨fun h => ?_, fun hup hself =>
      patrolStock_of hup hself ecc written⟩⟩
  · have h := State.PowerLost.setVin (s.powerOff_lost true 0) vin (inBand vin)
    exact ⟨_, if_neg (by simp [hr, h1, h2]), hlost _ h, rfl, rfl, rfl, State.inBand_iff h1 h2⟩
  · rcases h with h | h <;> simp [h]
  · exact ⟨_, if_neg (by simp [hr]), hlost _ (s.powerOff_lost false 0), rfl, rfl⟩
  · exact ⟨_, if_neg (by simp [hr]), hlost _ (s.powerOff_lost false 0), rfl, rfl⟩
  · exact ⟨_, if_neg (by simp [hr]), hlost _ (s.powerOff_lost true _), rfl, rfl, rfl⟩
  · obtain ⟨hrest, hbit, hstrap, hen, hasserted, hregs⟩ := s.released_of legacyEn
    have hexec := State.powerOnRelease_eq hr hpor legacyEn addr
    generalize s.released legacyEn = u at *
    have hsys : u.sys = s.sys := (congrArg State.sys hrest :)
    have hjnl : u.jnl = s.jnl := (congrArg State.jnl hrest :)
    rw [hsys, hjnl] at hexec
    exact ⟨_, hexec, hbit, hstrap, hen, rfl, hasserted, rfl, (congrArg (fun v : State => { v with sys := s.sys, jnl := s.jnl }) hrest :), hregs⟩
  · obtain ⟨hshows, hraised, -⟩ := State.thermal_raise (s := s) hk ht 0x7C clsC
    exact ⟨_, State.thermalWarning_eq hon hk ht hw hlow, hshows, hraised⟩
  · show (if s.smithUp = true then _ else _) = _
    split <;> rfl
  · show execPatrolRead 8 ecc s written = _
    unfold execPatrolRead
    rw [if_pos rfl]
    refine if_pos ?_
    rcases h with h | h <;> simp [h]

end Sys2Proof.Machine
end

section
/-! SUPPORT. Proofs: what a device that sends, counts and raises keeps of its routes and of the packets that are ready (R287, R319). -/

namespace Sys2Proof.Machine

/-- From `s` to `t` the device has perhaps sent packets: its routes are the same, and the packets that were ready are so still, or have
gone out. -/
structure Passing (s t : State) : Prop where
  out : s.out <+: t.out
  ready : ∀ p, ∀ k ∈ (s.port p).ready, FixedBody k.body → Sends s t p k.body
  routes : ∀ dst early, t.routePort dst early = s.routePort dst early

namespace Passing

theorem refl (s : State) : Passing s s := ⟨List.prefix_rfl, fun _ _ h _ => .of_ready h, fun _ _ => rfl⟩

/-- What has been sent in the first step has been sent after the second. -/
theorem sends {r s t : State} {p : Nat} {body : Payload} (k : Passing s t) (h : Sends r s p body) (hout : r.out <+: s.out)
    (hfix : FixedBody body) : Sends r t p body := by
  obtain ⟨l, hl⟩ := hout
  obtain ⟨m, hm⟩ := k.out
  obtain ⟨pk, rfl, hready | ⟨seq, ack, mask, part, ls, hd, hframe⟩⟩ := h
  · exact (k.ready p pk hready hfix).from ⟨l, hl⟩ k.out
  · refine ⟨pk, rfl, .inr ⟨seq, ack, mask, part, ls, hd, ?_⟩⟩
    rw [← hl, List.drop_left] at hframe
    rw [← hm, ← hl, List.append_assoc, List.drop_left]
    exact List.mem_append_left _ hframe

theorem trans {r s t : State} (h : Passing r s) (k : Passing s t) : Passing r t where
  out := h.out.trans k.out
  ready p pk hpk hfix := k.sends (h.ready p pk hpk hfix) h.out hfix
  routes dst early := (k.routes dst early).trans (h.routes dst early)

theorem of_sending {s t : State} (h : Sending s t) : Passing s t := ⟨h.out, h.ready, State.routePort_of_sending h⟩

/-- The registers that a port's routes read are the same. -/
theorem of_ports {s t : State} (hports : t.ports = s.ports) (hroutes : t.net.routes = s.net.routes) (hout : s.out <+: t.out)
    (hup : ∀ p, t.portUp p = s.portUp p) (hseal : ∀ p, t.linkSealed p = s.linkSealed p) : Passing s t := by
  have hport : ∀ p, t.port p = s.port p := fun p => congrArg (fun l => Assoc.get Port.init l p) hports
  refine ⟨hout, fun p k hk _ => .of_ready ((hport p).symm ▸ hk), fun dst early => ?_⟩
  unfold State.routePort
  rw [hroutes]
  simp only [hup, hseal, hport]

/-- Other registers, faults and a Cadence that no route reads. -/
theorem of_same {s t : State} (hregs : t.regs = s.regs) (hports : t.ports = s.ports) (hroutes : t.net.routes = s.net.routes)
    (hout : s.out <+: t.out) : Passing s t := by
  have hget : ∀ f, t.get f = s.get f := State.get_of_regs hregs
  refine of_ports hports hroutes hout (fun p => ?_) fun p => ?_
  · simp only [State.portUp, hget]
  · simp only [State.linkSealed, State.flag, hget]

theorem foldl {α : Type} {f : State → α → State} (hf : ∀ t a, Passing t (f t a)) (l : List α) (s : State) : Passing s (l.foldl f s) := by
  induction l generalizing s with
  | nil => exact refl s
  | cons a l ih => exact (hf s a).trans (ih _)

end Passing

namespace State

/-- A register that the device counts and no route reads. -/
theorem passing_of_regs {s t : State} {l : List Fld} (h : SameRegsBut l s t) (hrest : { t with regs := s.regs, faultQ := s.faultQ } = s)
    (hl : ∀ g ∈ l, (∀ p, (Reg.fabCtrlMode p).key ≠ g.key ∧ (Reg.fabStatusState p).key ≠ g.key ∧ (Reg.fabSealState p).key ≠ g.key) ∧
      Reg.netCtrlSeal.key ≠ g.key) : Passing s t := by
  refine .of_ports (congrArg State.ports hrest :) (congrArg (fun v : State => v.net.routes) hrest :)
    ((congrArg State.out hrest :) ▸ List.prefix_rfl) (fun p => ?_) fun p => ?_
  · simp only [portUp, h _ fun g hg => ((hl g hg).1 p).1, h _ fun g hg => ((hl g hg).1 p).2.1]
  · simp only [linkSealed, flag, h _ fun g hg => ((hl g hg).1 p).2.2, h _ fun g hg => (hl g hg).2]

theorem raise_rest (s : State) (src kind cls addr : Nat) :
    { s.raise src kind cls addr with regs := s.regs, faultQ := s.faultQ } = s := by
  unfold raise raiseMsg
  split <;> rfl

theorem raise_passing (s : State) (src kind cls addr : Nat) : Passing s (s.raise src kind cls addr) := by
  refine passing_of_regs (l := dropRegs) (fun f hf => Machine.raise_sameRegsBut s src kind cls addr f hf) (s.raise_rest ..) fun g hg => ?_
  have hkey : g.key < 0x100000 * 32 := by
    rcases List.mem_cons.mp hg with rfl | hg
    · decide
    · rw [List.mem_singleton.mp hg]
      decide
  refine ⟨fun p => ?_, ?_⟩
  · have h1 : (Reg.fabCtrlMode p).key = (0x100000 + 0x1000 * p + 0) * 32 + 1 := rfl
    have h2 : (Reg.fabStatusState p).key = (0x100000 + 0x1000 * p + 4) * 32 + 0 := rfl
    have h3 : (Reg.fabSealState p).key = (0x100000 + 0x1000 * p + 0x240) * 32 + 0 := rfl
    omega
  · have h4 : Reg.netCtrlSeal.key = (0x100000 + 0xC000) * 32 := rfl
    omega

theorem count_noroute_passing (s : State) : Passing s (s.count Reg.netNoroute) := by
  refine passing_of_regs (l := [Reg.netNoroute]) ((SameRegsBut.refl _ s).count _ 1 List.mem_cons_self) rfl fun g hg => ?_
  have hkey : g.key = (0x100000 + 0xC020) * 32 := by
    rw [List.mem_singleton.mp hg]
    rfl
  refine ⟨fun p => ?_, ?_⟩
  · have h1 : (Reg.fabCtrlMode p).key = (0x100000 + 0x1000 * p + 0) * 32 + 1 := rfl
    have h2 : (Reg.fabStatusState p).key = (0x100000 + 0x1000 * p + 4) * 32 + 0 := rfl
    have h3 : (Reg.fabSealState p).key = (0x100000 + 0x1000 * p + 0x240) * 32 + 0 := rfl
    omega
  · have h4 : Reg.netCtrlSeal.key = (0x100000 + 0xC000) * 32 := rfl
    omega

theorem wantAbort_passing (s : State) : Passing s s.wantAbort := .of_same rfl rfl rfl List.prefix_rfl

theorem noRoute_passing (s : State) : Passing s s.noRoute :=
  (s.count_noroute_passing.trans (raise_passing ..)).trans (wantAbort_passing _)

theorem sendRouted_passing (s : State) (pk : Packet) : Passing s (s.sendRouted pk) := by
  cases h : s.routePort pk.dst (earlyType pk.type) with
  | some r => exact .of_sending (sendRouted_sends (p := r.1) (alt := r.2) h).1
  | none =>
    unfold sendRouted
    rw [h]
    exact s.noRoute_passing

theorem sendCad_passing (s : State) (dst : Nat) (m : CadMsg) : Passing s (s.sendCad dst m) := by
  unfold sendCad
  split
  · exact .of_sending ((Sending.refl s).emit _)
  · exact s.sendRouted_passing _

theorem raiseHold_passing {s : State} (u : State) (angle reason : Nat) (entry : Option Nat) (h : Passing s u) :
    Passing s (u.raiseHold angle reason entry) := by
  have h1 : Passing s { u with cad := holdCad u.cad angle reason entry } := h.trans (.of_same rfl rfl rfl List.prefix_rfl)
  exact h1.trans (sendCad_passing _ _ _)

theorem placeWant_passing (s : State) : Passing s s.placeWant := by
  unfold placeWant
  split
  · exact .refl s
  · split
    · split
      · exact (raiseHold_passing _ _ _ _ (.of_same rfl rfl rfl List.prefix_rfl))
      · exact .refl s
    · exact .refl s

end State

end Sys2Proof.Machine
end

section
/-! SUPPORT. Proofs: the all-reduce of a group is combined in the tree's order (R324 to R326). -/

namespace Sys2Proof.Machine

theorem OnlyFabric.of_movesCad {s t : State} (h : MovesCad s t) : OnlyFabric s t := by
  let kept : State → State := fun v => { v with net := s.net, freeCtr := s.freeCtr }
  exact ⟨h.regs, (congrArg kept h.rest :)⟩

theorem OnlyFabric.trans {r s t : State} (h : OnlyFabric r s) (k : OnlyFabric s t) : OnlyFabric r t := by
  let kept : State → State := fun v => { v with
    regs := r.regs, ports := r.ports, net := r.net, cad := r.cad, faultQ := r.faultQ, out := r.out, freeCtr := r.freeCtr }
  exact ⟨h.1.trans k.1, (congrArg kept k.2 :).trans h.2⟩

/-- From `s` to `t` of the all-reduces only that of `g` has changed. -/
def ReducesOnly (g : Nat) (s t : State) : Prop :=
  OnlyFabric s t ∧ t.net = { s.net with allReduce := t.net.allReduce } ∧ ∀ h, h ≠ g → t.reduceOf h = s.reduceOf h

theorem ReducesOnly.trans {g : Nat} {r s t : State} (h : ReducesOnly g r s) (k : ReducesOnly g s t) : ReducesOnly g r t := by
  obtain ⟨hfab, hnet, hother⟩ := h
  obtain ⟨kfab, knet, kother⟩ := k
  refine ⟨hfab.trans kfab, ?_, fun i hi => (kother i hi).trans (hother i hi)⟩
  rw [knet, hnet]

/-- What moves no all-reduce. -/
theorem ReducesOnly.of_movesCad {g : Nat} {s t : State} (h : MovesCad s t) : ReducesOnly g s t := by
  have hnet : t.net = s.net := (congrArg State.net h.rest :)
  exact ⟨.of_movesCad h, by rw [hnet], fun i _ => congrArg (fun n : Net => State.reduceOf { s with net := n } i) hnet⟩

/-- `passes` of the statement: the children on whose way the device has a route are sent the sums. -/
def PassesSums (g : Nat) (s t : State) (sum : List Nat) (flags : Nat) : Prop :=
  ∀ c ∈ kidsOf (groupOf s g).length ((groupOf s g).idxOf s.addr), ∀ q alt,
    s.routePort (memberAt (groupOf s g) 0 (2 * (groupOf s g).idxOf s.addr + c)) false = some (q, alt) → Sends s t q (.sums sum flags)

namespace State

theorem reduceOf_group (s : State) (g : Nat) : (s.reduceOf g).group = g := by
  unfold reduceOf
  split
  next a h => simpa using List.find?_some h
  · rfl

theorem setReduce_same (s : State) {g : Nat} {x : AllReduce} (hx : x.group = g) : (s.setReduce x).reduceOf g = x := by
  subst hx
  unfold reduceOf setReduce
  dsimp only
  rw [List.find?_append, List.find?_filter, List.find?_eq_none.mpr (by simp)]
  simp

theorem setReduce_ne (s : State) {h : Nat} {x : AllReduce} (hne : h ≠ x.group) : (s.setReduce x).reduceOf h = s.reduceOf h := by
  unfold reduceOf setReduce
  dsimp only
  have hlast : ([x].find? fun a => a.group == h) = none := by simpa using Ne.symm hne
  have hfind : (s.net.allReduce.filter fun y => y.group != x.group).find? (fun a => a.group == h) =
      s.net.allReduce.find? (fun a => a.group == h) := by
    rw [List.find?_filter]
    refine List.find?_congr fun a _ => ?_
    by_cases ha : a.group = h
    · simpa [ha] using hne
    · simp [ha]
  rw [List.find?_append, hlast, hfind, Option.or_none]

theorem setReduce_only (s : State) (x : AllReduce) : ReducesOnly x.group s (s.setReduce x) :=
  ⟨⟨SameRegsOut.refl _ _, rfl⟩, rfl, fun _ h => s.setReduce_ne h⟩

theorem setReduce_passing (s : State) (x : AllReduce) : Passing s (s.setReduce x) := .of_same rfl rfl rfl List.prefix_rfl

theorem reduceOf_of_movesCad {s t : State} (h : MovesCad s t) (g : Nat) : t.reduceOf g = s.reduceOf g := by
  have hnet : t.net = s.net := (congrArg State.net h.rest :)
  exact congrArg (fun n : Net => reduceOf { s with net := n } g) hnet

theorem sumsBody (sum : List Nat) (flags : Nat) : FixedBody (.sums sum flags) := fun _ _ _ h => by cases h

theorem sendSums_movesCad (s : State) (g dst : Nat) (sum : List Nat) (flags : Nat) : MovesCad s (s.sendSums g dst sum flags) :=
  (s.sendRouted_routed _).toMovesCad

theorem sendSums_passing (s : State) (g dst : Nat) (sum : List Nat) (flags : Nat) : Passing s (s.sendSums g dst sum flags) :=
  s.sendRouted_passing _

/-- A vector for which there is a route goes out on it. -/
theorem sendSums_sends {s : State} {dst q : Nat} {alt : Bool} (g : Nat) (sum : List Nat) (flags : Nat)
    (h : s.routePort dst false = some (q, alt)) : Sends s (s.sendSums g dst sum flags) q (.sums sum flags) :=
  (sendRouted_sends (pk := s.newPacket 0x0E false dst (s.streamAt dst 2 g) g (.sums sum flags)) h).2 (sumsBody sum flags)

/-- A vector goes to each member of a list to which there is a route. -/
theorem sendSums_foldl (s : State) (g : Nat) (dst : Nat → Nat) (sum : List Nat) (flags : Nat) (l : List Nat) :
    let t := l.foldl (fun t c => t.sendSums g (dst c) sum flags) s
    MovesCad s t ∧ Passing s t ∧ ∀ c ∈ l, ∀ q alt, s.routePort (dst c) false = some (q, alt) → Sends s t q (.sums sum flags) := by
  induction l generalizing s with
  | nil => exact ⟨.refl s, .refl s, fun _ h => absurd h List.not_mem_nil⟩
  | cons c l ih =>
    obtain ⟨hmoves, hpass, hsends⟩ := ih (s.sendSums g (dst c) sum flags)
    have h1 := s.sendSums_passing g (dst c) sum flags
    refine ⟨(s.sendSums_movesCad ..).trans hmoves, h1.trans hpass, fun d hd q alt hq => ?_⟩
    rcases List.mem_cons.mp hd with rfl | hd
    · exact hpass.sends (sendSums_sends g sum flags hq) h1.out (sumsBody sum flags)
    · exact (hsends d hd q alt ((h1.routes _ _).trans hq)).from h1.out hpass.out

/-- The result at a member: it is the group's, and goes down the tree. -/
theorem deliverSums_spec (s : State) (g : Nat) (sum : List Nat) (flags : Nat) :
    let t := s.deliverSums g sum flags
    ReducesOnly g s t ∧ Passing s t ∧ t.reduceOf g = { s.reduceOf g with result := some (sum, flags) } ∧ PassesSums g s t sum flags := by
  have hx : ({ s.reduceOf g with result := some (sum, flags) } : AllReduce).group = g := s.reduceOf_group g
  obtain ⟨hmoves, hpass, hsends⟩ := (s.setReduce { s.reduceOf g with result := some (sum, flags) }).sendSums_foldl g
    (fun c => memberAt (groupOf s g) 0 (2 * (groupOf s g).idxOf s.addr + c)) sum flags
    (kidsOf (groupOf s g).length ((groupOf s g).idxOf s.addr))
  have hset := s.setReduce_passing { s.reduceOf g with result := some (sum, flags) }
  have honly := s.setReduce_only { s.reduceOf g with result := some (sum, flags) }
  have hsame := s.setReduce_same hx
  rw [hx] at honly
  refine ⟨honly.trans (.of_movesCad hmoves), hset.trans hpass, ?_, fun c hc q alt hq => ?_⟩
  · exact (reduceOf_of_movesCad hmoves g).trans hsame
  · exact (hsends c hc q alt ((hset.routes _ _).trans hq)).from hset.out hpass.out

/-- The vectors of the children, in the tree's order. -/
def kidSums (s : State) (g : Nat) : List (Nat × List Nat × Nat) :=
  (kidsOf (groupOf s g).length ((groupOf s g).idxOf s.addr)).filterMap (fun c => (s.reduceOf g).kids.find? (fun k => k.1 == c))

/-- Nothing is combined while a vector is missing, or after it has been sent. -/
theorem combineSums_waits {s : State} {g : Nat} (h : (s.reduceOf g).own = none ∨ (s.reduceOf g).sent = true ∨
    (s.kidSums g).length ≠ (kidsOf (groupOf s g).length ((groupOf s g).idxOf s.addr)).length) : s.combineSums g = s := by
  unfold combineSums
  dsimp only
  split
  · rfl
  next vals mask hown =>
    refine if_pos ?_
    rw [hown] at h
    simpa [kidSums] using h

/-- Once every vector is there the sums go to the parent, or at the root they are the result. -/
theorem combineSums_of {s : State} {g : Nat} {vals : List Nat} {m : Nat} (hown : (s.reduceOf g).own = some (vals, m))
    (hsent : (s.reduceOf g).sent = false)
    (hkids : (s.kidSums g).length = (kidsOf (groupOf s g).length ((groupOf s g).idxOf s.addr)).length) :
    let sum := vals.zipIdx.map (fun x => treeSum x.1 ((s.kidSums g).map (fun k => k.2.1.getD x.2 0)))
    let flags := (s.kidSums g).foldl (fun n k => n ||| k.2.2) m
    let s1 := s.setReduce { s.reduceOf g with sent := true }
    s.combineSums g = if (groupOf s g).idxOf s.addr = 0 then s1.deliverSums g sum flags
      else s1.sendSums g (memberAt (groupOf s g) 0 (((groupOf s g).idxOf s.addr - 1) / 2)) sum flags := by
  unfold combineSums
  dsimp only
  rw [hown]
  dsimp only
  refine if_neg ?_
  rw [hsent]
  simp only [kidSums] at hkids
  simp [hkids]

end State

/-- The children's entries that a list of positions finds, when it finds every one. -/
theorem filterMap_find?_length {α : Type} (f : Nat → Option α) (l : List Nat) :
    (l.filterMap f).length = l.length ↔ ∀ c ∈ l, (f c).isSome = true := by
  induction l with
  | nil => simp
  | cons c l ih =>
    cases h : f c with
    | none =>
      have := List.length_filterMap_le f l
      simp only [List.filterMap_cons, h, List.length_cons, List.mem_cons, forall_eq_or_imp, Option.isSome_none, Bool.false_eq_true, false_and,
        iff_false]
      omega
    | some a => simp [h, ih]

/-- What a list of positions finds, mapped, when it finds every one. -/
theorem filterMap_find?_map {α β : Type} (f : Nat → Option α) (e : α → β) (d : β) {l : List Nat} (h : ∀ c ∈ l, (f c).isSome = true) :
    (l.filterMap f).map e = l.map (fun c => ((f c).map e).getD d) := by
  induction l with
  | nil => rfl
  | cons c l ih =>
    obtain ⟨a, ha⟩ := Option.isSome_iff_exists.mp (h c List.mem_cons_self)
    simp only [List.filterMap_cons, ha, List.map_cons, Option.map_some, Option.getD_some,
      ih fun c hc => h c (List.mem_cons_of_mem _ hc)]

/-! ## R326 -/

theorem collective_voids {s : State} {g src attempt : Nat} (values : List Nat) (mask : Nat)
    (h : s.alive = false ∨ attempt ≠ s.cad.attempt ∨ s.addr ∉ groupOf s g ∨ src ∉ groupOf s g) :
    exec (.collective g src attempt values mask) s = .next s := by
  refine if_pos ?_
  rcases h with h | h | h | h <;> simp [h]

theorem collective_of {s : State} {g src attempt : Nat} (values : List Nat) (mask : Nat) (halive : s.alive = true)
    (hattempt : attempt = s.cad.attempt) (hme : s.addr ∈ groupOf s g) (hsrc : src ∈ groupOf s g) :
    let v := (groupOf s g).idxOf s.addr
    let w := (groupOf s g).idxOf src
    let a := s.reduceOf g
    exec (.collective g src attempt values mask) s =
      if decide (1 ≤ v) && w == (v - 1) / 2 then
        if a.result.isSome then .next s else .next (s.deliverSums g values mask).placeWant
      else if decide (1 ≤ w) && (w - 1) / 2 == v && !(a.kids.any (fun k => k.1 == childPos w)) then
        .next ((s.setReduce { a with kids := a.kids ++ [(childPos w, values, mask % 256)] }).combineSums g).placeWant
      else .next s := by
  refine if_neg ?_
  simp [halive, hattempt, hme, hsrc]

theorem ReducesOnly.placeWant {g : Nat} {s t : State} (h : ReducesOnly g s t) : ReducesOnly g s t.placeWant :=
  h.trans (.of_movesCad t.placeWant_movesCad)

/-- The vector of a child that is kept. -/
def withKid (s : State) (g w : Nat) (values : List Nat) (mask : Nat) : State :=
  s.setReduce { s.reduceOf g with kids := (s.reduceOf g).kids ++ [(childPos w, values, mask % 256)] }

section
variable (s : State) (g w : Nat) (values : List Nat) (mask : Nat)

theorem withKid_reduceOf : (withKid s g w values mask).reduceOf g =
    { s.reduceOf g with kids := (s.reduceOf g).kids ++ [(childPos w, values, mask % 256)] } :=
  s.setReduce_same (s.reduceOf_group g)

theorem withKid_only : ReducesOnly g s (withKid s g w values mask) := by
  have h := s.setReduce_only { s.reduceOf g with kids := (s.reduceOf g).kids ++ [(childPos w, values, mask % 256)] }
  rwa [s.reduceOf_group g] at h

theorem withKid_passing : Passing s (withKid s g w values mask) := s.setReduce_passing _

end

/-- A vector that cannot be combined yet is kept. -/
theorem collective_keeps {s : State} {g w : Nat} {values : List Nat} {mask : Nat}
    (h : (s.reduceOf g).own = none ∨ (s.reduceOf g).sent = true ∨
      ∃ c ∈ kidsOf (groupOf s g).length ((groupOf s g).idxOf s.addr),
        ∀ k ∈ (s.reduceOf g).kids ++ [(childPos w, values, mask % 256)], k.1 ≠ c) :
    let t := ((withKid s g w values mask).combineSums g).placeWant
    t.reduceOf g = { s.reduceOf g with kids := (s.reduceOf g).kids ++ [(childPos w, values, mask % 256)] } ∧ ReducesOnly g s t := by
  have hkept := withKid_reduceOf s g w values mask
  have hwait : (withKid s g w values mask).combineSums g = withKid s g w values mask := by
    refine State.combineSums_waits ?_
    rw [hkept]
    refine h.imp id (.imp id ?_)
    rintro ⟨c, hc, hmiss⟩ hlen
    have hsome := (filterMap_find?_length _ _).mp hlen c hc
    obtain ⟨k, hk⟩ := Option.isSome_iff_exists.mp hsome
    rw [hkept] at hk
    exact hmiss k (List.mem_of_find?_eq_some hk) (by simpa using List.find?_some hk)
  rw [hwait]
  exact ⟨(State.reduceOf_of_movesCad (withKid s g w values mask).placeWant_movesCad g).trans hkept, (withKid_only ..).placeWant⟩

/-- With the last vector the sums are made in the tree's order, and go to the parent, or at the root are the result. -/
theorem collective_combines {s : State} {g w : Nat} {values : List Nat} {mask : Nat} {vals : List Nat} {m : Nat}
    (hown : (s.reduceOf g).own = some (vals, m)) (hsent : (s.reduceOf g).sent = false)
    (hall : ∀ c ∈ kidsOf (groupOf s g).length ((groupOf s g).idxOf s.addr),
      ∃ k ∈ (s.reduceOf g).kids ++ [(childPos w, values, mask % 256)], k.1 = c) :
    let l := groupOf s g
    let v := l.idxOf s.addr
    let kids := (s.reduceOf g).kids ++ [(childPos w, values, mask % 256)]
    let val := fun c i => ((kids.find? (fun k => k.1 == c)).map (fun k => k.2.1.getD i 0)).getD 0
    let flag := fun c => ((kids.find? (fun k => k.1 == c)).map (fun k => k.2.2)).getD 0
    let sum := vals.zipIdx.map (fun x => ((kidsOf l.length v).map (fun c => val c x.2)).foldl treeAdd x.1)
    let flags := ((kidsOf l.length v).map flag).foldl (· ||| ·) m
    let t := ((withKid s g w values mask).combineSums g).placeWant
    ReducesOnly g s t ∧
      (v = 0 → t.reduceOf g = { s.reduceOf g with kids := kids, sent := true, result := some (sum, flags) } ∧ PassesSums g s t sum flags) ∧
      (v ≠ 0 → t.reduceOf g = { s.reduceOf g with kids := kids, sent := true } ∧
        ∀ q alt, s.routePort (memberAt l 0 ((v - 1) / 2)) false = some (q, alt) → Sends s t q (.sums sum flags)) := by
  intro l v kids val flag sum flags
  have hkept : (withKid s g w values mask).reduceOf g = { s.reduceOf g with kids := kids } := withKid_reduceOf s g w values mask
  have hsome : ∀ c ∈ kidsOf l.length v, (kids.find? (fun k => k.1 == c)).isSome = true := fun c hc => by
    obtain ⟨k, hk, hkc⟩ := hall c hc
    exact List.find?_isSome.mpr ⟨k, hk, by simpa using hkc⟩
  have hk : (withKid s g w values mask).kidSums g = (kidsOf l.length v).filterMap (fun c => kids.find? (fun k => k.1 == c)) := by
    unfold State.kidSums
    rw [hkept]
    rfl
  have hcomb := State.combineSums_of (s := withKid s g w values mask) (g := g) (vals := vals) (m := m) (by rw [hkept]; exact hown)
    (by rw [hkept]; exact hsent) (by rw [hk]; exact (filterMap_find?_length _ _).mpr hsome)
  have hsum : vals.zipIdx.map (fun x => treeSum x.1 (((withKid s g w values mask).kidSums g).map (fun k => k.2.1.getD x.2 0))) = sum := by
    refine List.map_congr_left fun x _ => ?_
    rw [hk, filterMap_find?_map (fun c => kids.find? (fun k => k.1 == c)) (fun k => k.2.1.getD x.2 0) 0 hsome]
    rfl
  have hflags : ((withKid s g w values mask).kidSums g).foldl (fun n k => n ||| k.2.2) m = flags := by
    show _ = ((kidsOf l.length v).map flag).foldl (· ||| ·) m
    rw [hk, ← filterMap_find?_map (fun c => kids.find? (fun k => k.1 == c)) (fun k => k.2.2) 0 hsome, List.foldl_map]
  dsimp only at hcomb
  rw [hsum, hflags, hkept] at hcomb
  rw [hcomb]
  clear hcomb hsum hflags hk
  have hsaved := withKid_only s g w values mask
  have hpass := withKid_passing s g w values mask
  have hl : groupOf (withKid s g w values mask) g = l := rfl
  have haddr : (withKid s g w values mask).addr = s.addr := rfl
  rw [hl, haddr]
  clear_value kids
  generalize withKid s g w values mask = u at *
  have hg : ({ s.reduceOf g with kids := kids, sent := true } : AllReduce).group = g := s.reduceOf_group g
  have h1only := u.setReduce_only { s.reduceOf g with kids := kids, sent := true }
  have h1pass := hpass.trans (u.setReduce_passing { s.reduceOf g with kids := kids, sent := true })
  have h1same := u.setReduce_same hg
  rw [hg] at h1only
  have h1l : groupOf (u.setReduce { s.reduceOf g with kids := kids, sent := true }) g = l := hl
  have h1a : (u.setReduce { s.reduceOf g with kids := kids, sent := true }).addr = s.addr := haddr
  generalize u.setReduce { s.reduceOf g with kids := kids, sent := true } = u1 at *
  show ReducesOnly g s (ite (v = 0) _ _ : State).placeWant ∧ _
  by_cases hv : v = 0
  · rw [if_pos hv]
    obtain ⟨honly, hdpass, hred, hsends⟩ := u1.deliverSums_spec g sum flags
    have hplace := (u1.deliverSums g sum flags).placeWant_passing
    refine ⟨((hsaved.trans h1only).trans honly).placeWant, fun _ => ⟨?_, fun c hc q alt hq => ?_⟩, fun h => absurd hv h⟩
    · exact ((State.reduceOf_of_movesCad (State.placeWant_movesCad _) g).trans hred).trans (by rw [h1same])
    · have hsend := hsends c (by rw [h1l, h1a]; exact hc) q alt (by rw [h1l, h1a, h1pass.routes]; exact hq)
      exact (hplace.sends hsend hdpass.out (State.sumsBody sum flags)).from h1pass.out (hdpass.trans hplace).out
  · rw [if_neg hv]
    have hmoves := u1.sendSums_movesCad g (memberAt l 0 ((v - 1) / 2)) sum flags
    have hspass := u1.sendSums_passing g (memberAt l 0 ((v - 1) / 2)) sum flags
    have hplace := (u1.sendSums g (memberAt l 0 ((v - 1) / 2)) sum flags).placeWant_passing
    refine ⟨((hsaved.trans h1only).trans (.of_movesCad hmoves)).placeWant, fun h => absurd h hv, fun _ => ⟨?_, fun q alt hq => ?_⟩⟩
    · exact (State.reduceOf_of_movesCad (hmoves.trans (State.placeWant_movesCad _)) g).trans h1same
    · have hsend := State.sendSums_sends g sum flags ((h1pass.routes _ _).trans hq)
      exact (hplace.sends hsend hspass.out (State.sumsBody sum flags)).from h1pass.out (hspass.trans hplace).out

/-- Settles O44: the member whose own vector and whose children's are there combines them in the tree's order. -/
theorem collectivesCombine : Obligations.CollectivesCombine := by
  unfold Obligations.CollectivesCombine
  intro s g src attempt values mask l v w a gets up child frame passes
  refine ⟨fun h => ?_, fun halive hattempt hme hsrc => ⟨fun hup hresult => ?_, ?_⟩⟩
  · by_cases hout : s.alive = false ∨ attempt ≠ s.cad.attempt ∨ s.addr ∉ groupOf s g ∨ src ∉ groupOf s g
    · exact collective_voids values mask hout
    have hin := hout
    push Not at hin
    obtain ⟨halive, hattempt, hme, hsrc⟩ := hin
    refine (collective_of values mask (by simpa using halive) hattempt hme hsrc).trans ?_
    show (if decide (1 ≤ v) && w == (v - 1) / 2 then _ else _) = _
    by_cases hup : up
    · rw [if_pos (by simpa using hup)]
      refine if_pos ?_
      rcases h with h | h | h | h | h | h | h
      · exact absurd (.inl h) hout
      · exact absurd (.inr (.inl h)) hout
      · exact absurd (.inr (.inr (.inl h))) hout
      · exact absurd (.inr (.inr (.inr h))) hout
      · exact absurd hup h.1
      · exact h.2
      · exact absurd hup h.1
    · rw [if_neg (by simpa [up] using hup)]
      refine if_neg ?_
      rcases h with h | h | h | h | h | h | h
      · exact absurd (.inl h) hout
      · exact absurd (.inr (.inl h)) hout
      · exact absurd (.inr (.inr (.inl h))) hout
      · exact absurd (.inr (.inr (.inr h))) hout
      · exact fun hc => h.2 (by simpa [w, v] using (Bool.and_eq_true_iff.mp hc).1)
      · exact absurd h.1 hup
      · intro hc
        obtain ⟨k, hk, hpos⟩ := h.2
        have := (Bool.and_eq_true_iff.mp hc).2
        simp only [Bool.not_eq_true', List.any_eq_false, beq_iff_eq] at this
        exact this k hk hpos
  · have hexec := collective_of values mask halive hattempt hme hsrc
    dsimp only at hexec
    rw [if_pos (by simpa using hup), if_neg (by simp [show (s.reduceOf g).result = none from hresult])] at hexec
    obtain ⟨honly, hpass, hred, hsends⟩ := s.deliverSums_spec g values mask
    have hplace := (s.deliverSums g values mask).placeWant_passing
    exact ⟨_, hexec, (State.reduceOf_of_movesCad (State.placeWant_movesCad _) g).trans hred, honly.placeWant,
      fun c hc q alt hq => hplace.sends (hsends c hc q alt hq) hpass.out (State.sumsBody values mask)⟩
  · intro hup hchild hnew kids val flag
    have hexec := collective_of values mask halive hattempt hme hsrc
    dsimp only at hexec
    rw [if_neg (by simpa [up] using hup), if_pos (by
      simp only [Bool.and_eq_true, decide_eq_true_eq, beq_iff_eq, Bool.not_eq_true', List.any_eq_false]
      exact ⟨hchild, hnew⟩)] at hexec
    exact ⟨fun hwait => ⟨_, hexec, collective_keeps hwait⟩,
      fun vals m hown hsent hall => ⟨_, hexec, collective_combines hown hsent hall⟩⟩

end Sys2Proof.Machine
end

section
/-! SUPPORT. Proofs: what a skipped sample changes (R353, R354), and what the engines that take samples change (R347). -/

namespace Sys2Proof.Machine

/-- A register of chapter 13 that does not show busy engines. -/
abbrev TellsBloom (f : Fld) : Prop :=
  0x200000 * 32 ≤ f.key ∧ f.key < 0x300000 * 32 ∧ f.key ≠ Reg.blmVideoBusy.key ∧ f.key ≠ Reg.blmJpegBusy.key

/-- From `s` to `t` spares have been copied and engines taken or freed: bytes of `stored` alone have changed in the memories. -/
structure MovesBloom (stored : Nat → Nat → Prop) (s t : State) : Prop where
  regs : ∀ f, TellsBloom f → t.get f = s.get f
  rest : { t with regs := s.regs, hearth0 := s.hearth0, hearth1 := s.hearth1, hbm := s.hbm, hbmPoison := s.hbmPoison
                  faultQ := s.faultQ, blm := s.blm } = s
  feeders : t.blm.feeders = s.blm.feeders
  bytes : SameBytesBut stored s t

namespace MovesBloom

variable {stored : Nat → Nat → Prop}

theorem refl (s : State) : MovesBloom stored s s := ⟨fun _ _ => rfl, rfl, rfl, fun _ _ _ _ => rfl⟩

theorem trans {r s t : State} (h : MovesBloom stored r s) (k : MovesBloom stored s t) : MovesBloom stored r t where
  regs f hf := (k.regs f hf).trans (h.regs f hf)
  rest := by
    let kept : State → State := fun v => { v with regs := r.regs, hearth0 := r.hearth0, hearth1 := r.hearth1, hbm := r.hbm
                                                  hbmPoison := r.hbmPoison, faultQ := r.faultQ, blm := r.blm }
    exact (congrArg kept k.rest :).trans h.rest
  feeders := k.feeders.trans h.feeders
  bytes n a hn ha := (k.bytes n a hn ha).trans (h.bytes n a hn ha)

theorem foldl {α : Type} {l : List α} {f : State → α → State} (h : ∀ a ∈ l, ∀ t, MovesBloom stored t (f t a)) (s : State) :
    MovesBloom stored s (l.foldl f s) := by
  induction l generalizing s with
  | nil => exact .refl s
  | cons a r ih => exact (h a List.mem_cons_self s).trans (ih (fun b hb => h b (List.mem_cons_of_mem a hb)) _)

theorem billet {s t : State} (h : MovesBloom stored s t) : t.billet = s.billet := (congrArg State.billet h.rest :)

theorem bloomAt {s t : State} (h : MovesBloom stored s t) (e : Nat) : bloomAt t e = bloomAt s e := by
  unfold Machine.bloomAt
  rw [h.billet]

theorem setBstream (s : State) (e : Nat) (x : BStream) : MovesBloom stored s (s.setBstream e x) :=
  ⟨fun _ _ => rfl, rfl, rfl, fun _ _ _ _ => rfl⟩

theorem put (s : State) {f : Fld} (hf : ∀ g, TellsBloom g → g.key ≠ f.key) (v : Nat) : MovesBloom stored s (s.put f v) :=
  ⟨fun g hg => State.get_put_ne _ _ (hf g hg), rfl, rfl, fun _ _ _ _ => rfl⟩

theorem putBusy (s : State) (kind v : Nat) : MovesBloom stored s (s.put (State.busyField kind) v) := by
  refine put s (fun g hg => ?_) v
  obtain ⟨-, -, hv, hj⟩ := hg
  unfold State.busyField
  split
  · exact hj
  · exact hv

theorem raise (s : State) (src kind cls addr : Nat) : MovesBloom stored s (s.raise src kind cls addr) := by
  refine ⟨fun f hf => ?_, ?_, ?_, fun k a hk _ => ?_⟩
  · obtain ⟨hlo, -, -, -⟩ := hf
    have hd : Reg.fltDropped.key < 0x200000 * 32 := by decide
    have ho : Reg.fltStatusOvf.key < 0x200000 * 32 := by decide
    exact s.get_raise _ _ _ _ (by omega) (by omega)
  · unfold State.raise State.raiseMsg
    split <;> rfl
  · unfold State.raise State.raiseMsg
    split <;> rfl
  · rw [(Quiet.raise s src kind cls addr).mem]

theorem countPoison (s : State) (k : Nat) : MovesBloom stored s (s.countPoison k) := by
  refine put s (fun g hg => ?_) _
  obtain ⟨-, hhi, -, -⟩ := hg
  have h1 : (Reg.hbmPoisonCount k).key = (0x700000 + 0x1000 * k + 0xC) * 32 + 0 := rfl
  omega

/-- The granules of HBM4 that are poisoned. -/
theorem setPoison (s : State) (l : List Nat) : MovesBloom stored s { s with hbmPoison := l } := ⟨fun _ _ => rfl, rfl, rfl, fun _ _ _ _ => rfl⟩

theorem hbmTouched (s : State) (a len : Nat) : MovesBloom stored s (s.hbmTouched a len) := by
  unfold State.hbmTouched
  extract_lets hit full part s1 s2
  split
  · exact .refl s
  · have h2 : MovesBloom stored s1 s2 := .foldl (fun k _ t => .countPoison t k) s1
    exact ((setPoison s _).trans h2).trans (.foldl (fun g _ t => .raise t _ _ _ _) s2)

theorem poisonHbm (s : State) (gs : List Nat) : MovesBloom stored s (s.poisonHbm gs) :=
  (setPoison s _).trans (.foldl (fun k _ t => .countPoison t k) _)

theorem fluxPass (s : State) (base len : Nat) : MovesBloom stored s (s.fluxPass base len) := by
  have hget : ∀ f, TellsBloom f → (s.fluxPass base len).get f = s.get f := fun f hf => by
    obtain ⟨-, hhi, -, -⟩ := hf
    exact s.get_fluxCount _ (.inl (by omega))
  obtain ⟨r, e⟩ := s.fluxCount_frame base (Flux.passStats len)
  have e' : s.fluxPass base len = { s with regs := r } := e
  rw [e'] at hget ⊢
  exact ⟨hget, rfl, rfl, fun _ _ _ _ => rfl⟩

theorem writeHbm (s : State) (a : Nat) {bs : List Byte} (h : ∀ x, Within x a bs.length → stored 2 x) : MovesBloom stored s (s.writeHbm a bs) := by
  have h1 : MovesBloom stored s { s with hbm := s.hbm.writeBytes a bs } := by
    refine ⟨fun _ _ => rfl, rfl, rfl, fun k x hk hx => ?_⟩
    by_cases h2 : k = 2
    · subst h2
      exact Memory.read_writeBytes_out _ _ fun hw => hx (h x hw)
    · simp only [State.memOf, h2, if_false]
  exact h1.trans (.hbmTouched _ _ _)

theorem setHearth (s : State) (d : Nat) {m : Memory} (h : ∀ x, ¬ stored (hearthNo d) x → m.read x = (s.hearth d).read x) :
    MovesBloom stored s (s.setHearth d m) := by
  refine ⟨fun f _ => ?_, ?_, ?_, fun k x hk hx => ?_⟩
  iterate 3
    unfold State.setHearth
    split <;> rfl
  · by_cases hkd : k = hearthNo d
    · subst hkd
      rw [State.memOf_setHearth_same, State.memOf_hearthNo, h x hx]
    · rw [State.memOf_setHearth_ne _ _ hkd]

end MovesBloom

namespace State

variable {stored : Nat → Nat → Prop}

/-- A spare's copy moves the bytes of the slot alone. -/
theorem copySpare_moves (s : State) (d : BloomStream) (place mb slot : Nat)
    (h : ∀ x, Within x (slotAddr d mb slot) (sampleBytes d) → stored (if d.mem = 1 then 2 else hearthNo d.die) x) :
    MovesBloom stored s (s.copySpare d place mb slot) := by
  unfold copySpare
  extract_lets src dst n bs bad
  have hlen : bs.length = n := Memory.length_readBytes ..
  split
  next hm =>
    rw [if_pos hm] at h
    have h1 : MovesBloom stored s (s.writeHbm dst bs) := .writeHbm s _ fun x hx => by
      rw [hlen] at hx
      exact h x hx
    split
    · exact h1.trans (.poisonHbm _ _)
    · exact h1
  next hm =>
    rw [if_neg hm] at h
    refine (MovesBloom.setHearth s d.die fun x hx => ?_).trans (.fluxPass _ _ _)
    have hread : ((s.hearth d.die).writeBytes dst bs).read x = (s.hearth d.die).read x :=
      Memory.read_writeBytes_out _ _ fun hw => by
        rw [hlen] at hw
        exact hx (h x hw)
    show (if bad = true then _ else _ : Memory).read x = _
    split
    · exact (Memory.read_poison ..).trans hread
    · exact hread

theorem setFill_moves (s : State) (e : Nat) (f : Fill) : MovesBloom stored s (s.setFill e f) := .setBstream ..

theorem giveSpare_moves (s : State) (e : Nat) (f : Fill) (index : Nat)
    (h : ∀ d, bloomAt s e = some d → ∀ x, Within x (slotAddr d f.mb f.slot) (sampleBytes d) → stored (if d.mem = 1 then 2 else hearthNo d.die) x) :
    MovesBloom stored s (s.giveSpare e f index) := by
  unfold giveSpare
  split
  next d x hd hx =>
    split
    · exact ((s.copySpare_moves d _ f.mb f.slot (h d hd)).trans (setFill_moves ..)).trans (.setBstream ..)
    · exact (setFill_moves ..).trans (.setBstream ..)
  · exact .refl s

theorem freeBusy_moves (s : State) (kind : Nat) (x : Sample) : MovesBloom stored s (s.freeBusy kind x) := by
  unfold freeBusy
  split
  · split
    · exact .putBusy ..
    · exact .refl s
  · exact .refl s

theorem dropSample_moves (s : State) (e index : Nat) : MovesBloom stored s (s.dropSample e index) := by
  unfold dropSample
  split
  · exact (freeBusy_moves ..).trans (.setBstream ..)
  · exact .refl s

theorem appendReserve_moves (s : State) (e : Nat) : MovesBloom stored s (s.appendReserve e) := by
  unfold appendReserve
  split
  · exact .refl s
  · exact .setBstream ..

theorem assignEngines_moves (s : State) (kind die k : Nat) : MovesBloom stored s (s.assignEngines kind die k) := by
  induction k generalizing s with
  | zero => exact .refl s
  | succ k ih =>
    unfold assignEngines
    split
    · exact ((MovesBloom.setBstream ..).trans (.putBusy ..)).trans (ih _)
    · exact .refl s

theorem assignAll_moves (s : State) : MovesBloom stored s s.assignAll :=
  (((s.assignEngines_moves 1 0 16).trans (assignEngines_moves _ 1 1 16)).trans (assignEngines_moves _ 3 0 4)).trans
    (assignEngines_moves _ 3 1 4)

theorem bstream_setBstream_same (s : State) (e : Nat) (x : BStream) : (s.setBstream e x).bstream e = x := Assoc.get_put_same ..

theorem bstream_setBstream_ne (s : State) {e k : Nat} (x : BStream) (h : k ≠ e) : (s.setBstream e x).bstream k = s.bstream k :=
  Assoc.get_put_ne _ _ _ h

theorem bstream_of_blm {s t : State} (h : t.blm = s.blm) (e : Nat) : t.bstream e = s.bstream e :=
  congrArg (fun b : Bloom => Assoc.get BStream.init b.streams e) h

theorem feeder_setFeeder_same (s : State) (k : Nat) (x : FeederLink) : (s.setFeeder k x).feeder k = x := Assoc.get_put_same ..

end State

/-- Of a stream only the engines of its samples may differ, and what has landed of them. -/
def SameSamples (x y : BStream) : Prop := { y with samples := x.samples } = x ∧ y.samples.map (·.index) = x.samples.map (·.index)

theorem SameSamples.trans {x y z : BStream} (h : SameSamples x y) (k : SameSamples y z) : SameSamples x z :=
  ⟨(congrArg (fun v : BStream => { v with samples := x.samples }) k.1 :).trans h.1, k.2.trans h.2⟩

namespace State

theorem setSample_same (s : State) (e k : Nat) (x : Sample) : SameSamples (s.bstream k) ((s.setSample e x).bstream k) := by
  by_cases h : k = e
  · subst h
    unfold setSample
    dsimp only
    rw [bstream_setBstream_same]
    refine ⟨rfl, ?_⟩
    dsimp only
    rw [List.map_map]
    refine List.map_congr_left fun y _ => ?_
    show (if y.index = x.index then x else y).index = y.index
    split
    next h => exact h.symm
    · rfl
  · unfold setSample
    dsimp only
    rw [bstream_setBstream_ne _ _ h]
    exact ⟨rfl, rfl⟩

theorem assignEngines_same (s : State) (kind die n k : Nat) : SameSamples (s.bstream k) ((s.assignEngines kind die n).bstream k) := by
  induction n generalizing s with
  | zero => exact ⟨rfl, rfl⟩
  | succ n ih =>
    unfold assignEngines
    split
    next i e x _ _ => exact (s.setSample_same e k { x with engine := some i }).trans (ih _)
    · exact ⟨rfl, rfl⟩

theorem assignAll_same (s : State) (k : Nat) : SameSamples (s.bstream k) (s.assignAll.bstream k) :=
  (((s.assignEngines_same 1 0 16 k).trans (assignEngines_same _ 1 1 16 k)).trans (assignEngines_same _ 3 0 4 k)).trans
    (assignEngines_same _ 3 1 4 k)

end State

end Sys2Proof.Machine
end

section
/-! SUPPORT. Proofs: feeders are keyed, asked, asked again and answered absent (R340, R342 to R345, R354). -/

namespace Sys2Proof.Machine

namespace State

/-! ## R354 -/

/-- A skipped sample that the feeder does not have, counted and shown. -/
def skipCounts (u : State) (d : BloomStream) (index : Nat) : State :=
  ((((u.count Reg.blmSkip).count Reg.blmSkipAbsent).put Reg.blmLastSkipStream d.stream).put Reg.blmLastSkipReason 2).put64
    Reg.blmLastSkipIndexLo Reg.blmLastSkipIndexHi index

/-- The stream of a skipped sample that was a spare. -/
def spareSkipped (d : BloomStream) (b : BStream) (index : Nat) : BStream :=
  { b with
    spares := placeSpares d (b.spares.filter (fun y => y.index != index))
    cursor := { b.cursor with skip := b.cursor.skip + 1, reserve := b.cursor.reserve.filter (fun i => i != index) } }

/-- The stream of a skipped sample that was a slot's. -/
def slotSkipped (b : BStream) (index : Nat) : BStream :=
  { b with
    cursor := { b.cursor with skip := b.cursor.skip + 1 }
    fills := b.fills.map (fun f => if f.index = index ∧ f.spare = none ∧ f.done = false then { f with skipped := some 2 } else f) }

/-- The next oldest spare serves the slot that waited for the one skipped. -/
def nextServes (u : State) (e index : Nat) (x : Spare) : State :=
  if x.taken then
    match (u.bstream e).fills.find? (fun f => f.spare == some index && !f.done), (u.bstream e).cursor.reserve with
    | some f, i :: rest =>
      let b := u.bstream e
      (u.setBstream e { b with cursor := { b.cursor with reserve := rest } }).giveSpare e f i
    | _, _ => u
  else u

theorem skipSample_eq {s : State} {e : Nat} {d : BloomStream} (hd : bloomAt s e = some d) (index : Nat) :
    let u := (s.dropSample e index).skipCounts d index
    s.skipSample e index 2 = match (u.bstream e).spares.find? (fun x => x.index == index) with
      | some x => ((u.setBstream e (spareSkipped d (u.bstream e) index)).nextServes e index x).appendReserve e
      | none => u.setBstream e (slotSkipped (u.bstream e) index) := by
  unfold skipSample
  rw [hd]
  rfl

section
variable (u : State) (d : BloomStream) (index : Nat)

theorem skipCounts_skip : (u.skipCounts d index).get Reg.blmSkip = min (u.get Reg.blmSkip + 1) (2 ^ Reg.blmSkip.w - 1) := by
  unfold skipCounts put64
  rw [get_put_ne _ _ (by decide), get_put_ne _ _ (by decide), get_put_ne _ _ (by decide), get_put_ne _ _ (by decide)]
  show (State.put _ _ _).get _ = _
  rw [get_put_ne _ _ (by decide)]
  exact u.count_counted (by decide)

theorem skipCounts_absent :
    (u.skipCounts d index).get Reg.blmSkipAbsent = min (u.get Reg.blmSkipAbsent + 1) (2 ^ Reg.blmSkipAbsent.w - 1) := by
  unfold skipCounts put64
  rw [get_put_ne _ _ (by decide), get_put_ne _ _ (by decide), get_put_ne _ _ (by decide), get_put_ne _ _ (by decide)]
  refine ((u.count Reg.blmSkip).count_counted (f := Reg.blmSkipAbsent) (by decide)).trans ?_
  have h : (u.count Reg.blmSkip).get Reg.blmSkipAbsent = u.get Reg.blmSkipAbsent := get_put_ne _ _ (by decide)
  rw [h]

theorem skipCounts_stream : (u.skipCounts d index).get Reg.blmLastSkipStream = d.stream % 2 ^ Reg.blmLastSkipStream.w := by
  unfold skipCounts put64
  rw [get_put_ne _ _ (by decide), get_put_ne _ _ (by decide), get_put_ne _ _ (by decide), get_put_same]

theorem skipCounts_reason : (u.skipCounts d index).get Reg.blmLastSkipReason = 2 := by
  unfold skipCounts put64
  rw [get_put_ne _ _ (by decide), get_put_ne _ _ (by decide), get_put_same]
  rfl

theorem skipCounts_index : (u.skipCounts d index).get64 Reg.blmLastSkipIndexLo Reg.blmLastSkipIndexHi = index % 2 ^ 64 :=
  get64_put64 _ rfl rfl (by decide) index

end

theorem freeBusy_blm (s : State) (kind : Nat) (x : Sample) : (s.freeBusy kind x).blm = s.blm := by
  unfold freeBusy
  split
  · split <;> rfl
  · rfl

/-- A dropped sample leaves its stream. -/
theorem dropSample_bstream {s : State} {e : Nat} {d : BloomStream} (hd : bloomAt s e = some d) (index : Nat) :
    (s.dropSample e index).bstream e = { s.bstream e with samples := (s.bstream e).samples.filter (fun y => y.index != index) } := by
  unfold dropSample
  rw [hd]
  cases hx : (s.bstream e).samples.find? (fun x => x.index == index) with
  | some x => exact bstream_setBstream_same ..
  | none =>
    have hall : (s.bstream e).samples.filter (fun y => y.index != index) = (s.bstream e).samples :=
      List.filter_eq_self.mpr fun y hy => by simpa using List.find?_eq_none.mp hx y hy
    rw [hall]

/-- The bytes of the slots that waited for a spare. -/
def waitingSlots (s : State) (e : Nat) (d : BloomStream) (index m a : Nat) : Prop :=
  m = (if d.mem = 1 then 2 else hearthNo d.die) ∧
    ∃ f ∈ (s.bstream e).fills, f.spare = some index ∧ f.done = false ∧ Within a (slotAddr d f.mb f.slot) (sampleBytes d)

theorem nextServes_moves {s u : State} {e : Nat} {d : BloomStream} (hd : bloomAt u e = some d) (index : Nat) (x : Spare)
    (hfills : (u.bstream e).fills = (s.bstream e).fills) : MovesBloom (s.waitingSlots e d index) u (u.nextServes e index x) := by
  unfold nextServes
  split
  · split
    next f i rest hf hi =>
      refine (MovesBloom.setBstream u e _).trans (giveSpare_moves _ e f i fun d' hd' a ha => ⟨?_, f, ?_, ?_⟩)
      · cases hd.symm.trans hd'
        rfl
      · exact hfills ▸ List.mem_of_find?_eq_some hf
      · have hfind := List.find?_some hf
        simp only [Bool.and_eq_true, beq_iff_eq, Bool.not_eq_true'] at hfind
        cases hd.symm.trans hd'
        exact ⟨hfind.1, hfind.2, ha⟩
    · exact .refl u
  · exact .refl u

/-- What is done once a skipped sample has been counted. -/
theorem skipSample_moves {s : State} {e : Nat} {d : BloomStream} (hd : bloomAt s e = some d) (index : Nat) :
    MovesBloom (s.waitingSlots e d index) ((s.dropSample e index).skipCounts d index) (s.skipSample e index 2) := by
  have hbloom : bloomAt ((s.dropSample e index).skipCounts d index) e = some d :=
    ((dropSample_moves (stored := fun _ _ => False) s e index).bloomAt e).trans hd
  have hfills : (((s.dropSample e index).skipCounts d index).bstream e).fills = (s.bstream e).fills :=
    (congrArg BStream.fills (dropSample_bstream hd index) :)
  rw [skipSample_eq hd]
  generalize (s.dropSample e index).skipCounts d index = u at hbloom hfills ⊢
  split
  next x hx =>
    refine ((MovesBloom.setBstream u e _).trans (nextServes_moves ?_ index x ?_)).trans (appendReserve_moves _ e)
    · exact hbloom
    · rw [bstream_setBstream_same]
      exact hfills
  · exact .setBstream ..

/-- Of a sample that no spare is, its slot is marked. -/
theorem skipSample_slot {s : State} {e : Nat} {d : BloomStream} (hd : bloomAt s e = some d) {index : Nat}
    (hspare : ∀ x ∈ (s.bstream e).spares, x.index ≠ index) :
    (s.skipSample e index 2).bstream e =
      slotSkipped { s.bstream e with samples := (s.bstream e).samples.filter (fun y => y.index != index) } index := by
  have hb : ((s.dropSample e index).skipCounts d index).bstream e = _ := dropSample_bstream hd index
  rw [skipSample_eq hd]
  dsimp only
  generalize (s.dropSample e index).skipCounts d index = u at hb ⊢
  rw [hb, List.find?_eq_none.mpr (by simpa using hspare)]
  exact bstream_setBstream_same ..

theorem appendReserve_bstream {u : State} {e : Nat} {d : BloomStream} (hd : bloomAt u e = some d) :
    ((u.appendReserve e).bstream e).cursor =
      { (u.bstream e).cursor with next := (u.bstream e).cursor.next + 1, reserve := (u.bstream e).cursor.reserve ++ [(u.bstream e).cursor.next] } ∧
    ((u.appendReserve e).bstream e).fills = (u.bstream e).fills := by
  unfold appendReserve
  rw [hd]
  dsimp only
  rw [bstream_setBstream_same]
  exact ⟨rfl, rfl⟩

/-- A spare that no slot has taken leaves the reserve, which NEXT enters. -/
theorem skipSample_spare {s : State} {e : Nat} {d : BloomStream} (hd : bloomAt s e = some d) {index : Nat} {x : Spare}
    (hx : (s.bstream e).spares.find? (fun x => x.index == index) = some x) (htaken : x.taken = false) :
    ((s.skipSample e index 2).bstream e).cursor =
      { (s.bstream e).cursor with
        skip := (s.bstream e).cursor.skip + 1, next := (s.bstream e).cursor.next + 1
        reserve := (s.bstream e).cursor.reserve.filter (fun i => i != index) ++ [(s.bstream e).cursor.next] } ∧
    ((s.skipSample e index 2).bstream e).fills = (s.bstream e).fills := by
  have hbloom : bloomAt ((s.dropSample e index).skipCounts d index) e = some d :=
    ((dropSample_moves (stored := fun _ _ => False) s e index).bloomAt e).trans hd
  have hb : ((s.dropSample e index).skipCounts d index).bstream e = _ := dropSample_bstream hd index
  rw [skipSample_eq hd]
  dsimp only
  generalize (s.dropSample e index).skipCounts d index = u at hb hbloom ⊢
  rw [hb]
  dsimp only
  rw [hx]
  dsimp only
  have hserve : ∀ v : State, v.nextServes e index x = v := fun v => if_neg (by simp [htaken])
  rw [hserve]
  obtain ⟨hcursor, hfills⟩ := appendReserve_bstream (u := u.setBstream e (spareSkipped d
    { s.bstream e with samples := (s.bstream e).samples.filter (fun y => y.index != index) } index)) (e := e) (d := d) hbloom
  rw [hcursor, hfills, bstream_setBstream_same]
  exact ⟨rfl, rfl⟩

/-- A sample that the feeder does not have is skipped, and its engine takes other work. -/
theorem skipSample_skipped {s : State} {e : Nat} {d : BloomStream} (hd : bloomAt s e = some d) (index : Nat) :
    SkippedSample s (s.skipSample e index 2).assignAll e d index 2 ∧ (s.skipSample e index 2).assignAll.blm.feeders = s.blm.feeders := by
  have hdrop : MovesBloom (s.waitingSlots e d index) s (s.dropSample e index) := dropSample_moves s e index
  have hafter := (skipSample_moves hd index).trans (assignAll_moves (s.skipSample e index 2))
  have hsame := (s.skipSample e index 2).assignAll_same e
  obtain ⟨hkept, hindex⟩ := hsame
  have hcursor : _ = ((s.skipSample e index 2).bstream e).cursor := (congrArg BStream.cursor hkept :)
  have hfills : _ = ((s.skipSample e index 2).bstream e).fills := (congrArg BStream.fills hkept :)
  refine ⟨⟨?_, ?_, ?_, ?_, ?_, fun k a hk ha => ?_, fun hspare => ?_, fun x hx htaken => ?_⟩, ?_⟩
  · rw [hafter.regs _ (by decide), skipCounts_skip, hdrop.regs _ (by decide)]
  · show State.get _ Reg.blmSkipAbsent = min (s.get Reg.blmSkipAbsent + 1) (2 ^ Reg.blmSkipAbsent.w - 1)
    rw [hafter.regs _ (by decide), skipCounts_absent, hdrop.regs _ (by decide)]
  · rw [hafter.regs _ (by decide), skipCounts_stream]
  · rw [hafter.regs _ (by decide), skipCounts_reason]
  · rw [← skipCounts_index (s.dropSample e index) d index]
    unfold get64
    rw [hafter.regs _ (by decide), hafter.regs _ (by decide)]
  · exact (hafter.bytes k a hk ha).trans (hdrop.bytes k a hk ha)
  · rw [skipSample_slot hd hspare] at hcursor hfills hindex
    refine ⟨hcursor, hfills, fun x hx hxi => ?_⟩
    have hmem : x.index ∈ ((s.skipSample e index 2).assignAll.bstream e).samples.map (·.index) := List.mem_map_of_mem hx
    rw [hindex] at hmem
    obtain ⟨y, hy, hyi⟩ := List.mem_map.mp hmem
    have := (List.mem_filter.mp hy).2
    simp [hyi, hxi] at this
  · rw [hcursor, hfills]
    exact skipSample_spare hd hx htaken
  · exact hafter.feeders.trans hdrop.feeders

end State

/-! ## R310, R342 to R345 -/

/-- The statement's frame: the Cadence, the ports and Bloom may change, and what is sent and raised. -/
def AsksOnly (s t : State) : Prop :=
  SameRegsOut [] s t ∧ { t with regs := s.regs, ports := s.ports, cad := s.cad, blm := s.blm, faultQ := s.faultQ, out := s.out, freeCtr := s.freeCtr } = s

theorem AsksOnly.of_movesCad {r s t : State} (hr : AsksOnly r s) (h : MovesCad s t) : AsksOnly r t := by
  let kept : State → State := fun v => { v with
    regs := r.regs, ports := r.ports, cad := r.cad, blm := r.blm, faultQ := r.faultQ, out := r.out, freeCtr := r.freeCtr }
  exact ⟨hr.1.trans h.regs, (congrArg kept h.rest :).trans hr.2⟩

namespace State

/-- A port that has drawn random bytes and begins to seal (R310). -/
def beginSeal (s : State) (p : Nat) : State :=
  ((s.draw).put (Reg.fabSealState p) 1).setPort p { s.port p with myRandom := some (s.free % 2 ^ 64), peerRandom := none, reseal := false }

theorem sendHello_eq (s : State) (p : Nat) : s.sendHello p =
    (s.beginSeal p).sendOn p ((s.beginSeal p).newPacket 9 true 0 0 0 (.hello (s.free % 2 ^ 64))) := rfl

theorem beginSeal_only (s : State) {p : Nat} (hp : p < 16) : AsksOnly s (s.beginSeal p) := by
  refine ⟨fun f hf _ => ?_, rfl⟩
  have h3 : (Reg.fabSealState p).key = (0x100000 + 0x1000 * p + 0x240) * 32 + 0 := rfl
  exact s.draw.get_put_ne 1 (f := Reg.fabSealState p) (g := f) (by omega)

theorem sendHello_only (s : State) {p : Nat} (hp : p < 16) : AsksOnly s (s.sendHello p) :=
  (s.beginSeal_only hp).of_movesCad (sendOn_routed _ hp _).toMovesCad

theorem sendHello_blm (s : State) {p : Nat} (hp : p < 16) : (s.sendHello p).blm = s.blm :=
  (congrArg State.blm (sendOn_routed (s.beginSeal p) hp _).rest :)

/-- A HELLO goes out with this end's random bytes, and the port is sealing. -/
theorem sendHello_sends (s : State) {p : Nat} (hp : p < 16) :
    (s.sendHello p).get (Reg.fabSealState p) = 1 ∧ ((s.sendHello p).port p).myRandom = some (s.free % 2 ^ 64) ∧
      Sends s (s.sendHello p) p (.hello (s.free % 2 ^ 64)) := by
  rw [sendHello_eq]
  have hseal : (s.beginSeal p).get (Reg.fabSealState p) = 1 := s.draw.get_put_same (Reg.fabSealState p) 1
  have hport : ((s.beginSeal p).port p).myRandom = some (s.free % 2 ^ 64) := congrArg Port.myRandom (port_setPort_same ..)
  have hout : (s.beginSeal p).out = s.out := rfl
  generalize s.beginSeal p = u at hseal hport hout ⊢
  obtain ⟨hsend, hsends⟩ := u.sendOn_sending hp (u.newPacket 9 true 0 0 0 (.hello (s.free % 2 ^ 64)))
  refine ⟨?_, ?_, (hsends fun _ _ _ h => by cases h).from (hout ▸ List.prefix_rfl) hsend.out⟩
  · rw [get_word_of_sending hsend (f := Reg.fabSealState p) (o := 0x240) rfl (by decide) (show 0 < 32 by decide), hseal]
  · exact (congrArg Port.myRandom (hsend.port p) :).trans hport

theorem sealFeeder_only (s : State) (k : Nat) : AsksOnly s (s.sealFeeder k) ∧ (s.sealFeeder k).blm = s.blm := by
  have hsame : AsksOnly s s ∧ s.blm = s.blm := ⟨⟨.refl _ s, rfl⟩, rfl⟩
  unfold sealFeeder
  split
  · exact hsame
  · split
    · exact hsame
    · split
      next p hp =>
        split
        · exact ⟨s.sendHello_only (by have := portTo_lt hp; omega), s.sendHello_blm (by have := portTo_lt hp; omega)⟩
        · exact hsame
      · exact hsame

/-- A feeder over Ethernet has no port to seal. -/
theorem sealFeeder_ethernet {s : State} {k : Nat} (h : ∀ b d, s.billet = some b → d ∈ b.bloom → d.feeder = k → d.ethernet = true) :
    s.sealFeeder k = s := by
  unfold sealFeeder
  split
  · rfl
  next b hb =>
    refine if_pos ?_
    have hany : (b.bloom.any fun d => d.feeder == k && !d.ethernet) = false := by
      refine List.any_eq_false.mpr fun d hd => ?_
      simp only [Bool.and_eq_true, beq_iff_eq, Bool.not_eq_true', not_and, Bool.not_eq_false]
      exact h b d hb hd
    rw [hany]
    rfl

/-- The port of a neighbour begins to seal. -/
theorem sealFeeder_port {s : State} {k p : Nat} {b : Billet} {d : BloomStream} (hb : s.billet = some b) (hd : d ∈ b.bloom)
    (hk : d.feeder = k) (he : d.ethernet = false) (hseal : s.flag Reg.netCtrlSeal = true) (hp : s.portTo (b.feeders.getD k 0) = some p)
    (hstate : s.get (Reg.fabSealState p) = 0) : s.sealFeeder k = s.sendHello p := by
  have hany : (b.bloom.any fun d => d.feeder == k && !d.ethernet) = true := List.any_eq_true.mpr ⟨d, hd, by simp [hk, he]⟩
  unfold sealFeeder
  rw [hb]
  dsimp only
  rw [hany, hseal, if_neg (by decide), hp]
  exact if_pos hstate

end State

/-- A feeder's link once its random bytes have come (R344). -/
def keyedLink (x : FeederLink) (k random : Nat) : FeederLink :=
  { x with
    keyed := true, txNonce := 0, rxNonce := none, txKey := feederKey x.secret k x.mine (random % 2 ^ 64) 0
    rxKey := feederKey x.secret k x.mine (random % 2 ^ 64) 1 }

theorem bloomHello_keys {s : State} {k : Nat} (random : Nat) (halive : s.alive = true) (hhello : (s.feeder k).hello = true) :
    exec (.bloomHello k random) s = .next ((s.setFeeder k (keyedLink (s.feeder k) k random)).sealFeeder k) := by
  refine if_neg ?_
  simp [halive, hhello]

theorem bloomHello_spec {s : State} {k : Nat} (random : Nat) (halive : s.alive = true) (hhello : (s.feeder k).hello = true) :
    let keyed := keyedLink (s.feeder k) k random
    ∃ t, exec (.bloomHello k random) s = .next t ∧ AsksOnly s t ∧ t.blm = (s.setFeeder k keyed).blm ∧
      ((∀ b d, s.billet = some b → d ∈ b.bloom → d.feeder = k → d.ethernet = true) → t = s.setFeeder k keyed) ∧
      (∀ b d p, s.billet = some b → d ∈ b.bloom → d.feeder = k → d.ethernet = false → s.flag Reg.netCtrlSeal = true →
        s.portTo (b.feeders.getD k 0) = some p → s.get (Reg.fabSealState p) = 0 →
        t.get (Reg.fabSealState p) = 1 ∧ ∃ n, (t.port p).myRandom = some n ∧ Sends s t p (.hello n)) := by
  intro keyed
  have hset : AsksOnly s (s.setFeeder k keyed) := ⟨.refl _ s, rfl⟩
  obtain ⟨honly, hblm⟩ := (s.setFeeder k keyed).sealFeeder_only k
  refine ⟨_, bloomHello_keys random halive hhello, ?_, hblm, State.sealFeeder_ethernet (s := s.setFeeder k keyed), ?_⟩
  · let kept : State → State := fun v => { v with
      regs := s.regs, ports := s.ports, cad := s.cad, blm := s.blm, faultQ := s.faultQ, out := s.out, freeCtr := s.freeCtr }
    exact ⟨hset.1.trans honly.1, (congrArg kept honly.2 :).trans hset.2⟩
  · intro b d p hb hd hk he hseal hp hstate
    rw [State.sealFeeder_port (s := s.setFeeder k keyed) hb hd hk he hseal hp hstate]
    have hlt : p < 16 := by
      have := State.portTo_lt hp
      omega
    obtain ⟨h1, h2, h3⟩ := (s.setFeeder k keyed).sendHello_sends hlt
    exact ⟨h1, _, h2, h3⟩

/-! ## R340, R345: frames that ask -/

/-- `asks` of the statement: from `s` to `t` the feeder has been asked for samples, over Ethernet in a frame, else on the route. -/
def Asks (s t : State) (d : BloomStream) (index offset total : Nat) : Prop :=
  (d.ethernet = true →
    let x := s.feeder d.feeder
    let h := State.bloomHeader 2 0 d.stream index offset total x.txNonce
    t.feeder d.feeder = { x with txNonce := x.txNonce + 1 } ∧
    s.out ++ [.udp (8 + d.iface % 4) (d.iface / 4)
      (h ++ leBytes 16 (Config.gcmTag (x.txKey.take 32) (x.txKey.drop 32 ++ leBytes 8 x.txNonce) h []))] <+: t.out) ∧
  (d.ethernet = false → ∀ bl p alt, s.billet = some bl → s.routePort (bl.feeders.getD d.feeder 0) false = some (p, alt) →
    Sends s t p (.bytes (State.bloomHeader 2 0 d.stream index offset total 0)))

/-- A frame of an Ethernet feeder, and its link after it. -/
def askFrame (x : FeederLink) (d : BloomStream) (index offset total : Nat) : Out :=
  let h := State.bloomHeader 2 0 d.stream index offset total x.txNonce
  .udp (8 + d.iface % 4) (d.iface / 4) (h ++ leBytes 16 (Config.gcmTag (x.txKey.take 32) (x.txKey.drop 32 ++ leBytes 8 x.txNonce) h []))

namespace State

theorem sendBloom_ethernet {s : State} {d : BloomStream} (h : d.ethernet = true) (index offset total : Nat) :
    s.sendBloom d 2 index offset total =
      (s.setFeeder d.feeder { s.feeder d.feeder with txNonce := (s.feeder d.feeder).txNonce + 1 }).emit
        (askFrame (s.feeder d.feeder) d index offset total) := if_pos h

theorem sendBloom_fabric {s : State} {d : BloomStream} (h : d.ethernet = false) (index offset total : Nat) :
    s.sendBloom d 2 index offset total = s.sendRouted (s.newPacket 0x19 false ((s.billet.map (·.feeders.getD d.feeder 0)).getD 0) d.stream 0
      (.bytes (bloomHeader 2 0 d.stream index offset total 0))) := by
  unfold sendBloom
  rw [if_neg (by simp [h])]
  cases s.billet <;> rfl

theorem sendBloom_asks (s : State) (d : BloomStream) (index offset total : Nat) : Asks s (s.sendBloom d 2 index offset total) d index offset total := by
  refine ⟨fun h => ?_, fun h bl p alt hbl hroute => ?_⟩
  · rw [sendBloom_ethernet h]
    exact ⟨feeder_setFeeder_same .., List.prefix_rfl⟩
  · rw [sendBloom_fabric h]
    refine (sendRouted_sends (p := p) (alt := alt) ?_).2 fun _ _ _ h => by cases h
    rw [hbl]
    exact hroute

/-- Asking moves nothing of the stream. -/
theorem sendBloom_only (s : State) (d : BloomStream) (index offset total : Nat) :
    AsksOnly s (s.sendBloom d 2 index offset total) ∧ ∀ k, (s.sendBloom d 2 index offset total).bstream k = s.bstream k := by
  cases h : d.ethernet with
  | true =>
    rw [sendBloom_ethernet h]
    exact ⟨⟨.refl _ s, rfl⟩, fun _ => rfl⟩
  | false =>
    rw [sendBloom_fabric h]
    have hm := (s.sendRouted_routed (s.newPacket 0x19 false ((s.billet.map (·.feeders.getD d.feeder 0)).getD 0) d.stream 0
      (.bytes (bloomHeader 2 0 d.stream index offset total 0)))).toMovesCad
    exact ⟨AsksOnly.of_movesCad ⟨.refl _ s, rfl⟩ hm, bstream_of_blm (congrArg State.blm hm.rest :)⟩

end State

theorem feeder_of_feeders {s t : State} (h : t.blm.feeders = s.blm.feeders) (k : Nat) : t.feeder k = s.feeder k :=
  congrArg (fun l => Assoc.get FeederLink.init l k) h

theorem Asks.placeWant {s t : State} {d : BloomStream} {index offset total : Nat} (h : Asks s t d index offset total) (hout : s.out <+: t.out) :
    Asks s t.placeWant d index offset total := by
  have hpass := t.placeWant_passing
  have hblm : t.placeWant.blm = t.blm := (congrArg State.blm t.placeWant_movesCad.rest :)
  refine ⟨fun he => ?_, fun he bl p alt hbl hroute => hpass.sends (h.2 he bl p alt hbl hroute) hout fun _ _ _ h => by cases h⟩
  obtain ⟨hfeeder, hprefix⟩ := h.1 he
  refine ⟨?_, hprefix.trans hpass.out⟩
  exact (feeder_of_feeders (congrArg Bloom.feeders hblm) _).trans hfeeder

theorem State.sendBloom_out (s : State) (d : BloomStream) (index offset total : Nat) : s.out <+: (s.sendBloom d 2 index offset total).out := by
  cases h : d.ethernet with
  | true =>
    rw [sendBloom_ethernet h]
    exact List.prefix_append _ _
  | false =>
    rw [sendBloom_fabric h]
    exact (sendRouted_passing ..).out

/-- The stream whose run has been asked for. -/
def runAsked (b : BStream) (run : List Nat) : BStream :=
  { b with samples := b.samples.map (fun x => if x.index ∈ run then { x with requested := true } else x) }

/-- The room of a stream's coded ring, and the run that it asks for next (R340). -/
def nextRun (s : State) (e : Nat) (d : BloomStream) : List Nat :=
  leadingRun (min 256 (d.window / d.maxCoded - ((s.bstream e).samples.filter (fun x => x.requested)).length)) (unrequested (s.bstream e))

theorem request_voids {s : State} {e : Nat} {d : BloomStream} (hd : bloomAt s e = some d)
    (h : nextRun s e d = [] ∨ d.ethernet = true ∧ (s.feeder d.feeder).keyed = false) : exec (.request e) s = .next s := by
  show execRequest e s = _
  unfold execRequest
  rw [hd]
  refine if_pos ?_
  rcases h with h | ⟨he, hk⟩
  · unfold nextRun at h
    simp [h]
  · simp [he, hk]

theorem request_asks {s : State} {e : Nat} {d : BloomStream} (halive : s.alive = true) (hd : bloomAt s e = some d) (hrun : nextRun s e d ≠ [])
    (hkeyed : d.ethernet = true → (s.feeder d.feeder).keyed = true) :
    ∃ t, exec (.request e) s = .next t ∧ AsksOnly s t ∧ Asks s t d ((nextRun s e d).headD 0) 0 (nextRun s e d).length ∧
      (∀ k, k ≠ e → t.bstream k = s.bstream k) ∧ t.bstream e = runAsked (s.bstream e) (nextRun s e d) := by
  let u := s.setBstream e (runAsked (s.bstream e) (nextRun s e d))
  have hexec : exec (.request e) s = .next (u.sendBloom d 2 ((nextRun s e d).headD 0) 0 (nextRun s e d).length).placeWant := by
    show execRequest e s = _
    unfold execRequest
    rw [hd]
    dsimp only
    rw [if_neg (by
      change nextRun s e d ≠ [] at hrun
      unfold nextRun at hrun
      simp only [Bool.or_eq_true, not_or, Bool.and_eq_true, not_and, Bool.not_eq_true', Bool.not_eq_false, List.isEmpty_iff]
      exact ⟨⟨by simp [halive], hrun⟩, hkeyed⟩)]
    simp only [List.contains_eq_mem, decide_eq_true_eq]
    rfl
  obtain ⟨honly, hstream⟩ := u.sendBloom_only d ((nextRun s e d).headD 0) 0 (nextRun s e d).length
  have hasks : Asks s (u.sendBloom d 2 ((nextRun s e d).headD 0) 0 (nextRun s e d).length) d _ _ _ := u.sendBloom_asks d _ _ _
  have hout : s.out <+: (u.sendBloom d 2 ((nextRun s e d).headD 0) 0 (nextRun s e d).length).out := u.sendBloom_out d _ _ _
  have honly' : AsksOnly s (u.sendBloom d 2 ((nextRun s e d).headD 0) 0 (nextRun s e d).length) :=
    ⟨honly.1, (congrArg (fun v : State => { v with blm := s.blm }) honly.2 :)⟩
  have hplace := (u.sendBloom d 2 ((nextRun s e d).headD 0) 0 (nextRun s e d).length).placeWant_movesCad
  have hall := fun k => (State.bstream_of_blm (congrArg State.blm hplace.rest :) k).trans (hstream k)
  exact ⟨_, hexec, honly'.of_movesCad hplace, hasks.placeWant hout, fun k hk => (hall k).trans (State.bstream_setBstream_ne _ _ hk),
    (hall e).trans (State.bstream_setBstream_same ..)⟩

theorem rerequest_voids {s : State} {e index : Nat} {d : BloomStream} (hd : bloomAt s e = some d)
    (h : ∀ x, (s.bstream e).samples.find? (fun x => x.index == index && x.requested) = some x →
      d.ethernet = false ∨ x.landed = true ∨ 3 ≤ x.tries) : exec (.rerequest e index) s = .next s := by
  show execRerequest e index s = _
  unfold execRerequest
  rw [hd]
  split
  next d' x hd' hx =>
    cases hd'
    refine if_pos ?_
    rcases h x hx with h | h | h <;> simp [h]
  · rfl

theorem rerequest_asks {s : State} {e index : Nat} {d : BloomStream} {x : Sample} (halive : s.alive = true) (hd : bloomAt s e = some d)
    (hx : (s.bstream e).samples.find? (fun x => x.index == index && x.requested) = some x) (he : d.ethernet = true) (hland : x.landed = false)
    (htries : x.tries < 3) :
    ∃ t, exec (.rerequest e index) s = .next t ∧ Asks s t d index x.bytes.length 1 ∧
      t.get Reg.blmRereq = min (s.get Reg.blmRereq + 1) (2 ^ Reg.blmRereq.w - 1) ∧ SameRegsBut [Reg.blmRereq] s t ∧
      { t with regs := s.regs, blm := s.blm, out := s.out } = s ∧ (∀ k, k ≠ e → t.bstream k = s.bstream k) ∧
      t.bstream e = { s.bstream e with
        samples := (s.bstream e).samples.map (fun y => if y.index = index then { x with tries := x.tries + 1 } else y) } := by
  have hfound := List.find?_some hx
  simp only [Bool.and_eq_true, beq_iff_eq] at hfound
  obtain ⟨hindex, -⟩ := hfound
  have hexec : exec (.rerequest e index) s =
      .next (((s.setSample e { x with tries := x.tries + 1 }).count Reg.blmRereq).sendBloom d 2 index x.bytes.length 1) := by
    show execRerequest e index s = _
    unfold execRerequest
    rw [hd, hx]
    refine if_neg ?_
    simp only [halive, he, hland, Bool.not_true, Bool.or_false, Bool.false_or, decide_eq_true_eq]
    omega
  have hasks : Asks s _ d index x.bytes.length 1 :=
    ⟨(((s.setSample e { x with tries := x.tries + 1 }).count Reg.blmRereq).sendBloom_asks d index x.bytes.length 1).1,
      fun h => absurd he (by simp [h])⟩
  rw [State.sendBloom_ethernet he] at hexec hasks
  refine ⟨_, hexec, hasks, s.count_counted (f := Reg.blmRereq) (by decide), (SameRegsBut.refl _ s).count _ 1 List.mem_cons_self, rfl,
    fun k hk => State.bstream_setBstream_ne s _ hk, ?_⟩
  refine (State.bstream_setBstream_same s e _).trans ?_
  rw [← hindex]

/-! ## R343, R354 -/

theorem entryOf_bloomAt {s : State} {stream e : Nat} {d : BloomStream} (h : entryOf s stream = some (e, d)) : bloomAt s e = some d := by
  obtain ⟨e', -, h⟩ := List.exists_of_findSome?_eq_some h
  split at h
  next d' hd' =>
    split at h
    · cases h
      exact hd'
    · cases h
  · cases h

theorem takeNonce_bstream (s : State) (d : BloomStream) (f : BloomFrame) (k : Nat) : (s.takeNonce d f).bstream k = s.bstream k := by
  unfold State.takeNonce
  split <;> rfl

section
variable {s : State} {f : BloomFrame} {e : Nat} {d : BloomStream}

theorem absent_unknown (h : entryOf s f.stream = none) : exec (.absent f) s = .next (s.count Reg.blmBadframe) := by
  show execAbsent f s = _
  unfold execAbsent
  rw [h]

theorem absent_stale (halive : s.alive = true) (h : entryOf s f.stream = some (e, d)) (hstale : frameStale s d f = true) :
    exec (.absent f) s = .next (s.count Reg.blmSealFail) := by
  show execAbsent f s = _
  unfold execAbsent
  rw [h]
  dsimp only
  rw [if_neg (by simp [halive]), if_pos hstale]

theorem absent_fresh (halive : s.alive = true) (h : entryOf s f.stream = some (e, d)) (hstale : frameStale s d f = false) :
    exec (.absent f) s = if f.version == 1 && (s.bstream e).samples.any (fun x => x.index == f.index && x.requested) then
      .next ((s.takeNonce d f).skipSample e f.index 2).assignAll else .next ((s.takeNonce d f).count Reg.blmBadframe) := by
  show execAbsent f s = _
  unfold execAbsent
  rw [h]
  dsimp only
  rw [if_neg (by simp [halive]), if_neg (by simp [hstale]), takeNonce_bstream]

/-- An ABSENT of a sample that was asked for skips it. -/
theorem absent_skips (halive : s.alive = true) (h : entryOf s f.stream = some (e, d)) (hstale : frameStale s d f = false)
    (hversion : f.version = 1) (hasked : ∃ x ∈ (s.bstream e).samples, x.index = f.index ∧ x.requested = true) :
    ∃ t, exec (.absent f) s = .next t ∧ SkippedSample s t e d f.index 2 ∧
      (d.ethernet = true → (t.feeder d.feeder).rxNonce = some f.nonce) := by
  have hexec := absent_fresh halive h hstale
  rw [if_pos (by
    obtain ⟨x, hx, hi, hr⟩ := hasked
    simp only [hversion, beq_self_eq_true, Bool.true_and, List.any_eq_true, Bool.and_eq_true, beq_iff_eq]
    exact ⟨x, hx, hi, hr⟩)] at hexec
  have hbloom := entryOf_bloomAt h
  refine ⟨_, hexec, ?_⟩
  unfold State.takeNonce
  cases he : d.ethernet with
  | true =>
    rw [if_pos rfl]
    obtain ⟨hskip, hfeeders⟩ := (State.skipSample_skipped
      (s := s.setFeeder d.feeder { s.feeder d.feeder with rxNonce := some f.nonce }) hbloom f.index)
    refine ⟨hskip, fun _ => ?_⟩
    have hsame : (s.setFeeder d.feeder { s.feeder d.feeder with rxNonce := some f.nonce }).feeder d.feeder =
        { s.feeder d.feeder with rxNonce := some f.nonce } := State.feeder_setFeeder_same ..
    rw [feeder_of_feeders hfeeders, hsame]
  | false =>
    rw [if_neg (by decide)]
    exact ⟨(State.skipSample_skipped hbloom f.index).1, fun h => by cases h⟩

/-- Another frame of the stream is counted. -/
theorem absent_counts (halive : s.alive = true) (h : entryOf s f.stream = some (e, d)) (hstale : frameStale s d f = false)
    (hnot : ¬ (f.version = 1 ∧ ∃ x ∈ (s.bstream e).samples, x.index = f.index ∧ x.requested = true)) :
    ∃ t, exec (.absent f) s = .next t ∧ SameBytes s t ∧
      t.get Reg.blmBadframe = min (s.get Reg.blmBadframe + 1) (2 ^ Reg.blmBadframe.w - 1) ∧ SameRegsBut [Reg.blmBadframe] s t ∧
      { t with regs := s.regs, blm := s.blm } = s ∧ ∀ k, t.bstream k = s.bstream k := by
  have hexec := absent_fresh halive h hstale
  rw [if_neg (by
    simp only [Bool.and_eq_true, beq_iff_eq, List.any_eq_true]
    exact hnot)] at hexec
  refine ⟨_, hexec, ?_⟩
  have hstreams := takeNonce_bstream s d f
  have hregs : (s.takeNonce d f).regs = s.regs := by
    unfold State.takeNonce
    split <;> rfl
  have hrest : { s.takeNonce d f with blm := s.blm } = s := by
    unfold State.takeNonce
    split <;> rfl
  generalize s.takeNonce d f = u at hstreams hregs hrest
  refine ⟨?_, ?_, fun g hg => ?_, (congrArg (fun v : State => { v with regs := s.regs }) hrest :), hstreams⟩
  · exact .of_mems (congrArg State.hearth0 hrest :) (congrArg State.hearth1 hrest :) (congrArg State.hbm hrest :)
      (congrArg State.stock hrest :)
  · exact (u.count_counted (f := Reg.blmBadframe) (by decide)).trans (by rw [State.get_of_regs hregs])
  · exact (State.get_put_ne u _ (hg _ List.mem_cons_self)).trans (State.get_of_regs hregs g)

end

/-- Settles O46: every command of a feeder's link by the branch of its rule. -/
theorem feedersAreAsked : Obligations.FeedersAreAsked := by
  unfold Obligations.FeedersAreAsked
  intro s halive frame
  refine ⟨fun k random h => if_pos (by simp [h]), fun k random h => bloomHello_spec random halive h, fun e h => ⟨?_, fun i => ?_⟩,
    fun e d hd => ⟨⟨request_voids hd, request_asks halive hd⟩, fun index => rerequest_voids hd,
      fun index x hx => rerequest_asks halive hd hx⟩, fun f => ⟨absent_unknown, fun e d h => ⟨absent_stale halive h, absent_skips halive h,
        absent_counts halive h⟩⟩⟩
  · show execRequest e s = _
    unfold execRequest
    rw [h]
    rfl
  · show execRerequest e i s = _
    unfold execRerequest
    rw [h]
    rfl

end Sys2Proof.Machine
end

section
/-! SUPPORT. Proofs: the last record of an ARM (R316), refuted where a label that ARM writes wears its cartridge out. -/

namespace Sys2Proof.Machine

/-- Device 5 of the tests, whose ARM waits for the record of device 9 alone, with the seed, and with a cartridge without a label whose
rated life is 0. -/
def wornState : State :=
  { (Tests.arming 4 [Tests.rec9] Port.init).put (Reg.ingBayStateCode 0) 2 with
    seed := some 6, net := { Net.init with records := [Tests.rec9], sealedRecs := [Tests.rec5] }
    ing := { (Tests.arming 4 [Tests.rec9] Port.init).ing with carts := [(0, Tests.cart none)] } }

/-- A fault has been raised. -/
def faultRaised (o : Host.Outcome State Fault Refusal) : Bool :=
  match o with
  | .next t => !t.faultQ.isEmpty
  | _ => false

theorem wornState_raises : faultRaised (exec (.linkState 2 Tests.rec9 true) wornState) = true := by decide +kernel

theorem wornState_ready : wornState.portUp 2 = true ∧ wornState.alive = true ∧ recordOf wornState.net.records Tests.rec9.origin = some Tests.rec9 ∧
    (∀ q ∈ wornState.net.sealedRecs, ¬ (q.origin = Tests.rec9.origin ∧ q.version = Tests.rec9.version)) ∧ wornState.faultQ = [] := by decide

/-- Refutes O42: the last record completes ARM, which reads the bays' labels (R378); the label written to a new cartridge counts as bytes
written, and ING life low (R377) is raised, where the statement has no fault raised. -/
theorem not_discoveryEnds : ¬ Obligations.DiscoveryEnds := by
  intro h
  obtain ⟨hup, halive, hheld, hnew, hq⟩ := wornState_ready
  obtain ⟨-, hrecord, -⟩ := h wornState
  obtain ⟨-, hknown⟩ := hrecord 2 Tests.rec9 true (by decide) hup halive
  obtain ⟨-, hcompares⟩ := hknown Tests.rec9 hheld (Nat.le_refl _)
  obtain ⟨t, he, -, -, -, hsame, -⟩ := hcompares rfl hnew
  have hraised := wornState_raises
  rw [he] at hraised
  unfold faultRaised at hraised
  dsimp only at hraised
  rw [(hsame rfl).1, hq] at hraised
  exact absurd hraised (by decide)

end Sys2Proof.Machine
end

section
/-! SUPPORT. Proofs: the steps of the attestation of links (R310, R316, R413 to R415). -/

namespace Sys2Proof.Machine

/-- From `s` to `t` what was sent stays sent: the packets that were ready are so still, or have gone out. -/
structure Carries (s t : State) : Prop where
  out : s.out <+: t.out
  ready : ∀ p, ∀ k ∈ (s.port p).ready, FixedBody k.body → Sends s t p k.body

namespace Carries

theorem refl (s : State) : Carries s s := ⟨List.prefix_rfl, fun _ _ h _ => .of_ready h⟩

/-- What has been sent in the first step has been sent after the second. -/
theorem sends {r s t : State} {p : Nat} {body : Payload} (k : Carries s t) (h : Sends r s p body) (hout : r.out <+: s.out)
    (hfix : FixedBody body) : Sends r t p body := by
  obtain ⟨l, hl⟩ := hout
  obtain ⟨m, hm⟩ := k.out
  obtain ⟨pk, rfl, hready | ⟨seq, ack, mask, part, ls, hd, hframe⟩⟩ := h
  · exact (k.ready p pk hready hfix).from ⟨l, hl⟩ k.out
  · refine ⟨pk, rfl, .inr ⟨seq, ack, mask, part, ls, hd, ?_⟩⟩
    rw [← hl, List.drop_left] at hframe
    rw [← hm, ← hl, List.append_assoc, List.drop_left]
    exact List.mem_append_left _ hframe

theorem trans {r s t : State} (h : Carries r s) (k : Carries s t) : Carries r t where
  out := h.out.trans k.out
  ready p pk hpk hfix := k.sends (h.ready p pk hpk hfix) h.out hfix

theorem of_sending {s t : State} (h : Sending s t) : Carries s t := ⟨h.out, h.ready⟩

/-- Ports that keep their ready packets. -/
theorem of_ready {s t : State} (hout : s.out <+: t.out) (h : ∀ p, ∀ k ∈ (s.port p).ready, k ∈ (t.port p).ready) : Carries s t :=
  ⟨hout, fun p k hk _ => .of_ready (h p k hk)⟩

theorem of_ports {s t : State} (hout : s.out <+: t.out) (hports : t.ports = s.ports) : Carries s t :=
  of_ready hout fun p k hk => by
    have hport : t.port p = s.port p := congrArg (fun l => Assoc.get Port.init l p) hports
    rwa [hport]

theorem setPort (s : State) (p : Nat) {x : Port} (h : x.ready = (s.port p).ready) : Carries s (s.setPort p x) := by
  refine of_ready List.prefix_rfl fun q k hk => ?_
  by_cases hq : q = p
  · rw [hq] at hk ⊢
    rwa [State.port_setPort_same, h]
  · rwa [State.port_setPort_ne s x hq]

theorem foldl {α : Type} {f : State → α → State} {l : List α} (h : ∀ a ∈ l, ∀ t, Carries t (f t a)) (s : State) : Carries s (l.foldl f s) := by
  induction l generalizing s with
  | nil => exact refl s
  | cons a l ih => exact (h a List.mem_cons_self s).trans (ih (fun b hb => h b (List.mem_cons_of_mem a hb)) _)

end Carries

namespace State

/-! ## Messages of attestation (R413) -/

theorem attestBody (m : AttMsg) (i n : Nat) : FixedBody (.attest m i n) := fun _ _ _ h => by cases h

/-- Every fragment of a message goes out. -/
theorem sendAttest_sends (s : State) {p : Nat} (hp : p < 16) (dst : Nat) (m : AttMsg) :
    Sending s (s.sendAttest p dst m) ∧
      ∀ i, i < max 1 (ceilDiv m.bytes 1016) → Sends s (s.sendAttest p dst m) p (.attest m i (max 1 (ceilDiv m.bytes 1016))) := by
  have hfold : ∀ (n : Nat) (l : List Nat) (t : State),
      let u := l.foldl (fun t i => t.sendOn p (t.newPacket 0x0A false dst 0 0 (.attest m i n))) t
      Sending t u ∧ ∀ i ∈ l, Sends t u p (.attest m i n) := by
    intro n l
    induction l with
    | nil => exact fun t => ⟨.refl t, fun i hi => absurd hi List.not_mem_nil⟩
    | cons i l ih =>
      intro t
      obtain ⟨h1, h2⟩ := t.sendOn_sending hp (t.newPacket 0x0A false dst 0 0 (.attest m i n))
      obtain ⟨h3, h4⟩ := ih (t.sendOn p (t.newPacket 0x0A false dst 0 0 (.attest m i n)))
      refine ⟨h1.trans h3, fun j hj => ?_⟩
      rcases List.mem_cons.mp hj with rfl | hj
      · exact Sends.after (h2 (attestBody m j n)) h1.out (attestBody m j n) h3
      · exact (h4 j hj).from h1.out h3.out
  obtain ⟨h1, h2⟩ := hfold (max 1 (ceilDiv m.bytes 1016)) (List.range (max 1 (ceilDiv m.bytes 1016))) s
  exact ⟨h1, fun i hi => h2 i (List.mem_range.mpr hi)⟩

/-- A message of one fragment. -/
theorem sendAttest_one (s : State) {p : Nat} (hp : p < 16) (dst : Nat) {m : AttMsg} (hm : m.bytes ≤ 1016) :
    Sends s (s.sendAttest p dst m) p (.attest m 0 1) := by
  have hone : max 1 (ceilDiv m.bytes 1016) = 1 := by
    unfold ceilDiv
    omega
  have h := (s.sendAttest_sends hp dst m).2 0 (by omega)
  rwa [hone] at h

/-- A port that asks to attest. -/
def asking (s : State) (p : Nat) : State :=
  (s.draw).setPort p { s.port p with attNonce := some (s.free % 2 ^ 256), attReport := none, peerDone := false }

theorem sendReq_eq (s : State) (p dst : Nat) : s.sendReq p dst =
    (s.asking p).sendOn p ((s.asking p).newPacket 0x0A false dst 0 0 (.attest (.req (s.free % 2 ^ 256)) 0 1)) := rfl

theorem asking_port (s : State) (p : Nat) :
    (s.asking p).port p = { s.port p with attNonce := some (s.free % 2 ^ 256), attReport := none, peerDone := false } :=
  s.draw.port_setPort_same p _

theorem asking_carries (s : State) (p : Nat) : Carries s (s.asking p) :=
  (Carries.of_ports List.prefix_rfl rfl : Carries s s.draw).trans (.setPort _ p rfl)

theorem sendReq_sending (s : State) {p : Nat} (hp : p < 16) (dst : Nat) : Sending (s.asking p) (s.sendReq p dst) :=
  ((s.asking p).sendOn_sending hp _).1

theorem sendReq_carries (s : State) {p : Nat} (hp : p < 16) (dst : Nat) : Carries s (s.sendReq p dst) :=
  (s.asking_carries p).trans (.of_sending (s.sendReq_sending hp dst))

/-- The link is asked over 32 fresh bytes. -/
theorem sendReq_asks (s : State) {p : Nat} (hp : p < 16) (dst : Nat) :
    ((s.sendReq p dst).port p).attNonce = some (s.free % 2 ^ 256) ∧ Sends s (s.sendReq p dst) p (.attest (.req (s.free % 2 ^ 256)) 0 1) := by
  have h := s.sendReq_sending hp dst
  have hsend := ((s.asking p).sendOn_sending hp ((s.asking p).newPacket 0x0A false dst 0 0 (.attest (.req (s.free % 2 ^ 256)) 0 1))).2
    (attestBody _ 0 1)
  refine ⟨(congrArg Port.attNonce (h.port p) :).trans ?_, hsend⟩
  rw [asking_port]

end State

/-! ## The end of ARM (R316) -/

/-- From `s` to `t` a record has gone round, and perhaps ARM has ended. -/
structure Advances (s t : State) : Prop where
  regs : ∀ f : Fld, f.key < 0x600000 * 32 → (∀ g ∈ sentRegs ++ Reg.netStatusState :: dropRegs, f.key ≠ g.key) → t.get f = s.get f
  rest : { t with regs := s.regs, ports := s.ports, out := s.out, life := s.life, net := s.net, ing := s.ing, faultQ := s.faultQ
                  mbx := s.mbx, jnl := s.jnl } = s
  port : ∀ q, SentPort (s.port q) (t.port q)
  carries : Carries s t

namespace Advances

theorem refl (s : State) : Advances s s := ⟨fun _ _ _ => rfl, rfl, fun _ => rfl, .refl s⟩

theorem trans {r s t : State} (h : Advances r s) (k : Advances s t) : Advances r t where
  regs f hf hn := (k.regs f hf hn).trans (h.regs f hf hn)
  rest := by
    let kept : State → State := fun v => { v with regs := r.regs, ports := r.ports, out := r.out, life := r.life, net := r.net, ing := r.ing
                                                  faultQ := r.faultQ, mbx := r.mbx, jnl := r.jnl }
    exact (congrArg kept k.rest :).trans h.rest
  port q := (h.port q).trans (k.port q)
  carries := h.carries.trans k.carries

theorem of_sending {s t : State} (h : Sending s t) : Advances s t where
  regs f _ hn := h.regs f fun g hg => hn g (List.mem_append_left _ hg)
  rest := by
    let kept : State → State := fun v => { v with life := s.life, net := s.net, ing := s.ing, faultQ := s.faultQ, mbx := s.mbx, jnl := s.jnl }
    exact (congrArg kept h.rest :)
  port := h.port
  carries := .of_sending h

/-- Ports and messages that stand. -/
theorem of_ports {s t : State} (hregs : ∀ f : Fld, f.key < 0x600000 * 32 → (∀ g ∈ sentRegs ++ Reg.netStatusState :: dropRegs, f.key ≠ g.key) → t.get f = s.get f)
    (hrest : { t with regs := s.regs, out := s.out, life := s.life, net := s.net, ing := s.ing, faultQ := s.faultQ, mbx := s.mbx
                      jnl := s.jnl } = s) (hout : s.out <+: t.out) : Advances s t where
  regs := hregs
  rest := (congrArg (fun v : State => { v with ports := s.ports }) hrest :)
  port q := by
    have hports : t.ports = s.ports := (congrArg State.ports hrest :)
    have hport : t.port q = s.port q := congrArg (fun l => Assoc.get Port.init l q) hports
    rw [hport]
    exact .refl _
  carries := .of_ports hout (congrArg State.ports hrest :)

end Advances

namespace State

theorem flood_sending (s : State) (r : LinkRec) (except : Option Nat) : Sending s (s.flood r except) := by
  have hfold : ∀ (l : List Nat) (t : State), (∀ p ∈ l, p < 16) →
      Sending t (l.foldl (fun t p => t.sendOn p (t.newPacket 8 true 0 0 0 (.link r))) t) := by
    intro l
    induction l with
    | nil => exact fun t _ => .refl t
    | cons p l ih =>
      intro t hl
      exact (t.sendOn_sending (hl p List.mem_cons_self) _).1.trans (ih _ fun q hq => hl q (List.mem_cons_of_mem p hq))
  refine hfold _ s fun p hp => ?_
  have := List.mem_range.mp (List.mem_filter.mp hp).1
  omega

theorem readLabel_out (s : State) (b : Nat) : s.out <+: (s.readLabel b).out := by
  unfold readLabel
  split
  · split
    · exact List.prefix_rfl
    · split
      · exact List.prefix_rfl
      · split
        · split
          · rw [addWritten_out]
            exact (List.prefix_append _ _).trans (List.prefix_append _ _)
          · exact List.prefix_rfl
        · exact List.prefix_rfl
  · exact List.prefix_rfl

theorem readLabel_advances (s : State) {b : Nat} (hb : b < 2) : Advances s (s.readLabel b) := by
  cases hc : s.cart? b with
  | none =>
    have hsame : s.readLabel b = s := by
      unfold readLabel
      rw [hc]
    rw [hsame]
    exact .refl s
  | some c =>
    obtain ⟨⟨hregs, hrest⟩, -, -⟩ := readLabel_read hb hc
    refine .of_ports (fun f hf hn => hregs f fun g hg => ?_) ?_ (s.readLabel_out b)
    · rcases List.mem_append.mp hg with hg | hg
      · exact hn g (List.mem_append_right _ (List.mem_cons_of_mem _ hg))
      · have hkey : 0x600000 * 32 ≤ g.key := by
          revert g
          interval_cases b <;> decide
        omega
    · let kept : State → State := fun v => { v with life := s.life, net := s.net, mbx := s.mbx, jnl := s.jnl }
      exact (congrArg kept hrest :)

theorem readLabels_advances (s : State) : Advances s s.readLabels := by
  unfold readLabels
  refine List.foldlRecOn [0, 1] _ (motive := fun t : State => Advances s t) (.refl s) ?_
  intro t h b hb
  split
  · refine h.trans (t.readLabel_advances ?_)
    simp only [List.mem_cons, List.not_mem_nil, or_false] at hb
    omega
  · exact h

/-- A command that completes changes the mailbox and the journal. -/
theorem finishRunning_rest (s : State) {code : Nat} (result : List Byte) (h : code ≠ rcAborted) :
    { s.finishRunning code result with mbx := s.mbx, jnl := s.jnl } = s := by
  unfold finishRunning
  split
  · split
    · exact s.finish_rest _ result h
    · rfl
  · rfl

theorem finishRunning_advances (s : State) {code : Nat} (result : List Byte) (h : code ≠ rcAborted) :
    Advances s (s.finishRunning code result) := by
  have hrest := s.finishRunning_rest result h
  generalize s.finishRunning code result = t at hrest
  refine .of_ports (fun f _ _ => get_of_regs (congrArg State.regs hrest :) f) ?_ ((congrArg State.out hrest :) ▸ List.prefix_rfl)
  let kept : State → State := fun v => { v with regs := s.regs, out := s.out, life := s.life, net := s.net, ing := s.ing, faultQ := s.faultQ }
  exact (congrArg kept hrest :)

theorem checkArm_advances (s : State) : Advances s s.checkArm := by
  unfold checkArm
  split
  · have h1 : Advances s { s with life := .armed } := .of_ports (fun _ _ _ => rfl) rfl List.prefix_rfl
    exact (h1.trans (readLabels_advances _)).trans (finishRunning_advances _ _ (by decide))
  · exact .refl s

theorem advanceSeal_advances (s : State) : Advances s s.advanceSeal := by
  unfold advanceSeal
  split
  · extract_lets r s1 net s2
    have h1 : Advances s s2 := by
      refine .of_ports (fun f _ hn => s.get_put_ne 4 (hn Reg.netStatusState ?_)) rfl List.prefix_rfl
      exact List.mem_append_right _ List.mem_cons_self
    exact (h1.trans (.of_sending (flood_sending ..))).trans (checkArm_advances _)
  · exact .refl s

end State

/-! ## The steps of the attestation (R414, R415) -/

/-- A register that tells of the device's trust (chapter 15). -/
abbrev TellsTrust (f : Fld) : Prop := 0x60000 * 32 ≤ f.key ∧ f.key < 0x70000 * 32

/-- Of a port what its peer has shown stands. -/
def KeepsPeer (x y : Port) : Prop := y.attNonce = x.attNonce ∧ y.attReport = x.attReport ∧ y.peerDone = x.peerDone

theorem KeepsPeer.of_sent {x y : Port} (h : SentPort x y) : KeepsPeer x y :=
  ⟨(congrArg Port.attNonce h :), (congrArg Port.attReport h :), (congrArg Port.peerDone h :)⟩

/-- From `s` to `t` the links of the device go on to attest and to seal. -/
structure Attests (s t : State) : Prop where
  regs : ∀ f : Fld, TellsTrust f → t.get f = s.get f
  rest : { t with regs := s.regs, ports := s.ports, out := s.out, freeCtr := s.freeCtr, life := s.life, net := s.net, ing := s.ing
                  faultQ := s.faultQ, mbx := s.mbx, jnl := s.jnl } = s
  port : ∀ q, KeepsPeer (s.port q) (t.port q)
  carries : Carries s t

namespace Attests

theorem refl (s : State) : Attests s s := ⟨fun _ _ => rfl, rfl, fun _ => ⟨rfl, rfl, rfl⟩, .refl s⟩

theorem trans {r s t : State} (h : Attests r s) (k : Attests s t) : Attests r t where
  regs f hf := (k.regs f hf).trans (h.regs f hf)
  rest := by
    let kept : State → State := fun v => { v with
      regs := r.regs, ports := r.ports, out := r.out, freeCtr := r.freeCtr, life := r.life, net := r.net, ing := r.ing, faultQ := r.faultQ
      mbx := r.mbx, jnl := r.jnl }
    exact (congrArg kept k.rest :).trans h.rest
  port q := by
    obtain ⟨h1, h2, h3⟩ := h.port q
    obtain ⟨k1, k2, k3⟩ := k.port q
    exact ⟨k1.trans h1, k2.trans h2, k3.trans h3⟩
  carries := h.carries.trans k.carries

theorem of_advances {s t : State} (h : Advances s t) : Attests s t where
  regs f hf := h.regs f (by have := hf.2; omega) fun g hg => by
    have hkey : g.key < 0x60000 * 32 ∨ 0x70000 * 32 ≤ g.key := by
      rcases List.mem_append.mp hg with hg | hg
      · rcases List.mem_cons.mp hg with rfl | hg
        · decide
        · obtain ⟨p, -, hg⟩ := List.mem_flatMap.mp hg
          obtain ⟨v, -, rfl⟩ := List.mem_map.mp hg
          have : (Reg.fabVcTxPkts p v).key = (0x100000 + 0x1000 * p + 0x204 + 0x10 * v) * 32 + 0 := rfl
          omega
      · revert g
        decide
    obtain ⟨h1, h2⟩ := hf
    omega
  rest := (congrArg (fun v : State => { v with freeCtr := s.freeCtr }) h.rest :)
  port q := .of_sent (h.port q)
  carries := h.carries

theorem of_sending {s t : State} (h : Sending s t) : Attests s t := of_advances (.of_sending h)

/-- A port that still shows what its peer has shown, and keeps its ready packets. -/
theorem setPort (s : State) (p : Nat) {x : Port} (hx : KeepsPeer (s.port p) x) (hr : x.ready = (s.port p).ready) : Attests s (s.setPort p x) := by
  refine ⟨fun _ _ => rfl, rfl, fun q => ?_, .setPort s p hr⟩
  by_cases hq : q = p
  · rw [hq, State.port_setPort_same]
    exact hx
  · rw [State.port_setPort_ne s x hq]
    exact ⟨rfl, rfl, rfl⟩

theorem draw (s : State) : Attests s s.draw := ⟨fun _ _ => rfl, rfl, fun _ => ⟨rfl, rfl, rfl⟩, .of_ports List.prefix_rfl rfl⟩

/-- A register of the fabric. -/
theorem put (s : State) {f : Fld} (hf : 0x100000 * 32 ≤ f.key) (v : Nat) : Attests s (s.put f v) :=
  ⟨fun g hg => State.get_put_ne _ _ (by
    obtain ⟨-, h2⟩ := hg
    omega), rfl, fun _ => ⟨rfl, rfl, rfl⟩, .of_ports List.prefix_rfl rfl⟩

theorem foldl {α : Type} {f : State → α → State} {l : List α} (h : ∀ a ∈ l, ∀ t, Attests t (f t a)) (s : State) :
    Attests s (l.foldl f s) := by
  induction l generalizing s with
  | nil => exact refl s
  | cons a l ih => exact (h a List.mem_cons_self s).trans (ih (fun b hb => h b (List.mem_cons_of_mem a hb)) _)

theorem mems {s t : State} (h : Attests s t) : t.mems = s.mems := (congrArg State.mems h.rest :)

end Attests

namespace State

theorem spreadSeed_attests (s : State) {p : Nat} (hp : p < 16) : Attests s (s.spreadSeed p) := by
  unfold spreadSeed
  dsimp only
  split
  · split
    · refine ((Attests.draw s).trans (.setPort s.draw p (x := { s.port p with sentSeed := true }) ⟨rfl, rfl, rfl⟩ rfl)).trans (.of_sending ?_)
      exact (sendAttest_sends _ hp _ _).1
    · exact .refl s
  · exact .refl s

theorem sendHello_attests (s : State) {p : Nat} (hp : p < 16) : Attests s (s.sendHello p) := by
  have hkey : 0x100000 * 32 ≤ (Reg.fabSealState p).key := by
    have h3 : (Reg.fabSealState p).key = (0x100000 + 0x1000 * p + 0x240) * 32 + 0 := rfl
    omega
  have h1 : Attests s (s.beginSeal p) := ((Attests.draw s).trans (.put _ hkey 1)).trans (.setPort _ p ⟨rfl, rfl, rfl⟩ rfl)
  exact h1.trans (.of_sending (sendOn_sending _ hp _).1)

theorem trySeal_attests (s : State) {p : Nat} (hp : p < 16) : Attests s (s.trySeal p) := by
  unfold trySeal
  dsimp only
  split
  · exact s.sendHello_attests hp
  · exact .refl s

/-- What follows the draw of the seed. -/
theorem attestLinks (s : State) :
    Attests s ((List.range 12).foldl (fun t p => (t.spreadSeed p).trySeal p) s).advanceSeal := by
  refine (Attests.foldl (fun p hp t => ?_) s).trans (.of_advances (advanceSeal_advances _))
  have hlt : p < 16 := by
    have := List.mem_range.mp hp
    omega
  exact (t.spreadSeed_attests hlt).trans (trySeal_attests _ hlt)

/-- A device that holds the seed draws none. -/
theorem originSeed_held {s : State} (h : s.seed.isSome = true) : s.originSeed = s := by
  refine if_neg ?_
  rintro ⟨-, hnone, -⟩
  rw [Option.isNone_iff_eq_none] at hnone
  rw [hnone] at h
  cases h

theorem attestStep_held {s : State} (h : s.seed.isSome = true) : Attests s s.attestStep := by
  unfold attestStep
  rw [originSeed_held h]
  exact s.attestLinks

/-- The neighbours without the seed are told. -/
theorem tellSeed_sends (s : State) :
    Sending s s.tellSeed ∧ ∀ q r, q < 12 → (s.port q).attReport = some r → r.seedHeld = false → Sends s s.tellSeed q (.attest .done 0 1) := by
  have hfold : ∀ (l : List Nat) (t : State), (∀ p ∈ l, p < 16) →
      let u := l.foldl (fun t p => match (t.port p).attReport with
        | some r => if r.seedHeld then t else t.sendAttest p r.addr .done
        | none => t) t
      Sending t u ∧ ∀ q r, q ∈ l → (t.port q).attReport = some r → r.seedHeld = false → Sends t u q (.attest .done 0 1) := by
    intro l
    induction l with
    | nil => exact fun t _ => ⟨.refl t, fun q r hq => absurd hq List.not_mem_nil⟩
    | cons p l ih =>
      intro t hl
      have hp := hl p List.mem_cons_self
      have hone : Sending t (match (t.port p).attReport with
          | some r => if r.seedHeld then t else t.sendAttest p r.addr .done
          | none => t) ∧ ∀ r, (t.port p).attReport = some r → r.seedHeld = false →
          Sends t (match (t.port p).attReport with
          | some r => if r.seedHeld then t else t.sendAttest p r.addr .done
          | none => t) p (.attest .done 0 1) := by
        cases hr : (t.port p).attReport with
        | none => exact ⟨.refl t, fun r h => by cases h⟩
        | some r =>
          by_cases hh : r.seedHeld = true
          · refine ⟨?_, fun r' h' hf => ?_⟩
            · dsimp only
              rw [if_pos hh]
              exact .refl t
            · cases h'
              rw [hh] at hf
              cases hf
          · dsimp only
            rw [if_neg hh]
            exact ⟨(t.sendAttest_sends hp _ _).1, fun _ _ _ => t.sendAttest_one hp _ (by decide)⟩
      rw [List.foldl_cons]
      generalize (match (t.port p).attReport with
          | some r => if r.seedHeld then t else t.sendAttest p r.addr .done
          | none => t) = u at hone ⊢
      obtain ⟨h1, h2⟩ := hone
      obtain ⟨h3, h4⟩ := ih u fun q hq => hl q (List.mem_cons_of_mem p hq)
      refine ⟨h1.trans h3, fun q r hq hrep hheld => ?_⟩
      rcases List.mem_cons.mp hq with rfl | hq
      · exact Sends.after (h2 r hrep hheld) h1.out (attestBody _ 0 1) h3
      · exact (h4 q r hq ((congrArg Port.attReport (h1.port q) :).trans hrep) hheld).from h1.out h3.out
  obtain ⟨h1, h2⟩ := hfold (List.range 12) s fun p hp => by
    have := List.mem_range.mp hp
    omega
  exact ⟨h1, fun q r hq => h2 q r (List.mem_range.mpr hq)⟩

end State

/-- From `s` to `t` the device may also have drawn the seed. -/
structure DrawsSeed (s t : State) : Prop where
  regs : ∀ f : Fld, TellsTrust f → f.key ≠ Reg.cruStatusSeedHeld.key → f.key ≠ Reg.cruSeedParent.key → t.get f = s.get f
  mems : t.mems = s.mems
  port : ∀ q, KeepsPeer (s.port q) (t.port q)
  carries : Carries s t

namespace DrawsSeed

theorem of_attests {s t : State} (h : Attests s t) : DrawsSeed s t := ⟨fun f hf _ _ => h.regs f hf, h.mems, h.port, h.carries⟩

theorem trans {r s t : State} (h : DrawsSeed r s) (k : DrawsSeed s t) : DrawsSeed r t where
  regs f hf hheld hparent := (k.regs f hf hheld hparent).trans (h.regs f hf hheld hparent)
  mems := k.mems.trans h.mems
  port q := by
    obtain ⟨h1, h2, h3⟩ := h.port q
    obtain ⟨k1, k2, k3⟩ := k.port q
    exact ⟨k1.trans h1, k2.trans h2, k3.trans h3⟩
  carries := h.carries.trans k.carries

end DrawsSeed

namespace State

/-- The escrow of a seed that the device has drawn (R417). -/
def withEscrow (u : State) (k : Nat) : State :=
  match u.billet with
  | some b => if b.escrow then { u.draw with cru := { u.cru with escrow := some (u.free, Config.sealSeed k u.free) } } else u
  | none => u

theorem withEscrow_draws (u : State) (k : Nat) : DrawsSeed u (u.withEscrow k) := by
  have hsame : DrawsSeed u u := ⟨fun _ _ _ _ => rfl, rfl, fun _ => ⟨rfl, rfl, rfl⟩, .refl u⟩
  unfold withEscrow
  split
  · split
    · exact ⟨fun _ _ _ _ => rfl, rfl, fun _ => ⟨rfl, rfl, rfl⟩, .of_ports List.prefix_rfl rfl⟩
    · exact hsame
  · exact hsame

theorem holdSeed_draws (u : State) (k parent : Nat) : DrawsSeed u (u.holdSeed k parent) := by
  refine ⟨fun f _ hheld hparent => ?_, rfl, fun _ => ⟨rfl, rfl, rfl⟩, .of_ports List.prefix_rfl rfl⟩
  exact (get_put_ne _ _ hparent).trans (get_put_ne _ _ hheld)

theorem originSeed_draws (s : State) : DrawsSeed s s.originSeed := by
  have heq : s.originSeed = if s.get Reg.netStatusState = 3 ∧ s.seed.isNone ∧ lowest s.devices = some s.addr ∧
      s.jobPorts.all (fun l => (s.port l.1).attReport.isSome) ∧ !(s.peerReports.any (fun r => r.seedHeld)) then
      (((s.draw).holdSeed (s.free % 2 ^ 256) s.addr).withEscrow (s.free % 2 ^ 256)).tellSeed else s := rfl
  rw [heq]
  split
  · exact (((DrawsSeed.of_attests (.draw s)).trans (holdSeed_draws _ _ _)).trans (withEscrow_draws _ _)).trans
      (.of_attests (.of_sending (tellSeed_sends _).1))
  · exact .of_attests (.refl s)

theorem attestStep_draws (s : State) : DrawsSeed s s.attestStep :=
  s.originSeed_draws.trans (.of_attests (attestLinks _))

end State

end Sys2Proof.Machine
end

section
/-! SUPPORT. Proofs: links attest, share the seed and are sealed (R310, R321, R405, R412 to R415). -/

namespace Sys2Proof.Machine

/-! ## ARM is refused -/

/-- From `u` to `t` a message of the attestation has been raised, and what ran has perhaps been refused. -/
structure Refuses (u t : State) : Prop where
  rest : { t with regs := u.regs, faultQ := u.faultQ, mbx := u.mbx, jnl := u.jnl, ing := u.ing, cad := u.cad } = u
  regs : ∀ f : Fld, TellsTrust f → t.get f = u.get f

namespace Refuses

theorem refl (u : State) : Refuses u u := ⟨rfl, fun _ _ => rfl⟩

theorem trans {r s t : State} (h : Refuses r s) (k : Refuses s t) : Refuses r t := by
  let kept : State → State := fun v => { v with regs := r.regs, faultQ := r.faultQ, mbx := r.mbx, jnl := r.jnl, ing := r.ing, cad := r.cad }
  exact ⟨(congrArg kept k.rest :).trans h.rest, fun f hf => (k.regs f hf).trans (h.regs f hf)⟩

theorem put (u : State) {f : Fld} (hf : 0x100000 * 32 ≤ f.key) (v : Nat) : Refuses u (u.put f v) :=
  ⟨rfl, fun g hg => State.get_put_ne _ _ (by
    obtain ⟨-, h2⟩ := hg
    omega)⟩

theorem setCad {u s : State} (h : Refuses u s) (c : Cad) : Refuses u { s with cad := c } := h.trans ⟨rfl, fun _ _ => rfl⟩

theorem raise (u : State) (src kind cls addr : Nat) : Refuses u (u.raise src kind cls addr) := by
  refine ⟨(congrArg (fun v : State => { v with mbx := u.mbx, jnl := u.jnl, ing := u.ing, cad := u.cad }) (u.raise_rest src kind cls addr) :),
    fun f hf => ?_⟩
  have hd : Reg.fltDropped.key < 0x60000 * 32 := by decide
  have ho : Reg.fltStatusOvf.key < 0x60000 * 32 := by decide
  obtain ⟨h1, -⟩ := hf
  exact u.get_raise _ _ _ _ (by omega) (by omega)

theorem finishRunning (u : State) {code : Nat} (result : List Byte) (h : code ≠ rcAborted) : Refuses u (u.finishRunning code result) := by
  have hrest := u.finishRunning_rest result h
  generalize u.finishRunning code result = t at hrest
  exact ⟨(congrArg (fun v : State => { v with regs := u.regs, faultQ := u.faultQ, ing := u.ing, cad := u.cad }) hrest :),
    fun f _ => State.get_of_regs (congrArg State.regs hrest :) f⟩

theorem carries {u t : State} (h : Refuses u t) : Carries u t :=
  .of_ports ((congrArg State.out h.rest :) ▸ List.prefix_rfl) (congrArg State.ports h.rest :)

theorem port {u t : State} (h : Refuses u t) (q : Nat) : t.port q = u.port q :=
  congrArg (fun l => Assoc.get Port.init l q) (congrArg State.ports h.rest :)

theorem mems {u t : State} (h : Refuses u t) : t.mems = u.mems := (congrArg State.mems h.rest :)

end Refuses

namespace State

/-- No restore and no replay reads any more. -/
theorem dropRestore_refuses {u s1 : State} (h : Refuses u s1) (r : Option RestoreRun) (q : Option ReplayRun) :
    Refuses u { s1 with ing := { s1.ing with restore := r, replay := q } } := h.trans ⟨rfl, fun _ _ => rfl⟩

theorem endRestore_refuses (u : State) : Refuses u u.endRestore := by
  unfold endRestore
  extract_lets s1
  refine dropRestore_refuses ?_ none none
  unfold s1
  split
  · have h1 := Refuses.put u (f := Reg.ingStatusPhase) (by decide) 0
    have h2 := Refuses.put (u.put Reg.ingStatusPhase 0) (f := Reg.tmpStatusPhase) (by decide) 0
    exact h1.trans h2
  · exact .refl u

theorem refuseWith_refuses (u : State) (src kind cls addr : Nat) : Refuses u (u.refuseWith src kind cls addr) :=
  (Refuses.raise u src kind cls addr).trans (.finishRunning _ _ (by decide))

theorem refuseArm_refuses (u : State) (kind addr src : Nat) : Refuses u (u.refuseArm kind addr src) := by
  unfold refuseArm
  split
  · exact (Refuses.put u (by decide) 0).trans (refuseWith_refuses _ _ _ _ _)
  · split
    · exact (u.endRestore_refuses.setCad _).trans (refuseWith_refuses _ _ _ _ _)
    · exact .raise ..

/-- While no ARM and no RESTORE runs the message is raised alone. -/
theorem refuseArm_idle {u : State} {kind : Nat} (h : u.runningOp ≠ some 0x0104) (hk : u.runningOp ≠ some 0x0108 ∨ kind ≠ 0x71) (addr src : Nat) :
    u.refuseArm kind addr src = u.raise src kind clsU addr := by
  unfold refuseArm
  rw [if_neg h, if_neg]
  rintro ⟨h1, h2⟩
  exact hk.elim (fun h3 => h3 h1) fun h3 => h3 h2

theorem runningOp_of {u : State} {y : Slot} (h : RunningCmd u y) : u.runningOp = some y.opcode := by
  obtain ⟨h1, h2⟩ := h
  unfold runningOp
  rw [h1]
  dsimp only
  rw [h2]
  rfl

/-- An ARM that runs is refused with the message. -/
theorem refuseArm_running {u : State} {y : Slot} (h : RunningCmd u y) (hop : y.opcode = 0x0104) (kind addr src : Nat) :
    u.refuseArm kind addr src = ((u.put Reg.netStatusState 0).raise src kind clsU addr).finish y rcRefused
      (msgBytes (u.faultMsg src kind clsU addr false)) := by
  unfold refuseArm
  rw [if_pos ((runningOp_of h).trans (congrArg some hop))]
  exact refuseWith_of (u := u.put Reg.netStatusState 0) h.1 h.2 src kind clsU addr

theorem refuseArm_raised (u : State) {kind : Nat} (hk : u.runningOp ≠ some 0x0108 ∨ kind ≠ 0x71) (addr src : Nat) :
    Raised u (u.refuseArm kind addr src) src kind clsU addr := by
  by_cases h : u.runningOp = some 0x0104
  · unfold refuseArm
    rw [if_pos h]
    have h1 : Raised u ((u.put Reg.netStatusState 0).raise src kind clsU addr) src kind clsU addr :=
      .of_raise (t := u.put Reg.netStatusState 0) rfl rfl _ _ _ _
    exact h1.of_faultQ (congrArg State.faultQ (finishRunning_rest _ (code := rcRefused) _ (by decide)) :)
  · rw [refuseArm_idle h hk]
    exact .raise _ _ _ _ _

/-- ARM is REFUSED with the message, and discovery is at its start. -/
theorem refuseArm_finished {s u : State} {y : Slot} (hy : RunningCmd s y) (hop : y.opcode = 0x0104) (hm : u.mbx = s.mbx) (hj : u.jnl = s.jnl)
    (hc : u.cad = s.cad) (kind addr src : Nat) :
    (u.refuseArm kind addr src).get Reg.netStatusState = 0 ∧
      Finished s (u.refuseArm kind addr src) y rcRefused (msgBytes (s.faultMsg src kind clsU addr false)) := by
  have hrun : RunningCmd u y := by
    obtain ⟨h1, h2⟩ := hy
    unfold slot? at h2
    unfold RunningCmd slot?
    rw [hm]
    exact ⟨h1, h2⟩
  have hmsg : u.faultMsg src kind clsU addr false = s.faultMsg src kind clsU addr false := by
    unfold faultMsg
    rw [hc]
  rw [refuseArm_running hrun hop, hmsg]
  have hraise := (u.put Reg.netStatusState 0).raise_rest src kind clsU addr
  have hget : ((u.put Reg.netStatusState 0).raise src kind clsU addr).get Reg.netStatusState = 0 :=
    ((u.put Reg.netStatusState 0).get_raise _ _ _ _ (by decide) (by decide)).trans (get_put_same ..)
  have hmbx : ((u.put Reg.netStatusState 0).raise src kind clsU addr).mbx = s.mbx := (congrArg State.mbx hraise :).trans hm
  have hjnl : ((u.put Reg.netStatusState 0).raise src kind clsU addr).jnl = s.jnl := (congrArg State.jnl hraise :).trans hj
  generalize (u.put Reg.netStatusState 0).raise src kind clsU addr = v at hget hmbx hjnl ⊢
  refine ⟨?_, finish_finished ⟨?_, ?_, ?_, ?_, hjnl⟩ hy.2 (by decide) _⟩
  · exact (get_of_regs (congrArg State.regs (v.finish_rest y (code := rcRefused) _ (by decide)) :) _).trans hget
  iterate 4 rw [hmbx]

/-! ## Amendments (R412) -/

theorem applyAmends_amended (s : State) (l : List Amendment) : Amended s (s.applyAmends l) := by
  unfold applyAmends
  induction l generalizing s with
  | nil => exact .refl s
  | cons a l ih =>
    refine Amended.trans ?_ (ih _)
    dsimp only
    split
    · exact amend_amended s a
    · exact .refl s

end State

/-- The amendments that a peer presents are applied where its report is verified. -/
def presented (s : State) (amends : List Amendment) (verified : Bool) : State := if verified then s.applyAmends amends else s

theorem presented_amended (s : State) (amends : List Amendment) (verified : Bool) : Amended s (presented s amends verified) := by
  unfold presented
  split
  · exact s.applyAmends_amended amends
  · exact .refl s

/-- What amendments leave alone. -/
theorem Amended.keeps {s t : State} (h : Amended s t) : t.ports = s.ports ∧ t.out = s.out ∧ t.mbx = s.mbx ∧ t.jnl = s.jnl ∧ t.cad = s.cad ∧
    t.mems = s.mems ∧ (∀ q, t.port q = s.port q) ∧ t.runningOp = s.runningOp := by
  have hrest := h.rest
  have hports : t.ports = s.ports := (congrArg State.ports hrest :)
  have hmbx : t.mbx = s.mbx := (congrArg State.mbx hrest :)
  refine ⟨hports, (congrArg State.out hrest :), hmbx, (congrArg State.jnl hrest :), (congrArg State.cad hrest :),
    (congrArg State.mems hrest :), fun q => congrArg (fun l => Assoc.get Port.init l q) hports, ?_⟩
  unfold State.runningOp State.slot?
  rw [hmbx]

end Sys2Proof.Machine
end

section
/-! SUPPORT. Proofs: what the messages of attestation bring to a port (R405, R412 to R415). -/

namespace Sys2Proof.Machine

/-- From `s` to `t` the device has sent messages of attestation, and has drawn for them. -/
structure Asking (s t : State) : Prop where
  regs : SameRegsOut [] s t
  rest : { t with regs := s.regs, ports := s.ports, out := s.out, freeCtr := s.freeCtr } = s
  carries : Carries s t

namespace Asking

theorem refl (s : State) : Asking s s := ⟨.refl _ s, rfl, .refl s⟩

theorem trans {r s t : State} (h : Asking r s) (k : Asking s t) : Asking r t where
  regs := h.regs.trans k.regs
  rest := by
    let kept : State → State := fun v => { v with regs := r.regs, ports := r.ports, out := r.out, freeCtr := r.freeCtr }
    exact (congrArg kept k.rest :).trans h.rest
  carries := h.carries.trans k.carries

theorem of_sending {s t : State} (h : Sending s t) : Asking s t where
  regs f hf _ := h.regs f fun g hg => by
    have hkey : 0x100000 * 32 ≤ g.key ∧ g.key < 0x110000 * 32 := by
      rcases List.mem_cons.mp hg with rfl | hg
      · decide
      · obtain ⟨p, hp, hg⟩ := List.mem_flatMap.mp hg
        obtain ⟨v, hv, rfl⟩ := List.mem_map.mp hg
        have := List.mem_range.mp hp
        have := List.mem_range.mp hv
        have : (Reg.fabVcTxPkts p v).key = (0x100000 + 0x1000 * p + 0x204 + 0x10 * v) * 32 + 0 := rfl
        omega
    omega
  rest := (congrArg (fun v : State => { v with freeCtr := s.freeCtr }) h.rest :)
  carries := .of_sending h

theorem draw (s : State) : Asking s s.draw := ⟨.refl _ s, rfl, .of_ports List.prefix_rfl rfl⟩

theorem setPort (s : State) (p : Nat) {x : Port} (h : x.ready = (s.port p).ready) : Asking s (s.setPort p x) :=
  ⟨.refl _ s, rfl, .setPort s p h⟩

end Asking

namespace State

theorem asking_asking (s : State) (p : Nat) : Asking s (s.asking p) := (Asking.draw s).trans (.setPort s.draw p rfl)

theorem sendReq_asking (s : State) {p : Nat} (hp : p < 16) (dst : Nat) : Asking s (s.sendReq p dst) :=
  (s.asking_asking p).trans (.of_sending (s.sendReq_sending hp dst))

/-- What a port still shows after the seed has perhaps gone to its peer. -/
theorem spreadSeed_asking (s : State) {p : Nat} (hp : p < 16) : Asking s (s.spreadSeed p) ∧
    ((s.spreadSeed p).port p).peerNonce = (s.port p).peerNonce ∧ ((s.spreadSeed p).port p).saidSeed = (s.port p).saidSeed := by
  unfold spreadSeed
  dsimp only
  split
  · split
    next k r _ _ _ =>
      have h1 := (Asking.draw s).trans (.setPort s.draw p (x := { s.port p with sentSeed := true }) rfl)
      have h2 := (sendAttest_sends (s.draw.setPort p { s.port p with sentSeed := true }) hp r.addr (.seed s.free (Config.sealSeed k s.free))).1
      have h3 : (s.draw.setPort p { s.port p with sentSeed := true }).port p = { s.port p with sentSeed := true } := port_setPort_same ..
      refine ⟨h1.trans (.of_sending h2), ?_, ?_⟩
      · exact (congrArg Port.peerNonce (h2.port p) :).trans (congrArg Port.peerNonce h3 :)
      · exact (congrArg Port.saidSeed (h2.port p) :).trans (congrArg Port.saidSeed h3 :)
    · exact ⟨.refl s, rfl, rfl⟩
  · exact ⟨.refl s, rfl, rfl⟩

end State

section
variable {s : State} {p a : Nat}

/-- A port that answers a REQ. -/
def answering (s : State) (p nonce : Nat) : State :=
  (s.draw).setPort p { s.port p with peerNonce := some nonce, saidSeed := s.seed.isSome, sentSeed := false }

/-- The device once the answer to a REQ is on its way (R405). -/
def reported (s : State) (p a nonce : Nat) : State :=
  let u := (answering s p nonce).sendAttest p a (.report (s.report nonce s.free) s.cru.amends)
  { u with cru := { u.cru with claimNonce := some nonce } }

/-- The device asks in its turn where it has not (R414). -/
def askedBack (u : State) (p a : Nat) : State :=
  if (u.port p).attNonce.isNone && (u.port p).attReport.isNone && (u.inJob || u.get Reg.netStatusState == 3) then u.sendReq p a else u

theorem attestReq_of (hl : linkPeer s p = some a) (halive : s.alive = true) (nonce : Nat) : exec (.attestReq p nonce) s =
    .next ((askedBack (reported s p a nonce) p a).spreadSeed p) := by
  show execAttestReq p nonce s = _
  unfold execAttestReq
  rw [hl]
  exact if_neg (by simp [halive])

/-- What the answer leaves, and what of it has gone out. -/
theorem answered_of (hp : p < 12) (a nonce : Nat) :
    let t := reported s p a nonce
    let m := AttMsg.report (s.report nonce s.free) s.cru.amends
    SameRegsOut [] s t ∧ { t with regs := s.regs, ports := s.ports, cru := s.cru, out := s.out, freeCtr := s.freeCtr } = s ∧ Carries s t ∧
      t.cru = { s.cru with claimNonce := some nonce } ∧ (t.port p).peerNonce = some nonce ∧ (t.port p).saidSeed = s.seed.isSome ∧
      (t.port p).attNonce = (s.port p).attNonce ∧ (t.port p).attReport = (s.port p).attReport ∧ t.inJob = s.inJob ∧
      t.get Reg.netStatusState = s.get Reg.netStatusState ∧
      ∀ i, i < max 1 (ceilDiv m.bytes 1016) → Sends s t p (.attest m i (max 1 (ceilDiv m.bytes 1016))) := by
  intro t m
  have hp16 : p < 16 := by omega
  have h1 : Asking s (answering s p nonce) := (Asking.draw s).trans (.setPort s.draw p rfl)
  have hport : (answering s p nonce).port p = { s.port p with peerNonce := some nonce, saidSeed := s.seed.isSome, sentSeed := false } :=
    State.port_setPort_same ..
  have hget : (answering s p nonce).get Reg.netStatusState = s.get Reg.netStatusState := rfl
  obtain ⟨h2, hfrags⟩ := (answering s p nonce).sendAttest_sends hp16 a m
  have ht : t = { (answering s p nonce).sendAttest p a m with
    cru := { ((answering s p nonce).sendAttest p a m).cru with claimNonce := some nonce } } := rfl
  rw [ht]
  have h3 := h1.trans (.of_sending h2)
  have hsent := h2.port p
  have hstate : ((answering s p nonce).sendAttest p a m).get Reg.netStatusState = (answering s p nonce).get Reg.netStatusState :=
    State.get_of_sending h2 (by decide) fun q v _ _ => by
      have h4 : (Reg.fabVcTxPkts q v).key = (0x100000 + 0x1000 * q + 0x204 + 0x10 * v) * 32 + 0 := rfl
      have h5 : Reg.netStatusState.key = (0x100000 + 0xC004) * 32 + 16 := rfl
      omega
  generalize (answering s p nonce).sendAttest p a m = u at h2 h3 hfrags hsent hstate
  rw [hport] at hsent
  refine ⟨h3.regs, (congrArg (fun v : State => { v with cru := s.cru }) h3.rest :), h3.carries.trans (.of_ports List.prefix_rfl rfl),
    ?_, (congrArg Port.peerNonce hsent :), (congrArg Port.saidSeed hsent :), (congrArg Port.attNonce hsent :), (congrArg Port.attReport hsent :),
    ?_, hstate.trans hget, fun i hi => (hfrags i hi).from h1.carries.out h2.out⟩
  · exact (congrArg (fun v : State => { v.cru with claimNonce := some nonce }) h3.rest :)
  · exact (congrArg State.inJob h3.rest :)

theorem askedBack_of {u : State} (hp : p < 16) (a : Nat) : Asking u (askedBack u p a) ∧
    ((askedBack u p a).port p).peerNonce = (u.port p).peerNonce ∧ ((askedBack u p a).port p).saidSeed = (u.port p).saidSeed ∧
    ((u.port p).attNonce = none → (u.port p).attReport = none → u.inJob = true ∨ u.get Reg.netStatusState = 3 →
      ∃ n, ((askedBack u p a).port p).attNonce = some n ∧ Sends u (askedBack u p a) p (.attest (.req n) 0 1)) := by
  unfold askedBack
  split
  · have h := (u.sendReq_sending hp a).port p
    rw [State.asking_port] at h
    obtain ⟨h1, h2⟩ := u.sendReq_asks hp a
    exact ⟨u.sendReq_asking hp a, (congrArg Port.peerNonce h :), (congrArg Port.saidSeed h :), fun _ _ _ => ⟨_, h1, h2⟩⟩
  next hno =>
    refine ⟨.refl u, rfl, rfl, fun h1 h2 h3 => absurd ?_ hno⟩
    rcases h3 with h3 | h3 <;> simp [h1, h2, h3]

theorem attestReq_answers (hp : p < 12) (halive : s.alive = true) (hl : linkPeer s p = some a) (nonce : Nat) :
    ∃ t, exec (.attestReq p nonce) s = .next t ∧ (t.port p).peerNonce = some nonce ∧ (t.port p).saidSeed = s.seed.isSome ∧
      t.cru = { s.cru with claimNonce := some nonce } ∧ SameRegsOut [] s t ∧
      { t with regs := s.regs, ports := s.ports, cru := s.cru, out := s.out, freeCtr := s.freeCtr } = s ∧
      (∃ ek, let m := AttMsg.report (s.report nonce ek) s.cru.amends
        ∀ i, i < ceilDiv m.bytes 1016 → Sends s t p (.attest m i (ceilDiv m.bytes 1016))) ∧
      ((s.port p).attNonce = none → (s.port p).attReport = none → s.inJob = true ∨ s.get Reg.netStatusState = 3 →
        ∃ n, (t.port p).attNonce = some n ∧ Sends s t p (.attest (.req n) 0 1)) := by
  have hp16 : p < 16 := by omega
  refine ⟨_, attestReq_of hl halive nonce, ?_⟩
  obtain ⟨hregs, hrest, hcarries, hcru, hnonce, hsaid, hatt, hrep, hjob, hstate, hfrags⟩ := answered_of (s := s) hp a nonce
  generalize reported s p a nonce = u at *
  have hmid := askedBack_of (u := u) hp16 a
  generalize askedBack u p a = v at hmid ⊢
  obtain ⟨hask, hn, hs, hreq⟩ := hmid
  obtain ⟨hspread, hn', hs'⟩ := v.spreadSeed_asking hp16
  have hkeep := (v.spreadSeed_attests hp16).port p
  have hall := hask.trans hspread
  refine ⟨hn'.trans (hn.trans hnonce), hs'.trans (hs.trans hsaid), ?_, hregs.trans hall.regs, ?_, ⟨s.free, fun i hi => ?_⟩, fun h1 h2 h3 => ?_⟩
  · exact (congrArg State.cru hall.rest :).trans hcru
  · let kept : State → State := fun w => { w with regs := s.regs, ports := s.ports, cru := s.cru, out := s.out, freeCtr := s.freeCtr }
    exact (congrArg kept hall.rest :).trans hrest
  · have hmax : max 1 (ceilDiv (AttMsg.report (s.report nonce s.free) s.cru.amends).bytes 1016) =
        ceilDiv (AttMsg.report (s.report nonce s.free) s.cru.amends).bytes 1016 := by omega
    have h := hfrags i (by omega)
    rw [hmax] at h
    exact hall.carries.sends h hcarries.out (State.attestBody _ i _)
  · obtain ⟨n, h4, h5⟩ := hreq (hatt.trans h1) (hrep.trans h2) (h3.imp hjob.trans hstate.trans)
    exact ⟨n, hkeep.1.trans h4, (hspread.carries.sends h5 hask.carries.out (State.attestBody _ 0 1)).from hcarries.out
      hall.carries.out⟩

end

end Sys2Proof.Machine
end

section
/-! SUPPORT. Proofs: reports are judged, the seed is taken, and links are sealed (R310, R321, R412 to R415). -/

namespace Sys2Proof.Machine

/-! ## The verdict on a report (R414) -/

/-- A port whose peer's report has been judged, and counted. -/
def judged (u : State) (p : Nat) (rep : Option Report) (f : Fld) : State :=
  (u.setPort p { u.port p with attReport := rep, attNonce := none }).count f

/-- From `s` to `t` the verdict on the report at a port has been counted, and sent. -/
structure Judges (s t : State) (p : Nat) (rep : Option Report) (f : Fld) (m : AttMsg) : Prop where
  count : t.get f = min (s.get f + 1) (2 ^ f.w - 1)
  regs : SameRegsOut [f] s t
  rest : { t with regs := s.regs, ports := s.ports, out := s.out } = s
  port : (t.port p).attReport = rep ∧ (t.port p).attNonce = none
  reports : ∀ q, (t.port q).attReport = ((s.setPort p { s.port p with attReport := rep, attNonce := none }).port q).attReport
  carries : Carries s t
  sends : Sends s t p (.attest m 0 1)

theorem judged_judges (u : State) {p : Nat} (hp : p < 12) (a : Nat) (rep : Option Report) {f : Fld} (hf : TellsTrust f) (hw : 0 < f.w)
    {m : AttMsg} (hm : m.bytes ≤ 1016) : Judges u ((judged u p rep f).sendAttest p a m) p rep f m := by
  have hp16 : p < 16 := by omega
  have hcount : (judged u p rep f).get f = min (u.get f + 1) (2 ^ f.w - 1) :=
    (u.setPort p { u.port p with attReport := rep, attNonce := none }).count_counted hw
  have hregs : SameRegsOut [f] u (judged u p rep f) := fun g _ hn =>
    (u.setPort p { u.port p with attReport := rep, attNonce := none }).get_put_ne _ (hn f (List.mem_append_right _ List.mem_cons_self))
  have hrest : { judged u p rep f with regs := u.regs, ports := u.ports } = u := rfl
  have hports : ∀ q, (judged u p rep f).port q = (u.setPort p { u.port p with attReport := rep, attNonce := none }).port q := fun q => rfl
  have hport : (judged u p rep f).port p = { u.port p with attReport := rep, attNonce := none } := State.port_setPort_same ..
  have hcarries : Carries u (judged u p rep f) := (Carries.setPort u p (x := { u.port p with attReport := rep, attNonce := none }) rfl).trans (.of_ports List.prefix_rfl rfl)
  generalize judged u p rep f = v at *
  obtain ⟨hsend, -⟩ := v.sendAttest_sends hp16 a m
  have hone := v.sendAttest_one hp16 a hm
  generalize v.sendAttest p a m = t at hsend hone
  have hask := Asking.of_sending hsend
  have hsent := hsend.port p
  rw [hport] at hsent
  refine ⟨?_, fun g hg hn => ?_, (congrArg (fun w : State => { w with regs := u.regs, ports := u.ports, out := u.out }) hsend.rest :).trans
    (congrArg (fun w : State => { w with out := u.out }) hrest :), ⟨(congrArg Port.attReport hsent :), (congrArg Port.attNonce hsent :)⟩,
    fun q => ?_, hcarries.trans hask.carries, hone.from hcarries.out hask.carries.out⟩
  · rw [(Attests.of_sending hsend).regs f hf, hcount]
  · exact (hask.regs g hg fun k hk => hn k (List.mem_append_left _ (by simpa using hk))).trans (hregs g hg hn)
  · exact (congrArg Port.attReport (hsend.port q) :).trans (by rw [hports])

/-- The checks of the seed read the peers' reports, the seed and the billet. -/
theorem checksAgree_congr {s t : State} (hports : ∀ q, (t.port q).attReport = (s.port q).attReport) (hseed : t.seed = s.seed)
    (hbillet : t.billet = s.billet) : t.checksAgree = s.checksAgree := by
  unfold State.checksAgree State.peerReports State.jobCheck State.jobKey
  simp only [hports, hseed, hbillet]

section
variable {s : State} {p a n : Nat} {r : Report} {amends : List Amendment} {verified : Bool}

theorem attestReport_of (halive : s.alive = true) (hl : linkPeer s p = some a) (hn : (s.port p).attNonce = some n) :
    exec (.attestReport p r amends verified) s =
      if verified && (presented s amends verified).reportOk n r amends then
        if ((judged (presented s amends verified) p (some r) Reg.cruAttestOk).sendAttest p a .done).checksAgree then
          .next ((judged (presented s amends verified) p (some r) Reg.cruAttestOk).sendAttest p a .done).attestStep
        else .next (((judged (presented s amends verified) p (some r) Reg.cruAttestOk).sendAttest p a .done).refuseArm 0x71 0 srcCrucible)
      else .next (((judged (presented s amends verified) p none Reg.cruAttestFail).sendAttest p a .refuse).refuseArm 0x70 0 srcCrucible) := by
  show execAttestReport p r amends verified s = _
  unfold execAttestReport
  rw [hl, hn]
  exact if_neg (by simp [halive])

end

/-- The peer of a link is refused: its report has been judged in `s1`, which holds its amendments. -/
theorem peer_refused {s s1 : State} (ham : Amended s s1) {p : Nat} (hp : p < 12) (a : Nat) :
    let t := ((judged s1 p none Reg.cruAttestFail).sendAttest p a .refuse).refuseArm 0x70 0 srcCrucible
    t.get Reg.cruAttestFail = min (s.get Reg.cruAttestFail + 1) (2 ^ Reg.cruAttestFail.w - 1) ∧ (t.port p).attReport = none ∧
      (t.port p).attNonce = none ∧ Raised s1 t srcCrucible 0x70 clsU 0 ∧ Sends s t p (.attest .refuse 0 1) ∧ SameBytes s t ∧
      (s.runningOp ≠ some 0x0104 → SameRegsOut [Reg.cruAttestFail] s1 t ∧
        { t with regs := s1.regs, ports := s1.ports, out := s1.out, faultQ := s1.faultQ } = s1) ∧
      (∀ y, RunningCmd s y → y.opcode = 0x0104 → t.get Reg.netStatusState = 0 ∧
        Finished s t y rcRefused (State.msgBytes (s.faultMsg srcCrucible 0x70 clsU 0 false))) := by
  obtain ⟨-, hout, hmbx, hjnl, hcad, hmems, -, hop⟩ := ham.keeps
  have hj := judged_judges s1 hp a none (f := Reg.cruAttestFail) (m := .refuse) (by decide) (by decide) (by decide)
  generalize (judged s1 p none Reg.cruAttestFail).sendAttest p a .refuse = u at hj
  have href := u.refuseArm_refuses 0x70 0 srcCrucible
  have humbx : u.mbx = s1.mbx := (congrArg State.mbx hj.rest :)
  have hujnl : u.jnl = s1.jnl := (congrArg State.jnl hj.rest :)
  have hucad : u.cad = s1.cad := (congrArg State.cad hj.rest :)
  have humems : u.mems = s1.mems := (congrArg State.mems hj.rest :)
  have huop : u.runningOp = s.runningOp := by
    rw [← hop]
    unfold State.runningOp State.slot?
    rw [humbx]
  have hraised := u.refuseArm_raised (kind := 0x70) (.inr (by decide)) 0 srcCrucible
  have hport := href.port p
  refine ⟨?_, by rw [hport]; exact hj.port.1, by rw [hport]; exact hj.port.2, hraised.of_same (congrArg State.faultQ hj.rest :) hucad, ?_,
    .of_sameMems (href.mems.trans (humems.trans hmems)), fun hne => ?_, fun y hy hyop => ?_⟩
  · rw [href.regs _ (by decide), hj.count, ham.regs _ (by decide)]
  · exact (href.carries.sends hj.sends hj.carries.out (State.attestBody _ 0 1)).from (hout ▸ List.prefix_rfl)
      (hj.carries.out.trans href.carries.out)
  · rw [State.refuseArm_idle (by rw [huop]; exact hne) (.inr (by decide))]
    refine ⟨fun f hf hn => ((Routed.raise u srcCrucible 0x70 clsU 0).regs f hf fun g hg => hn g ?_).trans (hj.regs f hf hn), ?_⟩
    · exact List.mem_append_left _ (by simpa using hg)
    · exact (congrArg (fun v : State => { v with regs := s1.regs, ports := s1.ports, out := s1.out, faultQ := s1.faultQ })
        (u.raise_rest srcCrucible 0x70 clsU 0) :).trans (congrArg (fun v : State => { v with faultQ := s1.faultQ }) hj.rest :)
  · exact State.refuseArm_finished hy hyop (humbx.trans hmbx) (hujnl.trans hjnl) (hucad.trans hcad) 0x70 0 srcCrucible

/-- What follows an accepted report: the next step of the attestation, or the refusal of seeds that differ. -/
def acceptedStep (u : State) : State := if u.checksAgree then u.attestStep else u.refuseArm 0x71 0 srcCrucible

/-- In both what the port shows stands, and what was sent. -/
theorem acceptedStep_of (u : State) : (acceptedStep u).get Reg.cruAttestOk = u.get Reg.cruAttestOk ∧ (acceptedStep u).mems = u.mems ∧
    (∀ q, KeepsPeer (u.port q) ((acceptedStep u).port q)) ∧ Carries u (acceptedStep u) := by
  unfold acceptedStep
  split
  · have h := u.attestStep_draws
    exact ⟨h.regs _ (by decide) (by decide) (by decide), h.mems, h.port, h.carries⟩
  · have h := u.refuseArm_refuses 0x71 0 srcCrucible
    refine ⟨h.regs _ (by decide), h.mems, fun q => ?_, h.carries⟩
    rw [h.port]
    exact ⟨rfl, rfl, rfl⟩

/-- The peer of a link is accepted. -/
theorem peer_accepted {s s1 : State} (ham : Amended s s1) {p : Nat} (hp : p < 12) (a : Nat) (r : Report) :
    let t := acceptedStep ((judged s1 p (some r) Reg.cruAttestOk).sendAttest p a .done)
    t.get Reg.cruAttestOk = min (s.get Reg.cruAttestOk + 1) (2 ^ Reg.cruAttestOk.w - 1) ∧ (t.port p).attReport = some r ∧
      (t.port p).attNonce = none ∧ Sends s t p (.attest .done 0 1) ∧ SameBytes s t ∧
      ((s1.setPort p { s1.port p with attReport := some r, attNonce := none }).checksAgree = false → s.runningOp ≠ some 0x0108 →
        Raised s1 t srcCrucible 0x71 clsU 0) := by
  obtain ⟨-, hout, -, -, -, hmems, -, hop⟩ := ham.keeps
  have hj := judged_judges s1 hp a (some r) (f := Reg.cruAttestOk) (m := .done) (by decide) (by decide) (by decide)
  generalize (judged s1 p (some r) Reg.cruAttestOk).sendAttest p a .done = u at hj
  obtain ⟨hcount, hkeep, hports, hcarries⟩ := acceptedStep_of u
  obtain ⟨hatt, hrep, -⟩ := hports p
  refine ⟨?_, hrep.trans hj.port.1, hatt.trans hj.port.2, ?_, .of_sameMems ?_, fun hdiffer hrun => ?_⟩
  · rw [hcount, hj.count, ham.regs _ (by decide)]
  · exact (hcarries.sends hj.sends hj.carries.out (State.attestBody _ 0 1)).from (hout ▸ List.prefix_rfl)
      (hj.carries.out.trans hcarries.out)
  · exact hkeep.trans ((congrArg State.mems hj.rest :).trans hmems)
  · have hagree : u.checksAgree = false := by
      rw [← hdiffer]
      exact checksAgree_congr hj.reports (congrArg State.seed hj.rest :) (congrArg State.billet hj.rest :)
    have huop : u.runningOp = s.runningOp := by
      have humbx : u.mbx = s1.mbx := (congrArg State.mbx hj.rest :)
      rw [← hop]
      unfold State.runningOp State.slot?
      rw [humbx]
    unfold acceptedStep
    rw [hagree, if_neg (by decide)]
    have hraised := u.refuseArm_raised (kind := 0x71) (.inl (by rw [huop]; exact hrun)) 0 srcCrucible
    exact hraised.of_same (congrArg State.faultQ hj.rest :) (congrArg State.cad hj.rest :)

/-! ## The seed (R415) -/

theorem holdsSeed_of {s : State} {b : Billet} (hb : s.billet = some b) (k parent : Nat) :
    let t := (s.holdSeed k parent).tellSeed.attestStep
    t.seed = some k ∧ t.get Reg.cruStatusSeedHeld = 1 ∧ t.get Reg.cruSeedParent = parent % 2 ^ Reg.cruSeedParent.w ∧
      t.cru = { s.cru with wrapped := some (b.jobId, b.digest, k) } ∧
      (∀ q r', q < 12 → (s.port q).attReport = some r' → r'.seedHeld = false → Sends s t q (.attest .done 0 1)) ∧ SameBytes s t := by
  obtain ⟨hseed, hcru, hheld, -, hrest⟩ := holdSeed_of hb k parent
  have hparent : (s.holdSeed k parent).get Reg.cruSeedParent = parent % 2 ^ Reg.cruSeedParent.w := State.get_put_same ..
  generalize s.holdSeed k parent = u at hseed hcru hheld hrest hparent
  obtain ⟨hsend, htold⟩ := u.tellSeed_sends
  generalize u.tellSeed = v at hsend htold
  have hvseed : v.seed = some k := (congrArg State.seed hsend.rest :).trans hseed
  have hatt := State.attestStep_held (s := v) (by rw [hvseed]; rfl)
  have hsent := Attests.of_sending hsend
  have hports : u.ports = s.ports := (congrArg State.ports hrest :)
  have hout : u.out = s.out := (congrArg State.out hrest :)
  refine ⟨(congrArg State.seed hatt.rest :).trans hvseed, ?_, ?_, ?_, fun q r' hq hr hh => ?_, .of_sameMems ?_⟩
  · rw [hatt.regs _ (by decide), hsent.regs _ (by decide), hheld]
  · rw [hatt.regs _ (by decide), hsent.regs _ (by decide), hparent]
  · exact (congrArg State.cru hatt.rest :).trans ((congrArg State.cru hsend.rest :).trans hcru)
  · have hport : u.port q = s.port q := congrArg (fun l => Assoc.get Port.init l q) hports
    have h := htold q r' hq (by rw [hport]; exact hr) hh
    exact (hatt.carries.sends h hsend.out (State.attestBody _ 0 1)).from (hout ▸ List.prefix_rfl) (hsend.out.trans hatt.carries.out)
  · exact hatt.mems.trans (hsent.mems.trans (congrArg State.mems hrest :))

section
variable {s : State} {p a : Nat}

theorem attestSeed_voids (k : Nat) (o : Bool) (h : s.seed.isSome = true ∨ (s.port p).attReport = none) :
    exec (.attestSeed p k o) s = .next s := by
  show execAttestSeed p k o s = _
  unfold execAttestSeed
  split
  next a' r' b' hl hr hb =>
    refine if_pos ?_
    rcases h with h | h
    · simp [h]
    · rw [h] at hr
      cases hr
  · rfl

theorem attestSeed_of {r : Report} {b : Billet} (halive : s.alive = true) (hl : linkPeer s p = some a) (hr : (s.port p).attReport = some r)
    (hb : s.billet = some b) (hseed : s.seed = none) (hheld : r.seedHeld = true)
    (hlow : ∀ q ∈ s.peerReports, q.seedHeld = true → r.addr ≤ q.addr) (seed : Nat) (opened : Bool) :
    exec (.attestSeed p seed opened) s = if opened && Config.jobCheck (Config.jobKey seed b.jobId b.digest) == r.jobCheck then
      .next ((s.holdSeed seed r.addr).tellSeed).attestStep else .next ((s.raise srcCrucible 0x70 clsU 0).sendReq p a) := by
  show execAttestSeed p seed opened s = _
  unfold execAttestSeed
  rw [hl, hr, hb]
  refine if_neg ?_
  have hany : (s.peerReports.any fun q => q.seedHeld && decide (q.addr < r.addr)) = false := by
    refine List.any_eq_false.mpr fun q hq hc => ?_
    simp only [Bool.and_eq_true, decide_eq_true_eq] at hc
    have := hlow q hq hc.1
    omega
  rw [hany]
  simp [halive, hseed, hheld]

/-- A seed that does not agree is raised, and the parent is asked again. -/
theorem seedAgain_of (hp : p < 12) (s : State) (a : Nat) : let t := (s.raise srcCrucible 0x70 clsU 0).sendReq p a
    Raised s t srcCrucible 0x70 clsU 0 ∧ SameRegsOut [] s t ∧ (∃ n, (t.port p).attNonce = some n ∧ Sends s t p (.attest (.req n) 0 1)) ∧
      { t with regs := s.regs, ports := s.ports, out := s.out, faultQ := s.faultQ, freeCtr := s.freeCtr } = s := by
  have hp16 : p < 16 := by omega
  have hrest := s.raise_rest srcCrucible 0x70 clsU 0
  have hregs := (Routed.raise s srcCrucible 0x70 clsU 0).regs
  have hraised : Raised s (s.raise srcCrucible 0x70 clsU 0) srcCrucible 0x70 clsU 0 := .raise _ _ _ _ _
  generalize s.raise srcCrucible 0x70 clsU 0 = u at hrest hregs hraised
  have hask := u.sendReq_asking hp16 a
  obtain ⟨h1, h2⟩ := u.sendReq_asks hp16 a
  have hout : u.out = s.out := (congrArg State.out hrest :)
  refine ⟨hraised.of_faultQ (congrArg State.faultQ hask.rest :), hregs.trans hask.regs, ⟨_, h1, h2.from (hout ▸ List.prefix_rfl) hask.carries.out⟩, ?_⟩
  let kept : State → State := fun v => { v with regs := s.regs, ports := s.ports, out := s.out, faultQ := s.faultQ, freeCtr := s.freeCtr }
  exact (congrArg kept hask.rest :).trans (congrArg kept hrest :)

/-! ## DONE and REFUSE (R413, R414) -/

/-- A port whose peer has accepted this device. -/
def peerDone (s : State) (p : Nat) : State := s.setPort p { s.port p with peerDone := true }

theorem attestDone_of (hp : p < 12) (halive : s.alive = true) (hl : linkPeer s p = some a) :
    ∃ t, exec (.attestDone p) s = .next t ∧ (t.port p).peerDone = true ∧ SameBytes s t ∧
      ((s.port p).peerDone = true → s.seed = none → ∃ n, (t.port p).attNonce = some n ∧ Sends s t p (.attest (.req n) 0 1)) := by
  have hp16 : p < 16 := by omega
  have hexec : exec (.attestDone p) s = if (s.port p).peerDone && s.seed.isNone then
      .next (peerDone ((peerDone s p).sendReq p a) p) else .next (peerDone s p).attestStep := by
    show execAttestDone p s = _
    unfold execAttestDone
    rw [hl]
    exact if_neg (by simp [halive])
  have hport : (peerDone s p).port p = { s.port p with peerDone := true } := State.port_setPort_same ..
  by_cases hagain : ((s.port p).peerDone && s.seed.isNone) = true
  · rw [if_pos hagain] at hexec
    have hask := (peerDone s p).sendReq_asking hp16 a
    obtain ⟨h1, h2⟩ := (peerDone s p).sendReq_asks hp16 a
    have hout : (peerDone s p).out = s.out := rfl
    have hmems : (peerDone s p).mems = s.mems := rfl
    generalize (peerDone s p).sendReq p a = u at hexec hask h1 h2
    generalize (peerDone s p).free % 2 ^ 256 = n at h1 h2
    have huport : (peerDone u p).port p = { u.port p with peerDone := true } := State.port_setPort_same ..
    have hset : Carries u (peerDone u p) := .setPort u p rfl
    refine ⟨_, hexec, by rw [huport], .of_sameMems ((congrArg State.mems hask.rest :).trans hmems), fun _ _ => ⟨n, ?_, ?_⟩⟩
    · rw [huport]
      exact h1
    · exact (hset.sends h2 hask.carries.out (State.attestBody _ 0 1)).from (hout ▸ List.prefix_rfl) (hask.carries.out.trans hset.out)
  · rw [if_neg hagain] at hexec
    have h := (peerDone s p).attestStep_draws
    refine ⟨_, hexec, (h.port p).2.2.trans (by rw [hport]), .of_sameMems h.mems, fun h1 h2 => absurd ?_ hagain⟩
    simp [h1, h2]

end

end Sys2Proof.Machine
end

section
/-! SUPPORT. Proofs: links are refused, sealed and adopted (R310, R321, R413). -/

namespace Sys2Proof.Machine

/-! ## REFUSE (R413, R414) -/

/-- A port whose peer refuses this device. -/
def peerRefuses (s : State) (p : Nat) : State := s.setPort p { s.port p with peerDone := false, attNonce := none }

section
variable {s : State} {p : Nat}

theorem attestRefuse_of (hp : p < 12) (halive : s.alive = true) : exec (.attestRefuse p) s =
    if (peerRefuses s p).runningOp = some 0x0104 then
      .next (((peerRefuses s p).put Reg.netStatusState 0).finishRunning rcRefused (List.replicate 16 0))
    else .next (peerRefuses s p) := by
  refine if_neg ?_
  simp only [halive, Bool.not_true, Bool.or_false, decide_eq_true_eq]
  omega

theorem attestRefuse_idle (hp : p < 12) (halive : s.alive = true) (h : s.runningOp ≠ some 0x0104) :
    exec (.attestRefuse p) s = .next (peerRefuses s p) := (attestRefuse_of hp halive).trans (if_neg h)

/-- A command that runs completes, of a device that still holds its slot. -/
theorem finishRunning_of {u : State} {y : Slot} (h : RunningCmd u y) (code : Nat) (result : List Byte) :
    u.finishRunning code result = u.finish y code result := by
  obtain ⟨h1, h2⟩ := h
  unfold State.finishRunning
  rw [h1]
  dsimp only
  rw [h2]

theorem attestRefuse_running (hp : p < 12) (halive : s.alive = true) {y : Slot} (hy : RunningCmd s y) (hop : y.opcode = 0x0104) :
    ∃ t, exec (.attestRefuse p) s = .next t ∧ t.port p = { s.port p with peerDone := false, attNonce := none } ∧
      t.get Reg.netStatusState = 0 ∧ Finished s t y rcRefused (List.replicate 16 0) ∧ SameBytes s t := by
  have hexec := attestRefuse_of hp halive
  have hrun : (peerRefuses s p).runningOp = some 0x0104 := (State.runningOp_of hy).trans (congrArg some hop)
  rw [if_pos hrun, finishRunning_of (u := (peerRefuses s p).put Reg.netStatusState 0) hy] at hexec
  have hport : ((peerRefuses s p).put Reg.netStatusState 0).port p = { s.port p with peerDone := false, attNonce := none } :=
    State.port_setPort_same ..
  have hget : ((peerRefuses s p).put Reg.netStatusState 0).get Reg.netStatusState = 0 := State.get_put_same ..
  have hkept : { (peerRefuses s p).put Reg.netStatusState 0 with regs := s.regs, ports := s.ports } = s := rfl
  generalize (peerRefuses s p).put Reg.netStatusState 0 = u at *
  have hmbx : u.mbx = s.mbx := (congrArg State.mbx hkept :)
  have hrest := u.finish_rest y (code := rcRefused) (List.replicate 16 0) (by decide)
  have hslots : SameSlots s u := ⟨by rw [hmbx], by rw [hmbx], by rw [hmbx], by rw [hmbx], (congrArg State.jnl hkept :)⟩
  have hfin := State.finish_finished hslots hy.2 (code := rcRefused) (by decide) (List.replicate 16 0)
  generalize u.finish y rcRefused (List.replicate 16 0) = t at hexec hrest hfin
  refine ⟨t, hexec, ?_, ?_, hfin, .of_sameMems ?_⟩
  · exact (congrArg (fun v : State => v.port p) hrest :).trans hport
  · exact (State.get_of_regs (congrArg State.regs hrest :) _).trans hget
  · exact (congrArg State.mems hrest :).trans (congrArg State.mems hkept :)

/-! ## SEAL_HELLO (R310) -/

/-- A register of a port's word before a link is sealed, or of the device's address. -/
theorem State.get_sendHello (s : State) (hp : p < 16) {q o : Nat} {f : Fld} (ha : f.addr = 0x100000 + 0x1000 * q + o)
    (ho : o < 0x30 ∨ 0x244 ≤ o ∧ o < 0x1000) (hlo : f.lo < 32) : (s.sendHello p).get f = s.get f := by
  have h1 : (s.sendHello p).get f = (s.beginSeal p).get f := get_word_of_sending (sendOn_sending (s.beginSeal p) hp _).1 ha (by omega) hlo
  rw [h1]
  have h3 : (Reg.fabSealState p).key = (0x100000 + 0x1000 * p + 0x240) * 32 + 0 := rfl
  have h4 : f.key = f.addr * 32 + f.lo := rfl
  exact s.draw.get_put_ne 1 (f := Reg.fabSealState p) (g := f) (by omega)

/-- The device that has its own random bytes for a link. -/
def helloed (s : State) (p : Nat) : State := if s.get (Reg.fabSealState p) = 1 then s else s.sendHello p

/-- What of the link and of the device is the same once it has its random bytes. -/
structure SameLink (s t : State) (p : Nat) : Prop where
  rest : { t with regs := s.regs, ports := s.ports, out := s.out, freeCtr := s.freeCtr } = s
  peer : linkPeer t p = linkPeer s p
  key : sealKey t p = sealKey s p
  port : t.get (Reg.fabPeerPort p) = s.get (Reg.fabPeerPort p)
  addr : t.addr = s.addr
  carries : Carries s t

theorem helloed_same (s : State) (hp : p < 12) : SameLink s (helloed s p) p := by
  unfold helloed
  split
  · exact ⟨rfl, rfl, rfl, rfl, rfl, .refl s⟩
  have hp16 : p < 16 := by omega
  have hup : (s.sendHello p).portUp p = s.portUp p := by
    unfold State.portUp
    rw [s.get_sendHello hp16 (q := p) (f := Reg.fabCtrlMode p) (o := 0) rfl (by decide) (show 1 < 32 by decide),
      s.get_sendHello hp16 (q := p) (f := Reg.fabStatusState p) (o := 4) rfl (by decide) (show 0 < 32 by decide)]
  have hdigest : (s.sendHello p).peerDigest p = s.peerDigest p := by
    unfold State.peerDigest State.get64
    rw [s.get_sendHello hp16 (q := p) (f := Reg.fabPeerSerialLo p) (o := 0x14) rfl (by decide) (show 0 < 32 by decide),
      s.get_sendHello hp16 (q := p) (f := Reg.fabPeerSerialHi p) (o := 0x18) rfl (by decide) (show 0 < 32 by decide)]
  have hport : (s.sendHello p).get (Reg.fabPeerPort p) = s.get (Reg.fabPeerPort p) :=
    s.get_sendHello hp16 (q := p) (o := 0x10) rfl (by decide) (show 16 < 32 by decide)
  have haddr : (s.sendHello p).addr = s.addr :=
    s.get_sendHello hp16 (f := Reg.netStatusAddr) (q := 12) (o := 4) rfl (by decide) (by decide)
  have hatt := s.sendHello_attests hp16
  have hrest : { s.sendHello p with regs := s.regs, ports := s.ports, out := s.out, freeCtr := s.freeCtr } = s := by
    rw [State.sendHello_eq]
    have hbegin : { s.beginSeal p with regs := s.regs, ports := s.ports, out := s.out, freeCtr := s.freeCtr } = s := rfl
    have hsend := ((s.beginSeal p).sendOn_sending hp16 ((s.beginSeal p).newPacket 9 true 0 0 0 (.hello (s.free % 2 ^ 64)))).1
    generalize s.beginSeal p = u at hbegin hsend ⊢
    let kept : State → State := fun v => { v with regs := s.regs, ports := s.ports, out := s.out, freeCtr := s.freeCtr }
    exact (congrArg kept hsend.rest :).trans hbegin
  generalize s.sendHello p = u at hup hdigest hport haddr hatt hrest
  have hbillet : u.billet = s.billet := (congrArg State.billet hrest :)
  have hmember : u.memberOf (u.peerDigest p) = s.memberOf (s.peerDigest p) := by
    rw [hdigest]
    exact (congrArg (fun v : State => v.memberOf (s.peerDigest p)) hrest :)
  have hjob : u.jobKey = s.jobKey := (congrArg State.jobKey hrest :)
  have hfeeders : u.blm = s.blm := (congrArg State.blm hrest :)
  refine ⟨hrest, ?_, ?_, hport, haddr, hatt.carries⟩
  · unfold linkPeer
    rw [hup, hmember]
  · unfold sealKey
    rw [hbillet, hmember, hjob, hfeeders]

/-- A link with its keys (R310). -/
def sealedPort (u : State) (p random : Nat) : State :=
  let x := u.port p
  let key := (sealKey u p).getD 0
  let mine := (u.addr, p, x.myRandom.getD 0)
  let peer := ((linkPeer u p).getD 0, u.get (Reg.fabPeerPort p), random % 2 ^ 64)
  (u.setPort p { x with peerRandom := some (random % 2 ^ 64), txNonce := 0, rxNonce := none
                        txKey := linkKey key mine peer, rxKey := linkKey key peer mine, jobDown := false }).put (Reg.fabSealState p) 2

theorem sealedPort_carries (u : State) (p random : Nat) : Carries u (sealedPort u p random) := by
  refine .of_ready List.prefix_rfl fun q k hk => ?_
  unfold sealedPort
  show k ∈ ((u.setPort p _).port q).ready
  by_cases h : q = p
  · rw [h] at hk ⊢
    rw [State.port_setPort_same]
    exact hk
  · rw [State.port_setPort_ne _ _ h]
    exact hk

theorem sendRecords_sending (s : State) (hp : p < 16) : Sending s (sendRecords s p) := by
  unfold sendRecords
  split
  · exact .foldl (fun t r => (t.sendOn_sending hp _).1) _ s
  · exact .refl s

theorem sealHello_of (random key : Nat) (halive : s.alive = true) (hup : s.portUp p = true) (hkey : sealKey s p = some key)
    (hseal : s.flag Reg.netCtrlSeal = true) :
    exec (.sealHello p random) s = .next ((sendRecords ((sealedPort (helloed s p) p random).pumpAll p) p).advanceSeal) :=
  if_neg (by simp [halive, hup, hkey, hseal])

theorem sealHello_seals (hp : p < 12) (halive : s.alive = true) (random key : Nat) (hup : s.portUp p = true) (hkey : sealKey s p = some key)
    (hseal : s.flag Reg.netCtrlSeal = true) :
    let peer := ((linkPeer s p).getD 0, s.get (Reg.fabPeerPort p), random % 2 ^ 64)
    ∃ t n, exec (.sealHello p random) s = .next t ∧ t.get (Reg.fabSealState p) = 2 ∧ (t.port p).peerRandom = some (random % 2 ^ 64) ∧
      (t.port p).rxNonce = none ∧ (t.port p).jobDown = false ∧ SameBytes s t ∧
      (t.port p).txKey = linkKey key (s.addr, p, n) peer ∧ (t.port p).rxKey = linkKey key peer (s.addr, p, n) ∧
      (s.get (Reg.fabSealState p) = 1 → n = (s.port p).myRandom.getD 0 ∧ (t.port p).myRandom = (s.port p).myRandom) ∧
      (s.get (Reg.fabSealState p) ≠ 1 → (t.port p).myRandom = some n ∧ Sends s t p (.hello n)) := by
  have hp16 : p < 16 := by omega
  have hsame := helloed_same s hp
  have hexec := sealHello_of random key halive hup hkey hseal
  have hfirst : s.get (Reg.fabSealState p) = 1 → helloed s p = s := fun h => if_pos h
  have hlater : s.get (Reg.fabSealState p) ≠ 1 →
      ((helloed s p).port p).myRandom = some (s.free % 2 ^ 64) ∧ Sends s (helloed s p) p (.hello (s.free % 2 ^ 64)) := fun h => by
    have he : helloed s p = s.sendHello p := if_neg h
    rw [he]
    exact (s.sendHello_sends hp16).2
  generalize helloed s p = u at hsame hexec hfirst hlater
  have hstate : (sealedPort u p random).get (Reg.fabSealState p) = 2 := State.get_put_same ..
  have hport : (sealedPort u p random).port p = { u.port p with
      peerRandom := some (random % 2 ^ 64), txNonce := 0, rxNonce := none
      txKey := linkKey key (u.addr, p, (u.port p).myRandom.getD 0) ((linkPeer u p).getD 0, u.get (Reg.fabPeerPort p), random % 2 ^ 64)
      rxKey := linkKey key ((linkPeer u p).getD 0, u.get (Reg.fabPeerPort p), random % 2 ^ 64) (u.addr, p, (u.port p).myRandom.getD 0)
      jobDown := false } := by
    rw [← show (sealKey u p).getD 0 = key by rw [hsame.key, hkey, Option.getD_some]]
    exact State.port_setPort_same ..
  have hmems : (sealedPort u p random).mems = u.mems := rfl
  have hcarries := sealedPort_carries u p random
  generalize sealedPort u p random = v at hexec hstate hport hmems hcarries
  have hadv : Advances v ((sendRecords (v.pumpAll p) p).advanceSeal) :=
    ((Advances.of_sending (v.pumpAll_sending hp16)).trans (.of_sending (sendRecords_sending _ hp16))).trans (State.advanceSeal_advances _)
  generalize (sendRecords (v.pumpAll p) p).advanceSeal = t at hexec hadv
  have hsent := hadv.port p
  rw [hport] at hsent
  have hkeys := hsame.addr
  refine ⟨t, (u.port p).myRandom.getD 0, hexec, ?_, (congrArg Port.peerRandom hsent :), (congrArg Port.rxNonce hsent :),
    (congrArg Port.jobDown hsent :), .of_sameMems ?_, ?_, ?_, fun h => ?_, fun h => ?_⟩
  · have h3 : (Reg.fabSealState p).key = (0x100000 + 0x1000 * p + 0x240) * 32 + 0 := rfl
    refine (hadv.regs _ ?_ fun g hg => ?_).trans hstate
    · omega
    · rcases List.mem_append.mp hg with hg | hg
      · rcases List.mem_cons.mp hg with rfl | hg
        · have h4 : Reg.netAltroute.key = (0x100000 + 0xC030) * 32 := rfl
          omega
        · obtain ⟨q, -, hg⟩ := List.mem_flatMap.mp hg
          obtain ⟨v, hv, rfl⟩ := List.mem_map.mp hg
          have := List.mem_range.mp hv
          have h4 : (Reg.fabVcTxPkts q v).key = (0x100000 + 0x1000 * q + 0x204 + 0x10 * v) * 32 + 0 := rfl
          omega
      · have hkey : g.key < 0x100000 * 32 ∨ g.key = Reg.netStatusState.key := by
          revert g
          decide
        have h4 : Reg.netStatusState.key = (0x100000 + 0xC004) * 32 + 16 := rfl
        omega
  · exact (congrArg State.mems hadv.rest :).trans (hmems.trans (congrArg State.mems hsame.rest :))
  · rw [← hsame.addr, ← hsame.peer, ← hsame.port]
    exact (congrArg Port.txKey hsent :)
  · rw [← hsame.addr, ← hsame.peer, ← hsame.port]
    exact (congrArg Port.rxKey hsent :)
  · rw [hfirst h] at hsent ⊢
    exact ⟨rfl, (congrArg Port.myRandom hsent :)⟩
  · obtain ⟨h1, h2⟩ := hlater h
    refine ⟨(congrArg Port.myRandom hsent :).trans (by rw [h1]; rfl), ?_⟩
    rw [h1]
    exact (hcarries.trans hadv.carries).sends h2 hsame.carries.out fun _ _ _ h => by cases h

end

/-- Settles O43: each message of attestation by its rule; what was sent stays sent in the steps that follow (`Carries`). -/
theorem linksAttestAndSeal : Obligations.LinksAttestAndSeal := by
  unfold Obligations.LinksAttestAndSeal
  intro s p hp halive x
  refine ⟨fun hl => ?_, fun a hl => ⟨attestReq_answers hp halive hl, fun r amends verified hn => ?_, fun n r amends verified hn => ⟨?_, ?_⟩,
    attestSeed_voids, fun r b seed opened hr hb hseed hheld hlow => ⟨?_, ?_⟩, attestDone_of hp halive hl⟩, attestRefuse_idle hp halive,
    fun y => attestRefuse_running hp halive, fun random h => if_pos ?_, fun random key => sealHello_seals hp halive random key,
    fun hnone => ?_, fun a ha => ?_⟩
  · refine ⟨fun nonce => ?_, fun r l v => ?_, fun k o => ?_, ?_⟩
    · show execAttestReq p nonce s = _
      unfold execAttestReq
      rw [hl]
      rfl
    · show execAttestReport p r l v s = _
      unfold execAttestReport
      rw [hl]
      rfl
    · show execAttestSeed p k o s = _
      unfold execAttestSeed
      rw [hl]
      rfl
    · show execAttestDone p s = _
      unfold execAttestDone
      rw [hl]
      rfl
  · show execAttestReport p r amends verified s = _
    unfold execAttestReport
    rw [hl, show (s.port p).attNonce = none from hn]
    rfl
  · intro hbad
    change ¬ (verified = true ∧ (presented s amends verified).reportOk n r amends = true) at hbad
    have hexec := attestReport_of (r := r) (amends := amends) (verified := verified) halive hl hn
    exact ⟨_, hexec.trans (if_neg (by simpa using hbad)), peer_refused (presented_amended s amends verified) hp a⟩
  · intro hv hok s2
    subst hv
    change (presented s amends true).reportOk n r amends = true at hok
    have hexec := attestReport_of (r := r) (amends := amends) (verified := true) halive hl hn
    refine ⟨_, hexec.trans ((if_pos (by rw [hok]; rfl)).trans ?_), peer_accepted (presented_amended s amends true) hp a r⟩
    unfold acceptedStep
    split <;> rfl
  · intro hagree
    have hexec := attestSeed_of halive hl hr hb hseed hheld hlow seed opened
    exact ⟨_, hexec.trans (if_pos (by simpa using hagree)), holdsSeed_of hb seed r.addr⟩
  · intro hdiffer
    have hexec := attestSeed_of halive hl hr hb hseed hheld hlow seed opened
    exact ⟨_, hexec.trans (if_neg (by simpa using hdiffer)), seedAgain_of hp s a⟩
  · rcases h with h | h | h <;> simp [h]
  · show execAdopt p s = _
    unfold execAdopt
    rw [hnone]
    rfl
  · have hexec : exec (.adopt p) s = .next { s with net := { s.net with
        children := if s.net.children.contains a then s.net.children else s.net.children ++ [a] } } := by
      show execAdopt p s = _
      unfold execAdopt
      rw [ha]
      exact if_neg (by simp [halive])
    refine ⟨_, hexec, ?_, fun c => ?_, rfl⟩
    · dsimp only
      split
      next hmem => simpa using hmem
      · simp
    · dsimp only
      split
      next hmem =>
        rw [List.contains_iff_mem] at hmem
        exact ⟨.inl, fun h => h.elim id fun h => h ▸ hmem⟩
      · simp

end Sys2Proof.Machine
end

section
/-! SUPPORT. Proofs: the RESTORE entry of a core-reset device (R385, R450), refuted where a push that the reload runs counts in ING.GEN. -/

namespace Sys2Proof.Machine

/-- A push to a die so high that the counters of its Flux engine (R247) lie at ING.GEN. -/
def farPush : Push :=
  { group := 0, wfmt := 9, mx := false, dest := 1, die := 6016, rowLen := 1, first := 0, count := 1, dst := 0, stride := 4, cs := 0, img := 0 }

/-- A billet whose one push is that. -/
def farBillet : Billet := { Tests.bil with temper := { Tests.bil.temper with pushes := [farPush] } }

/-- A device back from a core reset, whose last domain of the core reach may leave reset and which holds that billet. -/
def reloadState : State :=
  { Tests.up with sys := { Tests.up.sys with held := [4] }, cad := { Cad.init with resume := some 0 }, billet := some farBillet }

/-- The same with its domain released. -/
def releasedState : State :=
  { reloadState with sys := { reloadState.sys with held := [], wasUp := insertNat 4 reloadState.sys.wasUp } }

/-- The same with its pushes run. -/
def pushedState : State := (releasedState.putCoreReach farBillet).rebuildPushes []

theorem reloadState_ready : reloadState.canRelease 4 = true ∧ 4 ∉ reloadState.sys.held.erase 4 ∧
    (∀ e ∈ coreReach, e = 4 ∨ reloadState.domUp e = true) ∧ reloadState.sys.booted = true ∧ reloadState.ingGen = 0 := by decide

theorem pushedState_counts : pushedState.ingGen = 4 ∧ pushedState.cad.resume = some 0 := by decide +kernel

/-- The reload of a device that resumes writes its RESTORE entry last. -/
theorem reload_of {s : State} {b : Billet} {a : Nat} (hb : s.billet = some b) {ecc : List EccRes}
    (ha : ((s.putCoreReach b).rebuildPushes ecc).cad.resume = some a) :
    s.reload ecc = ((s.putCoreReach b).rebuildPushes ecc).journalRestore 1 (stepOf a) ((s.putCoreReach b).rebuildPushes ecc).ingGen := by
  unfold State.reload
  rw [hb]
  dsimp only
  rw [ha]

theorem releasedState_up : (coreReach.contains 4 && releasedState.coreUp && releasedState.sys.booted) = true := by decide

theorem reloadState_released :
    ({ reloadState.dropSource (fun x => x.timed && x.domains.contains 4) with
      sys := { (reloadState.dropSource (fun x => x.timed && x.domains.contains 4)).sys with
        held := (reloadState.dropSource (fun x => x.timed && x.domains.contains 4)).sys.held.erase 4
        wasUp := insertNat 4 (reloadState.dropSource (fun x => x.timed && x.domains.contains 4)).sys.wasUp } } : State) = releasedState := rfl

theorem releasedState_rest : releasedState.onRelease 4 = releasedState := by
  simp [State.onRelease]

theorem domainRelease_of {s : State} {d : Nat} (h : s.canRelease d = true) (ecc : List EccRes) :
    exec (.domainRelease d ecc) s = .next (s.release d ecc) := if_pos h

theorem reloadState_release :
    exec (.domainRelease 4 []) reloadState = .next (pushedState.journalRestore 1 (stepOf 0) pushedState.ingGen) := by
  rw [domainRelease_of reloadState_ready.1]
  unfold State.release
  dsimp only
  rw [reloadState_released, releasedState_rest, if_pos releasedState_up, reload_of (b := farBillet) rfl pushedState_counts.2]
  unfold pushedState
  exact rfl

/-- A RESTORE entry stands last, and bytes 40 to 47 of its entry hold the generation. -/
theorem journalRestore_last (s : State) (kind step gen : Nat) :
    (s.journalRestore kind step gen).jnl.entries.getLast?.map JEntry.record =
      some (State.record 4 [(33, 1, kind), (36, 4, step), (40, 8, gen), (48, 16, (s.journalRestore kind step gen).jnl.resumeId)]) := by
  simp [State.journalRestore, State.journalInternal, State.journal]

/-- What a field adds to a journal record's value. -/
def recordField (f : Nat × Nat × Nat) : Nat := f.2.2 % 2 ^ (8 * f.2.1) * 2 ^ (8 * (f.1 - 32))

theorem record_four (kind : Nat) (a b c d : Nat × Nat × Nat) :
    State.record kind [a, b, c, d] = leBytes 32 (kind + (0 + recordField a + recordField b + recordField c + recordField d)) := rfl

theorem recordField_gen (gen : Nat) : recordField (40, 8, gen) = gen % 18446744073709551616 * 18446744073709551616 := by
  simp [recordField]

theorem recordField_id (id : Nat) : recordField (48, 16, id) = id % 2 ^ 128 * 18446744073709551616 * 18446744073709551616 := by
  simp [recordField, Nat.mul_assoc]

theorem leBytes_byte8 (v : Nat) : ((leBytes 32 v).getD 8 0).toNat = v / 18446744073709551616 % 256 := by
  simp [leBytes, Nat.div_div_eq_div_mul]

/-- Byte 8 of a RESTORE record is the lowest of its generation. -/
theorem restoreRecord_byte8 (gen id : Nat) :
    ((State.record 4 [(33, 1, 1), (36, 4, 0), (40, 8, gen), (48, 16, id)]).getD 8 0).toNat = gen % 256 := by
  rw [record_four, leBytes_byte8, recordField_gen, recordField_id]
  have hkind : recordField (33, 1, 1) = 256 := by decide
  have hstep : recordField (36, 4, 0) = 0 := by decide
  rw [hkind, hstep]
  generalize id % _ = r
  omega

/-- Refutes O55: the reload after a core reset runs the billet's pushes before it writes the RESTORE entry (R385). A push names its die
freely, and one to die 6016 counts its 4 bytes in the word of ING.GEN_LO, so that the entry names generation 4 where the statement has
the one before the release. -/
theorem not_resetsReachDomains : ¬ Obligations.ResetsReachDomains := by
  intro h
  obtain ⟨hcan, hheld, hothers, hbooted, hgen⟩ := reloadState_ready
  obtain ⟨-, -, -, -, -, -, -, hrelease⟩ := h reloadState
  obtain ⟨t, he, -, -, -, -, -, -, -, -, hreload⟩ := hrelease 4 [] hcan
  obtain ⟨id, hid, hentry⟩ := hreload (by decide) hheld (by decide) hothers hbooted farBillet 0 rfl rfl
  have hlast := journalRestore_last pushedState 1 (stepOf 0) pushedState.ingGen
  rw [reloadState_release] at he
  injection he with he
  rw [he, hid, pushedState_counts.1] at hlast
  have hrecord := congrArg (Option.map fun e : Nat × Nat × List Byte => e.2.2) hentry
  rw [Option.map_map] at hrecord
  rw [hgen] at hrecord
  have hbyte := congrArg (fun l : List Byte => (l.getD 8 0).toNat) (Option.some.inj (hlast.symm.trans hrecord))
  exact absurd ((restoreRecord_byte8 4 id).symm.trans (hbyte.trans (restoreRecord_byte8 0 id))) (by decide)

end Sys2Proof.Machine
end

section
/-! SUPPORT. Proofs: a NAK that ends a DEGRADE exchange (R287, R294), refuted where a lane that is no lane waits to join again. -/

namespace Sys2Proof.Machine

/-- A port whose DEGRADE frame, SEQ 9, waits for its ACK, and behind it the readmission of lane 65,536. -/
def waitingPort : Port := { Tests.busy with tell := true, readmit := [(65536, 0)] }

/-- The field that this readmission sets lies outside the fabric's registers and reads 1. -/
def setsFarLane (o : Host.Outcome State Fault Refusal) : Bool :=
  match o with
  | .next t => t.get (Reg.fabLaneSignal 2 65536) == 1
  | _ => false

theorem waitingPort_joins : setsFarLane (exec (.nak 2 9) (Tests.fab 2 waitingPort)) = true := by decide +kernel

theorem waitingPort_ready : (Tests.fab 2 waitingPort).portUp 2 = true ∧ (Tests.fab 2 waitingPort).get (Reg.fabLaneSignal 2 65536) = 0 ∧
    0x110000 * 32 ≤ (Reg.fabLaneSignal 2 65536).key ∧ ∀ g ∈ dropRegs ++ [], (Reg.fabLaneSignal 2 65536).key ≠ g.key := by decide

/-- Refutes O40: the ACK of a NAK ends the DEGRADE exchange, and the readmission that waited on it goes next (R294). Where the port holds one
of lane 65,536, the lane's STATUS lies outside the fabric's registers, of which the statement says that a NAK changes none. -/
theorem not_framesAndReplay : ¬ Obligations.FramesAndReplay := by
  intro h
  obtain ⟨hup, hzero, hkey, hother⟩ := waitingPort_ready
  obtain ⟨-, -, hnak, -⟩ := h _ 2 (by decide) hup
  obtain ⟨t, he, -, hfabric, -⟩ := hnak 9
  have hsets := waitingPort_joins
  rw [he] at hsets
  have hsame := hfabric.1 (Reg.fabLaneSignal 2 65536) (.inr hkey) hother
  unfold setsFarLane at hsets
  dsimp only at hsets
  rw [hsame, hzero] at hsets
  exact absurd hsets (by decide)

end Sys2Proof.Machine
end

section
/-! SUPPORT. Proofs: a port's frames (R284 to R287, R293): what one frame leaves, frames sent again, and what sending on one port leaves of
the others. -/

namespace Sys2Proof.Machine

/-! ## Other ports -/

/-- Only port `p` may differ. -/
structure OtherPorts (p : Nat) (s t : State) : Prop where
  port : ∀ q, q ≠ p → t.port q = s.port q

theorem OtherPorts.refl (p : Nat) (s : State) : OtherPorts p s s := ⟨fun _ _ => rfl⟩

theorem OtherPorts.trans {p : Nat} {r s t : State} (h : OtherPorts p r s) (k : OtherPorts p s t) : OtherPorts p r t :=
  ⟨fun q hq => (k.port q hq).trans (h.port q hq)⟩

theorem OtherPorts.of_ports {p : Nat} {s t : State} (h : t.ports = s.ports) : OtherPorts p s t :=
  ⟨fun q _ => congrArg (fun l => Assoc.get Port.init l q) h⟩

namespace State

theorem port_of_ports {s t : State} (h : t.ports = s.ports) (q : Nat) : t.port q = s.port q := congrArg (fun l => Assoc.get Port.init l q) h

theorem setPort_others (s : State) (p : Nat) (x : Port) : OtherPorts p s (s.setPort p x) := ⟨fun _ hq => port_setPort_ne s x hq⟩

/-! ## One frame -/

/-- The port once it has sent a frame. -/
def framePort (x : Port) (kind seq : Nat) : Port := { x with sinceIdle := nextSince x, lastData := if kind = 0 then seq else x.lastData }

/-- A frame goes out after the scheduled IDLE where that is due (R285). -/
theorem sendFrame_eq (s : State) (p kind : Nat) (nak : Bool) (seq : Nat) (pk : Option Packet) (part : Nat) :
    s.sendFrame p kind nak seq pk part = { s.setPort p (framePort (s.port p) kind seq) with
      out := s.out ++ withIdle s p (s.frameOut p kind nak seq pk part) } := by
  unfold sendFrame
  extract_lets x due s1 y
  by_cases h : 8191 ≤ x.sinceIdle
  · have hdue : due = true := decide_eq_true h
    have hy : y = framePort x kind seq := by
      simp only [y, framePort, nextSince, hdue, h, if_true]
    have hs1 : s1 = s.emit (s.frameOut p 1 false x.lastData none 0) := by simp only [s1, hdue, if_true]
    rw [hs1, hy]
    unfold withIdle
    rw [if_pos h]
    simp only [List.append_assoc, State.emit, State.setPort, List.singleton_append]
    rfl
  · have hdue : due = false := decide_eq_false h
    have hy : y = framePort x kind seq := by
      simp only [y, framePort, nextSince, hdue, h, if_false, Bool.false_eq_true]
    have hs1 : s1 = s := by simp only [s1, hdue, Bool.false_eq_true, if_false]
    rw [hs1, hy]
    unfold withIdle
    rw [if_neg h]
    rfl

theorem sendFrame_others (s : State) (p kind : Nat) (nak : Bool) (seq : Nat) (pk : Option Packet) (part : Nat) :
    OtherPorts p s (s.sendFrame p kind nak seq pk part) := by
  rw [sendFrame_eq]
  exact (s.setPort_others p _).trans (.of_ports rfl)

theorem port_sendFrame (s : State) (p kind : Nat) (nak : Bool) (seq : Nat) (pk : Option Packet) (part : Nat) :
    (s.sendFrame p kind nak seq pk part).port p = framePort (s.port p) kind seq := by
  rw [sendFrame_eq]
  exact port_setPort_same ..

/-! ## Packets -/

theorem endSend_others (s : State) (p : Nat) (pk : Packet) (off : Nat) : OtherPorts p s (s.endSend p pk off) := s.setPort_others p _

theorem sendFrames_others (s : State) (p : Nat) (pk : Packet) (off k : Nat) : OtherPorts p s (s.sendFrames p pk off k) := by
  induction k generalizing s off with
  | zero => exact endSend_others s p pk off
  | succ k ih =>
    unfold sendFrames
    dsimp only
    split
    · exact endSend_others s p pk off
    · exact ((s.setPort_others p _).trans (sendFrame_others ..)).trans (ih _ _)

theorem goOut_others (s : State) (p : Nat) (pk : Packet) : OtherPorts p s (s.goOut p pk) := by
  unfold goOut
  dsimp only
  split
  · exact .refl p s
  · refine OtherPorts.trans ?_ (sendFrames_others ..)
    exact ⟨fun q hq => port_setPort_ne s _ hq⟩

theorem pumpPort_others (s : State) (p k : Nat) : OtherPorts p s (s.pumpPort p k) := by
  induction k generalizing s with
  | zero => exact .refl p s
  | succ k ih =>
    unfold pumpPort
    split
    · exact .refl p s
    · exact ((s.setPort_others p _).trans (goOut_others ..)).trans (ih _)

theorem pumpAll_others (s : State) (p : Nat) : OtherPorts p s (s.pumpAll p) := by
  refine OtherPorts.trans (s := s.sendRest p) ?_ (pumpPort_others ..)
  unfold sendRest
  split
  · split
    · exact .refl p s
    · exact sendFrames_others ..
  · exact .refl p s

theorem sendOn_others (s : State) (p : Nat) (pk : Packet) : OtherPorts p s (s.sendOn p pk) :=
  (s.setPort_others p _).trans (pumpAll_others ..)

/-- A port that has nothing to send sends nothing. -/
theorem pumpAll_idle {s : State} {p : Nat} (hready : (s.port p).ready = []) (hsending : (s.port p).sending = none) : s.pumpAll p = s := by
  have hrest : s.sendRest p = s := by
    unfold sendRest
    rw [hsending]
  unfold pumpAll
  rw [hrest, hready]
  rfl

/-! ## Bare frames (R285, R293) -/

theorem sendBare_bare (s : State) (p : Nat) (nak : Bool) : SendsBare s (s.sendBare p nak) p nak := by
  unfold sendBare pushDegrade SendsBare
  dsimp only
  refine ⟨fun h => ?_, fun htell hroom => ?_⟩
  · have hidle : (if (s.port p).tell = true then
        if 256 ≤ (s.port p).replay.length then s.sendFrame p 1 nak (s.port p).lastData none 0
        else (s.setPort p { s.port p with txSeq := ((s.port p).txSeq + 1) % 2 ^ 24, replay := (s.port p).replay ++
          [{ seq := ((s.port p).txSeq + 1) % 2 ^ 24, kind := 3, packet := none, part := s.get (Reg.fabStatusRxLanes p) }] }).sendFrame p 3 nak
          (((s.port p).txSeq + 1) % 2 ^ 24) none (s.get (Reg.fabStatusRxLanes p))
        else s.sendFrame p 1 nak (s.port p).lastData none 0) = s.sendFrame p 1 nak (s.port p).lastData none 0 := by
      rcases h with h | h
      · rw [if_neg (by simp [h])]
      · simp only [if_pos h, ite_self]
    rw [hidle]
    exact ⟨congrArg State.out (sendFrame_eq ..), port_sendFrame ..⟩
  · rw [if_pos htell, if_neg (by omega)]
    refine ⟨?_, ?_⟩
    · rw [sendFrame_eq]
      show s.out ++ withIdle _ p (State.frameOut _ p 3 nak _ none _) = _
      unfold withIdle frameOut
      rw [port_setPort_same]
      rfl
    · rw [port_sendFrame, port_setPort_same]
      rfl

theorem pushDegrade_bare {s : State} {p : Nat} (h : (s.port p).tell = true) (nak : Bool) : SendsBare s (s.pushDegrade p nak) p nak := by
  have hbare := s.sendBare_bare p nak
  unfold sendBare at hbare
  rwa [if_pos h] at hbare

/-- A bare frame changes its port and what has gone out, and nothing else. -/
theorem pushDegrade_rest (s : State) (p : Nat) (nak : Bool) : { s.pushDegrade p nak with ports := s.ports, out := s.out } = s := by
  unfold pushDegrade
  dsimp only
  split
  · rw [sendFrame_eq]
    rfl
  · rw [sendFrame_eq]
    rfl

/-- Frames keep what a bare frame shows of the state: other registers do not matter. -/
theorem SendsBare.of_get {u v t : State} {p : Nat} {nak : Bool} (h : SendsBare u t p nak) (hports : v.port p = u.port p) (hout : v.out = u.out)
    (htx : v.get (Reg.fabStatusTxLanes p) = u.get (Reg.fabStatusTxLanes p)) (hrx : v.get (Reg.fabStatusRxLanes p) = u.get (Reg.fabStatusRxLanes p)) :
    SendsBare v t p nak := by
  unfold SendsBare withIdle frameOut at h ⊢
  rw [hports, hout, htx, hrx]
  exact h

/-! ## Acknowledgements (R287) -/

theorem endTell_quiet {s : State} {p : Nat} (h : (s.port p).tell = false) (ack : Nat) (old : List TxFrame) : s.endTell p ack old = s := by
  unfold endTell
  dsimp only
  rw [h]
  rfl

/-- The port once an ACK has reached it. -/
def acked (x : Port) (ack : Nat) : Port := { x with replay := x.replay.filter (fun f => seqAfter ack f.seq) }

end State

end Sys2Proof.Machine
end

section
/-! SUPPORT. Proofs: what the traffic of other ports, a hold and a repair of the tree leave of a port: its words below its channels, and the
port itself where it is down (R319 to R321). -/

namespace Sys2Proof.Machine

/-- A field of a fabric port below its channels: control, status, peer, counts and lanes. -/
def PortWord (f : Fld) : Prop := ∃ p o l, p < 12 ∧ o < 0x200 ∧ l < 32 ∧ f.key = (0x100000 + 0x1000 * p + o) * 32 + l

/-- From `s` to `t` only the fabric has worked, and no port's own words have changed. -/
structure Serves (s t : State) : Prop where
  only : OnlyFabric s t
  word : ∀ f, PortWord f → t.get f = s.get f
  faults : s.faultQ <+: t.faultQ
  out : s.out <+: t.out

theorem OnlyFabric.refl (s : State) : OnlyFabric s s := ⟨.refl _ s, rfl⟩

/-- Frames that go out. -/
theorem OnlyFabric.of_sent {s t : State} (h : { t with ports := s.ports, out := s.out } = s) : OnlyFabric s t :=
  ⟨fun f _ _ => State.get_of_regs (congrArg State.regs h :) f, (congrArg (fun v : State => { v with
    regs := s.regs, net := s.net, cad := s.cad, faultQ := s.faultQ, freeCtr := s.freeCtr }) h :)⟩

namespace Serves

theorem refl (s : State) : Serves s s := ⟨.refl s, fun _ _ => rfl, List.prefix_rfl, List.prefix_rfl⟩

theorem trans {r s t : State} (h : Serves r s) (k : Serves s t) : Serves r t :=
  ⟨h.only.trans k.only, fun f hf => (k.word f hf).trans (h.word f hf), h.faults.trans k.faults, h.out.trans k.out⟩

/-- Of the registers only the counts of what is sent. -/
theorem of_counts {s t : State} (hregs : SameRegsBut sentRegs s t) (hrest : { t with regs := s.regs, ports := s.ports, out := s.out } = s)
    (hout : s.out <+: t.out) : Serves s t := by
  have hsent : ∀ g ∈ sentRegs, 0x100000 * 32 ≤ g.key ∧ g.key < 0x110000 * 32 ∧ ¬ PortWord g := by
    intro g hg
    rcases List.mem_cons.mp hg with rfl | hg
    · have hkey : Reg.netAltroute.key = (0x100000 + 0xC030) * 32 := rfl
      refine ⟨by omega, by omega, ?_⟩
      rintro ⟨p, o, l, hp, ho, hl, e⟩
      omega
    · obtain ⟨p, hp, hg⟩ := List.mem_flatMap.mp hg
      obtain ⟨v, hv, rfl⟩ := List.mem_map.mp hg
      have hp := List.mem_range.mp hp
      have hv := List.mem_range.mp hv
      have hkey : (Reg.fabVcTxPkts p v).key = (0x100000 + 0x1000 * p + 0x204 + 0x10 * v) * 32 + 0 := rfl
      refine ⟨by omega, by omega, ?_⟩
      rintro ⟨q, o, l, hq, ho, hl, e⟩
      omega
  refine ⟨⟨fun f hf _ => hregs f fun g hg e => ?_, ?_⟩, fun f hf => hregs f fun g hg e => ?_, ?_, hout⟩
  · have := hsent g hg
    omega
  · exact (congrArg (fun v : State => { v with net := s.net, cad := s.cad, faultQ := s.faultQ, freeCtr := s.freeCtr }) hrest :)
  · obtain ⟨p, o, l, hp, ho, hl, hkey⟩ := hf
    exact (hsent g hg).2.2 ⟨p, o, l, hp, ho, hl, e ▸ hkey⟩
  · rw [(congrArg State.faultQ hrest :)]

theorem of_sending {s t : State} (h : Sending s t) : Serves s t := of_counts h.regs h.rest h.out

/-- A field of the fabric that is no port's own word. -/
theorem put (s : State) {f : Fld} (hfab : 0x100000 * 32 ≤ f.key ∧ f.key < 0x110000 * 32) (hf : ¬ PortWord f) (v : Nat) : Serves s (s.put f v) := by
  refine ⟨⟨(SameRegsOut.refl _ s).put_fabric hfab v, rfl⟩, fun g hg => State.get_put_ne s v fun e => hf ?_, List.prefix_rfl, List.prefix_rfl⟩
  obtain ⟨p, o, l, hp, ho, hl, hkey⟩ := hg
  exact ⟨p, o, l, hp, ho, hl, e ▸ hkey⟩

/-- A field of the packet layer. -/
theorem put_net (s : State) {f : Fld} (hf : 0x10C000 * 32 ≤ f.key ∧ f.key < 0x110000 * 32) (v : Nat) : Serves s (s.put f v) := by
  refine put s ⟨by omega, hf.2⟩ ?_ v
  rintro ⟨p, o, l, hp, ho, hl, hkey⟩
  omega

theorem raise (s : State) (src kind cls addr : Nat) : Serves s (s.raise src kind cls addr) := by
  refine ⟨⟨(SameRegsOut.refl _ s).raise _ _ _ _, ?_⟩, fun f hf => ?_, State.raise_faultQ_prefix .., ?_⟩
  · rw [State.raise_upd]
  · obtain ⟨p, o, l, hp, ho, hl, hkey⟩ := hf
    have h1 : Reg.fltDropped.key = (0x20000 + 0x34) * 32 := rfl
    have h2 : Reg.fltStatusOvf.key < 0x21000 * 32 := by decide
    exact State.get_raise s _ _ _ _ (by omega) (by omega)
  · rw [State.raise_upd]

theorem setCad (s : State) (c : Cad) : Serves s { s with cad := c } := ⟨⟨fun _ _ _ => rfl, rfl⟩, fun _ _ => rfl, List.prefix_rfl, List.prefix_rfl⟩

theorem setPort (s : State) (p : Nat) (x : Port) : Serves s (s.setPort p x) :=
  ⟨⟨fun _ _ _ => rfl, rfl⟩, fun _ _ => rfl, List.prefix_rfl, List.prefix_rfl⟩

theorem draw (s : State) : Serves s s.draw := ⟨⟨fun _ _ _ => rfl, rfl⟩, fun _ _ => rfl, List.prefix_rfl, List.prefix_rfl⟩

theorem emit (s : State) (o : Out) : Serves s (s.emit o) := of_sending ((Sending.refl s).emit o)

/-- A port's STATE and MODE are words of its own. -/
theorem portUp {s t : State} (h : Serves s t) {p : Nat} (hp : p < 12) : t.portUp p = s.portUp p := by
  unfold State.portUp
  rw [h.word (Reg.fabCtrlMode p) ⟨p, 0, 1, hp, by decide, by decide, rfl⟩, h.word (Reg.fabStatusState p) ⟨p, 4, 0, hp, by decide, by decide, rfl⟩]

end Serves

/-- The same, and a port that is down stays as it is. -/
structure Spares (s t : State) : Prop where
  serves : Serves s t
  down : ∀ p, p < 12 → s.portUp p = false → t.port p = s.port p

namespace Spares

theorem refl (s : State) : Spares s s := ⟨.refl s, fun _ _ _ => rfl⟩

theorem trans {r s t : State} (h : Spares r s) (k : Spares s t) : Spares r t :=
  ⟨h.serves.trans k.serves, fun p hp hd => (k.down p hp ((h.serves.portUp hp).trans hd)).trans (h.down p hp hd)⟩

theorem foldl {α : Type} {f : State → α → State} (h : ∀ t a, Spares t (f t a)) (l : List α) (s : State) : Spares s (l.foldl f s) := by
  induction l generalizing s with
  | nil => exact refl s
  | cons a l ih => exact (h s a).trans (ih _)

theorem of_ports {s t : State} (h : Serves s t) (hports : t.ports = s.ports) : Spares s t := ⟨h, fun p _ _ => State.port_of_ports hports p⟩

theorem of_cad {s t : State} (h : { t with cad := s.cad } = s) : Spares s t := by
  have hget : ∀ f, t.get f = s.get f := State.get_of_regs (congrArg State.regs h :)
  refine of_ports ⟨⟨fun f _ _ => hget f, ?_⟩, fun f _ => hget f, ?_, ?_⟩ (congrArg State.ports h :)
  · exact (congrArg (fun v : State => { v with
      regs := s.regs, ports := s.ports, net := s.net, faultQ := s.faultQ, out := s.out, freeCtr := s.freeCtr }) h :)
  · rw [(congrArg State.faultQ h :)]
  · rw [(congrArg State.out h :)]

/-- A packet that an up port sends. -/
theorem sendOn (s : State) {q : Nat} (hq : q < 16) (hup : s.portUp q = true) (pk : Packet) : Spares s (s.sendOn q pk) := by
  refine ⟨.of_sending (s.sendOn_sending hq pk).1, fun p hp hd => (s.sendOn_others q pk).port p fun e => ?_⟩
  rw [e, hup] at hd
  cases hd

end Spares

namespace State

theorem noRoute_spares (s : State) : Spares s s.noRoute := by
  have hcount : Spares s (s.count Reg.netNoroute) := .of_ports (.put_net s (by decide) _) rfl
  have hraise : Spares (s.count Reg.netNoroute) ((s.count Reg.netNoroute).raise srcBellows 0x45 clsU (s.fabAddr 0)) :=
    .of_ports (.raise ..) (by rw [raise_upd])
  exact (hcount.trans hraise).trans (.of_ports (.setCad _ _) rfl)

/-- A port that a route names is up. -/
theorem routePort_up {s : State} {dst p : Nat} {early alt : Bool} (h : s.routePort dst early = some (p, alt)) : s.portUp p = true := by
  unfold routePort at h
  dsimp only at h
  obtain ⟨q, hq, he⟩ := Option.map_eq_some_iff.mp h
  cases he
  have := List.find?_some hq
  simp only [Bool.and_eq_true] at this
  exact this.1.1

theorem sendRouted_spares (s : State) (pk : Packet) : Spares s (s.sendRouted pk) := by
  unfold sendRouted
  split
  next p alt h =>
    have halt : Spares s (if alt then s.count Reg.netAltroute else s) := by
      split
      · exact .of_ports (.put_net s (by decide) _) rfl
      · exact .refl s
    have hup : (if alt then s.count Reg.netAltroute else s).portUp p = true := by
      have hr := routePort_up h
      split
      · exact (portUp_of_sending ((Sending.refl s).count (f := Reg.netAltroute) (by simp [sentRegs])) p).trans hr
      · exact hr
    exact halt.trans (.sendOn _ (routePort_lt h) hup pk)
  · exact s.noRoute_spares

theorem sendCad_spares (s : State) (dst : Nat) (m : CadMsg) : Spares s (s.sendCad dst m) := by
  unfold sendCad
  split
  · exact .of_ports (.emit s _) rfl
  · exact s.sendRouted_spares _

theorem raiseHold_spares {s : State} (u : State) (angle reason : Nat) (entry : Option Nat) (h : Spares s u) :
    Spares s (u.raiseHold angle reason entry) := by
  have h1 : Spares s { u with cad := holdCad u.cad angle reason entry } := h.trans (.of_cad rfl)
  exact h1.trans (sendCad_spares _ _ _)

theorem placeWant_spares (s : State) : Spares s s.placeWant := by
  unfold placeWant
  split
  · exact .refl s
  · split
    · split
      · exact raiseHold_spares _ _ _ _ (.of_cad rfl)
      · exact .refl s
    · exact .refl s

/-- The port to a member is up. -/
theorem portTo_up {s : State} {a p : Nat} (h : s.portTo a = some p) : s.portUp p = true := by
  have hpeer := List.find?_some h
  unfold peerAddr at hpeer
  split at hpeer
  next hc =>
    simp only [Bool.and_eq_true] at hc
    exact hc.1
  · simp at hpeer

theorem repairTree_spares (s : State) : Spares s s.repairTree := by
  unfold repairTree
  extract_lets r recs h mine near nearer level
  split
  · exact .refl s
  next a _ =>
    extract_lets depth s1
    have h1 : Spares s s1 := by
      have hparent : Spares s (s.put Reg.netCadParent a) := .of_ports (.put_net s (by decide) _) rfl
      have hdepth : Spares (s.put Reg.netCadParent a) ((s.put Reg.netCadParent a).put Reg.netStatusTreeDepth depth) :=
        .of_ports (.put_net _ (by decide) _) rfl
      exact (hparent.trans hdepth).trans (.of_ports (.raise ..) (by unfold s1; rw [raise_upd]))
    split
    next p hp => exact h1.trans (.sendOn s1 (Nat.lt_trans (portTo_lt hp) (by decide)) (portTo_up hp) _)
    · exact h1

end State

end Sys2Proof.Machine
end

section
/-! SUPPORT. Proofs: faults that a port raises (R291 to R293), and a port that goes down (R308). -/

namespace Sys2Proof.Machine

/-- The faults that a port raises while it is enabled wait, in order, and nothing but they. -/
def RaisedPort (s t : State) (p : Nat) (l : List (Nat × Nat × Nat)) : Prop :=
  s.get (Reg.fabCtrlEn p) = 1 → s.waitingFrom (srcPort p) + l.length ≤ 16 →
    t.faultQ = s.faultQ ++ l.map (fun m => s.faultMsg (srcPort p) m.1 m.2.1 m.2.2 false)

theorem RaisedPort.refl {s t : State} (h : t.faultQ = s.faultQ) (p : Nat) : RaisedPort s t p [] := fun _ _ => by rw [h]; simp

theorem RaisedPort.raises {s u t : State} {p : Nat} {l : List (Nat × Nat × Nat)} (h : RaisedPort s u p l) (ht : u.faultQ <+: t.faultQ) :
    RaisesPort s t p l := fun hen hw => h hen hw ▸ ht

theorem RaisedPort.of_faultQ {s u t : State} {p : Nat} {l : List (Nat × Nat × Nat)} (h : RaisedPort s u p l) (ht : t.faultQ = u.faultQ) :
    RaisedPort s t p l := fun hen hw => ht.trans (h hen hw)

/-- One more fault of the port. -/
theorem RaisedPort.raise {s u : State} {p : Nat} {l : List (Nat × Nat × Nat)} (h : RaisedPort s u p l) (hcad : u.cad = s.cad)
    (hen : u.get (Reg.fabCtrlEn p) = s.get (Reg.fabCtrlEn p)) (kind cls lane : Nat) :
    RaisedPort s (u.raisePort p kind cls lane) p (l ++ [(kind, cls, lane % 8)]) := by
  intro hone hw
  rw [List.length_append, List.length_singleton] at hw
  have hq := h hone (by omega)
  have hroom : u.waitingFrom (srcPort p) < 16 := by
    have hall : (l.map fun m => s.faultMsg (srcPort p) m.1 m.2.1 m.2.2 false).filter (fun m => m.source == srcPort p) =
        l.map fun m => s.faultMsg (srcPort p) m.1 m.2.1 m.2.2 false := by
      refine List.filter_eq_self.mpr fun m hm => ?_
      obtain ⟨k, -, rfl⟩ := List.mem_map.mp hm
      exact beq_self_eq_true _
    unfold State.waitingFrom at hw ⊢
    rw [hq, List.filter_append, hall, List.length_append, List.length_map]
    omega
  unfold State.raisePort
  rw [if_pos (State.flag_of_one (hen.trans hone)), State.raise_of_room _ _ _ hroom, List.map_append, ← List.append_assoc, ← hq]
  unfold State.faultMsg
  rw [hcad]
  rfl

namespace State

theorem raisePort_upd (s : State) (p kind cls lane : Nat) : { s.raisePort p kind cls lane with regs := s.regs, faultQ := s.faultQ } = s := by
  unfold raisePort
  split
  · exact raise_rest ..
  · rfl

theorem raisePort_spares (s : State) (p kind cls lane : Nat) : Spares s (s.raisePort p kind cls lane) := by
  unfold raisePort
  split
  · exact .of_ports (.raise ..) (by rw [raise_upd])
  · exact .refl s

/-- The port that goes down: its buffers and counters begin afresh (R308), and what is known of its peer stays. -/
def downPort (x : Port) : Port :=
  { Port.init with jobDown := x.jobDown, reseal := x.reseal, myRandom := x.myRandom, peerRandom := x.peerRandom, txKey := x.txKey, rxKey := x.rxKey
                   txNonce := x.txNonce, rxNonce := x.rxNonce, attNonce := x.attNonce
                   attReport := x.attReport, peerNonce := x.peerNonce, peerDone := x.peerDone
                   saidSeed := x.saidSeed, sentSeed := x.sentSeed }

/-- The device once port `p` is down, before its packets leave by other ports. -/
def downed (s : State) (p : Nat) : State := (s.setPort p (downPort (s.port p))).put (Reg.fabStatusState p) 4

theorem downed_state (s : State) (p : Nat) : (s.downed p).get (Reg.fabStatusState p) = 4 := get_put_same ..

theorem downed_get (s : State) {p : Nat} {f : Fld} (h : f.key ≠ (Reg.fabStatusState p).key) : (s.downed p).get f = s.get f :=
  (get_put_ne _ _ h).trans rfl

theorem downed_port (s : State) (p : Nat) : (s.downed p).port p = downPort (s.port p) := port_setPort_same ..

theorem downed_up (s : State) (p : Nat) : (s.downed p).portUp p = false := by
  unfold portUp
  rw [downed_state]
  simp

theorem downed_only (s : State) {p : Nat} (hp : p < 12) : OnlyFabric s (s.downed p) := by
  have hkey : (Reg.fabStatusState p).key = (0x100000 + 0x1000 * p + 4) * 32 + 0 := rfl
  exact ⟨SameRegsOut.put_fabric (s := s) (t := s.setPort p (downPort (s.port p))) (fun _ _ _ => rfl) (by omega) 4, rfl⟩

/-- A port that goes down raises Port down, and then packets, a repair and a hold take other ports. -/
theorem goDown_spares (s : State) (p : Nat) : Spares ((s.downed p).raisePort p 0x39 clsU 0) (s.goDown p) := by
  unfold goDown
  extract_lets x src y s1 s2
  have hsent : Spares s1 s2 := .foldl (fun t k => t.sendRouted_spares k) _ _
  refine Spares.trans ?_ (placeWant_spares _)
  split
  · exact hsent.trans (repairTree_spares _)
  · exact hsent

/-- What a port that goes down leaves. -/
theorem goDown_down (s : State) {p : Nat} (hp : p < 12) : PortDown s (s.goDown p) p := by
  have hraise := (s.downed p).raisePort_spares p 0x39 clsU 0
  have hall := hraise.trans (s.goDown_spares p)
  refine ⟨(hall.serves.word _ ⟨p, 4, 0, hp, by decide, by decide, rfl⟩).trans (s.downed_state p), ?_⟩
  exact (hall.down p hp (s.downed_up p)).trans (s.downed_port p)

theorem goDown_only (s : State) {p : Nat} (hp : p < 12) : OnlyFabric s (s.goDown p) :=
  (s.downed_only hp).trans (((s.downed p).raisePort_spares p 0x39 clsU 0).trans (s.goDown_spares p)).serves.only

/-- The words of the ports stay, but for the STATE of the one that goes down. -/
theorem goDown_word (s : State) (p : Nat) {f : Fld} (hf : PortWord f) (hstate : f.key ≠ (Reg.fabStatusState p).key) :
    (s.goDown p).get f = s.get f :=
  ((((s.downed p).raisePort_spares p 0x39 clsU 0).trans (s.goDown_spares p)).serves.word f hf).trans (s.downed_get hstate)

/-- Port down is raised behind what the port has raised before. -/
theorem goDown_raises {s u : State} {p : Nat} {l : List (Nat × Nat × Nat)} (h : RaisedPort s u p l) (hcad : u.cad = s.cad)
    (hen : u.get (Reg.fabCtrlEn p) = s.get (Reg.fabCtrlEn p)) : RaisesPort s (u.goDown p) p (l ++ [(0x39, clsU, 0)]) := by
  have hkey : (Reg.fabCtrlEn p).key ≠ (Reg.fabStatusState p).key := by
    have h1 : (Reg.fabCtrlEn p).key = (0x100000 + 0x1000 * p) * 32 + 0 := rfl
    have h2 : (Reg.fabStatusState p).key = (0x100000 + 0x1000 * p + 4) * 32 + 0 := rfl
    omega
  have hdowned : RaisedPort s (u.downed p) p l := h.of_faultQ rfl
  exact (hdowned.raise (hcad ▸ rfl) ((u.downed_get hkey).trans hen) 0x39 clsU 0).raises (u.goDown_spares p).serves.faults

end State

end Sys2Proof.Machine
end

section
/-! SUPPORT. Proofs: frames sent again at a width (R287, R293). -/

namespace Sys2Proof.Machine

theorem notIdle_append (l m : List Out) : notIdle (l ++ m) = notIdle l ++ notIdle m := List.filter_append l m

/-- The scheduled IDLE is none of the frames sent again. -/
theorem notIdle_withIdle (s : State) (p : Nat) (o : Out) : notIdle (withIdle s p o) = notIdle [o] := by
  unfold withIdle
  rw [notIdle_append]
  split
  · rfl
  · rfl

/-- Of a port only what a frame that is not kept moves may differ. -/
def SameFrames (x y : Port) : Prop := { y with sinceIdle := x.sinceIdle, lastData := x.lastData } = x

theorem SameFrames.trans {x y z : Port} (h : SameFrames x y) (k : SameFrames y z) : SameFrames x z :=
  (congrArg (fun v : Port => { v with sinceIdle := x.sinceIdle, lastData := x.lastData }) k :).trans h

namespace State

/-- What a frame shows of the state is the last SEQ received and the transmit lanes. -/
theorem frameOut_congr {s t : State} {p : Nat} (hseq : (t.port p).rxSeq = (s.port p).rxSeq)
    (htx : t.get (Reg.fabStatusTxLanes p) = s.get (Reg.fabStatusTxLanes p)) (kind : Nat) (nak : Bool) (seq : Nat) (pk : Option Packet) (part : Nat) :
    t.frameOut p kind nak seq pk part = s.frameOut p kind nak seq pk part := by
  unfold frameOut
  rw [hseq, htx]

/-- Frames of a list sent again, oldest first (R287). -/
def sendAgain (s : State) (p : Nat) (l : List TxFrame) : State := l.foldl (fun t f => t.sendFrame p f.kind false f.seq f.packet f.part) s

theorem sendAgain_spec (s : State) (p : Nat) (l : List TxFrame) :
    { s.sendAgain p l with ports := s.ports, out := s.out } = s ∧ SameFrames (s.port p) ((s.sendAgain p l).port p) ∧
    ∃ m, (s.sendAgain p l).out = s.out ++ m ∧ notIdle m = notIdle (l.map fun f => s.frameOut p f.kind false f.seq f.packet f.part) := by
  induction l generalizing s with
  | nil => exact ⟨rfl, rfl, [], (List.append_nil _).symm, rfl⟩
  | cons f l ih =>
    have hone : SameFrames (s.port p) ((s.sendFrame p f.kind false f.seq f.packet f.part).port p) := by
      rw [port_sendFrame]
      rfl
    have hrest1 : { s.sendFrame p f.kind false f.seq f.packet f.part with ports := s.ports, out := s.out } = s := by
      rw [sendFrame_eq]
      rfl
    have hout1 : (s.sendFrame p f.kind false f.seq f.packet f.part).out = s.out ++ withIdle s p (s.frameOut p f.kind false f.seq f.packet f.part) :=
      congrArg State.out (sendFrame_eq ..)
    obtain ⟨hrest, hframes, m, hout, hm⟩ := ih (s.sendFrame p f.kind false f.seq f.packet f.part)
    show { (s.sendFrame p f.kind false f.seq f.packet f.part).sendAgain p l with ports := s.ports, out := s.out } = s ∧
      SameFrames (s.port p) (((s.sendFrame p f.kind false f.seq f.packet f.part).sendAgain p l).port p) ∧
      ∃ m, ((s.sendFrame p f.kind false f.seq f.packet f.part).sendAgain p l).out = s.out ++ m ∧ _
    generalize s.sendFrame p f.kind false f.seq f.packet f.part = u at *
    have hsame : ∀ g : TxFrame, u.frameOut p g.kind false g.seq g.packet g.part = s.frameOut p g.kind false g.seq g.packet g.part :=
      fun g => frameOut_congr (congrArg Port.rxSeq hone :) (get_of_regs (congrArg State.regs hrest1 :) _) ..
    refine ⟨(congrArg (fun v : State => { v with ports := s.ports, out := s.out }) hrest :).trans hrest1, hone.trans hframes,
      withIdle s p (s.frameOut p f.kind false f.seq f.packet f.part) ++ m, ?_, ?_⟩
    · rw [hout, hout1, List.append_assoc]
    · simp only [hsame] at hm
      rw [notIdle_append, notIdle_withIdle, hm]
      exact (notIdle_append [_] _).symm

/-! ## The replay buffer grows (R287) -/

/-- Port `p` still keeps what it kept for replay, oldest first. -/
structure KeepsReplay (p : Nat) (s t : State) : Prop where
  replay : (s.port p).replay <+: (t.port p).replay

theorem KeepsReplay.trans {p : Nat} {r s t : State} (h : KeepsReplay p r s) (k : KeepsReplay p s t) : KeepsReplay p r t := ⟨h.1.trans k.1⟩

theorem KeepsReplay.setPort (s : State) (p : Nat) {x : Port} (h : (s.port p).replay <+: x.replay) : KeepsReplay p s (s.setPort p x) :=
  ⟨(port_setPort_same s p x).symm ▸ h⟩

theorem sendFrame_replay (s : State) (p kind : Nat) (nak : Bool) (seq : Nat) (pk : Option Packet) (part : Nat) :
    KeepsReplay p s (s.sendFrame p kind nak seq pk part) :=
  ⟨(port_sendFrame s p kind nak seq pk part).symm ▸ List.prefix_rfl⟩

theorem endSend_replay (s : State) (p : Nat) (pk : Packet) (off : Nat) : KeepsReplay p s (s.endSend p pk off) := by
  unfold endSend
  dsimp only
  split
  · exact .setPort s p List.prefix_rfl
  · exact .setPort s p List.prefix_rfl

theorem sendFrames_replay (s : State) (p : Nat) (pk : Packet) (off k : Nat) : KeepsReplay p s (s.sendFrames p pk off k) := by
  induction k generalizing s off with
  | zero => exact endSend_replay s p pk off
  | succ k ih =>
    unfold sendFrames
    dsimp only
    split
    · exact endSend_replay s p pk off
    · exact ((KeepsReplay.setPort s p (List.prefix_append _ _)).trans (sendFrame_replay ..)).trans (ih _ _)

theorem goOut_replay (s : State) (p : Nat) (pk : Packet) : KeepsReplay p s (s.goOut p pk) := by
  unfold goOut
  dsimp only
  split
  · exact ⟨List.prefix_rfl⟩
  next x hx =>
    obtain ⟨-, -, hreplay⟩ := takeCredits_ready hx
    refine KeepsReplay.trans ?_ (sendFrames_replay ..)
    refine ⟨?_⟩
    show _ <+: ((s.setPort p _).port p).replay
    rw [port_setPort_same]
    exact hreplay ▸ List.prefix_rfl

theorem pumpPort_replay (s : State) (p k : Nat) : KeepsReplay p s (s.pumpPort p k) := by
  induction k generalizing s with
  | zero => exact ⟨List.prefix_rfl⟩
  | succ k ih =>
    unfold pumpPort
    split
    · exact ⟨List.prefix_rfl⟩
    next pk _ =>
      have hround := s.stepRound_of { s.port p with ready := (s.port p).ready.erase pk } pk.vc
      refine KeepsReplay.trans (KeepsReplay.trans (.setPort s p ?_) (goOut_replay ..)) (ih _)
      rw [(congrArg Port.replay hround :)]

theorem pumpAll_replay (s : State) (p : Nat) : KeepsReplay p s (s.pumpAll p) := by
  refine KeepsReplay.trans (s := s.sendRest p) ?_ (pumpPort_replay ..)
  unfold sendRest
  split
  · split
    · exact ⟨List.prefix_rfl⟩
    · exact sendFrames_replay ..
  · exact ⟨List.prefix_rfl⟩

end State

end Sys2Proof.Machine
end

section
/-! SUPPORT. Proofs: a lane dropped or readmitted, and the port afterwards (R293, R294). -/

namespace Sys2Proof.Machine

theorem lanesIn_le (mask : Nat) : lanesIn mask ≤ 8 := (List.length_filter_le ..).trans (by simp)

/-- A port up shows whether it is at its full width. -/
def ShowsWidth (t : State) (p : Nat) : Prop :=
  t.get (Reg.fabStatusState p) = if t.get (Reg.fabStatusTxWidth p) = 8 ∧ t.get (Reg.fabStatusRxWidth p) = 8 then 2 else 3

theorem ShowsWidth.of_get {u t : State} {p : Nat} (h : ShowsWidth u p) (hstate : t.get (Reg.fabStatusState p) = u.get (Reg.fabStatusState p))
    (htx : t.get (Reg.fabStatusTxWidth p) = u.get (Reg.fabStatusTxWidth p)) (hrx : t.get (Reg.fabStatusRxWidth p) = u.get (Reg.fabStatusRxWidth p)) :
    ShowsWidth t p := by
  unfold ShowsWidth
  rw [hstate, htx, hrx]
  exact h

theorem ShowsWidth.of_regs {u t : State} {p : Nat} (h : ShowsWidth u p) (hregs : t.regs = u.regs) : ShowsWidth t p :=
  h.of_get (State.get_of_regs hregs _) (State.get_of_regs hregs _) (State.get_of_regs hregs _)

namespace State

theorem putUpState_get (s : State) (p : Nat) {f : Fld} (h : f.key ≠ (Reg.fabStatusState p).key) : (s.putUpState p).get f = s.get f :=
  get_put_ne _ _ h

theorem putUpState_shows (s : State) (p : Nat) : ShowsWidth (s.putUpState p) p := by
  have h1 : (Reg.fabStatusState p).key = (0x100000 + 0x1000 * p + 4) * 32 + 0 := rfl
  have h2 : (Reg.fabStatusTxWidth p).key = (0x100000 + 0x1000 * p + 4) * 32 + 4 := rfl
  have h3 : (Reg.fabStatusRxWidth p).key = (0x100000 + 0x1000 * p + 4) * 32 + 8 := rfl
  unfold ShowsWidth
  rw [putUpState_get s p (f := Reg.fabStatusTxWidth p) (by omega), putUpState_get s p (f := Reg.fabStatusRxWidth p) (by omega)]
  unfold putUpState
  rw [get_put_same]
  split <;> rfl

/-- A field of a fabric port. -/
theorem put_onlyFabric (s : State) {f : Fld} (h : 0x100000 * 32 ≤ f.key ∧ f.key < 0x110000 * 32) (v : Nat) : OnlyFabric s (s.put f v) :=
  ⟨(SameRegsOut.refl _ s).put_fabric h v, rfl⟩

/-- The peer is told by one bare frame, and nothing else happens. -/
theorem sendDegrade_tells {s u : State} {p : Nat} (hport : u.port p = s.port p) (hout : u.out = s.out) :
    SendsBare (({ s with regs := (u.sendDegrade p).regs }).setPort p { s.port p with tell := true }) (u.sendDegrade p) p false ∧
    { u.sendDegrade p with ports := u.ports, out := u.out } = u := by
  unfold sendDegrade
  have hthere : (u.setPort p { u.port p with tell := true }).port p = { u.port p with tell := true } := port_setPort_same ..
  have hregs : (u.setPort p { u.port p with tell := true }).regs = u.regs := rfl
  have houts : (u.setPort p { u.port p with tell := true }).out = u.out := rfl
  have hrest : { u.setPort p { u.port p with tell := true } with ports := u.ports, out := u.out } = u := rfl
  generalize u.setPort p { u.port p with tell := true } = v at *
  have hbare := pushDegrade_bare (s := v) (p := p) (by rw [hthere]) false
  have hsame := v.pushDegrade_rest p false
  generalize v.pushDegrade p false = t at *
  have htregs : t.regs = v.regs := (congrArg State.regs hsame :)
  refine ⟨SendsBare.of_get hbare ?_ ?_ ?_ ?_, (congrArg (fun w : State => { w with ports := u.ports, out := u.out }) hsame :).trans hrest⟩
  · rw [port_setPort_same, hthere, hport]
  · exact hout.symm.trans houts.symm
  · exact get_of_regs (show (State.setPort { s with regs := t.regs } p _).regs = v.regs from htregs) _
  · exact get_of_regs (show (State.setPort { s with regs := t.regs } p _).regs = v.regs from htregs) _

/-! ## LANE_DROP -/

/-- The receive lanes without a logical lane. -/
def maskWithout (old logical : Nat) : Nat := if bit old logical then old - 2 ^ logical else old

/-- The registers once a lane is dropped. -/
def withoutLane (s : State) (p lane mask : Nat) (lost : Bool) : State :=
  let s1 := ((s.put (Reg.fabLaneActive p lane) 0).put (Reg.fabStatusRxLanes p) mask).put (Reg.fabStatusRxWidth p) (lanesIn mask)
  let s2 := if lost then (s1.put (Reg.fabLaneSignal p lane) 0).put (Reg.fabLaneLocked p lane) 0 else s1
  s2.count (Reg.fabDrops p)

section
variable (s : State) {p lane : Nat} (mask : Nat) (lost : Bool)

theorem withoutLane_get {f : Fld} (h : ∀ g ∈ [Reg.fabLaneActive p lane, Reg.fabStatusRxLanes p, Reg.fabStatusRxWidth p, Reg.fabLaneSignal p lane,
    Reg.fabLaneLocked p lane, Reg.fabDrops p], f.key ≠ g.key) : (s.withoutLane p lane mask lost).get f = s.get f := by
  simp only [List.forall_mem_cons] at h
  obtain ⟨hactive, hlanes, hwidth, hsignal, hlocked, hdrops, -⟩ := h
  unfold withoutLane count
  dsimp only
  rw [get_put_ne _ _ hdrops]
  split
  · rw [get_put_ne _ _ hlocked, get_put_ne _ _ hsignal, get_put_ne _ _ hwidth, get_put_ne _ _ hlanes, get_put_ne _ _ hactive]
  · rw [get_put_ne _ _ hwidth, get_put_ne _ _ hlanes, get_put_ne _ _ hactive]

end

/-- What a counter counts to fits its field. -/
theorem min_field_lt (n w : Nat) : min n (2 ^ w - 1) < 2 ^ w :=
  Nat.lt_of_le_of_lt (Nat.min_le_right _ _) (Nat.sub_lt (Nat.two_pow_pos w) Nat.one_pos)

theorem withoutLane_shows (s : State) (p lane mask : Nat) (lost : Bool) :
    let u := s.withoutLane p lane mask lost
    u.get (Reg.fabLaneActive p lane) = 0 ∧ u.get (Reg.fabStatusRxLanes p) = mask % 256 ∧ u.get (Reg.fabStatusRxWidth p) = lanesIn mask ∧
    u.get (Reg.fabDrops p) = min (s.get (Reg.fabDrops p) + 1) (2 ^ (Reg.fabDrops p).w - 1) ∧
    (lost = true → u.get (Reg.fabLaneSignal p lane) = 0 ∧ u.get (Reg.fabLaneLocked p lane) = 0) := by
  have hle := lanesIn_le mask
  have hmod : lanesIn mask % 2 ^ (Reg.fabStatusRxWidth p).w = lanesIn mask := Nat.mod_eq_of_lt (by show lanesIn mask < 16; omega)
  have k1 : (Reg.fabLaneActive p lane).key = (0x100000 + 0x1000 * p + 0x108 + 0x10 * lane) * 32 + 2 := rfl
  have k2 : (Reg.fabStatusRxLanes p).key = (0x100000 + 0x1000 * p + 4) * 32 + 24 := rfl
  have k3 : (Reg.fabStatusRxWidth p).key = (0x100000 + 0x1000 * p + 4) * 32 + 8 := rfl
  have k4 : (Reg.fabLaneSignal p lane).key = (0x100000 + 0x1000 * p + 0x108 + 0x10 * lane) * 32 + 0 := rfl
  have k5 : (Reg.fabLaneLocked p lane).key = (0x100000 + 0x1000 * p + 0x108 + 0x10 * lane) * 32 + 1 := rfl
  have k6 : (Reg.fabDrops p).key = (0x100000 + 0x1000 * p + 0x24) * 32 + 0 := rfl
  unfold withoutLane
  cases lost
  · simp (disch := omega) only [count, get_put_ne, get_put_same, hmod, Bool.false_eq_true, if_false, false_implies, and_true]
    exact ⟨rfl, rfl, trivial, Nat.mod_eq_of_lt (min_field_lt _ _)⟩
  · simp (disch := omega) only [count, get_put_ne, get_put_same, hmod, if_true, true_implies]
    exact ⟨rfl, rfl, trivial, Nat.mod_eq_of_lt (min_field_lt _ _), rfl, rfl⟩

/-- The registers of the dropped lane are the fabric's. -/
theorem withoutLane_only (s : State) {p lane : Nat} (hp : p < 12) (hlane : lane < 8) (mask : Nat) (lost : Bool) :
    OnlyFabric s (s.withoutLane p lane mask lost) := by
  refine ⟨fun f hf _ => s.withoutLane_get mask lost fun g hg => ?_, ?_⟩
  · have k1 : (Reg.fabLaneActive p lane).key = (0x100000 + 0x1000 * p + 0x108 + 0x10 * lane) * 32 + 2 := rfl
    have k2 : (Reg.fabStatusRxLanes p).key = (0x100000 + 0x1000 * p + 4) * 32 + 24 := rfl
    have k3 : (Reg.fabStatusRxWidth p).key = (0x100000 + 0x1000 * p + 4) * 32 + 8 := rfl
    have k4 : (Reg.fabLaneSignal p lane).key = (0x100000 + 0x1000 * p + 0x108 + 0x10 * lane) * 32 + 0 := rfl
    have k5 : (Reg.fabLaneLocked p lane).key = (0x100000 + 0x1000 * p + 0x108 + 0x10 * lane) * 32 + 1 := rfl
    have k6 : (Reg.fabDrops p).key = (0x100000 + 0x1000 * p + 0x24) * 32 + 0 := rfl
    simp only [List.mem_cons, List.not_mem_nil, or_false] at hg
    rcases hg with rfl | rfl | rfl | rfl | rfl | rfl
    all_goals omega
  · unfold withoutLane
    dsimp only
    split <;> rfl

theorem withoutLane_rest (s : State) (p lane mask : Nat) (lost : Bool) : { s.withoutLane p lane mask lost with regs := s.regs } = s := by
  unfold withoutLane
  dsimp only
  split <;> rfl

/-- The receive lanes without physical lane `lane`. -/
def dropMask (s : State) (p lane : Nat) : Nat := maskWithout (s.get (Reg.fabStatusRxLanes p)) (bits (s.get (Reg.fabLaneMap p)) (3 * lane) 3)

/-- The device once a lane is dropped and the drop is raised. -/
def laneDropped (s : State) (p lane : Nat) (lost : Bool) : State := (s.withoutLane p lane (s.dropMask p lane) lost).raisePort p 0x3B clsC lane

theorem laneDrop_of {s : State} {p lane : Nat} (hp : p < 12) (hlane : lane < 8) (hup : s.portUp p = true)
    (hactive : s.get (Reg.fabLaneActive p lane) = 1) {lost : Bool} {corrected uncorr : Nat} (hfails : laneFails lost corrected uncorr = true) :
    exec (.laneDrop p lane lost corrected uncorr) s =
      if lanesIn (s.dropMask p lane) < (s.laneDropped p lane lost).minLanes p
      then .next ((s.laneDropped p lane lost).goDown p) else .next (((s.laneDropped p lane lost).putUpState p).sendDegrade p) := by
  refine if_neg ?_
  rw [hup, flag_of_one hactive, hfails, decide_eq_false (Nat.not_le.mpr hp), decide_eq_false (Nat.not_le.mpr hlane)]
  decide

end State

end Sys2Proof.Machine
end

section
/-! SUPPORT. Proofs: what LANE_DROP and LANE_READMIT leave (R293, R294). -/

namespace Sys2Proof.Machine

theorem PortWord.status {p : Nat} (hp : p < 12) {f : Fld} {l : Nat} (hl : l < 32) (hf : f.key = (0x100000 + 0x1000 * p + 4) * 32 + l) : PortWord f :=
  ⟨p, 4, l, hp, by decide, hl, hf⟩

theorem PortWord.lane {p lane : Nat} (hp : p < 12) (hlane : lane < 8) {f : Fld} {l : Nat} (hl : l < 32)
    (hf : f.key = (0x100000 + 0x1000 * p + 0x108 + 0x10 * lane) * 32 + l) : PortWord f :=
  ⟨p, 0x108 + 0x10 * lane, l, hp, by omega, hl, by omega⟩

namespace State

theorem minLanes_of_get {s t : State} {p : Nat} (h : t.get (Reg.fabCtrlMinLanes p) = s.get (Reg.fabCtrlMinLanes p)) : t.minLanes p = s.minLanes p := by
  unfold minLanes
  rw [h]

section
variable {s : State} {p lane : Nat} (hp : p < 12) (hlane : lane < 8) (lost : Bool)
include hp hlane

omit hlane in
/-- A word of CTRL is none of those that a dropped lane changes. -/
theorem laneDropped_ctrl {f : Fld} {l : Nat} (hl : l < 32) (hf : f.key = (0x100000 + 0x1000 * p + 0) * 32 + l) :
    (s.laneDropped p lane lost).get f = s.get f := by
  refine ((raisePort_spares ..).serves.word f ⟨p, 0, l, hp, by decide, hl, hf⟩).trans (withoutLane_get _ _ _ fun g hg => ?_)
  have k1 : (Reg.fabLaneActive p lane).key = (0x100000 + 0x1000 * p + 0x108 + 0x10 * lane) * 32 + 2 := rfl
  have k2 : (Reg.fabStatusRxLanes p).key = (0x100000 + 0x1000 * p + 4) * 32 + 24 := rfl
  have k3 : (Reg.fabStatusRxWidth p).key = (0x100000 + 0x1000 * p + 4) * 32 + 8 := rfl
  have k4 : (Reg.fabLaneSignal p lane).key = (0x100000 + 0x1000 * p + 0x108 + 0x10 * lane) * 32 + 0 := rfl
  have k5 : (Reg.fabLaneLocked p lane).key = (0x100000 + 0x1000 * p + 0x108 + 0x10 * lane) * 32 + 1 := rfl
  have k6 : (Reg.fabDrops p).key = (0x100000 + 0x1000 * p + 0x24) * 32 + 0 := rfl
  simp only [List.mem_cons, List.not_mem_nil, or_false] at hg
  rcases hg with rfl | rfl | rfl | rfl | rfl | rfl
  all_goals omega

omit hlane in
theorem laneDropped_minLanes : (s.laneDropped p lane lost).minLanes p = s.minLanes p :=
  minLanes_of_get (laneDropped_ctrl hp lost (l := 4) (by decide) rfl)

theorem laneDropped_only : OnlyFabric s (s.laneDropped p lane lost) := (withoutLane_only s hp hlane _ _).trans (raisePort_spares ..).serves.only

omit hp hlane in
theorem laneDropped_rest : { s.laneDropped p lane lost with regs := s.regs, faultQ := s.faultQ } = s := by
  have h1 := s.withoutLane_rest p lane (s.dropMask p lane) lost
  have h2 := (s.withoutLane p lane (s.dropMask p lane) lost).raisePort_upd
    p 0x3B clsC lane
  unfold laneDropped
  generalize s.withoutLane p lane _ lost = u at h1 h2
  generalize u.raisePort p 0x3B clsC lane = t at h2
  have h3 : { u with regs := s.regs, faultQ := s.faultQ } = s := (congrArg (fun v : State => { v with faultQ := s.faultQ }) h1 :)
  exact (congrArg (fun v : State => { v with regs := s.regs, faultQ := s.faultQ }) h2 :).trans h3

theorem laneDropped_raises : RaisedPort s (s.laneDropped p lane lost) p [(0x3B, clsC, lane)] := by
  have hrest := s.withoutLane_rest p lane (s.dropMask p lane) lost
  have hctrl := laneDropped_ctrl (s := s) hp lost (lane := lane) (f := Reg.fabCtrlEn p) (l := 0) (by decide) rfl
  unfold laneDropped at hctrl ⊢
  generalize s.withoutLane p lane (s.dropMask p lane) lost = u at hrest hctrl ⊢
  have hen : u.get (Reg.fabCtrlEn p) = s.get (Reg.fabCtrlEn p) :=
    ((u.raisePort_spares p 0x3B clsC lane).serves.word (Reg.fabCtrlEn p) ⟨p, 0, 0, hp, by decide, by decide, rfl⟩).symm.trans hctrl
  have hq : u.faultQ = s.faultQ := (congrArg State.faultQ hrest :)
  have hcad : u.cad = s.cad := (congrArg State.cad hrest :)
  have hraise := (RaisedPort.refl hq p).raise hcad hen 0x3B clsC lane
  rw [Nat.mod_eq_of_lt hlane, List.nil_append] at hraise
  exact hraise

/-- What the registers show of the dropped lane. -/
theorem laneDropped_shows :
    let mask := s.dropMask p lane
    let u := s.laneDropped p lane lost
    u.get (Reg.fabLaneActive p lane) = 0 ∧ u.get (Reg.fabStatusRxLanes p) = mask % 256 ∧ u.get (Reg.fabStatusRxWidth p) = lanesIn mask ∧
    u.get (Reg.fabDrops p) = min (s.get (Reg.fabDrops p) + 1) (2 ^ (Reg.fabDrops p).w - 1) ∧
    (lost = true → u.get (Reg.fabLaneSignal p lane) = 0 ∧ u.get (Reg.fabLaneLocked p lane) = 0) := by
  obtain ⟨hactive, hlanes, hwidth, hdrops, hlost⟩ := s.withoutLane_shows p lane (s.dropMask p lane) lost
  have hword := ((s.withoutLane p lane (s.dropMask p lane) lost).raisePort_spares p 0x3B clsC lane).serves.word
  unfold laneDropped
  dsimp only
  generalize s.withoutLane p lane (s.dropMask p lane) lost = v at *
  refine ⟨(hword (Reg.fabLaneActive p lane) (.lane hp hlane (l := 2) (by decide) rfl)).trans hactive,
    (hword (Reg.fabStatusRxLanes p) (.status hp (l := 24) (by decide) rfl)).trans hlanes,
    (hword (Reg.fabStatusRxWidth p) (.status hp (l := 8) (by decide) rfl)).trans hwidth,
    (hword (Reg.fabDrops p) ⟨p, 0x24, 0, hp, by decide, by decide, rfl⟩).trans hdrops, fun h => ?_⟩
  exact ⟨(hword (Reg.fabLaneSignal p lane) (.lane hp hlane (l := 0) (by decide) rfl)).trans (hlost h).1,
    (hword (Reg.fabLaneLocked p lane) (.lane hp hlane (l := 1) (by decide) rfl)).trans (hlost h).2⟩

end

end State

/-- The clause of the statement on LANE_DROP. -/
theorem laneDrop_drops {s : State} {p lane : Nat} (hp : p < 12) (hlane : lane < 8) (hup : s.portUp p = true)
    (hactive : s.get (Reg.fabLaneActive p lane) = 1) {lost : Bool} {corrected uncorr : Nat} (hfails : laneFails lost corrected uncorr = true) :
    let mask := s.dropMask p lane
    ∃ t, exec (.laneDrop p lane lost corrected uncorr) s = .next t ∧ OnlyFabric s t ∧
      t.get (Reg.fabLaneActive p lane) = 0 ∧ t.get (Reg.fabStatusRxLanes p) = mask % 256 ∧
      t.get (Reg.fabStatusRxWidth p) = lanesIn mask ∧ t.get (Reg.fabDrops p) = min (s.get (Reg.fabDrops p) + 1) (2 ^ (Reg.fabDrops p).w - 1) ∧
      (lost = true → t.get (Reg.fabLaneSignal p lane) = 0 ∧ t.get (Reg.fabLaneLocked p lane) = 0) ∧
      (s.minLanes p ≤ lanesIn mask → RaisesPort s t p [(0x3B, clsC, lane)] ∧ ShowsWidth t p ∧
        SendsBare (({ s with regs := t.regs }).setPort p { s.port p with tell := true }) t p false ∧ t.cad = s.cad ∧ t.net = s.net) ∧
      (lanesIn mask < s.minLanes p → RaisesPort s t p [(0x3B, clsC, lane), (0x39, clsU, 0)] ∧ PortDown s t p) := by
  have hexec := State.laneDrop_of hp hlane hup hactive hfails
  rw [State.laneDropped_minLanes hp] at hexec
  have hraised := State.laneDropped_raises (s := s) hp hlane lost
  have honly := State.laneDropped_only (s := s) hp hlane lost
  have hrest := State.laneDropped_rest (s := s) (p := p) (lane := lane) lost
  have hen := State.laneDropped_ctrl (s := s) (lane := lane) hp lost (f := Reg.fabCtrlEn p) (l := 0) (by decide) rfl
  obtain ⟨uactive, ulanes, uwidth, udrops, ulost⟩ := State.laneDropped_shows (s := s) hp hlane lost
  generalize s.laneDropped p lane lost = u at *
  dsimp only
  generalize s.dropMask p lane = mask at *
  have hport : u.port p = s.port p := State.port_of_ports (congrArg State.ports hrest :) p
  have hcad : u.cad = s.cad := (congrArg State.cad hrest :)
  have kstate : (Reg.fabStatusState p).key = (0x100000 + 0x1000 * p + 4) * 32 + 0 := rfl
  have kactive : (Reg.fabLaneActive p lane).key = (0x100000 + 0x1000 * p + 0x108 + 0x10 * lane) * 32 + 2 := rfl
  have klanes : (Reg.fabStatusRxLanes p).key = (0x100000 + 0x1000 * p + 4) * 32 + 24 := rfl
  have kwidth : (Reg.fabStatusRxWidth p).key = (0x100000 + 0x1000 * p + 4) * 32 + 8 := rfl
  have ksignal : (Reg.fabLaneSignal p lane).key = (0x100000 + 0x1000 * p + 0x108 + 0x10 * lane) * 32 + 0 := rfl
  have klocked : (Reg.fabLaneLocked p lane).key = (0x100000 + 0x1000 * p + 0x108 + 0x10 * lane) * 32 + 1 := rfl
  have kdrops : (Reg.fabDrops p).key = (0x100000 + 0x1000 * p + 0x24) * 32 + 0 := rfl
  by_cases hlow : lanesIn mask < s.minLanes p
  · rw [if_pos hlow] at hexec
    have hword : ∀ f, PortWord f → f.key ≠ (Reg.fabStatusState p).key → (u.goDown p).get f = u.get f := fun f => u.goDown_word p
    refine ⟨u.goDown p, hexec, honly.trans (u.goDown_only hp), ?_, ?_, ?_, ?_, fun h => ⟨?_, ?_⟩, fun h => absurd hlow (by omega), fun _ => ?_⟩
    · rw [hword _ (.lane hp hlane (l := 2) (by decide) kactive) (by omega), uactive]
    · rw [hword _ (.status hp (l := 24) (by decide) klanes) (by omega), ulanes]
    · rw [hword _ (.status hp (l := 8) (by decide) kwidth) (by omega), uwidth]
    · rw [hword _ ⟨p, 0x24, 0, hp, by decide, by decide, kdrops⟩ (by omega), udrops]
    · rw [hword _ (.lane hp hlane (l := 0) (by decide) ksignal) (by omega), (ulost h).1]
    · rw [hword _ (.lane hp hlane (l := 1) (by decide) klocked) (by omega), (ulost h).2]
    · obtain ⟨hstate, hdown⟩ := u.goDown_down hp
      refine ⟨State.goDown_raises hraised hcad hen, hstate, ?_⟩
      rw [hport] at hdown
      exact hdown
  · rw [if_neg hlow] at hexec
    have hup' := u.putUpState_shows p
    have hput : { u.putUpState p with regs := u.regs } = u := rfl
    have hget : ∀ f : Fld, f.key ≠ (Reg.fabStatusState p).key → (u.putUpState p).get f = u.get f := fun f => u.putUpState_get p
    have hfab : OnlyFabric u (u.putUpState p) := u.put_onlyFabric (by omega) _
    generalize u.putUpState p = v at *
    obtain ⟨htells, hsame⟩ := State.sendDegrade_tells (s := s) (u := v) (p := p)
      ((State.port_of_ports (congrArg State.ports hput :) p).trans hport) ((congrArg State.out hput :).trans (congrArg State.out hrest :))
    generalize v.sendDegrade p = t at *
    have hregs : t.regs = v.regs := (congrArg State.regs hsame :)
    have htget : ∀ f : Fld, f.key ≠ (Reg.fabStatusState p).key → t.get f = u.get f := fun f hf => (State.get_of_regs hregs f).trans (hget f hf)
    refine ⟨t, hexec, (honly.trans hfab).trans (.of_sent hsame), ?_, ?_, ?_, ?_, fun h => ⟨?_, ?_⟩, fun _ => ⟨?_, hup'.of_regs hregs, htells, ?_, ?_⟩,
      fun h => absurd h hlow⟩
    · rw [htget _ (by omega), uactive]
    · rw [htget _ (by omega), ulanes]
    · rw [htget _ (by omega), uwidth]
    · rw [htget _ (by omega), udrops]
    · rw [htget _ (by omega), (ulost h).1]
    · rw [htget _ (by omega), (ulost h).2]
    · refine hraised.raises ?_
      rw [(congrArg State.faultQ hsame :), (congrArg State.faultQ hput :)]
    · exact ((congrArg State.cad hsame :).trans (congrArg State.cad hput :)).trans hcad
    · exact ((congrArg State.net hsame :).trans (congrArg State.net hput :)).trans (congrArg State.net hrest :)

end Sys2Proof.Machine
end

section
/-! SUPPORT. Proofs: a lane that joins again, a DEGRADE of the peer, and the ACK that ends an exchange (R293, R294). -/

namespace Sys2Proof.Machine

namespace State

/-! ## LANE_READMIT -/

/-- A write of a register is of the registers. -/
theorem SameButRegs.write {s t : State} (h : SameButRegs s t) {f : Fld} {v : Nat} : SameButRegs s (t.put f v) := h

/-- The registers once a lane has joined again. -/
def withLane (s : State) (p lane mask margin : Nat) : State :=
  let s1 := (((s.put (Reg.fabLaneActive p lane) 1).put (Reg.fabLaneSignal p lane) 1).put (Reg.fabLaneLocked p lane) 1).put
    (Reg.fabLaneMargin p lane) margin
  ((s1.put (Reg.fabStatusRxLanes p) mask).put (Reg.fabStatusRxWidth p) (lanesIn mask)).count (Reg.fabReadmits p)

/-- The receive lanes with physical lane `lane`. -/
def addMask (s : State) (p lane : Nat) : Nat :=
  let logical := bits (s.get (Reg.fabLaneMap p)) (3 * lane) 3
  let old := s.get (Reg.fabStatusRxLanes p)
  if bit old logical then old else old + 2 ^ logical

theorem withLane_rest (s : State) (p lane mask margin : Nat) : SameButRegs s ((s.withLane p lane mask margin).putUpState p) := by
  unfold withLane putUpState count
  repeat refine SameButRegs.write ?_
  exact rfl

theorem withLane_shows (s : State) (p lane mask margin : Nat) :
    let u := (s.withLane p lane mask margin).putUpState p
    u.get (Reg.fabLaneActive p lane) = 1 ∧ u.get (Reg.fabLaneSignal p lane) = 1 ∧ u.get (Reg.fabLaneLocked p lane) = 1 ∧
    u.get (Reg.fabLaneMargin p lane) = margin % 2 ^ (Reg.fabLaneMargin p lane).w ∧ u.get (Reg.fabStatusRxLanes p) = mask % 256 ∧
    u.get (Reg.fabReadmits p) = min (s.get (Reg.fabReadmits p) + 1) (2 ^ (Reg.fabReadmits p).w - 1) := by
  have k0 : (Reg.fabStatusState p).key = (0x100000 + 0x1000 * p + 4) * 32 + 0 := rfl
  have k1 : (Reg.fabLaneActive p lane).key = (0x100000 + 0x1000 * p + 0x108 + 0x10 * lane) * 32 + 2 := rfl
  have k2 : (Reg.fabStatusRxLanes p).key = (0x100000 + 0x1000 * p + 4) * 32 + 24 := rfl
  have k3 : (Reg.fabStatusRxWidth p).key = (0x100000 + 0x1000 * p + 4) * 32 + 8 := rfl
  have k4 : (Reg.fabLaneSignal p lane).key = (0x100000 + 0x1000 * p + 0x108 + 0x10 * lane) * 32 + 0 := rfl
  have k5 : (Reg.fabLaneLocked p lane).key = (0x100000 + 0x1000 * p + 0x108 + 0x10 * lane) * 32 + 1 := rfl
  have k6 : (Reg.fabReadmits p).key = (0x100000 + 0x1000 * p + 0x28) * 32 + 0 := rfl
  have k7 : (Reg.fabLaneMargin p lane).key = (0x100000 + 0x1000 * p + 0x108 + 0x10 * lane) * 32 + 8 := rfl
  unfold withLane
  simp (disch := omega) only [putUpState_get, count, get_put_ne, get_put_same]
  exact ⟨rfl, rfl, rfl, trivial, rfl, Nat.mod_eq_of_lt (min_field_lt _ _)⟩

theorem joinLane_eq (s : State) (p lane margin : Nat) :
    s.joinLane p lane margin = ((s.withLane p lane (s.addMask p lane) margin).putUpState p).sendDegrade p := rfl

theorem laneReadmit_of {s : State} {p lane : Nat} (hp : p < 12) (hlane : lane < 8) (hup : s.portUp p = true)
    (hreadmit : s.get (Reg.fabCtrlReadmit p) = 1) (hactive : s.get (Reg.fabLaneActive p lane) ≠ 1) (margin : Nat) :
    exec (.laneReadmit p lane margin) s =
      if (s.port p).tell then .next (s.setPort p { s.port p with readmit := (s.port p).readmit ++ [(lane, margin)] })
      else .next (s.joinLane p lane margin) := by
  have hflag : s.flag (Reg.fabLaneActive p lane) = false := by simpa [flag] using hactive
  refine if_neg ?_
  rw [hup, flag_of_one hreadmit, hflag, decide_eq_false (Nat.not_le.mpr hp), decide_eq_false (Nat.not_le.mpr hlane)]
  decide

/-! ## DEGRADE -/

/-- The registers once the peer has named its lanes. -/
def peerLanes (s : State) (p mask : Nat) : State := (s.put (Reg.fabStatusTxLanes p) mask).put (Reg.fabStatusTxWidth p) (lanesIn (mask % 256))

theorem peerLanes_shows (s : State) (p mask : Nat) :
    (s.peerLanes p mask).get (Reg.fabStatusTxLanes p) = mask % 256 ∧ (s.peerLanes p mask).get (Reg.fabStatusTxWidth p) = lanesIn (mask % 256) := by
  have hle := lanesIn_le (mask % 256)
  have hmod : lanesIn (mask % 256) % 2 ^ (Reg.fabStatusTxWidth p).w = lanesIn (mask % 256) :=
    Nat.mod_eq_of_lt (by show lanesIn (mask % 256) < 16; omega)
  have k1 : (Reg.fabStatusTxLanes p).key = (0x100000 + 0x1000 * p + 4) * 32 + 16 := rfl
  have k2 : (Reg.fabStatusTxWidth p).key = (0x100000 + 0x1000 * p + 4) * 32 + 4 := rfl
  unfold peerLanes
  simp (disch := omega) only [get_put_ne, get_put_same, hmod]
  exact ⟨rfl, trivial⟩

/-- Of CTRL nothing changes. -/
theorem peerLanes_ctrl (s : State) (p mask : Nat) {f : Fld} {l : Nat} (hl : l < 32) (hf : f.key = (0x100000 + 0x1000 * p + 0) * 32 + l) :
    (s.peerLanes p mask).get f = s.get f := by
  have k1 : (Reg.fabStatusTxLanes p).key = (0x100000 + 0x1000 * p + 4) * 32 + 16 := rfl
  have k2 : (Reg.fabStatusTxWidth p).key = (0x100000 + 0x1000 * p + 4) * 32 + 4 := rfl
  unfold peerLanes
  simp (disch := omega) only [get_put_ne]

theorem peerLanes_only (s : State) {p : Nat} (hp : p < 12) (mask : Nat) : OnlyFabric s (s.peerLanes p mask) := by
  have k1 : (Reg.fabStatusTxLanes p).key = (0x100000 + 0x1000 * p + 4) * 32 + 16 := rfl
  have k2 : (Reg.fabStatusTxWidth p).key = (0x100000 + 0x1000 * p + 4) * 32 + 4 := rfl
  exact (s.put_onlyFabric (by omega) _).trans (put_onlyFabric _ (by omega) _)

/-- The frames that no ACK covers, cut at a width of `w` bytes. -/
def cutAgain (w : Nat) (x : Port) (f : TxFrame) : Recut :=
  recut w { frames := [], next := f.seq, inRun := false, moved := [], sending := x.sending } x.replay

/-- What cutting the replay buffer anew leaves. -/
theorem restripe_spec (s : State) (p : Nat) :
    { s.restripe p with ports := s.ports } = s ∧ ((s.restripe p).port p).rxSeq = (s.port p).rxSeq ∧
    ∀ f rest, (s.port p).replay = f :: rest → ((s.restripe p).port p).replay = (cutAgain (s.frameBytes p) (s.port p) f).frames := by
  unfold restripe cutAgain
  dsimp only
  cases h : (s.port p).replay with
  | nil => exact ⟨rfl, rfl, fun f rest e => by cases e⟩
  | cons g l =>
    dsimp only
    refine ⟨rfl, ?_, fun f rest e => ?_⟩
    · rw [port_setPort_same]
    · cases e
      rw [port_setPort_same]

theorem degrade_of {s : State} {p mask : Nat} (hp : p < 12) (hup : s.portUp p = true) (hmask : mask % 256 ≠ s.get (Reg.fabStatusTxLanes p)) :
    exec (.degrade p mask) s = if lanesIn (mask % 256) < (s.peerLanes p mask).minLanes p then .next ((s.peerLanes p mask).goDown p)
      else .next (((((s.peerLanes p mask).putUpState p).restripe p).resend p).pumpAll p) := by
  refine if_neg ?_
  rw [hup, beq_eq_false_iff_ne.mpr hmask, decide_eq_false (Nat.not_le.mpr hp)]
  decide

end State

/-- The clause of the statement on LANE_READMIT while no DEGRADE exchange runs. -/
theorem laneReadmit_joins {s : State} {p lane : Nat} (hp : p < 12) (hlane : lane < 8) (hup : s.portUp p = true)
    (hreadmit : s.get (Reg.fabCtrlReadmit p) = 1) (hactive : s.get (Reg.fabLaneActive p lane) ≠ 1) (htell : (s.port p).tell = false) (margin : Nat) :
    ∃ t, exec (.laneReadmit p lane margin) s = .next t ∧ t.get (Reg.fabLaneActive p lane) = 1 ∧
      t.get (Reg.fabLaneSignal p lane) = 1 ∧ t.get (Reg.fabLaneLocked p lane) = 1 ∧
      t.get (Reg.fabLaneMargin p lane) = margin % 2 ^ (Reg.fabLaneMargin p lane).w ∧
      t.get (Reg.fabStatusRxLanes p) = s.addMask p lane % 256 ∧
      t.get (Reg.fabReadmits p) = min (s.get (Reg.fabReadmits p) + 1) (2 ^ (Reg.fabReadmits p).w - 1) ∧ ShowsWidth t p ∧
      SendsBare (({ s with regs := t.regs }).setPort p { s.port p with tell := true }) t p false ∧
      { t with regs := s.regs, ports := s.ports, out := s.out } = s := by
  have hexec := State.laneReadmit_of hp hlane hup hreadmit hactive margin
  rw [if_neg (by simp [htell])] at hexec
  rw [State.joinLane_eq] at hexec
  have hrest := s.withLane_rest p lane (s.addMask p lane) margin
  have hshows := s.withLane_shows p lane (s.addMask p lane) margin
  have hwidth := (s.withLane p lane (s.addMask p lane) margin).putUpState_shows p
  dsimp only at hshows
  generalize (s.withLane p lane (s.addMask p lane) margin).putUpState p = u at *
  obtain ⟨hact, hsignal, hlocked, hmargin, hlanes, hcount⟩ := hshows
  obtain ⟨htells, hsame⟩ := State.sendDegrade_tells (s := s) (u := u) (p := p)
    (State.port_of_ports (congrArg State.ports hrest :) p) (congrArg State.out hrest :)
  generalize u.sendDegrade p = t at *
  have hget := State.get_of_regs (congrArg State.regs hsame :)
  refine ⟨t, hexec, (hget (Reg.fabLaneActive p lane)).trans hact, (hget (Reg.fabLaneSignal p lane)).trans hsignal,
    (hget (Reg.fabLaneLocked p lane)).trans hlocked, (hget (Reg.fabLaneMargin p lane)).trans hmargin,
    (hget (Reg.fabStatusRxLanes p)).trans hlanes, (hget (Reg.fabReadmits p)).trans hcount,
    hwidth.of_regs (congrArg State.regs hsame :), htells, ?_⟩
  exact (congrArg (fun v : State => { v with regs := s.regs, ports := s.ports, out := s.out }) hsame :).trans
    (congrArg (fun v : State => { v with ports := s.ports, out := s.out }) hrest :)

end Sys2Proof.Machine
end

section
/-! SUPPORT. Proofs: lanes are dropped and readmitted by DEGRADE (R293, R294). -/

namespace Sys2Proof.Machine

/-- What the peer's lanes leave of a port that stays up: its STATE and its frames, sent again and kept. -/
theorem degrade_resends {s : State} {p mask : Nat} (hp : p < 12) :
    let t := ((((s.peerLanes p mask).putUpState p).restripe p).resend p).pumpAll p
    OnlyFabric s t ∧ t.get (Reg.fabStatusTxLanes p) = mask % 256 ∧ t.get (Reg.fabStatusTxWidth p) = lanesIn (mask % 256) ∧ ShowsWidth t p ∧
      t.faultQ = s.faultQ ∧ s.out <+: t.out ∧
      ∀ f rest, (s.port p).replay = f :: rest →
        let c := State.cutAgain (1280 * max 1 (lanesIn (mask % 256))) (s.port p) f
        notIdle (c.frames.map (fun g => t.frameOut p g.kind false g.seq g.packet g.part)) <+: notIdle (t.out.drop s.out.length) ∧
        c.frames <+: (t.port p).replay := by
  have kstate : (Reg.fabStatusState p).key = (0x100000 + 0x1000 * p + 4) * 32 + 0 := rfl
  have klanes : (Reg.fabStatusTxLanes p).key = (0x100000 + 0x1000 * p + 4) * 32 + 16 := rfl
  have kwidth : (Reg.fabStatusTxWidth p).key = (0x100000 + 0x1000 * p + 4) * 32 + 4 := rfl
  have krx : (Reg.fabStatusRxWidth p).key = (0x100000 + 0x1000 * p + 4) * 32 + 8 := rfl
  have hpeer := s.peerLanes_only hp mask
  obtain ⟨htx, hw⟩ := s.peerLanes_shows p mask
  have hrest : SameButRegs s ((s.peerLanes p mask).putUpState p) := rfl
  have hput : OnlyFabric (s.peerLanes p mask) ((s.peerLanes p mask).putUpState p) := (s.peerLanes p mask).put_onlyFabric (by omega) _
  have hshows := (s.peerLanes p mask).putUpState_shows p
  rw [← State.putUpState_get (s.peerLanes p mask) p (by omega)] at htx hw
  generalize (s.peerLanes p mask).putUpState p = u1 at *
  have hport : u1.port p = s.port p := State.port_of_ports (congrArg State.ports hrest :) p
  obtain ⟨hcut, hseq, hframes⟩ := u1.restripe_spec p
  have hbytes : u1.frameBytes p = 1280 * max 1 (lanesIn (mask % 256)) := by
    unfold State.frameBytes
    rw [hw]
  rw [hport, hbytes] at hframes
  generalize u1.restripe p = u2 at *
  have hagain : u2.resend p = u2.sendAgain p (u2.port p).replay := rfl
  rw [hagain]
  obtain ⟨hsent, hsame, m, hout, hm⟩ := u2.sendAgain_spec p (u2.port p).replay
  generalize u2.sendAgain p (u2.port p).replay = u3 at *
  have hpump := u3.pumpAll_sending (p := p) (by omega)
  have hkeeps := (u3.pumpAll_replay p).replay
  dsimp only
  generalize u3.pumpAll p = t at *
  have hregs : u3.regs = u1.regs := (congrArg State.regs hsent :).trans (congrArg State.regs hcut :)
  have hget : ∀ {f : Fld} {o : Nat}, f.addr = 0x100000 + 0x1000 * p + o → o < 0x30 → f.lo < 32 → t.get f = u1.get f :=
    fun ha ho hl => (State.get_word_of_sending hpump ha (.inl ho) hl).trans (State.get_of_regs hregs _)
  have htlanes := (hget (f := Reg.fabStatusTxLanes p) (o := 4) rfl (by decide) (show 16 < 32 by decide))
  have htwidth := (hget (f := Reg.fabStatusTxWidth p) (o := 4) rfl (by decide) (show 4 < 32 by decide))
  have hout1 : u3.out = s.out ++ m := by
    rw [hout, (congrArg State.out hcut :), (congrArg State.out hrest :)]
  obtain ⟨rest, hrestOut⟩ := hpump.out
  have hcut' : OnlyFabric u1 u2 := .of_sent (congrArg (fun v : State => { v with out := u1.out }) hcut :)
  have honly : OnlyFabric u1 u3 := hcut'.trans (.of_sent hsent)
  refine ⟨((hpeer.trans hput).trans honly).trans (Serves.of_sending hpump).only, htlanes.trans htx, htwidth.trans hw,
    hshows.of_get (hget (o := 4) rfl (by decide) (show 0 < 32 by decide)) htwidth (hget (o := 4) rfl (by decide) (show 8 < 32 by decide)), ?_, ?_,
    fun f l hl => ⟨?_, ?_⟩⟩
  · rw [(congrArg State.faultQ hpump.rest :), (congrArg State.faultQ hsent :), (congrArg State.faultQ hcut :), (congrArg State.faultQ hrest :)]
  · rw [← hrestOut, hout1, List.append_assoc]
    exact List.prefix_append _ _
  · rw [← hrestOut, hout1, List.append_assoc, List.drop_left, notIdle_append, hm, hframes f l hl]
    have hsameFrame : ∀ g : TxFrame, t.frameOut p g.kind false g.seq g.packet g.part = u2.frameOut p g.kind false g.seq g.packet g.part := by
      refine fun g => State.frameOut_congr ?_ ?_ ..
      · exact ((congrArg Port.rxSeq (hpump.port p) :)).trans (congrArg Port.rxSeq hsame :)
      · exact htlanes.trans (State.get_of_regs (congrArg State.regs hcut :) _).symm
    simp only [hsameFrame]
    exact List.prefix_append _ _
  · have hreplay : (u3.port p).replay = (u2.port p).replay := (congrArg Port.replay hsame :)
    rw [← hframes f l hl, ← hreplay]
    exact hkeeps

/-- Too few lanes of the peer take the port down. -/
theorem degrade_down {s : State} {p : Nat} (hp : p < 12) (mask : Nat) :
    let t := (s.peerLanes p mask).goDown p
    OnlyFabric s t ∧ t.get (Reg.fabStatusTxLanes p) = mask % 256 ∧ t.get (Reg.fabStatusTxWidth p) = lanesIn (mask % 256) ∧ PortDown s t p ∧
      RaisesPort s t p [(0x39, clsU, 0)] := by
  have kstate : (Reg.fabStatusState p).key = (0x100000 + 0x1000 * p + 4) * 32 + 0 := rfl
  have klanes : (Reg.fabStatusTxLanes p).key = (0x100000 + 0x1000 * p + 4) * 32 + 16 := rfl
  have kwidth : (Reg.fabStatusTxWidth p).key = (0x100000 + 0x1000 * p + 4) * 32 + 4 := rfl
  have hpeer := s.peerLanes_only hp mask
  have hen := s.peerLanes_ctrl p mask (f := Reg.fabCtrlEn p) (l := 0) (by decide) rfl
  have hrest : SameButRegs s (s.peerLanes p mask) := rfl
  obtain ⟨htx, hw⟩ := s.peerLanes_shows p mask
  generalize s.peerLanes p mask = u at *
  have hport : u.port p = s.port p := State.port_of_ports (congrArg State.ports hrest :) p
  have hq : u.faultQ = s.faultQ := (congrArg State.faultQ hrest :)
  have hdown := u.goDown_down hp
  unfold PortDown at hdown
  rw [hport] at hdown
  exact ⟨hpeer.trans (u.goDown_only hp), (u.goDown_word p (.status hp (l := 16) (by decide) klanes) (by omega)).trans htx,
    (u.goDown_word p (.status hp (l := 4) (by decide) kwidth) (by omega)).trans hw, hdown,
    State.goDown_raises (.refl hq p) (congrArg State.cad hrest :) hen⟩

/-- An ACK that covers a DEGRADE frame of these lanes ends the exchange. -/
theorem nak_endsTell {s : State} {p ack : Nat} (hp : p < 12) (hup : s.portUp p = true) (htell : (s.port p).tell = true)
    (hreadmit : (s.port p).readmit = []) (hready : (s.port p).ready = []) (hsending : (s.port p).sending = none)
    (hcovered : (s.port p).replay.any (fun f => f.kind == 3 && f.part == s.get (Reg.fabStatusRxLanes p) && !seqAfter ack f.seq) = true) :
    ∃ t, exec (.nak p ack) s = .next t ∧ (t.port p).tell = false := by
  have kreplays : (Reg.fabReplays p).key = (0x100000 + 0x1000 * p + 0x1C) * 32 + 0 := rfl
  have klanes : (Reg.fabStatusRxLanes p).key = (0x100000 + 0x1000 * p + 4) * 32 + 24 := rfl
  have hexec : exec (.nak p ack) s = .next (((((s.setPort p (State.acked (s.port p) ack)).count (Reg.fabReplays p)).resend p).endTell p ack
      (s.port p).replay).pumpAll p) := by
    refine if_neg ?_
    rw [hup, decide_eq_false (Nat.not_le.mpr hp)]
    decide
  have hthere : ((s.setPort p (State.acked (s.port p) ack)).count (Reg.fabReplays p)).port p = State.acked (s.port p) ack := State.port_setPort_same ..
  have hlanes : ((s.setPort p (State.acked (s.port p) ack)).count (Reg.fabReplays p)).get (Reg.fabStatusRxLanes p) = s.get (Reg.fabStatusRxLanes p) :=
    (State.get_put_ne _ _ (by omega)).trans rfl
  generalize (s.setPort p (State.acked (s.port p) ack)).count (Reg.fabReplays p) = u1 at *
  have hagain : u1.resend p = u1.sendAgain p (u1.port p).replay := rfl
  rw [hagain] at hexec
  obtain ⟨hsent, hsame, -⟩ := u1.sendAgain_spec p (u1.port p).replay
  generalize u1.sendAgain p (u1.port p).replay = u2 at *
  have hport : SameFrames (State.acked (s.port p) ack) (u2.port p) := hthere ▸ hsame
  have htell2 : (u2.port p).tell = true := (congrArg Port.tell hport :).trans htell
  have hreadmit2 : (u2.port p).readmit = [] := (congrArg Port.readmit hport :).trans hreadmit
  have hlanes2 : u2.get (Reg.fabStatusRxLanes p) = s.get (Reg.fabStatusRxLanes p) := (State.get_of_regs (congrArg State.regs hsent :) _).trans hlanes
  have hends : u2.endTell p ack (s.port p).replay = u2.setPort p { u2.port p with tell := false, readmit := [] } := by
    unfold State.endTell
    dsimp only
    rw [htell2, hlanes2, hcovered, hreadmit2]
    rfl
  have hpump : (u2.setPort p { u2.port p with tell := false, readmit := [] }).pumpAll p = u2.setPort p { u2.port p with tell := false, readmit := [] } := by
    refine State.pumpAll_idle ?_ ?_
    · rw [State.port_setPort_same]
      exact (congrArg Port.ready hport :).trans hready
    · rw [State.port_setPort_same]
      exact (congrArg Port.sending hport :).trans hsending
  rw [hends, hpump] at hexec
  exact ⟨_, hexec, by rw [State.port_setPort_same]⟩

/-- Settles O39: each command is unfolded once into the registers of its lane, a drop or readmission, then the port going down or a bare
frame; what the peer's lanes cut anew goes out frame by frame. -/
theorem lanesChange : Obligations.LanesChange := by
  intro s p lane hp hlane hup logical old x up tells
  refine ⟨fun lost corrected uncorr h => ?_, fun lost corrected uncorr hactive hfails => ?_, fun margin h => ?_, fun margin hreadmit hactive => ⟨?_, ?_⟩,
    fun mask h => ?_, fun mask h => ?_, fun ack htell hreadmit hready hsending hcovered => nak_endsTell hp hup htell hreadmit hready hsending hcovered⟩
  · refine if_pos ?_
    rcases h with h | ⟨hlost, hcorrected, huncorr⟩
    · have hflag : s.flag (Reg.fabLaneActive p lane) = false := by simpa [State.flag] using h
      simp [hflag]
    · simp [laneFails, hlost, Nat.not_lt.mpr hcorrected, Nat.not_le.mpr huncorr]
  · refine laneDrop_drops hp hlane hup hactive ?_
    unfold laneFails
    rcases hfails with h | h | h <;> simp [h]
  · refine if_pos ?_
    rcases h with h | h
    · have hflag : s.flag (Reg.fabCtrlReadmit p) = false := by simpa [State.flag] using h
      simp [hflag]
    · simp [State.flag_of_one h]
  · intro htell
    rw [State.laneReadmit_of hp hlane hup hreadmit hactive margin, if_pos htell]
  · exact fun htell => laneReadmit_joins hp hlane hup hreadmit hactive htell margin
  · refine if_pos ?_
    rw [h]
    simp
  · have hexec := State.degrade_of hp hup h
    rw [State.minLanes_of_get (s := s) (s.peerLanes_ctrl p mask (f := Reg.fabCtrlMinLanes p) (l := 4) (by decide) rfl)] at hexec
    by_cases hlow : lanesIn (mask % 256) < s.minLanes p
    · rw [if_pos hlow] at hexec
      obtain ⟨honly, hlanes, hwidth, hdown, hraises⟩ := degrade_down (s := s) hp mask
      exact ⟨_, hexec, honly, hlanes, hwidth, fun hl => absurd hlow (by omega), fun _ => ⟨hdown, hraises⟩⟩
    · rw [if_neg hlow] at hexec
      obtain ⟨honly, hlanes, hwidth, hshows, hfaults, hout, hframes⟩ := degrade_resends (s := s) (mask := mask) hp
      exact ⟨_, hexec, honly, hlanes, hwidth, fun _ => ⟨hshows, hfaults, fun f rest hf => ⟨(hframes f rest hf).1, hout, (hframes f rest hf).2⟩⟩,
        fun hl => absurd hl hlow⟩

end Sys2Proof.Machine
end

section
/-! SUPPORT. Proofs: masks of lanes, and what training leaves in the lane fields (R290, R291). -/

namespace Sys2Proof.Machine

/-- The mask of the numbers below `n` that `g` picks. -/
def pickMask (n : Nat) (g : Nat → Bool) : Nat := ((List.range n).filter g).foldl (fun m i => m + 2 ^ i) 0

theorem pickMask_succ (n : Nat) (g : Nat → Bool) : pickMask (n + 1) g = pickMask n g + if g n then 2 ^ n else 0 := by
  unfold pickMask
  rw [List.range_succ, List.filter_append, List.foldl_append]
  by_cases h : g n = true
  · simp [h]
  · simp [h]

theorem pickMask_lt (n : Nat) (g : Nat → Bool) : pickMask n g < 2 ^ n := by
  induction n with
  | zero => exact Nat.one_pos
  | succ n ih =>
    rw [pickMask_succ, Nat.pow_succ]
    split
    · omega
    · omega

theorem bit_pickMask {n l : Nat} (g : Nat → Bool) (h : l < n) : bit (pickMask n g) l = g l := by
  rw [bit_eq_testBit]
  induction n with
  | zero => omega
  | succ n ih =>
    have hlt := pickMask_lt n g
    rw [pickMask_succ]
    by_cases hl : l = n
    · subst hl
      split
      next hg => rw [Nat.add_comm, Nat.testBit_two_pow_add_eq, Nat.testBit_lt_two_pow hlt, hg]; rfl
      next hg => rw [Nat.add_zero, Nat.testBit_lt_two_pow hlt]; simpa using hg
    · have hln : l < n := by omega
      split
      · rw [Nat.add_comm, Nat.testBit_two_pow_add_gt hln, ih hln]
      · rw [Nat.add_zero, ih hln]

theorem laneMask_eq (lanes : List TrainLane) (f : TrainLane → Bool) : laneMask lanes f = pickMask 8 (fun i => lanes.any (fun l => l.lane == i && f l)) := rfl

theorem bit_laneMask (lanes : List TrainLane) (f : TrainLane → Bool) {i : Nat} (h : i < 8) :
    bit (laneMask lanes f % 256) i = lanes.any (fun l => l.lane == i && f l) := by
  rw [laneMask_eq, Nat.mod_eq_of_lt (show _ < 256 from pickMask_lt 8 _), bit_pickMask _ h]

/-- The complement of a mask of eight lanes. -/
theorem bit_laneMask_compl (lanes : List TrainLane) (f : TrainLane → Bool) {i : Nat} (h : i < 8) :
    bit ((255 - laneMask lanes f) % 256) i = !lanes.any (fun l => l.lane == i && f l) := by
  have hlt : pickMask 8 (fun i => lanes.any (fun l => l.lane == i && f l)) < 2 ^ 8 := pickMask_lt 8 _
  have hbit := bit_pickMask (fun i => lanes.any (fun l => l.lane == i && f l)) h
  rw [laneMask_eq, Nat.mod_eq_of_lt (by omega), bit_eq_testBit]
  rw [bit_eq_testBit] at hbit
  have hsub : 255 - pickMask 8 (fun i => lanes.any (fun l => l.lane == i && f l)) =
      2 ^ 8 - (pickMask 8 (fun i => lanes.any (fun l => l.lane == i && f l)) + 1) := by omega
  rw [hsub, Nat.testBit_two_pow_sub_succ hlt, hbit, decide_eq_true h, Bool.true_and]

/-! ## The lane fields -/

/-- A field that training sets from the lanes: STATUS but for STATE, the map, the wiring faults and the lanes' STATUS. -/
def LaneKey (p k : Nat) : Prop := ∃ o l, l < 32 ∧ k = (0x100000 + 0x1000 * p + o) * 32 + l ∧
  (o = 4 ∧ 4 ≤ l ∨ o = 8 ∨ o = 0xC ∨ 0x108 ≤ o ∧ o < 0x188)

namespace State

/-- Lane `i` as training shows it. -/
def showLane (p : Nat) (lanes : List TrainLane) (t : State) (i : Nat) : State :=
  let f := fun (g : TrainLane → Bool) => b2n (lanes.any (fun l => l.lane == i && g l))
  (((t.put (Reg.fabLaneSignal p i) (f (fun l => l.signal))).put (Reg.fabLaneLocked p i) (f (fun l => l.locked))).put
    (Reg.fabLaneActive p i) (f (usedLane (Machine.identity lanes)))).put (Reg.fabLaneMargin p i)
    (match lanes.find? (fun l => l.lane == i) with
     | some l => l.margin
     | none => 0)

theorem showLane_get {p : Nat} (lanes : List TrainLane) (t : State) (i : Nat) {f : Fld}
    (h : ∀ l, l < 32 → f.key ≠ (0x100000 + 0x1000 * p + (0x108 + 0x10 * i)) * 32 + l) : (showLane p lanes t i).get f = t.get f := by
  have k1 : (Reg.fabLaneSignal p i).key = (0x100000 + 0x1000 * p + 0x108 + 0x10 * i) * 32 + 0 := rfl
  have k2 : (Reg.fabLaneLocked p i).key = (0x100000 + 0x1000 * p + 0x108 + 0x10 * i) * 32 + 1 := rfl
  have k3 : (Reg.fabLaneActive p i).key = (0x100000 + 0x1000 * p + 0x108 + 0x10 * i) * 32 + 2 := rfl
  have k4 : (Reg.fabLaneMargin p i).key = (0x100000 + 0x1000 * p + 0x108 + 0x10 * i) * 32 + 8 := rfl
  have h0 := h 0 (by decide)
  have h1 := h 1 (by decide)
  have h2 := h 2 (by decide)
  have h8 := h 8 (by decide)
  unfold showLane
  simp (disch := omega) only [get_put_ne]

/-- A lane shows its signal and whether it is used. -/
def ShowsLane (t : State) (p : Nat) (lanes : List TrainLane) (i : Nat) : Prop :=
  t.get (Reg.fabLaneActive p i) = b2n (lanes.any (fun l => l.lane == i && usedLane (Machine.identity lanes) l)) ∧
  t.get (Reg.fabLaneSignal p i) = b2n (lanes.any (fun l => l.lane == i && l.signal))

theorem b2n_mod (b : Bool) : b2n b % 2 ^ 1 = b2n b := by cases b <;> rfl

theorem showLane_shows (p : Nat) (lanes : List TrainLane) (t : State) (i : Nat) : ShowsLane (showLane p lanes t i) p lanes i := by
  have k1 : (Reg.fabLaneSignal p i).key = (0x100000 + 0x1000 * p + 0x108 + 0x10 * i) * 32 + 0 := rfl
  have k2 : (Reg.fabLaneLocked p i).key = (0x100000 + 0x1000 * p + 0x108 + 0x10 * i) * 32 + 1 := rfl
  have k3 : (Reg.fabLaneActive p i).key = (0x100000 + 0x1000 * p + 0x108 + 0x10 * i) * 32 + 2 := rfl
  have k4 : (Reg.fabLaneMargin p i).key = (0x100000 + 0x1000 * p + 0x108 + 0x10 * i) * 32 + 8 := rfl
  unfold showLane ShowsLane
  simp (disch := omega) only [get_put_ne, get_put_same]
  exact ⟨b2n_mod _, b2n_mod _⟩

/-- The lanes shown one after the other. -/
theorem showLanes_shows (p : Nat) (lanes : List TrainLane) (t : State) {n i : Nat} (h : i < n) :
    ShowsLane ((List.range n).foldl (showLane p lanes) t) p lanes i := by
  induction n with
  | zero => omega
  | succ n ih =>
    rw [List.range_succ, List.foldl_append]
    by_cases hi : i = n
    · rw [hi]
      exact showLane_shows ..
    · have k1 : (Reg.fabLaneSignal p i).key = (0x100000 + 0x1000 * p + 0x108 + 0x10 * i) * 32 + 0 := rfl
      have k3 : (Reg.fabLaneActive p i).key = (0x100000 + 0x1000 * p + 0x108 + 0x10 * i) * 32 + 2 := rfl
      obtain ⟨hactive, hsignal⟩ := ih (by omega)
      exact ⟨(showLane_get lanes _ n fun l hl => by omega).trans hactive, (showLane_get lanes _ n fun l hl => by omega).trans hsignal⟩

theorem showLanes_get (p : Nat) (lanes : List TrainLane) (t : State) (n : Nat) {f : Fld}
    (h : ∀ i l, i < n → l < 32 → f.key ≠ (0x100000 + 0x1000 * p + (0x108 + 0x10 * i)) * 32 + l) :
    ((List.range n).foldl (showLane p lanes) t).get f = t.get f := by
  induction n with
  | zero => rfl
  | succ n ih =>
    rw [List.range_succ, List.foldl_append]
    exact (showLane_get lanes _ n fun l hl => h n l (by omega) hl).trans (ih fun i l hi hl => h i l (by omega) hl)

theorem showLanes_rest (p : Nat) (lanes : List TrainLane) (t : State) (l : List Nat) : SameButRegs t (l.foldl (showLane p lanes) t) := by
  induction l generalizing t with
  | nil => exact rfl
  | cons i l ih => exact (congrArg (fun v : State => { v with regs := t.regs }) (ih (showLane p lanes t i)) :)

end State

end Sys2Proof.Machine
end

section
/-! SUPPORT. Proofs: what the lane fields show once training has ended (R290, R291). -/

namespace Sys2Proof.Machine

/-- `shown` of the statement: the widths, the masks, the lanes and the wiring faults are as the lanes showed them. -/
def ShowsLanes (t : State) (p : Nat) (lanes : List TrainLane) : Prop :=
  let who := identity lanes
  let used := lanes.filter (usedLane who)
  let foreign := lanes.filter (foreignLane who)
  let rx := used.length % 16
  let txMask := (who.map TrainLane.usable).getD 0 % 256
  let tx := lanesIn txMask
  t.get (Reg.fabStatusRxWidth p) = rx ∧ t.get (Reg.fabStatusTxWidth p) = tx ∧
  t.get (Reg.fabStatusTxLanes p) = txMask ∧ (∀ l, l < 8 → bit (t.get (Reg.fabStatusRxLanes p)) l = used.any (fun x => x.txLane == l)) ∧
  (∀ i, i < 8 → t.get (Reg.fabLaneActive p i) = b2n (used.any (fun l => l.lane == i)) ∧
    t.get (Reg.fabLaneSignal p i) = b2n (lanes.any (fun l => l.lane == i && l.signal)) ∧
    bit (t.get (Reg.fabWiringForeign p)) i = foreign.any (fun l => l.lane == i) ∧
    bit (t.get (Reg.fabWiringPolarity p)) i = lanes.any (fun l => l.lane == i && (l.signal && l.sync == 0x1C)) ∧
    bit (t.get (Reg.fabWiringNosig p)) i = !lanes.any (fun l => l.lane == i && (l.signal && l.locked)))

/-- What is shown stays where the lane fields do. -/
theorem ShowsLanes.of_get {u t : State} {p : Nat} {lanes : List TrainLane} (h : ShowsLanes u p lanes)
    (hget : ∀ f : Fld, LaneKey p f.key → t.get f = u.get f) : ShowsLanes t p lanes := by
  have hlane : ∀ i, i < 8 → t.get (Reg.fabLaneActive p i) = u.get (Reg.fabLaneActive p i) ∧ t.get (Reg.fabLaneSignal p i) = u.get (Reg.fabLaneSignal p i) :=
    fun i hi => ⟨hget (Reg.fabLaneActive p i) ⟨0x108 + 0x10 * i, 2, by decide, by show (_ + _ + _ + _) * 32 + 2 = _; omega, by omega⟩,
      hget (Reg.fabLaneSignal p i) ⟨0x108 + 0x10 * i, 0, by decide, by show (_ + _ + _ + _) * 32 + 0 = _; omega, by omega⟩⟩
  unfold ShowsLanes at h ⊢
  rw [hget (Reg.fabStatusRxWidth p) ⟨4, 8, by decide, rfl, by decide⟩, hget (Reg.fabStatusTxWidth p) ⟨4, 4, by decide, rfl, by decide⟩,
    hget (Reg.fabStatusTxLanes p) ⟨4, 16, by decide, rfl, by decide⟩, hget (Reg.fabStatusRxLanes p) ⟨4, 24, by decide, rfl, by decide⟩,
    hget (Reg.fabWiringForeign p) ⟨0xC, 8, by decide, rfl, by decide⟩, hget (Reg.fabWiringPolarity p) ⟨0xC, 0, by decide, rfl, by decide⟩,
    hget (Reg.fabWiringNosig p) ⟨0xC, 16, by decide, rfl, by decide⟩]
  obtain ⟨hrx, htx, hmask, hlanes, heach⟩ := h
  refine ⟨hrx, htx, hmask, hlanes, fun i hi => ?_⟩
  rw [(hlane i hi).1, (hlane i hi).2]
  exact heach i hi

namespace State

/-- The fields of STATUS, the map and the wiring faults. -/
def laneStatus (s : State) (p rx rxWidth tx txWidth map polarity foreign nosig : Nat) : State :=
  (((((((s.put (Reg.fabStatusRxLanes p) rx).put (Reg.fabStatusRxWidth p) rxWidth).put (Reg.fabStatusTxLanes p) tx).put
    (Reg.fabStatusTxWidth p) txWidth).put (Reg.fabLaneMap p) map).put (Reg.fabWiringPolarity p) polarity).put
    (Reg.fabWiringForeign p) foreign).put (Reg.fabWiringNosig p) nosig

section
variable (s : State) (p rx rxWidth tx txWidth map polarity foreign nosig : Nat)

theorem laneStatus_shows :
    let u := s.laneStatus p rx rxWidth tx txWidth map polarity foreign nosig
    u.get (Reg.fabStatusRxLanes p) = rx % 256 ∧ u.get (Reg.fabStatusRxWidth p) = rxWidth % 16 ∧ u.get (Reg.fabStatusTxLanes p) = tx % 256 ∧
    u.get (Reg.fabStatusTxWidth p) = txWidth % 16 ∧ u.get (Reg.fabWiringPolarity p) = polarity % 256 ∧
    u.get (Reg.fabWiringForeign p) = foreign % 256 ∧ u.get (Reg.fabWiringNosig p) = nosig % 256 := by
  have k1 : (Reg.fabStatusRxLanes p).key = (0x100000 + 0x1000 * p + 4) * 32 + 24 := rfl
  have k2 : (Reg.fabStatusRxWidth p).key = (0x100000 + 0x1000 * p + 4) * 32 + 8 := rfl
  have k3 : (Reg.fabStatusTxLanes p).key = (0x100000 + 0x1000 * p + 4) * 32 + 16 := rfl
  have k4 : (Reg.fabStatusTxWidth p).key = (0x100000 + 0x1000 * p + 4) * 32 + 4 := rfl
  have k5 : (Reg.fabLaneMap p).key = (0x100000 + 0x1000 * p + 8) * 32 + 0 := rfl
  have k6 : (Reg.fabWiringPolarity p).key = (0x100000 + 0x1000 * p + 0xC) * 32 + 0 := rfl
  have k7 : (Reg.fabWiringForeign p).key = (0x100000 + 0x1000 * p + 0xC) * 32 + 8 := rfl
  have k8 : (Reg.fabWiringNosig p).key = (0x100000 + 0x1000 * p + 0xC) * 32 + 16 := rfl
  unfold laneStatus
  simp (disch := omega) only [get_put_ne, get_put_same]
  exact ⟨rfl, rfl, rfl, rfl, rfl, rfl, rfl⟩

theorem laneStatus_get {f : Fld} (h : ¬ LaneKey p f.key) :
    (s.laneStatus p rx rxWidth tx txWidth map polarity foreign nosig).get f = s.get f := by
  have hne : ∀ o l, l < 32 → (o = 4 ∧ 4 ≤ l ∨ o = 8 ∨ o = 0xC) → f.key ≠ (0x100000 + 0x1000 * p + o) * 32 + l :=
    fun o l hl ho e => h ⟨o, l, hl, e, by omega⟩
  unfold laneStatus
  rw [get_put_ne _ _ (hne 0xC 16 (by decide) (by decide)), get_put_ne _ _ (hne 0xC 8 (by decide) (by decide)),
    get_put_ne _ _ (hne 0xC 0 (by decide) (by decide)), get_put_ne _ _ (hne 8 0 (by decide) (by decide)),
    get_put_ne _ _ (hne 4 4 (by decide) (by decide)), get_put_ne _ _ (hne 4 16 (by decide) (by decide)),
    get_put_ne _ _ (hne 4 8 (by decide) (by decide)), get_put_ne _ _ (hne 4 24 (by decide) (by decide))]

theorem laneStatus_rest : SameButRegs s (s.laneStatus p rx rxWidth tx txWidth map polarity foreign nosig) := by
  unfold laneStatus
  repeat refine SameButRegs.write ?_
  exact rfl

end

/-- The logical lane of each physical one, as training leaves the map. -/
def trainedMap (s : State) (p : Nat) (lanes : List TrainLane) : Nat :=
  (List.range 8).foldl (fun m i =>
    let old := bits (s.get (Reg.fabLaneMap p)) (3 * i) 3
    m + (match lanes.find? (fun l => l.lane == i && usedLane (Machine.identity lanes) l) with
      | some l => l.txLane % 8
      | none => old) * 2 ^ (3 * i)) 0

/-- The transmit lanes that the peer reported usable. -/
def usableMask (lanes : List TrainLane) : Nat :=
  match Machine.identity lanes with
  | some w => w.usable % 256
  | none => 0

theorem usableMask_eq (lanes : List TrainLane) : usableMask lanes = ((Machine.identity lanes).map TrainLane.usable).getD 0 % 256 := by
  unfold usableMask
  cases Machine.identity lanes <;> rfl

/-- The status fields of PORT_UP, before its lanes. -/
def trainedStatus (s : State) (p : Nat) (lanes : List TrainLane) : State :=
  s.laneStatus p (pickMask 8 (fun i => (lanes.filter (usedLane (Machine.identity lanes))).any (fun l => l.txLane == i)))
    (lanes.filter (usedLane (Machine.identity lanes))).length (usableMask lanes) (lanesIn (usableMask lanes)) (s.trainedMap p lanes)
    (laneMask lanes (fun l => l.signal && l.sync == 0x1C)) (laneMask lanes (foreignLane (Machine.identity lanes)))
    (255 - laneMask lanes (fun l => l.signal && l.locked))

theorem putLanes_eq (s : State) (p : Nat) (lanes : List TrainLane) :
    s.putLanes p lanes = (List.range 8).foldl (showLane p lanes) (s.trainedStatus p lanes) := rfl

theorem putLanes_get (s : State) (p : Nat) (lanes : List TrainLane) {f : Fld} (h : ¬ LaneKey p f.key) : (s.putLanes p lanes).get f = s.get f := by
  rw [putLanes_eq]
  exact (showLanes_get p lanes _ 8 fun i l hi hl e => h ⟨_, l, hl, e, by omega⟩).trans (laneStatus_get s p _ _ _ _ _ _ _ _ h)

theorem putLanes_rest (s : State) (p : Nat) (lanes : List TrainLane) : SameButRegs s (s.putLanes p lanes) := by
  rw [putLanes_eq]
  have h1 : SameButRegs s (s.trainedStatus p lanes) := laneStatus_rest ..
  generalize s.trainedStatus p lanes = u at *
  exact (congrArg (fun v : State => { v with regs := s.regs }) (showLanes_rest p lanes u (List.range 8)) :).trans h1

theorem putLanes_shows (s : State) (p : Nat) (lanes : List TrainLane) : ShowsLanes (s.putLanes p lanes) p lanes := by
  obtain ⟨hrx, hrxw, htx, htxw, hpol, hforeign, hnosig⟩ := s.laneStatus_shows p
    (pickMask 8 (fun i => (lanes.filter (usedLane (Machine.identity lanes))).any (fun l => l.txLane == i)))
    (lanes.filter (usedLane (Machine.identity lanes))).length (usableMask lanes) (lanesIn (usableMask lanes)) (s.trainedMap p lanes)
    (laneMask lanes (fun l => l.signal && l.sync == 0x1C)) (laneMask lanes (foreignLane (Machine.identity lanes)))
    (255 - laneMask lanes (fun l => l.signal && l.locked))
  have hshow : ∀ i, i < 8 → ShowsLane (s.putLanes p lanes) p lanes i := fun i hi => by
    rw [putLanes_eq]
    exact showLanes_shows p lanes _ hi
  have hword : ∀ f : Fld, (∃ o l, f.key = (0x100000 + 0x1000 * p + o) * 32 + l ∧ o < 0x10 ∧ l < 32) →
      (s.putLanes p lanes).get f = (s.trainedStatus p lanes).get f := by
    rintro f ⟨o, l, hkey, ho, hl⟩
    rw [putLanes_eq]
    exact showLanes_get p lanes _ 8 fun i l' hi hl' => by omega
  have hle := lanesIn_le (usableMask lanes)
  have hmod : usableMask lanes % 256 = usableMask lanes := by
    rw [usableMask_eq]
    exact Nat.mod_mod _ _
  unfold ShowsLanes
  dsimp only
  rw [← usableMask_eq]
  refine ⟨(hword _ ⟨4, 8, rfl, by decide, by decide⟩).trans hrxw, ((hword _ ⟨4, 4, rfl, by decide, by decide⟩).trans htxw).trans (by omega),
    ((hword _ ⟨4, 16, rfl, by decide, by decide⟩).trans htx).trans hmod, fun l hl => ?_, fun i hi => ⟨?_, (hshow i hi).2, ?_, ?_, ?_⟩⟩
  · rw [hword (Reg.fabStatusRxLanes p) ⟨4, 24, rfl, by decide, by decide⟩]
    refine (congrArg (bit · l) hrx).trans ?_
    rw [Nat.mod_eq_of_lt (show _ < 256 from pickMask_lt 8 _), bit_pickMask _ hl]
  · rw [(hshow i hi).1, List.any_filter]
    simp only [Bool.and_comm]
  · rw [hword (Reg.fabWiringForeign p) ⟨0xC, 8, rfl, by decide, by decide⟩, List.any_filter]
    refine (congrArg (bit · i) hforeign).trans ?_
    rw [bit_laneMask _ _ hi]
    simp only [Bool.and_comm]
  · rw [hword (Reg.fabWiringPolarity p) ⟨0xC, 0, rfl, by decide, by decide⟩]
    exact (congrArg (bit · i) hpol).trans (bit_laneMask _ _ hi)
  · rw [hword (Reg.fabWiringNosig p) ⟨0xC, 16, rfl, by decide, by decide⟩]
    exact (congrArg (bit · i) hnosig).trans (bit_laneMask_compl _ _ hi)

end State

end Sys2Proof.Machine
end

section
/-! SUPPORT. Proofs: a port that begins to train, and the counters, the peer and the job of one that comes up (R289, R308, R310). -/

namespace Sys2Proof.Machine

namespace State

/-! ## The start of training (R289) -/

theorem trainStart_trains (s : State) {p : Nat} (hp : p < 12) : Trains s (s.trainStart p) p := by
  have kstate : (Reg.fabStatusState p).key = (0x100000 + 0x1000 * p + 4) * 32 + 0 := rfl
  have kcount : (Reg.fabRetrains p).key = (0x100000 + 0x1000 * p + 0x20) * 32 + 0 := rfl
  have kaddr : Reg.netStatusAddr.key = (0x100000 + 0xC004) * 32 + 0 := rfl
  have kassigned : Reg.netStatusAssigned.key < (0x100000 + 0xC010) * 32 ∧ (0x100000 + 0xC000) * 32 ≤ Reg.netStatusAssigned.key := by decide
  have hregs : SameRegsBut [Reg.fabStatusState p, Reg.fabRetrains p] s ((s.put (Reg.fabStatusState p) 1).count (Reg.fabRetrains p)) :=
    ((SameRegsBut.refl _ s).put _ 1 (by simp)).count _ 1 (by simp)
  have hstate : ((s.put (Reg.fabStatusState p) 1).count (Reg.fabRetrains p)).get (Reg.fabStatusState p) = 1 :=
    (get_put_ne _ _ (by omega)).trans (get_put_same ..)
  have hcount : ((s.put (Reg.fabStatusState p) 1).count (Reg.fabRetrains p)).get (Reg.fabRetrains p) =
      min (s.get (Reg.fabRetrains p) + 1) (2 ^ (Reg.fabRetrains p).w - 1) := by
    rw [get_count_same _ _ _ (by show 0 < 32; decide), get_put_ne _ _ (by omega)]
  have hrest : SameButRegs s ((s.put (Reg.fabStatusState p) 1).count (Reg.fabRetrains p)) := rfl
  unfold trainStart
  dsimp only
  generalize (s.put (Reg.fabStatusState p) 1).count (Reg.fabRetrains p) = u at *
  have hout : u.out = s.out := (congrArg State.out hrest :)
  split
  next hmode =>
    refine ⟨hstate, hcount, hregs, ?_, fun _ => hout, fun h => absurd hmode h⟩
    exact (congrArg (fun v : State => { v with out := s.out, freeCtr := s.freeCtr }) hrest :)
  next hmode =>
    refine ⟨hstate, hcount, hregs, ?_, fun h => absurd h hmode, fun _ => ⟨u.free, ?_⟩⟩
    · exact (congrArg (fun v : State => { v with out := s.out, freeCtr := s.freeCtr }) hrest :)
    · show u.out ++ [trainOut u p 0 u.free] = s.out ++ [trainOut s p 0 u.free]
      rw [hout]
      unfold trainOut
      rw [hregs Reg.netStatusAddr (by simp only [List.mem_cons, List.not_mem_nil, or_false]; rintro g (rfl | rfl) <;> omega),
        hregs Reg.netStatusAssigned (by simp only [List.mem_cons, List.not_mem_nil, or_false]; rintro g (rfl | rfl) <;> omega)]

/-! ## Counters (R287, R308, R334) -/

/-- What a port that comes up keeps of itself. -/
def KeepsUp (x y : Port) : Prop := y.fresh = x.fresh ∧ y.rxSeq = x.rxSeq ∧ y.jobDown = x.jobDown

theorem KeepsUp.trans {x y z : Port} (h : KeepsUp x y) (k : KeepsUp y z) : KeepsUp x z :=
  ⟨k.1.trans h.1, k.2.1.trans h.2.1, k.2.2.trans h.2.2⟩

theorem KeepsUp.of_sent {x y : Port} (h : SentPort x y) : KeepsUp x y :=
  ⟨(congrArg Port.fresh h :), (congrArg Port.rxSeq h :), (congrArg Port.jobDown h :)⟩

/-- A port that starts afresh has its credits in full. -/
theorem portCounters_fresh {s : State} {p : Nat} (h : (s.port p).fresh = true) : s.portCounters p = s.setPort p { s.port p with
    fresh := false, shared := sharedCredits, classes := classCredits.map (fun c => List.replicate 12 c) } := by
  unfold portCounters
  dsimp only
  rw [if_pos h]

/-- Cutting the replay buffer anew is no start. -/
theorem restripe_keeps (s : State) (p : Nat) : KeepsUp (s.port p) ((s.restripe p).port p) := by
  unfold restripe
  dsimp only
  split
  · exact ⟨rfl, rfl, rfl⟩
  · rw [port_setPort_same]
    exact ⟨rfl, rfl, rfl⟩

/-- Else replay resumes (R288). -/
theorem portCounters_resumes {s : State} {p : Nat} (hp : p < 16) (h : (s.port p).fresh = false) :
    SameRegsBut sentRegs s (s.portCounters p) ∧ { s.portCounters p with regs := s.regs, ports := s.ports, out := s.out } = s ∧
    s.out <+: (s.portCounters p).out ∧ KeepsUp (s.port p) ((s.portCounters p).port p) := by
  unfold portCounters
  dsimp only
  rw [if_neg (by simp [h])]
  have hquiet : { s.setPort p { s.port p with tell := false, readmit := [] } with ports := s.ports } = s := rfl
  have hthere : (s.setPort p { s.port p with tell := false, readmit := [] }).port p = { s.port p with tell := false, readmit := [] } := port_setPort_same ..
  generalize s.setPort p { s.port p with tell := false, readmit := [] } = u1 at *
  have h1 : KeepsUp (s.port p) (u1.port p) := by
    rw [hthere]
    exact ⟨rfl, rfl, rfl⟩
  obtain ⟨hcut, -, -⟩ := u1.restripe_spec p
  have h2 := u1.restripe_keeps p
  generalize u1.restripe p = u2 at *
  have hagain : u2.resend p = u2.sendAgain p (u2.port p).replay := rfl
  rw [hagain]
  obtain ⟨hsent, hsame, m, hout, -⟩ := u2.sendAgain_spec p (u2.port p).replay
  generalize u2.sendAgain p (u2.port p).replay = u3 at *
  have hpump := u3.pumpAll_sending hp
  generalize u3.pumpAll p = t at *
  have hregs : u3.regs = s.regs := ((congrArg State.regs hsent :).trans (congrArg State.regs hcut :)).trans (congrArg State.regs hquiet :)
  have h3 : KeepsUp (u2.port p) (u3.port p) := ⟨(congrArg Port.fresh hsame :), (congrArg Port.rxSeq hsame :), (congrArg Port.jobDown hsame :)⟩
  refine ⟨(SameRegsBut.of_regs hregs).trans hpump.regs, ?_, ?_, ((h1.trans h2).trans h3).trans (.of_sent (hpump.port p))⟩
  · let kept : State → State := fun v => { v with regs := s.regs, ports := s.ports, out := s.out }
    exact (((congrArg kept hpump.rest :).trans (congrArg kept hsent :)).trans (congrArg kept hcut :)).trans (congrArg kept hquiet :)
  · refine List.IsPrefix.trans ?_ hpump.out
    rw [hout, (congrArg State.out hcut :), (congrArg State.out hquiet :)]
    exact List.prefix_append _ _

/-- What the counters of a port that comes up leave. -/
theorem portCounters_spec (s : State) {p : Nat} (hp : p < 12) :
    Serves s (s.portCounters p) ∧ { s.portCounters p with regs := s.regs, ports := s.ports, out := s.out } = s ∧
    SameRegsBut sentRegs s (s.portCounters p) ∧
    ((s.portCounters p).port p).fresh = false ∧ ((s.portCounters p).port p).rxSeq = (s.port p).rxSeq ∧
    ((s.portCounters p).port p).jobDown = (s.port p).jobDown ∧
    ((s.port p).fresh = true → ((s.portCounters p).port p).shared = sharedCredits ∧
      ((s.portCounters p).port p).classes = classCredits.map (fun c => List.replicate 12 c)) := by
  cases h : (s.port p).fresh
  · obtain ⟨hregs, hrest, hout, hfresh, hseq, hdown⟩ := portCounters_resumes (Nat.lt_trans hp (by decide)) h
    generalize s.portCounters p = t at *
    exact ⟨.of_counts hregs hrest hout, hrest, hregs, hfresh.trans h, hseq, hdown, fun e => by cases e⟩
  · rw [portCounters_fresh h, port_setPort_same]
    exact ⟨.setPort .., rfl, SameRegsBut.of_regs rfl, rfl, rfl, rfl, fun _ => ⟨rfl, rfl⟩⟩

end State

end Sys2Proof.Machine
end

section
/-! SUPPORT. Proofs: the stages of PORT_UP: the lanes and their faults, the peer, the counters and the job (R290 to R292, R310, R314). -/

namespace Sys2Proof.Machine

/-- From `s` to `t` only the fabric has worked, and of the ports' own words only those of `K` may have changed. -/
structure Keeping (K : Nat → Prop) (s t : State) : Prop where
  only : OnlyFabric s t
  word : ∀ f, PortWord f → ¬ K f.key → t.get f = s.get f
  faults : s.faultQ <+: t.faultQ

namespace Keeping
variable {K : Nat → Prop}

theorem refl (s : State) : Keeping K s s := ⟨.refl s, fun _ _ _ => rfl, List.prefix_rfl⟩

theorem trans {r s t : State} (h : Keeping K r s) (k : Keeping K s t) : Keeping K r t :=
  ⟨h.only.trans k.only, fun f hf hk => (k.word f hf hk).trans (h.word f hf hk), h.faults.trans k.faults⟩

theorem of_serves {s t : State} (h : Serves s t) : Keeping K s t := ⟨h.only, fun f hf _ => h.word f hf, h.faults⟩

theorem put (s : State) {f : Fld} (hfab : 0x100000 * 32 ≤ f.key ∧ f.key < 0x110000 * 32) (hf : K f.key) (v : Nat) : Keeping K s (s.put f v) :=
  ⟨s.put_onlyFabric hfab v, fun _ _ hg => State.get_put_ne s v fun e => hg (e ▸ hf), List.prefix_rfl⟩

theorem setPort (s : State) (p : Nat) (x : Port) : Keeping K s (s.setPort p x) := of_serves (.setPort ..)

theorem mono {L : Nat → Prop} {s t : State} (h : Keeping K s t) (hl : ∀ k, K k → L k) : Keeping L s t :=
  ⟨h.only, fun f hf hk => h.word f hf fun e => hk (hl _ e), h.faults⟩

end Keeping

/-- The STATE of port `p`. -/
def StateKey (p k : Nat) : Prop := k = (Reg.fabStatusState p).key

/-- The words of port `p` that name its peer. -/
def PeerKey (p k : Nat) : Prop := ∃ o l, l < 32 ∧ k = (0x100000 + 0x1000 * p + o) * 32 + l ∧ 0x10 ≤ o ∧ o < 0x1C

theorem LaneKey.portWord {p : Nat} (hp : p < 12) {f : Fld} (h : LaneKey p f.key) : PortWord f := by
  obtain ⟨o, l, hl, hkey, ho⟩ := h
  exact ⟨p, o, l, hp, by omega, hl, hkey⟩

/-- The lane fields are neither the port's STATE nor its peer's words. -/
theorem LaneKey.other {p k : Nat} (h : LaneKey p k) : ¬ (StateKey p k ∨ PeerKey p k) := by
  obtain ⟨o, l, hl, hkey, ho⟩ := h
  rintro (hs | ⟨o', l', hl', hkey', ho'⟩)
  · have hstate : (Reg.fabStatusState p).key = (0x100000 + 0x1000 * p + 4) * 32 + 0 := rfl
    unfold StateKey at hs
    omega
  · omega

namespace State

/-! ## The lanes and the faults of foreign ones -/

/-- The device at the end of training, the foreign lanes raised. -/
def trained (s : State) (p : Nat) (lanes : List TrainLane) (eqReq : Nat) : State :=
  (lanes.filter (foreignLane (Machine.identity lanes))).foldl (fun t l => t.raisePort p 0x3A clsC l.lane)
    ((s.sendTrain p (laneMask lanes (usedLane (Machine.identity lanes))) eqReq).putLanes p lanes)

theorem foreign_raises {s : State} {p : Nat} (hp : p < 12) (l : List TrainLane) {u : State} {m : List (Nat × Nat × Nat)} (h : RaisedPort s u p m)
    (hcad : u.cad = s.cad) (hen : u.get (Reg.fabCtrlEn p) = s.get (Reg.fabCtrlEn p)) :
    let t := l.foldl (fun t l => t.raisePort p 0x3A clsC l.lane) u
    RaisedPort s t p (m ++ l.map (fun l => (0x3A, clsC, l.lane % 8))) ∧ Serves u t ∧ { t with regs := u.regs, faultQ := u.faultQ } = u := by
  induction l generalizing u m with
  | nil => exact ⟨by simpa using h, .refl u, rfl⟩
  | cons a l ih =>
    have hserves := (u.raisePort_spares p 0x3A clsC a.lane).serves
    have hupd := u.raisePort_upd p 0x3A clsC a.lane
    have hraised := h.raise hcad hen 0x3A clsC a.lane
    rw [List.foldl_cons]
    generalize u.raisePort p 0x3A clsC a.lane = v at *
    obtain ⟨h1, h2, h3⟩ := ih hraised ((congrArg State.cad hupd :).trans hcad)
      ((hserves.word (Reg.fabCtrlEn p) ⟨p, 0, 0, hp, by decide, by decide, rfl⟩).trans hen)
    refine ⟨?_, hserves.trans h2, (congrArg (fun w : State => { w with regs := u.regs, faultQ := u.faultQ }) h3 :).trans hupd⟩
    rw [List.append_assoc] at h1
    exact h1

/-- What training leaves before the port is up or down. -/
structure Trained (s u : State) (p : Nat) (lanes : List TrainLane) : Prop where
  shows : ShowsLanes u p lanes
  keeps : Keeping (LaneKey p) s u
  rest : { u with regs := s.regs, out := s.out, faultQ := s.faultQ } = s
  raised : RaisedPort s u p ((lanes.filter (foreignLane (Machine.identity lanes))).map (fun l => (0x3A, clsC, l.lane % 8)))

theorem trained_of (s : State) {p : Nat} (hp : p < 12) (lanes : List TrainLane) (eqReq : Nat) : Trained s (s.trained p lanes eqReq) p lanes := by
  have hemit : { s.sendTrain p (laneMask lanes (usedLane (Machine.identity lanes))) eqReq with out := s.out } = s := rfl
  unfold trained
  generalize s.sendTrain p (laneMask lanes (usedLane (Machine.identity lanes))) eqReq = u0 at *
  have hshows := u0.putLanes_shows p lanes
  have hrest := u0.putLanes_rest p lanes
  have hget : ∀ {f : Fld}, ¬ LaneKey p f.key → (u0.putLanes p lanes).get f = s.get f :=
    fun h => (u0.putLanes_get p lanes h).trans (get_of_regs (congrArg State.regs hemit :) _)
  generalize u0.putLanes p lanes = u1 at *
  have hrest1 : { u1 with regs := s.regs, out := s.out } = s :=
    (congrArg (fun v : State => { v with regs := s.regs, out := s.out }) hrest :).trans (congrArg (fun v : State => { v with regs := s.regs }) hemit :)
  have honly : OnlyFabric s u1 := by
    refine ⟨fun f hf _ => hget ?_, ?_⟩
    · rintro ⟨o, l, hl, hkey, ho⟩
      omega
    · exact (congrArg (fun v : State => { v with
        ports := s.ports, net := s.net, cad := s.cad, faultQ := s.faultQ, freeCtr := s.freeCtr }) hrest1 :)
  have hq : u1.faultQ = s.faultQ := (congrArg State.faultQ hrest1 :)
  have hen : u1.get (Reg.fabCtrlEn p) = s.get (Reg.fabCtrlEn p) := by
    refine hget ?_
    rintro ⟨o, l, hl, hkey, ho⟩
    have : (Reg.fabCtrlEn p).key = (0x100000 + 0x1000 * p) * 32 + 0 := rfl
    omega
  obtain ⟨h1, h2, h3⟩ := foreign_raises hp (lanes.filter (foreignLane (Machine.identity lanes))) (RaisedPort.refl hq p) (congrArg State.cad hrest1 :) hen
  rw [List.nil_append] at h1
  refine ⟨hshows.of_get fun f hf => h2.word f (hf.portWord hp), Keeping.trans ⟨honly, fun f _ hf => hget hf, hq ▸ List.prefix_rfl⟩ (.of_serves h2), ?_, h1⟩
  exact (congrArg (fun v : State => { v with regs := s.regs, out := s.out, faultQ := s.faultQ }) h3 :).trans
    (congrArg (fun v : State => { v with faultQ := s.faultQ }) hrest1 :)

/-! ## The peer (Table 11-8) -/

theorem putPeer_shows (s : State) (p : Nat) (w : TrainLane) :
    (s.putPeer p w).get (Reg.fabPeerValid p) = 1 ∧ (s.putPeer p w).get (Reg.fabPeerPort p) = w.port % 16 ∧
      (s.putPeer p w).peerDigest p = w.digest % 2 ^ 64 := by
  have k1 : (Reg.fabPeerDev p).key = (0x100000 + 0x1000 * p + 0x10) * 32 + 0 := rfl
  have k2 : (Reg.fabPeerPort p).key = (0x100000 + 0x1000 * p + 0x10) * 32 + 16 := rfl
  have k3 : (Reg.fabPeerAddressed p).key = (0x100000 + 0x1000 * p + 0x10) * 32 + 30 := rfl
  have k4 : (Reg.fabPeerValid p).key = (0x100000 + 0x1000 * p + 0x10) * 32 + 31 := rfl
  have k5 : (Reg.fabPeerSerialLo p).key = (0x100000 + 0x1000 * p + 0x14) * 32 + 0 := rfl
  have k6 : (Reg.fabPeerSerialHi p).key = (0x100000 + 0x1000 * p + 0x18) * 32 + 0 := rfl
  refine ⟨?_, ?_, ?_⟩
  · unfold putPeer put64
    simp (disch := omega) only [get_put_ne, get_put_same]
    exact rfl
  · unfold putPeer put64
    simp (disch := omega) only [get_put_ne, get_put_same]
    exact rfl
  · unfold putPeer peerDigest
    rw [get64_put64 _ rfl rfl (by omega), Nat.mod_mod]

theorem putPeer_keeps (s : State) {p : Nat} (hp : p < 12) (w : TrainLane) : Keeping (PeerKey p) s (s.putPeer p w) := by
  have hput : ∀ (u : State) (f : Fld) (o l v : Nat), f.key = (0x100000 + 0x1000 * p + o) * 32 + l → l < 32 → 0x10 ≤ o → o < 0x1C →
      Keeping (PeerKey p) u (u.put f v) := fun u f o l v hkey hl h1 h2 => .put u (by omega) ⟨o, l, hl, hkey, h1, h2⟩ v
  unfold putPeer put64
  refine (((((hput _ (Reg.fabPeerDev p) 0x10 0 _ rfl ?_ ?_ ?_).trans (hput _ (Reg.fabPeerPort p) 0x10 16 _ rfl ?_ ?_ ?_)).trans
    (hput _ (Reg.fabPeerAddressed p) 0x10 30 _ rfl ?_ ?_ ?_)).trans (hput _ (Reg.fabPeerValid p) 0x10 31 _ rfl ?_ ?_ ?_)).trans
    (hput _ (Reg.fabPeerSerialLo p) 0x14 0 _ rfl ?_ ?_ ?_)).trans (hput _ (Reg.fabPeerSerialHi p) 0x18 0 _ rfl ?_ ?_ ?_)
  all_goals decide

/-! ## The job (R310, R311, R314, R414) -/

/-- From `s` to `t` the fabric has worked, and port `p` is as up as it was. -/
structure Rises (p : Nat) (s t : State) : Prop where
  serves : Serves s t
  keeps : KeepsUp (s.port p) (t.port p)

theorem Rises.refl (p : Nat) (s : State) : Rises p s s := ⟨.refl s, rfl, rfl, rfl⟩

theorem Rises.trans {p : Nat} {r s t : State} (h : Rises p r s) (k : Rises p s t) : Rises p r t := ⟨h.serves.trans k.serves, h.keeps.trans k.keeps⟩

theorem Rises.of_sending {p : Nat} {s t : State} (h : Sending s t) : Rises p s t := ⟨.of_sending h, .of_sent (h.port p)⟩

theorem Rises.setPort (s : State) (p : Nat) {x : Port} (h : KeepsUp (s.port p) x) : Rises p s (s.setPort p x) :=
  ⟨.setPort .., (port_setPort_same s p x).symm ▸ h⟩

theorem serves_of_net {s t : State} (h : { t with net := s.net } = s) : Serves s t := by
  have hget : ∀ f, t.get f = s.get f := get_of_regs (congrArg State.regs h :)
  refine ⟨⟨fun f _ _ => hget f, ?_⟩, fun f _ => hget f, ?_, ?_⟩
  · exact (congrArg (fun v : State => { v with
      regs := s.regs, ports := s.ports, cad := s.cad, faultQ := s.faultQ, out := s.out, freeCtr := s.freeCtr }) h :)
  · rw [(congrArg State.faultQ h :)]
  · rw [(congrArg State.out h :)]

theorem originate_rises (s : State) (p : Nat) : Rises p s s.originate ∧
    s.originate.get (Reg.fabSealState p) = s.get (Reg.fabSealState p) ∧ s.originate.life = s.life := by
  obtain ⟨u, r, hu, he⟩ : ∃ (u : State) (r : LinkRec), { u with net := s.net } = s ∧ s.originate = u.flood r none := by
    refine ⟨_, _, ?_, rfl⟩
    rfl
  have hget : ∀ f, u.get f = s.get f := get_of_regs (congrArg State.regs hu :)
  have hserves : Serves s u := serves_of_net hu
  have hports : u.ports = s.ports := (congrArg State.ports hu :)
  have hkeeps : KeepsUp (s.port p) (u.port p) := by
    rw [port_of_ports hports]
    exact ⟨rfl, rfl, rfl⟩
  have hflood := u.flood_sending r none
  rw [he]
  generalize u.flood r none = t at *
  exact ⟨Rises.trans ⟨hserves, hkeeps⟩ (.of_sending hflood),
    (get_word_of_sending hflood (f := Reg.fabSealState p) (o := 0x240) rfl (by decide) (show 0 < 32 by decide)).trans (hget _),
    (congrArg State.life hflood.rest :).trans (congrArg State.life hu :)⟩

theorem sendReq_rises (s : State) {p : Nat} (hp : p < 12) (dst : Nat) : Rises p s (s.sendReq p dst) ∧
    (s.sendReq p dst).get (Reg.fabSealState p) = s.get (Reg.fabSealState p) := by
  have hasks : Rises p s (s.asking p) :=
    Rises.trans (s := s.draw) ⟨.draw s, rfl, rfl, rfl⟩ (.setPort s.draw p ⟨rfl, rfl, rfl⟩)
  have hseal : (s.asking p).get (Reg.fabSealState p) = s.get (Reg.fabSealState p) := rfl
  have hsend := s.sendReq_sending (Nat.lt_trans hp (by decide)) (p := p) dst
  exact ⟨hasks.trans (.of_sending hsend), (get_word_of_sending hsend (f := Reg.fabSealState p) (o := 0x240) rfl (by decide) (show 0 < 32 by decide)).trans hseal⟩

theorem sendHello_rises (s : State) {p : Nat} (hp : p < 12) : Rises p s (s.sendHello p) := by
  have kseal : (Reg.fabSealState p).key = (0x100000 + 0x1000 * p + 0x240) * 32 + 0 := rfl
  have hput : Serves s.draw (s.draw.put (Reg.fabSealState p) 1) := by
    refine .put _ (by omega) ?_ 1
    rintro ⟨q, o, l, hq, ho, hl, hkey⟩
    omega
  have hbegin : Rises p s (s.beginSeal p) :=
    Rises.trans (s := s.draw.put (Reg.fabSealState p) 1) ⟨(Serves.draw s).trans hput, rfl, rfl, rfl⟩ (.setPort (s.draw.put (Reg.fabSealState p) 1) p ⟨rfl, rfl, rfl⟩)
  rw [sendHello_eq]
  exact hbegin.trans (.of_sending (sendOn_sending _ (Nat.lt_trans hp (by decide)) _).1)

theorem portUpJob_spec (s : State) {p : Nat} (hp : p < 12) (changed : Bool) :
    Rises p s (s.portUpJob p changed) ∧ (s.inJob = false → s.portUpJob p changed = s) ∧
    (changed = true → (s.portUpJob p changed).get (Reg.fabSealState p) = s.get (Reg.fabSealState p)) := by
  have h1 : Rises p s (if s.inJob then s.originate else s) ∧
      (if s.inJob then s.originate else s).get (Reg.fabSealState p) = s.get (Reg.fabSealState p) ∧
      (s.inJob = false → (if s.inJob then s.originate else s) = s) := by
    obtain ⟨ho, hseal, -⟩ := s.originate_rises p
    split
    next h => exact ⟨ho, hseal, fun e => by rw [h] at e; cases e⟩
    · exact ⟨.refl p s, rfl, fun _ => rfl⟩
  unfold portUpJob
  dsimp only
  generalize (if s.inJob then s.originate else s) = u at *
  obtain ⟨hu, hseal, hout⟩ := h1
  split
  · exact ⟨hu, hout, fun _ => hseal⟩
  next m _ =>
    split
    · exact ⟨hu, hout, fun _ => hseal⟩
    next hin =>
      have hjob : s.inJob = false → False := fun e => by
        rw [hout e, e] at hin
        exact hin rfl
      split
      · obtain ⟨hreq, hs⟩ := u.sendReq_rises hp m.addr
        exact ⟨hu.trans hreq, fun e => (hjob e).elim, fun _ => hs.trans hseal⟩
      next hc =>
        split
        · exact ⟨hu.trans (u.sendHello_rises hp), fun e => (hjob e).elim, fun e => absurd e hc⟩
        · exact ⟨hu, hout, fun _ => hseal⟩

end State

end Sys2Proof.Machine
end

section
/-! SUPPORT. Proofs: ports train and come up, degraded, in loopback, as Ethernet or down (R289 to R292, R295). -/

namespace Sys2Proof.Machine

/-- The faults of the foreign lanes. -/
def foreignFaults (lanes : List TrainLane) : List (Nat × Nat × Nat) :=
  (lanes.filter (foreignLane (identity lanes))).map (fun l => (0x3A, clsC, l.lane % 8))

namespace State

/-- The peer of a port has changed within a job (R291). -/
def peerChanged (s : State) (p : Nat) (w : TrainLane) : Bool :=
  s.inJob && s.flag (Reg.fabPeerValid p) && (s.peerDigest p != w.digest % 2 ^ 64 || s.get (Reg.fabPeerPort p) != w.port % 16)

/-- A changed peer is raised, and its link is down for the job and unsealed. -/
def dropPeer (s : State) (p : Nat) : State :=
  ((s.raisePort p 0x3C clsU 0).setPort p { s.port p with jobDown := true, reseal := true, myRandom := none, peerRandom := none }).put
    (Reg.fabSealState p) 0

/-- The device that has met its peer. -/
def metPeer (s u : State) (p : Nat) (w : TrainLane) : State := if s.peerChanged p w then (u.putPeer p w).dropPeer p else u.putPeer p w

theorem trained_ports {s u : State} {p : Nat} {lanes : List TrainLane} (h : Trained s u p lanes) : u.port p = s.port p :=
  port_of_ports (congrArg State.ports h.rest :) p

section
variable {s : State} {p : Nat} (hp : p < 12) (hdom : s.domUp (16 + p) = true) (hstate : s.get (Reg.fabStatusState p) = 1)
  (lanes : List TrainLane) (eqReq : Nat)
include hp hdom hstate

theorem portUp_eq : exec (.portUp p lanes eqReq) s = if s.get (Reg.fabCtrlMode p) == 1 then
      .next ((s.putLanes p lanes).put (Reg.fabStatusState p) (if lanes.any (fun l => l.signal && l.locked && l.passed) then 5 else 4))
    else
      let u := s.trained p lanes eqReq
      if u.get (Reg.fabStatusRxWidth p) < u.minLanes p ∨ u.get (Reg.fabStatusTxWidth p) < u.minLanes p then .next (u.goDown p)
      else match Machine.identity lanes with
        | none => .next (u.goDown p)
        | some w =>
          if (u.putPeer p w).flag (Reg.fabCtrlLoopback p) then .next (((u.putPeer p w).put (Reg.fabStatusState p) 6).portCounters p)
          else .next ((((s.metPeer u p w).putUpState p).portCounters p).portUpJob p (s.peerChanged p w)) := by
  have hopen : exec (.portUp p lanes eqReq) s = execPortUp p lanes eqReq s := rfl
  rw [hopen]
  unfold execPortUp
  rw [if_neg (by simp [hdom, hstate, hp])]
  refine congrArg (fun o => if s.get (Reg.fabCtrlMode p) == 1 then _ else o) ?_
  dsimp only
  have htrained : (lanes.filter (foreignLane (Machine.identity lanes))).foldl (fun t l => t.raisePort p 0x3A clsC l.lane)
    ((s.sendTrain p (laneMask lanes (usedLane (Machine.identity lanes))) eqReq).putLanes p lanes) = s.trained p lanes eqReq := rfl
  rw [htrained]
  generalize s.trained p lanes eqReq = u
  split
  · rfl
  · cases Machine.identity lanes with
    | none => rfl
    | some w =>
      dsimp only
      split
      · rfl
      · unfold metPeer dropPeer peerChanged
        cases s.inJob && s.flag (Reg.fabPeerValid p) && (s.peerDigest p != w.digest % 2 ^ 64 || s.get (Reg.fabPeerPort p) != w.port % 16) <;> rfl

end

/-- CTRL and its fields stay. -/
theorem trained_ctrl {s u : State} {p : Nat} (hp : p < 12) {lanes : List TrainLane} (h : Trained s u p lanes) {f : Fld} {l : Nat} (hl : l < 32)
    (hf : f.key = (0x100000 + 0x1000 * p) * 32 + l) : u.get f = s.get f := by
  refine h.keeps.word f ⟨p, 0, l, hp, by decide, hl, hf⟩ ?_
  rintro ⟨o, k, hk, hkey, ho⟩
  omega

theorem trained_minLanes {s u : State} {p : Nat} (hp : p < 12) {lanes : List TrainLane} (h : Trained s u p lanes) : u.minLanes p = s.minLanes p :=
  minLanes_of_get (trained_ctrl hp h (f := Reg.fabCtrlMinLanes p) (l := 4) (by decide) rfl)

/-! ## A port that goes down at the end of training -/

theorem trained_down {s u : State} {p : Nat} (hp : p < 12) {lanes : List TrainLane} (h : Trained s u p lanes) :
    ShowsLanes (u.goDown p) p lanes ∧ OnlyFabric s (u.goDown p) ∧ RaisesPort s (u.goDown p) p (foreignFaults lanes) ∧
      PortDown s (u.goDown p) p ∧ RaisesPort s (u.goDown p) p (foreignFaults lanes ++ [(0x39, clsU, 0)]) := by
  have hcad : u.cad = s.cad := (congrArg State.cad h.rest :)
  have hen : u.get (Reg.fabCtrlEn p) = s.get (Reg.fabCtrlEn p) := trained_ctrl hp h (l := 0) (by decide) rfl
  have hword : ∀ f : Fld, LaneKey p f.key → (u.goDown p).get f = u.get f := by
    intro f hf
    exact u.goDown_word p (hf.portWord hp) fun e => hf.other (.inl e)
  have hdown := u.goDown_down hp
  unfold PortDown at hdown
  rw [trained_ports h] at hdown
  have hfaults : u.faultQ <+: (u.goDown p).faultQ :=
    (((u.downed p).raisePort_spares p 0x39 clsU 0).trans (u.goDown_spares p)).serves.faults
  exact ⟨h.shows.of_get hword, h.keeps.only.trans (u.goDown_only hp), h.raised.raises hfaults, hdown, goDown_raises h.raised hcad hen⟩

/-! ## A port that comes up -/

/-- What training and the peer show stays when the port's STATE is set and the rest of the fabric works. -/
theorem trained_arrives {s u v t : State} {p : Nat} (hp : p < 12) {lanes : List TrainLane} (h : Trained s u p lanes) (w : TrainLane)
    (hv : Keeping (StateKey p) (u.putPeer p w) v) (ht : Serves v t) :
    ShowsLanes t p lanes ∧ OnlyFabric s t ∧ RaisesPort s t p (foreignFaults lanes) ∧
      t.get (Reg.fabPeerValid p) = 1 ∧ t.get (Reg.fabPeerPort p) = w.port % 16 ∧ t.peerDigest p = w.digest % 2 ^ 64 := by
  have hpeer := u.putPeer_keeps hp w
  obtain ⟨hvalid, hport, hdigest⟩ := u.putPeer_shows p w
  generalize u.putPeer p w = u3 at *
  have hall : Keeping (fun k => StateKey p k ∨ PeerKey p k) u t :=
    ((hpeer.mono fun k => .inr).trans (hv.mono fun k => .inl)).trans (.of_serves ht)
  have hafter : Keeping (StateKey p) u3 t := hv.trans (.of_serves ht)
  have hkeep : ∀ {f : Fld} {o l : Nat}, f.key = (0x100000 + 0x1000 * p + o) * 32 + l → 0x10 ≤ o → o < 0x1C → l < 32 → t.get f = u3.get f := by
    intro f o l hkey h1 h2 hl
    refine hafter.word f ⟨p, o, l, hp, by omega, hl, hkey⟩ fun e => ?_
    have hstate : (Reg.fabStatusState p).key = (0x100000 + 0x1000 * p + 4) * 32 + 0 := rfl
    unfold StateKey at e
    omega
  refine ⟨h.shows.of_get fun f hf => hall.word f (hf.portWord hp) hf.other, h.keeps.only.trans hall.only, h.raised.raises hall.faults,
    (hkeep (f := Reg.fabPeerValid p) (o := 0x10) (l := 31) rfl (by decide) (by decide) (by decide)).trans hvalid,
    (hkeep (f := Reg.fabPeerPort p) (o := 0x10) (l := 16) rfl (by decide) (by decide) (by decide)).trans hport, ?_⟩
  unfold peerDigest get64 at hdigest ⊢
  rw [hkeep (f := Reg.fabPeerSerialLo p) (o := 0x14) (l := 0) rfl (by decide) (by decide) (by decide),
    hkeep (f := Reg.fabPeerSerialHi p) (o := 0x18) (l := 0) rfl (by decide) (by decide) (by decide), hdigest]

theorem putPeer_rest (u : State) (p : Nat) (w : TrainLane) : SameButRegs u (u.putPeer p w) := by
  unfold putPeer put64
  repeat refine SameButRegs.write ?_
  exact rfl

theorem put_state_keeps (u : State) {p : Nat} (hp : p < 12) (v : Nat) : Keeping (StateKey p) u (u.put (Reg.fabStatusState p) v) := by
  have hkey : (Reg.fabStatusState p).key = (0x100000 + 0x1000 * p + 4) * 32 + 0 := rfl
  exact Keeping.put (K := StateKey p) u (f := Reg.fabStatusState p) (by omega) rfl v

/-- A port in loopback (R295). -/
theorem trained_loop {s u : State} {p : Nat} (hp : p < 12) {lanes : List TrainLane} (h : Trained s u p lanes) (w : TrainLane) :
    let t := ((u.putPeer p w).put (Reg.fabStatusState p) 6).portCounters p
    (ShowsLanes t p lanes ∧ OnlyFabric s t ∧ RaisesPort s t p (foreignFaults lanes) ∧
      t.get (Reg.fabPeerValid p) = 1 ∧ t.get (Reg.fabPeerPort p) = w.port % 16 ∧ t.peerDigest p = w.digest % 2 ^ 64) ∧
    (t.port p).fresh = false ∧ (t.port p).rxSeq = (s.port p).rxSeq ∧ t.get (Reg.fabStatusState p) = 6 ∧ t.cad = s.cad ∧ t.net = s.net ∧
    ((s.port p).fresh = true → (t.port p).shared = sharedCredits ∧ (t.port p).classes = classCredits.map (fun c => List.replicate 12 c)) ∧
    (t.port p).jobDown = (s.port p).jobDown := by
  have hkeeps := (u.putPeer p w).put_state_keeps hp 6
  have hstate : ((u.putPeer p w).put (Reg.fabStatusState p) 6).get (Reg.fabStatusState p) = 6 := get_put_same ..
  have hrest : SameButRegs u ((u.putPeer p w).put (Reg.fabStatusState p) 6) := u.putPeer_rest p w
  generalize (u.putPeer p w).put (Reg.fabStatusState p) 6 = v at *
  have hport : v.port p = s.port p := (port_of_ports (congrArg State.ports hrest :) p).trans (trained_ports h)
  obtain ⟨hserves, hsame, -, hfresh, hseq, hdown, hcredits⟩ := v.portCounters_spec hp
  dsimp only
  generalize v.portCounters p = t at *
  rw [hport] at hseq hdown hcredits
  exact ⟨trained_arrives hp h w hkeeps hserves, hfresh, hseq, (hserves.word _ ⟨p, 4, 0, hp, by decide, by decide, rfl⟩).trans hstate,
    ((congrArg State.cad hsame :).trans (congrArg State.cad hrest :)).trans (congrArg State.cad h.rest :),
    ((congrArg State.net hsame :).trans (congrArg State.net hrest :)).trans (congrArg State.net h.rest :), hcredits, hdown⟩

/-- What a changed peer leaves (R291). -/
theorem metPeer_spec {s u : State} {p : Nat} (hp : p < 12) {lanes : List TrainLane} (h : Trained s u p lanes) (w : TrainLane) :
    let v := s.metPeer u p w
    Keeping (StateKey p) (u.putPeer p w) v ∧ { v with regs := u.regs, faultQ := u.faultQ, ports := u.ports } = u ∧
    (v.port p).fresh = (s.port p).fresh ∧ (v.port p).rxSeq = (s.port p).rxSeq ∧
    (s.peerChanged p w = true → RaisedPort s v p (foreignFaults lanes ++ [(0x3C, clsU, 0)]) ∧ (v.port p).jobDown = true ∧
      v.get (Reg.fabSealState p) = 0) ∧
    (s.peerChanged p w = false → (v.port p).jobDown = (s.port p).jobDown) := by
  have hrest := u.putPeer_rest p w
  have hpeer := u.putPeer_keeps hp w
  unfold metPeer
  generalize u.putPeer p w = u3 at *
  have hport : u3.port p = s.port p := (port_of_ports (congrArg State.ports hrest :) p).trans (trained_ports h)
  cases hc : s.peerChanged p w
  · dsimp only
    rw [if_neg (by decide), hport]
    exact ⟨.refl u3, (congrArg (fun v : State => { v with faultQ := u.faultQ, ports := u.ports }) hrest :), rfl, rfl, fun e => (by cases e), fun _ => rfl⟩
  · dsimp only
    rw [if_pos rfl]
    have hq : u3.faultQ = u.faultQ := (congrArg State.faultQ hrest :)
    have hcad : u3.cad = s.cad := (congrArg State.cad hrest :).trans (congrArg State.cad h.rest :)
    have hen : u3.get (Reg.fabCtrlEn p) = s.get (Reg.fabCtrlEn p) := by
      refine (hpeer.word (Reg.fabCtrlEn p) ⟨p, 0, 0, hp, by decide, by decide, rfl⟩ ?_).trans (trained_ctrl hp h (l := 0) (by decide) rfl)
      rintro ⟨o, l, hl, hkey, h1, h2⟩
      have : (Reg.fabCtrlEn p).key = (0x100000 + 0x1000 * p) * 32 + 0 := rfl
      omega
    have hraised := (h.raised.of_faultQ hq).raise hcad hen 0x3C clsU 0
    have hserves := (u3.raisePort_spares p 0x3C clsU 0).serves
    have hupd := u3.raisePort_upd p 0x3C clsU 0
    unfold dropPeer
    generalize u3.raisePort p 0x3C clsU 0 = u4 at *
    have hthere : (u4.setPort p { u3.port p with jobDown := true, reseal := true, myRandom := none, peerRandom := none }).port p =
      { u3.port p with jobDown := true, reseal := true, myRandom := none, peerRandom := none } := port_setPort_same ..
    have hset : Serves u4 (u4.setPort p { u3.port p with jobDown := true, reseal := true, myRandom := none, peerRandom := none }) := .setPort ..
    have hsetRest : { u4.setPort p { u3.port p with jobDown := true, reseal := true, myRandom := none, peerRandom := none } with ports := u4.ports } = u4 := rfl
    generalize u4.setPort p { u3.port p with jobDown := true, reseal := true, myRandom := none, peerRandom := none } = u5 at *
    have kseal : (Reg.fabSealState p).key = (0x100000 + 0x1000 * p + 0x240) * 32 + 0 := rfl
    have hseal : Serves u5 (u5.put (Reg.fabSealState p) 0) := by
      refine .put _ (by omega) ?_ 0
      rintro ⟨q, o, l, hq, ho, hl, hkey⟩
      omega
    have hsealRest : SameButRegs u5 (u5.put (Reg.fabSealState p) 0) := rfl
    have hzero : (u5.put (Reg.fabSealState p) 0).get (Reg.fabSealState p) = 0 := get_put_same ..
    have hportSeal : (u5.put (Reg.fabSealState p) 0).port p = u5.port p := rfl
    generalize u5.put (Reg.fabSealState p) 0 = v at *
    rw [hportSeal, hthere, hport]
    refine ⟨.of_serves ((hserves.trans hset).trans hseal), ?_, rfl, rfl, fun _ => ⟨hraised.of_faultQ ?_, rfl, hzero⟩, fun e => (by cases e)⟩
    · let kept : State → State := fun x => { x with regs := u.regs, faultQ := u.faultQ, ports := u.ports }
      exact (((congrArg kept hsealRest :).trans (congrArg kept hsetRest :)).trans (congrArg kept hupd :)).trans (congrArg kept hrest :)
    · exact (congrArg State.faultQ hsealRest :).trans (congrArg State.faultQ hsetRest :)

/-- A port that comes up for the fabric (R289 to R292, R308, R310). -/
theorem trained_job {s u : State} {p : Nat} (hp : p < 12) {lanes : List TrainLane} (h : Trained s u p lanes) (w : TrainLane) :
    let t := (((s.metPeer u p w).putUpState p).portCounters p).portUpJob p (s.peerChanged p w)
    (ShowsLanes t p lanes ∧ OnlyFabric s t ∧ RaisesPort s t p (foreignFaults lanes) ∧
      t.get (Reg.fabPeerValid p) = 1 ∧ t.get (Reg.fabPeerPort p) = w.port % 16 ∧ t.peerDigest p = w.digest % 2 ^ 64) ∧
    (t.port p).fresh = false ∧ (t.port p).rxSeq = (s.port p).rxSeq ∧ ShowsWidth t p ∧
    (s.inJob = false → t.cad = s.cad ∧ t.net = s.net ∧
      ((s.port p).fresh = true → (t.port p).shared = sharedCredits ∧ (t.port p).classes = classCredits.map (fun c => List.replicate 12 c))) ∧
    (s.peerChanged p w = true → RaisesPort s t p (foreignFaults lanes ++ [(0x3C, clsU, 0)]) ∧ (t.port p).jobDown = true ∧
      t.get (Reg.fabSealState p) = 0) ∧
    (s.peerChanged p w = false → (t.port p).jobDown = (s.port p).jobDown) := by
  obtain ⟨hmet, hmetRest, hfresh, hseq, hchanged, hsame⟩ := metPeer_spec hp h w
  generalize s.metPeer u p w = v0 at *
  generalize s.peerChanged p w = changed at *
  have hput := v0.put_state_keeps hp (if v0.get (Reg.fabStatusTxWidth p) = 8 ∧ v0.get (Reg.fabStatusRxWidth p) = 8 then 2 else 3)
  have hputUp : v0.putUpState p =
      v0.put (Reg.fabStatusState p) (if v0.get (Reg.fabStatusTxWidth p) = 8 ∧ v0.get (Reg.fabStatusRxWidth p) = 8 then 2 else 3) := rfl
  rw [← hputUp] at hput
  have hshows := v0.putUpState_shows p
  have hputRest : SameButRegs v0 (v0.putUpState p) := rfl
  have kseal : (Reg.fabSealState p).key = (0x100000 + 0x1000 * p + 0x240) * 32 + 0 := rfl
  have kstate : (Reg.fabStatusState p).key = (0x100000 + 0x1000 * p + 4) * 32 + 0 := rfl
  have hputSeal : (v0.putUpState p).get (Reg.fabSealState p) = v0.get (Reg.fabSealState p) := v0.putUpState_get p (by omega)
  generalize v0.putUpState p = v at *
  have hport : v.port p = v0.port p := port_of_ports (congrArg State.ports hputRest :) p
  have hrest : { v with regs := u.regs, faultQ := u.faultQ, ports := u.ports } = u :=
    (congrArg (fun x : State => { x with regs := u.regs, faultQ := u.faultQ, ports := u.ports }) hputRest :).trans hmetRest
  obtain ⟨hserves, hcount, hregs, hfresh1, hseq1, hdown1, hcredits1⟩ := v.portCounters_spec hp
  have hsealCount : (v.portCounters p).get (Reg.fabSealState p) = v.get (Reg.fabSealState p) := by
    refine hregs _ fun g hg => ?_
    rcases List.mem_cons.mp hg with rfl | hg
    · have : Reg.netAltroute.key = (0x100000 + 0xC030) * 32 := rfl
      omega
    · obtain ⟨q, hq, hg⟩ := List.mem_flatMap.mp hg
      obtain ⟨vc, hvc, rfl⟩ := List.mem_map.mp hg
      have hvc := List.mem_range.mp hvc
      have : (Reg.fabVcTxPkts q vc).key = (0x100000 + 0x1000 * q + 0x204 + 0x10 * vc) * 32 + 0 := rfl
      omega
  generalize v.portCounters p = t1 at *
  obtain ⟨hrises, hidle, hseal⟩ := t1.portUpJob_spec hp changed
  have hlife : t1.inJob = s.inJob := by
    have hl : t1.life = s.life := ((congrArg State.life hcount :).trans (congrArg State.life hrest :)).trans (congrArg State.life h.rest :)
    unfold inJob
    rw [hl]
  dsimp only
  generalize t1.portUpJob p changed = t at *
  obtain ⟨hkfresh, hkseq, hkdown⟩ := hrises.keeps
  have hlate := hserves.trans hrises.serves
  have hword : ∀ {f : Fld} {l : Nat}, f.key = (0x100000 + 0x1000 * p + 4) * 32 + l → l < 32 → t.get f = v.get f :=
    fun hkey hl => hlate.word _ ⟨p, 4, _, hp, by decide, hl, hkey⟩
  refine ⟨trained_arrives hp h w (hmet.trans hput) hlate, hkfresh.trans hfresh1, ?_, ?_, fun hjob => ?_, fun hc => ?_, fun hc => ?_⟩
  · rw [hkseq, hseq1, hport, hseq]
  · exact hshows.of_get (hword (f := Reg.fabStatusState p) (l := 0) rfl (by decide)) (hword (f := Reg.fabStatusTxWidth p) (l := 4) rfl (by decide))
      (hword (f := Reg.fabStatusRxWidth p) (l := 8) rfl (by decide))
  · rw [hidle (hlife.trans hjob)]
    rw [hport, hfresh] at hcredits1
    exact ⟨((congrArg State.cad hcount :).trans (congrArg State.cad hrest :)).trans (congrArg State.cad h.rest :),
      ((congrArg State.net hcount :).trans (congrArg State.net hrest :)).trans (congrArg State.net h.rest :), hcredits1⟩
  · obtain ⟨hraised, hdown, hzero⟩ := hchanged hc
    have hq : v.faultQ = v0.faultQ := (congrArg State.faultQ hputRest :)
    refine ⟨(hraised.of_faultQ hq).raises hlate.faults, ?_, ?_⟩
    · rw [hkdown, hdown1, hport, hdown]
    · rw [hseal hc, hsealCount, hputSeal, hzero]
  · rw [hkdown, hdown1, hport, hsame hc]

end State

/-! ## The commands -/

/-- PORT_UP in Ethernet mode leaves the registers of its lanes and its STATE (R295). -/
theorem portUp_ethernet {s : State} {p : Nat} (hp : p < 12) (lanes : List TrainLane) (v : Nat) (hv : v < 8) :
    let t := (s.putLanes p lanes).put (Reg.fabStatusState p) v
    ShowsLanes t p lanes ∧ SameButRegs s t ∧ SameRegsOut [] s t ∧ t.get (Reg.fabStatusState p) = v := by
  have hshows := s.putLanes_shows p lanes
  have hrest := s.putLanes_rest p lanes
  have hget : ∀ {f : Fld}, ¬ LaneKey p f.key → (s.putLanes p lanes).get f = s.get f := s.putLanes_get p lanes
  have kstate : (Reg.fabStatusState p).key = (0x100000 + 0x1000 * p + 4) * 32 + 0 := rfl
  generalize s.putLanes p lanes = u at *
  have hkeeps := u.put_state_keeps hp v
  refine ⟨hshows.of_get fun f hf => hkeeps.word f (hf.portWord hp) fun e => hf.other (.inl e), State.SameButRegs.write hrest, fun f hf _ => ?_, ?_⟩
  · rw [State.get_put_ne _ _ (by omega)]
    refine hget ?_
    rintro ⟨o, l, hl, hkey, ho⟩
    omega
  · rw [State.get_put_same]
    exact Nat.mod_eq_of_lt (show v < 2 ^ (Reg.fabStatusState p).w from hv)

/-- The clause of the statement on a port that is not in Ethernet mode. -/
theorem portUp_fabric {s u : State} {p : Nat} (hp : p < 12) {lanes : List TrainLane} (h : State.Trained s u p lanes) {o : Host.Outcome State Fault Refusal}
    (hexec : o = if u.get (Reg.fabStatusRxWidth p) < u.minLanes p ∨ u.get (Reg.fabStatusTxWidth p) < u.minLanes p then .next (u.goDown p)
      else match identity lanes with
        | none => .next (u.goDown p)
        | some w =>
          if (u.putPeer p w).flag (Reg.fabCtrlLoopback p) then .next (((u.putPeer p w).put (Reg.fabStatusState p) 6).portCounters p)
          else .next ((((s.metPeer u p w).putUpState p).portCounters p).portUpJob p (s.peerChanged p w))) :
    let rx := (lanes.filter (usedLane (identity lanes))).length % 16
    let tx := lanesIn (((identity lanes).map TrainLane.usable).getD 0 % 256)
    let loop := s.flag (Reg.fabCtrlLoopback p)
    ∃ t, o = .next t ∧ ShowsLanes t p lanes ∧ OnlyFabric s t ∧ RaisesPort s t p (foreignFaults lanes) ∧
      (rx < s.minLanes p ∨ tx < s.minLanes p → PortDown s t p ∧ RaisesPort s t p (foreignFaults lanes ++ [(0x39, clsU, 0)])) ∧
      (∀ w, identity lanes = some w → s.minLanes p ≤ rx → s.minLanes p ≤ tx →
        t.get (Reg.fabPeerValid p) = 1 ∧ t.get (Reg.fabPeerPort p) = w.port % 16 ∧ t.peerDigest p = w.digest % 2 ^ 64 ∧
        (t.port p).fresh = false ∧ (t.port p).rxSeq = (s.port p).rxSeq ∧
        t.get (Reg.fabStatusState p) = (if loop then 6 else if rx = 8 ∧ tx = 8 then 2 else 3) ∧
        (loop = true ∨ s.inJob = false → t.cad = s.cad ∧ t.net = s.net ∧
          ((s.port p).fresh = true → (t.port p).shared = sharedCredits ∧ (t.port p).classes = classCredits.map (fun c => List.replicate 12 c))) ∧
        (loop = false → s.peerChanged p w = true → RaisesPort s t p (foreignFaults lanes ++ [(0x3C, clsU, 0)]) ∧ (t.port p).jobDown = true ∧
          t.get (Reg.fabSealState p) = 0) ∧
        (loop = true ∨ s.peerChanged p w = false → (t.port p).jobDown = (s.port p).jobDown)) := by
  intro rx tx loop
  obtain ⟨hrx, htx, -⟩ := h.shows
  rw [hrx, htx, State.trained_minLanes hp h] at hexec
  by_cases hlow : rx < s.minLanes p ∨ tx < s.minLanes p
  · rw [if_pos hlow] at hexec
    obtain ⟨hshows, honly, hraises, hdown⟩ := State.trained_down hp h
    exact ⟨_, hexec, hshows, honly, hraises, fun _ => hdown, fun w _ h1 h2 => absurd hlow (by omega)⟩
  · rw [if_neg hlow] at hexec
    cases hwho : identity lanes with
    | none =>
      rw [hwho] at hexec
      obtain ⟨hshows, honly, hraises, hdown⟩ := State.trained_down hp h
      exact ⟨_, hexec, hshows, honly, hraises, fun _ => hdown, fun w hw => by cases hw⟩
    | some w =>
      rw [hwho] at hexec
      dsimp only at hexec
      have hflag : (u.putPeer p w).flag (Reg.fabCtrlLoopback p) = loop := by
        have hkey : (Reg.fabCtrlLoopback p).key = (0x100000 + 0x1000 * p) * 32 + 9 := rfl
        unfold loop State.flag
        rw [(u.putPeer_keeps hp w).word (Reg.fabCtrlLoopback p) ⟨p, 0, 9, hp, by decide, by decide, hkey⟩ (by
          rintro ⟨o, l, hl, e, h1, h2⟩
          omega), State.trained_ctrl hp h (l := 9) (by decide) hkey]
      rw [hflag] at hexec
      cases hloop : loop
      · rw [hloop, if_neg (by decide)] at hexec
        obtain ⟨⟨hshows, honly, hraises, hvalid, hport, hdigest⟩, hfresh, hseq, hwidth, hidle, hchanged, hsame⟩ := State.trained_job hp h w
        refine ⟨_, hexec, hshows, honly, hraises, fun hl => absurd hl hlow, fun v hv _ _ => ?_⟩
        cases hv
        refine ⟨hvalid, hport, hdigest, hfresh, hseq, ?_, fun hl => hidle (hl.resolve_left (by decide)), fun _ => hchanged,
          fun hl => hsame (hl.resolve_left (by decide))⟩
        obtain ⟨hrx', htx', -⟩ := hshows
        unfold ShowsWidth at hwidth
        rw [hwidth, hrx', htx']
        exact (if_congr and_comm rfl rfl).trans (if_neg (by decide)).symm
      · rw [hloop, if_pos rfl] at hexec
        obtain ⟨⟨hshows, honly, hraises, hvalid, hport, hdigest⟩, hfresh, hseq, hset, hcad, hnet, hcredits, hdown⟩ := State.trained_loop hp h w
        refine ⟨_, hexec, hshows, honly, hraises, fun hl => absurd hl hlow, fun v hv _ _ => ?_⟩
        cases hv
        exact ⟨hvalid, hport, hdigest, hfresh, hseq, hset, fun _ => ⟨hcad, hnet, hcredits⟩, fun e => (by cases e), fun _ => hdown⟩

/-- Settles O38: the start of training is one lemma; the end of training is one state, from which the port goes down or meets its peer and
comes up, in loopback or for the job, each with its own lemma. -/
theorem portsTrain : Obligations.PortsTrain := by
  intro s p hp hdom
  have kstate : (Reg.fabStatusState p).key = (0x100000 + 0x1000 * p + 4) * 32 + 0 := rfl
  refine ⟨fun hen => ?_, fun hstate => ?_, fun hstate => ?_, fun hen => ?_, fun lanes eqReq hstate => ?_, fun lanes eqReq hstate => ?_⟩
  · have hflag : s.flag (Reg.fabCtrlEn p) = false := by simpa [State.flag] using hen
    exact ⟨if_pos (by simp [hflag]), if_pos (by simp [hflag]), if_pos (by simp [hflag])⟩
  · exact if_pos (by simp [hstate])
  · exact if_pos (by simp [hstate])
  · have hflag := State.flag_of_one hen
    refine ⟨fun hstate hparent => ⟨s.trainStart p, ?_, s.trainStart_trains hp⟩, fun hstate hparent => ?_, ⟨s.trainStart p, ?_, s.trainStart_trains hp⟩,
      fun hstate => ⟨s.trainStart p, ?_, s.trainStart_trains hp⟩⟩
    · refine (if_neg (by simp [hp, hdom, hflag, hstate])).trans ?_
      rw [hparent]
      rfl
    · have hexec : exec (.portTrainStart p) s = .next (s.trainStart p).repairTree := by
        refine (if_neg (by simp [hp, hdom, hflag, hstate])).trans ?_
        rw [hparent]
        rfl
      obtain ⟨htrains, hcount, hregs, hrest, -⟩ := s.trainStart_trains hp
      have honly : OnlyFabric s (s.trainStart p) := by
        refine ⟨fun f hf _ => hregs f ?_, ?_⟩
        · have kcount : (Reg.fabRetrains p).key = (0x100000 + 0x1000 * p + 0x20) * 32 + 0 := rfl
          simp only [List.mem_cons, List.not_mem_nil, or_false]
          rintro g (rfl | rfl) <;> omega
        · exact (congrArg (fun v : State => { v with ports := s.ports, net := s.net, cad := s.cad, faultQ := s.faultQ }) hrest :)
      have hrepair := (s.trainStart p).repairTree_spares.serves
      generalize s.trainStart p = u at *
      exact ⟨_, hexec, (hrepair.word _ ⟨p, 4, 0, hp, by decide, by decide, rfl⟩).trans htrains,
        (hrepair.word (Reg.fabRetrains p) ⟨p, 0x20, 0, hp, by decide, by decide, rfl⟩).trans hcount, honly.trans hrepair.only⟩
    · exact if_neg (by simp [hp, hdom, hflag])
    · exact if_neg (by simp [hp, hdom, hflag, hstate])
  · exact if_pos (by simp [hstate])
  · intro who used foreign fs rx txMask tx shown
    have hexec := State.portUp_eq hp hdom hstate lanes eqReq
    refine ⟨fun hmode => ?_, fun hmode => ?_⟩
    · rw [if_pos (by simp [hmode])] at hexec
      obtain ⟨hshows, hrest, hregs, hset⟩ := portUp_ethernet (s := s) hp lanes
        (if lanes.any (fun l => l.signal && l.locked && l.passed) then 5 else 4) (by split <;> decide)
      exact ⟨_, hexec, hshows, hrest, hregs, hset⟩
    · rw [if_neg (by simpa using hmode)] at hexec
      have htrained := s.trained_of hp lanes eqReq
      dsimp only at hexec
      generalize s.trained p lanes eqReq = u at *
      exact portUp_fabric hp htrained hexec

end Sys2Proof.Machine
end
